-- ==== Sys2Proof/Word.lean ====
section
/-!
DEFINITION. The word types of the block: registers are 32 bits wide (spec 00, Register tables), memory is bytes.
-/
namespace Sys2Proof

/-- A register of the register window, or any 32-bit field. -/
abbrev Word := BitVec 32

/-- One byte. -/
abbrev Byte := BitVec 8

end Sys2Proof
end

