-- ==== Sys2Proof/Inputs.lean ====
section
/-!
DEFINITION. What the environment answers inside a command: host memory, NAND dies, neighbours, sensors, pins.
Each type lists what the spec lets the outside world present at that boundary (02_boundary_ports.md).
-/
namespace Sys2Proof

/-- The answer of a write data port request: the bytes, or a host fabric error (R33, R38). -/
inductive HostRead where
  | ok (bytes : List Byte)
  | err
deriving DecidableEq, Repr

/-- Who performs a register access: the register port, the main core or the housekeeping core (R576, R577). -/
inductive Writer where
  | hostPort
  | mainCore
  | hkCore
deriving DecidableEq, Repr

/-- A Dovetail port (R48). -/
inductive Side where
  | east
  | west
deriving DecidableEq, Repr

/-- Who waits at the clamp rack: a forecast, a channel's XM charge, a jig (R436 to R438). -/
inductive Requester where
  | forecast
  | xm (ch : Nat)
  | jig (ch : Nat)
deriving DecidableEq, Repr

/-- The caller of the Cabinet service routine (R530): whether the call comes from boot ROM execution,
and whether the caller's buffers lie where the routine accepts them. -/
structure Caller where
  boot : Bool := false
  ok : Bool := true
deriving DecidableEq, Repr

/-- A neighbour found at BOOT step 10 on a Dovetail port (R64, R408). -/
structure Peer where
  die : BitVec 3
  leadOk : Bool
  lanes : Nat
deriving DecidableEq, Repr

/-- What a PRESENCE message says besides its sender (R409, R410, R412): its sender's two links are up, and whether with it
the ring has been seen whole. -/
structure RingIn where
  east : Bool := true
  west : Bool := true
  whole : Bool := false
deriving DecidableEq, Repr

/-- A flit refused for its CRC or its sequence (R407): one that this block received on a port, or one that it sent there, by its
sequence number. -/
inductive FlitRefusal where
  | here (port : Side)
  | peer (port : Side) (seq : BitVec 9)
deriving DecidableEq, Repr

/-- A copy of an anchor and the block that sends it; no bytes where it holds no valid one (R419). -/
structure AnchorMsg where
  die : BitVec 3 := 0
  bytes : List Byte := []
deriving DecidableEq, Repr

/-- What the outside presents while BOOT runs (R47, R64, R72, R408). -/
structure BootIn where
  dieId : BitVec 3 := 0
  leadOk : Bool := false
  east : Option Peer := none
  west : Option Peer := none
  tmax : BitVec 16 := 0
  /-- the sector of an erase that is redone verifies erased within its pulses (R538). -/
  redoOk : Bool := true
deriving DecidableEq, Repr

/-- One sub-step of a training attempt: the time it took, µs, and the narrowest eye it found, in 1/64 UI (R203). -/
structure SubStep where
  micros : Nat := 0
  eye : Nat := 64
deriving DecidableEq, Repr

/-- What TRAIN step 2 finds on a LUN of a target: its status byte, whether a suspended operation is an erase, the part of the
10 ms wait already spent, and when the die is ready after a resume, both in µs (R74, R190). -/
structure LunWait where
  lun : Nat := 0
  status : Byte := 0
  erase : Bool := false
  spent : Nat := 0
  ready : Option Nat := some 0
deriving DecidableEq, Repr

/-- What one target answers in TRAIN: its LUNs in step 2, its read ID bytes, the CRC checks of the three copies of its
parameter page, the page size, planes, LUNs and pages per block that the page gives, and the sub-steps 4a to 4e of the attempt
at the k-th rate tried (R189, R190, R203, R204). -/
structure TargetIn where
  ce : Nat := 0
  waits : List LunWait := []
  idBytes : List Byte := []
  crcOk : List Bool := [true, true, true]
  pageBytes : Nat := 0
  planes : Nat := 4
  luns : Nat := 1
  pages : Nat := 0
  rates : List (List SubStep) := []
deriving DecidableEq, Repr

/-- The targets of one channel in TRAIN. -/
structure ChanTrainIn where
  ch : Nat := 0
  targets : List TargetIn := []
deriving DecidableEq, Repr

/-- A retraining search as it ended: its time in µs, the read bursts it took, and the narrowest eye it found, in 1/64 UI
(R206). -/
structure SearchResult where
  micros : Nat := 0
  bursts : Nat := 0
  eye : Nat := 64
deriving DecidableEq, Repr

/-- Pins and PHY progress seen by one jig cycle (R139, R140): ready pins, bus cycles finished, the bytes that their
data-out bursts and feature cycles brought, the store bits that an upset has inverted in the word fetched (R151), and how far
the read eye centre has moved if the word takes a drift monitor sample (R205). -/
structure JigIn where
  rbn : BitVec 8 := 0xFF
  busDone : Nat := 0
  dout : List Byte := []
  upset : BitVec 160 := 0
  eye : Byte := 0
deriving DecidableEq, Repr

/-- What the reads of one flash codeword find: an erased codeword, one that does not decode, or user bytes and label. -/
inductive CwSeen where
  | erased
  | bad
  | ok (user label : List Byte)
deriving DecidableEq, Repr

/-- What the reads of a journal page find, codeword by codeword, on copy A and on copy B (R308, R315). -/
structure PageRead where
  a : List CwSeen := []
  b : List CwSeen := []
deriving DecidableEq, Repr

/-- What the two copies together give of a journal page: erased on both, readable from neither, or its 65,536 user bytes (R315,
R595). -/
inductive PageSeen where
  | erased
  | bad
  | ok (user : List Byte)
deriving DecidableEq, Repr

/-- The 16 codewords of one member of a row (R316). -/
structure RowSeen where
  group : Nat := 0
  row : Nat := 0
  member : Nat := 0
  cws : List CwSeen := []
deriving DecidableEq, Repr

/-- What a seal scan finds of one erase block set: codeword 0 of page 0, the last programmed row, and the parity labels of
its rows (R366). -/
structure BlockSeen where
  lun : Nat := 0
  block : Nat := 0
  first : CwSeen := .erased
  last : Nat := 0
  seals : List (Nat × List Byte) := []
deriving DecidableEq, Repr

/-- What journal recovery reads, each codeword as the ladder up to step 5 leaves it: journal pages by ring page index (one
that is not listed is erased), journal LUNs that became unreadable with their cause, rows of open groups, the LUNs of the
window's old layout with their blocks, and what a seal scan finds (R314 to R316, R366, R594, R595). -/
structure RecoveryIn where
  pages : List (Nat × PageRead) := []
  dead : List (Nat × Nat) := []
  rows : List RowSeen := []
  oldLuns : List (Nat × Nat) := []
  scan : List BlockSeen := []
  maxEpoch : Nat := 0
deriving DecidableEq, Repr

/-- One housekeeping round (R455, R456). -/
structure RoundIn where
  temps : List (BitVec 16) := []
  volts : List (BitVec 16) := []
  refOk : Bool := true
deriving DecidableEq, Repr

/-- What a JOB message says of a follower's accumulator: opened to heads with a parameter block, or returned (R394, R399,
R420). -/
inductive AccumIn where
  | open (heads : BitVec 16) (param : List Byte)
  | close
deriving DecidableEq, Repr

/-- What a JOB message carries (R415, R432): its sender and handle, the LUN and priority, the drawer items, what the page is
expected to be, the label of a page to be programmed, the job data buffer, and for each codeword that moves to or from host
memory its pieces there, address and bytes (none for a page that no host data belongs to). `link`: the page's codewords
follow as CODEWORD messages. `go`: the job of that handle, whose data has been fetched, goes on as its `kind` says: 1
programs the data, 4 programs pads, 0 programs nothing. `accum`: the accumulator of the receiver. -/
structure RemoteIn where
  src : BitVec 3 := 0
  handle : Nat := 0
  lun : Nat := 0
  prio : Nat := 1
  items : List (BitVec 128) := []
  block : Nat := 0
  page : Nat := 0
  profile : Nat := 1
  mask : BitVec 16 := 0
  scan : Bool := false
  maxStep : Nat := 6
  group : Nat := 0
  member : Nat := 0
  row : Nat := 0
  width : Nat := 0
  kind : Nat := 0
  stamp : Word := 0
  sealW : BitVec 96 := 0
  addrs : List (List (BitVec 64 × Nat)) := []
  data : List Byte := []
  link : Bool := false
  go : Bool := false
  accum : Option AccumIn := none
deriving DecidableEq, Repr

/-- A part of P and Q: the block that sends it, and the data members that it holds (R416). -/
structure PartIn where
  die : BitVec 3 := 0
  members : List Nat := []
deriving DecidableEq, Repr

/-- What a CODEWORD message brings: beats of a feed run for a head, a codeword that a job of this block asked for, or one of the
page that a job of another block programs here (R415, R417, R420). -/
inductive CwTo where
  | head (h : Nat)
  | job
  | page (die : BitVec 3)
deriving DecidableEq, Repr

end Sys2Proof
end

