-- ==== Sys2Proof/Syntax.lean ====
section
/-!
DEFINITION. The commands of the block: one constructor per row of spec/opcode_table.json, in the table's order,
with the row's operands. What the environment answers (bytes read, pin levels, page contents) is an operand of
the command that consumes it; its types stand in Inputs.lean.
-/
namespace Sys2Proof

/-- A command sent to the block. Each docstring gives the row's mnemonic and the rules that define it. -/
inductive Instr where
  /-- POR_N_ASSERT (R58). -/
  | porNAssert
  /-- RST_N_ASSERT (R58). -/
  | rstNAssert
  /-- RESET_DEASSERT (R53). -/
  | resetDeassert (b : BootIn)
  /-- TRAIN_ENTRY (R73). -/
  | trainEntry (t : List ChanTrainIn)
  /-- TARGET_READY_TIMEOUT (R74). -/
  | targetReadyTimeout (ch ce : Nat)
  /-- SOFT_RESET (R62). -/
  | softReset (v : Word)
  /-- ENTER_STANDBY (R77). -/
  | enterStandby (v : Word)
  /-- STANDBY_ENTRY (R77). -/
  | standbyEntry (ownClear : Bool)
  /-- STBY_REFUSED (R77). -/
  | stbyRefused
  /-- WATCHDOG (R58). -/
  | watchdog
  /-- AON_TIMER_EXPIRY (R78). -/
  | aonTimerExpiry
  /-- RING_ENABLE (R94). -/
  | ringEnable (n : Nat)
  /-- RING_SHUTDOWN (R126). -/
  | ringShutdown (n : Nat) (walk : List HostRead)
  /-- RING_RESTART (R94). -/
  | ringRestart (n : Nat)
  /-- RING_DOORBELL (R105). -/
  | ringDoorbell (n : Nat) (v : Word)
  /-- RING_FETCH (R103). -/
  | ringFetch (n : Nat) (unit0 rest : HostRead)
  /-- ENTRY_COMPLETION (R37). -/
  | entryCompletion (eid : Nat)
  /-- WRITE_ROW (R212). -/
  | writeRow (eid : Nat) (list : List HostRead)
  /-- READ (R118). -/
  | read (eid : Nat) (list : List HostRead)
  /-- RELEASE_GROUP (R310). -/
  | releaseGroup (eid : Nat)
  /-- FLUSH (R118). -/
  | flush (eid : Nat)
  /-- BIND (R380). -/
  | bind (eid : Nat)
  /-- BIND_RESERVE (R380). -/
  | bindReserve
  /-- BIND_WAIT_EVENT (R380). -/
  | bindWaitEvent (eid : Nat)
  /-- UNBIND_FORCE (R382). -/
  | unbindForce (eid : Nat)
  /-- RAW_JIG (R116). -/
  | rawJig (eid : Nat) (data : HostRead)
  /-- GROUP_OPEN (R292). -/
  | groupOpen (eid : Nat)
  /-- GROUP_CLOSE (R304). -/
  | groupClose (eid : Nat)
  /-- REBUILD_START (R345). -/
  | rebuildStart (eid : Nat)
  /-- REFIT_START (R356). -/
  | refitStart (eid : Nat) (plan : HostRead)
  /-- PATROL_PAUSE (R351). -/
  | patrolPause (eid : Nat)
  /-- PATROL_RESUME (R351). -/
  | patrolResume (eid : Nat)
  /-- PATROL_SET_RATE (R117). -/
  | patrolSetRate (eid : Nat)
  /-- PATROL_NEW_LAP (R351). -/
  | patrolNewLap (eid : Nat)
  /-- ACCUM_OPEN (R394). -/
  | accumOpen (eid : Nat) (param : HostRead)
  /-- ACCUM_DRAIN_END (R21). -/
  | accumDrainEnd
  /-- ACCUM_RETURN (R399). -/
  | accumReturn (eid : Nat)
  /-- NOP (R118). -/
  | nop (eid : Nat)
  /-- HOST_READ_DONE (R34). -/
  | hostReadDone (tag : Nat) (beats : HostRead)
  /-- HOST_WRITE_ACK (R36). -/
  | hostWriteAck (tag : Nat) (err : Bool)
  /-- WRITE_DATA_ARRIVAL (R298). -/
  | writeDataArrival (eid member cw : Nat) (data : List Byte)
  /-- SLOT_ASSIGN (R297). -/
  | slotAssign (eid : Nat)
  /-- SLOT_WAIT_EVENT (R297). -/
  | slotWaitEvent (eid : Nat)
  /-- DRAWER_PLACE (R168). -/
  | drawerPlace (ch : Nat)
  /-- CLAMP_GRANT (R438). -/
  | clampGrant
  /-- DEFER_EVENT (R440). -/
  | deferEvent (who : Requester)
  /-- XM_CHARGE_RELEASE (R183). -/
  | xmChargeRelease (ch : Nat)
  /-- JIG_MICROWORD (R132). -/
  | jigMicroword (ch : Nat) (p : JigIn)
  /-- MC_CLAMP_RELEASE (R151). -/
  | mcClampRelease (ch : Nat)
  /-- JIG_RELOAD (R152). -/
  | jigReload (ch : Nat) (parityOk : Bool)
  /-- JIG_TIMER_EXPIRY (R143). -/
  | jigTimerExpiry (ch : Nat)
  /-- STATUS_CAPTURE (R145). -/
  | statusCapture (ch : Nat) (b : Byte)
  /-- JIG_RESUME (R138). -/
  | jigResume (who : Writer) (ch : Nat)
  /-- JIG_STOP (R172). -/
  | jigStop (who : Writer) (ch : Nat)
  /-- JS_SEL (R175). -/
  | jsSel (v : Word)
  /-- CODEWORD_ENCODE (R231). -/
  | codewordEncode (engine : Nat) (fault : Option Bool)
  /-- HARD_DECODE (R236). -/
  | hardDecode (engine job cw : Nat) (fault : Bool)
  /-- SOFT_DECODE (R279). -/
  | softDecode (engine job cw : Nat) (fault : Bool)
  /-- FUSION_DECODE (R279). -/
  | fusionDecode (engine job cw : Nat) (fault : Bool)
  /-- PREDICTED_THRESHOLDS (R248). -/
  | predictedThresholds (job : Nat)
  /-- TRUED_THRESHOLDS (R272). -/
  | truedThresholds (job : Nat)
  /-- RETRY_TABLE (R277). -/
  | retryTable (job : Nat)
  /-- SOFT_READ (R278). -/
  | softRead (job : Nat)
  /-- FUSION (R278). -/
  | fusion (job : Nat)
  /-- RECONSTRUCTION (R280). -/
  | reconstruction (job cw : Nat) (window : HostRead)
  /-- TRUING_ITERATION (R269). -/
  | truingIteration (id : Nat)
  /-- TRUING_ABANDON (R271). -/
  | truingAbandon (id : Nat)
  /-- WAKE_SWEEP (R285). -/
  | wakeSweep
  /-- DOSE_TICK (R258). -/
  | doseTick
  /-- DOSE_SAVE (R262). -/
  | doseSave
  /-- WALL_CLOCK (R263). -/
  | wallClock (v : BitVec 48)
  /-- DRIFT_TRIP (R205). -/
  | driftTrip (ch : Nat) (measure : Byte)
  /-- RETRAIN_DUE (R205). -/
  | retrainDue (ch : Nat)
  /-- RETRAIN_SEARCH_END (R206). -/
  | retrainSearchEnd (ch : Nat) (r : SearchResult) (targets : List TargetIn)
  /-- SEARCH_RESTART (R206). -/
  | searchRestart (ch : Nat)
  /-- JOURNAL_PAGE_START (R310). -/
  | journalPageStart
  /-- JOURNAL_PAGE_DURABLE (R307). -/
  | journalPageDurable
  /-- STRIPE_WIN_GRANT (R318). -/
  | stripeWinGrant (v : Word)
  /-- JOURNAL_RECOVERY (R315). -/
  | journalRecovery (r : RecoveryIn)
  /-- WINDOW_WRITE_RETRY (R593). -/
  | windowWriteRetry
  /-- WINDOW_READ_RETRY (R593). -/
  | windowReadRetry
  /-- DIR_CACHE_MISS (R323). -/
  | dirCacheMiss (group : Nat) (r : HostRead)
  /-- JOURNAL_CANDIDATES (R364). -/
  | journalCandidates (sub : Nat) (lun : BitVec 16)
  /-- DECLARE_LUN_FAILED (R328). -/
  | declareLunFailed (lun : BitVec 16)
  /-- RETIRE_MEMBER (R331). -/
  | retireMember (v : Word)
  /-- LEDGER_CLEAR (R343). -/
  | ledgerClear (idx : BitVec 16)
  /-- REBUILD_ROW (R347). -/
  | rebuildRow (window : HostRead)
  /-- PATROL_ROW (R352). -/
  | patrolRow (window : HostRead)
  /-- REFIT_ROW (R358). -/
  | refitRow (window : HostRead)
  /-- REFIT_ABORT (R362). -/
  | refitAbort (v : Byte)
  /-- ATTACH (R385). -/
  | attach (m : BitVec 64)
  /-- DETACH (R385). -/
  | detach (m : BitVec 64)
  /-- FEED (R386). -/
  | feed (m : BitVec 64)
  /-- FEED_RUN (R387). -/
  | feedRun (head beats : Nat)
  /-- VERIFY_GOOD (R390). -/
  | verifyGood (m : BitVec 64)
  /-- VERIFY_BAD (R391). -/
  | verifyBad (m : BitVec 64)
  /-- FRAG_OPEN (R395). -/
  | fragOpen (m : BitVec 64)
  /-- PASS (R396). -/
  | pass (m : BitVec 64)
  /-- PASS_JUDGE (R397). -/
  | passJudge (head : Nat) (samples : List Byte)
  /-- FRAG_READ (R398). -/
  | fragRead (m : BitVec 64)
  /-- FRAG_CLOSE (R398). -/
  | fragClose (m : BitVec 64)
  /-- MEDIA_RESERVED_MSG (R376). -/
  | mediaReservedMsg (m : BitVec 64)
  /-- FORECAST (R44). -/
  | forecast (m : Word)
  /-- REVOKE (R44). -/
  | revoke (m : Word)
  /-- MEDIA_ABORT (R400). -/
  | mediaAbort (m : Word)
  /-- SIDEBAND_IGNORED (R43). -/
  | sidebandIgnored (m : Word)
  /-- FORECAST_EXPIRY (R44). -/
  | forecastExpiry
  /-- PWR_FAIL (R450). -/
  | pwrFail
  /-- HOLDUP_DONE (R450). -/
  | holdupDone
  /-- OV_ALERT (R445). -/
  | ovAlert
  /-- OV_STAGE2 (R446). -/
  | ovStage2
  /-- VM31_CROSSING (R446). -/
  | vm31Crossing
  /-- OV_CLEAR (R448). -/
  | ovClear
  /-- DROOP_TRIP (R18). -/
  | droopTrip (detector : Nat)
  /-- DROOP_RESTORE (R18). -/
  | droopRestore
  /-- HK_ROUND_END (R456). -/
  | hkRoundEnd (r : RoundIn)
  /-- LATCH_OPS_TIMEOUT (R459). -/
  | latchOpsTimeout
  /-- LINK_DOWN (R408). -/
  | linkDown (port : Side)
  /-- LINK_TRAIN_RETRY (R408). -/
  | linkTrainRetry (port : Side)
  /-- FLIT_REFUSED (R407). -/
  | flitRefused (r : FlitRefusal)
  /-- PRESENCE (R412). -/
  | presence (die : BitVec 3) (leadOk : Bool) (term : Word) (ring : RingIn)
  /-- PRESENCE_SEND (R412). -/
  | presenceSend
  /-- CLAIM (R425). -/
  | claim (term : Word) (die : BitVec 3) (view : Byte)
  /-- GRANT (R425). -/
  | grant (term : Word) (die : BitVec 3)
  /-- HEARTBEAT (R426). -/
  | heartbeat (term : Word) (die : BitVec 3) (seq : Word) (view : Byte) (inTime : Bool)
  /-- HEARTBEAT_MISS (R424). -/
  | heartbeatMiss
  /-- ELECTION_BACKOFF (R424). -/
  | electionBackoff
  /-- ELECT_TIMEOUT (R425). -/
  | electTimeout
  /-- JOB (R415). -/
  | job (r : RemoteIn)
  /-- JOB_END (R415). -/
  | jobEnd (handle : Nat) (outcome : Byte) (delivered lost : List (Nat × Nat)) (hostErr : Bool)
  /-- PARITY (R416). -/
  | parity (group row : Nat) (part : PartIn) (pq : List Byte)
  /-- CODEWORD (R417). -/
  | codeword (dest : CwTo) (job cw : Nat) (data : List Byte)
  /-- RECORD (R414). -/
  | record (recs : List (BitVec 256))
  /-- DIRECTORY (R414). -/
  | directory (grant : Option (BitVec 64 × Nat)) (entries : List (Nat × List Byte))
  /-- ANCHOR (R419). -/
  | anchor (a : AnchorMsg)
  /-- MEDIA (R420). -/
  | media (die : BitVec 3) (m : BitVec 64)
  /-- WAKE_MSG (R77). -/
  | wakeMsg (sleep : Bool)
  /-- DV_RESERVED_MSG (R432). -/
  | dvReservedMsg (type : Byte)
  /-- SOURCE_EVENT (R466). -/
  | sourceEvent (id : Nat) (level : Bool)
  /-- GROUP_FIRE (R471). -/
  | groupFire (g t : Nat)
  /-- HOLDOFF_EXPIRY (R471). -/
  | holdoffExpiry (g : Nat)
  /-- IRQ_PSET (R468). -/
  | irqPset (who : Writer) (w : Nat) (v : Word)
  /-- IRQ_PEND_CLEAR (R467). -/
  | irqPendClear (w : Nat) (v : Word)
  /-- SIGNALLED_CLEAR (R473). -/
  | signalledClear (who : Writer) (t : Nat)
  /-- IDLE_SET (R472). -/
  | idleSet (who : Writer) (t : Nat)
  /-- PRIVILEGED_RAISE (R475). -/
  | privilegedRaise (id : Nat) (detail : List Byte)
  /-- EVQ_ENABLE (R477). -/
  | evqEnable (v : Word)
  /-- EVQ_DISABLE (R478). -/
  | evqDisable (v : Word)
  /-- EVQ_CONS (R477). -/
  | evqCons (v : Word)
  /-- LOG_RECORD_COPY (R545). -/
  | logRecordCopy
  /-- PROGRAM (R533). -/
  | program (caller : Caller) (sector word : Nat) (data : List (BitVec 64)) (clearOnly suspendOk : Bool)
  /-- ERASE (R537). -/
  | erase (caller : Caller) (sector : Nat)
  /-- SUSPEND (R539). -/
  | suspend (caller : Caller)
  /-- RESUME (R539). -/
  | resume (caller : Caller)
  /-- STATUS (R529). -/
  | status (caller : Caller)
  /-- COUNT (R529). -/
  | count (caller : Caller) (sector : Nat)
  /-- MARK_PROGRAM (R544). -/
  | markProgram (caller : Caller) (word : Nat) (data : List (BitVec 64)) (clearOnly : Bool)
  /-- MARK_LOCK (R543). -/
  | markLock (caller : Caller)
  /-- CABINET_OP_END (R529). -/
  | cabinetOpEnd (verified : Bool) (wordsDone : Nat)
  /-- DICT_READ (R495). -/
  | dictRead (v : Word)
  /-- DICT_WRITE (R496). -/
  | dictWrite (v : Word)
  /-- DICT_DESCRIBE (R501). -/
  | dictDescribe (v : Word)
  /-- CAN_READ (R495). -/
  | canRead (frame : List Byte)
  /-- CAN_WRITE (R496). -/
  | canWrite (frame : List Byte)
  /-- CAN_DESCRIBE (R501). -/
  | canDescribe (frame : List Byte)
  /-- CLOSE_SESSION (R506). -/
  | closeSession (frame : List Byte)
  /-- CAN_STATUS_FRAME (R510). -/
  | canStatusFrame
  /-- CAN_EVENT_FRAME (R511). -/
  | canEventFrame
  /-- CAN_SESSION_TIMEOUT (R508). -/
  | canSessionTimeout (client : Nat)
  /-- DICT_TRANSFER_TIMEOUT (R509). -/
  | dictTransferTimeout (client : Nat)
  /-- BUS_OFF (R50). -/
  | busOff
  /-- BUS_OFF_RECOVERY (R50). -/
  | busOffRecovery
  /-- SAVE_COMPACTION (R514). -/
  | saveCompaction
  /-- AUTH_REQUEST (R492). -/
  | authRequest (client : Nat) (level : Byte)
  /-- AUTH_CHALLENGE (R492). -/
  | authChallenge (client : Nat) (random : List Byte)
  /-- AUTH_KEY (R492). -/
  | authKey (client : Nat) (key : List Byte)
  /-- AUTH_SIGNATURE (R492). -/
  | authSignature (client : Nat) (sig : List Byte)
  /-- AUTH_DROP (R491). -/
  | authDrop (client : Nat) (v : Byte)
  /-- IMAGE_TARGET (R517). -/
  | imageTarget (client : Nat) (v : Byte)
  /-- IMAGE_LENGTH (R516). -/
  | imageLength (client : Nat) (v : Word)
  /-- IMAGE_DATA (R516). -/
  | imageData (client : Nat) (offset : Nat) (last : Bool) (data : List Byte)
  /-- IMAGE_CHECK (R516). -/
  | imageCheck (client : Nat) (v : Byte)
  /-- RESTORE_DEFAULTS (R515). -/
  | restoreDefaults (client : Nat) (v : Byte)
  /-- STATISTICS_MARK (R522). -/
  | statisticsMark (client : Nat) (v : Byte)
  /-- FACTORY_REQUEST (R83). -/
  | factoryRequest (client : Nat) (v : Byte)
  /-- RAISE_VENDOR_FLOOR (R542). -/
  | raiseVendorFloor (client : Nat) (v : BitVec 16)
  /-- RAISE_CUSTOMER_FLOOR (R542). -/
  | raiseCustomerFloor (client : Nat) (v : BitVec 16)
  /-- CUSTOMER_KEY_PROVISION (R544). -/
  | customerKeyProvision (client : Nat) (data : List Byte)
  /-- FACTORY_PART (R544). -/
  | factoryPart (client : Nat) (data : List Byte)
  /-- CUSTOMER_SECTOR_DATA (R547). -/
  | customerSectorData (client : Nat) (data : List Byte)
  /-- CODEC_INJECT (R244). -/
  | codecInject (who : Writer) (v : Word)
  /-- SRAM_FLIP (R565). -/
  | sramFlip (who : Writer) (v : Word)
  /-- SCRUB_READ (R559). -/
  | scrubRead
  /-- SCRUB_REWRITE (R560). -/
  | scrubRewrite
  /-- MERGE_RETIRE (R556). -/
  | mergeRetire (idx : Nat)
  /-- REGISTER_READ_CLEAR (R4). -/
  | registerReadClear (who : Writer) (wide : Bool) (addr : Nat)
  /-- REGISTER_WRITE (R4). -/
  | registerWrite (who : Writer) (wide : Bool) (addr : Nat) (v : BitVec 64) (walk : List HostRead)
  /-- LINK_UP (R408). -/
  | linkUp (port : Side) (lanes : Nat) (peer : BitVec 3)
  /-- PRESENCE_TIMEOUT (R412). -/
  | presenceTimeout (die : BitVec 3)
  /-- SB_REQ_LOWERED (R42). -/
  | sbReqLowered
  /-- ERROR_PASSIVE (R50). -/
  | errorPassive (passive : Bool)
deriving DecidableEq, Repr

end Sys2Proof
end

