-- ==== Sys2Proof/Config.lean ====
section
/-!
DEFINITION. What an implementation fixes or the manual leaves open: constants and functions without a body, so that
no proof can see a value of one. The assumption log names the entry of each.
-/
namespace Sys2Proof

/-- Free values: the `n`-th value the manual leaves open (log entry 2). -/
opaque Config.freeNat : Nat → Nat

/-- SHA-384 of a byte string, 48 bytes (R67; log entry 6). -/
opaque Config.sha384 : List Byte → List Byte

/-- ECDSA P-384 verification: public key, signature, digest (R67, R492; log entry 6). -/
opaque Config.ecdsaVerify : List Byte → List Byte → List Byte → Bool

/-- AES-256-GCM decryption: key, nonce, additional data, ciphertext, tag (R67; log entry 6). -/
opaque Config.gcmDecrypt : List Byte → List Byte → List Byte → List Byte → List Byte → Option (List Byte)

/-- A word of the base vendor library that the manual does not list (R157; log entry 7). -/
opaque Config.vendorWord : Nat → BitVec 160

/-- The LDPC decoders (R236, R237): engine kind (0 hard, 1 soft, 2 fusion), profile, one number per codeword bit
(hard bit or LLR); the answer is the iterations run and the final hard decision (log entry 8). -/
opaque Config.ldpc : Nat → Nat → List Int → Nat × List Byte

/-- The three row bytes that name a page of an erase block set: die type, block, page (the manual gives the places of
the plane and LUN fields only; log entry 9). -/
opaque Config.rowAddr : Nat → Nat → Nat → Nat

/-- The die type of a LUN that another block of the cascade owns (log entry 10). -/
opaque Config.remoteDieType : Nat → Nat

/-- Bytes of held window changes that the tables SRAM has room for (R593; log entry 120). -/
opaque Config.heldRoom : Nat

/-- DATA_MASK of a row of an overflowed group, from group and GEN and the row, where its seal was made before this model's run
(R301, R303; log entry 121). -/
opaque Config.unlistedMask : Nat → Nat → Nat

/-- Values that are fixed on a part and that the manual does not state: 0 is bootRomVersion (R518; log entry 23). -/
opaque Config.partValue : Nat → Nat

/-- firmwareVersion of a running image, from its 256 header bytes (R518; log entry 23). -/
opaque Config.imageVersion : List Byte → Nat

/-- The training pattern, byte by byte (R203; log entry 106). -/
opaque Config.trainingPattern : Nat → Byte

/-- The feature command that sets a target for a mode and a rate: the feature address in the lowest byte, then P1 to P4; 0 sets
the interface, 1 the on-die termination (R73, R179, R204; log entry 106). -/
opaque Config.targetFeature : Nat → Nat → Nat → BitVec 40

/-- The eight bytes of a trace record in jigTrace: tag, word address, cycle count (R146, R176; log entry 23). -/
opaque Config.traceRecord : Byte → BitVec 11 → Nat → Nat

end Sys2Proof
end

