-- ==== Sys2Proof/Machine/Bits.lean ====
section
/-!
DEFINITION. Bit fields, byte strings and small list helpers shared by every meaning. Fields are numbered as the spec
numbers them (bit 0 least significant); multi-byte fields are little-endian (R2).
-/
namespace Sys2Proof.Machine

/-- The unsigned field of `w` bits whose lowest bit is `lo` (R3). -/
def fld (v lo w : Nat) : Nat := v / 2 ^ lo % 2 ^ w

/-- Bit `i` of `v`. -/
def bitAt (v i : Nat) : Bool := v / 2 ^ i % 2 == 1

/-- 1 for true, 0 for false. -/
def b2n (b : Bool) : Nat := if b then 1 else 0

/-- A word assembled from (lowest bit, value) fields that do not overlap. -/
def packFields : List (Nat × Nat) → Nat
  | [] => 0
  | (lo, v) :: rest => v * 2 ^ lo + packFields rest

/-- A 32-bit register assembled from its fields. -/
def reg32 (l : List (Nat × Nat)) : Word := BitVec.ofNat 32 (packFields l)

/-- A number whose bit `i` is entry `i` of the list. -/
def bitsOf : List Bool → Nat
  | [] => 0
  | b :: bs => b2n b + 2 * bitsOf bs

/-- `n` bytes of `v`, byte 0 first (R2). -/
def le : Nat → Nat → List Byte
  | 0, _ => []
  | n + 1, v => BitVec.ofNat 8 v :: le n (v / 256)

/-- The little-endian value of a byte string (R2). -/
def leVal : List Byte → Nat
  | [] => 0
  | b :: bs => b.toNat + 256 * leVal bs

/-- The big-endian value of a byte string. -/
def beVal (l : List Byte) : Nat := leVal l.reverse

/-- `len` bytes from `off`. -/
def slice {α : Type} (l : List α) (off len : Nat) : List α := (l.drop off).take len

/-- The little-endian field of `len` bytes at `off`. -/
def leAt (l : List Byte) (off len : Nat) : Nat := leVal (slice l off len)

/-- Byte `i`, zero past the end. -/
def byteAt (l : List Byte) (i : Nat) : Nat := (l.getD i 0).toNat

/-- `bs` written into `l` at `off`. -/
def splice {α : Type} (l : List α) (off : Nat) (bs : List α) : List α :=
  l.take off ++ bs ++ l.drop (off + bs.length)

/-- `n` zero bytes. -/
def zeros (n : Nat) : List Byte := List.replicate n 0

/-- `l` cut or padded with zero bytes to `n` bytes. -/
def padTo (n : Nat) (l : List Byte) : List Byte := l.take n ++ zeros (n - l.length)

/-- A counter of `w` bits that saturates: `v + k`, at most `2^w - 1`. -/
def satAdd {w : Nat} (v : BitVec w) (k : Nat) : BitVec w :=
  BitVec.ofNat w (min (v.toNat + k) (2 ^ w - 1))

/-- Bytewise exclusive or, as long as the shorter operand. -/
def xorBytes (a b : List Byte) : List Byte := List.zipWith (· ^^^ ·) a b

/-- The value stored for a key, or the default. -/
def lookD {α β : Type} [BEq α] (d : β) (k : α) (l : List (α × β)) : β := (l.lookup k).getD d

/-- A list of key and value pairs with `k` bound to `v`, keys ascending. -/
def putAsc {β : Type} (k : Nat) (v : β) : List (Nat × β) → List (Nat × β)
  | [] => [(k, v)]
  | (a, b) :: rest =>
    if k < a then (k, v) :: (a, b) :: rest
    else if k == a then (k, v) :: rest
    else (a, b) :: putAsc k v rest

/-- The list without key `k`. -/
def dropKey {α β : Type} [BEq α] (k : α) (l : List (α × β)) : List (α × β) := l.filter (fun p => !(p.1 == k))

/-- `k` put at the front of a most-recently-used list of at most `n` keys. -/
def touch (n k : Nat) (l : List Nat) : List Nat := (k :: l.filter (· != k)).take n

/-- Signed value of the low `w` bits of `v` (R3). -/
def sgn (w v : Nat) : Int :=
  let m := v % 2 ^ w
  if 2 ^ (w - 1) ≤ m then (m : Int) - (2 ^ w : Nat) else (m : Int)

/-- Two's complement of `x` in `w` bits. -/
def unsgn (w : Nat) (x : Int) : Nat := (x % ((2 ^ w : Nat) : Int)).toNat

/-- Clamp an integer to a range. -/
def clampInt (lo hi x : Int) : Int := max lo (min hi x)

/-- The first `n` naturals that satisfy `p`, searched from `i` for `fuel` steps. -/
def findFrom (p : Nat → Bool) : Nat → Nat → Option Nat
  | 0, _ => none
  | fuel + 1, i => if p i then some i else findFrom p fuel (i + 1)

/-- Apply a state change for each entry of a list, in order. -/
def forEach {α σ : Type} (l : List α) (f : σ → α → σ) (s : σ) : σ := l.foldl f s

end Sys2Proof.Machine
end

