-- ==== Sys2Proof/Machine/State.lean ====
section
/-!
DEFINITION. The state of the block as plain data: every register, FIFO, buffer, counter, mode and pin the spec gives
it, and the queue of waiting commands. A default is the value at reset (spec 00: Reset is the value after any reset
that reaches RESET mode); where the spec gives none, notes/assumptions/4.md names the value.
-/
namespace Sys2Proof.Machine

/-- Primary modes (R22). -/
inductive Mode where
  | off | reset | boot | train | standby | service | degraded | rebuild | refit | holdup | writeFenced
  | follower | fenced | quarantine | factory
deriving DecidableEq, Repr

/-- State of a work ring (R92). -/
inductive RingState where
  | disabled | idle | active | shuttingDown | error
deriving DecidableEq, Repr

/-- State of a jig (R173). -/
inductive JigState where
  | notStarted | running | halted | machineCheck | fenced
deriving DecidableEq, Repr

/-- State of a glue-up slot (R296). -/
inductive SlotState where
  | free | filling | sealing
deriving DecidableEq, Repr

/-- Progress of a fetched entry (R103, R122, R126). -/
inductive Phase where
  | fetched      -- waits for its opcode command
  | waiting      -- dispatched: jobs, records or other entries are outstanding
  | ready        -- nothing is outstanding: its completion may be written
  | writing      -- completion writes are outstanding
deriving DecidableEq, Repr

/-- What a drawer job is for. -/
inductive Owner where
  | none
  | read (eid : Nat)
  | write (eid : Nat) (member : Nat)
  | pad (slot : Nat) (member : Nat)
  | parity (slot : Nat) (member : Nat)
  | fix (slot : Nat) (member : Nat)
  | journal (copy : Nat)
  | journalErase
  | openErase (eid : Nat) (member : Nat)
  | release (eid : Nat) (member : Nat)
  | raw (eid : Nat)
  | truing (id : Nat)
  | apply
  | feed (head : Nat)
  | train
  | pattern
  | erase
  | refitErase (target : Nat) (member : Nat)
  | remote (handle : Nat)
  | row (run : Nat)
  | spare (run : Nat)
  | spareErase
  | target (run : Nat) (member : Nat)
  | repair (run : Nat)
deriving DecidableEq, Repr

/-- Progress of a drawer job (R168, R170). -/
inductive JobState where
  | held | placed | popped | ended
deriving DecidableEq, Repr

/-- Progress of a selected codeword (R233, R250). -/
inductive CwState where
  | reading     -- its job has not delivered its bits
  | waitDecode  -- its bits, or all its sensings, wait for an engine
  | truing      -- waits for a truing search of its zone
  | waitArea    -- waits for a work area of its step
  | recovering  -- step 6: the other members of its row are being read
  | failed      -- its step failed: the next step of the ladder is due
  | decoded     -- its data lies in its landing slot
  | lost        -- no step is left
deriving DecidableEq, Repr

/-- What a host data port request is for (R32, R38). -/
inductive HostWhat where
  | data (eid slot : Nat)
  | compl (eid part : Nat)
  | own (eid part : Nat)
  | record (rseq : Nat) (second : Bool)
  | notify (target : Nat)
  | window (off : Nat)
  | accum (frag : Nat)
  | remote (handle cw : Nat)
  | fetch (ring : Nat)
  | list (eid : Nat)
  | dirRead (group : Nat)
  | doseRead (lun block : Nat)
  | bindRead (index : Nat)
  | snapRead
deriving DecidableEq, Repr

/-- Why the machine stops with a fault. -/
inductive Fault where
  /-- Raised by a command whose operand names a unit the spec says does not exist (a ring above 63, a channel above
  15, a head above 15 …), or by a register access that no port can present (R28, R576). Safe: no such command can reach
  the block. -/
  | noSuchUnit
deriving DecidableEq, Repr

/-- Why the machine refuses a command. -/
inductive Refusal where
  /-- Raised by the dispatch for a command that has no meaning yet. Safe. -/
  | notModelled (mnemonic : String)
deriving DecidableEq, Repr

/-- Default SENSE of the 256 sources (R469): rising, level-high for 128 and 129, disabled for 136 to 143 and for
the reserved and privileged sources. -/
def defaultSense : List (BitVec 3) :=
  List.replicate 128 3 ++ [1, 1, 3] ++ List.replicate 125 0


/-- Counters the spec gives as "since por_n": kept over a warm reset, cleared by por_n (R60, R129, R176, R217, R245 ...). -/
structure Stats where
  /-- entriesFetched, U64 (04 R129). -/
  entriesFetched : Nat := 0
  /-- ring stops, U32 (04 R125 R129). -/
  malformedCount : Nat := 0
  /-- U64 (15 R522). -/
  entriesCompleted : Nat := 0
  /-- U64 (15 R522). -/
  bytesWritten : Nat := 0
  /-- U64 (15 R522). -/
  bytesRead : Nat := 0
  /-- por_n count, U32, saved at each start (15 R522). -/
  powerCycles : Nat := 0
  /-- time base value at the last por_n, microseconds (15 R522). -/
  uptimeBase : Nat := 0
  /-- per channel: reads, programs, erases (15 R522). -/
  channelOps : List (Nat × Nat × Nat) := List.replicate 16 (0, 0, 0)
  /-- resolvedStep1..6, U64 (08 R287). -/
  resolved : List Nat := List.replicate 6 0
  /-- hardOk, hardFail, softOk, softFail, fusionOk, fusionFail, miscorrections, labelMismatches, erasedResults, U64 (07
  R245). -/
  codewords : List Nat := List.replicate 9 0
  /-- U64 (09 R325). -/
  shortRowsClosed : Nat := 0
  /-- U64 (10 R371). -/
  codewordsLost : Nat := 0
  /-- U32 (10 R371). -/
  silentFound : Nat := 0
  /-- U32 (10 R371). -/
  refitCutUnits : Nat := 0
  /-- U64 (11 R404). -/
  rowsReleased : Nat := 0
  /-- U64 (11 R404). -/
  rowsUnboundForced : Nat := 0
  /-- U64 (11 R404). -/
  verifyBadRows : Nat := 0
  /-- U32 (12 R434). -/
  electionsWon : Nat := 0
  /-- U32 (12 R434). -/
  leadLosses : Nat := 0
  /-- U32 (12 R434). -/
  heartbeatsMissed : Nat := 0
  /-- U32 (13 R463). -/
  deferredCount : Nat := 0
  /-- U32 (13 R463). -/
  forecastsGranted : Nat := 0
  /-- U32 (13 R463). -/
  ovFences : Nat := 0
  /-- U32 (13 R464). -/
  warnEvents : Nat := 0
  /-- rounds of 4.096 ms under throttle (throttleSeconds) (13 R464). -/
  throttleRounds : Nat := 0
  /-- U32 (14 R486). -/
  recordsDropped : Nat := 0
  /-- U32 (15 R507 R520). -/
  canDropped : Nat := 0
  /-- U32 (15 R511 R520). -/
  canEventsDropped : Nat := 0
  /-- U32 (16 R549). -/
  cabinetFaults : Nat := 0
  /-- U64 (17 R569). -/
  correctedWords : Nat := 0
  /-- U64 (17 R569). -/
  uncorrectableWords : Nat := 0
  /-- U64 (17 R569). -/
  scrubFixed : Nat := 0
  /-- U32 (17 R569). -/
  scrubLaps : Nat := 0
  /-- 6 x U32 (17 R569). -/
  regionCorrected : List Nat := List.replicate 6 0
  /-- 6 x U32 (17 R569). -/
  regionUncorrectable : List Nat := List.replicate 6 0
  /-- statisticsMark: bytesWritten, bytesRead, entriesCompleted at the mark (15 R522). -/
  mark : Nat × Nat × Nat := (0, 0, 0)
  /-- statisticsMark as last written (15 R522). -/
  marked : Bool := false
  /-- machine checks of each jig since por_n (05 R152). -/
  machineChecks : List Nat := List.replicate 16 0
deriving DecidableEq, Repr

/-- Single board signals and handshakes at the boundary (02 R42-R46, R53). -/
structure Pins where
  /-- the block is present and powered; false: OFF, or absent from the package (02 R31 R54). -/
  powered : Bool := true
  /-- RESET holds; the reset inputs are not yet deasserted (02 R53 R54). -/
  inReset : Bool := true
  /-- pwr_fail_n taken as asserted (02 R45). -/
  pwrFail : Bool := false
  /-- ov_alert_n taken as asserted (02 R45). -/
  ovAlert : Bool := false
  /-- VM31 comparator above its level (13 R461). -/
  ovHard : Bool := false
  /-- holdup_done, low from the start of RESET (02 R46). -/
  holdupDone : Bool := false
  /-- sb_ack (02 R42). -/
  sbAck : Bool := false
  /-- media_ready (02 R41). -/
  mediaReady : Bool := false
deriving DecidableEq, Repr

/-- Primary mode, conditions, reset cause and start-up (03). -/
structure Modes where
  /-- MODE[3:0], reset 0x2 (03 R55). -/
  mode : Mode := .boot
  /-- PREV_MODE[31:28], reset 0x1 (03 R55). -/
  prevMode : Mode := .reset
  /-- QUARANTINE latch (AON domain) (03 R56 R60). -/
  quarantine : Bool := false
  /-- HOLDUP_C (03 R56). -/
  holdup : Bool := false
  /-- FACTORY (03 R56 R83). -/
  factory : Bool := false
  /-- BOOT condition (03 R56). -/
  boot : Bool := true
  /-- TRAIN condition (03 R56). -/
  train : Bool := false
  /-- FENCED_C (03 R56). -/
  fenced : Bool := false
  /-- STANDBY_C (03 R56). -/
  standby : Bool := false
  /-- WRITE_FENCED cause overvoltage (13 R446). -/
  fenceOv : Bool := false
  /-- WRITE_FENCED cause journal pair lost (09 R306 R315, 10 R364). -/
  fenceJournal : Bool := false
  /-- WRITE_FENCED cause window fault (09 R593). -/
  fenceWindow : Bool := false
  /-- REBUILD_C (03 R56). -/
  rebuild : Bool := false
  /-- REFIT_C (03 R56). -/
  refit : Bool := false
  /-- DEGRADED_C (03 R56). -/
  degraded : Bool := false
  /-- FOLLOWER_C (03 R56). -/
  follower : Bool := false
  /-- die_id[2:0] strap as sampled at the last por_n (02 R47, 03 R55). -/
  dieId : BitVec 3 := 0
  /-- lead_ok strap as sampled at the last por_n (02 R47, 03 R55). -/
  leadOk : Bool := false
  /-- LEAD (03 R55). -/
  lead : Bool := false
  /-- LEAD_DIE (03 R55). -/
  leadDie : BitVec 3 := 0
  /-- STBY_REFUSED (W1C) (03 R55). -/
  stbyRefused : Bool := false
  /-- an accepted STANDBY request waits for its conditions (03 R77). -/
  stbyRequested : Bool := false
  /-- RECOVERING (03 R55). -/
  recovering : Bool := false
  /-- WARM_COUNT, saturates at 255 (03 R61). -/
  warmCount : BitVec 8 := 0
  /-- QUAR_HELD (03 R61). -/
  quarHeld : Bool := false
  /-- WDOG (W1C) (03 R61). -/
  causeWdog : Bool := false
  /-- SOFT (W1C) (03 R61). -/
  causeSoft : Bool := false
  /-- PIN (W1C) (03 R61). -/
  causePin : Bool := false
  /-- POR (W1C), reset 1 (03 R61). -/
  causePor : Bool := true
  /-- ERROR (03 R71). -/
  bootError : BitVec 8 := 0
  /-- CUST_LOADED (03 R71). -/
  custLoaded : Bool := false
  /-- PATCH_LOADED (03 R71). -/
  patchLoaded : Bool := false
  /-- SEQUENCE of the vendor patch that boot loaded (05 R176). -/
  patchSeq : Word := 0
  /-- SEQUENCE of the customer image that boot loaded (05 R176). -/
  custSeq : Word := 0
  /-- FW_SLOT (03 R71). -/
  fwSlot : Bool := false
  /-- ERASE_REDONE (03 R71). -/
  eraseRedone : Bool := false
  /-- STAGE, reset 0x1 (03 R71). -/
  stage : BitVec 4 := 1
  /-- the boot ROM serves image transfer only (03 R69). -/
  bootFallback : Bool := false
  /-- start-up waits at step 11 for the boot temperature rule (03 R72). -/
  bootHot : Bool := false
  /-- factoryRequest written true since the last reset (03 R83). -/
  factoryReq : Bool := false
  /-- the reset in force is a cold reset (03 R60). -/
  porCold : Bool := true
  /-- SCRATCH0 (18 R575). -/
  scratch0 : Word := 0
  /-- SCRATCH1 (18 R575). -/
  scratch1 : Word := 0
  /-- CORE and MGMT clocks stretched (01 R18). -/
  stretched : Bool := false
deriving DecidableEq, Repr

/-- One ring entry's place in its ring: unit 0 index, units, byte 0 as fetched (04 R103 R107). -/
structure Part where
  /-- unit 0 index (04 R103). -/
  index : Nat := 0
  /-- UNITS (04 R97). -/
  units : Nat := 1
  /-- byte 0 as fetched (04 R97 R107). -/
  byte0 : Byte := 0
deriving DecidableEq, Repr

/-- A fetched ring entry or chain and its progress (04). -/
structure Entry where
  /-- entry handle given in fetch order (model's own). -/
  eid : Nat := 0
  /-- ring it came from (04 R97). -/
  ring : Nat := 0
  /-- the entry, or every entry of its chain (04 R111). -/
  parts : List Part := []
  /-- OPCODE (04 R97). -/
  opcode : Byte := 0
  /-- TAG (04 R97). -/
  tag : BitVec 16 := 0
  /-- GROUP (04 R97). -/
  group : BitVec 24 := 0
  /-- MEMBER (04 R97). -/
  member : Byte := 0
  /-- ROW (04 R97). -/
  row : BitVec 20 := 0
  /-- CW_MASK (04 R97). -/
  cwMask : Byte := 0
  /-- LENGTH (04 R97). -/
  length : Word := 0
  /-- ADDR (04 R97). -/
  addr : BitVec 64 := 0
  /-- OPTIONS (04 R97 R117). -/
  options : BitVec 64 := 0
  /-- elements in chain order (04 R98). -/
  elements : List (BitVec 128) := []
  /-- progress of the entry (04 R103 R122 R126). -/
  phase : Phase := .fetched
  /-- waited for a slot; slotWaitEvent raised (09 R297). -/
  slotWaited : Bool := false
  /-- bindWaitEvent raised (11 R380). -/
  bindWaited : Bool := false
  /-- host pieces, address and bytes (04 R113). -/
  pieces : List (BitVec 64 × Nat) := []
  /-- STATUS reached so far (04 R99 R123). -/
  status : Byte := 0
  /-- DETAIL (04 R99 R123). -/
  detail : Byte := 0
  /-- deepest ladder step that ran (08 R252). -/
  ladderStep : Nat := 0
  /-- codewords that left step 0 undecoded (08 R252). -/
  ladderCount : Nat := 0
  /-- COUNT (04 R99 R118). -/
  count : Nat := 0
  /-- lost codewords (04 R123). -/
  lost : Nat := 0
  /-- data members accepted for this entry (06 R212). -/
  members : List Nat := []
  /-- (member, codeword) whose data has entered staging (09 R298). -/
  arrived : List (Nat × Nat) := []
  /-- failed members the completion names (10 R332 R333). -/
  failMembers : List Nat := []
  /-- the row whose slot must be FREE before completion (acceptance completed it) (09 R300). -/
  needsRow : Option Nat := none
  /-- record number that must be durable before completion (09 R300). -/
  recWait : Option Nat := none
  /-- RSEQ that must be acknowledged or dropped before completion (14 R479). -/
  evWait : Option Nat := none
  /-- eids that must have completed first (FLUSH, RELEASE_GROUP, GROUP_CLOSE, ORDERED) (04 R118 R120). -/
  earlierWait : List Nat := []
  /-- (member, staging set of 16 slots of 4 KiB) held by the entry (07 R230, 01 R14). -/
  stage : List (Nat × Nat) := []
  /-- members whose data another block moves (12 R415). -/
  away : List Nat := []
  /-- the WRITE_ROW has been accepted (06 R212 R213). -/
  accepted : Bool := false
  /-- (member, passed) of the programs or erases that have ended (01 R14, 04 R118). -/
  ended : List (Nat × Bool) := []
  /-- members whose READ job waits for landing slots (07 R233). -/
  unread : List Nat := []
  /-- a codeword was rebuilt from its stripe (04 R123). -/
  rebuilt : Bool := false
  /-- a data request of the entry met a fabric error (02 R38). -/
  hostErr : Bool := false
  /-- free bind entries reserved for the entry (11 R380). -/
  reserved : Nat := 0
  /-- MAX_STEP in force (04 R117, 08 R251 R281). -/
  maxStep : Nat := 6
  /-- completion writes acknowledged (two per part) (04 R111 R37). -/
  done : Nat := 0
  /-- a chain whose last entry is not fetched yet (04 R111). -/
  open_ : Bool := false
  /-- its completion belongs to a ring stop (04 R125). -/
  stopper : Bool := false
deriving DecidableEq, Repr

/-- One work ring (04 R86 to R92). -/
structure Ring where
  /-- RING_BASE_LO.BASE_LO (04 R87). -/
  baseLo : BitVec 20 := 0
  /-- RING_BASE_HI.BASE_HI (04 R87). -/
  baseHi : BitVec 32 := 0
  /-- INFLIGHT_MAX (04 R88). -/
  inflightMax : BitVec 8 := 0x40
  /-- IRQ_ALL (04 R88). -/
  irqAll : Bool := false
  /-- PRIV (04 R88). -/
  priv : BitVec 2 := 0
  /-- WEIGHT (04 R88). -/
  weight : BitVec 4 := 1
  /-- DEPTH_LOG2 (04 R88). -/
  depthLog2 : BitVec 5 := 0
  /-- RESTART reads 1 until it takes effect (04 R90 R94). -/
  restartPend : Bool := false
  /-- RING_START.INDEX (04 R91). -/
  start : BitVec 16 := 0
  /-- RING_HEAD.HEAD (04 R91). -/
  head : BitVec 16 := 0
  /-- INFLIGHT (a chain counts as one) (04 R92). -/
  inflight : Nat := 0
  /-- CAUSE (04 R92 R124). -/
  cause : BitVec 4 := 0
  /-- DB_PEND (04 R92). -/
  dbPend : Bool := false
  /-- STATE (04 R92). -/
  state : RingState := .disabled
  /-- RING_ERR_INDEX.INDEX (04 R91). -/
  errIndex : BitVec 16 := 0
  /-- RING_DONE_COUNT.COUNT (04 R91). -/
  doneCount : BitVec 32 := 0
  /-- fetches granted to the ring in the current round (04 R96). -/
  fetched : Nat := 0
  /-- entry handle of a chain whose last entry is not fetched yet (04 R109 R111). -/
  chain : Option Nat := none
  /-- cause and unit index of a stop whose completions are still to be written (04 R125). -/
  stopPend : Option (Nat × Nat) := none
  /-- what the reads of the shutdown walk still to come answer (04 R126). -/
  walk : List HostRead := []
  /-- units that the shutdown walk may still cover (04 R126). -/
  walkLeft : Nat := 0
  /-- the chain that the shutdown walk is in, with the elements and parts read so far (04 R109 R126). -/
  walkChain : Option Entry := none
deriving DecidableEq, Repr

/-- A drawer job (05 R161, R162). -/
structure Job where
  /-- job handle, 12 bits (05 R161). -/
  handle : Nat := 0
  /-- what the job is for (04, 09, 10). -/
  owner : Owner := .none
  /-- channel (05 R161). -/
  ch : Nat := 0
  /-- global LUN (12 R413). -/
  lun : Nat := 0
  /-- PRIO (05 R161). -/
  prio : Nat := 0
  /-- items in order (05 R161). -/
  items : List (BitVec 128) := []
  /-- held, placed, popped, ended (05 R168 R170). -/
  state : JobState := .held
  /-- ABORT_REQ (05 R170). -/
  abortReq : Bool := false
  /-- an array-start command of the job was issued (05 R170). -/
  arrayStarted : Bool := false
  /-- END_JOB outcome (05 R145). -/
  outcome : Byte := 0
  /-- J3 at END_JOB (05 R145). -/
  result : Word := 0
  /-- expected GROUP (07 R233). -/
  group : Nat := 0
  /-- expected MEMBER (07 R233). -/
  member : Nat := 0
  /-- expected ROW (07 R233). -/
  row : Nat := 0
  /-- BLOCK (07 R226 R233). -/
  block : Nat := 0
  /-- PAGE (07 R226 R233). -/
  page : Nat := 0
  /-- code profile (07 R220 R233). -/
  profile : Nat := 1
  /-- WIDTH of the label (07 R223). -/
  width : Nat := 0
  /-- STAMP of the label (07 R223). -/
  stamp : Word := 0
  /-- seal of a P or Q label (09 R301). -/
  sealW : BitVec 96 := 0
  /-- codeword mask (07 R233). -/
  cwMask : BitVec 16 := 0
  /-- scan context (07 R233). -/
  scan : Bool := false
  /-- buffer or staging handle (07 R233). -/
  buf : Nat := 0
  /-- ladder step of the job (08 R254). -/
  step : Nat := 0
  /-- threshold features of a READ or SENSE job, address and parameters: its FEATURE items are left out at placement when they
  are resident (08 R255 R256). -/
  feats : List (Nat × Nat) := []
  /-- its block's dose record is being read from the window (08 R260). -/
  doseWait : Bool := false
  /-- its page's host data has not all arrived in write staging (06 R196, 09 R299). -/
  dataWait : Bool := false
  /-- the job whose codewords a sensing feeds, when not its own (07 R233 R234). -/
  ctx : Option Nat := none
  /-- codewords of the page set in the channel write queue (07 R231). -/
  encoded : Nat := 0
  /-- an encoder holds the page set (07 R231). -/
  encoding : Bool := false
  /-- codewords of the page set given to the channel write queue so far, over every engine that worked on it (07 R232). -/
  delivered : Nat := 0
  /-- its end-of-page-set mark has been processed (07 R234 R235). -/
  closed : Bool := false
  /-- planes whose burst has been given to the codec (07 R234). -/
  arrivedPlanes : Nat := 0
  /-- time base at placement, for aging (05 R165). -/
  startedAt : Nat := 0
  /-- job data buffer of a RAW_JIG as fetched (04 R114, 05 R141). -/
  data : List Byte := []
  /-- a data-out burst has written the job data buffer (05 R144). -/
  dataOut : Bool := false
deriving DecidableEq, Repr

/-- One selected codeword of a read (07 R233, R242; 08 R247). -/
structure Cw where
  /-- job handle (07 R233). -/
  job : Nat := 0
  /-- the READ entry, when one waits for it (04 R118). -/
  eid : Option Nat := none
  /-- group (07 R233). -/
  group : Nat := 0
  /-- member (07 R233). -/
  member : Nat := 0
  /-- row (07 R233). -/
  row : Nat := 0
  /-- codeword index (07 R221). -/
  cw : Nat := 0
  /-- global LUN (07 R242). -/
  lun : Nat := 0
  /-- landing slot (07 R233). -/
  slot : Nat := 0
  /-- position in the entry's delivery order (04 R113). -/
  pos : Nat := 0
  /-- ladder step the codeword has reached (08 R248). -/
  step : Nat := 0
  /-- progress (08 R250). -/
  state : CwState := .reading
  /-- the read or sensing was repeated once (08 R249, 17 R563). -/
  retried : Bool := false
  /-- offset sets or retry indices tried in this step (08 R248 R277). -/
  rereads : List Nat := []
  /-- raw bytes of the codeword as they arrived (07 R234). -/
  raw : List Byte := []
  /-- one bits of the raw codeword of the last hard sensing that arrived whole (07 R242). -/
  lastOnes : Nat := 0
  /-- order of arrival in the queue it waits in; 0 for the head (07 R238 R239 R241). -/
  qseq : Nat := 0
  /-- part of a scan read: it takes two slots, the second for the label (07 R233). -/
  wide : Bool := false
  /-- its decode found it erased (07 R236 R243). -/
  erased : Bool := false
  /-- KIND of the label that its decode gave (07 R242). -/
  kind : Nat := 0
  /-- (sensing index, bits) merged in the work area (07 R234 R239, 08 R278). -/
  sensings : List (Nat × List Byte) := []
  /-- first slot of its work area (07 R239). -/
  work : Option Nat := none
  /-- offset sets already tried for the page, latest last (08 R248). -/
  tried : List (List Int) := []
  /-- the trued set with which step 2 converged for the page (08 R278). -/
  trued : Option (List Int) := none
  /-- its current step can try nothing more (08 R248 R277). -/
  stepOver : Bool := false
  /-- repeated once after an uncorrectable word (17 R563). -/
  sramRetry : Bool := false
deriving DecidableEq, Repr

/-- A request outstanding on a host data port (02 R33, R35). -/
structure HostReq where
  /-- request tag, 0 to 255 (02 R33 R35). -/
  tag : Nat := 0
  /-- byte address (02 R33 R35). -/
  addr : BitVec 64 := 0
  /-- bytes written (empty for a read) (02 R35). -/
  bytes : List Byte := []
  /-- bytes (02 R33). -/
  len : Nat := 0
  /-- what the request is for (02 R32 R38). -/
  what : HostWhat := .notify 0
deriving DecidableEq, Repr

/-- Host data ports (02 R32 to R38). -/
structure HostPorts where
  /-- outstanding write data port requests, at most 256 (02 R33). -/
  reads : List HostReq := []
  /-- outstanding read data port requests, at most 256 (02 R35). -/
  writes : List HostReq := []
  /-- write requests waiting for a free tag (01 R17, 02 R35). -/
  stalled : List HostReq := []
  /-- read requests waiting for a free tag (01 R17, 02 R33). -/
  rstalled : List HostReq := []
  /-- requests issued (02 R33 R35). -/
  issued : Nat := 0
  /-- write data port requests of the last command whose answers came with it: entry units, lists, window reads (02 R32
  R33). -/
  answered : List HostReq := []
deriving DecidableEq, Repr

/-- A waiting clamp request (13 R436, R438). -/
structure RackReq where
  /-- requester (13 R438). -/
  who : Requester := .forecast
  /-- LUN selected (jig requests) (05 R147). -/
  lun : Nat := 0
  /-- clamps asked for (13 R436). -/
  clamps : Nat := 0
  /-- power event raised for it (13 R440). -/
  deferred : Bool := false
  /-- order of arrival (13 R438). -/
  age : Nat := 0
deriving DecidableEq, Repr

/-- Clamp rack (13 R436 to R443, R461). -/
structure Rack where
  /-- waiting requests (13 R438). -/
  waiting : List RackReq := []
  /-- (channel, LUN, clamps) held by jigs (13 R436, 05 R147). -/
  held : List (Nat × Nat × Nat) := []
  /-- channels holding the XM charge of 2 (06 R183). -/
  xm : List Nat := []
  /-- a forecast holds clamps (sb_grant) (13 R461). -/
  fcHeld : Bool := false
  /-- a forecast waits (13 R461). -/
  fcWaiting : Bool := false
  /-- power event raised for the waiting forecast (13 R440). -/
  fcDeferred : Bool := false
  /-- EVENT of the current forecast (13 R461). -/
  fcEvent : BitVec 2 := 0
  /-- this block's share (13 R461). -/
  fcClamps : Nat := 0
  /-- DURATION, ms (02 R44). -/
  fcDuration : Nat := 0
  /-- time base at which DURATION elapses (REMAIN) (02 R44, 13 R461). -/
  fcDeadline : Nat := 0
  /-- (time, clamps) granted in the last 10 us (13 R439). -/
  ramp : List (Nat × Nat) := []
  /-- arrival counter (13 R438). -/
  order : Nat := 0
  /-- CLAMP_WAIT.DEFERRED (RC) (13 R461). -/
  deferred : BitVec 16 := 0
  /-- SB_STATS.IGNORED (RC) (13 R461). -/
  sbIgnored : BitVec 16 := 0
  /-- SB_STATS.MESSAGES (RC) (13 R461). -/
  sbMessages : BitVec 16 := 0
deriving DecidableEq, Repr

/-- Overvoltage, hold-up and droop (13). -/
structure Power where
  /-- OV_STAGE (13 R461). -/
  ovStage : BitVec 2 := 0
  /-- the stage 2 power event has been raised (13 R446). -/
  ovEventDone : Bool := false
  /-- LUNs whose erase stage 2 suspended (13 R446 R447). -/
  ovSuspended : List Nat := []
  /-- HOLDUP_TIME.TIME (13 R461). -/
  holdupTime : BitVec 16 := 0
  /-- time base when HOLDUP was set (13 R450). -/
  holdupStart : Nat := 0
  /-- thermal latch sequence: 0 none, 1 operations ending, 2 journal writing, 3 ended (13 R459). -/
  latchSeq : BitVec 2 := 0
  /-- DROOP_COUNT (13 R461). -/
  droopCount : BitVec 32 := 0
  /-- OV_STATS.FENCES (13 R461). -/
  ovFences : BitVec 16 := 0
  /-- OV_STATS.ALERTS (13 R461). -/
  ovAlerts : BitVec 16 := 0
deriving DecidableEq, Repr

/-- Housekeeping and thermal (13 R456 to R462). -/
structure Hk where
  /-- ROUNDS (13 R462). -/
  rounds : BitVec 16 := 0
  /-- DISCARDED (RC) (13 R462). -/
  discarded : BitVec 8 := 0
  /-- discarded rounds in a row (13 R456). -/
  discardRun : Nat := 0
  /-- TEMP_TRIM as copied at BOOT (16 R540 R543). -/
  tempTrim : List (BitVec 16) := []
  /-- VMON_TRIM as copied at BOOT (16 R540 R543). -/
  voltTrim : List (BitVec 16) := []
  /-- TMAX, I16 (13 R462). -/
  tmax : BitVec 16 := 0
  /-- TMAX_SENSOR (13 R462). -/
  tmaxSensor : BitVec 8 := 0
  /-- LATCH_RUN (13 R462). -/
  latchRun : BitVec 2 := 0
  /-- THROTTLE (13 R462). -/
  throttle : Bool := false
  /-- throttleBudgetPct in force (13 R437 R464). -/
  budgetPct : Nat := 50
  /-- WARN (13 R462). -/
  warn : Bool := false
  /-- TEMP0-23 (13 R462). -/
  temps : List (BitVec 16) := List.replicate 24 0
  /-- VMON0-31 (13 R462). -/
  volts : List (BitVec 16) := List.replicate 32 0
deriving DecidableEq, Repr

/-- JIG_TRAP and JIG_MC contents (05 R174). -/
structure Trap where
  /-- VALID (W1C from the main core) (05 R174). -/
  valid : Bool := false
  /-- KIND: false software, true hardware (05 R174). -/
  kind : Bool := false
  /-- CAUSE (05 R174). -/
  cause : Byte := 0
  /-- ADDR (05 R174). -/
  addr : BitVec 11 := 0
  /-- QUARTERS (machine check) (05 R174). -/
  quarters : BitVec 4 := 0
deriving DecidableEq, Repr

/-- A bus cycle in a PHY's queue (05 R140). -/
structure Bus where
  /-- BUS code (05 R140). -/
  code : BitVec 4 := 0
  /-- command or address byte (05 R140 R141). -/
  byte : Byte := 0
  /-- selected target (05 R142). -/
  ce : Option Nat := none
  /-- selected LUN (05 R142). -/
  lun : BitVec 2 := 0
  /-- burst bytes (05 R140). -/
  bytes : Nat := 0
  /-- 0 none, 1 to J4[7:0], 2 to J4[15:8] (05 R145). -/
  capture : Nat := 0
  /-- current job (07 R234). -/
  job : Nat := 0
  /-- codec hand-off in force (05 R144). -/
  codec : BitVec 4 := 0
  /-- route of the burst (05 R144). -/
  mover : BitVec 4 := 0
  /-- buffer or staging handle of the hand-off (05 R144). -/
  handle : Nat := 0
  /-- sensing index of the hand-off (05 R144). -/
  sensing : Nat := 0
  /-- an end-of-page-set mark follows the burst (05 R144, 07 R234). -/
  mark : Bool := false
  /-- bytes driven to the die: J10 of a FEAT_OUT, the job data buffer of a DIN from it (05 R140 R144). -/
  data : List Byte := []
  /-- trained timing set in force for the cycle (06 R181). -/
  timing : Nat := 0
deriving DecidableEq, Repr

/-- One jig and its drawer (05). -/
structure Jig where
  /-- STATE (05 R173). -/
  state : JigState := .notStarted
  /-- JIG_PC (05 R174). -/
  pc : BitVec 11 := 0
  /-- return stack, 4 deep (05 R137). -/
  stack : List (BitVec 11) := []
  /-- J0 to J15 (05 R149). -/
  j : List Word := List.replicate 16 0
  /-- ITEM register (05 R136 R163). -/
  item : BitVec 128 := 0
  /-- counter A (05 R143). -/
  cntA : BitVec 16 := 0
  /-- counter B (05 R143). -/
  cntB : BitVec 16 := 0
  /-- timer (05 R143). -/
  timer : BitVec 16 := 0
  /-- timer counting (05 R143). -/
  timerRun : Bool := false
  /-- TIMER_DONE (05 R139 R143). -/
  timerDone : Bool := false
  /-- the current word is a wait word past its first cycle (05 R136). -/
  waiting : Bool := false
  /-- selected target (05 R142). -/
  ce : Option Nat := none
  /-- selected LUN (05 R142). -/
  lun : BitVec 2 := 0
  /-- on-die termination (05 R142). -/
  odt : Bool := false
  /-- chn_wp_n high (write protect released) (05 R142, 02 R40). -/
  wp : Bool := false
  /-- mover route (05 R144). -/
  mover : BitVec 4 := 0
  /-- codec hand-off in force (05 R144). -/
  codec : BitVec 4 := 0
  /-- buffer or staging handle of the hand-off in force (05 R144). -/
  codecBuf : Nat := 0
  /-- sensing index of the hand-off in force (05 R144). -/
  codecSense : Nat := 0
  /-- CODEC_ACK (05 R139, 07 R234). -/
  codecAck : Bool := false
  /-- PHY bus queue, 8 entries (05 R133). -/
  busQ : List Bus := []
  /-- status capture pending: 0 none, 1 J4[7:0], 2 J4[15:8] (05 R145). -/
  capture : Nat := 0
  /-- a clamp request of this jig waits (05 R133 R147). -/
  clampWait : Bool := false
  /-- the waiting word's request has been granted (05 R133 R147). -/
  clampGrant : Bool := false
  /-- (LUN, kind, time base) of the last array command of each LUN (05 R139, 06 R186). -/
  lastArray : List (Nat × Nat × Nat) := []
  /-- STOP (05 R172). -/
  stopReq : Bool := false
  /-- the halt word's NEXT (05 R138). -/
  resumeAt : BitVec 11 := 0
  /-- job partly popped (05 R164). -/
  curJob : Option Nat := none
  /-- its LAST item has not been popped (05 R164). -/
  curOpen : Bool := false
  /-- the item that a peek locked (05 R166). -/
  lock : Option (BitVec 128) := none
  /-- items in order of placement, 64 at most (05 R161). -/
  drawer : List (BitVec 128) := []
  /-- (job handle, time base) of FIRST items (05 R165). -/
  waitSince : List (Nat × Nat) := []
  /-- job data buffer (05 R141 R144). -/
  dataBuf : List Byte := []
  /-- next byte of the job data buffer (05 R141). -/
  bufPos : Nat := 0
  /-- job that the job data buffer belongs to (05 R141 R144). -/
  bufJob : Option Nat := none
  /-- outcome reported last: 3 read, 4 program, 5 erase; its LUN and its status byte (05 R145). -/
  reported : Option (Nat × Nat × Byte) := none
  /-- clamps held after a machine check (05 R151). -/
  mcClamps : Bool := false
  /-- words of the jig store that differ from the base library image (05 R151 R152). -/
  store : List (Nat × BitVec 160) := []
  /-- trace ring, 64 records (05 R146). -/
  trace : List (Byte × BitVec 11 × Nat) := []
  /-- jig cycle count (05 R146). -/
  cycles : Nat := 0
  /-- MC_COUNT (05 R173). -/
  mcCount : BitVec 8 := 0
  /-- a fallback waits for the operations in flight: no new job is taken (06 R208). -/
  fallPend : Bool := false
  /-- TRAP_COUNT (05 R173). -/
  trapCount : BitVec 8 := 0
  /-- STALL (05 R173). -/
  stall : BitVec 4 := 0
  /-- JIG_MC (05 R174). -/
  mc : Trap := {}
  /-- JIG_TRAP (05 R174). -/
  trap : Trap := {}
  /-- DRAWER_CFG.AGE_MS (05 R174). -/
  ageMs : BitVec 8 := 0x14
  /-- DRAWER_STATS.FULL (RC) (05 R174). -/
  full : BitVec 16 := 0
  /-- DRAWER_STATS.AGED_COUNT (RC) (05 R174). -/
  aged : BitVec 16 := 0
  /-- JIG_EVENT.COUNT (RC) (05 R174). -/
  eventCount : BitVec 16 := 0
  /-- JIG_EVENT.CODE (05 R174). -/
  eventCode : BitVec 6 := 0
deriving DecidableEq, Repr

/-- One channel (06). -/
structure Chan where
  /-- pad hold in force (02 R40 R54). -/
  padHold : Bool := true
  /-- channelEnable bit in force (06 R217). -/
  enabled : Bool := true
  /-- CH_STATUS.MODE (06 R216). -/
  mode : BitVec 4 := 0
  /-- CH_STATUS.MULT (06 R216). -/
  mult : BitVec 4 := 1
  /-- channelRate, MT/s (06 R178 R217). -/
  rate : Nat := 10
  /-- PRESENT (06 R216). -/
  present : BitVec 8 := 0
  /-- FALLBACK (06 R216). -/
  fallback : Bool := false
  /-- SEARCH (06 R216). -/
  search : Bool := false
  /-- TRAINING (06 R216). -/
  training : Bool := false
  /-- UP (06 R216). -/
  up : Bool := false
  /-- RETRAIN_COUNT (06 R216). -/
  retrainCount : BitVec 8 := 0
  /-- FAIL_COUNT (06 R216). -/
  failCount : BitVec 8 := 0
  /-- LAST_PAUSE (06 R216). -/
  lastPause : BitVec 8 := 0
  /-- LAST_STEP (06 R216). -/
  lastStep : BitVec 4 := 0
  /-- LAST_RESULT (06 R216). -/
  lastResult : BitVec 4 := 0
  /-- DRIFT (06 R216). -/
  drift : BitVec 8 := 0
  /-- TRIP (06 R216). -/
  trip : BitVec 8 := 6
  /-- DRIFT_TRIP (06 R205). -/
  driftTrip : Bool := false
  /-- RETRAIN_DUE (06 R205). -/
  retrainDue : Bool := false
  /-- bad searches in a row (06 R208). -/
  badRun : Nat := 0
  /-- a bad search is to be started again (06 R206). -/
  restartPend : Bool := false
  /-- fallbackCount, U16 (06 R217). -/
  fallbackCount : Nat := 0
  /-- retrainCount object, U32 (06 R217). -/
  applies : Nat := 0
  /-- searchFailCount object, U32 (06 R217). -/
  searchFails : Nat := 0
  /-- XM charge held with no data burst in the queue (06 R183). -/
  xmReleasePend : Bool := false
  /-- LUNs reported as suspect (03 R74, 06 R190). -/
  suspects : List Nat := []
  /-- drift monitor to be read before the first operation after STANDBY (03 R78, 06 R209). -/
  driftCheck : Bool := false
  /-- die type in force per chip enable (06 R187). -/
  dieTypes : List Nat := List.replicate 8 0
  /-- bytes in the channel write queue (07 R231). -/
  wrq : Nat := 0
  /-- trained timing set of each chip enable, by the number of the training that made it (06 R181). -/
  timing : List Nat := List.replicate 8 0
  /-- what the targets show when the fallback that waits for the operations in flight is performed (06 R208). -/
  fallIn : List TargetIn := []
  /-- bus cycles that TRAIN, and a fallback, have issued on the channel, in order (03 R73 R74, 06 R191 R203 R204). -/
  trainBus : List Bus := []
  /-- the settings of the apply in progress are in force (06 R207). -/
  applied : Bool := false
deriving DecidableEq, Repr

/-- A decode in an engine (07 R237 R238). -/
structure DecJob where
  /-- 0 hard, 1 soft, 2 fusion (07 R237). -/
  kind : Nat := 0
  /-- engine number (07 R237). -/
  engine : Nat := 0
  /-- job of the codeword (07 R233). -/
  job : Nat := 0
  /-- codeword index (07 R221). -/
  cw : Nat := 0
  /-- bits that the test injection inverts in this decode (07 R244). -/
  inject : Nat := 0
deriving DecidableEq, Repr

/-- Page codec (07). -/
structure Codec where
  /-- ENC_UP (07 R244). -/
  encUp : BitVec 4 := 0xF
  /-- HARD_UP (07 R244). -/
  hardUp : BitVec 8 := 0xFF
  /-- SOFT_UP (07 R244). -/
  softUp : BitVec 4 := 0xF
  /-- FUSION_UP (07 R244). -/
  fusionUp : Bool := true
  /-- CODEC_FAULT.VALID (W1C) (07 R244). -/
  faultValid : Bool := false
  /-- KIND (07 R244). -/
  faultKind : BitVec 2 := 0
  /-- INDEX (07 R244). -/
  faultIndex : BitVec 3 := 0
  /-- CAUSE (07 R244). -/
  faultCause : BitVec 3 := 0
  /-- CODEC_WORK.LIMIT (07 R244). -/
  workLimit : BitVec 8 := 0x20
  /-- CODEC_INJECT.COUNT (07 R244). -/
  injectCount : BitVec 16 := 0
  /-- CODEC_INJECT.BITS (07 R244). -/
  injectBits : BitVec 16 := 0
  /-- CODEC_LASTFAIL0-3 (07 R244). -/
  lastFail : BitVec 128 := 0
  /-- CNT_HARD_OK to CNT_ERASED (07 R244). -/
  counters : List Word := List.replicate 9 0
  /-- (encoder, job) encoding (07 R231). -/
  engines : List (Nat × Nat) := []
  /-- (job, codeword, stored bytes) waiting in the channel write queues (07 R229 R231). -/
  parity : List (Nat × Nat × List Byte) := []
  /-- decodes in progress (07 R238 R239). -/
  decoders : List DecJob := []
  /-- number of the next arrival in a decoder queue or among the waiters for a work area (07 R238 R239). -/
  decSeq : Nat := 1
  /-- channel that the round robin of hard decoding visits next (07 R238). -/
  rr : Nat := 0
deriving DecidableEq, Repr

/-- A truing search (08 R268 to R273). -/
structure Search where
  /-- search handle (model's own). -/
  id : Nat := 0
  /-- LUN (08 R268). -/
  lun : Nat := 0
  /-- erase block set (08 R268). -/
  block : Nat := 0
  /-- wordline zone (08 R264). -/
  zone : Nat := 0
  /-- wordline (08 R268). -/
  wl : Nat := 0
  /-- codeword slot and plane of the sample (08 R268). -/
  slot : Nat := 0
  /-- offsets of levels 1 to 2^b - 1 (08 R269). -/
  off : List Int := []
  /-- previous offsets (08 R269). -/
  prev : List Int := []
  /-- previous counts (08 R269). -/
  prevBelow : List Nat := []
  /-- g[k] as a fraction (08 R269). -/
  gain : List (Int × Nat) := []
  /-- sensings used (08 R269). -/
  used : Nat := 0
  /-- first iteration (08 R269). -/
  first : Bool := true
  /-- started by the ladder (08 R248). -/
  climb : Bool := false
  /-- block dose at the start (08 R267 R274). -/
  dose : Nat := 0
  /-- priority (08 R253). -/
  prio : Nat := 3
  /-- first slot of its work area (08 R268). -/
  work : Option Nat := none
  /-- time base at its start (08 R269). -/
  start : Nat := 0
  /-- code profile of the sample (08 R268). -/
  profile : Nat := 1
  /-- (page type, bits) merged in the work area (08 R268). -/
  sensings : List (Nat × List Byte) := []
  /-- a sensing was repeated once (08 R249). -/
  retried : Bool := false
  /-- belongs to the wake sweep (08 R285). -/
  sweep : Bool := false
  /-- order of arrival among the waiters for a work area (07 R239, 08 R268). -/
  seq : Nat := 0
deriving DecidableEq, Repr

/-- A truing cache entry (08 R274). -/
structure TrueEntry where
  /-- key (08 R274). -/
  lun : Nat := 0
  /-- key (08 R274). -/
  block : Nat := 0
  /-- key (08 R274). -/
  zone : Nat := 0
  /-- trued offsets (08 R274). -/
  off : List Int := []
  /-- block dose at the start of the search (08 R274). -/
  dose : Nat := 0
  /-- time base at which the search converged (08 R273). -/
  time : Nat := 0
deriving DecidableEq, Repr

/-- Per-LUN record (08 R288, 15 R521). -/
structure LunRec where
  /-- lunBias of levels 1..15 (saved) (08 R288). -/
  bias : List Int := []
  /-- a value written to lunBias takes force at the next start (08 R287 R288). -/
  biasWritten : Bool := false
  /-- lunRetryHint (08 R277 R288). -/
  retryHint : Nat := 0
  /-- lunTrueCount (08 R288). -/
  trueCount : Nat := 0
  /-- lunTrueAbandoned (08 R288). -/
  trueAbandoned : Nat := 0
  /-- lunReads (15 R521). -/
  reads : Nat := 0
  /-- lunPrograms (15 R521). -/
  programs : Nat := 0
  /-- lunErases (15 R521). -/
  erases : Nat := 0
  /-- lunProgramFails (15 R521). -/
  programFails : Nat := 0
  /-- lunEraseFails (15 R521). -/
  eraseFails : Nat := 0
  /-- lunBusyTimeouts (15 R521). -/
  busyTimeouts : Nat := 0
  /-- declared failed (10 R328). -/
  failed : Bool := false
  /-- resident (feature address, parameters) and the priority of the last job placed that carried them (08 R256). -/
  resident : Option (List (Nat × Nat) × Nat) := none
deriving DecidableEq, Repr

/-- A dose ledger record of one erase block set (08 R260). -/
structure DoseRec where
  /-- STAMP (08 R260). -/
  stamp : Word := 0xFFFFFFFF
  /-- PE_COUNT (08 R260). -/
  pe : BitVec 16 := 0
  /-- STAMPED (08 R260). -/
  stamped : Bool := false
  /-- STAMPED_UNKNOWN (08 R260). -/
  unknown : Bool := false
deriving DecidableEq, Repr

/-- Read recovery (08). -/
structure Recov where
  /-- channel dose clocks (08 R258). -/
  clocks : List (BitVec 64) := List.replicate 16 0
  /-- channelTemperatureUsed (08 R287). -/
  tempUsed : List (BitVec 16) := List.replicate 16 0
  /-- ticks since nandTemperature was written (08 R259). -/
  hostTempAge : List Nat := List.replicate 16 0
  /-- DOSE_KNOWN (08 R263). -/
  doseKnown : Bool := false
  /-- wallClock (time at the last write) (08 R287). -/
  wallClock : BitVec 48 := 0
  /-- time base at the last wallClock write (08 R287). -/
  wallBase : Nat := 0
  /-- wallClock as last saved (08 R262). -/
  savedWall : Option (BitVec 48) := none
  /-- lastUnpoweredHours (08 R263). -/
  unpoweredHours : Nat := 0
  /-- SWEEP (08 R286). -/
  sweep : BitVec 4 := 0
  /-- wake sweep may still start (08 R285). -/
  sweepPend : Bool := false
  /-- prediction table valid, die types 1 to 8 (08 R265). -/
  tableValid : List Bool := List.replicate 8 false
  /-- the tables in use have been judged since the start (08 R265 R286). -/
  tablesJudged : Bool := false
  /-- time base at TRAIN_ENTRY, for the bound of initial truing (03 R73, 08 R284). -/
  trainStart : Nat := 0
  /-- truing searches running (08 R273). -/
  searches : List Search := []
  /-- next search handle (model's own). -/
  nextSearch : Nat := 0
  /-- truing cache, most recently used first, 1,024 (08 R274). -/
  cache : List TrueEntry := []
  /-- dose ledger: (LUN, block) to record, absent = unwritten block (08 R260). -/
  dose : List ((Nat × Nat) × DoseRec) := []
  /-- erase block sets whose record lies in the tables SRAM, most recently used first, 2,048 (08 R260). -/
  doseCache : List (Nat × Nat) := []
  /-- erase block sets whose window read met a fabric error and is to be issued again (09 R593). -/
  doseHeld : List (Nat × Nat) := []
  /-- LUN, block and zone that the last read recovery event of a search named (08 R271). -/
  event : Option (Nat × Nat × Nat) := none
  /-- LEDGER_OK (08 R286). -/
  ledgerOk : Bool := false
  /-- RR_RESOLVED1-6 (08 R286). -/
  resolved : List Word := List.replicate 6 0
  /-- RR_LOST (08 R286). -/
  lost : Word := 0
  /-- RR_TRUE_OK (08 R286). -/
  trueOk : Word := 0
  /-- RR_TRUE_ABANDON (08 R286). -/
  trueAbandon : Word := 0
deriving DecidableEq, Repr

/-- A member word of the directory (09 R321, 10 R327). -/
structure Member where
  /-- global LUN (09 R321). -/
  lun : Nat := 0
  /-- BLOCK (09 R321). -/
  block : Nat := 0
  /-- MSTATE (10 R327). -/
  mstate : BitVec 4 := 0
deriving DecidableEq, Repr

/-- A directory entry (09 R321). -/
structure DirEntry where
  /-- GROUP (09 R321). -/
  group : Nat := 0
  /-- STATE: 0 free, 1 open, 2 closed (09 R321). -/
  state : BitVec 8 := 0
  /-- WIDTH (09 R321). -/
  width : Nat := 0
  /-- code profile 1 to 4 (09 R321). -/
  profile : Nat := 1
  /-- GEN (09 R321). -/
  gen : Byte := 0
  /-- FLAGS.REFIT_SOURCE (09 R321, 10 R356). -/
  refitSource : Bool := false
  /-- FLAGS.REFIT_TARGET (09 R321, 10 R356). -/
  refitTarget : Bool := false
  /-- FLAGS.BOUND_ROWS (09 R321, 11 R380). -/
  boundRows : Bool := false
  /-- NEXT_ROW (09 R321, 06 R210). -/
  nextRow : Nat := 0
  /-- ACCEPTED (09 R321, 06 R210). -/
  accepted : List Nat := []
  /-- ROWS (09 R321). -/
  rows : Nat := 0
  /-- LAST_SEAL_SEQ (09 R321). -/
  lastSeal : Word := 0
  /-- ESEQ (09 R321). -/
  eseq : Word := 0
  /-- MEMBER words (09 R321). -/
  members : List Member := []
  /-- short-row list (09 R321 R303). -/
  short : List (Nat × BitVec 32) := []
  /-- SHORT_OVERFLOW (09 R321 R303). -/
  overflow : Bool := false
  /-- rows below NEXT_ROW that are not yet written in the sense of R119 (04 R119, 09 R300). -/
  unwritten : List Nat := []
  /-- rows whose finishing entry's completion met a fabric error: never written (04 R119, 09 R300). -/
  uncompleted : List Nat := []
  /-- taken by a GROUP_OPEN that is still erasing (09 R292). -/
  opening : Bool := false
deriving DecidableEq, Repr

/-- A loss ledger entry (10 R340). -/
structure LossEntry where
  /-- GROUP (10 R340). -/
  group : Nat := 0
  /-- GEN (10 R340). -/
  gen : Byte := 0
  /-- MEMBER (10 R340). -/
  member : Nat := 0
  /-- CAUSE (10 R340). -/
  cause : Byte := 0
  /-- CW_MASK (10 R340). -/
  mask : BitVec 16 := 0
  /-- ROW_FIRST (10 R340). -/
  first : Nat := 0
  /-- ROW_COUNT (10 R340). -/
  count : Nat := 0
  /-- TIME (10 R340). -/
  time : BitVec 48 := 0
  /-- LSEQ (10 R340). -/
  lseq : Word := 0
deriving DecidableEq, Repr

/-- A bind table entry (11 R379). -/
structure BindEntry where
  /-- GROUP (11 R379). -/
  group : Nat := 0
  /-- FIRST_ROW (11 R379). -/
  first : Nat := 0
  /-- ROWS (11 R379). -/
  rows : Nat := 0
  /-- JOB (11 R379). -/
  job : Word := 0
deriving DecidableEq, Repr

/-- A glue-up slot (09 R296). -/
structure Slot where
  /-- FREE, FILLING, SEALING (09 R296). -/
  state : SlotState := .free
  /-- group of its row (09 R296). -/
  group : Nat := 0
  /-- row (09 R296). -/
  row : Nat := 0
  /-- members folded whole (09 R296). -/
  folded : List Nat := []
  /-- (member, codeword) folded of members not yet folded whole (09 R298). -/
  part : List (Nat × Nat) := []
  /-- members that hold host data (09 R301). -/
  dataMask : List Nat := []
  /-- seal formed at sealing (09 R301). -/
  sealW : BitVec 96 := 0
  /-- P and Q programs not yet ended (09 R296). -/
  parityLeft : Nat := 0
  /-- number of its ROW_SEALED record (09 R296). -/
  recNo : Option Nat := none
  /-- data members whose programs have passed (09 R309). -/
  passed : List Nat := []
  /-- members failed or not programmed (10 R334). -/
  failed : List Nat := []
  /-- being closed short (09 R302). -/
  short : Bool := false
  /-- codewords of P and Q to be computed again before their array-start (17 R563). -/
  bad : List Nat := []
  /-- the P and Q programs are placed (09 R299). -/
  placed : Bool := false
  /-- FORM of the seal (09 R301). -/
  form : Nat := 1
  /-- codewords of P and Q programmed as sentinels (17 R563). -/
  sentinels : List Nat := []
  /-- parity members of a refit row left as a reset cut them off (10 R363). -/
  asFound : List Nat := []
  /-- members whose owners fold them on other blocks (12 R416). -/
  away : List Nat := []
  /-- P and Q are whole: the home block's, or a copy of them (12 R416). -/
  whole : Bool := false
  /-- codewords of a partial of P and Q of a row whose home is another block, P at 0 to 15 and Q at 16 to 31 (12 R416). -/
  acc : List (Nat × List Byte) := []
deriving DecidableEq, Repr

/-- A journal page in flight (09 R307, R308). -/
structure JPage where
  /-- 0 running page, 1 snapshot page (09 R308). -/
  kind : Nat := 0
  /-- JSEQ (09 R308). -/
  jseq : Nat := 0
  /-- ring page index (09 R307). -/
  page : Nat := 0
  /-- records of the page (09 R308). -/
  recs : List (BitVec 256) := []
  /-- snapshot bytes of a snapshot page (09 R311). -/
  snap : List Byte := []
  /-- WOFFSET of a snapshot page (09 R308). -/
  woff : Nat := 0
  /-- copies that take the page: 0 A, 1 B, 2 the surviving copy of a move (09 R307, 10 R364). -/
  copies : List Nat := []
deriving DecidableEq, Repr

/-- Glue-up journal (09). -/
structure Jrnl where
  /-- JRNL_STATUS.STATE (09 R324). -/
  state : BitVec 4 := 0
  /-- LUN_A (09 R324). -/
  lunA : Nat := 0
  /-- LUN_B (09 R324). -/
  lunB : Nat := 0
  /-- BASE_BLOCK of the pair (09 R313). -/
  baseBlock : Nat := 0
  /-- BLOCKS of the pair (09 R313). -/
  blocks : Nat := 0
  /-- P_J (09 R307). -/
  pj : Nat := 0
  /-- EPOCH (09 R324). -/
  epoch : Word := 0
  /-- JSEQ of the last page written (09 R308). -/
  jseq : Nat := 0
  /-- JSEQ of the last durable page (09 R324). -/
  durableJseq : Nat := 0
  /-- next ring page index (09 R307). -/
  page : Nat := 0
  /-- FOLD_PAGE (09 R311). -/
  foldPage : Nat := 0
  /-- FOLD_JSEQ (09 R308 R313). -/
  foldJseq : Nat := 0
  /-- JOURNAL_PAGES (09 R311). -/
  pages : Nat := 0
  /-- records waiting, in order of generation (09 R310). -/
  queue : List (BitVec 256) := []
  /-- records generated (09 R310). -/
  recNo : Nat := 0
  /-- last record number in the page in flight (09 R307). -/
  pageRecs : Nat := 0
  /-- last durable record number (09 R307). -/
  durableRec : Nat := 0
  /-- last record number of the durable pages while both copies are lost (10 R365). -/
  heldRec : Nat := 0
  /-- page in flight (09 R307). -/
  inFlight : Option JPage := none
  /-- copies whose program has not passed yet (09 R307). -/
  copiesLeft : List Nat := []
  /-- FOLDING (09 R324). -/
  folding : Bool := false
  /-- ring page index and JSEQ of the running fold's first page (09 R311). -/
  foldFirst : Option (Nat × Nat) := none
  /-- snapshot pages still to write (09 R311). -/
  snapLeft : Nat := 0
  /-- window bytes read for the snapshot page being built: window offset and bytes (09 R311 R593). -/
  snapGot : List (Nat × List Byte) := []
  /-- the next page alternates to a snapshot page (09 R311). -/
  snapTurn : Bool := false
  /-- FOLD_END has been generated (09 R311). -/
  foldEnd : Bool := false
  /-- a move to a new pair runs or waits (10 R364). -/
  moving : Bool := false
  /-- surviving copy: 0 A, 1 B (10 R364). -/
  survivor : Option Nat := none
  /-- next ring page index of the surviving copy (10 R364). -/
  oldPage : Nat := 0
  /-- JSEQ of the last page written to the surviving copy (10 R364). -/
  oldJseq : Nat := 0
  /-- base block and blocks of the old pair (10 R364). -/
  oldBase : Nat × Nat := (0, 0)
  /-- P_J of the old pair (10 R364). -/
  oldPj : Nat := 0
  /-- epoch of the old pair (10 R364). -/
  oldEpoch : Word := 0
  /-- JSEQ of the old pair's latest complete fold (09 R308, 10 R364). -/
  oldFoldJseq : Nat := 0
  /-- the move waits for a qualifying pair (10 R364). -/
  pairWaits : Bool := false
  /-- the old pair during a move (10 R364). -/
  oldPair : Nat × Nat := (0, 0)
  /-- both copies lost (10 R365). -/
  lost : Bool := false
  /-- recovery: 0 none, 1 waits for the grant, 2 reads the journal, 3 folds a new window, 4 writes ROW_SEALED records, 5
  stopped under R594 (09 R315). -/
  recStep : Nat := 0
  /-- time base at the grant, for TIME_MS (09 R324). -/
  recStart : Nat := 0
  /-- journal LUNs found unreadable, with the cause to declare (09 R315). -/
  recDead : List (Nat × Nat) := []
  /-- WINDOW_MIB of the valid anchor (09 R313). -/
  anchorMib : Nat := 0
  /-- (LUN, block) journal block erases asked for (09 R312). -/
  erases : List (Nat × Nat) := []
  /-- ASEQ of the valid anchor (09 R324). -/
  aseq : Word := 0
  /-- ANCHOR_STATUS.SECTOR (09 R324). -/
  anchorSector : Nat := 0
  /-- ANCHOR_STATUS.RECORD (09 R324). -/
  anchorRecord : Nat := 0
  /-- a valid anchor is known (09 R314). -/
  anchorValid : Bool := false
  /-- lastRecoveryMs; RECOVERY.TIME_MS shows it saturated (09 R324 R325). -/
  recMs : Word := 0
  /-- REPARITY (09 R324). -/
  reparity : BitVec 8 := 0
  /-- ADOPTED (09 R324). -/
  adopted : BitVec 8 := 0
  /-- SEAL_SEQ.NEXT (09 R324). -/
  sealNext : Word := 0
  /-- live records: REBUILD_*, REFIT_*, PATROL_POS (10 R364). -/
  live : List (BitVec 256) := []
deriving DecidableEq, Repr

/-- Stripe engine: window, directory, slots (09). -/
structure Stripe where
  /-- STRIPE_WIN_BASE_LO.BASE_LO (09 R324). -/
  baseLo : BitVec 12 := 0
  /-- STRIPE_WIN_BASE_HI.BASE_HI (09 R324). -/
  baseHi : Word := 0
  /-- STRIPE_WIN_SIZE.MIB (09 R324). -/
  mib : BitVec 11 := 0
  /-- STRIPE_WIN_STATUS.ERR (09 R324). -/
  err : Byte := 0
  /-- GRANTED (09 R324). -/
  granted : Bool := false
  /-- GRANT written before TRAIN step 6 (09 R318). -/
  grantPend : Bool := false
  /-- READY (09 R324). -/
  ready : Bool := false
  /-- WFAULT (09 R324). -/
  wfault : Bool := false
  /-- DIR_OFF (09 R319). -/
  dirOff : Nat := 0
  /-- DIR_ENTRIES (09 R319). -/
  dirEntries : Nat := 0
  /-- DOSE_BYTES (09 R320). -/
  doseBytes : Nat := 0
  /-- directory entries that are not blank, ascending group (09 R321). -/
  dir : List DirEntry := []
  /-- loss ledger: index to entry, ascending (10 R340). -/
  ledger : List (Nat × LossEntry) := []
  /-- last LSEQ (10 R340). -/
  lseq : Word := 0
  /-- LEDGER_FULL (10 R342). -/
  ledgerFull : Bool := false
  /-- bind table: index to entry, ascending (11 R379). -/
  binds : List (Nat × BindEntry) := []
  /-- DATA_MASK of rows sealed short that an overflowed short list has no place for, as their seals on flash hold it (09 R301
  R303). -/
  unlisted : List ((Nat × Nat) × Word) := []
  /-- window writes held after a fabric error (09 R593). -/
  held : List (BitVec 64 × List Byte) := []
  /-- window writes that wait for an earlier one of the same bytes to be acknowledged (02 R36, 09 R593). -/
  winWait : List (BitVec 64 × List Byte) := []
  /-- window reads of bind entries and snapshot pages that met a fabric error: what they are for, address, bytes (09 R593). -/
  winReadHeld : List (HostWhat × Nat × Nat) := []
  /-- bind entries cached by index, most recently used first, 1,024 (11 R379). -/
  bindCache : List Nat := []
  /-- groups whose directory entry is being read from the window (09 R323). -/
  missing : List Nat := []
  /-- groups whose window read met a fabric error (09 R593). -/
  readHeld : List Nat := []
  /-- glue-up slots (09 R296). -/
  slots : List Slot := List.replicate 32 {}
  /-- rows whose slot is FREE while data programs of theirs still run, with the members whose programs have passed (09 R309
  R310). -/
  lateRows : List ((Nat × Nat) × List Nat) := []
  /-- SLOT_WAIT.LONG (RC) (09 R324). -/
  waitLong : BitVec 16 := 0
  /-- SLOT_WAIT.WAITS (RC) (09 R324). -/
  waits : BitVec 16 := 0
  /-- DIR_CACHE.MISSES (RC) (09 R324). -/
  misses : BitVec 16 := 0
  /-- groups whose entry is cached, most recently used first, 4,096 (09 R323). -/
  cache : List Nat := []
  /-- member lines cached as (group, line of 16 member words), most recently used first, 1,024 (09 R323). -/
  lines : List (Nat × Nat) := []
  /-- glue-up journal (09 R306). -/
  jrnl : Jrnl := {}
deriving DecidableEq, Repr

/-- What the members of a row are read together for (08 R280, 10 R347 R352 R358). -/
inductive Service where
  | reconstruct | rebuild | patrol | refit | repair
deriving DecidableEq, Repr

/-- Progress of a row in hand: its reads, its programs, its seal (10 R347 R358). -/
inductive RunPhase where
  | reading | programming | sealing
deriving DecidableEq, Repr

/-- One codeword of a page that rebuild or refit programs: user bytes, and KIND and MEMBER of its label (10 R339 R347 R358). -/
structure PageCw where
  /-- user bytes (10 R347). -/
  user : List Byte := []
  /-- KIND (07 R223). -/
  kind : Nat := 4
  /-- MEMBER (07 R223). -/
  member : Nat := 0
deriving DecidableEq, Repr

/-- A row in hand: its members are being read together (08 R280, 10 R347 R352 R358). -/
structure RowRun where
  /-- number of the row in hand (the model's own). -/
  id : Nat := 0
  /-- what it serves (08 R280, 10 R347 R352 R358). -/
  service : Service := .patrol
  /-- group; of a refit the target (10 R347 R352 R358). -/
  group : Nat := 0
  /-- row (10 R347 R352 R358). -/
  row : Nat := 0
  /-- member that is recovered; of a refit the data member in program (08 R280, 10 R347 R358). -/
  member : Nat := 0
  /-- job of the codeword that step 6 rebuilds (08 R280). -/
  job : Nat := 0
  /-- codeword that step 6 rebuilds (08 R280). -/
  cw : Nat := 0
  /-- reads, programs, seal (10 R347 R358). -/
  phase : RunPhase := .reading
  /-- reads placed so far: the first, then what they showed to be needed (10 R347 R363). -/
  wave : Nat := 0
  /-- page in program (10 R347 R358). -/
  page : List PageCw := []
  /-- seal of a rebuilt parity page (10 R347). -/
  sealW : BitVec 96 := 0
  /-- target members whose page a reset left whole (10 R363). -/
  kept : List Nat := []
  /-- target members that a reset cut off (10 R363). -/
  cut : List Nat := []
deriving DecidableEq, Repr

/-- A running or queued rebuild (10 R345, R347). -/
structure Rebuild where
  /-- GROUP or 0xFFFFFF (10 R345). -/
  group : Nat := 0xFFFFFF
  /-- failed LUN (10 R345). -/
  failedLun : Nat := 0
  /-- spare (10 R345). -/
  spareLun : Nat := 0
  /-- pool entry index (10 R344). -/
  poolIdx : Nat := 0
  /-- lowest group not yet taken up by this rebuild (10 R345). -/
  next : Nat := 0
deriving DecidableEq, Repr

/-- Background engine (10). -/
structure Bg where
  /-- BG_STATUS.REBUILD (10 R370). -/
  rebuildState : BitVec 4 := 0
  /-- BG_STATUS.REFIT (10 R370). -/
  refitState : BitVec 4 := 0
  /-- BG_STATUS.PATROL (10 R370). -/
  patrolState : BitVec 4 := 0
  /-- rebuilds running (head) and queued (10 R345). -/
  queue : List Rebuild := []
  /-- REBUILD_POS.GROUP (10 R370). -/
  curGroup : Nat := 0
  /-- REBUILD_POS.MEMBER (10 R370). -/
  curMember : Nat := 0
  /-- REBUILD_ROW.POINTER (10 R370). -/
  pointer : Nat := 0
  /-- a member is being rebuilt (10 R347). -/
  active : Bool := false
  /-- the member's programs go to the spare (10 R348). -/
  switched : Bool := false
  /-- row of the member to rebuild once it is sealed (10 R348). -/
  owed : Option Nat := none
  /-- spare blocks that failed for this member (10 R349). -/
  attempts : Nat := 0
  /-- spare block in use (10 R347). -/
  spareBlock : Nat := 0
  /-- the failed LUN and block of the member being rebuilt (10 R327 R329). -/
  failedWord : Member := {}
  /-- spareNext (10 R344). -/
  spareNext : List Nat := List.replicate 32 0
  /-- PLAN_ID (10 R355). -/
  planId : Word := 0
  /-- source groups (10 R355). -/
  sources : List Nat := []
  /-- target groups (10 R355). -/
  targets : List Nat := []
  /-- REFIT_POS.TARGET (10 R370). -/
  target : Nat := 0
  /-- REFIT_POS.ROW (10 R370). -/
  refitRow : Nat := 0
  /-- REFIT_UNITS (10 R370). -/
  unit : Nat := 0
  /-- target entries of an accepted plan, written once their erases have ended (10 R355 R356). -/
  plan : List DirEntry := []
  /-- target erases outstanding (10 R356). -/
  refitErases : Nat := 0
  /-- number of the REFIT_COMMIT record (10 R360). -/
  commitRec : Option Nat := none
  /-- rows in hand (08 R280, 10 R347 R352 R358). -/
  runs : List RowRun := []
  /-- number of the next row in hand (the model's own). -/
  nextRun : Nat := 0
  /-- the spare block is being erased (10 R347). -/
  erasing : Bool := false
  /-- the refit goes on as resuming after a reset once the rebuilds that paused it have ended (10 R361 R363). -/
  refitResume : Bool := false
  /-- group, member and row of the last rebuild, patrol or refit event (10 R350 R354 R363). -/
  event : Option (Nat × Nat × Nat) := none
  /-- rows sealed since the last checkpoint (10 R358). -/
  refitSince : Nat := 0
  /-- PATROL_CTL pause in force (10 R351). -/
  patrolPaused : Bool := false
  /-- PATROL_POS.GROUP (10 R370). -/
  patrolGroup : Nat := 0
  /-- PATROL_ROW.ROW (10 R370). -/
  patrolRow : Nat := 0
  /-- time base before which patrol starts no row (10 R352). -/
  patrolNext : Nat := 0
  /-- rows since the last PATROL_POS record (10 R352). -/
  patrolSince : Nat := 0
  /-- PATROL_LAPS (10 R370). -/
  laps : Word := 0
  /-- time base at the start of the lap, once its first row has started (10 R371). -/
  lapStart : Option Nat := none
  /-- patrolLastLap, s (10 R371). -/
  lastLap : Nat := 0
  /-- PATROL_FIND.UNREADABLE (RC) (10 R370). -/
  unreadable : BitVec 16 := 0
  /-- SILENT (RC) (10 R370). -/
  silent : BitVec 8 := 0
  /-- PARITY (RC) (10 R370). -/
  parity : BitVec 4 := 0
  /-- UNRESOLVED (RC) (10 R370). -/
  unresolved : BitVec 4 := 0
  /-- SCANNED (10 R370). -/
  scanned : Bool := false
  /-- LOSS_COUNT (10 R370). -/
  lossCount : Word := 0
deriving DecidableEq, Repr

/-- A fed range (11 R389). -/
structure Fed where
  /-- group (11 R389). -/
  group : Nat := 0
  /-- first row (11 R389). -/
  first : Nat := 0
  /-- rows (11 R389). -/
  rows : Nat := 0
  /-- order of its latest addition (11 R389). -/
  age : Nat := 0
deriving DecidableEq, Repr

/-- A FEED in service (11 R386 to R388). -/
structure Feed where
  /-- GROUP (11 R386). -/
  group : Nat := 0
  /-- ROW as requested (11 R386). -/
  row : Nat := 0
  /-- ROWS (11 R386). -/
  rows : Nat := 0
  /-- (row, member) units still to be read or sent (11 R386). -/
  units : List (Nat × Nat) := []
  /-- units with reads outstanding or ready, in order (11 R386). -/
  read : List (Nat × Nat) := []
  /-- beats sent of the run in progress, of the first unit of read (11 R387). -/
  sending : Option Nat := none
deriving DecidableEq, Repr

/-- An answer of a head that leaves in its turn (11 R376, R377). -/
structure Ans where
  /-- messages sent first: the answer, or the first message of a run (11 R375). -/
  msgs : List (BitVec 64) := []
  /-- beats of a FRAG_READ run (11 R377 R398). -/
  beats : List (List Byte) := []
  /-- DATA_END of a FRAG_READ run (11 R377). -/
  tail : List (BitVec 64) := []
  /-- record that must be durable before it leaves (11 R390). -/
  recNo : Option Nat := none
  /-- a FEED without FEED_DONE (11 R388). -/
  feed : Bool := false
  /-- a PASS without PASS_RESULT (11 R396). -/
  pass : Bool := false
  /-- the FEED_DONE of a FEED, waiting for its turn (11 R376, R388). -/
  done : Bool := false
  /-- KIND of a message forwarded to the lead block, whose answer has not come back (12 R420). -/
  fwd : Option Nat := none
deriving DecidableEq, Repr

/-- One optical head (11). -/
structure Head where
  /-- JOB (11 R385). -/
  job : Option Word := none
  /-- FEED without FEED_DONE (11 R386). -/
  feed : Option Feed := none
  /-- fed list, 32 ranges (11 R389). -/
  fed : List Fed := []
  /-- PASS in progress: FRAG, SYNC, PBEATS (11 R396). -/
  pass : Option (BitVec 6 × Bool × Nat) := none
  /-- headRunsFed (11 R404). -/
  runs : Nat := 0
  /-- headRowsReleased (11 R404). -/
  released : Nat := 0
  /-- headAborts (11 R404). -/
  aborts : Nat := 0
  /-- headPassesAccepted (11 R404). -/
  passOk : Nat := 0
  /-- headPassesRejected (11 R404). -/
  passRej : Nat := 0
  /-- answers owed, in the order of acceptance (11 R376). -/
  answers : List Ans := []
  /-- block whose port the head is wired to, when not this one (11 R420). -/
  via : Option (BitVec 3) := none
deriving DecidableEq, Repr

/-- A head has a FEED without FEED_DONE: the FEED runs, or its FEED_DONE has not yet left (11 R378, R388, R403). -/
def Head.feeding (h : Head) : Bool := h.feed.isSome || h.answers.any (·.done)

/-- An accumulator fragment (11 R395). -/
structure Frag where
  /-- FRAG (11 R374). -/
  frag : BitVec 6 := 0
  /-- head that opened it (11 R395). -/
  head : Nat := 0
  /-- N, samples (11 R374). -/
  n : Nat := 0
  /-- G, guard samples (11 R374). -/
  g : Nat := 0
  /-- REF_OFF (11 R374). -/
  refOff : Nat := 0
  /-- first 4 KiB slot (11 R395). -/
  slot : Nat := 0
  /-- PASSES (11 R395). -/
  passes : Nat := 0
deriving DecidableEq, Repr

/-- Media port and accumulator (11). -/
structure Media where
  /-- heads 0 to 15 (11 R385). -/
  heads : List Head := List.replicate 16 {}
  /-- messages accepted and not yet served, oldest first, 16 (11 R373). -/
  inQ : List (BitVec 64) := []
  /-- messages sent, oldest first (11 R375). -/
  out : List (BitVec 64) := []
  /-- beats sent on med_dat_out, oldest first (11 R377). -/
  beats : List (List Byte) := []
  /-- MEDIA_STATUS.ACCUM (11 R403). -/
  accum : BitVec 4 := 0
  /-- ACCUM_OPEN entry that waits for the drain (01 R21). -/
  accEid : Option Nat := none
  /-- blocks whose accumulators have not yet answered the opening or the return (12 R420). -/
  accWait : BitVec 8 := 0
  /-- HEADS (11 R394). -/
  headsMask : BitVec 16 := 0
  /-- REF, 64 I8 samples (11 R394). -/
  ref : List Byte := []
  /-- SCORE_MIN (11 R394). -/
  scoreMin : Nat := 32768
  /-- parameter block address (11 R394 R399). -/
  reportAddr : BitVec 64 := 0
  /-- open fragments (11 R395). -/
  frags : List Frag := []
  /-- counts since ACCUM_OPEN (11 R399). -/
  report : List Nat := List.replicate 6 0
  /-- head whose feed run is in progress (11 R377). -/
  running : Option Nat := none
  /-- order counter of the fed lists (11 R389). -/
  fedOrder : Nat := 0
  /-- BIND_WAIT.LONG (RC) (11 R403). -/
  bindLong : BitVec 16 := 0
  /-- BIND_WAIT.WAITS (RC) (11 R403). -/
  bindWaits : BitVec 16 := 0
  /-- ACCUM_PASS_OK.REALIGNED (RC) (11 R403). -/
  realigned : BitVec 16 := 0
  /-- NOMINAL (RC) (11 R403). -/
  nominal : BitVec 16 := 0
  /-- ACCUM_PASS_REJ.SCORE (RC) (11 R403). -/
  rejScore : BitVec 16 := 0
  /-- SYNC (RC) (11 R403). -/
  rejSync : BitVec 16 := 0
  /-- MEDIA_ABORTS (11 R403). -/
  aborts : Word := 0
  /-- round robin position (11 R387). -/
  rrHead : Nat := 0
deriving DecidableEq, Repr

/-- A flit: its message's type, source and destination, its sequence number and its part of the payload (12 R406). -/
structure Flit where
  /-- message type (12 R406, R432). -/
  type : Byte := 0
  /-- source die_id (12 R406). -/
  src : BitVec 3 := 0
  /-- destination die_id; none: BROADCAST (12 R406). -/
  dst : Option (BitVec 3) := none
  /-- sequence (12 R406, R407). -/
  seq : BitVec 9 := 0
  /-- payload, up to 64 bytes (12 R406). -/
  payload : List Byte := []
deriving DecidableEq, Repr

/-- One Dovetail port (12). -/
structure Port where
  /-- lanes in use (12 R433). -/
  lanes : BitVec 4 := 0
  /-- link up (12 R433). -/
  up : Bool := false
  /-- neighbour's die_id (12 R433). -/
  peer : BitVec 3 := 0
  /-- the port found a partner at BOOT step 10 (12 R408). -/
  hadPartner : Bool := false
  /-- sequence of the next flit sent (12 R407). -/
  txSeq : BitVec 9 := 0
  /-- replay buffer, 64 flits, oldest first (12 R407). -/
  replay : List Flit := []
deriving DecidableEq, Repr

/-- A Dovetail message (12 R406, R432). -/
structure DvMsg where
  /-- message type (12 R432). -/
  type : Byte := 0
  /-- destination die_id; none: BROADCAST (12 R406). -/
  dst : Option (BitVec 3) := none
  /-- payload (12 R406). -/
  payload : List Byte := []
  /-- source die_id (12 R406). -/
  src : BitVec 3 := 0
  /-- ports by which it left (12 R409). -/
  ways : List Side := []
deriving DecidableEq, Repr

/-- A job of the lead block on this block (R415). -/
structure Remote where
  /-- the job as its message carried it (12 R415). -/
  work : RemoteIn := {}
  /-- local handle of its first drawer job, once placed (12 R415). -/
  job : Option Nat := none
  /-- staging set of a page of host data (12 R415, 07 R230). -/
  stage : Option Nat := none
  /-- codewords of the page in staging (12 R415). -/
  arrived : List Nat := []
  /-- the fetch of its host data has been reported (12 R415). -/
  fetched : Bool := false
  /-- its lead block is lost: its results are discarded (12 R428). -/
  dropped : Bool := false
  /-- codewords of its page that came as messages (12 R415). -/
  page : List (Nat × List Byte) := []
  /-- outcome once the drawer job has ended (12 R415). -/
  outcome : Option Byte := none
  /-- a request met a fabric error (12 R415, 02 R38). -/
  hostErr : Bool := false
deriving DecidableEq, Repr

/-- Dovetail and cascade (12). -/
structure Dv where
  /-- east port (12 R433). -/
  east : Port := {}
  /-- west port (12 R433). -/
  west : Port := {}
  /-- DUP_ID (12 R433). -/
  dupId : Bool := false
  /-- QUORUM (12 R433). -/
  quorum : Bool := false
  /-- SOLO (12 R433). -/
  solo : Bool := false
  /-- SIZE, cascadeSize in force (12 R433). -/
  size : BitVec 4 := 0
  /-- VIEW (12 R433). -/
  view : BitVec 8 := 0
  /-- currentTerm (12 R433). -/
  term : Word := 0
  /-- MISSED (RC) (12 R433). -/
  missed : BitVec 16 := 0
  /-- ELECTIONS (12 R433). -/
  elections : BitVec 16 := 0
  /-- REPLAYS (RC) (12 R433). -/
  replays : BitVec 16 := 0
  /-- DISCARDS (RC) (12 R433). -/
  discards : BitVec 16 := 0
  /-- EAST (12 R433). -/
  eastDown : BitVec 16 := 0
  /-- WEST (12 R433). -/
  westDown : BitVec 16 := 0
  /-- a lead block is known (12 R434). -/
  leadKnown : Bool := false
  /-- an election runs (12 R424). -/
  electing : Bool := false
  /-- term of our own claim (12 R425). -/
  claim : Option Word := none
  /-- best claim seen: term, die_id (12 R425). -/
  bestClaim : Option (Word × BitVec 3) := none
  /-- term that this block's claim carries in the election that runs (12 R424). -/
  bid : Word := 0
  /-- a claim that beats this block's has been seen in the election (12 R424). -/
  rival : Bool := false
  /-- this block has claimed in the round of the election (12 R425). -/
  claimed : Bool := false
  /-- blocks that granted our claim (12 R425). -/
  grants : BitVec 8 := 0
  /-- sequence of the last heartbeat received in this term (12 R426). -/
  hbSeq : Option Word := none
  /-- clean heartbeats in a row (12 R427). -/
  hbClean : Nat := 0
  /-- missed heartbeats in a row (12 R424). -/
  hbMissRun : Nat := 0
  /-- sequence of the heartbeats this block sends (12 R426). -/
  hbSend : Word := 0
  /-- die_id and lead_ok of blocks seen (12 R411 R412). -/
  peers : List (BitVec 3 × Bool) := []
  /-- messages sent, oldest first (12 R432). -/
  out : List DvMsg := []
  /-- a takeover runs (12 R429). -/
  takeover : Bool := false
  /-- window passed by the lead block (12 R414). -/
  grantWin : Option (BitVec 64 × Nat) := none
  /-- blocks whose LUNs are reachable (12 R430, R431). -/
  reach : BitVec 8 := 0
  /-- blocks back in the view, with the heartbeats sent since (12 R431). -/
  joining : List (BitVec 3 × Nat) := []
  /-- a takeover waits for a block that holds a journal copy (12 R429). -/
  tkWait : Bool := false
  /-- currentTerm as last saved (12 R422). -/
  savedTerm : Word := 0
  /-- jobs of the lead block on this block (12 R415). -/
  remotes : List Remote := []
  /-- records sent to the lead block and not yet reported durable (13 R455). -/
  recOut : Bool := false
  /-- number of the last record taken from a follower and not yet reported durable (13 R455). -/
  recWait : Option Nat := none
  /-- entries of a lost lead are being completed (12 R427). -/
  draining : Bool := false
  /-- states of the links of other blocks, east and west, as their PRESENCE told them (12 R409, R412). -/
  links : List (BitVec 3 × Bool × Bool) := []
  /-- blocks whose copy of the anchor has come (12 R419). -/
  copies : BitVec 8 := 0
  /-- the glue-up slots are to be closed once the accepted programs have ended (12 R429). -/
  closing : Bool := false
  /-- a takeover waits for its slots to be closed and for the copies of the anchor (12 R419, R429). -/
  tkClose : Bool := false
deriving DecidableEq, Repr

/-- Interrupt controller (14). -/
structure Irq where
  /-- SENSE, 256 sources (14 R469 R483). -/
  sense : List (BitVec 3) := defaultSense
  /-- ROUTE (14 R483). -/
  route : List (BitVec 6) := List.replicate 256 0
  /-- arrival counters (RC) (14 R467). -/
  count : List (BitVec 8) := List.replicate 256 0
  /-- PEND (14 R467). -/
  pend : List Bool := List.replicate 256 false
  /-- level of the input in the previous cycle (14 R466). -/
  input : List Bool := List.replicate 256 false
  /-- causes not yet presented, saturating at 255 (14 R466). -/
  causes : List Nat := List.replicate 256 0
  /-- SIGNALLED (14 R484). -/
  signalled : List Bool := List.replicate 6 false
  /-- IDLE (14 R484). -/
  idle : List Bool := List.replicate 6 false
  /-- NOTE_ERR (14 R484). -/
  noteErr : List Bool := List.replicate 6 false
  /-- SIGNALS (RC) (14 R484). -/
  signals : List (BitVec 16) := List.replicate 6 0
  /-- TGT_NADDR (14 R484). -/
  naddr : List (BitVec 64) := List.replicate 6 0
  /-- TGT_NDATA (14 R484). -/
  ndata : List Word := List.replicate 6 0
  /-- HOLDOFF (14 R483). -/
  holdoff : List (BitVec 10) := List.replicate 30 0
  /-- group timer: time base at which it expires (14 R471 R483). -/
  deadline : List (Option Nat) := List.replicate 30 none
  /-- EVT_TIME (14 R474). -/
  evtTime : BitVec 48 := 0
  /-- raise counts of sources 240 to 255 (14 R475). -/
  raises : List (BitVec 16) := List.replicate 16 0
deriving DecidableEq, Repr

/-- Event queue (14 R475 to R485). -/
structure Evq where
  /-- BASE_LO (14 R485). -/
  baseLo : BitVec 20 := 0
  /-- BASE_HI (14 R485). -/
  baseHi : Word := 0
  /-- ENABLE (14 R485). -/
  enable : Bool := false
  /-- SIZE_LOG2 (14 R485). -/
  sizeLog2 : BitVec 5 := 6
  /-- PHASE (14 R485). -/
  phase : Bool := true
  /-- EVQ_PROD.INDEX (14 R485). -/
  prod : BitVec 16 := 0
  /-- EVQ_CONS.INDEX (14 R485). -/
  cons : BitVec 16 := 0
  /-- DROPPED (RC) (14 R485). -/
  dropped : BitVec 16 := 0
  /-- CORE_DROPPED (RC) (14 R485). -/
  coreDropped : BitVec 8 := 0
  /-- FAULT (14 R485). -/
  fault : Bool := false
  /-- EVQ_RSEQ (14 R485). -/
  rseq : Word := 0
  /-- records being written: RSEQ, bytes, requests acknowledged (14 R477). -/
  writing : List (Word × List Byte × Nat) := []
  /-- main core's copy queue, 256 records (14 R475). -/
  copy : List (List Byte) := []
  /-- records the main core itself has to log (03 R57, 16 R546, 11 R393). -/
  logged : List (List Byte) := []
deriving DecidableEq, Repr

/-- A dictionary session (15 R491). -/
structure Session where
  /-- 0 the dictionary port, 1 to 127 a CAN client (15 R508). -/
  client : Nat := 0
  /-- level (15 R491). -/
  level : BitVec 2 := 0
  /-- snapshot (15 R495). -/
  snap : Option ((Nat × Nat) × List Byte) := none
  /-- open write and the bytes received (15 R496). -/
  open_ : Option ((Nat × Nat) × List Byte) := none
  /-- level asked for by authRequest (15 R492). -/
  authLevel : Option (BitVec 2) := none
  /-- challenge drawn and unused (15 R492). -/
  challenge : Option (List Byte) := none
  /-- time base at which the challenge was drawn (15 R492). -/
  drawnAt : Nat := 0
  /-- authKey (15 R492). -/
  key : Option (List Byte) := none
  /-- object whose snapshot was idle too long: its next read segment aborts TIMEOUT (15 R509). -/
  timedRead : Option (Nat × Nat) := none
  /-- object whose open write was idle too long: its next write segment aborts TIMEOUT (15 R509). -/
  timedWrite : Option (Nat × Nat) := none
  /-- object last committed, and its bytes: a segment sent again is acknowledged again (15 R496 R507). -/
  finished : Option ((Nat × Nat) × Nat) := none
  /-- the first response carries SESSION_LOST (15 R508). -/
  lostFlag : Bool := false
  /-- order of its latest request (15 R508). -/
  lastUse : Nat := 0
deriving DecidableEq, Repr

/-- Object dictionary and CAN node (15). -/
structure Dict where
  /-- committed RW and RWS values that differ from their defaults (15 R512). -/
  saved : List ((Nat × Nat) × List Byte) := []
  /-- values in force of objects that take effect at the next start (15 R499 R501). -/
  force : List ((Nat × Nat) × List Byte) := []
  /-- a defaults record has been written in this run (15 R515). -/
  defaultsNext : Bool := false
  /-- DICT_CMD.OP (15 R503). -/
  op : BitVec 4 := 0
  /-- INDEX (15 R503). -/
  index : BitVec 16 := 0
  /-- SUB (15 R503). -/
  sub : Byte := 0
  /-- DICT_OFFSET (15 R503). -/
  offset : Word := 0
  /-- DICT_LEN.LAST (15 R503). -/
  last : Bool := false
  /-- DICT_LEN.LENGTH (15 R503). -/
  length : BitVec 11 := 0
  /-- DICT_TOTAL (15 R503). -/
  total : Word := 0
  /-- IGNORED (W1C) (15 R503). -/
  ignored : Bool := false
  /-- ABORTED (15 R503). -/
  aborted : Bool := false
  /-- DONE (W1C) (15 R503). -/
  done : Bool := false
  /-- BUSY (15 R503). -/
  busy : Bool := false
  /-- DICT_ABORT (15 R503). -/
  abort : Word := 0
  /-- DICT_BUF (15 R503). -/
  buf : List Byte := List.replicate 1024 0
  /-- the dictionary port's session (15 R491). -/
  port : Session := {}
  /-- CAN sessions, at most 4 (15 R508). -/
  can : List Session := []
  /-- clients whose session was taken over (15 R508). -/
  lostClients : List Nat := []
  /-- request counter (15 R508). -/
  useOrder : Nat := 0
  /-- frames sent, oldest first (15 R505). -/
  canOut : List (BitVec 11 × List Byte) := []
  /-- EVENT frames waiting, at most 16 (15 R511). -/
  events : List (List Byte) := []
  /-- canEventEnable in force (15 R511 R520). -/
  canEvents : Bool := false
  /-- STATUS frame counter (15 R510). -/
  frameCount : Byte := 0
  /-- canErrorState (15 R520). -/
  errState : BitVec 2 := 0
  /-- restoreRejected (15 R513). -/
  restoreRejected : Nat := 0
  /-- imageState (15 R519). -/
  imgState : Byte := 0
  /-- imageReason (15 R519). -/
  imgReason : Byte := 0
  /-- image bytes received (15 R516). -/
  imgBytes : Nat := 0
  /-- bytes of imageData that do not yet make a Cabinet word (15 R516, 16 R529). -/
  imgTail : List Byte := []
deriving DecidableEq, Repr

/-- A Cabinet operation in progress (16 R529). -/
structure CabOp where
  /-- OP: 1 program, 2 erase, 3 mark program (16 R535). -/
  op : Byte := 0
  /-- sector (16 R535). -/
  sector : Nat := 0
  /-- words still to program: word address, value (16 R533). -/
  words : List (Nat × BitVec 64) := []
  /-- PROGRESS (16 R535). -/
  done : Nat := 0
  /-- STATE suspended (16 R535 R539). -/
  suspended : Bool := false
  /-- CLEAR_ONLY (16 R529). -/
  clearOnly : Bool := false
  /-- suspended for a PROGRAM with SUSPEND_OK (16 R534). -/
  auto : Bool := false
  /-- an erase of an INTERRUPTED sector: it goes straight to step 4 (16 R537). -/
  redo : Bool := false
deriving DecidableEq, Repr

/-- The Cabinet and its controller (16). -/
structure Cabinet where
  /-- 64-bit words of the sectors that are not erased, ascending (16 R525 R526). -/
  words : List (Nat × BitVec 64) := []
  /-- words of the header rows that are not erased (16 R536). -/
  heads : List (Nat × BitVec 64) := []
  /-- words of the maker's mark row that are not erased (16 R540). -/
  mark : List (Nat × BitVec 64) := []
  /-- MARK_LOCK made (16 R543). -/
  markLocked : Bool := false
  /-- program or mark program running (16 R529). -/
  prog : Option CabOp := none
  /-- erase running or suspended (16 R529). -/
  erase : Option CabOp := none
  /-- a0, a1, a2 that the routine last returned (16 R528). -/
  ret : Nat × Nat × Nat := (0, 0, 0)
  /-- CAB_RESULT.RESULT (RC) (16 R548). -/
  result : Byte := 0
  /-- CAB_RESULT.WORD (16 R548). -/
  resultWord : Byte := 0
  /-- LSEQ of the newest event log slot (16 R545). -/
  lseq : Nat := 0
  /-- next event log slot (16 R545). -/
  logSlot : Nat := 0
  /-- SSEQ of the last save record (15 R512). -/
  sseq : Word := 0
  /-- active half (15 R512). -/
  saveHalf : Nat := 0
  /-- GEN of the active half (15 R512). -/
  saveGen : Word := 0
  /-- bytes used in the active half (15 R512). -/
  savePos : Nat := 0
deriving DecidableEq, Repr

/-- A merge buffer entry (17 R555). -/
structure Merge where
  /-- word address (17 R555). -/
  word : Nat := 0
  /-- up to 16 new bytes and their mask (17 R555). -/
  bytes : List (Option Byte) := []
deriving DecidableEq, Repr

/-- SRAM and its integrity logic (17). -/
structure Sram where
  /-- stored code words that are not all zero, ascending word address (17 R551 R552). -/
  words : List (Nat × BitVec 137) := []
  /-- merge buffer, oldest first, 8 entries (17 R555). -/
  merge : List Merge := []
  /-- POISONED (17 R568). -/
  poisoned : Bool := false
  /-- SRAM_CORR_COUNT (17 R568). -/
  corr : Word := 0
  /-- SRAM_UNCORR_COUNT (17 R568). -/
  uncorr : Word := 0
  /-- SRAM_LAST_ERR.VALID (W1C) (17 R568). -/
  errValid : Bool := false
  /-- UNCORR (17 R568). -/
  errUncorr : Bool := false
  /-- REGION (17 R568). -/
  errRegion : BitVec 3 := 0
  /-- SYNDROME (17 R568). -/
  errSyn : Byte := 0
  /-- Q (17 R568). -/
  errQ : Bool := false
  /-- SRAM_LAST_ADDR (17 R568). -/
  lastAddr : BitVec 24 := 0
  /-- SCRUB_ON (17 R568). -/
  scrubOn : Bool := false
  /-- SCRUB_CFG.INTERVAL (17 R568). -/
  interval : BitVec 16 := 0x400
  /-- SCRUB_POS.WORD (17 R568). -/
  scrubPos : Nat := 0
  /-- LAPS (17 R568). -/
  laps : BitVec 16 := 0
  /-- LAP_MS (17 R568). -/
  lapMs : BitVec 16 := 0
  /-- time base at the start of the lap (17 R561). -/
  lapStart : Nat := 0
  /-- SCRUB_FIXED (17 R568). -/
  fixed : Word := 0
  /-- MERGE_STATUS.MERGES (RC) (17 R568). -/
  merges : BitVec 16 := 0
  /-- corrected words waiting to be written back (17 R560). -/
  rewrites : List (Nat × BitVec 137) := []
  /-- uncorrectable words found by the step in progress, whose region rule is still to apply (17 R562 R563). -/
  bad : List Nat := []
  /-- SRAM_FLIP.ARM (17 R568). -/
  flipArm : Bool := false
  /-- B_EN (17 R568). -/
  flipB : Bool := false
  /-- REGION (17 R568). -/
  flipRegion : BitVec 3 := 0
  /-- POS_B (17 R568). -/
  flipPosB : Byte := 0
  /-- POS_A (17 R568). -/
  flipPosA : Byte := 0
  /-- SRAM_FLIP_ADDR.VALID (W1C) (17 R568). -/
  flipUsed : Bool := false
  /-- SRAM_FLIP_ADDR.ADDR (17 R568). -/
  flipAddr : BitVec 24 := 0
deriving DecidableEq, Repr

/-- Register port (02 R27 to R31, 05 R175). -/
structure RegPort where
  /-- responses given, oldest first: code, rdata (02 R26 R30). -/
  rsp : List (BitVec 2 × BitVec 64) := []
  /-- access faults raised in a core (18 R576). -/
  coreFaults : Nat := 0
  /-- JS_SEL (05 R175). -/
  jsSel : Word := 0
  /-- JS_STATUS.PAR_ERR (05 R175). -/
  jsErr : Bool := false
  /-- JS_DATA0-4 (05 R175). -/
  jsData : BitVec 160 := 0
deriving DecidableEq, Repr

/-- Ring engine and scheduler (04). -/
structure Sched where
  /-- entries in flight, in fetch order (04 R103). -/
  entries : List Entry := []
  /-- next entry handle (model's own). -/
  nextEid : Nat := 0
  /-- ring being visited in the round (04 R96). -/
  rrRing : Nat := 0
  /-- jobs not yet ended (04, 05 R161). -/
  jobs : List Job := []
  /-- next job handle (05 R161). -/
  nextJob : Nat := 0
  /-- selected codewords of reads in progress (08 R250). -/
  cws : List Cw := []
deriving DecidableEq, Repr

/-- The whole machine. -/
structure State where
  /-- commands waiting, first in first out (the model's own (block)). -/
  pending : List Instr := []
  /-- counter of free values taken (DESIGN CHOICE; no statement rests on it) (the model's own). -/
  freeCtr : Nat := 0
  /-- the AON time base held in whole microseconds since por_n; the AON count of 32.768 kHz ticks is now × 32,768 / 1,000,000
  (03 R60, 14 R474). -/
  now : Nat := 0
  /-- board signals (02). -/
  pins : Pins := {}
  /-- modes (03). -/
  modes : Modes := {}
  /-- rings 0 to 63 (04 R86). -/
  rings : List Ring := List.replicate 64 {}
  /-- scheduler (04). -/
  sched : Sched := {}
  /-- host data ports (02). -/
  host : HostPorts := {}
  /-- register port (02, 18). -/
  regs : RegPort := {}
  /-- clamp rack (13). -/
  rack : Rack := {}
  /-- power (13). -/
  power : Power := {}
  /-- housekeeping (13). -/
  hk : Hk := {}
  /-- boot's copy of the loaded store image: words that differ from the base library (05 R152). -/
  storeImage : List (Nat × BitVec 160) := []
  /-- jigs 0 to 15 (05). -/
  jigs : List Jig := List.replicate 16 {}
  /-- channels 0 to 15 (06). -/
  chans : List Chan := List.replicate 16 {}
  /-- page codec (07). -/
  codec : Codec := {}
  /-- read recovery (08). -/
  recov : Recov := {}
  /-- per-LUN records that are not at their reset values, ascending (08 R288, 15 R521). -/
  luns : List (Nat × LunRec) := []
  /-- stripe engine (09). -/
  stripe : Stripe := {}
  /-- background engine (10). -/
  bg : Bg := {}
  /-- media port (11). -/
  media : Media := {}
  /-- Dovetail (12). -/
  dv : Dv := {}
  /-- interrupt controller (14). -/
  irq : Irq := {}
  /-- event queue (14). -/
  evq : Evq := {}
  /-- dictionary (15). -/
  dict : Dict := {}
  /-- Cabinet (16). -/
  cab : Cabinet := {}
  /-- SRAM (17). -/
  sram : Sram := {}
  /-- counters since por_n (15 R522). -/
  stats : Stats := {}
deriving DecidableEq, Repr

/-- The machine right after reset: power-on reset in force, the queue empty, every field at its default (R54, R60). -/
def State.reset : State := {}

end Sys2Proof.Machine
end

