-- ==== Sys2Proof/Machine/Ops.lean ====
section
/-!
DEFINITION. The shared operations: access to the parts of the state, interrupt sources, host data port requests,
privileged records, entries, jobs, and the choice of the primary mode.
-/
namespace Sys2Proof.Machine

/-- The outcome of a command. -/
abbrev Out := Host.Outcome State Fault Refusal

/-- A command whose operands name units that exist; otherwise the fault says that no such unit exists. -/
def checked (ok : Bool) (t : State) : Out := if ok then .next t else .fault .noSuchUnit

/-! ### Access to units -/

def ringAt (n : Nat) (s : State) : Ring := s.rings.getD n {}
def setRing (n : Nat) (r : Ring) (s : State) : State := { s with rings := s.rings.set n r }
def modRing (n : Nat) (f : Ring → Ring) (s : State) : State := { s with rings := s.rings.modify n f }
def jigAt (n : Nat) (s : State) : Jig := s.jigs.getD n {}
def setJig (n : Nat) (j : Jig) (s : State) : State := { s with jigs := s.jigs.set n j }
def modJig (n : Nat) (f : Jig → Jig) (s : State) : State := { s with jigs := s.jigs.modify n f }
def chanAt (n : Nat) (s : State) : Chan := s.chans.getD n {}
def modChan (n : Nat) (f : Chan → Chan) (s : State) : State := { s with chans := s.chans.modify n f }
def headAt (n : Nat) (s : State) : Head := s.media.heads.getD n {}
def modHead (n : Nat) (f : Head → Head) (s : State) : State :=
  { s with media := { s.media with heads := s.media.heads.modify n f } }

/-- A free value of the given width; the counter moves on (log entry 2). -/
def takeFree (s : State) : Nat × State := (Config.freeNat s.freeCtr, { s with freeCtr := s.freeCtr + 1 })

/-- A register that takes writes only from the main core (R577): the register port gets ACCESS_ERROR with data zero, the
housekeeping core an access fault (R30, R576). -/
def mainCoreOnly (who : Writer) (f : State → State) (s : State) : State :=
  match who with
  | .mainCore => f s
  | .hostPort => { s with regs := { s.regs with rsp := s.regs.rsp ++ [(3, 0)] } }
  | .hkCore => { s with regs := { s.regs with coreFaults := s.regs.coreFaults + 1 } }

/-! ### Time base (R474) -/

/-- AON time base in whole microseconds, from its 32.768 kHz ticks (R474). -/
def aonMicros (s : State) : Nat := s.now * 32768 / 1000000 * 1000000 / 32768

/-- EVT_TIME loaded from the AON time base at BOOT step 2 (R474). -/
def loadTime (s : State) : State :=
  { s with irq := { s.irq with evtTime := BitVec.ofNat 48 (aonMicros s) } }

/-- EVT_TIME on leaving STANDBY: the larger of the AON value and the value held (R474). -/
def reloadTime (s : State) : State :=
  { s with irq := { s.irq with evtTime := BitVec.ofNat 48 (max (aonMicros s) s.irq.evtTime.toNat) } }

/-- One microsecond passes. EVT_TIME stands still in STANDBY and while reset is in force (R474). -/
def tick (s : State) : State :=
  { s with
    now := s.now + 1
    irq := { s.irq with
      evtTime := if s.pins.inReset || s.modes.mode == .standby then s.irq.evtTime else s.irq.evtTime + 1 } }

/-- wallClock now: the value last written and the milliseconds since (R287). -/
def wallNow (s : State) : BitVec 48 :=
  s.recov.wallClock + BitVec.ofNat 48 ((s.now - s.recov.wallBase) / 1000)

/-! ### Interrupt sources (R466 to R468) -/

/-- Sources that can fire: 0 to 130 and 136 to 143 (R469). -/
def ordinary (id : Nat) : Bool := id ≤ 130 || (136 ≤ id && id ≤ 143)

/-- The transition counts as an arrival under this SENSE (R466). -/
def senseArrives (sense : BitVec 3) (lvl : Bool) : Bool :=
  match sense.toNat with
  | 1 => lvl
  | 2 => !lvl
  | 3 => lvl
  | 4 => !lvl
  | 5 => true
  | _ => false

/-- Under a level mode, PEND is set in every cycle at the active level (R466, R467). -/
def senseHolds (sense : BitVec 3) (lvl : Bool) : Bool :=
  (sense == 1 && lvl) || (sense == 2 && !lvl)

/-- The input of an ordinary source sampled at `lvl`: edges compare with the previous sample (R466, R467). -/
def Irq.sample (q : Irq) (id : Nat) (lvl : Bool) : Irq :=
  if ordinary id then
    let sense := q.sense.getD id 0
    let hit := (q.input.getD id false != lvl) && senseArrives sense lvl
    { q with
      input := q.input.set id lvl
      count := if hit then q.count.modify id (fun c => satAdd c 1) else q.count
      pend := if hit || senseHolds sense lvl then q.pend.set id true else q.pend }
  else q

/-- One pulse of a pulse source: one CORE cycle high, then low (R466). -/
def Irq.pulse (q : Irq) (id : Nat) : Irq := (q.sample id true).sample id false

/-- A cause at a pulse source: presented at once, or counted while a pulse is high (R466). -/
def Irq.cause (q : Irq) (id : Nat) : Irq :=
  if q.input.getD id false then { q with causes := q.causes.modify id (fun c => min (c + 1) 255) }
  else q.pulse id

/-- `n` pulses, one after the other. -/
def Irq.pulses : Nat → Irq → Nat → Irq
  | 0, q, _ => q
  | n + 1, q, id => Irq.pulses n (q.pulse id) id

/-- A software set: PEND and one arrival, whatever SENSE holds (R468). -/
def Irq.softSet (q : Irq) (id : Nat) : Irq :=
  if ordinary id then
    { q with pend := q.pend.set id true, count := q.count.modify id (fun c => satAdd c 1) }
  else q

/-- A level mode applies again after a clear or a change of SENSE (R467). -/
def Irq.relevel (q : Irq) (id : Nat) : Irq :=
  if senseHolds (q.sense.getD id 0) (q.input.getD id false) then { q with pend := q.pend.set id true } else q

/-- The dictionary serves a write of an object that Dirad acts on: not in OFF and RESET, and not while BOOT runs (R502). -/
def dictServes (s : State) : Bool := s.pins.powered && !s.pins.inReset && !s.modes.boot

/-- The block applies its values of the cascade-wide objects: a follower keeps them and does not (R490). -/
def appliesObjects (s : State) : Bool := dictServes s && !s.modes.follower

/-- A source fires one cause (R469). -/
def raise (id : Nat) (s : State) : State := { s with irq := s.irq.cause id }

/-- The level sources of the event queue follow it (R469). -/
def evqLevels (s : State) : State :=
  { s with irq := (s.irq.sample 128 (s.evq.prod != s.evq.cons)).sample 129 s.evq.fault }

/-! ### Host data ports (R32 to R38) -/

/-- A transfer split so that no request crosses a 4 KiB boundary (R33, R35). -/
def splitPages : Nat → Nat → List Byte → List (Nat × List Byte)
  | 0, _, _ => []
  | fuel + 1, addr, bs =>
    if bs.isEmpty then []
    else
      let n := 4096 - addr % 4096
      (addr, bs.take n) :: splitPages fuel (addr + n) (bs.drop n)

/-- As splitPages, for a read of `len` bytes: (address, bytes) of each request. -/
def splitLens : Nat → Nat → Nat → List (Nat × Nat)
  | 0, _, _ => []
  | fuel + 1, addr, len =>
    if len == 0 then []
    else
      let n := min len (4096 - addr % 4096)
      (addr, n) :: splitLens fuel (addr + n) (len - n)

/-- The lowest tag no outstanding request of the list uses; 256 when all are in use (R33, R35). -/
def freeTag (l : List HostReq) : Nat :=
  (findFrom (fun t => !(l.any (fun r => r.tag == t))) 256 0).getD 256

/-- Requests move from the waiting list to the port while tags are free (R33, R35). -/
def admitReqs : Nat → List HostReq → List HostReq → List HostReq × List HostReq
  | 0, out, wait => (out, wait)
  | _ + 1, out, [] => (out, [])
  | fuel + 1, out, r :: rest =>
    if out.length < 256 then admitReqs fuel (out ++ [{ r with tag := freeTag out }]) rest else (out, r :: rest)

/-- The port after requests were added or answered. -/
def HostPorts.settle (h : HostPorts) : HostPorts :=
  let (w, sw) := admitReqs 256 h.writes h.stalled
  let (r, sr) := admitReqs 256 h.reads h.rstalled
  { h with writes := w, stalled := sw, reads := r, rstalled := sr }

/-- One read data port request (R35): queued, and issued when a tag is free. -/
def hostWrite (what : HostWhat) (addr : Nat) (bs : List Byte) (s : State) : State :=
  { s with host := HostPorts.settle { s.host with
      issued := s.host.issued + 1
      stalled := s.host.stalled ++ [{ addr := BitVec.ofNat 64 addr, bytes := bs, len := bs.length, what := what }] } }

/-- A block of data written to host memory, in as many requests as R35 needs. -/
def hostWriteData (what : HostWhat) (addr : Nat) (bs : List Byte) (s : State) : State :=
  (splitPages (bs.length + 1) addr bs).foldl (fun s p => hostWrite what p.1 p.2 s) s

/-- Reads of `len` bytes of host memory, in as many requests as R33 needs. -/
def hostReadData (what : HostWhat) (addr len : Nat) (s : State) : State :=
  { s with host := HostPorts.settle { s.host with
      issued := s.host.issued + (splitLens (len / 32 + 2) addr len).length
      rstalled := s.host.rstalled ++ (splitLens (len / 32 + 2) addr len).map
        (fun p => { addr := BitVec.ofNat 64 p.1, len := p.2, what := what }) } }

/-- The bytes that requests of `reqs` take from their beats: each beat is a whole 64-byte line, of which a request that
starts or ends in its middle uses only the half that it covers (R34). -/
def fromBeats : List (Nat × Nat) → List Byte → List Byte
  | [], _ => []
  | (addr, len) :: rest, bs =>
    (bs.drop (addr % 64)).take len ++ fromBeats rest (bs.drop ((addr % 64 + len + 63) / 64 * 64))

/-- What an answer gives of `len` bytes from `addr`: its beats are whole 64-byte lines, from the one that holds `addr` on,
whatever requests R33 splits it into, since a 4 KiB boundary is a line's (R34). -/
def linesOf (addr len : Nat) : HostRead → HostRead
  | .ok beats => .ok ((beats.drop (addr % 64)).take len)
  | .err => .err

/-- A request of the write data port can be issued now: a tag is free (R33). -/
def hostReady (s : State) : Bool := freeTag s.host.reads < 256

/-- A tag for one more request of a fetch whose earlier requests are `mine`: a free one, or, when none is free, that of its
own oldest request, which it takes after the last beat (R33). -/
def tagFor (out mine : List HostReq) : Nat :=
  if freeTag (out ++ mine) < 256 then freeTag (out ++ mine) else (mine.headD {}).tag

/-- Requests whose answers come with the command that makes them: split and tagged as R33 says. Such a command waits for a
free tag (hostReady). -/
def fetchHost (what : HostWhat) (ps : List (Nat × Nat)) (s : State) : State :=
  let pieces := ps.flatMap (fun p => splitLens (p.2 / 4096 + 2) p.1 p.2)
  let reqs := pieces.foldl (fun l p =>
    l ++ [{ tag := tagFor s.host.reads l, addr := BitVec.ofNat 64 p.1, len := p.2, what := what }]) []
  { s with host := { s.host with issued := s.host.issued + reqs.length, answered := reqs } }

/-! ### Event queue (R475 to R482) -/

/-- Base address of the event queue in host memory (R485). -/
def Evq.base (q : Evq) : Nat := q.baseHi.toNat * 2 ^ 32 + q.baseLo.toNat * 4096

/-- Size of the event queue in records (R477). -/
def Evq.size (q : Evq) : Nat := 2 ^ q.sizeLog2.toNat

/-- The queue is full: the slot after PROD is CONS (R477). -/
def Evq.fullNow (q : Evq) : Bool := (q.prod.toNat + 1) % q.size == q.cons.toNat % q.size

/-- No slot is left for one more record: those on their way count (R477). -/
def Evq.full (q : Evq) : Bool := (q.prod.toNat + q.writing.length + 1) % q.size == q.cons.toNat % q.size

/-- Bytes 2 to 31 of the oldest waiting record are written at PROD (R477 step 1). -/
def issueRecord (s : State) : State :=
  match s.evq.writing with
  | (rseq, bs, _) :: _ =>
    hostWrite (.record rseq.toNat false) (s.evq.base + 32 * s.evq.prod.toNat + 2) (bs.drop 2) s
  | [] => s

/-- The record of a privileged source (R476). -/
def recordBytes (s : State) (id : Nat) (soft : Bool) (count rseq : Nat) (detail : List Byte) : List Byte :=
  [BitVec.ofNat 8 id, if soft then 1 else 0] ++ le 2 count ++ le 6 s.irq.evtTime.toNat
    ++ [BitVec.ofNat 8 s.modes.dieId.toNat, 0] ++ le 4 rseq ++ padTo 16 detail

/-- An EVENT frame waits for the CAN node; the oldest of more than 16 is dropped (R511). -/
def queueCanEvent (bs : List Byte) (s : State) : State :=
  if s.dict.events.length < 16 then { s with dict := { s.dict with events := s.dict.events ++ [bs] } }
  else { s with
    dict := { s.dict with events := s.dict.events.tail ++ [bs] }
    stats := { s.stats with canEventsDropped := s.stats.canEventsDropped + 1 } }

/-- A record the host queue does not take (R478). -/
def dropRecord (s : State) : State :=
  { s with
    evq := { s.evq with dropped := satAdd s.evq.dropped 1 }
    stats := { s.stats with recordsDropped := s.stats.recordsDropped + 1 } }

/-- A raise of privileged source `id` (R475 to R478): arrival and raise counts, RSEQ, the record, the main core's
copy queue, the host queue. -/
def raisePriv (id : Nat) (soft : Bool) (detail : List Byte) (s : State) : State :=
  let raises := s.irq.raises.modify (id - 240) (fun c => satAdd c 1)
  let rseq := s.evq.rseq + 1
  let bs := recordBytes s id soft (raises.getD (id - 240) 0).toNat rseq.toNat detail
  let s := { s with
    irq := { s.irq with count := s.irq.count.modify id (fun c => satAdd c 1), raises := raises }
    evq := { s.evq with
      rseq := rseq
      copy := if s.evq.copy.length < 256 then s.evq.copy ++ [bs] else s.evq.copy
      coreDropped := if s.evq.copy.length < 256 then s.evq.coreDropped else satAdd s.evq.coreDropped 1 } }
  let s := if s.dict.canEvents then queueCanEvent bs s else s
  if s.evq.enable && !s.evq.full && !s.evq.fault then
    let first := s.evq.writing.isEmpty
    let s := { s with evq := { s.evq with writing := s.evq.writing ++ [(rseq, bs, 0)] } }
    if first then issueRecord s else s
  else dropRecord s

/-- RSEQ has been acknowledged or dropped (R479). -/
def recordSettled (s : State) (rseq : Nat) : Bool := !(s.evq.writing.any (fun w => w.1.toNat == rseq))

/-- A record the main core itself has to log (R57, R546, R393). -/
def logRecord (bs : List Byte) (s : State) : State :=
  { s with evq := { s.evq with logged := s.evq.logged ++ [padTo 32 bs] } }

/-! ### Entries (R103 to R123) -/

def entryAt (eid : Nat) (s : State) : Option Entry := s.sched.entries.find? (fun e => e.eid == eid)

def modEntry (eid : Nat) (f : Entry → Entry) (s : State) : State :=
  { s with sched := { s.sched with
      entries := s.sched.entries.map (fun e => if e.eid == eid then f e else e) } }

/-- An entry reaches its final status: its completion may be written (R122, R123). -/
def endEntry (eid status detail count : Nat) (s : State) : State :=
  modEntry eid (fun e => { e with
    status := BitVec.ofNat 8 status, detail := BitVec.ofNat 8 detail, count := count, phase := .ready }) s

/-! ### Jobs and drawers (R161 to R170) -/

def jobAt (h : Nat) (s : State) : Option Job := s.sched.jobs.find? (fun j => j.handle == h)

def modJob (h : Nat) (f : Job → Job) (s : State) : State :=
  { s with sched := { s.sched with jobs := s.sched.jobs.map (fun j => if j.handle == h then f j else j) } }

/-- Fields of a drawer item (R161). -/
def itemType (i : BitVec 128) : Nat := fld i.toNat 124 4
def itemFirst (i : BitVec 128) : Bool := bitAt i.toNat 123
def itemLast (i : BitVec 128) : Bool := bitAt i.toNat 122
def itemPrio (i : BitVec 128) : Nat := fld i.toNat 120 2
def itemRd (i : BitVec 128) : Bool := bitAt i.toNat 119
def itemNum (i : BitVec 128) : Nat := fld i.toNat 116 3
def itemJob (i : BitVec 128) : Nat := fld i.toNat 104 12

/-- The idle item (R163). -/
def idleItem : BitVec 128 := BitVec.ofNat 128 (0xF * 2 ^ 124)

/-- A job none of whose items has been popped (R170). -/
def Job.unpopped (j : Job) : Bool := j.state == .held || j.state == .placed

/-- The LUNs named keep no resident offsets; a record at its reset value is not listed (R256). -/
def forgetResident (us : List Nat) (luns : List (Nat × LunRec)) : List (Nat × LunRec) :=
  (luns.map (fun p => if us.contains p.1 then (p.1, { p.2 with resident := none }) else p)).filter (fun p => p.2 != {})

/-- Jobs that the scheduler withdraws leave the schedule and their drawers (R170); what a withdrawn job was to make resident
is not (R256). -/
def withdraw (p : Job → Bool) (s : State) : State :=
  let gone := (s.sched.jobs.filter (fun j => p j && j.unpopped)).map (·.handle)
  { s with
    sched := { s.sched with jobs := s.sched.jobs.filter (fun j => !(p j && j.unpopped)) }
    luns := forgetResident ((s.sched.jobs.filter (fun j => p j && j.state == .placed)).map (·.lun)) s.luns
    jigs := s.jigs.map (fun g => { g with
      drawer := g.drawer.filter (fun i => !(gone.contains (itemJob i)))
      waitSince := g.waitSince.filter (fun w => !(gone.contains w.1))
      lock := match g.lock with
        | some i => if gone.contains (itemJob i) then none else g.lock
        | l => l }) }

/-- ABORT_REQ set for the jobs that have been popped (R170). -/
def abortPopped (p : Job → Bool) (s : State) : State :=
  { s with sched := { s.sched with
      jobs := s.sched.jobs.map (fun j => if p j && j.state == .popped then { j with abortReq := true } else j) } }

/-! ### Primary mode (R22, R23, R56, R57) -/

/-- Mode codes (R22). -/
def Mode.code : Mode → Nat
  | .off => 0x0 | .reset => 0x1 | .boot => 0x2 | .train => 0x3 | .standby => 0x4 | .service => 0x5
  | .degraded => 0x6 | .rebuild => 0x7 | .refit => 0x8 | .holdup => 0x9 | .writeFenced => 0xA
  | .follower => 0xB | .fenced => 0xC | .quarantine => 0xD | .factory => 0xE

/-- WRITE_FENCED holds while any of its causes does (R56). -/
def Modes.wfence (m : Modes) : Bool := m.fenceOv || m.fenceJournal || m.fenceWindow

/-- The first condition that holds, in the order of R23. -/
def Modes.primary (m : Modes) : Mode :=
  if m.quarantine then .quarantine
  else if m.holdup then .holdup
  else if m.factory then .factory
  else if m.boot then .boot
  else if m.train then .train
  else if m.fenced then .fenced
  else if m.standby then .standby
  else if m.wfence then .writeFenced
  else if m.rebuild then .rebuild
  else if m.refit then .refit
  else if m.degraded then .degraded
  else if m.follower then .follower
  else .service

/-- Modes in which media_ready is high (R41). -/
def Mode.media : Mode → Bool
  | .service | .degraded | .rebuild | .refit | .writeFenced | .follower => true
  | _ => false

/-- What feed reads of the heads named have read is discarded: their codewords leave their landing slots (R388). -/
def dropFeedCws (p : Nat → Bool) (s : State) : State :=
  let mine := (s.sched.jobs.filter (fun j => match j.owner with | .feed h => p h | _ => false)).map (·.handle)
  { s with sched := { s.sched with
      cws := s.sched.cws.filter (fun c => !(mine.contains c.job))
      jobs := s.sched.jobs.filter (fun j => !(mine.contains j.handle && j.state == .ended)) } }

/-- media_ready falls: nothing further is sent, fragments close, jobs, fed lists and feeds are cleared, unpopped feed
reads are withdrawn (R401). -/
def mediaReadyFall (s : State) : State :=
  withdraw (fun j => match j.owner with | .feed _ => true | _ => false) (dropFeedCws (fun _ => true)
    { s with media := { s.media with
        inQ := [], frags := [], running := none
        heads := s.media.heads.map (fun h => { h with job := none, feed := none, fed := [], pass := none, answers := [] }) } })

/-- The log record of a mode change (R546). -/
def modeRecord (s : State) : List Byte :=
  [1, BitVec.ofNat 8 s.modes.mode.code, BitVec.ofNat 8 s.modes.prevMode.code, 0] ++ le 6 s.irq.evtTime.toNat
    ++ [BitVec.ofNat 8 s.modes.dieId.toNat] ++ zeros 5
    ++ le 6 (if s.recov.doseKnown then (wallNow s).toNat else 0)

/-- Modes in which the CAN node takes part in the bus (R51). -/
def Mode.can : Mode → Bool
  | .service | .degraded | .rebuild | .refit | .writeFenced | .standby | .follower | .fenced | .quarantine => true
  | _ => false

/-- The CAN sessions end; what they held is lost (R508). -/
def endCanSessions (s : State) : State := { s with dict := { s.dict with can := [], lostClients := [] } }

/-- R23 applied after a change of conditions. A change of MODE moves the old mode to PREV_MODE, raises source 65, has
the main core log it (R57), moves media_ready (R41, R401) and may silence the CAN node (R51, R508). -/
def applyMode (s : State) : State :=
  let m := s.modes.primary
  if m == s.modes.mode then s
  else
    let s := { s with modes := { s.modes with mode := m, prevMode := s.modes.mode } }
    let s := logRecord (modeRecord s) (raise 65 s)
    let s := if s.pins.mediaReady && !m.media then mediaReadyFall s else s
    let s := if m.can then s else endCanSessions s
    { s with pins := { s.pins with mediaReady := m.media } }

/-- Conditions changed, then R23 applied (R56). -/
def setConds (f : Modes → Modes) (s : State) : State := applyMode { s with modes := f s.modes }

/-- MARK_LOCK as boot makes it (R70, R543). -/
def lockKeys (s : State) : State := { s with cab := { s.cab with markLocked := true } }

/-! ### Pad hold (R40) -/

/-- Level of a NAND pin: driven, in high impedance with a weak pull, or as the bus cycles of the PHY drive it. -/
inductive Pad where
  | low | high | pullDown | pullUp | bus
deriving DecidableEq, Repr

/-- The levels of a channel's pin group (R40). -/
structure Pads where
  /-- chn_ce_n[7:0]. -/
  ceN : BitVec 8 := 0xFF
  /-- chn_we_n. -/
  weN : Pad := .high
  /-- chn_wp_n. -/
  wpN : Pad := .low
  /-- chn_cle. -/
  cle : Pad := .low
  /-- chn_ale. -/
  ale : Pad := .low
  /-- chn_re_t. -/
  reT : Pad := .high
  /-- chn_re_c. -/
  reC : Pad := .low
  /-- chn_dqs_t. -/
  dqsT : Pad := .pullDown
  /-- chn_dqs_c. -/
  dqsC : Pad := .pullUp
  /-- chn_dq[7:0]. -/
  dq : Pad := .pullDown
deriving DecidableEq, Repr

/-- The pin group of a channel: the levels of R40 in pad hold, which the Xostan host keeps in OFF (R54); otherwise the jig's
selection and write protect (R142), and the rest as bus cycles drive it. -/
def padsOf (ch : Nat) (s : State) : Pads :=
  if (chanAt ch s).padHold || !s.pins.powered then {}
  else
    let g := jigAt ch s
    { ceN := BitVec.ofNat 8 (255 - (match g.ce with | some c => 2 ^ (c % 8) | none => 0))
      wpN := if g.wp then .high else .low
      weN := .bus, cle := .bus, ale := .bus, reT := .bus, reC := .bus, dqsT := .bus, dqsC := .bus, dq := .bus }

/-- A channel enters pad hold: no target stays selected, and write protect is asserted (R40). -/
def enterPadHold (ch : Nat) (s : State) : State :=
  modJig ch (fun g => { g with ce := none, wp := false, odt := false })
    (modChan ch (fun c => { c with padHold := true }) s)

/-! ### Dovetail -/

/-! ### The Dovetail link (R406, R407, R409) -/

/-- A block's bit in a view. -/
def dieBit (d : BitVec 3) : BitVec 8 := BitVec.ofNat 8 (2 ^ d.toNat)

/-- A port by its side. -/
def portAt (p : Side) (s : State) : Port := match p with | .east => s.dv.east | .west => s.dv.west

/-- A port changed. -/
def modPort (p : Side) (f : Port → Port) (s : State) : State :=
  match p with
  | .east => { s with dv := { s.dv with east := f s.dv.east } }
  | .west => { s with dv := { s.dv with west := f s.dv.west } }

/-- The blocks of the ring that this block knows, ascending: their order eastwards (DEDUCED, log entry 127). -/
def ringBlocks (s : State) : List Nat :=
  (List.range 8).filter (fun d => d == s.modes.dieId.toNat || s.dv.peers.any (fun p => p.1.toNat == d))

/-- The blocks met going round the ring by one port, this block first. -/
def ringFrom (p : Side) (s : State) : List Nat :=
  let l := ringBlocks s
  let k := l.idxOf s.modes.dieId.toNat
  match p, l.drop k ++ l.take k with
  | .west, d :: ds => d :: ds.reverse
  | _, ds => ds

/-- A port of a block is up, as this block knows it; one it knows nothing of is taken as up. -/
def sideUp (p : Side) (d : Nat) (s : State) : Bool :=
  if d == s.modes.dieId.toNat then (portAt p s).up
  else match s.dv.links.find? (fun x => x.1.toNat == d), p with
    | some x, .east => x.2.1
    | some x, .west => x.2.2
    | none, _ => true

/-- Hops to a block by one port (R409). -/
def hops (p : Side) (d : Nat) (s : State) : Nat := (ringFrom p s).idxOf d

/-- No link on the way to a block by one port is down; to a block that this one does not know, its own port's is looked at
(R409). -/
def wayUp (p : Side) (d : Nat) (s : State) : Bool :=
  let l := ringFrom p s
  let back : Side := match p with | .east => .west | .west => .east
  (portAt p s).up && (!(l.contains d)
    || (List.range (hops p d s)).all (fun i => sideUp p (l.getD i 0) s && sideUp back (l.getD (i + 1) 0) s))

/-- The port by which a message for a block leaves: the shorter way round, eastwards on equal counts; the other way where that
one holds a link that is down; none where both do (R409). -/
def route (d : Nat) (s : State) : Option Side :=
  let (a, b) : Side × Side := if hops .west d s < hops .east d s then (.west, .east) else (.east, .west)
  if wayUp a d s then some a else if wayUp b d s then some b else none

/-- The ports by which a message leaves; a broadcast goes to each block by its own way (R409). -/
def waysOf (dst : Option (BitVec 3)) (s : State) : List Side :=
  match dst with
  | some d => (route d.toNat s).toList
  | none =>
    let others := (ringBlocks s).filter (· != s.modes.dieId.toNat)
    let leaves (p : Side) : Bool := if others.isEmpty then (portAt p s).up else others.any (fun d => route d s == some p)
    [Side.east, Side.west].filter leaves

/-- The bytes of a flit on the link: header, payload, CRC-32C over both (R406). -/
def Flit.bytes (crc : List Byte → Nat) (f : Flit) : List Byte :=
  let d := match f.dst with | some d => d.toNat * 2 ^ 18 | none => 2 ^ 17
  let head := le 4 (f.type.toNat * 2 ^ 24 + f.src.toNat * 2 ^ 21 + d + f.seq.toNat * 2 ^ 8 + (f.payload.length - 1))
  let body := head ++ padTo 64 f.payload
  body ++ le 4 (crc body)

/-- A payload cut into parts of 64 bytes. -/
def parts64 : Nat → List Byte → List (List Byte)
  | 0, _ => []
  | n + 1, l => l.take 64 :: parts64 n (l.drop 64)

/-- The flits of a message that its port's replay buffer keeps: the last 64 (R406, R407). -/
def lastFlits (m : DvMsg) (seq : BitVec 9) : List Flit :=
  let n := (m.payload.length + 63) / 64
  let k := min n 64
  ((parts64 k (m.payload.drop (64 * (n - k)))).zip (List.range k)).map (fun x =>
    { type := m.type, src := m.src, dst := m.dst, seq := seq + BitVec.ofNat 9 (n - k + x.2), payload := x.1 })

/-- A message leaves by a port as flits, numbered in order; the last 64 sent stay in the replay buffer (R406, R407; DESIGN
CHOICE, log entry 127: no command brings an acknowledgement). -/
def sendFlits (m : DvMsg) (s : State) (p : Side) : State :=
  modPort p (fun q =>
    let l := q.replay ++ lastFlits m q.txSeq
    { q with txSeq := q.txSeq + BitVec.ofNat 9 ((m.payload.length + 63) / 64), replay := l.drop (l.length - 64) }) s

/-- A Dovetail message sent; with no working way it is discarded and counted (R409, R433). -/
def dvSend (type : Nat) (dst : Option (BitVec 3)) (payload : List Byte) (s : State) : State :=
  match waysOf dst s with
  | [] => { s with dv := { s.dv with discards := satAdd s.dv.discards 1 } }
  | ways =>
    let m : DvMsg := { type := BitVec.ofNat 8 type, dst := dst, payload := payload, src := s.modes.dieId, ways := ways }
    ways.foldl (sendFlits m) { s with dv := { s.dv with out := s.dv.out ++ [m] } }

end Sys2Proof.Machine
end

