-- ==== Sys2Proof/Machine/DictTable.lean ====
section
/-!
DEFINITION. The object dictionary's table: every object with its type, length, access, write privilege, default,
range and flags (R8, R9, R488 to R490, R501), and the value of a configuration object in force (R499).
-/
namespace Sys2Proof.Machine

/-- Object types (R8), coded as R501 codes them. -/
inductive Ty where
  | bool | u8 | u16 | u32 | u64 | i16 | i32 | q16 | octets | text | time48
deriving DecidableEq, Repr

/-- Access codes of objects (R9). -/
inductive Acc where
  | ro | rw | rws | wo | const
deriving DecidableEq, Repr

/-- One row of the dictionary: indexes `idx` to `last`, subindexes `sub` to `subLast`, type, length in bytes, access,
write privilege, default, lowest and highest value accepted, and FLAGS of R501. -/
structure Obj where
  idx : Nat
  last : Nat
  sub : Nat
  subLast : Nat
  ty : Ty
  len : Nat
  acc : Acc
  wr : Nat
  dflt : Int
  lo : Int
  hi : Int
  flags : Nat
deriving DecidableEq, Repr

/-- Objects of the range identity (R518). -/
def objsIdentity : List Obj :=
  [ ⟨0x1000, 0x1000, 0x01, 0x01, .text, 16, .const, 1, 0, 0, 0, 0⟩,  -- vendorName
    ⟨0x1000, 0x1000, 0x02, 0x02, .text, 16, .const, 1, 0, 0, 0, 0⟩,  -- deviceName
    ⟨0x1000, 0x1000, 0x03, 0x03, .u32, 4, .const, 1, 219861014, 0, 0, 0⟩,  -- diradId
    ⟨0x1000, 0x1000, 0x04, 0x04, .octets, 16, .const, 1, 0, 0, 0, 0⟩,  -- serialNumber
    ⟨0x1000, 0x1000, 0x05, 0x05, .u32, 4, .const, 1, 0, 0, 0, 0⟩,  -- bootRomVersion
    ⟨0x1000, 0x1000, 0x06, 0x06, .u32, 4, .ro, 1, 0, 0, 0, 0⟩,  -- firmwareVersion
    ⟨0x1000, 0x1000, 0x07, 0x07, .u8, 1, .ro, 1, 0, 0, 0, 0⟩,  -- dieId
    ⟨0x1000, 0x1000, 0x08, 0x08, .u32, 4, .const, 1, 1, 0, 0, 0⟩,  -- dictionaryLayout
    ⟨0x1000, 0x1000, 0x09, 0x09, .u16, 2, .const, 1, 0, 0, 0, 0⟩,  -- objectCount
    ⟨0x1000, 0x1000, 0x0A, 0x0A, .text, 32, .rws, 1, 0, 0, 0, 0⟩ ]  -- deviceLabel

/-- Objects of the range modes (R84). -/
def objsModes : List Obj :=
  [ ⟨0x1100, 0x1100, 0x01, 0x01, .u8, 1, .ro, 1, 0, 0, 0, 0⟩,  -- primaryMode
    ⟨0x1100, 0x1100, 0x02, 0x02, .u16, 2, .ro, 1, 0, 0, 0, 0⟩,  -- modeConditions
    ⟨0x1100, 0x1100, 0x03, 0x03, .u32, 4, .ro, 1, 0, 0, 0, 0⟩,  -- resetCause
    ⟨0x1100, 0x1100, 0x04, 0x04, .u32, 4, .rws, 1, 2000, 100, 10000, 0⟩,  -- watchdogTimeout
    ⟨0x1100, 0x1100, 0x05, 0x05, .bool, 1, .wo, 1, 0, 0, 1, 0⟩,  -- factoryRequest
    ⟨0x1200, 0x1200, 0x01, 0x01, .u32, 4, .ro, 1, 0, 0, 0, 0⟩ ]  -- bootStatus

/-- Objects of the range images and authentication (R519). -/
def objsImages : List Obj :=
  [ ⟨0x1201, 0x1201, 0x01, 0x01, .u8, 1, .rw, 1, 0, 1, 4, 0⟩,  -- imageTarget
    ⟨0x1201, 0x1201, 0x02, 0x02, .u32, 4, .rw, 1, 0, 0, 4294967295, 0⟩,  -- imageLength
    ⟨0x1201, 0x1201, 0x03, 0x03, .octets, 0, .wo, 1, 0, 0, 0, 4⟩,  -- imageData
    ⟨0x1201, 0x1201, 0x04, 0x04, .u8, 1, .ro, 1, 0, 0, 0, 0⟩,  -- imageState
    ⟨0x1201, 0x1201, 0x05, 0x05, .bool, 1, .wo, 1, 0, 0, 1, 0⟩,  -- imageCheck
    ⟨0x1201, 0x1201, 0x06, 0x06, .u8, 1, .ro, 1, 0, 0, 0, 0⟩,  -- imageReason
    ⟨0x1210, 0x1210, 0x01, 0x01, .u8, 1, .wo, 0, 0, 1, 2, 0⟩,  -- authRequest
    ⟨0x1210, 0x1210, 0x02, 0x02, .octets, 48, .ro, 1, 0, 0, 0, 0⟩,  -- authChallenge
    ⟨0x1210, 0x1210, 0x03, 0x03, .octets, 97, .wo, 0, 0, 0, 0, 0⟩,  -- authKey
    ⟨0x1210, 0x1210, 0x04, 0x04, .octets, 96, .wo, 0, 0, 0, 0, 0⟩,  -- authSignature
    ⟨0x1210, 0x1210, 0x05, 0x05, .u8, 1, .ro, 1, 0, 0, 0, 0⟩,  -- authLevel
    ⟨0x1210, 0x1210, 0x06, 0x06, .bool, 1, .wo, 0, 0, 0, 1, 0⟩ ]  -- authDrop

/-- Objects of the range dictionary and CAN (R520). -/
def objsCan : List Obj :=
  [ ⟨0x1300, 0x1300, 0x01, 0x01, .u8, 1, .rws, 1, 16, 1, 120, 1⟩,  -- canNodeBase
    ⟨0x1300, 0x1300, 0x02, 0x02, .u8, 1, .rws, 1, 1, 0, 2, 0⟩,  -- canPrivilegeCap
    ⟨0x1300, 0x1300, 0x03, 0x03, .u16, 2, .rws, 1, 60, 5, 3600, 0⟩,  -- canSessionTimeout
    ⟨0x1300, 0x1300, 0x04, 0x04, .u16, 2, .rws, 1, 1000, 100, 60000, 0⟩,  -- dictTransferTimeout
    ⟨0x1300, 0x1300, 0x05, 0x05, .u16, 2, .rws, 1, 1000, 0, 60000, 0⟩,  -- canStatusPeriod
    ⟨0x1300, 0x1300, 0x06, 0x06, .bool, 1, .rws, 1, 1, 0, 1, 0⟩,  -- canEventEnable
    ⟨0x1300, 0x1300, 0x07, 0x07, .u32, 4, .ro, 1, 0, 0, 0, 0⟩,  -- canDropped
    ⟨0x1300, 0x1300, 0x08, 0x08, .u32, 4, .ro, 1, 0, 0, 0, 0⟩,  -- canEventsDropped
    ⟨0x1300, 0x1300, 0x09, 0x09, .u8, 1, .ro, 1, 0, 0, 0, 0⟩,  -- canErrorState
    ⟨0x1300, 0x1300, 0x0A, 0x0A, .bool, 1, .wo, 1, 0, 0, 1, 0⟩,  -- restoreDefaults
    ⟨0x1300, 0x1300, 0x0B, 0x0B, .u16, 2, .ro, 1, 0, 0, 0, 0⟩,  -- restoreRejected
    ⟨0x1300, 0x1300, 0x0C, 0x0C, .u32, 4, .ro, 1, 0, 0, 0, 0⟩ ]  -- savedBytesFree

/-- Objects of the range rings (R129), cascade-wide (R490). -/
def objsRings : List Obj :=
  [ ⟨0x1400, 0x1400, 0x01, 0x01, .u64, 8, .ro, 1, 0, 0, 0, 2⟩,  -- ringsEnabled
    ⟨0x1400, 0x1400, 0x02, 0x02, .u64, 8, .ro, 1, 0, 0, 0, 2⟩,  -- ringsStopped
    ⟨0x1400, 0x1400, 0x03, 0x03, .u64, 8, .ro, 1, 0, 0, 0, 2⟩,  -- entriesFetched
    ⟨0x1400, 0x1400, 0x04, 0x04, .u32, 4, .ro, 1, 0, 0, 0, 2⟩,  -- malformedCount
    ⟨0x1400, 0x1400, 0x05, 0x05, .u16, 2, .ro, 1, 0, 0, 0, 2⟩,  -- inflightTotal
    ⟨0x1401, 0x1440, 0x01, 0x01, .u8, 1, .rws, 1, 0, 0, 2, 2⟩ ]  -- ringPrivilege

/-- Objects of the range channels (R217). -/
def objsChannels : List Obj :=
  [ ⟨0x2000, 0x2000, 0x01, 0x01, .u16, 2, .rws, 1, 65535, 0, 65535, 1⟩,  -- channelEnable
    ⟨0x2000, 0x2000, 0x02, 0x02, .bool, 1, .rws, 1, 0, 0, 1, 1⟩,  -- xmEnable
    ⟨0x2000, 0x2000, 0x03, 0x03, .u8, 1, .rws, 1, 6, 2, 16, 0⟩,  -- driftTripLevel
    ⟨0x2000, 0x2000, 0x04, 0x04, .u16, 2, .rws, 1, 500, 50, 10000, 0⟩,  -- retrainInterval
    ⟨0x2000, 0x2000, 0x05, 0x05, .u8, 1, .rws, 1, 20, 8, 40, 1⟩,  -- trainMinEye
    ⟨0x2010, 0x201F, 0x01, 0x01, .u16, 2, .rws, 1, 4800, 10, 4800, 1⟩,  -- rateCap
    ⟨0x2010, 0x201F, 0x02, 0x02, .u16, 2, .ro, 1, 0, 0, 0, 0⟩,  -- channelRate
    ⟨0x2010, 0x201F, 0x03, 0x03, .u8, 1, .ro, 1, 0, 0, 0, 0⟩,  -- channelMode
    ⟨0x2010, 0x201F, 0x04, 0x04, .u32, 4, .ro, 1, 0, 0, 0, 0⟩,  -- retrainCount
    ⟨0x2010, 0x201F, 0x05, 0x05, .u32, 4, .ro, 1, 0, 0, 0, 0⟩,  -- searchFailCount
    ⟨0x2010, 0x201F, 0x06, 0x06, .u16, 2, .ro, 1, 0, 0, 0, 0⟩ ]  -- fallbackCount

/-- Objects of the range jigs (R176). -/
def objsJigs : List Obj :=
  [ ⟨0x2100, 0x2100, 0x01, 0x01, .bool, 1, .ro, 1, 0, 0, 0, 0⟩,  -- customerRegionLoaded
    ⟨0x2100, 0x2100, 0x02, 0x02, .u32, 4, .ro, 1, 0, 0, 0, 0⟩,  -- customerImageSequence
    ⟨0x2100, 0x2100, 0x03, 0x03, .u32, 4, .ro, 1, 0, 0, 0, 0⟩,  -- vendorPatchSequence
    ⟨0x2100, 0x2100, 0x04, 0x04, .u8, 1, .rws, 1, 20, 0, 255, 0⟩,  -- drawerAgeLimit
    ⟨0x2100, 0x2100, 0x05, 0x05, .u8, 1, .rws, 1, 3, 0, 15, 0⟩,  -- jigReloadLimit
    ⟨0x2110, 0x211F, 0x01, 0x01, .u8, 1, .ro, 1, 0, 0, 0, 0⟩,  -- jigState
    ⟨0x2110, 0x211F, 0x02, 0x02, .u8, 1, .ro, 1, 0, 0, 0, 0⟩,  -- jigMachineChecks
    ⟨0x2110, 0x211F, 0x03, 0x03, .u8, 1, .ro, 1, 0, 0, 0, 0⟩,  -- jigTraps
    ⟨0x2110, 0x211F, 0x04, 0x04, .octets, 512, .ro, 1, 0, 0, 0, 0⟩ ]  -- jigTrace

/-- Objects of the range die table (R184) and target map (R187). -/
def objsDies : List Obj :=
  [ ⟨0x2201, 0x2208, 0x01, 0x01, .text, 16, .rws, 1, 0, 0, 0, 1⟩,  -- dieName
    ⟨0x2201, 0x2208, 0x02, 0x02, .octets, 8, .rws, 1, 0, 0, 0, 1⟩,  -- dieIdBytes
    ⟨0x2201, 0x2208, 0x03, 0x03, .u8, 1, .rws, 1, 0, 0, 3, 1⟩,  -- interfaceMode
    ⟨0x2201, 0x2208, 0x04, 0x04, .u16, 2, .rws, 1, 800, 10, 4800, 1⟩,  -- maxRate
    ⟨0x2201, 0x2208, 0x05, 0x05, .bool, 1, .rws, 1, 0, 0, 1, 1⟩,  -- xmQualified
    ⟨0x2201, 0x2208, 0x06, 0x06, .u8, 1, .rws, 1, 4, 3, 4, 1⟩,  -- bitsPerCell
    ⟨0x2201, 0x2208, 0x07, 0x07, .u8, 1, .rws, 1, 1, 1, 4, 1⟩,  -- lunsPerTarget
    ⟨0x2201, 0x2208, 0x08, 0x08, .u16, 2, .rws, 1, 0, 64, 16384, 1⟩,  -- pagesPerBlock
    ⟨0x2201, 0x2208, 0x09, 0x09, .u16, 2, .rws, 1, 0, 1, 65535, 1⟩,  -- blocksPerPlane
    ⟨0x2201, 0x2208, 0x0A, 0x0A, .u16, 2, .rws, 1, 0, 17536, 32767, 1⟩,  -- pageBytes
    ⟨0x2201, 0x2208, 0x0B, 0x0B, .u8, 1, .rws, 1, 0, 0, 6, 1⟩,  -- planePos
    ⟨0x2201, 0x2208, 0x0C, 0x0C, .u8, 1, .rws, 1, 0, 0, 6, 1⟩,  -- lunPos
    ⟨0x2201, 0x2208, 0x0D, 0x0D, .u8, 1, .rws, 1, 1, 0, 1, 1⟩,  -- statusMode
    ⟨0x2201, 0x2208, 0x0E, 0x0E, .u8, 1, .rws, 1, 2, 0, 7, 1⟩,  -- suspBit
    ⟨0x2201, 0x2208, 0x0F, 0x0F, .u8, 1, .rws, 1, 0, 0, 3, 1⟩,  -- suspendFlags
    ⟨0x2201, 0x2208, 0x10, 0x10, .u8, 1, .rws, 1, 4, 1, 32, 1⟩,  -- progSuspendLimit
    ⟨0x2201, 0x2208, 0x11, 0x11, .u8, 1, .rws, 1, 16, 1, 255, 1⟩,  -- eraseSuspendLimit
    ⟨0x2201, 0x2208, 0x12, 0x12, .octets, 16, .rws, 1, 0, 0, 0, 1⟩,  -- dieCommands
    ⟨0x2201, 0x2208, 0x13, 0x13, .octets, 32, .rws, 1, 0, 0, 0, 1⟩,  -- arrayStarts
    ⟨0x2201, 0x2208, 0x14, 0x14, .u32, 4, .rws, 1, 300, 0, 4294967295, 1⟩,  -- readBusyLimit
    ⟨0x2201, 0x2208, 0x15, 0x15, .u32, 4, .rws, 1, 5000, 0, 4294967295, 1⟩,  -- programBusyLimit
    ⟨0x2201, 0x2208, 0x16, 0x16, .u32, 4, .rws, 1, 40000, 0, 4294967295, 1⟩,  -- eraseBusyLimit
    ⟨0x2201, 0x2208, 0x17, 0x17, .octets, 20, .rws, 1, 0, 0, 0, 1⟩,  -- busIntervals
    ⟨0x2201, 0x2208, 0x18, 0x18, .u16, 2, .rws, 1, 0, 0, 2047, 1⟩,  -- retryStart
    ⟨0x2201, 0x2208, 0x19, 0x19, .u8, 1, .rws, 1, 0, 0, 255, 1⟩,  -- retryCount
    ⟨0x2201, 0x2208, 0x1A, 0x1A, .bool, 1, .rws, 1, 0, 0, 1, 1⟩,  -- pagePrefix
    ⟨0x2201, 0x2208, 0x1B, 0x1B, .u8, 1, .rws, 1, 0, 0, 7, 1⟩,  -- trainingFlags
    ⟨0x2210, 0x221F, 0x01, 0x08, .u8, 1, .rws, 1, 0, 0, 8, 1⟩ ]  -- targetMap

/-- Objects of the range codec (R245). -/
def objsCodec : List Obj :=
  [ ⟨0x2400, 0x2400, 0x01, 0x01, .u32, 4, .ro, 1, 0, 0, 0, 0⟩,  -- codecEnginesUp
    ⟨0x2400, 0x2400, 0x02, 0x02, .u16, 2, .rws, 1, 96, 0, 1024, 1⟩,  -- erasedZeroLimit
    ⟨0x2400, 0x2400, 0x03, 0x03, .u8, 1, .rws, 1, 32, 4, 64, 1⟩,  -- workAreaLimit
    ⟨0x2400, 0x2400, 0x04, 0x04, .u16, 2, .rw, 1, 0, 0, 4096, 0⟩,  -- injectBits
    ⟨0x2400, 0x2400, 0x05, 0x05, .u16, 2, .rw, 1, 0, 0, 65535, 0⟩,  -- injectCount
    ⟨0x2400, 0x2400, 0x06, 0x06, .octets, 16, .ro, 1, 0, 0, 0, 0⟩,  -- lastFailRecord
    ⟨0x2400, 0x2400, 0x10, 0x18, .u64, 8, .ro, 1, 0, 0, 0, 0⟩ ]  -- hardOk to erasedResults

/-- Objects of the range read recovery (R287). -/
def objsRecovery : List Obj :=
  [ ⟨0x2500, 0x2500, 0x01, 0x01, .q16, 4, .rws, 1, 72090, 19661, 131072, 1⟩,  -- doseActivationEnergy
    ⟨0x2500, 0x2500, 0x02, 0x02, .u16, 2, .rws, 1, 60, 10, 3600, 1⟩,  -- doseTick
    ⟨0x2500, 0x2500, 0x03, 0x03, .u8, 1, .rws, 1, 0, 0, 1, 1⟩,  -- nandTempMode
    ⟨0x2500, 0x2500, 0x04, 0x04, .i16, 2, .rws, 1, (-40), (-400), 400, 1⟩,  -- nandTempOffset
    ⟨0x2500, 0x2500, 0x05, 0x05, .i16, 2, .rws, 1, 100, (-160), 340, 1⟩,  -- storageTemperature
    ⟨0x2500, 0x2500, 0x06, 0x06, .time48, 6, .rw, 0, 0, 0, 281474976710655, 0⟩,  -- wallClock
    ⟨0x2500, 0x2500, 0x07, 0x07, .bool, 1, .ro, 1, 0, 0, 0, 0⟩,  -- doseKnown
    ⟨0x2500, 0x2500, 0x08, 0x08, .u32, 4, .ro, 1, 0, 0, 0, 0⟩,  -- lastUnpoweredHours
    ⟨0x2500, 0x2500, 0x09, 0x09, .u32, 4, .rws, 1, 720, 1, 1000000, 1⟩,  -- wakeSweepHours
    ⟨0x2500, 0x2500, 0x0A, 0x0A, .u16, 2, .rws, 1, 128, 16, 4096, 1⟩,  -- trueTolerance
    ⟨0x2500, 0x2500, 0x0B, 0x0B, .u16, 2, .rws, 1, 64, 1, 4096, 1⟩,  -- trueGain
    ⟨0x2500, 0x2500, 0x0C, 0x0C, .u8, 1, .rws, 1, 16, 1, 64, 1⟩,  -- trueMaxStep
    ⟨0x2500, 0x2500, 0x0D, 0x0D, .u32, 4, .rws, 1, 168, 1, 100000, 1⟩,  -- trueValidity
    ⟨0x2500, 0x2500, 0x0E, 0x0E, .u16, 2, .rws, 1, 400, 1, 4096, 1⟩,  -- trueTriggerBits
    ⟨0x2500, 0x2500, 0x0F, 0x0F, .u8, 1, .rws, 1, 32, 1, 255, 1⟩,  -- retryLimit
    ⟨0x2500, 0x2500, 0x10, 0x10, .u8, 1, .rws, 1, 16, 8, 16, 1⟩,  -- fusionSensings
    ⟨0x2500, 0x2500, 0x11, 0x16, .u64, 8, .ro, 1, 0, 0, 0, 0⟩,  -- resolvedStep1 to 6
    ⟨0x2510, 0x251F, 0x01, 0x01, .u64, 8, .ro, 1, 0, 0, 0, 0⟩,  -- channelDoseClock
    ⟨0x2510, 0x251F, 0x02, 0x02, .i16, 2, .rw, 0, 0, (-32768), 32767, 0⟩,  -- nandTemperature
    ⟨0x2510, 0x251F, 0x03, 0x03, .i16, 2, .ro, 1, 0, 0, 0, 0⟩,  -- channelTemperatureUsed
    ⟨0x2521, 0x2528, 0x01, 0x01, .octets, 8448, .rws, 1, 0, 0, 0, 1⟩,  -- predictionTable
    ⟨0x2521, 0x2528, 0x02, 0x02, .bool, 1, .ro, 1, 0, 0, 0, 0⟩ ]  -- predictionTableValid

/-- Objects of the range stripes and journal (R325), cascade-wide (R490). -/
def objsStripes : List Obj :=
  [ ⟨0x2800, 0x2800, 0x01, 0x01, .u16, 2, .rws, 1, 0, 0, 65535, 3⟩,  -- journalBaseBlock
    ⟨0x2800, 0x2800, 0x02, 0x02, .u16, 2, .rws, 1, 32, 4, 64, 3⟩,  -- journalBlocks
    ⟨0x2800, 0x2800, 0x03, 0x03, .u32, 4, .rws, 1, 4096, 1024, 262144, 3⟩,  -- foldTrigger
    ⟨0x2800, 0x2800, 0x04, 0x04, .u16, 2, .rws, 1, 50, 1, 60000, 3⟩,  -- slotWaitEvent
    ⟨0x2800, 0x2800, 0x05, 0x05, .u16, 2, .ro, 1, 0, 0, 0, 2⟩,  -- journalLunA
    ⟨0x2800, 0x2800, 0x06, 0x06, .u16, 2, .ro, 1, 0, 0, 0, 2⟩,  -- journalLunB
    ⟨0x2800, 0x2800, 0x07, 0x07, .u32, 4, .ro, 1, 0, 0, 0, 2⟩,  -- journalEpoch
    ⟨0x2800, 0x2800, 0x08, 0x08, .u32, 4, .ro, 1, 0, 0, 0, 2⟩,  -- anchorSequence
    ⟨0x2800, 0x2800, 0x09, 0x09, .u32, 4, .ro, 1, 0, 0, 0, 2⟩,  -- sealSequence
    ⟨0x2800, 0x2800, 0x0A, 0x0A, .u32, 4, .ro, 1, 0, 0, 0, 2⟩,  -- dirEntries
    ⟨0x2800, 0x2800, 0x0B, 0x0B, .u8, 1, .ro, 1, 0, 0, 0, 2⟩,  -- openRows
    ⟨0x2800, 0x2800, 0x0C, 0x0C, .u32, 4, .ro, 1, 0, 0, 0, 2⟩,  -- journalPages
    ⟨0x2800, 0x2800, 0x0D, 0x0D, .u32, 4, .ro, 1, 0, 0, 0, 2⟩,  -- lastRecoveryMs
    ⟨0x2800, 0x2800, 0x0E, 0x0E, .u64, 8, .ro, 1, 0, 0, 0, 2⟩,  -- shortRowsClosed
    ⟨0x2801, 0x2801, 0x01, 0x08, .u16, 2, .rws, 1, 65535, 0, 65535, 3⟩ ]  -- journalCandidates

/-- Objects of the range background (R371), cascade-wide (R490). -/
def objsBackground : List Obj :=
  [ ⟨0x2900, 0x2900, 0x01, 0x01, .bool, 1, .rws, 1, 0, 0, 1, 2⟩,  -- autoRebuild
    ⟨0x2900, 0x2900, 0x02, 0x02, .bool, 1, .rws, 1, 1, 0, 1, 2⟩,  -- patrolEnable
    ⟨0x2900, 0x2900, 0x03, 0x03, .u32, 4, .rws, 1, 100, 1, 1000000, 2⟩,  -- patrolRate
    ⟨0x2900, 0x2900, 0x04, 0x04, .u32, 4, .ro, 1, 0, 0, 0, 2⟩,  -- patrolLaps
    ⟨0x2900, 0x2900, 0x05, 0x05, .u32, 4, .ro, 1, 0, 0, 0, 2⟩,  -- patrolLastLap
    ⟨0x2900, 0x2900, 0x06, 0x06, .u8, 1, .rws, 1, 3, 1, 8, 2⟩,  -- rebuildSpareRetries
    ⟨0x2900, 0x2900, 0x07, 0x07, .u16, 2, .wo, 1, 0, 0, 4095, 2⟩,  -- declareLunFailed
    ⟨0x2900, 0x2900, 0x08, 0x08, .u32, 4, .wo, 1, 0, 0, 4294967295, 2⟩,  -- retireMember
    ⟨0x2900, 0x2900, 0x09, 0x09, .u16, 2, .wo, 1, 0, 0, 4095, 2⟩,  -- ledgerClear
    ⟨0x2900, 0x2900, 0x0A, 0x0A, .bool, 1, .wo, 1, 0, 0, 1, 2⟩,  -- refitAbort
    ⟨0x2900, 0x2900, 0x0B, 0x0B, .u16, 2, .ro, 1, 0, 0, 0, 2⟩,  -- ledgerUsed
    ⟨0x2900, 0x2900, 0x0C, 0x0C, .u64, 8, .ro, 1, 0, 0, 0, 2⟩,  -- codewordsLost
    ⟨0x2900, 0x2900, 0x0D, 0x0D, .u32, 4, .ro, 1, 0, 0, 0, 2⟩,  -- silentFound
    ⟨0x2900, 0x2900, 0x0E, 0x0E, .u32, 4, .ro, 1, 0, 0, 0, 2⟩,  -- refitCutUnits
    ⟨0x2900, 0x2900, 0x0F, 0x0F, .u16, 2, .ro, 1, 0, 0, 0, 2⟩,  -- membersFailed
    ⟨0x2902, 0x2902, 0x01, 0x20, .u64, 8, .rws, 1, 0, 0, 281474976710655, 2⟩,  -- sparePool
    ⟨0x2903, 0x2903, 0x01, 0x20, .u16, 2, .ro, 1, 0, 0, 0, 2⟩ ]  -- spareNext

/-- Objects of the range media port (R404). -/
def objsMedia : List Obj :=
  [ ⟨0x3000, 0x3000, 0x01, 0x01, .u32, 4, .ro, 1, 0, 0, 0, 0⟩,  -- bindEntriesUsed
    ⟨0x3000, 0x3000, 0x02, 0x02, .u64, 8, .ro, 1, 0, 0, 0, 0⟩,  -- rowsReleased
    ⟨0x3000, 0x3000, 0x03, 0x03, .u64, 8, .ro, 1, 0, 0, 0, 0⟩,  -- rowsUnboundForced
    ⟨0x3000, 0x3000, 0x04, 0x04, .u64, 8, .ro, 1, 0, 0, 0, 0⟩,  -- verifyBadRows
    ⟨0x3000, 0x3000, 0x05, 0x05, .u32, 4, .ro, 1, 0, 0, 0, 0⟩,  -- mediaAborts
    ⟨0x3000, 0x3000, 0x06, 0x06, .u8, 1, .rws, 1, 2, 1, 4, 2⟩,  -- feedAheadUnits
    ⟨0x3000, 0x3000, 0x07, 0x07, .u16, 2, .rws, 1, 50, 1, 60000, 2⟩,  -- bindWaitEvent
    ⟨0x3010, 0x301F, 0x01, 0x01, .u32, 4, .ro, 1, 0, 0, 0, 0⟩,  -- headJob
    ⟨0x3010, 0x301F, 0x02, 0x02, .u64, 8, .ro, 1, 0, 0, 0, 0⟩,  -- headRunsFed
    ⟨0x3010, 0x301F, 0x03, 0x03, .u64, 8, .ro, 1, 0, 0, 0, 0⟩,  -- headRowsReleased
    ⟨0x3010, 0x301F, 0x04, 0x04, .u32, 4, .ro, 1, 0, 0, 0, 0⟩,  -- headAborts
    ⟨0x3010, 0x301F, 0x05, 0x05, .u32, 4, .ro, 1, 0, 0, 0, 0⟩,  -- headPassesAccepted
    ⟨0x3010, 0x301F, 0x06, 0x06, .u32, 4, .ro, 1, 0, 0, 0, 0⟩ ]  -- headPassesRejected

/-- Objects of the range cascade (R434). -/
def objsCascade : List Obj :=
  [ ⟨0x3400, 0x3400, 0x01, 0x01, .u8, 1, .rws, 1, 0, 0, 8, 1⟩,  -- cascadeSize
    ⟨0x3400, 0x3400, 0x02, 0x02, .u32, 4, .ro, 1, 0, 0, 0, 0⟩,  -- currentTerm
    ⟨0x3400, 0x3400, 0x03, 0x03, .u8, 1, .ro, 1, 0, 0, 0, 0⟩,  -- leadDie
    ⟨0x3400, 0x3400, 0x04, 0x04, .u8, 1, .ro, 1, 0, 0, 0, 0⟩,  -- cascadeView
    ⟨0x3400, 0x3400, 0x05, 0x05, .u32, 4, .ro, 1, 0, 0, 0, 0⟩,  -- electionsWon
    ⟨0x3400, 0x3400, 0x06, 0x06, .u32, 4, .ro, 1, 0, 0, 0, 0⟩,  -- leadLosses
    ⟨0x3400, 0x3400, 0x07, 0x07, .u32, 4, .ro, 1, 0, 0, 0, 0⟩,  -- heartbeatsMissed
    ⟨0x3401, 0x3401, 0x01, 0x10, .u8, 1, .rws, 1, 255, 0, 255, 0⟩ ]  -- mediaHeadMap

/-- Objects of the range power (R463). -/
def objsPower : List Obj :=
  [ ⟨0x3800, 0x3800, 0x01, 0x01, .u16, 2, .rws, 1, 600, 50, 4000, 0⟩,  -- clampBudget
    ⟨0x3800, 0x3800, 0x02, 0x02, .u16, 2, .rws, 1, 300, 50, 4000, 0⟩,  -- holdupBudget
    ⟨0x3800, 0x3800, 0x03, 0x03, .u8, 1, .rws, 1, 100, 0, 100, 0⟩,  -- forecastShare
    ⟨0x3800, 0x3800, 0x04, 0x04, .u16, 2, .rws, 1, 60, 10, 1000, 0⟩,  -- clampRamp
    ⟨0x3800, 0x3800, 0x05, 0x05, .u16, 2, .rws, 1, 50, 1, 60000, 0⟩,  -- deferEvent
    ⟨0x3800, 0x3800, 0x06, 0x06, .u16, 2, .rws, 1, 2000, 500, 10000, 0⟩,  -- ovFenceDelay
    ⟨0x3800, 0x3800, 0x07, 0x07, .u16, 2, .rws, 1, 3300, 500, 15000, 0⟩,  -- vinNominal
    ⟨0x3800, 0x3800, 0x08, 0x08, .u8, 1, .rws, 1, 115, 105, 130, 0⟩,  -- ovHardPct
    ⟨0x3800, 0x3800, 0x09, 0x09, .u8, 1, .rws, 1, 108, 100, 125, 0⟩,  -- ovClearPct
    ⟨0x3800, 0x3800, 0x0A, 0x0A, .u16, 2, .rws, 1, 10, 1, 1000, 0⟩,  -- ovClearTime
    ⟨0x3800, 0x3800, 0x0B, 0x0B, .u16, 2, .ro, 1, 0, 0, 0, 0⟩,  -- clampsHeld
    ⟨0x3800, 0x3800, 0x0C, 0x0C, .u32, 4, .ro, 1, 0, 0, 0, 0⟩,  -- deferredCount
    ⟨0x3800, 0x3800, 0x0D, 0x0D, .u32, 4, .ro, 1, 0, 0, 0, 0⟩,  -- ovFences
    ⟨0x3800, 0x3800, 0x0E, 0x0E, .u32, 4, .ro, 1, 0, 0, 0, 0⟩,  -- forecastsGranted
    ⟨0x3800, 0x3800, 0x0F, 0x0F, .u32, 4, .ro, 1, 0, 0, 0, 0⟩ ]  -- droopCount

/-- Objects of the range thermal (R464). -/
def objsThermal : List Obj :=
  [ ⟨0x3900, 0x3900, 0x01, 0x01, .i16, 2, .rws, 1, 400, 240, 440, 0⟩,  -- tempWarnLevel
    ⟨0x3900, 0x3900, 0x02, 0x02, .i16, 2, .rws, 1, 440, 320, 480, 0⟩,  -- tempThrottleLevel
    ⟨0x3900, 0x3900, 0x03, 0x03, .u8, 1, .rws, 1, 50, 10, 100, 0⟩,  -- throttleBudgetPct
    ⟨0x3900, 0x3900, 0x04, 0x04, .i16, 2, .const, 1, 500, 0, 0, 0⟩,  -- tempLatchLevel
    ⟨0x3900, 0x3900, 0x05, 0x05, .i16, 2, .ro, 1, 0, 0, 0, 0⟩,  -- tempMax
    ⟨0x3900, 0x3900, 0x06, 0x06, .octets, 48, .ro, 1, 0, 0, 0, 0⟩,  -- sensorTemps
    ⟨0x3900, 0x3900, 0x07, 0x07, .octets, 64, .ro, 1, 0, 0, 0, 0⟩,  -- voltages
    ⟨0x3900, 0x3900, 0x08, 0x08, .u32, 4, .ro, 1, 0, 0, 0, 0⟩,  -- warnEvents
    ⟨0x3900, 0x3900, 0x09, 0x09, .u32, 4, .ro, 1, 0, 0, 0, 0⟩ ]  -- throttleSeconds

/-- Objects of the range interrupts (R486). -/
def objsInterrupts : List Obj :=
  [ ⟨0x3A00, 0x3A00, 0x01, 0x01, .u32, 4, .ro, 1, 0, 0, 0, 0⟩,  -- recordsRaised
    ⟨0x3A00, 0x3A00, 0x02, 0x02, .u32, 4, .ro, 1, 0, 0, 0, 0⟩,  -- recordsDropped
    ⟨0x3A00, 0x3A00, 0x03, 0x03, .octets, 32, .ro, 1, 0, 0, 0, 0⟩,  -- privilegedCounts
    ⟨0x3A00, 0x3A00, 0x04, 0x04, .u8, 1, .ro, 1, 0, 0, 0, 0⟩,  -- eventQueueState
    ⟨0x3A00, 0x3A00, 0x05, 0x05, .u64, 8, .ro, 1, 0, 0, 0, 0⟩ ]  -- eventTime

/-- Objects of the range Cabinet (R549). -/
def objsCabinet : List Obj :=
  [ ⟨0x3C00, 0x3C00, 0x01, 0x01, .u8, 1, .ro, 1, 0, 0, 0, 0⟩,  -- cabinetState
    ⟨0x3C00, 0x3C00, 0x02, 0x02, .u32, 4, .ro, 1, 0, 0, 0, 0⟩,  -- cabinetFaults
    ⟨0x3C00, 0x3C00, 0x03, 0x03, .u16, 2, .ro, 1, 0, 0, 0, 0⟩,  -- failedSectors
    ⟨0x3C00, 0x3C00, 0x04, 0x04, .u8, 1, .ro, 1, 0, 0, 0, 0⟩,  -- customerKeySlot
    ⟨0x3C00, 0x3C00, 0x05, 0x05, .u16, 2, .ro, 1, 0, 0, 0, 0⟩,  -- vendorSvnFloor
    ⟨0x3C00, 0x3C00, 0x06, 0x06, .u16, 2, .ro, 1, 0, 0, 0, 0⟩,  -- customerSvnFloor
    ⟨0x3C00, 0x3C00, 0x07, 0x07, .u16, 2, .wo, 2, 0, 0, 256, 0⟩,  -- raiseVendorFloor
    ⟨0x3C00, 0x3C00, 0x08, 0x08, .u16, 2, .wo, 1, 0, 0, 256, 0⟩,  -- raiseCustomerFloor
    ⟨0x3C00, 0x3C00, 0x09, 0x09, .octets, 80, .wo, 1, 0, 0, 0, 0⟩,  -- customerKeyProvision
    ⟨0x3C00, 0x3C00, 0x0A, 0x0A, .octets, 504, .wo, 2, 0, 0, 0, 0⟩,  -- factoryPart
    ⟨0x3C00, 0x3C00, 0x0B, 0x0B, .u64, 8, .ro, 1, 0, 0, 0, 0⟩,  -- logNewest
    ⟨0x3C00, 0x3C00, 0x0C, 0x0C, .u64, 8, .ro, 1, 0, 0, 0, 0⟩,  -- logOldest
    ⟨0x3C00, 0x3C00, 0x0D, 0x0D, .u64, 8, .rw, 0, 0, 0, 18446744073709551615, 0⟩,  -- logCursor
    ⟨0x3C00, 0x3C00, 0x0E, 0x0E, .octets, 64, .ro, 1, 0, 0, 0, 0⟩,  -- logRecord
    ⟨0x3C00, 0x3C00, 0x0F, 0x0F, .u8, 1, .rw, 0, 0, 0, 191, 0⟩,  -- customerSectorSelect
    ⟨0x3C00, 0x3C00, 0x10, 0x10, .octets, 4096, .rw, 1, 0, 0, 0, 0⟩,  -- customerSectorData
    ⟨0x3C10, 0x3C17, 0x00, 0xFF, .u32, 4, .ro, 1, 0, 0, 0, 0⟩ ]  -- eraseCount

/-- Objects of the range SRAM integrity (R569). -/
def objsSram : List Obj :=
  [ ⟨0x3D00, 0x3D00, 0x01, 0x01, .bool, 1, .rws, 1, 1, 0, 1, 0⟩,  -- scrubEnable
    ⟨0x3D00, 0x3D00, 0x02, 0x02, .u16, 2, .rws, 1, 1024, 1, 65535, 0⟩,  -- scrubInterval
    ⟨0x3D00, 0x3D00, 0x03, 0x03, .u64, 8, .ro, 1, 0, 0, 0, 0⟩,  -- correctedWords
    ⟨0x3D00, 0x3D00, 0x04, 0x04, .u64, 8, .ro, 1, 0, 0, 0, 0⟩,  -- uncorrectableWords
    ⟨0x3D00, 0x3D00, 0x05, 0x05, .u64, 8, .ro, 1, 0, 0, 0, 0⟩,  -- scrubFixed
    ⟨0x3D00, 0x3D00, 0x06, 0x06, .u32, 4, .ro, 1, 0, 0, 0, 0⟩,  -- scrubLaps
    ⟨0x3D00, 0x3D00, 0x07, 0x07, .u32, 4, .ro, 1, 0, 0, 0, 0⟩,  -- scrubLapMs
    ⟨0x3D00, 0x3D00, 0x08, 0x08, .octets, 24, .ro, 1, 0, 0, 0, 0⟩,  -- regionCorrected
    ⟨0x3D00, 0x3D00, 0x09, 0x09, .octets, 24, .ro, 1, 0, 0, 0, 0⟩,  -- regionUncorrectable
    ⟨0x3D00, 0x3D00, 0x0A, 0x0A, .u32, 4, .wo, 1, 0, 0, 4294967295, 0⟩ ]  -- sramFlip

/-- Objects of the range statistics (R522). -/
def objsStatistics : List Obj :=
  [ ⟨0x6000, 0x6000, 0x01, 0x01, .u32, 4, .ro, 1, 0, 0, 0, 0⟩,  -- uptime
    ⟨0x6000, 0x6000, 0x02, 0x02, .u32, 4, .ro, 1, 0, 0, 0, 0⟩,  -- powerCycles
    ⟨0x6000, 0x6000, 0x03, 0x03, .u64, 8, .ro, 1, 0, 0, 0, 0⟩,  -- bytesWritten
    ⟨0x6000, 0x6000, 0x04, 0x04, .u64, 8, .ro, 1, 0, 0, 0, 0⟩,  -- bytesRead
    ⟨0x6000, 0x6000, 0x05, 0x05, .u64, 8, .ro, 1, 0, 0, 0, 0⟩,  -- entriesCompleted
    ⟨0x6000, 0x6000, 0x06, 0x06, .bool, 1, .rw, 1, 0, 0, 1, 0⟩,  -- statisticsMark
    ⟨0x6001, 0x6001, 0x03, 0x05, .u64, 8, .ro, 1, 0, 0, 0, 0⟩,  -- since mark
    ⟨0x6010, 0x601F, 0x01, 0x03, .u64, 8, .ro, 1, 0, 0, 0, 0⟩ ]  -- channelOps

/-- Objects of the range customer area (R523). -/
def objsCustomer : List Obj :=
  [ ⟨0x7000, 0x70FF, 0x01, 0x01, .octets, 64, .rws, 1, 0, 0, 0, 0⟩ ]  -- customerArea

/-- Per-LUN record fields (R288, R521): the subindex field is `sub mod 32`. -/
def objsLun : List Obj :=
  [ ⟨0x4000, 0x41FF, 0x00, 0x01, .u8, 1, .ro, 1, 0, 0, 0, 0⟩,  -- lunState, lunDieType
    ⟨0x4000, 0x41FF, 0x02, 0x04, .u64, 8, .ro, 1, 0, 0, 0, 0⟩,  -- lunReads, lunPrograms, lunErases
    ⟨0x4000, 0x41FF, 0x05, 0x07, .u32, 4, .ro, 1, 0, 0, 0, 0⟩,  -- lunProgramFails, lunEraseFails, lunBusyTimeouts
    ⟨0x4000, 0x41FF, 0x10, 0x10, .octets, 16, .rws, 1, 0, 0, 0, 1⟩,  -- lunBias
    ⟨0x4000, 0x41FF, 0x11, 0x11, .u8, 1, .ro, 1, 0, 0, 0, 0⟩,  -- lunRetryHint
    ⟨0x4000, 0x41FF, 0x12, 0x13, .u32, 4, .ro, 1, 0, 0, 0, 0⟩ ]  -- lunTrueCount, lunTrueAbandoned

/-- Every object outside the per-LUN records. -/
def objTable : List Obj :=
  objsIdentity
    ++ objsModes
    ++ objsImages
    ++ objsCan
    ++ objsRings
    ++ objsChannels
    ++ objsJigs
    ++ objsDies
    ++ objsCodec
    ++ objsRecovery
    ++ objsStripes
    ++ objsBackground
    ++ objsMedia
    ++ objsCascade
    ++ objsPower
    ++ objsThermal
    ++ objsInterrupts
    ++ objsCabinet
    ++ objsSram
    ++ objsStatistics
    ++ objsCustomer

/-- The row of object `idx:sub` (R488). -/
def findObj (idx sub : Nat) : Option Obj :=
  if 0x4000 ≤ idx && idx ≤ 0x41FF then
    objsLun.find? (fun o => o.sub ≤ sub % 32 && sub % 32 ≤ o.subLast)
  else objTable.find? (fun o => o.idx ≤ idx && idx ≤ o.last && o.sub ≤ sub && sub ≤ o.subLast)

/-- The index holds some object (R500 tells NO_OBJECT from NO_SUBINDEX). -/
def indexExists (idx : Nat) : Bool :=
  (0x4000 ≤ idx && idx ≤ 0x41FF) || objTable.any (fun o => o.idx ≤ idx && idx ≤ o.last)

/-- Objects of a row. -/
def Obj.count (o : Obj) : Nat := (o.last - o.idx + 1) * (o.subLast - o.sub + 1)

/-- objectCount (R518): every object of the table, the per-LUN records of 4,096 LUNs included. -/
def objectCount : Nat :=
  (objTable.map Obj.count).sum + 8 * (objsLun.map Obj.count).sum

/-- The default of an object as its bytes (R8, R512). -/
def Obj.defaultBytes (o : Obj) : List Byte :=
  match o.ty with
  | .octets | .text => zeros o.len
  | _ => le o.len (unsgn (8 * o.len) o.dflt)

/-- The value last committed of a stored object, or its default (R499). -/
def stored (idx sub : Nat) (s : State) : List Byte :=
  match s.dict.saved.lookup (idx, sub) with
  | some v => v
  | none => match findObj idx sub with
    | some o => o.defaultBytes
    | none => []

/-- The value in force: of an object that takes effect at the next start, the value as of the last start (R499). -/
def inForce (idx sub : Nat) (s : State) : List Byte :=
  match findObj idx sub with
  | some o =>
    if o.flags % 2 == 1 then
      match s.dict.force.lookup (idx, sub) with
      | some v => v
      | none => o.defaultBytes
    else stored idx sub s
  | none => []

/-- A value put into a list of values that differ from their defaults. -/
def putValue (idx sub : Nat) (v : List Byte) (l : List ((Nat × Nat) × List Byte)) : List ((Nat × Nat) × List Byte) :=
  let l := dropKey (idx, sub) l
  match findObj idx sub with
  | some o => if v == o.defaultBytes then l else ((idx, sub), v) :: l
  | none => l

/-- A configuration value in force as an unsigned number. -/
def cfg (idx sub : Nat) (s : State) : Nat := leVal (inForce idx sub s)

/-- A configuration value in force of a signed 16-bit object. -/
def cfgInt (idx sub : Nat) (s : State) : Int := sgn 16 (cfg idx sub s)

/-- A Boolean configuration value in force. -/
def cfgBool (idx sub : Nat) (s : State) : Bool := cfg idx sub s == 1

/-- A die table value in force of die type `t` (R184). -/
def die (t sub : Nat) (s : State) : Nat := cfg (0x2200 + t) sub s

/-- The bytes of a die table value in force. -/
def dieBytes (t sub : Nat) (s : State) : List Byte := inForce (0x2200 + t) sub s

end Sys2Proof.Machine
end

