-- ==== Sys2Proof/Machine/Power.lean ====
section
/-!
DEFINITION. The clamp rack, the power sideband, droop and the wake events (R16, R18, R42 to R44, R78, R436 to R445).
-/
namespace Sys2Proof.Machine

/-! ### Clamp rack -/

/-- Charge of a channel in XM (R183, R436). -/
def xmCharge : Nat := 2

/-- Clamps held by jigs and XM charges. -/
def Rack.nandHeld (r : Rack) : Nat := (r.held.map (fun h => h.2.2)).sum + xmCharge * r.xm.length

/-- Clamps held, forecast included (R461). -/
def Rack.total (r : Rack) : Nat := r.nandHeld + if r.fcHeld then r.fcClamps else 0

/-- The budget in force (R437). throttleBudgetPct takes effect at the next round (R464). -/
def budget (s : State) : Nat :=
  if s.modes.holdup then cfg 0x3800 2 s
  else if s.hk.throttle then cfg 0x3800 1 s * s.hk.budgetPct / 100
  else cfg 0x3800 1 s

/-- This block's share of a forecast: the clamps named, scaled and rounded up, at most the budget (R436). -/
def forecastClamps (clamps : Nat) (s : State) : Nat :=
  min ((clamps * cfg 0x3800 3 s + 99) / 100) (budget s)

/-- TYPE and PRIO of the current job of a jig, from J5 (R149, R438). -/
def jigType (g : Jig) : Nat := fld (g.j.getD 5 0).toNat 28 4
def jigPrio (g : Jig) : Nat := fld (g.j.getD 5 0).toNat 24 2

/-- A write-class request: the requesting jig's J5 names PROGRAM or ERASE (R438). -/
def writeClass (s : State) : Requester → Bool
  | .jig ch => jigType (jigAt ch s) == 2 || jigType (jigAt ch s) == 3
  | _ => false

/-- Write-class requests are held from stage 1 on, but not once HOLDUP holds (R445, R449). -/
def ovStops (s : State) : Bool := s.power.ovStage != 0 && !s.modes.holdup

/-- Order of a request: XM charges by channel, then jigs by drawer priority and age (R438). -/
def reqKey (s : State) (r : RackReq) : Nat × Nat × Nat :=
  match r.who with
  | .forecast => (0, 0, 0)
  | .xm ch => (1, ch, 0)
  | .jig ch => (2, jigPrio (jigAt ch s), r.age)

/-- Lexicographic comparison of request orders. -/
def keyLe (a b : Nat × Nat × Nat) : Bool :=
  a.1 < b.1 || (a.1 == b.1 && (a.2.1 < b.2.1 || (a.2.1 == b.2.1 && a.2.2 ≤ b.2.2)))

/-- Insertion into an ordered list of requests. -/
def insertReq (s : State) (r : RackReq) : List RackReq → List RackReq
  | [] => [r]
  | x :: xs => if keyLe (reqKey s r) (reqKey s x) then r :: x :: xs else x :: insertReq s r xs

/-- The waiting requests in the order of R438. -/
def orderedReqs (s : State) : List RackReq := s.rack.waiting.foldr (insertReq s) []

/-- Clamps granted to XM charges and jigs within the last 10 µs (R439). -/
def rampSum (s : State) : Nat :=
  ((s.rack.ramp.filter (fun p => s.now < p.1 + 10)).map (·.2)).sum

/-- The ramp allows a grant of `n` clamps: the window stays within clampRamp, or a single larger request finds no
grant in the window (R439). -/
def rampAllows (n : Nat) (s : State) : Bool :=
  rampSum s + n ≤ cfg 0x3800 4 s || (cfg 0x3800 4 s < n && rampSum s == 0)

/-- Clamps added to what a jig holds for a LUN (R147). -/
def addHeld (ch lun n : Nat) : List (Nat × Nat × Nat) → List (Nat × Nat × Nat)
  | [] => [(ch, lun, n)]
  | (c, l, m) :: rest => if c == ch && l == lun then (c, l, m + n) :: rest else (c, l, m) :: addHeld ch lun n rest

/-- A waiting request is granted. -/
def grantReq (r : RackReq) (s : State) : State :=
  let rack := { s.rack with
    waiting := s.rack.waiting.filter (fun x => !(x.who == r.who))
    ramp := (s.now, r.clamps) :: s.rack.ramp.filter (fun p => s.now < p.1 + 10) }
  match r.who with
  | .forecast => s
  | .xm ch => { s with rack := { rack with xm := ch :: rack.xm } }
  | .jig ch =>
    modJig ch (fun g => { g with clampWait := false, clampGrant := true })
      { s with rack := { rack with held := addHeld ch r.lun r.clamps rack.held } }

/-- Requests granted in order while each fits; a held write-class request is passed over (R438, R439, R445). -/
def grantFrom : List RackReq → State → State
  | [], s => s
  | r :: rs, s =>
    if ovStops s && writeClass s r.who then grantFrom rs s
    else if s.rack.total + r.clamps ≤ budget s && rampAllows r.clamps s then grantFrom rs (grantReq r s)
    else s

/-- The waiting forecast is granted when it fits: clamps reserved and sb_grant raised (R44). -/
def grantForecast (s : State) : State :=
  if s.rack.fcWaiting && s.rack.nandHeld + s.rack.fcClamps ≤ budget s then
    { s with
      rack := { s.rack with
        fcHeld := true, fcWaiting := false, fcDeferred := false
        fcDeadline := s.now + 1000 * s.rack.fcDuration }
      stats := { s.stats with forecastsGranted := s.stats.forecastsGranted + 1 } }
  else s

/-- One CORE cycle of the rack: the forecast first, and nothing else while it waits (R438, R442). -/
def rackCycle (s : State) : State :=
  let s := grantForecast s
  if s.rack.fcWaiting then s else grantFrom (orderedReqs s) s

/-- CLAMP_GRANT (R438). -/
def execClampGrant (s : State) : Out := .next (rackCycle s)

/-- The request of a jig joins the waiting requests (R133, R147). -/
def askClamps (ch lun n : Nat) (s : State) : State :=
  modJig ch (fun g => { g with clampWait := true })
    { s with rack := { s.rack with
        order := s.rack.order + 1
        waiting := s.rack.waiting ++ [{ who := .jig ch, lun := lun, clamps := n, age := s.rack.order }] } }

/-- A channel in XM asks for its burst charge (R183). -/
def askXm (ch : Nat) (s : State) : State :=
  if s.rack.xm.contains ch || s.rack.waiting.any (fun r => r.who == .xm ch) then s
  else { s with rack := { s.rack with
    order := s.rack.order + 1
    waiting := s.rack.waiting ++ [{ who := .xm ch, clamps := xmCharge, age := s.rack.order }] } }

/-- Clamps that a jig holds for a LUN. -/
def heldFor (ch lun : Nat) (s : State) : Nat :=
  ((s.rack.held.filter (fun h => h.1 == ch && h.2.1 == lun)).map (fun h => h.2.2)).sum

/-- A jig holds clamps for some LUN. -/
def holdsAny (ch : Nat) (s : State) : Bool := s.rack.held.any (fun h => h.1 == ch)

/-- The clamps of one LUN of a jig are returned (R147 0x40). -/
def returnLun (ch lun : Nat) (s : State) : State :=
  { s with rack := { s.rack with held := s.rack.held.filter (fun h => !(h.1 == ch && h.2.1 == lun)) } }

/-- Every clamp that a jig holds is returned (R147 0x41). -/
def returnAll (ch : Nat) (s : State) : State :=
  { s with rack := { s.rack with held := s.rack.held.filter (fun h => !(h.1 == ch)) } }

/-- XM_CHARGE_RELEASE: the bus queue of the channel has held no data burst for 1 µs (R183). -/
def execXmChargeRelease (ch : Nat) (s : State) : Out :=
  checked (ch < 16) <|
    if (jigAt ch s).busQ.any (fun b => b.code == 4 || b.code == 5) then s
    else { s with rack := { s.rack with xm := s.rack.xm.filter (· != ch) } }

/-- One power event for a request that has waited longer than deferEvent (R440). -/
def countDeferred (s : State) : State :=
  raise 121 { s with
    rack := { s.rack with deferred := satAdd s.rack.deferred 1 }
    stats := { s.stats with deferredCount := s.stats.deferredCount + 1 } }

/-- DEFER_EVENT (R440): once per request, and not for a write-class request under the overvoltage stop. -/
def execDeferEvent (who : Requester) (s : State) : Out :=
  .next <|
    match who with
    | .forecast =>
      if s.rack.fcWaiting && !s.rack.fcDeferred then
        countDeferred { s with rack := { s.rack with fcDeferred := true } }
      else s
    | _ =>
      if s.rack.waiting.any (fun r => r.who == who && !r.deferred) && !(ovStops s && writeClass s who) then
        countDeferred { s with rack := { s.rack with
          waiting := s.rack.waiting.map (fun r => if r.who == who then { r with deferred := true } else r) } }
      else s

/-! ### Wake (R78) -/

/-- A lead block tells its followers to enter STANDBY, or to wake (R77, R78, R432). -/
def tellStandby (sleep : Bool) (s : State) : State :=
  if s.modes.lead && !s.dv.solo then dvSend 0x31 none [BitVec.ofNat 8 (b2n sleep)] s else s

/-- A wake event returns the block from STANDBY to the mode its conditions give; EVT_TIME is loaded again (R474) and
each channel is to check its drift monitor first. -/
def wake (s : State) : State :=
  if s.modes.standby then
    tellStandby false (setConds (fun m => { m with standby := false })
      { reloadTime s with chans := s.chans.map (fun c => { c with driftCheck := true }) })
  else s

/-! ### Power sideband (R42 to R44) -/

def sbKind (m : Word) : Nat := fld m.toNat 28 4
def sbEvent (m : Word) : Nat := fld m.toNat 26 2
def sbClamps (m : Word) : Nat := fld m.toNat 16 10
def sbLow (m : Word) : Nat := fld m.toNat 0 16

/-- A message that is acknowledged, ignored and counted: an unknown KIND, EVENT 0b11, or DURATION 0 (R43). -/
def sbIgnored (m : Word) : Bool :=
  !(sbKind m == 1 || sbKind m == 2 || sbKind m == 3)
    || (sbKind m == 1 && (sbEvent m == 3 || sbLow m == 0))

/-- A message can be taken: not in OFF or RESET, and sb_ack has fallen since the last one (R42, R54). -/
def sbReady (s : State) : Bool := s.pins.powered && !s.pins.inReset && !s.pins.sbAck

/-- A message is taken: sb_ack rises, the message counts, and STANDBY ends (R42, R78, R461). -/
def sbTake (s : State) : State :=
  wake { s with
    pins := { s.pins with sbAck := true }
    rack := { s.rack with sbMessages := satAdd s.rack.sbMessages 1 } }

/-- The message counts as ignored (R43, R443). -/
def sbIgnore (s : State) : State :=
  { s with rack := { s.rack with sbIgnored := satAdd s.rack.sbIgnored 1 } }

/-- The forecast that arrives replaces one held or waiting, and is judged at once (R44). -/
def placeForecast (m : Word) (s : State) : State :=
  let s := { s with rack := { s.rack with
    fcHeld := false, fcWaiting := true, fcDeferred := false
    fcEvent := BitVec.ofNat 2 (sbEvent m)
    fcClamps := forecastClamps (sbClamps m) s
    fcDuration := sbLow m } }
  grantForecast s

/-- FORECAST (R43, R44, R443). -/
def execForecast (m : Word) (s : State) : Out :=
  .next <|
    if sbReady s && sbKind m == 1 && !sbIgnored m then
      if s.modes.holdup then sbIgnore (sbTake s) else placeForecast m (sbTake s)
    else s

/-- The clamps of a forecast are returned and sb_grant falls; a waiting forecast is cancelled (R44, R442). -/
def dropForecast (s : State) : State :=
  { s with rack := { s.rack with fcHeld := false, fcWaiting := false, fcDeferred := false } }

/-- REVOKE (R44, R442). -/
def execRevoke (m : Word) (s : State) : Out :=
  .next <| if sbReady s && sbKind m == 2 then dropForecast (sbTake s) else s

/-- SIDEBAND_IGNORED (R43). -/
def execSidebandIgnored (m : Word) (s : State) : Out :=
  .next <| if sbReady s && sbIgnored m then sbIgnore (sbTake s) else s

/-- FORECAST_EXPIRY: DURATION has elapsed from the grant (R44). -/
def execForecastExpiry (s : State) : Out :=
  .next <| if s.rack.fcHeld then { s with rack := { s.rack with fcHeld := false } } else s

/-- SB_REQ_LOWERED: sb_ack falls (R42). -/
def execSbReqLowered (s : State) : Out := .next { s with pins := { s.pins with sbAck := false } }

/-! ### Droop (R18, R444) -/

/-- DROOP_TRIP: the CORE and MGMT clocks are stretched and the trip is counted. -/
def execDroopTrip (detector : Nat) (s : State) : Out :=
  checked (detector < 4) { s with
    modes := { s.modes with stretched := true }
    power := { s.power with droopCount := s.power.droopCount + 1 } }

/-- DROOP_RESTORE: full frequency after 4 µs above the threshold. -/
def execDroopRestore (s : State) : Out := .next { s with modes := { s.modes with stretched := false } }

end Sys2Proof.Machine
end

