-- ==== Sys2Proof/Machine/Sram.lean ====
section
/-!
DEFINITION. The SRAM and its integrity logic: the code, the merge buffer, detections, the flip, the scrubber
(R551 to R568). The stored code words are a canonical list: an unlisted word is the all-zero code word.
-/
namespace Sys2Proof.Machine

/-! ### The code (R552, R553) -/

/-- Number of words (R551). -/
def sramWords : Nat := 786432

/-- Positions 1, 2, 4, … 128 hold check bits (R552). -/
def checkPos (p : Nat) : Bool := p == 1 || p == 2 || p == 4 || p == 8 || p == 16 || p == 32 || p == 64 || p == 128

/-- Position of each data bit, data bit 0 first (R552). -/
def dataPos : List Nat := (List.range 137).filter (fun p => p != 0 && !checkPos p)

/-- The data bits put at their positions. -/
def spreadData (v : Nat) (i : Nat) : List Nat → Nat
  | [] => 0
  | p :: ps => b2n (bitAt v i) * 2 ^ p + spreadData v (i + 1) ps

/-- The data bits collected from their positions. -/
def gatherData (w : Nat) (i : Nat) : List Nat → Nat
  | [] => 0
  | p :: ps => b2n (bitAt w p) * 2 ^ i + gatherData w (i + 1) ps

/-- The syndrome S: the exclusive or of the numbers of all positions from 1 to 136 that hold a 1 (R553). -/
def synd (w : Nat) : Nat := (List.range 137).foldl (fun a p => if bitAt w p then a ^^^ p else a) 0

/-- Q: the exclusive or of all 137 bits (R553). -/
def qParity (w : Nat) : Bool := (List.range 137).foldl (fun a p => xor a (bitAt w p)) false

/-- The check bits that bring the syndrome to zero. -/
def checkBits (s : Nat) : Nat :=
  (List.range 8).foldl (fun a j => if bitAt s j then a + 2 ^ (2 ^ j) else a) 0

/-- The code word of 128 data bits (R552). -/
def sramEncode (v : Nat) : Nat :=
  let d := spreadData v 0 dataPos
  let w := d + checkBits (synd d)
  w + b2n (qParity w)

/-- Class of a stored word (R553). -/
inductive SramClass where
  | clean | corrected (fixed : Nat) | bad
deriving DecidableEq, Repr

/-- One position inverted. -/
def flipBit (w p : Nat) : Nat := w ^^^ 2 ^ p

/-- Classification by S and Q (R553). -/
def sramClass (w : Nat) : SramClass :=
  let s := synd w
  if s == 0 then (if qParity w then .corrected (flipBit w 0) else .clean)
  else if qParity w && s ≤ 136 then .corrected (flipBit w s)
  else .bad

/-- The data bits of a code word. -/
def sramData (w : Nat) : Nat := gatherData w 0 dataPos

/-! ### Stored words -/

/-- The stored code word of a word address. -/
def Sram.word (m : Sram) (a : Nat) : Nat := (lookD 0 a m.words).toNat

/-- A code word stored, the list kept canonical: ascending, no all-zero entry. -/
def Sram.putWord (m : Sram) (a w : Nat) : Sram :=
  { m with words := if BitVec.ofNat 137 w == 0 then dropKey a m.words else putAsc a (BitVec.ofNat 137 w) m.words }

/-- Region code of a word address (R551). -/
def sramRegion (a : Nat) : Nat :=
  if a < 0x40000 then 0 else if a < 0x70000 then 1 else if a < 0x90000 then 2
  else if a < 0xB0000 then 3 else if a < 0xB8000 then 4 else 5

/-- First word of a region (R551). -/
def regionBase (r : Nat) : Nat := [0, 0x40000, 0x70000, 0x90000, 0xB0000, 0xB8000].getD r 0

/-- A write that computes check bits: it uses an armed flip of its region, discards a merge entry of its address and
makes a pending scrubber rewrite void (R556, R560, R565). -/
def Sram.writeCode (m : Sram) (a w : Nat) : Sram :=
  let hit := m.flipArm && m.flipRegion.toNat == sramRegion a
  let w1 := if hit then flipBit w m.flipPosA.toNat else w
  let w2 := if hit && m.flipB then flipBit w1 m.flipPosB.toNat else w1
  let m := m.putWord a w2
  { m with
    merge := m.merge.filter (fun e => e.word != a)
    rewrites := m.rewrites.filter (fun r => r.1 != a)
    flipArm := m.flipArm && !hit
    flipUsed := m.flipUsed || hit
    flipAddr := if hit then BitVec.ofNat 24 (a * 16) else m.flipAddr }

/-- A whole aligned word written (R555). -/
def Sram.writeWord (m : Sram) (a v : Nat) : Sram := m.writeCode a (sramEncode v)

/-! ### Detections (R554, R562, R566) -/

/-- A detection recorded and reported: counters, last error, source 127 or privileged source 250. -/
def sramNote (a s : Nat) (q bad : Bool) (st : State) : State :=
  let r := sramRegion a
  let st := { st with
    sram := { st.sram with
      errValid := true, errUncorr := bad, errRegion := BitVec.ofNat 3 r, errSyn := BitVec.ofNat 8 s, errQ := q
      lastAddr := BitVec.ofNat 24 (a * 16)
      corr := if bad then st.sram.corr else st.sram.corr + 1
      uncorr := if bad then st.sram.uncorr + 1 else st.sram.uncorr
      bad := if bad then st.sram.bad ++ [a] else st.sram.bad }
    stats := if bad then { st.stats with
        uncorrectableWords := st.stats.uncorrectableWords + 1
        regionUncorrectable := st.stats.regionUncorrectable.modify r (· + 1) }
      else { st.stats with
        correctedWords := st.stats.correctedWords + 1
        regionCorrected := st.stats.regionCorrected.modify r (· + 1) } }
  if bad then
    raisePriv 250 false ([BitVec.ofNat 8 r, 0, 0, 0] ++ le 4 ((a - regionBase r) * 16) ++ [BitVec.ofNat 8 s]) st
  else raise 127 st

/-- The stored word read and corrected: its data bits, and whether the reader may use them (R553, R554). -/
def readStored (a : Nat) (st : State) : Nat × Bool × State :=
  let w := st.sram.word a
  match sramClass w with
  | .clean => (sramData w, true, st)
  | .corrected f => (sramData f, true, sramNote a (synd w) (qParity w) false st)
  | .bad => (sramData w, false, sramNote a (synd w) (qParity w) true st)

/-- Bytes of a merge entry in place of the masked bytes. -/
def overlay : List (Option Byte) → List Byte → List Byte
  | some b :: ms, _ :: bs => b :: overlay ms bs
  | none :: ms, b :: bs => b :: overlay ms bs
  | _, bs => bs

/-- A word as a reader sees it: the bytes of a merge entry replace the stored ones (R557). -/
def readWord (a : Nat) (st : State) : List Byte × Bool × State :=
  let (v, ok, st) := readStored a st
  match st.sram.merge.find? (fun e => e.word == a) with
  | some e => (overlay e.bytes (le 16 v), ok, st)
  | none => (le 16 v, ok, st)

/-- `n` words read from `a`. -/
def readWords : Nat → Nat → State → List Byte × Bool × State
  | 0, _, st => ([], true, st)
  | n + 1, a, st =>
    let x := readWord a st
    let y := readWords n (a + 1) x.2.2
    (x.1 ++ y.1, x.2.1 && y.2.1, y.2.2)

/-- `n` whole words written from `a`. -/
def Sram.writeWords : Nat → Nat → List Byte → Sram → Sram
  | 0, _, _, m => m
  | n + 1, a, bs, m => Sram.writeWords n (a + 1) (bs.drop 16) (m.writeWord a (leVal (bs.take 16)))

/-! ### Merge buffer (R555 to R558) -/

/-- A merge entry retires: written whole when its mask is full, otherwise merged with the stored word; over an
uncorrectable word, check bits 1 and 2 are inverted and the region rule applies (R556, R558). -/
def retire (e : Merge) (st : State) : State :=
  let st := { st with sram := { st.sram with merge := st.sram.merge.filter (fun x => x.word != e.word) } }
  if e.bytes.all (·.isSome) then
    { st with sram := st.sram.writeWord e.word (leVal (e.bytes.map (·.getD 0))) }
  else
    let (v, ok, st) := readStored e.word st
    let w := sramEncode (leVal (overlay e.bytes (le 16 v)))
    if ok then { st with sram := st.sram.writeCode e.word w }
    else
      let m := st.sram.writeCode e.word (flipBit (flipBit w 1) 2)
      { st with sram := { m with poisoned := true } }

/-- Bytes merged over a mask from byte `off`. -/
def mergeBytes (old : List (Option Byte)) (off : Nat) (bs : List Byte) : List (Option Byte) :=
  splice old off (bs.map some)

/-- A write of fewer bytes than a word (R555): merged into the entry of its word, or a new entry; with all 8 in use
the oldest retires first. -/
def narrowWrite (a off : Nat) (bs : List Byte) (st : State) : State :=
  match st.sram.merge.find? (fun e => e.word == a) with
  | some e =>
    let e' := { e with bytes := mergeBytes e.bytes off bs }
    let st := { st with sram := { st.sram with
      merges := satAdd st.sram.merges 1
      merge := st.sram.merge.map (fun x => if x.word == a then e' else x) } }
    if e'.bytes.all (·.isSome) then retire e' st else st
  | none =>
    let st := if st.sram.merge.length < 8 then st else
      match st.sram.merge with
      | x :: _ => retire x st
      | [] => st
    { st with sram := { st.sram with
        merge := st.sram.merge ++ [{ word := a, bytes := mergeBytes (List.replicate 16 none) off bs }] } }

/-- Bytes written at a byte offset: whole words directly, the rest through the merge buffer (R555). -/
def sramWriteFuel : Nat → Nat → List Byte → State → State
  | 0, _, _, st => st
  | fuel + 1, off, bs, st =>
    if bs.isEmpty then st
    else if off % 16 == 0 && 16 ≤ bs.length then
      sramWriteFuel fuel (off + 16) (bs.drop 16)
        { st with sram := st.sram.writeWord (off / 16) (leVal (bs.take 16)) }
    else
      let n := min bs.length (16 - off % 16)
      sramWriteFuel fuel (off + n) (bs.drop n) (narrowWrite (off / 16) (off % 16) (bs.take n) st)

/-- Bytes written at a byte offset of the SRAM. -/
def sramWrite (off : Nat) (bs : List Byte) (st : State) : State := sramWriteFuel (bs.length / 16 + 3) off bs st

/-- `len` bytes, a multiple of 16, read at a word-aligned byte offset; false when a word was uncorrectable. -/
def sramRead (off len : Nat) (st : State) : List Byte × Bool × State := readWords (len / 16) (off / 16) st

/-- Every merge entry retires, as when HOLDUP or QUARANTINE is set (R556). -/
def retireAll (st : State) : State := st.sram.merge.foldl (fun st e => retire e st) st

/-! ### Places in the SRAM (R20, R230, R233, R296) -/

/-- Byte offset of glue-up slot `i`: P at its base, Q 64 KiB above. -/
def slotOff (i : Nat) : Nat := i * 0x20000

/-- Byte offset of a landing slot: 0 to 767 the landing buffers, 768 to 1,279 the accumulator (R233). -/
def landOff (i : Nat) : Nat := if i < 768 then 0x400000 + i * 0x1000 else 0x900000 + (i - 768) * 0x1000

/-- Byte offset of a write staging slot of 4 KiB. -/
def stageOff (i : Nat) : Nat := 0x700000 + i * 0x1000

/-- Byte offset of an accumulator slot of 4 KiB. -/
def accOff (i : Nat) : Nat := 0x900000 + i * 0x1000

/-! ### Scrubber (R559 to R561) -/

/-- The scrubber runs: enabled, SRAM zeroed, CORE clocked, and neither HOLDUP nor QUARANTINE (R559). -/
def scrubRuns (s : State) : Bool :=
  s.sram.scrubOn && !s.pins.inReset && 3 ≤ s.modes.stage.toNat
    && !(s.modes.mode == .standby) && !s.modes.holdup && !s.modes.quarantine

/-- The scrubber moves to the next word; at the end of a lap it records the lap (R561). -/
def scrubNext (s : State) : State :=
  if s.sram.scrubPos + 1 < sramWords then
    { s with sram := { s.sram with scrubPos := s.sram.scrubPos + 1 } }
  else
    raise 127 { s with
      sram := { s.sram with
        scrubPos := 0
        laps := s.sram.laps + 1
        lapMs := satAdd (0 : BitVec 16) ((s.now - s.sram.lapStart) / 1000)
        lapStart := s.now }
      stats := { s.stats with scrubLaps := s.stats.scrubLaps + 1 } }

/-- The scrubber reads its word: a correctable one waits for its rewrite (R559, R560). -/
def scrubOne (s : State) : State :=
  let a := s.sram.scrubPos
  if s.sram.merge.any (fun e => e.word == a) then scrubNext s
  else
    let w := s.sram.word a
    match sramClass w with
    | .clean => scrubNext s
    | .corrected f =>
      let s := sramNote a (synd w) (qParity w) false s
      scrubNext { s with sram := { s.sram with rewrites := s.sram.rewrites ++ [(a, BitVec.ofNat 137 f)] } }
    | .bad => scrubNext (sramNote a (synd w) (qParity w) true s)

/-- SCRUB_REWRITE: the oldest corrected word is written back; no other write has come between (R560). Scrubber
rewrites do not use an armed flip (R565). -/
def execScrubRewrite (s : State) : Out :=
  .next <|
    match s.sram.rewrites with
    | (a, w) :: rest =>
      { s with
        sram := { s.sram.putWord a w.toNat with rewrites := rest, fixed := s.sram.fixed + 1 }
        stats := { s.stats with scrubFixed := s.stats.scrubFixed + 1 } }
    | [] => s

/-- The SRAM_FLIP register written by the main core; a position above 136 leaves it unchanged (R565). -/
def writeFlip (v : Word) (s : State) : State :=
  let a := fld v.toNat 0 8
  let b := fld v.toNat 8 8
  let ben := bitAt v.toNat 30
  if 136 < a || (ben && 136 < b) then s
  else { s with sram := { s.sram with
    flipArm := bitAt v.toNat 31, flipB := ben, flipRegion := BitVec.ofNat 3 (fld v.toNat 24 3)
    flipPosB := BitVec.ofNat 8 b, flipPosA := BitVec.ofNat 8 a } }

end Sys2Proof.Machine
end

