-- ==== Sys2Proof/Machine/Codec.lean ====
section
/-!
DEFINITION. The page codec as functions on bytes: CRC-32C, the label, the randomiser, the LDPC code, encoding and the
result of a decode (R219 to R243).
-/
namespace Sys2Proof.Machine

/-! ### CRC-32C (R224) -/

/-- One bit of the reflected CRC. -/
def crcBit (c : Nat) : Nat := if c % 2 == 1 then (c / 2) ^^^ 0x82F63B78 else c / 2

/-- One byte of the reflected CRC. -/
def crcByte (c : Nat) (b : Byte) : Nat :=
  crcBit (crcBit (crcBit (crcBit (crcBit (crcBit (crcBit (crcBit (c ^^^ b.toNat))))))))

/-- CRC-32C of a byte string (R224). -/
def crc32c (l : List Byte) : Nat := (l.foldl crcByte 0xFFFFFFFF) ^^^ 0xFFFFFFFF

/-! ### Profiles (R220) -/

/-- Block rows of the parity-check matrix of a profile (R228). -/
def ldpcRows (profile : Nat) : Nat := 4 + 4 * profile

/-- Codeword length L in bytes (R220). -/
def cwLen (profile : Nat) : Nat := 4128 + 32 * ldpcRows profile

/-- Burst per plane in 32-byte units (R221). -/
def burstUnits (profile : Nat) : Nat := 4 * cwLen profile / 32

/-- Smallest pageBytes that holds a profile (R220). -/
def minPageBytes (profile : Nat) : Nat := 4 * cwLen profile

/-! ### The label (R223) -/

/-- What a label says besides its CRC. -/
structure Label where
  kind : Nat := 1
  profile : Nat := 1
  member : Nat := 0
  cw : Nat := 0
  group : Nat := 0
  width : Nat := 0
  row : Nat := 0
  stamp : Nat := 0
  sealW : Nat := 0
deriving DecidableEq, Repr

/-- Label bytes 0 to 27. -/
def Label.head (l : Label) : List Byte :=
  [BitVec.ofNat 8 l.kind, BitVec.ofNat 8 (0x10 + (l.profile - 1) % 4), BitVec.ofNat 8 l.member, BitVec.ofNat 8 (l.cw % 16)]
    ++ le 3 l.group ++ le 1 l.width ++ le 4 (l.row % 2 ^ 20) ++ le 4 l.stamp ++ le 12 l.sealW

/-- The 32 label bytes, with LCRC over the user bytes and label bytes 0 to 27. -/
def Label.bytes (l : Label) (data : List Byte) : List Byte := l.head ++ le 4 (crc32c (data ++ l.head))

/-- The fields of 32 label bytes. -/
def parseLabel (b : List Byte) : Label :=
  { kind := byteAt b 0, profile := byteAt b 1 % 4 + 1, member := byteAt b 2, cw := byteAt b 3 % 16
    group := leAt b 4 3, width := byteAt b 7, row := leAt b 8 4 % 2 ^ 20, stamp := leAt b 12 4, sealW := leAt b 16 12 }

/-! ### The randomiser (R225, R226) -/

/-- The seed of a codeword (R226). -/
def seed (block page slot : Nat) : Nat :=
  let s := (block % 2 ^ 16 ^^^ (page % 2 ^ 14) * 2 ^ 16 ^^^ slot * 2 ^ 27) % 2 ^ 31
  if s == 0 then 0x7FFFFFFF else s

/-- One step of the shift register: the new state, whose bit 0 is the bit emitted (R225). -/
def lfsrStep (s : Nat) : Nat := (s * 2 + b2n (xor (bitAt s 30) (bitAt s 27))) % 2 ^ 31

/-- `n` steps; the bits emitted, first emitted lowest. -/
def lfsrBits : Nat → Nat → Nat × Nat
  | 0, s => (0, s)
  | n + 1, s =>
    let s' := lfsrStep s
    let (v, e) := lfsrBits n s'
    (s' % 2 + 2 * v, e)

/-- `n` bytes of the stream (R225). -/
def stream : Nat → Nat → List Byte
  | 0, _ => []
  | n + 1, s =>
    let (v, e) := lfsrBits 8 s
    BitVec.ofNat 8 v :: stream n e

/-- Bytes 0 to 4,127 combined with the stream of a seed; the same function removes it again. -/
def randomise (sd : Nat) (b : List Byte) : List Byte := xorBytes b (stream b.length sd)

/-! ### The LDPC code (R228, R229) -/

/-- Block column `j` of a codeword. -/
def blockCol (cw : List Byte) (j : Nat) : BitVec 256 := BitVec.ofNat 256 (leVal (slice cw (32 * j) 32))

/-- Shift of the circulant of information column `j` at turn `t` (R228). -/
def circShift (j t r : Nat) : Nat := (37 * (j + 1) * (2 * r + 1) + 11 * t) % 256

/-- A circulant of shift `s` times a column: row x reads column (x + s) mod 256. -/
def circMul (v : BitVec 256) (s : Nat) : BitVec 256 := v.rotateRight s

/-- Syndrome part of block row `r` from the information columns. -/
def infoPart (m : Nat) (cw : List Byte) (r : Nat) : BitVec 256 :=
  (List.range 129).foldl (fun acc j =>
    (List.range 4).foldl (fun acc t =>
      if (j + t * (m / 4)) % m == r then acc ^^^ circMul (blockCol cw j) (circShift j t r) else acc) acc) 0

/-- The parity columns: p_0 = s_0, p_k = s_k xor p_(k-1) (R229). -/
def parityCols (cw : List Byte) (m : Nat) : Nat → Nat → BitVec 256 → List (BitVec 256)
  | 0, _, _ => []
  | n + 1, r, prev =>
    let p := infoPart m cw r ^^^ prev
    p :: parityCols cw m n (r + 1) p

/-- The parity bytes of 4,128 information bytes (R229). -/
def ldpcParity (profile : Nat) (info : List Byte) : List Byte :=
  ((parityCols info (ldpcRows profile) (ldpcRows profile) 0 0).map (fun p => le 32 p.toNat)).flatten

/-- The whole syndrome of a codeword: one 256-bit part for each block row (R228). -/
def syndrome (profile : Nat) (cw : List Byte) : List (BitVec 256) :=
  (List.range (ldpcRows profile)).map (fun r =>
    infoPart (ldpcRows profile) cw r ^^^ blockCol cw (129 + r)
      ^^^ if r == 0 then 0 else blockCol cw (128 + r))

/-- One bits of a number of at most `n` bits. -/
def ones : Nat → Nat → Nat
  | 0, _ => 0
  | n + 1, v => v % 2 + ones n (v / 2)

/-- One bits of a byte string. -/
def onesBytes (l : List Byte) : Nat := (l.map (fun b => ones 8 b.toNat)).sum

/-- Unsatisfied parity checks. -/
def unsat (profile : Nat) (cw : List Byte) : Nat := ((syndrome profile cw).map (fun p => ones 256 p.toNat)).sum

/-! ### Encoding (R230) -/

/-- A codeword as it is stored on flash: data and label randomised, parity appended (R219, R230). -/
def encodePlain (profile block page c : Nat) (plain : List Byte) : List Byte :=
  let info := randomise (seed block page c) plain
  info ++ ldpcParity profile info

/-- A codeword as it is stored on flash, from its data and what its label says. -/
def encodeCw (block page : Nat) (l : Label) (data : List Byte) : List Byte :=
  encodePlain l.profile block page l.cw (data ++ l.bytes data)

/-! ### Decoding (R236, R242, R243) -/

/-- What the codec expects of a codeword: its context (R233). -/
structure Ctx where
  profile : Nat
  block : Nat
  page : Nat
  cw : Nat
  group : Nat
  member : Nat
  row : Nat
  scan : Bool
deriving DecidableEq, Repr

/-- A decode: RESULT, the plain user bytes and label, and what the status record measures. -/
structure Decoded where
  result : Nat
  data : List Byte := []
  label : List Byte := []
  kind : Nat := 0
  iterations : Nat := 0
  corrected : Nat := 0
  ones : Nat := 0
  start : Nat := 0
  stop : Nat := 0
deriving DecidableEq, Repr

/-- Iteration limit of an engine kind (R237). -/
def iterLimit (kind : Nat) : Nat := if kind == 0 then 20 else if kind == 1 then 30 else 50

/-- One number per codeword bit of raw bytes. -/
def bitsInt (l : List Byte) : List Int :=
  (l.map (fun b => (List.range 8).map (fun i => if bitAt b.toNat i then (1 : Int) else 0))).flatten

/-- Hard decisions of LLRs: a positive LLR favours 0 (R264); LLR 0 is taken as a 1 (R278). -/
def hardOf : Nat → List Int → List Byte
  | 0, _ => []
  | n + 1, l => BitVec.ofNat 8 (bitsOf ((l.take 8).map (fun x => decide (x ≤ 0)))) :: hardOf n (l.drop 8)

/-- Steps 3 to 7 of a decode, on the engine's hard input and its input values (R236). -/
def ldpcDecode (kind : Nat) (c : Ctx) (hard : List Byte) (input : List Int) : Decoded :=
  let start := unsat c.profile hard
  let (it, out) :=
    if start == 0 then (0, hard)
    else
      let a := Config.ldpc kind c.profile input
      (max 1 (min a.1 (iterLimit kind)), padTo (cwLen c.profile) a.2)
  let stop := unsat c.profile out
  let corrected := min (onesBytes (xorBytes hard out)) 65535
  if stop != 0 then
    { result := 2, iterations := iterLimit kind, corrected := corrected, start := start, stop := stop }
  else
    let plain := randomise (seed c.block c.page c.cw) (out.take 4128)
    let data := plain.take 4096
    let lab := plain.drop 4096
    let l := parseLabel lab
    let d : Decoded := { result := 0, data := data, label := lab, kind := l.kind, iterations := it,
                         corrected := corrected, start := start }
    if leAt lab 28 4 != crc32c (data ++ lab.take 28) then { d with result := 3, data := [] }
    else if !c.scan && !(l.group == c.group && l.member == c.member && l.row == c.row && l.cw == c.cw) then
      { d with result := 4, data := [] }
    else { d with result := if start == 0 then 0 else 1 }

/-- Zero bits of a raw codeword (R236 step 1). -/
def zeroBits (raw : List Byte) : Nat := 8 * raw.length - onesBytes raw

/-- The raw bits with the test injection of R244: positions (n × 9,973) mod (8 × L). -/
def inject (profile bits : Nat) (raw : List Byte) : List Byte :=
  (List.range bits).foldl (fun r n =>
    let p := n * 9973 % (8 * cwLen profile)
    r.modify (p / 8) (fun b => b ^^^ BitVec.ofNat 8 (2 ^ (p % 8)))) raw

/-- A hard decode: the erased check, injection, then the decoder (R236). -/
def hardResult (c : Ctx) (erasedLimit injectBits : Nat) (raw : List Byte) : Decoded :=
  if raw.length != cwLen c.profile then { result := 8 }
  else if zeroBits raw ≤ erasedLimit then { result := 5, ones := onesBytes raw }
  else
    let b := inject c.profile injectBits raw
    { ldpcDecode 0 c b (bitsInt b) with ones := onesBytes raw }

/-- The 16-byte status record of a codeword (R242). -/
def statusRecord (c : Ctx) (engineKind engine lun job : Nat) (d : Decoded) : List Byte :=
  let ran := d.result ≤ 4
  let kind := if d.result == 3 || d.result == 4 || d.result ≤ 1 then d.kind else 0
  [BitVec.ofNat 8 (kind % 16 * 16 + c.cw), BitVec.ofNat 8 d.result,
   if ran then BitVec.ofNat 8 (engineKind * 64 + engine) else 0,
   if ran then BitVec.ofNat 8 d.iterations else 0]
    ++ le 2 (if ran then d.corrected else 0) ++ le 2 (if d.result == 8 then 0 else d.ones)
    ++ le 2 (if ran then d.start else 0) ++ le 2 (if ran then d.stop else 0) ++ le 2 (lun % 4096) ++ le 2 (job % 4096)

end Sys2Proof.Machine
end

