-- ==== Sys2Proof/Machine/Sched.lean ====
section
/-!
DEFINITION. LUNs and die types, directory entries, drawer items and jobs, landing slots and staging sets, the status an
entry ends with (R123, R161, R162, R233, R413).
-/
namespace Sys2Proof.Machine

/-! ### LUNs (R413) -/

/-- The LUN belongs to this block. -/
def ownLun (u : Nat) (s : State) : Bool := u / 512 == s.modes.dieId.toNat

/-- Local channel, chip enable and LUN number of a global LUN. -/
def lunChan (u : Nat) : Nat := u % 512 / 32
def lunCe (u : Nat) : Nat := u % 32 / 4
def lunNo (u : Nat) : Nat := u % 4

/-- Global LUN of a channel, chip enable and LUN of this block. -/
def globalLun (ch ce l : Nat) (s : State) : Nat := s.modes.dieId.toNat * 512 + ch * 32 + ce * 4 + l

/-- Die type of a LUN: the type in force on its chip enable (R187; another block's, log entry 10). -/
def lunType (u : Nat) (s : State) : Nat :=
  if ownLun u s then (chanAt (lunChan u) s).dieTypes.getD (lunCe u) 0 else Config.remoteDieType u

/-- A LUN of another block is reachable while that block is in the segment and has rejoined its lead (R430, R431). -/
def reachable (u : Nat) (s : State) : Bool := ownLun u s || bitAt s.dv.reach.toNat (u / 512)

/-- The LUN is present: its target is (R189), and its type has that many LUNs. -/
def lunPresent (u : Nat) (s : State) : Bool :=
  u < 4096 && lunNo u < die (lunType u s) 7 s
    && (if ownLun u s then bitAt (chanAt (lunChan u) s).present.toNat (lunCe u) else reachable u s)

/-- Blocks per plane of the LUN's die type. -/
def lunBlocks (u : Nat) (s : State) : Nat := die (lunType u s) 9 s

/-- Bits per cell of the LUN's die type. -/
def lunBits (u : Nat) (s : State) : Nat := die (lunType u s) 6 s

/-- Pages per block of the LUN's die type. -/
def lunPages (u : Nat) (s : State) : Nat := die (lunType u s) 8 s

/-- The present LUNs, ascending. -/
def presentLuns (s : State) : List Nat := (List.range 4096).filter (fun u => lunPresent u s)

/-- Record of a LUN. -/
def lunRec (u : Nat) (s : State) : LunRec := lookD {} u s.luns

/-- Record of a LUN changed; a record at its reset value is not listed. -/
def modLun (u : Nat) (f : LunRec → LunRec) (s : State) : State :=
  let r := f (lunRec u s)
  { s with luns := if r = {} then dropKey u s.luns else putAsc u r s.luns }

/-! ### Directory entries (R321) -/

/-- The directory entry of a group; a blank one where none is kept. -/
def dirAt (g : Nat) (s : State) : DirEntry :=
  (s.stripe.dir.find? (fun e => e.group == g)).getD { group := g }

/-- A group that exists: its entry is open or closed. -/
def groupExists (g : Nat) (s : State) : Bool := (dirAt g s).state == 1 || (dirAt g s).state == 2

/-- A group that a READ or WRITE may address: a refit target answers as if it did not exist (R359). -/
def groupServes (g : Nat) (s : State) : Bool :=
  groupExists g s && !((dirAt g s).refitTarget && s.bg.refitState != 0)

/-- The member word of a member. -/
def memberAt (g m : Nat) (s : State) : Member := (dirAt g s).members.getD m {}

/-- Members in MSTATE 0x1, 0x2 or 0x3 (R327). -/
def DirEntry.failedCount (e : DirEntry) : Nat := (e.members.filter (fun m => m.mstate != 0)).length

/-- FAILED bits (R327). -/
def DirEntry.failedBits (e : DirEntry) : Nat := bitsOf (e.members.map (fun m => m.mstate != 0))

/-- Insertion of an entry in ascending order of group. -/
def insertDir (e : DirEntry) : List DirEntry → List DirEntry
  | [] => [e]
  | x :: xs => if e.group < x.group then e :: x :: xs else if e.group == x.group then e :: xs
    else x :: insertDir e xs

/-- Some member of the group lies on a LUN that cannot be reached (R430). -/
def groupReachable (g : Nat) (s : State) : Bool := (dirAt g s).members.all (fun m => reachable m.lun s)

/-- A row written in the sense of R119. -/
def rowWritten (g r : Nat) (s : State) : Bool :=
  let e := dirAt g s
  r < e.nextRow && !(e.unwritten.contains r)

/-! ### Items and jobs (R161, R162) -/

/-- An item without its header: TYPE and bits [95:0]. -/
def mkItem (type : Nat) (fields : List (Nat × Nat)) : BitVec 128 :=
  BitVec.ofNat 128 (packFields ((124, type) :: fields))

/-- CE and LUN fields of an item. -/
def itemLun (u : Nat) : List (Nat × Nat) := [(61, lunCe u), (59, lunNo u)]

/-- Header of item `i` of `n` of a job (R161). -/
def headItem (prio handle n i : Nat) (rd : Bool) (it : BitVec 128) : BitVec 128 :=
  BitVec.ofNat 128 (packFields
    [(124, itemType it), (123, b2n (i == 0)), (122, b2n (i + 1 == n)), (120, prio), (119, b2n (i == 0 && rd)),
     (116, if i == 0 then n - 1 else i), (104, handle),
     (0, fld it.toNat 0 (if itemType it == 7 then 104 else 96))])

/-- Headers of every item of a job. -/
def headItems (prio handle n : Nat) (rd : Bool) : Nat → List (BitVec 128) → List (BitVec 128)
  | _, [] => []
  | i, it :: rest => headItem prio handle n i rd it :: headItems prio handle n rd (i + 1) rest

/-- The last item is a READ or SENSE item. -/
def endsInRead (items : List (BitVec 128)) : Bool :=
  match items.getLast? with
  | some it => itemType it == 1 || itemType it == 5
  | none => false

/-- The lowest handle from `h` on that no job holds. -/
def freeHandle (s : State) : Nat :=
  (findFrom (fun i => !(s.sched.jobs.any (fun j => j.handle == (s.sched.nextJob + i) % 4096))) 4096 0).getD 0
    + s.sched.nextJob

/-- The host address and length of the pieces that hold `len` bytes from position `pos` (R113). -/
def pieceAt : List (BitVec 64 × Nat) → Nat → Nat → List (Nat × Nat)
  | [], _, _ => []
  | (a, n) :: rest, pos, len =>
    if len == 0 then []
    else if n ≤ pos then pieceAt rest (pos - n) len
    else
      let k := min len (n - pos)
      (a.toNat + pos, k) :: pieceAt rest 0 (len - k)

/-- Codewords selected of one member: CW_MASK pairs and CW_HALF (R114, R117). -/
def cwSelect (mask half : Nat) : List Nat :=
  (List.range 16).filter (fun c => bitAt mask (c / 2) &&
    (half == 0 || (half == 1 && c % 2 == 0) || (half == 2 && c % 2 == 1)))

/-- Selected codewords of a READ entry, per member. -/
def Entry.selected (e : Entry) : List Nat := cwSelect e.cwMask.toNat (fld e.options.toNat 4 2)

/-- Position of codeword `c` of member `m` in delivery order (R113). -/
def Entry.posOf (e : Entry) (m c : Nat) : Nat :=
  (if e.member == 0xFF then m * e.selected.length else 0) + (e.selected.idxOf c)

/-- Pieces of host memory of each codeword that a job moves for its entry: address and bytes (R113, R415). -/
def jobPieces (j : Job) (s : State) : List (List (BitVec 64 × Nat)) :=
  let at_ (e : Entry) (k : Nat) : List (BitVec 64 × Nat) :=
    (pieceAt e.pieces (k * 4096) 4096).map (fun p => (BitVec.ofNat 64 p.1, p.2))
  match j.owner with
  | .write eid m =>
    match entryAt eid s with
    | some e => (List.range 16).map (fun c => at_ e ((if e.member == 0xFF then 16 * m else 0) + c))
    | none => []
  | .read eid =>
    match entryAt eid s with
    | some e => ((List.range 16).filter (fun c => bitAt j.cwMask.toNat c)).map (fun c => at_ e (e.posOf j.member c))
    | none => []
  | _ => []

/-- MAX_STEP of a job's reads (R251, R280, R347, R352, R358, R563). -/
def jobMaxStep (j : Job) (s : State) : Nat :=
  match j.owner with
  | .read eid => ((entryAt eid s).map (·.maxStep)).getD 0
  | .fix _ _ => 5
  | .row id => if (s.bg.runs.find? (fun r => r.id == id)).any (fun r => r.service == .refit) then 6 else 5
  | _ => 6

/-- KIND of the page that a job programs (R223). -/
def jobKind (j : Job) : Nat :=
  match j.owner with
  | .write _ _ => 1
  | .pad _ _ => 4
  | .parity _ m => if m == j.width then 2 else 3
  | _ => 0

/-- The page of the job is made on this block and follows its JOB message codeword by codeword (R415). -/
def linkPage (j : Job) : Bool :=
  match j.owner with
  | .spare _ | .target _ _ | .repair _ | .journal _ => true
  | _ => false

/-- The JOB message of a job (R415, R432). -/
def remoteOf (j : Job) (s : State) : RemoteIn :=
  { src := s.modes.dieId, handle := j.handle, lun := j.lun, prio := j.prio, items := j.items, block := j.block, page := j.page
    profile := j.profile, mask := j.cwMask, scan := j.scan, maxStep := jobMaxStep j s, group := j.group, member := j.member
    row := j.row, width := j.width, kind := jobKind j, stamp := j.stamp, sealW := j.sealW, addrs := jobPieces j s
    data := j.data, link := linkPage j }

/-- Payload of a JOB message (R432; DESIGN CHOICE, log entry 129): handle, priority, LUN, what the page is, items, addresses. -/
def remoteBytes (w : RemoteIn) : List Byte :=
  le 2 w.handle ++ [BitVec.ofNat 8 w.prio, BitVec.ofNat 8 (b2n w.go + 2 * b2n w.link + 4 * b2n w.scan)] ++ le 2 w.lun
    ++ le 2 w.block ++ le 4 w.page ++ le 1 w.profile ++ le 2 w.mask.toNat ++ le 1 w.maxStep ++ le 3 w.group ++ le 1 w.member
    ++ le 4 w.row ++ le 1 w.width ++ le 1 w.kind ++ le 4 w.stamp.toNat ++ le 12 w.sealW.toNat
    ++ (w.items.map (fun i => le 16 i.toNat)).flatten
    ++ (w.addrs.map (fun l => le 1 l.length ++ (l.map (fun p => le 8 p.1.toNat ++ le 4 p.2)).flatten)).flatten ++ w.data

/-- The block that owns a LUN (R413). -/
def lunDie (u : Nat) : BitVec 3 := BitVec.ofNat 3 (u / 512)

/-- A job of another block is known by its sender and handle. -/
def remoteKey (w : RemoteIn) : Nat := w.src.toNat * 0x1000 + w.handle

/-- A job of another block by its key. -/
def remoteAt (h : Nat) (s : State) : Option Remote := s.dv.remotes.find? (fun r => remoteKey r.work == h)

/-- A job of another block changed. -/
def modRemote (h : Nat) (f : Remote → Remote) (s : State) : State :=
  { s with dv := { s.dv with remotes := s.dv.remotes.map (fun r => if remoteKey r.work == h then f r else r) } }

/-- The FEATURE items of a job may be left out: its offsets are resident at its priority, and no job of the LUN at another
priority is in the drawer or running (R256). -/
def residentOk (j : Job) (s : State) : Bool :=
  (match (lunRec j.lun s).resident with
   | some (l, p) => p == j.prio && j.feats.all (fun f => l.contains f)
   | none => false)
    && s.sched.jobs.all (fun x => x.lun != j.lun || x.prio == j.prio || x.state == .ended || x.state == .held)

/-- The LUNs of a channel keep no resident offsets after a RETRY or RAW_JIG job (R256, R277). -/
def clearResident (u : Nat) (s : State) : State :=
  { s with luns := forgetResident ((s.luns.map (·.1)).filter (fun x => x / 32 == u / 32)) s.luns }

/-- A READ or SENSE item with tag 0x0 (R254). -/
def untagged (it : BitVec 128) : BitVec 128 := BitVec.ofNat 128 (it.toNat - fld it.toNat 36 4 * 2 ^ 36)

/-- What the placement of a job settles (R256): its FEATURE items are left out, with tag 0x0, where they are resident; what it
carries is resident from then on. -/
def resolveFeats (j : Job) (s : State) : Job × State :=
  let first := itemType (j.items.headD 0)
  let last := itemType (j.items.getLastD 0)
  if first == 0 || first == 6 then (j, clearResident j.lun s)
  else if !j.feats.isEmpty && endsInRead j.items && residentOk j s then
    ({ j with items := headItems j.prio j.handle 1 true 0 [untagged (j.items.getLastD 0)] }, s)
  else if !j.feats.isEmpty && (endsInRead j.items || last == 4) then
    (j, modLun j.lun (fun r => { r with resident := some (j.feats, j.prio) }) s)
  else (j, { s with luns := forgetResident [j.lun] s.luns })

/-- A job for a LUN of another block is sent there (R415). -/
def sendJob (j : Job) (s : State) : State :=
  let (j, s) := resolveFeats j (modJob j.handle (fun x => { x with state := .popped }) s)
  dvSend 0x10 (some (lunDie j.lun)) (remoteBytes (remoteOf j s)) s

/-- The job of another block whose data it has fetched goes on there: 1 programs the data, 4 pads, 0 nothing (R38, R415). -/
def sendGo (j : Job) (kind : Nat) (s : State) : State :=
  dvSend 0x10 (some (lunDie j.lun)) (remoteBytes { remoteOf j s with
    addrs := [], items := [], kind := kind, go := true }) (modJob j.handle (fun j => { j with dataWait := false }) s)

/-- A job joins the schedule: its handle and item headers are made (R161). A job for a LUN of another block is sent there
(R415), unless it waits for a dose record (R260). Answers the handle. -/
def addJob (j : Job) (s : State) : Nat × State :=
  let h := freeHandle s % 4096
  let j := { j with handle := h, ch := lunChan j.lun
                    items := headItems j.prio h j.items.length (endsInRead j.items) 0 j.items }
  let s := { s with sched := { s.sched with nextJob := (h + 1) % 4096, jobs := s.sched.jobs ++ [j] } }
  if ownLun j.lun s || j.doseWait then (h, s) else (h, sendJob j s)

/-- Row address field of a page (log entry 9). -/
def rowOf (u block page : Nat) (s : State) : Nat := Config.rowAddr (lunType u s) block page % 2 ^ 24

/-- A PROGRAM item: all four planes, the pass of R193, a staging handle. -/
def programItem (u block page profile handle : Nat) (s : State) : BitVec 128 :=
  let pass := if die (lunType u s) 0x1A s == 1 then page % (max 1 (lunBits u s)) else 0
  mkItem 2 (itemLun u ++ [(72, rowOf u block page s), (68, 15), (56, pass), (16, handle), (0, burstUnits profile)])

/-- A READ or SENSE item. -/
def readItem (type u block page profile planes mask tag step buf : Nat) (s : State) : BitVec 128 :=
  mkItem type (itemLun u ++ [(72, rowOf u block page s), (68, planes), (40, mask), (36, tag), (32, step), (16, buf),
    (0, burstUnits profile)])

/-- Planes that hold the codewords of a mask (R221). -/
def planesOf (mask : Nat) : Nat := bitsOf ((List.range 4).map (fun p => fld mask (4 * p) 4 != 0))

/-- A PROGRAM job of a page. -/
def addProgram (owner : Owner) (u block page profile prio handle : Nat) (s : State) : Nat × State :=
  addJob { owner := owner, lun := u, prio := prio, block := block, page := page, profile := profile, buf := handle
           cwMask := 0xFFFF, items := [programItem u block page profile handle s] } s

/-- Searches on a block are withdrawn when its erase is placed (R273), with their jobs. -/
def dropSearches (u block : Nat) (s : State) : State :=
  let gone := (s.recov.searches.filter (fun q => q.lun == u && q.block == block)).map (·.id)
  withdraw (fun j => match j.owner with | .truing id => gone.contains id | _ => false)
    { s with recov := { s.recov with
      searches := s.recov.searches.filter (fun q => !(q.lun == u && q.block == block))
      cache := s.recov.cache.filter (fun c => !(c.lun == u && c.block == block)) } }

/-- An ERASE job of an erase block set; searches on the block end and its truing entries go (R273, R274). -/
def addErase (owner : Owner) (u block prio : Nat) (s : State) : Nat × State :=
  addJob { owner := owner, lun := u, prio := prio, block := block
           items := [mkItem 3 (itemLun u ++ [(72, rowOf u block 0 s), (68, 15)])] } (dropSearches u block s)

/-! ### Landing slots and staging sets (R20, R230, R233) -/

/-- The accumulator is lent to reads while no ACCUM_OPEN is active; none starts there once one is fetched (R21). -/
def landingSlots (s : State) : Nat :=
  let asked := s.sched.entries.any (fun e => e.opcode == 0x30 && (e.phase == .fetched || e.phase == .waiting))
  if s.media.accum == 0 && !asked then 1280 else 768

/-- A work area of 8 slots from `w` takes slot `i` (R239). -/
def areaHas (w : Option Nat) (i : Nat) : Bool :=
  match w with
  | some w => w ≤ i && i < w + 8
  | none => false

/-- A codeword takes slot `i`: its own, and for a scan read the next one too (R233). -/
def Cw.holds (c : Cw) (i : Nat) : Bool := c.slot == i || (c.wide && c.slot + 1 == i)

/-- A landing slot that no codeword and no work area holds. -/
def landFree (s : State) (i : Nat) : Bool :=
  !(s.sched.cws.any (fun c => c.holds i || areaHas c.work i)) && !(s.recov.searches.any (fun q => areaHas q.work i))

/-- `n` consecutive free slots from `i`. -/
def runFree (s : State) (n i : Nat) : Bool := (List.range n).all (fun k => landFree s (i + k))

/-- The lowest place for `n` consecutive slots (R233). -/
def findLanding (s : State) (n : Nat) : Option Nat :=
  findFrom (runFree s n) (landingSlots s + 1 - n) 0

/-- A staging set of 16 slots that neither an entry nor a job of the lead block holds. -/
def stageFree (s : State) (i : Nat) : Bool :=
  !(s.sched.entries.any (fun e => e.stage.any (fun p => p.2 == i))) && !(s.dv.remotes.any (fun r => r.stage == some i))

/-- The lowest free staging set of the 32. -/
def findStage (s : State) : Option Nat := findFrom (stageFree s) 32 0

/-! ### Status (R122, R123) -/

/-- Order in which the statuses of a started entry apply (R122): lower comes first. -/
def statusRank (st : Nat) : Nat :=
  if st == 0x50 then 0 else if st == 0x12 then 1 else if st == 0x11 then 2 else if st == 0x10 then 3
  else if st == 0x40 then 4 else if st == 0x32 then 5 else if st == 0x30 then 6 else if st == 0x02 then 7
  else if st == 0x01 then 8 else 9

/-- A status found for a started entry; the one that R122 puts first stays. MEMBER_FAILED keeps its lowest index and
DATA_LOST its highest cause (R123, R332). Of two NAND_FAIL the first noted stays (DESIGN CHOICE, log entry 102). -/
def noteStatus (eid st detail : Nat) (s : State) : State :=
  modEntry eid (fun e =>
    let cur := e.status.toNat
    if statusRank st < statusRank cur then { e with status := BitVec.ofNat 8 st, detail := BitVec.ofNat 8 detail }
    else if st == cur && st == 0x32 && detail < e.detail.toNat then { e with detail := BitVec.ofNat 8 detail }
    else if st == cur && st == 0x30 && e.detail.toNat < detail then { e with detail := BitVec.ofNat 8 detail }
    else e) s

/-- The entry is an accepted WRITE_ROW. -/
def isWrite (e : Entry) : Bool := e.opcode == 1

/-- A data transfer of the entry is outstanding. -/
def dataOut (eid : Nat) (s : State) : Bool :=
  (s.host.reads ++ s.host.writes ++ s.host.stalled ++ s.host.rstalled).any (fun r =>
    match r.what with | .data e _ => e == eid | _ => false)

/-- Fenced opcodes (R118). -/
def fencedOp (op : Nat) : Bool :=
  op == 0x01 || op == 0x03 || op == 0x10 || op == 0x20 || op == 0x21 || op == 0x22 || op == 0x23

/-- DETAIL of a WRITE_FENCED completion: the lowest cause that holds (R123). -/
def fenceDetail (m : Modes) : Nat := if m.fenceOv then 1 else if m.fenceJournal then 2 else 3

end Sys2Proof.Machine
end

