-- ==== Sys2Proof/Machine/Cabinet.lean ====
section
/-!
DEFINITION. The Cabinet: words, sector headers, the service routine, the mark row and the event log (R525 to R548).
Dirad's own writes (log, anchors, saved dictionary, images) take effect in the step that asks for them (log entry 11).
-/
namespace Sys2Proof.Machine

/-! ### Words (R526) -/

/-- The value of an erased word. -/
def erasedWord : Nat := 2 ^ 64 - 1

/-- A word of a list in which erased words are not listed. -/
def wordIn (l : List (Nat × BitVec 64)) (k : Nat) : Nat := ((l.lookup k).map (·.toNat)).getD erasedWord

/-- A word stored; an erased word is not listed. -/
def putIn (l : List (Nat × BitVec 64)) (k v : Nat) : List (Nat × BitVec 64) :=
  if BitVec.ofNat 64 v == BitVec.ofNat 64 erasedWord then dropKey k l else putAsc k (BitVec.ofNat 64 v) l

/-- `n` words from `k`, as bytes. -/
def bytesIn (l : List (Nat × BitVec 64)) (k n : Nat) : List Byte :=
  ((List.range n).map (fun i => le 8 (wordIn l (k + i)))).flatten

/-- Every word from `k` is erased. -/
def erasedIn (l : List (Nat × BitVec 64)) (k n : Nat) : Bool := !(l.any (fun p => k ≤ p.1 && p.1 < k + n))

/-- The 8-byte words of a byte string, padded with zero bytes. -/
def wordsOf : Nat → List Byte → List Nat
  | 0, _ => []
  | n + 1, bs => leVal (padTo 8 (bs.take 8)) :: wordsOf n (bs.drop 8)

/-- Words stored from `k` on. -/
def putWords (l : List (Nat × BitVec 64)) (k : Nat) : List Nat → List (Nat × BitVec 64)
  | [] => l
  | v :: vs => putWords (putIn l k v) (k + 1) vs

def Cabinet.word (c : Cabinet) (k : Nat) : Nat := wordIn c.words k

/-- Bytes of a sector area: `n` words from word `w` of sector `s`. -/
def cabBytes (s w n : Nat) (st : State) : List Byte := bytesIn st.cab.words (s * 512 + w) n

/-- A sector wholly erased. -/
def sectorErased (s : Nat) (st : State) : Bool := erasedIn st.cab.words (s * 512) 512

/-! ### Sector headers (R536) -/

def doneWord : Nat := 0xD0E5D0E5D0E5D0E5
def failWord : Nat := 0xFA11FA11FA11FA11

/-- ERASE_COUNT of a half whose HCRC passes (R536). Half 0 is A, half 1 is B.
An erased half is not valid, though the CRC of an erased count is itself erased: R537 and R538 need it so
(DEDUCED, log entry 69). -/
def halfCount (c : Cabinet) (s half : Nat) : Option Nat :=
  let w := wordIn c.heads (s * 8 + half * 4)
  let count := w % 2 ^ 32
  if w != erasedWord && w / 2 ^ 32 == crc32c (le 4 count) then some count else none

/-- The half in force and its ERASE_COUNT (R536). -/
def halfInForce (c : Cabinet) (s : Nat) : Option (Nat × Nat) :=
  match halfCount c s 0, halfCount c s 1 with
  | some a, some b => if a < b then some (1, b) else some (0, a)
  | some a, none => some (0, a)
  | none, some b => some (1, b)
  | none, none => none

/-- ERASE_COUNT of a sector. -/
def eraseCount (c : Cabinet) (s : Nat) : Nat := ((halfInForce c s).map (·.2)).getD 0

def sectorFailed (c : Cabinet) (s : Nat) : Bool :=
  match halfInForce c s with
  | some (h, _) => wordIn c.heads (s * 8 + h * 4 + 2) == failWord
  | none => false

def sectorInterrupted (c : Cabinet) (s : Nat) : Bool :=
  match halfInForce c s with
  | some (h, _) => !(sectorFailed c s) && wordIn c.heads (s * 8 + h * 4 + 1) != doneWord
  | none => false

/-- Steps 1 to 3 of an erase: the other half takes the next count (R537). -/
def startHeader (c : Cabinet) (s : Nat) : Cabinet :=
  if sectorInterrupted c s then c
  else
    let h := match halfInForce c s with | some (h, _) => 1 - h | none => 0
    let n := eraseCount c s + 1
    let heads := c.heads.filter (fun p => !(s * 8 + h * 4 ≤ p.1 && p.1 < s * 8 + h * 4 + 4))
    { c with heads := putIn heads (s * 8 + h * 4) (n % 2 ^ 32 + crc32c (le 4 n) * 2 ^ 32) }

/-- The half in force is erased again, as an erase cut off in its step 2 or 3 leaves it: the old half is in force, or none (R538). -/
def undoHeader (c : Cabinet) (s : Nat) : Cabinet :=
  match halfInForce c s with
  | some (h, _) => { c with heads := c.heads.filter (fun p => !(s * 8 + h * 4 ≤ p.1 && p.1 < s * 8 + h * 4 + 4)) }
  | none => c

/-- Step 5 of an erase: DONE or FAIL in the half in force (R537). -/
def endHeader (c : Cabinet) (s : Nat) (ok : Bool) : Cabinet :=
  match halfInForce c s with
  | some (h, _) =>
    { c with heads := putIn c.heads (s * 8 + h * 4 + if ok then 1 else 2) (if ok then doneWord else failWord) }
  | none => c

/-- The data of a sector erased. -/
def clearSector (c : Cabinet) (s : Nat) : Cabinet :=
  { c with words := c.words.filter (fun p => p.1 / 512 != s) }

/-- A Cabinet fault: source 251 and cabinetFaults (R548, R549). -/
def cabFault (cause sector status : Nat) (st : State) : State :=
  raisePriv 251 false ([BitVec.ofNat 8 cause, 0] ++ le 2 sector ++ le 4 (status % 2 ^ 32))
    { st with stats := { st.stats with cabinetFaults := st.stats.cabinetFaults + 1 } }

/-- The low half of the status word of an operation: SECTOR and PROGRESS (R535). -/
def faultStatus (sector progress : Nat) : Nat := packFields [(16, sector), (0, progress)]

/-- The count of a sector that an erase has just started reaches 100,000 (R537). -/
def noteEndurance (s : Nat) (st : State) : State :=
  if eraseCount st.cab s == 100000 then cabFault 5 s (faultStatus s 0) st else st

/-- An erase that Dirad runs for itself, to its end. -/
def eraseSector (s : Nat) (st : State) : State :=
  let redo := sectorInterrupted st.cab s
  let st := { st with cab := endHeader (clearSector (startHeader st.cab s) s) s true }
  if redo then st else noteEndurance s st

/-- Words that Dirad programs for itself. -/
def storeWords (s w : Nat) (vs : List Nat) (st : State) : State :=
  { st with cab := { st.cab with words := putWords st.cab.words (s * 512 + w) vs } }

/-- Bytes that Dirad programs for itself, in whole words. -/
def storeBytes (s w : Nat) (bs : List Byte) (st : State) : State :=
  storeWords s w (wordsOf ((bs.length + 7) / 8) bs) st

/-- The next sector of a ring of sectors that is not FAILED (R538). -/
def nextSector (first count cur : Nat) (st : State) : Nat :=
  ((findFrom (fun i => !(sectorFailed st.cab (first + (cur - first + 1 + i) % count))) count 0).map
    (fun i => first + (cur - first + 1 + i) % count)).getD cur

/-! ### The service routine (R528 to R535) -/

/-- The routine returns (R528). -/
def cabReturn (a0 a1 a2 : Nat) (st : State) : State := { st with cab := { st.cab with ret := (a0, a1, a2) } }

/-- A call reaches the controller only from the boot ROM; another command write is ignored and counted (R528). -/
def asRoutine (c : Caller) (st : State) (t : State) : State := if c.boot then t else cabFault 4 0 0 st

/-- An operation runs: a program, or an erase, suspended or not. -/
def cabBusy (c : Cabinet) : Bool := c.prog.isSome || c.erase.isSome

/-- The blank check of a word (R532). -/
def blankOk (clearOnly : Bool) (old new : Nat) : Bool :=
  old == erasedWord || (clearOnly && new &&& old == new)

/-- The blank check of every word of a call. -/
def blankAll (l : List (Nat × BitVec 64)) (clearOnly : Bool) (k : Nat) : List (BitVec 64) → Bool
  | [] => true
  | v :: vs => blankOk clearOnly (wordIn l k) v.toNat && blankAll l clearOnly (k + 1) vs

/-- Word addresses of a call, ascending. -/
def number (k : Nat) : List (BitVec 64) → List (Nat × BitVec 64)
  | [] => []
  | v :: vs => (k, v) :: number (k + 1) vs

/-- PROGRAM (R529, R530, R532, R534): the first failing check gives the result. -/
def execProgram (caller : Caller) (sector word : Nat) (data : List (BitVec 64)) (clearOnly suspendOk : Bool)
    (s : State) : Out :=
  .next <| asRoutine caller s <|
    let c := s.cab
    let eraseBars := match c.erase with
      | some e => !suspendOk || e.sector == sector
      | none => false
    if !caller.ok then cabReturn 0x11 0 0 s
    else if s.modes.holdup then cabReturn 0x15 0 0 s
    else if c.prog.isSome || eraseBars then cabReturn 0x10 0 0 s
    else if !(sector < 2048 && word < 512 && 1 ≤ data.length && word + data.length ≤ 512) || sectorFailed c sector then
      cabReturn 0x13 0 0 s
    else if !(blankAll c.words clearOnly (sector * 512 + word) data) then cabReturn 0x12 0 0 s
    else cabReturn 0x01 0 0 { s with cab := { c with
      prog := some { op := 1, sector := sector, words := number (sector * 512 + word) data, clearOnly := clearOnly }
      erase := c.erase.map (fun e => { e with suspended := true, auto := e.auto || !e.suspended }) } }

/-- ERASE (R529, R530, R537): the header takes its count as the erase starts. -/
def execErase (caller : Caller) (sector : Nat) (s : State) : Out :=
  .next <| asRoutine caller s <|
    let c := s.cab
    if !caller.ok then cabReturn 0x11 0 0 s
    else if s.modes.holdup then cabReturn 0x15 0 0 s
    else if cabBusy c then cabReturn 0x10 0 0 s
    else if !(sector < 2048) || sectorFailed c sector then cabReturn 0x13 0 0 s
    else
      let s' := cabReturn 0x01 0 0 { s with cab := { startHeader c sector with
        erase := some { op := 2, sector := sector, redo := sectorInterrupted c sector } } }
      if sectorInterrupted c sector then s' else noteEndurance sector s'

/-- SUSPEND (R539). -/
def execSuspend (caller : Caller) (s : State) : Out :=
  .next <| asRoutine caller s <|
    match s.cab.erase with
    | some e =>
      if e.suspended then cabReturn 0x16 0 0 s
      else cabReturn 0 0 0 { s with cab := { s.cab with erase := some { e with suspended := true } } }
    | none => cabReturn 0x16 0 0 s

/-- RESUME (R539). An erase that HOLDUP suspended is not resumed. -/
def execResume (caller : Caller) (s : State) : Out :=
  .next <| asRoutine caller s <|
    match s.cab.erase with
    | some e =>
      if e.suspended && s.cab.prog.isNone && !s.modes.holdup then
        cabReturn 0 0 0 { s with cab := { s.cab with erase := some { e with suspended := false, auto := false } } }
      else cabReturn 0x16 0 0 s
    | none => cabReturn 0x16 0 0 s

/-- Code of an operation's state: suspended, or, of a running one, pulsing, verifying or an erase's header update, which is a
free value (R535). -/
def cabPhase (o : CabOp) (s : State) : Nat :=
  if o.suspended then 3
  else if o.op == 2 then [1, 2, 4].getD (Config.freeNat s.freeCtr % 3) 1
  else 1 + Config.freeNat s.freeCtr % 2

/-- The status word of an operation (R535); the progress of a running operation is a free value. -/
def cabStatusWord (o : CabOp) (s : State) : Nat :=
  packFields [(48, 0xCAB1), (40, o.op.toNat), (32, cabPhase o s), (16, o.sector),
    (0, Config.freeNat (s.freeCtr + 1) % (if o.op == 2 then 17 else o.words.length + 1))]

/-- The operation that STATUS shows: the program, else the erase. -/
def cabCurrent (c : Cabinet) : Option CabOp := match c.prog with | some p => some p | none => c.erase

/-- STATUS (R529, R535): the status word in a1 and a2, zero when idle. -/
def execStatus (caller : Caller) (s : State) : Out :=
  .next <| asRoutine caller s <|
    match cabCurrent s.cab with
    | some o =>
      let w := cabStatusWord o s
      cabReturn 0 (w % 2 ^ 32) (w / 2 ^ 32) { s with freeCtr := s.freeCtr + 2 }
    | none => cabReturn 0 0 0 s

/-! ### What the cores read (R525, R535, R543, R548) -/

/-- MARK_LOCK hides a byte of the mark row: VENDOR_KEY, and the image key of every slot (R543). -/
def keyByte (off : Nat) : Bool :=
  (0x48 ≤ off && off < 0x68) || (0x200 ≤ off && off < 0x380 && 48 ≤ (off - 0x200) % 96 && (off - 0x200) % 96 < 80)

/-- The byte at an offset of the array range while no operation hides it (R525). -/
def arrayByte (k : Nat) (s : State) : Nat :=
  if k < 0x800000 then fld (s.cab.word (k / 8)) (8 * (k % 8)) 8
  else if k < 0x800400 then
    if s.cab.markLocked && keyByte (k - 0x800000) then 0
    else fld (wordIn s.cab.mark ((k - 0x800000) / 8)) (8 * (k % 8)) 8
  else if 0x810000 ≤ k && k < 0x830000 then fld (wordIn s.cab.heads ((k - 0x810000) / 8)) (8 * (k % 8)) 8
  else 0

/-- The operation whose status word a read at an offset returns in place of data (R535). -/
def hidingOp (k : Nat) (c : Cabinet) : Option CabOp :=
  match c.prog, c.erase with
  | some p, _ => some p
  | none, some e =>
    let inside := k / 4096 == e.sector && k < 0x800000
    let header := 0x810000 ≤ k && k < 0x830000 && (k - 0x810000) / 64 == e.sector
    if !e.suspended || inside || header then some e else none
  | none, none => none

/-- CAB_STATUS and CAB_RESULT as one word (R548). -/
def cabRegisters (s : State) : Nat :=
  let status := match cabCurrent s.cab with
    | some o => packFields [(24, o.op.toNat), (16, cabPhase o s), (0, o.sector)]
    | none => 0
  status + 2 ^ 32 * packFields [(8, s.cab.resultWord.toNat), (0, s.cab.result.toNat)]

/-- A core's read of 1, 2, 4 or 8 aligned bytes at an offset of the array range; a read that takes in CAB_RESULT clears RESULT
(R525, R535, R548). No row of the table commands it: the cores' own firmware reads so. -/
def cabCoreRead (k n : Nat) (s : State) : Nat × State :=
  if 0xFFF000 ≤ k && k < 0xFFF008 then
    let hit := k ≤ 0xFFF004 && 0xFFF004 < k + n
    (fld (cabRegisters s) (8 * (k % 8)) (8 * n), { s with
      freeCtr := s.freeCtr + 1, cab := { s.cab with result := if hit then 0 else s.cab.result } })
  else
    match hidingOp k s.cab with
    | some o => (fld (cabStatusWord o s) (8 * (k % 8)) (8 * n), { s with freeCtr := s.freeCtr + 2 })
    | none => (leVal ((List.range n).map (fun i => BitVec.ofNat 8 (arrayByte (k + i) s))), s)

/-- COUNT (R529). -/
def execCount (caller : Caller) (sector : Nat) (s : State) : Out :=
  .next <| asRoutine caller s <|
    if sector < 2048 then
      cabReturn 0 (eraseCount s.cab sector)
        (b2n (sectorInterrupted s.cab sector) + 2 * b2n (sectorFailed s.cab sector)) s
    else cabReturn 0x13 0 0 s

/-! ### The mark row (R540 to R544) -/

/-- Bytes of the mark row. -/
def markBytes (off len : Nat) (s : State) : List Byte := slice (bytesIn s.cab.mark 0 128) off len

/-- The factory part passes CHECK (R540). -/
def factoryOk (s : State) : Bool := leAt (markBytes 0x1F8 4 s) 0 4 == crc32c (markBytes 0 0x1F8 s)

/-- Customer key slot `i` is wholly erased. -/
def slotBlank (i : Nat) (s : State) : Bool := erasedIn s.cab.mark (64 + 12 * i) 12

/-- The slot in force: the highest-numbered one not wholly erased (R541). -/
def slotInForce (s : State) : Option Nat := ((List.range 4).reverse).find? (fun i => !(slotBlank i s))

/-- The slot in force passes its CRC (R541). -/
def slotValid (i : Nat) (s : State) : Bool :=
  leAt (markBytes (0x200 + 96 * i + 92) 4 s) 0 4 == crc32c (markBytes (0x200 + 96 * i) 92 s)

/-- The lowest wholly erased slot (R544). -/
def nextSlot (s : State) : Option Nat := (List.range 4).find? (fun i => slotBlank i s)

/-- Leading zero bits of a byte string, from bit 0 of byte 0 (R542). -/
def leadZeros : List Bool → Nat
  | false :: bs => leadZeros bs + 1
  | _ => 0

/-- The value of a floor (R542); `off` is 0x380 or 0x3A0. -/
def floorAt (off : Nat) (s : State) : Nat :=
  leadZeros ((markBytes off 32 s).map (fun b => (List.range 8).map (fun i => bitAt b.toNat i))).flatten

/-- The words of a call may be written in the current mode (R544). -/
def markAllowed (word n : Nat) (clearOnly : Bool) (s : State) : Bool :=
  (clearOnly && 112 ≤ word && word + n ≤ 120)
    || (!clearOnly && s.modes.factory && word + n ≤ 64 && erasedIn s.cab.mark 0 64)
    || (!clearOnly && s.modes.factory && factoryOk s &&
      match nextSlot s with
      | some i => 64 + 12 * i ≤ word && word + n ≤ 76 + 12 * i
      | none => false)

/-- MARK_PROGRAM (R529, R530, R544). -/
def execMarkProgram (caller : Caller) (word : Nat) (data : List (BitVec 64)) (clearOnly : Bool) (s : State) : Out :=
  .next <| asRoutine caller s <|
    if !caller.ok then cabReturn 0x11 0 0 s
    else if s.modes.holdup then cabReturn 0x15 0 0 s
    else if cabBusy s.cab then cabReturn 0x10 0 0 s
    else if !(word < 128 && 1 ≤ data.length && word + data.length ≤ 128) then cabReturn 0x13 0 0 s
    else if !(markAllowed word data.length clearOnly s) then cabReturn 0x14 0 0 s
    else if !(blankAll s.cab.mark clearOnly word data) then cabReturn 0x12 0 0 s
    else cabReturn 0x01 0 0 { s with cab := { s.cab with
      prog := some { op := 3, words := number word data, clearOnly := clearOnly } } }

/-- MARK_LOCK (R543): the keys read zero until the next reset. -/
def execMarkLock (caller : Caller) (s : State) : Out :=
  .next <| asRoutine caller s <| cabReturn 0 0 0 { s with cab := { s.cab with markLocked := true } }

/-! ### End of an operation (R529, R533, R537, R539) -/

/-- Words of a program call stored in its array. -/
def applyWords (o : CabOp) (ws : List (Nat × BitVec 64)) (c : Cabinet) : Cabinet :=
  if o.op == 3 then { c with mark := ws.foldl (fun l p => putIn l p.1 p.2.toNat) c.mark }
  else { c with words := ws.foldl (fun l p => putIn l p.1 p.2.toNat) c.words }

/-- The word at which a program call fails: bits it should clear may or may not have cleared (R526, R533). -/
def failedWord (o : CabOp) (k : Nat) (new : Nat) (s : State) : State :=
  let (f, s) := takeFree s
  let old := wordIn (if o.op == 3 then s.cab.mark else s.cab.words) k
  { s with cab := applyWords o [(k, BitVec.ofNat 64 (old &&& (new ||| f)))] s.cab }

/-- The result of an operation is posted and source 126 raised (R529). -/
def cabEnd (result word : Nat) (s : State) : State :=
  raise 126 { s with cab := { s.cab with result := BitVec.ofNat 8 result, resultWord := BitVec.ofNat 8 word } }

/-- A program call ends: the erase it suspended goes on. -/
def progGone (c : Cabinet) : Cabinet :=
  { c with prog := none, erase := c.erase.map (fun e => if e.auto then { e with suspended := false, auto := false } else e) }

/-- A program call ends after `n` words, well or with VERIFY_FAIL at the next word (R533). -/
def endProgram (o : CabOp) (verified : Bool) (n : Nat) (s : State) : State :=
  let s := { s with cab := progGone s.cab }
  let last (i : Nat) : Nat := (o.words.map (fun p => p.1 % 512)).getD i 0
  if verified || o.words.length ≤ n then
    cabEnd 0 (last (o.words.length - 1)) { s with cab := applyWords o o.words s.cab }
  else
    let s := { s with cab := applyWords o (o.words.take n) s.cab }
    let s := match o.words[n]? with
      | some (k, v) => failedWord o k v.toNat s
      | none => s
    cabFault 1 o.sector (faultStatus o.sector n) (cabEnd 0x20 (last n) s)

/-- The data of a sector whose erase failed is a free value, word by word. -/
def freeSector (sec : Nat) (s : State) : State :=
  let vs := (List.range 512).map (fun i => Config.freeNat (s.freeCtr + i))
  { s with
    freeCtr := s.freeCtr + 512
    cab := { s.cab with words := putWords (clearSector s.cab sec).words (sec * 512) vs } }

/-- A sector's erase fails after 16 pulses: FAIL, and source 251 with cause 2 (R537). -/
def eraseFails (sec : Nat) (s : State) : State :=
  let s := freeSector sec s
  cabFault 2 sec (faultStatus sec 16) { s with cab := endHeader s.cab sec false }

/-- An erase ends: DONE, or FAIL after 16 pulses (R537). -/
def endErase (o : CabOp) (verified : Bool) (s : State) : State :=
  let s := { s with cab := { s.cab with erase := none } }
  if verified then cabEnd 0 0 { s with cab := endHeader (clearSector s.cab o.sector) o.sector true }
  else eraseFails o.sector (cabEnd 0x21 0 s)

/-- CABINET_OP_END: the running operation ends; a suspended erase does not. -/
def execCabinetOpEnd (verified : Bool) (wordsDone : Nat) (s : State) : Out :=
  .next <|
    match s.cab.prog, s.cab.erase with
    | some p, _ => endProgram p verified wordsDone s
    | none, some e => if e.suspended then s else endErase e verified s
    | none, none => s

/-- HOLDUP reaches the Cabinet: a program call ends with CUT after the word in pulse, an erase is suspended for good
(R82, R539). How far the call had come is a free value: the word in pulse is one of its words, and it finishes. -/
def cabHoldup (s : State) : State :=
  let s : State := match s.cab.prog with
    | some p =>
      let (f, s) := takeFree s
      let n := f % max 1 p.words.length + 1
      cabEnd 0x22 ((p.words.map (fun q => q.1 % 512)).getD (n - 1) 0)
        { s with cab := { applyWords p (p.words.take n) s.cab with prog := none } }
    | none => s
  { s with cab := { s.cab with erase := s.cab.erase.map (fun e => { e with suspended := true, auto := false }) } }

/-! ### The event log (R545, R546) -/

/-- Sector and slot within it of a log slot. -/
def logSector (i : Nat) : Nat := 0x400 + i / 64 % 768

/-- Sector after a log sector, failed ones passed over. -/
def logNext (sec : Nat) (s : State) : Nat := nextSector 0x400 768 sec s

/-- The log slot to write: in a failed sector, the first slot of the next sector that is not. -/
def logPlace (s : State) : Nat :=
  let i := s.cab.logSlot
  if sectorFailed s.cab (logSector i) then (logNext (logSector i) s - 0x400) * 64 else i

/-- A record written to the log; slot 0 of a sector erases the next sector (R545). -/
def writeLog (rec : List Byte) (s : State) : State :=
  let i := logPlace s
  let head := padTo 32 rec ++ le 8 (s.cab.lseq + 1)
  let s := if i % 64 == 0 then eraseSector (logNext (logSector i) s) s else s
  let s := storeWords (logSector i) (i % 64 * 8) (wordsOf 5 head) s
  let s := storeWords (logSector i) (i % 64 * 8 + 7) [crc32c head] s
  { s with cab := { s.cab with lseq := s.cab.lseq + 1, logSlot := (i + 1) % 49152 } }

/-- LOG_RECORD_COPY: the main core writes the oldest record of its copy queue, else the oldest of its own records, to
the log; not in HOLDUP, and not while another program runs (R530, R545, R546). -/
def execLogRecordCopy (s : State) : Out :=
  .next <|
    if s.modes.holdup || s.cab.prog.isSome then s
    else
      match s.evq.copy, s.evq.logged with
      | r :: rest, _ => writeLog r { s with evq := { s.evq with copy := rest } }
      | [], r :: rest => writeLog r { s with evq := { s.evq with logged := rest } }
      | [], [] => s

end Sys2Proof.Machine
end

