-- ==== Sys2Proof/Machine/Stripe.lean ====
section
/-!
DEFINITION. The stripe engine's shared operations: Galois field arithmetic, the directory window, journal records, the
loss ledger, glue-up slots and sealing (R290 to R305, R309, R318 to R323, R340 to R342, R593).
-/
namespace Sys2Proof.Machine

/-! ### P and Q (R294, R295) -/

/-- Multiplication by g = 0x02 over 0x11D. -/
def gfDouble (a : Nat) : Nat := if a < 128 then 2 * a else (2 * a) ^^^ 0x11D

/-- Product over GF(2^8): `n` bits of `b` from bit `i`. -/
def gfMulBits : Nat → Nat → Nat → Nat
  | 0, _, _ => 0
  | n + 1, a, b => (if b % 2 == 1 then a else 0) ^^^ gfMulBits n (gfDouble a) (b / 2)

def gfMul (a b : Nat) : Nat := gfMulBits 8 a b

/-- g to the power `n`. -/
def gfPow : Nat → Nat
  | 0 => 1
  | n + 1 => gfDouble (gfPow n)

/-- The inverse of a non-zero element: its 254th power, by square and multiply. -/
def gfInv (a : Nat) : Nat :=
  let a2 := gfMul a a
  let a4 := gfMul a2 a2
  let a8 := gfMul a4 a4
  let a16 := gfMul a8 a8
  let a32 := gfMul a16 a16
  let a64 := gfMul a32 a32
  let a128 := gfMul a64 a64
  gfMul a2 (gfMul a4 (gfMul a8 (gfMul a16 (gfMul a32 (gfMul a64 a128)))))

/-- Every byte of a string times a constant. -/
def gfScale (k : Nat) (l : List Byte) : List Byte := l.map (fun b => BitVec.ofNat 8 (gfMul k b.toNat))

/-- Codeword of zero bytes. -/
def zeroCw : List Byte := zeros 4096

/-- P and Q of the data codewords of one index: (member, bytes); members not given count as zero (R294). -/
def parityP (ds : List (Nat × List Byte)) : List Byte := ds.foldl (fun a d => xorBytes a d.2) zeroCw
def parityQ (ds : List (Nat × List Byte)) : List Byte := ds.foldl (fun a d => xorBytes a (gfScale (gfPow d.1) d.2)) zeroCw

/-- The data codewords of at most two lost members of a row, from the surviving data codewords and what is readable of
P and Q (R295). `w` is the group's W; members W and W + 1 are P and Q. -/
def recover (w : Nat) (lost : List Nat) (ds : List (Nat × List Byte)) (p q : Option (List Byte)) :
    List (Nat × List Byte) :=
  match lost.filter (· < w), p, q with
  | [x], some p, _ => [(x, xorBytes p (parityP ds))]
  | [x], none, some q => [(x, gfScale (gfInv (gfPow x)) (xorBytes q (parityQ ds)))]
  | [x, y], some p, some q =>
    let a := xorBytes p (parityP ds)
    let b := xorBytes q (parityQ ds)
    let dx := gfScale (gfInv (gfPow x ^^^ gfPow y)) (xorBytes b (gfScale (gfPow y) a))
    [(x, dx), (y, xorBytes a dx)]
  | _, _, _ => []

/-! ### The directory window (R318 to R322, R593) -/

/-- Host address of the window. -/
def winBase (s : State) : Nat := s.stripe.baseHi.toNat * 2 ^ 32 + s.stripe.baseLo.toNat * 2 ^ 20

/-- Window size in bytes. -/
def winBytes (s : State) : Nat := s.stripe.mib.toNat * 2 ^ 20

/-- Two ranges of bytes, each as start and length, share some. -/
def rangesMeet (a n b m : Nat) : Bool := a < b + m && b < a + n

/-- Bytes `new` at `b` laid over the bytes `old` at `a`. -/
def layOver (a : Nat) (old : List Byte) (b : Nat) (new : List Byte) : List Byte :=
  (List.range old.length).map (fun i =>
    if b ≤ a + i && a + i < b + new.length then new.getD (a + i - b) 0 else old.getD i 0)

/-- A change merged into a window write that is held or waits (R593). -/
def mergeChange (off : Nat) (bs : List Byte) (h : BitVec 64 × List Byte) : BitVec 64 × List Byte :=
  (h.1, layOver h.1.toNat h.2 off bs)

/-- Window writes outstanding: offset and bytes. -/
def winOut (s : State) : List (Nat × Nat) :=
  (s.host.writes ++ s.host.stalled).filterMap (fun r => match r.what with | .window off => some (off, r.len) | _ => none)

/-- One request's bytes written to the window. They are merged into every write of the same bytes that is held after a fabric
error or waits; what those do not hold waits for an earlier write of the same bytes to be acknowledged, since the fabric need
not keep writes in order (R36, R593). -/
def winPut (s : State) (p : Nat × List Byte) : State :=
  let off := p.1 - winBase s
  let n := p.2.length
  let s := { s with stripe := { s.stripe with
    held := s.stripe.held.map (mergeChange off p.2), winWait := s.stripe.winWait.map (mergeChange off p.2) } }
  let kept := s.stripe.held ++ s.stripe.winWait
  if kept.any (fun h => h.1.toNat ≤ off && off + n ≤ h.1.toNat + h.2.length) then s
  else if kept.any (fun h => rangesMeet off n h.1.toNat h.2.length) || (winOut s).any (fun o => rangesMeet off n o.1 o.2) then
    { s with stripe := { s.stripe with winWait := s.stripe.winWait ++ [(BitVec.ofNat 64 off, p.2)] } }
  else hostWrite (.window off) p.1 p.2 s

/-- Bytes written to the window, in as many requests as R35 needs. -/
def winPutAll (off : Nat) (bs : List Byte) (s : State) : State :=
  (splitPages (bs.length + 1) (winBase s + off) bs).foldl winPut s

/-- A write to the window in use (R318, R593). -/
def winWrite (off : Nat) (bs : List Byte) (s : State) : State := if s.stripe.granted then winPutAll off bs s else s

/-- The tables SRAM has room to hold a further change of the window; without a window fault none need be held (R593; log entry
120). -/
def windowRoom (s : State) : Bool :=
  !s.stripe.wfault || ((s.stripe.held ++ s.stripe.winWait).map (fun h => h.2.length)).sum < Config.heldRoom

/-! ### The bind table and its cache (R379, R593) -/

/-- Entries of the bind table (R319). -/
def bindEntries : Nat := 65536

/-- Free bind entries. -/
def bindsFree (s : State) : Nat := bindEntries - s.stripe.binds.length

/-- The lowest free bind entry. -/
def freeBind (s : State) : Option Nat :=
  findFrom (fun i => !(s.stripe.binds.any (fun p => p.1 == i))) bindEntries 0

/-- Window offset of a bind table entry (R319). -/
def bindOff (i : Nat) : Nat := 0x21000 + 16 * i

/-- Bind entries used: most recent in the cache of 1,024 (R379). -/
def touchBinds (is : List Nat) (s : State) : State :=
  { s with stripe := { s.stripe with bindCache := (is ++ s.stripe.bindCache.filter (fun i => !(is.contains i))).take 1024 } }

/-- Bind entries that a lookup of rows of a group needs: those that overlap or adjoin them. -/
def bindsNear (g first n : Nat) (s : State) : List Nat :=
  (s.stripe.binds.filter (fun p => p.2.group == g && p.2.first ≤ first + n && first ≤ p.2.first + p.2.rows)).map (·.1)

/-- The window read of a bind entry is outstanding, or held after a fabric error. -/
def bindReading (i : Nat) (s : State) : Bool :=
  (s.host.reads ++ s.host.rstalled).any (fun r => r.what == .bindRead i)
    || s.stripe.winReadHeld.any (fun h => h.1 == .bindRead i)

/-- A lookup waits for a window read (R593). -/
def bindsWait (g first n : Nat) (s : State) : Bool := (bindsNear g first n s).any (fun i => bindReading i s)

/-- A lookup of the rows of a group: the entries that miss the cache are read from the window, in its units of 32 bytes (R33,
R379). -/
def lookUpBinds (s : State) (x : Nat × Nat × Nat) : State :=
  (bindsNear x.1 x.2.1 x.2.2 s).foldl (fun s i =>
    if s.stripe.bindCache.contains i then touchBinds [i] s
    else if bindReading i s || !s.stripe.granted then s
    else hostReadData (.bindRead i) ((winBase s + bindOff i) / 32 * 32) 32 s) s

/-- A member word (R321). -/
def Member.word (m : Member) : Nat := m.block % 2 ^ 16 * 2 ^ 16 + m.mstate.toNat * 2 ^ 12 + m.lun % 2 ^ 12

/-- The member of a member word. -/
def memberOf (w : Nat) : Member := { lun := fld w 0 12, block := fld w 16 16, mstate := BitVec.ofNat 4 (fld w 12 4) }

/-- Bit mask of a list of indices. -/
def maskOf (l : List Nat) : Nat := bitsOf ((List.range 34).map (fun i => l.contains i))

/-- FLAGS of a directory entry (R321, R327). -/
def DirEntry.flags (e : DirEntry) : Nat :=
  b2n (e.failedCount != 0) + 2 * b2n (e.members.any (fun m => m.mstate == 2)) + 4 * b2n e.refitSource
    + 8 * b2n e.refitTarget + 16 * b2n e.boundRows

/-- Bytes 0 to 251 of a directory entry (R321). -/
def DirEntry.body (e : DirEntry) : List Byte :=
  le 3 e.group ++ [BitVec.ofNat 8 e.state.toNat, BitVec.ofNat 8 e.width, BitVec.ofNat 8 ((e.profile - 1) % 4), e.gen,
    BitVec.ofNat 8 e.flags] ++ le 4 e.nextRow ++ le 4 (maskOf e.accepted) ++ le 2 e.rows ++ zeros 2
    ++ le 4 e.lastSeal.toNat ++ le 8 e.failedBits ++ le 4 e.eseq.toNat ++ zeros 28
    ++ padTo 136 (e.members.map (fun m => le 4 m.word)).flatten
    ++ padTo 48 (e.short.map (fun r => le 4 r.1 ++ le 4 r.2.toNat)).flatten
    ++ [BitVec.ofNat 8 e.short.length, BitVec.ofNat 8 (b2n e.overflow), 0, 0]

/-- The 256 bytes of a directory entry; a free entry holds nothing but GEN (R310), a blank one nothing. -/
def DirEntry.bytes (e : DirEntry) : List Byte :=
  if e.state == 0 then
    if e.gen == 0 && e.eseq == 0 then zeros 256 else zeros 6 ++ [e.gen] ++ zeros 249
  else e.body ++ le 4 (crc32c e.body)

/-- A directory entry changed: ESEQ counts the write and the entry goes through to the window (R321 to R323); a lead block
sends the change to its followers' caches (R432). -/
def writeDir (g : Nat) (f : DirEntry → DirEntry) (s : State) : State :=
  let e := f (dirAt g s)
  let e := { e with eseq := e.eseq + 1 }
  let s := if s.modes.lead && !s.dv.solo then dvSend 0x21 none e.bytes s else s
  winWrite (s.stripe.dirOff + 256 * g) e.bytes { s with stripe := { s.stripe with dir := insertDir e s.stripe.dir } }

/-- The entry becomes free: every byte except GEN is zero (R310). -/
def freeDir (g : Nat) (s : State) : State :=
  let e : DirEntry := { group := g, gen := (dirAt g s).gen }
  winWrite (s.stripe.dirOff + 256 * g) (zeros 6 ++ [e.gen] ++ zeros 249)
    { s with stripe := { s.stripe with
      dir := insertDir e s.stripe.dir, unlisted := s.stripe.unlisted.filter (fun x => x.1.1 != g) } }

/-- Entries that stay in the cache: groups with a slot, being rebuilt or refitted (R323). -/
def pinned (g : Nat) (s : State) : Bool :=
  s.stripe.slots.any (fun k => k.state != .free && k.group == g) || (s.bg.active && s.bg.curGroup == g)
    || (dirAt g s).refitSource || (dirAt g s).refitTarget

/-- The cache with the least recently used entry that is not pinned removed. -/
def evict (s : State) (l : List Nat) : List Nat :=
  match l.reverse.find? (fun g => !(pinned g s)) with
  | some g => l.filter (· != g)
  | none => l

/-- Lines of 16 member words that hold a group's members (R321, R323). -/
def memberLines (g : Nat) (s : State) : List (Nat × Nat) :=
  (List.range (((dirAt g s).members.length + 15) / 16)).map (fun i => (g, i))

/-- A group's entry and its member lines used: most recent in the caches of 4,096 and of 1,024 (R323). -/
def cacheTouch (g : Nat) (s : State) : State :=
  let l := g :: s.stripe.cache.filter (· != g)
  let ms := (memberLines g s ++ s.stripe.lines.filter (fun p => p.1 != g)).take 1024
  { s with stripe := { s.stripe with cache := if l.length ≤ 4096 then l else evict s l, lines := ms } }

/-! ### The dose ledger (R260) -/

/-- Blocks of the present LUNs below `u` (R260). -/
def lunBase (u : Nat) (s : State) : Nat :=
  (((List.range u).filter (fun v => lunPresent v s)).map (fun v => lunBlocks v s)).sum

/-- Size of the dose ledger: rounded up to 4 KiB (R319). -/
def doseSize (s : State) : Nat := (8 * lunBase 4096 s + 4095) / 4096 * 4096

/-- Record of an erase block set; absent: unstamped, no erases (R260). -/
def doseAt (u b : Nat) (s : State) : DoseRec := lookD {} (u, b) s.recov.dose

/-- The 8 bytes of a dose record (R260). -/
def DoseRec.bytes (d : DoseRec) : List Byte :=
  le 4 d.stamp.toNat ++ le 2 d.pe.toNat ++ [BitVec.ofNat 8 (b2n d.stamped + 2 * b2n d.unknown), 0]

/-! ### Journal records (R309, R310, R369, R392) -/

/-- A record: RTYPE, GROUP and fields given as (byte, value). -/
def mkRec (rtype group : Nat) (fields : List (Nat × Nat)) : BitVec 256 :=
  BitVec.ofNat 256 (packFields ((0, rtype) :: (32, group) :: fields.map (fun f => (8 * f.1, f.2))))

/-- A field of a record. -/
def recFld (r : BitVec 256) (off len : Nat) : Nat := fld r.toNat (8 * off) (8 * len)
def recType (r : BitVec 256) : Nat := recFld r 0 1
def recGroup (r : BitVec 256) : Nat := recFld r 4 4

/-- Two records of which the later replaces the earlier among the live ones (R364). -/
def sameLive (a b : BitVec 256) : Bool :=
  recType a == recType b && (recType a == 0x1C || recType a == 0x20 || recType a == 0x22
    || (recGroup a == recGroup b && recFld a 8 1 == recFld b 8 1))

/-- The record ends a live record (R364). -/
def endsLive (r old : BitVec 256) : Bool :=
  let t := recType r
  ((t == 0x14 || t == 0x15) && (recType old == 0x12 || recType old == 0x13) && recGroup old == recGroup r
      && recFld old 8 1 == recFld r 8 1)
    || ((t == 0x23 || t == 0x24) && (recType old == 0x20 || recType old == 0x22))

/-- The live records after a record: REBUILD_*, REFIT_* and PATROL_POS (R364). -/
def liveAfter (r : BitVec 256) (l : List (BitVec 256)) : List (BitVec 256) :=
  let t := recType r
  let l := l.filter (fun x => !(sameLive x r) && !(endsLive r x))
  if t == 0x12 || t == 0x13 || t == 0x20 || t == 0x22 || t == 0x1C then l ++ [r] else l

/-- A record generated: it waits for a page, in order (R310). A follower sends it to the lead block (R414, R432). -/
def addRec (r : BitVec 256) (s : State) : State :=
  if s.modes.follower then
    dvSend 0x20 (some s.modes.leadDie) (le 32 r.toNat) { s with dv := { s.dv with recOut := true } }
  else { s with stripe := { s.stripe with jrnl := { s.stripe.jrnl with
    queue := s.stripe.jrnl.queue ++ [r]
    recNo := s.stripe.jrnl.recNo + 1
    live := liveAfter r s.stripe.jrnl.live } } }

/-- Number of the record generated last. -/
def lastRec (s : State) : Nat := s.stripe.jrnl.recNo

/-- A record is durable (R307). -/
def recDurable (n : Nat) (s : State) : Bool := n ≤ s.stripe.jrnl.durableRec

/-- ROW_MEMBERS with a cumulative mask: at most one record per row per page (R310). Answers the record's number. -/
def rowMembersRec (g r : Nat) (mask : Nat) (s : State) : Nat × State :=
  let j := s.stripe.jrnl
  let same (x : BitVec 256) : Bool := recType x == 1 && recGroup x == g && recFld x 8 4 == r
  let new := mkRec 1 g [(8, r), (12, mask)]
  match j.queue.findIdx? same with
  | some i =>
    (j.recNo - j.queue.length + 1 + i,
      { s with stripe := { s.stripe with jrnl := { j with queue := j.queue.set i new } } })
  | none =>
    let s := addRec new s
    (lastRec s, s)

/-- The record of an erase block set lies in the tables SRAM, most recently used of 2,048 (R260). -/
def touchDose (u b : Nat) (s : State) : State :=
  { s with recov := { s.recov with doseCache := ((u, b) :: s.recov.doseCache.filter (· != (u, b))).take 2048 } }

/-- Window offset of a dose record: the ledger starts at 0x121000 (R260, R319). -/
def doseOff (u b : Nat) (s : State) : Nat := 0x121000 + 8 * (lunBase u s + b)

/-- A dose record changed: kept, written through, and journalled (R260, R310). -/
def setDose (u b : Nat) (f : DoseRec → DoseRec) (s : State) : State :=
  let s := touchDose u b s
  let d := f (doseAt u b s)
  let s := { s with recov := { s.recov with
    dose := if d = {} then dropKey (u, b) s.recov.dose
            else ((u, b), d) :: dropKey (u, b) s.recov.dose } }
  let s := winWrite (doseOff u b s) d.bytes s
  addRec (BitVec.ofNat 256 (packFields [(0, 7), (32, u), (48, b), (64, leVal d.bytes)])) s

/-- An erase command issued to a block (R260). -/
def doseErase (u b : Nat) (s : State) : State :=
  setDose u b (fun d => { d with pe := satAdd d.pe 1, stamp := 0xFFFFFFFF, stamped := false, unknown := false }) s

/-- The first program of a block after its erase (R260). -/
def doseProgram (u b : Nat) (s : State) : State :=
  if (doseAt u b s).stamped then s
  else setDose u b (fun d => { d with
    stamp := BitVec.ofNat 32 ((s.recov.clocks.getD (lunChan u) 0).toNat / 4096)
    stamped := true, unknown := !s.recov.doseKnown }) s

/-! ### The loss ledger (R338 to R343) -/

/-- Bytes 0 to 23 of a ledger entry. -/
def LossEntry.body (e : LossEntry) : List Byte :=
  le 3 e.group ++ [e.gen, BitVec.ofNat 8 e.member, e.cause] ++ le 2 e.mask.toNat ++ le 4 e.first ++ le 4 e.count
    ++ le 6 e.time.toNat ++ zeros 2

/-- The 32 bytes of a ledger entry; a free entry has ROW_COUNT 0. -/
def LossEntry.bytes (e : LossEntry) : List Byte :=
  if e.count == 0 then zeros 32
  else
    let b := e.body ++ le 4 e.lseq.toNat
    b ++ le 4 (crc32c b)

/-- A ledger entry covers codeword `c` of a member and row (R340). -/
def LossEntry.covers (e : LossEntry) (g : Nat) (gen : Byte) (m r c : Nat) : Bool :=
  e.group == g && e.gen == gen && e.member == m && e.first ≤ r && r < e.first + e.count && bitAt e.mask.toNat c

/-- The codeword is in the loss ledger. -/
def inLedger (g m r c : Nat) (s : State) : Bool :=
  s.stripe.ledger.any (fun p => p.2.covers g (dirAt g s).gen m r c)

/-- A ledger entry written: kept, written through and journalled (R341). -/
def setLedger (i : Nat) (e : LossEntry) (s : State) : State :=
  let e := { e with lseq := s.stripe.lseq + 1 }
  let s := { s with stripe := { s.stripe with ledger := putAsc i e s.stripe.ledger, lseq := e.lseq } }
  let s := winWrite (0x1000 + 32 * i) e.bytes s
  addRec (mkRec 0x18 0 [(2, i), (8, leVal e.body)]) s

/-- A ledger entry freed (R343). -/
def clearLedger (i : Nat) (s : State) : State :=
  if s.stripe.ledger.any (fun p => p.1 == i) then
    let s := { s with stripe := { s.stripe with ledger := dropKey i s.stripe.ledger, ledgerFull := false } }
    addRec (mkRec 0x19 0 [(2, i)]) (winWrite (0x1000 + 32 * i) (zeros 32) s)
  else s

/-- The ledger entries of a group freed (R343). -/
def clearLedgerGroup (g : Nat) (s : State) : State :=
  ((s.stripe.ledger.filter (fun p => p.2.group == g)).map (·.1)).foldl (fun s i => clearLedger i s) s

/-- Index of the lowest free ledger entry. -/
def freeLedger (s : State) : Option Nat :=
  findFrom (fun i => !(s.stripe.ledger.any (fun p => p.1 == i))) 4096 0

/-- Bits of a mask. -/
def maskCount (m : Nat) : Nat := ones 16 m

/-- The data loss event (R338, R482). -/
def lossEvent (g m r mask cause : Nat) (full : Bool) (idx : Nat) (s : State) : State :=
  raisePriv 243 false (le 3 g ++ le 1 m ++ le 4 r ++ le 2 mask ++ le 1 cause ++ le 1 (b2n full) ++ le 2 idx) s

/-- A loss that a follower finds goes to the lead block, whose ledger it enters (R414, R417). -/
def sendLoss (g m r mask cause : Nat) (s : State) : State :=
  let e : LossEntry := { group := g, gen := (dirAt g s).gen, member := m, cause := BitVec.ofNat 8 cause
                         mask := BitVec.ofNat 16 mask, first := r, count := 1 }
  addRec (mkRec 0x18 0 [(2, 0xFFFF), (8, leVal e.body)]) s

/-- Lost data codewords entered in the ledger (R338, R341, R342): an entry is extended, or the lowest free one taken, the
last of them with LEDGER_FULL and the full flag; with none left, the loss goes to the event log only. -/
def addLoss (g m r mask cause : Nat) (s : State) : State :=
  if s.modes.follower then sendLoss g m r mask cause s else
  let gen := (dirAt g s).gen
  let s := { s with
    bg := { s.bg with lossCount := s.bg.lossCount + BitVec.ofNat 32 (maskCount mask) }
    stats := { s.stats with codewordsLost := s.stats.codewordsLost + maskCount mask } }
  let fits (p : Nat × LossEntry) : Bool :=
    p.2.group == g && p.2.gen == gen && p.2.member == m && p.2.cause.toNat == cause && p.2.mask.toNat == mask
      && r == p.2.first + p.2.count
  match s.stripe.ledger.find? fits with
  | some (i, e) => lossEvent g m r mask cause false i (setLedger i { e with count := e.count + 1 } s)
  | none =>
    match freeLedger s with
    | some i =>
      let full := decide (4096 ≤ s.stripe.ledger.length + 1)
      let s := { s with stripe := { s.stripe with ledgerFull := full } }
      lossEvent g m r mask cause full i (setLedger i
        { group := g, gen := gen, member := m, cause := BitVec.ofNat 8 cause, mask := BitVec.ofNat 16 mask
          first := r, count := 1, time := if s.recov.doseKnown then wallNow s else 0 } s)
    | none =>
      let s := { s with stripe := { s.stripe with ledgerFull := true } }
      let s := logRecord ([3, 0, 0, 0] ++ le 4 g ++ le 4 m ++ le 4 r ++ le 2 mask) s
      lossEvent g m r mask cause true 0xFFFF s

/-! ### Glue-up slots (R296 to R305) -/

def slotAt (i : Nat) (s : State) : Slot := s.stripe.slots.getD i {}

def modSlot (i : Nat) (f : Slot → Slot) (s : State) : State :=
  { s with stripe := { s.stripe with slots := s.stripe.slots.modify i f } }

/-- The slot of a row. -/
def findSlot (g r : Nat) (s : State) : Option Nat :=
  s.stripe.slots.findIdx? (fun k => k.state != .free && k.group == g && k.row == r)

/-- The home block of a group: that of its P member's LUN (R416). -/
def homeOf (g : Nat) (s : State) : Nat := (memberAt g (dirAt g s).width s).lun / 512

/-- The rows of a group have their slots on this block (R416). -/
def homeHere (g : Nat) (s : State) : Bool := homeOf g s == s.modes.dieId.toNat

/-- A FREE slot for a row of a group: one of this block's 32, or, where the home is another block, one of the 32 rows open
there, whose partial of P and Q this block keeps from place 32 on (R293, R416). -/
def freeSlot (g : Nat) (s : State) : Option Nat :=
  if homeHere g s then (s.stripe.slots.take 32).findIdx? (fun k => k.state == .free)
  else
    let l := s.stripe.slots.drop 32
    let used := l.filter (fun k => k.state != .free && homeOf k.group s == homeOf g s)
    if used.length < 32 then some (32 + l.findIdx (fun k => k.state == .free)) else none

/-- A range of words zeroed: every word is written, so a merge entry or rewrite of one is void, and an armed flip of
the region takes the first (R556, R560, R565). -/
def zeroRange (a n : Nat) (m : Sram) : Sram :=
  let inside (x : Nat) : Bool := a ≤ x && x < a + n
  let first := m.writeWord a 0
  if n == 0 then m
  else { first with
    words := m.words.filter (fun p => p.1 < a)
      ++ (if m.flipArm && m.flipRegion.toNat == sramRegion a then first.words.filter (fun p => p.1 == a) else [])
      ++ m.words.filter (fun p => a + n ≤ p.1)
    merge := m.merge.filter (fun e => !(inside e.word))
    rewrites := m.rewrites.filter (fun e => !(inside e.1)) }

/-- A slot assigned to a row and written to zero (R296, R297, R416). -/
def assignSlot (i g r : Nat) (s : State) : State :=
  modSlot i (fun _ => { state := .filling, group := g, row := r })
    (if i < 32 then { s with sram := zeroRange (slotOff i / 16) 8192 s.sram }
     else { s with stripe := { s.stripe with
       slots := s.stripe.slots ++ List.replicate (i + 1 - s.stripe.slots.length) {} } })

/-- Codeword `c` of a half of a slot: out of the slot, or of a row whose home is another block out of this block's partial;
false when a word was uncorrectable. Half 0 is P, half 1 is Q. -/
def slotBytes (i half c : Nat) (s : State) : List Byte × Bool × State :=
  if i < 32 then sramRead (slotOff i + half * 65536 + c * 4096) 4096 s
  else (((slotAt i s).acc.lookup (half * 16 + c)).getD (zeros 4096), true, s)

/-- Codeword `c` of a half of a slot written. -/
def slotWrite (i half c : Nat) (bs : List Byte) (s : State) : State :=
  if i < 32 then sramWrite (slotOff i + half * 65536 + c * 4096) bs s
  else modSlot i (fun k => { k with acc := (half * 16 + c, bs) :: k.acc.filter (fun p => p.1 != half * 16 + c) }) s

/-- What one codeword of a slot's half held is combined and written back; a word of it that was uncorrectable is noted
(R298, R563). -/
def foldRead (i half c : Nat) (d old : List Byte) (ok : Bool) (s : State) : State :=
  let s := if ok then s else modSlot i (fun k => { k with bad := if k.bad.contains c then k.bad else k.bad ++ [c] }) s
  slotWrite i half c (xorBytes old d) s

/-- One codeword of a slot's half folded (R298). Half 0 is P, half 1 is Q. -/
def foldHalf (i half c : Nat) (d : List Byte) (s : State) : State :=
  let r := slotBytes i half c s
  foldRead i half c d r.1 r.2.1 r.2.2

/-- A data codeword folded into P and Q (R298). Folding it again removes it (R452). -/
def foldCw (i m c : Nat) (d : List Byte) (s : State) : State :=
  foldHalf i 1 c (gfScale (gfPow m) d) (foldHalf i 0 c d s)

/-- The seal of a row (R301). -/
def mkSeal (seq mask form gen epoch : Nat) : BitVec 96 :=
  BitVec.ofNat 96 (packFields [(0, seq % 2 ^ 32), (32, mask % 2 ^ 32), (64, form), (72, gen), (80, epoch % 2 ^ 16)])

def sealMask (w : Nat) : Nat := fld w 32 32
def sealForm (w : Nat) : Nat := fld w 64 8
def sealGen (w : Nat) : Nat := fld w 72 8
def sealSeq (w : Nat) : Nat := fld w 0 32

/-- The row lacks a data member: it is listed, or the list overflows, and its seal alone tells (R303). -/
def listShort (g r mask : Nat) (s : State) : State :=
  let e := dirAt g s
  if e.short.any (fun p => p.1 == r) then s
  else if e.short.length < 6 then writeDir g (fun e => { e with short := e.short ++ [(r, BitVec.ofNat 32 mask)] }) s
  else
    writeDir g (fun e => { e with overflow := true }) { s with stripe := { s.stripe with
      unlisted := ((g, r), BitVec.ofNat 32 mask) :: s.stripe.unlisted.filter (fun x => x.1 != (g, r)) } }

/-- DATA_MASK of a row as the directory tells it (R303). -/
def rowMask (g r : Nat) (s : State) : Nat :=
  let e := dirAt g s
  match e.short.find? (fun p => p.1 == r) with
  | some p => p.2.toNat
  | none => 2 ^ e.width - 1

/-- DATA_MASK of a row as its seal holds it, which a group with SHORT_OVERFLOW leaves the directory not to tell (R301, R303).
The seals that this model has not seen made are free (log entry 121). -/
def sealedMask (g r : Nat) (s : State) : Nat :=
  let e := dirAt g s
  if !e.overflow || e.short.any (fun p => p.1 == r) then rowMask g r s
  else match s.stripe.unlisted.lookup (g, r) with
    | some m => m.toNat
    | none => Config.unlistedMask (g * 256 + e.gen.toNat) r % 2 ^ e.width

/-- Member `m` can be programmed: in service, or on the spare that the rebuild has switched to (R332, R348). -/
def programmable (g m : Nat) (s : State) : Bool :=
  let w := memberAt g m s
  w.mstate == 0 || (w.mstate == 2 && s.bg.active && s.bg.switched && s.bg.curGroup == g && s.bg.curMember == m)

/-- Staging handle of a parity page set, a pad page set and a journal page (log entry 12). -/
def parityHandle (i half : Nat) : Nat := 0x8000 + 2 * i + half
def padHandle : Nat := 0x9000
def journalHandle (copy : Nat) : Nat := 0xA000 + copy

/-- A P or Q page of a row whose home is another block waits for its data to come from there (R416). -/
def pageOwed (owner : Owner) (g lun : Nat) (s : State) : Bool :=
  match owner with
  | .parity i _ => ownLun lun s && !(homeHere g s) && !(slotAt i s).whole
  | _ => false

/-- The PROGRAM job of one page of a group's member (R230, R233). -/
def programMember (owner : Owner) (g m r prio handle : Nat) (stamp : Word) (sealW : BitVec 96) (s : State) : State :=
  let e := dirAt g s
  let w := memberAt g m s
  (addJob { owner := owner, lun := w.lun, prio := prio, block := w.block, page := r, profile := e.profile
            width := e.width, group := g, member := m, row := r, stamp := stamp, sealW := sealW, buf := handle
            dataWait := pageOwed owner g w.lun s, cwMask := 0xFFFF, items := [programItem w.lun w.block r e.profile handle s] } s).2

/-- The owner of a member on another block folds it there (R416). -/
def foldsAway (i g m : Nat) (s : State) : State :=
  if ownLun (memberAt g m s).lun s then s else modSlot i (fun k => { k with away := k.away ++ [m] }) s

/-- A pad page programmed for a member not accepted, where it can be (R302). -/
def padMember (i g m r : Nat) (s : State) : State :=
  if programmable g m s then foldsAway i g m (programMember (.pad i m) g m r 2 padHandle 0 0 s)
  else modSlot i (fun k => { k with failed := k.failed ++ [m] }) s

/-- The entry whose acceptance completed the row (R300, R333). -/
def rowEntry (g r : Nat) (s : State) : Option Nat :=
  (s.sched.entries.find? (fun e => e.group.toNat == g && e.needsRow == some r)).map (·.eid)

/-- MEMBER_FAILED for the entry that completed the row (R333). -/
def noteParityFail (g r m : Nat) (s : State) : State :=
  match rowEntry g r s with
  | some eid => noteStatus eid 0x32 m s
  | none => s

/-- One parity program of a sealed slot, or none where the member has failed, or was left as a reset had found it (R299, R333,
R363). -/
def placeParityOne (i m half : Nat) (s : State) : State :=
  let k := slotAt i s
  if k.asFound.contains m then s
  else if programmable k.group m s then
    programMember (.parity i m) k.group m k.row 2 (parityHandle i half) 0 k.sealW
      (modSlot i (fun k => { k with parityLeft := k.parityLeft + 1 }) s)
  else noteParityFail k.group k.row m (modSlot i (fun k => { k with failed := k.failed ++ [m] }) s)

/-- A data program of the row still runs, on a member that `p` tells. -/
def dataRuns (g r : Nat) (p : Nat → Bool) (s : State) : Bool :=
  s.sched.jobs.any (fun j => j.group == g && j.row == r && j.state != .ended
    && (match j.owner with | .write _ m => p m | _ => false))

/-- P and Q have ended: the ROW_SEALED record is generated (R310). -/
def rowSealed (i : Nat) (s : State) : State :=
  let k := slotAt i s
  if k.state == .sealing && k.placed && k.parityLeft == 0 && k.recNo == none then
    let s := addRec (mkRec 2 k.group [(8, k.row), (12, k.sealW.toNat)]) s
    modSlot i (fun k => { k with recNo := some (lastRec s) }) s
  else s

/-- A sealing slot may have its P and Q placed: no codeword waits to be computed again, and the rows below it of its
group are placed (R299, R563). -/
def mayPlace (s : State) (k : Slot) : Bool :=
  k.state == .sealing && !k.placed && k.bad.isEmpty
    && !(s.stripe.slots.any (fun x => x.state != .free && x.group == k.group && x.row < k.row && !x.placed))

/-- P and Q of a slot placed. -/
def placeParity (i : Nat) (s : State) : State :=
  let w := (dirAt (slotAt i s).group s).width
  let s := modSlot i (fun k => { k with placed := true }) s
  rowSealed i (placeParityOne i (w + 1) 1 (placeParityOne i w 0 s))

/-- Every slot that may be placed is, rows ascending. -/
def placeAll : Nat → State → State
  | 0, s => s
  | fuel + 1, s =>
    match s.stripe.slots.findIdx? (mayPlace s) with
    | some i => placeAll fuel (placeParity i s)
    | none => s

/-- P and Q as a slot holds them, codeword by codeword. -/
def slotAll (i : Nat) (s : State) : List Byte × State :=
  (List.range 32).foldl (fun acc k =>
    let r := slotBytes i (k / 16) (k % 16) acc.2
    (acc.1 ++ r.1, r.2.2)) ([], s)

/-- A PARITY message: the data members that its P and Q hold, and the bytes; without bytes the row's part is no longer needed by
the receiver (R416, R432; DESIGN CHOICE, log entry 52). -/
def sendPart (die : BitVec 3) (i : Nat) (members : List Nat) (s : State) : State :=
  let k := slotAt i s
  let r := slotAll i s
  dvSend 0x12 (some die) (le 3 k.group ++ le 4 k.row ++ le 4 (maskOf members) ++ r.1) r.2

/-- The home block of a row gives P and Q to the owner of its Q member, where that is another block (R416; DEDUCED, log entry
52). -/
def giveQ (i : Nat) (s : State) : State :=
  let g := (slotAt i s).group
  let w := (dirAt g s).width
  let q := (memberAt g (w + 1) s).lun
  if ownLun q s then s else sendPart (lunDie q) i (List.range w) s

/-- What this lead block owes the row when it is sealed: to another home its part of P and Q, of every member that no owner on
another block folds; as the home, Q to its owner (R416). -/
def sendParity (i : Nat) (s : State) : State :=
  let k := slotAt i s
  if homeHere k.group s then giveQ i (modSlot i (fun k => { k with whole := true }) s)
  else
    sendPart (BitVec.ofNat 3 (homeOf k.group s)) i
      ((List.range (dirAt k.group s).width).filter (fun m => !(k.away.contains m))) s

/-- Every member of DATA_MASK is folded: here, or, of a row whose home is another block, by its owner there (R296, R416). -/
def allFolded (k : Slot) (s : State) : Bool :=
  k.dataMask.all (fun m => k.folded.contains m || (!(homeHere k.group s) && k.away.contains m))

/-- The slot leaves FILLING: the row is full or closed short, and every member of DATA_MASK is folded (R296, R299). It
stays in FILLING while no encoder is in service (R335). -/
def sealSlot (i : Nat) (s : State) : State :=
  let k := slotAt i s
  let e := dirAt k.group s
  if k.state == .filling && s.codec.encUp != 0 && k.row < e.nextRow && allFolded k s then
    let mask := maskOf k.dataMask
    let full := k.dataMask.length == e.width
    let form := if k.form != 1 then k.form else if full then 1 else 2
    let w := mkSeal s.stripe.jrnl.sealNext.toNat mask form e.gen.toNat s.stripe.jrnl.epoch.toNat
    let seq := s.stripe.jrnl.sealNext
    let s := { s with
      stripe := { s.stripe with jrnl := { s.stripe.jrnl with sealNext := s.stripe.jrnl.sealNext + 1 } }
      stats := if form == 2 then { s.stats with shortRowsClosed := s.stats.shortRowsClosed + 1 } else s.stats }
    let s := modSlot i (fun k => { k with state := .sealing, sealW := w, form := form }) s
    let s := writeDir k.group (fun e => { e with lastSeal := seq }) s
    let s := if full then s else listShort k.group k.row mask s
    placeAll s.stripe.slots.length (sendParity i s)
  else s

/-- The open row of a group closed short: pads for the members not accepted (R302). -/
def closeShort (g : Nat) (s : State) : State :=
  let e := dirAt g s
  if e.accepted.isEmpty then s
  else
    match findSlot g e.nextRow s with
    | none => s
    | some i =>
      let r := e.nextRow
      let s := modSlot i (fun k => { k with short := true }) s
      let missing := (List.range e.width).filter (fun m => !(e.accepted.contains m))
      let s := missing.foldl (fun s m => padMember i g m r s) s
      let s := writeDir g (fun e => { e with nextRow := r + 1, accepted := [], unwritten := e.unwritten ++ [r] }) s
      sealSlot i s

/-- The group closed as GROUP_CLOSE would: the open row closed short, GROUP_CLOSED written, STATE closed (R304). -/
def closeGroup (g : Nat) (s : State) : State :=
  if (dirAt g s).state == 1 then
    let s := closeShort g s
    let s := addRec (mkRec 5 g [(8, (dirAt g s).nextRow)]) s
    writeDir g (fun e => { e with state := 2 }) s
  else s

end Sys2Proof.Machine
end

