-- ==== Sys2Proof/Machine/Journal.lean ====
section
/-!
DEFINITION. The glue-up journal: pages, folds, anchors, the pair and its move (R306 to R314, R364, R365), and the
bytes of the directory window that a fold copies (R319 to R321).
-/
namespace Sys2Proof.Machine

/-- The journal changed. -/
def modJrnl (f : Jrnl → Jrnl) (s : State) : State :=
  { s with stripe := { s.stripe with jrnl := f s.stripe.jrnl } }

/-! ### The window as bytes (R319 to R321) -/

/-- The window header (R320). -/
def headerBytes (s : State) : List Byte :=
  padTo 4096 (le 4 0x0D1AD1E0 ++ le 4 1 ++ le 4 0x121000 ++ le 4 s.stripe.doseBytes ++ le 4 s.stripe.dirOff
    ++ le 4 s.stripe.dirEntries ++ le 4 s.stripe.jrnl.epoch.toNat)

/-- The LUN and block of record `i` of the dose ledger (R260). -/
def doseKey (s : State) : List Nat → Nat → Option (Nat × Nat)
  | [], _ => none
  | u :: us, i => if i < lunBlocks u s then some (u, i) else doseKey s us (i - lunBlocks u s)

/-- The 16 bytes of a bind table entry (R379). -/
def BindEntry.bytes (b : BindEntry) : List Byte := le 4 b.group ++ le 4 b.first ++ le 4 b.rows ++ le 4 b.job.toNat

/-- A byte of the window. -/
def winByte (s : State) (off : Nat) : Byte :=
  if off < 0x1000 then (headerBytes s).getD off 0
  else if off < 0x21000 then
    match s.stripe.ledger.lookup ((off - 0x1000) / 32) with
    | some e => e.bytes.getD (off % 32) 0
    | none => 0
  else if off < 0x121000 then
    match s.stripe.binds.lookup ((off - 0x21000) / 16) with
    | some b => b.bytes.getD (off % 16) 0
    | none => 0
  else if off < 0x121000 + s.stripe.doseBytes then
    match doseKey s (presentLuns s) ((off - 0x121000) / 8) with
    | some (u, b) => (doseAt u b s).bytes.getD (off % 8) 0
    | none => 0
  else if off < s.stripe.dirOff then 0
  else if off < winBytes s then (dirAt ((off - s.stripe.dirOff) / 256) s).bytes.getD (off % 256) 0
  else 0

/-- Snapshot pages of a fold, S (R311). -/
def snapPages (s : State) : Nat := (winBytes s + 61439) / 61440

/-! ### Pages (R307, R308) -/

/-- The 32 header bytes of a journal page. -/
def pageHeader (kind recs epoch jseq last : Nat) : List Byte :=
  [BitVec.ofNat 8 (0x7E + kind), 0] ++ le 2 recs ++ le 4 epoch ++ le 8 jseq ++ le 8 last ++ zeros 8

/-- The 65,536 user bytes of a page as copy `copy` holds it: the surviving copy of a move keeps its own EPOCH, JSEQ and
FOLD_JSEQ (R308, R364). -/
def pageUser (copy : Nat) (p : JPage) (s : State) : List Byte :=
  let j := s.stripe.jrnl
  let epoch := if copy == 2 then j.oldEpoch.toNat else j.epoch.toNat
  let jseq := if copy == 2 then j.oldJseq else p.jseq
  if p.kind == 0 then
    let fold := if copy == 2 then j.oldFoldJseq else j.foldJseq
    padTo 65536 (pageHeader 0 p.recs.length epoch jseq fold ++ (p.recs.map (fun r => le 32 r.toNat)).flatten)
  else padTo 65536 (pageHeader 1 0 epoch jseq p.woff ++ zeros 4064 ++ p.snap)

/-- The page index after `p` in a ring. -/
def ringNext (p blocks pj : Nat) : Nat := if p + 1 < blocks * pj then p + 1 else 0

/-- The page index before `p` in a ring. -/
def ringPrev (p blocks pj : Nat) : Nat := (p + blocks * pj - 1) % (max 1 (blocks * pj))

/-- The label of a journal codeword (R308). -/
def journalLabel (copy : Nat) (p : JPage) (c : Nat) (s : State) : Label :=
  let j := s.stripe.jrnl
  { kind := 5, profile := 4, member := if copy == 2 then j.survivor.getD 0 else copy, cw := c
    group := (if copy == 2 then j.oldEpoch.toNat else j.epoch.toNat) % 2 ^ 24
    row := if copy == 2 then ringPrev j.oldPage j.oldBase.2 j.oldPj else p.page
    stamp := (if copy == 2 then j.oldJseq else p.jseq) % 2 ^ 32 }

/-- A journal program: LUN, range base, P_J and ring page index (R307). -/
def programJournal (copy u base pj idx : Nat) (s : State) : State :=
  (addProgram (.journal copy) u (base + idx / (max 1 pj)) (idx % (max 1 pj)) 4 2 (journalHandle copy) s).2

/-- An erase of a journal block (R312). -/
def eraseJournal (u block : Nat) (s : State) : State :=
  let s := modJrnl (fun j => { j with erases := j.erases ++ [(u, block)] }) s
  (addErase .journalErase u block 2 s).2

/-- Blocks `b` and following of the ring erased on both copies (R312). -/
def eraseRing (idxs : List Nat) (s : State) : State :=
  let j := s.stripe.jrnl
  idxs.foldl (fun s b =>
    let blk := j.baseBlock + b % (max 1 j.blocks)
    eraseJournal j.lunB blk (eraseJournal j.lunA blk s)) s

/-- The copies that a page is written to (R307, R364). -/
def pageCopies (kind : Nat) (j : Jrnl) : List Nat :=
  if !j.moving then [0, 1]
  else (if j.pairWaits then [] else [0, 1]) ++ (if kind == 0 && j.survivor.isSome then [2] else [])

/-- The LUN of the surviving copy of a move (R364). -/
def survivorLun (j : Jrnl) : Nat := if j.survivor == some 0 then j.oldPair.1 else j.oldPair.2

/-- The block that the next page lies in is erased on every copy that takes it (R312). -/
def blockReady (j : Jrnl) : Bool :=
  let blk := j.baseBlock + j.page / (max 1 j.pj)
  let old := j.oldBase.1 + j.oldPage / (max 1 j.oldPj)
  !(j.erases.any (fun e => e.2 == blk && (e.1 == j.lunA || e.1 == j.lunB)))
    && !(j.moving && j.survivor.isSome && j.erases.contains (survivorLun j, old))

/-- FOLD_START takes the JSEQ of the page that holds it (R309). -/
def stampFold (jseq : Nat) (r : BitVec 256) : BitVec 256 :=
  if recType r == 8 then mkRec 8 0 [(8, jseq), (16, recFld r 16 4)] else r

/-- Page 0 of a block of the surviving copy's ring erases the block after next there (R312, R364). -/
def eraseOldRing (j : Jrnl) (s : State) : State :=
  if j.oldPage % (max 1 j.oldPj) == 0 then
    eraseJournal (survivorLun j) (j.oldBase.1 + (j.oldPage / (max 1 j.oldPj) + 2) % (max 1 j.oldBase.2)) s
  else s

/-- A page put in flight: programmed on its copies; page 0 of a block erases the block after next, not in HOLDUP
(R307, R312). -/
def launchPage (p : JPage) (recs : Nat) (s : State) : State :=
  let j := s.stripe.jrnl
  let copies := pageCopies p.kind j
  let s := modJrnl (fun j => { j with
    inFlight := some { p with copies := copies }, copiesLeft := copies, pageRecs := j.pageRecs + recs
    jseq := if copies.contains 0 then p.jseq else j.jseq
    page := if copies.contains 0 then ringNext j.page j.blocks j.pj else j.page
    oldJseq := if copies.contains 2 then j.oldJseq + 1 else j.oldJseq
    oldPage := if copies.contains 2 then ringNext j.oldPage j.oldBase.2 j.oldPj else j.oldPage }) s
  let s := if copies.contains 0 then
      programJournal 1 j.lunB j.baseBlock j.pj j.page (programJournal 0 j.lunA j.baseBlock j.pj j.page s)
    else s
  let s := if copies.contains 2 then programJournal 2 (survivorLun j) j.oldBase.1 j.oldPj j.oldPage s else s
  if s.modes.holdup then s
  else
    let s := if copies.contains 2 then eraseOldRing j s else s
    if copies.contains 0 && j.page % (max 1 j.pj) == 0 then eraseRing [j.page / (max 1 j.pj) + 2] s else s

/-- The program of a copy of the page in flight (R307, R364). -/
def programCopy (copy : Nat) (s : State) : State :=
  let j := s.stripe.jrnl
  if copy == 2 then
    programJournal 2 (survivorLun j) j.oldBase.1 j.oldPj (ringPrev j.oldPage j.oldBase.2 j.oldPj) s
  else
    match j.inFlight with
    | some p => programJournal copy (if copy == 0 then j.lunA else j.lunB) j.baseBlock j.pj p.page s
    | none => s

/-- Step 3 of the latch sequence: the programs of the page in flight that step 1 withdrew or aborted are placed again, since
its records are to become durable (R170, R459). -/
def placePageAgain (s : State) : State :=
  (s.stripe.jrnl.copiesLeft.filter (fun c => !(s.sched.jobs.any (fun j => j.owner == .journal c && j.state != .ended)))).foldl
    (fun s c => programCopy c s) s

/-- A record page from the waiting records (R308, R310). -/
def startRecords (s : State) : State :=
  let j := s.stripe.jrnl
  let recs := (j.queue.take 2047).map (stampFold (j.jseq + 1))
  let first := if recs.any (fun r => recType r == 8) then some (j.page, j.jseq + 1) else j.foldFirst
  let s := modJrnl (fun j => { j with queue := j.queue.drop 2047, foldFirst := first, snapTurn := true }) s
  launchPage { kind := 0, jseq := j.jseq + 1, page := j.page, recs := recs } recs.length s

/-- Window offset of the next snapshot page's data, WOFFSET (R308, R311). -/
def snapOffset (s : State) : Nat := (snapPages s - s.stripe.jrnl.snapLeft) * 61440

/-- The window reads of the next snapshot page: address and bytes; nothing lies beyond the end of the window (R33, R308). -/
def snapReads (s : State) : List (Nat × Nat) :=
  splitLens 17 (winBase s + snapOffset s) (min 61440 (winBytes s - snapOffset s))

/-- A window read of the snapshot page is outstanding, or held after a fabric error. -/
def snapReading (s : State) : Bool :=
  (s.host.reads ++ s.host.rstalled).any (fun r => r.what == .snapRead) || s.stripe.winReadHeld.any (fun h => h.1 == .snapRead)

/-- The window bytes of the next snapshot page have been read (R311). -/
def snapWhole (s : State) : Bool :=
  (snapReads s).all (fun p => s.stripe.jrnl.snapGot.any (fun x => x.1 == p.1 - winBase s))

/-- The reads of the next snapshot page begin (R32, R311). -/
def readSnapshot (s : State) : State :=
  if snapReading s then s
  else hostReadData .snapRead (winBase s + snapOffset s) (min 61440 (winBytes s - snapOffset s))
    (modJrnl (fun j => { j with snapGot := [] }) s)

/-- A window read of the snapshot page returns (R34, R311). -/
def snapArrived (addr len : Nat) (beats : List Byte) (s : State) : State :=
  if s.stripe.jrnl.folding && (snapReads s).contains (addr, len) then
    modJrnl (fun j => { j with
      snapGot := j.snapGot ++ [(addr - winBase s, padTo len (fromBeats [(addr, len)] beats))] }) s
  else s

/-- The 61,440 bytes of the next snapshot page as they were read; those beyond the end of the window are zero (R308). -/
def snapData (s : State) : List Byte :=
  padTo 61440 ((snapReads s).flatMap (fun p => (s.stripe.jrnl.snapGot.lookup (p.1 - winBase s)).getD (zeros p.2)))

/-- A snapshot page from the window as it was read (R311). -/
def startSnapshot (s : State) : State :=
  let j := s.stripe.jrnl
  let off := snapOffset s
  let snap := snapData s
  let s := modJrnl (fun j => { j with snapLeft := j.snapLeft - 1, snapTurn := false, snapGot := [] }) s
  let s := launchPage { kind := 1, jseq := j.jseq + 1, page := j.page, recs := [], snap := snap, woff := off } 0 s
  if j.snapLeft == 1 then
    modJrnl (fun j => { j with foldEnd := true })
      (addRec (mkRec 9 0 [(8, (j.foldFirst.getD (0, 0)).2)]) s)
  else s

/-- A snapshot page waits to be built: the fold has begun, and every write-through has reached the window (R311, R593). -/
def snapReady (s : State) : Bool :=
  let j := s.stripe.jrnl
  j.folding && j.foldFirst.isSome && 0 < j.snapLeft && !s.modes.holdup && s.stripe.held.isEmpty
    && s.stripe.winWait.isEmpty && (winOut s).isEmpty

/-- Pages that recovery programs have not all ended (R316). -/
def repairing (s : State) : Bool := s.bg.runs.any (fun r => r.service == .repair)

/-- The journal is written: it runs or moves, or recovery folds or writes its records (R315, R364). -/
def jrnlLive (j : Jrnl) : Bool := j.state == 2 || j.state == 3 || (j.state == 1 && (j.recStep == 3 || j.recStep == 4))

/-- The journal takes pages: it is written, no page is in flight, recovery's pages are programmed, and a copy can be written
(R307, R315, R364). -/
def jrnlWrites (s : State) : Bool :=
  let j := s.stripe.jrnl
  jrnlLive j && j.inFlight.isNone && blockReady j
    && !(pageCopies 0 j).isEmpty && !(repairing s)
    && (!s.modes.quarantine || s.modes.holdup || s.power.latchSeq == 2)

/-- JOURNAL_PAGE_START: a record page when records wait, a snapshot page when one waits, alternating when both do. A snapshot
page is read from the window first; record pages go on meanwhile (R310, R311, R593). -/
def execJournalPageStart (s : State) : Out :=
  .next <|
    let j := s.stripe.jrnl
    let turn := j.queue.isEmpty || j.snapTurn
    if !(jrnlWrites s) then s
    else if turn && snapWhole s && j.folding && 0 < j.snapLeft && !s.modes.holdup then startSnapshot s
    else
      let s := if turn && snapReady s && !(snapWhole s) then readSnapshot s else s
      if j.queue.isEmpty then s else startRecords s

/-! ### Folds (R311) -/

/-- Whole windows fit between folds (R311, R312). -/
def foldAt (s : State) : Nat := cfg 0x2800 3 s + 2 * snapPages s

/-- A fold starts: FOLD_START is generated (R311). -/
def startFold (s : State) : State :=
  modJrnl (fun j => { j with folding := true, foldFirst := none, snapLeft := snapPages s, snapGot := [], foldEnd := false })
    (addRec (mkRec 8 0 [(16, snapPages s)]) s)

/-- A fold starts when the pages since FOLD_PAGE call for one, and not in HOLDUP (R311). -/
def foldIfDue (s : State) : State :=
  let j := s.stripe.jrnl
  if !j.folding && !s.modes.holdup && !s.modes.quarantine && j.state == 2 && foldAt s ≤ j.pages then startFold s else s

/-- HOLDUP cuts a fold: no further snapshot page and no FOLD_END (R311). -/
def cutFold (s : State) : State :=
  modJrnl (fun j => if j.folding then { j with
    folding := false, snapLeft := 0, snapGot := [], foldFirst := none, foldEnd := false
    queue := j.queue.map (fun r => if recType r == 9 then 0 else r) } else j) s

/-! ### Anchors (R313, R314, R419) -/

/-- Bytes 0 to 59 of an anchor. -/
def anchorBody (aseq : Nat) (s : State) : List Byte :=
  let j := s.stripe.jrnl
  padTo 60 (le 4 0x0D1AAC40 ++ le 4 aseq ++ le 4 j.epoch.toNat ++ le 2 j.lunA ++ le 2 j.lunB ++ le 2 j.baseBlock
    ++ le 2 j.blocks ++ le 8 j.foldJseq ++ le 4 j.foldPage ++ le 4 s.stripe.mib.toNat)

/-- A block of a cascade of more than one. -/
def inCascade (s : State) : Bool := !s.dv.solo

/-- The place of the next anchor record: sector of the area and record (R314). -/
def anchorNext (s : State) : Nat × Nat :=
  let j := s.stripe.jrnl
  if !j.anchorValid then (0, 0)
  else if j.anchorRecord + 1 < 64 then (j.anchorSector, j.anchorRecord + 1)
  else (nextSector 0x700 64 (0x700 + j.anchorSector) s - 0x700, 0)

/-- The 64 bytes of an anchor put into the next record; record 0 of a sector erases the next sector (R314). -/
def putAnchor (bs : List Byte) (s : State) : State :=
  let (sec, rec) := anchorNext s
  let s := if rec == 0 then eraseSector (nextSector 0x700 64 (0x700 + sec) s) s else s
  let s := storeBytes (0x700 + sec) (8 * rec) bs s
  modJrnl (fun j => { j with
    aseq := BitVec.ofNat 32 (leAt bs 4 4), anchorMib := leAt bs 32 4, anchorSector := sec, anchorRecord := rec
    anchorValid := true }) s

/-- An anchor written (R314); the lead block mirrors it to its followers (R419). -/
def writeAnchor (s : State) : State :=
  let body := anchorBody (if s.stripe.jrnl.anchorValid then s.stripe.jrnl.aseq.toNat + 1 else 1) s
  let bs := body ++ le 4 (crc32c body)
  let s := putAnchor bs s
  if s.modes.lead && inCascade s then dvSend 0x22 none bs s else s

/-- The JOURNAL source (R482). -/
def journalEvent (cause : Nat) (s : State) : State :=
  let j := s.stripe.jrnl
  raisePriv 249 false (le 2 cause ++ le 2 j.lunA ++ le 2 j.lunB ++ zeros 2 ++ le 4 j.epoch.toNat) s

/-- FOLD_END is durable: the anchor names the fold's first page; a move is done, and the fence of a lost pair clears
(R311, R364, R365). While recovery runs STATE stays 0x1 (R315). -/
def endFold (s : State) : State :=
  let j := s.stripe.jrnl
  let f := j.foldFirst.getD (0, 0)
  let s := modJrnl (fun j => { j with
    foldPage := f.1, foldJseq := f.2, folding := false, foldFirst := none, foldEnd := false
    pages := j.durableJseq + 1 - f.2 }) s
  let s := writeAnchor s
  if j.moving then
    let s := modJrnl (fun j => { j with
      state := if j.state == 1 then 1 else 2, moving := false, survivor := none, lost := false
      oldPair := (j.lunA, j.lunB)
      durableRec := max j.durableRec j.heldRec }) s
    journalEvent 2 (setConds (fun m => { m with fenceJournal := false }) s)
  else s

/-- The page in flight is durable: its records are, unless both copies are lost (R307, R365). -/
def pageDurable (p : JPage) (s : State) : State :=
  let s := modJrnl (fun j => { j with
    inFlight := none
    durableJseq := if p.copies.contains 0 then p.jseq else j.durableJseq
    pages := if p.copies.contains 0 then p.jseq + 1 - j.foldJseq else j.pages
    heldRec := j.pageRecs
    durableRec := if j.lost then j.durableRec else j.pageRecs }) s
  let s := if p.recs.any (fun r => recType r == 9) && s.stripe.jrnl.folding then endFold s else s
  foldIfDue s

/-! ### The pair (R306, R364, R365) -/

/-- The journal LUN candidates in force (R306). -/
def candidates (s : State) : List Nat := (List.range 8).map (fun i => cfg 0x2801 (i + 1) s)

/-- A candidate qualifies (R306). -/
def qualifies (s : State) (u : Nat) : Bool :=
  u < 4096 && lunPresent u s && 19072 ≤ die (lunType u s) 0x0A s
    && cfg 0x2800 1 s + cfg 0x2800 2 s ≤ lunBlocks u s

/-- The pair and the range that the valid anchor records: during a move those of the old pair (R306, R364). -/
def anchoredRange (j : Jrnl) : (Nat × Nat) × (Nat × Nat) :=
  if j.moving then (j.oldPair, j.oldBase) else ((j.lunA, j.lunB), (j.baseBlock, j.blocks))

/-- A block in a protected journal range: that of the current pair, as the valid anchor records it, and the range in force on
every candidate (R306). -/
def protectedBlock (u b : Nat) (s : State) : Bool :=
  let j := s.stripe.jrnl
  let (pair, range) := anchoredRange j
  ((j.state != 0) && (u == pair.1 || u == pair.2) && range.1 ≤ b && b < range.1 + range.2)
    || ((candidates s).contains u && cfg 0x2800 1 s ≤ b && b < cfg 0x2800 1 s + cfg 0x2800 2 s)

/-- The first two qualifying candidates, in list order, on different channels, other than the LUNs given (R306). -/
def pickPair (bar : List Nat) (s : State) : Option (Nat × Nat) :=
  match (candidates s).filter (fun u => qualifies s u && !(bar.contains u)) with
  | [] => none
  | a :: rest => (rest.find? (fun b => b / 32 != a / 32)).map (fun b => (a, b))

/-- Records of the rows in FILLING or SEALING, and the live background records, written to a new pair (R364). -/
def liveRecords (s : State) : State :=
  let s := s.stripe.slots.foldl (fun s k =>
    if k.state == .free then s else addRec (mkRec 1 k.group [(8, k.row), (12, maskOf k.passed)]) s) s
  s.stripe.jrnl.live.foldl (fun s r => addRec r s) s

/-- A new pair taken: EPOCH + 1, pages from 0 with JSEQ 1, the first two blocks erased (R306, R312, R314, R364). -/
def takePair (a b : Nat) (s : State) : State :=
  let s := modJrnl (fun j => { j with
    pairWaits := false, lunA := a, lunB := b, baseBlock := cfg 0x2800 1 s, blocks := cfg 0x2800 2 s
    pj := min (lunPages a s) (lunPages b s), epoch := j.epoch + 1, jseq := 0, durableJseq := 0, page := 0
    foldJseq := 0, foldPage := 0, pages := 0, folding := false, foldFirst := none, snapLeft := 0, snapGot := []
    foldEnd := false, queue := j.queue.map (fun r => if recType r == 8 || recType r == 9 then 0 else r) }) s
  winWrite 0 (headerBytes s) (eraseRing [0, 1] s)

/-- The move waits for a pair: no page goes to a new pair, and a fold that ran is cut, its snapshot pages having no copy to
go to (R364). -/
def awaitPair (s : State) : State := modJrnl (fun j => { j with pairWaits := true }) (cutFold s)

/-- A move to a new pair, or the fence when none qualifies (R364). In HOLDUP and QUARANTINE no fold and no erase starts, so no
pair is taken before the next start (R311, R450, R459). -/
def movePair (s : State) : State :=
  let j := s.stripe.jrnl
  if s.modes.holdup || s.modes.quarantine then awaitPair s
  else match pickPair [j.oldPair.1, j.oldPair.2, j.lunA, j.lunB] s with
    | some (a, b) => startFold (liveRecords (takePair a b s))
    | none => setConds (fun m => { m with fenceJournal := true }) (awaitPair s)

/-- The journal's programs on the copies given belong to it no longer: their ends say nothing of its pages (R364). -/
def disownCopies (cs : List Nat) (s : State) : State :=
  { s with sched := { s.sched with jobs := s.sched.jobs.map (fun x =>
    match x.owner with
    | .journal c => if cs.contains c then { x with owner := .journal 3 } else x
    | _ => x) } }

/-- The journal's programs on the surviving copy of a move that begins are those of copy 2 from then on (R364). -/
def keepCopy (surv : Nat) (s : State) : State :=
  { s with sched := { s.sched with jobs := s.sched.jobs.map (fun x =>
    if x.owner == .journal surv then { x with owner := .journal 2 } else x) } }

/-- A journal copy fails (R364, R365): copy 0 is A, 1 is B, 2 the surviving copy of a running move, 3 one given up before. While
recovery runs STATE stays 0x1 (R315). -/
def journalCopyFailed (copy : Nat) (s : State) : State :=
  let j := s.stripe.jrnl
  if !(jrnlLive j) || copy == 3 then s
  else if !j.moving then
    let surv := 1 - copy % 2
    let s := modJrnl (fun j => { j with
      state := if j.state == 1 then 1 else 3, moving := true, survivor := some surv, oldPair := (j.lunA, j.lunB)
      oldPage := j.page, oldJseq := j.jseq, oldBase := (j.baseBlock, j.blocks), oldPj := j.pj, oldEpoch := j.epoch
      oldFoldJseq := j.foldJseq, copiesLeft := (j.copiesLeft.filter (· == surv)).map (fun _ => 2)
      inFlight := j.inFlight.map (fun p => { p with copies := [2] }) }) s
    movePair (journalEvent 1 (keepCopy surv (disownCopies [1 - surv] s)))
  else if copy == 2 then
    let s := modJrnl (fun j => { j with lost := true, survivor := none, copiesLeft := j.copiesLeft.filter (· != 2) }) s
    journalEvent 3 (setConds (fun m => { m with fenceJournal := true }) s)
  else
    movePair (modJrnl (fun j => { j with
      copiesLeft := j.copiesLeft.filter (· == 2)
      inFlight := if (j.copiesLeft.filter (· == 2)).isEmpty then none
        else j.inFlight.map (fun p => { p with copies := [2] }) }) (disownCopies [0, 1] s))

/-- A LUN of the pair fails as a whole (R328, R364). -/
def journalLunFailed (u : Nat) (s : State) : State :=
  let j := s.stripe.jrnl
  if j.moving && j.survivor.isSome && u == survivorLun j then journalCopyFailed 2 s
  else if j.moving && j.pairWaits then s
  else if u == j.lunA then journalCopyFailed 0 s
  else if u == j.lunB then journalCopyFailed 1 s
  else s

/-- A journal program has ended (R307, R364). While a move runs, the records of the page are durable once the
surviving copy has passed. -/
def journalProgramEnd (copy : Nat) (ok : Bool) (s : State) : State :=
  if copy == 3 then s
  else if ok then
    modJrnl (fun j => { j with
      copiesLeft := j.copiesLeft.filter (· != copy)
      durableRec := if copy == 2 && !j.lost then j.pageRecs else j.durableRec }) s
  else journalCopyFailed copy s

/-- A journal erase has ended; a failure fails its LUN (R364). -/
def journalEraseEnd (u block : Nat) (ok : Bool) (s : State) : State :=
  let s := modJrnl (fun j => { j with erases := j.erases.filter (fun e => !(e == (u, block))) }) s
  if ok then s else journalLunFailed u s

end Sys2Proof.Machine
end

