-- ==== Sys2Proof/Machine/Background.lean ====
section
/-!
DEFINITION. Failure, rebuild, patrol and refit (R327 to R368): member states, the failure matrix, the spare pool, rows in
hand, and what a rebuild, a patrol or a refit does between its rows.
-/
namespace Sys2Proof.Machine

/-! ### The failure matrix (R336, R337) -/

/-- One codeword of a member as the read of a row found it (R280, R347, R352). -/
structure MemberRead where
  member : Nat := 0
  cw : Nat := 0
  data : Option (List Byte) := none
  label : List Byte := []
  erased : Bool := false
deriving DecidableEq, Repr

/-- What was read of codeword `c` of member `m`. -/
def gotCw (reads : List MemberRead) (m c : Nat) : Option (List Byte) :=
  match reads.find? (fun r => r.member == m && r.cw == c) with
  | some r => r.data
  | none => none

/-- The row of a member in MSTATE 0x2 lies below the rebuild pointer (R327). -/
def rebuiltRow (g m r : Nat) (s : State) : Bool :=
  s.bg.active && s.bg.curGroup == g && s.bg.curMember == m && r < s.bg.pointer

/-- The member's codewords of a row are reconstructed without a read (R327, R430). -/
def memberGone (g m r : Nat) (s : State) : Bool :=
  let w := memberAt g m s
  w.mstate == 1 || w.mstate == 3 || (w.mstate == 2 && !(rebuiltRow g m r s)) || !(reachable w.lun s)

/-- Codeword `c` of member `m` belongs to E (R336). -/
def inE (g r m c : Nat) (got : Option (List Byte)) (s : State) : Bool :=
  memberGone g m r s || (m < (dirAt g s).width && inLedger g m r c s) || got.isNone

/-- DATA_MASK of a row: the seal of a parity codeword read with it, else the directory's list (R303). -/
def maskWith (g r : Nat) (reads : List MemberRead) (s : State) : Nat :=
  match reads.find? (fun x => (byteAt x.label 0 == 2 || byteAt x.label 0 == 3)) with
  | some x => sealMask (leAt x.label 16 12)
  | none => rowMask g r s

/-- The erasure set of codeword `c`, ascending: a data member outside DATA_MASK never belongs to it (R336). -/
def erasures (g r c mask : Nat) (reads : List MemberRead) (s : State) : List Nat :=
  let w := (dirAt g s).width
  (List.range (w + 2)).filter (fun m => (w ≤ m || bitAt mask m) && inE g r m c (gotCw reads m c) s)

/-- The data codewords of index `c` that are known: read, or recovered when at most two members are in E (R337). -/
def knownData (g r c mask : Nat) (reads : List MemberRead) (s : State) : List (Nat × List Byte) :=
  let w := (dirAt g s).width
  let e := erasures g r c mask reads s
  let ds := (List.range w).filterMap (fun m =>
    if bitAt mask m && !(e.contains m) then (gotCw reads m c).map (fun d => (m, d)) else none)
  let p := if e.contains w then none else gotCw reads w c
  let q := if e.contains (w + 1) then none else gotCw reads (w + 1) c
  if e.length ≤ 2 then ds ++ recover w e ds p q else ds

/-- The data members that lose codeword `c` (R337). -/
def lostData (g r c mask : Nat) (reads : List MemberRead) (s : State) : List Nat :=
  let e := erasures g r c mask reads s
  if e.length ≤ 2 then [] else e.filter (· < (dirAt g s).width)

/-- Codewords that member `m` loses newly in a row, as a mask. -/
def newLost (g r m mask : Nat) (reads : List MemberRead) (s : State) : Nat :=
  bitsOf ((List.range 16).map (fun c => (lostData g r c mask reads s).contains m && !(inLedger g m r c s)))

/-- Every loss of a row entered once (R338). -/
def enterLosses (g r mask cause : Nat) (reads : List MemberRead) (s : State) : State :=
  ((List.range (dirAt g s).width).map (fun m => (m, newLost g r m mask reads s))).foldl
    (fun s p => if p.2 == 0 then s else addLoss g p.1 r p.2 cause s) s

/-! ### Rows in hand -/

/-- The row in hand of a number. -/
def runAt (id : Nat) (s : State) : Option RowRun := s.bg.runs.find? (fun r => r.id == id)

/-- The row that a service has in hand. -/
def runOf (v : Service) (s : State) : Option RowRun := s.bg.runs.find? (fun r => r.service == v)

def modRun (id : Nat) (f : RowRun → RowRun) (s : State) : State :=
  { s with bg := { s.bg with runs := s.bg.runs.map (fun r => if r.id == id then f r else r) } }

/-- A row is taken in hand. -/
def takeRow (r : RowRun) (s : State) : State :=
  { s with bg := { s.bg with runs := s.bg.runs ++ [{ r with id := s.bg.nextRun }], nextRun := s.bg.nextRun + 1 } }

/-- Handle of the page set that is programmed for a row in hand (log entry 12). -/
def bgHandle (id : Nat) : Nat := 0xB000 + id % 4096

/-- The job reads for a row in hand. -/
def readsFor (id : Nat) (j : Job) : Bool := j.owner == .row id

/-- Codewords read for a row in hand. -/
def runCws (id : Nat) (s : State) : List Cw :=
  s.sched.cws.filter (fun c => s.sched.jobs.any (fun j => j.handle == c.job && readsFor id j))

/-- The reads of a row are over: jobs not yet popped are withdrawn, and its landing slots are free (R170, R233). -/
def dropReads (id : Nat) (s : State) : State :=
  let hs := (s.sched.jobs.filter (readsFor id)).map (·.handle)
  let s := withdraw (readsFor id) s
  { s with sched := { s.sched with
    cws := s.sched.cws.filter (fun c => !(hs.contains c.job))
    jobs := s.sched.jobs.filter (fun j => !(readsFor id j && j.state == .ended)) } }

/-- A row is out of hand. -/
def endRow (id : Nat) (s : State) : State :=
  let s := dropReads id s
  { s with bg := { s.bg with runs := s.bg.runs.filter (fun r => r.id != id) } }

/-- Rows of a kind are out of hand. -/
def endRows (p : RowRun → Bool) (s : State) : State := (s.bg.runs.filter p).foldl (fun s r => endRow r.id s) s

/-- The event of a service names where it was found (R350, R354, R363). -/
def bgEvent (source g m r : Nat) (s : State) : State :=
  raise source { s with bg := { s.bg with event := some (g, m, r) } }

/-! ### Conditions and the patrol's state -/

/-- DEGRADED holds while any member of any group is in MSTATE 0x1 (R329). -/
def setDegraded (s : State) : State :=
  let d := s.stripe.dir.any (fun e => e.members.any (fun m => m.mstate == 1))
  setConds (fun m => { m with degraded := d }) s

/-- Patrol runs (R351). -/
def patrolRuns (s : State) : Bool :=
  cfgBool 0x2900 2 s && !s.bg.patrolPaused && (s.modes.mode == .service || s.modes.mode == .degraded)

/-- PATROL field of BG_STATUS (R370). -/
def patrolCode (s : State) : Nat :=
  if !cfgBool 0x2900 2 s then 0 else if s.bg.patrolPaused then 2 else if patrolRuns s then 1 else 3

/-- The record of patrol's position (R352). -/
def patrolRec (s : State) : State :=
  addRec (mkRec 0x1C s.bg.patrolGroup [(8, s.bg.patrolRow), (12, s.bg.laps.toNat)]) s

/-- Patrol's state follows the conditions; a pause writes its position (R351, R352). -/
def patrolUpdate (s : State) : State :=
  let c := patrolCode s
  let s' := if s.bg.patrolState == 1 && c != 1 then patrolRec s else s
  { s' with bg := { s'.bg with patrolState := BitVec.ofNat 4 c } }

/-! ### The spare pool (R344) -/

/-- An entry of sparePool: LUN, first block, block count. -/
def poolEntry (i : Nat) (s : State) : Nat × Nat × Nat :=
  let v := cfg 0x2902 (i + 1) s
  (fld v 0 12, fld v 16 16, fld v 32 16)

/-- Blocks left in an entry. -/
def poolLeft (i : Nat) (s : State) : Nat := (poolEntry i s).2.2 - s.bg.spareNext.getD i 0

/-- Some member on the LUN is failed: the entry is out of use (R344). -/
def lunHasFailed (u : Nat) (s : State) : Bool :=
  s.stripe.dir.any (fun e => e.members.any (fun m => m.lun == u && (m.mstate == 1 || m.mstate == 3)))

/-- An entry has a block to take, and no member on its LUN is failed (R344). -/
def poolServes (i : Nat) (s : State) : Bool := poolLeft i s != 0 && !(lunHasFailed (poolEntry i s).1 s)

/-- Groups that a rebuild concerns, ascending (R345). -/
def concerned (g failed : Nat) (s : State) : List Nat :=
  (s.stripe.dir.filter (fun e => (g == 0xFFFFFF || e.group == g) && e.state != 0
    && e.members.any (fun m => m.lun == failed && m.mstate == 1))).map (·.group)

/-- Pool entry `i` serves as a spare for the groups given (R306, R345). -/
def spareFits (s : State) (gs : List Nat) (i : Nat) : Bool :=
  let (u, first, n) := poolEntry i s
  n != 0 && !((List.range gs.length).any (fun k => protectedBlock u (first + s.bg.spareNext.getD i 0 + k) s))
    && lunPresent u s && !(lunHasFailed u s) && gs.length ≤ poolLeft i s
    && !(gs.any (fun g => (dirAt g s).members.any (fun m => m.lun == u)))

/-- The spare of a rebuild: the first pool entry that serves, of the given LUN if one is given (R345). -/
def pickSpare (given : Option Nat) (gs : List Nat) (s : State) : Option Nat :=
  (List.range 32).find? (fun i => spareFits s gs i &&
    match given with | some u => (poolEntry i s).1 == u | none => true)

/-! ### Rebuild (R345 to R350) -/

/-- A refit checkpoint record (R358). -/
def checkpointRec (s : State) : State :=
  addRec (mkRec 0x22 (s.bg.targets.getD s.bg.target 0)
    [(8, s.bg.target), (12, s.bg.refitRow), (16, s.bg.unit)]) { s with bg := { s.bg with refitSince := 0 } }

/-- A rebuild pauses a refit that has no row in hand: a checkpoint names its next row (R24, R361). -/
def pauseRefit (s : State) : State :=
  if (s.bg.refitState == 1 || s.bg.refitState == 3) && (runOf .refit s).isNone then
    checkpointRec { s with bg := { s.bg with refitResume := s.bg.refitState == 3, refitState := 2 } }
  else s

/-- The REBUILD condition follows the queue; it pauses a refit and lets it go on (R24, R345, R361). -/
def rebuildCond (s : State) : State :=
  let on := !s.bg.queue.isEmpty
  let s :=
    if on then pauseRefit s
    else if s.bg.refitState == 2 then { s with bg := { s.bg with refitState := if s.bg.refitResume then 3 else 1 } }
    else s
  let s := { s with bg := { s.bg with
    rebuildState := if on then (if s.bg.rebuildState == 0 then 1 else s.bg.rebuildState) else 0 } }
  patrolUpdate (setConds (fun m => { m with rebuild := on }) s)

/-- A rebuild joins the queue; its record names the spare LUN that was given, or 0xFFFF (R345, R369). -/
def queueRebuild (g failed i : Nat) (given : Option Nat) (s : State) : State :=
  let u := (poolEntry i s).1
  let pos := s.bg.queue.length
  let s := addRec (mkRec 0x16 g [(8, failed), (10, given.getD 0xFFFF), (12, pos)]) s
  rebuildCond { s with bg := { s.bg with
    queue := s.bg.queue ++ [{ group := g, failedLun := failed, spareLun := u, poolIdx := i }] } }

/-- Rebuilds that wait behind the running one (R370). -/
def rebuildsQueued (s : State) : Nat := s.bg.queue.length - 1

/-- autoRebuild after a declaration on a LUN (R346). -/
def autoRebuild (u : Nat) (s : State) : State :=
  let gs := concerned 0xFFFFFF u s
  if cfgBool 0x2900 1 s && !gs.isEmpty then
    match pickSpare none gs s with
    | some i => if 4 < s.bg.queue.length then s else queueRebuild 0xFFFFFF u i none s
    | none => raise 118 s
  else s

/-- The LUNs on which members have been declared failed: a member that was on its spare is failed on its failed LUN
(R329, R346). -/
def autoRebuilds (ms : List (Nat × Nat)) (s : State) : State :=
  (ms.map (fun p => (memberAt p.1 p.2 s).lun)).eraseDups.foldl (fun s u => autoRebuild u s) s

/-- A member can still be declared failed (R327, R329). -/
def canFail (g m : Nat) (s : State) : Bool := (memberAt g m s).mstate == 0 || (memberAt g m s).mstate == 2

/-- No member is being rebuilt any more. -/
def leaveMember (s : State) : State :=
  let s := endRows (fun r => r.service == .rebuild) s
  { s with bg := { s.bg with active := false, switched := false, owed := none, erasing := false } }

/-- The running rebuild has no further group: it ends, and the next of the queue runs. -/
def popRebuild (s : State) : State :=
  let s := leaveMember s
  rebuildCond { s with bg := { s.bg with queue := s.bg.queue.tail } }

/-- Programs of the pages of refit targets. -/
def targetProgram (targets : List Nat) (j : Job) : Bool :=
  targets.contains j.group && match j.owner with | .target _ _ | .parity _ _ => true | _ => false

/-- The slots of rows of the given groups are FREE. -/
def freeSlots (gs : List Nat) (s : State) : State :=
  { s with stripe := { s.stripe with
    slots := s.stripe.slots.map (fun k => if gs.contains k.group then ({} : Slot) else k) } }

/-- HOLDUP and QUARANTINE let no new job of a service be placed (R368, R450, R459). -/
def servicesStopped (s : State) : Bool := s.modes.holdup || s.modes.quarantine

/-- Blocks that a refit leaves are erased at priority 3, unless the services are stopped (R360, R362, R368). -/
def eraseBlocks (ws : List Member) (s : State) : State :=
  if servicesStopped s then s else ws.foldl (fun s m => (addErase .erase m.lun m.block 3 s).2) s

/-- A refit abandoned: the targets freed and erased, the sources normal again (R362). -/
def abandonRefit (cause : Nat) (s : State) : State :=
  if s.bg.refitState == 0 then s
  else
    let s := addRec (mkRec 0x24 0 [(8, s.bg.planId.toNat), (12, cause)]) s
    let ts := s.bg.targets
    let s := endRows (fun r => r.service == .refit) (abortPopped (targetProgram ts) (withdraw (targetProgram ts) s))
    let s := freeSlots ts s
    let words := s.bg.targets.map (fun g =>
      let e := dirAt g s
      if e.members.isEmpty then ((s.bg.plan.find? (fun x => x.group == g)).map (·.members)).getD [] else e.members)
    let s := s.bg.targets.foldl (fun s g => freeDir g s) s
    let s := eraseBlocks words.flatten s
    let s := s.bg.sources.foldl (fun s g => writeDir g (fun e => { e with refitSource := false }) s) s
    let s := { s with bg := { s.bg with
      refitState := 0, sources := [], targets := [], plan := [], refitErases := 0, commitRec := none } }
    patrolUpdate (setConds (fun m => { m with refit := false }) (raise 119 (setDegraded s)))

/-- The word of a failed member: MSTATE 0x1, with the failed LUN of a member that was on its spare (R329). -/
def downWord (g m : Nat) (s : State) : Member :=
  let w := memberAt g m s
  if w.mstate == 2 then { s.bg.failedWord with mstate := 1 } else { w with mstate := 1 }

/-- A member is declared failed (R328, R329, R330). -/
def declareDown (g m cause : Nat) (s : State) : State :=
  let w := downWord g m s
  let old := memberAt g m s
  let s := writeDir g (fun e => { e with members := e.members.set m w }) s
  let s := addRec (mkRec 0x10 g [(8, m), (9, cause), (10, old.lun), (12, w.word)]) s
  let s := raisePriv 242 false (le 3 g ++ le 1 m ++ le 2 cause ++ le 2 old.lun) s
  let s := if s.bg.active && s.bg.curGroup == g && s.bg.curMember == m then leaveMember s else s
  let s := if (dirAt g s).refitTarget then abandonRefit 2 s else s
  let s := if 3 ≤ (dirAt g s).failedCount then closeGroup g s else s
  patrolUpdate (setDegraded s)

/-- A member declared failed for a cause of R328. Already failed or retired members stay as they are. -/
def memberDown (g m cause : Nat) (s : State) : State :=
  if (memberAt g m s).mstate == 1 || (memberAt g m s).mstate == 3 then s else declareDown g m cause s

/-- The members that lie on a LUN, by group. -/
def membersOn (u : Nat) (s : State) : List (Nat × Nat) :=
  (s.stripe.dir.filter (fun e => e.state != 0)).flatMap (fun e =>
    ((List.range e.members.length).filter (fun m =>
      (e.members.getD m {}).lun == u)).map (fun m => (e.group, m)))

/-- Every member on a LUN declared failed (R328); a journal LUN moves the journal (R364); a refit with a target member there,
its targets not yet opened, is abandoned (R362); a rebuild follows when autoRebuild holds (R346). -/
def lunDown (u cause : Nat) (s : State) : State :=
  let ms := (membersOn u s).filter (fun p => canFail p.1 p.2 s)
  let s := ms.foldl (fun s p => memberDown p.1 p.2 cause s) s
  let s := modLun u (fun r => { r with failed := true }) s
  let s := if s.bg.plan.any (fun e => e.members.any (fun m => m.lun == u)) then abandonRefit 2 s else s
  autoRebuilds ms (journalLunFailed u s)

/-- The rebuild of a member takes a spare block, and its erase is placed (R347, R349). -/
def beginMember (r : Rebuild) (g m attempt : Nat) (s : State) : State :=
  let (u, first, _) := poolEntry r.poolIdx s
  let n := s.bg.spareNext.getD r.poolIdx 0
  let failed := if attempt == 0 then memberAt g m s else s.bg.failedWord
  let s := { s with bg := { s.bg with
    spareNext := s.bg.spareNext.set r.poolIdx (n + 1)
    curGroup := g, curMember := m, pointer := 0, attempts := attempt, spareBlock := first + n
    failedWord := failed, switched := false, owed := none, erasing := true } }
  (addErase .spareErase u (first + n) 3 s).2

/-- The spare block is erased: the member lies on it, with its pointer at row 0 (R347). -/
def memberBegun (r : Rebuild) (s : State) : State :=
  let g := s.bg.curGroup
  let m := s.bg.curMember
  let s := { s with bg := { s.bg with erasing := false, active := true, pointer := 0 } }
  let w : Member := { lun := r.spareLun, block := s.bg.spareBlock, mstate := 2 }
  let s := writeDir g (fun e => { e with members := e.members.set m w }) s
  let s := addRec (mkRec 0x12 g [(8, m), (10, r.failedLun), (12, r.spareLun), (14, s.bg.spareBlock), (16, s.bg.attempts)]) s
  setDegraded s

/-- The rebuild of a member given up: declared failed again, REBUILD_ABANDON, the failure event; autoRebuild takes it up again,
unless a LUN of the group is out of reach (R346, R349, R430). -/
def abandonMember (s : State) : State :=
  let g := s.bg.curGroup
  let m := s.bg.curMember
  let down := (memberAt g m s).mstate != 3
  let ms := if down && (dirAt g s).members.all (fun w => reachable w.lun s) then [(g, m)] else []
  let s := leaveMember s
  let s := if down then declareDown g m 7 s else s
  let s := raise 118 (addRec (mkRec 0x15 g [(8, m)]) s)
  autoRebuilds ms { s with bg := { s.bg with queue := s.bg.queue.modify 0 (fun r => { r with next := g + 1 }) } }

/-- An erase or program on the spare has failed (R349): another block, or the member is given up. With the services stopped no
other block is taken: after the next start the rebuild goes on from its record (R350, R368). -/
def spareFailed (s : State) : State :=
  match s.bg.queue with
  | [] => s
  | r :: _ =>
    let t := endRows (fun x => x.service == .rebuild) s
    if servicesStopped s then t
    else if s.bg.attempts + 1 < cfg 0x2900 6 s && poolServes r.poolIdx s then
      beginMember r s.bg.curGroup s.bg.curMember (s.bg.attempts + 1) t
    else abandonMember s

/-- A program on member `m` of a group has failed: on the spare that the running rebuild has switched to it ends the use of that
block (R348, R349), else the member is declared failed (R328, R346). -/
def programDown (g m : Nat) (s : State) : State :=
  if s.bg.active && s.bg.switched && s.bg.curGroup == g && s.bg.curMember == m && (memberAt g m s).mstate == 2 then
    spareFailed s
  else
    let ms := if canFail g m s then [(g, m)] else []
    autoRebuilds ms (memberDown g m 1 s)

/-- The member is in service again (R347). -/
def rebuildDone (s : State) : State :=
  let g := s.bg.curGroup
  let m := s.bg.curMember
  let s := writeDir g (fun e => { e with members := e.members.modify m (fun w => { w with mstate := 0 }) }) s
  let s := leaveMember (addRec (mkRec 0x14 g [(8, m)]) s)
  let s := { s with bg := { s.bg with
    queue := s.bg.queue.modify 0 (fun r => { r with next := g + 1 }) } }
  setDegraded s

/-- The pointer has reached the group's last written row: the member is done, or, in an open group that has already
accepted it for NEXT_ROW, is switched and owes that page; once that is rebuilt it is done, its later rows having been programmed
on the spare (R347, R348). -/
def reachEnd (s : State) : State :=
  let e := dirAt s.bg.curGroup s
  match s.bg.owed with
  | some r => if r < s.bg.pointer then rebuildDone s else s
  | none =>
    if s.bg.pointer < e.nextRow then s
    else if e.state == 1 && e.accepted.contains s.bg.curMember then
      { s with bg := { s.bg with switched := true, owed := some e.nextRow } }
    else rebuildDone s

/-- Background work may start (R22, R368, R414). -/
def bgRuns (s : State) : Bool :=
  match s.modes.mode with
  | .service | .degraded | .rebuild | .refit => true
  | _ => false

/-- A codeword that cannot be recovered is written as a sentinel (R339). -/
def sentinelCw : PageCw := { user := zeroCw, kind := 4, member := 0xFF }

/-- The codeword of a member outside DATA_MASK is written as a pad (R302, R347). -/
def padCw (m : Nat) : PageCw := { user := zeroCw, kind := 4, member := m }

/-- One rebuilt codeword: data, a pad, parity, or a sentinel (R339, R347). -/
def rebuildCw (g m r c mask : Nat) (reads : List MemberRead) (s : State) : PageCw :=
  let w := (dirAt g s).width
  let ds := knownData g r c mask reads s
  if m < w then
    if !bitAt mask m then padCw m
    else
      match ds.lookup m with
      | some d => { user := d, kind := 1, member := m }
      | none => sentinelCw
  else if (lostData g r c mask reads s).isEmpty then
    { user := if m == w then parityP ds else parityQ ds, kind := if m == w then 2 else 3, member := m }
  else sentinelCw

/-- The seal of a rebuilt parity page: that of the surviving parity codeword with FORM 0x5, or a new one when neither
survives, over the data members that did not decode as pads; those that the short list tells to be outside are pads, unread
(R303, R347). -/
def rebuildSeal (g m mask : Nat) (reads : List MemberRead) (s : State) : Nat × Nat × State :=
  match reads.find? (fun x => (byteAt x.label 0 == 2 || byteAt x.label 0 == 3)) with
  | some x =>
    let w := leAt x.label 16 12
    (mask, (mkSeal (sealSeq w) (sealMask w) 5 (sealGen w) (fld w 80 16)).toNat, s)
  | none =>
    let e := dirAt g s
    if m < e.width then (mask, 0, s)
    else
      let pads := (List.range e.width).filter (fun x => reads.any (fun r => r.member == x && byteAt r.label 0 == 4))
      let mk := maskOf ((List.range e.width).filter (fun x => bitAt mask x && !(pads.contains x)))
      let seq := s.stripe.jrnl.sealNext
      (mk, (mkSeal seq.toNat mk 5 e.gen.toNat s.stripe.jrnl.epoch.toNat).toNat,
        { s with stripe := { s.stripe with jrnl := { s.stripe.jrnl with sealNext := seq + 1 } } })

/-- The pointer moves past a row; every 64 rows a record names the next (R347). -/
def advance (s : State) : State :=
  let n := s.bg.pointer + 1
  let s := { s with bg := { s.bg with pointer := n } }
  if n % 64 == 0 then addRec (mkRec 0x13 s.bg.curGroup [(8, s.bg.curMember), (12, n)]) s else s

/-! ### Patrol (R351 to R354) -/

/-- A group that patrol visits (R351). -/
def patrolVisits (e : DirEntry) : Bool :=
  e.state != 0 && e.failedCount == 0 && !e.refitSource && !e.refitTarget

/-- Patrol's next sealed row from a position. -/
def nextPatrol (s : State) (g r : Nat) : Option (Nat × Nat) :=
  (s.stripe.dir.filter (fun e => patrolVisits e && g ≤ e.group)).findSome? (fun e =>
    let from_ := if e.group == g then r else 0
    (findFrom (fun x => (findSlot e.group x s).isNone) (e.nextRow - from_) from_).map (fun x => (e.group, x)))

/-- The drawers of the row's channels hold no item at priority 0 to 2 (R352). -/
def drawersIdle (g : Nat) (s : State) : Bool :=
  (dirAt g s).members.all (fun w => !(ownLun w.lun s) ||
    (jigAt (lunChan w.lun) s).drawer.all (fun it => itemPrio it == 3))

/-- Findings of patrol counted (R353, R354). -/
def countFind (unread silent parity unres : Nat) (s : State) : State :=
  { s with
    bg := { s.bg with
      unreadable := satAdd s.bg.unreadable unread, silent := satAdd s.bg.silent silent
      parity := satAdd s.bg.parity parity, unresolved := satAdd s.bg.unresolved unres }
    stats := { s.stats with silentFound := s.stats.silentFound + silent } }

/-- All bytes are zero. -/
def allZero (l : List Byte) : Bool := l.all (· == 0)

/-- The one data member that explains both differences at every byte (R353). -/
def silentMember (w mask : Nat) (dp dq : List Byte) : Option Nat :=
  (List.range w).find? (fun x => bitAt mask x && dq == gfScale (gfPow x) dp)

/-- Patrol's check of one codeword index (R353, R354). -/
def patrolCw (g r mask : Nat) (reads : List MemberRead) (s : State) (c : Nat) : State :=
  let w := (dirAt g s).width
  let e := erasures g r c mask reads s
  let ds := knownData g r c mask reads s
  let dp := xorBytes ((gotCw reads w c).getD []) (parityP ds)
  let dq := xorBytes ((gotCw reads (w + 1) c).getD []) (parityQ ds)
  let unread := (List.range (w + 2)).filter (fun m => (w ≤ m || bitAt mask m) && (gotCw reads m c).isNone
    && !(m < w && inLedger g m r c s))
  let s := unread.foldl (fun s m => bgEvent 116 g m r (countFind 1 0 0 0 s)) s
  match e with
  | [] =>
    if allZero dp && allZero dq then s
    else if allZero dp || allZero dq then bgEvent 116 g (if allZero dq then w else w + 1) r (countFind 0 0 1 0 s)
    else
      match silentMember w mask dp dq with
      | some x => addLoss g x r (2 ^ c) 4 (countFind 0 1 0 0 s)
      | none => bgEvent 116 g 0xFF r (countFind 0 0 0 1 s)
  | [m] =>
    let bad := if m == w + 1 then !(allZero dp) else !(allZero dq)
    if bad then bgEvent 116 g m r (countFind 0 0 0 1 s) else s
  | _ => s

/-- A row patrolled (R352 to R354). -/
def patrolOne (g r : Nat) (reads : List MemberRead) (s : State) : State :=
  let mask := maskWith g r reads s
  let s := (List.range 16).foldl (patrolCw g r mask reads) s
  let s := enterLosses g r mask 6 reads s
  let s := { s with bg := { s.bg with patrolGroup := g, patrolRow := r + 1, patrolSince := s.bg.patrolSince + 1 } }
  if s.bg.patrolSince == 1024 then patrolRec { s with bg := { s.bg with patrolSince := 0 } } else s

/-- A lap ends and the next starts; one cut short is not a complete one (R351, R370, R371). -/
def newLap (complete : Bool) (s : State) : State :=
  let s := endRows (fun r => r.service == .patrol) s
  { s with bg := { s.bg with
    laps := if complete then s.bg.laps + 1 else s.bg.laps
    lastLap := if complete then (s.now - s.bg.lapStart.getD s.now) / 1000000 else s.bg.lastLap
    lapStart := some s.now, patrolGroup := 0, patrolRow := 0 } }

/-! ### Refit (R355 to R363) -/

/-- The units of a row of a source: its data members in DATA_MASK (R357). -/
def rowUnits (g : Nat) (s : State) (r : Nat) : List (Nat × Nat × Nat) :=
  ((List.range (dirAt g s).width).filter (fun m => bitAt (sealedMask g r s) m)).map (fun m => (g, r, m))

/-- The stream of units of the sources, as (group, row, member) (R357). -/
def unitStream (sources : List Nat) (s : State) : List (Nat × Nat × Nat) :=
  sources.flatMap (fun g => (List.range (dirAt g s).nextRow).flatMap (rowUnits g s))

/-- Capacity of a target entry in units (R357). -/
def capacity (e : DirEntry) : Nat := e.width * e.rows

/-- Target index, row and member of unit `k` (R357). -/
def unitPlace : List DirEntry → Nat → Nat → Option (Nat × Nat × Nat)
  | [], _, _ => none
  | e :: es, t, k =>
    if k < capacity e then some (t, k / (max 1 e.width), k % (max 1 e.width)) else unitPlace es (t + 1) (k - capacity e)

/-- Target entries of the running refit. -/
def targetEntries (s : State) : List DirEntry := s.bg.targets.map (fun g => dirAt g s)

/-- The member words of GROUP_MEMBERS records, six to a record (R309). -/
def memberRecs (g : Nat) : Nat → Nat → List Member → State → State
  | 0, _, _, s => s
  | fuel + 1, i, ms, s =>
    if ms.isEmpty then s
    else
      let six := ms.take 6
      memberRecs g fuel (i + 6) (ms.drop 6) (addRec (mkRec 4 g ([(2, i), (3, six.length)]
        ++ (List.range six.length).map (fun k => (8 + 4 * k, (six.getD k {}).word)))) s)

/-- A group opened: GROUP_OPENED, GROUP_MEMBERS, and the directory entry with GEN one higher (R292). -/
def openGroup (e : DirEntry) (s : State) : State :=
  let gen := (dirAt e.group s).gen + 1
  let s := addRec (mkRec 3 e.group [(8, e.width), (9, e.profile - 1), (10, gen.toNat), (12, e.rows)]) s
  let s := memberRecs e.group 6 0 e.members s
  writeDir e.group (fun old => { e with gen := old.gen + 1, eseq := old.eseq, opening := false }) s

/-- Erase of a target has ended: a failure abandons the refit; after the last the targets are opened, and REFIT_SOURCE
records follow (R356, R369). -/
def refitEraseEnd (ok : Bool) (s : State) : State :=
  if !ok then abandonRefit 1 s
  else
    let s := { s with bg := { s.bg with refitErases := s.bg.refitErases - 1 } }
    if s.bg.refitErases == 0 then
      let s := s.bg.plan.foldl (fun s e => openGroup e s) s
      let s := (List.range s.bg.sources.length).foldl (fun s i =>
        addRec (mkRec 0x21 (s.bg.sources.getD i 0) [(8, i)]) s) s
      { s with bg := { s.bg with plan := [] } }
    else s

/-- A target row found sealed is adopted: ROW_SEALED with its seal, the short list, the next row (R303, R363). -/
def adoptRow (g row : Nat) (w : Nat) (s : State) : State :=
  let e := dirAt g s
  let s := { s with stripe := { s.stripe with jrnl := { s.stripe.jrnl with
    sealNext := BitVec.ofNat 32 (max s.stripe.jrnl.sealNext.toNat (sealSeq w + 1)) } } }
  let s := addRec (mkRec 2 g [(8, row), (12, w)]) s
  let s := if sealMask w == 2 ^ e.width - 1 then s else listShort g row (sealMask w) s
  writeDir g (fun e => { e with nextRow := row + 1, lastSeal := BitVec.ofNat 32 (sealSeq w) }) s

/-- After a target row: the next unit, row and target, a checkpoint every 64 rows, and the commit after the last; a rebuild
that waits for the row then pauses the refit (R358, R360, R361). -/
def afterTargetRow (n total : Nat) (s : State) : State :=
  let e := (targetEntries s).getD s.bg.target {}
  let row := s.bg.refitRow + 1
  let s := { s with bg := { s.bg with
    unit := s.bg.unit + n
    target := if row < e.rows then s.bg.target else s.bg.target + 1
    refitRow := if row < e.rows then row else 0
    refitSince := s.bg.refitSince + 1 } }
  if total ≤ s.bg.unit then
    let s := addRec (mkRec 0x23 0 [(8, s.bg.planId.toNat)]) s
    { s with bg := { s.bg with refitState := 4, commitRec := some (lastRec s) } }
  else if !s.bg.queue.isEmpty then pauseRefit s
  else if s.bg.refitSince == 64 then checkpointRec s
  else s

/-- A target row joins the runs of its job, rows coming in ascending order. -/
def joinRun (job : Word) (acc : List BindEntry) (x : Nat × Nat) : List BindEntry :=
  match acc.getLast? with
  | some b =>
    if b.group == x.1 && b.first ≤ x.2 && x.2 < b.first + b.rows then acc
    else if b.group == x.1 && x.2 == b.first + b.rows then acc.dropLast ++ [{ b with rows := b.rows + 1 }]
    else acc ++ [{ group := x.1, first := x.2, rows := 1, job := job }]
  | none => [{ group := x.1, first := x.2, rows := 1, job := job }]

/-- Bind entries of the source rows of the refit. -/
def sourceBinds (s : State) : List (Nat × BindEntry) :=
  s.stripe.binds.filter (fun b => s.bg.sources.contains b.2.group)

/-- The binds that the sources' binds become: for each job every target row that holds a unit of a bound source row, merged
into runs that are disjoint and never adjoin (R360, R380, R383). -/
def movedBinds (s : State) : List BindEntry :=
  let us := unitStream s.bg.sources s
  let es := targetEntries s
  let old := (sourceBinds s).map (·.2)
  (old.map (·.job)).eraseDups.flatMap (fun job =>
    let rows := (List.range us.length).filterMap (fun k =>
      let u := us.getD k (0, 0, 0)
      if old.any (fun b => b.job == job && b.group == u.1 && b.first ≤ u.2.1 && u.2.1 < b.first + b.rows) then
        (unitPlace es 0 k).map (fun p => (s.bg.targets.getD p.1 0, p.2.1))
      else none)
    rows.foldl (joinRun job) [])

/-- The bind table has room for the binds that move (R383; DESIGN CHOICE, log entry 125: a commit waits while it has not). -/
def bindsMovable (s : State) : Bool := (movedBinds s).length ≤ bindsFree s + (sourceBinds s).length

/-- Binds of source rows move to the target rows of their units (R360, R383). -/
def moveBinds (s : State) : State :=
  let runs := movedBinds s
  let gone := (sourceBinds s).map (·.1)
  let s := gone.foldl (fun s i => winWrite (bindOff i) (zeros 16) s)
    { s with stripe := { s.stripe with
      binds := s.stripe.binds.filter (fun b => !(gone.contains b.1))
      bindCache := s.stripe.bindCache.filter (fun i => !(gone.contains i)) } }
  let s := runs.foldl (fun s b =>
    match freeBind s with
    | some i => winWrite (bindOff i) b.bytes
        (touchBinds [i] { s with stripe := { s.stripe with binds := putAsc i b s.stripe.binds } })
    | none => s) s
  (runs.map (·.group)).eraseDups.foldl (fun s g => writeDir g (fun e => { e with boundRows := true }) s) s

/-- REFIT_COMMIT is durable: the targets serve and the sources are free (R360). -/
def commitRefit (s : State) : State :=
  let s := moveBinds s
  let words := s.bg.sources.flatMap (fun g => (dirAt g s).members)
  let s := s.bg.targets.foldl (fun s g => writeDir g (fun e => { e with state := 2, refitTarget := false }) s) s
  let s := s.bg.sources.foldl (fun s g => freeDir g (clearLedgerGroup g s)) s
  let s := eraseBlocks words s
  let s := { s with bg := { s.bg with refitState := 0, sources := [], targets := [], commitRec := none } }
  patrolUpdate (setConds (fun m => { m with refit := false }) (raise 119 (setDegraded s)))

/-- HOLDUP or QUARANTINE stops the background services: rows that are being read are given up, programs in flight finish, and
the services' records are written (R368). -/
def stopBackground (s : State) : State :=
  let s := endRows (fun r => r.phase == .reading) s
  let s := if s.bg.active then
      addRec (mkRec 0x13 s.bg.curGroup [(8, s.bg.curMember), (12, s.bg.pointer)]) s else s
  let s := if s.bg.refitState == 1 || s.bg.refitState == 3 then checkpointRec s else s
  patrolUpdate s

/-! ### Commands of the host and of the journal (R331, R343, R362, R364) -/

/-- DECLARE_LUN_FAILED (R328, R490, R502). -/
def execDeclareLunFailed (lun : BitVec 16) (s : State) : Out :=
  .next <| if appliesObjects s && lun.toNat < 4096 then lunDown lun.toNat 6 s else s

/-- A retireMember value is accepted for a member in MSTATE 0x1 only (R331). -/
def retirable (n : Nat) (s : State) : Bool :=
  groupExists (fld n 0 24) s && fld n 24 8 < (dirAt (fld n 0 24) s).members.length
    && (memberAt (fld n 0 24) (fld n 24 8) s).mstate == 1

/-- A member retired (R331). -/
def retireMember (n : Nat) (s : State) : State :=
  let g := fld n 0 24
  let m := fld n 24 8
  if retirable n s then
    let s := writeDir g (fun e => { e with members := e.members.modify m (fun w => { w with mstate := 3 }) }) s
    patrolUpdate (setDegraded (addRec (mkRec 0x11 g [(8, m)]) s))
  else s

/-- RETIRE_MEMBER (R331, R490, R502). -/
def execRetireMember (v : Word) (s : State) : Out := .next (if appliesObjects s then retireMember v.toNat s else s)

/-- LEDGER_CLEAR (R343, R490, R502). -/
def execLedgerClear (idx : BitVec 16) (s : State) : Out :=
  .next <| if appliesObjects s && idx.toNat < 4096 then clearLedger idx.toNat s else s

/-- REFIT_ABORT: a refitAbort write of true (R362, R490, R502). -/
def execRefitAbort (v : Byte) (s : State) : Out :=
  .next <| if appliesObjects s && v == 1 then abandonRefit 3 s else s

/-- A journal candidate written: while a move waits for a pair the value takes effect at once and the move is tried again
(R306, R364). -/
def candidateWritten (sub n : Nat) (s : State) : State :=
  let j := s.stripe.jrnl
  if j.moving && j.pairWaits then
    movePair { s with dict := { s.dict with force := putValue 0x2801 sub (le 2 n) s.dict.force } }
  else s

end Sys2Proof.Machine
end

