-- ==== Sys2Proof/Machine/Operands.lean ====
section
/-!
DEFINITION. Operand forms: the fields of a ring entry and of its elements, scatter lists, row ranges, member descriptors
and the refit plan, and the checks that can be made on them alone (R97 to R117, R355).
-/
namespace Sys2Proof.Machine

/-! ### Unit 0 (R97) -/

/-- Unit 0 of a ring entry. -/
structure Head0 where
  byte0 : Byte := 0
  opcode : Nat := 0
  tag : Nat := 0
  group : Nat := 0
  member : Nat := 0
  roww : Nat := 0
  length : Nat := 0
  addr : Nat := 0
  options : Nat := 0
deriving DecidableEq, Repr

def parseHead (u : List Byte) : Head0 :=
  { byte0 := u.getD 0 0, opcode := byteAt u 1, tag := leAt u 2 2, group := leAt u 4 3, member := byteAt u 7
    roww := leAt u 8 4, length := leAt u 12 4, addr := leAt u 16 8, options := leAt u 24 8 }

def Head0.own (h : Head0) : Bool := bitAt h.byte0.toNat 7
def Head0.first (h : Head0) : Bool := bitAt h.byte0.toNat 6
def Head0.last (h : Head0) : Bool := bitAt h.byte0.toNat 5
def Head0.units (h : Head0) : Nat := fld h.byte0.toNat 0 3 + 1
def Head0.row (h : Head0) : Nat := fld h.roww 0 20
def Head0.cwMask (h : Head0) : Nat := fld h.roww 20 8
def Head0.opt (h : Head0) (lo w : Nat) : Nat := fld h.options lo w
def Head0.sgl (h : Head0) : Bool := bitAt h.options 2

/-- The elements carried by units 1 and following: 2 in each unit but the last, 1 in the last (R98). -/
def elementsOf (units : Nat) (rest : List Byte) : List (BitVec 128) :=
  (List.range (2 * units - 3)).map (fun i => BitVec.ofNat 128 (leAt rest (16 * i) 16))

/-- Bytes 16 to 23 of the last unit are zero (R98). -/
def lastUnitOk (units : Nat) (rest : List Byte) : Bool :=
  units == 1 || leAt rest ((units - 2) * 32 + 16) 8 == 0

/-! ### Opcodes (R114, R117, R118) -/

/-- Known opcodes (R114). -/
def knownOp (op : Nat) : Bool :=
  op == 0x01 || op == 0x02 || op == 0x03 || op == 0x04 || op == 0x05 || op == 0x06 || op == 0x10 || op == 0x20
    || op == 0x21 || op == 0x22 || op == 0x23 || op == 0x24 || op == 0x30 || op == 0x31 || op == 0x3F

/-- Opcodes that may chain (R110). -/
def chainOp (op : Nat) : Bool := op == 0x01 || op == 0x02 || op == 0x05 || op == 0x06 || op == 0x20

/-- Option bits an opcode defines (R117). -/
def optionMask (op : Nat) : Nat :=
  if op == 0x01 then 7 + 0xFFFFFFFF * 2 ^ 32
  else if op == 0x02 then 0x73F
  else if op == 0x05 then 3 + 0xFFFFFFFF * 2 ^ 32
  else if op == 0x06 then 0x83 + 0xFFFFFFFF * 2 ^ 32
  else if op == 0x10 || op == 0x20 then 0x303
  else if op == 0x22 then 3 + 0xFFF * 2 ^ 32 + 2 ^ 47
  else if op == 0x24 then 0x303 + 0xFFFFFFFF * 2 ^ 32
  else if op == 0x30 then 3 + 0xFFFF * 2 ^ 8
  else 3

/-- UNITS is allowed for the opcode and options of an entry that stands alone (R98, R112, R114). -/
def unitsOk (h : Head0) : Bool :=
  if h.opcode == 0x01 || h.opcode == 0x02 then h.sgl || h.units == 1
  else if h.opcode == 0x05 || h.opcode == 0x06 || h.opcode == 0x20 || h.opcode == 0x3F then true
  else if h.opcode == 0x10 then h.units ≤ 5
  else h.units == 1

/-- GROUP, MEMBER, ROW, CW_MASK, LENGTH and ADDR lie within what the opcode allows (R101, R114). -/
def fieldsOk (h : Head0) (chained : Bool) : Bool :=
  let zeroRow := h.roww == 0
  let aligned := h.addr % 32 == 0
  match h.opcode with
  | 0x01 => h.roww / 2 ^ 28 == 0 && h.cwMask == 0xFF && (h.member == 0xFF || h.length == 16) && aligned
      && (!(h.sgl && (chained || h.units != 1)) || h.addr == 0)
  | 0x02 => h.roww / 2 ^ 28 == 0 && h.cwMask != 0 && h.opt 4 2 != 3 && h.opt 8 3 != 7 && aligned
      && (h.member == 0xFF || h.length == (cwSelect h.cwMask (h.opt 4 2)).length)
      && (!(h.sgl && (chained || h.units != 1)) || h.addr == 0)
  | 0x03 | 0x04 | 0x21 => h.member == 0 && zeroRow && h.length == 0 && h.addr == 0
  | 0x05 | 0x06 => h.member == 0 && h.roww / 2 ^ 20 == 0 && 1 ≤ h.length && h.length ≤ 1048576 && h.addr == 0
      && (h.opcode == 0x06 || h.opt 32 32 != 0xFFFFFFFF)
  | 0x10 => h.member == 0 && h.group < 128 && h.roww < 2048 && h.length ≤ 16 && aligned
  | 0x20 => h.member == 0 && zeroRow && 4 ≤ h.length && h.length ≤ 34 && h.addr == 0
  | 0x22 => h.member == 0 && h.roww < 4096 && h.length == 0 && h.addr == 0
  | 0x23 => h.group == 0 && h.member == 0 && zeroRow && aligned
  | 0x24 => h.group == 0 && h.member == 0 && zeroRow && h.length == 0 && h.addr == 0
      && (h.opt 8 2 != 2 || (1 ≤ h.opt 32 32 && h.opt 32 32 ≤ 1000000))
  | 0x30 => h.group == 0 && h.member == 0 && zeroRow && h.length == 0 && aligned && h.addr != 0 && h.opt 8 16 != 0
  | 0x31 => h.group == 0 && h.member == 0 && zeroRow && h.length == 0 && h.addr == 0
  | _ => true

/-- No option bit outside those of the opcode (R117). -/
def optionsOk (h : Head0) : Bool := h.options &&& optionMask h.opcode == h.options

/-- Privilege an opcode needs: 0 USER, 1 INTEGRATOR, 2 VENDOR (R116, R118). UNBIND_FORCE is checked as BOUND. -/
def privNeed (h : Head0) : Nat :=
  match h.opcode with
  | 0x10 => if h.roww < 0x600 then 2 else 1
  | 0x22 | 0x23 | 0x24 => 1
  | _ => 0

/-- A range element of BIND and UNBIND_FORCE: GROUP, FIRST_ROW, ROWS (R115). -/
def rangeOf (e : BitVec 128) : Nat × Nat × Nat := (fld e.toNat 0 24, fld e.toNat 32 20, fld e.toNat 64 32)

/-- The elements of BIND and UNBIND_FORCE are well formed: an all-zero element ends the ranges, and only all-zero
elements follow it (R115). -/
def rangesOk : List (BitVec 128) → Bool
  | [] => true
  | e :: es =>
    if e == 0 then es.all (· == 0)
    else fld e.toNat 24 8 == 0 && fld e.toNat 52 12 == 0 && fld e.toNat 96 32 == 0
      && 1 ≤ fld e.toNat 64 32 && fld e.toNat 64 32 ≤ 1048576 && rangesOk es

/-- A member descriptor: LUN and erase block address (R115). -/
def descOf (e : BitVec 128) : Member := { lun := fld e.toNat 0 12, block := fld e.toNat 32 32 }

/-- The elements of a whole entry or chain are well formed (R115). -/
def elementsOk (op length : Nat) (es : List (BitVec 128)) : Bool :=
  match op with
  | 0x05 | 0x06 => rangesOk es
  | 0x20 => length ≤ es.length && (es.drop length).all (· == 0)
      && (es.take length).all (fun e => fld e.toNat 12 20 == 0 && fld e.toNat 64 64 == 0)
  | _ => true

/-! ### Scatter lists (R113) -/

/-- Outcome of reading a scatter list. -/
inductive ListRes where
  | ok (pieces : List (BitVec 64 × Nat))
  | bad
  | fabric
deriving DecidableEq, Repr

/-- EADDR, ELEN and EFLAGS of an element (R113). -/
def elAddr (e : BitVec 128) : Nat := fld e.toNat 0 64
def elLen (e : BitVec 128) : Nat := fld e.toNat 64 32
def elFlags (e : BitVec 128) : Nat := fld e.toNat 96 32

/-- Pieces of an inline list: the total is reached exactly, and every element after it is all zeros (R113). -/
def inlinePieces : List (BitVec 128) → Nat → Option (List (BitVec 64 × Nat))
  | es, 0 => if es.all (· == 0) then some [] else none
  | [], _ + 1 => none
  | e :: es, left + 1 =>
    if elFlags e != 0 || elLen e == 0 || elAddr e % 32 != 0 || elLen e % 32 != 0 || left + 1 < elLen e then none
    else (inlinePieces es (left + 1 - elLen e)).map (fun ps => (BitVec.ofNat 64 (elAddr e), elLen e) :: ps)

/-- Bytes of an answered read. -/
def answerLen : HostRead → Nat
  | .ok b => b.length
  | .err => 0

/-- Elements and LINKs that the segments of a list can hold: no list reads more of them. -/
def listFuel (l : List HostRead) : Nat := (l.foldl (fun n r => n + answerLen r) 0) / 16 + l.length + 2

/-- Pieces of a list in host memory: segment by segment; a LINK goes on in the next segment read (R113). -/
def hostPieces : Nat → List Byte → List HostRead → Nat → ListRes
  | _, _, _, 0 => .ok []
  | 0, _, _, _ => .bad
  | fuel + 1, seg, more, left + 1 =>
    if seg.length < 16 then .bad
    else
      let e : BitVec 128 := BitVec.ofNat 128 (leAt seg 0 16)
      if 2 ≤ elFlags e || elAddr e % 32 != 0 || elLen e % 32 != 0 then .bad
      else if elFlags e == 1 then
        if elLen e != 0 then .bad
        else match more with
          | .ok next :: rest => hostPieces fuel next rest (left + 1)
          | .err :: _ => .fabric
          | [] => .bad
      else if elLen e == 0 || left + 1 < elLen e then .bad
      else
        match hostPieces fuel (seg.drop 16) more (left + 1 - elLen e) with
        | .ok ps => .ok ((BitVec.ofNat 64 (elAddr e), elLen e) :: ps)
        | r => r

/-- The pieces of a READ or WRITE_ROW (R112, R113): contiguous, inline, or a list in host memory. -/
def entryPieces (e : Entry) (list : List HostRead) : ListRes :=
  let total := e.length.toNat * 4096
  if !bitAt e.options.toNat 2 then .ok [(e.addr, total)]
  else if e.elements.isEmpty then
    match list with
    | .ok seg :: rest => hostPieces (listFuel list) seg rest total
    | .err :: _ => .fabric
    | [] => .bad
  else
    match inlinePieces e.elements total with
    | some ps => .ok ps
    | none => .bad

/-- The address that the first LINK of a segment gives. -/
def linkOf (seg : List Byte) : Option Nat :=
  ((List.range (seg.length / 16)).map (fun i => BitVec.ofNat 128 (leAt seg (16 * i) 16))).findSome? (fun (e : BitVec 128) =>
    if elFlags e == 1 then some (elAddr e) else none)

/-- The reads that a list in host memory takes from `addr` on, in whole units of 32 bytes (R32, R33, R113). -/
def listReads : Nat → List HostRead → List (Nat × Nat)
  | _, [] => []
  | addr, .err :: _ => [(addr, 32)]
  | addr, .ok seg :: rest =>
    (addr, (seg.length + 31) / 32 * 32) :: (match linkOf seg with
      | some next => listReads next rest
      | none => [])

/-- The segments of a list out of the lines that answer their reads (R34, R113). -/
def listLines : Nat → List HostRead → List HostRead
  | _, [] => []
  | _, .err :: rest => .err :: rest
  | addr, .ok beats :: rest =>
    let seg := beats.drop (addr % 64)
    .ok seg :: (match linkOf seg with
      | some next => listLines next rest
      | none => rest)

/-- The list of an entry, if it lies in host memory, is read over the write data port (R32). -/
def fetchList (e : Entry) (list : List HostRead) (s : State) : State :=
  if bitAt e.options.toNat 2 && e.elements.isEmpty then fetchHost (.list e.eid) (listReads e.addr.toNat list) s else s

/-! ### The refit plan (R355) -/

/-- A plan as read: sources and target entries. -/
structure Plan where
  id : Nat := 0
  sources : List Nat := []
  targets : List DirEntry := []
deriving DecidableEq, Repr

/-- Target `t` of a plan. -/
def planTarget (b : List Byte) (t : Nat) : DirEntry :=
  let o := 512 + 256 * t
  let w := byteAt b (o + 4)
  { group := leAt b o 3, state := 1, width := w, profile := byteAt b (o + 5) % 4 + 1, refitTarget := true
    members := (List.range (w + 2)).map (fun m => memberOf (leAt b (o + 8 + 4 * m) 4)) }

/-- Every byte of a range is zero. -/
def zeroAt (b : List Byte) (off len : Nat) : Bool := (slice b off len).all (· == 0)

/-- The fields of a target that must be zero are (R355). -/
def targetOk (b : List Byte) (t : Nat) : Bool :=
  let o := 512 + 256 * t
  let w := byteAt b (o + 4)
  byteAt b (o + 3) == 0 && 2 ≤ w && w ≤ 32 && byteAt b (o + 5) < 4 && zeroAt b (o + 6) 2
    && (List.range (w + 2)).all (fun m => fld (leAt b (o + 8 + 4 * m) 4) 12 4 == 0)
    && zeroAt b (o + 8 + 4 * (w + 2)) (4 * (32 - w)) && zeroAt b (o + 144) 112

/-- The plan in `b`, well formed for an entry of LENGTH `len` 4 KiB units (R355). -/
def parsePlan (b : List Byte) (len : Nat) : Option Plan :=
  let n := byteAt b 8
  let t := byteAt b 9
  if leAt b 0 4 == 0x0D1A2EF1 && 1 ≤ n && n ≤ 64 && 1 ≤ t && t ≤ 64 && len == (512 + 256 * t + 4095) / 4096
      && zeroAt b 10 54 && (List.range n).all (fun i => byteAt b (64 + 4 * i + 3) == 0)
      && zeroAt b (64 + 4 * n) (448 - 4 * n) && (List.range t).all (targetOk b)
      && zeroAt b (512 + 256 * t) (b.length - (512 + 256 * t)) then
    some { id := leAt b 4 4, sources := (List.range n).map (fun i => leAt b (64 + 4 * i) 3)
           targets := (List.range t).map (planTarget b) }
  else none

end Sys2Proof.Machine
end

