-- ==== Sys2Proof/Machine/Entries.lean ====
section
/-!
DEFINITION. Ring entries: fetching and checking them, ring states and stops, and their completion (R86 to R128).
-/
namespace Sys2Proof.Machine

/-! ### Rings -/

/-- Depth of a ring in units (R88). -/
def Ring.depth (r : Ring) : Nat := 2 ^ r.depthLog2.toNat

/-- Host address of unit 0 (R87). -/
def Ring.base (r : Ring) : Nat := r.baseHi.toNat * 2 ^ 32 + r.baseLo.toNat * 4096

/-- Modes in which entries are fetched (R127); not during a takeover (R429). -/
def fetchMode (s : State) : Bool :=
  !s.dv.takeover && !s.modes.recovering &&
  match s.modes.mode with
  | .service | .degraded | .rebuild | .refit | .writeFenced => true
  | _ => false

/-- A ring that may start a fetch (R95): ACTIVE, or IDLE with a doorbell held from another mode (R127). -/
def ringReady (s : State) (n : Nat) : Bool :=
  let r := ringAt n s
  (r.state == .active || (r.state == .idle && r.dbPend)) && r.stopPend.isNone
    && r.inflight < max 1 r.inflightMax.toNat && s.sched.entries.length < 2048

/-- WEIGHT in force: 0 acts as 1 (R88). -/
def Ring.wt (r : Ring) : Nat := max 1 r.weight.toNat

/-- The ring that weighted round robin grants next, and whether that begins a new round (R96). -/
def wrrWinner (s : State) : Option (Nat × Bool) :=
  match (List.range 64).find? (fun n => s.sched.rrRing ≤ n && ringReady s n && (ringAt n s).fetched < (ringAt n s).wt) with
  | some n => some (n, false)
  | none => ((List.range 64).find? (ringReady s)).map (fun n => (n, true))

/-- The fetch granted to ring `n` counts in its round (R96). -/
def grantFetch (n : Nat) (newRound : Bool) (s : State) : State :=
  let s := if newRound then { s with rings := s.rings.map (fun r => { r with fetched := 0 }) } else s
  modRing n (fun r => { r with fetched := r.fetched + 1 }) { s with sched := { s.sched with rrRing := n } }

/-- Bits of rings in a state: RINGS_STOPPED, ringsEnabled (R93, R129). -/
def ringBits (p : Ring → Bool) (s : State) : Nat := bitsOf (s.rings.map p)

/-! ### Entries in flight -/

/-- Entries of ring `n`. -/
def ofRing (n : Nat) (s : State) : List Entry := s.sched.entries.filter (fun e => e.ring == n)

/-- An entry leaves the list of entries in flight. -/
def dropEntry (eid : Nat) (s : State) : State :=
  { s with sched := { s.sched with
    entries := s.sched.entries.filter (fun e => e.eid != eid)
    cws := s.sched.cws.filter (fun c => c.eid != some eid) } }

/-- The entry fields of unit 0 (R97). -/
def entryOf (n eid : Nat) (h : Head0) (index : Nat) (es : List (BitVec 128)) : Entry :=
  { eid := eid, ring := n, parts := [{ index := index, units := h.units, byte0 := h.byte0 }]
    opcode := BitVec.ofNat 8 h.opcode, tag := BitVec.ofNat 16 h.tag, group := BitVec.ofNat 24 h.group
    member := BitVec.ofNat 8 h.member, row := BitVec.ofNat 20 h.row, cwMask := BitVec.ofNat 8 h.cwMask
    length := BitVec.ofNat 32 h.length, addr := BitVec.ofNat 64 h.addr, options := BitVec.ofNat 64 h.options
    elements := es, maxStep := if h.opt 8 3 == 0 then 6 else h.opt 8 3, open_ := !h.last }

/-- A new entry joins the list, in fetch order (R212); INFLIGHT counts it (R92). -/
def pushEntry (e : Entry) (s : State) : State :=
  modRing e.ring (fun r => { r with inflight := r.inflight + 1 })
    { s with
      sched := { s.sched with entries := s.sched.entries ++ [e], nextEid := s.sched.nextEid + 1 }
      stats := { s.stats with entriesFetched := s.stats.entriesFetched + 1 } }

/-- Index of the entry's last unit. -/
def Part.lastUnit (p : Part) : Nat := p.index + p.units - 1

/-- The 8 completion bytes (R99). -/
def complBytes (e : Entry) : List Byte :=
  [e.status, e.detail, BitVec.ofNat 8 (e.ladderStep % 16), BitVec.ofNat 8 (min e.ladderCount 255)] ++ le 4 e.count

/-- The write of bytes 24 to 31 of a part's last unit (R37 step 2). -/
def writeCompl (e : Entry) (i : Nat) (s : State) : State :=
  let p := e.parts.getD i {}
  hostWrite (.compl e.eid i) ((ringAt e.ring s).base + 32 * p.lastUnit + 24) (complBytes e) s

/-- The write of byte 0 of a part's unit 0 with OWN cleared (R37 step 3, R107). -/
def writeOwn (e : Entry) (i : Nat) (s : State) : State :=
  let p := e.parts.getD i {}
  hostWrite (.own e.eid i) ((ringAt e.ring s).base + 32 * p.index) [p.byte0 &&& 0x7F] s

/-! ### Stops (R124, R125) -/

/-- The ring stops: STATE, CAUSE, RING_ERR_INDEX, source 64 (R125). A RESTART that waits goes on waiting: only a SHUTDOWN
cancels it (R94). -/
def stopRing (n cause index : Nat) (s : State) : State :=
  raise 64 (modRing n (fun r => { r with
    state := .error, cause := BitVec.ofNat 4 cause, errIndex := BitVec.ofNat 16 index })
    { s with stats := { s.stats with malformedCount := s.stats.malformedCount + 1 } })

/-- A stop cause met while the ring shuts down is latched and counted; the ring does not enter ERROR, and the walk of R126
step 3 still follows, or goes on (R126; log entry 70). -/
def latchStop (n cause index : Nat) (s : State) : State :=
  modRing n (fun r => { r with cause := BitVec.ofNat 4 cause, errIndex := BitVec.ofNat 16 index })
    { s with stats := { s.stats with malformedCount := s.stats.malformedCount + 1 } }

/-- A stop takes effect once the completions that belong to it are written (R125), also on a ring that a fabric error has
stopped meanwhile (DESIGN CHOICE, log entry 101). -/
def settleStop (n : Nat) (s : State) : State :=
  match (ringAt n s).stopPend with
  | some (cause, index) =>
    if (ofRing n s).any (·.stopper) then s
    else
      let s := modRing n (fun r => { r with stopPend := none }) s
      if (ringAt n s).state == .shuttingDown then latchStop n cause index s else stopRing n cause index s
  | none => s

/-- Jobs of an entry. -/
def jobOf (eid : Nat) (j : Job) : Bool :=
  match j.owner with
  | .read e | .write e _ | .openErase e _ | .release e _ | .raw e => e == eid
  | _ => false

/-- A job of this block's LUNs has begun its NAND work once an array-start of it is issued; one sent to another block, once
that block has it (R126, R170, R415). -/
def begun (s : State) (j : Job) : Bool := !j.unpopped && (j.arrayStarted || j.state == .ended || !(ownLun j.lun s))

/-- The NAND work of an entry has started (R126, R128, R213). A waiting RELEASE_GROUP, GROUP_CLOSE or ACCUM_RETURN counts as
started (DESIGN CHOICE, log entry 88). -/
def entryStarted (s : State) (e : Entry) : Bool :=
  let begun := s.sched.jobs.any (fun j => jobOf e.eid j && begun s j)
  e.phase == .ready || e.phase == .writing ||
    (e.phase == .waiting &&
      match e.opcode.toNat with
      | 0x01 => e.accepted
      | 0x02 => begun || e.count != 0 || e.lost != 0 || s.sched.cws.any (fun c => c.eid == some e.eid && c.state != .reading)
      | 0x03 | 0x21 => true
      | 0x10 => begun
      | 0x20 => begun || !e.ended.isEmpty
      | 0x05 | 0x06 => e.accepted
      | 0x31 => true
      | _ => false)

/-- A GROUP_OPEN that opens no group leaves its directory entry free (R292). -/
def undoOpen (e : Entry) (s : State) : State :=
  if e.opcode == 0x20 && (dirAt e.group.toNat s).opening then
    { s with stripe := { s.stripe with dir := s.stripe.dir.map (fun d =>
      if d.group == e.group.toNat then { d with opening := false } else d) } }
  else s

/-- The followers whose accumulators open and return with this one (R420). -/
def otherBlocks (s : State) : BitVec 8 := s.dv.view &&& ~~~(dieBit s.modes.dieId)

/-- The handle of a JOB that opens or returns accumulators, and of its JOB_END, which adds the sender's die_id (R420; DESIGN
CHOICE, log entry 128). -/
def accOpenJob : Nat := 0x1000
def accCloseJob : Nat := 0x2000

/-- The followers are told to open or return their accumulators (R420). -/
def tellAccums (handle : Nat) (body : List Byte) (s : State) : State :=
  if otherBlocks s == 0 then s
  else dvSend 0x10 none (le 2 handle ++ body) { s with media := { s.media with accWait := otherBlocks s } }

/-- An ACCUM_OPEN that drains ends: the accumulators serve reads again (R126, R420). -/
def dropAccum (s : State) : State :=
  let s := { s with media := { s.media with accum := 0, accEid := none } }
  let s := tellAccums accCloseJob [1] s
  { s with media := { s.media with accWait := 0 } }

/-- An entry ended before its NAND work: its jobs are withdrawn, those already popped are told to abort, what it held is freed
(R126, R128, R170). -/
def abortEntry (st det : Nat) (s : State) (e : Entry) : State :=
  let s := undoOpen e (abortPopped (jobOf e.eid) (withdraw (jobOf e.eid) s))
  let s := if e.opcode == 0x30 && s.media.accEid == some e.eid then dropAccum s else s
  let s := { s with sched := { s.sched with cws := s.sched.cws.filter (fun c => c.eid != some e.eid) } }
  let s := modRing e.ring (fun r => if r.chain == some e.eid then { r with chain := none } else r) s
  modEntry e.eid (fun e => { e with
    phase := .ready, status := BitVec.ofNat 8 st, detail := BitVec.ofNat 8 det, open_ := false, unread := []
    count := if e.opcode == 0x02 then e.count else 0 }) s

/-- A stop found at dispatch: the entry completes MALFORMED, every later entry of its ring ABORTED with DETAIL 0x04,
and the ring then stops (R125). A later entry that has started all the same, because this one waited at dispatch under
R106, R120 or R297, runs on (log entry 71). -/
def stopAt (e : Entry) (cause : Nat) (s : State) : State :=
  let later := (s.sched.entries.dropWhile (fun x => x.eid != e.eid)).filter (fun x =>
    x.ring == e.ring && x.eid != e.eid && !(entryStarted s x))
  let s := abortEntry 0x20 cause s e
  let s := later.foldl (abortEntry 0x10 4) s
  let s := { s with sched := { s.sched with entries := s.sched.entries.map (fun x =>
    if x.eid == e.eid || later.any (fun l => l.eid == x.eid) then { x with stopper := true } else x) } }
  modRing e.ring (fun r => { r with stopPend := some (cause, (e.parts.headD {}).index), chain := none }) s

/-! ### Fetching (R103, R109, R110, R124) -/

/-- The checks of an entry read as unit 0 `h` and `rest`: the cause of a stop (R124); none when well formed. `chain` is the
open chain's first entry. Of several causes the one with the lowest code stands (log entry 72). -/
def entryFault (priv : Nat) (chain : Option Entry) (h : Head0) (rest : List Byte) : Option Nat :=
  match chain with
  | some c =>
    if h.first then some 3
    else if 64 ≤ c.parts.length || h.opcode != c.opcode.toNat || h.tag != c.tag.toNat || h.group != 0 || h.member != 0
        || h.roww != 0 || h.length != 0 || h.addr != 0 || h.options != 0 then some 4
    else if !lastUnitOk h.units rest then some 7
    else if h.last then
      let es := c.elements ++ elementsOf h.units rest
      if (h.opcode == 1 || h.opcode == 2) && es.isEmpty then some 6
      else if !elementsOk h.opcode c.length.toNat es then some 7
      else none
    else none
  | none =>
    if !h.first then some 3
    else if !h.last && knownOp h.opcode && !chainOp h.opcode then some 4
    else if !knownOp h.opcode then some 5
    else if h.last && !unitsOk h then some 6
    else if !h.last && (h.opcode == 1 || h.opcode == 2) && !h.sgl then some 6
    else if !lastUnitOk h.units rest || !optionsOk h || !fieldsOk h (!h.last) then some 7
    else if h.last && !elementsOk h.opcode h.length (elementsOf h.units rest) then some 7
    else if priv < privNeed h then some 8
    else none

/-- HEAD advances by an entry, wrapping from the depth to 0 (R103). -/
def advanceHead (n units : Nat) (s : State) : State :=
  modRing n (fun r => { r with head := BitVec.ofNat 16 ((r.head.toNat + units) % r.depth) }) s

/-- A well-formed entry or chain part taken: it joins its chain or the list (R103, R109, R212). -/
def takeEntry (n : Nat) (h : Head0) (rest : List Byte) (s : State) : State :=
  let r := ringAt n s
  let idx := r.head.toNat
  let es := elementsOf h.units rest
  match r.chain with
  | some c =>
    let s := modEntry c (fun e => { e with
      parts := e.parts ++ [{ index := idx, units := h.units, byte0 := h.byte0 }]
      elements := e.elements ++ es, open_ := !h.last }) s
    let s := { s with stats := { s.stats with entriesFetched := s.stats.entriesFetched + 1 } }
    if h.last then
      modRing n (fun r => { r with chain := none }) { s with sched := { s.sched with
        entries := s.sched.entries.filter (fun e => e.eid != c) ++ s.sched.entries.filter (fun e => e.eid == c) } }
    else s
  | none =>
    let eid := s.sched.nextEid
    let s := pushEntry (entryOf n eid h idx es) s
    if h.last then s else modRing n (fun r => { r with chain := some eid }) s

/-- An entry that stops the ring: it joins the open chain, or stands as an entry of its own, taken as `units` units, and
completes MALFORMED (R124, R125). Whatever the cause, the entries of an open chain fetched before it complete with it (log
entry 73). -/
def takeBad (n cause units : Nat) (h : Head0) (s : State) : State :=
  let r := ringAt n s
  let idx := r.head.toNat
  let part : Part := { index := idx, units := units, byte0 := h.byte0 }
  let s := match r.chain with
    | some c =>
      let s := match entryAt c s with
        | some e => abortEntry 0x20 cause s e
        | none => s
      let s := { s with stats := { s.stats with entriesFetched := s.stats.entriesFetched + 1 } }
      modEntry c (fun e => { e with parts := e.parts ++ [part], stopper := true }) s
    | none =>
      let eid := s.sched.nextEid
      pushEntry { entryOf n eid h idx [] with
        parts := [part], open_ := false, phase := .ready, status := 0x20, detail := BitVec.ofNat 8 cause
        stopper := true } s
  modRing n (fun r => { r with stopPend := some (cause, idx), chain := none }) s

/-- An entry whose unit 0 holds OWN = 1: byte 0 and the ring's end, the other units, the whole entry (R103). A fabric
error stops the ring without a completion; an open chain stays open, in flight, until a SHUTDOWN (log entry 74). -/
def fetchOwned (n : Nat) (h : Head0) (rest : HostRead) (s : State) : State :=
  let r := ringAt n s
  if fld h.byte0.toNat 3 2 != 0 then takeBad n 1 1 h s
  else if r.depth < r.head.toNat + h.units then takeBad n 2 1 h s
  else
    match (if h.units == 1 then HostRead.ok [] else rest) with
    | .err => stopRing n 0xE r.head.toNat s
    | .ok bs =>
      match entryFault r.priv.toNat (r.chain.bind (fun c => entryAt c s)) h bs with
      | some c => takeBad n c h.units h s
      | none => advanceHead n h.units (takeEntry n h bs s)

/-- Groups that an entry addresses: its GROUP, and those of its row ranges. -/
def groupsOf (e : Entry) : List Nat :=
  match e.opcode.toNat with
  | 0x01 | 0x02 | 0x03 | 0x04 | 0x20 | 0x21 | 0x22 => [e.group.toNat]
  | 0x05 | 0x06 => e.group.toNat :: (e.elements.filter (· != 0)).map (fun x => (rangeOf x).1)
  | _ => []

/-- Row ranges of a BIND or UNBIND_FORCE: unit 0's, then one for each element up to the closing one (R115). -/
def Entry.ranges (e : Entry) : List (Nat × Nat × Nat) :=
  (e.group.toNat, e.row.toNat, e.length.toNat) :: (e.elements.filter (· != 0)).map rangeOf

/-- Rows whose bindings an entry's dispatch looks up (R121, R379 to R382). -/
def bindLookups (e : Entry) : List (Nat × Nat × Nat) :=
  match e.opcode.toNat with
  | 0x01 => [(e.group.toNat, e.row.toNat, 1)]
  | 0x05 | 0x06 => e.ranges
  | _ => []

/-- A group's directory entry and each of its member lines are in the cache (R323). -/
def dirCached (g : Nat) (s : State) : Bool :=
  s.stripe.cache.contains g && (memberLines g s).all (fun x => s.stripe.lines.contains x)

/-- The window read of a group's directory entry starts where the cache does not hold the entry or a member line of it
(R323). -/
def readIfMissed (s : State) (g : Nat) : State :=
  if g < s.stripe.dirEntries && s.stripe.granted && !(dirCached g s) && !s.stripe.missing.contains g
      && !s.stripe.readHeld.contains g then
    { s with stripe := { s.stripe with missing := s.stripe.missing ++ [g], misses := satAdd s.stripe.misses 1 } }
  else s

/-- When a fetch ends, the directory entries of the groups named, those of row ranges too, and the bind entries of its lookups
that miss their caches start their window reads (R323, R379). -/
def missIfNeeded (n : Nat) (s : State) : State :=
  match (ofRing n s).getLast? with
  | some e =>
    if e.phase == .fetched && !e.open_ then (bindLookups e).foldl lookUpBinds ((groupsOf e).foldl readIfMissed s) else s
  | none => s

/-- Host address of the unit at HEAD (R87, R91). -/
def Ring.headAddr (r : Ring) : Nat := r.base + 32 * r.head.toNat

/-- The reads of an entry: unit 0 alone, then the other units when it is owned (R32, R33, R103). -/
def unitReads (r : Ring) (unit0 : HostRead) : List (Nat × Nat) :=
  let addr := r.headAddr
  match unit0 with
  | .ok u =>
    let h := parseHead u
    if h.own && h.units != 1 && fld h.byte0.toNat 3 2 == 0 && r.head.toNat + h.units ≤ r.depth then
      [(addr, 32), (addr + 32, 32 * (h.units - 1))]
    else [(addr, 32)]
  | .err => [(addr, 32)]

/-- RING_FETCH (R95, R96, R103, R127): the ring that weighted round robin grants reads its next entry. -/
def execRingFetch (n : Nat) (unit0 rest : HostRead) (s : State) : Out :=
  checked (n < 64) <|
    match wrrWinner s with
    | some (w, new) =>
      if w == n && fetchMode s && hostReady s then
        let unit0 := linesOf (ringAt n s).headAddr 32 unit0
        let rest := linesOf ((ringAt n s).headAddr + 32) 224 rest
        let s := grantFetch n new s
        let s := fetchHost (.fetch n) (unitReads (ringAt n s) unit0)
          (modRing n (fun r => { r with state := .active, dbPend := false }) s)
        match unit0 with
        | .err => stopRing n 0xE (ringAt n s).head.toNat s
        | .ok u =>
          let h := parseHead u
          if h.own then missIfNeeded n (fetchOwned n h rest s)
          else modRing n (fun r => { r with state := .idle }) s
      else s
    | none => s

/-! ### Shutdown walk, restart (R94, R126) -/

/-- The walk ends: OWN = 0 found, the ring walked in full, or a stop cause met (R126 step 3). -/
def endWalk (n : Nat) (s : State) : State := modRing n (fun r => { r with walk := [], walkLeft := 0, walkChain := none }) s

/-- A stop cause met by the walk: the entry completes MALFORMED, and CAUSE records the stop (R126 step 3). -/
def walkStops (n cause units : Nat) (h : Head0) (s : State) : State :=
  let r := ringAt n s
  let e := { entryOf n s.sched.nextEid h r.head.toNat [] with
    parts := [{ index := r.head.toNat, units := units, byte0 := h.byte0 }], open_ := false, phase := .ready
    status := 0x20, detail := BitVec.ofNat 8 cause }
  latchStop n cause r.head.toNat (pushEntry e (endWalk n s))

/-- An entry that the walk finds with OWN = 1 completes ABORTED with DETAIL 0x02 (R126 step 3). -/
def walkTakes (n : Nat) (h : Head0) (bs : List Byte) (more : List HostRead) (s : State) : State :=
  let r := ringAt n s
  let e := entryOf n s.sched.nextEid h r.head.toNat (elementsOf h.units bs)
  let chain := match r.walkChain with
    | some c => { c with parts := c.parts ++ e.parts, elements := c.elements ++ e.elements }
    | none => e
  modRing n (fun r => { r with
      walk := more, walkLeft := r.walkLeft - h.units, walkChain := if h.last then none else some chain })
    (advanceHead n h.units (pushEntry { e with phase := .ready, status := 0x10, detail := 2, open_ := false } s))

/-- One step of the shutdown walk: the entry at HEAD is read under R103, over the write data port, and DB_PEND is cleared
(R126 step 3). -/
def walkStep (n : Nat) (s : State) : State :=
  let r := ringAt n s
  match r.walk with
  | [] => endWalk n s
  | u :: more =>
    let u := linesOf r.headAddr 32 u
    let s := fetchHost (.fetch n) (unitReads r u) (modRing n (fun r => { r with dbPend := false }) s)
    match u with
    | .err => endWalk n (latchStop n 0xE r.head.toNat s)
    | .ok u =>
      let h := parseHead u
      if !h.own || r.walkLeft == 0 then endWalk n s
      else if fld h.byte0.toNat 3 2 != 0 then walkStops n 1 1 h s
      else if r.depth < r.head.toNat + h.units then walkStops n 2 1 h s
      else
        match (if h.units == 1 then HostRead.ok [] :: more else more) with
        | [] => endWalk n s
        | .err :: _ => endWalk n (latchStop n 0xE r.head.toNat s)
        | .ok beats :: more =>
          let bs := (beats.drop ((r.headAddr + 32) % 64)).take (32 * (h.units - 1))
          match entryFault r.priv.toNat r.walkChain h bs with
          | some c => walkStops n c h.units h s
          | none => walkTakes n h bs more s

/-- The ring's last step of a shutdown: DISABLED, source 64; no doorbell is left from before the walk (R94, R103, R126
step 4). -/
def disableRing (n : Nat) (s : State) : State :=
  raise 64 (modRing n (fun r => { r with
    state := .disabled, restartPend := false, dbPend := false, chain := none, stopPend := none, walk := [], walkLeft := 0
    walkChain := none }) s)

/-- A shutdown goes on once no entry of the ring is in flight: the walk fetches one entry at a time, in the modes that
fetch and while fewer than 2,048 entries of all rings are in flight, and then the ring is DISABLED (R94, R95, R126 steps 2
to 4, R127). -/
def settleShutdown (n : Nat) (s : State) : State :=
  if (ringAt n s).state == .shuttingDown && (ofRing n s).isEmpty then
    if (ringAt n s).walk.isEmpty then disableRing n s
    else if fetchMode s && hostReady s && s.sched.entries.length < 2048 then
      let s := walkStep n s
      if (ofRing n s).isEmpty then disableRing n s else s
    else s
  else s

/-- A pending restart takes effect when INFLIGHT is zero (R94). -/
def settleRestart (n : Nat) (s : State) : State :=
  let r := ringAt n s
  if r.state == .error && r.restartPend && r.inflight == 0 then
    setRing n { r with state := .active, head := r.start, dbPend := true, cause := 0, restartPend := false, chain := none } s
  else s

/-- Everything that waits for completions of ring `n`. -/
def settleRing (n : Nat) (s : State) : State := settleRestart n (settleShutdown n (settleStop n s))

/-- Every ring that shuts down goes on as far as it can. -/
def settleRings (s : State) : State :=
  if s.rings.any (fun r => r.state == .shuttingDown) then
    (List.range 64).foldl (fun s n => if (ringAt n s).state == .shuttingDown then settleRing n s else s) s
  else s

/-! ### Enable, doorbell, restart, shutdown (R94, R105, R126) -/

/-- ENABLE written 1 (R94, R414): a follower, a depth outside 2^4 to 2^16 or a start not below the depth is refused. -/
def enableRing (n : Nat) (s : State) : State :=
  let r := ringAt n s
  if r.state == .disabled then
    if s.modes.follower || r.depthLog2.toNat < 4 || 16 < r.depthLog2.toNat || r.depth ≤ r.start.toNat then
      setRing n { r with cause := 0xD } s
    else setRing n { r with
      state := .active, head := r.start, priv := BitVec.ofNat 2 (cfg (0x1401 + n) 1 s), fetched := 0, chain := none } s
  else s

/-- RING_ENABLE (R94, R414). -/
def execRingEnable (n : Nat) (s : State) : Out := checked (n < 64) (enableRing n s)

/-- A doorbell in the ring's state (R94, R105): ignored while DISABLED or SHUTTING_DOWN; DB_PEND otherwise; an IDLE ring
becomes ACTIVE in a mode that fetches (R127). -/
def doorbell (n : Nat) (s : State) : State :=
  let r := ringAt n s
  match r.state with
  | .disabled | .shuttingDown => s
  | .idle => setRing n { r with dbPend := true, state := if fetchMode s then .active else .idle } s
  | _ => setRing n { r with dbPend := true } s

/-- RING_DOORBELL: any value (R91); in STANDBY a doorbell also wakes the block (R22, R78). -/
def execRingDoorbell (n : Nat) (_v : Word) (s : State) : Out := checked (n < 64) (doorbell n (wake s))

/-- RESTART written 1: in ERROR it takes effect once INFLIGHT is zero (R90, R94). -/
def restartRing (n : Nat) (s : State) : State :=
  if (ringAt n s).state == .error then settleRestart n (modRing n (fun r => { r with restartPend := true }) s) else s

/-- RING_RESTART (R90, R94). -/
def execRingRestart (n : Nat) (s : State) : Out := checked (n < 64) (restartRing n s)

/-- SHUTDOWN written 1 in any state but DISABLED (R94, R126): the entries not started end, those of an open chain among
them; the walk waits for the rest. `walk` is what the walk's reads answer. -/
def shutdownRing (n : Nat) (walk : List HostRead) (s : State) : State :=
  let r := ringAt n s
  if r.state == .disabled || r.state == .shuttingDown then s
  else
    let s := modRing n (fun r => { r with
      state := .shuttingDown, restartPend := false, walk := walk, walkLeft := r.depth, walkChain := none }) s
    let s := ((ofRing n s).filter (fun e => !(entryStarted s e))).foldl (abortEntry 0x10 1) s
    settleRing n (modRing n (fun r => { r with chain := none }) s)

/-- RING_SHUTDOWN (R94, R126). -/
def execRingShutdown (n : Nat) (walk : List HostRead) (s : State) : Out := checked (n < 64) (shutdownRing n walk s)

/-! ### Completion (R37, R108, R111) -/

/-- COUNT-based statistics of an entry that completes (R522). -/
def countEntry (e : Entry) (s : State) : State :=
  { s with stats := { s.stats with
    entriesCompleted := s.stats.entriesCompleted + 1
    bytesWritten := if e.opcode == 0x01 then s.stats.bytesWritten + 4096 * e.count else s.stats.bytesWritten
    bytesRead := if e.opcode == 0x02 then s.stats.bytesRead + 4096 * e.count else s.stats.bytesRead } }

/-- One completion of a ring is written: RING_DONE_COUNT, and with IRQ_ALL its source (R91, R108). -/
def partDone (e : Entry) (s : State) : State :=
  let s := modRing e.ring (fun r => { r with doneCount := r.doneCount + 1 }) s
  if (ringAt e.ring s).irqAll then raise e.ring s else s

/-- The entry has completed: it leaves, INFLIGHT falls, its source is raised, and rows that it finished count as
written (R108, R119, R300). -/
def entryGone (e : Entry) (s : State) : State :=
  let s := if bitAt e.options.toNat 0 && !(ringAt e.ring s).irqAll then raise e.ring s else s
  let s := match e.needsRow with
    | some r => { s with stripe := { s.stripe with dir := s.stripe.dir.map (fun d =>
        if d.group == e.group.toNat then { d with unwritten := d.unwritten.filter (· != r) } else d) } }
    | none => s
  let s := countEntry e (dropEntry e.eid s)
  settleRing e.ring (modRing e.ring (fun r => { r with inflight := r.inflight - 1 }) s)

/-- A completion request of an entry is outstanding. -/
def complOut (eid : Nat) (s : State) : Bool :=
  (s.host.writes ++ s.host.stalled).any (fun r => match r.what with | .compl x _ | .own x _ => x == eid | _ => false)

/-- In HOLDUP nothing of a completion is written before holdup_done has risen (R128). -/
def heldBack (s : State) : Bool := s.modes.holdup && !s.pins.holdupDone

/-- In HOLDUP completions are written only after holdup_done has risen, in fetch order (R128). The completions of a stop
found at dispatch are written in fetch order, the stopping entry's first (R125). -/
def mayComplete (e : Entry) (s : State) : Bool :=
  !heldBack s
    && (!s.modes.holdup
        || (s.sched.entries.find? (fun x => x.phase == .ready || x.phase == .writing)).map (·.eid) == some e.eid)
    && (!e.stopper || (s.sched.entries.find? (fun x => x.stopper && x.ring == e.ring)).map (·.eid) == some e.eid)

/-- The record that the entry's cause raised is acknowledged or dropped (R479). -/
def recordOk (e : Entry) (s : State) : Bool :=
  match e.evWait with
  | some r => recordSettled s r
  | none => true

/-- The completion write that follows those acknowledged: byte 0 of a part after its bytes 24 to 31 (R37). -/
def nextWrite (e : Entry) (s : State) : State :=
  if e.done % 2 == 1 then writeOwn e (e.done / 2) s else writeCompl e (e.done / 2) s

/-- Nothing of an entry that has ended is outstanding: its completion may be written (R37, R111, R479). -/
def canComplete (e : Entry) (s : State) : Bool :=
  e.phase == .ready && !(dataOut e.eid s) && mayComplete e s && recordOk e s && !(s.sched.jobs.any (jobOf e.eid))

/-- A completion that HOLDUP held back may go on (R128). -/
def canResume (e : Entry) (s : State) : Bool := e.phase == .writing && !(complOut e.eid s) && mayComplete e s

/-- The entry's completion is written, part by part (R37, R111, R479); one that HOLDUP held back goes on (R128). -/
def completeEntry (eid : Nat) (s : State) : State :=
  match entryAt eid s with
  | some e =>
    if canComplete e s then writeCompl e 0 (modEntry eid (fun e => { e with phase := .writing, done := 0 }) s)
    else if canResume e s then nextWrite e s
    else s
  | none => s

/-- A completion write of an entry has been acknowledged (R37): byte 0 follows, then the next part of a chain. -/
def complAcked (eid part : Nat) (own : Bool) (s : State) : State :=
  match entryAt eid s with
  | some e =>
    let s := modEntry eid (fun e => { e with done := 2 * part + (if own then 2 else 1) }) s
    let e := { e with done := 2 * part + (if own then 2 else 1) }
    let s := if own then partDone e s else s
    if e.done == 2 * e.parts.length then entryGone e s
    else if heldBack s then s
    else nextWrite e s
  | none => s

/-- The row that the entry finished never counts as written: its completion was not (R119, R300). -/
def neverWritten (e : Entry) (s : State) : State :=
  match e.needsRow with
  | some r => { s with stripe := { s.stripe with dir := s.stripe.dir.map (fun d =>
      if d.group == e.group.toNat then { d with uncompleted := d.uncompleted ++ [r] } else d) } }
  | none => s

/-- A completion write met a fabric error: the ring stops and nothing is written again (R38, R124 cause 0xF). Where the write
was that of a stopping entry, the ring stops for it at once and again for the pending cause, which stays in CAUSE (DESIGN
CHOICE, log entry 101). -/
def complFailed (eid part : Nat) (s : State) : State :=
  match entryAt eid s with
  | some e =>
    let s := modRing e.ring (fun r => { r with inflight := r.inflight - 1 }) (dropEntry eid (neverWritten e s))
    let index := (e.parts.getD part {}).index
    settleRing e.ring (if (ringAt e.ring s).state == .shuttingDown then latchStop e.ring 0xF index s
      else stopRing e.ring 0xF index s)
  | none => s

end Sys2Proof.Machine
end

