-- ==== Sys2Proof/Machine/Thresholds.lean ====
section
/-!
DEFINITION. Read thresholds: the prediction table, the block dose, predicted and trued offsets, FEATURE items and the
jobs that carry them (R254 to R267, R274, R276, R278).
-/
namespace Sys2Proof.Machine

/-- The prediction table of a die type in force (R264). -/
def table (t : Nat) (s : State) : List Byte := inForce (0x2520 + t) 1 s

/-- The table of the LUN's type is valid (R265). -/
def tableOk (u : Nat) (s : State) : Bool := s.recov.tableValid.getD (lunType u s - 1) false

/-- Signed byte of a string. -/
def i8At (b : List Byte) (i : Nat) : Int := sgn 8 (byteAt b i)

/-- Offsets of levels 1 to 15 of a cell (R264). -/
def cellAt (b : List Byte) (pe d z : Nat) : List Int :=
  (List.range 15).map (fun k => i8At b (256 + 16 * ((pe * 16 + d) * 4 + z) + k))

/-- P/E bin of a count (R264). -/
def peBin (b : List Byte) (n : Nat) : Nat := ((List.range 7).filter (fun i => leAt b (8 + 2 * i) 2 ≤ n)).length

/-- Lower edge of a dose bin, in hours (R264). -/
def doseEdge (d : Nat) : Nat := if d == 0 then 0 else 8 * 2 ^ (d - 1)

/-- Dose bin of a dose in 1/16 h. -/
def doseBin (d16 : Nat) : Nat := ((List.range 15).filter (fun i => doseEdge (i + 1) * 16 ≤ d16)).length

/-- Zone of a page (R264). -/
def zoneOf (u page : Nat) (s : State) : Nat := page * 4 / max 1 (lunPages u s)

/-- Page type of a page. -/
def pageType (u page : Nat) (s : State) : Nat := page % max 1 (lunBits u s)

/-- The block has no dose: its reads use the die defaults (R261). -/
def unstamped (u b : Nat) (s : State) : Bool := s.recov.ledgerOk && !(doseAt u b s).stamped

/-- Block dose in 1/16 h: 0 while the ledger region is not granted, and for a block that has none (R261). -/
def blockDose (u b : Nat) (s : State) : Nat :=
  if !s.recov.ledgerOk || unstamped u b s then 0
  else
    let clock := (s.recov.clocks.getD (lunChan u) 0).toNat / 4096
    (clock + 2 ^ 32 - (doseAt u b s).stamp.toNat) % 2 ^ 32

/-- PE_COUNT in force (R261). -/
def blockPe (u b : Nat) (s : State) : Nat := if s.recov.ledgerOk then (doseAt u b s).pe.toNat else 0

/-- n / d rounded half away from zero (d positive). -/
def roundDiv (n : Int) (d : Nat) : Int :=
  if 0 ≤ n then (2 * n + d) / (2 * d) else -((2 * (-n) + d) / (2 * d))

/-- lunBias of level k (k from 1) (R267). -/
def biasAt (u k : Nat) (s : State) : Int := (lunRec u s).bias.getD (k - 1) 0

/-- Predicted value of a level as a fraction, without bias: numerator and denominator (R266). -/
def predictRaw (b : List Byte) (pe d16 z k : Nat) : Int × Nat :=
  let d := doseBin d16
  let c0 := (cellAt b pe d z).getD (k - 1) 0
  if d == 15 then (c0, 1)
  else
    let c1 := (cellAt b pe (d + 1) z).getD (k - 1) 0
    let den := (doseEdge (d + 1) - doseEdge d) * 16
    (c0 * (den : Int) + (c1 - c0) * ((d16 : Int) - (doseEdge d * 16 : Nat)), den)

/-- Die defaults. -/
def defaults : List Int := List.replicate 15 0

/-- Set 0x1: the predicted offsets of levels 1 to 15 (R266); the die defaults for a block without a dose (R261). -/
def predicted (u b page : Nat) (s : State) : List Int :=
  let tb := table (lunType u s) s
  if unstamped u b s then defaults else
  (List.range 15).map (fun i =>
    let (n, d) := predictRaw tb (peBin tb (blockPe u b s)) (blockDose u b s) (zoneOf u page s) (i + 1)
    clampInt (-128) 127 (roundDiv (n + biasAt u (i + 1) s * (d : Int)) d))

/-- Set 0x2: the lower edge of the next higher dose bin (R266); the die defaults for a block without a dose (R261). -/
def predictedUp (u b page : Nat) (s : State) : List Int :=
  let tb := table (lunType u s) s
  if unstamped u b s then defaults else
  let d := min (doseBin (blockDose u b s) + 1) 15
  (List.range 15).map (fun i =>
    clampInt (-128) 127 ((cellAt tb (peBin tb (blockPe u b s)) d (zoneOf u page s)).getD i 0 + biasAt u (i + 1) s))

/-- The truing cache's entry of a zone, valid or no longer (R269, R274). -/
def heldEntry (u b z : Nat) (s : State) : Option TrueEntry :=
  s.recov.cache.find? (fun e => e.lun == u && e.block == b && e.zone == z)

/-- The truing cache's valid entry of a zone (R274). -/
def truedEntry (u b z : Nat) (s : State) : Option TrueEntry :=
  (heldEntry u b z s).filter (fun e => blockDose u b s < e.dose + 16 * cfg 0x2500 0x0D s)

/-- The truing cache's entry of a zone has been used (R274). -/
def useTrued (u b z : Nat) (s : State) : State :=
  let mine (e : TrueEntry) : Bool := e.lun == u && e.block == b && e.zone == z
  { s with recov := { s.recov with cache := s.recov.cache.filter mine ++ s.recov.cache.filter (fun e => !(mine e)) } }

/-- The converged result of a zone that is less than 10 ms old (R273). -/
def recentTrued (u b z : Nat) (s : State) : Option TrueEntry :=
  s.recov.cache.find? (fun e => e.lun == u && e.block == b && e.zone == z && s.now - e.time < 10000)

/-- The step 0 offsets of a page and their tag (R257, R261). -/
def firstSet (u b page : Nat) (s : State) : List Int × Nat :=
  if !tableOk u s then (defaults, 4)
  else
    match truedEntry u b (zoneOf u page s) s with
    | some e => (e.off, 3)
    | none => if unstamped u b s then (defaults, 4) else (predicted u b page s, 1)

/-! ### FEATURE items (R255, R256) -/

/-- LEVEL_MASK of a page type (R264). -/
def levelMask (b : List Byte) (p : Nat) : Nat := leAt b (44 + 2 * p) 2

/-- Level carried in parameter `k` of threshold feature `i`; 0 for none (R264). -/
def featLevel (b : List Byte) (i k : Nat) : Nat := byteAt b (28 + 4 * i + k)

/-- The parameters P1 to P4 of feature `i` under an offset set. -/
def featParams (b : List Byte) (off : List Int) (i : Nat) : Nat :=
  leVal ((List.range 4).map (fun k =>
    let l := featLevel b i k
    if l == 0 then 0 else BitVec.ofNat 8 (unsgn 8 (off.getD (l - 1) 0))))

/-- Feature addresses in use, with their parameters, that hold a level of the mask (R255, R272). -/
def features (u mask : Nat) (off : List Int) (s : State) : List (Nat × Nat) :=
  let b := table (lunType u s) s
  ((List.range 4).filter (fun i => byteAt b (24 + i) != 0 && (List.range 4).any (fun k =>
    featLevel b i k != 0 && bitAt mask (featLevel b i k)))).map (fun i => (byteAt b (24 + i), featParams b off i))

/-- A FEATURE item (R162). -/
def featureItem (u : Nat) (f : Nat × Nat) : BitVec 128 := mkItem 4 (itemLun u ++ [(88, f.1), (0, f.2)])

/-- The threshold features of a READ or SENSE job on a page: none on a die type without a valid table (R255). -/
def pageFeats (u page : Nat) (off : List Int) (s : State) : List (Nat × Nat) :=
  if !tableOk u s then [] else features u (levelMask (table (lunType u s) s) (pageType u page s)) off s

/-- The 32-byte unit of the window that holds a dose record is read (R33, R260). -/
def readDose (u b : Nat) (s : State) : State :=
  hostReadData (.doseRead u b) ((winBase s + doseOff u b s) / 32 * 32) 32 s

/-- The dose record that a read's thresholds follow is used: a miss of the tables SRAM reads it from the window. Answers
whether the job waits for that read (R260). -/
def useDose (u b : Nat) (s : State) : Bool × State :=
  if !s.recov.ledgerOk || !tableOk u s then (false, s)
  else if s.recov.doseCache.contains (u, b) then (false, touchDose u b s)
  else if s.recov.doseHeld.contains (u, b)
      || (s.host.reads ++ s.host.rstalled).any (fun r => r.what == .doseRead u b) then (true, s)
  else (true, readDose u b s)

/-- The window read of a dose record returns: the jobs that waited for it may be placed (R260). -/
def doseArrived (u b : Nat) (s : State) : State :=
  let mine (j : Job) : Bool := j.doseWait && j.lun == u && j.block == b
  let far := s.sched.jobs.filter (fun j => mine j && !(ownLun j.lun s))
  let s := touchDose u b { s with sched := { s.sched with
    jobs := s.sched.jobs.map (fun j => if mine j then { j with doseWait := false } else j) } }
  far.foldl (fun s j => sendJob { j with doseWait := false } s) s

/-- A page to be read: where it lies and what its codewords are expected to be. -/
structure Page where
  lun : Nat := 0
  block : Nat := 0
  page : Nat := 0
  profile : Nat := 1
  group : Nat := 0
  member : Nat := 0
  row : Nat := 0
  scan : Bool := false
deriving DecidableEq, Repr

/-- The page of a job. -/
def Job.pageOf (j : Job) : Page :=
  { lun := j.lun, block := j.block, page := j.page, profile := j.profile, group := j.group, member := j.member, row := j.row
    scan := j.scan }

/-- The page of a member's row. -/
def memberPage (g m r : Nat) (s : State) : Page :=
  let w := memberAt g m s
  { lun := w.lun, block := w.block, page := r, profile := (dirAt g s).profile, group := g, member := m, row := r }

/-- A job on a page under a codec context: `feats` come before its READ or SENSE item, whose tag and step or sensing index
are given (R233, R254, R255). A dose record that is not at hand holds the job (R260). -/
def addPageJob (owner : Owner) (p : Page) (mask slot prio step : Nat) (feats : List (Nat × Nat)) (items : List (BitVec 128))
    (s : State) : Nat × State :=
  let (wait, s) := useDose p.lun p.block s
  addJob { owner := owner, lun := p.lun, prio := prio, block := p.block, page := p.page, profile := p.profile
           group := p.group, member := p.member, row := p.row, scan := p.scan, cwMask := BitVec.ofNat 16 mask, buf := slot
           step := step, feats := feats, doseWait := wait, items := feats.map (featureItem p.lun) ++ items } s

/-- A READ job on a page under an offset set: codec context and items (R233, R254, R255). -/
def addRead (owner : Owner) (p : Page) (mask slot prio step tag : Nat) (off : List Int) (s : State) : Nat × State :=
  let s := if tag == 3 then useTrued p.lun p.block (zoneOf p.lun p.page s) s else s
  addPageJob owner p mask slot prio step (pageFeats p.lun p.page off s)
    [readItem 1 p.lun p.block p.page p.profile (planesOf mask) mask (if tableOk p.lun s then tag else 4) step slot s] s

/-- A SENSE job of sensing `i` (R278). -/
def addSense (owner : Owner) (p : Page) (mask slot prio step tag i : Nat) (off : List Int) (s : State) : Nat × State :=
  addPageJob owner p mask slot prio step (pageFeats p.lun p.page off s)
    [readItem 5 p.lun p.block p.page p.profile (planesOf mask) mask tag i slot s] s

/-- Offsets of a sensing: those of the page type's levels shifted by `d` and clamped (R278). -/
def shifted (levels : Nat) (off : List Int) (d : Int) : List Int :=
  off.zipIdx.map (fun x => if bitAt levels (x.2 + 1) then clampInt (-128) 127 (x.1 + d) else x.1)

/-- START of a RETRY job (R276): the vendor routine when retryStart lies below 0x040, or at 0x600 or above with no
customer image. -/
def retryStart (u : Nat) (s : State) : Nat :=
  let a := die (lunType u s) 0x18 s
  if a < 0x40 || (0x600 ≤ a && !s.modes.custLoaded) then 0x1C0 else a

/-- The bytes that the vendor retry routine drives, from the job data buffer: RETRY_FEAT with P1 = index + 1, and RETRY_FEAT
again (R276; log entry 117). -/
def retryData (u i : Nat) (s : State) : List Byte :=
  if 0x600 ≤ retryStart u s then []
  else
    let feat := (table (lunType u s) s).getD 68 0
    [feat, BitVec.ofNat 8 (i + 1), 0, 0, 0, feat]

/-- A RETRY job: a RETRY item and a READ item with tag 0x5 and step 3 (R162, R276, R277). -/
def addRetry (owner : Owner) (p : Page) (mask slot prio i : Nat) (s : State) : Nat × State :=
  addJob { owner := owner, lun := p.lun, prio := prio, block := p.block, page := p.page, profile := p.profile
           group := p.group, member := p.member, row := p.row, scan := p.scan, cwMask := BitVec.ofNat 16 mask, buf := slot
           step := 3, data := retryData p.lun i s
           items := [mkItem 6 (itemLun p.lun ++ [(85, retryStart p.lun s), (77, i)]),
             readItem 1 p.lun p.block p.page p.profile (planesOf mask) mask 5 3 slot s] } s

end Sys2Proof.Machine
end

