-- ==== Sys2Proof/Machine/Reads.lean ====
section
/-!
DEFINITION. Reads: landing slots, delivery, the climb of the read ladder and its steps (R15, R113, R247 to R256,
R276 to R283, R303).
-/
namespace Sys2Proof.Machine

/-! ### Codewords in progress -/

def cwOf (job cw : Nat) (s : State) : Option Cw := s.sched.cws.find? (fun c => c.job == job && c.cw == cw)

def modCw (job cw : Nat) (f : Cw → Cw) (s : State) : State :=
  { s with sched := { s.sched with
    cws := s.sched.cws.map (fun c => if c.job == job && c.cw == cw then f c else c) } }

def dropCw (job cw : Nat) (s : State) : State :=
  { s with sched := { s.sched with cws := s.sched.cws.filter (fun c => !(c.job == job && c.cw == cw)) } }

/-- Codewords that a job reads. -/
def cwsOf (job : Nat) (s : State) : List Cw := s.sched.cws.filter (fun c => c.job == job)

/-- A job that has ended is kept while codewords refer to it. -/
def dropJobs (s : State) : State :=
  { s with sched := { s.sched with jobs := s.sched.jobs.filter (fun j =>
    j.state != .ended || s.sched.cws.any (fun c => c.job == j.handle)) } }

/-! ### Delivery (R15, R113) -/

/-- 4,096 bytes written to an entry's buffer at a position; they count as delivered (R113, R118). -/
def deliverAt (eid pos slot : Nat) (bs : List Byte) (s : State) : State :=
  match entryAt eid s with
  | some e =>
    let s := (pieceAt e.pieces (pos * 4096) 4096).foldl
      (fun (acc : State × List Byte) p =>
        (hostWriteData (.data eid slot) p.1 (acc.2.take p.2) acc.1, acc.2.drop p.2)) (s, bs) |>.1
    modEntry eid (fun e => { e with count := e.count + 1 }) s
  | none => s

/-- A codeword of an entry is lost: DATA_LOST with the cause (R123, R251). -/
def loseCw (eid det : Nat) (s : State) : State :=
  noteStatus eid 0x30 det (modEntry eid (fun e => { e with lost := e.lost + 1 }) s)

/-- The completion of an entry waits for the record raised last (R479). -/
def awaitRecord (eid : Nat) (s : State) : State :=
  modEntry eid (fun e => { e with evWait := some s.evq.rseq.toNat }) s

/-- The deepest step and the number of codewords that left step 0 undecoded (R252). -/
def noteLadder (c : Cw) (step : Nat) (leaves : Bool) (s : State) : State :=
  match c.eid with
  | some e => modEntry e (fun e => { e with
      ladderStep := max e.ladderStep step, ladderCount := e.ladderCount + b2n leaves }) s
  | none => s

/-- Words found uncorrectable in a landing slot are dealt with by its codeword (R563). -/
def clearBad (off : Nat) (s : State) : State :=
  { s with sram := { s.sram with bad := s.sram.bad.filter (fun a => !(off / 16 ≤ a && a < off / 16 + 256)) } }

/-! ### Step 0 (R247, R257) -/

/-- A codeword read again from step 0 into another slot, or into its own when none is free (R563). -/
def rereadCw (c : Cw) (p : Page) (prio : Nat) (owner : Owner) (s : State) : State :=
  let slot := (findLanding s (if c.wide then 2 else 1)).getD c.slot
  let (off, tag) := firstSet p.lun p.block p.page s
  let (h, s) := addRead owner p (2 ^ c.cw) slot prio 0 tag off s
  { s with sched := { s.sched with cws := s.sched.cws.map (fun x =>
    if x.job == c.job && x.cw == c.cw then
      { x with job := h, slot := slot, step := 0, state := .reading, raw := [], sensings := [], rereads := []
               work := none, tried := [off], stepOver := false, sramRetry := true }
    else x) } }

/-- A codeword that goes to the block that asked for it: that of a scan read with its label (R233, R417). -/
def sendCw (r : Remote) (c : Cw) (bs : List Byte) (label : List Byte × Bool × State) : State :=
  dvSend 0x13 (some r.work.src) (le 2 r.work.handle ++ le 1 c.cw ++ bs ++ (if c.wide then label.1 else [])) label.2.2

/-- A codeword that a job of another block asked for goes to host memory at the addresses that the job carries, or to that
block; the results of a lost lead block's job are discarded (R415, R417, R428). -/
def deliverRemote (c : Cw) (bs : List Byte) (s : State) : State :=
  match (jobAt c.job s).map (fun (j : Job) => j.owner) with
  | some (Owner.remote h) =>
    match remoteAt h s with
    | some r =>
      if r.dropped then s
      else match r.work.addrs[c.pos]? with
      | some ps =>
        (ps.foldl (fun (acc : State × List Byte) p =>
          (hostWriteData (.remote h c.cw) p.1.toNat (acc.2.take p.2) acc.1, acc.2.drop p.2)) (s, bs)).1
      | none => sendCw r c bs (if c.wide then sramRead (landOff (c.slot + 1)) 32 s else ([], true, s))
    | none => s
  | _ => s

/-- A codeword as it was read out of its landing slot goes to the host (R15). An uncorrectable word there makes the codeword
be read again once; the second ends the entry with DETAIL 0xE0 (R563). -/
def landRead (c : Cw) (bs : List Byte) (ok : Bool) (s : State) : State :=
  let s := if ok then s else clearBad (landOff c.slot) s
  if ok then
    let s := modCw c.job c.cw (fun c => { c with state := .decoded, work := none, sensings := [] }) s
    match c.eid with
    | some e => deliverAt e c.pos c.slot bs s
    | none => deliverRemote c bs s
  else
    match jobAt c.job s with
    | some j =>
      if c.sramRetry then
        match c.eid with
        | some e => noteStatus e 0x50 0xE0 (dropCw c.job c.cw s)
        | none => modCw c.job c.cw (fun c => { c with state := .lost, work := none }) s
      else rereadCw c j.pageOf j.prio j.owner s
    | none => s

/-- The plain label of a scan read's codeword enters bytes 0 to 31 of its second slot (R233). -/
def landLabel (c : Cw) (label : List Byte) (s : State) : State :=
  if c.wide then sramWrite (landOff (c.slot + 1)) (padTo 32 label) s else s

/-- The data of a codeword enters its landing slot and, for an entry, goes to the host (R15, R236, R563). -/
def landCw (c : Cw) (data : List Byte) (s : State) : State :=
  let r := sramRead (landOff c.slot) 4096 (sramWrite (landOff c.slot) data s)
  landRead c r.1 r.2.1 r.2.2

/-! ### The climb (R248 to R251) -/

/-- Highest step a codeword may take: MAX_STEP of its entry; 5 for a read that serves a glue-up slot, step 6, a rebuild or
patrol; a refit's reads use the full ladder (R251, R280, R347, R352, R358, R563). -/
def cwMax (c : Cw) (s : State) : Nat :=
  match c.eid with
  | some e => if s.modes.holdup || s.modes.quarantine then c.step else ((entryAt e s).map (·.maxStep)).getD 0
  | none => match jobAt c.job s with
    | some j => match j.owner with
      | .fix _ _ => 5
      | .row id =>
        if s.modes.holdup || s.modes.quarantine then c.step
        else if (s.bg.runs.find? (fun r => r.id == id)).any (fun r => r.service == .refit) then 6 else 5
      | .remote h => ((remoteAt h s).map (·.work.maxStep)).getD 0
      | _ => if s.modes.holdup || s.modes.quarantine then c.step else 6
    | none => 0

/-- The page of a codeword. -/
def cwPage (c : Cw) (s : State) : Page := ((jobAt c.job s).map Job.pageOf).getD {}

/-- Every row of the page's wordline is programmed (R270). -/
def wordlineWhole (p : Page) (s : State) : Bool :=
  let b := max 1 (lunBits p.lun s)
  p.page / b * b + b ≤ (dirAt p.group s).nextRow

/-- The first of sets 0x1 and 0x2 not yet tried for the page: offsets and tag (R248). -/
def stepOneSet (c : Cw) (p : Page) (s : State) : Option (List Int × Nat) :=
  let a := predicted p.lun p.block p.page s
  let b := predictedUp p.lun p.block p.page s
  if !c.tried.contains a then some (a, 1) else if !c.tried.contains b then some (b, 2) else none

/-- The next retry index to try: from the hint as it stood at the start of the step upwards, wrapping (R277). -/
def nextRetry (c : Cw) (p : Page) (s : State) : Option Nat :=
  let n := die (lunType p.lun s) 0x19 s
  let start := c.rereads.headD (lunRec p.lun s).retryHint
  if n == 0 || min n (cfg 0x2500 0x0F s) ≤ c.rereads.length then none
  else some ((start + c.rereads.length) % n)

/-- The channel of the LUN stays fenced: no ladder job is ever placed on it (R152, R283). -/
def fencedLun (u : Nat) (s : State) : Bool := ownLun u s && (jigAt (lunChan u) s).state == .fenced

/-- Step `k` is not passed over for the codeword (R248); those of a channel that stays fenced go straight to step 6 (R283). -/
def stepRuns (k : Nat) (c : Cw) (p : Page) (s : State) : Bool :=
  let ok := tableOk p.lun s
  if k != 6 && fencedLun p.lun s then false
  else
  match k with
  | 1 => ok && (stepOneSet c p s).isSome
  | 2 => ok && wordlineWhole p s
  | 3 => (ok || 0x600 ≤ retryStart p.lun s) && (nextRetry c p s).isSome
  | 4 => ok
  | 5 => ok && s.codec.fusionUp
  | 6 => !p.scan
  | _ => false

/-- The step that a failed codeword runs next: its own again while that can try more (steps 1 and 3), else the first
one above that is not passed over. -/
def nextStep (c : Cw) (s : State) : Nat :=
  let p := cwPage c s
  let again := (c.step == 1 || c.step == 3) && !c.stepOver
  (((List.range 7).filter (fun k => c.step < k || (again && k == c.step))).find? (fun k => stepRuns k c p s)).getD 7

/-- Codewords have left the ladder undecoded (R286). -/
def countLost (n : Nat) (s : State) : State := { s with recov := { s.recov with lost := s.recov.lost + BitVec.ofNat 32 n } }

/-- A codeword whose climb is over without data (R251). -/
def endClimb (c : Cw) (s : State) : State :=
  let s := countLost 1 s
  match c.eid with
  | some e => loseCw e 3 (dropCw c.job c.cw s)
  | none => modCw c.job c.cw (fun c => { c with state := .lost, work := none }) s

/-- The ladder may place a job (R281, R428). -/
def ladderRuns (s : State) : Bool := !s.modes.holdup && !s.modes.quarantine && !s.modes.fenced

/-- A codeword failed its step: the climb goes on, or ends at MAX_STEP (R249, R251) or because HOLDUP or QUARANTINE lets no
ladder job follow (R281). -/
def failCw (c : Cw) (spent : Bool) (s : State) : State :=
  let c := { c with state := .failed, stepOver := c.stepOver || spent, work := none, sensings := [], raw := [] }
  let s := modCw c.job c.cw (fun _ => c) s
  if !(ladderRuns s) || cwMax c s < nextStep c s then endClimb c s else s

/-- Codewords of the page that a job reads, for the same work (R250). -/
def mates (j : Job) (s : State) : List Cw :=
  s.sched.cws.filter (fun c => match jobAt c.job s with
    | some x => x.owner == j.owner && x.pageOf == j.pageOf
    | none => false)

/-- A codeword's step is under way. -/
def Cw.busy (c : Cw) : Bool :=
  c.state == .reading || c.state == .waitDecode || c.state == .truing || c.state == .waitArea

/-- Failed codewords of a job's page whose next step is `k`, once no step of the page's codewords is under way and, below
step 6, none of them has a lower step to run: the undecoded codewords of a page climb together (R250). -/
def climbers (job k : Nat) (s : State) : List Cw :=
  match jobAt job s with
  | some j =>
    let cs := mates j s
    if cs.any Cw.busy || (k != 6 && cs.any (fun c => c.state == .failed && nextStep c s < k)) then []
    else cs.filter (fun c => c.state == .failed && nextStep c s == k && k ≤ cwMax c s)
  | none => []

/-- Mask of a list of codewords. -/
def cwMaskOf (cs : List Cw) : Nat := bitsOf ((List.range 16).map (fun i => cs.any (fun c => c.cw == i)))

/-- Landing slots that a codeword of the list takes (R233). -/
def slotsEach (cs : List Cw) : Nat := if cs.any (·.wide) then 2 else 1

/-- The codewords may take consecutive slots from `i`: each is free or one of their own (R233). -/
def runFits (cs : List Cw) (s : State) (i : Nat) : Bool :=
  (List.range (slotsEach cs * cs.length)).all (fun k => cs.any (fun c => c.holds (i + k)) || landFree s (i + k))

/-- Jobs that read the codewords again, with their handles: one for all of them where consecutive slots are to be had among
those in use now (R21), else one for each in its own slot (R233, R250). -/
def rereadGroups (cs : List Cw) (s : State) : List (List Cw × Nat) :=
  let own := (cs.map (·.slot)).headD 0
  if cs.length ≤ 1 || (own + slotsEach cs * cs.length ≤ landingSlots s && runFits cs s own) then [(cs, own)]
  else
    match findFrom (runFits cs s) (landingSlots s + 1 - slotsEach cs * cs.length) 0 with
    | some i => [(cs, i)]
    | none => cs.map (fun c => ([c], c.slot))

/-- Codewords that go on under another job at a step, at consecutive slots from its handle. -/
def moveCws (cs : List Cw) (h slot step : Nat) (f : Cw → Cw) (s : State) : State :=
  { s with sched := { s.sched with cws := s.sched.cws.map (fun x =>
    if cs.any (fun c => c.job == x.job && c.cw == x.cw) then
      f { x with job := h, step := step, state := .reading, retried := false, raw := []
                 slot := slot + slotsEach cs * (cs.map (·.cw)).idxOf x.cw
                 stepOver := if x.step == step then x.stepOver else false }
    else x) } }

/-- Codewords of one page read again: `add` makes a job from a codeword mask and a handle (R233, R250). -/
def reread (cs : List Cw) (step : Nat) (add : Nat → Nat → State → Nat × State) (f : Cw → Cw) (s : State) : State :=
  dropJobs ((rereadGroups cs s).foldl (fun s g =>
    let (h, s) := add (cwMaskOf g.1) g.2 s
    moveCws g.1 h g.2 step f s) s)

/-- Codewords that begin a step above their last: the step counts in LADDER (R252). -/
def noteStep (cs : List Cw) (step : Nat) (s : State) : State :=
  cs.foldl (fun s c => noteLadder c step false s) s

/-- PREDICTED_THRESHOLDS: step 1 re-reads a page's failed codewords with set 0x1, then 0x2 (R248). -/
def execPredictedThresholds (job : Nat) (s : State) : Out :=
  .next <|
    match jobAt job s, climbers job 1 s with
    | some j, c :: cs =>
      match ladderRuns s, stepOneSet c j.pageOf s with
      | true, some (off, tag) =>
        let all := (c :: cs).filter (fun x => stepOneSet x j.pageOf s == some (off, tag))
        reread all 1 (fun mask slot => addRead j.owner j.pageOf mask slot j.prio 1 tag off)
          (fun x => { x with tried := x.tried ++ [off] }) (noteStep all 1 s)
      | _, _ => s
    | _, _ => s

/-- RETRY_TABLE: step 3 places the RETRY job of the next index (R276, R277). -/
def execRetryTable (job : Nat) (s : State) : Out :=
  .next <|
    match jobAt job s, climbers job 3 s with
    | some j, c :: cs =>
      match ladderRuns s, nextRetry c j.pageOf s with
      | true, some i =>
        let all := (c :: cs).filter (fun x => nextRetry x j.pageOf s == some i)
        reread all 3 (fun mask slot => addRetry j.owner j.pageOf mask slot j.prio i)
          (fun x => { x with rereads := x.rereads ++ [i] }) (noteStep all 3 s)
      | _, _ => s
    | _, _ => s

/-! ### READ entries: slots and jobs (R118, R233, R251, R303) -/

/-- Drawer priority of a READ entry (R118). -/
def Entry.readPrio (e : Entry) : Nat := if bitAt e.options.toNat 3 then 0 else 1

/-- A codeword of an entry as it starts. -/
def newCw (e : Entry) (h m c lun slot : Nat) (off : List Int) : Cw :=
  { job := h, eid := some e.eid, group := e.group.toNat, member := m, row := e.row.toNat, cw := c, lun := lun, slot := slot
    pos := e.posOf m c, tried := [off] }

/-- Codewords put at consecutive slots. -/
def placeCws (mk : Nat → Nat → Cw) (slot : Nat) : List Nat → List Cw
  | [] => []
  | c :: cs => mk c slot :: placeCws mk (slot + 1) cs

/-- One member of a READ begins: codewords outside DATA_MASK are delivered as zeros, codewords in the loss ledger
are lost, those of a member that cannot be read go straight to step 6, the rest are read (R252, R303, R336). None while
no landing slots are free. -/
def startMemberRead (e : Entry) (m : Nat) (s : State) : Option State :=
  let g := e.group.toNat
  let r := e.row.toNat
  let w := (dirAt g s).width
  let s := modEntry e.eid (fun e => { e with unread := e.unread.filter (· != m) }) s
  if m < w && !bitAt (rowMask g r s) m then
    some (e.selected.foldl (fun s c => deliverAt e.eid (e.posOf m c) 4095 zeroCw s) s)
  else
    let known := e.selected.filter (fun c => m < w && inLedger g m r c s)
    let want := e.selected.filter (fun c => !(known.contains c))
    let lose (s : State) : State := known.foldl (fun s _ => loseCw e.eid 1 s) s
    if want.isEmpty then some (lose s)
    else
      match findLanding s want.length with
      | none => none
      | some slot =>
        let p := memberPage g m r s
        let mask := bitsOf ((List.range 16).map want.contains)
        if memberGone g m r s then
          let h := freeHandle s % 4096
          let s := { s with sched := { s.sched with
            nextJob := (h + 1) % 4096
            jobs := s.sched.jobs ++ [{ handle := h, owner := .read e.eid, lun := p.lun, prio := e.readPrio, state := .ended
                                       group := g, member := m, row := r, block := p.block, page := r
                                       profile := p.profile, cwMask := BitVec.ofNat 16 mask, buf := slot }]
            cws := s.sched.cws ++ placeCws (fun c i => { newCw e h m c p.lun i [] with state := .failed, step := 5 }) slot want } }
          let cs := cwsOf h s
          let s := cs.foldl (fun s c => noteLadder c 6 true s) (lose s)
          some (cs.foldl (fun s c => if cwMax c s < 6 then endClimb c s else s) s)
        else
          let (off, tag) := firstSet p.lun p.block p.page s
          let (h, s) := addRead (.read e.eid) p mask slot e.readPrio 0 tag off s
          some (lose { s with sched := { s.sched with
            cws := s.sched.cws ++ placeCws (fun c i => newCw e h m c p.lun i off) slot want } })

/-- Members whose jobs wait for landing slots begin as slots allow, in fetch order (R233). -/
def pumpReads (s : State) : State :=
  (s.sched.entries.flatMap (fun e => e.unread.map (fun m => (e, m)))).foldl (fun s p =>
    match startMemberRead p.1 p.2 s with
    | some s => s
    | none => s) s

/-- HOLDUP or QUARANTINE stops the climbs: MAX_STEP falls to the step each codeword has reached (cwMax), and those that have
failed it are lost; searches are abandoned without an event, but counted (R281). -/
def stopClimbs (s : State) : State :=
  let s := withdraw (fun j => match j.owner with | .truing _ => true | _ => false) s
  let s := s.recov.searches.foldl (fun s q => modLun q.lun (fun r => { r with trueAbandoned := r.trueAbandoned + 1 }) s)
    { s with recov := { s.recov with
      searches := [], trueAbandon := s.recov.trueAbandon + BitVec.ofNat 32 s.recov.searches.length } }
  let stuck := s.sched.cws.filter (fun c => c.state == .failed || c.state == .truing || c.state == .waitArea
    || c.state == .recovering)
  stuck.foldl (fun s c => endClimb c s) s

/-- Data requests of a landing slot have been acknowledged: the slot is free, and waiting reads begin (R233). -/
def dataAcked (eid slot : Nat) (s : State) : State :=
  if (s.host.writes ++ s.host.stalled).any (fun r => r.what == .data eid slot) then s
  else
    let s := { s with sched := { s.sched with
      cws := s.sched.cws.filter (fun c => !(c.eid == some eid && c.slot == slot && c.state == .decoded)) } }
    pumpReads (dropJobs s)

end Sys2Proof.Machine
end

