-- ==== Sys2Proof/Machine/Ladder.lean ====
section
/-!
DEFINITION. Engines and the rest of the ladder: encoding, the three kinds of decode, truing searches, reconstruction,
and P and Q computed again (R230 to R245, R248 to R252, R267 to R275, R278 to R281, R563).
-/
namespace Sys2Proof.Machine

/-! ### Engines (R241, R244) -/

/-- CODEC_STATUS (R244). -/
def codecStatus (s : State) : Nat :=
  packFields [(0, s.codec.encUp.toNat), (4, s.codec.hardUp.toNat), (12, s.codec.softUp.toNat), (16, b2n s.codec.fusionUp)]

/-- Engine `i` of a kind is in service: 0 encoder, 1 hard, 2 soft, 3 fusion. -/
def engineUp (kind i : Nat) (s : State) : Bool :=
  match kind with
  | 0 => i < 4 && bitAt s.codec.encUp.toNat i
  | 1 => i < 8 && bitAt s.codec.hardUp.toNat i
  | 2 => i < 4 && bitAt s.codec.softUp.toNat i
  | _ => i == 0 && s.codec.fusionUp

/-- Some engine of the kind is in service. -/
def kindUp (kind : Nat) (s : State) : Bool := (List.range 8).any (fun i => engineUp kind i s)

/-- An engine fault (R232, R241): the engine stays out of service, CODEC_FAULT records it, over one that is still VALID (R244;
DESIGN CHOICE, log entry 114), and source 241 is raised. -/
def engineFault (kind i cause : Nat) (s : State) : State :=
  let c := s.codec
  let clear (n v : Nat) : Nat := if bitAt v i then v - 2 ^ i else v % 2 ^ n
  let s := { s with codec := { c with
    encUp := if kind == 0 then BitVec.ofNat 4 (clear 4 c.encUp.toNat) else c.encUp
    hardUp := if kind == 1 then BitVec.ofNat 8 (clear 8 c.hardUp.toNat) else c.hardUp
    softUp := if kind == 2 then BitVec.ofNat 4 (clear 4 c.softUp.toNat) else c.softUp
    fusionUp := c.fusionUp && kind != 3
    faultValid := true, faultKind := BitVec.ofNat 2 kind, faultIndex := BitVec.ofNat 3 i
    faultCause := BitVec.ofNat 3 cause } }
  raisePriv 241 false ([BitVec.ofNat 8 kind, BitVec.ofNat 8 i, BitVec.ofNat 8 cause, 0] ++ le 4 (codecStatus s)) s

/-! ### Encoding (R230 to R232) -/

/-- The job is work of the flush (R240, R450): the programs of rows accepted, of parity and of the journal, and the reads
that make P and Q whole. A lead block's program is when its priority is that of a row's page; rebuild and refit program at
priority 3. -/
def Job.flushWork (j : Job) : Bool :=
  match j.owner with
  | .write _ _ | .pad _ _ | .parity _ _ | .journal _ | .fix _ _ => true
  | .remote _ => !endsInRead j.items && j.prio < 3
  | _ => false

/-- Page sets that wait for an encoder are taken by free engines in service, in order (R231); under HOLDUP those of the flush
come first (R240). -/
def assignEncoders (s : State) : State :=
  let want := s.sched.jobs.filter (fun j => j.encoding && j.encoded < 16
    && !(s.codec.engines.any (fun e => e.2 == j.handle)))
  let want := if s.modes.holdup then want.filter Job.flushWork ++ want.filter (fun j => !j.flushWork) else want
  want.foldl (fun s j =>
    match (List.range 4).find? (fun i => engineUp 0 i s && !(s.codec.engines.any (fun e => e.1 == i))) with
    | some i => { s with codec := { s.codec with engines := s.codec.engines ++ [(i, j.handle)] } }
    | none => s) s

/-- User bytes of codeword `c` of a page that a job of another block programs here: write staging, P or Q of the row's slot, its
messages, or a pad (R230, R302, R415, R416). -/
def remoteData (r : Remote) (c : Nat) (s : State) : List Byte × Bool × State :=
  let w := r.work
  match r.stage, r.page.lookup c with
  | some set, _ => sramRead (stageOff (16 * set + c)) 4096 s
  | none, some bs => (bs.take 4096, true, s)
  | none, none =>
    match findSlot w.group w.row s, w.kind == 2 || w.kind == 3 with
    | some i, true => slotBytes i (w.kind - 2) c s
    | _, _ => (zeroCw, true, s)

/-- User bytes of codeword `c` of a job's page set: write staging, the row's slot, a pad, a journal page. False when a word was
uncorrectable. -/
def pageData (j : Job) (c : Nat) (s : State) : List Byte × Bool × State :=
  match j.owner with
  | .write _ _ => sramRead (stageOff (j.buf + c)) 4096 s
  | .parity i m =>
    if (slotAt i s).sentinels.contains c then (zeroCw, true, s)
    else slotBytes i (if m == j.width then 0 else 1) c s
  | .journal copy =>
    match s.stripe.jrnl.inFlight with
    | some p => (slice (pageUser copy p s) (c * 4096) 4096, true, s)
    | none => (zeroCw, true, s)
  | .spare id | .target id _ | .repair id => (((runAt id s).bind (fun r => r.page[c]?)).elim zeroCw (fun x => x.user), true, s)
  | .remote h =>
    match remoteAt h s with
    | some r => remoteData r c s
    | none => (zeroCw, true, s)
  | _ => (zeroCw, true, s)

/-- The label of codeword `c` of a job's page set (R223, R302, R308, R339). STAMP is 0 in the KIND 0x01 codewords that rebuild,
refit and repair program (DESIGN CHOICE, log entry 111). -/
def pageLabel (j : Job) (c : Nat) (s : State) : Label :=
  let l : Label := { kind := 4, profile := j.profile, member := j.member, cw := c, group := j.group, width := j.width
                     row := j.row }
  match j.owner with
  | .write _ _ => { l with kind := 1, stamp := j.stamp.toNat }
  | .parity i m =>
    if (slotAt i s).sentinels.contains c then { l with member := 0xFF }
    else { l with kind := if m == j.width then 2 else 3, sealW := j.sealW.toNat }
  | .journal copy =>
    match s.stripe.jrnl.inFlight with
    | some p => journalLabel copy p c s
    | none => l
  | .spare id | .target id _ | .repair id =>
    match (runAt id s).bind (fun r => r.page[c]?) with
    | some x => { l with kind := x.kind, member := x.member, sealW := if x.kind == 2 || x.kind == 3 then j.sealW.toNat else 0 }
    | none => l
  | .remote h =>
    match remoteAt h s with
    | some r => { l with kind := r.work.kind, stamp := r.work.stamp.toNat, sealW := r.work.sealW.toNat }
    | none => l
  | _ => l

/-- Codeword `c` may be encoded: its data lies in staging, or P and Q of it are sound (R230, R563). -/
def mayEncode (j : Job) (c : Nat) (s : State) : Bool :=
  match j.owner with
  | .write eid m => match entryAt eid s with
    | some e => e.arrived.contains (m, c)
    | none => false
  | .parity i _ => !((slotAt i s).bad.contains c)
  | _ => true

/-- An uncorrectable word met by an encoder (R563): staging data is fetched again from the host, P and Q are computed
again. -/
def badPage (j : Job) (c : Nat) (s : State) : State :=
  match j.owner with
  | .write eid m =>
    match entryAt eid s with
    | some e =>
      let pos := if e.member == 0xFF then m * 16 + c else c
      let s := modEntry eid (fun e => { e with arrived := e.arrived.filter (· != (m, c)) }) s
      (pieceAt e.pieces (pos * 4096) 4096).foldl (fun s p => hostReadData (.data eid (j.buf + c)) p.1 p.2 s) s
    | none => s
  | .parity i _ => modSlot i (fun k => { k with bad := if k.bad.contains c then k.bad else k.bad ++ [c] }) s
  | _ => s

/-- The entry that a PROGRAM job serves. -/
def programEntry (j : Job) (s : State) : Option Nat :=
  match j.owner with
  | .write eid _ => some eid
  | .parity _ _ => rowEntry j.group j.row s
  | _ => none

/-- No encoder remains in service: the job is to end before its array-start, and its entry completes DEVICE_ERROR with
DETAIL 0xE2 (R232). -/
def noEncoder (j : Job) (s : State) : State :=
  let s := modJob j.handle (fun j => { j with abortReq := true, encoding := false }) s
  match programEntry j s with
  | some eid => noteStatus eid 0x50 0xE2 s
  | none => s

/-- A faulty encoder (R232): the whole page set is encoded again on another engine; with none left every job whose page set is
not encoded whole is to end. -/
def encoderFault (engine cause : Nat) (j : Job) (s : State) : State :=
  let s := engineFault 0 engine cause { s with codec := { s.codec with
    engines := s.codec.engines.filter (fun e => e.1 != engine) } }
  let s := modJob j.handle (fun j => { j with encoded := 0 }) s
  if kindUp 0 s then assignEncoders s
  else (s.sched.jobs.filter (fun j => j.encoding && j.encoded < 16)).foldl (fun s j => noEncoder j s) s

/-- A codeword enters the channel write queue, unless an engine that has since failed gave it before (R231, R232). -/
def deliverCw (j : Job) (c : Nat) (bs : List Byte) (s : State) : State :=
  if c < j.delivered then s
  else
    let s := { s with codec := { s.codec with parity := s.codec.parity ++ [(j.handle, c, bs)] } }
    modChan j.ch (fun h => { h with wrq := h.wrq + bs.length }) (modJob j.handle (fun j => { j with delivered := c + 1 }) s)

/-- The label of a codeword of a page set as its 32 bytes; one that came from another block brings its own (R223, R415). -/
def labelBytes (j : Job) (c : Nat) (data : List Byte) (s : State) : List Byte :=
  match j.owner with
  | .remote h =>
    match (remoteAt h s).bind (fun r => r.page.lookup c) with
    | some bs => bs.drop 4096
    | none => (pageLabel j c s).bytes data
  | _ => (pageLabel j c s).bytes data

/-- The next codeword of a page set, encoded into the channel write queue (R230, R231). -/
def encodeNext (engine : Nat) (j : Job) (s : State) : State :=
  let c := j.encoded
  let (data, ok, s) := pageData j c s
  let s := { s with sram := { s.sram with bad := if ok then s.sram.bad else [] } }
  if !ok then badPage j c s
  else
    let s := deliverCw j c (encodePlain j.profile j.block j.page c (data ++ labelBytes j c data s)) s
    let s := { s with codec := { s.codec with
      engines := if c == 15 then s.codec.engines.filter (fun e => e.1 != engine) else s.codec.engines } }
    assignEncoders (modJob j.handle (fun j => { j with encoded := c + 1 }) s)

/-- CODEWORD_ENCODE: an engine finishes the next codeword of its page set, or shows a fault: some false, memory parity;
some true, a syndrome that is not zero (R230 to R232, R244). -/
def execCodewordEncode (engine : Nat) (fault : Option Bool) (s : State) : Out :=
  checked (engine < 4) <|
    match s.codec.engines.lookup engine with
    | some h =>
      match jobAt h s with
      | some j =>
        match fault with
        | some syn => if engineUp 0 engine s then encoderFault engine (if syn then 2 else 1) j s else s
        | none => if j.encoded < 16 && mayEncode j j.encoded s then encodeNext engine j s else s
      | none => s
    | none => s

/-! ### Results of decodes (R242 to R251) -/

/-- What the codec expects of a codeword (R233). -/
def ctxOf (c : Cw) (j : Job) : Ctx :=
  { profile := j.profile, block := j.block, page := j.page, cw := c.cw, group := j.group, member := j.member
    row := j.row, scan := j.scan }

/-- A counter of R244 and its object of R245. -/
def bumpCount (i : Nat) (s : State) : State :=
  { s with codec := { s.codec with counters := s.codec.counters.modify i (· + 1) }
           stats := { s.stats with codewords := s.stats.codewords.modify i (· + 1) } }

/-- The counters that a result moves; `kind` 0 hard, 1 soft, 2 fusion (R244). -/
def countResult (kind r : Nat) (s : State) : State :=
  let s := if r ≤ 1 then bumpCount (2 * kind) s else if r ≤ 4 then bumpCount (2 * kind + 1) s else s
  if r == 3 then bumpCount 6 s else if r == 4 then bumpCount 7 s else if r == 5 then bumpCount 8 s else s

/-- CODEC_LASTFAIL keeps the last record of a failure (R244). -/
def noteRecord (kind engine : Nat) (c : Cw) (j : Job) (d : Decoded) (s : State) : State :=
  let s := countResult kind d.result s
  if d.result == 2 || d.result == 3 || d.result == 4 || d.result == 7 || d.result == 8 then
    { s with codec := { s.codec with
      lastFail := BitVec.ofNat 128 (leVal (statusRecord (ctxOf c j) kind engine c.lun c.job d)) } }
  else s

/-- A codeword decoded or rebuilt at step `k` (R286, R287). -/
def countResolved (k : Nat) (s : State) : State :=
  if k == 0 then s
  else { s with recov := { s.recov with resolved := s.recov.resolved.modify (k - 1) (· + 1) }
                stats := { s.stats with resolved := s.stats.resolved.modify (k - 1) (· + 1) } }

/-- A READ ends with the status given: its reads are withdrawn, its codewords leave, those undecoded counted (R241, R286,
R563). -/
def failRead (eid st det : Nat) (s : State) : State :=
  let s := withdraw (jobOf eid) (noteStatus eid st det s)
  let s := countLost (s.sched.cws.filter (fun c => c.eid == some eid && c.state != .decoded)).length s
  modEntry eid (fun e => { e with unread := [] })
    { s with sched := { s.sched with cws := s.sched.cws.filter (fun c => c.eid != some eid || c.state == .decoded) } }

/-- Engine kind of a codeword's decode: 0 hard, 1 soft, 2 fusion. -/
def decodeKind (c : Cw) : Nat := if c.step == 4 then 1 else if c.step == 5 then 2 else 0

/-- Bits of a sensing. -/
def sensed (c : Cw) (i : Nat) : List Byte := lookD [] i c.sensings

/-- ONES of a codeword's record: those of the sensing of shift 0 in step 4, else of the last hard sensing (R242). -/
def Cw.ones (c : Cw) : Nat := if c.step == 4 then onesBytes (sensed c 2) else c.lastOnes

/-- No engine of the needed kind is in service: RESULT 0x7 (R241). Step 4 then fails (log entry 15). -/
def noEngine (kind : Nat) (c : Cw) (j : Job) (s : State) : State :=
  let s := noteRecord kind 0 c j { result := 7, ones := c.ones } s
  if kind == 0 then
    match c.eid with
    | some e => failRead e 0x50 0xE2 s
    | none => modCw c.job c.cw (fun c => { c with state := .lost, work := none }) (countLost 1 s)
  else failCw c true s

/-- A codeword whose bits are whole joins the queue of its decoders, if an engine of the kind is in service (R234, R238, R239,
R241, R279). -/
def queueDecode (c : Cw) (s : State) : State :=
  let n := s.codec.decSeq
  let s := modCw c.job c.cw (fun c => { c with state := .waitDecode, qseq := n })
    { s with codec := { s.codec with decSeq := n + 1 } }
  if kindUp (decodeKind c + 1) s then s
  else
    match jobAt c.job s with
    | some j => noEngine (decodeKind c) { c with state := .waitDecode } j s
    | none => s

/-! ### Decoder queues (R238 to R241) -/

/-- Drawer priority of the job that reads a codeword. -/
def cwPrio (c : Cw) (s : State) : Nat := ((jobAt c.job s).map (fun (j : Job) => j.prio)).getD 3

/-- The codeword's job is work of the flush (R240). -/
def cwFlush (c : Cw) (s : State) : Bool := ((jobAt c.job s).map Job.flushWork).getD false

/-- Codewords that wait for an engine of a kind. -/
def decodeQueue (kind : Nat) (s : State) : List Cw :=
  s.sched.cws.filter (fun c => c.state == .waitDecode && decodeKind c == kind
    && !(s.codec.decoders.any (fun d => d.job == c.job && d.cw == c.cw)))

/-- The first of a list by a key of two numbers; of equal keys the earlier. -/
def leastBy (key : Cw → Nat × Nat) (l : List Cw) : Option Cw :=
  l.foldl (fun acc c => match acc with
    | none => some c
    | some b => if (key c).1 < (key b).1 || ((key c).1 == (key b).1 && (key c).2 < (key b).2) then some c else some b) none

/-- The oldest of a list. -/
def oldest (l : List Cw) : Option Cw := leastBy (fun c => (0, c.qseq)) l

/-- The codeword that a free hard engine takes, and where the round robin goes on: work of the flush under HOLDUP, then the
oldest of a priority-0 job, then one codeword per channel in turn (R238, R240). -/
def nextHard (s : State) : Option (Cw × Nat) :=
  let q := decodeQueue 0 s
  match (if s.modes.holdup then oldest (q.filter (fun c => cwFlush c s)) else none) with
  | some c => some (c, s.codec.rr)
  | none =>
    match oldest (q.filter (fun c => cwPrio c s == 0)) with
    | some c => some (c, s.codec.rr)
    | none => (List.range 16).findSome? (fun i =>
        let ch := (s.codec.rr + i) % 16
        (oldest (q.filter (fun c => lunChan c.lun == ch))).map (fun c => (c, (ch + 1) % 16)))

/-- The codeword that a free soft or fusion engine takes: by job priority, then by arrival (R239, R240). -/
def nextArea (kind : Nat) (s : State) : Option Cw :=
  let q := decodeQueue kind s
  let key (c : Cw) : Nat × Nat := (cwPrio c s, c.qseq)
  match (if s.modes.holdup then leastBy key (q.filter (fun c => cwFlush c s)) else none) with
  | some c => some c
  | none => leastBy key q

/-- Bits that a hard decode of raw bytes inverts, and the injections left: none is spent on a codeword that the erased check
ends (R236, R244). -/
def takeInject (raw : List Byte) (s : State) : Nat × State :=
  if s.codec.injectCount == 0 || zeroBits raw ≤ cfg 0x2400 2 s then (0, s)
  else (s.codec.injectBits.toNat, { s with codec := { s.codec with injectCount := s.codec.injectCount - 1 } })

/-- A free engine of a kind takes the next codeword of its queue. -/
def takeDecode (kind : Nat) (s : State) (engine : Nat) : State :=
  if !(engineUp (kind + 1) engine s) || s.codec.decoders.any (fun d => d.kind == kind && d.engine == engine) then s
  else if kind == 0 then
    match nextHard s with
    | some (c, rr) =>
      let (n, s) := takeInject c.raw s
      { s with codec := { s.codec with
        rr := rr, decoders := s.codec.decoders ++ [{ kind := 0, engine := engine, job := c.job, cw := c.cw, inject := n }] } }
    | none => s
  else
    match nextArea kind s with
    | some c => { s with codec := { s.codec with
        decoders := s.codec.decoders ++ [{ kind := kind, engine := engine, job := c.job, cw := c.cw }] } }
    | none => s

/-- Decodes whose codeword has left its queue are over. -/
def dropDecodes (s : State) : State :=
  { s with codec := { s.codec with decoders := s.codec.decoders.filter (fun d =>
    engineUp (d.kind + 1) d.engine s
      && s.sched.cws.any (fun c => c.job == d.job && c.cw == d.cw && c.state == .waitDecode && decodeKind c == d.kind)) } }

/-- Free engines take waiting codewords, in ascending engine order (R238, R239). -/
def assignDecoders (s : State) : State :=
  let s := (List.range 8).foldl (takeDecode 0) (dropDecodes s)
  takeDecode 2 ((List.range 4).foldl (takeDecode 1) s) 0

/-! ### Truing searches (R268 to R275) -/

/-- The search of a zone. -/
def findSearch (u b z : Nat) (s : State) : Option Search :=
  s.recov.searches.find? (fun q => q.lun == u && q.block == b && q.zone == z)

def modSearch (id : Nat) (f : Search → Search) (s : State) : State :=
  { s with recov := { s.recov with searches := s.recov.searches.map (fun q => if q.id == id then f q else q) } }

/-- The sensings of one iteration: page types 0 to b − 1 of the wordline (R268, R269). -/
def senseSearch (q : Search) (s : State) : State :=
  let b := max 1 (lunBits q.lun s)
  let s := modSearch q.id (fun q => { q with used := q.used + b, sensings := [], retried := false }) s
  (List.range b).foldl (fun s p =>
    let page : Page := { lun := q.lun, block := q.block, page := q.wl * b + p, profile := q.profile }
    (addSense (.truing q.id) page (2 ^ q.slot) (q.work.getD 0) q.prio 8 8 p q.off s).2) s

/-! ### Work areas and sensings (R239, R268, R278) -/

/-- Work areas held (R239). -/
def areasHeld (s : State) : Nat :=
  (s.sched.cws.filter (fun c => c.work.isSome)).length + (s.recov.searches.filter (fun q => q.work.isSome)).length

/-- Eight consecutive landing slots, all within the landing buffers, for a work area (R239). -/
def findArea (s : State) : Option Nat := findFrom (runFree s 8) (768 + 1 - 8) 0

/-- The packed words of a work area, 6 bits for each codeword bit: 4 of them in 3 bytes (R239; DESIGN CHOICE, log entry 82). -/
def packArea : Nat → List Nat → List Byte
  | 0, _ => []
  | n + 1, l => le 3 (packFields [(0, l.getD 0 0), (6, l.getD 1 0), (12, l.getD 2 0), (18, l.getD 3 0)]) ++ packArea n (l.drop 4)

/-- A work area as the codec keeps it in the landing buffers, from a number for each codeword bit (R234, R239, R567). -/
def writeArea (w len : Nat) (value : Nat → Nat) (s : State) : State :=
  sramWrite (landOff w) (packArea (2 * len) ((List.range (8 * len)).map value)) s

/-- A work area is read by its engine: false, with the words found, when one of them is uncorrectable (R563). -/
def readArea (w : Option Nat) (len : Nat) (s : State) : Bool × State :=
  match w with
  | some w =>
    let r := sramRead (landOff w) (6 * len) s
    (r.2.1, r.2.2)
  | none => (true, s)

/-- Sensings of bit `i` that read 1. -/
def onesAt (c : Cw) (i : Nat) : Nat :=
  (c.sensings.filter (fun x => bitAt (byteAt x.2 (i / 8)) (i % 8))).length

/-- The centre of steps 4 and 5: the trued set if step 2 converged for the page, set 0x1 otherwise (R278). -/
def centre (cs : List Cw) (p : Page) (s : State) : List Int :=
  (cs.findSome? (·.trued)).getD (predicted p.lun p.block p.page s)

/-- Shift of each sensing of a step (R278): 5 for the soft read, fusionSensings for fusion. -/
def shifts (step : Nat) (p : Page) (s : State) : List (Nat × Int) :=
  let b := table (lunType p.lun s) s
  if step == 4 then
    let k := if byteAt b 70 == 0 then 6 else byteAt b 70
    (List.range 5).map (fun i => (i, ((i : Int) - 2) * (k : Int)))
  else
    let k := if byteAt b 71 == 0 then 4 else byteAt b 71
    let m := cfg 0x2500 0x10 s
    (List.range m).map (fun i => (i + (16 - m) / 2, (2 * ((i + (16 - m) / 2 : Nat) : Int) - 15) * (k : Int) / 2))

/-- SENSE jobs of a step about the centre `off`, under a codeword mask and a handle; the first one's handle names them
(R278). -/
def senseAll (j : Job) (off : List Int) (step mask slot : Nat) (s : State) : Nat × State :=
  let p := j.pageOf
  let levels := levelMask (table (lunType p.lun s) s) (pageType p.lun p.page s)
  (shifts step p s).foldl (fun (acc : Nat × State) x =>
    let (h, s) := addSense j.owner p mask slot j.prio step (step + 2) x.1 (shifted levels off x.2) acc.2
    if acc.1 == 4096 then (h, s)
    else (acc.1, modJob h (fun x => { x with ctx := some acc.1 }) s)) (4096, s)

/-- Codewords of a job that have just been given their work areas are sensed (R239, R278). -/
def senseGranted (s : State) (job : Nat) : State :=
  match jobAt job s, (cwsOf job s).filter (fun c => c.state == .waitArea && c.work.isSome) with
  | some j, c :: cs =>
    reread (c :: cs) c.step (senseAll j (centre (c :: cs) j.pageOf s) c.step) (fun x => { x with sensings := [] }) s
  | _, _ => s

/-- What waits for a work area: the key of its turn, priority and arrival, and the search or the codeword (R239, R268). -/
structure AreaTurn where
  prio : Nat
  seq : Nat
  search : Option Nat
  job : Nat := 0
  cw : Nat := 0
deriving DecidableEq, Repr

/-- `a` has its turn before `b`. -/
def AreaTurn.before (a b : AreaTurn) : Bool := a.prio < b.prio || (a.prio == b.prio && a.seq ≤ b.seq)

/-- Insertion in order of turn. -/
def AreaTurn.insert (a : AreaTurn) : List AreaTurn → List AreaTurn
  | [] => [a]
  | b :: l => if a.before b then a :: b :: l else b :: AreaTurn.insert a l

/-- What waits for work areas, in order of job priority and then of arrival (R239, R268). -/
def areaTurns (s : State) : List AreaTurn :=
  let cws := (s.sched.cws.filter (fun c => c.state == .waitArea && c.work.isNone)).map (fun (c : Cw) =>
    ({ prio := cwPrio c s, seq := c.qseq, search := none, job := c.job, cw := c.cw } : AreaTurn))
  let searches := (s.recov.searches.filter (fun q => q.work.isNone)).map (fun (q : Search) =>
    ({ prio := q.prio, seq := q.seq, search := some q.id } : AreaTurn))
  (cws ++ searches).foldr AreaTurn.insert []

/-- A work area for the one whose turn it is, while one is to be had (R239). -/
def grantArea (s : State) (t : AreaTurn) : State :=
  if areasHeld s < s.codec.workLimit.toNat then
    match findArea s, t.search with
    | some w, some id =>
      match s.recov.searches.find? (fun q => q.id == id) with
      | some q =>
        let q := { q with work := some w, start := s.now }
        senseSearch q (modSearch id (fun _ => q) s)
      | none => s
    | some w, none => modCw t.job t.cw (fun x => { x with work := some w }) s
    | none, _ => s
  else s

/-- Work areas are handed out in turn, and what has been given one is sensed (R239, R268, R278). -/
def pumpAreas (s : State) : State :=
  if !(ladderRuns s) then s
  else
    let turns := areaTurns s
    ((turns.map (·.job)).eraseDups).foldl senseGranted (turns.foldl grantArea s)

/-- A step of sensings begins: every climbing codeword of the page asks for a work area (R239, R278). -/
def senseStep (job step : Nat) (s : State) : State :=
  match climbers job step s with
  | [] => s
  | cs =>
    if !(ladderRuns s) then s
    else
      let n := s.codec.decSeq
      let s := cs.foldl (fun s c => modCw c.job c.cw (fun x => { x with
        step := step, state := .waitArea, qseq := n + c.cw, stepOver := false, work := none }) s) (noteStep cs step s)
      pumpAreas { s with codec := { s.codec with decSeq := n + 16 } }

/-- SOFT_READ: step 4 (R248, R278). -/
def execSoftRead (job : Nat) (s : State) : Out := .next (senseStep job 4 s)

/-- FUSION: step 5 (R248, R278). -/
def execFusion (job : Nat) (s : State) : Out := .next (senseStep job 5 s)

/-- A search of a zone joins, unless one runs, a result less than 10 ms old serves, or the zone cannot be trued (R265, R269,
R273). -/
def startSearch (u b z wl slot profile prio : Nat) (climb sweep : Bool) (s : State) : State :=
  if (findSearch u b z s).isSome || (recentTrued u b z s).isSome || !tableOk u s || !(ladderRuns s) then s
  else
    let s := useTrued u b z s
    let off := match heldEntry u b z s with | some e => e.off | none => predicted u b (wl * max 1 (lunBits u s)) s
    let n := 8 * cwLen profile
    let q : Search := {
      id := s.recov.nextSearch, lun := u, block := b, zone := z, wl := wl, slot := slot, off := off
      gain := List.replicate 15 ((cfg 0x2500 0x0B s * n : Nat), 65536), climb := climb, dose := blockDose u b s
      prio := prio, profile := profile, sweep := sweep, seq := s.codec.decSeq }
    pumpAreas { s with codec := { s.codec with decSeq := s.codec.decSeq + 1 }, recov := { s.recov with
      nextSearch := s.recov.nextSearch + 1, searches := s.recov.searches ++ [q] } }

/-- The middle wordline of a zone (R268). -/
def middleWl (u z : Nat) (s : State) : Nat := (2 * z + 1) * (lunPages u s / max 1 (lunBits u s)) / 8

/-- The group and directory entry whose member lies on an erase block set. -/
def groupOn (u b : Nat) (s : State) : Option DirEntry :=
  s.stripe.dir.find? (fun e => e.state != 0 && e.members.any (fun m => m.lun == u && m.block == b))

/-- Programmed pages of an erase block set in the journal's range of a LUN of the pair; none for another block (R307). -/
def journalRows (u b : Nat) (s : State) : Option Nat :=
  let j := s.stripe.jrnl
  let i := b - j.baseBlock
  if j.state == 0 || !(u == j.lunA || u == j.lunB) || b < j.baseBlock || j.blocks ≤ i then none
  else some (if i == j.page / max 1 j.pj then j.page % max 1 j.pj else if (doseAt u b s).stamped then j.pj else 0)

/-- Code profile and programmed rows of an erase block set of a group or of the journal. -/
def blockRows (u b : Nat) (s : State) : Option (Nat × Nat) :=
  match groupOn u b s with
  | some e => some (e.profile, e.nextRow)
  | none => (journalRows u b s).map (fun n => (4, n))

/-- A background search of a zone, on its middle wordline if that is complete (R268, R270, R275). -/
def backgroundSearch (u b z : Nat) (sweep : Bool) (s : State) : State :=
  match blockRows u b s with
  | some (profile, rows) =>
    if (middleWl u z s + 1) * max 1 (lunBits u s) ≤ rows then startSearch u b z (middleWl u z s) 0 profile 3 false sweep s
    else s
  | none => s

/-- Codewords that wait for the search of a zone. -/
def waitTruing (u b z : Nat) (s : State) : List Cw :=
  s.sched.cws.filter (fun c => c.state == .truing &&
    match jobAt c.job s with
    | some j => j.lun == u && j.block == b && zoneOf u j.page s == z
    | none => false)

/-- Step 2's re-read of codewords of one job with the trued set (R272). -/
def trueRead (job : Nat) (cs : List Cw) (off : List Int) (s : State) : State :=
  match jobAt job s, cs with
  | some j, _ :: _ =>
    reread cs 2 (fun mask slot => addRead j.owner j.pageOf mask slot j.prio 2 3 off)
      (fun x => { x with tried := x.tried ++ [off], trued := some off }) s
  | _, _ => s

/-- Every codeword that waits for a zone is read again, page by page. -/
def rereadAll (cs : List Cw) (off : List Int) (s : State) : State :=
  (cs.map (·.job)).eraseDups.foldl (fun s h => trueRead h (cs.filter (fun c => c.job == h)) off s) s

/-- Every codeword that waits for a zone has failed step 2. -/
def failTruing (cs : List Cw) (s : State) : State := cs.foldl (fun s c => failCw c true s) s

/-- A codeword that waits for a search which has gone, as when its block is erased, has failed step 2 (R273). -/
def settleTruing (s : State) : State :=
  failTruing (s.sched.cws.filter (fun c => c.state == .truing &&
    match jobAt c.job s with
    | some j => (findSearch j.lun j.block (zoneOf j.lun j.page s) s).isNone
    | none => true)) s

/-- The search leaves; its jobs not yet popped are withdrawn (R271). -/
def dropSearch (id : Nat) (s : State) : State :=
  let s := withdraw (fun j => j.owner == .truing id) s
  { s with recov := { s.recov with searches := s.recov.searches.filter (fun q => q.id != id) } }

/-- A search abandoned (R271). -/
def abandonSearch (q : Search) (s : State) : State :=
  let cs := waitTruing q.lun q.block q.zone s
  let s := dropSearch q.id s
  let s := modLun q.lun (fun r => { r with trueAbandoned := r.trueAbandoned + 1 }) s
  let s := raise 114 { s with recov := { s.recov with
    trueAbandon := s.recov.trueAbandon + 1, event := some (q.lun, q.block, q.zone) } }
  pumpAreas (failTruing cs s)

/-- The bias of a LUN after a converged search: the prediction without bias is an offset, rounded and clamped (R266, R267). -/
def updateBias (q : Search) (s : State) : State :=
  if s.modes.mode == .service && s.recov.doseKnown then
    let tb := table (lunType q.lun s) s
    let n := 2 ^ lunBits q.lun s - 1
    modLun q.lun (fun r => { r with bias := (List.range n).map (fun i =>
      let (a, d) := predictRaw tb (peBin tb (blockPe q.lun q.block s)) q.dose q.zone (i + 1)
      let old := r.bias.getD i 0
      clampInt (-32) 32 (old + roundDiv (q.off.getD i 0 - clampInt (-128) 127 (roundDiv a d) - old) 4)) }) s
  else s

/-- The first read of a page in a zone, not yet placed. -/
def heldFirstRead (q : Search) (j : Job) (s : State) : Bool :=
  let it := j.items.getLastD 0
  j.state == .held && j.lun == q.lun && j.block == q.block && zoneOf j.lun j.page s == q.zone
    && itemType it == 1 && fld it.toNat 32 4 == 0 && fld it.toNat 36 4 != 4

/-- A job placed after the cache write uses the new set (R272): the first reads of the zone that still wait to be placed. -/
def retrueHeld (q : Search) (s : State) : State :=
  let js := s.sched.jobs.filter (fun j => heldFirstRead q j s)
  let fresh (j : Job) : Job :=
    let m := j.cwMask.toNat
    let fs := pageFeats j.lun j.page q.off s
    let its := fs.map (featureItem j.lun)
      ++ [readItem 1 j.lun j.block j.page j.profile (planesOf m) m 3 0 j.buf s]
    { j with feats := fs, items := headItems j.prio j.handle its.length true 0 its }
  { s with sched := { s.sched with
    jobs := s.sched.jobs.map (fun j => if js.any (fun x => x.handle == j.handle) then fresh j else j)
    cws := s.sched.cws.map (fun c => if js.any (fun x => x.handle == c.job) then { c with tried := [q.off] } else c) } }

/-- A search has converged (R272): the cache, the apply job, the resident offsets, and the re-reads. In TRAIN the result enters
the cache only (R284). -/
def convergeSearch (q : Search) (s : State) : State :=
  let cs := waitTruing q.lun q.block q.zone s
  let s := dropSearch q.id s
  let fs := features q.lun 0xFFFE q.off s
  let keep := s.recov.cache.filter (fun e => !(e.lun == q.lun && e.block == q.block && e.zone == q.zone))
  let s := { s with recov := { s.recov with
    cache := (({ lun := q.lun, block := q.block, zone := q.zone, off := q.off, dose := q.dose,
                 time := s.now } : TrueEntry) :: keep).take 1024
    trueOk := s.recov.trueOk + 1 } }
  let s := updateBias q (modLun q.lun (fun r => { r with trueCount := r.trueCount + 1 }) s)
  if s.modes.train then pumpAreas s
  else
    let s := retrueHeld q s
    let s := (addJob { owner := .apply, lun := q.lun, prio := 0, feats := fs, items := fs.map (featureItem q.lun) } s).2
    let s := modLun q.lun (fun r => { r with resident := some (fs, 0) }) s
    pumpAreas (rereadAll cs q.off s)

/-- The value of cell `i` read by the sensings: bit p is page type p. -/
def cellValue (sens : List (Nat × List Byte)) (b i : Nat) : Nat :=
  bitsOf ((List.range b).map (fun p => bitAt (byteAt (lookD [] p sens) (i / 8)) (i % 8)))

/-- Cells in each state (R269). -/
def stateCounts (q : Search) (b : Nat) (s : State) : List Nat :=
  let tb := table (lunType q.lun s) s
  let vals := (List.range (8 * cwLen q.profile)).map (cellValue q.sensings b)
  (List.range (2 ^ b)).map (fun st => (vals.filter (fun v => v == byteAt tb (52 + st))).length)

/-- Excess e of level k: cells below it less k · N / 2^b, times 2^b (R269). -/
def excess (n : Nat) (b k : Nat) (below : Nat) : Int := (below : Int) * (2 ^ b : Nat) - (k * n : Nat)

/-- One iteration of a search on its state counts (R269): none when converged, else the levels moved. -/
def moveLevels (q : Search) (b : Nat) (counts : List Nat) (s : State) : Option Search :=
  let n := 8 * cwLen q.profile
  let ks := (List.range (2 ^ b - 1)).map (· + 1)
  let below (k : Nat) : Nat := (counts.take k).sum
  let far (k : Nat) : Bool := (cfg 0x2500 0x0A s * n * 2 ^ b : Nat) < (excess n b k (below k)).natAbs * 65536
  if !(ks.any far) then none
  else
    let gain := ks.map (fun k =>
      let g : Nat × Nat := ((q.gain.getD (k - 1) (1, 1)).1.natAbs, (q.gain.getD (k - 1) (1, 1)).2)
      let dOff := q.off.getD (k - 1) 0 - q.prev.getD (k - 1) 0
      let dBelow : Int := (below k : Int) - (q.prevBelow.getD (k - 1) 0 : Int)
      if !q.first && dOff != 0 && 0 < dBelow * dOff then (dBelow.natAbs, dOff.natAbs) else g)
    let lim : Int := cfg 0x2500 0x0C s
    let step (k : Nat) : Int :=
      let g := gain.getD (k - 1) (1, 1)
      clampInt (-lim) lim (roundDiv (-(excess n b k (below k)) * (g.2 : Int)) (2 ^ b * max 1 g.1))
    some { q with
      prev := q.off, prevBelow := ks.map below, first := false
      gain := gain.map (fun g => ((g.1 : Int), g.2))
      off := (List.range 15).map (fun i =>
        if i + 1 ∈ ks then clampInt (-128) 127 (q.off.getD i 0 + step (i + 1)) else q.off.getD i 0) }

/-- A search has used up its sensings or its time (R271). -/
def searchSpent (q : Search) (s : State) : Bool :=
  24 < q.used + lunBits q.lun s || 5000 ≤ s.now - q.start

/-- An iteration of a search: the sensings are merged; the search converges, ends as not randomised, or moves its levels and
senses again while it may (R269). -/
def truingIteration (id : Nat) (s : State) : State :=
  match s.recov.searches.find? (fun q => q.id == id) with
  | some q =>
    let b := max 1 (lunBits q.lun s)
    if q.work.isSome && (List.range b).all (fun p => q.sensings.any (fun x => x.1 == p)) then
      let r := readArea q.work (cwLen q.profile) s
      let s := r.2
      let counts := stateCounts q b s
      if !r.1 then s
      else if q.first && 8 * cwLen q.profile < 2 * counts.getD 0 0 then
        let cs := waitTruing q.lun q.block q.zone s
        pumpAreas (failTruing cs (dropSearch id s))
      else
        match moveLevels q b counts s with
        | none => convergeSearch q s
        | some q' =>
          let q' := { q' with sensings := [] }
          let s := modSearch id (fun _ => q') s
          if searchSpent q' s then s else senseSearch q' s
    else s
  | none => s

/-- No sensing of a search is outstanding. -/
def searchQuiet (q : Search) (s : State) : Bool :=
  q.sensings.isEmpty && !(s.sched.jobs.any (fun j => j.owner == .truing q.id))

/-- A search is given up: 24 sensings without converging, or 5 ms from its start (R271). -/
def truingAbandon (id : Nat) (s : State) : State :=
  match s.recov.searches.find? (fun q => q.id == id) with
  | some q =>
    if q.work.isSome && ((24 < q.used + lunBits q.lun s && searchQuiet q s) || 5000 ≤ s.now - q.start) then
      abandonSearch q s
    else s
  | none => s

/-- TRUED_THRESHOLDS: step 2 for the failed codewords of a job: a result less than 10 ms old is used, a running search is
waited for, or a search of the failing codeword starts (R248, R268, R273). -/
def execTruedThresholds (job : Nat) (s : State) : Out :=
  .next <|
    match jobAt job s, climbers job 2 s with
    | some j, c :: cs =>
      if !(ladderRuns s) then s
      else
        let all := c :: cs
        let z := zoneOf j.lun j.page s
        let s := noteStep all 2 s
        match recentTrued j.lun j.block z s with
        | some e => rereadAll all e.off s
        | none =>
          let s := all.foldl (fun s c => modCw c.job c.cw (fun c => { c with state := .truing, step := 2 }) s) s
          startSearch j.lun j.block z (j.page / max 1 (lunBits j.lun s)) c.cw j.profile j.prio true false s
    | _, _ => s

/-! ### The end of a decode (R236, R247 to R251, R275, R277) -/

/-- Codewords of one page, in ascending order, cut into those that occupy consecutive slots: each part can be one job (R233). -/
def slotRuns : List Cw → List (List Cw)
  | [] => []
  | c :: cs =>
    match slotRuns cs with
    | (d :: ds) :: rest => if d.slot == c.slot + slotsEach [c] then (c :: d :: ds) :: rest else [c] :: (d :: ds) :: rest
    | rest => [c] :: rest

/-- The sensing of job `j` made once more for codewords in consecutive slots (R233, R249). -/
def senseAgain (j : Job) (s : State) (cs : List Cw) : State :=
  match cs with
  | [] => s
  | c :: _ =>
    let p := j.pageOf
    let mask := cwMaskOf cs
    let it := j.items.getLastD 0
    (addJob { j with state := .held, ctx := some c.job, cwMask := BitVec.ofNat 16 mask, buf := c.slot, encoded := 0
                     arrivedPlanes := 0, outcome := 0, result := 0, abortReq := false, arrayStarted := false, closed := false
                     items := j.feats.map (featureItem p.lun)
                       ++ [readItem 5 p.lun p.block p.page p.profile (planesOf mask) mask (c.step + 2) (fld it.toNat 32 4)
                            c.slot s] } s).2

/-- Codewords of one page whose read or sensing is made once more, after RESULT 0x8 (R249). `j` is the job that did not
bring the bits. -/
def repeatRead (cs : List Cw) (j : Job) (s : State) : State :=
  let p := j.pageOf
  match cs with
  | [] => s
  | c :: _ =>
    let again (x : Cw) : Cw := { x with retried := true }
    if c.step == 4 || c.step == 5 then
      (slotRuns cs).foldl (senseAgain j)
        (cs.foldl (fun s c => modCw c.job c.cw (fun x => { x with state := .reading, retried := true }) s) s)
    else if c.step == 3 then
      reread cs 3 (fun mask slot => addRetry j.owner p mask slot j.prio (c.rereads.getLastD 0)) again s
    else
      let off := c.tried.getLastD []
      let tag := if c.step == 1 then (if off == predicted p.lun p.block p.page s then 1 else 2)
        else if c.step == 2 then 3 else (firstSet p.lun p.block p.page s).2
      reread cs c.step (fun mask slot => addRead j.owner p mask slot j.prio c.step tag off) again s

/-- A codeword leaves step 0 undecoded (R252). -/
def leaveZero (c : Cw) (s : State) : State := if c.step == 0 then noteLadder c 0 true s else s

/-- RESULT 0x8 for codewords of one page: the read is repeated once for all of them; the second time the step has failed, or at
step 0 the climb starts (R235, R249). -/
def incompleteCws (cs : List Cw) (j : Job) (s : State) : State :=
  let s := cs.foldl (fun s c => noteRecord (decodeKind c) 0 c j { result := 8 } s) s
  let s := repeatRead (cs.filter (fun c => !c.retried)) j s
  (cs.filter (fun c => c.retried)).foldl (fun s c => failCw c (c.step != 0) (leaveZero c s)) s

/-- A background search follows a hard decode at step 0 with many corrected bits (R275). -/
def triggerTruing (c : Cw) (j : Job) (d : Decoded) (s : State) : State :=
  let z := zoneOf j.lun j.page s
  if c.step == 0 && cfg 0x2500 0x0E s ≤ d.corrected && (truedEntry j.lun j.block z s).isNone && tableOk j.lun s then
    backgroundSearch j.lun j.block z false s
  else s

/-- A codeword decoded: it leaves the ladder, and its data, with the label of a scan read, enters its slots (R233, R236, R250,
R277). -/
def decodedCw (c : Cw) (j : Job) (d : Decoded) (s : State) : State :=
  let s := countResolved c.step s
  let s := if c.step == 3 then modLun j.lun (fun r => { r with retryHint := c.rereads.getLastD 0 }) s else s
  let s := modCw c.job c.cw (fun c => { c with kind := d.kind }) s
  triggerTruing c j d (landCw c d.data (landLabel c d.label s))

/-- The ladder goes on from a result (R247, R249). -/
def afterDecode (c : Cw) (j : Job) (d : Decoded) (s : State) : State :=
  let c := { c with erased := d.result == 5 }
  if d.result ≤ 1 then decodedCw c j d s
  else if d.result == 8 then incompleteCws [c] j s
  else if c.step == 0 && (d.result == 4 || d.result == 5) then
    failCw { c with step := 5 } true (leaveZero c s)
  else failCw c (decide (c.step = 2)) (leaveZero c s)

/-- READ entries that are being read. -/
def readsRunning (s : State) : List Nat :=
  (s.sched.entries.filter (fun e => e.opcode == 2 && e.phase == .waiting)).map (fun (e : Entry) => e.eid)

/-- The last engine of a kind has failed: every codeword that waits for one takes RESULT 0x7, and with no hard engine every READ
completes DEVICE_ERROR with DETAIL 0xE2 (R241). -/
def drainKind (kind : Nat) (s : State) : State :=
  if kindUp (kind + 1) s then s
  else
    let s := (s.sched.cws.filter (fun c => c.state == .waitDecode && decodeKind c == kind)).foldl (fun s c =>
      match cwOf c.job c.cw s, jobAt c.job s with
      | some c, some j => noEngine kind c j s
      | _, _ => s) s
    if kind == 0 then (readsRunning s).foldl (fun s e => failRead e 0x50 0xE2 s) s else s

/-- The decode that an engine of a kind runs on a codeword. -/
def decodeAt (kind engine job cw : Nat) (s : State) : Option DecJob :=
  s.codec.decoders.find? (fun d => d.kind == kind && d.engine == engine && d.job == job && d.cw == cw)

/-- A decode ends with a result, or with a fault of its engine: the codeword then waits at the head of its queue (R236,
R241), that is first of its priority (DESIGN CHOICE, log entry 113). Freed engines and work areas are taken again (R238,
R239). -/
def endDecode (d : DecJob) (fault : Bool) (result : Cw → Job → Decoded) (s : State) : State :=
  match cwOf d.job d.cw s, jobAt d.job s with
  | some c, some j =>
    let s := { s with codec := { s.codec with decoders := s.codec.decoders.filter (· != d) } }
    if fault then
      let s := modCw d.job d.cw (fun x => { x with qseq := 0 }) s
      assignDecoders (pumpAreas (drainKind d.kind (engineFault (d.kind + 1) d.engine 1 s)))
    else
      let r := result c j
      assignDecoders (pumpAreas (afterDecode c j r (noteRecord d.kind d.engine c j r s)))
  | _, _ => s

/-- HARD_DECODE (R236, R237, R241, R242, R244): a hard engine ends the decode of the codeword that it holds, or shows a fault
and the codeword waits for another engine. -/
def execHardDecode (engine job cw : Nat) (fault : Bool) (s : State) : Out :=
  checked (engine < 8) <|
    match decodeAt 0 engine job cw s with
    | some d => endDecode d fault (fun c j => hardResult (ctxOf c j) (cfg 0x2400 2 s) d.inject c.raw) s
    | none => s

/-- An LLR table, or its default when it is all zero (R264). -/
def llrTable (b : List Byte) (off : Nat) (dflt : List Int) : List Int :=
  let t := (List.range dflt.length).map (fun n => i8At b (off + n))
  if t.all (· == 0) then dflt else t

def softLlr (b : List Byte) : List Int := llrTable b 89 [12, 6, 2, -2, -6, -12]
def fusionLlr (b : List Byte) : List Int :=
  llrTable b 72 [31, 24, 19, 15, 12, 9, 6, 3, 0, -3, -6, -9, -12, -15, -19, -24, -31]

/-- The soft decode of a work area (R278, R279). -/
def softResult (c : Cw) (j : Job) (s : State) : Decoded :=
  let t := softLlr (table (lunType j.lun s) s)
  let hard := padTo (cwLen j.profile) (sensed c 2)
  if zeroBits hard ≤ cfg 0x2400 2 s then { result := 5, ones := onesBytes hard }
  else
    let llr := (List.range (8 * cwLen j.profile)).map (fun i => t.getD (onesAt c i) 0)
    { ldpcDecode 1 (ctxOf c j) hard llr with ones := onesBytes hard }

/-- The fusion decode of a work area (R278, R279): the bin is the count scaled to 16, half away from zero. Its erased check
(R236) counts the hard decisions of its LLRs (DESIGN CHOICE, log entry 112). -/
def fusionResult (c : Cw) (j : Job) (s : State) : Decoded :=
  let t := fusionLlr (table (lunType j.lun s) s)
  let m := max 1 c.sensings.length
  let llr := (List.range (8 * cwLen j.profile)).map (fun i => t.getD ((roundDiv ((onesAt c i * 16 : Nat)) m).toNat) 0)
  let hard := hardOf (cwLen j.profile) llr
  if zeroBits hard ≤ cfg 0x2400 2 s then { result := 5, ones := c.ones }
  else { ldpcDecode 2 (ctxOf c j) hard llr with ones := c.ones }

/-- A decode of a work area by an engine of a kind, 1 soft or 2 fusion. A damaged area gives no decode: its step is repeated
(R563). -/
def areaDecode (kind engine job cw : Nat) (fault : Bool) (s : State) : State :=
  match decodeAt kind engine job cw s, cwOf job cw s, jobAt job s with
  | some d, some c, some j =>
    let r := if fault then (true, s) else readArea c.work (cwLen j.profile) s
    if !r.1 then r.2
    else endDecode d fault (fun c j => if kind == 1 then softResult c j r.2 else fusionResult c j r.2) r.2
  | _, _, _ => s

/-- SOFT_DECODE (R279). -/
def execSoftDecode (engine job cw : Nat) (fault : Bool) (s : State) : Out :=
  checked (engine < 4) (areaDecode 1 engine job cw fault s)

/-- FUSION_DECODE (R279). -/
def execFusionDecode (engine job cw : Nat) (fault : Bool) (s : State) : Out :=
  checked (engine < 1) (areaDecode 2 engine job cw fault s)

/-- A write of CODEC_INJECT (R244). -/
def writeInject (v : Word) (s : State) : State :=
  { s with codec := { s.codec with
    injectCount := BitVec.ofNat 16 (fld v.toNat 16 16), injectBits := BitVec.ofNat 16 (fld v.toNat 0 16) } }

/-- CODEC_INJECT: a write of the register, from the main core only (R244, R577). -/
def execCodecInject (who : Writer) (v : Word) (s : State) : Out := .next (mainCoreOnly who (writeInject v) s)

/-! ### READ entries end (R118, R123) -/

/-- A READ is done when none of its codewords is outstanding: its status follows R123. -/
def settleRead (s : State) (e : Entry) : State :=
  if e.opcode == 2 && e.phase == .waiting && e.unread.isEmpty
      && !(s.sched.cws.any (fun c => c.eid == some e.eid && c.state != .decoded && c.state != .lost)) then
    modEntry e.eid (fun e => { e with
      phase := .ready
      status := if e.status != 0 then e.status else if e.rebuilt then 2 else if e.ladderCount != 0 then 1 else 0 }) s
  else s

/-! ### P and Q computed again (R563) -/

/-- The staging set that still holds the data of a row's member. -/
def stagedFor (g r m c : Nat) (s : State) : Option Nat :=
  s.sched.entries.findSome? (fun e =>
    if e.opcode == 1 && e.accepted && e.group.toNat == g && e.row.toNat == r && e.arrived.contains (m, c) then
      e.stage.lookup m
    else none)

/-- Codewords read back for a slot. -/
def fixCws (i : Nat) (s : State) : List Cw :=
  s.sched.cws.filter (fun c => match jobAt c.job s with
    | some j => match j.owner with | .fix k _ => k == i | _ => false
    | none => false)

/-- Data members whose codeword `c` must be read back from flash. -/
def fixReads (i c : Nat) (s : State) : List Nat :=
  let k := slotAt i s
  k.dataMask.filter (fun m => (stagedFor k.group k.row m c s).isNone)

/-- A read back of one member's codeword, at priority 2 with MAX_STEP 5. -/
def fixRead (i c m : Nat) (s : State) : State :=
  let k := slotAt i s
  match findLanding s 1 with
  | none => s
  | some slot =>
    let p := memberPage k.group m k.row s
    if memberGone k.group m k.row s then
      let h := freeHandle s % 4096
      { s with sched := { s.sched with
        nextJob := (h + 1) % 4096
        jobs := s.sched.jobs ++ [{ handle := h, owner := .fix i m, lun := p.lun, prio := 2, state := .ended }]
        cws := s.sched.cws ++ [{ job := h, group := k.group, member := m, row := k.row, cw := c, lun := p.lun
                                 slot := slot, step := 5, state := .lost }] } }
    else
      let (off, tag) := firstSet p.lun p.block p.page s
      let (h, s) := addRead (.fix i m) p (2 ^ c) slot 2 0 tag off s
      { s with sched := { s.sched with cws := s.sched.cws ++ [{ job := h, group := k.group, member := m, row := k.row
                                                                cw := c, lun := p.lun, slot := slot, tried := [off] }] } }

/-- Codeword `c` of P and Q of a slot from its data members: written whole (R294). -/
def rewriteParity (i c : Nat) (ds : List (Nat × List Byte)) (s : State) : State :=
  slotWrite i 1 c (parityQ ds) (slotWrite i 0 c (parityP ds) s)

/-- A member's codeword as it was read: its data, or the member has none. -/
def fixGot (m : Nat) (ds : List (Nat × List Byte)) (gone : List Nat) (bs : List Byte) (ok : Bool) (s : State) :
    List (Nat × List Byte) × List Nat × State :=
  (if ok then ds ++ [(m, bs)] else ds, if ok then gone else gone ++ [m], s)

/-- Data of codeword `c` of the members, from staging or from what was read back; the members that have none. -/
def fixData (i c : Nat) (s : State) : List (Nat × List Byte) × List Nat × State :=
  let k := slotAt i s
  k.dataMask.foldl (fun (acc : List (Nat × List Byte) × List Nat × State) m =>
    match stagedFor k.group k.row m c acc.2.2 with
    | some set =>
      let r := sramRead (stageOff (16 * set + c)) 4096 acc.2.2
      fixGot m acc.1 acc.2.1 r.1 r.2.1 r.2.2
    | none =>
      match (fixCws i acc.2.2).find? (fun x => x.member == m && x.cw == c && x.state == .decoded) with
      | some x =>
        let r := sramRead (landOff x.slot) 4096 acc.2.2
        fixGot m acc.1 acc.2.1 r.1 r.2.1 r.2.2
      | none => (acc.1, acc.2.1 ++ [m], acc.2.2)) ([], [], s)

/-- The read backs of a slot's codeword are over: P and Q of it are written again, or become sentinels (R563). -/
def fixEnd (i c : Nat) (s : State) : State :=
  let k := slotAt i s
  let (ds, gone, s) := fixData i c s
  let back := fixCws i s
  let s := { s with sched := { s.sched with
    cws := s.sched.cws.filter (fun x => !(back.any (fun b => b.job == x.job && b.cw == x.cw))) } }
  let s := dropJobs s
  let s := modSlot i (fun k => { k with bad := k.bad.filter (· != c) }) s
  let s := if gone.isEmpty then rewriteParity i c ds s
    else gone.foldl (fun s m => addLoss k.group m k.row (2 ^ c) 1 s)
      (modSlot i (fun k => { k with sentinels := k.sentinels ++ [c] }) s)
  placeAll 32 s

/-- One slot's damage is worked on: read backs begin, and end (R563). -/
def pumpFix (s : State) (i : Nat) : State :=
  let k := slotAt i s
  match k.state, k.bad with
  | .sealing, c :: _ =>
    let cs := fixCws i s
    let need := fixReads i c s
    if cs.isEmpty && !need.isEmpty then
      if (findLanding s need.length).isSome then need.foldl (fun s m => fixRead i c m s) s else s
    else if cs.all (fun x => x.state == .decoded || x.state == .lost) then fixEnd i c s
    else s
  | _, _ => s

end Sys2Proof.Machine
end

