-- ==== Sys2Proof/Machine/Saves.lean ====
section
/-!
DEFINITION. The saved dictionary area of the Cabinet: records, halves, compaction, and the restore of BOOT step 9
(R262, R422, R512 to R515).
-/
namespace Sys2Proof.Machine

/-- Bytes of one half. -/
def halfBytes : Nat := 524288

/-- First sector of a half. -/
def halfSector (h : Nat) : Nat := 0x300 + 0x80 * h

/-- A record as stored (R512). -/
def saveBytes (idx sub sseq : Nat) (v : List Byte) : List Byte :=
  let head := le 2 idx ++ [BitVec.ofNat 8 sub, 0] ++ le 2 v.length ++ zeros 2 ++ le 4 sseq
  let val := padTo ((v.length + 7) / 8 * 8) v
  head ++ le 4 (crc32c (head ++ val)) ++ val

/-- A half header (R512). -/
def halfHeader (gen : Nat) : List Byte :=
  let b := le 4 0x0D1AD1C7 ++ le 4 gen ++ zeros 4
  b ++ le 4 (crc32c b)

/-- GEN of a half whose header is valid (R513). -/
def halfGen (h : Nat) (s : State) : Option Nat :=
  let b := cabBytes (halfSector h) 0 2 s
  if leAt b 0 4 == 0x0D1AD1C7 && leAt b 8 4 == 0 && leAt b 12 4 == crc32c (b.take 12) then some (leAt b 4 4) else none

/-- The whole half is erased. -/
def halfErased (h : Nat) (s : State) : Bool := erasedIn s.cab.words (halfSector h * 512) 65536

/-- The first sector of a half that is not erased. -/
def dirtySector (h : Nat) (s : State) : Option Nat :=
  (List.range 128).find? (fun i => !(sectorErased (halfSector h + i) s))

/-- Every sector of a half erased. -/
def eraseHalf (h : Nat) (s : State) : State :=
  (List.range 128).foldl (fun s i =>
    if sectorErased (halfSector h + i) s then s else eraseSector (halfSector h + i) s) s

/-- A record appended to the active half (R512). -/
def appendRecord (idx sub : Nat) (v : List Byte) (s : State) : State :=
  let bs := saveBytes idx sub (s.cab.sseq.toNat + 1) v
  let s := storeBytes (halfSector s.cab.saveHalf) (s.cab.savePos / 8) bs s
  { s with cab := { s.cab with sseq := s.cab.sseq + 1, savePos := s.cab.savePos + bs.length } }

/-- The objects that a compaction writes: every RWS value that differs from its default, and the term (R514). -/
def compactObjects (s : State) : List ((Nat × Nat) × List Byte) :=
  (s.dict.saved.filter (fun p => (match findObj p.1.1 p.1.2 with | some o => o.acc == .rws | none => false)))
    ++ (if s.dv.term == 0 then [] else [((0x3400, 2), le 4 s.dv.term.toNat)])

/-- Compaction into the other half (R514). A defaults record written in this run is written again behind the values, so
that it still holds (R515). -/
def compactNow (s : State) : State :=
  let h := 1 - s.cab.saveHalf % 2
  let gen := s.cab.saveGen + 1
  let clocks := (List.range 16).map (fun c =>
    ((0x2510 + c, 1), le 8 (s.recov.clocks.getD c 0).toNat))
  let wall := match s.recov.savedWall with | some w => [((0x2500, 6), le 6 w.toNat)] | none => []
  let cycles : (Nat × Nat) × List Byte := ((0x6000, 2), le 4 s.stats.powerCycles)
  let s := eraseHalf h s
  let s := { s with cab := { s.cab with saveHalf := h, saveGen := gen, savePos := 16 } }
  let s := (compactObjects s ++ clocks ++ wall ++ [cycles]).foldl (fun s p => appendRecord p.1.1 p.1.2 p.2 s) s
  let s := if s.dict.defaultsNext then appendRecord 0xFFFF 0 [] s else s
  storeBytes (halfSector h) 0 (halfHeader gen.toNat) s

/-- The active half is ready for records; the first record of all starts half 0 with GEN 1. -/
def ensureHalf (s : State) : State :=
  if s.cab.savePos == 0 then
    let s := eraseHalf 0 s
    storeBytes (halfSector 0) 0 (halfHeader 1) { s with cab := { s.cab with saveHalf := 0, saveGen := 1, savePos := 16 } }
  else s

/-- Free bytes of the active half. -/
def saveFree (s : State) : Nat := halfBytes - s.cab.savePos

/-- Between saves one sector of the other half is erased when less than 64 KiB of the active half is free (R514). -/
def eraseAhead (s : State) : State :=
  if saveFree s < 65536 then
    match dirtySector (1 - s.cab.saveHalf % 2) s with
    | some i => eraseSector (halfSector (1 - s.cab.saveHalf % 2) + i) s
    | none => s
  else s

/-- A save record written (R512); the area is compacted first when it is full (R514). -/
def saveRecord (idx sub : Nat) (v : List Byte) (s : State) : State :=
  let s := ensureHalf s
  let s := if saveFree s < 16 + (v.length + 7) / 8 * 8 then compactNow s else s
  eraseAhead (appendRecord idx sub v s)

/-- A save record can be programmed: its words are erased and its sector is not FAILED (R500 SAVE_FAILED). -/
def saveWorks (s : State) : Bool :=
  s.cab.savePos == 0 || saveFree s < 16
    || !(sectorFailed s.cab (halfSector s.cab.saveHalf + s.cab.savePos / 4096))

/-- SAVE_COMPACTION: the other half is erased and the active half has less than 16 KiB free (R514). -/
def execSaveCompaction (s : State) : Out :=
  .next <|
    if s.cab.savePos != 0 && saveFree s < 16384 && halfErased (1 - s.cab.saveHalf % 2) s && !s.modes.holdup then
      compactNow s
    else s

/-- The clocks, the wall clock and lunBias saved (R262, R267). A lunBias that host firmware has written for the next start is
kept (R287; DESIGN CHOICE, log entry 115). -/
def saveClocks (s : State) : State :=
  let wall := wallNow s
  let s := (List.range 16).foldl (fun s c =>
    saveRecord (0x2510 + c) 1 (le 8 (s.recov.clocks.getD c 0).toNat) s) s
  let s := if s.recov.doseKnown || s.recov.savedWall.isSome then
      saveRecord 0x2500 6 (le 6 wall.toNat) { s with recov := { s.recov with savedWall := some wall } }
    else s
  s.luns.foldl (fun s p =>
    if p.2.bias.isEmpty || p.2.biasWritten then s
    else
      let idx := 0x4000 + p.1 / 8
      let sub := p.1 % 8 * 32 + 0x10
      let v : List Byte := 0 :: p.2.bias.map (fun b => BitVec.ofNat 8 (unsgn 8 b))
      if stored idx sub s == v then s
      else saveRecord idx sub v { s with dict := { s.dict with saved := putValue idx sub v s.dict.saved } }) s

/-! ### Restore (R513) -/

/-- A record found in the area. -/
structure SaveRec where
  idx : Nat
  sub : Nat
  sseq : Nat
  val : List Byte
  ok : Bool
deriving DecidableEq, Repr

/-- The records of a half from byte `pos`, up to the first erased header word, and the end position (R513). -/
def readRecords : Nat → Nat → Nat → State → List SaveRec × Nat
  | 0, _, pos, _ => ([], pos)
  | fuel + 1, h, pos, s =>
    if halfBytes < pos + 16 || s.cab.word (halfSector h * 512 + pos / 8) == erasedWord then ([], pos)
    else
      let head := cabBytes (halfSector h) (pos / 8) 2 s
      let n := leAt head 4 2
      let words := (n + 7) / 8
      let val := cabBytes (halfSector h) (pos / 8 + 2) words s
      let r : SaveRec := { idx := leAt head 0 2, sub := byteAt head 2, sseq := leAt head 8 4, val := val.take n
                           ok := leAt head 12 4 == crc32c (head.take 12 ++ val) }
      let (rs, e) := readRecords fuel h (pos + 16 + 8 * words) s
      (r :: rs, e)

/-- The records that follow the last valid defaults record. -/
def afterDefaults (rs : List SaveRec) : List SaveRec :=
  (rs.reverse.takeWhile (fun r => r.idx != 0xFFFF)).reverse

/-- Signed or unsigned value of an object's bytes. -/
def Obj.value (o : Obj) (v : List Byte) : Int :=
  match o.ty with
  | .i16 => sgn 16 (leVal v)
  | .i32 | .q16 => sgn 32 (leVal v)
  | _ => (leVal v : Int)

/-- The value has the object's length and lies in its range (R497 checks 7 and 9). -/
def Obj.accepts (o : Obj) (v : List Byte) : Bool :=
  v.length == o.len && (o.ty == .octets || o.ty == .text || (o.lo ≤ o.value v && o.value v ≤ o.hi))

/-- One record applied (R513): an RWS object, or the clocks, wall clock and term, which are saved beside them, and after por_n
the count of power cycles. -/
def applyRecord (r : SaveRec) (s : State) : State :=
  if r.idx == 0x3400 && r.sub == 2 then { s with dv := { s.dv with term := BitVec.ofNat 32 (leVal r.val) } }
  else if r.idx == 0x6000 && r.sub == 2 then
    if s.modes.porCold then { s with stats := { s.stats with powerCycles := leVal r.val } } else s
  else if 0x2510 ≤ r.idx && r.idx ≤ 0x251F && r.sub == 1 then
    { s with recov := { s.recov with clocks := s.recov.clocks.set (r.idx - 0x2510) (BitVec.ofNat 64 (leVal r.val)) } }
  else if r.idx == 0x2500 && r.sub == 6 then
    let v := BitVec.ofNat 48 (leVal r.val)
    { s with recov := { s.recov with savedWall := some v, wallClock := v, wallBase := s.now } }
  else
    match findObj r.idx r.sub with
    | some o =>
      if o.acc == .rws && o.accepts r.val then
        { s with dict := { s.dict with saved := putValue r.idx r.sub r.val s.dict.saved } }
      else { s with dict := { s.dict with restoreRejected := s.dict.restoreRejected + 1 } }
    | none => { s with dict := { s.dict with restoreRejected := s.dict.restoreRejected + 1 } }

/-- The records that a defaults record leaves alone: the term's and the count of power cycles' (R422, R515, R522). -/
def SaveRec.lasting (r : SaveRec) : Bool := (r.idx == 0x3400 || r.idx == 0x6000) && r.sub == 2

/-- The latest valid record of each object, and the lasting ones whatever their place (R422, R513). -/
def latest (rs : List SaveRec) : List SaveRec :=
  let rs := rs.filter (·.ok)
  let live := (afterDefaults rs) ++ (rs.filter (·.lasting))
  live.filter (fun r => live.all (fun x => !(x.idx == r.idx && x.sub == r.sub) || x.sseq ≤ r.sseq))

/-- The start after a por_n is counted, and the count is saved (R522). -/
def countStart (s : State) : State :=
  if s.modes.porCold then
    let s := { s with stats := { s.stats with powerCycles := s.stats.powerCycles + 1 } }
    if saveWorks s then saveRecord 0x6000 2 (le 4 s.stats.powerCycles) s else s
  else s

/-- lunBias of a LUN restored into the record in force. -/
def restoreBias (s : State) : State :=
  s.dict.saved.foldl (fun s p =>
    if 0x4000 ≤ p.1.1 && p.1.1 ≤ 0x41FF && p.1.2 % 32 == 0x10 then
      modLun ((p.1.1 - 0x4000) * 8 + p.1.2 / 32) (fun r => { r with
        bias := (p.2.drop 1).map (fun b => sgn 8 b.toNat) }) s
    else s) s

/-- BOOT step 9: the half with the higher GEN is read, its records applied, and the values take force (R499, R513). -/
def restoreSaved (s : State) : State :=
  let pick := match halfGen 0 s, halfGen 1 s with
    | some a, some b => if a < b then some (1, b) else some (0, a)
    | some a, none => some (0, a)
    | none, some b => some (1, b)
    | none, none => none
  let s := { s with dict := { s.dict with saved := [], force := [], restoreRejected := 0, defaultsNext := false } }
  match pick with
  | none => { s with cab := { s.cab with savePos := 0, sseq := 0 } }
  | some (h, gen) =>
    let (rs, e) := readRecords 32768 h 16 s
    let top := (rs.map (·.sseq)).foldl max 0
    let s := { s with cab := { s.cab with
      saveHalf := h, saveGen := BitVec.ofNat 32 gen, savePos := e, sseq := BitVec.ofNat 32 top } }
    let s := (latest rs).eraseDups.foldl (fun s r => applyRecord r s) s
    restoreBias { s with dict := { s.dict with force := s.dict.saved } }

end Sys2Proof.Machine
end

