-- ==== Sys2Proof/Machine/Dose.lean ====
section
/-!
DEFINITION. Dose clocks, the wall clock and the wake sweep (R258, R259, R262, R263, R284, R285).
-/
namespace Sys2Proof.Machine

/-! ### Acceleration factor (R258) -/

/-- Scale of the fixed-point exponential. -/
def expScale : Nat := 2 ^ 160

/-- The Taylor series of exp at `y / expScale`: `n` terms after the term `term`, the `i`-th. -/
def expSeries : Nat → Nat → Nat → Nat → Nat
  | 0, _, _, term => term
  | n + 1, i, y, term => term + expSeries n (i + 1) y (term * y / expScale / i)

/-- `k` squarings. -/
def expSquare : Nat → Nat → Nat
  | 0, v => v
  | k + 1, v => expSquare k (v * v / expScale)

/-- exp(n / d) times expScale for n / d at least 0: the argument divided by 1,024, 24 terms, squared ten times. The
result is exact to far below one unit of a dose clock (log entry 16). -/
def expPos (n d : Nat) : Nat := expSquare 10 (expSeries 24 1 (n * expScale / (1024 * d)) expScale)

/-- AF at a temperature in units of 0.25 °C, times expScale (R258). -/
def accel (q : Int) (s : State) : Nat :=
  let ea := cfg 0x2500 1 s
  let t := (max 1 (5 * q + 5463)).toNat
  if 6263 ≤ t then expPos (ea * 10 ^ 11 * 20 * (t - 6263)) (65536 * 8617333 * 6263 * t)
  else expScale * expScale / max 1 (expPos (ea * 10 ^ 11 * 20 * (6263 - t)) (65536 * 8617333 * 6263 * t))

/-- Dose units of 2⁻¹⁶ h in `ms` milliseconds at an acceleration factor, rounded to the nearest unit (R258). -/
def doseUnits (af ms : Nat) : Nat := (2 * af * ms * 65536 + 3600000 * expScale) / (2 * 3600000 * expScale)

/-! ### Ticks (R258, R259) -/

/-- The mean of the 24 sensors plus nandTempOffset, rounded half away from zero (R259; log entry 17). -/
def meanTemp (s : State) : Int :=
  roundDiv ((s.hk.temps.map (fun t => t.toInt)).sum) 24 + cfgInt 0x2500 4 s

/-- The host's nandTemperature of a channel is in use (R259). -/
def hostTemp (ch : Nat) (s : State) : Bool := cfg 0x2500 3 s == 1 && s.recov.hostTempAge.getD ch 0 < 10

/-- Temperature of a channel at a tick. -/
def channelTemp (ch : Nat) (s : State) : Int :=
  if hostTemp ch s then sgn 16 (leVal (stored (0x2510 + ch) 2 s)) else meanTemp s

/-- One channel's tick. -/
def tickChannel (s : State) (ch : Nat) : State :=
  let age := s.recov.hostTempAge.getD ch 0 + 1
  let s := { s with recov := { s.recov with hostTempAge := s.recov.hostTempAge.set ch (min age 10) } }
  let s := if cfg 0x2500 3 s == 1 && age == 10 then raise 114 s else s
  let t := channelTemp ch s
  { s with recov := { s.recov with
    tempUsed := s.recov.tempUsed.set ch (BitVec.ofInt 16 t)
    clocks := s.recov.clocks.modify ch (· + BitVec.ofNat 64 (doseUnits (accel t s) (1000 * cfg 0x2500 2 s))) } }

/-- The clocks run from the start of TRAIN on (R258). -/
def clocksRun (s : State) : Bool := !s.pins.inReset && !s.modes.boot && !(s.modes.mode == .off) && !(s.modes.mode == .reset)

/-- DOSE_TICK (R258, R259). -/
def execDoseTick (s : State) : Out :=
  .next <| if clocksRun s then (List.range 16).foldl tickChannel s else s

/-- DOSE_SAVE: every 60 min of powered time (R262). -/
def execDoseSave (s : State) : Out := .next <| if clocksRun s && !s.modes.holdup then saveClocks s else s

/-! ### Wake sweep (R285) -/

/-- Erase block sets of a LUN that hold rows of groups (R284). -/
def groupBlocks (u : Nat) (s : State) : List Nat :=
  (s.stripe.dir.filter (fun e => e.state != 0 && 0 < e.nextRow)).flatMap (fun e =>
    (e.members.filter (fun m => m.lun == u)).map (·.block))

/-- Erase block sets of a LUN, the most dosed first. -/
def byDose (u : Nat) (s : State) (bs : List Nat) : List Nat :=
  bs.mergeSort (fun a b => blockDose u b s ≤ blockDose u a s)

/-- The four erase block sets of a LUN with the highest doses, of a group or not (R285). Of those of no dose, which are ties
while the ledger is not granted, the blocks of groups come first (DESIGN CHOICE, log entry 116). -/
def mostDosed (u : Nat) (s : State) : List Nat :=
  let stamped := (s.recov.dose.filter (fun d => d.1.1 == u && d.2.stamped)).map (·.1.2)
  (byDose u s (groupBlocks u s ++ stamped).eraseDups).take 4

/-- The wake sweep starts: every zone of those blocks on every present LUN whose table is valid (R265, R285). -/
def startSweep (s : State) : State :=
  let s := { s with recov := { s.recov with sweep := 2, sweepPend := false } }
  (presentLuns s).foldl (fun s u =>
    (mostDosed u s).foldl (fun s b =>
      (List.range 4).foldl (fun s z => backgroundSearch u b z true s) s) s) s

/-- The sweep is done when none of its searches remains. -/
def settleSweep (s : State) : State :=
  if s.recov.sweep == 2 && !(s.recov.searches.any (·.sweep)) then
    { s with recov := { s.recov with sweep := 3 } }
  else s

/-- WAKE_SWEEP: 10 min have passed after TRAIN without a wallClock write (R285). -/
def execWakeSweep (s : State) : Out :=
  .next <| if s.recov.sweepPend && !s.recov.doseKnown && clocksRun s then settleSweep (startSweep s) else s

/-! ### Wall clock (R263) -/

/-- The first wallClock write after a start: the unpowered dose, DOSE_KNOWN, and a sweep after a long time (R263,
R285). -/
def firstWall (v : BitVec 48) (s : State) : State :=
  let known : Bool := match s.recov.savedWall with
    | some w => w.toNat ≤ v.toNat
    | none => false
  let ms := match s.recov.savedWall with
    | some w => v.toNat - w.toNat
    | none => 0
  let s := if known then s else raise 114 s
  let af := accel (cfgInt 0x2500 5 s) s
  let s := { s with recov := { s.recov with
    clocks := s.recov.clocks.map (· + BitVec.ofNat 64 (doseUnits af ms))
    unpoweredHours := ms / 3600000, doseKnown := true } }
  if cfg 0x2500 9 s ≤ ms / 3600000 then startSweep s
  else { s with recov := { s.recov with sweepPend := false } }

/-- wallClock written (R263): the time is set, the clocks are saved (R262), and the object reads the value written (R499). -/
def writeWall (v : BitVec 48) (s : State) : State :=
  let s := if s.recov.doseKnown then s else firstWall v s
  settleSweep (saveClocks { s with
    recov := { s.recov with wallClock := v, wallBase := s.now }
    dict := { s.dict with saved := putValue 0x2500 6 (le 6 v.toNat) s.dict.saved } })

/-- WALL_CLOCK: host firmware writes the wallClock object (R263). No dictionary request is served in RESET, and none on this
object in BOOT (R502). -/
def execWallClock (v : BitVec 48) (s : State) : Out := .next <| if clocksRun s then writeWall v s else s

end Sys2Proof.Machine
end

