-- ==== Sys2Proof/Machine/Writes.lean ====
section
/-!
DEFINITION. Dispatch of entries, and WRITE_ROW from its checks to its completion (R106, R112 to R123, R210 to R213,
R296 to R300, R332 to R335, R452).
-/
namespace Sys2Proof.Machine

/-! ### Dispatch (R106, R120, R122, R212, R297, R323) -/

/-- The entry addresses the group: by name, or with every group. A REFIT_START, whose plan is read at dispatch only, counts
as addressing every group (R120; log entry 75). -/
def addresses (e : Entry) (g : Nat) : Bool := e.opcode == 0x23 || (groupsOf e).any (fun x => x == g || x == 0xFFFFFF)

/-- Entries fetched before an entry, of every ring. -/
def before (s : State) (e : Entry) : List Entry := s.sched.entries.takeWhile (fun x => x.eid != e.eid)

/-- A RELEASE_GROUP or GROUP_CLOSE. -/
def closes (e : Entry) : Bool := e.opcode == 0x03 || e.opcode == 0x21

/-- A WRITE_ROW that waits for a glue-up slot (R297). -/
def slotWaits (e : Entry) : Bool := e.opcode == 1 && e.phase == .waiting && !e.accepted

/-- The entry waits at dispatch while later ones may go on: ORDERED (R106), a RELEASE_GROUP or GROUP_CLOSE of its group
(R120), a WRITE_ROW of its group that waits for a slot (R297). -/
def stuck (s : State) (e : Entry) : Bool :=
  let prior := before s e
  let mine := prior.filter (fun x => x.ring == e.ring)
  (bitAt e.options.toNat 1 && !mine.isEmpty)
    || mine.any (fun x => x.phase == .fetched && bitAt x.options.toNat 1)
    || (closes e && prior.any (fun x => addresses x e.group.toNat))
    || prior.any (fun x => closes x && addresses e x.group.toNat)
    || (e.opcode == 1 && prior.any (fun x => slotWaits x && x.group == e.group))

/-- A directory entry of its groups, or a bind entry that it looks up, is still being read from the window; or the change it
may make finds no room to be held (R323, R379, R593). -/
def dirWaits (s : State) (e : Entry) : Bool :=
  (groupsOf e).any (fun g => s.stripe.missing.contains g || s.stripe.readHeld.contains g)
    || (bindLookups e).any (fun x => bindsWait x.1 x.2.1 x.2.2 s) || !(windowRoom s)

/-- The scheduler dispatches in fetch order (R212): every earlier entry has been dispatched or is stuck. -/
def mayDispatch (s : State) (e : Entry) : Bool :=
  e.phase == .fetched && !e.open_ && !(stuck s e) && !(dirWaits s e)
    && (before s e).all (fun x => x.phase != .fetched || x.open_ || stuck s x)

/-- The dispatch of the entry reads host memory: a list, a plan, a parameter block, a job data buffer (R32, R113, R114). -/
def fetchesAt (e : Entry) : Bool :=
  match e.opcode.toNat with
  | 0x01 | 0x02 => bitAt e.options.toNat 2 && e.elements.isEmpty
  | 0x10 => e.length != 0
  | 0x23 | 0x30 => true
  | _ => false

/-- An entry to be dispatched, if `op` is its opcode and its turn has come; one whose dispatch reads host memory waits for a
tag of the port (R33). -/
def dispatch (eid op : Nat) (s : State) (f : Entry → State → State) : State :=
  match entryAt eid s with
  | some e =>
    if e.opcode.toNat == op && mayDispatch s e && (hostReady s || !(fetchesAt e)) then f e (cacheAll (groupsOf e) s) else s
  | none => s
where
  /-- The directory entries of the groups named are used. -/
  cacheAll (gs : List Nat) (s : State) : State :=
    if s.stripe.granted then gs.foldl (fun s g => if g < s.stripe.dirEntries then cacheTouch g s else s) s else s

/-- An entry refused at dispatch: nothing of it is started (R122). -/
def refuse (e : Entry) (st det : Nat) (s : State) : State := endEntry e.eid st det 0 s

/-! ### Acceptance (R211 to R213, R297) -/

/-- Members that a WRITE_ROW names. -/
def writeMembers (e : Entry) (s : State) : List Nat :=
  if e.member == 0xFF then List.range (dirAt e.group.toNat s).width else [e.member.toNat]

/-- The row is bound to an optical job (R121). -/
def rowBound (g r : Nat) (s : State) : Bool :=
  s.stripe.binds.any (fun p => p.2.group == g && p.2.first ≤ r && r < p.2.first + p.2.rows)

/-- Some row of the group is bound. -/
def groupBound (g : Nat) (s : State) : Bool := s.stripe.binds.any (fun p => p.2.group == g)

/-- The checks of a WRITE_ROW from BAD_ADDRESS to the order check; none when it may be accepted (R114, R122, R211,
R335, R430). -/
def writeCheck (e : Entry) (s : State) : Option (Nat × Nat) :=
  let g := e.group.toNat
  let d := dirAt g s
  if d.width ≤ e.member.toNat && e.member != 0xFF then some (0x21, 2)
  else if !(groupReachable g s) then some (0x21, 4)
  else if s.modes.wfence then some (0x31, fenceDetail s.modes)
  else if rowBound g e.row.toNat s then some (0x23, 1)
  else if d.state == 2 then some (0x22, 3)
  else if e.row.toNat != d.nextRow then some (0x22, 1)
  else if (writeMembers e s).any (fun m => d.accepted.contains m) then some (0x22, 2)
  else if s.codec.encUp == 0 then some (0x50, 0xE2)
  else none

/-- The host reads of one codeword's 4 KiB into its staging slot. -/
def fetchCw (e : Entry) (set m c : Nat) (s : State) : State :=
  let pos := if e.member == 0xFF then m * 16 + c else c
  (pieceAt e.pieces (pos * 4096) 4096).foldl (fun s p => hostReadData (.data e.eid (16 * set + c)) p.1 p.2 s) s

/-- Staging sets free. -/
def freeStages (s : State) : List Nat := (List.range 32).filter (fun i => stageFree s i)

/-- The data of a member on another block's LUN is moved by that block (R415). -/
def awayMember (e : Entry) (m : Nat) (s : State) : Bool :=
  programmable e.group.toNat m s && !(ownLun (memberAt e.group.toNat m s).lun s)

/-- The program of one member of a WRITE_ROW. -/
def programEntryMember (e : Entry) (m handle : Nat) (s : State) : State :=
  programMember (.write e.eid m) e.group.toNat m e.row.toNat 2 handle (BitVec.ofNat 32 (fld e.options.toNat 32 32)) 0 s

/-- The PROGRAM jobs of the members join the schedule at acceptance, in the order of dispatch, and wait for their data; those of
members on other blocks' LUNs are sent there, and their owners fetch it (R196, R212, R299, R415). A member that cannot be
programmed then has none, whatever becomes of it later (R332, R348). -/
def dispatchPrograms (e : Entry) (ms : List Nat) (s : State) : State :=
  let away := ms.filter (fun m => awayMember e m s)
  let s := (ms.filter (fun m => programmable e.group.toNat m s)).foldl (fun s m => programEntryMember e m 0 s)
    (modEntry e.eid (fun e => { e with away := away }) s)
  { s with sched := { s.sched with jobs := s.sched.jobs.map (fun j =>
      match j.owner with
      | .write x _ => if x == e.eid then { j with dataWait := true } else j
      | _ => j) } }

/-- Members of an entry whose data this block moves. -/
def Entry.ownMembers (e : Entry) : List Nat := e.members.filter (fun m => !(e.away.contains m))

/-- An accepted entry waits for its staging sets (R14, R113). -/
def needsStages (e : Entry) : Bool :=
  e.opcode == 1 && e.phase == .waiting && e.accepted && e.stage.isEmpty && !e.hostErr && !e.ownMembers.isEmpty
    && e.ownMembers.all (fun m => !(e.arrived.any (fun p => p.1 == m)) && !(e.ended.any (fun p => p.1 == m)))

/-- An accepted entry takes its staging sets when enough are free, and its data is fetched (R14, R113). -/
def takeStages (s : State) (e : Entry) : State :=
  let free := freeStages s
  let own := e.ownMembers
  if needsStages e && own.length ≤ free.length then
    let sets := own.zip free
    sets.foldl (fun s p => (List.range 16).foldl (fun s c => fetchCw e p.2 p.1 c s) s)
      (modEntry e.eid (fun e => { e with stage := sets }) s)
  else s

/-- Staging sets are handed out in the order of acceptance. -/
def pumpStages (s : State) : State :=
  match s.sched.entries.find? needsStages with
  | some e => takeStages s e
  | none => s

/-- Every entry that can be given staging sets is. -/
def pumpAllStages : Nat → State → State
  | 0, s => s
  | n + 1, s => pumpAllStages n (pumpStages s)

/-- The members join the accepted set; a full row moves NEXT_ROW on, and the last row closes the group (R212, R293,
R300). -/
def acceptMembers (e : Entry) (ms : List Nat) (s : State) : State :=
  let g := e.group.toNat
  let r := e.row.toNat
  let d := dirAt g s
  let acc := d.accepted ++ ms
  if acc.length == d.width then
    let s := writeDir g (fun d => { d with nextRow := r + 1, accepted := [], unwritten := d.unwritten ++ [r] }) s
    let s := modEntry e.eid (fun e => { e with needsRow := some r }) s
    if r + 1 == d.rows then closeGroup g s else s
  else writeDir g (fun d => { d with accepted := acc }) s

/-- A WRITE_ROW accepted (R212): a slot for the first member of a row, its members, their state, and the data fetch. -/
def acceptWrite (e : Entry) (s : State) : State :=
  let g := e.group.toNat
  let r := e.row.toNat
  let ms := writeMembers e s
  let s := match findSlot g r s, freeSlot g s with
    | none, some i => assignSlot i g r s
    | _, _ => s
  let i := (findSlot g r s).getD s.stripe.slots.length
  let s := modSlot i (fun k => { k with dataMask := k.dataMask ++ ms }) s
  let s := modEntry e.eid (fun e => { e with phase := .waiting, accepted := true, members := ms }) s
  let s := (ms.filter (fun m => !(programmable g m s))).foldl (fun s m => noteStatus e.eid 0x32 m s) s
  pumpAllStages 2 (dispatchPrograms e ms (acceptMembers e ms s))

/-- The row of a WRITE_ROW needs a slot that it does not have (R297). -/
def needsSlot (e : Entry) (s : State) : Bool := (findSlot e.group.toNat e.row.toNat s).isNone && (freeSlot e.group.toNat s).isNone

/-- The checks, then acceptance, or a wait for a slot (R297). -/
def tryWrite (e : Entry) (s : State) : State :=
  match writeCheck e s with
  | some (st, det) => refuse e st det s
  | none =>
    if needsSlot e s then
      if e.phase == .waiting then s
      else
        { modEntry e.eid (fun e => { e with phase := .waiting }) s with
          stripe := { s.stripe with waits := satAdd s.stripe.waits 1 } }
    else acceptWrite e s

/-- WRITE_ROW at dispatch (R113, R114, R122): its list, its group, its LENGTH, then the other checks. -/
def execWriteRow (eid : Nat) (list : List HostRead) (s : State) : Out :=
  .next <| dispatch eid 1 s fun e s =>
    let list := listLines e.addr.toNat list
    let s := fetchList e list s
    match entryPieces e list with
    | .bad => stopAt e 9 s
    | .fabric => refuse e 0x50 0xF0 s
    | .ok ps =>
      let e := { e with pieces := ps }
      let s := modEntry eid (fun x => { x with pieces := ps }) s
      if !(groupServes e.group.toNat s) then refuse e 0x21 1 s
      else if e.member == 0xFF && e.length.toNat != 16 * (dirAt e.group.toNat s).width then stopAt e 7 s
      else tryWrite e s

/-- Two entries wait for slots of different home blocks (R416). -/
def needsOther (x e : Entry) (s : State) : Bool := homeOf x.group.toNat s != homeOf e.group.toNat s

/-- SLOT_ASSIGN: a slot is FREE, and the waiting WRITE_ROW dispatched first is checked again (R297). -/
def execSlotAssign (eid : Nat) (s : State) : Out :=
  .next <|
    match entryAt eid s with
    | some e =>
      if slotWaits e && !((before s e).any (fun x => slotWaits x && !(needsOther x e s)))
          && (freeSlot e.group.toNat s).isSome then
        if groupServes e.group.toNat s then tryWrite e s else refuse e 0x21 1 s
      else s
    | none => s

/-- SLOT_WAIT_EVENT: a wait reaches slotWaitEvent; the stripe event once for the entry (R297). -/
def execSlotWaitEvent (eid : Nat) (s : State) : Out :=
  .next <|
    match entryAt eid s with
    | some e =>
      if slotWaits e && !e.slotWaited then
        raise 115 (modEntry eid (fun e => { e with slotWaited := true })
          { s with stripe := { s.stripe with waitLong := satAdd s.stripe.waitLong 1 } })
      else s
    | none => s

/-! ### Data (R298, R452) -/

/-- The data of every member has been fetched, here or by its owner on another block (R415). -/
def allArrived (e : Entry) : Bool := e.arrived.length == 16 * e.members.length

/-- The job of a member whose data is whole names its staging set and may be placed (R161, R230). -/
def fillProgram (j : Job) (handle : Nat) (s : State) : State :=
  modJob j.handle (fun j => { j with
    dataWait := false, buf := handle
    items := headItems j.prio j.handle 1 false 0 [programItem j.lun j.block j.page j.profile handle s] }) s

/-- A member that is not programmed has ended: its job is withdrawn, and the entry completes MEMBER_FAILED (R332). -/
def memberNotProgrammed (e : Entry) (m : Nat) (s : State) : State :=
  let s := noteStatus e.eid 0x32 m (withdraw (fun j => j.owner == .write e.eid m) s)
  let s := match findSlot e.group.toNat e.row.toNat s with
    | some i => modSlot i (fun k => { k with failed := k.failed ++ [m] }) s
    | none => s
  modEntry e.eid (fun e => { e with ended := e.ended ++ [(m, false)] }) s

/-- The owner of a member on another block programs the data that it has fetched, or, where the member has been declared failed
since acceptance, only folds it; it folds it either way (R332, R415, R416). -/
def startAway (e : Entry) (m : Nat) (j : Job) (s : State) : State :=
  let g := e.group.toNat
  let w := memberAt g m s
  let s := match findSlot g e.row.toNat s with
    | some i => foldsAway i g m s
    | none => s
  if programmable g m s && j.lun == w.lun && j.block == w.block then sendGo j 1 s
  else
    let s := modJob j.handle (fun j => { j with state := .ended, owner := .none }) (sendGo j 0 s)
    dropJobs (memberNotProgrammed e m s)

/-- Programs of an entry whose data is whole; a member that cannot be programmed, or was declared failed since acceptance, has
ended (R299, R332). -/
def startPrograms (eid : Nat) (s : State) : State :=
  match entryAt eid s with
  | some e =>
    let g := e.group.toNat
    (e.members.filter (fun m => !(e.ended.any (fun p => p.1 == m)))).foldl (fun s m =>
      let w := memberAt g m s
      match s.sched.jobs.find? (fun j => j.owner == .write eid m) with
      | some j =>
        if e.away.contains m then startAway e m j s
        else if programmable g m s && j.lun == w.lun && j.block == w.block then fillProgram j (16 * (e.stage.lookup m).getD 0) s
        else memberNotProgrammed e m s
      | none => memberNotProgrammed e m s) s
  | none => s

/-- The owner of a member on another block has fetched its data; with the last of the entry its programs start (R299, R415). -/
def awayFetched (eid m : Nat) (s : State) : State :=
  let s := modEntry eid (fun e => { e with
    arrived := e.arrived.filter (fun p => p.1 != m) ++ (List.range 16).map (fun c => (m, c)) }) s
  match entryAt eid s with
  | some e =>
    match findSlot e.group.toNat e.row.toNat s, allArrived e with
    | some i, true => sealSlot i (startPrograms eid s)
    | _, _ => s
  | none => s

/-- A member folded whole. -/
def foldedWhole (i m : Nat) (s : State) : State :=
  modSlot i (fun k => { k with folded := k.folded ++ [m], part := k.part.filter (fun p => p.1 != m) }) s

/-- A codeword that enters write staging is folded, once: not when it has been fetched again (R298, R563). -/
def foldOnce (i m c : Nat) (data : List Byte) (s : State) : State :=
  let k := slotAt i s
  if k.folded.contains m || k.part.contains (m, c) then s
  else foldCw i m c data (modSlot i (fun k => { k with part := k.part ++ [(m, c)] }) s)

/-- 4 KiB of a member's data enter write staging and are folded once (R298). -/
def dataArrives (e : Entry) (set m c : Nat) (data : List Byte) (s : State) : State :=
  let s := sramWrite (stageOff (16 * set + c)) data s
  let slot := findSlot e.group.toNat e.row.toNat s
  let s := match slot with
    | some i => foldOnce i m c data s
    | none => s
  let s := modEntry e.eid (fun e => { e with arrived := e.arrived ++ [(m, c)] }) s
  match entryAt e.eid s with
  | some e =>
    if (e.arrived.filter (fun p => p.1 == m)).length == 16 then
      match slot with
      | some i =>
        let again := (slotAt i s).folded.contains m
        let s := if again then s else foldedWhole i m s
        if again || !(allArrived e) then s else sealSlot i (startPrograms e.eid s)
      | none => s
    else s
  | none => s

/-- No read request of a staging slot is outstanding. -/
def slotRead (eid slot : Nat) (s : State) : Bool :=
  !((s.host.reads ++ s.host.rstalled).any (fun r => r.what == .data eid slot))

/-- The requests for codeword `c` of member `m`: address and bytes (R33, R113). -/
def cwRequests (e : Entry) (m c : Nat) : List (Nat × Nat) :=
  (pieceAt e.pieces ((if e.member == 0xFF then m * 16 + c else c) * 4096) 4096).flatMap (fun p =>
    splitLens (p.2 / 32 + 2) p.1 p.2)

/-- WRITE_DATA_ARRIVAL: the requests of a codeword's bytes are answered, and it enters staging (R34, R298). `beats` is the
lines that answer them, each request's in ascending address order. -/
def execWriteDataArrival (eid member cw : Nat) (beats : List Byte) (s : State) : Out :=
  .next <|
    match entryAt eid s with
    | some e =>
      match e.stage.lookup member with
      | some set =>
        if isWrite e && cw < 16 && !e.hostErr && e.members.contains member && !(e.arrived.contains (member, cw))
            && slotRead eid (16 * set + cw) s then
          dataArrives e set member cw (padTo 4096 (fromBeats (cwRequests e member cw) beats)) s
        else s
      | none => s
    | none => s

/-- The bytes of a failed fetch are folded out again, codeword by codeword (R452 step 1). A folded codeword that write staging
holds no longer, fetched again after an uncorrectable word, leaves P and Q by computing them again (R563). -/
def foldOut (i : Nat) (e : Entry) (ms : List Nat) (s : State) : State :=
  let k := slotAt i s
  let had (p : Nat × Nat) : Bool := k.folded.contains p.1 || k.part.contains p
  (ms.flatMap (fun m => ((List.range 16).map (fun c => (m, c))).filter had)).foldl (fun s p =>
    match e.stage.lookup p.1, e.arrived.contains p with
    | some set, true =>
      let r := sramRead (stageOff (16 * set + p.2)) 4096 s
      foldCw i p.1 p.2 r.1 r.2.2
    | _, _ => modSlot i (fun k => { k with bad := if k.bad.contains p.2 then k.bad else k.bad ++ [p.2] }) s) s

/-- Members of a WRITE_ROW whose programs have not begun: no jig has popped them, and no owner on another block has been told to
go on. -/
def idleMembers (e : Entry) (s : State) : List Nat :=
  e.members.filter (fun m => !(e.ended.any (fun p => p.1 == m))
    && !(s.sched.jobs.any (fun j => j.owner == .write e.eid m && !j.unpopped && !j.dataWait)))

/-- A member of a failed WRITE_ROW becomes a pad: its owner on another block, which holds its data or still fetches it, programs
pads instead (R302, R415, R452). -/
def padInstead (e : Entry) (i : Nat) (s : State) (m : Nat) : State :=
  match s.sched.jobs.find? (fun j => j.owner == .write e.eid m && j.state == .popped) with
  | some j =>
    let s := foldsAway i e.group.toNat m (sendGo j 4 s)
    modJob j.handle (fun j => { j with owner := .pad i m, prio := 2 }) s
  | none => padMember i e.group.toNat m e.row.toNat s

/-- A fabric error on an accepted WRITE_ROW's data (R38, R452): folded out, pads, out of DATA_MASK. Once its row has been
sealed, only the fetch again of R563 can meet one, and the member's program is withdrawn. Programs that a jig has popped are not
recalled, but aborted before their array-start (log entry 76). -/
def writeFetchFailed (e : Entry) (s : State) : State :=
  let g := e.group.toNat
  let r := e.row.toNat
  let s := noteStatus e.eid 0x50 0xF0 (modEntry e.eid (fun e => { e with hostErr := true }) s)
  let s := { s with host := { s.host with
    rstalled := s.host.rstalled.filter (fun q => match q.what with | .data x _ => x != e.eid | _ => true) } }
  match findSlot g r s with
  | some i =>
    if (slotAt i s).state == .filling then
      let ms := idleMembers e s
      let s := foldOut i e ms s
      let s := modSlot i (fun k => { k with
        dataMask := k.dataMask.filter (fun m => !(ms.contains m)), part := k.part.filter (fun p => !(ms.contains p.1))
        folded := k.folded.filter (fun m => !(ms.contains m)) }) s
      let s := withdraw (fun j => match j.owner with | .write x m => x == e.eid && ms.contains m | _ => false) s
      let s := ms.foldl (padInstead e i) s
      let s := modEntry e.eid (fun e => { e with
        ended := e.ended ++ ms.map (fun m => (m, false)), arrived := e.arrived.filter (fun p => !(ms.contains p.1)) }) s
      sealSlot i (abortPopped (jobOf e.eid) s)
    else abortPrograms e s
  | none => abortPrograms e s
where
  /-- Programs of the entry that have not reached their array-start are stopped. -/
  abortPrograms (e : Entry) (s : State) : State :=
    let gone := (s.sched.jobs.filter (fun j => jobOf e.eid j && j.unpopped)).filterMap (fun j =>
      match j.owner with | .write _ m => some (m, false) | _ => none)
    abortPopped (jobOf e.eid) (withdraw (jobOf e.eid)
      (modEntry e.eid (fun e => { e with ended := e.ended ++ gone }) s))

/-! ### Programs end (R14, R300, R310, R332 to R334) -/

/-- A member of a row has passed: the members of the row passed so far, with its slot, or beside it once the slot is FREE
(R309, R310). -/
def notePassed (g r m : Nat) (s : State) : List Nat × State :=
  match findSlot g r s with
  | some i => (m :: (slotAt i s).passed, modSlot i (fun k => { k with passed := k.passed ++ [m] }) s)
  | none =>
    let ms := m :: (s.stripe.lateRows.lookup (g, r)).getD []
    let others := s.stripe.lateRows.filter (fun x => x.1 != (g, r))
    let more := dataRuns g r (fun x => x != m) s
    (ms, { s with stripe := { s.stripe with lateRows := if more then ((g, r), ms) :: others else others } })

/-- A data member's program has passed: its row record (R310). -/
def programPassed (e : Entry) (m : Nat) (s : State) : State :=
  let g := e.group.toNat
  let r := e.row.toNat
  let (ms, s) := notePassed g r m s
  let (n, s) := rowMembersRec g r (maskOf ms) s
  modEntry e.eid (fun e => { e with
    ended := e.ended ++ [(m, true)], count := e.count + 16, recWait := some n }) s

/-- Members of a row that are failed, or whose page was not programmed (R334). -/
def rowLacking (g r : Nat) (s : State) : Nat :=
  let bad := match findSlot g r s with | some i => (slotAt i s).failed | none => []
  ((List.range ((dirAt g s).width + 2)).filter (fun m => (memberAt g m s).mstate != 0 || bad.contains m)).length

/-- A data member's program has failed: MEMBER_FAILED, or NAND_FAIL with the outcome's number when the row then lacks more than
two, and the group is closed (R145, R332, R334). -/
def programFailed (e : Entry) (m outcome : Nat) (s : State) : State :=
  let g := e.group.toNat
  let s := modEntry e.eid (fun e => { e with ended := e.ended ++ [(m, false)] }) s
  let s := match findSlot g e.row.toNat s with
    | some i => modSlot i (fun k => { k with failed := k.failed ++ [m] }) s
    | none => s
  let s := programDown g m s
  let s := modEntry e.eid (fun x => { x with evWait := some s.evq.rseq.toNat }) s
  if 2 < rowLacking g e.row.toNat s then noteStatus e.eid 0x40 outcome (closeGroup g s) else noteStatus e.eid 0x32 m s

/-- A member's program ended without an array-start: it is not programmed (R170, R232). -/
def programCut (e : Entry) (m : Nat) (s : State) : State :=
  modEntry e.eid (fun e => { e with ended := e.ended ++ [(m, false)] }) s

/-- The record is durable, or none is awaited. -/
def recOk (e : Entry) (s : State) : Bool :=
  match e.recWait with
  | some n => recDurable n s
  | none => true

/-- The row's slot is FREE, or none is awaited. -/
def rowOk (e : Entry) (s : State) : Bool :=
  match e.needsRow with
  | some r => (findSlot e.group.toNat r s).isNone
  | none => true

/-- The row can no longer be sealed in this run: no encoder is in service, or QUARANTINE or a lost lead cut its programs
off; the entry does not wait for it (R128, R335, R427, R459). -/
def rowGivenUp (e : Entry) : Bool :=
  e.status == 0x10 || e.status == 0x11 || (e.status == 0x50 && e.detail == 0xE2) || (e.status == 0x40 && e.detail == 4)

/-- Write staging holds an entry's data until every member has returned; then the WRITE_ROW may complete (R14, R300). -/
def settleWrite (s : State) (e : Entry) : State :=
  if e.opcode == 1 && e.phase == .waiting && e.accepted && e.members.all (fun m => e.ended.any (fun p => p.1 == m)) then
    let s := modEntry e.eid (fun e => { e with stage := [] }) s
    if recOk e s && (rowOk e s || rowGivenUp e) then modEntry e.eid (fun e => { e with phase := .ready }) s else s
  else s

end Sys2Proof.Machine
end

