-- ==== Sys2Proof/Machine/Groups.lean ====
section
/-!
DEFINITION. The other opcodes of the work rings: READ, RELEASE_GROUP, FLUSH, RAW_JIG, GROUP_OPEN, GROUP_CLOSE,
REBUILD_START, REFIT_START, PATROL_CTL and NOP (R112 to R122, R292, R304, R310, R345, R351, R356).
-/
namespace Sys2Proof.Machine

/-! ### READ -/

/-- The checks of a READ after its list and LENGTH (R114, R119, R241). -/
def readCheck (e : Entry) (s : State) : Option (Nat × Nat) :=
  let w := (dirAt e.group.toNat s).width
  if w + 1 < e.member.toNat && e.member != 0xFF then some (0x21, 2)
  else if !(rowWritten e.group.toNat e.row.toNat s) then some (0x21, 3)
  else if s.codec.hardUp == 0 then some (0x50, 0xE2)
  else none

/-- READ (R112 to R123): its members begin as landing slots allow. -/
def execRead (eid : Nat) (list : List HostRead) (s : State) : Out :=
  .next <| dispatch eid 2 s fun e s =>
    let list := listLines e.addr.toNat list
    let s := fetchList e list s
    match entryPieces e list with
    | .bad => stopAt e 9 s
    | .fabric => refuse e 0x50 0xF0 s
    | .ok ps =>
      let w := (dirAt e.group.toNat s).width
      if !(groupServes e.group.toNat s) then refuse e 0x21 1 s
      else if e.member == 0xFF && e.length.toNat != e.selected.length * w then stopAt e 7 s
      else
        match readCheck e s with
        | some (st, det) => refuse e st det s
        | none =>
          let ms := if e.member == 0xFF then List.range w else [e.member.toNat]
          let s := modEntry eid (fun e => { e with phase := .waiting, pieces := ps, unread := ms }) s
          let s := pumpReads s
          match entryAt eid s with
          | some e => settleRead s e
          | none => s

/-! ### RELEASE_GROUP (R118, R121, R310) -/

/-- RELEASE_GROUP: GROUP_RELEASED first. -/
def execReleaseGroup (eid : Nat) (s : State) : Out :=
  .next <| dispatch eid 3 s fun e s =>
    let g := e.group.toNat
    if !(groupServes g s) then refuse e 0x21 1 s
    else if (dirAt g s).refitSource && s.bg.refitState != 0 then refuse e 0x21 8 s
    else if !(groupReachable g s) then refuse e 0x21 4 s
    else if s.modes.wfence then refuse e 0x31 (fenceDetail s.modes) s
    else if groupBound g s then refuse e 0x23 1 s
    else
      let s := addRec (mkRec 6 g []) s
      modEntry eid (fun e => { e with phase := .waiting, recWait := some (lastRec s) }) s

/-- A row of the group that was being filled is given up with it: its slot is FREE (log entry 18). -/
def dropSlots (g : Nat) (s : State) : State :=
  { s with stripe := { s.stripe with slots := s.stripe.slots.map (fun k =>
    if k.state == .filling && k.group == g then {} else k) } }

/-- GROUP_RELEASED is durable: the entry is free, and the members are erased (R310). -/
def releaseNow (e : Entry) (s : State) : State :=
  let g := e.group.toNat
  let words := (dirAt g s).members
  let s := dropSlots g (freeDir g (clearLedgerGroup g s))
  let s := modEntry e.eid (fun e => { e with members := List.range words.length, recWait := none }) s
  setDegraded ((List.range words.length).foldl (fun s m =>
    let w := words.getD m {}
    (addErase (.release e.eid m) w.lun w.block 3 s).2) s)

/-- An erase of a RELEASE_GROUP has ended with an outcome from 0x00 to 0x04, the DETAIL of a failure (R118, R145); of several
failures the first to end gives it (DESIGN CHOICE, log entry 102). -/
def releaseErased (eid m outcome : Nat) (s : State) : State :=
  let s := modEntry eid (fun e => { e with
    ended := e.ended ++ [(m, outcome == 0)], count := if outcome == 0 then e.count + 1 else e.count }) s
  if outcome == 0 then s else noteStatus eid 0x40 outcome s

/-- A RELEASE_GROUP goes on: when its record is durable, and when its erases have ended. -/
def settleRelease (s : State) (e : Entry) : State :=
  if e.opcode == 3 && e.phase == .waiting then
    match e.recWait with
    | some n => if recDurable n s then releaseNow e s else s
    | none =>
      if e.members.all (fun m => e.ended.any (fun p => p.1 == m)) then
        modEntry e.eid (fun e => { e with phase := .ready }) s
      else s
  else s

/-! ### FLUSH (R118) -/

/-- Opcodes that write a group. -/
def writesGroup (op : Nat) : Bool :=
  op == 0x01 || op == 0x03 || op == 0x05 || op == 0x06 || op == 0x20 || op == 0x21

/-- The last record of a group that is not durable yet; of any group for 0xFF_FFFF. -/
def openRecord (g : Nat) (s : State) : Option Nat :=
  let j := s.stripe.jrnl
  let mine (r : BitVec 256) : Bool := g == 0xFFFFFF || (recType r != 7 && recGroup r == g)
  match (j.queue.reverse.findIdx? mine) with
  | some i => some (j.recNo - i)
  | none =>
    let flight := match j.inFlight with | some p => p.recs.any mine | none => false
    if flight || j.lost then some j.pageRecs else none

/-- A FLUSH goes on. -/
def settleFlush (s : State) (e : Entry) : State :=
  if e.opcode == 4 && e.phase == .waiting then
    if s.sched.entries.any (fun x => e.earlierWait.contains x.eid) then s
    else
      match e.recWait, openRecord e.group.toNat s with
      | some n, _ => if recDurable n s then endEntry e.eid 0 0 0 s else s
      | none, some n => modEntry e.eid (fun e => { e with recWait := some n }) s
      | none, none => endEntry e.eid 0 0 0 s
  else s

/-- FLUSH: it waits for the entries that write the group, fetched before it, then for the group's records; with none of
either it completes at once. -/
def execFlush (eid : Nat) (s : State) : Out :=
  .next <| dispatch eid 4 s fun e s =>
    let g := e.group.toNat
    if g != 0xFFFFFF && !(groupExists g s) then refuse e 0x21 1 s
    else
      let prior := (before s e).filter (fun x => writesGroup x.opcode.toNat
        && (g == 0xFFFFFF || (groupsOf x).contains g))
      let s := modEntry eid (fun e => { e with phase := .waiting, earlierWait := prior.map (·.eid) }) s
      match entryAt eid s with
      | some e => settleFlush s e
      | none => s

/-! ### RAW_JIG (R114, R116, R123) -/

/-- The items of a RAW_JIG job: the header item, and the host's (R116, R162). -/
def rawItems (e : Entry) : List (BitVec 128) :=
  let start := e.row.toNat % 2 ^ 11
  mkItem 0 [(85, start), (80, e.length.toNat)]
    :: e.elements.map (fun x => BitVec.ofNat 128 (7 * 2 ^ 124 + fld x.toNat 0 104))

/-- RAW_JIG: one job on the channel named; `data` is what the job data buffer's fetch answers. -/
def execRawJig (eid : Nat) (data : HostRead) (s : State) : Out :=
  .next <| dispatch eid 0x10 s fun e s =>
    let ch := e.group.toNat % 128
    let u := ch * 32
    let start := e.row.toNat % 2 ^ 11
    let here := ownLun u s
    if !(reachable u s) || (here && !(chanAt (lunChan u) s).up) then refuse e 0x21 4 s
    else if 0x600 ≤ start && !s.modes.custLoaded then refuse e 0x21 6 s
    else if s.modes.wfence then refuse e 0x31 (fenceDetail s.modes) s
    else
      let s := if e.length == 0 then s else fetchHost (.list eid) [(e.addr.toNat, 4096 * e.length.toNat)] s
      match (if e.length == 0 then HostRead.ok [] else linesOf e.addr.toNat (4096 * e.length.toNat) data) with
      | .err => refuse e 0x50 0xF0 s
      | .ok bs =>
        let s := (addJob { owner := .raw eid, lun := u, prio := fld e.options.toNat 8 2, items := rawItems e
                           data := padTo (4096 * e.length.toNat) bs } s).2
        modEntry eid (fun e => { e with phase := .waiting }) s

/-! ### GROUP_OPEN (R292) -/

/-- Duplicate LUNs. -/
def hasDup (l : List Nat) : Bool := l.eraseDups.length != l.length

/-- The checks on the members of a group to be opened, after the one on its ID (R292). -/
def membersCheck (ms : List Member) (profile : Nat) (s : State) : Option (Nat × Nat) :=
  if !(ms.all (fun m => lunPresent m.lun s && m.block < lunBlocks m.lun s)) then some (0x21, 4)
  else if !(ms.all (fun m => minPageBytes profile ≤ die (lunType m.lun s) 0x0A s)) then some (0x21, 4)
  else if ms.any (fun m => protectedBlock m.lun m.block s) then some (0x21, 4)
  else if hasDup (ms.map (·.lun)) then some (0x21, 5)
  else none

/-- The ID of a group may be opened (R292, R293). -/
def idFree (g : Nat) (s : State) : Bool :=
  g < s.stripe.dirEntries && g != 0xFFFFFF && (dirAt g s).state == 0 && !(dirAt g s).opening && s.stripe.granted

/-- ROWS of a group (R291). -/
def rowsOf (ms : List Member) (s : State) : Nat :=
  (ms.map (fun m => lunPages m.lun s)).foldl min 16384

/-- Member words of a GROUP_OPEN. -/
def openMembers (e : Entry) : List Member := (e.elements.take e.length.toNat).map descOf

/-- Code profile of a GROUP_OPEN. -/
def openProfile (e : Entry) : Nat := fld e.options.toNat 8 2 + 1

/-- The directory entry is taken, from the checks to the end of the GROUP_OPEN (R292). -/
def markOpening (g : Nat) (s : State) : State :=
  { s with stripe := { s.stripe with dir := insertDir { dirAt g s with opening := true } s.stripe.dir } }

/-- A descriptor names the LUN and block of a member of a group with bound rows (R121, R381). -/
def boundBlocks (ms : List Member) (s : State) : Bool :=
  s.stripe.dir.any (fun d => d.boundRows && ms.any (fun m => d.members.any (fun x => x.lun == m.lun && x.block == m.block)))

/-- GROUP_OPEN: the checks, then the erases. -/
def execGroupOpen (eid : Nat) (s : State) : Out :=
  .next <| dispatch eid 0x20 s fun e s =>
    let g := e.group.toNat
    let ms := openMembers e
    if !(idFree g s) then refuse e 0x21 1 s
    else
      match membersCheck ms (openProfile e) s with
      | some (st, det) => refuse e st det s
      | none =>
        if s.modes.wfence then refuse e 0x31 (fenceDetail s.modes) s
        else if boundBlocks (openMembers e) s then refuse e 0x23 1 s
        else
          let s := modEntry eid (fun e => { e with phase := .waiting, members := List.range ms.length }) (markOpening g s)
          (List.range ms.length).foldl (fun s i =>
            let m := ms.getD i {}
            (addErase (.openErase eid i) m.lun m.block 3 s).2) s

/-- An erase of a GROUP_OPEN has ended with an outcome from 0x00 to 0x04; a failure opens no group, DETAIL is the outcome's
number and COUNT names its descriptor (R118, R123, R145). Of several failures the first to end gives both (DESIGN CHOICE, log
entry 102). -/
def openErased (eid m outcome : Nat) (s : State) : State :=
  let s := modEntry eid (fun e => { e with ended := e.ended ++ [(m, outcome == 0)] }) s
  if outcome == 0 then s
  else
    match entryAt eid s with
    | some e =>
      let s := if e.status == 0x40 then s else modEntry eid (fun e => { e with count := m }) s
      noteStatus eid 0x40 outcome s
    | none => s

/-- Every erase of a GROUP_OPEN has ended: the group is opened, or its entry is free again (R292). -/
def settleOpen (s : State) (e : Entry) : State :=
  if e.opcode == 0x20 && e.phase == .waiting && e.members.all (fun m => e.ended.any (fun p => p.1 == m)) then
    if e.status == 0 then
      let ms := openMembers e
      let s := openGroup { group := e.group.toNat, state := 1, width := ms.length - 2, profile := openProfile e
                           rows := rowsOf ms s, members := ms } s
      modEntry e.eid (fun e => { e with phase := .ready, count := e.members.length }) s
    else modEntry e.eid (fun e => { e with phase := .ready }) (undoOpen e s)
  else s

/-! ### GROUP_CLOSE (R304) -/

/-- GROUP_CLOSE: the open row closed short, GROUP_CLOSED, STATE closed. -/
def execGroupClose (eid : Nat) (s : State) : Out :=
  .next <| dispatch eid 0x21 s fun e s =>
    let g := e.group.toNat
    if !(groupExists g s) then refuse e 0x21 1 s
    else if s.modes.wfence then refuse e 0x31 (fenceDetail s.modes) s
    else
      let d := dirAt g s
      let row := if d.state == 1 && !d.accepted.isEmpty then some d.nextRow else none
      let s := closeGroup g s
      modEntry eid (fun e => { e with
        phase := .waiting, needsRow := row, recWait := some (lastRec s), count := (dirAt g s).nextRow }) s

/-- A GROUP_CLOSE may complete. -/
def settleClose (s : State) (e : Entry) : State :=
  if e.opcode == 0x21 && e.phase == .waiting && recOk e s && rowOk e s then
    modEntry e.eid (fun e => { e with phase := .ready }) s
  else s

/-! ### Background work (R345, R351, R356) -/

/-- REBUILD_START (R345). -/
def execRebuildStart (eid : Nat) (s : State) : Out :=
  .next <| dispatch eid 0x22 s fun e s =>
    let g := e.group.toNat
    let failed := e.row.toNat % 4096
    let given := if bitAt e.options.toNat 47 then some (fld e.options.toNat 32 12) else none
    if g != 0xFFFFFF && !(groupExists g s) then refuse e 0x21 1 s
    else if (concerned g failed s).isEmpty then refuse e 0x21 2 s
    else
      match pickSpare given (concerned g failed s) s with
      | none => refuse e 0x21 4 s
      | some i =>
        if 4 < s.bg.queue.length then refuse e 0x21 8 s
        else if s.modes.wfence then refuse e 0x31 (fenceDetail s.modes) s
        else endEntry eid 0 0 (poolEntry i s).1 (queueRebuild g failed i given s)

/-- Units of a source once its open row is closed short. -/
def sourceUnits (g : Nat) (s : State) : Nat :=
  ((List.range (dirAt g s).nextRow).map (fun r => (rowUnits g s r).length)).sum + (dirAt g s).accepted.length

/-- The checks of a well-formed refit plan, in order (R356). -/
def planCheck (p : Plan) (s : State) : Option (Nat × Nat) :=
  let ts := p.targets.map (·.group)
  let caps := p.targets.map (fun t => t.width * rowsOf t.members s)
  let units := (p.sources.map (fun g => sourceUnits g s)).sum
  if s.bg.refitState != 0 || p.sources.any (fun g => (dirAt g s).members.any (fun m => m.mstate == 2)
      || (s.bg.erasing && s.bg.curGroup == g)) then some (0x21, 8)
  else if !(p.sources.all (fun g => groupExists g s)) || hasDup p.sources || p.sources.any (fun g => ts.contains g) then
    some (0x21, 1)
  else if !(ts.all (fun g => idFree g s)) || hasDup ts then some (0x21, 1)
  else
    match p.targets.findSome? (fun t => membersCheck t.members t.profile s) with
    | some r => some r
    | none =>
      if caps.sum < units || units ≤ caps.dropLast.sum then some (0x21, 2)
      else if p.targets.any (fun t => t.members.any (fun m => lunHasFailed m.lun s)) then some (0x21, 4)
      else none

/-- An accepted plan: open sources closed, REFIT_BEGIN, the targets' erases, the flags and the condition (R356). -/
def beginRefit (p : Plan) (s : State) : State :=
  let s := p.sources.foldl (fun s g => closeGroup g s) s
  let s := addRec (mkRec 0x20 0 [(8, p.id), (12, p.sources.length), (13, p.targets.length)]) s
  let s := p.sources.foldl (fun s g => writeDir g (fun e => { e with refitSource := true }) s) s
  let s := p.targets.foldl (fun s t => markOpening t.group s) s
  let plan := p.targets.map (fun t => { t with rows := rowsOf t.members s })
  let erases := p.targets.flatMap (fun t => (List.range t.members.length).map (fun m => (t.group, m, t.members.getD m {})))
  let s := { s with bg := { s.bg with
    refitState := if s.modes.rebuild then 2 else 1
    planId := BitVec.ofNat 32 p.id, sources := p.sources, targets := p.targets.map (·.group), target := 0
    refitRow := 0, unit := 0, refitSince := 0, plan := plan, refitErases := erases.length, commitRec := none } }
  let s := erases.foldl (fun s x => (addErase (.refitErase x.1 x.2.1) x.2.2.lun x.2.2.block 3 s).2) s
  patrolUpdate (setConds (fun m => { m with refit := true }) s)

/-- REFIT_START: the plan as read from host memory, its checks, and its start (R355, R356). A fabric error on its read
completes as one on write data (log entry 19). -/
def execRefitStart (eid : Nat) (plan : HostRead) (s : State) : Out :=
  .next <| dispatch eid 0x23 s fun e s =>
    let s := fetchHost (.list eid) [(e.addr.toNat, 4096 * e.length.toNat)] s
    match linesOf e.addr.toNat (4096 * e.length.toNat) plan with
    | .err => refuse e 0x50 0xF0 s
    | .ok bs =>
      match parsePlan (padTo (4096 * e.length.toNat) bs) e.length.toNat with
      | none => stopAt e 7 s
      | some p =>
        match planCheck p s with
        | some (st, det) => refuse e st det s
        | none =>
          if s.modes.wfence then refuse e 0x31 (fenceDetail s.modes) s
          else endEntry eid 0 0 p.targets.length (beginRefit p s)

/-- A PATROL_CTL entry of one ACTION: the action is in force, COUNT is the laps completed (R118, R351). -/
def patrolCtl (eid action : Nat) (f : Entry → State → State) (s : State) : State :=
  dispatch eid 0x24 s fun e s =>
    if fld e.options.toNat 8 2 == action then
      let s := patrolUpdate (f e s)
      endEntry eid 0 0 s.bg.laps.toNat s
    else s

/-- PATROL_PAUSE (R351). -/
def execPatrolPause (eid : Nat) (s : State) : Out :=
  .next (patrolCtl eid 0 (fun _ s => { s with bg := { s.bg with patrolPaused := true } }) s)

/-- PATROL_RESUME (R351). -/
def execPatrolResume (eid : Nat) (s : State) : Out :=
  .next (patrolCtl eid 1 (fun _ s => { s with bg := { s.bg with patrolPaused := false } }) s)

/-- PATROL_SET_RATE writes patrolRate (R371). -/
def execPatrolSetRate (eid : Nat) (s : State) : Out :=
  .next (patrolCtl eid 2 (fun e s =>
    let v := le 4 (fld e.options.toNat 32 32)
    let s := if stored 0x2900 3 s == v then s else saveRecord 0x2900 3 v s
    { s with dict := { s.dict with saved := putValue 0x2900 3 v s.dict.saved } }) s)

/-- PATROL_NEW_LAP ends the lap and starts a new one (R351). -/
def execPatrolNewLap (eid : Nat) (s : State) : Out := .next (patrolCtl eid 3 (fun _ s => newLap false s) s)

/-- NOP: done at once (R118). -/
def execNop (eid : Nat) (s : State) : Out := .next <| dispatch eid 0x3F s fun e s => endEntry e.eid 0 0 0 s

end Sys2Proof.Machine
end

