-- ==== Sys2Proof/Machine/Microword.lean ====
section
/-!
DEFINITION. Microwords: their fields and parity, reserved encodings, the words of the base library that the manual
lists or describes, and the word a jig finds in its store (R134 to R136, R139 to R147, R151, R154 to R160, Programs 1 and 2).
-/
namespace Sys2Proof.Machine

/-! ### Fields (R134) -/

def mwNext (w : Nat) : Nat := fld w 145 11
def mwSeq (w : Nat) : Nat := fld w 142 3
def mwCond (w : Nat) : Nat := fld w 136 6
def mwInv (w : Nat) : Bool := bitAt w 135
def mwAlt (w : Nat) : Nat := fld w 124 11
def mwBus (w : Nat) : Nat := fld w 120 4
def mwImm (w : Nat) : Nat := fld w 112 8
def mwAddr (w : Nat) : Nat := fld w 108 4
def mwCeMode (w : Nat) : Nat := fld w 104 4
def mwCeImm (w : Nat) : Nat := fld w 101 3
def mwLunSrc (w : Nat) : Nat := fld w 99 2
def mwPin (w : Nat) : Nat := fld w 96 3
def mwTimerLoad (w : Nat) : Nat := fld w 80 16
def mwTimerOp (w : Nat) : Nat := fld w 78 2
def mwCntA (w : Nat) : Nat := fld w 74 4
def mwCntB (w : Nat) : Nat := fld w 70 4
def mwMover (w : Nat) : Nat := fld w 66 4
def mwCodec (w : Nat) : Nat := fld w 62 4
def mwStat (w : Nat) : Nat := fld w 58 4
def mwEvent (w : Nat) : Nat := fld w 52 6
def mwDrawer (w : Nat) : Nat := fld w 50 2
def mwJsel (w : Nat) : Nat := fld w 46 4
def mwJop (w : Nat) : Nat := fld w 43 3
def mwJarg (w : Nat) : Nat := fld w 40 3
def mwFeature (w : Nat) : Nat := fld w 32 8
def mwClamp (w : Nat) : Nat := fld w 24 8
def mwTrace (w : Nat) : Nat := fld w 16 8
def mwSpare (w : Nat) : Nat := fld w 0 16

/-- The word's BUS is a burst: DIN, DOUT, DOUT_SHORT or DIN_SHORT (R140). -/
def burstCode (b : Nat) : Bool := b == 4 || b == 5 || b == 9 || b == 0xA

/-- A reserved encoding in some field (R134 to R147). ADDR_SRC 0xF is reserved whatever BUS holds. DESIGN CHOICE (log
entry 77): an IMM8 of 0 with DOUT_SHORT or DIN_SHORT, and J_ARG[2] = 1 with J_OP 0b001, which the manual excludes without
a consequence, count as reserved. -/
def mwReserved (w : Nat) : Bool :=
  0xC ≤ mwBus w || mwAddr w == 0xF || 5 ≤ mwCeMode w || 6 ≤ mwPin w || 8 ≤ mwCntA w || 8 ≤ mwCntB w
    || 7 ≤ mwMover w || 5 ≤ mwCodec w || mwStat w == 6 || 8 ≤ mwStat w || 0x42 ≤ mwClamp w
    || (mwJop w == 1 && 4 ≤ mwJarg w) || ((mwBus w == 9 || mwBus w == 0xA) && mwImm w == 0)

/-! ### Parity (R134, R151) -/

/-- Parity of 39 bits from `lo`. -/
def quarter (w lo : Nat) : Nat := ones 39 (w / 2 ^ lo) % 2

/-- The four parity bits of a word: bit 3 is PAR[159]. -/
def parityOf (w : Nat) : Nat := packFields [(0, quarter w 0), (1, quarter w 39), (2, quarter w 78), (3, quarter w 117)]

/-- A word with its parity bits made. -/
def withParity (w : Nat) : BitVec 160 := BitVec.ofNat 160 (w % 2 ^ 156 + parityOf w * 2 ^ 156)

/-- QUARTERS of a word: the parity bits that fail (R174). -/
def badQuarters (w : Nat) : Nat := parityOf w ^^^ fld w 156 4

/-! ### The base library (R154 to R156, R160, Programs 1 and 2) -/

/-- A word assembled from (lowest bit, value) fields. -/
def asm (l : List (Nat × Nat)) : BitVec 160 := withParity (packFields l)

/-- SEQ next, branch, call and wait. -/
def goNext (n : Nat) : List (Nat × Nat) := [(145, n)]
def goBranch (c inv n a : Nat) : List (Nat × Nat) := [(145, n), (142, 1), (136, c), (135, inv), (124, a)]
def goCall (n a : Nat) : List (Nat × Nat) := [(145, n), (142, 3), (124, a)]
def goWait (c n a : Nat) : List (Nat × Nat) := [(145, n), (142, 5), (136, c), (124, a)]

/-- A command cycle, an address cycle of IMM8, a job register write. -/
def cmd (b : Nat) : List (Nat × Nat) := [(120, 1), (112, b)]
def dieCmd (i : Nat) : List (Nat × Nat) := [(120, 2), (112, i)]
def addr0 : List (Nat × Nat) := [(120, 3)]
def jset (sel op arg : Nat) : List (Nat × Nat) := [(46, sel), (43, op), (40, arg)]

/-- CE_MODE 0x2 and LUN_SRC 0b01. -/
def selectJ2 : List (Nat × Nat) := [(104, 2), (99, 1)]

/-- STAT_CAP 0x7, CE_MODE 0x3, and a return to a caller or to dispatch. -/
def endWord : List (Nat × Nat) := [(145, 0x010), (142, 4), (136, 0x3B), (135, 1), (58, 7), (104, 3)]

/-- A return without END_JOB, and the status poll's address of a row. -/
def retWord : List (Nat × Nat) := [(142, 4)]
def poll78 (n : Nat) : List (Nat × Nat) := goCall n 0x030 ++ cmd 0x78

/-- The outcome byte of J15 set to a value. -/
def setOutcome (v : Nat) : List (Nat × Nat) := (112, v) :: jset 15 1 3

/-- The vendor gate words: dispatch and its slots, ROW3, End (R135, R156), the failure entries with the outcomes of R156,
and the trap handler, whose two words do what R154 lists (log entry 20). Slots and failure entries that no listing gives
are the model's own words (log entry 7): FLAG0 tells 0x00C an erase from a program. -/
def gateWords : List (Nat × List (Nat × Nat)) :=
  [ (0x000, goNext 0x010),
    (0x004, goNext 0x005 ++ [(50, 3), (96, 2), (24, 0x41), (104, 3)] ++ setOutcome 5),
    (0x005, goNext 0x010 ++ [(58, 7)] ++ jset 15 5 0),
    (0x008, goNext 0x009 ++ [(24, 0x40), (96, 2)] ++ setOutcome 4),
    (0x009, endWord ++ jset 15 5 0),
    (0x00A, goNext 0x009 ++ setOutcome 3),
    (0x00C, goBranch 0x28 0 0x00D 0x00E),
    (0x00D, goNext 0x009 ++ setOutcome 1),
    (0x00E, goNext 0x009 ++ setOutcome 2),
    (0x010, [(145, 0x010), (142, 2), (124, 0x020), (50, 1)]),
    (0x021, goNext 0x140),
    (0x022, goNext 0x180),
    (0x023, goNext 0x200),
    (0x024, goNext 0x260),
    (0x025, goNext 0x270),
    (0x028, goNext 0x290),
    (0x02F, [(145, 0x010), (142, 5), (136, 0x0F), (135, 1)]),
    (0x030, goNext 0x031 ++ [(120, 3), (108, 3)]),
    (0x031, goNext 0x032 ++ [(120, 3), (108, 4)]),
    (0x032, [(142, 4), (120, 3), (108, 5)]),
    (0x03F, endWord ++ [(24, 0x41)]) ]

/-- Where a job whose ABORT_REQ is set goes instead of its array-start: its clamps return, write protect is asserted, and
it ends with outcome 0x06 (R170). FLAG2 tells a retry routine, which sets P1 = 0 first (R276). -/
def abortPage : Nat := 0x040
def abortWords : List (Nat × List (Nat × Nat)) :=
  [ (abortPage, goBranch 0x2A 0 0x041 0x042),
    (0x041, goNext 0x009 ++ [(24, 0x40), (96, 2)] ++ setOutcome 6),
    (0x042, goCall 0x041 0x1E8) ]

/-- Program 1: a multi-plane read. -/
def readWords1 : List (Nat × List (Nat × Nat)) :=
  [ (0x140, goNext 0x141 ++ jset 2 4 1),
    (0x141, goNext 0x142 ++ jset 0 4 2),
    (0x142, goNext 0x143 ++ jset 6 4 0 ++ selectJ2 ++ [(24, 1), (70, 1)]),
    (0x143, goBranch 0x38 1 0x144 0x148),
    (0x144, goNext 0x145 ++ cmd 0x00),
    (0x145, goNext 0x146 ++ addr0),
    (0x146, goCall 0x147 0x030 ++ addr0),
    (0x147, goBranch 0x39 0 0x149 0x14A),
    (0x148, goNext 0x143 ++ [(70, 4)]),
    (0x149, goNext 0x148 ++ cmd 0x32),
    (0x14A, goNext 0x14B ++ cmd 0x30 ++ [(80, 8000), (78, 2)]),
    (0x14B, goWait 0x0A 0x14C 0),
    (0x14C, goCall 0x14D 0x030 ++ cmd 0x78),
    (0x14D, goNext 0x14E ++ [(120, 6), (58, 1)]) ]

def readWords2 : List (Nat × List (Nat × Nat)) :=
  [ (0x14E, goBranch 0x08 0 0x14F 0x150),
    (0x14F, goBranch 0x37 0 0x14C 0x008),
    (0x150, goBranch 0x02 0 0x151 0x00A ++ [(58, 3)]),
    (0x151, goNext 0x152 ++ [(70, 1)]),
    (0x152, goBranch 0x38 1 0x153 0x158),
    (0x153, goNext 0x154 ++ cmd 0x06),
    (0x154, goNext 0x155 ++ addr0),
    (0x155, goCall 0x156 0x030 ++ addr0),
    (0x156, goNext 0x157 ++ cmd 0xE0 ++ [(66, 1), (62, 1)]),
    (0x157, goBranch 0x39 0 0x158 0x159 ++ [(120, 5)]),
    (0x158, goNext 0x152 ++ [(70, 4)]),
    (0x159, goWait 0x15 0x15A 0 ++ [(62, 4)]),
    (0x15A, endWord) ]

/-- Program 2: a multi-plane program that a read may suspend. -/
def programWords1 : List (Nat × List (Nat × Nat)) :=
  [ (0x180, goNext 0x181 ++ jset 2 4 1),
    (0x181, goNext 0x182 ++ jset 0 4 2),
    (0x182, goNext 0x183 ++ jset 6 4 0 ++ selectJ2 ++ [(96, 1), (24, 3), (74, 1), (70, 1)]),
    (0x183, goBranch 0x38 1 0x184 0x189),
    (0x184, goWait 0x16 0x185 0 ++ [(66, 2), (62, 3)]),
    (0x185, goNext 0x186 ++ cmd 0x80),
    (0x186, goNext 0x187 ++ addr0),
    (0x187, goCall 0x188 0x030 ++ addr0),
    (0x188, goBranch 0x39 0 0x18A 0x18B ++ [(120, 4)]),
    (0x189, goNext 0x183 ++ [(70, 4)]),
    (0x18A, goNext 0x189 ++ cmd 0x11),
    (0x18B, goNext 0x18C ++ cmd 0x10),
    (0x18C, goWait 0x11 0x194 0x18D ++ [(80, 20000), (78, 2)]),
    (0x18D, goCall 0x18E 0x030 ++ cmd 0x78),
    (0x18E, goNext 0x18F ++ [(120, 6), (58, 1)]),
    (0x18F, goBranch 0x08 0 0x190 0x191),
    (0x190, goBranch 0x37 0 0x18C 0x008) ]

def programWords2 : List (Nat × List (Nat × Nat)) :=
  [ (0x191, goBranch 0x02 0 0x192 0x00C ++ [(58, 4), (96, 2)]),
    (0x192, endWord),
    (0x193, goWait 0x0A 0x18D 0x18D ++ [(80, 20000), (78, 2)]),
    (0x194, goNext 0x195 ++ jset 11 6 2 ++ [(50, 2)]),
    (0x195, goBranch 0x3C 1 0x196 0x193),
    (0x196, goNext 0x197 ++ jset 2 4 1),
    (0x197, goBranch 0x30 0 0x198 0x19F ++ selectJ2),
    (0x198, goNext 0x199 ++ jset 9 6 5),
    (0x199, goNext 0x19A ++ jset 10 6 0 ++ [(104, 3)]),
    (0x19A, goCall 0x19B 0x010),
    (0x19B, goNext 0x19C ++ jset 5 7 1),
    (0x19C, goNext 0x19D ++ jset 0 7 2),
    (0x19D, goNext 0x19E ++ jset 2 7 3),
    (0x19E, goNext 0x18D ++ selectJ2 ++ [(96, 1)]) ]

def programWords3 : List (Nat × List (Nat × Nat)) :=
  [ (0x19F, goBranch 0x32 1 0x1A0 0x1AB),
    (0x1A0, goNext 0x1A1 ++ dieCmd 0),
    (0x1A1, goCall 0x1A2 0x030 ++ cmd 0x78),
    (0x1A2, goNext 0x1A3 ++ [(120, 6), (58, 1)]),
    (0x1A3, goBranch 0x08 0 0x1AC 0x1A4),
    (0x1A4, goBranch 0x1F 1 0x1A5 0x191),
    (0x1A5, goNext 0x1A6 ++ [(24, 0x40), (74, 4)] ++ jset 9 6 5),
    (0x1A6, goNext 0x1A7 ++ jset 10 6 0 ++ [(104, 3)]),
    (0x1A7, goCall 0x1A8 0x010),
    (0x1A8, goNext 0x1A9 ++ jset 5 7 1),
    (0x1A9, goNext 0x1AA ++ jset 0 7 2),
    (0x1AA, goNext 0x1AD ++ jset 2 7 3),
    (0x1AB, goNext 0x193 ++ jset 2 7 3),
    (0x1AC, goBranch 0x37 0 0x1A1 0x008),
    (0x1AD, goNext 0x1AE ++ selectJ2 ++ [(96, 1), (24, 3)]),
    (0x1AE, goNext 0x18C ++ dieCmd 1) ]

/-! ### Sequences of R191 without a listing (log entry 7) -/

/-- A listing moved: every address from `lo` to `hi` in NEXT and ALT, and the words' own, by `d`. -/
def moveWords (lo hi d : Nat) (l : List (Nat × List (Nat × Nat))) : List (Nat × List (Nat × Nat)) :=
  l.map (fun p => (p.1 + d, p.2.map (fun f =>
    if (f.1 == 145 || f.1 == 124) && lo ≤ f.2 && f.2 ≤ hi then (f.1, f.2 + d) else f)))

/-- SENSE: the sensing index into J8, then Program 1 with its data handed over as that sensing (R144, R162, R254). It waits on
RB_SEL where statusMode is 0 (R191). -/
def senseWords : List (Nat × List (Nat × Nat)) :=
  (0x270, goNext 0x271 ++ jset 8 4 1)
    :: (moveWords 0x140 0x15A 0x131 (readWords1 ++ readWords2)).map (fun p =>
      if p.1 == 0x27C then (0x27C, goWait 0x0A 0x28C 0)
      else (p.1, p.2.map (fun f => if f == (62, 1) then (62, 2) else f)))
  ++ [ (0x28C, goBranch 0x35 0 0x28D 0x27D),
       (0x28D, goBranch 0x01 0 0x28E 0x27D),
       (0x28E, goBranch 0x37 0 0x28D 0x008) ]

/-- The vendor retry routine: the retry entry set by LUN set feature from the job data buffer, the job's READ item popped and
its page read as in Program 1, and P1 = 0 again before the job ends, also where the read's status is bad (R276; log entry
117). J10 is kept. -/
def retryWords : List (Nat × List (Nat × Nat)) :=
  [ (0x1C0, goNext 0x1C1 ++ jset 2 4 1),
    (0x1C1, goNext 0x1C2 ++ jset 0 5 0 ++ selectJ2),
    (0x1C2, goNext 0x1C3 ++ cmd 0xD5),
    (0x1C3, goNext 0x1C4 ++ [(120, 3), (108, 5)]),
    (0x1C4, goNext 0x1C5 ++ [(120, 3), (108, 0xE)]),
    (0x1C5, goNext 0x1C6 ++ [(120, 0xA), (112, 4), (66, 5)]),
    (0x1C6, goNext 0x1C7 ++ [(112, 4), (50, 1)] ++ jset 15 1 0),
    (0x1C7, goWait 0x15 0x1C8 0) ]
  ++ (moveWords 0x140 0x15A 0x88 (readWords1 ++ readWords2)).map (fun p =>
      if p.1 == 0x1D8 then (0x1D8, goBranch 0x02 0 0x1D9 0x1E4 ++ [(58, 3)])
      else if p.1 == 0x1E2 then (0x1E2, goCall 0x1E3 0x1E8)
      else p)
  ++ [ (0x1E3, endWord),
       (0x1E4, goCall 0x00A 0x1E8),
       (0x1E8, goNext 0x1E9 ++ jset 15 1 0),
       (0x1E9, goNext 0x1EA ++ jset 0 5 0),
       (0x1EA, goNext 0x1EB ++ cmd 0xD5 ++ jset 7 7 2),
       (0x1EB, goNext 0x1EC ++ [(120, 3), (108, 5)] ++ jset 10 5 0),
       (0x1EC, goNext 0x1ED ++ [(120, 3), (108, 0xE)]),
       (0x1ED, goNext 0x1EE ++ [(120, 7)] ++ jset 10 6 7),
       (0x1EE, retWord) ]

/-- FEATURE: a LUN set feature with the item's address and parameters; J10 is kept, and the job's next item is dispatched
(R162, R191, R255). -/
def featureWords : List (Nat × List (Nat × Nat)) :=
  [ (0x260, goNext 0x261 ++ jset 2 4 1),
    (0x261, goNext 0x262 ++ jset 7 7 2),
    (0x262, goNext 0x263 ++ jset 0 5 0 ++ selectJ2),
    (0x263, goNext 0x264 ++ cmd 0xD5 ++ jset 10 4 2),
    (0x264, goNext 0x265 ++ [(120, 3), (108, 5)]),
    (0x265, goNext 0x266 ++ [(120, 3), (108, 0xD)] ++ jset 10 4 0),
    (0x266, goNext 0x267 ++ [(120, 7)] ++ jset 10 6 7),
    (0x267, goBranch 0x13 0 0x010 0x268),
    (0x268, endWord) ]

/-- Where an erase whose die shows it suspended goes on. -/
def suspPage : Nat := 0x050

/-- ERASE: a multi-plane erase that a read may suspend (R191, R195, R198, R200). Where statusMode is 0 it polls a die whose
RB_SEL is high. -/
def eraseWords : List (Nat × List (Nat × Nat)) :=
  [ (0x200, goNext 0x201 ++ jset 2 4 1),
    (0x201, goNext 0x202 ++ jset 0 4 2),
    (0x202, goNext 0x203 ++ selectJ2 ++ [(96, 1), (24, 2), (74, 1), (70, 1)]),
    (0x203, goBranch 0x38 1 0x204 0x207),
    (0x204, goCall 0x205 0x030 ++ cmd 0x60),
    (0x205, goBranch 0x39 0 0x206 0x208),
    (0x206, goNext 0x207 ++ cmd 0xD1),
    (0x207, goNext 0x203 ++ [(70, 4)]),
    (0x208, goBranch 0x1E 0 0x209 abortPage),
    (0x209, goNext 0x20A ++ cmd 0xD0),
    (0x20A, goWait 0x11 0x20F 0x20B ++ [(80, 20000), (78, 2)]),
    (0x20B, goBranch 0x35 0 0x21A 0x21B),
    (0x20C, goNext 0x20D ++ [(120, 6), (58, 1)]),
    (0x20D, goBranch 0x08 0 0x20E 0x21C),
    (0x20E, goBranch 0x37 0 0x20A 0x008),
    (0x20F, goBranch 0x29 0 0x210 0x211),
    (0x210, goBranch 0x3B 0 0x212 0x220),
    (0x211, goWait 0x0A 0x20B 0x20B ++ [(80, 20000), (78, 2)]),
    (0x212, goNext 0x240 ++ [(112, 2)] ++ jset 15 1 0),
    (0x213, goNext 0x20B ++ jset 15 1 0),
    (0x215, goNext 0x211 ++ jset 15 1 0),
    (0x216, goNext 0x217 ++ jset 15 1 0),
    (0x217, goBranch 0x02 0 0x218 0x219 ++ [(58, 5), (96, 2)]),
    (0x218, endWord),
    (0x219, goNext 0x00C ++ [(112, 1)] ++ jset 15 1 0),
    (0x21A, goBranch 0x01 0 0x20E 0x21B),
    (0x21B, poll78 0x20C),
    (0x21C, goBranch 0x1F 0 0x217 suspPage) ]

/-- An erase that Dirad's own suspend has stopped, and one that a nested read has interrupted: its clamps return and its LUN is
deselected; told to abort, it ends without a resume; while WFENCE holds it waits, serving reads; then it asks for its clamps and
resumes the die, unless it has been told to abort by then (R197, R200, R446 to R450, R459; log entry 131). -/
def suspWords : List (Nat × List (Nat × Nat)) :=
  [ (suspPage, goNext 0x051 ++ [(24, 0x40)]),
    (0x051, goBranch 0x1E 0 0x052 0x05E ++ [(104, 3)]),
    (0x052, goBranch 0x1C 0 0x05A 0x053),
    (0x053, goWait 0x11 0x054 0x051 ++ [(80, 20000), (78, 2)]),
    (0x054, goBranch 0x29 0 0x055 0x05D),
    (0x055, goBranch 0x3B 0 0x056 0x058),
    (0x056, goNext 0x057 ++ [(112, 2)] ++ jset 15 1 0),
    (0x057, goNext 0x05B ++ jset 14 6 2),
    (0x058, goNext 0x059 ++ jset 11 6 2),
    (0x059, goNext 0x232 ++ jset 9 6 5),
    (0x05A, goNext 0x05C ++ selectJ2 ++ [(96, 1), (24, 2)]),
    (0x05B, goNext 0x252 ++ jset 12 6 5),
    (0x05C, goBranch 0x1E 0 0x060 0x05E),
    (0x05D, goWait 0x0A 0x051 0x051 ++ [(80, 20000), (78, 2)]),
    (0x05E, goNext 0x009 ++ [(24, 0x40), (96, 2)] ++ setOutcome 6),
    (0x060, goNext 0x20A ++ dieCmd 3),
    (0x062, goNext 0x051 ++ jset 15 1 0) ]

/-- The nesting part of the erase sequence from word `b` on, as 0x194 to 0x1AE of Program 2: J5, J0 and J2 are kept from
J`v` on, and the sequence goes on at `status`, `timer`, `report`, or after a suspend at `back`. -/
def nestWords (b v status timer report back : Nat) : List (Nat × List (Nat × Nat)) :=
  let call := fun (n : Nat) (back : Nat) =>
    [ (b + n, goCall (b + n + 1) 0x010),
      (b + n + 1, goNext (b + n + 2) ++ jset 5 7 (v - 8)),
      (b + n + 2, goNext (b + n + 3) ++ jset 0 7 (v - 7)),
      (b + n + 3, goNext back ++ jset 2 7 (v - 6)) ]
  [ (b, goNext (b + 1) ++ jset (v + 2) 6 2 ++ [(50, 2)]),
    (b + 1, goBranch 0x3C 1 (b + 2) timer),
    (b + 2, goNext (b + 3) ++ jset 2 4 1),
    (b + 3, goBranch 0x30 0 (b + 4) (b + 11) ++ selectJ2),
    (b + 4, goNext (b + 5) ++ jset v 6 5),
    (b + 5, goNext (b + 6) ++ jset (v + 1) 6 0 ++ [(104, 3)]) ]
  ++ call 6 (b + 10) ++
  [ (b + 10, goNext status ++ selectJ2 ++ [(96, 1)]),
    (b + 11, goBranch 0x32 1 (b + 12) (b + 23)),
    (b + 12, goNext (b + 13) ++ dieCmd 2),
    (b + 13, poll78 (b + 14)),
    (b + 14, goNext (b + 15) ++ [(120, 6), (58, 1)]),
    (b + 15, goBranch 0x08 0 (b + 24) (b + 16)),
    (b + 16, goBranch 0x1F 1 (b + 17) report),
    (b + 17, goNext (b + 18) ++ [(24, 0x40), (74, 4)] ++ jset v 6 5),
    (b + 18, goNext (b + 19) ++ jset (v + 1) 6 0 ++ [(104, 3)]) ]
  ++ call 19 back ++
  [ (b + 23, goNext timer ++ jset 2 7 (v - 6)),
    (b + 24, goBranch 0x37 0 (b + 13) 0x008) ]

/-- TRAIN: MOVER_DONE, then for an apply its check, one read of 512 bytes of the page register, and for a search with the
training pattern the pattern's write and read; END_JOB (R203, R206, R207). HOLDUP starts none. -/
def trainWords : List (Nat × List (Nat × Nat)) :=
  [ (0x290, goNext 0x291 ++ jset 2 4 1 ++ [(74, 2), (112, 16)]),
    (0x291, goNext 0x292 ++ jset 6 2 0 ++ selectJ2),
    (0x292, goWait 0x15 0x293 0),
    (0x293, goBranch 0x1D 0 0x294 abortPage),
    (0x294, goBranch 0x3E 0 0x295 0x296),
    (0x295, goCall 0x2A1 0x2A2),
    (0x296, goCall 0x2A1 0x2A9),
    (0x2A1, endWord) ]

/-- The training pattern: written to the page register from the job data buffer, and read back, with no array operation
(R203). -/
def patternWords : List (Nat × List (Nat × Nat)) :=
  [ (0x2A2, goNext 0x2A3 ++ cmd 0x80 ++ jset 0 5 0),
    (0x2A3, goNext 0x2A4 ++ addr0),
    (0x2A4, goCall 0x2A5 0x030 ++ addr0),
    (0x2A5, goNext 0x2A6 ++ [(120, 4), (66, 5)]),
    (0x2A6, goWait 0x15 0x2A9 0),
    (0x2A9, goNext 0x2AA ++ cmd 0x05),
    (0x2AA, goNext 0x2AB ++ addr0),
    (0x2AB, goNext 0x2AC ++ addr0),
    (0x2AC, goNext 0x2AD ++ cmd 0xE0 ++ [(66, 3)]),
    (0x2AD, goNext 0x2AE ++ [(120, 5), (96, 5)]),
    (0x2AE, goWait 0x15 0x2AF 0),
    (0x2AF, retWord) ]

/-- Routines that TRAIN calls: wait ready, target reset, read ID, parameter page, target and LUN features, ZQ, LUN reset,
the training commands, and the resumes of R190 (R190, R191, R203). Parameters stand in J10, a feature address in J8. -/
def serviceWords1 : List (Nat × List (Nat × Nat)) :=
  [ (0x2B0, goNext 0x2B1 ++ cmd 0xFF),
    (0x2B1, goBranch 0x35 0 0x2B5 0x2B2),
    (0x2B2, poll78 0x2B3),
    (0x2B3, goNext 0x2B4 ++ [(120, 6), (58, 1)]),
    (0x2B4, goBranch 0x08 0 0x2B2 0x2B6),
    (0x2B5, goWait 0x01 0x2B6 0),
    (0x2B6, retWord),
    (0x2B8, goNext 0x2B9 ++ cmd 0x90),
    (0x2B9, goNext 0x2BA ++ addr0),
    (0x2BA, goNext 0x2BB ++ [(120, 9), (112, 8), (66, 4)]),
    (0x2BB, goWait 0x15 0x2B6 0),
    (0x2C0, goNext 0x2C1 ++ cmd 0xEC),
    (0x2C1, goNext 0x2C2 ++ addr0),
    (0x2C2, goCall 0x2C3 0x2B1),
    (0x2C3, goNext 0x2C4 ++ [(74, 2), (112, 8)]),
    (0x2C4, goNext 0x2C5 ++ jset 6 2 0 ++ [(66, 4)]),
    (0x2C5, goNext 0x2C6 ++ [(120, 5)]),
    (0x2C6, goNext 0x2C7 ++ [(120, 5)]),
    (0x2C7, goNext 0x2BB ++ [(120, 5)]) ]

def serviceWords2 : List (Nat × List (Nat × Nat)) :=
  [ (0x2C8, goNext 0x2C9 ++ cmd 0xEF),
    (0x2C9, goNext 0x2CA ++ [(120, 3), (108, 9)]),
    (0x2CA, retWord ++ [(120, 7)]),
    (0x2CC, goNext 0x2CD ++ cmd 0xEE),
    (0x2CD, goNext 0x2CE ++ [(120, 3), (108, 9)]),
    (0x2CE, retWord ++ [(120, 8)]),
    (0x2D0, goNext 0x2D1 ++ cmd 0xD5),
    (0x2D1, goNext 0x2C9 ++ [(120, 3), (108, 5)]),
    (0x2D2, goNext 0x2D3 ++ cmd 0xD4),
    (0x2D3, goNext 0x2CD ++ [(120, 3), (108, 5)]),
    (0x2D4, retWord ++ [(120, 0xB)]),
    (0x2D5, goNext 0x2B1 ++ dieCmd 0xD),
    (0x2D8, retWord ++ dieCmd 4),
    (0x2D9, retWord ++ dieCmd 5),
    (0x2DA, retWord ++ dieCmd 6),
    (0x2DB, retWord ++ dieCmd 7),
    (0x2E0, goNext 0x2E1 ++ [(112, 0x20)] ++ jset 5 1 3),
    (0x2E1, goNext 0x2E2 ++ selectJ2 ++ [(24, 3)]),
    (0x2E2, goNext 0x2B1 ++ dieCmd 1),
    (0x2E4, goNext 0x2E5 ++ [(112, 0x30)] ++ jset 5 1 3),
    (0x2E5, goNext 0x2E6 ++ selectJ2 ++ [(24, 2)]),
    (0x2E6, goNext 0x2B1 ++ dieCmd 3) ]

/-- Every word of the base library that the model gives. The listings of Programs 1 and 2 hold no ABORT_REQ test although
R170 has the library make one before each array-start: the model makes it beside them (firstCycle; log entry 78). -/
def listedWords : List (Nat × List (Nat × Nat)) :=
  gateWords ++ abortWords ++ readWords1 ++ readWords2 ++ programWords1 ++ programWords2 ++ programWords3
    ++ eraseWords ++ suspWords ++ nestWords 0x220 9 0x20B 0x211 0x217 0x051 ++ nestWords 0x240 12 0x213 0x215 0x216 0x062
    ++ featureWords ++ retryWords ++ senseWords ++ trainWords ++ patternWords ++ serviceWords1 ++ serviceWords2

/-- The trap word (R160). -/
def trapWord : BitVec 160 := 0xC001C00000010000000000000000000000000000

/-- The base library image: the words given, the trap word from 0x600 on, and the other words, of which nothing is known
but that their parity is right (log entry 7). -/
def baseWord (a : Nat) : BitVec 160 :=
  match listedWords.lookup a with
  | some l => asm l
  | none => if 0x600 ≤ a then trapWord else withParity (Config.vendorWord a).toNat

/-- A store with one word changed; a word that equals the base word is not listed (log entry 5). -/
def putStore (l : List (Nat × BitVec 160)) (a : Nat) (w : BitVec 160) : List (Nat × BitVec 160) :=
  if w == baseWord a then dropKey a l else putAsc a w l

/-- The customer region (R155). -/
def custWord (a : Nat) : Bool := 0x600 ≤ a

/-- The word at an address of a jig's store. -/
def storeWord (ch a : Nat) (s : State) : BitVec 160 :=
  match (jigAt ch s).store.lookup a with
  | some w => w
  | none => baseWord a

/-- An upset inverts bits of a stored word. -/
def upsetWord (ch a : Nat) (mask : BitVec 160) (s : State) : State :=
  if mask == 0 then s
  else
    let w := storeWord ch a s ^^^ mask
    modJig ch (fun g => { g with store := putStore g.store a w }) s

end Sys2Proof.Machine
end

