-- ==== Sys2Proof/Machine/Services.lean ====
section
/-!
DEFINITION. Rows that are read together: step 6 of the ladder, and the rows of rebuild, patrol and refit (R280, R336 to R339,
R347 to R354, R358, R363). One command takes a row in hand and places its reads; once these have ended the next one goes on
with it (log entry 13).
-/
namespace Sys2Proof.Machine

/-! ### The directory entry of a row (R323) -/

/-- The directory entry and the member lines of a group are in the caches (R323). -/
def entryCached (g : Nat) (s : State) : Bool :=
  s.stripe.cache.contains g && (memberLines g s).all (fun p => s.stripe.lines.contains p)

/-- A row uses its group's directory entry: out of the caches, or read from the window, which answers `w`. After a fabric error
that read is held until it is issued again, and the row waits (R323, R593). A follower uses what its DIRECTORY messages brought
(R414). Answers whether the row goes on. -/
def useEntry (g : Nat) (w : HostRead) (s : State) : Bool × State :=
  if !s.stripe.granted || s.modes.follower || s.stripe.dirEntries ≤ g then (true, s)
  else if s.stripe.missing.contains g || s.stripe.readHeld.contains g || !(hostReady s) then (false, s)
  else if entryCached g s then (true, cacheTouch g s)
  else
    let s := fetchHost (.dirRead g) [(winBase s + s.stripe.dirOff + 256 * g, 256)] s
    match w with
    | .ok _ => (true, cacheTouch g s)
    | .err => (false, { s with stripe := { s.stripe with readHeld := s.stripe.readHeld ++ [g] } })

/-- A row is taken in hand once its directory entry is there. -/
def withEntry (g : Nat) (w : HostRead) (f : State → State) (s : State) : State :=
  let r := useEntry g w s
  if r.1 then f r.2 else r.2

/-! ### The reads of a row -/

/-- Codewords of one member's page that a row needs: `own` is read although the member does not serve there yet (R350). -/
structure Want where
  group : Nat
  member : Nat
  row : Nat
  mask : Nat := 0xFFFF
  scan : Bool := false
  own : Bool := false
deriving DecidableEq, Repr

/-- Codewords of a page as they start, at consecutive slots; a scan read takes two for each (R233). -/
def Want.cws (x : Want) (h lun slot : Nat) (tried : List (List Int)) : List Cw :=
  let k := if x.scan then 2 else 1
  let cs := (List.range 16).filter (fun c => bitAt x.mask c)
  (List.range cs.length).map (fun i =>
    { job := h, group := x.group, member := x.member, row := x.row, cw := cs.getD i 0, lun := lun, slot := slot + k * i
      wide := x.scan, tried := tried })

/-- Codewords join those in progress. -/
def addCws (l : List Cw) (s : State) : State := { s with sched := { s.sched with cws := s.sched.cws ++ l } }

/-- One member's page is read for a row; codewords of a member that cannot be read go straight to step 6 (R247, R283, R336).
None while no landing slots are free (R233). -/
def readWant (id prio : Nat) (x : Want) (s : State) : Option State :=
  if x.mask == 0 then some s
  else
    match findLanding s ((if x.scan then 2 else 1) * ones 16 x.mask) with
    | none => none
    | some slot =>
      let p := { memberPage x.group x.member x.row s with scan := x.scan }
      if memberGone x.group x.member x.row s && !x.own then
        let h := freeHandle s % 4096
        let j : Job := { handle := h, owner := .row id, lun := p.lun, prio := prio, state := .ended, group := x.group
                         member := x.member, row := x.row, block := p.block, page := x.row, profile := p.profile
                         cwMask := BitVec.ofNat 16 x.mask, buf := slot }
        let s := { s with sched := { s.sched with nextJob := (h + 1) % 4096, jobs := s.sched.jobs ++ [j] } }
        some (addCws ((x.cws h p.lun slot []).map (fun c => { c with state := .failed, step := 5 })) s)
      else
        let (off, tag) := firstSet p.lun p.block p.page s
        let (h, s) := addRead (.row id) p x.mask slot prio 0 tag off s
        some (addCws (x.cws h p.lun slot [off]) s)

/-- All the pages of a row are read, or none of them while landing slots are short. -/
def readWants (id prio : Nat) (l : List Want) (s : State) : Option State :=
  l.foldl (fun acc x => acc.bind (readWant id prio x)) (some s)

/-- The reads of a row have ended. -/
def runQuiet (id : Nat) (s : State) : Bool := (runCws id s).all (fun c => c.state == .decoded || c.state == .lost)

/-- The label of a scan read is that of the parity codeword which was to be read (R223, R236). -/
def scanFits (c : Cw) (l : List Byte) (s : State) : Bool :=
  byteAt l 0 == (if c.member == (dirAt c.group s).width then 2 else 3) && byteAt l 2 == c.member && byteAt l 3 == c.cw
    && leAt l 4 3 == c.group && leAt l 8 4 == c.row

/-- A codeword that gave nothing. -/
def readNone (c : Cw) : MemberRead := { member := c.member, cw := c.cw, erased := c.erased }

/-- A codeword read without its label, of which the record gives the kind (R233, R242). -/
def readBare (c : Cw) (d : List Byte × Bool × State) : MemberRead × Bool × State :=
  ({ readNone c with data := some d.1, label := [BitVec.ofNat 8 c.kind] }, d.2.1, d.2.2)

/-- A codeword read with its label (R233). -/
def readLabelled (c : Cw) (user : List Byte) (ok fits : Bool) (l : List Byte × Bool × State) : MemberRead × Bool × State :=
  (if fits then { readNone c with data := some user, label := l.1 } else readNone c, ok && l.2.1, l.2.2)

/-- What a codeword read for a row gave, out of its landing slots; false when a word there is uncorrectable (R563). -/
def readOf (c : Cw) (s : State) : MemberRead × Bool × State :=
  let d := sramRead (landOff c.slot) 4096 s
  let l := sramRead (landOff (c.slot + 1)) 32 d.2.2
  if c.state != .decoded then (readNone c, true, s)
  else if c.wide then readLabelled c d.1 d.2.1 (scanFits c l.1 s) l
  else readBare c d

/-- One more codeword. -/
def gatherStep (acc : List MemberRead × Bool × State) (c : Cw) : List MemberRead × Bool × State :=
  let r := readOf c acc.2.2
  (acc.1 ++ [r.1], acc.2.1 && r.2.1, r.2.2)

/-- What codewords read for a row gave. -/
def gather (cs : List Cw) (s : State) : List MemberRead × Bool × State := cs.foldl gatherStep ([], true, s)

/-- The codewords of a member that a row reads: those of data in the loss ledger are lost already (R336). -/
def wantMask (g m r mask : Nat) (s : State) : Nat :=
  if (dirAt g s).width ≤ m then mask
  else bitsOf ((List.range 16).map (fun c => bitAt mask c && !(inLedger g m r c s)))

/-- Members of a row that can give a codeword: data members in DATA_MASK, P and Q, unless they are gone (R303, R336). -/
def givers (g r : Nat) (s : State) : List Nat :=
  let w := (dirAt g s).width
  (List.range (w + 2)).filter (fun m => (w ≤ m || bitAt (rowMask g r s) m) && !(memberGone g m r s))

/-- A member's page as a row reads it: P and Q as scan reads, for their seal (R233, R301; DESIGN CHOICE, log entry 83). -/
def wantOf (g r mask : Nat) (s : State) (m : Nat) : Want :=
  { group := g, member := m, row := r, mask := wantMask g m r mask s, scan := decide ((dirAt g s).width ≤ m) }

/-! ### Step 6 (R280, R336 to R338) -/

/-- Losses of one codeword index of a row entered once: every data member in E (R337, R338). -/
def enterIndex (g r c mask cause : Nat) (reads : List MemberRead) (s : State) : State :=
  (lostData g r c mask reads s).foldl (fun s m =>
    if inLedger g m r c s then s else addLoss g m r (2 ^ c) cause s) s

/-- The user bytes of member `m`'s codeword from the others: data, P or Q; none when too many are missing (R337). -/
def rebuildOne (g m r c mask : Nat) (others : List MemberRead) (s : State) : Option (List Byte) :=
  let w := (dirAt g s).width
  if 2 < (erasures g r c mask others s).length then none
  else
    let ds := knownData g r c mask others s
    if m < w then ds.lookup m
    else if m == w then some (parityP ds) else some (parityQ ds)

/-- The codeword that step 6 rebuilds, from what the other members of its row gave; a member outside the row's DATA_MASK reads
as zeros (R303); else the loss is entered and the codeword is lost with DETAIL 0x02 (R251, R280, R338). -/
def rebuildCodeword (c : Cw) (got : List MemberRead) (s : State) : State :=
  let mask := maskWith c.group c.row got s
  if c.member < (dirAt c.group s).width && !bitAt mask c.member then landCw { c with step := 6 } zeroCw s else
  match rebuildOne c.group c.member c.row c.cw mask got s with
  | some d =>
    let s := match c.eid with
      | some e => modEntry e (fun e => { e with rebuilt := true }) s
      | none => s
    landCw { c with step := 6 } d (countResolved 6 s)
  | none =>
    let before := s.evq.rseq
    let s := enterIndex c.group c.row c.cw mask 1 got s
    let s := { s with recov := { s.recov with lost := s.recov.lost + 1 } }
    match c.eid with
    | some e =>
      let s := dropJobs (loseCw e 2 (dropCw c.job c.cw s))
      if s.evq.rseq == before then s else awaitRecord e s
    | none => modCw c.job c.cw (fun c => { c with state := .lost }) s

/-- Step 6 begins: codeword `c` of the other members of the row is read, at the priority of the read (R253, R280). -/
def beginStepSix (c : Cw) (s : State) : State :=
  let id := s.bg.nextRun
  let others := (givers c.group c.row s).filter (· != c.member)
  let run : RowRun := { service := .reconstruct, group := c.group, row := c.row, member := c.member, job := c.job, cw := c.cw }
  match readWants id (cwPrio c s) (others.map (wantOf c.group c.row (2 ^ c.cw) s)) (takeRow run s) with
  | some t => modCw c.job c.cw (fun x => { x with state := .recovering, step := 6 }) (noteLadder c 6 false t)
  | none => s

/-- Step 6 ends, once every codeword it reads has been decoded or is lost (R280). -/
def endStepSix (run : RowRun) (s : State) : State :=
  match cwOf run.job run.cw s with
  | some c =>
    let (got, ok, s) := gather (runCws run.id s) s
    if ok then rebuildCodeword c got (endRow run.id s) else s
  | none => endRow run.id s

/-- Step 6 of a codeword. -/
def stepSixOf (job cw : Nat) (s : State) : Option RowRun :=
  s.bg.runs.find? (fun r => r.service == .reconstruct && r.job == job && r.cw == cw)

/-- RECONSTRUCTION: step 6 of a codeword begins, or ends once the other members' codewords are there (R248, R280). -/
def execReconstruction (job cw : Nat) (w : HostRead) (s : State) : Out :=
  .next <|
    match stepSixOf job cw s with
    | some run => if runQuiet run.id s then endStepSix run s else s
    | none =>
      match (climbers job 6 s).find? (fun c => c.cw == cw) with
      | some c => if ladderRuns s then withEntry c.group w (beginStepSix c) s else s
      | none => s

/-- A row in hand has nothing left to serve: its codeword is no longer at step 6, or its group has gone. -/
def runStale (s : State) (r : RowRun) : Bool :=
  match r.service with
  | .reconstruct => !((cwOf r.job r.cw s).any (fun c => c.state == .recovering))
  | .refit => false
  | _ => !(groupExists r.group s)

/-- Rows with nothing left to serve are out of hand. -/
def settleRuns (s : State) : State := endRows (runStale s) s

/-! ### Rebuild (R345 to R350) -/

/-- The parity member that a rebuild reads first: the first that is not the one rebuilt and not gone (R337, R347). -/
def firstParity (g m r : Nat) (s : State) : Option Nat :=
  (givers g r s).find? (fun x => (dirAt g s).width ≤ x && x != m)

/-- What a rebuild reads of a row at first: the other data members and one parity member, and after a reset the spare's page
(R347, R350). -/
def rebuildWants (g m r : Nat) (s : State) : List Want :=
  ((givers g r s).filter (fun x => x != m && (x < (dirAt g s).width || firstParity g m r s == some x))).map
      (wantOf g r 0xFFFF s)
    ++ (if s.bg.rebuildState == 2 then [{ group := g, member := m, row := r, own := true }] else [])

/-- What a rebuild needs besides: the other parity member's codewords of the indices that lack another member's (R337,
R347). -/
def moreWants (g m r : Nat) (reads : List MemberRead) (s : State) : List Want :=
  let mask := maskWith g r reads s
  let q := firstParity g m r s
  match (givers g r s).find? (fun x => (dirAt g s).width ≤ x && x != m && q != some x) with
  | some x =>
    let lacks (c : Nat) : Bool := (erasures g r c mask reads s).any (fun y => y != m && y != x)
    [wantOf g r (bitsOf ((List.range 16).map lacks)) s x]
  | none => []

/-- A row of the member is taken in hand and read (R347). -/
def beginRebuildRow (s : State) : State :=
  let g := s.bg.curGroup
  let m := s.bg.curMember
  let r := s.bg.pointer
  let id := s.bg.nextRun
  match readWants id 3 (rebuildWants g m r s) (takeRow { service := .rebuild, group := g, row := r, member := m } s) with
  | some t => t
  | none => s

/-- The page of the member goes to its spare (R347). -/
def programSpare (run : RowRun) (page : List PageCw) (sealW : BitVec 96) (s : State) : State :=
  let s := modRun run.id (fun x => { x with phase := .programming, page := page, sealW := sealW }) (dropReads run.id s)
  programMember (.spare run.id) run.group run.member run.row 3 (bgHandle run.id) 0 sealW
    { s with bg := { s.bg with rebuildState := 1 } }

/-- After a reset the spare's page holds what was programmed: every codeword decodes with its label, or is a sentinel (R339,
R350). -/
def spareKept (page : List PageCw) (own : List MemberRead) : Bool :=
  (List.range 16).all (fun c => page.getD c {} == sentinelCw || own.any (fun x => x.cw == c && x.data.isSome))

/-- A row of the member from what its reads gave (R347, R350): programmed; after a reset kept, or left as found. -/
def endRebuildRow (run : RowRun) (all : List MemberRead) (s : State) : State :=
  let own := all.filter (fun x => x.member == run.member)
  let reads := all.filter (fun x => x.member != run.member)
  let (mask, sw, s) := rebuildSeal run.group run.member (maskWith run.group run.row reads s) reads s
  let s := enterLosses run.group run.row mask 2 reads s
  let page := (List.range 16).map (fun c => rebuildCw run.group run.member run.row c mask reads s)
  if own.isEmpty || own.all (·.erased) then programSpare run page (BitVec.ofNat 96 sw) s
  else
    let s := if spareKept page own then s else bgEvent 117 run.group run.member run.row s
    reachEnd (advance (endRow run.id s))

/-- A row of the member goes on once its reads have ended (R337, R347). -/
def stepRebuild (run : RowRun) (s : State) : State :=
  let (reads, ok, s) := gather (runCws run.id s) s
  let more := if run.wave == 0 then
    (moreWants run.group run.member run.row (reads.filter (fun x => x.member != run.member)) s).filter (fun x => x.mask != 0)
    else []
  if !ok then s
  else if more.isEmpty then endRebuildRow run reads s
  else
    match readWants run.id 3 more s with
    | some t => modRun run.id (fun x => { x with wave := 1 }) t
    | none => s

/-- The next member of the running rebuild begins; with none left the rebuild ends (R345, R347). -/
def startMember (r : Rebuild) (s : State) : State :=
  match (concerned r.group r.failedLun s).find? (fun g => r.next ≤ g) with
  | some g =>
    let e := dirAt g s
    let m := (e.members.findIdx? (fun w => w.lun == r.failedLun && w.mstate == 1)).getD 0
    if !(e.members.all (fun w => reachable w.lun s)) || !(poolServes r.poolIdx s) then
      abandonMember { s with bg := { s.bg with curGroup := g, curMember := m, failedWord := memberAt g m s } }
    else beginMember r g m 0 s
  | none => popRebuild s

/-- The rebuild goes on with the next group. -/
def nextGroup (s : State) : State :=
  let s := leaveMember s
  { s with bg := { s.bg with queue := s.bg.queue.modify 0 (fun r => { r with next := s.bg.curGroup + 1 }) } }

/-- REBUILD_ROW: the running rebuild takes its next step: a member begins, or a row of it, once it is sealed, is read; once the
reads have ended the row is programmed (R347 to R350). -/
def execRebuildRow (w : HostRead) (s : State) : Out :=
  .next <|
    match s.bg.queue with
    | [] => s
    | r :: _ =>
      if !(bgRuns s) || s.bg.erasing then s
      else
        match runOf .rebuild s with
        | some run => if run.phase == .reading && runQuiet run.id s then stepRebuild run s else s
        | none =>
          if !s.bg.active then startMember r s
          else if !(groupExists s.bg.curGroup s) then nextGroup s
          else if !(groupReachable s.bg.curGroup s) then abandonMember s
          else if s.bg.pointer < (dirAt s.bg.curGroup s).nextRow then
            if (findSlot s.bg.curGroup s.bg.pointer s).isSome then s else withEntry s.bg.curGroup w beginRebuildRow s
          else reachEnd s

/-- A program on the spare has ended (R347, R349). -/
def spareEnd (id outcome : Nat) (s : State) : State :=
  match runAt id s with
  | some _ =>
    if outcome == 0 then reachEnd (advance (endRow id s))
    else if outcome == 6 then endRow id s
    else spareFailed s
  | none => s

/-- A page that recovery programs has ended; a failure declares its member failed (R316, R328). -/
def repairEnd (id outcome : Nat) (s : State) : State :=
  match runAt id s with
  | some run =>
    let s := endRow id s
    if 1 ≤ outcome && outcome ≤ 4 then programDown run.group run.member s else s
  | none => s

/-- The erase of the spare block has ended (R347, R349); a member retired meanwhile is not rebuilt (R331). -/
def spareErased (outcome : Nat) (s : State) : State :=
  match s.bg.erasing, s.bg.queue with
  | true, r :: _ =>
    if outcome == 6 then s
    else if outcome != 0 then spareFailed { s with bg := { s.bg with erasing := false } }
    else if (memberAt s.bg.curGroup s.bg.curMember s).mstate == 3 then nextGroup s
    else reachEnd (memberBegun r s)
  | _, _ => s

/-! ### Patrol (R351 to R354) -/

/-- A sealed row is taken in hand and read; the next one starts 1/patrolRate s later at the earliest (R352). -/
def beginPatrolRow (g r : Nat) (s : State) : State :=
  let id := s.bg.nextRun
  match readWants id 3 ((givers g r s).map (wantOf g r 0xFFFF s)) (takeRow { service := .patrol, group := g, row := r } s) with
  | some t =>
    { t with bg := { t.bg with
        lapStart := some (s.bg.lapStart.getD s.now)
        patrolNext := s.now + (1000000 + cfg 0x2900 3 s - 1) / max 1 (cfg 0x2900 3 s) } }
  | none => s

/-- The row is checked against P and Q (R353, R354). -/
def endPatrolRow (run : RowRun) (s : State) : State :=
  let (reads, ok, s) := gather (runCws run.id s) s
  if ok then patrolOne run.group run.row reads (endRow run.id s) else s

/-- PATROL_ROW: the next sealed row is read, or, once its reads have ended, checked; after the last row of the highest group the
lap ends (R351, R352). -/
def execPatrolRow (w : HostRead) (s : State) : Out :=
  .next <|
    let s := patrolUpdate s
    match runOf .patrol s with
    | some run => if runQuiet run.id s then endPatrolRow run s else s
    | none =>
      if !(patrolRuns s) then s
      else
        match nextPatrol s s.bg.patrolGroup s.bg.patrolRow with
        | some (g, r) =>
          if s.bg.patrolNext ≤ s.now && drawersIdle g s && groupReachable g s then withEntry g w (beginPatrolRow g r) s
          else s
        | none => if s.bg.patrolGroup == 0 && s.bg.patrolRow == 0 then s else newLap true s

/-! ### Refit (R358, R361, R363) -/

/-- Units of the target row in hand, one for each data member it fills (R357). -/
def rowFill (s : State) : List (Nat × Nat × Nat) :=
  slice (unitStream s.bg.sources s) s.bg.unit ((targetEntries s).getD s.bg.target {}).width

/-- A unit's page as the refit reads it (R358). -/
def unitWant (s : State) (u : Nat × Nat × Nat) : Want :=
  { group := u.1, member := u.2.2, row := u.2.1, mask := wantMask u.1 u.2.2 u.2.1 0xFFFF s }

/-- The codeword of a unit that the refit has read. -/
def unitCw (id : Nat) (u : Nat × Nat × Nat) (c : Nat) (s : State) : Option Cw :=
  (runCws id s).find? (fun x => x.group == u.1 && x.member == u.2.2 && x.row == u.2.1 && x.cw == c && x.state == .decoded)

/-- What a refit reads of its row at each turn: after a reset P and Q, then the data members, of the target; the units
(R358, R363). -/
def refitWants (run : RowRun) (s : State) : List Want :=
  let w := (dirAt run.group s).width
  match run.wave with
  | 0 => [w, w + 1].map (fun m => { group := run.group, member := m, row := run.row, scan := true, own := true })
  | 2 => (List.range w).map (fun m => { group := run.group, member := m, row := run.row, own := true })
  | _ => (rowFill s).map (unitWant s)

/-- The reads of a row's turn are placed (R358). -/
def placeRefit (run : RowRun) (s : State) : State :=
  match readWants run.id 3 (refitWants run s) s with
  | some t => modRun run.id (fun x => { x with wave := x.wave + 1 }) t
  | none => s

/-- A codeword read for a page of data member `k`. -/
def pageAdd (k : Nat) (acc : List PageCw × Bool × State) (d : List Byte × Bool × State) : List PageCw × Bool × State :=
  (acc.1 ++ [{ user := d.1, kind := 1, member := k }], acc.2.1 && d.2.1, d.2.2)

/-- Codeword `c` of data member `k` of the target row: the unit's, or a sentinel where it is lost; a pad where the last row
holds no unit (R302, R339, R357, R358). -/
def pageStep (id k : Nat) (u : Option (Nat × Nat × Nat)) (acc : List PageCw × Bool × State) (c : Nat) :
    List PageCw × Bool × State :=
  match u with
  | none => (acc.1 ++ [padCw k], acc.2)
  | some u =>
    match unitCw id u c acc.2.2 with
    | some x => pageAdd k acc (sramRead (landOff x.slot) 4096 acc.2.2)
    | none => (acc.1 ++ [sentinelCw], acc.2)

/-- The page of data member `k` of the target row (R358). -/
def targetPage (id k : Nat) (u : Option (Nat × Nat × Nat)) (s : State) : List PageCw × Bool × State :=
  (List.range 16).foldl (pageStep id k u) ([], true, s)

/-- The row is sealed with FORM 0x4: its slot holds every unit (R299, R358). -/
def sealTarget (run : RowRun) (s : State) : State :=
  match findSlot run.group run.row s with
  | some i =>
    let s := modRun run.id (fun x => { x with phase := .sealing }) (dropReads run.id s)
    sealSlot i (writeDir run.group (fun e => { e with nextRow := run.row + 1 }) s)
  | none => s

/-- The next data member of the row is programmed, one at a time; after the last the row is sealed (R358). Members that a reset
left whole or cut off are passed over (R363). -/
def programNext (id : Nat) (s : State) : State :=
  match runAt id s with
  | some run =>
    let todo (k : Nat) : Bool := run.member ≤ k && !(run.kept.contains k) && !(run.cut.contains k)
    match (List.range (dirAt run.group s).width).find? todo with
    | some k =>
      let (page, ok, s) := targetPage id k ((rowFill s)[k]?) s
      if ok then
        programMember (.target id k) run.group k run.row 3 (bgHandle id) 0 0
          (modRun id (fun x => { x with page := page, member := k }) s)
      else s
    | none => sealTarget run s
  | none => s

/-- A unit's codewords folded into the row's slot as member `k` (R298, R358). -/
def foldUnit (id i k : Nat) (u : Nat × Nat × Nat) (s : State) : State :=
  (List.range 16).foldl (fun s c =>
    match unitCw id u c s with
    | some x =>
      let d := sramRead (landOff x.slot) 4096 s
      foldCw i k c d.1 d.2.2
    | none => s) s

/-- Lost codewords of the row enter the ledger at their target position with CAUSE 0x03 (R358). -/
def refitLosses (id g row : Nat) (us : List (Nat × Nat × Nat)) (s : State) : State :=
  ((List.range us.length).map (fun m => (m, bitsOf ((List.range 16).map (fun c =>
    (unitCw id (us.getD m (0, 0, 0)) c s).isNone && !(inLedger g m row c s)))))).foldl
    (fun s p => if p.2 == 0 then s else addLoss g p.1 row p.2 3 s) s

/-- The units of the row are there: they are folded into a slot, and its first data member is programmed (R358); the first row
found all erased ends the resuming (R363). -/
def copyRow (run : RowRun) (s : State) : State :=
  let (_, ok, s) := gather (runCws run.id s) s
  match ok, freeSlot run.group s with
  | true, some i =>
    let us := rowFill s
    let ms := List.range us.length
    let s := { s with bg := { s.bg with
      refitState := if s.bg.refitState == 3 && (!run.kept.isEmpty || !run.cut.isEmpty) then 3 else 1 } }
    let s := refitLosses run.id run.group run.row us s
    let s := modSlot i (fun k => { k with dataMask := ms, folded := ms, form := 4, passed := run.kept, asFound := run.cut })
      (assignSlot i run.group run.row s)
    let s := ms.foldl (fun s k => foldUnit run.id i k (us.getD k (0, 0, 0)) s) s
    programNext run.id (modRun run.id (fun x => { x with phase := .programming, member := 0 }) s)
  | _, _ => s

/-- The target row ends: the refit goes on with the next one (R358, R360). -/
def endTargetRow (run : RowRun) (s : State) : State :=
  let n := (rowFill s).length
  afterTargetRow n (unitStream s.bg.sources s).length (endRow run.id s)

/-- Members of a target row that a reset has cut off are counted, and the refit event tells each location (R363). -/
def countCut (run : RowRun) (cut : List Nat) (s : State) : State :=
  cut.foldl (fun s m => bgEvent 119 run.group m run.row
    { s with stats := { s.stats with refitCutUnits := s.stats.refitCutUnits + 1 } }) s

/-- After a reset: a row with a FORM 0x4 seal is adopted; a parity member that was cut off is counted (R363). -/
def judgeSeal (run : RowRun) (reads : List MemberRead) (s : State) : State :=
  match reads.find? (fun x => x.data.isSome && sealForm (leAt x.label 16 12) == 4) with
  | some x => endTargetRow run (adoptRow run.group run.row (leAt x.label 16 12) s)
  | none =>
    let w := (dirAt run.group s).width
    let cut := [w, w + 1].filter (fun m => !((reads.filter (fun x => x.member == m)).all (·.erased)))
    modRun run.id (fun x => { x with wave := 2, cut := cut }) (dropReads run.id (countCut run cut s))

/-- After a reset: each data member of an unsealed row is kept, is to be programmed, or was cut off; one that was is counted
(R363). A member is kept when a codeword of it decodes with its label (log entry 83). -/
def judgeMembers (run : RowRun) (reads : List MemberRead) (s : State) : State :=
  let ms := List.range (dirAt run.group s).width
  let of (m : Nat) : List MemberRead := reads.filter (fun x => x.member == m)
  let kept := ms.filter (fun m => (of m).any (·.data.isSome))
  let cut := ms.filter (fun m => !(kept.contains m) && !((of m).all (·.erased)))
  modRun run.id (fun x => { x with wave := 4, kept := kept, cut := x.cut ++ cut })
    (dropReads run.id (countCut run cut s))

/-- What the reads of a row's turn have shown. -/
def judgeRefit (run : RowRun) (s : State) : State :=
  match run.wave with
  | 1 | 3 =>
    let (reads, ok, s) := gather (runCws run.id s) s
    if !ok then s else if run.wave == 1 then judgeSeal run reads s else judgeMembers run reads s
  | _ => copyRow run s

/-- A target row in hand goes on (R358, R363). -/
def stepRefit (run : RowRun) (s : State) : State :=
  match run.phase with
  | .reading =>
    if run.wave % 2 == 0 then placeRefit run s
    else if runQuiet run.id s then judgeRefit run s else s
  | .programming =>
    if s.sched.jobs.any (fun j => match j.owner with | .target id _ => id == run.id | _ => false) then s
    else programNext run.id s
  | .sealing =>
    match findSlot run.group run.row s with
    | some i => if (slotAt i s).recNo.isSome then endTargetRow run s else s
    | none => endTargetRow run s

/-- The target group of the next row (R357). -/
def refitGroup (s : State) : Nat := ((targetEntries s).getD s.bg.target {}).group

/-- A target row may be taken in hand: the target erases have ended, the source rows are sealed, every LUN is within reach,
and a slot is free, of which a refit holds two at most (R356, R358, R361, R430). -/
def refitMay (s : State) : Bool :=
  (s.bg.refitState == 1 || s.bg.refitState == 3) && s.bg.queue.isEmpty && s.bg.refitErases == 0
    && (freeSlot (refitGroup s) s).isSome
    && (s.bg.sources ++ s.bg.targets).all (fun g => groupReachable g s)
    && !(s.stripe.slots.any (fun k => k.state != .free && s.bg.sources.contains k.group))
    && decide ((s.stripe.slots.filter (fun k => k.state != .free && s.bg.targets.contains k.group)).length < 2)

/-- The next target row is taken in hand (R358, R363). -/
def beginRefitRow (s : State) : State :=
  let id := s.bg.nextRun
  let wave := if s.bg.refitState == 3 then 0 else 4
  let s := takeRow { service := .refit, group := refitGroup s, row := s.bg.refitRow, wave := wave } s
  match runAt id s with
  | some run => placeRefit run s
  | none => s

/-- REFIT_ROW: one target row is read, copied and sealed, a turn at a time (R358, R363). -/
def execRefitRow (w : HostRead) (s : State) : Out :=
  .next <|
    if !(bgRuns s) then s
    else
      match runOf .refit s with
      | some run => stepRefit run s
      | none => if refitMay s then withEntry (refitGroup s) w beginRefitRow s else s

/-- A data member's program on a target has ended: its row record, and the next member; a failure abandons the refit (R310,
R358, R362). -/
def targetEnd (id m outcome : Nat) (s : State) : State :=
  match runAt id s with
  | some run =>
    if outcome == 6 then s
    else if outcome != 0 then abandonRefit 1 s
    else
      let s := match findSlot run.group run.row s with
        | some i =>
          let s := modSlot i (fun k => { k with passed := k.passed ++ [m] }) s
          (rowMembersRec run.group run.row (maskOf ((slotAt i s).passed.filter ((slotAt i s).dataMask.contains ·))) s).2
        | none => s
      let s := modRun id (fun x => { x with member := m + 1 }) s
      if bgRuns s then programNext id s else s
  | none => s

end Sys2Proof.Machine
end

