-- ==== Sys2Proof/Machine/JobEnd.lean ====
section
/-!
DEFINITION. What a drawer job brings to the rest of the block: its data at the codec, its end, and what each outcome
means for the work it served (R145, R151, R152, R154, R170, R231, R234, R235, R328 to R335, R364).
-/
namespace Sys2Proof.Machine

/-! ### Data at the codec (R234) -/

/-- The planes that a READ or SENSE job reads, ascending. -/
def Job.planeList (j : Job) : List Nat := (List.range 4).filter (fun p => bitAt (planesOf j.cwMask.toNat) p)

/-- Sensings that a codeword waits for (R278). -/
def sensingsDue (c : Cw) (s : State) : Nat := if c.step == 4 then 5 else cfg 0x2500 0x10 s

/-- A codeword's raw bytes, or one sensing of it, arrived complete (R234). -/
def arriveCw (j : Job) (kind sensing cw : Nat) (bs : List Byte) (s : State) : State :=
  let h := if kind == 2 then j.ctx.getD j.handle else j.handle
  match cwOf h cw s with
  | some c =>
    if c.state != .reading || bs.length != cwLen j.profile then s
    else if kind == 1 then
      let n := onesBytes bs
      queueDecode { c with raw := bs, lastOnes := n } (modCw h cw (fun x => { x with raw := bs, lastOnes := n }) s)
    else if c.sensings.any (fun x => x.1 == sensing) then s
    else
      let c := { c with sensings := c.sensings ++ [(sensing, bs)] }
      let s := modCw h cw (fun _ => c) s
      let s := match c.work with
        | some w => writeArea w (cwLen j.profile) (onesAt c) s
        | none => s
      if sensingsDue c s ≤ c.sensings.length then queueDecode c s else s
  | none => s

/-- A sensing of a truing search arrived (R268). -/
def arriveTruing (id sensing : Nat) (bs : List Byte) (s : State) : State :=
  match s.recov.searches.find? (fun q => q.id == id) with
  | some q =>
    if bs.length != cwLen q.profile || q.sensings.any (fun x => x.1 == sensing) then s
    else
      let q := { q with sensings := q.sensings ++ [(sensing, bs)] }
      let s := modSearch id (fun _ => q) s
      match q.work with
      | some w => writeArea w (cwLen q.profile) (cellValue q.sensings (lunBits q.lun s)) s
      | none => s
  | none => s

/-- The four codewords of a plane's burst, cut to L bytes each (R221, R234). -/
def cutBurst (j : Job) (kind sensing plane : Nat) (bs : List Byte) (s : State) : State :=
  (List.range 4).foldl (fun s k =>
    let c := 4 * plane + k
    let piece := slice bs (k * cwLen j.profile) (cwLen j.profile)
    if !bitAt j.cwMask.toNat c then s
    else
      match j.owner with
      | .truing id => arriveTruing id sensing piece s
      | _ => arriveCw j kind sensing c piece s) s

/-- A data-out burst reaches the codec: the job's next plane; data for a context that is not open is discarded (R234,
R235). -/
def takeBurst (kind handle sensing job : Nat) (bs : List Byte) (s : State) : State :=
  match jobAt job s with
  | some j =>
    if j.closed || j.buf != handle || j.state != .popped then s
    else
      match j.planeList[j.arrivedPlanes]? with
      | some p => cutBurst j kind sensing p bs (modJob job (fun j => { j with arrivedPlanes := j.arrivedPlanes + 1 }) s)
      | none => s
  | none => s

/-- The codeword that a search's sensing lacks, if it has not arrived (R235, R268). -/
def missingSensing (j : Job) (s : State) : Option Search :=
  let i := ((j.items.getLast?).map (fun it => fld it.toNat 32 4)).getD 0
  match j.owner with
  | .truing id => (s.recov.searches.find? (fun q => q.id == id)).filter (fun q => !(q.sensings.any (fun x => x.1 == i)))
  | _ => none

/-- RESULT 0x8 for a sensing of a search that did not arrive (R235, R244). -/
def noteSensing (j : Job) (s : State) : State :=
  match missingSensing j s with
  | some q => noteRecord 0 0 { job := j.handle, cw := q.slot, lun := q.lun } j { result := 8 } s
  | none => s

/-- A sensing of a search that did not arrive is repeated once; the second time the search is abandoned (R249, R271). -/
def missingTruing (j : Job) (id : Nat) (s : State) : State :=
  match missingSensing j s with
  | some q =>
    let i := ((j.items.getLast?).map (fun it => fld it.toNat 32 4)).getD 0
    let s := noteSensing j s
    if q.retried then abandonSearch q s
    else
      let page : Page := { lun := q.lun, block := q.block, page := j.page, profile := q.profile }
      (addSense (.truing id) page (2 ^ q.slot) (q.work.getD 0) q.prio 8 8 i q.off
        (modSearch id (fun q => { q with retried := true }) s)).2
  | none => s

/-- Selected codewords, or sensings of them, that a job has not brought whole (R235). -/
def missingCws (j : Job) (s : State) : List Cw :=
  let sense := j.items.any (fun it => itemType it == 5)
  let i := ((j.items.getLast?).map (fun it => fld it.toNat 32 4)).getD 0
  (cwsOf (if sense then j.ctx.getD j.handle else j.handle) s).filter (fun c => c.state == .reading
    && bitAt j.cwMask.toNat c.cw && !(sense && c.sensings.any (fun x => x.1 == i)))

/-- The page set of a job is over: every selected codeword that did not arrive receives RESULT 0x8 (R234, R235). -/
def closeSet (h : Nat) (s : State) : State :=
  match jobAt h s with
  | some j =>
    if j.closed then s
    else
      let s := modJob h (fun j => { j with closed := true }) s
      match j.owner with
      | .truing id => missingTruing j id s
      | _ => incompleteCws (missingCws j s) j s
  | none => s

/-! ### Data from the codec (R231, R234) -/

/-- The first CODEC 0x3 hand-off of a job starts the encoding of its page set (R231); with no encoder in service the job is
to end (R232). -/
def startEncoding (h handle : Nat) (s : State) : State :=
  match jobAt h s with
  | some j =>
    if j.buf == handle && !j.encoding && j.encoded == 0 && j.delivered == 0 && itemType (j.items.headD 0) == 2 then
      if kindUp 0 s then assignEncoders (modJob h (fun j => { j with encoding := true }) s) else noEncoder j s
    else s
  | none => s

/-- Bytes of a job's page set in the channel write queue. -/
def queuedBytes (h : Nat) (s : State) : Nat :=
  ((s.codec.parity.filter (fun p => p.1 == h)).map (fun p => p.2.2.length)).sum

/-- `n` bytes of codewords taken from the front of a job's page set. -/
def takeQueued (h : Nat) : Nat → List (Nat × Nat × List Byte) → List (Nat × Nat × List Byte)
  | _, [] => []
  | n, p :: ps =>
    if p.1 == h && n != 0 then
      if p.2.2.length ≤ n then takeQueued h (n - p.2.2.length) ps
      else (p.1, p.2.1, p.2.2.drop n) :: ps
    else p :: takeQueued h n ps

/-- A data-in burst of `n` bytes has drawn from the channel write queue (R234). -/
def drawQueue (ch h n : Nat) (s : State) : State :=
  let k := min n (queuedBytes h s)
  modChan ch (fun c => { c with wrq := c.wrq - k })
    { s with codec := { s.codec with parity := takeQueued h k s.codec.parity } }

/-- What is left of a job's page set is discarded (R231). -/
def discardSet (j : Job) (s : State) : State :=
  let n := queuedBytes j.handle s
  let s := modChan j.ch (fun c => { c with wrq := c.wrq - n })
    { s with codec := { s.codec with
      parity := s.codec.parity.filter (fun p => p.1 != j.handle)
      engines := s.codec.engines.filter (fun e => e.2 != j.handle) } }
  assignEncoders (modJob j.handle (fun j => { j with encoding := false }) s)

/-! ### Outcomes (R145, R328) -/

/-- Counters of a LUN's failures (R521). -/
def countFail (u outcome : Nat) (s : State) : State :=
  match outcome with
  | 1 => modLun u (fun r => { r with programFails := r.programFails + 1 }) s
  | 2 => modLun u (fun r => { r with eraseFails := r.eraseFails + 1 }) s
  | 4 => modLun u (fun r => { r with busyTimeouts := r.busyTimeouts + 1 }) s
  | _ => s

/-- A read status failure or a die busy timeout declares every member on the LUN failed (R328). -/
def lunOutcome (u outcome : Nat) (s : State) : State :=
  if outcome == 4 then lunDown u 2 s else if outcome == 3 then lunDown u 3 s else s

/-- Codewords of a job that it did not bring. -/
def unread (j : Job) (s : State) : List Cw :=
  (cwsOf (j.ctx.getD j.handle) s).filter (fun c => c.state == .reading)

/-- Codewords go straight to step 6: their member is failed (R283, R328, R336). -/
def toStepSix (cs : List Cw) (s : State) : State :=
  cs.foldl (fun s c => failCw { c with step := 5 } true (leaveZero c s)) s

/-- Codewords of a read that no entry waits for are lost. -/
def loseCws (cs : List Cw) (s : State) : State :=
  cs.foldl (fun s c => modCw c.job c.cw (fun c => { c with state := .lost, work := none }) s) (countLost cs.length s)

/-- DETAIL of an ABORTED entry whose popped job ended before its array-start (R128, R170). -/
def abortDetail (s : State) : Nat := if s.modes.quarantine then 3 else 0

/-- Every codeword that a job did not bring receives RESULT 0x8 at its END_JOB, whatever its outcome (R235). -/
def noteUnread (j : Job) (s : State) : State :=
  if j.closed then s
  else (missingCws j s).foldl (fun s c => noteRecord (decodeKind c) 0 c j { result := 8 } s) s

/-- A read job ends with an outcome (R145, R154, R277, R283): a failed die sends its codewords to step 6 (log entry 21), an
outcome 0x01 or 0x02 completes NAND_FAIL with its number, a trap in step 3 fails the step, another trap, a halt or a machine
check ends the entry. -/
def readEnd (j : Job) (outcome : Nat) (mc : Bool) (s : State) : State :=
  let cs := unread j s
  let s := if outcome == 0 then s else noteUnread j s
  match outcome with
  | 0 => closeSet j.handle s
  | 3 | 4 => toStepSix cs s
  | 1 | 2 =>
    match j.owner with
    | .read e => failRead e 0x40 outcome s
    | _ => loseCws cs s
  | 6 =>
    match j.owner with
    | .read e => failRead e 0x10 (abortDetail s) s
    | _ => loseCws cs s
  | _ =>
    if !mc && j.step == 3 then cs.foldl (fun s c => failCw c true s) s
    else
      match j.owner with
      | .read e => failRead e 0x50 0xE1 s
      | _ => loseCws cs s

/-- A member that was not programmed: its slot knows. -/
def noteUnprogrammed (g r m : Nat) (s : State) : State :=
  match findSlot g r s with
  | some i => modSlot i (fun k => { k with failed := if k.failed.contains m then k.failed else k.failed ++ [m] }) s
  | none => s

/-- A data member's program job ends (R14, R145, R170, R232, R332 to R334). -/
def writeEnd (eid m outcome : Nat) (s : State) : State :=
  match entryAt eid s with
  | some e =>
    match outcome with
    | 0 => programPassed e m s
    | 6 => programCut e m (noteStatus eid 0x10 (abortDetail s) s)
    | 1 | 2 | 3 | 4 => programFailed e m outcome s
    | _ => programCut e m (noteStatus eid 0x50 0xE1 (noteUnprogrammed e.group.toNat e.row.toNat m s))
  | none => s

/-- A pad program ends (R302, R328). -/
def padEnd (j : Job) (m outcome : Nat) (s : State) : State :=
  if outcome == 0 || outcome == 6 then s
  else
    let s := noteUnprogrammed j.group j.row m s
    if outcome ≤ 4 then programDown j.group m s else s

/-- A P or Q program ends (R145, R299, R310, R333, R334). One that was cut off leaves its row in SEALING, and the entry that
completed the row ends ABORTED (R128, R170); one that fails on a target abandons the refit (R362). -/
def parityEnd (j : Job) (i m outcome : Nat) (s : State) : State :=
  if (slotAt i s).group != j.group || (slotAt i s).row != j.row then s
  else if outcome == 6 then
    match rowEntry j.group j.row s with
    | some e => noteStatus e 0x10 (abortDetail s) s
    | none => s
  else if outcome != 0 && (dirAt j.group s).refitTarget then abandonRefit 1 s
  else
    let s := modSlot i (fun k => { k with parityLeft := k.parityLeft - 1 }) s
    let s := if outcome == 0 then s
      else
        let s := noteUnprogrammed j.group j.row m s
        let s := if outcome ≤ 4 then programDown j.group m s else s
        match rowEntry j.group j.row s with
        | some e =>
          if 5 ≤ outcome then noteStatus e 0x50 0xE1 s
          else if 2 < rowLacking j.group j.row s then noteStatus e 0x40 outcome (closeGroup j.group s)
          else noteStatus e 0x32 m s
        | none => s
    rowSealed i s

/-- An erase of a GROUP_OPEN or RELEASE_GROUP that was cut off before it started, or suspended for good (R145, R170, R451). -/
def eraseCut (eid m : Nat) (s : State) : State :=
  let s := modEntry eid (fun e => { e with ended := e.ended ++ [(m, false)] }) s
  if s.modes.holdup then s else noteStatus eid 0x10 (abortDetail s) s

/-- A RAW_JIG job ends: its status, COUNT from RESULT, and its data back to the host (R116, R145). One that was told to abort
and did its NAND work all the same ends with the status of that work (R126, R170). -/
def rawEnd (j : Job) (eid outcome result : Nat) (s : State) : State :=
  match entryAt eid s with
  | some e =>
    let s := if j.dataOut then hostWriteData (.data eid 4095) e.addr.toNat j.data s else s
    let s := modEntry eid (fun e => { e with
      phase := .ready, count := result, status := if outcome == 6 then e.status else 0
      detail := if outcome == 6 then e.detail else 0 }) s
    match outcome with
    | 0 => s
    | 1 | 2 | 3 | 4 => noteStatus eid 0x40 outcome s
    | 6 => noteStatus eid 0x10 (abortDetail s) s
    | _ => noteStatus eid 0x50 0xE1 s
  | none => s

/-- The new settings of a search are in force in every target's set, and the monitor starts again (R205, R207, R217). The moment
is the first bus cycle of the apply job (DESIGN CHOICE, log entry 105). -/
def applySets (ch : Nat) (s : State) : State :=
  let (n, s) := takeFree s
  modChan ch (fun c => { c with
    timing := (List.range 8).map (fun i => if bitAt c.present.toNat i then n else c.timing.getD i 0)
    applied := true, retrainCount := satAdd c.retrainCount 1, applies := c.applies + 1
    driftTrip := false, retrainDue := false, badRun := 0, drift := 0
    trip := BitVec.ofNat 8 (leVal (stored 0x2000 3 s)) }) s

/-- The job of an apply ends, its settings in force (R207, R216). The pause is measured by the channel (log entry 2). -/
def trainEnd (ch outcome : Nat) (s : State) : State :=
  if outcome != 0 then modChan ch (fun c => { c with training := false }) s
  else
    let s := if (chanAt ch s).applied then s else applySets ch s
    let (f, s) := takeFree s
    modChan ch (fun c => { c with
      training := false, lastPause := BitVec.ofNat 8 (f % 121), lastStep := 1, lastResult := 0 }) s

/-- What a job's end means for the work it served. `u` is the LUN it worked on. -/
def ownerEnd (j : Job) (u outcome result : Nat) (mc : Bool) (s : State) : State :=
  match j.owner with
  | .read _ | .feed _ | .fix _ _ | .row _ => readEnd j outcome mc s
  | .truing _ => closeSet j.handle s
  | .write eid m => writeEnd eid m outcome s
  | .pad _ m => padEnd j m outcome s
  | .parity i m => parityEnd j i m outcome s
  | .journal copy =>
    if outcome == 0 then journalProgramEnd copy true s
    else if outcome == 3 || outcome == 4 || outcome == 6 then s
    else journalProgramEnd copy false s
  | .journalErase =>
    if outcome == 6 then s else journalEraseEnd u j.block (outcome == 0 || outcome == 3 || outcome == 4) s
  | .openErase eid m => match outcome with
    | 0 | 1 | 2 | 3 | 4 => openErased eid m outcome s
    | 6 => eraseCut eid m s
    | _ => noteStatus eid 0x50 0xE1 (modEntry eid (fun e => { e with ended := e.ended ++ [(m, false)] }) s)
  | .release eid m => match outcome with
    | 0 | 1 | 2 | 3 | 4 => releaseErased eid m outcome s
    | 6 => eraseCut eid m s
    | _ => noteStatus eid 0x50 0xE1 (modEntry eid (fun e => { e with ended := e.ended ++ [(m, false)] }) s)
  | .raw eid => rawEnd j eid outcome result s
  | .train => trainEnd j.ch outcome s
  | .refitErase _ _ => if outcome == 6 then s else refitEraseEnd (outcome == 0) s
  | .spare id => spareEnd id outcome s
  | .spareErase => spareErased outcome s
  | .target id m => targetEnd id m outcome s
  | .repair id => repairEnd id outcome s
  | .remote h =>
    let s := modRemote h (fun r => { r with outcome := some (r.outcome.getD (BitVec.ofNat 8 outcome)) }) s
    if endsInRead j.items then readEnd j outcome mc s else s
  | .none | .apply | .erase | .pattern => s

/-- The job is another block's (R415): its LUN's state is the lead block's to judge. -/
def Job.isRemote (j : Job) : Bool := match j.owner with | .remote _ => true | _ => false

/-- A job ends (R145): failed LUNs, what it served, what is left of its page set; codes above 0x06 act as 0x05 (log entry
22). -/
def endJobWith (h u outcome result : Nat) (mc : Bool) (s : State) : State :=
  match jobAt h s with
  | some j =>
    if j.state != .popped then s
    else
      let outcome := if 6 < outcome then 5 else outcome
      let s := modJob h (fun j => { j with
        state := .ended, outcome := BitVec.ofNat 8 outcome, result := BitVec.ofNat 32 result }) s
      let s := if j.isRemote then s else lunOutcome u outcome (countFail u outcome s)
      dropJobs (ownerEnd j u outcome result mc (discardSet j s))
  | none => s

/-- The LUN that a job worked on: its own, or the selected one for a RAW_JIG. -/
def jobLun (h sel : Nat) (s : State) : Nat :=
  match jobAt h s with
  | some j => match j.owner with
    | .raw _ => if sel < 4096 then sel else j.lun
    | _ => j.lun
  | none => sel

/-- END_JOB from a jig whose selected LUN is `sel`. -/
def endJob (h sel outcome result : Nat) (s : State) : State := endJobWith h (jobLun h sel s) outcome result false s

/-- Jobs of a channel that have been popped and have not ended. -/
def runningJobs (ch : Nat) (s : State) : List Nat :=
  (s.sched.jobs.filter (fun j => j.ch == ch && j.state == .popped && ownLun j.lun s)).map (·.handle)

/-- A held job of a channel that stays fenced is completed as work on failed members (R152, R283). -/
def failHeld (h : Nat) (s : State) : State :=
  match jobAt h s with
  | some j =>
    let s := modJob h (fun j => { j with state := .ended }) s
    let out := match j.owner with
      | .read _ | .feed _ | .fix _ _ | .row _ => 4
      | .journal _ | .journalErase => 4
      | .openErase _ _ | .release _ _ | .refitErase _ _ | .spareErase => 2
      | .raw _ | .truing _ => 5
      | _ => 1
    dropJobs (ownerEnd j j.lun out 0 false s)
  | none => s

end Sys2Proof.Machine
end

