-- ==== Sys2Proof/Machine/Jigs.lean ====
section
/-!
DEFINITION. Jigs and drawers: pops and peeks, conditions, stalls, traps, the machine check, one microword, and the
drawer's placement (R131 to R175, R183, R186, R194, R197, R445).
-/
namespace Sys2Proof.Machine

/-! ### Registers of a jig -/

/-- Job register `n`. -/
def Jig.jr (g : Jig) (n : Nat) : Nat := (g.j.getD n 0).toNat

/-- Handle of the current job, from J5 (R145). -/
def Jig.cur (g : Jig) : Nat := fld (g.jr 5) 8 12

/-- The captured status byte (R139). -/
def Jig.status (g : Jig) : Nat := fld (g.jr 4) 0 8

/-- The current word lies in the customer region (R173). -/
def Jig.inCust (g : Jig) : Bool := custWord g.pc.toNat

/-! ### Pops and peeks (R163 to R167) -/

/-- FIRST items of a level, oldest first. -/
def levelFirst (g : Jig) (p : Nat) : Option (BitVec 128) := g.drawer.find? (fun i => itemFirst i && itemPrio i == p)

/-- The oldest FIRST item of the lowest level that holds one (R164). -/
def normalPop (g : Jig) : Option (BitVec 128) := (List.range 4).findSome? (levelFirst g)

/-- Microseconds that the job of an item has waited. -/
def waited (g : Jig) (now : Nat) (i : BitVec 128) : Nat := now - (g.waitSince.lookup (itemJob i)).getD now

/-- The oldest FIRST items of the levels that have waited AGE_MS (R165). -/
def agedItems (g : Jig) (now : Nat) : List (BitVec 128) :=
  if g.ageMs == 0 then []
  else ((List.range 4).filterMap (levelFirst g)).filter (fun i => 1000 * g.ageMs.toNat ≤ waited g now i)

/-- The aged item that has waited longest; the lowest level among equals (R165). -/
def agedPop (g : Jig) (now : Nat) : Option (BitVec 128) :=
  (agedItems g now).foldl (fun best i =>
    match best with
    | none => some i
    | some b => if waited g now b < waited g now i then some i else some b) none

/-- The next item of the job that is partly popped. -/
def nextOfJob (g : Jig) : Option (BitVec 128) :=
  match g.curJob with
  | some h => g.drawer.find? (fun i => itemJob i == h)
  | none => none

/-- The item that a pop would return (R158, R163 to R166). While a fallback is due the channel takes no new job; a read that a
job in flight has called is part of that job and is served (R208). -/
def popItem (g : Jig) (now : Nat) : BitVec 128 :=
  let it :=
    if g.curOpen then nextOfJob g
    else if g.inCust || (g.fallPend && g.stack.isEmpty) then none
    else
      match g.lock with
      | some l => some l
      | none => match agedPop g now with
        | some i => some i
        | none => normalPop g
  it.getD idleItem

/-- Aging changes what the pop returns, as things stand at the pop: a locked item that aged only after its peek counts as aged
too (R165; DESIGN CHOICE, log entry 104). -/
def agingCounts (g : Jig) (now : Nat) (i : BitVec 128) : Bool :=
  !g.curOpen && itemFirst i && agedPop g now == some i && normalPop g != some i

/-- One item leaves a drawer. -/
def dropItem (i : BitVec 128) : List (BitVec 128) → List (BitVec 128)
  | [] => []
  | x :: xs => if x == i then xs else x :: dropItem i xs

/-- The header of a TRAIN job that applies new settings: such a job has priority 0, one that writes and reads the training
pattern priority 3 (R206, R207). -/
def isApply (i : BitVec 128) : Bool := itemType i == 8 && itemPrio i == 0

/-- A pop (R150, R163 to R166): ITEM, and for a FIRST item J5, the job's state and the data buffer of a RAW_JIG, of a training
pattern or of the retry routine. -/
def doPop (ch : Nat) (s : State) : State :=
  let g := jigAt ch s
  let i := popItem g s.now
  if i == idleItem then
    modJig ch (fun g => { g with item := i, lock := if g.drawer.isEmpty then g.lock else none }) s
  else
    let aged := agingCounts g s.now i
    let s := modJig ch (fun g => { g with
      item := i, lock := none, drawer := dropItem i g.drawer
      aged := if aged then satAdd g.aged 1 else g.aged
      curOpen := !itemLast i }) s
    if itemFirst i then
      let h := itemJob i
      let data := ((jobAt h s).map (·.data)).getD []
      let raw := itemType i == 0 || itemType i == 6 || itemType i == 8
      modJig ch (fun g => { g with
        curJob := some h, j := g.j.set 5 (BitVec.ofNat 32 (fld i.toNat 96 32))
        waitSince := g.waitSince.filter (fun w => w.1 != h)
        dataBuf := if raw then data else g.dataBuf, bufPos := if raw then 0 else g.bufPos
        bufJob := if raw then some h else g.bufJob })
        (modJob h (fun j => { j with state := .popped })
          (if isApply i then modChan ch (fun c => { c with training := true, applied := false }) s else s))
    else s

/-- A peek takes the lock; the idle item takes none (R163, R166). -/
def doPeek (ch : Nat) (s : State) : State :=
  let i := popItem (jigAt ch s) s.now
  modJig ch (fun g => { g with item := i, lock := if i == idleItem then g.lock else some i }) s

/-- A drop of the current job's remainder (R166, R167). -/
def doDrop (ch : Nat) (s : State) : State :=
  modJig ch (fun g =>
    if g.curOpen then { g with
      lock := none, curOpen := false
      drawer := g.drawer.filter (fun i => some (itemJob i) != g.curJob) }
    else { g with lock := none }) s

/-! ### Selection (R142) -/

/-- A selected target and LUN. -/
structure Sel where
  ce : Option Nat
  lun : Nat
deriving DecidableEq, Repr

/-- The selection in force for a word, CE_MODE and LUN_SRC included (R132 step 2). -/
def selOf (w : Nat) (g : Jig) : Sel :=
  { ce := match mwCeMode w with
      | 1 => some (mwCeImm w)
      | 2 => some (fld (g.jr 2) 29 3)
      | 3 => none
      | 4 => some (fld g.item.toNat 61 3)
      | _ => g.ce
    lun := match mwLunSrc w with
      | 1 => fld (g.jr 2) 27 2
      | 2 => mwImm w % 4
      | 3 => g.cntA.toNat % 4
      | _ => g.lun.toNat }

/-- The global LUN of a selection; 4,096 while no target is selected. -/
def selLun (ch : Nat) (x : Sel) (s : State) : Nat :=
  match x.ce with
  | some c => globalLun ch c x.lun s
  | none => 4096

/-- Die type of the selected target, 0 for none. -/
def selType (ch : Nat) (x : Sel) (s : State) : Nat :=
  match x.ce with
  | some c => (chanAt ch s).dieTypes.getD c 0
  | none => 0

/-- The die command constant that BUS 0x2 issues (R140, R185). -/
def dieConst (ch i : Nat) (x : Sel) (s : State) : Nat := byteAt (dieBytes (selType ch x s) 0x12 s) (i % 16)

/-- The entry of arrayStarts for a command byte: kind and clamp cost (R184, R186). -/
def arrayStart (ch b : Nat) (x : Sel) (s : State) : Option (Nat × Nat) :=
  let t := dieBytes (selType ch x s) 0x13 s
  (List.range 8).findSome? (fun i =>
    if byteAt t (4 * i) == b && byteAt t (4 * i + 1) != 0 then some (byteAt t (4 * i + 1), byteAt t (4 * i + 2)) else none)

/-- The command byte of a word's bus cycle. -/
def cmdByte (ch w : Nat) (x : Sel) (s : State) : Option Nat :=
  if mwBus w == 1 then some (mwImm w) else if mwBus w == 2 then some (dieConst ch (mwImm w) x s) else none

/-- The array-start that a word would issue. -/
def wordStart (ch w : Nat) (x : Sel) (s : State) : Option (Nat × Nat) :=
  (cmdByte ch w x s).bind (fun b => arrayStart ch b x s)

/-! ### Conditions (R139) -/

/-- Bytes of the next data-in or data-out burst (R140). -/
def burstBytes (g : Jig) : Nat := fld (g.jr 6) 0 16 * 32

/-- The busy watchdog of the selected LUN has passed the limit of its last array command (R139, R186). -/
def busyTimeout (ch : Nat) (g : Jig) (x : Sel) (s : State) : Bool :=
  match g.lastArray.find? (fun a => a.1 == selLun ch x s) with
  | some (_, kind, t) =>
    let ty := selType ch x s
    let lim := if kind == 1 then die ty 0x14 s else if kind == 2 || kind == 4 then die ty 0x15 s else die ty 0x16 s
    lim < s.now - t
  | none => false

/-- Bytes that data-in bursts still in the bus queue will draw. -/
def drawing (g : Jig) : Nat :=
  ((g.busQ.filter (fun b => (b.code == 4 || b.code == 0xA) && b.mover == 2)).map (·.bytes)).sum

/-- The selected LUN holds clamps (R139, R194). -/
def lunBusy (ch : Nat) (x : Sel) (s : State) : Bool := heldFor ch (selLun ch x s) s != 0

/-- Suspending a program is allowed (R139 0x32); for a current job of TYPE 0x3 the erase's flag and limit count (R198;
DEDUCED, log entry 79). -/
def suspAllowed (ch : Nat) (g : Jig) (x : Sel) (s : State) : Bool :=
  let t := selType ch x s
  let erase := fld (g.jr 5) 28 4 == 3
  bitAt (die t 0x0F s) (b2n erase) && g.cntA.toNat < die t (if erase then 0x11 else 0x10) s
    && !s.modes.holdup && !s.modes.wfence

/-- Conditions 0x20 to 0x3F. -/
def condHigh (ch c w : Nat) (g : Jig) (x : Sel) (p : JigIn) (s : State) : Bool :=
  let plane := g.cntB.toNat % 4
  let mask := fld (g.jr 0) 4 4
  if c < 0x28 then bitAt p.rbn.toNat (c - 0x20)
  else if c < 0x30 then bitAt (g.jr 15) (c - 0x28)
  else
    match c with
    | 0x30 => lunBusy ch x s
    | 0x31 => holdsAny ch s
    | 0x32 => suspAllowed ch g x s
    | 0x33 => (chanAt ch s).mode == 4
    | 0x34 => (chanAt ch s).mode == 3
    | 0x35 => die (selType ch x s) 0x0D s == 1
    | 0x36 => s.modes.custLoaded
    | 0x37 => busyTimeout ch g x s
    | 0x38 => bitAt mask plane
    | 0x39 => mask / 2 ^ (plane + 1) == 0
    | 0x3A => g.status &&& mwImm w != 0
    | 0x3B => g.stack.isEmpty
    | 0x3C => itemType g.item == 1 || (itemFirst g.item && itemRd g.item)
    | 0x3D => itemType g.item == 2
    | 0x3E => fld (g.jr 5) 24 2 == 0
    | _ => false

/-- A condition of R139, before COND_INV. RB_SEL with no target selected reads as false (DESIGN CHOICE, log entry 103: the
rule names only the pin of the selected target). -/
def cond (ch w : Nat) (g : Jig) (x : Sel) (p : JigIn) (s : State) : Bool :=
  let c := mwCond w
  if 0x20 ≤ c then condHigh ch c w g x p s
  else if 2 ≤ c && c ≤ 9 then bitAt g.status (c - 2)
  else
    match c with
    | 0x00 => true
    | 0x01 => match x.ce with | some t => bitAt p.rbn.toNat t | none => false
    | 0x0A => g.timerDone
    | 0x0B => g.cntA == 0
    | 0x0C => g.cntB == 0
    | 0x0D => g.cntA.toNat % 256 == mwImm w
    | 0x0E => g.cntB.toNat % 256 == mwImm w
    | 0x0F => g.drawer.isEmpty
    | 0x10 => (levelFirst g 0).isSome
    | 0x11 =>
      let i := popItem g s.now
      !g.curOpen && itemFirst i && itemRd i && itemPrio i ≤ 1
    | 0x12 => itemFirst g.item
    | 0x13 => itemLast g.item
    | 0x14 => g.item == idleItem
    | 0x15 => !(g.busQ.any (fun b => burstCode b.code.toNat))
    | 0x16 => burstBytes g + drawing g ≤ queuedBytes g.cur s
    | 0x17 => true
    | 0x18 => g.codecAck
    | 0x19 => g.lock.isSome
    | 0x1A => (chanAt ch s).driftTrip
    | 0x1B => (chanAt ch s).retrainDue
    | 0x1C => s.modes.wfence
    | 0x1D => s.modes.holdup
    | 0x1E => ((jobAt g.cur s).map (·.abortReq)).getD false
    | _ => bitAt g.status (die (selType ch x s) 0x0E s)

/-- The word's condition c (R136). -/
def condOf (ch w : Nat) (g : Jig) (x : Sel) (p : JigIn) (s : State) : Bool := xor (cond ch w g x p s) (mwInv w)

/-! ### Stalls and traps (R133, R148, R153, R158, R445) -/

/-- COND or a counter load of the word uses the captured status byte (R133). -/
def usesStatus (w : Nat) : Bool :=
  let c := mwCond w
  (mwSeq w != 0 && ((2 ≤ c && c ≤ 9) || c == 0x1F || c == 0x3A)) || mwCntA w == 7 || mwCntB w == 7

/-- The word's CLAMP is a request (R147). -/
def asksClamps (w : Nat) : Bool := 1 ≤ mwClamp w && mwClamp w ≤ 0x3F

/-- Clamps that a word finds held for its selected LUN: its own CLAMP return comes first (R132, R147). -/
def heldAfter (ch w : Nat) (x : Sel) (s : State) : Nat :=
  if mwClamp w == 0x40 || mwClamp w == 0x41 then 0 else heldFor ch (selLun ch x s) s

/-- A word whose clamps are not granted, or whose array-start command is held (R133, R148, R445). -/
def clampStall (ch w : Nat) (g : Jig) (x : Sel) (s : State) : Bool :=
  (asksClamps w && !g.clampGrant)
    || match wordStart ch w x s with
      | some (kind, cost) => heldAfter ch w x s < cost || (ovStops s && 2 ≤ kind)
      | none => false

/-- Stall causes of a word in its first cycle: bit 3 clamp, bit 2 bus queue, bit 1 status interlock (R173). -/
def stallOf (ch w : Nat) (g : Jig) (x : Sel) (s : State) : Nat :=
  8 * b2n (clampStall ch w g x s) + 4 * b2n (mwBus w != 0 && 8 ≤ g.busQ.length)
    + 2 * b2n (usesStatus w && g.capture != 0)

/-- Hardware traps that a word shows before it executes (R134, R144, R148, R153, R158). -/
def earlyTrap (ch w : Nat) (g : Jig) (x : Sel) (s : State) : Option Nat :=
  if mwSpare w != 0 then some 1
  else if mwReserved w then some 2
  else if burstCode (mwBus w) && (if mwMover w == 0 then g.mover.toNat else mwMover w) == 6 then some 2
  else if g.inCust && mwPin w == 1 then some 7
  else if (wordStart ch w x s).isSome && heldAfter ch w x s == 0 && !asksClamps w && !g.clampWait then some 6
  else none

/-- Where a word goes. -/
inductive Go where
  | to (a : Nat) (stack : List (BitVec 11))
  | halt
  | stay
  | trap (hard : Bool) (cause : Nat)
deriving DecidableEq, Repr

/-- Addresses that a customer word may transfer to (R158). -/
def custTarget (a : Nat) : Bool := (0x030 ≤ a && a ≤ 0x03F) || 0x600 ≤ a

/-- A transfer, checked when it leaves a customer word (R158). -/
def goTo (g : Jig) (a : Nat) (stack : List (BitVec 11)) : Go :=
  if g.inCust && !custTarget a then .trap true 5 else .to a stack

/-- The dispatch address of an item (R136). -/
def dispatchTo (alt : Nat) (item : BitVec 128) : Nat :=
  if itemType item == 0 || itemType item == 6 then fld item.toNat 85 11 else alt / 16 * 16 + itemType item

/-- SEQ (R136, R137): `c` is the condition, `item` the ITEM register that a dispatch sees, `first` the word's first
cycle. -/
def seqGo (w : Nat) (c first : Bool) (item : BitVec 128) (g : Jig) : Go :=
  let next := goTo g (mwNext w) g.stack
  match mwSeq w with
  | 0 => next
  | 1 => if c then goTo g (mwAlt w) g.stack else next
  | 2 => if c then goTo g (dispatchTo (mwAlt w) item) g.stack else next
  | 3 =>
    if !c then next
    else if 4 ≤ g.stack.length then .trap true 3
    else if g.inCust && !custTarget (mwNext w) then .trap true 5
    else goTo g (mwAlt w) (BitVec.ofNat 11 (mwNext w) :: g.stack)
  | 4 =>
    if !c then next
    else match g.stack with
      | [] => .trap true 4
      | a :: rest => goTo g a.toNat rest
  | 5 => if c then next else if !first && mwTimerOp w == 2 && g.timerDone then goTo g (mwAlt w) g.stack else .stay
  | 6 => if g.inCust then .trap true 5 else if c then .halt else next
  | _ => if c then .trap false (mwImm w) else next

/-- A trap (R153): recorded, source 82 + n, the stack empty, word 0x004 next. -/
def trapJig (ch : Nat) (hard : Bool) (cause : Nat) (s : State) : State :=
  raise (82 + ch) (modJig ch (fun g => { g with
    trap := { valid := true, kind := hard, cause := BitVec.ofNat 8 cause, addr := g.pc }
    trapCount := satAdd g.trapCount 1, stack := [], pc := 0x004, waiting := false, stall := 0, clampGrant := false }) s)

/-! ### Halts and machine checks (R137, R138, R151, R172) -/

/-- The job in J5 is open. -/
def openJob (g : Jig) (s : State) : Bool :=
  match jobAt g.cur s with
  | some j => j.state == .popped
  | none => false

/-- The jig halts; an open job ends with outcome 0x05 (R138). -/
def haltJig (ch resume : Nat) (s : State) : State :=
  let g := jigAt ch s
  let s := modJig ch (fun g => { g with
    state := .halted, resumeAt := BitVec.ofNat 11 resume, stack := [], waiting := false, stall := 0, stopReq := false }) s
  if openJob g s then endJob g.cur (selLun ch ⟨g.ce, g.lun.toNat⟩ s) 5 (g.jr 3) s else s

/-- A machine check (R151): the jig stops (a fenced one stays FENCED), its targets are deselected and bursts cut off, its
running jobs end DEVICE_ERROR, the drawer's items are held, its clamps stay, source 240 is raised; searches on the channel
are abandoned (R283). -/
def machineCheck (ch addr quarters : Nat) (s : State) : State :=
  let jobs := runningJobs ch s
  let s := clearResident (globalLun ch 0 0 s) s
  let s := { s with
    stats := { s.stats with machineChecks := s.stats.machineChecks.modify ch (· + 1) }
    sched := { s.sched with jobs := s.sched.jobs.map (fun j =>
      if j.ch == ch && j.state == .placed && ownLun j.lun s then { j with state := .held } else j) }
    rack := { s.rack with waiting := s.rack.waiting.filter (fun r => r.who != .jig ch) } }
  let s := modJig ch (fun g => { g with
    state := if g.state == .fenced then .fenced else .machineCheck, stack := [], ce := none, busQ := []
    capture := 0, waiting := false, stall := 0
    clampWait := false, clampGrant := false, mcClamps := true, drawer := [], waitSince := [], lock := none
    curOpen := false, mcCount := satAdd g.mcCount 1, codecAck := false
    mc := { valid := true, addr := BitVec.ofNat 11 addr, quarters := BitVec.ofNat 4 quarters } }) s
  let s := jobs.foldl (fun s h => endJobWith h (jobLun h 4096 s) 5 0 true s) s
  let s := (s.recov.searches.filter (fun q => lunChan q.lun == ch && ownLun q.lun s)).foldl
    (fun s q => abandonSearch q s) s
  raisePriv 240 false ([BitVec.ofNat 8 ch, BitVec.ofNat 8 quarters] ++ le 2 addr
    ++ [BitVec.ofNat 8 (jigAt ch s).mcCount.toNat]) s

/-! ### The PHY's bus queue (R133, R140, R144, R183) -/

/-- Data-out bytes that a bus cycle brings. -/
def bytesOut (b : Bus) : Nat := if b.code == 5 || b.code == 9 then b.bytes else if b.code == 8 then 4 else 0

/-- The channel holds its burst charge, or needs none (R183). -/
def xmReady (ch : Nat) (s : State) : Bool := (chanAt ch s).mode != 4 || s.rack.xm.contains ch

/-- A finished bus cycle that does not bring a captured status byte. -/
def finishBus (ch : Nat) (b : Bus) (d : List Byte) (s : State) : State :=
  let s :=
    if b.code == 5 || b.code == 9 then
      if b.mover == 1 then
        if b.codec == 1 || b.codec == 2 then takeBurst b.codec.toNat b.handle b.sensing b.job d s else s
      else if b.mover == 4 && (jigAt ch s).bufJob == some b.job then
        modJob b.job (fun j => { j with dataOut := true }) (modJig ch (fun g => { g with
          dataBuf := (splice g.dataBuf g.bufPos d).take g.dataBuf.length, bufPos := g.bufPos + d.length }) s)
      else s
    else if b.code == 8 then modJig ch (fun g => { g with j := g.j.set 10 (BitVec.ofNat 32 (leVal d)) }) s
    else if (b.code == 4 || b.code == 0xA) && b.mover == 2 then drawQueue ch b.job b.bytes s
    else s
  if b.mark then modJig ch (fun g => { g with codecAck := true }) (closeSet b.job s) else s

/-- `n` bus cycles of the queue have finished, in order: a captured status cycle ends by its own command, and a burst in
XM waits for its charge. -/
def phyRun (ch : Nat) : Nat → List Byte → State → State
  | 0, _, s => s
  | n + 1, d, s =>
    match (jigAt ch s).busQ with
    | [] => s
    | b :: rest =>
      if (b.code == 6 && b.capture != 0) || ((b.code == 4 || b.code == 5) && !xmReady ch s) then s
      else
        let s := modJig ch (fun g => { g with busQ := rest }) s
        phyRun ch n (d.drop (bytesOut b)) (finishBus ch b (d.take (bytesOut b)) s)

/-! ### Fields of a word (R132) -/

/-- The byte of an ADDR cycle (R141). -/
def addrByte (ch w : Nat) (g : Jig) (x : Sel) (s : State) : Nat :=
  let put (b v pos : Nat) : Nat := (b - fld b pos 2 * 2 ^ pos + v % 4 * 2 ^ pos) % 256
  match mwAddr w with
  | 0x1 => fld (g.jr 1) 0 8
  | 0x2 => fld (g.jr 1) 8 8
  | 0x3 => put (fld (g.jr 0) 8 8) g.cntB.toNat (die (selType ch x s) 0x0B s)
  | 0x4 => fld (g.jr 0) 16 8
  | 0x5 => put (fld (g.jr 0) 24 8) x.lun (die (selType ch x s) 0x0C s)
  | 0x6 => g.cntA.toNat % 256
  | 0x7 => g.cntB.toNat % 256
  | 0x8 => mwFeature w
  | 0x9 => fld (g.jr 8) 0 8
  | 0xA => fld (g.jr 10) 0 8
  | 0xB => fld (g.jr 10) 8 8
  | 0xC => fld (g.jr 10) 16 8
  | 0xD => fld (g.jr 10) 24 8
  | 0xE => byteAt g.dataBuf g.bufPos
  | _ => mwImm w

/-- Bytes of a word's burst. -/
def wordBytes (w : Nat) (g : Jig) : Nat :=
  if mwBus w == 4 || mwBus w == 5 then burstBytes g else if mwBus w == 9 || mwBus w == 0xA then mwImm w
  else if mwBus w == 7 || mwBus w == 8 then 4 else 0

/-- MOVER route and CODEC hand-off in force for the word's bus cycle: its own included (R144). -/
def routeOf (w : Nat) (g : Jig) : Nat := if mwMover w == 0 then g.mover.toNat else mwMover w
def handOf (w : Nat) (g : Jig) : Nat := if mwCodec w == 0 || mwCodec w == 4 then g.codec.toNat else mwCodec w
def handBuf (w : Nat) (g : Jig) : Nat := if mwCodec w == 0 || mwCodec w == 4 then g.codecBuf else fld (g.jr 6) 16 16
def handSense (w : Nat) (g : Jig) : Nat := if mwCodec w == 0 || mwCodec w == 4 then g.codecSense else fld (g.jr 8) 0 4

/-- Bytes that a word drives itself: J10 with FEAT_OUT, the job data buffer with a data-in burst routed from it (R140,
R144). -/
def wordData (w : Nat) (g : Jig) : List Byte :=
  if mwBus w == 7 then le 4 (g.jr 10)
  else if (mwBus w == 4 || mwBus w == 0xA) && routeOf w g == 5 then slice g.dataBuf g.bufPos (wordBytes w g)
  else []

/-- The trained timing set in force for a selection: CE_MODE switches to its target's (R181). -/
def timingOf (ch : Nat) (x : Sel) (s : State) : Nat :=
  match x.ce with
  | some c => (chanAt ch s).timing.getD c 0
  | none => 0

/-- The bus cycle of a word (R140). -/
def busOf (ch w : Nat) (g : Jig) (x : Sel) (s : State) : Bus :=
  { code := BitVec.ofNat 4 (mwBus w), ce := x.ce, lun := BitVec.ofNat 2 x.lun, bytes := wordBytes w g, job := g.cur
    byte := BitVec.ofNat 8 (if mwBus w == 3 then addrByte ch w g x s else (cmdByte ch w x s).getD 0)
    capture := if mwBus w == 6 && (mwStat w == 1 || mwStat w == 2) then mwStat w else 0
    mover := BitVec.ofNat 4 (routeOf w g), codec := BitVec.ofNat 4 (handOf w g), handle := handBuf w g
    sensing := handSense w g, data := wordData w g, timing := timingOf ch x s }

/-- An operation counted: reads, programs, erases of a channel (R522). -/
def bumpOps (ch kind : Nat) (s : State) : State :=
  { s with stats := { s.stats with channelOps := s.stats.channelOps.modify ch (fun o =>
    match kind with
    | 1 => (o.1 + 1, o.2.1, o.2.2)
    | 2 => (o.1, o.2.1 + 1, o.2.2)
    | 3 => (o.1, o.2.1, o.2.2 + 1)
    | _ => o) } }

/-- An array-start command is issued (R139, R170, R186, R260, R521, R522): its LUN's watchdog and counters, and the dose
record of its job's block. -/
def startArray (ch kind : Nat) (g : Jig) (x : Sel) (s : State) : State :=
  let u := selLun ch x s
  let s := modJig ch (fun g => { g with lastArray := (u, kind, s.now) :: g.lastArray.filter (fun a => a.1 != u) }) s
  let s := bumpOps ch kind (modJob g.cur (fun j => { j with arrayStarted := true }) s)
  let s := modLun u (fun r => match kind with
    | 1 => { r with reads := r.reads + 1 }
    | 2 => { r with programs := r.programs + 1 }
    | 3 => { r with erases := r.erases + 1 }
    | _ => r) s
  match jobAt g.cur s with
  | some j =>
    let raw := match j.owner with | .raw _ => true | _ => false
    if raw then s else if kind == 2 then doseProgram u j.block s else if kind == 3 then doseErase u j.block s else s
  | none => s

/-- The constant that goes before a command of the library: before 0x80 the page-type prefix 0x8 + p, p the pass field of the
PROGRAM item in J2 (R193), and before the 0x00 of a soft-read trial's SENSE the soft-read prefix of a die that has one (R185,
R254). The listings hold no word for them (DESIGN CHOICE, log entry 77). -/
def prefixConst (ch w : Nat) (g : Jig) (x : Sel) (s : State) : Option Nat :=
  if mwBus w != 1 || g.inCust then none
  else if mwImm w == 0x80 && fld (g.jr 5) 28 4 == 2 && die (selType ch x s) 0x1A s == 1 then some (8 + fld (g.jr 2) 24 3)
  else if mwImm w == 0 && itemType g.item == 5 && fld g.item.toNat 36 4 == 6 && dieConst ch 0xC x s != 0 then some 0xC
  else none

/-- The cycle of that constant. -/
def prefixOf (ch w : Nat) (g : Jig) (x : Sel) (s : State) : List Bus :=
  match prefixConst ch w g x s with
  | some k => [{ busOf ch w g x s with code := 2, byte := BitVec.ofNat 8 (dieConst ch k x s) }]
  | none => []

/-- An apply's settings take force before the first bus cycle that its job places: its check runs with them (R207; log entry
105). -/
def applyDue (ch : Nat) (g : Jig) (s : State) : Bool :=
  (chanAt ch s).training && !(chanAt ch s).applied && fld (g.jr 5) 28 4 == 8 && fld (g.jr 5) 24 2 == 0

/-- BUS: the cycle joins the queue; a burst in XM asks for its charge (R183). -/
def putBus (ch w : Nat) (g : Jig) (x : Sel) (s : State) : State :=
  if mwBus w == 0 then s
  else
    let s := if applyDue ch g s then applySets ch s else s
    let b := busOf ch w g x s
    let s := modJig ch (fun j => { j with busQ := j.busQ ++ prefixOf ch w g x s }) s
    let s := modJig ch (fun g => { g with
      busQ := g.busQ ++ [b]
      capture := if b.capture != 0 then b.capture else g.capture
      bufPos := if mwBus w == 3 && mwAddr w == 0xE then g.bufPos + 1
        else if (mwBus w == 4 || mwBus w == 0xA) && routeOf w g == 5 then g.bufPos + b.bytes else g.bufPos }) s
    let s := if (mwBus w == 4 || mwBus w == 5) && (chanAt ch s).mode == 4 then askXm ch s else s
    match wordStart ch w x s with
    | some (kind, _) => startArray ch kind g x s
    | none => s

/-- The last data-out burst of a queue takes the end-of-page-set mark; none when the queue holds no burst. -/
def markLast : List Bus → Option (List Bus)
  | [] => none
  | b :: bs =>
    match markLast bs with
    | some l => some (b :: l)
    | none => if b.code == 5 then some ({ b with mark := true } :: bs) else none

/-- CODEC (R144, R234). The end-of-page-set mark follows the bursts already in the bus queue. -/
def putCodec (ch w : Nat) (g : Jig) (s : State) : State :=
  let s := modJig ch (fun j => { j with
    mover := BitVec.ofNat 4 (routeOf w g), codec := BitVec.ofNat 4 (handOf w g)
    codecBuf := handBuf w g, codecSense := handSense w g }) s
  if mwCodec w == 3 then startEncoding g.cur (handBuf w g) s
  else if mwCodec w == 4 then
    match markLast (jigAt ch s).busQ with
    | some l => modJig ch (fun j => { j with busQ := l, codecAck := false }) s
    | none => modJig ch (fun j => { j with codecAck := true }) (closeSet g.cur s)
  else s

/-! ### The drift monitor (R205, R206, R209) -/

/-- Work that reads the channel's traffic: a READ or SENSE job placed or popped there. -/
def readsHere (ch : Nat) (s : State) : Bool :=
  s.sched.jobs.any (fun j => j.ch == ch && ownLun j.lun s && endsInRead j.items
    && (j.state == .placed || j.state == .popped))

/-- A job of the channel's TRAIN routine for its lowest present target (R162, R206, R207). -/
def trainItem (owner : Owner) (prio ch : Nat) (s : State) : State :=
  let ce := (List.range 8).find? (fun c => bitAt (chanAt ch s).present.toNat c)
  let u := globalLun ch (ce.getD 0) 0 s
  let data := if owner == .pattern then (List.range 512).map Config.trainingPattern else []
  (addJob { owner := owner, lun := u, prio := prio, data := data, items := [mkItem 8 (itemLun u ++ [(88, 1)])] } s).2

/-- A retraining is under way on the channel: a search runs, a bad one waits for its 10 ms, or the job of an apply or of a
pattern has not ended (R206, R207). -/
def retraining (ch : Nat) (s : State) : Bool :=
  (chanAt ch s).search || (chanAt ch s).restartPend
    || s.sched.jobs.any (fun j => j.ch == ch && (j.owner == .pattern || j.owner == .train))

/-- A search starts, unless a retraining is under way; with no read traffic, or after STANDBY, it uses the training pattern,
as a job at priority 3 (R206, R209). -/
def startRetrain (ch : Nat) (s : State) : State :=
  if retraining ch s then s
  else
    let s := modChan ch (fun c => { c with search := true }) s
    if !readsHere ch s || (chanAt ch s).driftCheck then trainItem .pattern 3 ch s else s

/-- A measure of the drift monitor: it trips at driftTripLevel, and a search starts (R205, R206). -/
def driftMeasure (ch : Nat) (measure : Byte) (s : State) : State :=
  let s := modChan ch (fun c => { c with drift := if c.drift.toNat < measure.toNat then measure else c.drift }) s
  let c := chanAt ch s
  if c.trip.toNat ≤ measure.toNat && c.up then
    startRetrain ch (modChan ch (fun c => { c with driftTrip := true }) s)
  else s

/-- The word takes a drift monitor sample: PIN_CTL 0b101, and a data-out burst of the vendor library (R142, R205). -/
def takesSample (w : Nat) (g : Jig) : Bool := mwPin w == 5 || (mwBus w == 5 && !g.inCust)

/-- The sample that a word takes of the read eye centre (R205). -/
def putSample (ch w : Nat) (g : Jig) (p : JigIn) (s : State) : State :=
  if takesSample w g then driftMeasure ch p.eye s else s

/-- PIN_CTL (R142). -/
def putPin (ch w : Nat) (s : State) : State :=
  modJig ch (fun g => match mwPin w with
    | 1 => { g with wp := true }
    | 2 => { g with wp := false }
    | 3 => { g with odt := true }
    | 4 => { g with odt := false }
    | _ => g) s

/-- CLAMP, once a request has been granted (R147). -/
def putClamp (ch w : Nat) (x : Sel) (s : State) : State :=
  if asksClamps w then modJig ch (fun g => { g with clampGrant := false }) s
  else if mwClamp w == 0x40 then returnLun ch (selLun ch x s) s
  else if mwClamp w == 0x41 then returnAll ch s
  else s

/-- DRAWER (R146). -/
def putDrawer (ch w : Nat) (s : State) : State :=
  match mwDrawer w with
  | 1 => doPop ch s
  | 2 => doPeek ch s
  | 3 => doDrop ch s
  | _ => s

/-- A counter operation (R143). -/
def countOp (op w : Nat) (g : Jig) (v : BitVec 16) : BitVec 16 :=
  match op with
  | 1 => 0
  | 2 => BitVec.ofNat 16 (mwImm w)
  | 3 => BitVec.ofNat 16 (mwTimerLoad w)
  | 4 => v + 1
  | 5 => if v == 0 then 0 else v - 1
  | 6 => BitVec.ofNat 16 (g.jr 6)
  | 7 => BitVec.ofNat 16 g.status
  | _ => v

/-- The value of a job register write (R149): `g` at the start of the cycle, `last` the register at its end, of which a
byte write keeps the other bytes (R150). -/
def jobReg (w : Nat) (g : Jig) (last : Nat) : Option Word :=
  let a := mwJarg w
  let old := last
  match mwJop w with
  | 1 => some (BitVec.ofNat 32 (old - fld old (8 * a) 8 * 2 ^ (8 * a) + mwImm w * 2 ^ (8 * a)))
  | 2 => some (BitVec.ofNat 32 g.cntA.toNat)
  | 3 => some (BitVec.ofNat 32 g.cntB.toNat)
  | 4 => some (BitVec.ofNat 32 (fld g.item.toNat (32 * (a % 4)) 32))
  | 5 => some 0
  | 6 => some (BitVec.ofNat 32 (g.jr a))
  | 7 => some (BitVec.ofNat 32 (g.jr (8 + a)))
  | _ => none

/-- One cycle of the timer (R143). -/
def timerTick (g : Jig) : Jig :=
  if g.timerRun then
    if g.timer.toNat ≤ 1 then { g with timer := 0, timerRun := false, timerDone := true }
    else { g with timer := g.timer - 1 }
  else g

/-- TIMER_OP (R143). -/
def timerOp (w : Nat) (g : Jig) : Jig :=
  match mwTimerOp w with
  | 1 => { g with timer := BitVec.ofNat 16 (mwTimerLoad w), timerRun := false, timerDone := false }
  | 2 => { g with timer := BitVec.ofNat 16 (mwTimerLoad w), timerRun := true, timerDone := false }
  | 3 => { g with timerRun := false }
  | _ => g

/-- Timer, counters and job register of a jig at the end of the cycle: `old` is the jig at its start (R132 step 8). -/
def regsAfter (w : Nat) (old g : Jig) : Jig :=
  { timerOp w g with
    cntA := countOp (mwCntA w) w old old.cntA
    cntB := countOp (mwCntB w) w old old.cntB
    j := match jobReg w old (g.jr (mwJsel w)) with | some v => g.j.set (mwJsel w) v | none => g.j }

/-- The jig's registers at the end of the cycle. -/
def putRegs (ch w : Nat) (old : Jig) (s : State) : State := modJig ch (regsAfter w old) s

/-- A report: the array operation of the selected LUN is over, its outcome is that of the status byte captured at the start
of the cycle, and its clamps return (R132, R145, R194). -/
def report (ch kind : Nat) (old : Jig) (x : Sel) (s : State) : State :=
  let u := selLun ch x s
  modJig ch (fun g => { g with
    lastArray := g.lastArray.filter (fun a => a.1 != u), reported := some (kind, u, BitVec.ofNat 8 old.status) })
    (returnLun ch u s)

/-- The data buffer of a RAW_JIG goes back to its job (R145). -/
def keepData (ch h : Nat) (s : State) : State :=
  let g := jigAt ch s
  modJob h (fun j => if j.dataOut && g.bufJob == some h then { j with data := g.dataBuf } else j) s

/-- STAT_CAP reports and END_JOB (R145). -/
def putStat (ch w : Nat) (old : Jig) (x : Sel) (s : State) : State :=
  match mwStat w with
  | 3 | 4 | 5 => report ch (mwStat w) old x s
  | 7 => endJob old.cur (selLun ch x s) (fld (old.jr 15) 24 8) (old.jr 3) (keepData ch old.cur s)
  | _ => s

/-- EVENT and TRACE (R146). -/
def putEvent (ch w : Nat) (old : Jig) (s : State) : State :=
  let s := if mwEvent w == 0 then s
    else raise (66 + ch) (modJig ch (fun g => { g with
      eventCount := satAdd g.eventCount 1, eventCode := BitVec.ofNat 6 (mwEvent w) }) s)
  if mwTrace w == 0 then s
  else modJig ch (fun g => { g with
    trace := (g.trace ++ [(BitVec.ofNat 8 (mwTrace w), old.pc, old.cycles)]).drop (g.trace.length - 63) }) s

/-- Every field of a word but SEQ, in the order of R132; the selection stays in force. -/
def applyFields (ch w : Nat) (g : Jig) (x : Sel) (p : JigIn) (s : State) : State :=
  let s := modJig ch (fun j => { j with ce := x.ce, lun := BitVec.ofNat 2 x.lun }) s
  let s := putSample ch w g p (putPin ch w (putClamp ch w x s))
  let s := putCodec ch w g (putBus ch w g x s)
  let s := putRegs ch w g (putDrawer ch w s)
  putEvent ch w g (putStat ch w g x s)

/-- The transfer at the end of a word (R136, R158). -/
def transfer (ch w : Nat) (g : Jig) (go : Go) (s : State) : State :=
  match go with
  | .to a stack =>
    modJig ch (fun j => { j with
      pc := BitVec.ofNat 11 a, stack := stack, waiting := false, stall := 0
      wp := j.wp && !(custWord a && !g.inCust) }) s
  | .stay => modJig ch (fun j => { j with waiting := true, stall := 1 }) s
  | .halt => haltJig ch (mwNext w) s
  | .trap hard cause => trapJig ch hard cause s

/-- The ITEM register that the word's dispatch sees (R136): a pop in the same word included. -/
def seenItem (w : Nat) (g : Jig) (now : Nat) : BitVec 128 :=
  if mwDrawer w == 1 then popItem g now else g.item

/-- The library's ABORT_REQ test stops this word: it would issue an array-start command for a job whose ABORT_REQ is set
(R170; DESIGN CHOICE, log entry 78: the listings hold no such test, and the model makes it beside them). -/
def abortsWord (ch w : Nat) (g : Jig) (x : Sel) (s : State) : Bool :=
  !g.inCust && ((jobAt g.cur s).map (·.abortReq)).getD false
    && match wordStart ch w x s with
      | some (kind, _) => kind ≤ 3
      | none => false

/-- A word in its first cycle: the library's ABORT_REQ test, a trap, a stall, or its fields and its transfer. `done` is
TIMER_DONE at the start of the cycle. -/
def firstCycle (ch w : Nat) (done : Bool) (p : JigIn) (s : State) : State :=
  let g := { jigAt ch s with timerDone := done }
  let x := selOf w g
  if abortsWord ch w g x s then transfer ch w g (.to abortPage g.stack) s
  else
  match earlyTrap ch w g x s with
  | some c => trapJig ch true c s
  | none =>
    let st := stallOf ch w g x s
    if st != 0 then
      let s := modJig ch (fun j => { j with stall := BitVec.ofNat 4 st }) s
      if asksClamps w && !g.clampWait && !g.clampGrant then askClamps ch (selLun ch x s) (mwClamp w) s else s
    else
      match seqGo w (condOf ch w g x p s) true (seenItem w g s.now) g with
      | .trap hard cause => trapJig ch hard cause s
      | go => transfer ch w g go (applyFields ch w g x p s)

/-- A wait word past its first cycle (R136): only its condition and its timer count. -/
def waitCycle (ch w : Nat) (done : Bool) (p : JigIn) (s : State) : State :=
  let g := { jigAt ch s with timerDone := done }
  let x : Sel := { ce := g.ce, lun := g.lun.toNat }
  if usesStatus w && g.capture != 0 then modJig ch (fun j => { j with stall := 3 }) s
  else
    match seqGo w (condOf ch w g x p s) false g.item g with
    | .trap hard cause => trapJig ch hard cause s
    | go => transfer ch w g go s

/-- One jig cycle of a running jig: the timer counts, and the word sees TIMER_DONE as it stood before (R132, R143). A STOP waits
until a wait word ends: its repeats are no word boundaries (DESIGN CHOICE, log entry 108). -/
def jigCycle (ch : Nat) (p : JigIn) (s : State) : State :=
  let g := jigAt ch s
  let s := modJig ch (fun g => { timerTick g with cycles := g.cycles + 1 }) s
  if g.stopReq && !g.waiting && !g.clampWait && g.stall == 0 then haltJig ch g.pc.toNat s
  else
    let s := upsetWord ch g.pc.toNat p.upset s
    let w := (storeWord ch g.pc.toNat s).toNat
    if badQuarters w != 0 then machineCheck ch g.pc.toNat (badQuarters w) s
    else if g.waiting then waitCycle ch w g.timerDone p s else firstCycle ch w g.timerDone p s

/-- The channel's clock is gated: STANDBY holds, its drawer is empty and no operation is in flight (R19, R77). Whatever
still runs when a follower is put into STANDBY ends first (DEDUCED, log entry 80). -/
def chanGated (ch : Nat) (s : State) : Bool :=
  s.modes.standby && (jigAt ch s).drawer.isEmpty && (runningJobs ch s).isEmpty

/-- Clamp requests, array commands and data may wait on what a word did: the rack is not run here (R438). -/
def jigWord (ch : Nat) (p : JigIn) (s : State) : State :=
  let s := phyRun ch p.busDone p.dout s
  if (jigAt ch s).state == .running && !chanGated ch s then jigCycle ch p s else s

end Sys2Proof.Machine
end

