-- ==== Sys2Proof/Machine/Drawers.lean ====
section
/-!
DEFINITION. Commands of the jigs and drawers other than a microword: placement, machine check recovery, timer, status
capture, JIG_CTRL and the store window (R138, R143, R145, R151, R152, R168, R172, R175).
-/
namespace Sys2Proof.Machine

/-- Depth of a drawer in items (R161). -/
def drawerDepth : Nat := 64

/-- A page on the spare of the running rebuild that lies above the row owed to it waits for that row (R348). -/
def waitsOwed (j : Job) (s : State) : Bool :=
  match s.bg.owed, s.bg.queue with
  | some r, q :: _ => s.bg.switched && j.lun == q.spareLun && j.block == s.bg.spareBlock && r < j.page
  | _, _ => false

/-- Held jobs of a channel that may take their turn. After STANDBY or a reload a channel whose drift monitor has tripped takes
nothing before its apply (R152, R209). -/
def heldJobs (ch : Nat) (s : State) : List Job :=
  let c := chanAt ch s
  s.sched.jobs.filter (fun j => j.ch == ch && j.state == .held && ownLun j.lun s && !waitsOwed j s
    && (!(c.driftCheck && c.driftTrip) || j.owner == .train || j.owner == .pattern) && !(jigAt ch s).fallPend)

/-- The job waits before its placing: while the block is FENCED (R428), for its data, for a dose record, or, a program or an
erase, for room to hold the change of the dose record that it makes (R260, R593). -/
def placeWaits (j : Job) (s : State) : Bool :=
  s.modes.fenced || j.doseWait || j.dataWait
    || (j.items.any (fun it => itemType it == 2 || itemType it == 3) && !(windowRoom s))

/-- The job of a channel that is placed next: the first held one in order of dispatch that does not wait. The jobs of one LUN
keep their order: one that waits holds back those dispatched after it (R168, R196). -/
def nextPlaced (ch : Nat) (s : State) : Option Job :=
  let js := heldJobs ch s
  js.find? (fun j => !(placeWaits j s) && (js.find? (fun x => x.lun == j.lun)).map (·.handle) == some j.handle)

/-- A job's items enter the drawer (R161, R168), without the FEATURE items that are resident (R256). -/
def placeJob (ch : Nat) (j : Job) (s : State) : State :=
  let (j, s) := resolveFeats j s
  modJig ch (fun g => { g with drawer := g.drawer ++ j.items, waitSince := g.waitSince ++ [(j.handle, s.now)] })
    (modJob j.handle (fun j => { j with state := .placed, startedAt := s.now }) s)

/-- DRAWER_PLACE: the channel's next job is placed when the drawer has room for all its items; a refused handshake is
counted (R168, R174). -/
def execDrawerPlace (ch : Nat) (s : State) : Out :=
  checked (ch < 16) <|
    match nextPlaced ch s with
    | some j =>
      let g := jigAt ch s
      if !(chanAt ch s).up || g.state == .machineCheck || g.state == .fenced then s
      else if g.drawer.length + (resolveFeats j s).1.items.length ≤ drawerDepth then
        placeJob ch j (modChan ch (fun c => { c with driftCheck := c.driftCheck && c.driftTrip }) s)
      else modJig ch (fun g => { g with full := satAdd g.full 1 }) s
    | none => s

/-- MC_CLAMP_RELEASE: tMCCLAMP after a machine check the clamps return and the channel enters pad hold (R40, R151 step
4). -/
def execMcClampRelease (ch : Nat) (s : State) : Out :=
  checked (ch < 16) <|
    if (jigAt ch s).mcClamps then
      enterPadHold ch (returnAll ch (modChan ch (fun c => { c with up := false })
        (modJig ch (fun g => { g with mcClamps := false, lastArray := [] }) s)))
    else s

/-- The jig restarts at 0x000 with the store reloaded; the channel checks its drift monitor first (R152). A channel that
TRAIN has not started stays in pad hold with its jig not started (R40, R131), and one with no target in service is not up
(R216). -/
def restartJig (ch : Nat) (s : State) : State :=
  let s := modJig ch (fun g => { g with
    state := .running, store := s.storeImage, pc := 0, stack := [], waiting := false, stall := 0
    timerRun := false }) s
  let c := chanAt ch s
  if c.lastStep == 0 then modJig ch (fun g => { g with state := .notStarted }) s
  else modChan ch (fun c => { c with
    padHold := false, up := c.present != 0 && c.rate != 10, driftCheck := true }) s

/-- The store image, as management SRAM holds it, passes the parity check of all 2,048 words (R151, R152). -/
def imageParityOk (s : State) : Bool := s.storeImage.all (fun p => badQuarters p.2.toNat == 0)

/-- The channel stays fenced until the next reset: its LUNs are failed members, and the held items are completed on that
basis (R152, R328 cause 0x5). -/
def fenceChannel (ch : Nat) (s : State) : State :=
  let s := modJig ch (fun g => { g with state := .fenced }) s
  let luns := (List.range 32).map (fun i => s.modes.dieId.toNat * 512 + 32 * ch + i)
  let s := luns.foldl (fun s u => lunDown u 5 s) s
  let held := (s.sched.jobs.filter (fun j => j.ch == ch && ownLun j.lun s && j.state != .ended)).map (·.handle)
  held.foldl (fun s h => failHeld h s) s

/-- JIG_RELOAD: after the clamps have returned, the store is reloaded and checked (R152): `parityOk` says that the copy
loaded is the image's. -/
def execJigReload (ch : Nat) (parityOk : Bool) (s : State) : Out :=
  checked (ch < 16) <|
    let g := jigAt ch s
    if g.state == .machineCheck && !g.mcClamps then
      if parityOk && imageParityOk s && s.stats.machineChecks.getD ch 0 ≤ cfg 0x2100 5 s then restartJig ch s
      else fenceChannel ch s
    else s

/-- JIG_TIMER_EXPIRY: a running timer reaches zero (R143). -/
def execJigTimerExpiry (ch : Nat) (s : State) : Out :=
  checked (ch < 16) <|
    modJig ch (fun g => if g.timerRun then { g with timer := 0, timerRun := false, timerDone := true } else g) s

/-- STATUS_CAPTURE: the STATUS cycle at the head of the bus queue ends, and its byte enters J4 (R145). -/
def execStatusCapture (ch : Nat) (b : Byte) (s : State) : Out :=
  checked (ch < 16) <|
    match (jigAt ch s).busQ with
    | c :: rest =>
      if c.code == 6 && c.capture != 0 then
        modJig ch (fun g =>
          let lo := if c.capture == 1 then 0 else 8
          let j4 := g.jr 4
          { g with
            busQ := rest
            j := g.j.set 4 (BitVec.ofNat 32 (j4 - fld j4 lo 8 * 2 ^ lo + b.toNat * 2 ^ lo))
            capture := if rest.any (fun x => x.capture != 0) then g.capture else 0 }) s
      else s
    | [] => s

/-- A halted jig resumes at its halt word's NEXT (R138); write protect is asserted when that enters the customer region
(R158). A RESUME written to a jig that is not HALTED is dropped (R172; DESIGN CHOICE, log entry 107). -/
def resumeJig (ch : Nat) (s : State) : State :=
  modJig ch (fun g =>
    if g.state == .halted then { g with
      state := .running, pc := g.resumeAt, wp := g.wp && !(custWord g.resumeAt.toNat && !g.inCust) }
    else g) s

/-- JIG_RESUME (R138, R172, R577). -/
def execJigResume (who : Writer) (ch : Nat) (s : State) : Out :=
  checked (ch < 16) (mainCoreOnly who (resumeJig ch) s)

/-- STOP is set; it takes effect at the next word boundary (R172). -/
def stopJig (ch : Nat) (s : State) : State := modJig ch (fun g => { g with stopReq := true }) s

/-- JIG_STOP (R172, R577). -/
def execJigStop (who : Writer) (ch : Nat) (s : State) : Out :=
  checked (ch < 16) (mainCoreOnly who (stopJig ch) s)

/-- A read through the store window: the word and its parity check; a failure is a machine check on that jig, whatever its
state (R151, R175). The read ends within the command, so BUSY never reads 1 (DESIGN CHOICE, log entry 81). -/
def storeRead (v : Word) (s : State) : State :=
  let ch := fld v.toNat 12 4
  let a := fld v.toNat 0 11
  let w := storeWord ch a s
  let q := badQuarters w.toNat
  let s := { s with regs := { s.regs with
    jsSel := BitVec.ofNat 32 (4096 * ch + a), jsData := w, jsErr := q != 0 } }
  if q != 0 then machineCheck ch a q s else s

/-- JS_SEL (R175). -/
def execJsSel (v : Word) (s : State) : Out := .next (storeRead v s)

end Sys2Proof.Machine
end

