-- ==== Sys2Proof/Machine/Media.lean ====
section
/-!
DEFINITION. The media port: messages and their answers, the bind table, feeding, verification and the accumulator
(R21, R372 to R404, R420).
-/
namespace Sys2Proof.Machine

/-! ### The bind table (R379 to R384) -/

/-- An entry set: kept, written through and journalled (R379, R392). -/
def setBind (i : Nat) (b : BindEntry) (s : State) : State :=
  let s := winWrite (bindOff i) b.bytes <| touchBinds [i] { s with stripe := { s.stripe with binds := putAsc i b s.stripe.binds } }
  addRec (mkRec 0x30 b.group [(2, i), (8, b.first), (12, b.rows), (16, b.job.toNat)]) s

/-- An entry freed (R379, R392). -/
def clearBind (i : Nat) (s : State) : State :=
  let s := winWrite (bindOff i) (zeros 16) { s with stripe := { s.stripe with
    binds := dropKey i s.stripe.binds, bindCache := s.stripe.bindCache.filter (· != i) } }
  addRec (mkRec 0x31 0 [(2, i)]) s

/-- Entries of a group and job, with their indexes. -/
def bindsOf (g : Nat) (job : Word) (s : State) : List (Nat × BindEntry) :=
  s.stripe.binds.filter (fun p => p.2.group == g && p.2.job == job)

/-- Rows that an entry shares with a range. -/
def BindEntry.shared (b : BindEntry) (first n : Nat) : Nat := min (b.first + b.rows) (first + n) - max b.first first

/-- A row of a group is bound to a job. -/
def boundTo (g r : Nat) (job : Word) (s : State) : Bool :=
  (bindsOf g job s).any (fun p => p.2.first ≤ r && r < p.2.first + p.2.rows)

/-- Every row of a range is bound to a job: one entry holds it, since the entries of a group and job are disjoint and never
adjoin (R380). -/
def rangeBound (g first n : Nat) (job : Word) (s : State) : Bool :=
  (bindsOf g job s).any (fun p => p.2.first ≤ first && first + n ≤ p.2.first + p.2.rows)

/-- A range bound to a job: merged with what it overlaps or adjoins (R380 steps 3 and 4). The merged entry is recorded before
the ones it replaces are cleared. Answers the rows newly bound. -/
def bindRange (g first n : Nat) (job : Word) (s : State) : Nat × State :=
  let near := (bindsOf g job s).filter (fun p => p.2.first ≤ first + n && first ≤ p.2.first + p.2.rows)
  let held := (near.map (fun p => p.2.shared first n)).sum
  if held == n then (0, s)
  else
    let lo := near.foldl (fun a p => min a p.2.first) first
    let hi := near.foldl (fun a p => max a (p.2.first + p.2.rows)) (first + n)
    match (match near with | p :: _ => some p.1 | [] => freeBind s) with
    | some i =>
      let s := setBind i { group := g, first := lo, rows := hi - lo, job := job } s
      let s := (near.drop 1).foldl (fun s p => clearBind p.1 s) s
      (n - held, if (dirAt g s).boundRows then s else writeDir g (fun e => { e with boundRows := true }) s)
    | none => (0, s)

/-- One entry loses a range: freed, trimmed, or split with its upper part in a free entry (R382, R390). -/
def trimBind (first n : Nat) (s : State) (p : Nat × BindEntry) : State :=
  let b := p.2
  let left := first - b.first
  let right := (b.first + b.rows) - (first + n)
  let upper : BindEntry := { b with first := first + n, rows := right }
  if left == 0 && right == 0 then clearBind p.1 s
  else if left == 0 then setBind p.1 upper s
  else if right == 0 then setBind p.1 { b with rows := left } s
  else
    match freeBind s with
    | some k => setBind p.1 { b with rows := left } (setBind k upper s)
    | none => s

/-- Rows of a range unbound from a job; FLAGS.BOUND_ROWS clears with the group's last entry (R382, R384). Answers the rows
unbound. -/
def unbindRange (g first n : Nat) (job : Word) (s : State) : Nat × State :=
  let hit := (bindsOf g job s).filter (fun p => p.2.shared first n != 0)
  let count := (hit.map (fun p => p.2.shared first n)).sum
  let s := hit.foldl (trimBind first n) s
  (count, if (dirAt g s).boundRows && !(groupBound g s) then writeDir g (fun e => { e with boundRows := false }) s else s)

/-- wallClock as the records of R392 hold it. -/
def recTime (s : State) : Nat := if s.recov.doseKnown then (wallNow s).toNat else 0

/-- A RELEASED or UNBIND_FORCED record (R392). -/
def releaseRec (rtype who g first n : Nat) (job : Word) (s : State) : BitVec 256 :=
  mkRec rtype g [(1, who), (8, first), (12, n), (16, job.toNat), (20, recTime s)]

/-! ### BIND and UNBIND_FORCE (R380, R382, R384) -/

/-- Optical job of a BIND or UNBIND_FORCE (R117). -/
def Entry.job (e : Entry) : Word := BitVec.ofNat 32 (fld e.options.toNat 32 32)

/-- Step 1 of a BIND: its ranges checked (R380, R430). -/
def bindCheck (e : Entry) (s : State) : Option (Nat × Nat) :=
  if !(e.ranges.all (fun r => groupServes r.1 s)) then some (0x21, 1)
  else if !(e.ranges.all (fun r => (List.range r.2.2).all (fun k => rowWritten r.1 (r.2.1 + k) s))) then some (0x21, 3)
  else if !(e.ranges.all (fun r => groupReachable r.1 s)) then some (0x21, 4)
  else none

/-- The change of a BIND made in the bind queue (R380). -/
def applyBind (e : Entry) (s : State) : Nat × State :=
  e.ranges.foldl (fun acc r =>
    let (n, s) := bindRange r.1 r.2.1 r.2.2 e.job acc.2
    (acc.1 + n, s)) (0, s)

/-- One range of an UNBIND_FORCE: its rows unbound, the media override event, the record (R382, R482). -/
def forceRange (e : Entry) (acc : Nat × State) (r : Nat × Nat × Nat) : Nat × State :=
  let (n, s) := unbindRange r.1 r.2.1 r.2.2 e.job acc.2
  if n == 0 then (acc.1, s)
  else
    let s := addRec (releaseRec 0x33 e.ring r.1 r.2.1 n e.job s) s
    let s := raisePriv 244 false (le 3 r.1 ++ le 1 e.ring ++ le 4 r.2.1 ++ le 4 n ++ le 4 e.job.toNat) s
    let s := modEntry e.eid (fun e => { e with evWait := some s.evq.rseq.toNat }) s
    (acc.1 + n, { s with stats := { s.stats with rowsUnboundForced := s.stats.rowsUnboundForced + n } })

/-- The change of an UNBIND_FORCE made in the bind queue (R382). -/
def applyUnbind (e : Entry) (s : State) : Nat × State := e.ranges.foldl (forceRange e) (0, s)

/-- An entry that has its reserved bind entries joins the bind queue and is served (R380, R384). It completes once its
records are durable. -/
def serveBind (e : Entry) (s : State) : State :=
  let before := lastRec s
  let (n, s) := if e.opcode == 5 then applyBind e s else applyUnbind e s
  modEntry e.eid (fun e => { e with
    phase := .waiting, accepted := true, reserved := 0, count := n
    recWait := if lastRec s == before then none else some (lastRec s) }) s

/-- What a range leaves of a run of rows. -/
def cutRun (first n : Nat) (b : Nat × Nat) : List (Nat × Nat) :=
  if min (b.1 + b.2) (first + n) ≤ max b.1 first then [b]
  else [(b.1, first - b.1), (first + n, b.1 + b.2 - (first + n))].filter (fun x => x.2 != 0)

/-- Splits that unbinding ranges of one job makes, one range after the other: the entries that an UNBIND_FORCE needs (R382). -/
def splits (job : Word) (s : State) : List (Nat × Nat × Nat) → Nat
  | [] => 0
  | (g, first, n) :: rest =>
    let s' := { s with stripe := { s.stripe with binds := s.stripe.binds.flatMap (fun p =>
      if p.2.group == g && p.2.job == job then
        (cutRun first n (p.2.first, p.2.rows)).map (fun x => (p.1, { p.2 with first := x.1, rows := x.2 }))
      else [p]) } }
    (s'.stripe.binds.length - s.stripe.binds.length) + splits job s' rest

/-- Free entries that a BIND or UNBIND_FORCE reserves: one for each range of a BIND, one for each split of an UNBIND_FORCE (R380
step 2, R382, R384). -/
def bindNeed (e : Entry) (s : State) : Nat := if e.opcode == 5 then e.ranges.length else splits e.job s e.ranges

/-- The free entries needed are reserved, or the entry waits (R380 step 2). -/
def reserveBind (e : Entry) (s : State) : State :=
  if bindNeed e s ≤ bindsFree s then serveBind e s
  else modEntry e.eid (fun e => { e with phase := .waiting, reserved := e.ranges.length })
    { s with media := { s.media with bindWaits := satAdd s.media.bindWaits 1 } }

/-- BIND (R380). -/
def execBind (eid : Nat) (s : State) : Out :=
  .next <| dispatch eid 0x05 s fun e s =>
    match bindCheck e s with
    | some (st, det) => refuse e st det s
    | none => reserveBind e s

/-- UNBIND_FORCE: a group that does not exist, then the BOUND check (R121, R382). -/
def execUnbindForce (eid : Nat) (s : State) : Out :=
  .next <| dispatch eid 0x06 s fun e s =>
    if !(e.ranges.all (fun r => groupExists r.1 s)) then refuse e 0x21 1 s
    else if (ringAt e.ring s).priv == 0 || !(bitAt e.options.toNat 7) then refuse e 0x23 2 s
    else reserveBind e s

/-- A BIND or UNBIND_FORCE that waits for free entries. -/
def bindWaiting (e : Entry) : Bool := (e.opcode == 5 || e.opcode == 6) && e.phase == .waiting && !e.accepted

/-- BIND_RESERVE: the first waiting entry, in order of dispatch, for which enough entries are free is served (R384). -/
def execBindReserve (s : State) : Out :=
  .next <|
    match s.sched.entries.find? (fun e => bindWaiting e && bindNeed e s ≤ bindsFree s) with
    | some e => serveBind e s
    | none => s

/-- BIND_WAIT_EVENT: a wait reaches bindWaitEvent; the media event once for the entry (R380). -/
def execBindWaitEvent (eid : Nat) (s : State) : Out :=
  .next <|
    match entryAt eid s with
    | some e =>
      if bindWaiting e && !e.bindWaited then
        raise 120 (modEntry eid (fun e => { e with bindWaited := true })
          { s with media := { s.media with bindLong := satAdd s.media.bindLong 1 } })
      else s
    | none => s

/-- A BIND or UNBIND_FORCE completes once its records are durable (R380 step 5). -/
def settleBind (s : State) (e : Entry) : State :=
  if (e.opcode == 5 || e.opcode == 6) && e.phase == .waiting && e.accepted && recOk e s then
    modEntry e.eid (fun e => { e with phase := .ready }) s
  else s

/-! ### Messages out (R375 to R377, R420) -/

/-- Fields of an inbound message (R374). -/
def mKind (m : BitVec 64) : Nat := fld m.toNat 60 4
def mHead (m : BitVec 64) : Nat := fld m.toNat 56 4
def mGroup (m : BitVec 64) : Nat := fld m.toNat 32 24
def mRow (m : BitVec 64) : Nat := fld m.toNat 12 20
def mRows (m : BitVec 64) : Nat := fld m.toNat 0 12
def mFrag (m : BitVec 64) : Nat := fld m.toNat 50 6
def mN (m : BitVec 64) : Nat := 32 * fld m.toNat 36 12
def mGuard (m : BitVec 64) : Nat := 16 * (fld m.toNat 32 4 + 1)
def mRefOff (m : BitVec 64) : Nat := fld m.toNat 16 16

/-- An outbound message (R375). -/
def mkMsg (kind head : Nat) (fields : List (Nat × Nat)) : BitVec 64 :=
  BitVec.ofNat 64 (packFields ((60, kind) :: (56, head) :: fields))

/-- A message leaves: on this block's port, or over the link to the block that the head is wired to (R420). -/
def mediaSend (h : Nat) (m : BitVec 64) (s : State) : State :=
  match (headAt h s).via with
  | none => { s with media := { s.media with out := s.media.out ++ [m] } }
  | some d => dvSend 0x30 (some d) (le 8 m.toNat) s

/-- Beats of a run leave (R377, R420). -/
def mediaBeats (h : Nat) (l : List (List Byte)) (s : State) : State :=
  match (headAt h s).via with
  | none => { s with media := { s.media with beats := s.media.beats ++ l } }
  | some d => if l.isEmpty then s else dvSend 0x13 (some d) l.flatten s

/-- A byte string cut into beats of 32 bytes: `n` beats. -/
def beatsOf : Nat → List Byte → List (List Byte)
  | 0, _ => []
  | n + 1, bs => padTo 32 bs :: beatsOf n (bs.drop 32)

/-- An answer is whole and may leave in its turn; a FRAG_READ run waits for a run in progress (R376, R377). -/
def Ans.ready (a : Ans) (s : State) : Bool :=
  !a.feed && !a.pass && a.fwd.isNone && (match a.recNo with | some n => recDurable n s | none => true)
    && (a.tail.isEmpty || s.media.running == none)

/-- The answers of a head that may leave do, in order (R376). -/
def flushHead : Nat → Nat → State → State
  | 0, _, s => s
  | n + 1, h, s =>
    match (headAt h s).answers with
    | a :: rest =>
      if a.ready s then
        let s := modHead h (fun x => { x with answers := rest }) s
        let s := a.msgs.foldl (fun s m => mediaSend h m s) s
        flushHead n h (a.tail.foldl (fun s m => mediaSend h m s) (mediaBeats h a.beats s))
      else s
    | [] => s

/-- Every head's answers. -/
def flushAnswers (s : State) : State :=
  (List.range 16).foldl (fun s h => flushHead (headAt h s).answers.length h s) s

/-- An answer joins those owed to a head. -/
def answer (h : Nat) (a : Ans) (s : State) : State :=
  flushAnswers (modHead h (fun x => { x with answers := x.answers ++ [a] }) s)

/-- The FRAG field of an answer: that of the message, or zero (R375). -/
def ansFrag (m : BitVec 64) : Nat := if 8 ≤ mKind m && mKind m ≤ 0xB then mFrag m else 0

/-- ACK of a message. -/
def ackMsg (m : BitVec 64) : BitVec 64 := mkMsg 1 (mHead m) [(52, mKind m), (46, ansFrag m)]

/-- NAK of a message with its reason (R378). -/
def nakMsg (m : BitVec 64) (reason : Nat) : BitVec 64 := mkMsg 2 (mHead m) [(52, mKind m), (46, ansFrag m), (0, reason)]

/-- ACK and NAK in the head's order. -/
def ack (m : BitVec 64) (s : State) : State := answer (mHead m) { msgs := [ackMsg m] } s
def nak (m : BitVec 64) (reason : Nat) (s : State) : State := answer (mHead m) { msgs := [nakMsg m reason] } s

/-- Fields of a message that must be zero are (R374, R376). -/
def msgZeros (m : BitVec 64) : Bool :=
  match mKind m with
  | 0x1 => fld m.toNat 32 24 == 0
  | 0x2 => fld m.toNat 0 56 == 0
  | 0x3 | 0x4 | 0x5 => true
  | 0x8 => fld m.toNat 48 2 == 0 && fld m.toNat 0 16 == 0
  | 0x9 => fld m.toNat 48 1 == 0 && fld m.toNat 0 36 == 0
  | 0xA => fld m.toNat 0 49 == 0
  | 0xB => fld m.toNat 0 50 == 0
  | _ => false

/-! ### Fed lists (R389 to R391) -/

/-- The range whose latest addition is oldest leaves a fed list: of equal ages, the halves of a range that was split, the first
(DESIGN CHOICE, log entry 126). -/
def dropOldest (l : List Fed) : List Fed :=
  match l.map (·.age) with
  | [] => l
  | a :: as => l.eraseIdx (l.findIdx (fun f => f.age == as.foldl min a))

/-- A range joins a fed list: merged with what it overlaps or adjoins; on a full list of 32 the range whose latest addition is
oldest is dropped (R389). -/
def fedAdd (g first n age : Nat) (l : List Fed) : List Fed :=
  let near (f : Fed) : Bool := f.group == g && f.first ≤ first + n && first ≤ f.first + f.rows
  let lo := (l.filter near).foldl (fun a f => min a f.first) first
  let hi := (l.filter near).foldl (fun a f => max a (f.first + f.rows)) (first + n)
  let rest := l.filter (fun f => !(near f))
  (if rest.length < 32 then rest else dropOldest rest) ++ [{ group := g, first := lo, rows := hi - lo, age := age }]

/-- Rows removed from a fed list. A split that makes a 33rd range drops the oldest (DESIGN CHOICE, log entry 126). -/
def fedRemove (g first n : Nat) (l : List Fed) : List Fed :=
  let l := l.flatMap (fun f =>
    if f.group == g then (cutRun first n (f.first, f.rows)).map (fun x => { f with first := x.1, rows := x.2 }) else [f])
  if 32 < l.length then dropOldest l else l

/-- A range lies wholly within one fed range of the head (R378 0x04). -/
def fedHolds (g first n : Nat) (l : List Fed) : Bool :=
  l.any (fun f => f.group == g && f.first ≤ first && first + n ≤ f.first + f.rows)

/-! ### Feeding (R386 to R388) -/

/-- Codewords of a unit that a head's feed reads. -/
def unitCws (h : Nat) (g : Nat) (u : Nat × Nat) (s : State) : List Cw :=
  s.sched.cws.filter (fun c => c.group == g && c.row == u.1 && c.member == u.2 &&
    match jobAt c.job s with
    | some j => j.owner == .feed h
    | none => false)

/-- A member unit's read begins: codewords in the loss ledger are lost, the rest are read at priority 1 (R386) into consecutive
slots (R233). None while 16 landing slots are not free. -/
def startUnit (h g : Nat) (u : Nat × Nat) (s : State) : Option State :=
  match findLanding s 16 with
  | none => none
  | some slot =>
    let p := memberPage g u.2 u.1 s
    let known := (List.range 16).filter (fun c => inLedger g u.2 u.1 c s)
    let gone := memberGone g u.2 u.1 s
    let mask := bitsOf ((List.range 16).map (fun c => !(known.contains c)))
    let place (c : Nat) : Nat := slot + ((List.range c).filter (bitAt mask)).length
    let mk (job : Nat) (off : List Int) (c : Nat) : Cw :=
      { job := job, group := g, member := u.2, row := u.1, cw := c, lun := p.lun, slot := place c, tried := [off]
        step := if gone && !(known.contains c) then 5 else 0
        state := if known.contains c then .lost else if gone then .failed else .reading }
    if gone || mask == 0 then
      let job := freeHandle s % 4096
      some { s with sched := { s.sched with
        nextJob := (job + 1) % 4096
        jobs := s.sched.jobs ++ [{ handle := job, owner := .feed h, lun := p.lun, prio := 1, state := .ended, group := g
                                   member := u.2, row := u.1, block := p.block, page := u.1, profile := p.profile
                                   cwMask := BitVec.ofNat 16 mask, buf := slot }]
        cws := s.sched.cws ++ (List.range 16).map (mk job []) } }
    else
      let (off, tag) := firstSet p.lun p.block p.page s
      let (job, s) := addRead (.feed h) p mask slot 1 0 tag off s
      some { s with sched := { s.sched with cws := s.sched.cws ++ (List.range 16).map (mk job off) } }

/-- The next unit of a feed has begun to be read. -/
def unitRead (h : Nat) (f : Feed) (u : Nat × Nat) (rest : List (Nat × Nat)) (s : State) : State :=
  modHead h (fun x => { x with feed := some { f with units := rest, read := f.read ++ [u] } }) s

/-- The next unit of a head's feed begins, if fewer than feedAheadUnits are read and not yet sent and there is room. -/
def nextUnit (h : Nat) (s : State) : Option State :=
  match (headAt h s).feed with
  | some f =>
    match f.units with
    | u :: rest =>
      if cfg 0x3000 6 s ≤ f.read.length then none
      else
        match startUnit h f.group u s with
        | some s => some (unitRead h f u rest s)
        | none => none
    | [] => none
  | none => none

/-- Units of a head's feed begin while fewer than feedAheadUnits are read and not yet sent (R386). -/
def pumpFeed : Nat → Nat → State → State
  | 0, _, s => s
  | n + 1, h, s =>
    match nextUnit h s with
    | some s => pumpFeed n h s
    | none => s

/-- Every head's feed. -/
def pumpFeeds (s : State) : State := (List.range 16).foldl (fun s h => pumpFeed 4 h s) s

/-- Rows fed whole, from ROW upwards (R388). -/
def Feed.rowsFed (f : Feed) : Nat :=
  ((List.range f.rows).takeWhile (fun k => !((f.read ++ f.units).any (fun u => u.1 == f.row + k)))).length

/-- FEED_DONE takes the place of the feed's answer (R388). -/
def feedDone (h : Nat) (f : Feed) (s : State) : State :=
  let done := mkMsg 5 h [(32, f.group), (12, f.row), (0, f.rowsFed)]
  flushAnswers (modHead h (fun x => { x with
    feed := none
    answers := x.answers.map (fun a => if a.feed then { msgs := [done], done := true } else a) }) s)

/-- Codewords of a unit that have been lost, among the first `n`. -/
def lostMask (cs : List Cw) (n : Nat) : Nat :=
  bitsOf ((List.range 16).map (fun k => k < n && cs.any (fun c => c.cw == k && c.state == .lost)))

/-- A head's run and FEED are cut: DATA_END with what was sent, FEED_DONE, and the reads that have not been popped are
withdrawn (R385, R388, R400). -/
def cutFeed (h : Nat) (s : State) : State :=
  match (headAt h s).feed with
  | none => s
  | some f =>
    let s := match f.sending, f.read with
      | some n, u :: _ =>
        let lost := lostMask (unitCws h f.group u s) ((n + 127) / 128)
        { mediaSend h (mkMsg 4 h [(40, lost), (27, n), (24, 1)]) s with
          media := { (mediaSend h (mkMsg 4 h [(40, lost), (27, n), (24, 1)]) s).media with running := none } }
      | _, _ => s
    let mine (j : Job) : Bool := j.owner == .feed h
    feedDone h f (dropFeedCws (· == h) (withdraw mine s))

/-- The first unit of a head's feed is read and its turn among the head's answers has come. -/
def runReady (h : Nat) (s : State) : Bool :=
  match (headAt h s).feed with
  | some f =>
    match f.read with
    | u :: _ =>
      let cs := unitCws h f.group u s
      ((headAt h s).answers.head?.map (·.feed)) == some true && cs.length == 16
        && cs.all (fun c => c.state == .decoded || c.state == .lost)
    | [] => false
  | none => false

/-- The head whose run is served: the one in progress, else the next ready one in round robin (R387). -/
def runTurn (s : State) : Option Nat :=
  match s.media.running with
  | some h => some h
  | none => ((List.range 16).map (fun k => (s.media.rrHead + 1 + k) % 16)).find? (fun h => runReady h s)

/-- A codeword as it was read out of its landing slot joins the bytes of its unit. -/
def unitGot (acc : List Byte × Bool × State) (bs : List Byte) (ok : Bool) (s : State) : List Byte × Bool × State :=
  (acc.1 ++ bs, acc.2.1 && ok, s)

/-- The 65,536 bytes of a unit: lost codewords are zeros (R387). -/
def unitData (cs : List Cw) (s : State) : List Byte × Bool × State :=
  (List.range 16).foldl (fun acc k =>
    match cs.find? (fun c => c.cw == k && c.state == .decoded) with
    | some c =>
      let r := sramRead (landOff c.slot) 4096 acc.2.2
      unitGot acc r.1 r.2.1 r.2.2
    | none => (acc.1 ++ zeroCw, acc.2.1, acc.2.2)) ([], true, s)

/-- A unit's run has ended whole: DATA_END, the row joins the fed list with its last run, and FEED_DONE follows the last run
of the FEED (R387 to R389). -/
def endRun (h : Nat) (f : Feed) (u : Nat × Nat) (rest : List (Nat × Nat)) (lost : Nat) (s : State) : State :=
  let s := mediaSend h (mkMsg 4 h [(40, lost), (27, 2048), (24, 0)]) s
  let gone := (unitCws h f.group u s).map (fun c => (c.job, c.cw))
  let s := dropJobs { s with sched := { s.sched with cws := s.sched.cws.filter (fun c => !(gone.contains (c.job, c.cw))) } }
  let f := { f with read := rest, sending := none }
  let whole := !((f.read ++ f.units).any (fun x => x.1 == u.1))
  let s := { s with media := { s.media with running := none, rrHead := h, fedOrder := s.media.fedOrder + 1 } }
  let s := modHead h (fun x => { x with
    runs := x.runs + 1, feed := some f
    fed := if whole then fedAdd f.group u.1 1 s.media.fedOrder x.fed else x.fed }) s
  if f.read.isEmpty && f.units.isEmpty then feedDone h f s else pumpFeeds (flushAnswers s)

/-- FEED_RUN: the head's run goes on by at most `beats` beats, or begins when its turn has come (R377, R387). A word that the
read of a landing slot finds uncorrectable keeps the run from beginning (R563). -/
def execFeedRun (head beats : Nat) (s : State) : Out :=
  checked (head < 16) <|
    match runTurn s == some head, (headAt head s).feed with
    | true, some f =>
      match f.read with
      | u :: rest =>
        let cs := unitCws head f.group u s
        let (bs, ok, s) := unitData cs s
        if !ok && f.sending == none then s
        else
          let sent := f.sending.getD 0
          let s := if f.sending == none then
            mediaSend head (mkMsg 3 head [(32, f.group), (12, u.1), (7, u.2)]) s else s
          let n := min beats (2048 - sent)
          let s := mediaBeats head (beatsOf n (bs.drop (32 * sent))) s
          if sent + n == 2048 then endRun head f u rest (lostMask cs 16) s
          else modHead head (fun x => { x with feed := some { f with sending := some (sent + n) } })
            { s with media := { s.media with running := some head } }
      | [] => s
    | _, _ => s

/-! ### ATTACH, DETACH, FEED and VERIFY (R385, R386, R390, R391) -/

/-- The block a head is wired to, when it is another one: mediaHeadMap as of the ATTACH (R420, R434). -/
def headWire (h : Nat) (s : State) : Option (BitVec 3) :=
  let d := cfg 0x3401 (h + 1) s
  if d < 8 && d != s.modes.dieId.toNat then some (BitVec.ofNat 3 d) else none

/-- ATTACH (R378, R385). -/
def serveAttach (m : BitVec 64) (s : State) : State :=
  let h := mHead m
  let job := BitVec.ofNat 32 (fld m.toNat 0 32)
  if job == 0xFFFFFFFF then nak m 1 s
  else if (headAt h s).job != none then nak m 0xA s
  else ack m (modHead h (fun x => { x with job := some job, fed := [], via := headWire h s }) s)

/-- DETACH (R385). -/
def serveDetach (m : BitVec 64) (s : State) : State :=
  let s := cutFeed (mHead m) s
  ack m (modHead (mHead m) (fun x => { x with job := none, fed := [] }) s)

/-- Every row of a message's range is written, in a group that serves (R378 0x05). -/
def rowsGood (m : BitVec 64) (s : State) : Bool :=
  mRows m != 0 && groupServes (mGroup m) s
    && (List.range (mRows m)).all (fun k => rowWritten (mGroup m) (mRow m + k) s)

/-- The checks shared by FEED and VERIFY up to NOT_BOUND, in their order; `busy` is the head's FEED (R386, R390). -/
def rangeFault (m : BitVec 64) (busy : Bool) (s : State) : Option Nat :=
  match (headAt (mHead m) s).job with
  | none => some 2
  | some job =>
    if busy then some 9
    else if !(rowsGood m s) then some 5
    else if !(rangeBound (mGroup m) (mRow m) (mRows m) job s) then some 3
    else none

/-- FEED (R376, R386): NAK BUSY leaves ahead of the FEED in service. -/
def serveFeed (m : BitVec 64) (s : State) : State :=
  let h := mHead m
  match rangeFault m (headAt h s).feeding s with
  | some 9 => mediaSend h (nakMsg m 9) s
  | some r => nak m r s
  | none =>
    let g := mGroup m
    let w := (dirAt g s).width
    let units := (List.range (mRows m)).flatMap (fun k =>
      ((List.range w).filter (fun x => bitAt (sealedMask g (mRow m + k) s) x)).map (fun x => (mRow m + k, x)))
    let f : Feed := { group := g, row := mRow m, rows := mRows m, units := units }
    let s := answer h { feed := true } (modHead h (fun x => { x with feed := some f }) s)
    if units.isEmpty then feedDone h f s else pumpFeeds s

/-- VERIFY_GOOD: the rows leave the job's entry and the fed list; RELEASED leaves once the records are durable (R390). -/
def serveVerifyGood (m : BitVec 64) (s : State) : State :=
  let h := mHead m
  let g := mGroup m
  let x := headAt h s
  match rangeFault m false s with
  | some r => nak m r s
  | none =>
    let job := x.job.getD 0
    let inner := (bindsOf g job s).any (fun p => p.2.first < mRow m && mRow m + mRows m < p.2.first + p.2.rows)
    if !(fedHolds g (mRow m) (mRows m) x.fed) then nak m 4 s
    else if inner && bindsFree s == 0 then nak m 8 s
    else
      let (_, s) := unbindRange g (mRow m) (mRows m) job s
      let s := addRec (releaseRec 0x32 h g (mRow m) (mRows m) job s) s
      let s := modHead h (fun x => { x with
        fed := fedRemove g (mRow m) (mRows m) x.fed, released := x.released + mRows m }) s
      let s := { s with stats := { s.stats with rowsReleased := s.stats.rowsReleased + mRows m } }
      answer h { msgs := [mkMsg 6 h [(32, g), (12, mRow m), (0, mRows m)]], recNo := some (lastRec s) } s

/-- VERIFY_BAD (R391). -/
def serveVerifyBad (m : BitVec 64) (s : State) : State :=
  match rangeFault m false s with
  | some r => nak m r s
  | none =>
    let s := modHead (mHead m) (fun x => { x with fed := fedRemove (mGroup m) (mRow m) (mRows m) x.fed }) s
    ack m (raise 120 { s with stats := { s.stats with verifyBadRows := s.stats.verifyBadRows + mRows m } })

/-! ### The accumulator (R394 to R399) -/

/-- Slots of a fragment of `n` samples (R395). -/
def fragSlots (n : Nat) : Nat := (2 * n + 4095) / 4096

/-- Slots held by fragments (R403). -/
def slotsHeld (s : State) : Nat := (s.media.frags.map (fun f => fragSlots f.n)).sum

/-- The lowest place for `k` consecutive slots of the 512 (R395). -/
def findFrag (k : Nat) (s : State) : Option Nat :=
  findFrom (fun i => s.media.frags.all (fun f => i + k ≤ f.slot || f.slot + fragSlots f.n ≤ i)) (513 - k) 0

/-- A head's own open fragment. -/
def ownFrag (h f : Nat) (s : State) : Option Frag :=
  s.media.frags.find? (fun x => x.frag.toNat == f && x.head == h)

/-- The accumulator is open to a head (R378 0x06). -/
def accOpenTo (h : Nat) (s : State) : Bool := s.media.accum == 2 && bitAt s.media.headsMask.toNat h

/-- A count of REPORT (R399). -/
def bumpReport (i : Nat) (s : State) : State :=
  { s with media := { s.media with report := s.media.report.modify i (· + 1) } }

/-- Words of a fragment (R395). -/
def fragWords (f : Frag) : Nat := 256 * fragSlots f.n

/-- A fragment's sums set to zero. -/
def zeroFrag (f : Frag) (s : State) : State :=
  { s with sram := zeroRange (accOff f.slot / 16) (fragWords f) s.sram }

/-- FRAG_OPEN (R378, R395). -/
def serveFragOpen (m : BitVec 64) (s : State) : State :=
  let h := mHead m
  let bad := s.media.frags.any (fun f => f.frag.toNat == mFrag m) || fld m.toNat 36 12 < 32 || 2048 < fld m.toNat 36 12
    || mN m < mRefOff m + 64
  if !(accOpenTo h s) then nak m 6 s
  else if bad then nak m 7 s
  else
    match findFrag (fragSlots (mN m)) s with
    | none => nak m 8 s
    | some slot =>
      let f : Frag := { frag := BitVec.ofNat 6 (mFrag m), head := h, n := mN m, g := mGuard m, refOff := mRefOff m, slot := slot }
      let s := zeroFrag f { s with media := { s.media with frags := s.media.frags ++ [f] } }
      ack m (bumpReport 5 s)

/-- A PASS is announced: its beats follow (R378, R396). -/
def servePass (m : BitVec 64) (s : State) : State :=
  let h := mHead m
  let beats := fld m.toNat 36 12
  if !(accOpenTo h s) then nak m 6 s
  else
    match ownFrag h (mFrag m) s with
    | none => nak m 7 s
    | some f =>
      if beats != (f.n + 2 * f.g) / 32 then nak m 7 s
      else answer h { pass := true }
        (modHead h (fun x => { x with pass := some (f.frag, bitAt m.toNat 49, beats) }) s)

/-- PASS_RESULT takes the place of the pass's answer (R375, R397). -/
def passResult (h frag result : Nat) (shift : Int) (score : Nat) (s : State) : State :=
  let passes := ((ownFrag h frag s).map (·.passes)).getD 0
  let m := mkMsg 7 h [(50, frag), (46, result), (36, unsgn 10 shift), (28, passes), (12, score)]
  flushAnswers (modHead h (fun x => { x with
    pass := none
    passOk := if result ≤ 1 then x.passOk + 1 else x.passOk
    passRej := if result ≤ 1 then x.passRej else x.passRej + 1
    answers := x.answers.map (fun a => if a.pass then { msgs := [m] } else a) }) s)

/-- A head's pass in progress is cut with RESULT 0x5 (R399, R400). -/
def cutPass (h : Nat) (s : State) : State :=
  match (headAt h s).pass with
  | some (f, _, _) => passResult h f.toNat 5 0 0 (bumpReport 4 s)
  | none => s

/-- A signed byte. -/
def i8 (b : Byte) : Int := b.toInt

/-- The correlation of a pass with REF at a shift (R397): `a` is the first sample compared. -/
def correlate (x r : List Byte) (a : Nat) : Int :=
  (List.zipWith (fun p q => i8 p * i8 q) (slice x a 64) r).foldl (· + ·) 0

/-- Energy of samples. -/
def energy (x : List Byte) : Nat := (x.map (fun p => (i8 p * i8 p).toNat)).sum

/-- Shifts from −g to g in the order that ties prefer: the smallest size first, then the lower (R397). -/
def shiftOrder (g : Nat) : List Int := 0 :: (List.range g).flatMap (fun (k : Nat) => [-((k : Int) + 1), (k : Int) + 1])

/-- The best shift and its correlation (R397). -/
def bestShift (x r : List Byte) (g refOff : Nat) : Int × Int :=
  let at_ (sh : Int) : Int := correlate x r ((g + refOff : Nat) + sh).toNat
  (shiftOrder g).foldl (fun best sh => if best.2 < at_ sh then (sh, at_ sh) else best) (0, at_ 0)

/-- The score of a correlation: trunc(65536 · c / sqrt(d)), 0 when c is not positive (R397). -/
def scoreOf (c : Int) (d : Nat) : Nat := if c ≤ 0 then 0 else Nat.sqrt ((65536 * c.toNat) ^ 2 / d)

/-- A sum of I16 samples and a pass's samples, as bytes (R395, R397). -/
def addSamples : Nat → List Byte → List Byte → List Byte
  | 0, _, _ => []
  | n + 1, sum, x =>
    le 2 (unsgn 16 (sgn 16 (leVal (sum.take 2)) + i8 (x.headD 0))) ++ addSamples n (sum.drop 2) (x.drop 1)

/-- A judged pass added to its fragment (R397). -/
def sumPass (f : Frag) (x : List Byte) (sh : Int) (s : State) : State :=
  let r := sramRead (accOff f.slot) (2 * f.n) s
  let s := sramWrite (accOff f.slot) (addSamples f.n r.1 (x.drop ((f.g : Int) + sh).toNat)) r.2.2
  { s with media := { s.media with
      frags := s.media.frags.map (fun y => if y.frag == f.frag then { y with passes := y.passes + 1 } else y) } }

/-- The score field of PASS_RESULT: 16 bits; the manual gives no field value for a score of 65,536, so it is a free value
(log entry 2). -/
def scoreField (score : Nat) (s : State) : Nat × State :=
  if score < 65536 then (score, s)
  else
    let (f, s) := takeFree s
    (f % 65536, s)

/-- A pass whose sync was found, judged (R397). -/
def judgePass (h : Nat) (f : Frag) (x : List Byte) (s : State) : State :=
  let (sh, c) := bestShift x s.media.ref f.g f.refOff
  let score := scoreOf c (energy (slice x ((f.g + f.refOff : Nat) + sh).toNat 64) * energy s.media.ref)
  let (field, s) := scoreField score s
  if score < s.media.scoreMin then
    passResult h f.frag.toNat 3 sh field
      (bumpReport 3 { s with media := { s.media with rejScore := satAdd s.media.rejScore 1 } })
  else
    let s := sumPass f x sh s
    if sh == 0 then passResult h f.frag.toNat 0 sh field
      (bumpReport 0 { s with media := { s.media with nominal := satAdd s.media.nominal 1 } })
    else passResult h f.frag.toNat 1 sh field
      (bumpReport 1 { s with media := { s.media with realigned := satAdd s.media.realigned 1 } })

/-- The last beat of a head's pass has come (R396, R397). A pass whose fragment has been closed is cut. -/
def endPass (head fr : Nat) (sync : Bool) (samples : List Byte) (s : State) : State :=
  match ownFrag head fr s with
  | none => cutPass head s
  | some f =>
    if !sync then passResult head fr 2 0 0
      (bumpReport 2 { s with media := { s.media with rejSync := satAdd s.media.rejSync 1 } })
    else if f.passes == 255 then passResult head fr 4 0 0 (bumpReport 4 s)
    else judgePass head f (padTo (f.n + 2 * f.g) samples) s

/-- Averages of a fragment's sums, rounded half away from zero and clamped (R398). -/
def averages (passes : Nat) : Nat → List Byte → List Byte
  | 0, _ => []
  | n + 1, bs =>
    let v : Int := if passes == 0 then 0 else clampInt (-128) 127 (roundDiv (sgn 16 (leVal (bs.take 2))) passes)
    BitVec.ofInt 8 v :: averages passes n (bs.drop 2)

/-- FRAG_READ: a run of the fragment's averages or sums (R398). -/
def serveFragRead (m : BitVec 64) (s : State) : State :=
  let h := mHead m
  let form := fld m.toNat 49 1
  if !(accOpenTo h s) then nak m 6 s
  else
    match ownFrag h (mFrag m) s with
    | none => nak m 7 s
    | some f =>
      let r := sramRead (accOff f.slot) (2 * f.n) s
      let n := if form == 0 then f.n / 32 else f.n / 16
      let data := if form == 0 then averages f.passes f.n r.1 else r.1
      answer h { msgs := [mkMsg 8 h [(50, mFrag m), (49, form), (28, f.passes)]], beats := beatsOf n data
                 tail := [mkMsg 4 h [(27, n)]] } r.2.2

/-- FRAG_CLOSE (R398). -/
def serveFragClose (m : BitVec 64) (s : State) : State :=
  if !(accOpenTo (mHead m) s) then nak m 6 s
  else
    match ownFrag (mHead m) (mFrag m) s with
    | none => nak m 7 s
    | some f => ack m { s with media := { s.media with frags := s.media.frags.filter (fun x => x.frag != f.frag) } }

/-- A message served by its KIND (R373, R374, R376). -/
def serveMessage (m : BitVec 64) (s : State) : State :=
  if !(msgZeros m) then nak m 1 s
  else
    match mKind m with
    | 0x1 => serveAttach m s
    | 0x2 => serveDetach m s
    | 0x3 => serveFeed m s
    | 0x4 => serveVerifyGood m s
    | 0x5 => serveVerifyBad m s
    | 0x8 => serveFragOpen m s
    | 0x9 => servePass m s
    | 0xA => serveFragRead m s
    | 0xB => serveFragClose m s
    | _ => nak m 1 s

/-- A PASS whose port still owes the beats of the pass before: the optical side must not have sent it, and it waits in the
inbound queue (R373, R396; DESIGN CHOICE, log entry 85). -/
def passWaits (m : BitVec 64) (s : State) : Bool :=
  mKind m == 9 && s.media.heads.any (fun x => x.pass.isSome && x.via == (headAt (mHead m) s).via)

/-- A FEED or VERIFY looks up the binding of its rows (R386, R390, R391). -/
def looksUpRows (m : BitVec 64) : Bool := 3 ≤ mKind m && mKind m ≤ 5

/-- A message waits while a bind entry that it looks up is read from the window, and while there is no room to hold the change
it may make (R379, R593). -/
def rowsWait (m : BitVec 64) (s : State) : Bool :=
  looksUpRows m && (bindsWait (mGroup m) (mRow m) (mRows m) s || !(windowRoom s))

/-- Messages of the inbound queue are begun in the order of acceptance (R373). -/
def serveQueue : Nat → State → State
  | 0, s => s
  | n + 1, s =>
    match s.media.inQ with
    | [] => s
    | m :: rest =>
      if passWaits m s || rowsWait m s then s else serveQueue n (serveMessage m { s with media := { s.media with inQ := rest } })

/-- med_in_ready: the inbound queue of 16 has room (R41, R373). -/
def inReady (s : State) : Bool := s.pins.mediaReady && s.media.inQ.length < 16

/-- A message joins the inbound queue, and those that can be served are (R373). -/
def acceptMessage (m : BitVec 64) (s : State) : State :=
  if inReady s then
    let s := if looksUpRows m then lookUpBinds s (mGroup m, mRow m, mRows m) else s
    serveQueue 16 { s with media := { s.media with inQ := s.media.inQ ++ [m] } }
  else s

/-- A message to the accumulator: FRAG_OPEN, PASS, FRAG_READ, FRAG_CLOSE (R374). -/
def toAccum (m : BitVec 64) : Bool := 8 ≤ mKind m && mKind m ≤ 0xB

/-- A follower forwards a message to the lead block, and its head owes the answer that comes back (R376, R420). -/
def forward (m : BitVec 64) (s : State) : State :=
  dvSend 0x30 (some s.modes.leadDie) (le 8 m.toNat)
    (modHead (mHead m) (fun x => { x with answers := x.answers ++ [{ fwd := some (mKind m) }] }) s)

/-- A message on this block's port: taken while med_in_ready is high. A follower serves what its own accumulator is asked, and
forwards the rest to the lead block (R41, R373, R420; DEDUCED, log entry 128). -/
def takeMessage (m : BitVec 64) (s : State) : State :=
  if !(inReady s) then s
  else if s.modes.follower && !(toAccum m) then forward m s
  else acceptMessage m s

/-- An answer that the lead block sends back takes its place among those of the head; a NAK BUSY, and the messages of a run,
leave at once (R376, R377, R420). -/
def answerBack (m : BitVec 64) (s : State) : State :=
  let h := mHead m
  let busy := mKind m == 2 && fld m.toNat 0 8 == 9
  let l := (headAt h s).answers
  let sent (s : State) : State := { s with media := { s.media with out := s.media.out ++ [m] } }
  if busy then
    let k := l.length - 1 - l.reverse.findIdx (fun a => a.fwd == some 3)
    sent (modHead h (fun x => { x with answers := x.answers.eraseIdx k }) s)
  else if mKind m == 3 || mKind m == 4 then
    sent { s with media := { s.media with running := if mKind m == 3 then some h else none } }
  else if l.any (fun a => a.fwd.isSome) then
    let k := l.findIdx (fun a => a.fwd.isSome)
    modHead h (fun x => { x with answers := x.answers.set k { msgs := [m] } }) s
  else sent s

/-- PASS_JUDGE: the last beat of a head's pass; the messages behind it are served (R373, R397). -/
def execPassJudge (head : Nat) (samples : List Byte) (s : State) : Out :=
  checked (head < 16) <|
    match (headAt head s).pass with
    | none => s
    | some (fr, sync, _) => serveQueue 16 (endPass head fr.toNat sync samples s)

/-- A message of the KIND that its command names; with another KIND it is not that command's message. -/
def ofKind (kind : Nat) (m : BitVec 64) (s : State) : State := if mKind m == kind then takeMessage m s else s

/-- ATTACH (R385). -/
def execAttach (m : BitVec 64) (s : State) : Out := .next (ofKind 0x1 m s)
/-- DETACH (R385). -/
def execDetach (m : BitVec 64) (s : State) : Out := .next (ofKind 0x2 m s)
/-- FEED (R386). -/
def execFeed (m : BitVec 64) (s : State) : Out := .next (ofKind 0x3 m s)
/-- VERIFY_GOOD (R390). -/
def execVerifyGood (m : BitVec 64) (s : State) : Out := .next (ofKind 0x4 m s)
/-- VERIFY_BAD (R391). -/
def execVerifyBad (m : BitVec 64) (s : State) : Out := .next (ofKind 0x5 m s)
/-- FRAG_OPEN (R395). -/
def execFragOpen (m : BitVec 64) (s : State) : Out := .next (ofKind 0x8 m s)
/-- PASS (R396). -/
def execPass (m : BitVec 64) (s : State) : Out := .next (ofKind 0x9 m s)
/-- FRAG_READ (R398). -/
def execFragRead (m : BitVec 64) (s : State) : Out := .next (ofKind 0xA m s)
/-- FRAG_CLOSE (R398). -/
def execFragClose (m : BitVec 64) (s : State) : Out := .next (ofKind 0xB m s)

/-- KIND values that R374 lists. -/
def knownKind (k : Nat) : Bool := (1 ≤ k && k ≤ 5) || (8 ≤ k && k ≤ 0xB)

/-- MEDIA_RESERVED_MSG: a reserved KIND receives NAK 0x01 (R376). -/
def execMediaReservedMsg (m : BitVec 64) (s : State) : Out :=
  .next (if knownKind (mKind m) then s else takeMessage m s)

/-! ### ACCUM_OPEN and ACCUM_RETURN (R21, R394, R399) -/

/-- The accumulator of this block takes no new read data; its heads and parameters are set (R21, R394). -/
def openAccum (heads : BitVec 16) (param : List Byte) (s : State) : State :=
  let min := leAt param 64 2
  { s with media := { s.media with
    accum := 1, headsMask := heads, ref := padTo 64 param, scoreMin := if min == 0 then 32768 else min
    frags := [], report := List.replicate 6 0 } }

/-- ACCUM_OPEN: the parameter block is read, and the accumulators take no new read data (R21, R394, R420). -/
def execAccumOpen (eid : Nat) (param : HostRead) (s : State) : Out :=
  .next <| dispatch eid 0x30 s fun e s =>
    if s.media.accum != 0 then refuse e 0x21 8 s
    else
      let s := fetchHost (.list eid) [(e.addr.toNat, 128)] s
      match linesOf e.addr.toNat 128 param with
      | .err => refuse e 0x50 0xF0 s
      | .ok bs =>
        let heads := fld e.options.toNat 8 16
        let s := openAccum (BitVec.ofNat 16 heads) bs (modEntry eid (fun e => { e with phase := .waiting }) s)
        tellAccums accOpenJob (le 2 heads ++ padTo 96 bs)
          { s with media := { s.media with accEid := some eid, reportAddr := e.addr } }

/-- Some read's data lies in the accumulator (R21). -/
def accumUsed (s : State) : Bool := s.sched.cws.any (fun c => 768 < c.slot + (if c.wide then 2 else 1))

/-- The accumulators of all blocks are open: the ACCUM_OPEN completes (R21, R420). -/
def openedAll (s : State) : State :=
  match s.media.accEid with
  | some eid =>
    if s.media.accum == 2 && s.media.accWait == 0 then endEntry eid 0 0 0 { s with media := { s.media with accEid := none } }
    else s
  | none => s

/-- ACCUM_DRAIN_END: every read whose data lies in the accumulator has been delivered. It is open, and a follower tells the lead
block (R21, R420). -/
def execAccumDrainEnd (s : State) : Out :=
  .next <|
    if s.media.accum == 1 && !(accumUsed s) then
      let s := { s with media := { s.media with accum := 2 } }
      if s.modes.follower then
        dvSend 0x11 (some s.modes.leadDie) (le 2 (accOpenJob + s.modes.dieId.toNat) ++ [0]) s
      else openedAll s
    else s

/-- Passes are cut, and every fragment closes (R399). -/
def closeFrags (s : State) : State :=
  let s := (List.range 16).foldl (fun s h => cutPass h s) s
  { s with media := { s.media with frags := [] } }

/-- The accumulators of all blocks have returned: REPORT is written in one request (R399, R420). -/
def returnedAll (s : State) : State :=
  match s.media.accEid with
  | some eid =>
    if s.media.accum == 3 && s.media.accWait == 0 && !((s.host.writes ++ s.host.stalled).any (fun q => q.what == .accum eid)) then
      hostWrite (.accum eid) (s.media.reportAddr.toNat + 96) (padTo 32 (s.media.report.flatMap (le 4))) s
    else s
  | none => s

/-- ACCUM_RETURN: passes are cut, fragments close, on every block, and REPORT is written once all have (R399, R420). -/
def execAccumReturn (eid : Nat) (s : State) : Out :=
  .next <| dispatch eid 0x31 s fun e s =>
    if s.media.accum != 2 then refuse e 0x21 7 s
    else
      let s := closeFrags s
      let s := tellAccums accCloseJob [1] { s with media := { s.media with accum := 3, accEid := some eid } }
      serveQueue 16 (modEntry e.eid (fun e => { e with phase := .waiting }) (returnedAll s))

/-- A follower's accumulator is opened, or returned: its counts go back to the lead block (R394, R399, R420). -/
def accumJob (a : AccumIn) (s : State) : State :=
  match a with
  | .open heads param => openAccum heads param s
  | .close =>
    let s := closeFrags s
    let s := dvSend 0x11 (some s.modes.leadDie)
      (le 2 (accCloseJob + s.modes.dieId.toNat) ++ [0] ++ s.media.report.flatMap (le 4)) s
    serveQueue 16 { s with media := { s.media with accum := 0 } }

/-- A follower's accumulator has opened, or has returned with its counts (R399, R420). -/
def accumAnswered (handle : Nat) (counts : List (Nat × Nat)) (s : State) : State :=
  let s := { s with media := { s.media with accWait := s.media.accWait &&& ~~~(BitVec.ofNat 8 (2 ^ (handle % 8))) } }
  if handle / 0x1000 == 1 then openedAll s
  else returnedAll { s with media := { s.media with
    report := counts.foldl (fun r p => r.modify p.1 (· + p.2)) s.media.report } }

/-- Blocks that leave the view are waited for no longer (R412, R420). -/
def accumLeft (s : State) : State :=
  let s := { s with media := { s.media with accWait := s.media.accWait &&& s.dv.view } }
  if s.modes.lead then returnedAll (openedAll s) else s

/-- The REPORT write has been answered: the accumulator serves reads again and the entry completes (R38, R399). -/
def reportAcked (eid : Nat) (err : Bool) (s : State) : State :=
  let s := { s with media := { s.media with accum := 0, accEid := none } }
  if err then endEntry eid 0x50 0xF1 0 s else endEntry eid 0 0 0 s

/-! ### MEDIA_ABORT (R400) -/

/-- One head of a MEDIA_ABORT: its run, feed and pass are cut and its fed list cleared. -/
def abortHead (s : State) (h : Nat) : State :=
  let s := cutPass h (cutFeed h s)
  modHead h (fun x => { x with fed := [], aborts := x.aborts + 1 }) s

/-- MEDIA_ABORT (R43, R400). -/
def execMediaAbort (m : Word) (s : State) : Out :=
  .next <|
    if sbReady s && sbKind m == 3 then
      let mask := sbLow m
      let s := ((List.range 16).filter (bitAt mask)).foldl abortHead (sbTake s)
      let s := addRec (mkRec 0x34 0 [(2, mask), (8, recTime s)]) s
      serveQueue 16 { s with media := { s.media with aborts := s.media.aborts + 1 } }
    else s

/-- Feeds whose group has been freed are cut (R388). -/
def cutLostFeeds (s : State) : State :=
  (List.range 16).foldl (fun s h =>
    match (headAt h s).feed with
    | some f => if groupServes f.group s then s else cutFeed h s
    | none => s) s

end Sys2Proof.Machine
end

