-- ==== Sys2Proof/Machine/Channels.lean ====
section
/-!
DEFINITION. Training and retraining of the channels: die types checked, targets judged, the rate chosen, and the drift
monitor's searches (R181, R182, R188, R189, R203 to R209, R265).
-/
namespace Sys2Proof.Machine

/-! ### Die types (R187, R188) -/

/-- An arrayStarts entry is well formed: unused, or a kind and a clamp cost in their ranges (R184, R186). -/
def startOk (b : List Byte) (i : Nat) : Bool :=
  let e := slice b (4 * i) 4
  e.all (· == 0) || (1 ≤ byteAt e 1 && byteAt e 1 ≤ 5 && 1 ≤ byteAt e 2 && byteAt e 2 ≤ 63 && byteAt e 3 == 0)

/-- Some arrayStarts entry has the command byte given. -/
def startListed (b : List Byte) (cmd : Nat) : Bool :=
  (List.range 8).any (fun i => byteAt b (4 * i) == cmd && byteAt b (4 * i + 1) != 0)

/-- A suspend that suspendFlags allows has its constants, and its resume byte is listed (R188). `k` is the index of the
suspend constant. -/
def suspendOk (t k : Nat) (s : State) : Bool :=
  let c := dieBytes t 0x12 s
  byteAt c k != 0 && byteAt c (k + 1) != 0 && startListed (dieBytes t 0x13 s) (byteAt c (k + 1))

/-- Rates that Dirad runs in an interface mode, highest first (R178). -/
def modeRates (mode : Nat) : List Nat :=
  match mode with
  | 1 => [1600, 800]
  | 2 | 3 => [3200, 2400, 1600, 800]
  | _ => []

/-- maxRate is a rate of R178 for the mode; 4,800 MT/s belongs to a type qualified for XM (R182). -/
def maxRateOk (t : Nat) (s : State) : Bool :=
  (modeRates (die t 3 s)).contains (die t 4 s) || (die t 3 s == 2 && die t 4 s == 4800)

/-- The largest code profile of the groups known with a member on a channel. -/
def largestProfile (ch : Nat) (s : State) : Nat :=
  (s.stripe.dir.filter (fun e => e.members.any (fun m => ownLun m.lun s && lunChan m.lun == ch))).foldl
    (fun p e => max p e.profile) 0

/-- Checks of a die type, each with the field it concerns, in the order of the fields (R188). -/
def typeChecks (t ch : Nat) (s : State) : List (Nat × Bool) :=
  let v i := die t i s
  let starts := dieBytes t 0x13 s
  let prof := largestProfile ch s
  [ (0x03, 1 ≤ v 3 && v 3 ≤ 3), (0x04, maxRateOk t s), (0x05, !(v 5 == 1 && v 3 != 2)),
    (0x06, v 6 == 3 || v 6 == 4), (0x07, v 7 == 1 || v 7 == 2 || v 7 == 4),
    (0x08, 64 ≤ v 8 && v 8 ≤ 16384), (0x09, 1 ≤ v 9),
    (0x0A, 17536 ≤ v 0xA && v 0xA ≤ 32767 && (prof == 0 || minPageBytes prof ≤ v 0xA)),
    (0x0B, v 0xB ≤ 6), (0x0C, v 0xC ≤ 6), (0x0D, !(v 0xD == 0 && 1 < v 7)), (0x0E, v 0xE ≤ 7),
    (0x0F, (!bitAt (v 0xF) 0 || suspendOk t 0 s) && (!bitAt (v 0xF) 1 || suspendOk t 2 s)),
    (0x10, 1 ≤ v 0x10 && v 0x10 ≤ 32), (0x11, 1 ≤ v 0x11),
    (0x13, (List.range 8).all (startOk starts)
      && (List.range 8).any (fun i => 1 ≤ byteAt starts (4 * i + 1) && byteAt starts (4 * i + 1) ≤ 3)) ]

/-- The first field of a die type that fails; none when the type is accepted (R188). A type refused for the code profile of one
channel's groups is refused on that channel (DESIGN CHOICE, log entry 110). -/
def typeRefused (t ch : Nat) (s : State) : Option Nat :=
  ((typeChecks t ch s).find? (fun c => !c.2)).map (·.1)

/-- A configuration event (R188, R204). -/
def configEvent (cause what sub rate : Nat) (s : State) : State :=
  raisePriv 248 false (le 1 cause ++ le 1 what ++ le 1 sub ++ zeros 1 ++ le 2 rate) s

/-- Die type fitted on each chip enable of a channel (R187). -/
def fittedTypes (ch : Nat) (s : State) : List Nat := (List.range 8).map (fun c => cfg (0x2210 + ch) (c + 1) s)

/-- Interface mode of the type on the lowest-numbered fitted chip enable (R188). -/
def channelMode (ch : Nat) (s : State) : Nat :=
  match (fittedTypes ch s).find? (· != 0) with
  | some t => die t 3 s
  | none => 0

/-- One event for each die type in use that is refused; it names the type (R188). -/
def refuseTypes (s : State) : State :=
  let chans := (List.range 16).filter (fun n => bitAt (cfg 0x2000 1 s) n)
  (List.range' 1 8).foldl (fun st t =>
    let bad := (chans.filter (fun n => (fittedTypes n s).contains t)).filterMap (fun n => typeRefused t n s)
    match bad with
    | f :: fs => configEvent 3 t (fs.foldl min f) 0 st
    | [] => st) s

/-- A die type found too small for a code profile in use, once the directory is known: its targets on the channels given are
not present (R188). -/
def dropType (t : Nat) (chans : List Nat) (s : State) : State :=
  chans.foldl (fun s n => modChan n (fun c =>
    let p := bitsOf ((List.range 8).map (fun i => bitAt c.present.toNat i && c.dieTypes.getD i 0 != t))
    { c with present := BitVec.ofNat 8 p, up := c.up && p != 0 }) s) s

/-- The checks of the types in use again, when recovery has shown the code profiles of the groups (R188). -/
def recheckTypes (s : State) : State :=
  (List.range' 1 8).foldl (fun s t =>
    let bad := (List.range 16).filter (fun n =>
      let c := chanAt n s
      (List.range 8).any (fun i => bitAt c.present.toNat i && c.dieTypes.getD i 0 == t) && (typeRefused t n s).isSome)
    match bad with
    | n :: _ => dropType t bad (configEvent 3 t ((typeRefused t n s).getD 0) 0 s)
    | [] => s) s

/-- One event for each target dropped because its type has another interface mode than its channel (R188). -/
def dropMixed (ch : Nat) (s : State) : State :=
  let mode := channelMode ch s
  (List.range 8).foldl (fun st c =>
    let t := (fittedTypes ch s).getD c 0
    if t != 0 && (typeRefused t ch s).isNone && die t 3 s != mode then configEvent 5 ch c 0 st else st) s

/-! ### Prediction tables (R265) -/

/-- The bit that page type `p` reads for state `st` (R264). -/
def stateBit (b : List Byte) (p st : Nat) : Bool := bitAt (byteAt b (52 + st)) p

/-- Page type `p` has level `k` in its mask exactly when its bit changes there. -/
def levelAgrees (b : List Byte) (p k : Nat) : Bool :=
  bitAt (levelMask b p) k == (stateBit b p (k - 1) != stateBit b p k)

/-- Some feature address carries the level. -/
def levelCarried (b : List Byte) (k : Nat) : Bool :=
  (List.range 4).any (fun i => byteAt b (24 + i) != 0 && (List.range 4).any (fun j => featLevel b i j == k))

/-- The bytes of the header and the cells that must be zero are (R264). -/
def tableZeros (b : List Byte) (bits : Nat) : Bool :=
  zeroAt b 6 2 && zeroAt b 22 2 && zeroAt b 69 1 && zeroAt b 95 161
    && zeroAt b (52 + 2 ^ bits) (16 - 2 ^ bits)
    && (List.range 512).all (fun c =>
      zeroAt b (256 + 16 * c + 15) 1 && (bits == 4 || zeroAt b (256 + 16 * c + 7) 8))

/-- The prediction table passes its checks for the cell bits given (R265). -/
def tableChecks (b : List Byte) (bits : Nat) : Bool :=
  let levels := 2 ^ bits - 1
  let states := (List.range (2 ^ bits)).map (fun st => byteAt b (52 + st) % 2 ^ bits)
  leAt b 0 4 == 0x0D1AD05E && byteAt b 4 == levels && byteAt b 5 == bits
    && !hasDup states
    && (List.range bits).all (fun p => (List.range' 1 levels).all (levelAgrees b p))
    && (List.range' 1 levels).all (levelCarried b)
    && byteAt b 71 % 2 == 0
    && tableZeros b bits

/-- The tables of the die types in use are checked; an invalid one raises the read recovery event (R265). -/
def checkTables (s : State) : State :=
  let chans := (List.range 16).filter (fun n => bitAt (cfg 0x2000 1 s) n)
  let inUse t := chans.any (fun n => (fittedTypes n s).contains t)
  let ok := (List.range' 1 8).map (fun t => inUse t && tableChecks (table t s) (die t 6 s))
  let bad := (List.range' 1 8).filter (fun t => inUse t && !ok.getD (t - 1) false)
  bad.foldl (fun s _ => raise 114 s) { s with recov := { s.recov with tableValid := ok, tablesJudged := true } }

/-! ### Rates (R182, R204) -/

/-- XM is allowed on a channel whose present targets have the types given (R182). -/
def xmAllowed (ch : Nat) (types : List Nat) (s : State) : Bool :=
  cfgBool 0x2000 2 s && 4800 ≤ cfg (0x2010 + ch) 1 s && types.all (fun t => die t 5 s == 1 && 4800 ≤ die t 4 s)

/-- Rates of a channel that R182, rateCap and the maxRate of every present target allow, highest first (R204). -/
def allowedRates (ch : Nat) (types : List Nat) (s : State) : List Nat :=
  let xm := if xmAllowed ch types s then [4800] else []
  xm ++ (modeRates (channelMode ch s)).filter (fun r => r ≤ cfg (0x2010 + ch) 1 s && types.all (fun t => r ≤ die t 4 s))

/-- Sub-steps of an attempt in a data mode, by their place among 4a to 4e: 4c in NV-LPDDR4 and XM, 4d in XM (R203). -/
def subSteps (mode : Nat) : List Nat :=
  [0, 1] ++ (if mode == 2 || mode == 4 then [2] else []) ++ (if mode == 4 then [3] else []) ++ [4]

/-- Budget of a sub-step in µs (R203). -/
def subBudget (i : Nat) : Nat := [500, 1500, 1000, 500, 1500].getD i 0

/-- An attempt on a target passes: every sub-step of the mode ends within its budget and finds no eye narrower than trainMinEye
(R203). A sub-step that the target shows nothing of has failed. -/
def attemptOk (mode : Nat) (subs : List SubStep) (s : State) : Bool :=
  (subSteps mode).all (fun i => match subs[i]? with
    | some x => x.micros ≤ subBudget i && cfg 0x2000 5 s ≤ x.eye
    | none => false)

/-- The bus cycles of a routine of the library from the word at the jig's pc until it returns to dispatch. The die is ready at
each poll, and MOVER_DONE and the timer are done: how often a poll is repeated is timing (log entry 106). -/
def routineBus (ch : Nat) (x : Sel) (s : State) : Nat → Jig → List Bus
  | 0, _ => []
  | n + 1, g =>
    let w := (storeWord ch g.pc.toNat s).toNat
    let b := if mwBus w == 0 then [] else [busOf ch w g x s]
    match seqGo w (condOf ch w g x {} s) true g.item g with
    | .to a stack => if a == 0x010 then b else b ++ routineBus ch x s n { regsAfter w g g with
        pc := BitVec.ofNat 11 a, stack := stack, mover := BitVec.ofNat 4 (routeOf w g) }
    | _ => b

/-- A routine that TRAIN or a fallback runs on a target and LUN, with its job registers: its cycles go to the channel. -/
def runRoutine (ch ce lun a : Nat) (regs : List (Nat × Nat)) (s : State) : State :=
  let g : Jig := {
    pc := BitVec.ofNat 11 a, stack := [0x010], timerDone := true
    dataBuf := (List.range 512).map Config.trainingPattern
    j := regs.foldl (fun j r => j.set r.1 (BitVec.ofNat 32 r.2)) ((List.replicate 16 0).set 4 0x40) }
  modChan ch (fun c => { c with trainBus := c.trainBus ++ routineBus ch ⟨some ce, lun⟩ s 64 g }) s

/-- J6 for a burst of 512 bytes of training pattern. -/
def patternRegs : List (Nat × Nat) := [(6, 16)]

/-- Sub-steps 4b and 4e on a target, after its duty-cycle training: the die's training commands where trainingFlags marks them
supported, else a pattern written to the page register and read back (R179, R185, R203; log entry 106). -/
def trainTarget (ch : Nat) (s : State) (ce : Nat) : State :=
  let f := die ((chanAt ch s).dieTypes.getD ce 0) 0x1B s
  let run (a : Nat) (s : State) : State := runRoutine ch ce 0 a patternRegs s
  let s := if bitAt f 2 then run 0x2DB s else s
  let s := if bitAt f 0 then run 0x2D8 s else run 0x2A2 s
  if bitAt f 1 then run 0x2DA (run 0x2D9 s) else run 0x2A2 s

/-- A feature of a target is set and got again (R191). -/
def setFeature (ch ce : Nat) (f : BitVec 40) (s : State) : State :=
  let regs := [(8, f.toNat % 256), (10, f.toNat / 256)]
  runRoutine ch ce 0 0x2CC regs (runRoutine ch ce 0 0x2C8 regs s)

/-- One rate of R204: every target is switched to it by feature command and calibrated, and each is trained (R73 steps 3 and
4, R179). -/
def tryRate (ch : Nat) (ces : List Nat) (s : State) (rate : Nat) : State :=
  let mode := channelMode ch s
  let s := ces.foldl (fun s c => runRoutine ch c 0 0x2D4 []
    (setFeature ch c (Config.targetFeature 1 mode rate) (setFeature ch c (Config.targetFeature 0 mode rate) s))) s
  ces.foldl (trainTarget ch) s

/-- The rates that the procedure of R204 tries: those above the one it ends at, and that one. -/
def triedRates (rates : List Nat) (r : Nat) : List Nat := rates.filter (fun q => r ≤ q)

/-- A training of targets has made new timing sets (R181, R203). -/
def setTimings (ch : Nat) (ces : List Nat) (s : State) : State :=
  let (n, s) := takeFree s
  modChan ch (fun c => { c with timing := (List.range 8).map (fun i => if ces.contains i then n else c.timing.getD i 0) }) s

/-- The procedure of R204 over the rates left: the rate reached, and the targets that passed there. A target that fails at
the lowest rate is not present. -/
def tryRates (mode : Nat) (s : State) : List Nat → Nat → List TargetIn → Nat × List TargetIn
  | [], _, ts => (10, ts)
  | r :: rest, k, ts =>
    let ok := ts.filter (fun t => attemptOk (if r == 4800 then 4 else mode) (t.rates.getD k []) s)
    if ok.length == ts.length || rest.isEmpty then (r, ok) else tryRates mode s rest (k + 1) ts

/-- A rate in force: the mode, the multiple and the rate of the channel (R178, R216). -/
def setRate (ch rate : Nat) (s : State) : State :=
  let mode := if rate == 10 then 0 else if rate == 4800 then 4 else channelMode ch s
  modChan ch (fun c => { c with
    rate := rate, mode := BitVec.ofNat 4 mode, mult := BitVec.ofNat 4 (max 1 (rate / 800)) }) s

/-- Bits of the chip enables of a list of targets. -/
def ceMask (ts : List TargetIn) : Nat := bitsOf ((List.range 8).map (fun c => ts.any (fun t => t.ce == c)))

/-! ### Drift and searches (R205 to R209) -/

/-- DRIFT_TRIP: a measure of the channel's drift monitor; the monitor trips at driftTripLevel and a search starts (R205,
R206). -/
def execDriftTrip (ch : Nat) (measure : Byte) (s : State) : Out :=
  checked (ch < 16) <|
    driftMeasure ch measure s

/-- RETRAIN_DUE: in XM, tRTINT has passed since the last apply (R205, R206). -/
def execRetrainDue (ch : Nat) (s : State) : Out :=
  checked (ch < 16) <|
    if (chanAt ch s).mode == 4 then startRetrain ch (modChan ch (fun c => { c with retrainDue := true }) s) else s

/-- The TRAIN item of an apply, for the lowest present target (R162, R207). -/
def trainJob (ch : Nat) (s : State) : State := trainItem .train 0 ch s

/-- Targets lost at 800 MT/s are not present: their LUNs' members are failed (R189, R204, R328 cause 0x4). -/
def dropTargets (ch mask : Nat) (s : State) : State :=
  let gone := (List.range 8).filter (fun c => bitAt (chanAt ch s).present.toNat c && !bitAt mask c)
  let s := modChan ch (fun c => { c with present := BitVec.ofNat 8 mask }) s
  (gone.flatMap (fun c => (List.range 4).map (fun l => globalLun ch c l s))).foldl (fun s u =>
    if (membersOn u s).isEmpty then s else lunDown u 4 s) s

/-- Three bad searches in a row: the channel falls to a lower rate by the procedure of R204 (R208). -/
def fallBack (ch : Nat) (targets : List TargetIn) (s : State) : State :=
  let c := chanAt ch s
  let types := ((List.range 8).filter (fun i => bitAt c.present.toNat i)).map (fun i => c.dieTypes.getD i 0)
  let lower := (allowedRates ch types s).filter (· < c.rate)
  let ts := targets.filter (fun t => bitAt c.present.toNat t.ce)
  if lower.isEmpty then modChan ch (fun c => { c with badRun := 0 }) s
  else
    let (r, ok) := tryRates (channelMode ch s) s lower 0 ts
    let s := (triedRates lower r).foldl (tryRate ch (ts.map (·.ce))) s
    let s := setTimings ch (ok.map (·.ce)) (dropTargets ch (ceMask ok) (setRate ch r s))
    let s := modChan ch (fun c => { c with
      fallback := true, fallbackCount := min (c.fallbackCount + 1) 65535, lastStep := 2, lastResult := 0, badRun := 0
      restartPend := false, driftTrip := false, retrainDue := false, drift := 0
      trip := BitVec.ofNat 8 (leVal (stored 0x2000 3 s)), up := ok.length != 0 }) s
    configEvent 4 ch 0 r s

/-- A fallback that is due is performed once the operations in flight have ended; until then the channel takes no new job
(R208). -/
def settleFall (s : State) (ch : Nat) : State :=
  if (jigAt ch s).fallPend && (runningJobs ch s).isEmpty then
    let ts := (chanAt ch s).fallIn
    fallBack ch ts (modChan ch (fun c => { c with fallIn := [], training := false })
      (modJig ch (fun g => { g with fallPend := false }) s))
  else s

/-- A bad search: counted, the training event, and after the third in a row a fallback (R206, R208). -/
def badSearch (ch result : Nat) (targets : List TargetIn) (s : State) : State :=
  let s := raise (98 + ch) (modChan ch (fun c => { c with
    search := false, failCount := satAdd c.failCount 1, searchFails := c.searchFails + 1
    lastResult := BitVec.ofNat 4 result, restartPend := true, badRun := c.badRun + 1 }) s)
  if (chanAt ch s).badRun == 3 then
    settleFall (modChan ch (fun c => { c with fallIn := targets, training := true })
      (modJig ch (fun g => { g with fallPend := true }) s)) ch
  else s

/-- LAST_RESULT of a search: 0 good, 1 beyond tRTSRCH or 256 bursts, 2 an eye narrower than trainMinEye (R206, R216). -/
def judgeSearch (r : SearchResult) (s : State) : Nat :=
  if 2000 < r.micros || 256 < r.bursts then 1 else if r.eye < cfg 0x2000 5 s then 2 else 0

/-- RETRAIN_SEARCH_END: a good search places a TRAIN item at priority 0; a bad one keeps the settings in force (R206 to
R208). A pattern job not yet popped goes with its search. Under HOLDUP no apply starts. -/
def execRetrainSearchEnd (ch : Nat) (r : SearchResult) (targets : List TargetIn) (s : State) : Out :=
  checked (ch < 16) <|
    if !(chanAt ch s).search then s
    else
      let s := withdraw (fun j => j.owner == .pattern && j.ch == ch) s
      if judgeSearch r s == 0 then
        let s := modChan ch (fun c => { c with search := false, badRun := 0 }) s
        if s.modes.holdup then s else trainJob ch s
      else badSearch ch (judgeSearch r s) targets s

/-- SEARCH_RESTART: 10 ms after a bad search it starts again, if its cause still holds (R206). -/
def execSearchRestart (ch : Nat) (s : State) : Out :=
  checked (ch < 16) <|
    if (chanAt ch s).restartPend then startRetrain ch (modChan ch (fun c => { c with restartPend := false }) s) else s

end Sys2Proof.Machine
end

