-- ==== Sys2Proof/Machine/Recovery.lean ====
section
/-!
DEFINITION. The window grant, the journal anchor, journal recovery and the seal scan (R313 to R319, R366, R367, R594 to
R596). What recovery reads from flash comes with its command; the pages it programs are jobs (log entry 24).
-/
namespace Sys2Proof.Machine

/-! ### The anchor (R313, R314) -/

/-- The 64 bytes of an anchor record. -/
def anchorBytes (sec rec : Nat) (s : State) : List Byte := cabBytes (0x700 + sec) (8 * rec) 8 s

/-- A record with a correct MAGIC and ACRC. -/
def anchorOk (b : List Byte) : Bool := leAt b 0 4 == 0x0D1AAC40 && leAt b 60 4 == crc32c (b.take 60)

/-- Every word of the anchor area is erased: a first start (R315). -/
def anchorsBlank (s : State) : Bool := (List.range 64).all (fun k => sectorErased (0x700 + k) s)

/-- Places of the valid records. -/
def anchorPlaces (s : State) : List (Nat × Nat) :=
  if anchorsBlank s then []
  else ((List.range 4096).map (fun i => (i / 64, i % 64))).filter (fun p => anchorOk (anchorBytes p.1 p.2 s))

/-- The record of two with the higher ASEQ. -/
def laterAnchor (s : State) (a b : Nat × Nat) : Nat × Nat :=
  if leAt (anchorBytes a.1 a.2 s) 4 4 < leAt (anchorBytes b.1 b.2 s) 4 4 then b else a

/-- The valid anchor: the record with the highest ASEQ (R314). -/
def validAnchor (s : State) : Option (Nat × Nat) :=
  match anchorPlaces s with
  | [] => none
  | p :: ps => some (ps.foldl (laterAnchor s) p)

/-- The valid anchor taken into the journal's state (R315 step 1). -/
def takeAnchor (sec rec : Nat) (s : State) : State :=
  let b := anchorBytes sec rec s
  let a := leAt b 12 2 % 4096
  let c := leAt b 14 2 % 4096
  modJrnl (fun j => { j with
    anchorValid := true, anchorSector := sec, anchorRecord := rec, aseq := BitVec.ofNat 32 (leAt b 4 4)
    epoch := BitVec.ofNat 32 (leAt b 8 4), lunA := a, lunB := c, baseBlock := leAt b 16 2, blocks := leAt b 18 2
    foldJseq := leAt b 20 8, foldPage := leAt b 28 4, anchorMib := leAt b 32 4
    pj := min (lunPages a s) (lunPages c s), oldPair := (a, c) }) s

/-- TRAIN step 6 begins: the anchor is selected; with no valid one in an area that is not blank the journal is lost (R315
step 1). -/
def beginRecovery (s : State) : State :=
  let s := modJrnl (fun j => { j with state := 1, recStep := 1 })
    { s with modes := { s.modes with recovering := s.modes.train, stage := if s.modes.train then 0xE else s.modes.stage } }
  match validAnchor s with
  | some (sec, rec) => takeAnchor sec rec s
  | none => if anchorsBlank s then s else setConds (fun m => { m with fenceJournal := true }) s

/-! ### The window (R318, R319) -/

/-- DIR_OFF of the granted window: the end of the dose ledger, rounded up to 64 KiB (R319). -/
def dirOffset (s : State) : Nat := (0x121000 + doseSize s + 65535) / 65536 * 65536

/-- Pages of the ring that the grant is checked against: that of the anchor's pair, else of the pair to be taken (R312). -/
def ringPages (s : State) : Option Nat :=
  if s.stripe.jrnl.anchorValid then some (s.stripe.jrnl.blocks * s.stripe.jrnl.pj)
  else (pickPair [] s).map (fun p => cfg 0x2800 2 s * min (lunPages p.1 s) (lunPages p.2 s))

/-- P_J of the same pair. -/
def ringPj (s : State) : Nat :=
  if s.stripe.jrnl.anchorValid then s.stripe.jrnl.pj
  else match pickPair [] s with
    | some p => min (lunPages p.1 s) (lunPages p.2 s)
    | none => 0

/-- The ring holds at least foldTrigger + 6 × S + 3 × P_J pages; with no pair there is no ring to check (R312). -/
def ringHolds (s : State) : Bool :=
  match ringPages s with
  | some n => cfg 0x2800 3 s + 6 * snapPages s + 3 * ringPj s ≤ n
  | none => true

/-- ERR of a grant; 0 when it passes every check (R318, R324). -/
def grantError (s : State) : Nat :=
  let mib := s.stripe.mib.toNat
  if mib < 16 || 1024 < mib then 1
  else if winBytes s < dirOffset s + 2 ^ 20 then 2
  else if !ringHolds s then 3
  else if s.stripe.jrnl.anchorValid && mib < s.stripe.jrnl.anchorMib then 5
  else 0

/-- The whole window written: header, ledger, bind table, dose ledger and directory (R315, R593). -/
def writeWindow (s : State) : State :=
  winPutAll 0 ((List.range (winBytes s)).map (winByte s)) s

/-- A fresh pair, the window written, and the fold that ends with the anchor (R315 step 2, R366 step 6). Without a pair
there is no journal, and the fence holds until the next start (R306). -/
def newJournal (s : State) : State :=
  match pickPair [] s with
  | some (a, b) =>
    let s := takePair a b s
    startFold (writeWindow (modJrnl (fun j => { j with recStep := 3, oldPair := (a, b) }) s))
  | none =>
    setConds (fun m => { m with fenceJournal := true })
      (writeWindow (modJrnl (fun j => { j with recStep := 3, lunA := 0, lunB := 0 }) s))

/-- The lead block passes its grant to a follower, or to every one (R414). -/
def grantTo (dst : Option (BitVec 3)) (s : State) : State :=
  if s.stripe.granted && inCascade s then dvSend 0x21 dst (le 8 (winBase s) ++ le 4 s.stripe.mib.toNat) s else s

/-- Every block of the segment has sent its copy of the anchor to the new lead block (R419). -/
def copiesIn (s : State) : Bool :=
  s.dv.solo || s.dv.view &&& ~~~(s.dv.copies ||| dieBit s.modes.dieId) == 0

/-- The grant accepted: the layout is fixed, the followers learn it, and recovery goes on (R315 step 2, R318, R319, R414). -/
def acceptGrant (s : State) : State :=
  let off := dirOffset s
  let s := { s with
    stripe := { s.stripe with
      granted := true, err := 0, doseBytes := doseSize s, dirOff := off, dirEntries := (winBytes s - off) / 256
      jrnl := { s.stripe.jrnl with recStart := s.now } }
    recov := { s.recov with ledgerOk := true } }
  let s := grantTo none s
  if anchorsBlank s then newJournal (modJrnl (fun j => { j with epoch := 0 }) s)
  else modJrnl (fun j => { j with recStep := 2 }) s

/-- GRANT written 1 (R318, R414): on a follower it is ignored; before TRAIN step 6 it waits for that step, and on a
new lead block for the segment's copies of the anchor (R419). -/
def tryGrant (s : State) : State :=
  if s.modes.follower then s
  else if s.stripe.granted then { s with stripe := { s.stripe with err := 4 } }
  else if s.stripe.jrnl.recStep != 1 || !(copiesIn s) then { s with stripe := { s.stripe with grantPend := true } }
  else
    let e := grantError s
    if e == 0 then acceptGrant s else { s with stripe := { s.stripe with err := BitVec.ofNat 8 e } }

/-- A grant written earlier is judged once recovery waits for it. -/
def pendingGrant (s : State) : State :=
  if s.stripe.grantPend then tryGrant { s with stripe := { s.stripe with grantPend := false } } else s

/-- A codeword decodes as codeword `c` of ring page `k` of a journal copy: KIND, MEMBER, ROW and CW of its label (R308). -/
def journalCw (copy k c : Nat) : CwSeen → Option (List Byte)
  | .ok u l =>
    if byteAt l 0 == 5 && byteAt l 2 == copy && byteAt l 3 % 16 == c && leAt l 8 4 % 2 ^ 20 == k then some (padTo 4096 u)
    else none
  | _ => none

/-- Codeword `c` of a page: copy A's, or, where that fails, copy B's, as step 6 of the ladder has it for a journal page (R280,
R315 step 3). -/
def eitherCopy (k : Nat) (p : PageRead) (c : Nat) : Option (List Byte) :=
  (journalCw 0 k c (p.a.getD c .erased)).or (journalCw 1 k c (p.b.getD c .erased))

/-- What recovery read of a ring page. -/
def pageAt (i : RecoveryIn) (k : Nat) : PageSeen :=
  let p := (i.pages.lookup k).getD {}
  if (p.a ++ p.b).all (· == .erased) then .erased
  else if (List.range 16).all (fun c => (eitherCopy k p c).isSome) then
    .ok ((List.range 16).flatMap (fun c => (eitherCopy k p c).getD []))
  else .bad

/-- A page with the journal's epoch and the JSEQ expected. -/
def pageFits (epoch jseq : Nat) : PageSeen → Option (List Byte)
  | .ok u => if leAt u 4 4 == epoch && leAt u 8 8 == jseq then some u else none
  | _ => none

/-- The run of pages in ring order, latest last, and the ring index of its last page; none when a page is lost within the
journal. -/
def runFrom (i : RecoveryIn) (epoch blocks pj : Nat) : Nat → Nat → Nat → List (List Byte) → Nat →
    Option (List (List Byte) × Nat)
  | 0, _, _, acc, last => some (acc.reverse, last)
  | fuel + 1, k, jseq, acc, last =>
    match pageFits epoch jseq (pageAt i k) with
    | some u => runFrom i epoch blocks pj fuel (ringNext k blocks pj) (jseq + 1) (u :: acc) k
    | none =>
      match pageAt i k with
      | .ok _ => some (acc.reverse, last)
      | _ =>
        let nb := (k / max 1 pj + 1) % max 1 blocks * pj
        if k % max 1 pj + 1 == pj || pageAt i (k + 1) == .erased then
          match pageFits epoch jseq (pageAt i nb) with
          | some u => runFrom i epoch blocks pj fuel (ringNext nb blocks pj) (jseq + 1) (u :: acc) nb
          | none => some (acc.reverse, last)
        else none

/-- The run that recovery reads: its first page must match the anchor (R595). -/
def journalRun (i : RecoveryIn) (j : Jrnl) : Option (List (List Byte) × Nat) :=
  match pageFits j.epoch.toNat j.foldJseq (pageAt i j.foldPage) with
  | some u => runFrom i j.epoch.toNat j.blocks j.pj (j.blocks * j.pj - 1) (ringNext j.foldPage j.blocks j.pj)
      (j.foldJseq + 1) [u] j.foldPage
  | none => none

/-- Records of a record page. -/
def pageRecords (u : List Byte) : List (BitVec 256) :=
  if byteAt u 0 == 0x7E then
    (List.range (leAt u 2 2)).map (fun k => BitVec.ofNat 256 (leVal (slice u (32 * (k + 1)) 32)))
  else []

/-- The window image of the fold: its S snapshot pages; those of any later fold are passed over (R315 step 4). -/
def foldImage (pages : List (List Byte)) : List Byte :=
  let recs := pageRecords (pages.headD [])
  let n := ((recs.find? (fun r => recType r == 8)).map (fun r => recFld r 16 4)).getD 0
  ((pages.filter (fun u => byteAt u 0 == 0x7F)).take n).flatMap (fun u => u.drop 4096)

/-! ### The snapshot restored (R594) -/

/-- The directory entry that 256 window bytes hold. -/
def parseDir (b : List Byte) : DirEntry :=
  let w := byteAt b 4
  let flags := byteAt b 7
  { group := leAt b 0 3, state := BitVec.ofNat 8 (byteAt b 3), width := w, profile := byteAt b 5 % 4 + 1
    gen := BitVec.ofNat 8 (byteAt b 6), refitSource := bitAt flags 2, refitTarget := bitAt flags 3
    boundRows := bitAt flags 4, nextRow := leAt b 8 4 % 2 ^ 20
    accepted := (List.range 32).filter (fun m => bitAt (leAt b 12 4) m), rows := leAt b 16 2
    lastSeal := BitVec.ofNat 32 (leAt b 20 4), eseq := BitVec.ofNat 32 (leAt b 32 4)
    members := (List.range (w + 2)).map (fun m => memberOf (leAt b (64 + 4 * m) 4))
    short := (List.range (min 6 (byteAt b 248))).map (fun k =>
      (leAt b (200 + 8 * k) 4 % 2 ^ 20, BitVec.ofNat 32 (leAt b (204 + 8 * k) 4)))
    overflow := bitAt (byteAt b 249) 0 }

/-- The bytes of a directory entry cannot be trusted: ECRC fails, or STATE or an MSTATE is reserved (R596). -/
def dirBytesBad (b : List Byte) : Bool :=
  byteAt b 3 != 0 &&
    (leAt b 252 4 != crc32c (b.take 252) || 2 < byteAt b 3 || 4 ≤ byteAt b 5 || 32 < byteAt b 4
      || (List.range (byteAt b 4 + 2)).any (fun m => 3 < fld (leAt b (64 + 4 * m) 4) 12 4))

/-- The loss entry of 24 bytes. -/
def parseLoss (b : List Byte) (lseq : Word) : LossEntry :=
  { group := leAt b 0 3, gen := BitVec.ofNat 8 (byteAt b 3), member := byteAt b 4, cause := BitVec.ofNat 8 (byteAt b 5)
    mask := BitVec.ofNat 16 (leAt b 6 2), first := leAt b 8 4 % 2 ^ 20, count := leAt b 12 4
    time := BitVec.ofNat 48 (leAt b 16 6), lseq := lseq }

/-- The bind entry of 16 bytes. -/
def parseBind (b : List Byte) : BindEntry :=
  { group := leAt b 0 3, first := leAt b 4 4 % 2 ^ 20, rows := leAt b 8 4, job := BitVec.ofNat 32 (leAt b 12 4) }

/-- The dose record of 8 bytes. -/
def parseDose (b : List Byte) : DoseRec :=
  { stamp := BitVec.ofNat 32 (leAt b 0 4), pe := BitVec.ofNat 16 (leAt b 4 2), stamped := bitAt (byteAt b 6) 0
    unknown := bitAt (byteAt b 6) 1 }

/-- Entries of the loss ledger in a window image. -/
def imageLedger (w : List Byte) : List (Nat × LossEntry) :=
  ((List.range 4096).map (fun i =>
    let b := slice w (0x1000 + 32 * i) 32
    (i, parseLoss b (BitVec.ofNat 32 (leAt b 24 4))))).filter (fun p => p.2.count != 0)

/-- Entries of the bind table in a window image. -/
def imageBinds (w : List Byte) : List (Nat × BindEntry) :=
  ((List.range 65536).map (fun i => (i, parseBind (slice w (0x21000 + 16 * i) 16)))).filter (fun p => p.2.rows != 0)

/-- Dose records of a window image, by the LUNs of its layout; those of LUNs no longer present are dropped (R594). -/
def imageDose (w : List Byte) (s : State) : List (Nat × Nat) → Nat → List ((Nat × Nat) × DoseRec)
  | [], _ => []
  | (u, n) :: rest, off =>
    let mine := if lunPresent u s then
        ((List.range (min n (lunBlocks u s))).map (fun b =>
          ((u, b), parseDose (slice w (off + 8 * b) 8)))).filter (fun p => p.2 != {})
      else []
    mine ++ imageDose w s rest (off + 8 * n)

/-- Directory entries of a window image with their bytes: (group, bytes) of every entry that is not blank. -/
def imageDir (w : List Byte) : List (Nat × List Byte) :=
  ((List.range (leAt w 20 4)).map (fun g => (g, slice w (leAt w 16 4 + 256 * g) 256))).filter
    (fun p => p.2.any (· != 0))

/-- The snapshot taken into the tables, region by region (R315 step 4, R594). -/
def restoreImage (w : List Byte) (oldLuns : List (Nat × Nat)) (s : State) : State :=
  let ledger := imageLedger w
  { s with
    stripe := { s.stripe with
      ledger := ledger, lseq := ledger.foldl (fun m p => if m.toNat < p.2.lseq.toNat then p.2.lseq else m) 0
      binds := imageBinds w
      dir := (imageDir w).map (fun p => { parseDir p.2 with group := p.1 }) }
    recov := { s.recov with dose := imageDose w s oldLuns (leAt w 8 4) } }

/-! ### Replay (R309, R369, R392) -/

/-- A directory entry changed in the tables alone. -/
def modDir (g : Nat) (f : DirEntry → DirEntry) (s : State) : State :=
  { s with stripe := { s.stripe with dir := insertDir (f (dirAt g s)) s.stripe.dir } }

/-- One member word changed in the tables. -/
def modMember (g m : Nat) (f : Member → Member) (s : State) : State :=
  modDir g (fun e => { e with members := e.members.modify m f }) s

/-- GROUP_MEMBERS: up to six member words from FIRST. -/
def replayMembers (r : BitVec 256) (s : State) : State :=
  let first := recFld r 2 1
  let n := recFld r 3 1
  modDir (recGroup r) (fun e => { e with members := (List.range (max e.members.length (first + n))).map (fun i =>
    if first ≤ i && i < first + n then memberOf (recFld r (8 + 4 * (i - first)) 4) else e.members.getD i {}) }) s

/-- ROW_SEALED: NEXT_ROW, LAST_SEAL_SEQ, the short list and the highest SEAL_SEQ (R303, R315). -/
def replaySealed (r : BitVec 256) (s : State) : State :=
  let g := recGroup r
  let row := recFld r 8 4
  let w := recFld r 12 12
  if (dirAt g s).state == 0 then s
  else
    let s := modDir g (fun e => { e with
      nextRow := max e.nextRow (row + 1), lastSeal := BitVec.ofNat 32 (sealSeq w) }) s
    let s := modJrnl (fun j => { j with sealNext := BitVec.ofNat 32 (max j.sealNext.toNat (sealSeq w + 1)) }) s
    if sealMask w == 2 ^ (dirAt g s).width - 1 then s else listShort g row (sealMask w) s

/-- The pool entry of a spare LUN. -/
def poolOf (u : Nat) (s : State) : Nat := ((List.range 32).find? (fun i => (poolEntry i s).1 == u)).getD 0

/-- REBUILD_QUEUE: with no spare LUN given the pool gives one again; with none left the rebuild finds no block (R345, R369). -/
def replayQueued (r : BitVec 256) (s : State) : Rebuild :=
  let g := recFld r 4 3
  let failed := recFld r 8 2
  let given := recFld r 10 2
  let i := if given == 0xFFFF then (pickSpare none (concerned g failed s) s).getD 32 else poolOf given s
  { group := g, failedLun := failed, spareLun := if given == 0xFFFF then (poolEntry i s).1 else given, poolIdx := i }

/-- REBUILD_BEGIN: the member lies on its spare, and the rebuild of its LUN is the running one. -/
def replayBegin (r : BitVec 256) (s : State) : State :=
  let g := recGroup r
  let m := recFld r 8 1
  let failed := recFld r 10 2
  let old := memberAt g m s
  let q := s.bg.queue.dropWhile (fun x => x.failedLun != failed)
  let mine : Rebuild := { group := g, failedLun := failed, spareLun := recFld r 12 2, poolIdx := poolOf (recFld r 12 2) s }
  let s := modMember g m (fun _ => { lun := recFld r 12 2, block := recFld r 14 2, mstate := 2 }) s
  let q := q.modify 0 (fun x => { x with spareLun := mine.spareLun, poolIdx := mine.poolIdx })
  { s with bg := { s.bg with
    queue := if q.isEmpty then [mine] else q
    active := true, curGroup := g, curMember := m, pointer := 0, attempts := recFld r 16 1, spareBlock := recFld r 14 2
    failedWord := if old.mstate == 1 then old else { s.bg.failedWord with lun := failed } } }

/-- REBUILD_PROGRESS: the next row of the member it names, whose REBUILD_BEGIN may lie before the fold (R350). -/
def replayProgress (r : BitVec 256) (s : State) : State :=
  let here := s.bg.curGroup == recGroup r && s.bg.curMember == recFld r 8 1
  if s.bg.active && !here then s
  else { s with bg := { s.bg with curGroup := recGroup r, curMember := recFld r 8 1, pointer := recFld r 12 4 } }

/-- The member that was being rebuilt leaves the rebuild. -/
def replayLeave (g : Nat) (s : State) : State :=
  { s with bg := { s.bg with active := false, queue := s.bg.queue.modify 0 (fun r => { r with next := g + 1 }) } }

/-- GROUP_OPENED: a fresh open entry; while a refit has begun and no REFIT_SOURCE has followed, the latest such groups are
its targets (R369). -/
def replayOpened (r : BitVec 256) (s : State) : State :=
  let g := recGroup r
  let s := modDir g (fun e => { group := g, state := 1, width := recFld r 8 1, profile := recFld r 9 1 + 1
                                gen := BitVec.ofNat 8 (recFld r 10 1), rows := recFld r 12 2, eseq := e.eseq }) s
  if s.bg.refitState != 0 && s.bg.sources.isEmpty then
    { s with bg := { s.bg with
      targets := (s.bg.targets ++ [g]).drop (s.bg.targets.length + 1 - s.bg.refitErases) } }
  else s

/-- The refit leaves the tables. -/
def endReplayRefit (s : State) : State :=
  { s with bg := { s.bg with refitState := 0, sources := [], targets := [], refitErases := 0 } }

/-- REFIT_ABANDON: the targets free, the sources normal (R362). -/
def replayAbandon (s : State) : State :=
  let s := s.bg.targets.foldl (fun s g => modDir g (fun e => { group := g, gen := e.gen }) s) s
  endReplayRefit (s.bg.sources.foldl (fun s g => modDir g (fun e => { e with refitSource := false }) s) s)

/-- REFIT_COMMIT: the changes of R360 repeated; the erases are not. -/
def replayCommit (s : State) : State :=
  let s := moveBinds s
  let s := s.bg.targets.foldl (fun s g => modDir g (fun e => { e with state := 2, refitTarget := false }) s) s
  let s := { s with stripe := { s.stripe with
    ledger := s.stripe.ledger.filter (fun p => !(s.bg.sources.contains p.2.group)) } }
  endReplayRefit (s.bg.sources.foldl (fun s g => modDir g (fun e => { group := g, gen := e.gen }) s) s)

/-- One record replayed into the tables; every record sets absolute values (R309). -/
def replayRec (s : State) (r : BitVec 256) : State :=
  let g := recGroup r
  let m := recFld r 8 1
  match recType r with
  | 0x02 => replaySealed r s
  | 0x03 => replayOpened r s
  | 0x04 => replayMembers r s
  | 0x05 => modDir g (fun e => { e with state := 2, nextRow := recFld r 8 4 }) s
  | 0x06 => modDir g (fun e => { group := g, gen := e.gen }) s
  | 0x07 =>
    let k := (recFld r 4 2 % 4096, recFld r 6 2)
    let d := parseDose (le 8 (recFld r 8 8))
    { s with recov := { s.recov with
      dose := if d = {} then dropKey k s.recov.dose else (k, d) :: dropKey k s.recov.dose } }
  | 0x10 => modMember g m (fun _ => { memberOf (recFld r 12 4) with mstate := 1 }) s
  | 0x11 => modMember g m (fun w => { w with mstate := 3 }) s
  | 0x12 => replayBegin r s
  | 0x13 => replayProgress r s
  | 0x14 => replayLeave g (modMember g m (fun w => { w with mstate := 0 }) s)
  | 0x15 => replayLeave g s
  | 0x16 => { s with bg := { s.bg with queue := s.bg.queue ++ [replayQueued r s] } }
  | 0x18 =>
    let e := parseLoss (le 24 (recFld r 8 24)) (s.stripe.lseq + 1)
    { s with stripe := { s.stripe with ledger := putAsc (recFld r 2 2) e s.stripe.ledger, lseq := e.lseq } }
  | 0x19 => { s with stripe := { s.stripe with ledger := dropKey (recFld r 2 2) s.stripe.ledger } }
  | 0x1C => { s with bg := { s.bg with patrolGroup := g, patrolRow := recFld r 8 4 } }
  | 0x20 => { s with bg := { s.bg with
      refitState := 3, planId := BitVec.ofNat 32 (recFld r 8 4), sources := [], targets := [], refitErases := recFld r 13 1
      target := 0, refitRow := 0, unit := 0 } }
  | 0x21 =>
    let s := s.bg.targets.foldl (fun s t => modDir t (fun e => { e with refitTarget := true }) s) s
    modDir g (fun e => { e with refitSource := true }) { s with bg := { s.bg with
      sources := s.bg.sources.filter (· != g) ++ [g] } }
  | 0x22 => { s with bg := { s.bg with target := m, refitRow := recFld r 12 4, unit := recFld r 16 4 } }
  | 0x23 => replayCommit s
  | 0x24 => replayAbandon s
  | 0x30 =>
    let b : BindEntry :=
      { group := g, first := recFld r 8 4, rows := recFld r 12 4, job := BitVec.ofNat 32 (recFld r 16 4) }
    modDir g (fun e => { e with boundRows := true })
      { s with stripe := { s.stripe with binds := putAsc (recFld r 2 2) b s.stripe.binds } }
  | 0x31 => { s with stripe := { s.stripe with binds := dropKey (recFld r 2 2) s.stripe.binds } }
  | _ => s

/-- The rows that records name, with the latest mask of ROW_MEMBERS, and whether a ROW_SEALED record has come (R315). A data
program may end after the row's parity, so that ROW_MEMBERS follows ROW_SEALED. -/
def rowsNamed (l : List ((Nat × Nat) × Nat × Bool)) (r : BitVec 256) : List ((Nat × Nat) × Nat × Bool) :=
  let k := (recGroup r, recFld r 8 4)
  let old := (l.lookup k).getD (0, false)
  match recType r with
  | 0x01 => l.filter (fun x => x.1 != k) ++ [(k, recFld r 12 4, old.2)]
  | 0x02 => l.filter (fun x => x.1 != k) ++ [(k, old.1, true)]
  | 0x03 | 0x06 => l.filter (fun x => x.1.1 != k.1)
  | _ => l

/-- The rows with a ROW_MEMBERS record and no ROW_SEALED record, with the latest mask (R315 step 5). -/
def openRows (recs : List (BitVec 256)) : List (Nat × Nat × Nat) :=
  ((recs.foldl rowsNamed []).filter (fun x => !x.2.2)).map (fun x => (x.1.1, x.1.2, x.2.1))

/-- A group whose entry in the image was bad and that no record has since written whole (R596). -/
def stillBad (recs : List (BitVec 256)) (g : Nat) : Bool :=
  !(recs.any (fun r => (recType r == 3 || recType r == 6) && recGroup r == g))

/-! ### Rows in flight (R316) -/

/-- Codeword `c` of a member as recovery read it; a member out of service is not read. -/
def rowCw (i : RecoveryIn) (g r m c : Nat) (s : State) : CwSeen :=
  if (memberAt g m s).mstate != 0 then .bad
  else match i.rows.find? (fun x => x.group == g && x.row == r && x.member == m) with
    | some x => x.cws.getD c .erased
    | none => .erased

/-- Every codeword of the member's page is erased. -/
def pageErased (i : RecoveryIn) (g r m : Nat) (s : State) : Bool :=
  (List.range 16).all (fun c => rowCw i g r m c s == .erased)

/-- Codeword `c` decodes with the label of the row's page of the KIND given: PROFILE, MEMBER, CW, GROUP, WIDTH and ROW
(R223). -/
def cwIs (kind : Nat) (g r m c : Nat) (e : DirEntry) : CwSeen → Bool
  | .ok _ l => byteAt l 0 == kind && byteAt l 1 % 4 == (e.profile - 1) % 4 && byteAt l 2 == m && byteAt l 3 % 16 == c
      && leAt l 4 3 == g && byteAt l 7 == e.width && leAt l 8 4 % 2 ^ 20 == r
  | _ => false

/-- Every codeword of the member's page decodes with the KIND given. -/
def pageIs (kind : Nat) (i : RecoveryIn) (g r m : Nat) (s : State) : Bool :=
  (List.range 16).all (fun c => cwIs kind g r m c (dirAt g s) (rowCw i g r m c s))

/-- The seal of a row: that of a P or Q codeword whose GROUP, ROW and GEN match (R301). -/
def foundSeal (i : RecoveryIn) (g r : Nat) (s : State) : Option Nat :=
  let e := dirAt g s
  ((List.range 32).filterMap (fun k =>
    let m := e.width + k / 16
    match rowCw i g r m (k % 16) s with
    | .ok u l => if cwIs (2 + k / 16) g r m (k % 16) e (.ok u l) && sealGen (leAt l 16 12) == e.gen.toNat
        then some (leAt l 16 12) else none
    | _ => none)).head?

/-- Nothing of the row has been programmed. -/
def rowBlank (i : RecoveryIn) (g r : Nat) (s : State) : Bool :=
  (List.range ((dirAt g s).width + 2)).all (fun m => (memberAt g m s).mstate != 0 || pageErased i g r m s)

/-- Codeword `c` of a member as the read of a row found it. -/
def recoveryRead (i : RecoveryIn) (g r : Nat) (s : State) (m c : Nat) : MemberRead :=
  let w := (dirAt g s).width
  match rowCw i g r m c s with
  | .ok u l =>
    let kind := if m < w then 1 else 2 + (m - w)
    { member := m, cw := c, data := if cwIs kind g r m c (dirAt g s) (.ok u l) then some u else none, label := l }
  | .erased => { member := m, cw := c, erased := true }
  | .bad => { member := m, cw := c }

/-- What recovery read of a row. -/
def recoveryReads (i : RecoveryIn) (g r : Nat) (s : State) : List MemberRead :=
  (List.range ((dirAt g s).width + 2)).flatMap (fun m => (List.range 16).map (recoveryRead i g r s m))

/-- The page that an erased member receives: pads outside DATA_MASK, sentinels inside it, or parity from the data members in
it (R316, R339). -/
def repairPage (g r m mask : Nat) (reads : List MemberRead) (s : State) : List PageCw :=
  (List.range 16).map (fun c =>
    if m < (dirAt g s).width then (if bitAt mask m then sentinelCw else padCw m) else rebuildCw g m r c mask reads s)

/-- One erased member's page is placed for programming (R316). -/
def repairMember (g r mask w : Nat) (reads : List MemberRead) (s : State) (m : Nat) : State :=
  let id := s.bg.nextRun
  let run : RowRun := { service := .repair, group := g, row := r, member := m, phase := .programming
                        page := repairPage g r m mask reads s, sealW := BitVec.ofNat 96 w }
  programMember (.repair id) g m r 2 (bgHandle id) 0 (BitVec.ofNat 96 w) (takeRow run s)

/-- Members of a row that recovery programs: the erased ones, but for those whose program had passed (R316). -/
def erasedMembers (i : RecoveryIn) (g r passed : Nat) (s : State) : List Nat :=
  (List.range ((dirAt g s).width + 2)).filter (fun m =>
    (memberAt g m s).mstate == 0 && pageErased i g r m s && !bitAt passed m)

/-- The erased members of a row programmed under its seal (R316). -/
def programErased (i : RecoveryIn) (g r passed w : Nat) (s : State) : State :=
  (erasedMembers i g r passed s).foldl (repairMember g r (sealMask w) w (recoveryReads i g r s)) s

/-- DATA_MASK of a row with no seal, by the classes of R316. -/
def classMask (i : RecoveryIn) (g r passed : Nat) (s : State) : Nat :=
  maskOf ((List.range (dirAt g s).width).filter (fun m => bitAt passed m || pageIs 1 i g r m s))

/-- The row ends sealed: its record, the short list, NEXT_ROW (R303, R315 step 6). -/
def settleSeal (g r w : Nat) (s : State) : State :=
  let s := addRec (mkRec 2 g [(8, r), (12, w)]) s
  let s := if sealMask w == 2 ^ (dirAt g s).width - 1 then s else listShort g r (sealMask w) s
  modDir g (fun e => { e with nextRow := max e.nextRow (r + 1), lastSeal := BitVec.ofNat 32 (sealSeq w) }) s

/-- One row resolved: the seal found is adopted, or one of FORM 0x3 is made (R316). -/
def resolveRow (i : RecoveryIn) (g r passed : Nat) (s : State) : State :=
  match foundSeal i g r s with
  | some w =>
    let s := modJrnl (fun j => { j with
      adopted := satAdd j.adopted 1, sealNext := BitVec.ofNat 32 (max j.sealNext.toNat (sealSeq w + 1)) }) s
    settleSeal g r w (programErased i g r 0 w s)
  | none =>
    let e := dirAt g s
    let j := s.stripe.jrnl
    let w := mkSeal j.sealNext.toNat (classMask i g r passed s) 3 e.gen.toNat j.epoch.toNat
    let s := modJrnl (fun j => { j with reparity := satAdd j.reparity 1, sealNext := j.sealNext + 1 }) s
    settleSeal g r w.toNat (programErased i g r passed w.toNat s)

/-- The rows of an open group from NEXT_ROW on that have been begun (R315 step 5). -/
def resolveNext (i : RecoveryIn) (g : Nat) : Nat → State → State
  | 0, s => s
  | fuel + 1, s =>
    let e := dirAt g s
    if e.state == 1 && !e.refitTarget && e.nextRow < e.rows && !rowBlank i g e.nextRow s then
      resolveNext i g fuel (resolveRow i g e.nextRow 0 s)
    else s

/-- Step 5: the rows in flight, then NEXT_ROW of every open group; a group that is full closes (R293). The rows of a refit
target are left to the refit (R363). -/
def resolveRows (i : RecoveryIn) (rows : List (Nat × Nat × Nat)) (s : State) : State :=
  let s := rows.foldl (fun s x => if (dirAt x.1 s).state == 0 || (dirAt x.1 s).refitTarget then s
    else resolveRow i x.1 x.2.1 x.2.2 s) s
  let s := (s.stripe.dir.map (·.group)).foldl (fun s g => resolveNext i g (i.rows.length + 1) s) s
  (s.stripe.dir.map (·.group)).foldl (fun s g =>
    let e := dirAt g s
    if e.state == 1 && e.rows ≤ e.nextRow then
      modDir g (fun e => { e with state := 2 }) (addRec (mkRec 5 g [(8, e.nextRow)]) s)
    else s) s

/-! ### Services resumed (R350, R363) -/

/-- A member in MSTATE 0x2 whose REBUILD_BEGIN came before the fold: its rebuild goes on from a REBUILD_PROGRESS that
followed, else from row 0, and its failed LUN is a free value (R350; log entry 25). -/
def orphanRebuild (s : State) : State :=
  if s.bg.active then s
  else
    match s.stripe.dir.find? (fun e => e.members.any (fun m => m.mstate == 2)) with
    | none => s
    | some e =>
      let m := (e.members.findIdx? (fun w => w.mstate == 2)).getD 0
      let w := memberAt e.group m s
      let (f, s) := takeFree s
      let r : Rebuild := { group := e.group, failedLun := f % 4096, spareLun := w.lun, poolIdx := poolOf w.lun s }
      { s with bg := { s.bg with
        queue := if s.bg.queue.isEmpty then [r] else s.bg.queue
        active := true, curGroup := e.group, curMember := m, spareBlock := w.block
        pointer := if s.bg.curGroup == e.group && s.bg.curMember == m then s.bg.pointer else 0
        failedWord := { lun := f % 4096, mstate := 1 } } }

/-- A target that a seal scan found: bound, as no target of a running refit can be (R367, R380). -/
def scannedTarget (s : State) (e : DirEntry) : Bool := e.refitTarget && s.stripe.binds.any (fun b => b.2.group == e.group)

/-- A refit whose records came before the fold goes on from the flags of the directory; one whose targets were never opened
is dropped (log entry 25). A refit that a seal scan found is the host's to decide: its flags stand (R367). -/
def orphanRefit (s : State) : State :=
  let src := (s.stripe.dir.filter (fun e => e.refitSource)).map (·.group)
  let tgt := (s.stripe.dir.filter (fun e => e.refitTarget && !(scannedTarget s e))).map (·.group)
  if s.stripe.dir.any (scannedTarget s) && tgt.isEmpty && s.bg.refitState == 0 then s
  else if !s.bg.sources.isEmpty && !s.bg.targets.isEmpty then { s with bg := { s.bg with refitErases := 0 } }
  else if !src.isEmpty && !tgt.isEmpty then
    let (f, s) := if s.bg.refitState == 0 then takeFree s else (s.bg.planId.toNat, s)
    { s with bg := { s.bg with
      refitState := 3, planId := BitVec.ofNat 32 f, sources := src, targets := tgt, refitErases := 0 } }
  else
    endReplayRefit (src.foldl (fun s g => modDir g (fun e => { e with refitSource := false }) s) s)

/-- Rebuild and refit resume from their records (R350, R363). -/
def resumeServices (s : State) : State :=
  let s := orphanRefit (orphanRebuild s)
  { s with bg := { s.bg with
    rebuildState := if s.bg.queue.isEmpty then 0 else 2
    refitState := if s.bg.refitState == 0 then 0 else if s.bg.queue.isEmpty then 3 else 2
    refitResume := s.bg.refitState != 0 } }

/-! ### The seal scan (R366, R367) -/

/-- A block whose first label joins a group: (group, member, width, profile). -/
def joins (b : BlockSeen) : Option (Nat × Nat × Nat × Nat) :=
  match b.first with
  | .ok _ l =>
    let k := byteAt l 0
    let w := byteAt l 7
    if 1 ≤ k && k ≤ 4 && 2 ≤ w && w ≤ 32 && byteAt l 2 < w + 2 then some (leAt l 4 3, byteAt l 2, w, byteAt l 1 % 4 + 1)
    else none
  | _ => none

/-- The blocks that the scan reads: those of present LUNs outside the candidates' journal ranges. -/
def scanBlocks (i : RecoveryIn) (s : State) : List BlockSeen :=
  i.scan.filter (fun b => lunPresent b.lun s && (joins b).isSome
    && !((candidates s).contains b.lun && cfg 0x2800 1 s ≤ b.block && b.block < cfg 0x2800 1 s + cfg 0x2800 2 s))

/-- Of two blocks that claim one member the one with the higher programmed row wins, then the lower LUN (R366 step 2). The
event does not name the other (DEDUCED, log entry 124). -/
def betterBlock (a b : BlockSeen) : BlockSeen :=
  if a.last < b.last || (a.last == b.last && b.lun < a.lun) then b else a

/-- The block of a member of a group. -/
def claimant (bs : List BlockSeen) (g m : Nat) : Option BlockSeen :=
  match bs.filter (fun b => (joins b).any (fun j => j.1 == g && j.2.1 == m)) with
  | [] => none
  | b :: rest => some (rest.foldl betterBlock b)

/-- The blocks that won the members of a group of width `w` (R366 step 2). -/
def claimants (bs : List BlockSeen) (g w : Nat) : List BlockSeen := (List.range (w + 2)).filterMap (claimant bs g)

/-- Seals of a group's rows as the blocks of its P and Q members hold them: (row, seal) (R366 step 3). -/
def groupSeals (bs : List BlockSeen) (g w : Nat) : List (Nat × Nat) :=
  ([w, w + 1].filterMap (claimant bs g)).flatMap (fun b => b.seals.map (fun p => (p.1, leAt p.2 16 12)))

/-- The member words that the scan finds. A member found nowhere is failed, on a LUN and block that are free values (R366 step
5); one whose block ends below the group's highest sealed row, `top`, was being rebuilt and stays in MSTATE 0x1 (R367; DEDUCED,
log entry 122). -/
def scanMembers (bs : List BlockSeen) (g w : Nat) (top : Option Nat) (s : State) : List Member × State :=
  (List.range (w + 2)).foldl (fun (acc : List Member × State) m =>
    match claimant bs g m with
    | some b =>
      let cut := match top with
        | some r => decide (b.last < r)
        | none => false
      (acc.1 ++ [{ lun := b.lun, block := b.block, mstate := if cut then 1 else 0 }], acc.2)
    | none =>
      let (f, s) := takeFree acc.2
      (acc.1 ++ [{ lun := f % 4096, block := f / 4096 % 65536, mstate := 1 }], s)) ([], s)

/-- Losses of an unsealed row: a data member that neither decodes nor is erased, one found on no present LUN among them (R366
step 4). -/
def scanLosses (i : RecoveryIn) (g r : Nat) (s : State) : State :=
  (List.range (dirAt g s).width).foldl (fun s m =>
    if !pageErased i g r m s && !pageIs 1 i g r m s && !pageIs 4 i g r m s then addLoss g m r 0xFFFF 5 s else s) s

/-- One group rebuilt from flash (R366 steps 3 to 5, R367): its unsealed rows are sealed, and with one it is open. -/
def scanGroup (i : RecoveryIn) (bs : List BlockSeen) (s : State) (g : Nat) : State :=
  match bs.findSome? (fun b => (joins b).filter (fun j => j.1 == g)) with
  | none => s
  | some (_, _, w, p) =>
    let seals := groupSeals bs g w
    let top := seals.foldl (fun a x => if a.1 ≤ x.1 then x else a) (0, 0)
    let high := (claimants bs g w).foldl (fun n b => max n b.last) 0
    let (ms, s) := scanMembers bs g w (if seals.isEmpty then none else some top.1) s
    let rows := ((ms.filter (fun m => m.mstate == 0)).map (fun m => lunPages m.lun s)).foldl min 16384
    let s := modDir g (fun _ =>
      { group := g, state := 2, width := w, profile := p, gen := BitVec.ofNat 8 (sealGen top.2), rows := rows, members := ms
        nextRow := high + 1, lastSeal := BitVec.ofNat 32 (sealSeq top.2), boundRows := true
        refitTarget := seals.any (fun x => sealForm x.2 == 4) }) s
    let s := (List.range (high + 1)).foldl (fun s r =>
      match seals.lookup r with
      | some x =>
        let s := modJrnl (fun j => { j with sealNext := BitVec.ofNat 32 (max j.sealNext.toNat (sealSeq x + 1)) }) s
        if sealMask x == 2 ^ w - 1 then s else listShort g r (sealMask x) s
      | none =>
        let s := resolveRow i g r 0 (scanLosses i g r s)
        modDir g (fun e => { e with state := if high + 1 < e.rows then 1 else 2 }) s) s
    { s with stripe := { s.stripe with binds := s.stripe.binds ++
      [(s.stripe.binds.length, { group := g, first := 0, rows := high + 1, job := 0xFFFFFFFF })] } }

/-- Groups that the scan finds, ascending. -/
def scanGroups (bs : List BlockSeen) : List Nat :=
  let gs := (bs.filterMap joins).map (·.1)
  (gs.foldl (fun l g => putAsc g () l) []).map (·.1)

/-- A refit that the scan finds keeps the flag of its sources that remain; which groups these were nothing in flash tells: the
flag of a group without FORM 0x4 seals is a free value (R367; log entry 123). -/
def scanSources (s : State) : State :=
  if s.stripe.dir.any (fun e => e.refitTarget) then
    s.stripe.dir.foldl (fun s e =>
      if e.refitTarget then s
      else
        let (f, s) := takeFree s
        modDir e.group (fun e => { e with refitSource := f % 2 == 1 }) s) s
  else s

/-- The seal scan: the tables and the window rebuilt from flash, a new pair with an epoch above every epoch found, a fold
and the anchor (R366). -/
def sealScan (i : RecoveryIn) (s : State) : State :=
  let bs := scanBlocks i s
  let s := setConds (fun m => { m with fenceJournal := true }) s
  let s := { s with
    stripe := { s.stripe with
      granted := false, dir := [], ledger := [], lseq := 0, binds := []
      jrnl := { s.stripe.jrnl with epoch := BitVec.ofNat 32 i.maxEpoch, sealNext := 0, queue := [], live := [] } }
    recov := { s.recov with dose := [] }
    bg := { s.bg with scanned := true, queue := [], active := false, sources := [], targets := [], refitState := 0 } }
  let s := scanSources ((scanGroups bs).foldl (scanGroup i bs) s)
  let s := { s with stripe := { s.stripe with granted := true, jrnl := { s.stripe.jrnl with queue := [] } } }
  let s := if s.stripe.jrnl.anchorValid then s else eraseSector 0x700 s
  journalEvent 4 (newJournal s)

/-! ### Recovery (R315) -/

/-- The journal goes on at page 0 of the block after the run's last page; that block and the next are erased (R595). -/
def nextBlock (last jseq : Nat) (s : State) : State :=
  let j := s.stripe.jrnl
  let b := (last / max 1 j.pj + 1) % max 1 j.blocks
  eraseRing [b, b + 1] (modJrnl (fun j => { j with
    page := b * j.pj, jseq := jseq, durableJseq := jseq, pages := jseq + 1 - j.foldJseq, pageRecs := j.recNo
    durableRec := j.recNo, inFlight := none, copiesLeft := [], folding := false }) s)

/-- Steps 4 to 6 over a run that can be trusted. -/
def replayRun (i : RecoveryIn) (pages : List (List Byte)) (last : Nat) (s : State) : State :=
  let image := foldImage pages
  let recs := pages.flatMap pageRecords
  let base := s.stripe.jrnl
  let quiet := { s with stripe := { s.stripe with granted := false } }
  let t := recs.foldl replayRec (restoreImage image i.oldLuns
    { quiet with stripe := { quiet.stripe with jrnl := { base with sealNext := 0 } } })
  let seen := (t.stripe.dir.filter (fun e => e.nextRow != 0)).foldl (fun m e => max m (e.lastSeal.toNat + 1)) 0
  let t := modJrnl (fun j => { j with
    queue := [], recNo := base.recNo, live := recs.foldl (fun l r => liveAfter r l) []
    sealNext := BitVec.ofNat 32 (max j.sealNext.toNat seen) }) t
  if (imageDir image).any (fun p => dirBytesBad p.2 && stillBad recs p.1) then sealScan i s
  else if t.stripe.dir.any (fun e => e.state != 0 && t.stripe.dirEntries ≤ e.group) then
    journalEvent 6 (writeWindow (modJrnl (fun j => { j with recStep := 5 })
      { t with stripe := { t.stripe with granted := true } }))
  else
    let t := nextBlock last (base.foldJseq + pages.length - 1) t
    let t := resolveRows i (openRows recs) t
    let t := { t with stripe := { t.stripe with
      granted := true, ledgerFull := 4096 ≤ t.stripe.ledger.length
      dir := t.stripe.dir.map (fun e => if e.state == 1 then { e with accepted := [] } else e) } }
    resumeServices (writeWindow (modJrnl (fun j => { j with recStep := 4 }) t))

/-- Initial truing, TRAIN step 5: zone 1 of the most dosed erase block set of each present LUN that holds rows. The rows are
known once the directory is (R284; DESIGN CHOICE, log entry 61). -/
def initialTruing (s : State) : State :=
  if s.modes.train then
    (presentLuns s).foldl (fun s u =>
      match byDose u s (groupBlocks u s) with
      | b :: _ => backgroundSearch u b 1 false s
      | [] => s) { s with recov := { s.recov with sweep := 1 } }
  else s

/-- Clamps of a read on a LUN: the cost that arrayStarts gives its command (R184, R186). -/
def readClamps (u : Nat) (s : State) : Nat :=
  let starts := dieBytes (lunType u s) 0x13 s
  (((List.range 8).find? (fun i => byteAt starts (4 * i + 1) == 1)).map (fun i => byteAt starts (4 * i + 2))).getD 0

/-- The clamps of recovery's reads, one at a time, can be granted: no forecast waits, and the most that a read draws fits the
budget (R16, R438; log entry 24). -/
def recoveryGranted (s : State) : Bool :=
  !s.rack.fcWaiting && s.rack.total + (presentLuns s).foldl (fun n u => max n (readClamps u s)) 0 ≤ budget s

/-- JOURNAL_RECOVERY: steps 3 to 6, or the seal scan (R315, R366, R595, R596). Its reads wait for their clamps, a forecast being
granted first, and return them (R16). -/
def recoverJournal (i : RecoveryIn) (s : State) : State :=
  let waits := s.stripe.jrnl.state == 1 && s.stripe.jrnl.recStep == 2
  let s := if waits then grantForecast s else s
  if waits && recoveryGranted s then
    let s := modJrnl (fun j => { j with recDead := i.dead }) s
    initialTruing <|
      if !s.stripe.jrnl.anchorValid then sealScan i s
      else match journalRun i s.stripe.jrnl with
        | some (pages, last) => replayRun i pages last s
        | none => sealScan i s
  else s

/-! ### The end of recovery (R76, R315 step 7, R328, R429) -/

/-- Members whose LUN of this cascade is not present are declared failed (R189, R328). -/
def absentDown (s : State) : State :=
  let us := ((s.stripe.dir.filter (fun e => e.state != 0)).flatMap (fun e =>
    (e.members.filter (fun m => (m.mstate == 0 || m.mstate == 2) && reachable m.lun s
      && !(lunPresent m.lun s))).map (·.lun))).eraseDups
  us.foldl (fun s u => lunDown u 4 s) s

/-- A block without a partner leads when its TRAIN ends (R76). -/
def soloLeads (s : State) : State :=
  if s.modes.train && s.dv.solo then { s with modes := { s.modes with lead := true, leadDie := s.modes.dieId } } else s

/-- What initial truing has not reached by the end of TRAIN is left to the wake sweep (R284). -/
def endTruing (s : State) : State :=
  if s.recov.sweep == 1 then
    s.recov.searches.foldl (fun s q => dropSearch q.id s) { s with recov := { s.recov with sweep := 0 } }
  else s

/-- TRAIN ends: the conditions that hold decide the primary mode (R76). -/
def endTrain (s : State) : State :=
  if s.modes.train then
    let s := endTruing (soloLeads s)
    applyMode { s with
      modes := { s.modes with train := false, stage := 0xF }, recov := { s.recov with sweepPend := true } }
  else s

/-- Recovery has ended: the window is in use, the failures found are declared before TRAIN ends (R76), and a fold starts
if one is due. A move that began meanwhile goes on, with its fence (R364; DESIGN CHOICE, log entry 118: recovery does not wait
for it). -/
def endRecovery (s : State) : State :=
  let j := s.stripe.jrnl
  let none_ := j.recStep == 3 && j.lunA == 0 && j.lunB == 0
  let s := { s with
    stripe := { s.stripe with
      ready := true
      jrnl := { j with
        state := if none_ then 0 else if j.moving then 3 else 2, recStep := 0, recDead := []
        recMs := satAdd (0 : Word) ((s.now - j.recStart) / 1000) } }
    modes := { s.modes with recovering := false } }
  let s := if j.recStep == 3 && !none_ && !j.moving then setConds (fun m => { m with fenceJournal := false }) s else s
  let s := recheckTypes s
  let s := absentDown (j.recDead.foldl (fun s p => lunDown p.1 p.2 s) (soloLeads s))
  let s := setDegraded (rebuildCond (setConds (fun m => { m with refit := s.bg.refitState != 0 }) s))
  let s := endTrain s
  let s := if s.dv.takeover then raise 65 { s with dv := { s.dv with takeover := false } } else s
  patrolUpdate (foldIfDue s)

/-- Searches of initial truing run in TRAIN, within the 400 ms that R73 gives steps 1 to 5 (R284; log entry 61). -/
def initialRuns (s : State) : Bool :=
  s.modes.train && s.recov.sweep == 1 && !s.recov.searches.isEmpty && s.now < s.recov.trainStart + 400000

/-- Recovery ends once its fold has ended or its records are durable (R315), and TRAIN with it once initial truing is over
(R73). -/
def settleRecovery (s : State) : State :=
  let j := s.stripe.jrnl
  if s.modes.holdup || s.modes.quarantine || repairing s || initialRuns s then s
  else if j.state == 1 && j.recStep == 3 && !j.folding then endRecovery s
  else if j.state == 1 && j.recStep == 4 && recDurable (lastRec s) s then endRecovery s
  else s

end Sys2Proof.Machine
end

