-- ==== Sys2Proof/Machine/Flush.lean ====
section
/-!
DEFINITION. What HOLDUP, the thermal latch, the overvoltage stop, a write fence and a lost lead do to work in progress (R128,
R170, R427, R446, R450, R459).
-/
namespace Sys2Proof.Machine

/-! ### Jobs by what they do -/

/-- The die type of the job's LUN allows an erase suspend (R184, R198). -/
def canSuspend (j : Job) (s : State) : Bool := bitAt (die (lunType j.lun s) 0x0F s) 1

/-- A job that erases. -/
def Job.erases (j : Job) : Bool :=
  match j.owner with
  | .journalErase | .openErase _ _ | .release _ _ | .erase | .refitErase _ _ | .spareErase => true
  | .remote _ => j.items.any (fun it => itemType it == 3)
  | _ => false

/-- A job that programs a page of a group or of the journal. -/
def Job.programs (j : Job) : Bool :=
  match j.owner with
  | .write _ _ | .pad _ _ | .parity _ _ | .journal _ | .spare _ | .target _ _ | .repair _ => true
  | _ => false

/-- An erase in flight. -/
def Job.erasing (j : Job) : Bool := j.erases && j.state == .popped && j.arrayStarted

/-- An erase in flight that a stop suspends (R446, R450, R459). -/
def suspended (s : State) (j : Job) : Bool := j.erasing && canSuspend j s

/-- The erase suspend of a job's die, as the bus cycle that Dirad itself places (R185, R446). -/
def suspendCycle (j : Job) (s : State) : Bus :=
  { code := 2, byte := BitVec.ofNat 8 (byteAt (dieBytes (lunType j.lun s) 0x12 s) 2), ce := some (lunCe j.lun)
    lun := BitVec.ofNat 2 (j.lun % 4), job := j.handle, timing := (chanAt j.ch s).timing.getD (lunCe j.lun) 0 }

/-- Every erase in flight whose die type allows it is suspended: the command joins the channel's bus queue, and the die then
shows the operation suspended to the erase's own words (R446, R450, R459; log entry 131). One that a nested read has
suspended already, or that is on its way to an end without a resume, takes no second command. -/
def suspendErases (s : State) : State :=
  (s.sched.jobs.filter (fun j => suspended s j && !j.abortReq && heldFor j.ch j.lun s != 0)).foldl (fun s j =>
    modJig j.ch (fun g => { g with busQ := g.busQ ++ [suspendCycle j s] }) s) s

/-- The array-start of an operation that holds its clamps has been issued (R194). -/
def inArray (s : State) (j : Job) : Bool := j.state == .popped && j.arrayStarted && heldFor j.ch j.lun s != 0

/-! ### Overvoltage and fences (R128, R446) -/

/-- A fenced entry that the fence refuses although it has been looked at: dispatched and not started, or waiting for a
slot. -/
def fenceHits (s : State) (e : Entry) : Bool :=
  fencedOp e.opcode.toNat && ((e.phase == .waiting && !entryStarted s e) || (e.phase == .fetched && slotWaits e))

/-- While a write fence holds, the entries it refuses complete WRITE_FENCED (R128). -/
def settleFence (s : State) : State :=
  if s.modes.wfence then
    (s.sched.entries.filter (fenceHits s)).foldl (abortEntry 0x31 (fenceDetail s.modes)) s
  else s

/-- The POWER event (R482). -/
def powerEvent (cause : Nat) (s : State) : State :=
  let stats := s.power.ovFences.toNat * 2 ^ 16 + s.power.ovAlerts.toNat
  raisePriv 245 false (le 2 cause ++ le 2 (s.hk.volts.getD 31 0).toNat ++ le 4 stats) s

/-- Stage 2 step 4: the last program status has been captured (R446). -/
def settleOv (s : State) : State :=
  if s.power.ovStage == 2 && !s.power.ovEventDone && !(s.sched.jobs.any (fun j => j.programs && inArray s j)) then
    powerEvent 1 { s with
      power := { s.power with ovEventDone := true, ovFences := satAdd s.power.ovFences 1 }
      stats := { s.stats with ovFences := s.stats.ovFences + 1 } }
  else s

/-- Stage 1 (R445). -/
def stageOne (s : State) : State :=
  if s.power.ovStage == 0 then
    { s with power := { s.power with ovStage := 1, ovAlerts := satAdd s.power.ovAlerts 1 } }
  else s

/-- Stage 2 (R446): the fence, and the erases in flight that are suspended. -/
def stageTwo (s : State) : State :=
  if s.power.ovStage == 2 then s
  else
    setConds (fun m => { m with fenceOv := true })
      (suspendErases { s with power := { s.power with
        ovStage := 2, ovEventDone := false
        ovSuspended := (s.sched.jobs.filter (suspended s)).map (·.lun) } })

/-- Both stages end (R448): suspended erases go on, except in HOLDUP (R449). -/
def stagesEnd (s : State) : State :=
  let two := s.power.ovStage == 2
  let s := { s with
    pins := { s.pins with ovAlert := false, ovHard := false }
    power := { s.power with ovStage := 0, ovSuspended := if s.modes.holdup then s.power.ovSuspended else [] } }
  if two then powerEvent 2 (setConds (fun m => { m with fenceOv := false }) s) else s

/-! ### HOLDUP (R450 to R452) -/

/-- An entry that HOLDUP finds started: a GROUP_OPEN only once its directory entry is written (R451). -/
def holdupStarted (s : State) (e : Entry) : Bool :=
  if e.opcode == 0x20 then e.phase == .ready || e.phase == .writing else entryStarted s e

/-- Jobs that HOLDUP withdraws: ladder, truing and media reads, erases, and applies not yet begun (R207, R450). -/
def holdupDrops (j : Job) : Bool :=
  j.erases || match j.owner with
    | .truing _ | .feed _ | .apply | .train | .pattern | .row _ => true
    | .read _ => j.step != 0
    | _ => false

/-- Codewords whose read is withdrawn end their climb (R281). -/
def endWithdrawn (p : Job → Bool) (s : State) : State :=
  let hs := (s.sched.jobs.filter (fun j => p j && j.unpopped)).map (·.handle)
  (s.sched.cws.filter (fun c => c.state == .reading && hs.contains c.job)).foldl (fun s c => endClimb c s) s

/-- An erase of a RELEASE_GROUP that a stop has cut short counts as ended, not erased (R451). -/
def cutReleases (p : Job → Bool) (s : State) : State :=
  s.sched.jobs.foldl (fun s j =>
    match j.owner with
    | .release eid m => if p j then eraseCut eid m s else s
    | _ => s) s

/-- The services of the block stop: climbs, background work, the merge buffer, the fold (R281, R311, R368, R556). -/
def stopServices (s : State) : State := retireAll (cutFold (stopBackground (stopClimbs s)))

/-- Every row in FILLING is closed short (R305). -/
def closeFilling (s : State) : State :=
  if s.modes.follower then s
  else ((s.stripe.slots.filter (fun k => k.state == .filling)).map (·.group)).foldl (fun s g => closeShort g s) s

/-- The flush begins, steps 1 to 5 (R450). -/
def flushBegins (s : State) : State :=
  let s := (s.sched.entries.filter (fun e => !holdupStarted s e)).foldl (abortEntry 0x12 0) s
  let s := cutReleases (·.unpopped) s
  let s := endWithdrawn holdupDrops s
  let s := abortPopped holdupDrops (withdraw holdupDrops (suspendErases s))
  closeFilling (stopServices s)

/-- Forecasts are handled under R443. -/
def endForecasts (s : State) : State := dropForecast s

/-- pwr_fail_n taken as asserted (R56, R82, R450, R460): the HOLDUP condition, and the flush of the mode that it ends. -/
def powerFails (s : State) : State :=
  if s.pins.inReset || s.modes.holdup then s
  else
    let old := s.modes.mode
    let s := { s with
      pins := { s.pins with pwrFail := true }
      power := { s.power with holdupStart := s.now, holdupTime := 0 } }
    let s := cabHoldup (endForecasts (setConds (fun m => { m with holdup := true, stbyRequested := false }) s))
    match old with
    | .boot | .factory => retireAll s
    | .quarantine => s
    | .train => stopServices s
    | _ => flushBegins s

/-- No journal record is outstanding: there is no journal, recovery has written none yet or found no pair, or every record
generated is durable (R82, R450 step 6, R459 step 3). -/
def recordsDone (s : State) : Bool :=
  let j := s.stripe.jrnl
  j.state == 0 || (j.state == 1 && ((j.recStep != 3 && j.recStep != 4) || (j.lunA == 0 && j.lunB == 0)))
    || (j.inFlight.isNone && recDurable (lastRec s) s)

/-- No work of the flush is left: every job but a suspended erase has ended, every accepted WRITE_ROW has, the rows are
sealed, and the records are durable (R450 steps 4 to 6); on a follower, the lead block has reported its records durable, or
is lost (R455). -/
def flushDone (s : State) : Bool :=
  s.sched.jobs.all (fun j => j.state == .ended || suspended s j)
    && s.sched.entries.all (fun e => !(isWrite e && e.phase == .waiting))
    && (s.codec.encUp == 0 || s.modes.follower || s.stripe.slots.all (fun k => k.state == .free))
    && !(s.dv.recOut && s.dv.leadKnown)
    && recordsDone s

/-- The thermal latch sequence does not stand in the way of holdup_done (R460). -/
def latchAllows (s : State) : Bool := s.power.latchSeq == 0 || s.power.latchSeq == 3

/-- holdup_done rises (R450 step 7). -/
def raiseDone (s : State) : State :=
  { s with
    pins := { s.pins with holdupDone := true }
    power := { s.power with holdupTime := satAdd (0 : BitVec 16) ((s.now - s.power.holdupStart) / 10) } }

/-! ### Work cut off (R128, R170, R427, R459) -/

/-- The row that an entry completed lacks a P or Q program that still runs: it is not sealed, or a program of it was withdrawn
(R128, R300). -/
def parityCut (e : Entry) (s : State) : Bool :=
  match e.needsRow.bind (fun r => findSlot e.group.toNat r s) with
  | some i =>
    let k := slotAt i s
    let running := s.sched.jobs.filter (fun j => j.state == .popped && (match j.owner with | .parity x _ => x == i | _ => false))
    k.state == .filling || running.length < k.parityLeft
  | none => false

/-- A started entry is cut off where a page of it is not programmed yet: an accepted WRITE_ROW's members that no popped job
programs have ended, and so has its row where P or Q is not programmed (R128). -/
def cutWrite (st det : Nat) (s : State) (e : Entry) : State :=
  if isWrite e then
    let running := s.sched.jobs.filterMap (fun j =>
      match j.owner with
      | .write x m => if x == e.eid && j.state == .popped then some m else none
      | _ => none)
    let cut := e.members.filter (fun m => !(running.contains m) && !(e.ended.any (fun p => p.1 == m)))
    if cut.isEmpty && !(parityCut e s) then s else cut.foldl (fun s m => programCut e m s) (noteStatus e.eid st det s)
  else s

/-- Unread members of a started READ are lost (R281). -/
def cutUnread (s : State) (e : Entry) : State :=
  if e.opcode == 0x02 && e.phase == .waiting then
    let n := e.unread.length * e.selected.length
    let s := modEntry e.eid (fun e => { e with unread := [], lost := e.lost + n }) s
    if n == 0 then s else noteStatus e.eid 0x30 3 s
  else s

/-- Erases of a started entry that are withdrawn: it completes ABORTED with the detail given. -/
def cutErases (det : Nat) (s : State) : State :=
  s.sched.jobs.foldl (fun s j =>
    if j.unpopped then
      match j.owner with
      | .release eid m | .openErase eid m => noteStatus eid 0x10 det (modEntry eid (fun e => { e with
          ended := e.ended ++ [(m, false)] }) s)
      | _ => s
    else s) s

/-- The THERMAL event (R482). -/
def thermalEvent (cause : Nat) (s : State) : State :=
  raisePriv 246 false ([BitVec.ofNat 8 cause, s.hk.tmaxSensor] ++ le 2 s.hk.tmax.toNat) s

/-- The latch sequence, step 1 and the suspends of step 2 (R459); during HOLDUP the flush goes on (R460). Where BOOT
stands, it ends, and the keys are locked (R56, R70). -/
def latchSets (s : State) : State :=
  if s.modes.quarantine then s
  else
    let held := s.modes.holdup
    let s := if s.modes.boot then lockKeys s else s
    let s := thermalEvent 2 (setConds (fun m => { m with quarantine := true, boot := false, stbyRequested := false }) s)
    let s := { s with power := { s.power with latchSeq := if held then 0 else 1 } }
    if held then s
    else
      let s := (s.sched.entries.filter (fun e => !entryStarted s e)).foldl (abortEntry 0x10 3) s
      let s := cutErases 3 s
      let s := endWithdrawn (fun _ => true) s
      let s := abortPopped (fun _ => true) (withdraw (fun _ => true) (suspendErases s))
      let s := s.sched.entries.foldl (cutWrite 0x10 3) s
      stopServices (s.sched.entries.foldl cutUnread s)

/-- An operation abandoned at the end of step 2: its entry completes NAND_FAIL with DETAIL 0x04 (R459). -/
def abandonJob (s : State) (j : Job) : State :=
  match j.owner with
  | .read e => failRead e 0x40 4 s
  | .write e m =>
    match entryAt e s with
    | some x => programCut x m (noteStatus e 0x40 4 s)
    | none => s
  | .openErase e m | .release e m =>
    noteStatus e 0x40 4 (modEntry e (fun x => { x with ended := x.ended ++ [(m, false)] }) s)
  | .raw e => noteStatus e 0x40 4 (modEntry e (fun x => { x with phase := .ready }) s)
  | .journal c => journalCopyFailed c s
  | .parity _ _ =>
    match rowEntry j.group j.row s with
    | some e => noteStatus e 0x40 4 s
    | none => s
  | _ => s

/-- Every operation that has not ended is abandoned: its LUN is deselected and its clamps are returned (R459 step 2). -/
def abandonOps (s : State) : State :=
  let js := s.sched.jobs.filter (fun j => j.state == .popped && ownLun j.lun s)
  let s := js.foldl (fun s j =>
    returnLun j.ch j.lun (modJig j.ch (fun g =>
      if g.curJob == some j.handle then { g with ce := none, curJob := none, curOpen := false } else { g with ce := none })
      (abandonJob s j))) s
  let s := { s with sched := { s.sched with
    jobs := s.sched.jobs.map (fun (j : Job) =>
      if js.any (fun (x : Job) => x.handle == j.handle) then { j with state := .ended } else j) } }
  placePageAgain (dropJobs { s with power := { s.power with latchSeq := 2 } })

/-- Step 3 and step 4 of the latch sequence, as they become due (R459). -/
def settleLatch (s : State) : State :=
  let s := if s.power.latchSeq == 1 && !(s.sched.jobs.any (fun j => j.state == .popped)) then
      placePageAgain { s with power := { s.power with latchSeq := 2 } } else s
  if s.power.latchSeq == 2 && recordsDone s then
    (List.range 16).foldl (fun s ch => enterPadHold ch s) { s with power := { s.power with latchSeq := 3 } }
  else s

/-! ### The lead lost (R427, R431) -/

/-- An outstanding entry of a lost lead: ABORTED_LEAD_LOST is its status, whatever was noted before; one that waits completes
once no job of it runs (R427 step 2). -/
def endLost (s : State) (e : Entry) : State :=
  match e.phase with
  | .writing => s
  | .ready => modEntry e.eid (fun e => { e with status := 0x11, detail := 0 }) s
  | _ =>
    if s.sched.jobs.any (fun j => jobOf e.eid j && j.state == .popped) then s
    else modEntry e.eid (fun e => { e with stage := [] }) (abortEntry 0x11 0 s e)

/-- The drain of a lost lead: its entries end, and then no ring state is kept (R427, R431). -/
def settleLost (s : State) : State :=
  if s.dv.draining then
    let s := s.sched.entries.foldl endLost s
    if s.sched.entries.isEmpty then
      { s with
        rings := s.rings.map (fun _ => {})
        stripe := { s.stripe with slots := List.replicate 32 {}, jrnl := { s.stripe.jrnl with state := 0, recStep := 0 } }
        dv := { s.dv with draining := false } }
    else s
  else s

/-- Jobs placed on blocks outside the segment are abandoned (R427). -/
def dropUnreachable (s : State) : State :=
  { s with sched := { s.sched with jobs := s.sched.jobs.filter (fun j => reachable j.lun s) } }

/-- Jobs that no jig has popped are withdrawn, those of blocks outside the segment abandoned; the others run to their end (R170,
R427). -/
def cutJobs (s : State) : State := dropUnreachable (withdraw (fun _ => true) s)

/-- The items of jobs that no jig has popped leave the drawers; the jobs wait (R170). -/
def recallItems (s : State) : State :=
  let gone := (s.sched.jobs.filter (fun j => j.state == .placed)).map (·.handle)
  { s with
    sched := { s.sched with jobs := s.sched.jobs.map (fun j => if j.state == .placed then { j with state := .held } else j) }
    luns := forgetResident ((s.sched.jobs.filter (fun j => j.state == .placed)).map (·.lun)) s.luns
    jigs := s.jigs.map (fun g => { g with
      drawer := g.drawer.filter (fun i => !(gone.contains (itemJob i)))
      waitSince := g.waitSince.filter (fun w => !(gone.contains w.1))
      lock := match g.lock with
        | some i => if gone.contains (itemJob i) then none else g.lock
        | l => l }) }

/-- FENCED sets: no NAND operation is started until it clears (R411, R424, R428). -/
def setFenced (s : State) : State := setConds (fun m => { m with fenced := true, follower := false }) (recallItems s)

/-- The CASCADE event (R482). -/
def cascadeEvent (cause : Nat) (die : BitVec 3) (s : State) : State :=
  raisePriv 247 false ([BitVec.ofNat 8 cause, BitVec.ofNat 8 die.toNat, 0, 0] ++ le 4 s.dv.term.toNat) s

/-- This block loses its lead: LEAD clears, FENCED is set, fetching stops, and its entries are to complete
ABORTED_LEAD_LOST (R427). What only a lead decides ends with it (log entry 26). -/
def loseLead (s : State) : State :=
  if s.modes.lead then
    let s := setConds (fun m => { m with
      lead := false, fenced := true, rebuild := false, refit := false, degraded := false, stbyRequested := false }) s
    let s := { s with
      dv := { s.dv with draining := true, takeover := false, tkClose := false, leadKnown := false }
      stats := { s.stats with leadLosses := s.stats.leadLosses + 1 }
      bg := { s.bg with queue := [], active := false, erasing := false, refitState := 0, rebuildState := 0 } }
    let s := endRows (fun r => r.service != .reconstruct) s
    let s := cascadeEvent 3 s.modes.dieId s
    let s := (s.sched.entries.filter (fun e => !entryStarted s e)).foldl (abortEntry 0x11 0) s
    let s := cutJobs s
    s.sched.entries.foldl (cutWrite 0x11 0) s
  else s

/-! ### A takeover (R419, R429) -/

/-- The window that the last lead block passed on (R414). -/
def takeWindow (s : State) : State :=
  match s.dv.grantWin with
  | some (b, mib) => { s with stripe := { s.stripe with
      baseLo := BitVec.ofNat 12 (b.toNat / 2 ^ 20), baseHi := BitVec.ofNat 32 (b.toNat / 2 ^ 32), mib := BitVec.ofNat 11 mib } }
  | none => s

/-- The layout of a window in use (R319). -/
def layWindow (s : State) : State :=
  let off := dirOffset s
  { s with
    stripe := { s.stripe with
      granted := true, doseBytes := doseSize s, dirOff := off, dirEntries := (winBytes s - off) / 256 }
    recov := { s.recov with ledgerOk := true } }

/-- A copy of the journal lies in the segment (R429). -/
def copyReachable (s : State) : Bool := reachable s.stripe.jrnl.lunA s || reachable s.stripe.jrnl.lunB s

/-- The slots are closed once the programs accepted from the former lead block have ended (R429). -/
def settleClosing (s : State) : State :=
  if s.dv.closing
      && !(s.sched.jobs.any (fun j =>
        j.state == .popped && ownLun j.lun s && j.items.any (fun it => itemType it == 2))) then
    { s with stripe := { s.stripe with slots := List.replicate 32 {} }, dv := { s.dv with closing := false } }
  else s

/-- The takeover goes on with journal recovery, from the latest anchor of the segment (R419, R429). Without a copy of the
journal in its segment the block fences writes, serves reads from the window, and waits. -/
def startTakeover (s : State) : State :=
  let s := beginRecovery (takeWindow { s with dv := { s.dv with tkClose := false } })
  if s.stripe.jrnl.anchorValid && !(copyReachable s) then
    let s := setConds (fun m => { m with fenceJournal := true })
      (modJrnl (fun j => { j with state := 0, recStep := 0 }) { s with dv := { s.dv with takeover := false, tkWait := true } })
    if s.dv.grantWin.isSome then { layWindow s with stripe := { (layWindow s).stripe with ready := true } } else s
  else if s.dv.grantWin.isSome then tryGrant s
  else pendingGrant s

/-- A takeover whose slots are closed, and whose segment has sent its copies of the anchor, goes on (R419, R429). -/
def settleTakeover (s : State) : State :=
  let s := settleClosing s
  if s.dv.tkClose && !s.dv.closing && copiesIn s && !s.modes.holdup && !s.modes.quarantine then startTakeover s else s

end Sys2Proof.Machine
end

