-- ==== Sys2Proof/Machine/Remote.lean ====
section
/-!
DEFINITION. Work of other blocks on this one, and work of this block on others (R415 to R417, R428, R430).
-/
namespace Sys2Proof.Machine

/-! ### Jobs of other blocks (R415) -/

/-- The drawer job serves job `h` of another block. -/
def serves (h : Nat) (j : Job) : Bool := j.owner == .remote h

/-- Codewords read for job `h` of another block. -/
def remoteCws (h : Nat) (s : State) : List Cw :=
  s.sched.cws.filter (fun c => s.sched.jobs.any (fun j => j.handle == c.job && serves h j))

/-- The data item of a job names this block's buffer or staging handle: bits 31 to 16 of a READ, PROGRAM or SENSE item. -/
def setBuf (v : Nat) (it : BitVec 128) : BitVec 128 :=
  if itemType it == 1 || itemType it == 2 || itemType it == 5 then
    it - BitVec.ofNat 128 (fld it.toNat 16 16 * 65536) + BitVec.ofNat 128 (v % 65536 * 65536)
  else it

/-- A page of host data, which this block fetches. -/
def fetches (w : RemoteIn) : Bool := !(endsInRead w.items) && !w.addrs.isEmpty

/-- The page of the job waits for its data: host data, P or Q of its row, or messages (R415, R416). -/
def waitsData (w : RemoteIn) : Bool := fetches w || w.kind == 2 || w.kind == 3 || w.link

/-- The drawer job of a job of another block. -/
def remoteJob (w : RemoteIn) (buf : Nat) : Job :=
  { owner := .remote (remoteKey w), lun := w.lun, prio := w.prio, block := w.block, page := w.page, profile := w.profile
    group := w.group, member := w.member, row := w.row, width := w.width, stamp := w.stamp, sealW := w.sealW, scan := w.scan
    cwMask := w.mask, buf := buf, data := w.data, dataWait := waitsData w, items := w.items.map (setBuf buf) }

/-- The drawer job is placed. -/
def placeRemote (w : RemoteIn) (buf : Nat) (s : State) : Nat × State :=
  let (h, s) := addJob (remoteJob w buf) s
  (h, modRemote (remoteKey w) (fun r => { r with job := some h }) s)

/-- The job's data is there: it names its staging or buffer handle and may be placed. -/
def fillRemote (r : Remote) (buf : Nat) (s : State) : State :=
  match r.job with
  | some h => modJob h (fun j => { j with dataWait := false, buf := buf, items := j.items.map (setBuf buf) }) s
  | none => s

/-- Codewords that a job reads. -/
def wanted (w : RemoteIn) : List Nat := (List.range 16).filter (fun c => bitAt w.mask.toNat c)

/-- The codewords of a read, at consecutive landing slots from `slot`, two for each of a scan read; positions count from `pos`
(R233). -/
def remoteCwList (w : RemoteIn) (job slot : Nat) : Nat → List Nat → List Cw
  | _, [] => []
  | pos, c :: cs =>
    { job := job, group := w.group, member := w.member, row := w.row, cw := c, lun := w.lun
      slot := slot + (if w.scan then 2 else 1) * pos, pos := pos, wide := w.scan }
      :: remoteCwList w job slot (pos + 1) cs

/-- A job begins when it can: a read when landing slots are free, the fetch of host data when a staging set is, from the
addresses that the job carries (R230, R233, R415). -/
def beginRemote (w : RemoteIn) (s : State) : State :=
  let key := remoteKey w
  if endsInRead w.items then
    match findLanding s ((if w.scan then 2 else 1) * (wanted w).length) with
    | some slot =>
      let (h, s) := placeRemote w slot s
      { s with sched := { s.sched with cws := s.sched.cws ++ remoteCwList w h slot 0 (wanted w) } }
    | none => s
  else
    match findStage s with
    | some set =>
      let s := modRemote key (fun r => { r with stage := some set }) s
      (List.range 16).foldl (fun s c =>
        (w.addrs.getD c []).foldl (fun s p => hostReadData (.remote key c) p.1.toNat p.2 s) s) s
    | none => s

/-- A job that still has to begin: a read without its drawer job, a fetch without its staging set. -/
def begins (r : Remote) : Bool :=
  r.outcome.isNone && !r.dropped
    && (if endsInRead r.work.items then r.job.isNone else fetches r.work && r.stage.isNone && !r.fetched)

/-- Every job of another block that waits begins if it can, in the order of arrival. -/
def pumpRemotes (s : State) : State := (s.dv.remotes.filter begins).foldl (fun s r => beginRemote r.work s) s

/-- JOB_END: outcome, and each codeword with whether it was delivered or lost, and the ladder step or DETAIL (R415, R432; DESIGN
CHOICE, log entry 129). -/
def sendEnd (w : RemoteIn) (outcome : Byte) (delivered lost : List (Nat × Nat)) (hostErr : Bool) (s : State) : State :=
  dvSend 0x11 (some w.src)
    (le 2 w.handle ++ [outcome, BitVec.ofNat 8 (b2n hostErr)]
      ++ (delivered.map (fun p => le 1 p.1 ++ [0] ++ le 1 p.2)).flatten
      ++ (lost.map (fun p => le 1 p.1 ++ [1] ++ le 1 p.2)).flatten) s

/-- The fetch of a job's host data is reported: whole, or ended by a host fabric error (R38, R415). -/
def reportFetch (r : Remote) (err : Bool) (s : State) : State :=
  sendEnd r.work (if err then 5 else 0) (if err then [] else (List.range 16).map (fun c => (c, 0))) [] err
    (modRemote (remoteKey r.work) (fun r => { r with fetched := true, hostErr := err }) s)

/-- Where the bytes of a request lie in their codeword: those of the pieces before it, and those before it in its own. -/
def pieceOff (addr : Nat) : List (BitVec 64 × Nat) → Nat
  | [] => 0
  | p :: ps => if p.1.toNat ≤ addr && addr < p.1.toNat + p.2 then addr - p.1.toNat else p.2 + pieceOff addr ps

/-- A request for a codeword of a page of host data is answered by its beats, and its bytes enter staging (R34). An error ends
the fetch (R38, R415). -/
def remoteArrived (h c addr len : Nat) (a : HostRead) (s : State) : State :=
  match remoteAt h s with
  | some r =>
    match r.stage with
    | some set =>
      if r.fetched then s
      else
        match a with
        | .err => reportFetch r true s
        | .ok beats =>
          let s := sramWrite (stageOff (16 * set + c) + pieceOff addr (r.work.addrs.getD c []))
            (padTo len (fromBeats [(addr, len)] beats)) s
          if (s.host.reads ++ s.host.rstalled).any (fun q => q.what == .remote h c) || r.arrived.contains c then s
          else
            let s := modRemote h (fun r => { r with arrived := r.arrived ++ [c] }) s
            if r.arrived.length + 1 == 16 then reportFetch r false s else s
    | none => s
  | none => s

/-! ### Parts of P and Q (R416) -/

/-- The row's slot on this block, or its part of one whose home is another block; taken if it has none. -/
def slotFor (g r : Nat) (s : State) : Option Nat × State :=
  match findSlot g r s, freeSlot g s with
  | some i, _ => (some i, s)
  | none, some i => (some i, assignSlot i g r s)
  | none, none => (none, s)

/-- Data members of a group that this block folds: those that can be programmed on its LUNs. -/
def ownDataMembers (g : Nat) (s : State) : List Nat :=
  (List.range (dirAt g s).width).filter (fun m => ownLun (memberAt g m s).lun s && (memberAt g m s).mstate == 0)

/-- On a follower that is the home block, P and Q are whole once every data member is folded: they can be encoded, and Q's owner
gets them (R416). -/
def wholeHome (i : Nat) (s : State) : State :=
  let k := slotAt i s
  let ms := List.range (dirAt k.group s).width
  if s.modes.lead || !(homeHere k.group s) || k.whole || !(ms.all (fun m => k.folded.contains m)) then s
  else giveQ i (modSlot i (fun k => { k with whole := true, state := .sealing, placed := true, dataMask := ms }) s)

/-- The last member of this block in the row has been accepted: its part of P and Q goes to the home block (R416). -/
def ownPartDone (i : Nat) (s : State) : State :=
  let k := slotAt i s
  let own := ownDataMembers k.group s
  if homeHere k.group s then wholeHome i s
  else if !k.placed && own.all (fun m => k.folded.contains m) then
    sendPart (BitVec.ofNat 3 (homeOf k.group s)) i k.folded (modSlot i (fun k => { k with placed := true }) s)
  else s

/-- A data member of the row has been accepted here: the bytes that staging holds for it, or none of a pad, are folded (R298,
R416). -/
def foldMember (g r m : Nat) (set : Option Nat) (s : State) : State :=
  let (slot, s) := slotFor g r s
  match slot with
  | some i =>
    if (slotAt i s).folded.contains m then s
    else
      let s := match set with
        | some set => (List.range 16).foldl (fun s c =>
            let d := sramRead (stageOff (16 * set + c)) 4096 s
            foldCw i m c d.1 d.2.2) s
        | none => s
      ownPartDone i (foldedWhole i m s)
  | none => s

/-- P and Q of a PARITY message folded into the home block's slot (R298, R416). -/
def foldPart (i : Nat) (members : List Nat) (pq : List Byte) (s : State) : State :=
  let s := (List.range 32).foldl (fun s k => foldHalf i (k / 16) (k % 16) (slice pq (4096 * k) 4096) s) s
  modSlot i (fun k => { k with folded := k.folded ++ members }) s

/-- P and Q whole, as the home block gives them to Q's owner (R416). -/
def keepWhole (i : Nat) (pq : List Byte) (s : State) : State :=
  let s := modSlot i (fun k => { k with
    whole := true, placed := true, acc := (List.range 32).map (fun k => (k, slice pq (4096 * k) 4096)) }) s
  { s with sched := { s.sched with jobs := s.sched.jobs.map (fun j =>
      match j.owner with
      | .parity k _ => if k == i then { j with dataWait := false } else j
      | _ => j) } }

/-- A part of P and Q is taken: by the home block, which acknowledges it, or by Q's owner (R416). -/
def takePart (g r : Nat) (part : PartIn) (pq : List Byte) (s : State) : State :=
  let (slot, s) := if s.modes.lead then (findSlot g r s, s) else slotFor g r s
  if !(homeHere g s) then
    match slot with
    | some i => keepWhole i pq s
    | none => s
  else
    let s := match slot with
      | some i =>
        let k := slotAt i s
        if k.state == .filling && !k.whole && part.members.all (fun m => !(k.folded.contains m)) then
          let s := foldPart i part.members pq s
          if s.modes.lead then sealSlot i s else wholeHome i s
        else s
      | none => s
    dvSend 0x12 (some part.die) (le 3 g ++ le 4 r ++ le 4 0) s

/-- The receiver's part of a row is no longer needed: the home block has folded it, or the row is sealed (R416). -/
def dropPart (g r : Nat) (s : State) : State :=
  match findSlot g r s with
  | some i => if s.modes.lead then s else modSlot i (fun _ => {}) s
  | none => s

/-- A sealed row's slot is FREE: where other blocks have a share in it they free theirs (R296, R416). -/
def tellFree (k : Slot) (s : State) : State :=
  if (dirAt k.group s).members.any (fun w => !(ownLun w.lun s)) then
    dvSend 0x12 none (le 3 k.group ++ le 4 k.row ++ le 4 0) s
  else s

/-! ### Jobs of other blocks go on and end -/

/-- A JOB joins this block's work; a program's drawer job joins the schedule at once, and a pad of a data member is accepted
with it (R196, R415, R416). -/
def joinRemote (w : RemoteIn) (s : State) : State :=
  let s := { s with dv := { s.dv with remotes := s.dv.remotes ++ [{ work := w }] } }
  if endsInRead w.items then s
  else
    let s := (placeRemote w (if w.kind == 4 then padHandle else 0) s).2
    if w.kind == 4 then foldMember w.group w.row w.member none s else s

/-- A job of another block leaves this one's work. -/
def dropRemote (h : Nat) (s : State) : State :=
  { s with dv := { s.dv with remotes := s.dv.remotes.filter (fun r => remoteKey r.work != h) } }

/-- A job whose data has been fetched goes on as the lead block says: it programs the data, or pads instead, or nothing, and the
member is folded (R38, R332, R415, R416, R452). -/
def goRemote (w : RemoteIn) (s : State) : State :=
  let h := remoteKey w
  match remoteAt h s with
  | some r =>
    let g := r.work.group
    let row := r.work.row
    let m := r.work.member
    let set := r.stage.getD 0
    match w.kind with
    | 1 => fillRemote r (16 * set) (foldMember g row m r.stage s)
    | 4 =>
      let s := modRemote h (fun r => { r with
        stage := none, fetched := true, hostErr := false, work := { r.work with kind := 4 } }) s
      fillRemote r padHandle (foldMember g row m none s)
    | _ => dropRemote h (withdraw (serves h) (foldMember g row m r.stage s))
  | none => s

/-- A page whose data is there by now: P and Q once the slot is whole, a page of messages once all have come (R415, R416). -/
def fillWaiting (s : State) (r : Remote) : State :=
  let w := r.work
  let ready := if w.link then r.page.length == 16
    else (w.kind == 2 || w.kind == 3)
      && (match findSlot w.group w.row s with | some i => (slotAt i s).whole && (slotAt i s).bad.isEmpty | none => false)
  if ready && r.job.any (fun h => (jobAt h s).any (·.dataWait)) then fillRemote r 0 s else s

/-- No host request of a job of another block is outstanding. -/
def remoteQuiet (h : Nat) (s : State) : Bool :=
  !((s.host.reads ++ s.host.writes ++ s.host.stalled ++ s.host.rstalled).any (fun q =>
    match q.what with | .remote x _ => x == h | _ => false))

/-- A job of another block has ended: its drawer jobs have, each of its codewords is delivered or lost, and every request for
its data is acknowledged. JOB_END reports it (R415, R432). -/
def endRemote (s : State) (r : Remote) : State :=
  let h := remoteKey r.work
  let cs := remoteCws h s
  match r.outcome with
  | some o =>
    if remoteQuiet h s && cs.all (fun c => c.state == .decoded || c.state == .lost)
        && s.sched.jobs.all (fun j => !(serves h j) || j.state == .ended) then
      let of (st : CwState) : List (Nat × Nat) :=
        (cs.filter (fun c => c.state == st)).map (fun c => (c.cw, if st == .lost then (if c.step == 6 then 2 else 3) else c.step))
      let s := sendEnd r.work o (of .decoded) (of .lost) r.hostErr s
      dropJobs (dropRemote h { s with
        sched := { s.sched with cws := s.sched.cws.filter (fun c => !(cs.any (fun x => x.job == c.job && x.cw == c.cw))) } })
    else s
  | none => s

/-- The records taken from followers are durable: they are told (R455; log entry 28). -/
def reportRecords (s : State) : State :=
  match s.dv.recWait with
  | some n => if recDurable n s then dvSend 0x20 none [0] { s with dv := { s.dv with recWait := none } } else s
  | none => s

/-- Jobs of other blocks, and records of followers, go on as far as they can. -/
def settleRemotes (s : State) : State :=
  let s := reportRecords s
  if s.dv.remotes.isEmpty then s
  else
    let s := s.dv.remotes.foldl fillWaiting s
    pumpRemotes (s.dv.remotes.foldl endRemote s)

/-- The lead block is lost: unpopped items of its jobs are withdrawn; popped ones run to their end, and their results are
discarded (R428). Each job still ends with a JOB_END (R427; DEDUCED, log entry 27). -/
def dropRemotes (s : State) : State :=
  let runs (r : Remote) : Bool := s.sched.jobs.any (fun j => serves (remoteKey r.work) j && j.state == .popped)
  let gone := s.dv.remotes.filter (fun r => !(runs r))
  let t := withdraw (fun j => match j.owner with | .remote _ => true | _ => false) s
  let t := gone.foldl (fun t r => sendEnd r.work 6 [] [] false t) { t with dv := { t.dv with
    remotes := (t.dv.remotes.filter runs).map (fun r => { r with dropped := true, stage := none }) } }
  dropJobs { t with sched := { t.sched with
    cws := t.sched.cws.filter (fun c => !(s.sched.jobs.any (fun j => j.handle == c.job && (match j.owner with
      | .remote h => gone.any (fun r => remoteKey r.work == h)
      | _ => false)))) } }

/-! ### Jobs of this block on other blocks (R415, R417, R430) -/

/-- The pages that this block makes for programs on other blocks follow their JOB messages (R415). -/
def sendPage (s : State) (j : Job) : State :=
  (List.range 16).foldl (fun s c =>
    let d := pageData j c s
    dvSend 0x13 (some (lunDie j.lun)) (le 2 j.handle ++ le 1 c ++ d.1 ++ (pageLabel j c d.2.2).bytes d.1) d.2.2)
    (modJob j.handle (fun j => { j with encoded := 16 }) s)

/-- Every such page that has not been sent is. -/
def sendPages (s : State) : State :=
  (s.sched.jobs.filter (fun j => linkPage j && !(ownLun j.lun s) && j.state == .popped && j.encoded == 0
    && itemType (j.items.getLastD 0) == 2)).foldl sendPage s

/-- A codeword that a job on another block could not deliver is lost, for the entry with its DETAIL (R251, R415, R417). -/
def awayLost (j : Job) (s : State) (x : Nat × Nat) : State :=
  match (cwsOf j.handle s).find? (fun c => c.cw == x.1 && c.state == .reading) with
  | some c =>
    match c.eid with
    | some e =>
      let s := loseCw e x.2 (dropCw c.job c.cw s)
      if x.2 == 2 then awaitRecord e s else s
    | none => modCw c.job c.cw (fun c => { c with state := .lost, work := none }) s
  | none => s

/-- A codeword that a job on another block has delivered to its entry's buffer, with the step that decoded it (R113, R252,
R415). -/
def awayGot (j : Job) (s : State) (x : Nat × Nat) : State :=
  match (cwsOf j.handle s).find? (fun c => c.cw == x.1 && c.state == .reading) with
  | some c =>
    match c.eid with
    | some e =>
      let s := modEntry e (fun e => { e with count := e.count + 1, rebuilt := e.rebuilt || x.2 == 6 }) (dropCw c.job c.cw s)
      if x.2 == 0 then s else noteLadder c x.2 true s
    | none => s
  | none => s

/-- What a job on another block came to for its codewords (R415, R432). -/
def awayRead (j : Job) (delivered lost : List (Nat × Nat)) (hostErr : Bool) (s : State) : State :=
  let s := lost.foldl (awayLost j) (delivered.foldl (awayGot j) s)
  match j.owner, hostErr with
  | .read eid, true => noteStatus eid 0x50 0xF1 s
  | _, _ => s

/-- JOB_END: a job on another block has ended, or has fetched its host data (R38, R415). -/
def awayEnd (h outcome : Nat) (delivered lost : List (Nat × Nat)) (hostErr : Bool) (s : State) : State :=
  match jobAt h s with
  | some j =>
    if j.state != .popped || ownLun j.lun s then s
    else if endsInRead j.items then endJobWith h j.lun outcome 0 false (awayRead j delivered lost hostErr s)
    else if hostErr || !delivered.isEmpty then
      match j.owner, j.dataWait with
      | .write eid m, true =>
        match entryAt eid s with
        | some e => if hostErr then writeFetchFailed e s else awayFetched eid m s
        | none => s
      | _, _ => s
    else endJobWith h j.lun outcome 0 false s
  | none => s

/-- Host data that a block which has left the segment was to fetch: the member is not programmed and holds none (R430; log
entry 27). -/
def awayGone (j : Job) (s : State) : State :=
  match j.owner, j.dataWait with
  | .write eid m, true =>
    let s := match findSlot j.group j.row s with
      | some i => modSlot i (fun k => { k with dataMask := k.dataMask.filter (· != m), failed := k.failed ++ [m] }) s
      | none => s
    awayFetched eid m s
  | _, _ => s

/-- Jobs on blocks that have left the segment end here: reads go to reconstruction, other work counts as cut off (R430;
log entry 27). -/
def endUnreachable (s : State) : State :=
  (s.sched.jobs.filter (fun j => j.state == .popped && !(reachable j.lun s))).foldl (fun s j =>
    let s := match j.owner with
      | .write e _ | .openErase e _ | .release e _ => noteStatus e 0x21 4 s
      | _ => s
    let out := if endsInRead j.items then 4 else 6
    awayGone j (dropJobs (ownerEnd j j.lun out 0 false (modJob j.handle (fun j => { j with state := .ended }) s)))) s

end Sys2Proof.Machine
end

