-- ==== Sys2Proof/Machine/Settle.lean ====
section
/-!
DEFINITION. What follows when something outstanding ends: recovery from uncorrectable SRAM words, entries and slots that
are done, work that waited. With it stand the commands that bring such ends: a jig's microword, the answers of the host
data ports, a durable journal page, and an entry's completion (R37, R38, R131, R307, R563, R593).
-/
namespace Sys2Proof.Machine

/-! ### Uncorrectable words (R563) -/

/-- A word of a glue-up slot: codeword `c` of P and Q is computed again, before the array-start of both programs. -/
def recoverSlot (i c : Nat) (s : State) : State :=
  let k := slotAt i s
  let parity (j : Job) : Bool := match j.owner with | .parity x _ => x == i | _ => false
  let late := k.placed && !(s.sched.jobs.any (fun j => parity j && !j.arrayStarted))
  if k.state == .free || late || k.bad.contains c then s else modSlot i (fun k => { k with bad := k.bad ++ [c] }) s

/-- A codeword or step whose word is uncorrectable is repeated once; the second time the entry ends DEVICE_ERROR. -/
def repeatCw (s : State) (c : Cw) : State :=
  if c.sramRetry then
    match c.eid with
    | some e => noteStatus e 0x50 0xE0 (dropCw c.job c.cw s)
    | none => modCw c.job c.cw (fun c => { c with state := .lost, work := none }) s
  else if c.work.isSome then
    modCw c.job c.cw (fun c => { c with
      state := .failed, step := c.step - 1, stepOver := true, work := none, sensings := [], sramRetry := true }) s
  else
    match jobAt c.job s with
    | some j => rereadCw c j.pageOf j.prio j.owner s
    | none => s

/-- A search whose work area is damaged senses its iteration again once (R249, R563). -/
def repeatSearch (s : State) (q : Search) : State :=
  if q.retried then abandonSearch q s
  else modSearch q.id (fun q => { q with retried := true }) (senseSearch q s)

/-- A word of a landing slot or of the lent accumulator: a codeword not delivered, or a work area. -/
def recoverLanding (n : Nat) (s : State) : State :=
  let waits (c : Cw) : Bool := (c.slot == n && c.state == .decoded && c.eid == none) || areaHas c.work n
  let s := (s.sched.cws.filter waits).foldl repeatCw s
  (s.recov.searches.filter (fun q => areaHas q.work n)).foldl repeatSearch s

/-- A word of write staging: a codeword not yet encoded is fetched again from the host. -/
def recoverStaging (set c : Nat) (s : State) : State :=
  match s.sched.entries.find? (fun e => e.stage.any (fun p => p.2 == set)) with
  | some e =>
    match e.stage.find? (fun p => p.2 == set) with
    | some (m, _) =>
      let done := s.sched.jobs.any (fun j => j.owner == .write e.eid m && c < j.encoded)
      if e.arrived.contains (m, c) && !done then badPage { owner := .write e.eid m, buf := 16 * set } c s else s
    | none => s
  | none => s

/-- A word of the open accumulator: the fragment that holds it starts again. -/
def recoverAccum (n : Nat) (s : State) : State :=
  match s.media.frags.find? (fun f => f.slot ≤ n && n < f.slot + fragSlots f.n) with
  | some f => zeroFrag f { s with media := { s.media with
      frags := s.media.frags.map (fun x => if x.frag == f.frag then { x with passes := 0 } else x) } }
  | none => s

/-- The rule of the region of an uncorrectable word. A word of the tables region is loaded again from its source, which
changes nothing the model holds. -/
def recoverWord (s : State) (a : Nat) : State :=
  match sramRegion a with
  | 0 => recoverSlot (a / 8192) (a % 4096 / 256) s
  | 1 => recoverLanding ((a - 0x40000) / 256) s
  | 2 => recoverStaging ((a - 0x70000) / 4096) ((a - 0x70000) % 4096 / 256) s
  | 3 => if s.media.accum == 0 || s.media.accum == 1 then recoverLanding (768 + (a - 0x90000) / 256) s
    else recoverAccum ((a - 0x90000) / 256) s
  | 4 => { s with regs := { s.regs with coreFaults := s.regs.coreFaults + 1 } }
  | _ => s

/-- Every uncorrectable word found since the last time is dealt with. -/
def recoverSram (s : State) : State :=
  s.sram.bad.foldl recoverWord { s with sram := { s.sram with bad := [] } }

/-! ### What is done -/

/-- A sealed slot is FREE once its record is durable (R296). What its data programs have come to is kept while some still run
(R309). -/
def freeSealed (s : State) (i : Nat) : State :=
  let k := slotAt i s
  match k.state, k.recNo with
  | .sealing, some n =>
    if k.parityLeft == 0 && recDurable n s then
      let late := if dataRuns k.group k.row (fun _ => true) s then [((k.group, k.row), k.passed)] else []
      modSlot i (fun _ => {}) { tellFree k s with stripe := { s.stripe with
        lateRows := late ++ s.stripe.lateRows.filter (fun x => dataRuns x.1.1 x.1.2 (fun _ => true) s) } }
    else s
  | _, _ => s

/-- An entry that is to complete a row of a group. -/
def rowOwed (g r : Nat) (s : State) : Bool :=
  s.sched.entries.any (fun e => e.group.toNat == g && (e.needsRow == some r || (e.opcode == 0x21 && e.needsRow.isSome)))

/-- Rows sealed with no entry to complete them, as when HOLDUP or a third failure closed them short, count as written
(R119, R300, R330). -/
def settleRows (s : State) : State :=
  { s with stripe := { s.stripe with dir := s.stripe.dir.map (fun d =>
    { d with unwritten := d.unwritten.filter (fun r => (findSlot d.group r s).isSome || rowOwed d.group r s
      || d.uncompleted.contains r) }) } }

/-- One entry goes on as far as it can. -/
def settleEntry (s : State) (eid : Nat) : State :=
  let go (f : State → Entry → State) (s : State) : State :=
    match entryAt eid s with
    | some e => f s e
    | none => s
  go settleBind (go settleClose (go settleOpen (go settleFlush (go settleRelease (go settleRead (go settleWrite s))))))

/-- REFIT_COMMIT is durable (R360), and the bind table has room for the binds that move (log entry 125). -/
def settleCommit (s : State) : State :=
  match s.bg.commitRec with
  | some n => if recDurable n s && bindsMovable s then cutLostFeeds (commitRefit s) else s
  | none => s

/-- Work that waited for something that has ended. -/
def pumpAll (s : State) : State :=
  let s := (List.range 16).foldl settleFall s
  let s := (List.range s.stripe.slots.length).foldl pumpFix s
  let s := settleRemotes (sendPages (pumpFeeds (pumpReads (pumpAllStages 32 (placeAll s.stripe.slots.length s)))))
  patrolUpdate (settleSweep (assignDecoders (pumpAreas (assignEncoders (settleRuns (settleTruing s))))))

/-- Everything that an end may let go on. -/
def settle (s : State) : State :=
  let s := recoverSram s
  let s := settleRings ((List.range s.stripe.slots.length).foldl freeSealed s)
  let s := (s.sched.entries.map (·.eid)).foldl settleEntry s
  let s := settleTakeover (settleLost (settleLatch (settleOv (settleFence (settleRecovery (settleCommit s))))))
  flushAnswers (pumpAll (settleRows s))

/-! ### Commands -/

/-- JIG_MICROWORD: one jig cycle (R131 to R150). -/
def execJigMicroword (ch : Nat) (p : JigIn) (s : State) : Out := checked (ch < 16) (settle (jigWord ch p s))

/-- ENTRY_COMPLETION (R37, R122): of an entry that cannot complete yet, what waits goes on first. -/
def execEntryCompletion (eid : Nat) (s : State) : Out :=
  .next <| completeEntry eid <|
    if (entryAt eid s).any (fun e => canComplete e s || canResume e s) then s else settle s

/-- JOURNAL_PAGE_DURABLE: every copy of the page in flight has passed (R307). Its RELEASED and UNBIND_FORCED records go to
the event log (R393). -/
def execJournalPageDurable (s : State) : Out :=
  .next <|
    match s.stripe.jrnl.inFlight with
    | some p =>
      if s.stripe.jrnl.copiesLeft.isEmpty then
        let audit := p.recs.filter (fun r => recType r == 0x32 || recType r == 0x33)
        let s := audit.foldl (fun s r => logRecord (le 32 r.toNat) s) (pageDurable p s)
        settle s
      else s
    | none => s

/-- HOST_READ_DONE: a request of the write data port is answered by its beats (R33, R34, R38). The bytes of a WRITE_ROW come
with WRITE_DATA_ARRIVAL. -/
def execHostReadDone (tag : Nat) (a : HostRead) (s : State) : Out :=
  .next <|
    match s.host.reads.find? (fun r => r.tag == tag) with
    | some r =>
      let s := { s with host := HostPorts.settle { s.host with reads := s.host.reads.filter (fun x => x.tag != tag) } }
      match r.what, a with
      | .data eid _, .err =>
        match entryAt eid s with
        | some e => settle (writeFetchFailed e s)
        | none => s
      | .remote h c, a => settle (remoteArrived h c r.addr.toNat r.len a s)
      | .doseRead u b, .ok _ => settle (doseArrived u b s)
      | .doseRead u b, .err => { s with recov := { s.recov with doseHeld := s.recov.doseHeld ++ [(u, b)] } }
      | .bindRead i, .ok _ => settle (serveQueue 16 (touchBinds [i] s))
      | .snapRead, .ok beats => snapArrived r.addr.toNat r.len beats s
      | .bindRead _, .err | .snapRead, .err => { s with stripe := { s.stripe with
          winReadHeld := s.stripe.winReadHeld ++ [(r.what, r.addr.toNat, r.len)] } }
      | _, _ => s
    | none => s

/-- A record request has been answered (R477, R478): bytes 0 and 1 follow bytes 2 to 31; PROD then advances. An error sets
FAULT, and the records waiting are dropped. -/
def recordAcked (rseq : Nat) (second err : Bool) (s : State) : State :=
  match s.evq.writing with
  | (n, bs, _) :: rest =>
    if n.toNat != rseq then s
    else if err then
      let lost := s.evq.writing
      evqLevels (lost.foldl (fun s _ => dropRecord s) { s with evq := { s.evq with fault := true, writing := [] } })
    else if !second then
      let flags := byteAt bs 1 % 128 + 128 * b2n s.evq.phase
      let s := { s with evq := { s.evq with writing := (n, bs, 1) :: rest } }
      hostWrite (.record rseq true) (s.evq.base + 32 * s.evq.prod.toNat) [bs.headD 0, BitVec.ofNat 8 flags] s
    else
      let next := (s.evq.prod.toNat + 1) % s.evq.size
      let s := { s with evq := { s.evq with
        writing := rest, prod := BitVec.ofNat 16 next, phase := if next == 0 then !s.evq.phase else s.evq.phase } }
      issueRecord (evqLevels s)
  | [] => s

/-- Window writes that waited are issued where no earlier write of their bytes is outstanding or held (R36, R593). -/
def pumpWindow (s : State) : State :=
  s.stripe.winWait.foldl (fun s w => winPut s (winBase s + w.1.toNat, w.2)) { s with stripe := { s.stripe with winWait := [] } }

/-- A window write has been answered (R593): after an error its bytes are held, and the fence stands until every held write is
acknowledged. -/
def windowAcked (off : Nat) (bs : List Byte) (err : Bool) (s : State) : State :=
  let key := BitVec.ofNat 64 off
  if err then
    let held := s.stripe.held.any (fun h => h.1 == key)
    let first := !s.stripe.wfault
    let s := pumpWindow { s with stripe := { s.stripe with
      wfault := true, held := if held then s.stripe.held else s.stripe.held ++ [(key, bs)] } }
    if first then journalEvent 5 (setConds (fun m => { m with fenceWindow := true }) s) else s
  else
    let s := pumpWindow { s with stripe := { s.stripe with
      held := s.stripe.held.filter (fun h => !(h.1 == key && h.2 == bs)) } }
    if s.stripe.wfault && s.stripe.held.isEmpty then
      journalEvent 7 (setConds (fun m => { m with fenceWindow := false })
        { s with stripe := { s.stripe with wfault := false } })
    else s

/-- What an answered request of the read data port was for (R37, R38, R399, R470). -/
def writeAcked (r : HostReq) (err : Bool) (s : State) : State :=
  match r.what with
  | .data eid slot => dataAcked eid slot (if err then noteStatus eid 0x50 0xF1 s else s)
  | .compl eid part => if err then complFailed eid part s else complAcked eid part false s
  | .own eid part => if err then complFailed eid part s else complAcked eid part true s
  | .record rseq second => recordAcked rseq second err s
  | .notify t => if err then { s with irq := { s.irq with noteErr := s.irq.noteErr.set t true } } else s
  | .window off => windowAcked off r.bytes err s
  | .accum eid => reportAcked eid err s
  | .remote h _ => if err then modRemote h (fun r => { r with hostErr := true }) s else s
  | .fetch _ | .list _ | .dirRead _ | .doseRead _ _ | .bindRead _ | .snapRead => s

/-- HOST_WRITE_ACK: a request of the read data port is acknowledged (R35, R37, R38). -/
def execHostWriteAck (tag : Nat) (err : Bool) (s : State) : Out :=
  .next <|
    match s.host.writes.find? (fun r => r.tag == tag) with
    | some r =>
      let s := { s with host := HostPorts.settle { s.host with writes := s.host.writes.filter (fun x => x.tag != tag) } }
      settle (writeAcked r err s)
    | none => s

/-- WINDOW_WRITE_RETRY: every held write that is not outstanding is issued again (R593). -/
def execWindowWriteRetry (s : State) : Out :=
  .next <| s.stripe.held.foldl (fun s h =>
    if (winOut s).any (fun o => o.1 == h.1.toNat) then s
    else hostWrite (.window h.1.toNat) (winBase s + h.1.toNat) h.2 s) s

/-! ### Truing (R269, R271) -/

/-- TRUING_ITERATION: one iteration of a search; the last one of initial truing lets TRAIN go on (R73, R269). -/
def execTruingIteration (id : Nat) (s : State) : Out := .next (settleRecovery (truingIteration id s))

/-- TRUING_ABANDON: 24 sensings without converging, or 5 ms from its start (R271). -/
def execTruingAbandon (id : Nat) (s : State) : Out := .next (settleRecovery (truingAbandon id s))

end Sys2Proof.Machine
end

