-- ==== Sys2Proof/Machine/Window.lean ====
section
/-!
DEFINITION. Commands of the stripe directory window and of journal recovery (R315, R318, R323, R593).
-/
namespace Sys2Proof.Machine

/-- A write of STRIPE_WIN_CTRL (R318, R324). -/
def writeGrant (v : Word) (s : State) : State :=
  if bitAt v.toNat 0 then
    settle (tryGrant s)
  else s

/-- STRIPE_WIN_GRANT (R318). -/
def execStripeWinGrant (v : Word) (s : State) : Out := .next (writeGrant v s)

/-- JOURNAL_RECOVERY: the journal is read and replayed, or the seal scan runs (R315, R366). -/
def execJournalRecovery (r : RecoveryIn) (s : State) : Out := .next (settle (recoverJournal r s))

/-- A directory entry read from the window: taken when the tables do not hold it and its bytes can be trusted (R322,
R429). -/
def takeDirEntry (group : Nat) (b : List Byte) (s : State) : State :=
  if (dirAt group s).state == 0 && byteAt b 3 != 0 && !dirBytesBad b then
    modDir group (fun _ => { parseDir b with group := group }) s
  else s

/-- DIR_CACHE_MISS: the window read for a group's entry returns; after a fabric error it is held (R323, R593). -/
def execDirCacheMiss (group : Nat) (r : HostRead) (s : State) : Out :=
  .next <|
    if s.stripe.missing.contains group && hostReady s then
      let s := fetchHost (.dirRead group) [(winBase s + s.stripe.dirOff + 256 * group, 256)]
        { s with stripe := { s.stripe with missing := s.stripe.missing.filter (· != group) } }
      match r with
      | .err => { s with stripe := { s.stripe with readHeld := s.stripe.readHeld ++ [group] } }
      | .ok b => cacheTouch group (takeDirEntry group b s)
    else s

/-- WINDOW_READ_RETRY: every window read that met a fabric error is issued again (R593). -/
def execWindowReadRetry (s : State) : Out :=
  .next <|
    let t := s.recov.doseHeld.foldl (fun s k => readDose k.1 k.2 s)
      { s with
        stripe := { s.stripe with missing := s.stripe.missing ++ s.stripe.readHeld, readHeld := [], winReadHeld := [] }
        recov := { s.recov with doseHeld := [] } }
    s.stripe.winReadHeld.foldl (fun s h => hostReadData h.1 h.2.1 h.2.2 s) t

end Sys2Proof.Machine
end

