-- ==== Sys2Proof/Machine/Cascade.lean ====
section
/-!
DEFINITION. The Dovetail link: links, presence and segments, election, takeover, and the messages that share the work (R406
to R435, R455).
-/
namespace Sys2Proof.Machine

/-- The block takes part in its cascade: out of RESET, with a partner. -/
def onLink (s : State) : Bool := !s.pins.inReset && !s.dv.solo

/-- The block takes part in elections: not fenced for its die_id, not in QUARANTINE, not in HOLDUP (R411, R455, R459). -/
def inElections (s : State) : Bool := onLink s && !s.dv.dupId && !s.modes.quarantine && !s.modes.holdup

/-- The CASCADE source (R469). -/
def cascadeFires (s : State) : State := raise 123 s

/-! ### Links (R407, R408) -/

/-- LINK_DOWN: the loss is counted (R408, R433). -/
def execLinkDown (port : Side) (s : State) : Out :=
  .next <|
    if (portAt port s).up then
      let s := modPort port (fun p => { p with up := false, lanes := 0 }) s
      let s := match port with
        | .east => { s with dv := { s.dv with eastDown := satAdd s.dv.eastDown 1 } }
        | .west => { s with dv := { s.dv with westDown := satAdd s.dv.westDown 1 } }
      cascadeFires s
    else s

/-- LINK_UP: training has ended on 4 or 2 lanes; only a port that found a partner at BOOT step 10 trains again (R408). -/
def execLinkUp (port : Side) (lanes : Nat) (peer : BitVec 3) (s : State) : Out :=
  .next <|
    let p := portAt port s
    if p.hadPartner && !p.up && !s.pins.inReset && (lanes == 2 || lanes == 4) then
      cascadeFires (modPort port (fun p => { p with up := true, lanes := BitVec.ofNat 4 lanes, peer := peer }) s)
    else s

/-- LINK_TRAIN_RETRY: training of a link that is down is tried again; what comes of it is LINK_UP (R408). -/
def execLinkTrainRetry (_port : Side) (s : State) : Out := .next s

/-- FLIT_REFUSED: a flit refused here is not taken; of one that this block sent, its port replays it and every later one, and
those before it have been acknowledged (R407, R433). -/
def execFlitRefused (r : FlitRefusal) (s : State) : Out :=
  .next <|
    match r with
    | .here _ => s
    | .peer p seq =>
      let again := (portAt p s).replay.dropWhile (fun f => f.seq != seq)
      if again.isEmpty then s
      else modPort p (fun q => { q with replay := again })
        { s with dv := { s.dv with replays := satAdd s.dv.replays again.length } }

/-- DV_RESERVED_MSG: discarded and counted (R432). -/
def execDvReservedMsg (_type : Byte) (s : State) : Out :=
  .next { s with dv := { s.dv with discards := satAdd s.dv.discards 1 } }

/-! ### Views, segments and quorum (R412, R423) -/

/-- Blocks of a view. -/
def viewCount (v : BitVec 8) : Nat := ones 8 v.toNat

/-- A segment has quorum (R423). -/
def hasQuorum (v : BitVec 8) (size : Nat) : Bool :=
  size < 2 * viewCount v || (size == 2 * viewCount v && bitAt v.toNat 0)

/-- The view changed: quorum follows it. -/
def setView (v : BitVec 8) (s : State) : State :=
  { s with dv := { s.dv with view := v, quorum := hasQuorum v s.dv.size.toNat } }

/-- A new highest term: heartbeats are judged from a new baseline (R422, R426). -/
def raiseTerm (t : Word) (s : State) : State :=
  if s.dv.term.toNat < t.toNat then
    { s with dv := { s.dv with term := t, hbSeq := none, hbClean := 0 } }
  else s

/-- A block whose die_id cannot stand is fenced until the next reset (R411). -/
def fenceIdentity (cause : Nat) (s : State) : State :=
  if s.dv.dupId then s
  else
    let s := loseLead s
    let s := { s with dv := { s.dv with dupId := true, electing := false, claim := none } }
    cascadeEvent cause s.modes.dieId (endTrain (setFenced s))

/-! ### Elections (R421, R422, R424, R425) -/

/-- One claim beats another (R425). -/
def beats (a b : Word × BitVec 3) : Bool := b.1.toNat < a.1.toNat || (a.1 == b.1 && a.2.toNat < b.2.toNat)

/-- The save that a message with a higher term waits for can be made; else the message is not sent (R422). -/
def termSavable (t : Word) (s : State) : Bool := t == s.dv.savedTerm || saveWorks s

/-- currentTerm is saved before a message that carries a higher term leaves (R422). -/
def saveTerm (s : State) : State :=
  if s.dv.term == s.dv.savedTerm then s
  else saveRecord 0x3400 2 (le 4 s.dv.term.toNat) { s with dv := { s.dv with savedTerm := s.dv.term } }

/-- Step 1 of an election: without quorum the block is fenced (R424). -/
def electionStep (s : State) : State :=
  let s := { s with dv := { s.dv with bid := s.dv.term + 1, rival := false, claimed := false, claim := none, grants := 0 } }
  if s.dv.quorum then s else endTrain (setFenced s)

/-- An election starts: TRAIN step 7, or the lead block lost (R424). -/
def startElection (s : State) : State :=
  if inElections s && !s.modes.lead then
    electionStep (cascadeFires { s with dv := { s.dv with
      electing := true, leadKnown := false, elections := satAdd s.dv.elections 1 } })
  else s

/-- The takeover of a block elected outside TRAIN begins: nothing is fetched, STATE reads 0x1, and it waits for the slots to be
closed and for the copies of the anchor (R419, R429). -/
def takeOver (s : State) : State :=
  modJrnl (fun j => { j with state := 1, recStep := 0 }) { s with
    stripe := { s.stripe with granted := false, ready := false }
    dv := { s.dv with takeover := true, tkWait := false, tkClose := true, closing := true } }

/-- The block is elected: LEAD, its first heartbeat, and journal recovery (R421, R425, R429). -/
def winElection (s : State) : State :=
  let s := { s with
    dv := { s.dv with
      electing := false, claim := none, leadKnown := true, hbSend := 1, reach := s.dv.view, joining := []
      draining := false, copies := dieBit s.modes.dieId }
    stats := { s.stats with electionsWon := s.stats.electionsWon + 1 } }
  let s := setConds (fun m => { m with
    lead := true, leadDie := m.dieId, fenced := false, follower := false }) s
  let s := dvSend 0x04 none (le 4 s.dv.term.toNat ++ [BitVec.ofNat 8 s.modes.dieId.toNat] ++ le 4 0 ++ [s.dv.view]) s
  let s := cascadeEvent 4 s.modes.dieId (cascadeFires s)
  if s.modes.train then pendingGrant (beginRecovery s) else takeOver (dropRemotes s)

/-- Every block of the view has granted the claim (R425). -/
def checkElected (s : State) : State :=
  if s.dv.electing && s.dv.claim.isSome && s.dv.quorum && s.dv.view &&& s.dv.grants == s.dv.view then winElection s else s

/-- ELECTION_BACKOFF: a block that may lead, and has seen no better claim, claims (R410, R422, R424). -/
def execElectionBackoff (s : State) : Out :=
  .next <|
    if inElections s && s.dv.electing && s.dv.claim.isNone && s.dv.quorum && s.modes.leadOk && s.dv.size != 0
        && !s.dv.rival && termSavable (s.dv.term + 1) s then
      let t := s.dv.term + 1
      let s := saveTerm { s with dv := { s.dv with
        term := t, hbSeq := none, hbClean := 0, claim := some t, claimed := true
        bestClaim := some (t, s.modes.dieId), grants := dieBit s.modes.dieId } }
      settle (checkElected (dvSend 0x02 none
        (le 4 t.toNat ++ [BitVec.ofNat 8 s.modes.dieId.toNat, s.dv.view]) s))
    else s

/-- ELECT_TIMEOUT: a claimant that is not elected starts again at step 1 (R425). -/
def execElectTimeout (s : State) : Out :=
  .next (if inElections s && s.dv.electing && s.dv.claimed then settle (electionStep s) else s)

/-- A claim that this block grants: the best it has seen, from a block that may lead and has the same view, in a term that
does not go back (R422, R425). -/
def grantsClaim (old : Word) (c : Word × BitVec 3) (view : Byte) (s : State) : Bool :=
  s.dv.peers.any (fun p => p.1 == c.2 && p.2) && view == s.dv.view && old.toNat ≤ c.1.toNat
    && (match s.dv.bestClaim with | some b => beats c b | none => true)

/-- CLAIM (R422, R425, R427). -/
def execClaim (term : Word) (die : BitVec 3) (view : Byte) (s : State) : Out :=
  .next <|
    if !(onLink s) then s
    else
      let old := s.dv.term
      let s := raiseTerm term s
      if !(inElections s) then s
      else
        let c := (term, die)
        let own := s.dv.claim.getD s.dv.bid
        let s := if s.dv.electing && beats c (own, s.modes.dieId) then
            { s with dv := { s.dv with rival := true, claim := none } } else s
        if grantsClaim old c view s && termSavable s.dv.term s then
          let s := if old.toNat < term.toNat then loseLead s else s
          settle (dvSend 0x03 (some die) (le 4 term.toNat ++ [BitVec.ofNat 8 s.modes.dieId.toNat])
            (saveTerm { s with dv := { s.dv with bestClaim := some c } }))
        else s

/-- GRANT (R422, R425). -/
def execGrant (term : Word) (die : BitVec 3) (s : State) : Out :=
  .next <|
    if !(onLink s) then s
    else
      let s := raiseTerm term s
      if inElections s && s.dv.electing && s.dv.claim == some term then
        settle (checkElected { s with dv := { s.dv with grants := s.dv.grants ||| dieBit die } })
      else s

/-! ### Presence (R410 to R412, R427, R430, R431) -/

/-- Every link of the blocks seen is up. -/
def linksUp (s : State) : Bool :=
  s.dv.east.up && s.dv.west.up
    && s.dv.links.all (fun l => !(bitAt s.dv.view.toNat l.1.toNat) || (l.2.1 && l.2.2))

/-- In the first whole ring that it sees, with every link up, the block counts the distinct die_id values: cascadeSize (R410,
R411). -/
def countRing (whole : Bool) (s : State) : State :=
  let n := viewCount s.dv.view
  if whole && linksUp s && s.dv.size == 0 && 2 ≤ n && !s.modes.holdup then
    let v : List Byte := [BitVec.ofNat 8 n]
    let s := saveRecord 0x3400 1 v { s with
      dict := { s.dict with saved := putValue 0x3400 1 v s.dict.saved, force := putValue 0x3400 1 v s.dict.force }
      dv := { s.dv with size := BitVec.ofNat 4 n } }
    if n ≤ s.modes.dieId.toNat then fenceIdentity 2 s else s
  else s

/-- A lead block whose segment has no quorum loses its lead (R427). -/
def checkLead (s : State) : State := if s.modes.lead && onLink s && !s.dv.quorum then loseLead s else s

/-- PRESENCE (R410 to R412, R422). -/
def execPresence (die : BitVec 3) (leadOk : Bool) (term : Word) (ring : RingIn) (s : State) : Out :=
  .next <|
    if !(onLink s) then s
    else if die == s.modes.dieId then settle (fenceIdentity 1 s)
    else
      let new := !(bitAt s.dv.view.toNat die.toNat)
      let s := raiseTerm term { s with dv := { s.dv with
        peers := (die, leadOk) :: s.dv.peers.filter (fun p => p.1 != die)
        links := (die, ring.east, ring.west) :: s.dv.links.filter (fun l => l.1 != die)
        joining := if new && s.modes.lead then (die, 0) :: s.dv.joining.filter (fun p => p.1 != die) else s.dv.joining
        reach := if s.modes.lead then s.dv.reach else s.dv.reach ||| dieBit die } }
      let s := countRing ring.whole (setView (s.dv.view ||| dieBit die) s)
      settle (checkLead (setView s.dv.view s))

/-- PRESENCE_TIMEOUT: a block leaves the view (R412, R427, R430). -/
def execPresenceTimeout (die : BitVec 3) (s : State) : Out :=
  .next <|
    if onLink s && die != s.modes.dieId && bitAt s.dv.view.toNat die.toNat then
      let s := setView (s.dv.view &&& ~~~(dieBit die)) { s with dv := { s.dv with
        reach := s.dv.reach &&& ~~~(dieBit die), joining := s.dv.joining.filter (fun p => p.1 != die) } }
      let s := checkLead s
      let s := if s.modes.lead then endUnreachable s else if s.dv.draining then dropUnreachable s else s
      settle (pendingGrant (checkElected (accumLeft s)))
    else s

/-- A block back in the segment has had its baseline and three clean heartbeats: its LUNs are reachable, and the lead block
passes its grant to it (R414, R426, R431). -/
def countJoining (s : State) : State :=
  let js := s.dv.joining.map (fun p => (p.1, p.2 + 1))
  let back := js.filter (fun p => 4 ≤ p.2)
  back.foldl (fun s p => grantTo (some p.1) s) { s with dv := { s.dv with
    joining := js.filter (fun p => p.2 < 4)
    reach := back.foldl (fun r p => r ||| dieBit p.1) s.dv.reach } }

/-- PRESENCE_SEND: every tHB (R412); the lead block also sends a heartbeat (R426). Not in QUARANTINE (R459). A takeover that
waited for a journal copy runs once one has rejoined (R429). -/
def execPresenceSend (s : State) : Out :=
  .next <|
    if !(onLink s) || s.modes.quarantine || s.dv.dupId then s
    else
      let links := BitVec.ofNat 8 (b2n s.dv.east.up + 2 * b2n s.dv.west.up)
      let s := dvSend 0x01 none ([BitVec.ofNat 8 s.modes.dieId.toNat, BitVec.ofNat 8 (b2n s.modes.leadOk)]
        ++ le 4 s.dv.term.toNat ++ [links, BitVec.ofNat 8 s.dv.size.toNat]) s
      if s.modes.lead then
        let s := dvSend 0x04 none (le 4 s.dv.term.toNat ++ [BitVec.ofNat 8 s.modes.dieId.toNat]
          ++ le 4 s.dv.hbSend.toNat ++ [s.dv.view]) s
        let s := countJoining { s with dv := { s.dv with hbSend := s.dv.hbSend + 1 } }
        settle (if s.dv.tkWait && copyReachable s && inElections s then takeOver s else s)
      else s

/-! ### Heartbeats (R424, R426 to R428, R431) -/

/-- A ring of a follower block is DISABLED (R414). -/
def Ring.stopped (r : Ring) : Ring :=
  if r.state == .disabled then r
  else { r with
    state := .disabled, restartPend := false, dbPend := false, chain := none, stopPend := none, walk := [], walkLeft := 0
    walkChain := none }

/-- FOLLOWER under the lead block that is known; its rings are DISABLED, and TRAIN ends with it (R414, R421, R427, R431; log
entry 26). -/
def becomeFollower (s : State) : State :=
  endTrain (setConds (fun m => { m with follower := true, fenced := false })
    { s with
      rings := if s.dv.draining then s.rings else s.rings.map Ring.stopped
      dv := { s.dv with reach := s.dv.view } })

/-- The block's copy of the anchor goes to a new lead block; none when it holds no valid one (R419). -/
def sendCopy (die : BitVec 3) (s : State) : State :=
  dvSend 0x22 (some die) (match validAnchor s with | some (sec, rec) => anchorBytes sec rec s | none => [0]) s

/-- The jobs of a lost lead block end, and the glue-up slots are closed once its accepted programs have ended (R428, R429). -/
def leaveLeader (s : State) : State :=
  dropRemotes { s with dv := { s.dv with hbSeq := none, hbClean := 0, closing := true } }

/-- A heartbeat of a lead block is received: the sequence of the next one, its count of clean ones, and to a new lead block this
block's copy of the anchor (R419, R426). -/
def noteHeartbeat (die : BitVec 3) (seq : Word) (inTime : Bool) (s : State) : State :=
  let base := s.dv.hbSeq.isNone || s.modes.leadDie != die
  let clean := !base && inTime && s.dv.hbSeq == some (seq - 1)
  let s := if s.modes.follower && s.dv.leadKnown && s.modes.leadDie != die then leaveLeader s else s
  let s := { s with
    modes := { s.modes with leadDie := die }
    dv := { s.dv with
      leadKnown := true, hbSeq := some seq, hbMissRun := 0, hbClean := if clean then s.dv.hbClean + 1 else 0
      electing := false, claim := none } }
  if base then sendCopy die s else s

/-- HEARTBEAT (R422, R426, R427, R431). A block with a fenced identity, or in QUARANTINE, takes its term and no more (R411,
R459). -/
def execHeartbeat (term : Word) (die : BitVec 3) (seq : Word) (_view : Byte) (inTime : Bool) (s : State) : Out :=
  .next <|
    if !(onLink s) || die == s.modes.dieId || term.toNat < s.dv.term.toNat then s
    else
      let s := if s.dv.term.toNat < term.toNat then loseLead (raiseTerm term s) else s
      if s.modes.lead || s.dv.dupId || s.modes.quarantine then settle s
      else
        let ended := s.dv.electing
        let s := noteHeartbeat die seq inTime s
        let s := if ended then cascadeFires s else s
        settle <|
          if s.modes.fenced then (if 3 ≤ s.dv.hbClean then becomeFollower s else s)
          else if s.modes.follower then s
          else becomeFollower s

/-- A follower has lost its lead block (R428): its jobs for it end, and it joins the election. -/
def loseLeader (s : State) : State :=
  let s := leaveLeader s
  startElection { s with dv := { s.dv with leadKnown := false } }

/-- HEARTBEAT_MISS: a heartbeat of the lead block is missed; the third in a row loses it (R424, R428). -/
def execHeartbeatMiss (s : State) : Out :=
  .next <|
    if onLink s && s.dv.leadKnown && !s.modes.lead then
      let n := s.dv.hbMissRun + 1
      let s := { s with
        dv := { s.dv with missed := satAdd s.dv.missed 1, hbMissRun := if n == 3 then 0 else n, hbClean := 0 }
        stats := { s.stats with heartbeatsMissed := s.stats.heartbeatsMissed + 1 } }
      if n == 3 then settle (loseLeader s) else s
    else s

/-! ### Messages that share the work (R414 to R420, R432) -/

/-- JOB: a job of another block joins this block's work, or goes on: of the lead block on a follower, and a read for a
reconstruction on any (R415, R417). A fenced block starts none (R428). -/
def execJob (w : RemoteIn) (s : State) : Out :=
  .next <|
    if !(onLink s) || s.modes.quarantine || s.modes.fenced then s
    else match w.accum with
    | some a => if s.modes.follower then settle (accumJob a s) else s
    | none =>
      let taken := (remoteAt (remoteKey w) s).isSome
      if w.go then (if s.modes.follower then settle (goRemote w s) else s)
      else if !taken && ownLun w.lun s && (s.modes.follower || endsInRead w.items) then settle (joinRemote w s)
      else s

/-- JOB_END (R415); of an accumulator, that it has opened or returned (R420). -/
def execJobEnd (handle : Nat) (outcome : Byte) (delivered lost : List (Nat × Nat)) (hostErr : Bool) (s : State) : Out :=
  .next <|
    if !(onLink s) then s
    else if accOpenJob ≤ handle then settle (accumAnswered handle delivered s)
    else settle (awayEnd handle outcome.toNat delivered lost hostErr s)

/-- PARITY: another block's part of P and Q of a row; one without bytes says that the receiver's part is no longer needed (R298,
R416). -/
def execParity (group row : Nat) (part : PartIn) (pq : List Byte) (s : State) : Out :=
  .next <|
    if !(onLink s) then s
    else settle (if pq.isEmpty then dropPart group row s else takePart group row part pq s)

/-- CODEWORD: beats of a feed run for a head of this block (R420), a codeword that a job on another block read for this one
(R417), or one of a page that this block programs (R415). -/
def execCodeword (dest : CwTo) (job cw : Nat) (data : List Byte) (s : State) : Out :=
  .next <|
    if !(onLink s) then s
    else match dest with
    | .head _ =>
      if !s.pins.mediaReady then s
      else { s with media := { s.media with beats := s.media.beats ++ beatsOf ((data.length + 31) / 32) data } }
    | .job =>
      match jobAt job s, cwOf job cw s with
      | some j, some c =>
        if !(ownLun j.lun s) && c.state == .reading && c.eid.isNone then
          settle (landCw c (padTo 4096 data) (landLabel c (data.drop 4096) s))
        else s
      | _, _ => s
    | .page die =>
      settle (modRemote (die.toNat * 0x1000 + job) (fun r =>
        if r.work.link && cw < 16 then { r with page := (cw, data) :: r.page.filter (fun p => p.1 != cw) } else r) s)

/-- A record of a follower joins the journal; a loss that its step 6 found is entered in the ledger (R338, R414, R417). -/
def takeRecord (s : State) (r : BitVec 256) : State :=
  match recType r with
  | 0x07 => addRec r (replayRec s r)
  | 0x18 =>
    let e := parseLoss (le 24 (recFld r 8 24)) 0
    let known := (List.range 16).all (fun c => !(bitAt e.mask.toNat c) || inLedger e.group e.member e.first c s)
    if known then s else addLoss e.group e.member e.first e.mask.toNat e.cause.toNat s
  | _ => addRec r s

/-- RECORD: a follower's records join the journal (R414, R432); on a follower it is the lead block's report that its records
are durable (R455; log entry 28). -/
def execRecord (recs : List (BitVec 256)) (s : State) : Out :=
  .next <|
    if !(onLink s) then s
    else if s.modes.lead then
      let s := recs.foldl takeRecord s
      settle { s with dv := { s.dv with recWait := some (lastRec s) } }
    else settle { s with dv := { s.dv with recOut := false } }

/-- DIRECTORY: the window grant and directory changes for a follower (R414, R432). -/
def execDirectory (grant : Option (BitVec 64 × Nat)) (entries : List (Nat × List Byte)) (s : State) : Out :=
  .next <|
    if onLink s && s.modes.follower then
      let s := match grant with
        | some g => layWindow (takeWindow { s with dv := { s.dv with grantWin := some g } })
        | none => s
      entries.foldl (fun s e =>
        if dirBytesBad e.2 then s else modDir e.1 (fun _ => { parseDir e.2 with group := e.1 }) s) s
    else s

/-- A copy of an anchor that is later than the anchor known: stored, and the one that a recovery still to begin uses (R419). -/
def takeCopy (rec : List Byte) (s : State) : State :=
  if anchorOk (padTo 64 rec) && (!s.stripe.jrnl.anchorValid || s.stripe.jrnl.aseq.toNat < leAt rec 4 4)
      && (!s.modes.lead || s.stripe.jrnl.recStep == 1 || s.dv.tkClose) then
    let s := putAnchor (padTo 64 rec) s
    takeAnchor s.stripe.jrnl.anchorSector s.stripe.jrnl.anchorRecord s
  else s

/-- ANCHOR: a copy of an anchor enters this block's anchor area. A new lead block whose segment has sent its copies goes on with
its grant (R419). -/
def execAnchor (a : AnchorMsg) (s : State) : Out :=
  .next <|
    if onLink s && !s.modes.holdup then
      settle (pendingGrant (takeCopy a.bytes { s with dv := { s.dv with copies := s.dv.copies ||| dieBit a.die } }))
    else s

/-- MEDIA: a message of a head of another block, served here; or an answer for a head of this block (R402, R420). -/
def execMedia (die : BitVec 3) (m : BitVec 64) (s : State) : Out :=
  .next <|
    if !(onLink s) then s
    else if s.modes.lead then
      if inReady s then settle (acceptMessage m (modHead (mHead m) (fun h => { h with via := some die }) s)) else s
    else if s.pins.mediaReady then flushAnswers (answerBack m s)
    else s

/-- WAKE_MSG: the lead block places a follower in STANDBY, or wakes it (R77, R78). -/
def execWakeMsg (sleep : Bool) (s : State) : Out :=
  .next <|
    if onLink s && s.modes.follower then
      if sleep then setConds (fun m => { m with standby := true }) s else wake s
    else s

end Sys2Proof.Machine
end

