-- ==== Sys2Proof/Machine/Flags.lean ====
section
/-!
DEFINITION. What each register of the window reads as: status words assembled from the state (R55, R61, R71, R87 to R93,
R171 to R175, R216, R244, R286, R324, R370, R403, R433, R461, R462, R483 to R485, R503, R568, R573 to R575).
-/
namespace Sys2Proof.Machine

/-! ### Identity, modes and start-up -/

/-- MODE_STATUS bits [11:4]: the condition flags (R55). -/
def conditionBits (m : Modes) : Nat :=
  packFields [(0, b2n m.follower), (1, b2n m.degraded), (2, b2n m.refit), (3, b2n m.rebuild), (4, b2n m.wfence),
    (5, b2n m.standby), (6, b2n m.fenced), (7, b2n m.holdup)]

/-- MODE_STATUS (R55). -/
def modeStatus (m : Modes) : Word :=
  reg32 [(0, m.mode.code), (4, conditionBits m), (12, b2n m.recovering), (15, b2n m.stbyRefused), (16, m.leadDie.toNat),
    (19, b2n m.lead), (20, b2n m.leadOk), (21, m.dieId.toNat), (28, m.prevMode.code)]

/-- RESET_CAUSE (R61). -/
def resetCause (m : Modes) : Word :=
  reg32 [(0, b2n m.causePor), (1, b2n m.causePin), (2, b2n m.causeSoft), (3, b2n m.causeWdog), (4, b2n m.quarHeld),
    (24, m.warmCount.toNat)]

/-- BOOT_STATUS (R71). -/
def bootStatus (m : Modes) : Word :=
  reg32 [(0, m.stage.toNat), (16, b2n m.eraseRedone), (17, b2n m.fwSlot), (18, b2n m.patchLoaded), (19, b2n m.custLoaded),
    (24, m.bootError.toNat)]

/-- DIRAD_ID (R573). -/
def diradId : Word := 0x0D1AD016

/-- DIRAD_CAPS (R574). -/
def diradCaps : Word := 0x10400840

/-- Registers of the identity and global block. -/
def readGlobal (off : Nat) (s : State) : Option Word :=
  match off with
  | 0x00 => some diradId
  | 0x04 => some diradCaps
  | 0x10 => some (modeStatus s.modes)
  | 0x14 => some (resetCause s.modes)
  | 0x18 => some (bootStatus s.modes)
  | 0x1C => some 0
  | 0x20 => some s.modes.scratch0
  | 0x24 => some s.modes.scratch1
  | 0x40 => some (BitVec.ofNat 32 (ringBits (·.state == .error) s))
  | 0x44 => some (BitVec.ofNat 32 (ringBits (·.state == .error) s / 2 ^ 32))
  | _ => none

/-! ### Dictionary port (R503) -/

/-- Registers of the dictionary port. -/
def readDict (off : Nat) (s : State) : Option Word :=
  let d := s.dict
  match off with
  | 0x00 => some (reg32 [(0, d.sub.toNat), (8, d.index.toNat), (28, d.op.toNat)])
  | 0x04 => some d.offset
  | 0x08 => some (reg32 [(0, d.length.toNat), (31, b2n d.last)])
  | 0x0C => some d.total
  | 0x10 => some (reg32 [(0, b2n d.busy), (1, b2n d.done), (2, b2n d.aborted), (3, b2n d.ignored), (24, d.port.level.toNat)])
  | 0x14 => some d.abort
  | _ => if 0x400 ≤ off && off ≤ 0x7FC then some (BitVec.ofNat 32 (leAt d.buf (off - 0x400) 4)) else none

/-! ### Work rings (R87 to R92) -/

/-- Code of a ring's state (R92). -/
def RingState.code : RingState → Nat
  | .disabled => 0
  | .idle => 1
  | .active => 2
  | .shuttingDown => 3
  | .error => 4

/-- Registers of a ring. -/
def readRing (off : Nat) (r : Ring) : Option Word :=
  match off with
  | 0x00 => some (reg32 [(12, r.baseLo.toNat)])
  | 0x04 => some r.baseHi
  | 0x08 => some (reg32 [(0, r.depthLog2.toNat), (8, r.weight.toNat), (12, r.priv.toNat), (15, b2n r.irqAll),
      (16, r.inflightMax.toNat)])
  | 0x0C => some (reg32 [(0, b2n (r.state != .disabled)), (1, b2n (r.state == .shuttingDown)), (2, b2n r.restartPend)])
  | 0x10 => some 0
  | 0x14 => some (reg32 [(0, r.start.toNat)])
  | 0x18 => some (reg32 [(0, r.head.toNat)])
  | 0x1C => some (reg32 [(0, r.state.code), (7, b2n r.dbPend), (8, r.cause.toNat), (24, r.inflight % 256)])
  | 0x20 => some (reg32 [(0, r.errIndex.toNat)])
  | 0x24 => some r.doneCount
  | _ => none

/-! ### Interrupt controller and event queue (R483 to R485) -/

/-- PEND of sources 32w to 32w + 31. -/
def pendWord (q : Irq) (w : Nat) : Nat := bitsOf ((List.range 32).map (fun b => q.pend.getD (32 * w + b) false))

/-- The sources of word `w` routed to target `t`, as bits. -/
def routeWord (q : Irq) (t w : Nat) : Nat :=
  bitsOf ((List.range 32).map (fun b => bitAt (q.route.getD (32 * w + b) 0).toNat t))

/-- IRQ_CFG of a source: sources without SENSE read it as zero (R483). -/
def irqCfg (q : Irq) (n : Nat) : Word :=
  reg32 [(0, if ordinary n then (q.sense.getD n 0).toNat else 0), (8, (q.route.getD n 0).toNat)]

/-- TGT_STATUS (R484). -/
def tgtStatus (q : Irq) (t : Nat) : Word :=
  reg32 [(0, b2n (q.signalled.getD t false)), (1, b2n (q.idle.getD t false)), (2, b2n (q.noteErr.getD t false)),
    (16, (q.signals.getD t 0).toNat)]

/-- Microseconds left of a group timer. -/
def holdoffLeft (s : State) (g : Nat) : Nat :=
  match s.irq.deadline.getD g none with
  | some d => min (d - s.now) 1023
  | none => 0

/-- Registers of the interrupt controller. -/
def readIrq (off : Nat) (s : State) : Option Word :=
  let q := s.irq
  let w := off % 0x20 / 4
  if off < 0x400 then some (irqCfg q (off / 4))
  else if off < 0x500 then
    some (reg32 ((List.range 4).map (fun j => (8 * j, (q.count.getD (off - 0x400 + j) 0).toNat))))
  else if off < 0x540 then some (BitVec.ofNat 32 (pendWord q w))
  else if 0x600 ≤ off && off < 0x6C0 then
    some (BitVec.ofNat 32 (pendWord q w &&& routeWord q ((off - 0x600) / 0x20) w))
  else if 0x700 ≤ off && off < 0x778 then
    let g := (off - 0x700) / 4
    some (reg32 [(0, (q.holdoff.getD g 0).toNat), (16, holdoffLeft s g)])
  else if 0x800 ≤ off && off < 0x860 then
    let t := (off - 0x800) / 0x10
    match off % 0x10 with
    | 0x0 => some (tgtStatus q t)
    | 0x4 => if t < 2 then none else some (BitVec.ofNat 32 ((q.naddr.getD t 0).toNat % 2 ^ 32))
    | 0x8 => if t < 2 then none else some (BitVec.ofNat 32 ((q.naddr.getD t 0).toNat / 2 ^ 32))
    | _ => if t < 2 then none else some (q.ndata.getD t 0)
  else if off == 0x900 then some (BitVec.ofNat 32 q.evtTime.toNat)
  else if off == 0x904 then some (BitVec.ofNat 32 (q.evtTime.toNat / 2 ^ 32))
  else none

/-- Registers of the event queue. -/
def readEvq (off : Nat) (s : State) : Option Word :=
  let q := s.evq
  match off with
  | 0x00 => some (reg32 [(12, q.baseLo.toNat)])
  | 0x04 => some q.baseHi
  | 0x08 => some (reg32 [(0, q.sizeLog2.toNat), (8, b2n q.enable)])
  | 0x0C => some (reg32 [(0, q.prod.toNat), (16, b2n q.phase)])
  | 0x10 => some (reg32 [(0, q.cons.toNat)])
  | 0x14 => some (reg32 [(0, b2n (q.prod != q.cons)), (1, b2n q.fullNow), (2, b2n q.fault), (8, q.coreDropped.toNat),
      (16, q.dropped.toNat)])
  | 0x18 => some q.rseq
  | _ => none

/-! ### Power and housekeeping (R461, R462) -/

/-- Whole milliseconds until the forecast's DURATION elapses, the last one begun counted whole. -/
def forecastRemain (s : State) : Nat := min ((s.rack.fcDeadline - s.now + 999) / 1000) 65535

/-- Registers of the clamp rack and of power. -/
def readPower (off : Nat) (s : State) : Option Word :=
  let r := s.rack
  match off with
  | 0x00 => some (reg32 [(0, budget s), (16, r.total)])
  | 0x04 => some (reg32 [(0, if r.fcHeld then forecastRemain s else 0), (16, r.fcClamps), (28, r.fcEvent.toNat),
      (30, b2n r.fcWaiting), (31, b2n r.fcHeld)])
  | 0x08 => some (reg32 [(0, min (r.waiting.length + b2n r.fcWaiting) 255), (16, r.deferred.toNat)])
  | 0x0C => some (reg32 [(0, b2n s.hk.throttle), (1, b2n s.pins.pwrFail), (2, b2n s.pins.ovAlert), (3, b2n s.pins.ovHard),
      (4, s.power.ovStage.toNat), (6, b2n s.modes.holdup), (7, b2n s.pins.holdupDone)])
  | 0x10 => some (reg32 [(0, s.power.holdupTime.toNat)])
  | 0x14 => some s.power.droopCount
  | 0x18 => some (reg32 [(0, r.sbMessages.toNat), (16, r.sbIgnored.toNat)])
  | 0x1C => some (reg32 [(0, s.power.ovAlerts.toNat), (16, s.power.ovFences.toNat)])
  | _ => none

/-- Registers of housekeeping. -/
def readHk (off : Nat) (s : State) : Option Word :=
  let h := s.hk
  if off == 0x000 then some (reg32 [(0, h.discarded.toNat), (16, h.rounds.toNat)])
  else if off == 0x004 then
    some (reg32 [(0, b2n h.warn), (1, b2n h.throttle), (2, b2n s.modes.quarantine), (4, h.latchRun.toNat),
      (8, h.tmaxSensor.toNat), (16, h.tmax.toNat)])
  else if 0x100 ≤ off && off < 0x160 then some (reg32 [(0, (h.temps.getD ((off - 0x100) / 4) 0).toNat)])
  else if 0x200 ≤ off && off < 0x280 then some (reg32 [(0, (h.volts.getD ((off - 0x200) / 4) 0).toNat)])
  else none

/-! ### Jigs and channels (R171 to R174, R216) -/

/-- Code of a jig's state (R173). -/
def JigState.code : JigState → Nat
  | .notStarted => 0
  | .running => 1
  | .halted => 2
  | .machineCheck => 3
  | .fenced => 4

/-- Items of a drawer at a priority, those of places kept for a job's remaining items included (R174). -/
def drawerAt (g : Jig) (p : Nat) : Nat := (g.drawer.filter (fun i => itemPrio i == p)).length

/-- Registers of a jig and channel block. -/
def readJig (off : Nat) (g : Jig) (c : Chan) : Option Word :=
  match off with
  | 0x000 => some (reg32 [(0, b2n g.stopReq)])
  | 0x004 => some (reg32 [(0, g.state.code), (4, g.stall.toNat), (8, b2n (0x600 ≤ g.pc.toNat)), (9, g.stack.length),
      (16, g.mcCount.toNat), (24, g.trapCount.toNat)])
  | 0x008 => some (reg32 [(0, g.pc.toNat)])
  | 0x00C => some (reg32 [(0, g.mc.addr.toNat), (16, g.mc.quarters.toNat), (31, b2n g.mc.valid)])
  | 0x010 => some (reg32 [(0, g.trap.addr.toNat), (16, g.trap.cause.toNat), (30, b2n g.trap.kind), (31, b2n g.trap.valid)])
  | 0x014 => some (reg32 [(0, drawerAt g 0), (8, drawerAt g 1), (16, drawerAt g 2), (24, drawerAt g 3)])
  | 0x018 => some (reg32 [(0, g.ageMs.toNat)])
  | 0x01C => some (reg32 [(0, g.aged.toNat), (16, g.full.toNat)])
  | 0x020 => some (reg32 [(0, g.eventCode.toNat), (16, g.eventCount.toNat)])
  | 0x100 => some (reg32 [(0, b2n c.up), (1, b2n c.training), (2, b2n c.search), (3, b2n c.fallback), (8, c.present.toNat),
      (24, c.mult.toNat), (28, c.mode.toNat)])
  | 0x104 => some (reg32 [(0, c.lastResult.toNat), (4, c.lastStep.toNat), (8, c.lastPause.toNat), (16, c.failCount.toNat),
      (24, c.retrainCount.toNat)])
  | 0x108 => some (reg32 [(0, c.trip.toNat), (8, c.drift.toNat)])
  | _ => if 0x040 ≤ off && off ≤ 0x07C then some (g.j.getD ((off - 0x40) / 4) 0) else none

/-! ### Codec and read recovery (R244, R286) -/

/-- RR_STATUS (R286). -/
def rrStatus (s : State) : Word :=
  let inUse t := (List.range 16).any (fun n => bitAt (cfg 0x2000 1 s) n && (fittedTypes n s).contains t)
  let ok := s.recov.tablesJudged && (List.range' 1 8).all (fun t => !inUse t || s.recov.tableValid.getD (t - 1) false)
  reg32 [(0, b2n s.recov.doseKnown), (1, b2n ok), (2, b2n s.recov.ledgerOk), (8, s.recov.sweep.toNat),
    (24, min s.recov.searches.length 255)]

/-- Registers of the codec and of read recovery. -/
def readCodec (off : Nat) (s : State) : Option Word :=
  let c := s.codec
  match off with
  | 0x000 => some (BitVec.ofNat 32 (codecStatus s))
  | 0x004 => some (reg32 [(0, c.faultCause.toNat), (3, c.faultIndex.toNat), (6, c.faultKind.toNat), (31, b2n c.faultValid)])
  | 0x008 => some (reg32 [(0, min (areasHeld s) 255), (8, c.workLimit.toNat)])
  | 0x00C => some (reg32 [(0, c.injectBits.toNat), (16, c.injectCount.toNat)])
  | 0x100 => some (rrStatus s)
  | 0x11C => some s.recov.lost
  | 0x120 => some s.recov.trueOk
  | 0x124 => some s.recov.trueAbandon
  | _ =>
    if 0x010 ≤ off && off ≤ 0x01C then some (BitVec.ofNat 32 (fld c.lastFail.toNat (8 * (off - 0x10)) 32))
    else if 0x020 ≤ off && off ≤ 0x040 then some (c.counters.getD ((off - 0x20) / 4) 0)
    else if 0x104 ≤ off && off ≤ 0x118 then some (s.recov.resolved.getD ((off - 0x104) / 4) 0)
    else none

/-! ### Stripe engine, background engine, media port (R324, R370, R403) -/

/-- JRNL_STATUS.STATE: lost from the loss of both copies until the move that follows has its anchor (R324, R365; DEDUCED, log
entry 119). -/
def jrnlState (j : Jrnl) : BitVec 4 := if j.state == 3 && j.lost then 4 else j.state

/-- Registers of the stripe engine. -/
def readStripe (off : Nat) (s : State) : Option Word :=
  let p := s.stripe
  let j := p.jrnl
  match off with
  | 0x00 => some (reg32 [(20, p.baseLo.toNat)])
  | 0x04 => some p.baseHi
  | 0x08 => some (reg32 [(0, p.mib.toNat)])
  | 0x0C => some (reg32 [(0, b2n p.granted)])
  | 0x10 => some (reg32 [(0, b2n p.granted), (1, b2n p.ready), (2, b2n p.wfault), (24, p.err.toNat)])
  | 0x14 => some (BitVec.ofNat 32 (bitsOf (p.slots.map (·.state != .free))))
  | 0x18 => some (reg32 [(0, p.waits.toNat), (16, p.waitLong.toNat)])
  | 0x1C => some (reg32 [(0, min j.pages 0xFFFFFF), (24, b2n j.folding), (28, (jrnlState j).toNat)])
  | 0x20 => some (reg32 [(0, j.lunA % 4096), (16, j.lunB % 4096)])
  | 0x24 => some j.epoch
  | 0x28 => some (BitVec.ofNat 32 j.durableJseq)
  | 0x2C => some (reg32 [(0, j.anchorRecord % 64), (6, j.anchorSector % 64)])
  | 0x30 => some j.aseq
  | 0x34 => some j.sealNext
  | 0x38 => some (reg32 [(0, min (p.cache.filter (fun g => pinned g s)).length 255), (16, p.misses.toNat)])
  | 0x3C => some (reg32 [(0, j.adopted.toNat), (8, j.reparity.toNat), (16, min 65535 j.recMs.toNat)])
  | _ => none

/-- Members in MSTATE 0x1 (R370). -/
def membersFailed (s : State) : Nat :=
  (s.stripe.dir.map (fun e => (e.members.filter (fun m => m.mstate == 1)).length)).sum

/-- The running rebuild's failed and spare LUN; zero when none runs. -/
def rebuildLuns (s : State) : Nat × Nat :=
  match s.bg.queue with
  | q :: _ => (q.failedLun, q.spareLun)
  | [] => (0, 0)

/-- Registers of the background engine. -/
def readBg (off : Nat) (s : State) : Option Word :=
  let b := s.bg
  match off with
  | 0x00 => some (reg32 [(0, b2n b.scanned), (1, b2n s.stripe.ledgerFull), (8, min (rebuildsQueued s) 15),
      (20, b.patrolState.toNat), (24, b.refitState.toNat), (28, b.rebuildState.toNat)])
  | 0x04 => some (reg32 [(0, b.curGroup), (24, b.curMember)])
  | 0x08 => some (reg32 [(0, b.pointer)])
  | 0x0C => some (reg32 [(0, (rebuildLuns s).1), (16, (rebuildLuns s).2)])
  | 0x10 => some (reg32 [(0, b.refitRow), (24, b.target)])
  | 0x14 => some (BitVec.ofNat 32 b.unit)
  | 0x18 => some (reg32 [(0, b.patrolGroup)])
  | 0x1C => some (reg32 [(0, b.patrolRow)])
  | 0x20 => some b.laps
  | 0x24 => some (reg32 [(0, b.unresolved.toNat), (4, b.parity.toNat), (8, b.silent.toNat), (16, b.unreadable.toNat)])
  | 0x28 => some (reg32 [(0, s.stripe.ledger.length)])
  | 0x2C => some b.lossCount
  | 0x30 => some (reg32 [(0, membersFailed s)])
  | _ => none

/-- Registers of the media port. -/
def readMedia (off : Nat) (s : State) : Option Word :=
  let m := s.media
  match off with
  | 0x00 => some (reg32 [(0, b2n s.pins.mediaReady), (4, m.accum.toNat), (16, bitsOf (m.heads.map (·.job.isSome)))])
  | 0x04 => some (reg32 [(16, bitsOf (m.heads.map Head.feeding))])
  | 0x08 => some (reg32 [(0, s.stripe.binds.length)])
  | 0x0C => some (reg32 [(0, m.bindWaits.toNat), (16, m.bindLong.toNat)])
  | 0x10 => some (reg32 [(0, m.frags.length), (16, (m.frags.map (fun f => fragSlots f.n)).sum)])
  | 0x14 => some (reg32 [(0, m.nominal.toNat), (16, m.realigned.toNat)])
  | 0x18 => some (reg32 [(0, m.rejSync.toNat), (16, m.rejScore.toNat)])
  | 0x1C => some m.aborts
  | _ => none

/-! ### SRAM integrity, Dovetail, jig store window (R568, R433, R175) -/

/-- The scrubber is paused (R559). -/
def scrubPaused (s : State) : Bool := s.modes.holdup || s.modes.quarantine || s.modes.mode == .standby

/-- Registers of SRAM integrity. -/
def readSramRegs (off : Nat) (s : State) : Option Word :=
  let m := s.sram
  match off with
  | 0x00 => some (reg32 [(0, b2n m.poisoned), (1, b2n m.scrubOn), (2, b2n (scrubPaused s))])
  | 0x04 => some m.corr
  | 0x08 => some m.uncorr
  | 0x0C => some (reg32 [(0, b2n m.errQ), (16, m.errSyn.toNat), (24, m.errRegion.toNat), (30, b2n m.errUncorr),
      (31, b2n m.errValid)])
  | 0x10 => some (reg32 [(0, m.lastAddr.toNat)])
  | 0x14 => some (reg32 [(0, m.interval.toNat)])
  | 0x18 => some (reg32 [(0, m.scrubPos)])
  | 0x1C => some (reg32 [(0, m.lapMs.toNat), (16, m.laps.toNat)])
  | 0x20 => some m.fixed
  | 0x24 => some (reg32 [(0, m.merge.length), (16, m.merges.toNat)])
  | 0x28 => some (reg32 [(0, m.flipPosA.toNat), (8, m.flipPosB.toNat), (24, m.flipRegion.toNat), (30, b2n m.flipB),
      (31, b2n m.flipArm)])
  | 0x2C => some (reg32 [(0, m.flipAddr.toNat), (31, b2n m.flipUsed)])
  | _ => none

/-- Registers of the Dovetail block. -/
def readDv (off : Nat) (s : State) : Option Word :=
  let d := s.dv
  match off with
  | 0x00 => some (reg32 [(0, b2n d.solo), (1, b2n d.quorum), (2, b2n d.dupId), (16, d.west.peer.toNat),
      (19, d.east.peer.toNat), (22, b2n d.west.up), (23, b2n d.east.up), (24, d.west.lanes.toNat), (28, d.east.lanes.toNat)])
  | 0x04 => some (reg32 [(0, d.view.toNat), (28, d.size.toNat)])
  | 0x08 => some d.term
  | 0x0C => some (reg32 [(0, d.elections.toNat), (16, d.missed.toNat)])
  | 0x10 => some (reg32 [(0, d.discards.toNat), (16, d.replays.toNat)])
  | 0x14 => some (reg32 [(0, d.westDown.toNat), (16, d.eastDown.toNat)])
  | _ => none

/-- Registers of the jig store window. -/
def readStore (off : Nat) (s : State) : Option Word :=
  let p := s.regs
  if off == 0 then some p.jsSel
  else if off == 4 then some (reg32 [(1, b2n p.jsErr)])
  else if 8 ≤ off && off ≤ 0x18 then some (BitVec.ofNat 32 (fld p.jsData.toNat (8 * (off - 8)) 32))
  else none

/-- The register at an offset of the window, a multiple of 4; none where the index holds none (R571, R572, R581). -/
def readReg (a : Nat) (s : State) : Option Word :=
  if a < 0x01000 then readGlobal a s
  else if a < 0x02000 then readDict (a - 0x01000) s
  else if a < 0x04000 then readRing ((a - 0x02000) % 0x80) (ringAt ((a - 0x02000) / 0x80) s)
  else if a < 0x05000 then readIrq (a - 0x04000) s
  else if a < 0x06000 then readEvq (a - 0x05000) s
  else if a < 0x07000 then readPower (a - 0x06000) s
  else if a < 0x08000 then readHk (a - 0x07000) s
  else if a < 0x0C000 then
    readJig ((a - 0x08000) % 0x400) (jigAt ((a - 0x08000) / 0x400) s) (chanAt ((a - 0x08000) / 0x400) s)
  else if a < 0x0D000 then readCodec (a - 0x0C000) s
  else if a < 0x0D100 then readStripe (a - 0x0D000) s
  else if a < 0x0D200 then readBg (a - 0x0D100) s
  else if a < 0x0D300 then readMedia (a - 0x0D200) s
  else if a < 0x0E000 then none
  else if a < 0x0F000 then readSramRegs (a - 0x0E000) s
  else if a < 0x10000 then readDv (a - 0x0F000) s
  else if a < 0x20000 then readStore (a - 0x10000) s
  else none

end Sys2Proof.Machine
end

