-- ==== Sys2Proof/Machine/Objects.lean ====
section
/-!
DEFINITION. What each object of the dictionary reads as: constants, the values that Dirad keeps, and the values last
committed (R499, R518 to R523 and the object tables of the other chapters).
-/
namespace Sys2Proof.Machine

/-- ASCII text padded with zero bytes (R8). -/
def text (n : Nat) (t : List Nat) : List Byte := padTo n (t.map (BitVec.ofNat 8))

/-- Identity objects (R518). -/
def readIdentity (sub : Nat) (s : State) : List Byte :=
  match sub with
  | 1 => text 16 [0x56, 0x61, 0x72, 0x74, 0x6F, 0x6E, 0x6F, 0x73]
  | 2 => text 16 [0x44, 0x69, 0x72, 0x61, 0x64]
  | 3 => le 4 diradId.toNat
  | 4 => markBytes 8 16 s
  | 5 => le 4 (Config.partValue 0)
  | 6 => le 4 (Config.imageVersion (cabBytes (if s.modes.fwSlot then 0x100 else 0) 0 32 s))
  | 7 => le 1 s.modes.dieId.toNat
  | 8 => le 4 1
  | _ => le 2 objectCount

/-- Ring objects (R129). -/
def readRings (sub : Nat) (s : State) : List Byte :=
  match sub with
  | 1 => le 8 (ringBits (·.state != .disabled) s)
  | 2 => le 8 (ringBits (·.state == .error) s)
  | 3 => le 8 s.stats.entriesFetched
  | 4 => le 4 s.stats.malformedCount
  | _ => le 2 ((s.rings.map (·.inflight)).sum)

/-- Channel objects (R217). -/
def readChannel (sub : Nat) (c : Chan) : List Byte :=
  match sub with
  | 2 => le 2 c.rate
  | 3 => le 1 c.mode.toNat
  | 4 => le 4 c.applies
  | 5 => le 4 c.searchFails
  | _ => le 2 c.fallbackCount

/-- SEQUENCE of an image that boot loaded, else 0 (R176). -/
def loadedSequence (loaded : Bool) (seq : Word) : List Byte := if loaded then le 4 seq.toNat else zeros 4

/-- jigTrace (R176): 64 records of 8 bytes, oldest first, with zero bytes after them while fewer are written (DESIGN CHOICE, log
entry 109). -/
def traceBytes (g : Jig) : List Byte :=
  padTo 512 (g.trace.flatMap (fun r => le 8 (Config.traceRecord r.1 r.2.1 r.2.2)))

/-- Jig objects (R176). -/
def readJigObject (sub : Nat) (g : Jig) : List Byte :=
  match sub with
  | 1 => le 1 g.state.code
  | 2 => le 1 g.mcCount.toNat
  | 3 => le 1 g.trapCount.toNat
  | _ => traceBytes g

/-- Read recovery objects (R287). -/
def readRecovery (sub : Nat) (s : State) : List Byte :=
  if sub == 7 then le 1 (b2n s.recov.doseKnown)
  else if sub == 8 then le 4 s.recov.unpoweredHours
  else le 8 (s.stats.resolved.getD (sub - 0x11) 0)

/-- Stripe and journal objects (R325). -/
def readStripeObject (sub : Nat) (s : State) : List Byte :=
  let j := s.stripe.jrnl
  match sub with
  | 0x05 => le 2 j.lunA
  | 0x06 => le 2 j.lunB
  | 0x07 => le 4 j.epoch.toNat
  | 0x08 => le 4 j.aseq.toNat
  | 0x09 => le 4 j.sealNext.toNat
  | 0x0A => le 4 s.stripe.dirEntries
  | 0x0B => le 1 (((s.stripe.slots.take 32).filter (·.state != .free)).length)
  | 0x0C => le 4 j.pages
  | 0x0D => le 4 j.recMs.toNat
  | _ => le 8 s.stats.shortRowsClosed

/-- Background objects (R371). -/
def readBgObject (sub : Nat) (s : State) : List Byte :=
  match sub with
  | 0x04 => le 4 s.bg.laps.toNat
  | 0x05 => le 4 s.bg.lastLap
  | 0x0B => le 2 s.stripe.ledger.length
  | 0x0C => le 8 s.stats.codewordsLost
  | 0x0D => le 4 s.stats.silentFound
  | 0x0E => le 4 s.stats.refitCutUnits
  | _ => le 2 (membersFailed s)

/-- Media port objects (R404). -/
def readMediaObject (sub : Nat) (s : State) : List Byte :=
  match sub with
  | 1 => le 4 s.stripe.binds.length
  | 2 => le 8 s.stats.rowsReleased
  | 3 => le 8 s.stats.rowsUnboundForced
  | 4 => le 8 s.stats.verifyBadRows
  | _ => le 4 s.media.aborts.toNat

/-- Objects of a head (R404). -/
def readHead (sub : Nat) (h : Head) : List Byte :=
  match sub with
  | 1 => match h.job with
    | some j => le 4 j.toNat
    | none => le 4 0xFFFFFFFF
  | 2 => le 8 h.runs
  | 3 => le 8 h.released
  | 4 => le 4 h.aborts
  | 5 => le 4 h.passOk
  | _ => le 4 h.passRej

/-- Cascade objects (R434). -/
def readCascade (sub : Nat) (s : State) : List Byte :=
  match sub with
  | 2 => le 4 s.dv.term.toNat
  | 3 => le 1 (if s.dv.leadKnown then s.modes.leadDie.toNat else 0xFF)
  | 4 => le 1 s.dv.view.toNat
  | 5 => le 4 s.stats.electionsWon
  | 6 => le 4 s.stats.leadLosses
  | _ => le 4 s.stats.heartbeatsMissed

/-- Power objects (R463). -/
def readPowerObject (sub : Nat) (s : State) : List Byte :=
  match sub with
  | 0x0B => le 2 s.rack.total
  | 0x0C => le 4 s.stats.deferredCount
  | 0x0D => le 4 s.stats.ovFences
  | 0x0E => le 4 s.stats.forecastsGranted
  | _ => le 4 s.power.droopCount.toNat

/-- Thermal objects (R464). A round under throttle lasts 4.096 ms (R455). -/
def readThermal (sub : Nat) (s : State) : List Byte :=
  match sub with
  | 4 => le 2 500
  | 5 => le 2 s.hk.tmax.toNat
  | 6 => s.hk.temps.flatMap (fun t => le 2 t.toNat)
  | 7 => s.hk.volts.flatMap (fun v => le 2 v.toNat)
  | 8 => le 4 s.stats.warnEvents
  | _ => le 4 (s.stats.throttleRounds * 4096 / 1000000)

/-- Interrupt objects (R486). -/
def readInterrupts (sub : Nat) (s : State) : List Byte :=
  match sub with
  | 1 => le 4 s.evq.rseq.toNat
  | 2 => le 4 s.stats.recordsDropped
  | 3 => s.irq.raises.flatMap (fun c => le 2 c.toNat)
  | 4 => le 1 (packFields [(0, b2n s.evq.enable), (1, b2n s.evq.fullNow), (2, b2n s.evq.fault)])
  | _ => le 8 s.irq.evtTime.toNat

/-- cabinetState (R549). -/
def cabinetState (c : Cabinet) : Nat :=
  match c.prog, c.erase with
  | some p, _ => if p.op == 3 then 4 else 1
  | none, some e => if e.suspended then 3 else 2
  | none, none => 0

/-- customerKeySlot (R549). -/
def keySlot (s : State) : Nat :=
  match slotInForce s with
  | none => 0xFF
  | some i => if slotValid i s then i else 0xFE

/-- LSEQ of a log slot that is valid; none otherwise (R545). -/
def logSeq (i : Nat) (s : State) : Option Nat :=
  let b := cabBytes (logSector i) (i % 64 * 8) 8 s
  if leAt b 56 4 == crc32c (b.take 40) && leAt b 60 4 == 0 then some (leAt b 32 8) else none

/-- LSEQs of the valid slots. -/
def logSeqs (s : State) : List Nat := (List.range 49152).filterMap (fun i => logSeq i s)

/-- The slot whose LSEQ is `n`, or 64 bytes 0xFF when absent (R549). -/
def logRead (n : Nat) (s : State) : List Byte :=
  match (List.range 49152).find? (fun i => logSeq i s == some n) with
  | some i => cabBytes (logSector i) (i % 64 * 8) 8 s
  | none => List.replicate 64 0xFF

/-- Cabinet objects (R549). -/
def readCabinet (sub : Nat) (s : State) : List Byte :=
  match sub with
  | 0x01 => le 1 (cabinetState s.cab)
  | 0x02 => le 4 s.stats.cabinetFaults
  | 0x03 => le 2 (((List.range 2048).filter (fun i => sectorFailed s.cab i)).length)
  | 0x04 => le 1 (keySlot s)
  | 0x05 => le 2 (floorAt 0x380 s)
  | 0x06 => le 2 (floorAt 0x3A0 s)
  | 0x0B => le 8 ((logSeqs s).foldl max 0)
  | 0x0C => match logSeqs s with
    | a :: l => le 8 (l.foldl min a)
    | [] => le 8 0
  | 0x0E => logRead (leVal (stored 0x3C00 0x0D s)) s
  | _ => cabBytes (0x740 + leVal (stored 0x3C00 0x0F s)) 0 512 s

/-- SRAM integrity objects (R569). -/
def readSramObject (sub : Nat) (s : State) : List Byte :=
  match sub with
  | 3 => le 8 s.stats.correctedWords
  | 4 => le 8 s.stats.uncorrectableWords
  | 5 => le 8 s.stats.scrubFixed
  | 6 => le 4 s.stats.scrubLaps
  | 7 => le 4 s.sram.lapMs.toNat
  | 8 => s.stats.regionCorrected.flatMap (le 4)
  | _ => s.stats.regionUncorrectable.flatMap (le 4)

/-- Statistics (R522). -/
def readStats (sub : Nat) (s : State) : List Byte :=
  match sub with
  | 1 => le 4 ((s.now - s.stats.uptimeBase) / 1000000)
  | 2 => le 4 s.stats.powerCycles
  | 3 => le 8 s.stats.bytesWritten
  | 4 => le 8 s.stats.bytesRead
  | _ => le 8 s.stats.entriesCompleted

/-- Counters since the mark (R522). -/
def readSinceMark (sub : Nat) (s : State) : List Byte :=
  match sub with
  | 3 => le 8 (s.stats.bytesWritten - s.stats.mark.1)
  | 4 => le 8 (s.stats.bytesRead - s.stats.mark.2.1)
  | _ => le 8 (s.stats.entriesCompleted - s.stats.mark.2.2)

/-- channelOps (R522). -/
def readOps (sub : Nat) (o : Nat × Nat × Nat) : List Byte :=
  match sub with
  | 1 => le 8 o.1
  | 2 => le 8 o.2.1
  | _ => le 8 o.2.2

/-- lunState (R521). -/
def lunState (u : Nat) (s : State) : Nat :=
  if !(reachable u s) then 3
  else if !(lunPresent u s) then 0
  else if (lunRec u s).failed then 2 else 1

/-- Fields of a per-LUN record (R288, R521). -/
def readLun (u f : Nat) (s : State) : List Byte :=
  let r := lunRec u s
  match f with
  | 0x00 => le 1 (lunState u s)
  | 0x01 => le 1 (if ownLun u s then lunType u s else 0)
  | 0x02 => le 8 r.reads
  | 0x03 => le 8 r.programs
  | 0x04 => le 8 r.erases
  | 0x05 => le 4 r.programFails
  | 0x06 => le 4 r.eraseFails
  | 0x07 => le 4 r.busyTimeouts
  | 0x10 => padTo 16 (0 :: r.bias.map (fun b => BitVec.ofNat 8 (unsgn 8 b)))
  | 0x11 => le 1 r.retryHint
  | 0x12 => le 4 r.trueCount
  | _ => le 4 r.trueAbandoned

/-- Codec objects (R245). -/
def readCodecObject (sub : Nat) (s : State) : List Byte :=
  if sub == 1 then le 4 (codecStatus s)
  else if sub == 6 then le 16 s.codec.lastFail.toNat
  else le 8 (s.stats.codewords.getD (sub - 0x10) 0)

/-- Objects of the ranges 0x1000 to 0x14FF that Dirad keeps. -/
def readLow (idx sub : Nat) (s : State) : List Byte :=
  if idx == 0x1000 then readIdentity sub s
  else if idx == 0x1100 then
    match sub with
    | 1 => le 1 s.modes.mode.code
    | 2 => le 2 (conditionBits s.modes)
    | _ => le 4 (resetCause s.modes).toNat
  else if idx == 0x1200 then le 4 (bootStatus s.modes).toNat
  else if idx == 0x1201 then le 1 (if sub == 4 then s.dict.imgState.toNat else s.dict.imgReason.toNat)
  else if idx == 0x1300 then
    match sub with
    | 7 => le 4 s.stats.canDropped
    | 8 => le 4 s.stats.canEventsDropped
    | 9 => le 1 s.dict.errState.toNat
    | 0x0B => le 2 s.dict.restoreRejected
    | _ => le 4 (saveFree s)
  else readRings sub s

/-- Objects of the ranges 0x2000 to 0x25FF that Dirad keeps. -/
def readFlash (idx sub : Nat) (s : State) : List Byte :=
  if idx < 0x2100 then readChannel sub (chanAt (idx - 0x2010) s)
  else if idx == 0x2100 then
    match sub with
    | 1 => le 1 (b2n s.modes.custLoaded)
    | 2 => loadedSequence s.modes.custLoaded s.modes.custSeq
    | _ => loadedSequence s.modes.patchLoaded s.modes.patchSeq
  else if idx < 0x2200 then readJigObject sub (jigAt (idx - 0x2110) s)
  else if idx == 0x2400 then readCodecObject sub s
  else if idx == 0x2500 then readRecovery sub s
  else if idx < 0x2520 then
    if sub == 1 then le 8 (s.recov.clocks.getD (idx - 0x2510) 0).toNat
    else le 2 (s.recov.tempUsed.getD (idx - 0x2510) 0).toNat
  else le 1 (b2n (s.recov.tableValid.getD (idx - 0x2521) false))

/-- Objects of the ranges from 0x2800 on that Dirad keeps. -/
def readHigh (idx sub : Nat) (s : State) : List Byte :=
  if idx == 0x2800 then readStripeObject sub s
  else if idx == 0x2900 then readBgObject sub s
  else if idx == 0x2903 then le 2 (s.bg.spareNext.getD (sub - 1) 0)
  else if idx == 0x3000 then readMediaObject sub s
  else if 0x3010 ≤ idx && idx ≤ 0x301F then readHead sub (headAt (idx - 0x3010) s)
  else if idx == 0x3400 then readCascade sub s
  else if idx == 0x3800 then readPowerObject sub s
  else if idx == 0x3900 then readThermal sub s
  else if idx == 0x3A00 then readInterrupts sub s
  else if idx == 0x3C00 then readCabinet sub s
  else if 0x3C10 ≤ idx && idx ≤ 0x3C17 then le 4 (eraseCount s.cab ((idx - 0x3C10) * 256 + sub))
  else if idx == 0x3D00 then readSramObject sub s
  else if 0x4000 ≤ idx && idx ≤ 0x41FF then readLun ((idx - 0x4000) * 8 + sub / 32) (sub % 32) s
  else if idx == 0x6000 then readStats sub s
  else if idx == 0x6001 then readSinceMark sub s
  else readOps sub (s.stats.channelOps.getD (idx - 0x6010) (0, 0, 0))

/-- The value an object reads as, the objects of a session apart: the value last committed of RW and RWS objects, what
Dirad keeps of the others; on a follower, the RO objects of cascade-wide functions read their reset values (R490, R499). -/
def readObject (o : Obj) (idx sub : Nat) (s : State) : List Byte :=
  let kept := if idx < 0x2000 then readLow idx sub s else if idx < 0x2800 then readFlash idx sub s else readHigh idx sub s
  if idx == 0x3C00 && sub == 0x10 then readCabinet sub s
  else if 0x4000 ≤ idx && idx ≤ 0x41FF && sub % 32 == 0x10 then
    readLun ((idx - 0x4000) * 8 + sub / 32) 0x10 s
  else
    match o.acc with
    | .rw | .rws => stored idx sub s
    | .ro => if o.flags / 2 % 2 == 1 && s.modes.follower then zeros o.len else kept
    | _ => kept

end Sys2Proof.Machine
end

