-- ==== Sys2Proof/Machine/Images.lean ====
section
/-!
DEFINITION. Images in the Cabinet: their headers, their checks, and the jig store image that boot makes of them (R66 to
R69, R158 to R160, R516, R541, R542).
-/
namespace Sys2Proof.Machine

/-- The places an image can lie in, numbered as imageTarget numbers them: 1 slot A, 2 slot B, 3 vendor patch, 4 customer
image; first sector (R66). -/
def imageSector (target : Nat) : Nat :=
  match target with
  | 1 => 0x000
  | 2 => 0x100
  | 3 => 0x200
  | _ => 0x280

/-- TYPE of the image of a place (R66). -/
def imageType (target : Nat) : Nat :=
  match target with
  | 1 | 2 => 1
  | 3 => 2
  | _ => 3

/-- LENGTH lies within the limits of R66. -/
def imageLengthOk (target n : Nat) : Bool :=
  match imageType target with
  | 1 => 1 ≤ n && n ≤ 393216
  | 2 => 24 ≤ n && n ≤ 36864 && n % 24 == 0
  | _ => 20 ≤ n && n ≤ 10240 && n % 20 == 0

/-- KEY_SEL that an image of a place must have. -/
def imageKey (target : Nat) : Nat := if target == 4 then 1 else 0

/-- The 256 header bytes. -/
def imageHeader (target : Nat) (s : State) : List Byte := cabBytes (imageSector target) 0 32 s

/-- No image lies there: every byte of its header is erased. -/
def imageAbsent (target : Nat) (s : State) : Bool := erasedIn s.cab.words (imageSector target * 512) 32

/-- LENGTH and SEQUENCE of a header. -/
def imageLen (h : List Byte) : Nat := leAt h 16 4
def imageSeq (h : List Byte) : Nat := leAt h 8 4

/-- The ciphertext. -/
def imageBody (target : Nat) (h : List Byte) (s : State) : List Byte :=
  (cabBytes (imageSector target) 32 ((imageLen h + 7) / 8) s).take (imageLen h)

/-- Check 1 of R67: the fields of the header. -/
def headerOk (target : Nat) (h : List Byte) : Bool :=
  leAt h 0 4 == 0x0D1A1A6E && byteAt h 4 == imageType target && byteAt h 5 == imageKey target && leAt h 6 2 == 0
    && imageLengthOk target (imageLen h)

/-- The key hash for a KEY_SEL; none when no customer key is valid (R540, R541). -/
def keyHash (sel : Nat) (s : State) : Option (List Byte) :=
  if sel == 0 then some (markBytes 0x18 48 s)
  else
    match slotInForce s with
    | some i => if slotValid i s then some (markBytes (0x200 + 96 * i) 48 s) else none
    | none => none

/-- The image key for a KEY_SEL, as boot reads it before MARK_LOCK (R540, R541). -/
def imageKeyBytes (sel : Nat) (s : State) : List Byte :=
  if sel == 0 then markBytes 0x48 32 s
  else
    match slotInForce s with
    | some i => markBytes (0x200 + 96 * i + 48) 32 s
    | none => []

/-- The floor for a KEY_SEL (R542). -/
def svnFloor (sel : Nat) (s : State) : Nat := floorAt (if sel == 0 then 0x380 else 0x3A0) s

/-- Checks 1 to 4 of R67: the reason of the first that fails. -/
def imageRefused (target : Nat) (s : State) : Option Nat :=
  let h := imageHeader target s
  let pub := slice h 144 97
  let sel := imageKey target
  let digest := Config.sha384 (h.take 48 ++ slice h 144 112 ++ imageBody target h s)
  if !headerOk target h then some 0
  else if keyHash sel s != some (Config.sha384 pub) then some 1
  else if !Config.ecdsaVerify pub (slice h 48 96) digest then some 2
  else if leAt h 12 4 < svnFloor sel s then some 3
  else none

/-- Check 5 of R67: the plaintext. -/
def imagePlain (target : Nat) (s : State) : Option (List Byte) :=
  let h := imageHeader target s
  Config.gcmDecrypt (imageKeyBytes (imageKey target) s) (slice h 20 12) (h.take 20) (imageBody target h s) (slice h 32 16)

/-- An image checked whole: its plaintext, or the reason of its refusal (R67). -/
def loadImage (target : Nat) (s : State) : Nat ⊕ List Byte :=
  match imageRefused target s with
  | some r => .inl r
  | none =>
    match imagePlain target s with
    | none => .inl 4
    | some p =>
      let addrOk := (List.range (p.length / 24)).all (fun i => leAt p (24 * i) 2 < 0x600)
      if target == 3 && !addrOk then .inl 5 else .inr p

/-- Words of a vendor patch: address and word, from entries of 24 bytes (R66). -/
def patchWords (p : List Byte) : List (Nat × BitVec 160) :=
  (List.range (p.length / 24)).map (fun i => (leAt p (24 * i) 2, BitVec.ofNat 160 (leAt p (24 * i + 4) 20)))

/-- Words of a customer image, from 0x600 up (R66). -/
def customerWords (p : List Byte) : List (Nat × BitVec 160) :=
  (List.range (p.length / 20)).map (fun i => (0x600 + i, BitVec.ofNat 160 (leAt p (20 * i) 20)))

/-- The store image: the base library, the patch over it, the customer words; the rest of the customer region holds the
trap word, which the store holds already (R152, R160). -/
def storeOf (ws : List (Nat × BitVec 160)) : List (Nat × BitVec 160) :=
  ws.foldl (fun l w => putStore l w.1 w.2) []

/-- A refusal recorded in BOOT_STATUS.ERROR; every later one goes to the event log only (R71, R546). -/
def bootRefusal (place reason : Nat) (s : State) : State :=
  let code := 16 * place + reason
  if s.modes.bootError == 0 then { s with modes := { s.modes with bootError := BitVec.ofNat 8 code } }
  else logRecord (le 1 2 ++ le 1 code ++ zeros 2 ++ le 6 s.irq.evtTime.toNat) s

/-- Firmware slots in the order in which boot tries them (R68). A slot whose written header fails check 1 is not tried, and
beside a valid candidate nothing records it (DESIGN CHOICE, log entry 86). -/
def slotOrder (s : State) : List Nat :=
  let a := imageHeader 1 s
  let b := imageHeader 2 s
  match headerOk 1 a, headerOk 2 b with
  | true, true => if imageSeq a < imageSeq b then [2, 1] else [1, 2]
  | true, false => [1]
  | false, true => [2]
  | false, false => []

/-- Byte offset of management SRAM, region 4 (R551). -/
def managementBase : Nat := 16 * regionBase 4

/-- The candidates tried in order: the first that passes is loaded at the base of management SRAM, each refusal is recorded
(R64 step 7, R66, R68, R69, R71). -/
def tryFirmware : List Nat → State → Bool × State
  | [], s => (false, s)
  | t :: ts, s =>
    match loadImage t s with
    | .inr p => (true, sramWrite managementBase p { s with modes := { s.modes with fwSlot := t == 2 } })
    | .inl r => tryFirmware ts (bootRefusal t r s)

/-- BOOT step 7: a firmware slot is chosen; false when none serves (R68, R69). -/
def bootFirmware (s : State) : Bool × State :=
  match slotOrder s with
  | [] => (false, bootRefusal 1 0 s)
  | ts => tryFirmware ts s

/-- BOOT step 8: the vendor patch (R69). -/
def bootPatch (s : State) : State :=
  if imageAbsent 3 s then s
  else
    match loadImage 3 s with
    | .inr p =>
      { s with
        modes := { s.modes with patchLoaded := true, patchSeq := BitVec.ofNat 32 (leAt (cabBytes 0x200 0 32 s) 8 4) }
        storeImage := storeOf (patchWords p) }
    | .inl r => configEvent 1 r 0 0 (bootRefusal 3 r s)

/-- BOOT step 8: the customer image; skipped when no customer key exists (R67, R69, R541). -/
def bootCustomer (s : State) : State :=
  if (slotInForce s).isNone || imageAbsent 4 s then s
  else
    match loadImage 4 s with
    | .inr p =>
      { s with
        modes := { s.modes with custLoaded := true, custSeq := BitVec.ofNat 32 (leAt (cabBytes 0x280 0 32 s) 8 4) }
        storeImage := (customerWords p).foldl (fun l w => putStore l w.1 w.2) s.storeImage }
    | .inl r => configEvent 2 r 0 0 (bootRefusal 4 r s)

/-- BOOT step 8 ends with the image in every jig store (R64, R152). -/
def loadStores (s : State) : State := { s with jigs := s.jigs.map (fun g => { g with store := s.storeImage }) }

end Sys2Proof.Machine
end

