-- ==== Sys2Proof/Machine/Dict.lean ====
section
/-!
DEFINITION. The object dictionary: sessions, the checks of a request, reads, writes and commits, the objects that act, and
the two carriers (R488 to R511, R515 to R517, R522, R547, R549).
-/
namespace Sys2Proof.Machine

/-! ### Abort codes (R500) -/

def abNoObject : Nat := 0x01010000
def abNoSubindex : Nat := 0x01020000
def abNotReadable : Nat := 0x02010000
def abNotWritable : Nat := 0x02020000
def abPrivilege : Nat := 0x03010000
def abLength : Nat := 0x04010000
def abSequence : Nat := 0x04020000
def abBadOp : Nat := 0x04030000
def abBelow : Nat := 0x05010000
def abAbove : Nat := 0x05020000
def abBadValue : Nat := 0x05030000
def abNotNow : Nat := 0x06010000
def abHoldup : Nat := 0x06020000
def abSave : Nat := 0x06030000
def abTimeout : Nat := 0x06040000
def abSessionLost : Nat := 0x06050000
def abAuthFailed : Nat := 0x07010000
def abNoChallenge : Nat := 0x07020000
def abCap : Nat := 0x07030000
def abRunningSlot : Nat := 0x08010000
def abImageLength : Nat := 0x08020000
def abImageState : Nat := 0x08030000

/-! ### Sessions (R491, R508) -/

/-- The session of a client: 0 is the dictionary port. -/
def sessionAt (client : Nat) (s : State) : Session :=
  if client == 0 then s.dict.port else (s.dict.can.find? (fun x => x.client == client)).getD { client := client }

/-- A session changed. -/
def modSession (client : Nat) (f : Session → Session) (s : State) : State :=
  if client == 0 then { s with dict := { s.dict with port := f s.dict.port } }
  else { s with dict := { s.dict with can := s.dict.can.map (fun x => if x.client == client then f x else x) } }

/-- The CAN session idle longest. -/
def idlest : List Session → Option Session
  | [] => none
  | x :: xs =>
    match idlest xs with
    | some y => if y.lastUse < x.lastUse then some y else some x
    | none => some x

/-- A request of a CAN client: its session is opened at the first; with four held, the one idle longest is taken over
(R508). -/
def useSession (client : Nat) (s : State) : State :=
  let d := s.dict
  let s := { s with dict := { d with useOrder := d.useOrder + 1 } }
  if client == 0 then s
  else if d.can.any (fun x => x.client == client) then
    modSession client (fun x => { x with lastUse := d.useOrder }) s
  else
    let fresh : Session := { client := client, lastUse := d.useOrder }
    if d.can.length < 4 then { s with dict := { s.dict with can := d.can ++ [fresh] } }
    else
      match idlest d.can with
      | some y => { s with dict := { s.dict with
          can := d.can.filter (fun x => x.client != y.client) ++ [fresh]
          lostClients := y.client :: d.lostClients.filter (· != y.client) } }
      | none => s

/-- A request of a client whose CAN session was taken over opens a new session, and its first response carries SESSION_LOST,
whatever it asks for (R508): whether this is that request. -/
def answerLost (client : Nat) (s : State) : Bool × State :=
  let lost := client != 0 && s.dict.lostClients.contains client
  let s := useSession client s
  (lost, if lost then { s with dict := { s.dict with lostClients := s.dict.lostClients.filter (· != client) } } else s)

/-- The session of a CAN client ends (R508). -/
def endSession (client : Nat) (s : State) : State :=
  { s with dict := { s.dict with can := s.dict.can.filter (fun x => x.client != client) } }

/-! ### Checks 2 to 6 (R497) -/

/-- Operations on an object. -/
inductive DictOp where
  | read | write | describe
deriving DecidableEq, Repr

/-- Level needed to write an object: the vendor patch's objects need VENDOR (R489, R517). -/
def writeLevel (o : Obj) (idx sub : Nat) (s : State) : Nat :=
  if idx == 0x1201 && 2 ≤ sub && leVal (stored 0x1201 1 s) == 3 then max 2 o.wr else o.wr

/-- The mode serves a request on an index (R502). -/
def modeServes (idx : Nat) (s : State) : Bool :=
  !s.modes.boot || (s.modes.bootFallback && idx / 256 == 0x12)

/-- Some operation on the Cabinet can be started (R530 check 2). -/
def cabServes (s : State) : Bool := !s.modes.holdup

/-- Checks 2 to 6 of a request: its object, or the abort code. canPrivilegeCap is written from a dictionary port session
only (R494); the code that a CAN session then gets is the model's choice (log entry 84). -/
def objCheck (client : Nat) (op : DictOp) (idx sub : Nat) (s : State) : Nat ⊕ Obj :=
  if !indexExists idx then .inl abNoObject
  else
    match findObj idx sub with
    | none => .inl abNoSubindex
    | some o =>
      let factoryOnly := idx == 0x3C00 && (sub == 9 || sub == 0x0A)
      if op == .read && o.acc == .wo then .inl abNotReadable
      else if op == .write && (o.acc == .ro || o.acc == .const) then .inl abNotWritable
      else if op == .write && (sessionAt client s).level.toNat < writeLevel o idx sub s then .inl abPrivilege
      else if op == .write && client != 0 && idx == 0x1300 && sub == 2 then .inl abPrivilege
      else if !modeServes idx s then .inl abNotNow
      else if op == .write && o.acc == .rws && s.modes.holdup then .inl abHoldup
      else if op == .write && factoryOnly && s.modes.mode != .factory then .inl abNotNow
      else .inr o

/-! ### Reads (R495, R519) -/

/-- The session draws a challenge (R492). -/
def drawChallenge (client : Nat) (random : List Byte) (s : State) : State :=
  modSession client (fun x => { x with challenge := some random, drawnAt := s.now }) s

/-- The value of an object for a session's read at offset 0; authChallenge draws 48 fresh bytes, free values (log entry
2). -/
def sessionValue (client : Nat) (o : Obj) (idx sub : Nat) (s : State) : List Byte × State :=
  if idx == 0x1210 && sub == 2 then
    let r := (List.range 48).map (fun i => BitVec.ofNat 8 (Config.freeNat (s.freeCtr + i)))
    (r, drawChallenge client r { s with freeCtr := s.freeCtr + 48 })
  else if idx == 0x1210 then (le 1 (sessionAt client s).level.toNat, s)
  else (readObject o idx sub s, s)

/-- The answer to a request: abort code or 0, the object's length, the bytes. -/
structure Reply where
  code : Nat := 0
  total : Nat := 0
  data : List Byte := []
deriving DecidableEq, Repr

/-- A read of an object by a session: check 7, then the snapshot (R495, R497, R509). `cap` is the carrier's segment. -/
def serveRead (client idx sub off len cap : Nat) (s : State) : Reply × State :=
  match objCheck client .read idx sub s with
  | .inl c => ({ code := c }, s)
  | .inr o =>
    if cap < len then ({ code := abLength }, s)
    else if off == 0 then
      let (v, s) := sessionValue client o idx sub s
      let s := modSession client (fun x => { x with snap := some ((idx, sub), v), timedRead := none }) s
      ({ total := v.length, data := v.take len }, s)
    else if (sessionAt client s).timedRead == some (idx, sub) then
      ({ code := abTimeout }, modSession client (fun x => { x with timedRead := none }) s)
    else
      match (sessionAt client s).snap with
      | some (k, v) =>
        if k == (idx, sub) && off < v.length then ({ total := v.length, data := slice v off len }, s)
        else ({ code := abSequence }, s)
      | none => ({ code := abSequence }, s)

/-! ### Describe (R501) -/

/-- TYPE code. -/
def Ty.code : Ty → Nat
  | .bool => 1
  | .u8 => 2
  | .u16 => 3
  | .u32 => 4
  | .u64 => 5
  | .i16 => 6
  | .i32 => 7
  | .q16 => 8
  | .octets => 9
  | .text => 10
  | .time48 => 11

/-- The integer types. -/
def Ty.isInt : Ty → Bool
  | .u8 | .u16 | .u32 | .u64 | .i16 | .i32 => true
  | _ => false

/-- ACCESS code. -/
def Acc.code : Acc → Nat
  | .ro => 0
  | .rw => 1
  | .rws => 2
  | .wo => 3
  | .const => 4

/-- The 32-byte descriptor of an object. -/
def descriptor (o : Obj) : List Byte :=
  let num (x : Int) : List Byte := le 8 (if o.ty.isInt then unsgn 64 x else 0)
  le 1 o.ty.code ++ le 1 o.acc.code ++ le 1 (4 * o.wr) ++ le 1 o.flags ++ le 4 o.len ++ num o.dflt ++ num o.lo ++ num o.hi

/-- A describe request (R501). -/
def serveDescribe (client idx sub : Nat) (s : State) : Reply :=
  match objCheck client .describe idx sub s with
  | .inl c => { code := c }
  | .inr o => { data := descriptor o }

/-! ### Values (R497 check 9) -/

/-- Values that an object's range allows and its description does not, and relations to other objects: an odd number of
sensings, a rate that is none of R178, a member that cannot be retired (R331), ovClearPct not below ovHardPct, and the
like. -/
def badValue (idx sub : Nat) (v : List Byte) (s : State) : Bool :=
  let n := leVal v
  let rate := [10, 800, 1600, 2400, 3200, 4800].contains n
  if idx == 0x1300 && sub == 5 then n != 0 && n < 100
  else if (0x2010 ≤ idx && idx ≤ 0x201F && sub == 1) || (0x2201 ≤ idx && idx ≤ 0x2208 && sub == 4) then !rate
  else if 0x2201 ≤ idx && idx ≤ 0x2208 && sub == 7 then n == 3
  else if idx == 0x2500 && sub == 0x10 then n % 2 == 1
  else if idx == 0x2900 && sub == 8 then !retirable n s
  else if idx == 0x3400 && sub == 1 then n == 1
  else if idx == 0x3800 && sub == 8 then n ≤ cfg 0x3800 9 s
  else if idx == 0x3800 && sub == 9 then cfg 0x3800 8 s ≤ n
  else if idx == 0x3900 && sub == 1 then cfgInt 0x3900 2 s ≤ sgn 16 n
  else if idx == 0x3900 && sub == 2 then sgn 16 n ≤ cfgInt 0x3900 1 s
  else if 0x4000 ≤ idx && idx ≤ 0x41FF then
    byteAt v 0 != 0 || v.any (fun b => sgn 8 b.toNat < -32 || 32 < sgn 8 b.toNat)
  else false

/-- Check 9: the value of an object, or the abort code. The ranges of journalCandidates and mediaHeadMap are 0 to
4,095 and 0 to 7; all ones stand beside them (R325, R434). -/
def valueCheck (o : Obj) (idx sub : Nat) (v : List Byte) (s : State) : Nat :=
  let n := o.value v
  if o.ty == .bool then (if n == 0 || n == 1 then 0 else abBadValue)
  else if o.ty != .octets && o.ty != .text && n < o.lo then abBelow
  else if o.ty != .octets && o.ty != .text && (o.hi < n || (idx == 0x2801 && 4095 < n && n < 65535)
      || (idx == 0x3401 && 7 < n && n < 255)) then abAbove
  else if badValue idx sub v s then abBadValue
  else 0

/-! ### Authentication (R491 to R494) -/

/-- authRequest: the level asked for; over CAN at most canPrivilegeCap; on the port INTEGRATOR at once while no customer
key exists (R492 to R494). -/
def authAsk (client level : Nat) (s : State) : Nat × State :=
  if client != 0 && cfg 0x1300 2 s < level then (abCap, s)
  else if client == 0 && level == 1 && (slotInForce s).isNone then
    (0, modSession client (fun x => { x with level := if x.level == 0 then 1 else x.level }) s)
  else (0, modSession client (fun x => { x with authLevel := some (BitVec.ofNat 2 level) }) s)

/-- The session holds a challenge that is still valid: drawn within 60 s and unused (R492). -/
def challengeNow (x : Session) (s : State) : Option (List Byte) :=
  match x.challenge with
  | some c => if s.now < x.drawnAt + 60000000 then some c else none
  | none => none

/-- The key and the signature pass for the level asked for (R492). -/
def signatureOk (x : Session) (c sig : List Byte) (s : State) : Bool :=
  match x.authLevel, x.key with
  | some l, some k =>
    let digest := Config.sha384 (c ++ le 1 l.toNat ++ le 1 s.modes.dieId.toNat)
    keyHash (if l == 1 then 1 else 0) s == some (Config.sha384 k) && Config.ecdsaVerify k sig digest
  | _, _ => false

/-- authSignature: the challenge is used up; the session takes the level when the checks pass (R492). -/
def authSign (client : Nat) (sig : List Byte) (s : State) : Nat × State :=
  let x := sessionAt client s
  match challengeNow x s with
  | none => (abNoChallenge, modSession client (fun x => { x with challenge := none }) s)
  | some c =>
    let s' := modSession client (fun x => { x with challenge := none }) s
    if signatureOk x c sig s then
      (0, modSession client (fun x => { x with level := x.authLevel.getD 0 }) s')
    else (abAuthFailed, s')

/-! ### Images (R516, R517) -/

/-- Firmware runs: neither the fallback of R69 nor FACTORY. -/
def firmwareRuns (s : State) : Bool := !s.modes.bootFallback && s.modes.mode != .factory

/-- imageTarget in force for the transfer. -/
def imgTarget (s : State) : Nat := leVal (stored 0x1201 1 s)
/-- imageLength as last written. -/
def imgLength (s : State) : Nat := leVal (stored 0x1201 2 s)

/-- imageTarget written (R517): the running slot is refused; imageState is 0 again. -/
def imgSelect (v : Nat) (s : State) : Nat × State :=
  if firmwareRuns s && ((v == 1 && !s.modes.fwSlot) || (v == 2 && s.modes.fwSlot)) then (abRunningSlot, s)
  else (0, { s with dict := { s.dict with imgState := 0 } })

/-- Sectors that an image of `n` bytes takes. -/
def imgSectors (n : Nat) (s : State) : List Nat :=
  (List.range ((n + 4095) / 4096)).map (fun i => imageSector (imgTarget s) + i)

/-- imageLength written: the limits, then the erases; imageState becomes 1 (R516). A failed sector makes it fail (R538). -/
def imgErase (n : Nat) (s : State) : Nat × State :=
  if imgTarget s == 0 || n < 256 || !imageLengthOk (imgTarget s) (n - 256) then (abImageLength, s)
  else if !cabServes s || (imgSectors n s).any (fun i => sectorFailed s.cab i) then (abSave, s)
  else
    let s := (imgSectors n s).foldl (fun s i => eraseSector i s) s
    (0, { s with dict := { s.dict with imgState := 1, imgBytes := 0, imgTail := [] } })

/-- Words to be programmed are erased, or hold their new value already. -/
def fitsErased (k : Nat) : List Nat → State → Bool
  | [], _ => true
  | v :: vs, s => (s.cab.word k == erasedWord || s.cab.word k == v) && fitsErased (k + 1) vs s

/-- A segment of imageData at byte `off`: whole words are programmed, the last one padded with zero bytes; imageState
becomes 2 after the last segment (R516). -/
def imgSegment (off : Nat) (last : Bool) (data : List Byte) (s : State) : Nat × State :=
  let tail := if off == 0 then [] else s.dict.imgTail
  let bs := tail ++ data
  let n := if last then (bs.length + 7) / 8 else bs.length / 8
  let w := (off - tail.length) / 8
  let ws := wordsOf n bs
  let base := imageSector (imgTarget s) * 512 + w
  if !cabServes s || !fitsErased base ws s then (abSave, s)
  else
    let s := { s with cab := { s.cab with words := putWords s.cab.words base ws } }
    (0, { s with dict := { s.dict with
      imgTail := bs.drop (8 * n), imgBytes := off + data.length
      imgState := if last then 2 else s.dict.imgState } })

/-- imageCheck written: refused while imageState is not 2 (R517); true runs checks 1 to 4 of R67 (R516). -/
def imgCheck (run : Bool) (s : State) : Nat × State :=
  if s.dict.imgState != 2 then (abImageState, s)
  else if !run then (0, s)
  else
    match imageRefused (imgTarget s) s with
    | some r => (0, { s with dict := { s.dict with imgState := 4, imgReason := BitVec.ofNat 8 r } })
    | none => (0, { s with dict := { s.dict with imgState := 3, imgReason := 0 } })

/-! ### The maker's mark row and the customer sectors (R542, R544, R547, R549) -/

/-- Words of the mark row programmed. -/
def storeMark (k : Nat) (bs : List Byte) (s : State) : State :=
  { s with cab := { s.cab with mark := putWords s.cab.mark k (wordsOf ((bs.length + 7) / 8) bs) } }

/-- A floor raised to `v`: its first `v` bits become 0 (R542). -/
def raiseFloor (off v : Nat) (s : State) : Nat × State :=
  if v < floorAt off s then (abBelow, s)
  else if v == floorAt off s then (0, s)
  else if !cabServes s then (abSave, s)
  else
    let old := leVal (markBytes off 32 s)
    (0, storeMark (off / 8) (le 32 (old / 2 ^ v * 2 ^ v)) s)

/-- A customer key put into the next slot, its CRC last (R541, R544, R549). -/
def provisionKey (v : List Byte) (s : State) : Nat × State :=
  match nextSlot s with
  | some i =>
    if !factoryOk s then (abBadValue, s)
    else if !cabServes s then (abSave, s)
    else
      let b := v ++ zeros 12
      (0, storeMark (64 + 12 * i) (b ++ le 4 (crc32c b)) s)
  | none => (abBadValue, s)

/-- The factory part programmed, CHECK last (R540, R544, R549). -/
def programFactory (v : List Byte) (s : State) : Nat × State :=
  if !erasedIn s.cab.mark 0 64 then (abBadValue, s)
  else if !cabServes s then (abSave, s)
  else (0, storeMark 0 (v ++ le 4 (crc32c v) ++ zeros 4) s)

/-- One customer sector erased and programmed (R547). -/
def writeCustomer (v : List Byte) (s : State) : Nat × State :=
  let sec := 0x740 + leVal (stored 0x3C00 0x0F s)
  if !cabServes s || sectorFailed s.cab sec then (abSave, s)
  else (0, storeBytes sec 0 v (eraseSector sec s))

/-! ### Commits (R496, R497 check 10, R507) -/

/-- restoreDefaults true: a defaults record (R515). -/
def saveDefaults (s : State) : Nat × State :=
  if !cabServes s || !saveWorks s then (abSave, s)
  else (0, { saveRecord 0xFFFF 0 [] s with dict := { s.dict with defaultsNext := true } })

/-- The statistics mark (R522). -/
def markStats (s : State) : State :=
  { s with stats := { s.stats with mark := (s.stats.bytesWritten, s.stats.bytesRead, s.stats.entriesCompleted) } }

/-- What a write of an object that acts does, beyond the value that is kept; the abort code of a write it refuses. -/
def actOn (client idx sub : Nat) (v : List Byte) (s : State) : Nat × State :=
  let n := leVal v
  match idx, sub with
  | 0x1100, 5 => (0, { s with modes := { s.modes with factoryReq := s.modes.factoryReq || n == 1 } })
  | 0x1201, 1 => imgSelect n s
  | 0x1201, 2 => imgErase n s
  | 0x1201, 5 => imgCheck (n == 1) s
  | 0x1210, 1 => authAsk client n s
  | 0x1210, 3 => (0, modSession client (fun x => { x with key := some v }) s)
  | 0x1210, 4 => authSign client v s
  | 0x1210, 6 => (0, if n == 1 then modSession client (fun x => { x with level := 0 }) s else s)
  | 0x1300, 6 => (0, { s with dict := { s.dict with canEvents := n == 1 } })
  | 0x1300, 0x0A => if n == 1 then saveDefaults s else (0, s)
  | 0x2100, 4 => (0, { s with jigs := s.jigs.map (fun g => { g with ageMs := BitVec.ofNat 8 n }) })
  | 0x2400, 5 => (0, { s with codec := { s.codec with
      injectCount := BitVec.ofNat 16 n, injectBits := BitVec.ofNat 16 (leVal (stored 0x2400 4 s)) } })
  | 0x2500, 6 => (0, writeWall (BitVec.ofNat 48 n) s)
  | 0x2801, _ => (0, candidateWritten sub n s)
  | 0x2900, 2 => (0, patrolUpdate s)
  | 0x2900, 7 => (0, lunDown n 6 s)
  | 0x2900, 8 => (0, retireMember n s)
  | 0x2900, 9 => (0, clearLedger n s)
  | 0x2900, 0x0A => (0, if n == 1 then abandonRefit 3 s else s)
  | 0x2902, _ => (0, { s with bg := { s.bg with spareNext := s.bg.spareNext.set (sub - 1) 0 } })
  | 0x3C00, 7 => raiseFloor 0x380 n s
  | 0x3C00, 8 => raiseFloor 0x3A0 n s
  | 0x3C00, 9 => provisionKey v s
  | 0x3C00, 0x0A => programFactory v s
  | 0x3C00, 0x10 => writeCustomer v s
  | 0x3D00, 1 => (0, { s with sram := { s.sram with scrubOn := n == 1 } })
  | 0x3D00, 2 => (0, { s with sram := { s.sram with interval := BitVec.ofNat 16 n } })
  | 0x3D00, 0x0A => (0, writeFlip (BitVec.ofNat 32 n) s)
  | 0x6000, 6 => (0, if n == 1 then markStats s else s)
  | _, _ =>
    if 0x2510 ≤ idx && idx ≤ 0x251F then
      (0, { s with recov := { s.recov with hostTempAge := s.recov.hostTempAge.set (idx - 0x2510) 0 } })
    else if 0x4000 ≤ idx && idx ≤ 0x41FF then
      (0, modLun ((idx - 0x4000) * 8 + sub / 32) (fun r => { r with biasWritten := true }) s)
    else (0, s)

/-- ringPrivilege 2 and imageTarget 3 need VENDOR (R129, R517). -/
def valueLevel (idx sub : Nat) (v : List Byte) : Nat :=
  if 0x1401 ≤ idx && idx ≤ 0x1440 && leVal v == 2 then 2
  else if idx == 0x1201 && sub == 1 && leVal v == 3 then 2 else 0

/-- What a committed value does beyond being kept: a follower keeps the values of cascade-wide objects and does not apply
them (R490). -/
def applyObject (client : Nat) (o : Obj) (idx sub : Nat) (v : List Byte) (s : State) : Nat × State :=
  if o.flags / 2 % 2 == 1 && s.modes.follower then (0, s) else actOn client idx sub v s

/-- A whole value committed, or rejected whole: checks 9 and 10, the object's own refusals, then its effect (R496,
R497). -/
def commit (client : Nat) (o : Obj) (idx sub : Nat) (v : List Byte) (s : State) : Nat × State :=
  let c := valueCheck o idx sub v s
  if c != 0 then (c, s)
  else if (sessionAt client s).level.toNat < valueLevel idx sub v then (abPrivilege, s)
  else if o.acc == .rws && !saveWorks s then (abSave, s)
  else
    let keep (s : State) : State := { s with dict := { s.dict with saved := putValue idx sub v s.dict.saved } }
    let (c, s') := applyObject client o idx sub v (if o.acc == .rws then keep s else s)
    if c != 0 then (c, if o.acc == .rws then s else s')
    else
      let s' := if o.acc == .rw then keep s' else s'
      (0, if o.acc == .rws then saveRecord idx sub v s' else s')

/-- A value that journalCandidates takes: a LUN, or all ones (R325). -/
def candidateOk (lun : Nat) : Bool := lun < 4096 || lun == 65535

/-- JOURNAL_CANDIDATES: journalCandidates is written, and saved like every RWS object, not in HOLDUP (R9, R306, R364, R502,
R512); a follower does not apply it (R490). -/
def execJournalCandidates (sub : Nat) (lun : BitVec 16) (s : State) : Out :=
  checked (1 ≤ sub && sub ≤ 8) <|
    if dictServes s && candidateOk lun.toNat && !s.modes.holdup && saveWorks s then
      let v := le 2 lun.toNat
      let kept : State := { s with dict := { s.dict with saved := putValue 0x2801 sub v s.dict.saved } }
      saveRecord 0x2801 sub v (if s.modes.follower then kept else candidateWritten sub lun.toNat kept)
    else s

/-! ### Writes (R495, R496, R497 checks 7 and 8) -/

/-- Length that TOTAL must equal. -/
def Obj.total (o : Obj) (s : State) : Nat := if o.flags / 4 % 2 == 1 then imgLength s else o.len

/-- The bytes a session's open write of an object has received. -/
def received (client idx sub : Nat) (s : State) : Option (List Byte) :=
  match (sessionAt client s).open_ with
  | some (k, bs) => if k == (idx, sub) then some bs else none
  | none => none

/-- The bytes of an object that the session's last write committed. -/
def committed (client idx sub : Nat) (s : State) : Nat :=
  match (sessionAt client s).finished with
  | some (k, n) => if k == (idx, sub) then n else 0
  | none => 0

/-- A segment that lies within the bytes received is acknowledged again; the snapshot goes, as at any write (R495, R496). -/
def ackAgain (client n : Nat) (s : State) : Nat × Nat × State :=
  (0, n, modSession client (fun x => { x with snap := none }) s)

/-- A segment out of order: the open write is discarded (R496). -/
def outOfOrder (client : Nat) (s : State) : Nat × Nat × State :=
  (abSequence, 0, modSession client (fun x => { x with open_ := none }) s)

/-- A segment of an ordinary object taken: it joins the open write; the last one commits. -/
def takeSegment (client : Nat) (o : Obj) (idx sub : Nat) (old : List Byte) (last : Bool) (data : List Byte) (s : State) :
    Nat × Nat × State :=
  let bs := old ++ data
  let s := modSession client (fun x => { x with
    snap := none, timedWrite := none, finished := none, open_ := if last then none else some ((idx, sub), bs) }) s
  if last then
    let (c, s) := commit client o idx sub bs s
    (c, bs.length,
      if c == 0 then modSession client (fun x => { x with finished := some ((idx, sub), bs.length) }) s else s)
  else (0, bs.length, s)

/-- A segment of imageData: taken in order while imageState is 1 (R496, R516, R517). The session's open write holds no bytes:
they are in the Cabinet. -/
def takeImage (client off : Nat) (last : Bool) (data : List Byte) (s : State) : Nat × Nat × State :=
  let mine := (received client 0x1201 3 s).isSome
  if s.dict.imgState != 1 then (abImageState, s.dict.imgBytes, s)
  else if off == 0 || (mine && off == s.dict.imgBytes) then
    let (c, s) := imgSegment off last data (modSession client (fun x => { x with
      snap := none, timedWrite := none, finished := none, open_ := if last then none else some ((0x1201, 3), []) }) s)
    (c, s.dict.imgBytes, s)
  else if mine && off + data.length ≤ s.dict.imgBytes then ackAgain client s.dict.imgBytes s
  else outOfOrder client s

/-- A write segment of an object by a session: the abort code or 0, and the bytes received. `cap` is the carrier's
segment. -/
def serveWrite (client idx sub off total cap : Nat) (last : Bool) (data : List Byte) (s : State) : Nat × Nat × State :=
  match objCheck client .write idx sub s with
  | .inl c => (c, 0, s)
  | .inr o =>
    if total != o.total s || cap < data.length || total < off + data.length || (last && off + data.length != total) then
      (abLength, 0, s)
    else if off != 0 && (sessionAt client s).timedWrite == some (idx, sub) then
      (abTimeout, 0, modSession client (fun x => { x with timedWrite := none }) s)
    else if idx == 0x1201 && sub == 3 then takeImage client off last data s
    else if off == 0 then takeSegment client o idx sub [] last data s
    else
      match received client idx sub s with
      | some bs =>
        if off == bs.length then takeSegment client o idx sub bs last data s
        else if off + data.length ≤ bs.length then ackAgain client bs.length s
        else outOfOrder client s
      | none =>
        if off + data.length ≤ committed client idx sub s then ackAgain client (committed client idx sub s) s
        else outOfOrder client s

/-- The code of a request whose length is wrong: checks 2 to 6 come first (R497, R506). -/
def shortCode (client : Nat) (op : DictOp) (idx sub : Nat) (s : State) : Nat :=
  match objCheck client op idx sub s with
  | .inl c => c
  | .inr _ => abLength

/-! ### The dictionary port (R503, R504) -/

/-- The dictionary port answers: not in OFF and RESET (R502). -/
def portOn (s : State) : Bool := !s.pins.inReset

/-- A request of the port ends: buffer and length fields, DICT_ABORT, ABORTED, DONE, source 124 (R504). -/
def portEnd (r : Reply) (withTotal : Bool) (s : State) : State :=
  let d := s.dict
  let ok := r.code == 0
  raise 124 { s with dict := { d with
    buf := if ok && !r.data.isEmpty then splice d.buf 0 r.data else d.buf
    length := if ok && (withTotal || !r.data.isEmpty) then BitVec.ofNat 11 r.data.length else d.length
    total := if ok && withTotal then BitVec.ofNat 32 r.total else d.total
    abort := BitVec.ofNat 32 r.code, aborted := !ok, done := true, busy := false } }

/-- A DICT_CMD write starts a request (R503): 1 read, 2 write, 3 describe; any other OP, and a reserved bit, aborts BAD_OP. -/
def portRequest (v : Word) (s : State) : State :=
  let n := v.toNat
  let idx := fld n 8 16
  let sub := fld n 0 8
  let s := useSession 0 { s with dict := { s.dict with
    op := BitVec.ofNat 4 (fld n 28 4), index := BitVec.ofNat 16 idx, sub := BitVec.ofNat 8 sub, aborted := false } }
  let d := s.dict
  if fld n 24 4 != 0 then portEnd { code := abBadOp } false s
  else
    match fld n 28 4 with
    | 1 =>
      let (r, s) := serveRead 0 idx sub d.offset.toNat d.length.toNat 1024 s
      portEnd r true s
    | 2 =>
      if 1024 < d.length.toNat then
        portEnd { code := shortCode 0 .write idx sub s } false s
      else
        let (c, _, s) := serveWrite 0 idx sub d.offset.toNat d.total.toNat 1024 d.last (d.buf.take d.length.toNat) s
        portEnd { code := c } false s
    | 3 => portEnd (serveDescribe 0 idx sub s) false s
    | _ => portEnd { code := abBadOp } false s

/-- A DICT_CMD write of one operation; a write with another known OP is another command's. While BUSY it only sets
IGNORED (R503). -/
def portCommand (op : Nat) (v : Word) (s : State) : State :=
  let o := fld v.toNat 28 4
  if !portOn s || (o != op && 1 ≤ o && o ≤ 3) then s
  else if s.dict.busy then { s with dict := { s.dict with ignored := true } }
  else portRequest v s

/-- DICT_READ (R495, R503, R504). -/
def execDictRead (v : Word) (s : State) : Out := .next (portCommand 1 v s)

/-- DICT_WRITE (R496, R497, R503). -/
def execDictWrite (v : Word) (s : State) : Out := .next (portCommand 2 v s)

/-- DICT_DESCRIBE (R501, R503). -/
def execDictDescribe (v : Word) (s : State) : Out := .next (portCommand 3 v s)

/-! ### CAN (R505 to R511) -/

/-- The node takes part in the bus: its mode allows it and it is not bus-off (R50, R51). -/
def canOn (s : State) : Bool := !s.pins.inReset && s.modes.mode.can && s.dict.errState != 2

/-- Node number (R505). -/
def canNode (s : State) : Nat := cfg 0x1300 1 s + s.modes.dieId.toNat

/-- The smallest CAN FD payload that holds `n` bytes (R506). -/
def canSize (n : Nat) : Nat := ([0, 1, 2, 3, 4, 5, 6, 7, 8, 12, 16, 20, 24, 32, 48, 64].find? (n ≤ ·)).getD 64

/-- A frame sent (R505, R506). -/
def canSend (base : Nat) (bs : List Byte) (s : State) : State :=
  { s with dict := { s.dict with
    canOut := s.dict.canOut ++ [(BitVec.ofNat 11 (base + canNode s), padTo (canSize bs.length) bs)] } }

/-- The RESPONSE to a request (R506). -/
def canRespond (f : List Byte) (code off total : Nat) (data : List Byte) (s : State) : State :=
  let cmd := if code == 0 then byteAt f 0 % 128 + 128 else 0xC0
  canSend 0x480 (le 1 cmd ++ slice f 1 5 ++ le 1 data.length ++ slice f 7 1 ++ le 4 off
    ++ le 4 (if code == 0 then total else code) ++ data) s

/-- A REQUEST served (R495 to R497, R506, R508). -/
def canServe (f : List Byte) (s : State) : State :=
  let short := f.length < 16
  let f := f ++ zeros (16 - f.length)
  let client := byteAt f 2
  let idx := leAt f 4 2
  let sub := byteAt f 3
  let len := byteAt f 6
  let off := leAt f 8 4
  let total := leAt f 12 4
  let (lost, s) := answerLost client s
  if lost then canRespond f abSessionLost 0 0 [] s
  else if fld (byteAt f 7) 1 7 != 0 then canRespond f abBadOp 0 0 [] s
  else
    match byteAt f 0 with
    | 1 =>
      if short then canRespond f (shortCode client .read idx sub s) off 0 [] s
      else
        let (r, s) := serveRead client idx sub off len 48 s
        canRespond f r.code off r.total r.data s
    | 2 =>
      if short || 48 < len || f.length < 16 + len then
        canRespond f (shortCode client .write idx sub s) 0 0 [] s
      else
        let (c, n, s) := serveWrite client idx sub off total 48 (bitAt (byteAt f 7) 0) (slice f 16 len) s
        canRespond f c n 0 [] s
    | 3 =>
      let r := if short then { code := shortCode client .describe idx sub s } else serveDescribe client idx sub s
      canRespond f r.code 0 0 r.data s
    | 4 => if short then canRespond f abLength 0 0 [] s else canRespond f 0 0 0 [] (endSession client s)
    | _ => canRespond f abBadOp 0 0 [] s

/-- A REQUEST frame of one command; one with another known CMD is another command's. -/
def canCommand (cmd : Nat) (f : List Byte) (s : State) : State :=
  let c := byteAt f 0
  let client := byteAt f 2
  if !canOn s || (c != cmd && 1 ≤ c && c ≤ 4) then s
  else if client == 0 || 127 < client then canRespond (f ++ zeros (16 - f.length)) abBadOp 0 0 [] s
  else canServe f s

/-- CAN_READ (R495, R506). -/
def execCanRead (frame : List Byte) (s : State) : Out := .next (canCommand 1 frame s)

/-- CAN_WRITE (R496, R506, R507). -/
def execCanWrite (frame : List Byte) (s : State) : Out := .next (canCommand 2 frame s)

/-- CAN_DESCRIBE (R501, R506). -/
def execCanDescribe (frame : List Byte) (s : State) : Out := .next (canCommand 3 frame s)

/-- CLOSE_SESSION (R506, R508). -/
def execCloseSession (frame : List Byte) (s : State) : Out := .next (canCommand 4 frame s)

/-- The STATUS payload (R510). -/
def statusFrame (s : State) : List Byte :=
  le 1 s.modes.mode.code ++ le 1 (conditionBits s.modes) ++ le 2 s.hk.tmax.toNat ++ le 2 (membersFailed s)
    ++ le 1 (packFields [(0, b2n s.modes.lead), (1, b2n s.hk.throttle), (2, b2n s.modes.quarantine), (3, b2n s.modes.fenceOv)])
    ++ le 1 s.dict.frameCount.toNat

/-- CAN_STATUS_FRAME: canStatusPeriod has passed (R510). -/
def execCanStatusFrame (s : State) : Out :=
  .next <|
    if canOn s && cfg 0x1300 5 s != 0 then
      canSend 0x500 (statusFrame s) { s with dict := { s.dict with frameCount := s.dict.frameCount + 1 } }
    else s

/-- CAN_EVENT_FRAME: the oldest waiting EVENT frame is sent (R511). -/
def execCanEventFrame (s : State) : Out :=
  .next <|
    match s.dict.events with
    | r :: rest => if canOn s then canSend 0x080 r { s with dict := { s.dict with events := rest } } else s
    | [] => s

/-- CAN_SESSION_TIMEOUT: canSessionTimeout without a request (R508). -/
def execCanSessionTimeout (client : Nat) (s : State) : Out := .next (endSession client s)

/-- The open write and the snapshot of an idle session are discarded, and noted (R509). -/
def idleSession (x : Session) : Session :=
  { x with
    snap := none, open_ := none
    timedRead := match x.snap with | some (k, _) => some k | none => x.timedRead
    timedWrite := match x.open_ with | some (k, _) => some k | none => x.timedWrite }

/-- DICT_TRANSFER_TIMEOUT: dictTransferTimeout without a request of the session: its open write and snapshot go (R509). -/
def execDictTransferTimeout (client : Nat) (s : State) : Out :=
  .next <| modSession client idleSession s

/-- BUS_OFF: the node leaves the bus, its sessions end, source 125 (R50, R469, R508). -/
def execBusOff (s : State) : Out :=
  .next <|
    if canOn s then endCanSessions (raise 125 { s with dict := { s.dict with errState := 2 } }) else s

/-- BUS_OFF_RECOVERY: 128 occurrences of 11 recessive bits have been seen (R50). -/
def execBusOffRecovery (s : State) : Out :=
  .next <| if s.dict.errState == 2 then raise 125 { s with dict := { s.dict with errState := 0 } } else s

/-- ERROR_PASSIVE: the node passes between error-active and error-passive (R50). Source 125 fires on entry to
error-passive (R469). -/
def execErrorPassive (passive : Bool) (s : State) : Out :=
  .next <|
    if !canOn s then s
    else if passive && s.dict.errState == 0 then raise 125 { s with dict := { s.dict with errState := 1 } }
    else if !passive && s.dict.errState == 1 then raise 125 { s with dict := { s.dict with errState := 0 } }
    else s

/-! ### Objects that act (R491 to R493, R515 to R517, R522, R542, R544, R547) -/

/-- A whole value written by a session in one segment. On the dictionary port the request ends as R504 says; over CAN the
RESPONSE belongs to CAN_WRITE. -/
def objectWrite (client idx sub : Nat) (v : List Byte) (s : State) : State :=
  if client == 0 then
    if portOn s then
      let (c, _, s) := serveWrite 0 idx sub 0 v.length v.length true v (useSession 0 s)
      portEnd { code := c } false s
    else s
  else if canOn s && client ≤ 127 then
    let (lost, s) := answerLost client s
    if lost then s else (serveWrite client idx sub 0 v.length v.length true v s).2.2
  else s

/-- AUTH_REQUEST (R492 to R494). -/
def execAuthRequest (client : Nat) (level : Byte) (s : State) : Out := .next (objectWrite client 0x1210 1 [level] s)

/-- AUTH_CHALLENGE: a read of authChallenge at offset 0; `random` is what Dirad draws (R492). -/
def execAuthChallenge (client : Nat) (random : List Byte) (s : State) : Out :=
  .next <|
    let r := padTo 48 random
    let draw (s : State) : State :=
      modSession client (fun x => { x with snap := some ((0x1210, 2), r), timedRead := none }) (drawChallenge client r s)
    if client == 0 then
      if !portOn s then s
      else
        match objCheck 0 .read 0x1210 2 s with
        | .inl c => portEnd { code := c } false (useSession 0 s)
        | .inr _ => portEnd { total := 48, data := r } true (draw (useSession 0 s))
    else if canOn s && client ≤ 127 then
      let (lost, s) := answerLost client s
      if lost then s else draw s
    else s

/-- AUTH_KEY (R492). -/
def execAuthKey (client : Nat) (key : List Byte) (s : State) : Out := .next (objectWrite client 0x1210 3 key s)

/-- AUTH_SIGNATURE (R492). -/
def execAuthSignature (client : Nat) (sig : List Byte) (s : State) : Out := .next (objectWrite client 0x1210 4 sig s)

/-- AUTH_DROP (R491, R519). -/
def execAuthDrop (client : Nat) (v : Byte) (s : State) : Out := .next (objectWrite client 0x1210 6 [v] s)

/-- IMAGE_TARGET (R516, R517). -/
def execImageTarget (client : Nat) (v : Byte) (s : State) : Out := .next (objectWrite client 0x1201 1 [v] s)

/-- IMAGE_LENGTH (R516, R517). -/
def execImageLength (client : Nat) (v : Word) (s : State) : Out := .next (objectWrite client 0x1201 2 (le 4 v.toNat) s)

/-- IMAGE_DATA: one segment of imageData (R496, R516, R517). -/
def execImageData (client : Nat) (offset : Nat) (last : Bool) (data : List Byte) (s : State) : Out :=
  .next <|
    if client == 0 then
      if portOn s then
        let (c, _, s) := serveWrite 0 0x1201 3 offset (imgLength s) 1024 last data (useSession 0 s)
        portEnd { code := c } false s
      else s
    else if canOn s && client ≤ 127 then
      let (lost, s) := answerLost client s
      if lost then s else (serveWrite client 0x1201 3 offset (imgLength s) 48 last data s).2.2
    else s

/-- IMAGE_CHECK (R516, R517). -/
def execImageCheck (client : Nat) (v : Byte) (s : State) : Out := .next (objectWrite client 0x1201 5 [v] s)

/-- RESTORE_DEFAULTS (R515). -/
def execRestoreDefaults (client : Nat) (v : Byte) (s : State) : Out := .next (objectWrite client 0x1300 0x0A [v] s)

/-- STATISTICS_MARK (R522). -/
def execStatisticsMark (client : Nat) (v : Byte) (s : State) : Out := .next (objectWrite client 0x6000 6 [v] s)

/-- FACTORY_REQUEST (R83, R84). -/
def execFactoryRequest (client : Nat) (v : Byte) (s : State) : Out := .next (objectWrite client 0x1100 5 [v] s)

/-- RAISE_VENDOR_FLOOR (R542, R549). -/
def execRaiseVendorFloor (client : Nat) (v : BitVec 16) (s : State) : Out :=
  .next (objectWrite client 0x3C00 7 (le 2 v.toNat) s)

/-- RAISE_CUSTOMER_FLOOR (R542, R549). -/
def execRaiseCustomerFloor (client : Nat) (v : BitVec 16) (s : State) : Out :=
  .next (objectWrite client 0x3C00 8 (le 2 v.toNat) s)

/-- CUSTOMER_KEY_PROVISION (R541, R544, R549). -/
def execCustomerKeyProvision (client : Nat) (data : List Byte) (s : State) : Out :=
  .next (objectWrite client 0x3C00 9 data s)

/-- FACTORY_PART (R540, R544, R549). -/
def execFactoryPart (client : Nat) (data : List Byte) (s : State) : Out := .next (objectWrite client 0x3C00 0x0A data s)

/-- CUSTOMER_SECTOR_DATA (R547, R549). -/
def execCustomerSectorData (client : Nat) (data : List Byte) (s : State) : Out :=
  .next (objectWrite client 0x3C00 0x10 data s)

end Sys2Proof.Machine
end

