-- ==== Sys2Proof/Machine/Integrity.lean ====
section
/-!
DEFINITION. Commands of the SRAM's integrity logic: the fault injection register, the scrubber, a merge entry's retirement.
-/
namespace Sys2Proof.Machine

/-- SRAM_FLIP: only the main core writes the register (R565, R577). -/
def execSramFlip (who : Writer) (v : Word) (s : State) : Out := .next (mainCoreOnly who (writeFlip v) s)

/-- SCRUB_READ: the scrubber reads its next word (R559 to R562). -/
def execScrubRead (s : State) : Out := .next (if scrubRuns s then settle (scrubOne s) else s)

/-- MERGE_RETIRE: one entry of the merge buffer retires (R556, R558). -/
def execMergeRetire (idx : Nat) (s : State) : Out :=
  checked (idx < 8) <|
    match s.sram.merge[idx]? with
    | some e => settle (retire e s)
    | none => s

end Sys2Proof.Machine
end

