-- ==== Sys2Proof/Machine/Interrupts.lean ====
section
/-!
DEFINITION. Commands of the interrupt controller and the event queue (14).
-/
namespace Sys2Proof.Machine

/-! ### Sources (R466 to R469) -/

/-- Sources with an input from outside the controller: 128 and 129 follow the event queue, SOFT0 to SOFT7 have none (R469). -/
def hasInput (id : Nat) : Bool := id ≤ 127 || id == 130

/-- Causes counted while a pulse was high are presented once the input is low (R466). -/
def presentCauses (id : Nat) (s : State) : State :=
  let n := s.irq.causes.getD id 0
  { s with irq := Irq.pulses n { s.irq with causes := s.irq.causes.set id 0 } id }

/-- The input of a source takes a level. -/
def sourceLevel (id : Nat) (lvl : Bool) (s : State) : State :=
  if hasInput id then
    let s := { s with irq := s.irq.sample id lvl }
    if lvl then s else presentCauses id s
  else evqLevels s

/-- SOURCE_EVENT (R466). -/
def execSourceEvent (id : Nat) (level : Bool) (s : State) : Out := checked (id < 256) (sourceLevel id level s)

/-- One bit of an IRQ_PSET write (R468, R480): privileged sources take it from the main core only. -/
def softSetOne (who : Writer) (id : Nat) (s : State) : State :=
  if 240 ≤ id then (if who == .mainCore then raisePriv id true [] s else s)
  else { s with irq := s.irq.softSet id }

/-- The sources named by the ones of a word, ascending. -/
def namedIds (w : Nat) (v : Word) : List Nat := ((List.range 32).filter (fun b => bitAt v.toNat b)).map (32 * w + ·)

/-- A write of IRQ_PSET word `w`. -/
def writePset (who : Writer) (w : Nat) (v : Word) (s : State) : State :=
  (namedIds w v).foldl (fun s id => softSetOne who id s) s

/-- IRQ_PSET (R468, R480). -/
def execIrqPset (who : Writer) (w : Nat) (v : Word) (s : State) : Out := checked (w < 8) (writePset who w v s)

/-- PEND of one source cleared; a level mode sets it again while the input is active (R467). -/
def clearPend (id : Nat) (s : State) : State :=
  { s with irq := Irq.relevel { s.irq with pend := s.irq.pend.set id false } id }

/-- A write of IRQ_PEND word `w`. -/
def writePend (w : Nat) (v : Word) (s : State) : State := (namedIds w v).foldl (fun s id => clearPend id s) s

/-- IRQ_PEND_CLEAR (R467). -/
def execIrqPendClear (w : Nat) (v : Word) (s : State) : Out := checked (w < 8) (writePend w v s)

/-! ### Targets and groups (R470 to R473) -/

/-- Some source of the group is pending and routed to the target (R471). -/
def groupWants (g t : Nat) (s : State) : Bool :=
  (List.range 8).any (fun i => s.irq.pend.getD (8 * g + i) false && (s.irq.route.getD (8 * g + i) 0).getLsbD t)

/-- IDLE of a target. That of a core target follows the core's wait-for-interrupt state, on whose value nothing may rely: it
is a free value at every look (R472). -/
def targetIdle (t : Nat) (s : State) : Bool × State :=
  if t < 2 then
    let (f, s) := takeFree s
    (f % 2 == 1, s)
  else (s.irq.idle.getD t false, s)

/-- The notification write of a host target (R470). -/
def notify (t : Nat) (s : State) : State :=
  let addr := (s.irq.naddr.getD t 0).toNat
  if 2 ≤ t && addr != 0 then hostWrite (.notify t) addr (le 4 (s.irq.ndata.getD t 0).toNat) s else s

/-- The group's timer lets it fire for a target: it is stopped, or the target is idle (R471). -/
def timerAllows (g : Nat) (idle : Bool) (s : State) : Bool := (s.irq.deadline.getD g none).isNone || idle

/-- The groups that fire for a target in one cycle (R471). -/
def firingGroups (t : Nat) (idle : Bool) (s : State) : List Nat :=
  (List.range 30).filter (fun g => groupWants g t s && timerAllows g idle s)

/-- The timer of a group that fires restarts at HOLDOFF, unless that is 0 (R471). -/
def restartTimer (now : Nat) (q : Irq) (g : Nat) : Irq :=
  let h := (q.holdoff.getD g 0).toNat
  { q with deadline := if h == 0 then q.deadline else q.deadline.set g (some (now + h)) }

/-- Groups fire for a target in one cycle: SIGNALLED is set once, and one notification is written (R471). -/
def fireGroups (gs : List Nat) (t : Nat) (s : State) : State :=
  let q := gs.foldl (restartTimer s.now) s.irq
  notify t { s with irq := { q with
    signalled := q.signalled.set t true
    idle := q.idle.set t false
    signals := q.signals.modify t (fun c => satAdd c 1) } }

/-- GROUP_FIRE: the group fires where the three conditions of R471 hold, with every other group that they let fire for the
target in the same cycle. -/
def execGroupFire (g t : Nat) (s : State) : Out :=
  checked (g < 30 && t < 6) <|
    if groupWants g t s && !s.irq.signalled.getD t false then
      let (idle, s) := targetIdle t s
      if timerAllows g idle s then fireGroups (firingGroups t idle s) t s else s
    else s

/-- HOLDOFF_EXPIRY: the group's timer stops (R471). -/
def execHoldoffExpiry (g : Nat) (s : State) : Out :=
  checked (g < 30) { s with irq := { s.irq with deadline := s.irq.deadline.set g none } }

/-- A write of TGT_STATUS of a target (R472, R473, R484): SIGNALLED and NOTE_ERR are W1C, IDLE is W1S for host targets. -/
def writeTgtStatus (t : Nat) (v : Word) (s : State) : State :=
  { s with irq := { s.irq with
    signalled := if bitAt v.toNat 0 then s.irq.signalled.set t false else s.irq.signalled
    idle := if bitAt v.toNat 1 && 2 ≤ t then s.irq.idle.set t true else s.irq.idle
    noteErr := if bitAt v.toNat 2 then s.irq.noteErr.set t false else s.irq.noteErr } }

/-- A write of TGT_STATUS by a writer: that of a core target takes writes from the main core only (R484, R577). -/
def tgtStatusBy (who : Writer) (t : Nat) (v : Word) (s : State) : State :=
  if t < 2 then mainCoreOnly who (writeTgtStatus t v) s else writeTgtStatus t v s

/-- SIGNALLED_CLEAR (R473). -/
def execSignalledClear (who : Writer) (t : Nat) (s : State) : Out := checked (t < 6) (tgtStatusBy who t 1 s)

/-- IDLE_SET (R472). -/
def execIdleSet (who : Writer) (t : Nat) (s : State) : Out := checked (t < 6) (tgtStatusBy who t 2 s)

/-! ### Privileged sources and the event queue (R475 to R481) -/

/-- PRIVILEGED_RAISE: sources 252 to 255 are raised by software sets only (R475, R481). -/
def execPrivilegedRaise (id : Nat) (detail : List Byte) (s : State) : Out :=
  checked (240 ≤ id && id < 256) (if id < 252 then raisePriv id false detail s else s)

/-- The records waiting or on their way are counted as dropped (R478). -/
def dropWaiting (s : State) : State :=
  s.evq.writing.foldl (fun s _ => dropRecord s) { s with evq := { s.evq with writing := [] } }

/-- A write of EVQ_CFG (R477, R478, R485): SIZE_LOG2 takes 6 to 16 while ENABLE is 0; setting ENABLE starts the ring anew;
clearing it clears FAULT. -/
def writeEvqCfg (v : Word) (s : State) : State :=
  let n := fld v.toNat 0 5
  let q := if s.evq.enable || n < 6 || 16 < n then s.evq else { s.evq with sizeLog2 := BitVec.ofNat 5 n }
  let s := { s with evq := q }
  if bitAt v.toNat 8 then
    if q.enable then s
    else evqLevels { s with evq := { q with enable := true, prod := 0, cons := 0, phase := true } }
  else
    let s := dropWaiting s
    evqLevels { s with evq := { s.evq with enable := false, fault := false } }

/-- EVQ_ENABLE: a write of EVQ_CFG that sets ENABLE (R477). -/
def execEvqEnable (v : Word) (s : State) : Out := .next (if bitAt v.toNat 8 then writeEvqCfg v s else s)

/-- EVQ_DISABLE: a write of EVQ_CFG that clears ENABLE (R478). -/
def execEvqDisable (v : Word) (s : State) : Out := .next (if bitAt v.toNat 8 then s else writeEvqCfg v s)

/-- A write of EVQ_CONS; a value not below the queue size is ignored (R477). -/
def writeEvqCons (v : Word) (s : State) : State :=
  let n := fld v.toNat 0 16
  if n < s.evq.size then evqLevels { s with evq := { s.evq with cons := BitVec.ofNat 16 n } } else s

/-- EVQ_CONS (R477). -/
def execEvqCons (v : Word) (s : State) : Out := .next (writeEvqCons v s)

end Sys2Proof.Machine
end

