-- ==== Sys2Proof/Machine/Outage.lean ====
section
/-!
DEFINITION. Power and temperature from the board: pwr_fail_n, ov_alert_n, the comparator of VM31, and the housekeeping round
(R45, R78, R445 to R465).
-/
namespace Sys2Proof.Machine

/-- PWR_FAIL: HOLDUP and the start of the flush (R450). -/
def execPwrFail (s : State) : Out := .next (settle (powerFails s))

/-- holdup_done may rise: after the flush, or, in the thermal latch sequence, at the end of its step 3 (R450, R460). -/
def doneAllowed (s : State) : Bool :=
  s.modes.holdup && !s.pins.holdupDone && latchAllows s && (s.power.latchSeq == 3 || flushDone s)

/-- HOLDUP_DONE: holdup_done rises, HOLDUP_TIME is recorded, and completions may be written (R450 step 7, R128). -/
def execHoldupDone (s : State) : Out :=
  .next (if doneAllowed (settle s) then settle (raiseDone (settle s)) else s)

/-- OV_ALERT: stage 1; STANDBY ends (R78, R445). -/
def execOvAlert (s : State) : Out :=
  .next <|
    if s.pins.inReset then s else wake (stageOne { s with pins := { s.pins with ovAlert := true } })

/-- OV_STAGE2: ov_alert_n has been taken as asserted for ovFenceDelay (R446). -/
def execOvStage2 (s : State) : Out :=
  .next (if s.pins.ovAlert && s.power.ovStage == 1 then settle (stageTwo s) else s)

/-- VM31_CROSSING: the input monitor crosses the hard level (R446). -/
def execVm31Crossing (s : State) : Out :=
  .next <|
    if s.pins.inReset then s else settle (stageTwo { s with pins := { s.pins with ovHard := true } })

/-- OV_CLEAR: both stages end (R448). -/
def execOvClear (s : State) : Out :=
  .next (if s.pins.inReset || s.power.ovStage == 0 then s else settle (stagesEnd s))

/-! ### The housekeeping round (R456 to R459) -/

/-- The highest of the readings given from sensor `i` on, with its sensor: the first one of several. -/
def hottest : Nat → List (BitVec 16) → Int × Nat → Int × Nat
  | _, [], best => best
  | i, t :: ts, best => hottest (i + 1) ts (if best.1 < t.toInt then (t.toInt, i) else best)

/-- TMAX and its sensor of a round. -/
def roundMax (temps : List (BitVec 16)) : Int × Nat :=
  hottest 1 (temps.drop 1) ((temps.getD 0 0).toInt, 0)

/-- A configured temperature level, signed. -/
def tempLevel (sub : Nat) (s : State) : Int := (BitVec.ofNat 16 (cfg 0x3900 sub s)).toInt

/-- A level holds after a round: set at or above it, cleared 5 °C below it (R458). -/
def levelHolds (held : Bool) (level t : Int) : Bool := if level ≤ t then true else held && level - 20 ≤ t

/-- The latch level, 125 °C (R458). -/
def latchLevel : Int := 500

/-- Values of a round that passed its reference check are published together (R456, R462); throttleBudgetPct as last written is in
force from then on (R464; DEDUCED, log entry 130). -/
def publishRound (r : RoundIn) (s : State) : State :=
  let temps := (List.range 24).map (fun i => r.temps.getD i 0)
  let top := roundMax temps
  { s with hk := { s.hk with
    rounds := s.hk.rounds + 1, discardRun := 0, budgetPct := cfg 0x3900 3 s
    tmax := BitVec.ofInt 16 top.1, tmaxSensor := BitVec.ofNat 8 top.2
    temps := temps, volts := (List.range 32).map (fun i => r.volts.getD i 0) } }

/-- The warning level (R458, R78): the round in which it sets wakes STANDBY (DESIGN CHOICE, log entry 87). -/
def judgeWarn (t : Int) (s : State) : State :=
  let holds := levelHolds s.hk.warn (tempLevel 1 s) t
  let sets := holds && !s.hk.warn
  let s := { s with hk := { s.hk with warn := holds } }
  if sets then wake (raise 122 { s with stats := { s.stats with warnEvents := s.stats.warnEvents + 1 } }) else s

/-- The throttle level (R437, R458). -/
def judgeThrottle (t : Int) (s : State) : State :=
  let holds := levelHolds s.hk.throttle (tempLevel 2 s) t
  let sets := holds && !s.hk.throttle
  let s := { s with
    hk := { s.hk with throttle := holds }
    stats := { s.stats with throttleRounds := s.stats.throttleRounds + b2n holds } }
  if sets then raise 122 s else s

/-- The latch run: the third published round in a row sets the thermal latch (R459, R592). -/
def judgeLatch (t : Int) (s : State) : State :=
  let run : Nat := if latchLevel ≤ t then min 3 (s.hk.latchRun.toNat + 1) else 0
  let s := { s with hk := { s.hk with latchRun := BitVec.ofNat 2 run } }
  if run == 3 then settle (latchSets s) else s

/-- Start-up that waited at BOOT step 11 goes on once every sensor reads below 105 °C (R72). -/
def judgeBoot (t : Int) (s : State) : State :=
  if s.modes.bootHot && s.modes.boot && t < 420 then { s with modes := { s.modes with bootHot := false, stage := 0xB } } else s

/-- HK_ROUND_END (R456 to R459): a discarded round publishes nothing, and the third in a row raises the thermal event. -/
def execHkRoundEnd (r : RoundIn) (s : State) : Out :=
  .next <|
    if s.pins.inReset then s
    else if r.refOk then
      let s := publishRound r s
      let t := s.hk.tmax.toInt
      judgeLatch t (judgeThrottle t (judgeWarn t (judgeBoot t s)))
    else
      let run := s.hk.discardRun + 1
      let s := { s with hk := { s.hk with
        discarded := satAdd s.hk.discarded 1, discardRun := if run == 3 then 0 else run } }
      if run == 3 then thermalEvent 1 s else s

/-- LATCH_OPS_TIMEOUT: tTLOPS after the latch, what has not ended is abandoned (R459 step 2). -/
def execLatchOpsTimeout (s : State) : Out :=
  .next (if s.power.latchSeq == 1 then settle (abandonOps s) else s)

end Sys2Proof.Machine
end

