-- ==== Sys2Proof/Machine/Start.lean ====
section
/-!
DEFINITION. Reset, start-up and STANDBY (R47 to R49, R52 to R54, R58 to R83, R410, R411, R538, R543).
-/
namespace Sys2Proof.Machine

/-! ### Into RESET (R58 to R60, R79 to R81) -/

/-- An erase cut off by a reset: in its step 2 or 3 neither the data nor the count has changed; later the sector is INTERRUPTED
and its data is free. Which of the two is a free value, but for a redo, which starts at step 4 (R537, R538). -/
def cutErase (e : CabOp) (s : State) : State :=
  let (f, s) := takeFree { s with cab := { s.cab with erase := none } }
  if !e.redo && f % 2 == 0 then { s with cab := undoHeader s.cab e.sector } else freeSector e.sector s

/-- A Cabinet operation that a reset cuts off: the words that a program had reached are a free value, and the word in pulse
may be half done (R526, R538). -/
def cutCabinet (s : State) : State :=
  let s : State := match s.cab.prog with
    | some p =>
      let (f, s) := takeFree s
      let n := f % (p.words.length + 1)
      let s := { s with cab := { applyWords p (p.words.take n) s.cab with prog := none } }
      match p.words[n]? with
      | some (k, v) => failedWord p k v.toNat s
      | none => s
    | none => s
  match s.cab.erase with
  | some e => cutErase e s
  | none => s

/-- What of a LUN's record counts since por_n. -/
def keptLun (r : LunRec) : LunRec :=
  { trueCount := r.trueCount, trueAbandoned := r.trueAbandoned, reads := r.reads, programs := r.programs
    erases := r.erases, programFails := r.programFails, eraseFails := r.eraseFails, busyTimeouts := r.busyTimeouts }

/-- What of a head's state counts since por_n. -/
def keptHead (h : Head) : Head :=
  { runs := h.runs, released := h.released, aborts := h.aborts, passOk := h.passOk, passRej := h.passRej }

/-- What of a channel's state counts since por_n. -/
def keptChan (c : Chan) : Chan := { applies := c.applies, searchFails := c.searchFails, fallbackCount := c.fallbackCount }

/-- The record of the change into RESET, which the main core logs once it runs again: from OFF where the block had no power,
else from the mode that held (R22, R57, R546; DESIGN CHOICE, log entry 100). -/
def resetRecord (s : State) : List Byte :=
  modeRecord { s with modes := { s.modes with mode := .reset, prevMode := if s.pins.powered then s.modes.mode else .off } }

/-- The records waiting to be logged, with that of the change into RESET; none when RESET held already (R57). -/
def resetLogged (s : State) : List (List Byte) :=
  if s.pins.inReset && s.pins.powered then s.evq.logged else s.evq.logged ++ [padTo 32 (resetRecord s)]

/-- RESET: everything takes its reset value but what R60 keeps; ring entries, flash and the Cabinet's contents lie outside.
The counters of the dictionary count since por_n, and the places of the spare pool are never taken twice (log entry 29). -/
def intoReset (cold : Bool) (m : Modes) (s : State) : State :=
  let c := (cutCabinet s).cab
  { State.reset with
    pending := s.pending
    freeCtr := (cutCabinet s).freeCtr
    now := if cold then 0 else s.now
    modes := m
    irq := if cold then State.reset.irq else { State.reset.irq with raises := s.irq.raises }
    evq := { logged := resetLogged s }
    cab := { c with ret := (0, 0, 0), result := 0, resultWord := 0, markLocked := false }
    bg := { spareNext := s.bg.spareNext }
    stripe := { unlisted := s.stripe.unlisted }
    stats := if cold then {} else s.stats
    luns := if cold then [] else (s.luns.map (fun p => (p.1, keptLun p.2))).filter (fun p => p.2 != {})
    chans := if cold then State.reset.chans else s.chans.map keptChan
    media := if cold then {} else { heads := s.media.heads.map keptHead } }

/-- A cold reset (R58, R60, R61). -/
def coldReset (s : State) : State :=
  intoReset true { dieId := s.modes.dieId, leadOk := s.modes.leadOk, factoryReq := s.modes.factoryReq } s

/-- A warm reset and its cause (R58, R60, R61); ignored while HOLDUP holds (R59). -/
def warmReset (cause : Modes → Modes) (s : State) : State :=
  if s.modes.holdup || s.pins.inReset || !s.pins.powered then s
  else
    let m := s.modes
    intoReset false (cause {
      dieId := m.dieId, leadOk := m.leadOk, quarantine := m.quarantine, factoryReq := m.factoryReq, porCold := false
      warmCount := satAdd m.warmCount 1, causeWdog := m.causeWdog, causeSoft := m.causeSoft, causePin := m.causePin
      causePor := m.causePor }) s

/-- POR_N_ASSERT (R58, R60). -/
def execPorNAssert (s : State) : Out := .next (coldReset s)

/-- RST_N_ASSERT (R58 to R61). -/
def execRstNAssert (s : State) : Out := .next (warmReset (fun m => { m with causePin := true }) s)

/-- WATCHDOG (R58 to R61). -/
def execWatchdog (s : State) : Out := .next (warmReset (fun m => { m with causeWdog := true }) s)

/-! ### MODE_CTRL (R62, R77) -/

/-- A STANDBY request: accepted on a lead block, or a cascade of one, in SERVICE, DEGRADED or WRITE_FENCED; otherwise
refused (R55, R77). -/
def requestStandby (s : State) : State :=
  let ok := s.modes.lead && (s.modes.mode == .service || s.modes.mode == .degraded || s.modes.mode == .writeFenced)
  { s with modes := if ok then { s.modes with stbyRequested := true } else { s.modes with stbyRefused := true } }

/-- A write of MODE_CTRL: with the KEY, REQ 0x1 resets and 0x2 asks for STANDBY; anything else is ignored (R62). -/
def writeModeCtrl (v : Word) (s : State) : State :=
  if fld v.toNat 16 16 != 0xD1AD || s.pins.inReset then s
  else if fld v.toNat 0 4 == 1 then warmReset (fun m => { m with causeSoft := true }) s
  else if fld v.toNat 0 4 == 2 then requestStandby s
  else s

/-- SOFT_RESET: a write of MODE_CTRL with REQ 0x1 (R62). -/
def execSoftReset (v : Word) (s : State) : Out := .next (if fld v.toNat 0 4 == 1 then writeModeCtrl v s else s)

/-- ENTER_STANDBY: a write of MODE_CTRL with REQ 0x2 (R62, R77). -/
def execEnterStandby (v : Word) (s : State) : Out := .next (if fld v.toNat 0 4 == 2 then writeModeCtrl v s else s)

/-! ### STANDBY (R77, R78) -/

/-- No media port transfer is in progress. -/
def mediaIdle (s : State) : Bool :=
  s.media.running.isNone && s.media.heads.all (fun h => h.pass.isNone && !h.feeding)

/-- What this block can see of the conditions of STANDBY (R77); that the next entry of every ring reads OWN = 0 comes with
the command. -/
def standbyReady (s : State) : Bool :=
  s.modes.stbyRequested && s.sched.entries.isEmpty && s.jigs.all (fun g => g.drawer.isEmpty)
    && s.sched.jobs.all (fun j => j.state == .ended) && s.media.accum == 0 && mediaIdle s

/-- STANDBY_ENTRY: the clocks are saved, patrol pauses, and the followers follow (R77, R262). -/
def execStandbyEntry (ownClear : Bool) (s : State) : Out :=
  .next <|
    if ownClear && standbyReady s then
      let s := saveClocks { s with modes := { s.modes with stbyRequested := false } }
      settle (patrolUpdate (tellStandby true (setConds (fun m => { m with standby := true }) s)))
    else s

/-- STBY_REFUSED: the conditions have not all held within 10 ms (R55, R77). -/
def execStbyRefused (s : State) : Out :=
  .next <|
    if s.modes.stbyRequested then
      { s with modes := { s.modes with stbyRequested := false, stbyRefused := true } }
    else s

/-- AON_TIMER_EXPIRY: its source fires, and STANDBY ends (R78, R469). -/
def execAonTimerExpiry (s : State) : Out := .next (if s.pins.inReset then s else wake (raise 130 s))

/-! ### BOOT (R47, R64 to R72) -/

/-- The last completed step of BOOT (R71). -/
def atStage (n : Nat) (s : State) : State := { s with modes := { s.modes with stage := BitVec.ofNat 4 n } }

/-- Every bit of the mark row is erased (R65). -/
def markBlank (s : State) : Bool := erasedIn s.cab.mark 0 128

/-- The log slot that holds a valid record with the highest LSEQ, and that LSEQ (R545). Only slots whose CRC word is programmed
can be valid. -/
def newestLog (s : State) : Option (Nat × Nat) :=
  let slots := (s.cab.words.filter (fun p => 0x80000 ≤ p.1 && p.1 < 0xE0000 && p.1 % 8 == 7)).map (fun p => (p.1 - 0x80000) / 8)
  slots.foldl (fun best i =>
    match logSeq i s, best with
    | some n, some (_, m) => if m < n then some (i, n) else best
    | some n, none => some (i, n)
    | none, _ => best) none

/-- The log goes on at the first erased slot after the newest one; an empty log starts at its first slot (R545). -/
def resumeLog (s : State) : State :=
  let (first, seq) := match newestLog s with | some (i, n) => (i + 1, n) | none => (0, 0)
  let free (k : Nat) : Bool := erasedIn s.cab.words (0x80000 + 8 * ((first + k) % 49152)) 8
  { s with cab := { s.cab with lseq := seq, logSlot := (first + (findFrom free 49152 0).getD 0) % 49152 } }

/-- BOOT step 4 copies the trims of a good mark row to the housekeeping core (R543). -/
def copyTrims (s : State) : State :=
  let part (off n : Nat) : List (BitVec 16) :=
    (List.range n).map (fun i => BitVec.ofNat 16 (leAt (markBytes (off + 2 * i) 2 s) 0 2))
  { s with hk := { s.hk with tempTrim := part 0x68 24, voltTrim := part 0x98 32 } }

/-- BOOT is entered: straps, RESET_CAUSE, the time of day of the events, a clean SRAM, and the change from RESET told
(R47, R57, R61, R64 steps 1 to 3, R474). -/
def bootBegins (b : BootIn) (s : State) : State :=
  let m := s.modes
  let s := { s with
    pins := { s.pins with inReset := false }
    modes := { m with
      dieId := if m.porCold then b.dieId else m.dieId
      leadOk := if m.porCold then b.leadOk else m.leadOk
      quarHeld := m.quarantine, factoryReq := false }
    sram := { s.sram with lapStart := s.now } }
  let s := resumeLog (loadTime s)
  atStage 3 (logRecord (modeRecord s) (raise 65 s))

/-- The interrupted erase that the scan finds is redone, and source 251 tells of it; how many pulses it took is a free value
(R64 steps 5 and 6, R538, R548). One that fails leaves the sector FAILED, and boot goes on. -/
def redoErase (ok : Bool) (s : State) : State :=
  match ((s.cab.heads.map (fun p => p.1 / 8)).find? (fun i => i < 2048 && sectorInterrupted s.cab i)) with
  | some i =>
    let s := { s with modes := { s.modes with eraseRedone := true } }
    if ok then
      let (f, s) := takeFree (eraseSector i s)
      cabFault 3 i (faultStatus i (f % 17)) s
    else cabFault 3 i (faultStatus i 16) (eraseFails i s)
  | none => s

/-- Values restored take force in the registers that show them (R499). -/
def loadValues (s : State) : State :=
  { s with
    jigs := s.jigs.map (fun g => { g with ageMs := BitVec.ofNat 8 (leVal (stored 0x2100 4 s)) })
    sram := { s.sram with
      scrubOn := leVal (stored 0x3D00 1 s) == 1, interval := BitVec.ofNat 16 (leVal (stored 0x3D00 2 s)) }
    codec := { s.codec with workLimit := BitVec.ofNat 8 (cfg 0x2400 3 s) }
    hk := { s.hk with budgetPct := cfg 0x3900 3 s }
    dict := { s.dict with canEvents := leVal (stored 0x1300 6 s) == 1 }
    chans := (List.range 16).map (fun n => { chanAt n s with
      enabled := bitAt (cfg 0x2000 1 s) n, trip := BitVec.ofNat 8 (leVal (stored 0x2000 3 s)) })
    dv := { s.dv with size := BitVec.ofNat 4 (cfg 0x3400 1 s), savedTerm := s.dv.term } }

/-- A port after step 10 (R64, R408). -/
def foundPort : Option Peer → Port
  | some p =>
    if p.lanes == 2 || p.lanes == 4 then { lanes := BitVec.ofNat 4 p.lanes, up := true, peer := p.die, hadPartner := true }
    else {}
  | none => {}

/-- BOOT step 10: the Dovetail ports, the cascade of one, the identity of the block (R48, R64, R408, R411). -/
def bootLinks (b : BootIn) (s : State) : State :=
  let e := foundPort b.east
  let w := foundPort b.west
  let solo := !e.up && !w.up
  let near := (b.east.toList ++ b.west.toList).filter (fun p => p.lanes == 2 || p.lanes == 4)
  let own := dieBit s.modes.dieId
  let s := setView own { s with dv := { s.dv with
    east := e, west := w, solo := solo, reach := own, peers := near.map (fun p => (p.die, p.leadOk)) } }
  if solo then s
  else
    if near.any (fun p => p.die == s.modes.dieId) then fenceIdentity 1 s
    else if s.dv.size != 0 && s.dv.size.toNat ≤ s.modes.dieId.toNat then fenceIdentity 2 s
    else s

/-- BOOT step 11: the boot temperature rule, and the keys locked (R70, R72). -/
def bootTemp (b : BootIn) (s : State) : State :=
  let s := lockKeys s
  if 440 ≤ b.tmax.toInt then
    atStage 0xA { bootRefusal 5 0 s with modes := { (bootRefusal 5 0 s).modes with bootHot := true } }
  else atStage 0xB s

/-- BOOT steps 5 to 11 (R64, R66 to R72). -/
def bootLoads (b : BootIn) (s : State) : State :=
  let (ok, s) := bootFirmware (atStage 6 (redoErase b.redoOk (copyTrims s)))
  if ok then
    let s := loadValues (countStart (restoreSaved (loadStores (bootCustomer (bootPatch s)))))
    bootTemp b (bootLinks b s)
  else lockKeys { s with modes := { s.modes with bootFallback := true } }

/-- RESET_DEASSERT: BOOT (R53, R64 to R72, R83). The QUARANTINE latch, a bad mark row, a blank one or a factory request end
it at step 4. -/
def execResetDeassert (b : BootIn) (s : State) : Out :=
  .next <|
    if !s.pins.inReset || !s.pins.powered then s
    else
      let want := s.modes.factoryReq
      let s := bootBegins b s
      if s.modes.quarantine then
        applyMode (lockKeys (atStage 4 { s with
          modes := { s.modes with boot := false }, power := { s.power with latchSeq := 3 } }))
      else if markBlank s || (want && factoryOk s) then
        let s := if want && factoryOk s then copyTrims s else s
        lockKeys (setConds (fun m => { m with factory := true, boot := false }) (atStage 4 s))
      else if factoryOk s then bootLoads b (atStage 4 s)
      else bootRefusal 0 1 s

/-! ### TRAIN (R73 to R76, R187 to R190, R203, R204) -/

/-- A copy of the target's parameter page passes its CRC and agrees with the die type (R189). -/
def paramOk (t : TargetIn) (ty : Nat) (s : State) : Bool :=
  t.crcOk.any id && t.pageBytes == die ty 0xA s && t.planes == 4 && t.luns == die ty 7 s && t.pages == die ty 8 s

/-- Cost of the resume of a suspended operation: that of its command byte in arrayStarts (R184, R190). -/
def resumeCost (ty : Nat) (erase : Bool) (s : State) : Nat :=
  let starts := dieBytes ty 0x13 s
  let cmd := byteAt (dieBytes ty 0x12 s) (if erase then 3 else 1)
  (((List.range 8).find? (fun i => byteAt starts (4 * i) == cmd)).map (fun i => byteAt starts (4 * i + 2))).getD 0

/-- The LUN is reported to journal recovery as suspect (R74, R190). -/
def suspect (ch u : Nat) (s : State) : State :=
  modChan ch (fun c => { c with suspects := if c.suspects.contains u then c.suspects else c.suspects ++ [u] }) s

/-- The LUNs of a target are (R74). -/
def suspectTarget (ch ce : Nat) (s : State) : State :=
  (List.range 4).foldl (fun s l => suspect ch (globalLun ch ce l s) s) s

/-- The operation that a resume has started is done within what remains of the 10 ms wait (R190). -/
def resumeEnds (w : LunWait) : Bool :=
  match w.ready with
  | some t => w.spent + t ≤ 10000
  | none => false

/-- A LUN found suspended in TRAIN step 2: J5 names the write class of its resume, which asks for clamps like any other and is
issued within what remains of the 10 ms wait, unless the overvoltage stop holds it. An operation that does not end in that time
leaves its LUN suspect; a resume not issued leaves the target's LUNs suspect (R190). -/
def resumeLun (ch ce ty : Nat) (s : State) (w : LunWait) : State :=
  if ty == 0 || !bitAt w.status.toNat (die ty 0xE s) then s
  else
    let u := globalLun ch ce w.lun s
    let s := modJig ch (fun g => { g with j := g.j.set 5 (BitVec.ofNat 32 ((if w.erase then 3 else 2) * 2 ^ 28)) }) s
    let s := rackCycle (askClamps ch u (resumeCost ty w.erase s) s)
    let issued := (jigAt ch s).clampGrant && w.spent ≤ 10000
    let s := returnLun ch u (modJig ch (fun g => { g with clampWait := false, clampGrant := false })
      { s with rack := { s.rack with waiting := s.rack.waiting.filter (fun r => r.who != .jig ch) } })
    if issued then
      let s := runRoutine ch ce w.lun (if w.erase then 0x2E4 else 0x2E0) [(2, ce * 2 ^ 29 + w.lun * 2 ^ 27)] s
      if resumeEnds w then s else suspect ch u s
    else suspectTarget ch ce s

/-- The reset of R74 on a target: each LUN by the die's LUN reset constant, or the target where the die has none (R73 step 2,
R185, R191; log entry 106). -/
def resetTarget (ch ce ty : Nat) (s : State) : State :=
  if byteAt (dieBytes ty 0x12 s) 0xD == 0 then runRoutine ch ce 0 0x2B0 [] s
  else (List.range (die ty 7 s)).foldl (fun s l => runRoutine ch ce l 0x2D5 [] s) s

/-- TRAIN step 2 on a fitted target of an accepted type: polled until ready, its suspended operations resumed, reset, its
identity and its parameter page read (R73, R74, R188, R190). -/
def findTarget (ch : Nat) (s : State) (t : TargetIn) : State :=
  let ty := (fittedTypes ch s).getD t.ce 0
  if ty == 0 || 8 ≤ t.ce || (typeRefused ty ch s).isSome || die ty 3 s != channelMode ch s then s
  else
    let s := t.waits.foldl (resumeLun ch t.ce ty) (runRoutine ch t.ce 0 0x2B1 [] s)
    runRoutine ch t.ce 0 0x2C0 [] (runRoutine ch t.ce 0 0x2B8 [] (resetTarget ch t.ce ty s))

/-- Targets of a channel that serve: fitted, of an accepted type of the channel's interface mode, answering with the type's
identity (R188, R189). -/
def goodTargets (ch : Nat) (ts : List TargetIn) (s : State) : List TargetIn :=
  ts.filter (fun t =>
    let ty := (fittedTypes ch s).getD t.ce 0
    t.ce < 8 && ty != 0 && (typeRefused ty ch s).isNone && die ty 3 s == channelMode ch s
      && t.idBytes == dieBytes ty 2 s && paramOk t ty s)

/-- Steps 1 to 4 of TRAIN on a channel (R73, R189, R203, R204, R216): it leaves pad hold, its targets are found, and the
highest rate at which every target passes is in force. Below the highest allowed rate a fallback is reported. -/
def trainChan (ch : Nat) (ts : List TargetIn) (s : State) : State :=
  let s := modChan ch (fun c => { c with dieTypes := fittedTypes ch s, trainBus := [] }) (dropMixed ch s)
  let s := ts.foldl (findTarget ch) s
  let good := goodTargets ch ts s
  let types := good.map (fun t => (fittedTypes ch s).getD t.ce 0)
  let rates := if good.isEmpty then [] else allowedRates ch types s
  let (r, ok) := tryRates (channelMode ch s) s rates 0 good
  let below := match rates with | top :: _ => r != top | [] => false
  let s := setRate ch r (modChan ch (fun c => { c with
    padHold := false, present := BitVec.ofNat 8 (ceMask ok), fallback := below
    up := ok.length != 0 && r != 10, lastStep := 3, lastResult := 0 })
      ((triedRates rates r).foldl (tryRate ch (good.map (·.ce))) s))
  let s := setTimings ch (ok.map (·.ce)) s
  let s := modJig ch (fun g => { g with state := .running, pc := 0 }) s
  if below then configEvent 4 ch 0 r s else s

/-- TRAIN steps 1 to 5 on the enabled channels (R73, R265, R284): initial truing begins, and its searches start once the
directory tells which blocks hold rows (log entry 61). -/
def trainChannels (t : List ChanTrainIn) (s : State) : State :=
  let s := checkTables (refuseTypes s)
  let s := (List.range 16).foldl (fun s n =>
    if (chanAt n s).enabled then trainChan n (((t.find? (fun c => c.ch == n)).map (·.targets)).getD []) s else s) s
  { s with recov := { s.recov with sweep := 1, trainStart := s.now } }

/-- The anchor copy of a block of a cascade is read (R421). -/
def readAnchor (s : State) : State :=
  match validAnchor s with
  | some (sec, rec) => takeAnchor sec rec s
  | none => s

/-- TRAIN_ENTRY: the firmware takes over and trains (R64 step 12, R72, R73, R421, R424). -/
def execTrainEntry (t : List ChanTrainIn) (s : State) : Out :=
  .next <|
    if s.modes.boot && s.modes.stage == 0xB && !s.modes.bootHot && !s.pins.inReset && !s.modes.holdup
        && !s.modes.quarantine then
      let s := atStage 0xD (setConds (fun m => { m with boot := false, train := true }) s)
      let s := trainChannels t s
      settle <|
        if s.dv.solo then pendingGrant (beginRecovery s)
        else if s.dv.dupId then endTrain (readAnchor s)
        else startElection (readAnchor s)
    else s

/-- TARGET_READY_TIMEOUT: the target is reset anyway, which aborts its operation, and its LUNs are suspect (R74, R190). -/
def execTargetReadyTimeout (ch ce : Nat) (s : State) : Out :=
  checked (ch < 16 && ce < 8) <|
    if s.modes.train then
      suspectTarget ch ce (resetTarget ch ce ((chanAt ch s).dieTypes.getD ce 0) s)
    else s

end Sys2Proof.Machine
end

