-- ==== Sys2Proof/WellFormed.lean ====
section
/-!
DEFINITION. Which commands can be presented: an operand that names a unit names one the spec gives the block (16 channels,
64 rings, 16 heads, 256 sources, 30 groups, 6 targets, the engines of R218, 8 merge entries, 4 droop detectors), and a
register access is one that a port can present. Every other command stops with Fault.noSuchUnit and nothing else does.
-/
namespace Sys2Proof

/-- Register accesses that can be presented: whole 32-bit offsets of the 256 KiB window, and 64-bit ones from the port
only (R28, R29, R576). -/
def accessOk (who : Writer) (wide : Bool) (addr : Nat) : Bool :=
  addr % 4 == 0 && addr < 0x40000 && (!wide || who == .hostPort)

/-- The command's operands name units that exist. -/
def wellFormed : Instr → Bool
  | .porNAssert => true
  | .rstNAssert => true
  | .resetDeassert _ => true
  | .trainEntry _ => true
  | .targetReadyTimeout ch ce => ch < 16 && ce < 8
  | .softReset _ => true
  | .enterStandby _ => true
  | .standbyEntry _ => true
  | .stbyRefused => true
  | .watchdog => true
  | .aonTimerExpiry => true
  | .ringEnable n => n < 64
  | .ringShutdown n _ => n < 64
  | .ringRestart n => n < 64
  | .ringDoorbell n _ => n < 64
  | .ringFetch n _ _ => n < 64
  | .entryCompletion _ => true
  | .writeRow _ _ => true
  | .read _ _ => true
  | .releaseGroup _ => true
  | .flush _ => true
  | .bind _ => true
  | .bindReserve => true
  | .bindWaitEvent _ => true
  | .unbindForce _ => true
  | .rawJig _ _ => true
  | .groupOpen _ => true
  | .groupClose _ => true
  | .rebuildStart _ => true
  | .refitStart _ _ => true
  | .patrolPause _ => true
  | .patrolResume _ => true
  | .patrolSetRate _ => true
  | .patrolNewLap _ => true
  | .accumOpen _ _ => true
  | .accumDrainEnd => true
  | .accumReturn _ => true
  | .nop _ => true
  | .hostReadDone _ _ => true
  | .hostWriteAck _ _ => true
  | .writeDataArrival _ _ _ _ => true
  | .slotAssign _ => true
  | .slotWaitEvent _ => true
  | .drawerPlace ch => ch < 16
  | .clampGrant => true
  | .deferEvent _ => true
  | .xmChargeRelease ch => ch < 16
  | .jigMicroword ch _ => ch < 16
  | .mcClampRelease ch => ch < 16
  | .jigReload ch _ => ch < 16
  | .jigTimerExpiry ch => ch < 16
  | .statusCapture ch _ => ch < 16
  | .jigResume _ ch => ch < 16
  | .jigStop _ ch => ch < 16
  | .jsSel _ => true
  | .codewordEncode engine _ => engine < 4
  | .hardDecode engine _ _ _ => engine < 8
  | .softDecode engine _ _ _ => engine < 4
  | .fusionDecode engine _ _ _ => engine < 1
  | .predictedThresholds _ => true
  | .truedThresholds _ => true
  | .retryTable _ => true
  | .softRead _ => true
  | .fusion _ => true
  | .reconstruction _ _ _ => true
  | .truingIteration _ => true
  | .truingAbandon _ => true
  | .wakeSweep => true
  | .doseTick => true
  | .doseSave => true
  | .wallClock _ => true
  | .driftTrip ch _ => ch < 16
  | .retrainDue ch => ch < 16
  | .retrainSearchEnd ch _ _ => ch < 16
  | .searchRestart ch => ch < 16
  | .journalPageStart => true
  | .journalPageDurable => true
  | .stripeWinGrant _ => true
  | .journalRecovery _ => true
  | .windowWriteRetry => true
  | .windowReadRetry => true
  | .dirCacheMiss _ _ => true
  | .journalCandidates sub _ => 1 ≤ sub && sub ≤ 8
  | .declareLunFailed _ => true
  | .retireMember _ => true
  | .ledgerClear _ => true
  | .rebuildRow _ => true
  | .patrolRow _ => true
  | .refitRow _ => true
  | .refitAbort _ => true
  | .attach _ => true
  | .detach _ => true
  | .feed _ => true
  | .feedRun head _ => head < 16
  | .verifyGood _ => true
  | .verifyBad _ => true
  | .fragOpen _ => true
  | .pass _ => true
  | .passJudge head _ => head < 16
  | .fragRead _ => true
  | .fragClose _ => true
  | .mediaReservedMsg _ => true
  | .forecast _ => true
  | .revoke _ => true
  | .mediaAbort _ => true
  | .sidebandIgnored _ => true
  | .forecastExpiry => true
  | .pwrFail => true
  | .holdupDone => true
  | .ovAlert => true
  | .ovStage2 => true
  | .vm31Crossing => true
  | .ovClear => true
  | .droopTrip detector => detector < 4
  | .droopRestore => true
  | .hkRoundEnd _ => true
  | .latchOpsTimeout => true
  | .linkDown _ => true
  | .linkTrainRetry _ => true
  | .flitRefused _ => true
  | .presence _ _ _ _ => true
  | .presenceSend => true
  | .claim _ _ _ => true
  | .grant _ _ => true
  | .heartbeat _ _ _ _ _ => true
  | .heartbeatMiss => true
  | .electionBackoff => true
  | .electTimeout => true
  | .job _ => true
  | .jobEnd _ _ _ _ _ => true
  | .parity _ _ _ _ => true
  | .codeword _ _ _ _ => true
  | .record _ => true
  | .directory _ _ => true
  | .anchor _ => true
  | .media _ _ => true
  | .wakeMsg _ => true
  | .dvReservedMsg _ => true
  | .sourceEvent id _ => id < 256
  | .groupFire g t => g < 30 && t < 6
  | .holdoffExpiry g => g < 30
  | .irqPset _ w _ => w < 8
  | .irqPendClear w _ => w < 8
  | .signalledClear _ t => t < 6
  | .idleSet _ t => t < 6
  | .privilegedRaise id _ => 240 ≤ id && id < 256
  | .evqEnable _ => true
  | .evqDisable _ => true
  | .evqCons _ => true
  | .logRecordCopy => true
  | .program _ _ _ _ _ _ => true
  | .erase _ _ => true
  | .suspend _ => true
  | .resume _ => true
  | .status _ => true
  | .count _ _ => true
  | .markProgram _ _ _ _ => true
  | .markLock _ => true
  | .cabinetOpEnd _ _ => true
  | .dictRead _ => true
  | .dictWrite _ => true
  | .dictDescribe _ => true
  | .canRead _ => true
  | .canWrite _ => true
  | .canDescribe _ => true
  | .closeSession _ => true
  | .canStatusFrame => true
  | .canEventFrame => true
  | .canSessionTimeout _ => true
  | .dictTransferTimeout _ => true
  | .busOff => true
  | .busOffRecovery => true
  | .saveCompaction => true
  | .authRequest _ _ => true
  | .authChallenge _ _ => true
  | .authKey _ _ => true
  | .authSignature _ _ => true
  | .authDrop _ _ => true
  | .imageTarget _ _ => true
  | .imageLength _ _ => true
  | .imageData _ _ _ _ => true
  | .imageCheck _ _ => true
  | .restoreDefaults _ _ => true
  | .statisticsMark _ _ => true
  | .factoryRequest _ _ => true
  | .raiseVendorFloor _ _ => true
  | .raiseCustomerFloor _ _ => true
  | .customerKeyProvision _ _ => true
  | .factoryPart _ _ => true
  | .customerSectorData _ _ => true
  | .codecInject _ _ => true
  | .sramFlip _ _ => true
  | .scrubRead => true
  | .scrubRewrite => true
  | .mergeRetire idx => idx < 8
  | .registerReadClear who wide addr => accessOk who wide addr
  | .registerWrite who wide addr _ _ => accessOk who wide addr
  | .linkUp _ _ _ => true
  | .presenceTimeout _ => true
  | .sbReqLowered => true
  | .errorPassive _ => true

end Sys2Proof
end

