-- ==== Sys2Proof/Machine/Registers.lean ====
section
/-!
DEFINITION. Accesses of the register window from the register port and from the cores: the response codes, what a read
clears, what a write does to each register (R4, R27 to R30, R576 to R581).
-/
namespace Sys2Proof.Machine

/-! ### Responses (R30, R576) -/

/-- An access as it is answered: the port gets the code and the data, a core an access fault unless the code is OKAY. -/
def answerReg (who : Writer) (code data : Nat) (s : State) : State :=
  match who with
  | .hostPort => { s with regs := { s.regs with rsp := s.regs.rsp ++ [(BitVec.ofNat 2 code, BitVec.ofNat 64 data)] } }
  | _ => if code == 0 then s else { s with regs := { s.regs with coreFaults := s.regs.coreFaults + 1 } }

/-- The access holds a register wherever it reaches (R28, R572). -/
def holdsReg (wide : Bool) (addr : Nat) (s : State) : Bool :=
  (readReg addr s).isSome && (!wide || (readReg (addr + 4) s).isSome)

/-- The response code of an access before any privilege is looked at (R30): IN_RESET, from the isolation while the block is
in OFF or absent (R31), ACCESS_ERROR for a 64-bit access with
address bit 2 set, DECODE_ERROR where no register lies. -/
def accessCode (wide : Bool) (addr : Nat) (s : State) : Nat :=
  if !s.pins.powered || s.pins.inReset then 1
  else if wide && addr % 8 == 4 then 3
  else if holdsReg wide addr s then 0
  else 2

/-! ### Reads -/

/-- The counters that a read of IRQ_COUNT `k` clears (R467, R483). -/
def clearCounts (k : Nat) (q : Irq) : Irq :=
  { q with count := (List.range 4).foldl (fun c j => c.set (4 * k + j) 0) q.count }

/-- The RC fields of the register at an offset cleared (R4, R174, R324, R370, R403, R433, R461, R462, R483 to R485, R568). -/
def clearReg (a : Nat) (s : State) : State :=
  if 0x04400 ≤ a && a < 0x04500 then { s with irq := clearCounts ((a - 0x04400) / 4) s.irq }
  else if 0x04800 ≤ a && a < 0x04860 && a % 0x10 == 0 then
    { s with irq := { s.irq with signals := s.irq.signals.set ((a - 0x04800) / 0x10) 0 } }
  else if 0x08000 ≤ a && a < 0x0C000 then
    let ch := (a - 0x08000) / 0x400
    match (a - 0x08000) % 0x400 with
    | 0x01C => modJig ch (fun g => { g with full := 0, aged := 0 }) s
    | 0x020 => modJig ch (fun g => { g with eventCount := 0 }) s
    | _ => s
  else if a == 0x05014 then { s with evq := { s.evq with dropped := 0, coreDropped := 0 } }
  else if a == 0x06008 then { s with rack := { s.rack with deferred := 0 } }
  else if a == 0x06018 then { s with rack := { s.rack with sbIgnored := 0, sbMessages := 0 } }
  else if a == 0x07000 then { s with hk := { s.hk with discarded := 0 } }
  else if a == 0x0D018 then { s with stripe := { s.stripe with waitLong := 0, waits := 0 } }
  else if a == 0x0D038 then { s with stripe := { s.stripe with misses := 0 } }
  else if a == 0x0D124 then { s with bg := { s.bg with unreadable := 0, silent := 0, parity := 0, unresolved := 0 } }
  else if a == 0x0D20C then { s with media := { s.media with bindLong := 0, bindWaits := 0 } }
  else if a == 0x0D214 then { s with media := { s.media with realigned := 0, nominal := 0 } }
  else if a == 0x0D218 then { s with media := { s.media with rejScore := 0, rejSync := 0 } }
  else if a == 0x0E024 then { s with sram := { s.sram with merges := 0 } }
  else if a == 0x0F00C then { s with dv := { s.dv with missed := 0 } }
  else if a == 0x0F010 then { s with dv := { s.dv with replays := 0, discards := 0 } }
  else s

/-- The value a read returns. IDLE of a core target is a free value (R472). -/
def sampleReg (a : Nat) (s : State) : Nat × State :=
  let v := ((readReg a s).getD 0).toNat
  if a == 0x04800 || a == 0x04810 then
    let (idle, s) := targetIdle ((a - 0x04800) / 0x10) s
    (v - v / 2 % 2 * 2 + 2 * b2n idle, s)
  else (v, s)

/-- REGISTER_READ_CLEAR: a read of one register, or of two in the same cycle, and the RC fields it clears (R4, R28). -/
def execRegisterReadClear (who : Writer) (wide : Bool) (addr : Nat) (s : State) : Out :=
  checked (accessOk who wide addr) <|
    if accessCode wide addr s == 0 then
      let (lo, s) := sampleReg addr s
      let (hi, s) := if wide then sampleReg (addr + 4) s else (0, s)
      let s := if wide then clearReg (addr + 4) (clearReg addr s) else clearReg addr s
      answerReg who 0 (lo + 2 ^ 32 * hi) s
    else answerReg who (accessCode wide addr s) 0 s

/-! ### Writes -/

/-- W1C fields of the identity block (R55, R61), MODE_CTRL (R62) and the scratch registers (R575). -/
def writeGlobal (off : Nat) (v : Word) (s : State) : State :=
  let b := bitAt v.toNat
  let m := s.modes
  match off with
  | 0x10 => { s with modes := { m with stbyRefused := m.stbyRefused && !b 15 } }
  | 0x14 => { s with modes := { m with
      causePor := m.causePor && !b 0, causePin := m.causePin && !b 1, causeSoft := m.causeSoft && !b 2
      causeWdog := m.causeWdog && !b 3 } }
  | 0x1C => writeModeCtrl v s
  | 0x20 => { s with modes := { m with scratch0 := v } }
  | 0x24 => { s with modes := { m with scratch1 := v } }
  | _ => s

/-- Registers of the dictionary port; while BUSY every write only sets IGNORED (R503). -/
def writeDictReg (off : Nat) (v : Word) (s : State) : State :=
  let d := s.dict
  if d.busy then { s with dict := { d with ignored := true } }
  else
    match off with
    | 0x00 => portRequest v s
    | 0x04 => { s with dict := { d with offset := v } }
    | 0x08 => { s with dict := { d with last := bitAt v.toNat 31, length := BitVec.ofNat 11 v.toNat } }
    | 0x0C => { s with dict := { d with total := v } }
    | 0x10 => { s with dict := { d with done := d.done && !bitAt v.toNat 1, ignored := d.ignored && !bitAt v.toNat 3 } }
    | 0x14 => s
    | _ => { s with dict := { d with buf := splice d.buf (off - 0x400) (le 4 v.toNat) } }

/-- RING_CTRL: ENABLE, SHUTDOWN and RESTART in that order, each in the state the one before leaves (R90). -/
def writeRingCtrl (n : Nat) (v : Word) (walk : List HostRead) (s : State) : State :=
  let b := bitAt v.toNat
  let s := if b 0 then enableRing n s else s
  let s := if b 1 then shutdownRing n walk s else s
  if b 2 then restartRing n s else s

/-- Registers of ring `n` (R87 to R91). -/
def writeRing (n off : Nat) (v : Word) (walk : List HostRead) (s : State) : State :=
  let r := ringAt n s
  let x := v.toNat
  let off32 := r.state == .disabled
  match off with
  | 0x00 => if off32 then setRing n { r with baseLo := BitVec.ofNat 20 (fld x 12 20) } s else s
  | 0x04 => if off32 then setRing n { r with baseHi := v } s else s
  | 0x08 =>
    if off32 then setRing n { r with
      inflightMax := BitVec.ofNat 8 (fld x 16 8), irqAll := bitAt x 15, weight := BitVec.ofNat 4 (fld x 8 4)
      depthLog2 := BitVec.ofNat 5 (fld x 0 5) } s
    else s
  | 0x0C => writeRingCtrl n v walk s
  | 0x10 => doorbell n (wake s)
  | 0x14 =>
    if off32 || r.state == .error then setRing n { r with start := BitVec.ofNat 16 (fld x 0 16) } s else s
  | _ => s

/-- Sources whose SENSE the register port may write (R483). -/
def portSense (id : Nat) : Bool := id < 64 || (136 ≤ id && id ≤ 143)

/-- IRQ_CFG of a source: the port leaves ROUTE bits [9:8] and most SENSE fields unchanged; reserved codes leave SENSE
unchanged (R466, R483). A level mode that finds its level sets PEND (R466). -/
def writeIrqCfg (who : Writer) (id : Nat) (v : Word) (s : State) : State :=
  let q := s.irq
  let code := fld v.toNat 0 3
  let old := (q.route.getD id 0).toNat
  let new := fld v.toNat 8 6
  let route := if who == .hostPort then new / 4 * 4 + old % 4 else new
  let ok := ordinary id && code < 6 && (who != .hostPort || portSense id)
  let sense := if ok then q.sense.set id (BitVec.ofNat 3 code) else q.sense
  { s with irq := Irq.relevel { q with sense := sense, route := q.route.set id (BitVec.ofNat 6 route) } id }

/-- Notification registers of a host target (R484). -/
def writeNotify (t off : Nat) (v : Word) (q : Irq) : Irq :=
  let a := (q.naddr.getD t 0).toNat
  let x := v.toNat
  match off with
  | 0x4 => { q with naddr := q.naddr.set t (BitVec.ofNat 64 (a / 2 ^ 32 * 2 ^ 32 + x / 4 * 4)) }
  | 0x8 => { q with naddr := q.naddr.set t (BitVec.ofNat 64 (a % 2 ^ 32 + x * 2 ^ 32)) }
  | _ => { q with ndata := q.ndata.set t v }

/-- Registers of the interrupt controller (R483, R484). -/
def writeIrqReg (who : Writer) (off : Nat) (v : Word) (s : State) : State :=
  let w := off % 0x20 / 4
  if off < 0x400 then writeIrqCfg who (off / 4) v s
  else if 0x500 ≤ off && off < 0x520 then writePend w v s
  else if 0x520 ≤ off && off < 0x540 then writePset who w v s
  else if 0x700 ≤ off && off < 0x778 then
    { s with irq := { s.irq with holdoff := s.irq.holdoff.set ((off - 0x700) / 4) (BitVec.ofNat 10 (fld v.toNat 0 10)) } }
  else if 0x800 ≤ off && off < 0x860 then
    let t := (off - 0x800) / 0x10
    if off % 0x10 == 0 then writeTgtStatus t v s
    else { s with irq := writeNotify t (off % 0x10) v s.irq }
  else s

/-- Registers of the event queue (R485). -/
def writeEvqReg (off : Nat) (v : Word) (s : State) : State :=
  match off with
  | 0x00 => if s.evq.enable then s else { s with evq := { s.evq with baseLo := BitVec.ofNat 20 (fld v.toNat 12 20) } }
  | 0x04 => if s.evq.enable then s else { s with evq := { s.evq with baseHi := v } }
  | 0x08 => writeEvqCfg v s
  | 0x10 => writeEvqCons v s
  | _ => s

/-- Registers of a jig and channel block: JIG_CTRL, and the VALID bits that only the main core clears (R172, R578). -/
def writeJigReg (who : Writer) (ch off : Nat) (v : Word) (s : State) : State :=
  let b := bitAt v.toNat
  match off with
  | 0x000 =>
    let s := if b 0 then stopJig ch s else s
    if b 1 then resumeJig ch s else s
  | 0x00C =>
    if who == .mainCore && b 31 then modJig ch (fun g => { g with mc := { g.mc with valid := false } }) s else s
  | 0x010 =>
    if who == .mainCore && b 31 then modJig ch (fun g => { g with trap := { g.trap with valid := false } }) s else s
  | _ => s

/-- Registers of the stripe engine: base and size are kept from GRANTED on (R318, R324). -/
def writeStripeReg (off : Nat) (v : Word) (s : State) : State :=
  let p := s.stripe
  match off with
  | 0x00 => if p.granted then s else { s with stripe := { p with baseLo := BitVec.ofNat 12 (fld v.toNat 20 12) } }
  | 0x04 => if p.granted then s else { s with stripe := { p with baseHi := v } }
  | 0x08 => if p.granted then s else { s with stripe := { p with mib := BitVec.ofNat 11 (fld v.toNat 0 11) } }
  | 0x0C => writeGrant v s
  | _ => s

/-- A register written (R4): RO and RC fields keep their values. -/
def writeReg (who : Writer) (a : Nat) (v : Word) (walk : List HostRead) (s : State) : State :=
  if a < 0x01000 then writeGlobal a v s
  else if a < 0x02000 then writeDictReg (a - 0x01000) v s
  else if a < 0x04000 then writeRing ((a - 0x02000) / 0x80) ((a - 0x02000) % 0x80) v walk s
  else if a < 0x05000 then writeIrqReg who (a - 0x04000) v s
  else if a < 0x06000 then writeEvqReg (a - 0x05000) v s
  else if a < 0x08000 then s
  else if a < 0x0C000 then writeJigReg who ((a - 0x08000) / 0x400) ((a - 0x08000) % 0x400) v s
  else if a == 0x0C004 then
    { s with codec := { s.codec with faultValid := s.codec.faultValid && !bitAt v.toNat 31 } }
  else if a == 0x0C00C then writeInject v s
  else if 0x0D000 ≤ a && a < 0x0D100 then writeStripeReg (a - 0x0D000) v s
  else if a == 0x0E00C then { s with sram := { s.sram with errValid := s.sram.errValid && !bitAt v.toNat 31 } }
  else if a == 0x0E028 then writeFlip v s
  else if a == 0x0E02C then { s with sram := { s.sram with flipUsed := s.sram.flipUsed && !bitAt v.toNat 31 } }
  else if a == 0x10000 then storeRead v s
  else s

/-- Registers that take writes only from the main core (R577). -/
def mainOnly (a : Nat) : Bool :=
  (0x08000 ≤ a && a < 0x0C000 && a % 0x400 == 0) || a == 0x0C00C || a == 0x0E028 || a == 0x04800 || a == 0x04810

/-- The write is refused by the privilege of a register it reaches (R30, R577). -/
def refusedWrite (who : Writer) (wide : Bool) (a : Nat) : Bool :=
  who != .mainCore && (mainOnly a || (wide && mainOnly (a + 4)))

/-- Both halves of a 64-bit write take effect in the same cycle, so that a DICT_CMD write finds the OFFSET written with it
(R28). -/
def writeRegs (who : Writer) (wide : Bool) (a : Nat) (v : BitVec 64) (walk : List HostRead) (s : State) : State :=
  let lo := BitVec.ofNat 32 v.toNat
  let hi := BitVec.ofNat 32 (v.toNat / 2 ^ 32)
  if !wide then writeReg who a lo walk s
  else if a == 0x01000 then writeReg who a lo walk (writeReg who (a + 4) hi walk s)
  else writeReg who (a + 4) hi walk (writeReg who a lo walk s)

/-- REGISTER_WRITE (R4, R28 to R30, R576 to R578). `walk` is what the reads of a ring's shutdown walk answer (R126). -/
def execRegisterWrite (who : Writer) (wide : Bool) (addr : Nat) (v : BitVec 64) (walk : List HostRead) (s : State) : Out :=
  checked (accessOk who wide addr) <|
    if accessCode wide addr s != 0 then answerReg who (accessCode wide addr s) 0 s
    else if refusedWrite who wide addr then answerReg who 3 0 s
    else answerReg who 0 0 (writeRegs who wide addr v walk s)

end Sys2Proof.Machine
end

