-- ==== Sys2Proof/Machine/Dispatch.lean ====
section
/-!
DEFINITION. The dispatch: one arm per constructor of Instr, each one direct call of its meaning.
-/
namespace Sys2Proof.Machine

def exec (i : Instr) (s : State) : Host.Outcome State Fault Refusal :=
  match i with
  | .porNAssert => Sys2Proof.Machine.execPorNAssert s
  | .rstNAssert => Sys2Proof.Machine.execRstNAssert s
  | .resetDeassert b => Sys2Proof.Machine.execResetDeassert b s
  | .trainEntry t => Sys2Proof.Machine.execTrainEntry t s
  | .targetReadyTimeout ch ce => Sys2Proof.Machine.execTargetReadyTimeout ch ce s
  | .softReset v => Sys2Proof.Machine.execSoftReset v s
  | .enterStandby v => Sys2Proof.Machine.execEnterStandby v s
  | .standbyEntry ownClear => Sys2Proof.Machine.execStandbyEntry ownClear s
  | .stbyRefused => Sys2Proof.Machine.execStbyRefused s
  | .watchdog => Sys2Proof.Machine.execWatchdog s
  | .aonTimerExpiry => Sys2Proof.Machine.execAonTimerExpiry s
  | .ringEnable n => Sys2Proof.Machine.execRingEnable n s
  | .ringShutdown n walk => Sys2Proof.Machine.execRingShutdown n walk s
  | .ringRestart n => Sys2Proof.Machine.execRingRestart n s
  | .ringDoorbell n v => Sys2Proof.Machine.execRingDoorbell n v s
  | .ringFetch n unit0 rest => Sys2Proof.Machine.execRingFetch n unit0 rest s
  | .entryCompletion eid => Sys2Proof.Machine.execEntryCompletion eid s
  | .writeRow eid list => Sys2Proof.Machine.execWriteRow eid list s
  | .read eid list => Sys2Proof.Machine.execRead eid list s
  | .releaseGroup eid => Sys2Proof.Machine.execReleaseGroup eid s
  | .flush eid => Sys2Proof.Machine.execFlush eid s
  | .bind eid => Sys2Proof.Machine.execBind eid s
  | .bindReserve => Sys2Proof.Machine.execBindReserve s
  | .bindWaitEvent eid => Sys2Proof.Machine.execBindWaitEvent eid s
  | .unbindForce eid => Sys2Proof.Machine.execUnbindForce eid s
  | .rawJig eid data => Sys2Proof.Machine.execRawJig eid data s
  | .groupOpen eid => Sys2Proof.Machine.execGroupOpen eid s
  | .groupClose eid => Sys2Proof.Machine.execGroupClose eid s
  | .rebuildStart eid => Sys2Proof.Machine.execRebuildStart eid s
  | .refitStart eid plan => Sys2Proof.Machine.execRefitStart eid plan s
  | .patrolPause eid => Sys2Proof.Machine.execPatrolPause eid s
  | .patrolResume eid => Sys2Proof.Machine.execPatrolResume eid s
  | .patrolSetRate eid => Sys2Proof.Machine.execPatrolSetRate eid s
  | .patrolNewLap eid => Sys2Proof.Machine.execPatrolNewLap eid s
  | .accumOpen eid param => Sys2Proof.Machine.execAccumOpen eid param s
  | .accumDrainEnd => Sys2Proof.Machine.execAccumDrainEnd s
  | .accumReturn eid => Sys2Proof.Machine.execAccumReturn eid s
  | .nop eid => Sys2Proof.Machine.execNop eid s
  | .hostReadDone tag beats => Sys2Proof.Machine.execHostReadDone tag beats s
  | .hostWriteAck tag err => Sys2Proof.Machine.execHostWriteAck tag err s
  | .writeDataArrival eid member cw data => Sys2Proof.Machine.execWriteDataArrival eid member cw data s
  | .slotAssign eid => Sys2Proof.Machine.execSlotAssign eid s
  | .slotWaitEvent eid => Sys2Proof.Machine.execSlotWaitEvent eid s
  | .drawerPlace ch => Sys2Proof.Machine.execDrawerPlace ch s
  | .clampGrant => Sys2Proof.Machine.execClampGrant s
  | .deferEvent who => Sys2Proof.Machine.execDeferEvent who s
  | .xmChargeRelease ch => Sys2Proof.Machine.execXmChargeRelease ch s
  | .jigMicroword ch p => Sys2Proof.Machine.execJigMicroword ch p s
  | .mcClampRelease ch => Sys2Proof.Machine.execMcClampRelease ch s
  | .jigReload ch parityOk => Sys2Proof.Machine.execJigReload ch parityOk s
  | .jigTimerExpiry ch => Sys2Proof.Machine.execJigTimerExpiry ch s
  | .statusCapture ch b => Sys2Proof.Machine.execStatusCapture ch b s
  | .jigResume who ch => Sys2Proof.Machine.execJigResume who ch s
  | .jigStop who ch => Sys2Proof.Machine.execJigStop who ch s
  | .jsSel v => Sys2Proof.Machine.execJsSel v s
  | .codewordEncode engine fault => Sys2Proof.Machine.execCodewordEncode engine fault s
  | .hardDecode engine job cw fault => Sys2Proof.Machine.execHardDecode engine job cw fault s
  | .softDecode engine job cw fault => Sys2Proof.Machine.execSoftDecode engine job cw fault s
  | .fusionDecode engine job cw fault => Sys2Proof.Machine.execFusionDecode engine job cw fault s
  | .predictedThresholds job => Sys2Proof.Machine.execPredictedThresholds job s
  | .truedThresholds job => Sys2Proof.Machine.execTruedThresholds job s
  | .retryTable job => Sys2Proof.Machine.execRetryTable job s
  | .softRead job => Sys2Proof.Machine.execSoftRead job s
  | .fusion job => Sys2Proof.Machine.execFusion job s
  | .reconstruction job cw w => Sys2Proof.Machine.execReconstruction job cw w s
  | .truingIteration id => Sys2Proof.Machine.execTruingIteration id s
  | .truingAbandon id => Sys2Proof.Machine.execTruingAbandon id s
  | .wakeSweep => Sys2Proof.Machine.execWakeSweep s
  | .doseTick => Sys2Proof.Machine.execDoseTick s
  | .doseSave => Sys2Proof.Machine.execDoseSave s
  | .wallClock v => Sys2Proof.Machine.execWallClock v s
  | .driftTrip ch measure => Sys2Proof.Machine.execDriftTrip ch measure s
  | .retrainDue ch => Sys2Proof.Machine.execRetrainDue ch s
  | .retrainSearchEnd ch r targets => Sys2Proof.Machine.execRetrainSearchEnd ch r targets s
  | .searchRestart ch => Sys2Proof.Machine.execSearchRestart ch s
  | .journalPageStart => Sys2Proof.Machine.execJournalPageStart s
  | .journalPageDurable => Sys2Proof.Machine.execJournalPageDurable s
  | .stripeWinGrant v => Sys2Proof.Machine.execStripeWinGrant v s
  | .journalRecovery r => Sys2Proof.Machine.execJournalRecovery r s
  | .windowWriteRetry => Sys2Proof.Machine.execWindowWriteRetry s
  | .windowReadRetry => Sys2Proof.Machine.execWindowReadRetry s
  | .dirCacheMiss group r => Sys2Proof.Machine.execDirCacheMiss group r s
  | .journalCandidates sub lun => Sys2Proof.Machine.execJournalCandidates sub lun s
  | .declareLunFailed lun => Sys2Proof.Machine.execDeclareLunFailed lun s
  | .retireMember v => Sys2Proof.Machine.execRetireMember v s
  | .ledgerClear idx => Sys2Proof.Machine.execLedgerClear idx s
  | .rebuildRow w => Sys2Proof.Machine.execRebuildRow w s
  | .patrolRow w => Sys2Proof.Machine.execPatrolRow w s
  | .refitRow w => Sys2Proof.Machine.execRefitRow w s
  | .refitAbort v => Sys2Proof.Machine.execRefitAbort v s
  | .attach m => Sys2Proof.Machine.execAttach m s
  | .detach m => Sys2Proof.Machine.execDetach m s
  | .feed m => Sys2Proof.Machine.execFeed m s
  | .feedRun head beats => Sys2Proof.Machine.execFeedRun head beats s
  | .verifyGood m => Sys2Proof.Machine.execVerifyGood m s
  | .verifyBad m => Sys2Proof.Machine.execVerifyBad m s
  | .fragOpen m => Sys2Proof.Machine.execFragOpen m s
  | .pass m => Sys2Proof.Machine.execPass m s
  | .passJudge head samples => Sys2Proof.Machine.execPassJudge head samples s
  | .fragRead m => Sys2Proof.Machine.execFragRead m s
  | .fragClose m => Sys2Proof.Machine.execFragClose m s
  | .mediaReservedMsg m => Sys2Proof.Machine.execMediaReservedMsg m s
  | .forecast m => Sys2Proof.Machine.execForecast m s
  | .revoke m => Sys2Proof.Machine.execRevoke m s
  | .mediaAbort m => Sys2Proof.Machine.execMediaAbort m s
  | .sidebandIgnored m => Sys2Proof.Machine.execSidebandIgnored m s
  | .forecastExpiry => Sys2Proof.Machine.execForecastExpiry s
  | .pwrFail => Sys2Proof.Machine.execPwrFail s
  | .holdupDone => Sys2Proof.Machine.execHoldupDone s
  | .ovAlert => Sys2Proof.Machine.execOvAlert s
  | .ovStage2 => Sys2Proof.Machine.execOvStage2 s
  | .vm31Crossing => Sys2Proof.Machine.execVm31Crossing s
  | .ovClear => Sys2Proof.Machine.execOvClear s
  | .droopTrip detector => Sys2Proof.Machine.execDroopTrip detector s
  | .droopRestore => Sys2Proof.Machine.execDroopRestore s
  | .hkRoundEnd r => Sys2Proof.Machine.execHkRoundEnd r s
  | .latchOpsTimeout => Sys2Proof.Machine.execLatchOpsTimeout s
  | .linkDown port => Sys2Proof.Machine.execLinkDown port s
  | .linkTrainRetry port => Sys2Proof.Machine.execLinkTrainRetry port s
  | .flitRefused replayed => Sys2Proof.Machine.execFlitRefused replayed s
  | .presence die leadOk term ring => Sys2Proof.Machine.execPresence die leadOk term ring s
  | .presenceSend => Sys2Proof.Machine.execPresenceSend s
  | .claim term die view => Sys2Proof.Machine.execClaim term die view s
  | .grant term die => Sys2Proof.Machine.execGrant term die s
  | .heartbeat term die seq view inTime => Sys2Proof.Machine.execHeartbeat term die seq view inTime s
  | .heartbeatMiss => Sys2Proof.Machine.execHeartbeatMiss s
  | .electionBackoff => Sys2Proof.Machine.execElectionBackoff s
  | .electTimeout => Sys2Proof.Machine.execElectTimeout s
  | .job r => Sys2Proof.Machine.execJob r s
  | .jobEnd handle outcome delivered lost hostErr => Sys2Proof.Machine.execJobEnd handle outcome delivered lost hostErr s
  | .parity group row member pq => Sys2Proof.Machine.execParity group row member pq s
  | .codeword head job cw data => Sys2Proof.Machine.execCodeword head job cw data s
  | .record recs => Sys2Proof.Machine.execRecord recs s
  | .directory grant entries => Sys2Proof.Machine.execDirectory grant entries s
  | .anchor rec => Sys2Proof.Machine.execAnchor rec s
  | .media die m => Sys2Proof.Machine.execMedia die m s
  | .wakeMsg sleep => Sys2Proof.Machine.execWakeMsg sleep s
  | .dvReservedMsg type => Sys2Proof.Machine.execDvReservedMsg type s
  | .sourceEvent id level => Sys2Proof.Machine.execSourceEvent id level s
  | .groupFire g t => Sys2Proof.Machine.execGroupFire g t s
  | .holdoffExpiry g => Sys2Proof.Machine.execHoldoffExpiry g s
  | .irqPset who w v => Sys2Proof.Machine.execIrqPset who w v s
  | .irqPendClear w v => Sys2Proof.Machine.execIrqPendClear w v s
  | .signalledClear who t => Sys2Proof.Machine.execSignalledClear who t s
  | .idleSet who t => Sys2Proof.Machine.execIdleSet who t s
  | .privilegedRaise id detail => Sys2Proof.Machine.execPrivilegedRaise id detail s
  | .evqEnable v => Sys2Proof.Machine.execEvqEnable v s
  | .evqDisable v => Sys2Proof.Machine.execEvqDisable v s
  | .evqCons v => Sys2Proof.Machine.execEvqCons v s
  | .logRecordCopy => Sys2Proof.Machine.execLogRecordCopy s
  | .program caller sector word data clearOnly suspendOk => Sys2Proof.Machine.execProgram caller sector word data clearOnly suspendOk s
  | .erase caller sector => Sys2Proof.Machine.execErase caller sector s
  | .suspend caller => Sys2Proof.Machine.execSuspend caller s
  | .resume caller => Sys2Proof.Machine.execResume caller s
  | .status caller => Sys2Proof.Machine.execStatus caller s
  | .count caller sector => Sys2Proof.Machine.execCount caller sector s
  | .markProgram caller word data clearOnly => Sys2Proof.Machine.execMarkProgram caller word data clearOnly s
  | .markLock caller => Sys2Proof.Machine.execMarkLock caller s
  | .cabinetOpEnd verified wordsDone => Sys2Proof.Machine.execCabinetOpEnd verified wordsDone s
  | .dictRead v => Sys2Proof.Machine.execDictRead v s
  | .dictWrite v => Sys2Proof.Machine.execDictWrite v s
  | .dictDescribe v => Sys2Proof.Machine.execDictDescribe v s
  | .canRead frame => Sys2Proof.Machine.execCanRead frame s
  | .canWrite frame => Sys2Proof.Machine.execCanWrite frame s
  | .canDescribe frame => Sys2Proof.Machine.execCanDescribe frame s
  | .closeSession frame => Sys2Proof.Machine.execCloseSession frame s
  | .canStatusFrame => Sys2Proof.Machine.execCanStatusFrame s
  | .canEventFrame => Sys2Proof.Machine.execCanEventFrame s
  | .canSessionTimeout client => Sys2Proof.Machine.execCanSessionTimeout client s
  | .dictTransferTimeout client => Sys2Proof.Machine.execDictTransferTimeout client s
  | .busOff => Sys2Proof.Machine.execBusOff s
  | .busOffRecovery => Sys2Proof.Machine.execBusOffRecovery s
  | .saveCompaction => Sys2Proof.Machine.execSaveCompaction s
  | .authRequest client level => Sys2Proof.Machine.execAuthRequest client level s
  | .authChallenge client random => Sys2Proof.Machine.execAuthChallenge client random s
  | .authKey client key => Sys2Proof.Machine.execAuthKey client key s
  | .authSignature client sig => Sys2Proof.Machine.execAuthSignature client sig s
  | .authDrop client v => Sys2Proof.Machine.execAuthDrop client v s
  | .imageTarget client v => Sys2Proof.Machine.execImageTarget client v s
  | .imageLength client v => Sys2Proof.Machine.execImageLength client v s
  | .imageData client offset last data => Sys2Proof.Machine.execImageData client offset last data s
  | .imageCheck client v => Sys2Proof.Machine.execImageCheck client v s
  | .restoreDefaults client v => Sys2Proof.Machine.execRestoreDefaults client v s
  | .statisticsMark client v => Sys2Proof.Machine.execStatisticsMark client v s
  | .factoryRequest client v => Sys2Proof.Machine.execFactoryRequest client v s
  | .raiseVendorFloor client v => Sys2Proof.Machine.execRaiseVendorFloor client v s
  | .raiseCustomerFloor client v => Sys2Proof.Machine.execRaiseCustomerFloor client v s
  | .customerKeyProvision client data => Sys2Proof.Machine.execCustomerKeyProvision client data s
  | .factoryPart client data => Sys2Proof.Machine.execFactoryPart client data s
  | .customerSectorData client data => Sys2Proof.Machine.execCustomerSectorData client data s
  | .codecInject who v => Sys2Proof.Machine.execCodecInject who v s
  | .sramFlip who v => Sys2Proof.Machine.execSramFlip who v s
  | .scrubRead => Sys2Proof.Machine.execScrubRead s
  | .scrubRewrite => Sys2Proof.Machine.execScrubRewrite s
  | .mergeRetire idx => Sys2Proof.Machine.execMergeRetire idx s
  | .registerReadClear who wide addr => Sys2Proof.Machine.execRegisterReadClear who wide addr s
  | .registerWrite who wide addr v walk => Sys2Proof.Machine.execRegisterWrite who wide addr v walk s
  | .linkUp port lanes peer => Sys2Proof.Machine.execLinkUp port lanes peer s
  | .presenceTimeout die => Sys2Proof.Machine.execPresenceTimeout die s
  | .sbReqLowered => Sys2Proof.Machine.execSbReqLowered s
  | .errorPassive passive => Sys2Proof.Machine.execErrorPassive passive s

end Sys2Proof.Machine
end

