-- ==== Sys2Proof/Safety.lean ====
section
/-!
DEFINITION. What a safe run is, in the terms the statements use: a step that goes on, a queue whose commands can be
presented, the canonical form of the memories, and the counts of the block's units.
-/
namespace Sys2Proof.Machine

/-- The outcome goes on to a next state. -/
def goesOn (o : Out) : Prop := ∃ t, o = .next t

/-- Every waiting command can be presented. -/
def queueOk (s : State) : Prop := ∀ c ∈ s.pending, wellFormed c = true

/-- The canonical form of a sparse memory: keys strictly rising, no entry equal to what an unlisted key reads as. -/
abbrev Memory.wf {β : Type} [DecidableEq β] (blank : Nat → β) (l : List (Nat × β)) : Prop :=
  l.Pairwise (fun p q => p.1 < q.1) ∧ ∀ p ∈ l, p.2 ≠ blank p.1

/-- The SRAM's words are canonical, and its merge buffer holds at most eight words (R551, R555). -/
def Sram.wf (m : Sram) : Prop := Memory.wf (fun _ => (0 : BitVec 137)) m.words ∧ m.merge.length ≤ 8

/-- The Cabinet's words, header rows and mark row are canonical (R525, R536, R540). -/
def Cabinet.wf (c : Cabinet) : Prop :=
  Memory.wf (fun _ => BitVec.ofNat 64 erasedWord) c.words ∧ Memory.wf (fun _ => BitVec.ofNat 64 erasedWord) c.heads
    ∧ Memory.wf (fun _ => BitVec.ofNat 64 erasedWord) c.mark

/-- The store image is canonical over the base words (R157 to R160). -/
def imageWf (l : List (Nat × BitVec 160)) : Prop := Memory.wf baseWord l

/-- Sixteen jigs, each with a canonical store (R128, R151). -/
def jigsWf (l : List Jig) : Prop := l.length = 16 ∧ ∀ j ∈ l, imageWf j.store

/-- The records of LUNs are canonical: no LUN is listed whose record is as at reset. -/
def lunsWf (l : List (Nat × LunRec)) : Prop := Memory.wf (fun _ => ({} : LunRec)) l

/-- 256 sources, 6 targets and 30 hold-off groups (R463, R465, R471). -/
def Irq.wf (i : Irq) : Prop :=
  (i.sense.length = 256 ∧ i.route.length = 256 ∧ i.count.length = 256 ∧ i.pend.length = 256 ∧ i.input.length = 256
    ∧ i.causes.length = 256)
  ∧ (i.signalled.length = 6 ∧ i.idle.length = 6 ∧ i.noteErr.length = 6 ∧ i.signals.length = 6 ∧ i.naddr.length = 6
    ∧ i.ndata.length = 6)
  ∧ i.holdoff.length = 30 ∧ i.deadline.length = 30

/-- At most 256 requests of each host data port are outstanding (R33, R35). -/
def HostPorts.wf (h : HostPorts) : Prop := h.writes.length ≤ 256 ∧ h.reads.length ≤ 256

/-- At most sixteen EVENT frames wait for the CAN node (R511). -/
def Dict.wf (d : Dict) : Prop := d.events.length ≤ 16

/-- What every command keeps: the counts of the block's units and the canonical form of its memories. -/
structure Kept (s : State) : Prop where
  rings : s.rings.length = 64
  jigs : jigsWf s.jigs
  chans : s.chans.length = 16
  heads : s.media.heads.length = 16
  slots : 32 ≤ s.stripe.slots.length
  irq : s.irq.wf
  image : imageWf s.storeImage
  luns : lunsWf s.luns
  cab : s.cab.wf
  sram : s.sram.wf
  host : s.host.wf
  dict : s.dict.wf

/-- The primary mode is the one that R23 gives. While reset is in force BOOT holds, and of the conditions that outrank it
only the thermal latch may (R56, R60). -/
def modeFollows (s : State) : Prop :=
  (s.pins.inReset = false → s.modes.mode = s.modes.primary)
  ∧ (s.pins.inReset = true → s.modes.boot = true ∧ s.modes.holdup = false ∧ s.modes.factory = false
      ∧ (s.modes.mode = .boot ∨ s.modes.mode = s.modes.primary))

/-- The entry that a command dispatches, and its opcode (R114). -/
def entryCommand : Instr → Option (Nat × Nat)
  | .writeRow eid _ => some (eid, 0x01)
  | .read eid _ => some (eid, 0x02)
  | .releaseGroup eid => some (eid, 0x03)
  | .flush eid => some (eid, 0x04)
  | .bind eid => some (eid, 0x05)
  | .unbindForce eid => some (eid, 0x06)
  | .rawJig eid _ => some (eid, 0x10)
  | .groupOpen eid => some (eid, 0x20)
  | .groupClose eid => some (eid, 0x21)
  | .rebuildStart eid => some (eid, 0x22)
  | .refitStart eid _ => some (eid, 0x23)
  | .patrolPause eid => some (eid, 0x24)
  | .patrolResume eid => some (eid, 0x24)
  | .patrolSetRate eid => some (eid, 0x24)
  | .patrolNewLap eid => some (eid, 0x24)
  | .accumOpen eid _ => some (eid, 0x30)
  | .accumReturn eid => some (eid, 0x31)
  | .nop eid => some (eid, 0x3F)
  | _ => none

/-- Entry `eid` is `e`, of opcode `op`, and its turn to be dispatched has come; one whose dispatch reads host memory has a
tag of the port (R33, R106, R212). -/
def turn (s : State) (eid op : Nat) (e : Entry) : Prop :=
  entryAt eid s = some e ∧ e.opcode.toNat = op ∧ mayDispatch s e = true ∧ (hostReady s = true ∨ fetchesAt e = false)

/-- The state in which a dispatched entry is judged: the directory entries of its groups have been used (R323). -/
def looked (e : Entry) (s : State) : State := dispatch.cacheAll (groupsOf e) s

/-- The entry is ready to complete with a status and detail and COUNT 0; no other entry changes, and of the rest only the
directory caches and what the host port has read do. -/
def refusedWith (s : State) (o : Out) (e : Entry) (st det : Nat) : Prop :=
  ∃ t, o = .next t
    ∧ entryAt e.eid t = some { e with
        status := BitVec.ofNat 8 st, detail := BitVec.ofNat 8 det, count := 0, phase := .ready }
    ∧ (∀ k, k ≠ e.eid → entryAt k t = entryAt k s)
    ∧ t = { s with
        sched := { s.sched with entries := t.sched.entries }
        stripe := { s.stripe with cache := t.stripe.cache, lines := t.stripe.lines }
        host := { s.host with issued := t.host.issued, answered := t.host.answered } }

/-- A request of this kind, address and bytes is at the read data port or waits for it (R35). -/
def asks (t : State) (what : HostWhat) (addr : Nat) (bytes : List Byte) : Prop :=
  ∃ q ∈ t.host.writes ++ t.host.stalled, q.what = what ∧ q.addr = BitVec.ofNat 64 addr ∧ q.bytes = bytes

/-- A running jig's channel as the word of this cycle finds it: its finished bus cycles taken in, the timer and the cycle
count moved (R132, R143). -/
def jigNow (ch : Nat) (p : JigIn) (s : State) : State :=
  modJig ch (fun g => { timerTick g with cycles := g.cycles + 1, timerDone := g.timerDone }) (phyRun ch p.busDone p.dout s)

/-- Each codeword of the list goes on at a step of the ladder, under a job of that step on the page that job `j` reads (R248,
R250, R254). -/
def climbsOn (cs : List Cw) (j : Job) (step : Nat) (t : State) : Prop :=
  ∀ x ∈ cs, ∃ y ∈ t.sched.cws, y.cw = x.cw ∧ y.member = x.member ∧ y.step = step ∧ y.state = .reading
    ∧ ∃ k ∈ t.sched.jobs, k.handle = y.job ∧ k.owner = j.owner ∧ k.lun = j.lun ∧ k.block = j.block ∧ k.page = j.page
      ∧ k.step = step

/-- A message of the media port is taken and served here at once: media_ready is high, none waits, and the block is no follower,
or the message is to its accumulator (R41, R373, R420). -/
def servesMedia (m : BitVec 64) (s : State) : Prop :=
  s.pins.mediaReady = true ∧ s.media.inQ = [] ∧ (s.modes.follower = false ∨ toAccum m = true) ∧ s.media.heads.length = 16

/-- A head owes no answer, and what it is sent leaves on this block's port (R376, R420). -/
def owesNothing (h : Nat) (s : State) : Prop := (headAt h s).answers = [] ∧ (headAt h s).via = none

/-- A FEED or VERIFY finds the bind entries of its rows in the cache, and room to hold the change it may make (R379, R593). -/
def rowsHeld (m : BitVec 64) (s : State) : Prop :=
  looksUpRows m = false
  ∨ windowRoom s = true
    ∧ ∀ i ∈ bindsNear (mGroup m) (mRow m) (mRows m) s, i ∈ s.stripe.bindCache ∧ bindReading i s = false

/-- Only the media port, what leaves over Dovetail and the order of the bind entry cache have changed. -/
def onlyMedia (s t : State) : Prop :=
  t = { s with media := t.media, dv := t.dv, stripe := { s.stripe with bindCache := t.stripe.bindCache } }

/-- The commands of the messages of the media port, each with its KIND (R374). -/
def mediaCommands : List ((BitVec 64 → Instr) × Nat) :=
  [(.attach, 1), (.detach, 2), (.feed, 3), (.verifyGood, 4), (.verifyBad, 5), (.fragOpen, 8), (.pass, 9), (.fragRead, 10),
    (.fragClose, 11)]

/-- The client, index and subindex of the object that a command writes, or of authChallenge, which it reads (R492, R516, R522,
R549). -/
def objectCommand : Instr → Option (Nat × Nat × Nat)
  | .authRequest c _ => some (c, 0x1210, 1)
  | .authChallenge c _ => some (c, 0x1210, 2)
  | .authKey c _ => some (c, 0x1210, 3)
  | .authSignature c _ => some (c, 0x1210, 4)
  | .authDrop c _ => some (c, 0x1210, 6)
  | .imageTarget c _ => some (c, 0x1201, 1)
  | .imageLength c _ => some (c, 0x1201, 2)
  | .imageData c _ _ _ => some (c, 0x1201, 3)
  | .imageCheck c _ => some (c, 0x1201, 5)
  | .restoreDefaults c _ => some (c, 0x1300, 0x0A)
  | .statisticsMark c _ => some (c, 0x6000, 6)
  | .factoryRequest c _ => some (c, 0x1100, 5)
  | .raiseVendorFloor c _ => some (c, 0x3C00, 7)
  | .raiseCustomerFloor c _ => some (c, 0x3C00, 8)
  | .customerKeyProvision c _ => some (c, 0x3C00, 9)
  | .factoryPart c _ => some (c, 0x3C00, 0x0A)
  | .customerSectorData c _ => some (c, 0x3C00, 0x10)
  | _ => none

/-- The dictionary port's request has ended with this abort code, zero for none (R504). -/
def portDone (code : Nat) (t : State) : Prop :=
  t.dict.done = true ∧ t.dict.busy = false ∧ t.dict.abort = BitVec.ofNat 32 code ∧ t.dict.aborted = (code != 0)

/-- It has ended so, source 124 has fired once, and only the dictionary's own state has changed (R504). -/
def portOnly (code : Nat) (s t : State) : Prop :=
  portDone code t ∧ t.irq = s.irq.cause 124 ∧ t = { s with dict := t.dict, irq := t.irq }

/-- The commands of the dictionary port and of CAN clients, each with its operation (R503, R506). -/
def portCommands : List ((Word → Instr) × Nat) := [(.dictRead, 1), (.dictWrite, 2), (.dictDescribe, 3)]
def canCommands : List ((List Byte → Instr) × Nat) := [(.canRead, 1), (.canWrite, 2), (.canDescribe, 3), (.closeSession, 4)]

/-- A REQUEST frame that a command serves: its CMD, a client that may have a session and has not lost it, no reserved bit
(R506, R508). -/
def servesFrame (cmd : Nat) (f : List Byte) (s : State) : Prop :=
  canOn s = true ∧ byteAt f 0 = cmd ∧ 1 ≤ byteAt f 2 ∧ byteAt f 2 ≤ 127 ∧ byteAt f 2 ∉ s.dict.lostClients
    ∧ fld (byteAt f 7) 1 7 = 0

/-- An object that keeps the value written and does nothing further. -/
def keepsOnly (client idx sub : Nat) (v : List Byte) (o : Obj) : Prop :=
  o.acc = .rw ∧ o.flags / 4 % 2 = 0 ∧ ∀ x, actOn client idx sub v x = (0, x)

/-- The node has sent one RESPONSE to the REQUEST `f`: its first byte, its TOTAL field, its data (R505, R506). -/
def responds (f : List Byte) (cmd total : Nat) (data : List Byte) (s t : State) : Prop :=
  ∃ r, t.dict.canOut = s.dict.canOut ++ [(BitVec.ofNat 11 (0x480 + canNode t), r)] ∧ byteAt r 0 = cmd
    ∧ slice r 1 5 = slice (f ++ zeros 16) 1 5 ∧ byteAt r 6 = data.length ∧ leAt r 12 4 = total
    ∧ slice r 16 data.length = data

end Sys2Proof.Machine
end

