-- ==== Sys2Proof/Certificates/Slice0/Obligations.lean ====
section
/-!
DEFINITION. The statements for the provers: rules of the manual as claims about the model, one definition per statement.
What a command answers is said as an existing next state and what holds of it; where work that waited goes on after the
command's own effect, the next state is the settling of a state that has the effect.
-/
open Sys2Proof Sys2Proof.Machine

/-! ### The queue and the whole machine -/

/-- A step takes the command at the front of the queue and runs it on the state with the queue's rest; on an empty queue
one microsecond passes, and EVT_TIME counts it outside RESET and STANDBY (the model's choice, log entry 1). -/
def Obligations.StepRunsFrontCommand : Prop :=
  (∀ (c : Instr) (rest : List Instr) (s : State),
    step { s with pending := c :: rest } = exec c { s with pending := rest })
  ∧ ∀ s : State, s.pending = [] →
    ∃ t, step s = .next t ∧ t.now = s.now + 1 ∧ t.pending = []
      ∧ t.irq.evtTime = (if s.pins.inReset = true ∨ s.modes.mode = .standby then s.irq.evtTime else s.irq.evtTime + 1)
      ∧ t = { s with now := t.now, irq := { s.irq with evtTime := t.irq.evtTime } }

/-- Every command that can be presented is carried out, whatever the state; a command that names a unit the block does not
have stops with noSuchUnit (the model's choice, log entry 32), and there is no other stop. -/
def Obligations.EveryPresentableCommandGoesOn : Prop :=
  ∀ (c : Instr) (s : State),
    (wellFormed c = true → ∃ t, exec c s = .next t)
    ∧ (wellFormed c = false → exec c s = .fault .noSuchUnit)

/-- Power-on reset in force: the queue is empty, the unit counts and canonical memories are as they must be (tier 1), and the
registers of chapters 3, 4, 6, 13 and 14 that give a reset value hold it.
Log entry 4 names what in it is the model's own reading or choice. -/
def Obligations.ResetHoldsTheResetValues : Prop :=
  Kept State.reset ∧ State.reset.pending = []
  ∧ State.reset.modes.mode = .boot ∧ State.reset.modes.prevMode = .reset ∧ State.reset.modes.causePor = true
  ∧ State.reset.modes.warmCount = 0 ∧ State.reset.modes.stage = 1
  ∧ (∀ n < 64, (ringAt n State.reset).state = .disabled ∧ (ringAt n State.reset).weight = 1
      ∧ (ringAt n State.reset).inflightMax = 0x40 ∧ (ringAt n State.reset).doneCount = 0)
  ∧ (∀ n < 16, (chanAt n State.reset).mult = 1 ∧ (chanAt n State.reset).trip = 6 ∧ (chanAt n State.reset).padHold = true)
  ∧ State.reset.evq.sizeLog2 = 6 ∧ State.reset.evq.phase = true ∧ State.reset.evq.enable = false
  ∧ State.reset.sram.interval = 0x400 ∧ State.reset.pins.holdupDone = false
  ∧ (∀ n < 256, State.reset.irq.sense.getD n 0
      = (if n < 128 ∨ n = 130 then 3 else if n = 128 ∨ n = 129 then 1 else 0))

/-- Every step keeps the canonical form of the memories and the counts of the block's units.
Log entry 5 names what in it is the model's own reading or choice. -/
def Obligations.EveryStepKeepsTheForms : Prop :=
  ∀ s t : State, Kept s → step s = .next t → Kept t

/-- No command touches the commands that wait behind it, in any state whose forms are kept.
Log entry 1 names what in it is the model's own reading or choice. -/
def Obligations.CommandsLeaveTheQueueAlone : Prop :=
  ∀ (c : Instr) (s t : State), Kept s → exec c s = .next t → t.pending = s.pending

/-- While HOLDUP holds, rst_n, a soft reset request and the watchdog are ignored; the condition ends by por_n alone, which
ends it, whatever else is commanded; holdup_done, once high, stays high until por_n (R59). -/
def Obligations.OnlyPorEndsHoldup : Prop :=
  (∀ s : State, s.modes.holdup = true →
    exec .rstNAssert s = .next s ∧ exec .watchdog s = .next s ∧ ∀ v : Word, exec (.softReset v) s = .next s)
  ∧ (∀ (c : Instr) (s t : State), s.modes.holdup = true → c ≠ .porNAssert → exec c s = .next t → t.modes.holdup = true)
  ∧ (∀ s : State, ∃ t, exec .porNAssert s = .next t ∧ t.modes.holdup = false ∧ t.pins.holdupDone = false)
  ∧ (∀ (c : Instr) (s t : State), s.modes.holdup = true → s.pins.holdupDone = true → c ≠ .porNAssert →
    exec c s = .next t → t.pins.holdupDone = true)

/-- The thermal latch, and with it QUARANTINE, ends by por_n alone (R56). -/
def Obligations.OnlyPorEndsQuarantine : Prop :=
  ∀ (c : Instr) (s t : State), s.modes.quarantine = true → c ≠ .porNAssert → exec c s = .next t → t.modes.quarantine = true

/-- The primary mode is the first condition that holds in the order of R23, at reset and after every command. -/
def Obligations.PrimaryModeFollowsTheConditions : Prop :=
  modeFollows State.reset ∧ ∀ (c : Instr) (s t : State), modeFollows s → exec c s = .next t → modeFollows t

/-! ### Power: the sideband, the clamp rack, droop, overvoltage, HOLDUP (chapter 13, R42 to R44) -/

/-- A FORECAST outside HOLDUP is acknowledged and counted, replaces the one held or waiting, and is granted at once exactly
when the clamps of NAND operations and XM charges plus its share fit the budget (R42, R43, R44, R436). -/
def Obligations.ForecastIsJudgedAtOnce : Prop :=
  ∀ (m : Word) (s : State),
    sbReady s = true → s.modes.holdup = false →
    fld m.toNat 28 4 = 1 → fld m.toNat 26 2 ≠ 3 → fld m.toNat 0 16 ≠ 0 →
    ∃ t, exec (.forecast m) s = .next t
      ∧ t.pins.sbAck = true ∧ t.rack.sbMessages = satAdd s.rack.sbMessages 1 ∧ t.rack.sbIgnored = s.rack.sbIgnored
      ∧ t.rack.fcEvent = BitVec.ofNat 2 (fld m.toNat 26 2) ∧ t.rack.fcDuration = fld m.toNat 0 16
      ∧ t.rack.fcClamps = min ((fld m.toNat 16 10 * cfg 0x3800 3 s + 99) / 100) (budget s)
      ∧ t.rack.held = s.rack.held ∧ t.rack.xm = s.rack.xm ∧ t.rack.waiting = s.rack.waiting
      ∧ (if s.rack.nandHeld + t.rack.fcClamps ≤ budget s then
          t.rack.fcHeld = true ∧ t.rack.fcWaiting = false ∧ t.rack.fcDeadline = s.now + 1000 * fld m.toNat 0 16
            ∧ t.stats.forecastsGranted = s.stats.forecastsGranted + 1
        else t.rack.fcHeld = false ∧ t.rack.fcWaiting = true ∧ t.stats.forecastsGranted = s.stats.forecastsGranted)

/-- Sideband messages other than a forecast that is judged: a REVOKE returns or cancels the forecast; an unknown KIND, EVENT
0b11 or DURATION 0 is acknowledged, ignored and counted and leaves a forecast alone, and so is a FORECAST in HOLDUP; lowering
sb_req lowers sb_ack; the end of DURATION returns the clamps (R42, R43, R44, R442, R443). -/
def Obligations.SidebandMessagesAreAcknowledged : Prop :=
  (∀ (m : Word) (s : State), sbReady s = true → fld m.toNat 28 4 = 2 →
    ∃ t, exec (.revoke m) s = .next t ∧ t.pins.sbAck = true ∧ t.rack.sbMessages = satAdd s.rack.sbMessages 1
      ∧ t.rack.sbIgnored = s.rack.sbIgnored ∧ t.rack.fcHeld = false ∧ t.rack.fcWaiting = false
      ∧ t.rack.held = s.rack.held ∧ t.rack.xm = s.rack.xm ∧ t.rack.waiting = s.rack.waiting)
  ∧ (∀ (m : Word) (s : State), sbReady s = true →
      ((fld m.toNat 28 4 ≠ 1 ∧ fld m.toNat 28 4 ≠ 2 ∧ fld m.toNat 28 4 ≠ 3)
        ∨ (fld m.toNat 28 4 = 1 ∧ (fld m.toNat 26 2 = 3 ∨ fld m.toNat 0 16 = 0))) →
    ∃ t, exec (.sidebandIgnored m) s = .next t ∧ t.pins.sbAck = true
      ∧ t.rack = { s.rack with sbMessages := satAdd s.rack.sbMessages 1, sbIgnored := satAdd s.rack.sbIgnored 1 })
  ∧ (∀ (m : Word) (s : State), sbReady s = true → s.modes.holdup = true →
      fld m.toNat 28 4 = 1 → fld m.toNat 26 2 ≠ 3 → fld m.toNat 0 16 ≠ 0 →
    ∃ t, exec (.forecast m) s = .next t ∧ t.pins.sbAck = true
      ∧ t.rack = { s.rack with sbMessages := satAdd s.rack.sbMessages 1, sbIgnored := satAdd s.rack.sbIgnored 1 })
  ∧ (∀ s : State, exec .sbReqLowered s = .next { s with pins := { s.pins with sbAck := false } })
  ∧ (∀ s : State, s.rack.fcHeld = true →
    exec .forecastExpiry s = .next { s with rack := { s.rack with fcHeld := false } })

/-- MEDIA_ABORT is acknowledged, cuts the run, feed and pass of every head its mask names and clears its fed list, counts for
those heads and once for the block, and leaves the forecast alone; the record of the abort joins the journal (R43, R400). -/
def Obligations.MediaAbortCutsTheHeadsNamed : Prop :=
  ∀ (m : Word) (s : State), sbReady s = true → fld m.toNat 28 4 = 3 →
    s.media.heads.length = 16 → s.media.inQ = [] →
    ∃ t, exec (.mediaAbort m) s = .next t ∧ t.pins.sbAck = true ∧ t.media.aborts = s.media.aborts + 1
      ∧ t.rack.fcHeld = s.rack.fcHeld ∧ t.rack.fcWaiting = s.rack.fcWaiting
      ∧ t.rack.sbMessages = satAdd s.rack.sbMessages 1
      ∧ (∀ h < 16, bitAt (fld m.toNat 0 16) h = true →
          (headAt h t).fed = [] ∧ (headAt h t).feed = none ∧ (headAt h t).pass = none
            ∧ (headAt h t).aborts = (headAt h s).aborts + 1)
      ∧ (∀ h < 16, bitAt (fld m.toNat 0 16) h = false → (headAt h t).aborts = (headAt h s).aborts)

/-- One CORE cycle of the rack takes no more clamps than the budget in force: a forecast and NAND work that fit it before fit
it after (R16, R436, R437). A waiting request of a channel in XM asks for the charge of 2 (R436). -/
def Obligations.ClampGrantsStayWithinTheBudget : Prop :=
  ∀ s : State, (∀ r ∈ s.rack.waiting, ∀ ch, r.who = .xm ch → r.clamps = 2) → s.rack.total ≤ budget s →
    ∃ t, exec .clampGrant s = .next t ∧ t.rack.total ≤ budget t ∧ budget t = budget s

/-- The order of the rack: a forecast that waits and does not fit holds back everything; with no forecast waiting, a single
jig request that fits the budget and the ramp is granted to its jig, unless the overvoltage stop holds it back. A request
that has waited longer than deferEvent raises the power event once and counts; the charge of a channel whose bus queue holds
no data burst is returned (R183, R438, R439, R440, R442, R445). -/
def Obligations.ClampGrantOrderAndDeferral : Prop :=
  (∀ s : State, s.rack.fcWaiting = true → budget s < s.rack.nandHeld + s.rack.fcClamps → exec .clampGrant s = .next s)
  ∧ (∀ (s : State) (r : RackReq) (ch : Nat), s.rack.fcWaiting = false → s.rack.waiting = [r] → r.who = .jig ch → ch < 16 →
      s.jigs.length = 16 → (s.power.ovStage = 0 ∨ s.modes.holdup = true ∨ writeClass s r.who = false) →
      s.rack.total + r.clamps ≤ budget s → rampSum s + r.clamps ≤ cfg 0x3800 4 s →
    ∃ t, exec .clampGrant s = .next t ∧ t.rack.waiting = [] ∧ t.rack.held = addHeld ch r.lun r.clamps s.rack.held
      ∧ (jigAt ch t).clampGrant = true ∧ (jigAt ch t).clampWait = false)
  ∧ (∀ (s : State) (r : RackReq) (ch : Nat), s.rack.fcWaiting = false → s.rack.waiting = [r] → r.who = .jig ch →
      s.power.ovStage ≠ 0 → s.modes.holdup = false → writeClass s r.who = true → exec .clampGrant s = .next s)
  ∧ (∀ s : State, s.rack.fcWaiting = true → s.rack.fcDeferred = false →
    ∃ t, exec (.deferEvent .forecast) s = .next t ∧ t.rack.fcDeferred = true
      ∧ t.rack.deferred = satAdd s.rack.deferred 1 ∧ t.irq = s.irq.cause 121
      ∧ exec (.deferEvent .forecast) t = .next t)
  ∧ (∀ (s : State) (ch : Nat) (r : RackReq), r ∈ s.rack.waiting → r.who = .jig ch → r.deferred = false →
      (s.power.ovStage = 0 ∨ s.modes.holdup = true ∨ writeClass s (.jig ch) = false) →
    ∃ t, exec (.deferEvent (.jig ch)) s = .next t ∧ t.rack.deferred = satAdd s.rack.deferred 1
      ∧ t.irq = s.irq.cause 121 ∧ (∀ x ∈ t.rack.waiting, x.who = .jig ch → x.deferred = true)
      ∧ exec (.deferEvent (.jig ch)) t = .next t)
  ∧ (∀ (s : State) (ch : Nat), ch < 16 → (∀ b ∈ (jigAt ch s).busQ, b.code ≠ 4 ∧ b.code ≠ 5) →
    ∃ t, exec (.xmChargeRelease ch) s = .next t ∧ ch ∉ t.rack.xm
      ∧ (∀ c, c ≠ ch → (c ∈ t.rack.xm ↔ c ∈ s.rack.xm)) ∧ t = { s with rack := { s.rack with xm := t.rack.xm } })

/-- A droop trip stretches the clocks and counts; 4 µs above the threshold restore them. Overvoltage: the alert opens stage 1,
counts it and, outside STANDBY, changes nothing else; stage 2 sets the fence with its cause and suspends the erases that may be
suspended, by the suspend command on their channel's bus; the clear ends both stages and lifts the overvoltage cause (R18, R444, R445, R446, R448).
Log entry 131 names what in it is the model's own reading or choice. -/
def Obligations.DroopAndOvervoltage : Prop :=
  (∀ (d : Nat) (s : State), d < 4 →
    ∃ t, exec (.droopTrip d) s = .next t ∧ t.modes.stretched = true ∧ t.power.droopCount = s.power.droopCount + 1
      ∧ t.modes.mode = s.modes.mode
      ∧ t = { s with modes := { s.modes with stretched := true }, power := { s.power with droopCount := t.power.droopCount } })
  ∧ (∀ s : State, ∃ t, exec .droopRestore s = .next t ∧ t.modes.stretched = false
      ∧ t = { s with modes := { s.modes with stretched := false } })
  ∧ (∀ s : State, s.pins.inReset = false → s.modes.standby = false →
    ∃ t, exec .ovAlert s = .next t ∧ t.pins.ovAlert = true
      ∧ t.power.ovStage = (if s.power.ovStage = 0 then 1 else s.power.ovStage)
      ∧ t.power.ovAlerts = (if s.power.ovStage = 0 then satAdd s.power.ovAlerts 1 else s.power.ovAlerts)
      ∧ t.modes = s.modes
      ∧ t = { s with pins := { s.pins with ovAlert := true }, power := t.power })
  ∧ (∀ s : State, s.pins.ovAlert = true → s.power.ovStage = 1 →
    ∃ t u, exec .ovStage2 s = .next t ∧ t = settle u ∧ t.power.ovStage = 2 ∧ t.modes.fenceOv = true
      ∧ t.modes.mode = t.modes.primary ∧ t.power.ovSuspended = (s.sched.jobs.filter (suspended s)).map (·.lun)
      ∧ (∀ j ∈ s.sched.jobs, suspended s j = true → j.abortReq = false → 0 < heldFor j.ch j.lun s → j.ch < s.jigs.length →
          suspendCycle j s ∈ (jigAt j.ch u).busQ))
  ∧ (∀ s : State, s.pins.inReset = false → s.power.ovStage ≠ 2 →
    ∃ t, exec .vm31Crossing s = .next t ∧ t.pins.ovHard = true ∧ t.power.ovStage = 2 ∧ t.modes.fenceOv = true
      ∧ t.modes.mode = t.modes.primary)
  ∧ (∀ s : State, s.pins.inReset = false → s.power.ovStage ≠ 0 →
    ∃ t, exec .ovClear s = .next t ∧ t.power.ovStage = 0 ∧ t.pins.ovAlert = false ∧ t.pins.ovHard = false
      ∧ (s.power.ovStage = 2 → t.modes.fenceOv = false ∧ t.modes.mode = t.modes.primary)
      ∧ (s.power.ovStage = 1 → t.modes.fenceOv = s.modes.fenceOv))

/-- pwr_fail_n taken as asserted sets HOLDUP in every mode from BOOT onwards. holdup_done rises only in HOLDUP once the flush is
done, what waited having gone on first, and its time is recorded in units of 10 µs (R23, R46, R56, R450, R461).
Log entry 46 names what in it is the model's own reading or choice. -/
def Obligations.HoldupBeginsAndEnds : Prop :=
  (∀ s : State, s.pins.inReset = false → ∃ t, exec .pwrFail s = .next t ∧ t.modes.holdup = true
    ∧ (s.modes.holdup = false → t.pins.pwrFail = true ∧ t.power.holdupStart = s.now ∧ t.rack.fcHeld = false))
  ∧ (∀ s : State, s.modes.holdup = false → exec .holdupDone s = .next s)
  ∧ (∀ s : State, s.modes.holdup = true → s.pins.holdupDone = false → s.power.latchSeq = 0 → flushDone (settle s) = true →
    ∃ t, exec .holdupDone s = .next t ∧ t.pins.holdupDone = true ∧ t.modes.holdup = true ∧ t.hk = s.hk
      ∧ t.power.holdupTime = satAdd (0 : BitVec 16) ((s.now - s.power.holdupStart) / 10))

/-- A housekeeping round whose reference check passes is published whole; one whose check fails publishes nothing and counts,
and the third in a row raises the thermal record (R456, R462).
Log entry 45 names what in it is the model's own reading or choice. -/
def Obligations.HousekeepingRounds : Prop :=
  (∀ (r : RoundIn) (s : State), s.pins.inReset = false → r.refOk = true → s.modes.standby = false → s.hk.latchRun.toNat < 2 →
    ∃ t, exec (.hkRoundEnd r) s = .next t ∧ t.hk.rounds = s.hk.rounds + 1 ∧ t.hk.discardRun = 0
      ∧ t.hk.discarded = s.hk.discarded
      ∧ (∀ i < 24, t.hk.temps.getD i 0 = r.temps.getD i 0) ∧ (∀ i < 32, t.hk.volts.getD i 0 = r.volts.getD i 0)
      ∧ (∀ i < 24, (r.temps.getD i 0).toInt ≤ t.hk.tmax.toInt)
      ∧ t.hk.tmaxSensor.toNat < 24 ∧ t.hk.tmax = r.temps.getD t.hk.tmaxSensor.toNat 0
      ∧ t.hk.latchRun.toNat = (if 500 ≤ t.hk.tmax.toInt then s.hk.latchRun.toNat + 1 else 0))
  ∧ (∀ (r : RoundIn) (s : State), s.pins.inReset = false → r.refOk = false → s.hk.discardRun < 2 →
    ∃ t, exec (.hkRoundEnd r) s = .next t
      ∧ t = { s with hk := { s.hk with discarded := satAdd s.hk.discarded 1, discardRun := s.hk.discardRun + 1 } })
  ∧ (∀ (r : RoundIn) (s : State), s.pins.inReset = false → r.refOk = false → s.hk.discardRun = 2 →
    ∃ t, exec (.hkRoundEnd r) s = .next t ∧ t.hk.discarded = satAdd s.hk.discarded 1 ∧ t.hk.discardRun = 0
      ∧ t.hk.temps = s.hk.temps ∧ t.hk.rounds = s.hk.rounds ∧ t.evq.rseq = s.evq.rseq + 1
      ∧ t.irq.raises = s.irq.raises.modify 6 (fun c => satAdd c 1))

/-- The third published round in a row at 125 °C or more sets QUARANTINE; the time limit of step 2 of the latch sequence
abandons what has not ended (R458, R459).
Log entry 46 names what in it is the model's own reading or choice. -/
def Obligations.ThermalLatch : Prop :=
  (∀ (r : RoundIn) (s : State), s.pins.inReset = false → r.refOk = true → s.hk.latchRun.toNat = 2 →
      (∃ i < 24, 500 ≤ (r.temps.getD i 0).toInt) →
    ∃ t, exec (.hkRoundEnd r) s = .next t ∧ t.modes.quarantine = true)
  ∧ (∀ s : State, s.power.latchSeq = 1 →
    ∃ t, exec .latchOpsTimeout s = .next t ∧ (t.power.latchSeq = 2 ∨ t.power.latchSeq = 3)
      ∧ ∀ j ∈ t.sched.jobs, j.state = .popped → ownLun j.lun s = false)
  ∧ (∀ s : State, s.power.latchSeq ≠ 1 → exec .latchOpsTimeout s = .next s)

/-! ### Reset, start-up and STANDBY (chapter 3) -/

/-- The causes of a reset. por_n takes effect always and begins a cold reset: everything is at its reset value but what R60
keeps, and the change into RESET is recorded. The other three are ignored in HOLDUP and begin a warm reset elsewhere, which
keeps the statistics, the raise counts and the thermal latch, and counts (R57, R58, R59, R60, R61).
Log entries 29, 42 and 100 name what in it is the model's own reading or choice. -/
def Obligations.ResetCausesBeginAReset : Prop :=
  (∀ s : State, ∃ t, exec .porNAssert s = .next t ∧ t.pins = State.reset.pins ∧ t.now = 0
    ∧ t.modes = { dieId := s.modes.dieId, leadOk := s.modes.leadOk, factoryReq := s.modes.factoryReq }
    ∧ t.stats = {}
    ∧ t.cab.ret = (0, 0, 0) ∧ t.cab.markLocked = false ∧ t.cab.prog = none ∧ t.cab.erase = none
    ∧ (s.cab.prog = none → s.cab.erase = none → t.cab.words = s.cab.words ∧ t.cab.mark = s.cab.mark)
    ∧ ((s.pins.inReset = false ∨ s.pins.powered = false) → t.evq.logged = s.evq.logged ++ [padTo 32 (resetRecord s)])
    ∧ t = { State.reset with
        pending := s.pending, now := 0, freeCtr := t.freeCtr, modes := t.modes, cab := t.cab, stats := t.stats
        bg := { spareNext := s.bg.spareNext }, evq := { logged := t.evq.logged }
        stripe := { unlisted := s.stripe.unlisted } })
  ∧ (∀ (c : Instr) (s : State),
      (c = .rstNAssert ∨ c = .watchdog ∨ ∃ v, c = .softReset v ∧ fld v.toNat 16 16 = 0xD1AD ∧ fld v.toNat 0 4 = 1) →
      (s.modes.holdup = true → exec c s = .next s)
      ∧ (s.modes.holdup = false → s.pins.inReset = false → s.pins.powered = true →
        ∃ t, exec c s = .next t ∧ t.pins = State.reset.pins ∧ t.rings = State.reset.rings
          ∧ t.sched = State.reset.sched ∧ t.stripe = { unlisted := s.stripe.unlisted } ∧ t.rack = State.reset.rack
              ∧ t.irq = { State.reset.irq with raises := s.irq.raises }
          ∧ t.evq = { logged := s.evq.logged ++ [padTo 32 (resetRecord s)] } ∧ t.host = State.reset.host
          ∧ t.modes.mode = .boot ∧ t.modes.prevMode = .reset ∧ t.modes.boot = true
          ∧ t.modes.quarantine = s.modes.quarantine ∧ t.modes.dieId = s.modes.dieId ∧ t.modes.leadOk = s.modes.leadOk
          ∧ t.modes.warmCount = satAdd s.modes.warmCount 1
          ∧ (t.modes.causePin = true ↔ s.modes.causePin = true ∨ c = .rstNAssert)
          ∧ (t.modes.causeWdog = true ↔ s.modes.causeWdog = true ∨ c = .watchdog)
          ∧ (t.modes.causeSoft = true ↔ s.modes.causeSoft = true ∨ ∃ v, c = .softReset v)
          ∧ t.modes.causePor = s.modes.causePor
          ∧ t.stats = s.stats ∧ t.now = s.now ∧ t.bg.spareNext = s.bg.spareNext))

/-- A write of MODE_CTRL without its KEY does nothing; REQ 0x2 is accepted on a lead block in SERVICE, DEGRADED or
WRITE_FENCED and refused elsewhere (R62, R77, R55).
Log entry 44 names what in it is the model's own reading or choice. -/
def Obligations.ModeCtrlRequests : Prop :=
  (∀ (v : Word) (s : State), fld v.toNat 16 16 ≠ 0xD1AD →
    exec (.softReset v) s = .next s ∧ exec (.enterStandby v) s = .next s)
  ∧ (∀ (v : Word) (s : State), fld v.toNat 16 16 = 0xD1AD → fld v.toNat 0 4 = 2 → s.pins.inReset = false →
    ∃ t, exec (.enterStandby v) s = .next t
      ∧ t = { s with modes := { s.modes with stbyRequested := t.modes.stbyRequested, stbyRefused := t.modes.stbyRefused } }
      ∧ (if s.modes.lead = true ∧ (s.modes.mode = .service ∨ s.modes.mode = .degraded ∨ s.modes.mode = .writeFenced) then
          t.modes.stbyRequested = true ∧ t.modes.stbyRefused = s.modes.stbyRefused
        else t.modes.stbyRefused = true ∧ t.modes.stbyRequested = s.modes.stbyRequested))
  ∧ (∀ s : State, s.modes.stbyRequested = true →
    exec .stbyRefused s
      = .next { s with modes := { s.modes with stbyRequested := false, stbyRefused := true } })

/-- STANDBY is entered once its conditions hold, with the clocks saved, and the AON timer ends it: its source fires and the mode
is the one that the other conditions give (R77, R78, R262, R469).
Log entry 44 names what in it is the model's own reading or choice. -/
def Obligations.StandbyEntryAndWake : Prop :=
  (∀ s : State, standbyReady s = true →
    ∃ t, exec (.standbyEntry true) s = .next t ∧ t.modes.standby = true ∧ t.modes.stbyRequested = false
      ∧ t.modes.quarantine = s.modes.quarantine ∧ t.modes.holdup = s.modes.holdup
      ∧ t.cab = (saveClocks { s with modes := { s.modes with stbyRequested := false } }).cab)
  ∧ (∀ s : State, exec (.standbyEntry false) s = .next s)
  ∧ (∀ s : State, s.pins.inReset = false →
    ∃ t, exec .aonTimerExpiry s = .next t ∧ t.modes.standby = false
      ∧ t.irq.pend.getD 130 false = (s.irq.cause 130).pend.getD 130 false
      ∧ t.irq.count.getD 130 0 = (s.irq.cause 130).count.getD 130 0
      ∧ (s.irq.sense.getD 130 0 = 3 → s.irq.input.getD 130 false = false → 130 < s.irq.pend.length →
          t.irq.pend.getD 130 false = true)
      ∧ (s.modes.standby = true → t.modes.mode = t.modes.primary ∧ (s.modes.mode = .standby → t.modes.prevMode = .standby)
          ∧ (∀ n < s.chans.length, (chanAt n t).driftCheck = true) ∧ s.irq.evtTime.toNat ≤ t.irq.evtTime.toNat)
      ∧ (s.modes.standby = false → t = raise 130 s))

/-- BOOT: reset is released; the straps are sampled after por_n; the thermal latch ends start-up at step 4 in QUARANTINE, a
blank mark row in FACTORY; a mark row that fails its check stops it (R47, R53, R61, R64, R65, R70).
Log entry 42 names what in it is the model's own reading or choice. -/
def Obligations.BootBeginsAsTheMarkRowSays : Prop :=
  ∀ (b : BootIn) (s : State), s.pins.inReset = true → s.pins.powered = true →
    ∃ t, exec (.resetDeassert b) s = .next t ∧ t.pins.inReset = false ∧ t.modes.quarHeld = s.modes.quarantine
      ∧ t.modes.quarantine = s.modes.quarantine
      ∧ t.modes.dieId = (if s.modes.porCold = true then b.dieId else s.modes.dieId)
      ∧ t.modes.leadOk = (if s.modes.porCold = true then b.leadOk else s.modes.leadOk)
      ∧ (s.modes.porCold = false → t.stats.powerCycles = s.stats.powerCycles)
      ∧ (s.modes.quarantine = true →
          t.modes.mode = .quarantine ∧ t.modes.stage = 4 ∧ t.modes.boot = false ∧ t.cab.markLocked = true)
      ∧ (s.modes.quarantine = false → s.modes.holdup = false → markBlank s = true →
          t.modes.mode = .factory ∧ t.modes.stage = 4 ∧ t.modes.boot = false ∧ t.cab.markLocked = true)
      ∧ (s.modes.quarantine = false → markBlank s = false → s.modes.factoryReq = false → factoryOk s = false →
          t.modes.stage = 3 ∧ t.modes.boot = s.modes.boot ∧ t.modes.bootError
            = (if s.modes.bootError = 0 then 1 else s.modes.bootError))
      ∧ (s.modes.quarantine = false → markBlank s = false → factoryOk s = true → s.modes.factoryReq = false →
          t.cab.markLocked = true
            ∧ (t.modes.bootFallback = false → s.modes.porCold = true → 1 ≤ t.stats.powerCycles)
            ∧ (t.modes.bootFallback = true ∨ (if 440 ≤ b.tmax.toInt then
            t.modes.stage = 0xA ∧ t.modes.bootHot = true else t.modes.stage = 0xB)))

/-- TRAIN is entered from the last step of BOOT: the enabled channels leave pad hold and their jigs run from address 0; a
target that is not ready in time is suspect on its four LUNs (R73, R74, R190).
Log entry 43 names what in it is the model's own reading or choice. -/
def Obligations.TrainingStarts : Prop :=
  (∀ (ts : List ChanTrainIn) (s : State),
      s.modes.boot = true → s.modes.stage = 0xB → s.modes.bootHot = false → s.pins.inReset = false → s.modes.holdup = false →
      s.modes.quarantine = false → s.modes.mode = .boot → s.modes.factory = false → s.chans.length = 16 → s.jigs.length = 16 →
    ∃ t, exec (.trainEntry ts) s = .next t ∧ t.modes.boot = false ∧ 0xD ≤ t.modes.stage
      ∧ (s.power.latchSeq = 0 → ∀ n < 16, (chanAt n s).enabled = true → (chanAt n t).padHold = false
          ∧ (jigAt n t).state = .running ∧ (jigAt n t).pc = 0))
  ∧ (∀ (ts : List ChanTrainIn) (s : State), (s.modes.boot = false ∨ s.modes.stage ≠ 0xB ∨ s.modes.bootHot = true) →
    exec (.trainEntry ts) s = .next s)
  ∧ (∀ (ch ce : Nat) (s : State), ch < 16 → ce < 8 → s.chans.length = 16 →
    ∃ t, exec (.targetReadyTimeout ch ce) s = .next t
      ∧ t = { s with chans := t.chans }
      ∧ (s.modes.train = false → t = s)
      ∧ (s.modes.train = true → ∀ l < 4, globalLun ch ce l s ∈ (chanAt ch t).suspects)
      ∧ (∀ n, n ≠ ch → chanAt n t = chanAt n s))

/-! ### Work rings (chapter 4) -/

/-- A command that dispatches an entry does nothing until an entry with its handle and opcode has its turn (R106, R212). -/
def Obligations.EntriesWaitTheirTurn : Prop :=
  ∀ (c : Instr) (eid op : Nat) (s : State), entryCommand c = some (eid, op) → (∀ e, ¬ turn s eid op e) →
    exec c s = .next s

/-- Ring control: enabling makes a well-configured DISABLED ring ACTIVE from its start and PRIV, and refuses others with cause
0xD; a doorbell sets DB_PEND, wakes an IDLE ring in a mode that fetches and is ignored while DISABLED or SHUTTING_DOWN; a
restart takes effect in ERROR once INFLIGHT is zero (R91, R94, R105, R414).
Log entry 48 names what in it is the model's own reading or choice. -/
def Obligations.RingControl : Prop :=
  (∀ (n : Nat) (s : State), n < 64 → s.rings.length = 64 →
    ∃ t, exec (.ringEnable n) s = .next t ∧ t = { s with rings := t.rings } ∧ (∀ m, m ≠ n → ringAt m t = ringAt m s)
      ∧ ((ringAt n s).state ≠ .disabled → t = s)
      ∧ ((ringAt n s).state = .disabled →
          if s.modes.follower = false ∧ 4 ≤ (ringAt n s).depthLog2.toNat ∧ (ringAt n s).depthLog2.toNat ≤ 16
            ∧ (ringAt n s).start.toNat < (ringAt n s).depth then
            ringAt n t = { ringAt n s with
              state := .active, head := (ringAt n s).start, priv := BitVec.ofNat 2 (cfg (0x1401 + n) 1 s), fetched := 0
              chain := none }
          else ringAt n t = { ringAt n s with cause := 0xD }))
  ∧ (∀ (n : Nat) (v : Word) (s : State), n < 64 → s.rings.length = 64 → s.modes.standby = false →
    ∃ t, exec (.ringDoorbell n v) s = .next t ∧ t = { s with rings := t.rings } ∧ (∀ m, m ≠ n → ringAt m t = ringAt m s)
      ∧ (if (ringAt n s).state = .disabled ∨ (ringAt n s).state = .shuttingDown then t = s
        else ringAt n t = { ringAt n s with
          dbPend := true
          state := if (ringAt n s).state = .idle ∧ fetchMode s = true then .active else (ringAt n s).state }))
  ∧ (∀ (n : Nat) (v : Word) (s : State), n < 64 → s.modes.standby = true →
    ∃ t, exec (.ringDoorbell n v) s = .next t ∧ t.modes.standby = false ∧ t.modes.mode = t.modes.primary)
  ∧ (∀ (n : Nat) (s : State), n < 64 → s.rings.length = 64 →
    ∃ t, exec (.ringRestart n) s = .next t ∧ t = { s with rings := t.rings } ∧ (∀ m, m ≠ n → ringAt m t = ringAt m s)
      ∧ ((ringAt n s).state ≠ .error → t = s)
      ∧ ((ringAt n s).state = .error → (ringAt n s).inflight ≠ 0 →
          ringAt n t = { ringAt n s with restartPend := true })
      ∧ ((ringAt n s).state = .error → (ringAt n s).inflight = 0 →
          ringAt n t = { ringAt n s with
            state := .active, head := (ringAt n s).start, dbPend := true, cause := 0, restartPend := false, chain := none }))

/-- A ring fetches only when weighted round robin grants it, in a mode that fetches, with a tag of the host port free. A
fabric error stops it with cause 0xE; OWN = 0 makes it IDLE; a well-formed entry that stands alone joins the list with HEAD
past it; one that is not completes MALFORMED with its cause, before the ring stops (R95, R96, R103, R124, R125, R127).
Log entry 47 names what in it is the model's own reading or choice. -/
def Obligations.RingFetchTakesTheWinner : Prop :=
  (∀ (n : Nat) (u rest : HostRead) (s : State), n < 64 → (∀ new, wrrWinner s ≠ some (n, new)) ∨ fetchMode s = false
      ∨ hostReady s = false →
    exec (.ringFetch n u rest) s = .next s)
  ∧ (∀ (n : Nat) (new : Bool) (rest : HostRead) (s : State), n < 64 → wrrWinner s = some (n, new) → fetchMode s = true →
      hostReady s = true →
    ∃ t, exec (.ringFetch n .err rest) s = .next t ∧ (ringAt n t).state = .error ∧ (ringAt n t).cause = 0xE
      ∧ (ringAt n t).errIndex = (ringAt n s).head ∧ t.irq = s.irq.cause 64
      ∧ t.stats.malformedCount = s.stats.malformedCount + 1 ∧ t.sched.entries = s.sched.entries)
  ∧ (∀ (n : Nat) (new : Bool) (b u : List Byte) (rest : HostRead) (s : State), n < 64 → wrrWinner s = some (n, new) →
      fetchMode s = true → hostReady s = true → linesOf (ringAt n s).headAddr 32 (.ok b) = .ok u → (parseHead u).own = false →
    ∃ t, exec (.ringFetch n (.ok b) rest) s = .next t ∧ (ringAt n t).state = .idle ∧ (ringAt n t).dbPend = false
      ∧ (ringAt n t).head = (ringAt n s).head
      ∧ t = { s with
          rings := t.rings, sched := { s.sched with rrRing := n }
          host := { s.host with issued := s.host.issued + 1, answered := t.host.answered } })
  ∧ (∀ (n : Nat) (new : Bool) (b u bs : List Byte) (rest : HostRead) (s : State), n < 64 → wrrWinner s = some (n, new) →
      fetchMode s = true → hostReady s = true → linesOf (ringAt n s).headAddr 32 (.ok b) = .ok u →
          (parseHead u).own = true → (parseHead u).last = true → (ringAt n s).chain = none →
      fld (parseHead u).byte0.toNat 3 2 = 0 → (ringAt n s).head.toNat + (parseHead u).units ≤ (ringAt n s).depth →
      (if (parseHead u).units = 1 then HostRead.ok [] else linesOf ((ringAt n s).headAddr + 32) 224 rest) = .ok bs →
      entryFault (ringAt n s).priv.toNat none (parseHead u) bs = none →
    ∃ t, exec (.ringFetch n (.ok b) rest) s = .next t
      ∧ t.sched.entries = s.sched.entries ++ [entryOf n s.sched.nextEid (parseHead u) (ringAt n s).head.toNat
          (elementsOf (parseHead u).units bs)]
      ∧ t.sched.nextEid = s.sched.nextEid + 1 ∧ (ringAt n t).state = .active
      ∧ (ringAt n t).head = BitVec.ofNat 16 (((ringAt n s).head.toNat + (parseHead u).units) % (ringAt n s).depth)
      ∧ (ringAt n t).inflight = (ringAt n s).inflight + 1 ∧ t.stats.entriesFetched = s.stats.entriesFetched + 1)
  ∧ (∀ (n : Nat) (new : Bool) (b u bs : List Byte) (rest : HostRead) (c : Nat) (s : State), n < 64 →
      wrrWinner s = some (n, new) → fetchMode s = true → hostReady s = true →
      linesOf (ringAt n s).headAddr 32 (.ok b) = .ok u → (parseHead u).own = true → (ringAt n s).chain = none →
      fld (parseHead u).byte0.toNat 3 2 = 0 → (ringAt n s).head.toNat + (parseHead u).units ≤ (ringAt n s).depth →
      (if (parseHead u).units = 1 then HostRead.ok [] else linesOf ((ringAt n s).headAddr + 32) 224 rest) = .ok bs →
      entryFault (ringAt n s).priv.toNat none (parseHead u) bs = some c →
    ∃ t x, exec (.ringFetch n (.ok b) rest) s = .next t ∧ t.sched.entries = s.sched.entries ++ [x] ∧ x.ring = n
      ∧ x.status = 0x20 ∧ x.detail = BitVec.ofNat 8 c ∧ x.phase = .ready ∧ x.stopper = true
      ∧ (ringAt n t).stopPend = some (c, (ringAt n s).head.toNat) ∧ (ringAt n t).head = (ringAt n s).head)

/-- SHUTDOWN: ignored while DISABLED or SHUTTING_DOWN; entries not started complete ABORTED with DETAIL 0x01; then those
found from HEAD with OWN = 1, one at a time and only in a mode that fetches, with DETAIL 0x02; with nothing left the ring is
DISABLED and source 64 fires (R94, R126, R127). -/
def Obligations.RingShutdownEndsTheRing : Prop :=
  (∀ (n : Nat) (walk : List HostRead) (s : State), n < 64 →
      ((ringAt n s).state = .disabled ∨ (ringAt n s).state = .shuttingDown) →
    exec (.ringShutdown n walk) s = .next s)
  ∧ (∀ (n : Nat) (s : State), n < 64 → s.rings.length = 64 → (ringAt n s).state ≠ .disabled →
      (ringAt n s).state ≠ .shuttingDown → (ringAt n s).stopPend = none → ofRing n s = [] →
    ∃ t, exec (.ringShutdown n []) s = .next t ∧ t.irq = s.irq.cause 64
      ∧ ringAt n t = { ringAt n s with
          state := .disabled, restartPend := false, dbPend := false, chain := none, stopPend := none, walk := []
          walkLeft := 0, walkChain := none }
      ∧ t = { s with rings := t.rings, irq := t.irq })
  ∧ (∀ (n eid : Nat) (walk : List HostRead) (e : Entry) (s : State), n < 64 → (ringAt n s).state ≠ .disabled →
      (ringAt n s).state ≠ .shuttingDown → entryAt eid s = some e → e.ring = n → entryStarted s e = false →
    ∃ t x, exec (.ringShutdown n walk) s = .next t ∧ entryAt eid t = some x ∧ x.status = 0x10 ∧ x.detail = 1
      ∧ x.phase = .ready)
  ∧ (∀ (n : Nat) (b u : List Byte) (more : List HostRead) (s : State), n < 64 → s.rings.length = 64 →
      (ringAt n s).state ≠ .disabled → (ringAt n s).state ≠ .shuttingDown → (ringAt n s).stopPend = none → ofRing n s = [] →
    (fetchMode s = false → ∃ t, exec (.ringShutdown n (.ok b :: more)) s = .next t ∧ t.sched = s.sched ∧ t.host = s.host
      ∧ (ringAt n t).state = .shuttingDown ∧ (ringAt n t).walk = .ok b :: more)
    ∧ (fetchMode s = true → hostReady s = true → s.sched.entries.length < 2048 →
        linesOf (ringAt n s).headAddr 32 (.ok b) = .ok u → (parseHead u).own = true → (parseHead u).last = true →
            (parseHead u).units = 1 →
        fld (parseHead u).byte0.toNat 3 2 = 0 → (ringAt n s).head.toNat + 1 ≤ (ringAt n s).depth →
        entryFault (ringAt n s).priv.toNat none (parseHead u) [] = none →
      ∃ t x, exec (.ringShutdown n (.ok b :: more)) s = .next t ∧ x ∈ t.sched.entries ∧ x.eid = s.sched.nextEid ∧ x.ring = n
        ∧ x.tag = BitVec.ofNat 16 (parseHead u).tag ∧ x.status = 0x10 ∧ x.detail = 2 ∧ x.phase = .ready
        ∧ (ringAt n t).state = .shuttingDown ∧ (ringAt n t).dbPend = false ∧ (ringAt n t).walk = more))

/-- A completion is two requests: bytes 24 to 31 of the last unit, then byte 0 with OWN cleared. The second acknowledgement ends
the entry; a fabric error on either stops the ring with cause 0xF; one on write data ends its entry HOST_FABRIC_ERROR, and one
on a notification sets its target's flag (R37, R38, R108, R122, R470). -/
def Obligations.CompletionsAreWrittenInTwoSteps : Prop :=
  (∀ (eid : Nat) (s : State) (e : Entry), entryAt eid s = some e → e.phase = .ready → dataOut eid s = false →
      mayComplete e s = true → recordOk e s = true → s.sched.jobs.any (jobOf eid) = false →
    ∃ t, exec (.entryCompletion eid) s = .next t ∧ entryAt eid t = some { e with phase := .writing, done := 0 }
      ∧ asks t (.compl eid 0) ((ringAt e.ring s).base + 32 * (e.parts.getD 0 {}).lastUnit + 24) (complBytes e)
      ∧ t = { s with sched := t.sched, host := t.host })
  ∧ (∀ (eid : Nat) (s : State), (∀ e, entryAt eid s = some e → e.phase ≠ .ready ∧ e.phase ≠ .writing) →
      (∀ e, entryAt eid (settle s) = some e → e.phase ≠ .ready ∧ e.phase ≠ .writing) →
    exec (.entryCompletion eid) s = .next (settle s))
  ∧ (∀ (tag eid part : Nat) (r : HostReq) (e : Entry) (s : State),
      s.host.writes.find? (fun x => x.tag == tag) = some r → r.what = .compl eid part → entryAt eid s = some e →
    ∃ t x, exec (.hostWriteAck tag false) s = .next t ∧ entryAt eid t = some x ∧ x.done = 2 * part + 1
      ∧ (heldBack s = false → asks t (.own eid part) ((ringAt e.ring s).base + 32 * (e.parts.getD part {}).index)
          [(e.parts.getD part {}).byte0 &&& 0x7F]))
  ∧ (∀ (tag eid part : Nat) (r : HostReq) (e : Entry) (s : State), s.rings.length = 64 → e.ring < 64 →
      s.host.writes.find? (fun x => x.tag == tag) = some r → r.what = .own eid part → entryAt eid s = some e →
      e.parts.length = part + 1 → s.dv.draining = false → (ringAt e.ring s).state ≠ .shuttingDown →
    ∃ t, exec (.hostWriteAck tag false) s = .next t
      ∧ (∀ x ∈ t.sched.entries, x.eid = eid → s.sched.nextEid ≤ eid)
      ∧ (ringAt e.ring t).doneCount = (ringAt e.ring s).doneCount + 1
      ∧ (ringAt e.ring t).inflight = (ringAt e.ring s).inflight - 1
      ∧ t.stats.entriesCompleted = s.stats.entriesCompleted + 1)
  ∧ (∀ (tag eid part : Nat) (r : HostReq) (e : Entry) (s : State), s.rings.length = 64 → e.ring < 64 →
      s.host.writes.find? (fun x => x.tag == tag) = some r → (r.what = .compl eid part ∨ r.what = .own eid part) →
      entryAt eid s = some e → (ringAt e.ring s).state ≠ .shuttingDown → (ringAt e.ring s).restartPend = false →
      (ringAt e.ring s).stopPend = none → s.dv.draining = false →
    ∃ t, exec (.hostWriteAck tag true) s = .next t
      ∧ (∀ x ∈ t.sched.entries, x.eid = eid → s.sched.nextEid ≤ eid)
      ∧ (ringAt e.ring t).state = .error ∧ (ringAt e.ring t).cause = 0xF
      ∧ (ringAt e.ring t).errIndex = BitVec.ofNat 16 (e.parts.getD part {}).index)
  ∧ (∀ (tag k : Nat) (r : HostReq) (s : State), s.host.writes.find? (fun x => x.tag == tag) = some r → r.what = .notify k →
    ∃ t, exec (.hostWriteAck tag true) s = .next t ∧ t.irq.noteErr = s.irq.noteErr.set k true)
  ∧ (∀ (tag : Nat) (err : Bool) (s : State), s.host.writes.find? (fun x => x.tag == tag) = none →
    exec (.hostWriteAck tag err) s = .next s)
  ∧ (∀ (tag eid slot : Nat) (beats : List Byte) (r : HostReq) (e : Entry) (s : State),
      s.host.reads.find? (fun x => x.tag == tag) = some r → r.what = .data eid slot → entryAt eid s = some e →
      e.opcode = 0x01 → e.accepted = true → e.phase = .waiting →
    ∃ t x, exec (.hostReadDone tag .err) s = .next t ∧ entryAt eid t = some x ∧ x.hostErr = true ∧ x.status = 0x50)
  ∧ (∀ (tag eid slot : Nat) (beats : List Byte) (r : HostReq) (s : State), s.host.reads.find? (fun x => x.tag == tag) = some r →
      r.what = .data eid slot → s.host.stalled = [] → s.host.rstalled = [] →
    exec (.hostReadDone tag (.ok beats)) s
      = .next { s with host := { s.host with reads := s.host.reads.filter (fun x => x.tag != tag) } })

/-- An entry refused at dispatch completes with the status and detail of the check that fails first, and nothing of it is
started (R114, R119, R121, R122, R123, R211).
Log entries 19 and 57 name what in it is the model's own reading or choice. -/
def Obligations.RefusalsAtDispatch : Prop :=
  (∀ (eid : Nat) (s : State) (e : Entry), turn s eid 0x03 e →
    (groupServes e.group.toNat (looked e s) = false → refusedWith s (exec (.releaseGroup eid) s) e 0x21 1)
    ∧ (groupServes e.group.toNat (looked e s) = true → (dirAt e.group.toNat s).refitSource = true → s.bg.refitState ≠ 0 →
        refusedWith s (exec (.releaseGroup eid) s) e 0x21 8)
    ∧ (groupServes e.group.toNat (looked e s) = true → s.bg.refitState = 0 → groupReachable e.group.toNat (looked e s) = true →
        s.modes.wfence = true → refusedWith s (exec (.releaseGroup eid) s) e 0x31 (fenceDetail s.modes))
    ∧ (groupServes e.group.toNat (looked e s) = true → s.bg.refitState = 0 → groupReachable e.group.toNat (looked e s) = true →
        s.modes.wfence = false → groupBound e.group.toNat s = true →
        refusedWith s (exec (.releaseGroup eid) s) e 0x23 1))
  ∧ (∀ (eid : Nat) (s : State) (e : Entry), turn s eid 0x04 e → e.group ≠ 0xFFFFFF →
      groupExists e.group.toNat (looked e s) = false → refusedWith s (exec (.flush eid) s) e 0x21 1)
  ∧ (∀ (eid st det : Nat) (s : State) (e : Entry), turn s eid 0x05 e → bindCheck e (looked e s) = some (st, det) →
      refusedWith s (exec (.bind eid) s) e st det)
  ∧ (∀ (eid : Nat) (s : State) (e : Entry), turn s eid 0x06 e →
      (∀ r ∈ e.ranges, groupExists r.1 (looked e s) = true) →
      ((ringAt e.ring s).priv = 0 ∨ bitAt e.options.toNat 7 = false) → refusedWith s (exec (.unbindForce eid) s) e 0x23 2)
  ∧ (∀ (eid : Nat) (s : State) (e : Entry), turn s eid 0x20 e →
    (idFree e.group.toNat (looked e s) = false → refusedWith s (exec (.groupOpen eid) s) e 0x21 1)
    ∧ (∀ st det, idFree e.group.toNat (looked e s) = true →
        membersCheck (openMembers e) (openProfile e) (looked e s) = some (st, det) →
        refusedWith s (exec (.groupOpen eid) s) e st det)
    ∧ (idFree e.group.toNat (looked e s) = true → membersCheck (openMembers e) (openProfile e) (looked e s) = none →
        s.modes.wfence = false → boundBlocks (openMembers e) s = true → refusedWith s (exec (.groupOpen eid) s) e 0x23 1))
  ∧ (∀ (eid : Nat) (s : State) (e : Entry), turn s eid 0x21 e →
    (groupExists e.group.toNat (looked e s) = false → refusedWith s (exec (.groupClose eid) s) e 0x21 1)
    ∧ (groupExists e.group.toNat (looked e s) = true → s.modes.wfence = true →
        refusedWith s (exec (.groupClose eid) s) e 0x31 (fenceDetail s.modes)))
  ∧ (∀ (eid : Nat) (s : State) (e : Entry), turn s eid 0x22 e →
      (e.group = 0xFFFFFF ∨ groupExists e.group.toNat (looked e s) = true) →
      concerned e.group.toNat (e.row.toNat % 4096) (looked e s) = [] → refusedWith s (exec (.rebuildStart eid) s) e 0x21 2)
  ∧ (∀ (eid : Nat) (s : State) (e : Entry), turn s eid 0x23 e → refusedWith s (exec (.refitStart eid .err) s) e 0x50 0xF0)
  ∧ (∀ (eid : Nat) (param : HostRead) (s : State) (e : Entry), turn s eid 0x30 e → s.media.accum ≠ 0 →
      refusedWith s (exec (.accumOpen eid param) s) e 0x21 8)
  ∧ (∀ (eid : Nat) (s : State) (e : Entry), turn s eid 0x31 e → s.media.accum ≠ 2 →
      refusedWith s (exec (.accumReturn eid) s) e 0x21 7)
  ∧ (∀ (eid : Nat) (data : HostRead) (s : State) (e : Entry), turn s eid 0x10 e →
      reachable (e.group.toNat % 128 * 32) s = false → refusedWith s (exec (.rawJig eid data) s) e 0x21 4)
  ∧ (∀ (eid : Nat) (list : List HostRead) (s : State) (e : Entry), turn s eid 0x02 e →
      entryPieces e (listLines e.addr.toNat list) = .fabric →
      refusedWith s (exec (.read eid list) s) e 0x50 0xF0)
  ∧ (∀ (eid : Nat) (list : List HostRead) (s : State) (e : Entry), turn s eid 0x01 e →
      entryPieces e (listLines e.addr.toNat list) = .fabric →
      refusedWith s (exec (.writeRow eid list) s) e 0x50 0xF0)
  ∧ (∀ (eid : Nat) (list : List HostRead) (ps : List (BitVec 64 × Nat)) (s : State) (e : Entry), turn s eid 0x01 e →
      entryPieces e (listLines e.addr.toNat list) = .ok ps → e.member ≠ 0xFF →
    (groupServes e.group.toNat (looked e s) = false →
      refusedWith s (exec (.writeRow eid list) s) { e with pieces := ps } 0x21 1)
    ∧ (groupServes e.group.toNat (looked e s) = true → (dirAt e.group.toNat s).width ≤ e.member.toNat →
      refusedWith s (exec (.writeRow eid list) s) { e with pieces := ps } 0x21 2)
    ∧ (groupServes e.group.toNat (looked e s) = true → e.member.toNat < (dirAt e.group.toNat s).width →
        groupReachable e.group.toNat (looked e s) = true → s.modes.wfence = true →
      refusedWith s (exec (.writeRow eid list) s) { e with pieces := ps } 0x31 (fenceDetail s.modes))
    ∧ (groupServes e.group.toNat (looked e s) = true → e.member.toNat < (dirAt e.group.toNat s).width →
        groupReachable e.group.toNat (looked e s) = true → s.modes.wfence = false →
        rowBound e.group.toNat e.row.toNat s = true →
      refusedWith s (exec (.writeRow eid list) s) { e with pieces := ps } 0x23 1)
    ∧ (groupServes e.group.toNat (looked e s) = true → e.member.toNat < (dirAt e.group.toNat s).width →
        groupReachable e.group.toNat (looked e s) = true → s.modes.wfence = false →
        rowBound e.group.toNat e.row.toNat s = false → (dirAt e.group.toNat s).state = 1 →
        e.row.toNat ≠ (dirAt e.group.toNat s).nextRow →
      refusedWith s (exec (.writeRow eid list) s) { e with pieces := ps } 0x22 1))

/-- RELEASE_GROUP, FLUSH, GROUP_OPEN, GROUP_CLOSE and NOP that pass their checks: the record GROUP_RELEASED first; the wait for
the earlier entries that write the group, and the end at once with none of them and no open record; an erase of every member;
the row closed short and STATE closed; done at once (R118, R292, R304, R310).
Log entry 18 names what in it is the model's own reading or choice. -/
def Obligations.GroupEntriesBegin : Prop :=
  (∀ (eid : Nat) (s : State) (e : Entry), turn s eid 0x03 e → groupServes e.group.toNat (looked e s) = true →
      ¬ ((dirAt e.group.toNat s).refitSource = true ∧ s.bg.refitState ≠ 0) →
      groupReachable e.group.toNat (looked e s) = true → s.modes.wfence = false → groupBound e.group.toNat s = false →
      s.modes.follower = false →
    ∃ t, exec (.releaseGroup eid) s = .next t ∧ t.stripe.jrnl.queue = s.stripe.jrnl.queue ++ [mkRec 6 e.group.toNat []]
      ∧ t.stripe.jrnl.recNo = s.stripe.jrnl.recNo + 1
      ∧ entryAt eid t = some { e with phase := .waiting, recWait := some t.stripe.jrnl.recNo }
      ∧ (∀ k, k ≠ eid → entryAt k t = entryAt k s)
      ∧ t = { s with
          sched := { s.sched with entries := t.sched.entries }
          stripe := { s.stripe with cache := t.stripe.cache, lines := t.stripe.lines, jrnl := t.stripe.jrnl } })
  ∧ (∀ (eid : Nat) (s : State) (e : Entry), turn s eid 0x04 e →
      (e.group = 0xFFFFFF ∨ groupExists e.group.toNat (looked e s) = true) →
    ((∀ p ∈ before s e, ¬ (writesGroup p.opcode.toNat = true ∧ (e.group = 0xFFFFFF ∨ e.group.toNat ∈ groupsOf p))) →
        openRecord e.group.toNat s = none → e.recWait = none → refusedWith s (exec (.flush eid) s)
          { e with earlierWait := [] } 0 0)
    ∧ (∀ p ∈ before s e, writesGroup p.opcode.toNat = true → (e.group = 0xFFFFFF ∨ e.group.toNat ∈ groupsOf p) →
      ∃ t x, exec (.flush eid) s = .next t ∧ entryAt eid t = some x
        ∧ x = { e with phase := .waiting, earlierWait := x.earlierWait }
        ∧ (∀ k, k ∈ x.earlierWait ↔ ∃ p ∈ before s e, p.eid = k ∧ writesGroup p.opcode.toNat = true
            ∧ (e.group = 0xFFFFFF ∨ e.group.toNat ∈ groupsOf p))
        ∧ t = { s with
            sched := { s.sched with entries := t.sched.entries }
            stripe := { s.stripe with cache := t.stripe.cache, lines := t.stripe.lines } }))
  ∧ (∀ (eid : Nat) (s : State) (e : Entry), turn s eid 0x20 e → idFree e.group.toNat (looked e s) = true →
      membersCheck (openMembers e) (openProfile e) (looked e s) = none → s.modes.wfence = false →
      boundBlocks (openMembers e) s = false →
    ∃ t, exec (.groupOpen eid) s = .next t ∧ (dirAt e.group.toNat t).opening = true
      ∧ (∀ i < (openMembers e).length, ∃ j ∈ t.sched.jobs, j.owner = .openErase eid i ∧ j.prio = 3
          ∧ j.lun = ((openMembers e).getD i {}).lun ∧ j.block = ((openMembers e).getD i {}).block)
      ∧ entryAt eid t = some { e with phase := .waiting, members := List.range (openMembers e).length }
      ∧ t.rings = s.rings ∧ t.modes = s.modes ∧ t.irq = s.irq ∧ t.media = s.media)
  ∧ (∀ (eid : Nat) (s : State) (e : Entry), turn s eid 0x21 e → groupExists e.group.toNat (looked e s) = true →
      s.modes.wfence = false →
    ∃ t x, exec (.groupClose eid) s = .next t ∧ (dirAt e.group.toNat t).state = 2 ∧ entryAt eid t = some x
      ∧ x.phase = .waiting ∧ x.count = (dirAt e.group.toNat t).nextRow ∧ x.recWait = some t.stripe.jrnl.recNo
      ∧ t.rings = s.rings ∧ t.modes = s.modes)
  ∧ (∀ (eid : Nat) (s : State) (e : Entry), turn s eid 0x3F e → refusedWith s (exec (.nop eid) s) e 0 0)

/-- REBUILD_START queues the rebuild and completes with the spare's LUN as COUNT; REFIT_START begins the plan and completes
with the number of targets; PATROL_CTL completes with the complete laps done once its action is in force; RAW_JIG is a job on
channel 0 of its GROUP with the items given (R116, R118, R345, R351, R356).
Log entry 58 names what in it is the model's own reading or choice. -/
def Obligations.BackgroundEntriesBegin : Prop :=
  (∀ (eid i : Nat) (given : Option Nat) (s : State) (e : Entry), turn s eid 0x22 e →
      (e.group = 0xFFFFFF ∨ groupExists e.group.toNat (looked e s) = true) →
      concerned e.group.toNat (e.row.toNat % 4096) (looked e s) ≠ [] →
      given = (if bitAt e.options.toNat 47 = true then some (fld e.options.toNat 32 12) else none) →
      pickSpare given (concerned e.group.toNat (e.row.toNat % 4096) (looked e s)) (looked e s) = some i →
      s.bg.queue.length ≤ 4 → s.modes.wfence = false →
    ∃ t x, exec (.rebuildStart eid) s = .next t ∧ entryAt eid t = some x ∧ x.status = 0 ∧ x.phase = .ready
      ∧ x.count = (poolEntry i s).1
      ∧ t.bg.queue = s.bg.queue ++ [{ group := e.group.toNat, failedLun := e.row.toNat % 4096
                                      spareLun := (poolEntry i s).1, poolIdx := i }]
      ∧ t.modes.rebuild = true ∧ t.modes.mode = t.modes.primary)
  ∧ (∀ (eid : Nat) (b bs : List Byte) (p : Plan) (s : State) (e : Entry), turn s eid 0x23 e →
      linesOf e.addr.toNat (4096 * e.length.toNat) (.ok b) = .ok bs →
      parsePlan (padTo (4096 * e.length.toNat) bs) e.length.toNat = some p → planCheck p (looked e s) = none →
      s.modes.wfence = false →
    ∃ t x, exec (.refitStart eid (.ok b)) s = .next t ∧ entryAt eid t = some x ∧ x.status = 0 ∧ x.phase = .ready
      ∧ x.count = p.targets.length ∧ t.modes.refit = true ∧ t.modes.mode = t.modes.primary
      ∧ t.bg.planId = BitVec.ofNat 32 p.id ∧ t.bg.sources = p.sources ∧ t.bg.targets = p.targets.map (·.group)
      ∧ t.bg.refitState = (if s.modes.rebuild = true then 2 else 1))
  ∧ (∀ (eid : Nat) (c : Instr) (s : State) (e : Entry), turn s eid 0x24 e →
      (c = .patrolPause eid ∧ fld e.options.toNat 8 2 = 0 ∨ c = .patrolResume eid ∧ fld e.options.toNat 8 2 = 1
        ∨ c = .patrolSetRate eid ∧ fld e.options.toNat 8 2 = 2 ∨ c = .patrolNewLap eid ∧ fld e.options.toNat 8 2 = 3) →
    ∃ t, exec c s = .next t ∧ entryAt eid t = some { e with
          status := 0, detail := 0, phase := .ready
          count := s.bg.laps.toNat }
      ∧ t.bg.patrolPaused = (if c = .patrolPause eid then true else if c = .patrolResume eid then false else s.bg.patrolPaused)
      ∧ (c = .patrolSetRate eid → stored 0x2900 3 t = le 4 (fld e.options.toNat 32 32))
      ∧ t.bg.laps = s.bg.laps ∧ (c = .patrolNewLap eid → t.bg.patrolGroup = 0 ∧ t.bg.patrolRow = 0)
      ∧ t.rings = s.rings ∧ t.modes = s.modes ∧ t.media = s.media)
  ∧ (∀ (eid : Nat) (data : HostRead) (bs : List Byte) (s : State) (e : Entry), turn s eid 0x10 e →
      reachable (e.group.toNat % 128 * 32) s = true →
      (ownLun (e.group.toNat % 128 * 32) s = true → (chanAt (lunChan (e.group.toNat % 128 * 32)) s).up = true) →
      (e.row.toNat % 2048 < 0x600 ∨ s.modes.custLoaded = true) → s.modes.wfence = false →
      (if e.length = 0 then HostRead.ok [] else linesOf e.addr.toNat (4096 * e.length.toNat) data) = .ok bs →
    ∃ t, exec (.rawJig eid data) s = .next t ∧ entryAt eid t = some { e with phase := .waiting }
      ∧ (∃ j ∈ t.sched.jobs, j.owner = .raw eid ∧ j.lun = e.group.toNat % 128 * 32 ∧ j.prio = fld e.options.toNat 8 2
          ∧ j.data = padTo (4096 * e.length.toNat) bs ∧ j.items.length = e.elements.length + 1)
      ∧ t.rings = s.rings ∧ t.modes = s.modes)

/-! ### WRITE_ROW and READ (chapters 4, 6 and 9) -/

/-- WRITE_ROW of one member or of all: accepted, it has a glue-up slot, its members join the accepted set of its row, and a row
that they make full moves NEXT_ROW on; with no slot it waits, and SLOT_ASSIGN takes it up; a wait is reported once; a codeword
whose requests are answered is noted as arrived in staging (R211, R212, R293, R296, R297, R298, R300).
Log entries 12 and 57 name what in it is the model's own reading or choice. -/
def Obligations.WriteRowIsAccepted : Prop :=
  (∀ (eid : Nat) (list : List HostRead) (ps : List (BitVec 64 × Nat)) (s : State) (e : Entry), turn s eid 0x01 e →
      entryPieces e (listLines e.addr.toNat list) = .ok ps → groupServes e.group.toNat (looked e s) = true →
      (e.member = 0xFF → e.length.toNat = 16 * (dirAt e.group.toNat s).width) → writeCheck e (looked e s) = none →
    (needsSlot e s = true → ∃ t, exec (.writeRow eid list) s = .next t
      ∧ entryAt eid t = some { e with phase := .waiting, pieces := ps } ∧ t.stripe.waits = satAdd s.stripe.waits 1
      ∧ t.stripe.slots = s.stripe.slots ∧ t.stripe.dir = s.stripe.dir ∧ (∀ k, k ≠ eid → entryAt k t = entryAt k s)
      ∧ t.rings = s.rings ∧ t.modes = s.modes ∧ t.irq = s.irq ∧ t.jigs = s.jigs ∧ t.sram = s.sram)
    ∧ (needsSlot e s = false → ∃ t x, exec (.writeRow eid list) s = .next t ∧ entryAt eid t = some x ∧ x.phase = .waiting
      ∧ x.pieces = ps ∧ x.accepted = true ∧ x.members = writeMembers e s
      ∧ (∃ i, findSlot e.group.toNat e.row.toNat t = some i ∧ ∀ m ∈ writeMembers e s, m ∈ (slotAt i t).dataMask)
      ∧ (if (dirAt e.group.toNat s).accepted.length + (writeMembers e s).length = (dirAt e.group.toNat s).width then
          (dirAt e.group.toNat t).nextRow = e.row.toNat + 1 ∧ (dirAt e.group.toNat t).accepted = []
          ∧ x.needsRow = some e.row.toNat
        else (dirAt e.group.toNat t).nextRow = (dirAt e.group.toNat s).nextRow
          ∧ (dirAt e.group.toNat t).accepted = (dirAt e.group.toNat s).accepted ++ writeMembers e s)
      ∧ t.rings = s.rings ∧ t.modes = s.modes ∧ t.irq = s.irq ∧ t.jigs = s.jigs))
  ∧ (∀ (eid : Nat) (s : State) (e : Entry), entryAt eid s = some e → slotWaits e = true →
      (∀ x ∈ before s e, slotWaits x = false) → freeSlot e.group.toNat s ≠ none → groupServes e.group.toNat s = true →
      writeCheck e s = none →
    ∃ t x, exec (.slotAssign eid) s = .next t ∧ entryAt eid t = some x ∧ x.phase = .waiting ∧ x.accepted = true
      ∧ x.members = writeMembers e s ∧ t.rings = s.rings ∧ t.modes = s.modes ∧ t.irq = s.irq ∧ t.jigs = s.jigs)
  ∧ (∀ (eid : Nat) (s : State), (∀ e, entryAt eid s = some e → slotWaits e = false) →
      exec (.slotAssign eid) s = .next s ∧ exec (.slotWaitEvent eid) s = .next s)
  ∧ (∀ (eid : Nat) (s : State) (e : Entry), entryAt eid s = some e → slotWaits e = true → e.slotWaited = false →
    ∃ t, exec (.slotWaitEvent eid) s = .next t ∧ entryAt eid t = some { e with slotWaited := true }
      ∧ t.irq = s.irq.cause 115 ∧ t.stripe.waitLong = satAdd s.stripe.waitLong 1
      ∧ exec (.slotWaitEvent eid) t = .next t)
  ∧ (∀ (eid m c set : Nat) (beats : List Byte) (s : State) (e : Entry), entryAt eid s = some e →
      e.stage.lookup m = some set → e.opcode = 1 → c < 16 → e.hostErr = false → m ∈ e.members → (m, c) ∉ e.arrived →
      slotRead eid (16 * set + c) s = true →
    ∃ t x, exec (.writeDataArrival eid m c beats) s = .next t ∧ entryAt eid t = some x
      ∧ x.arrived = e.arrived ++ [(m, c)] ∧ x.phase = e.phase ∧ t.rings = s.rings ∧ t.modes = s.modes)

/-- READ of one member in service: a job at ladder step 0 on the member's page, and every selected codeword waits for it in its
landing slot (R113, R118, R233). -/
def Obligations.ReadBegins : Prop :=
  ∀ (eid : Nat) (list : List HostRead) (ps : List (BitVec 64 × Nat)) (slot : Nat) (s : State) (e : Entry), turn s eid 0x02 e →
    s.sched.entries = [e] → entryPieces e (listLines e.addr.toNat list) = .ok ps → e.member ≠ 0xFF →
        groupServes e.group.toNat (looked e s) = true →
    readCheck e (looked e s) = none → e.selected ≠ [] →
    (e.member.toNat < (dirAt e.group.toNat s).width → bitAt (rowMask e.group.toNat e.row.toNat s) e.member.toNat = true) →
    (∀ c ∈ e.selected, inLedger e.group.toNat e.member.toNat e.row.toNat c s = false) →
    memberGone e.group.toNat e.member.toNat e.row.toNat s = false → findLanding s e.selected.length = some slot →
  ∃ t x, exec (.read eid list) s = .next t ∧ entryAt eid t = some x
    ∧ x.phase = .waiting ∧ x.pieces = ps ∧ x.unread = [] ∧ x.status = e.status
    ∧ (∃ j ∈ t.sched.jobs, j.owner = .read eid ∧ j.step = 0 ∧ j.lun = (memberAt e.group.toNat e.member.toNat s).lun
        ∧ j.block = (memberAt e.group.toNat e.member.toNat s).block ∧ j.page = e.row.toNat ∧ j.buf = slot)
    ∧ (∀ c ∈ e.selected, ∃ k ∈ t.sched.cws, k.eid = some eid ∧ k.cw = c ∧ k.member = e.member.toNat ∧ k.state = .reading
        ∧ k.pos = e.posOf e.member.toNat c)
    ∧ t.rings = s.rings ∧ t.modes = s.modes ∧ t.stripe = { s.stripe with cache := t.stripe.cache, lines := t.stripe.lines }

/-! ### The bind table and the accumulator (chapter 11) -/

/-- BIND of one range that no entry of its job meets takes a free bind entry, marks its group and counts the rows; without free
entries it waits, is reported once and is served once they are free. UNBIND_FORCE of a range that one entry holds needs no free
entry: it frees that one, counts and raises the media override record (R380, R382, R384).
Log entry 63 names what in it is the model's own reading or choice. -/
def Obligations.BindTableChanges : Prop :=
  (∀ (eid g f n i : Nat) (s : State) (e : Entry), turn s eid 0x05 e → e.ranges = [(g, f, n)] → n ≠ 0 →
      bindCheck e (looked e s) = none → 1 ≤ bindsFree s → freeBind s = some i →
      (∀ p ∈ bindsOf g e.job s, ¬ (p.2.first ≤ f + n ∧ f ≤ p.2.first + p.2.rows)) →
    ∃ t x, exec (.bind eid) s = .next t
      ∧ t.stripe.binds = putAsc i { group := g, first := f, rows := n, job := e.job } s.stripe.binds
      ∧ (dirAt g t).boundRows = true ∧ entryAt eid t = some x ∧ x.phase = .waiting ∧ x.accepted = true ∧ x.count = n
      ∧ t.rings = s.rings ∧ t.modes = s.modes ∧ t.media = s.media)
  ∧ (∀ (eid : Nat) (s : State) (e : Entry), turn s eid 0x05 e → bindCheck e (looked e s) = none →
      bindsFree s < e.ranges.length →
    ∃ t, exec (.bind eid) s = .next t ∧ entryAt eid t = some { e with phase := .waiting, reserved := e.ranges.length }
      ∧ t.media = { s.media with bindWaits := satAdd s.media.bindWaits 1 } ∧ t.stripe.binds = s.stripe.binds)
  ∧ (∀ (s : State) (e : Entry), s.sched.entries.find? (fun x => bindWaiting x && decide (bindNeed x s ≤ bindsFree s)) = some e →
    ∃ t x, exec .bindReserve s = .next t ∧ entryAt e.eid t = some x ∧ x.accepted = true ∧ x.reserved = 0
      ∧ x.phase = .waiting)
  ∧ (∀ s : State, (∀ x ∈ s.sched.entries, bindWaiting x = false) → exec .bindReserve s = .next s)
  ∧ (∀ (eid : Nat) (s : State) (e : Entry), entryAt eid s = some e → bindWaiting e = true → e.bindWaited = false →
    ∃ t, exec (.bindWaitEvent eid) s = .next t ∧ entryAt eid t = some { e with bindWaited := true }
      ∧ t.irq = s.irq.cause 120 ∧ t.media = { s.media with bindLong := satAdd s.media.bindLong 1 }
      ∧ exec (.bindWaitEvent eid) t = .next t)
  ∧ (∀ (eid g f n i : Nat) (b : BindEntry) (s : State) (e : Entry), turn s eid 0x06 e → e.ranges = [(g, f, n)] → n ≠ 0 →
      groupExists g (looked e s) = true → (ringAt e.ring s).priv ≠ 0 → bitAt e.options.toNat 7 = true →
      (bindsOf g e.job s).filter (fun p => p.2.shared f n != 0) = [(i, b)] → b.first = f → b.rows = n →
    ∃ t x, exec (.unbindForce eid) s = .next t ∧ t.stripe.binds = dropKey i s.stripe.binds
      ∧ entryAt eid t = some x ∧ x.accepted = true ∧ x.count = n
      ∧ t.stats.rowsUnboundForced = s.stats.rowsUnboundForced + n ∧ t.evq.rseq = s.evq.rseq + 1
      ∧ t.irq.raises = s.irq.raises.modify 4 (fun c => satAdd c 1))

/-- ACCUM_OPEN takes the accumulators from the reads, keeps its parameters and tells the other blocks; it completes once
every one has drained; ACCUM_RETURN closes the fragments and has REPORT written, once every other block has returned (R21,
R394, R399, R420).
Log entries 62 and 128 name what in it is the model's own reading or choice. -/
def Obligations.AccumulatorOpensAndReturns : Prop :=
  (∀ (eid : Nat) (b bs : List Byte) (s : State) (e : Entry), turn s eid 0x30 e → s.media.accum = 0 →
      linesOf e.addr.toNat 128 (.ok b) = .ok bs →
    ∃ t, exec (.accumOpen eid (.ok b)) s = .next t ∧ entryAt eid t = some { e with phase := .waiting }
      ∧ t.media = { s.media with
          accum := 1, accWait := t.media.accWait, accEid := some eid
          headsMask := BitVec.ofNat 16 (fld e.options.toNat 8 16), ref := padTo 64 bs
          scoreMin := if leAt bs 64 2 = 0 then 32768 else leAt bs 64 2
          reportAddr := e.addr, frags := [], report := List.replicate 6 0 }
      ∧ (otherBlocks s = 0 → t.media.accWait = s.media.accWait ∧ t.dv = s.dv)
      ∧ (otherBlocks s ≠ 0 → t.media.accWait = otherBlocks s ∧ (waysOf none s ≠ [] → ∃ x ∈ t.dv.out, x.type = 0x10
          ∧ x.dst = none ∧ x.payload = le 2 0x1000 ++ le 2 (fld e.options.toNat 8 16) ++ padTo 96 bs))
      ∧ t = { s with
          sched := { s.sched with entries := t.sched.entries }
          media := t.media, dv := t.dv
          stripe := { s.stripe with cache := t.stripe.cache, lines := t.stripe.lines }
          host := { s.host with issued := t.host.issued, answered := t.host.answered } })
  ∧ (∀ s : State, (s.media.accum ≠ 1 ∨ accumUsed s = true) → exec .accumDrainEnd s = .next s)
  ∧ (∀ s : State, s.media.accum = 1 → accumUsed s = false →
    (s.modes.follower = false → s.media.accWait ≠ 0 →
        exec .accumDrainEnd s = .next { s with media := { s.media with accum := 2 } })
    ∧ (∀ (eid : Nat) (e : Entry), s.modes.follower = false → s.media.accWait = 0 → s.media.accEid = some eid →
        entryAt eid s = some e →
      ∃ t, exec .accumDrainEnd s = .next t ∧ t.media = { s.media with accum := 2, accEid := none }
        ∧ entryAt eid t = some { e with status := 0, detail := 0, count := 0, phase := .ready }
        ∧ t = { s with sched := { s.sched with entries := t.sched.entries }, media := t.media })
    ∧ (s.modes.follower = true → route s.modes.leadDie.toNat s ≠ none →
      ∃ t x, exec .accumDrainEnd s = .next t ∧ t.media = { s.media with accum := 2 } ∧ t.dv.out = s.dv.out ++ [x]
        ∧ x.type = 0x11 ∧ x.dst = some s.modes.leadDie ∧ leAt x.payload 0 2 = 0x1000 + s.modes.dieId.toNat
        ∧ t = { s with media := t.media, dv := t.dv }))
  ∧ (∀ (eid : Nat) (s : State) (e : Entry), turn s eid 0x31 e → s.media.accum = 2 → s.media.accWait = 0 →
      (∀ r ∈ s.host.writes ++ s.host.stalled, r.what ≠ .accum eid) →
    ∃ t, exec (.accumReturn eid) s = .next t ∧ t.media.accum = 3 ∧ t.media.accEid = some eid ∧ t.media.frags = []
      ∧ (if otherBlocks s = 0 then
          asks t (.accum eid) (s.media.reportAddr.toNat + 96) (padTo 32 (t.media.report.flatMap (le 4)))
        else t.media.accWait = otherBlocks s ∧ (waysOf none s ≠ [] → ∃ x ∈ t.dv.out, x.type = 0x10 ∧ x.dst = none
          ∧ x.payload = le 2 0x2000 ++ [1]))
      ∧ (∀ h < 16, (headAt h t).pass = none) ∧ t.rings = s.rings ∧ t.modes = s.modes)

/-! ### Jigs and drawers (chapter 5) -/

/-- Drawers and jig control: a job is placed when the drawer has room for all its items, else the refusal counts; tMCCLAMP after
a machine check the clamps return and the pads are held; a reload restarts the jig or leaves it fenced; the timer, the captured
status byte, resume, stop and the store window (R138, R143, R145, R151, R152, R161, R168, R172).
Log entries 48 and 59 name what in it is the model's own reading or choice. -/
def Obligations.DrawersAndJigControl : Prop :=
  (∀ (ch : Nat) (j : Job) (s : State), ch < 16 → s.jigs.length = 16 → nextPlaced ch s = some j → (chanAt ch s).up = true →
      (jigAt ch s).state ≠ .machineCheck → (jigAt ch s).state ≠ .fenced →
    ∃ t, exec (.drawerPlace ch) s = .next t ∧ (∀ n, n ≠ ch → jigAt n t = jigAt n s)
      ∧ (if (jigAt ch s).drawer.length + (resolveFeats j s).1.items.length ≤ 64 then
          (jigAt ch t).drawer = (jigAt ch s).drawer ++ (resolveFeats j s).1.items
          ∧ (∃ k ∈ t.sched.jobs, k.handle = j.handle ∧ k.state = .placed ∧ k.startedAt = s.now)
        else jigAt ch t = { jigAt ch s with full := satAdd (jigAt ch s).full 1 } ∧ t.sched = s.sched)
      ∧ t = { s with jigs := t.jigs, sched := t.sched, chans := t.chans, luns := t.luns })
  ∧ (∀ (ch : Nat) (s : State), ch < 16 → nextPlaced ch s = none → exec (.drawerPlace ch) s = .next s)
  ∧ (∀ (ch : Nat) (s : State), ch < 16 → s.jigs.length = 16 → s.chans.length = 16 →
    ((jigAt ch s).mcClamps = false → exec (.mcClampRelease ch) s = .next s)
    ∧ ((jigAt ch s).mcClamps = true → ∃ t, exec (.mcClampRelease ch) s = .next t ∧ holdsAny ch t = false
        ∧ (∀ c, c ≠ ch → ∀ l, heldFor c l t = heldFor c l s) ∧ (chanAt ch t).padHold = true ∧ (chanAt ch t).up = false
        ∧ (jigAt ch t).mcClamps = false ∧ (jigAt ch t).state = (jigAt ch s).state
        ∧ (jigAt ch t).ce = none ∧ (jigAt ch t).wp = false ∧ (jigAt ch t).odt = false
        ∧ t = { s with jigs := t.jigs, chans := t.chans, rack := { s.rack with held := t.rack.held } }))
  ∧ (∀ (ch : Nat) (ok : Bool) (s : State), ch < 16 → s.jigs.length = 16 → s.chans.length = 16 →
    ((jigAt ch s).state ≠ .machineCheck ∨ (jigAt ch s).mcClamps = true → exec (.jigReload ch ok) s = .next s)
    ∧ ((jigAt ch s).state = .machineCheck → (jigAt ch s).mcClamps = false →
        ∃ t, exec (.jigReload ch ok) s = .next t
          ∧ (if ok = true ∧ imageParityOk s = true ∧ s.stats.machineChecks.getD ch 0 ≤ cfg 0x2100 5 s then
              (jigAt ch t).pc = 0 ∧ (jigAt ch t).stack = [] ∧ (jigAt ch t).store = s.storeImage
              ∧ (jigAt ch t).j = (jigAt ch s).j
              ∧ (if (chanAt ch s).lastStep = 0 then (jigAt ch t).state = .notStarted ∧ chanAt ch t = chanAt ch s
                else (jigAt ch t).state = .running ∧ chanAt ch t = { chanAt ch s with
                  padHold := false, up := (chanAt ch s).present != 0 && (chanAt ch s).rate != 10, driftCheck := true })
              ∧ t = { s with jigs := t.jigs, chans := t.chans }
            else (jigAt ch t).state = .fenced)))
  ∧ (∀ (ch : Nat) (s : State), ch < 16 → s.jigs.length = 16 →
    ∃ t, exec (.jigTimerExpiry ch) s = .next t ∧ (∀ n, n ≠ ch → jigAt n t = jigAt n s) ∧ t = { s with jigs := t.jigs }
      ∧ jigAt ch t = (if (jigAt ch s).timerRun = true then
          { jigAt ch s with timer := 0, timerRun := false, timerDone := true } else jigAt ch s))
  ∧ (∀ (ch : Nat) (b : Byte) (c : Bus) (rest : List Bus) (s : State), ch < 16 → s.jigs.length = 16 →
      (jigAt ch s).j.length = 16 → (jigAt ch s).busQ = c :: rest → c.code = 6 → c.capture ≠ 0 →
    ∃ t, exec (.statusCapture ch b) s = .next t ∧ (jigAt ch t).busQ = rest
      ∧ fld ((jigAt ch t).jr 4) (if c.capture = 1 then 0 else 8) 8 = b.toNat
      ∧ fld ((jigAt ch t).jr 4) (if c.capture = 1 then 8 else 0) 8 = fld ((jigAt ch s).jr 4) (if c.capture = 1 then 8 else 0) 8
      ∧ (∀ n, n ≠ 4 → (jigAt ch t).jr n = (jigAt ch s).jr n) ∧ (jigAt ch t).pc = (jigAt ch s).pc
      ∧ t = { s with jigs := t.jigs })
  ∧ (∀ (ch : Nat) (b : Byte) (s : State), ch < 16 → (jigAt ch s).busQ = [] → exec (.statusCapture ch b) s = .next s)
  ∧ (∀ (ch : Nat) (s : State), ch < 16 → s.jigs.length = 16 →
    ∃ t, exec (.jigResume .mainCore ch) s = .next t ∧ (∀ n, n ≠ ch → jigAt n t = jigAt n s) ∧ t = { s with jigs := t.jigs }
      ∧ jigAt ch t = (if (jigAt ch s).state = .halted then
          { jigAt ch s with
            state := .running, pc := (jigAt ch s).resumeAt
            wp := (jigAt ch s).wp && !(custWord (jigAt ch s).resumeAt.toNat && !(jigAt ch s).inCust) } else jigAt ch s))
  ∧ (∀ (ch : Nat) (s : State), ch < 16 → s.jigs.length = 16 →
    ∃ t, exec (.jigStop .mainCore ch) s = .next t ∧ (∀ n, n ≠ ch → jigAt n t = jigAt n s) ∧ t = { s with jigs := t.jigs }
      ∧ jigAt ch t = { jigAt ch s with stopReq := true })
  ∧ (∀ (v : Word) (s : State), badQuarters (storeWord (fld v.toNat 12 4) (fld v.toNat 0 11) s).toNat = 0 →
    exec (.jsSel v) s = .next { s with regs := { s.regs with
      jsSel := BitVec.ofNat 32 (4096 * fld v.toNat 12 4 + fld v.toNat 0 11)
      jsData := storeWord (fld v.toNat 12 4) (fld v.toNat 0 11) s, jsErr := false } })
  ∧ (∀ (v : Word) (s : State), badQuarters (storeWord (fld v.toNat 12 4) (fld v.toNat 0 11) s).toNat ≠ 0 →
      s.jigs.length = 16 →
    ∃ t, exec (.jsSel v) s = .next t ∧ t.regs.jsErr = true
      ∧ t.regs.jsData = storeWord (fld v.toNat 12 4) (fld v.toNat 0 11) s
      ∧ (jigAt (fld v.toNat 12 4) t).state
        = (if (jigAt (fld v.toNat 12 4) s).state = .fenced then .fenced else .machineCheck)
      ∧ (jigAt (fld v.toNat 12 4) t).mc.valid = true
      ∧ (jigAt (fld v.toNat 12 4) t).mc.addr = BitVec.ofNat 11 (fld v.toNat 0 11)
      ∧ (jigAt (fld v.toNat 12 4) t).mcClamps = true)

/-- One jig cycle: a jig that does not run, or whose clock is gated, only takes in its bus cycles; STOP halts the jig at a
word boundary; a word with bad parity is a machine check that records its address; a word in its first cycle goes to the
library's abort page, traps and raises its source, stalls where it is, or moves the counters and goes to its next address
(R19, R132, R133, R136, R138, R143, R148, R151, R153, R170, R172).
Log entries 20, 59, 78 and 80 name what in it is the model's own reading or choice. -/
def Obligations.JigRunsOneWord : Prop :=
  (∀ (ch : Nat) (p : JigIn) (v s : State), ch < 16 → v = phyRun ch p.busDone p.dout s →
      ((jigAt ch v).state ≠ .running ∨ chanGated ch v = true) →
    ∃ t, exec (.jigMicroword ch p) s = .next t ∧ t = settle v ∧ (jigAt ch t).pc = (jigAt ch s).pc
      ∧ (jigAt ch t).stack = (jigAt ch s).stack ∧ (jigAt ch t).trap = (jigAt ch s).trap
      ∧ (jigAt ch t).cntA = (jigAt ch s).cntA ∧ (jigAt ch t).cntB = (jigAt ch s).cntB)
  ∧ (∀ (ch : Nat) (p : JigIn) (v s : State), ch < 16 → s.jigs.length = 16 → v = jigNow ch p s →
      (jigAt ch v).state = .running → chanGated ch v = false → (jigAt ch v).stopReq = true → (jigAt ch v).waiting = false →
      (jigAt ch v).clampWait = false → (jigAt ch v).stall = 0 →
    ∃ t, exec (.jigMicroword ch p) s = .next t ∧ (jigAt ch t).state = .halted ∧ (jigAt ch t).stack = []
      ∧ (jigAt ch t).resumeAt = (jigAt ch v).pc ∧ (jigAt ch t).stopReq = false)
  ∧ (∀ (ch w : Nat) (p : JigIn) (v s : State) (g : Jig) (x : Sel), ch < 16 → s.jigs.length = 16 →
      v = upsetWord ch (jigAt ch (jigNow ch p s)).pc.toNat p.upset (jigNow ch p s) → g = jigAt ch v → g.state = .running →
      chanGated ch v = false → g.stopReq = false → w = (storeWord ch g.pc.toNat v).toNat → x = selOf w g →
    (badQuarters w ≠ 0 → ∃ t, exec (.jigMicroword ch p) s = .next t ∧ (jigAt ch t).state = .machineCheck
        ∧ (jigAt ch t).mc = { valid := true, addr := g.pc, quarters := BitVec.ofNat 4 (badQuarters w) }
        ∧ (jigAt ch t).mcCount = satAdd g.mcCount 1 ∧ (jigAt ch t).mcClamps = true ∧ (jigAt ch t).drawer = []
        ∧ (jigAt ch t).stack = [])
    ∧ (badQuarters w = 0 → g.waiting = false → abortsWord ch w g x v = true →
        ∃ t, exec (.jigMicroword ch p) s = .next t ∧ (jigAt ch t).pc = BitVec.ofNat 11 abortPage ∧ (jigAt ch t).stack = g.stack
          ∧ (jigAt ch t).busQ = g.busQ ∧ (jigAt ch t).trap = g.trap)
    ∧ (∀ c, badQuarters w = 0 → g.waiting = false → abortsWord ch w g x v = false → earlyTrap ch w g x v = some c →
        ∃ t, exec (.jigMicroword ch p) s = .next t ∧ (jigAt ch t).pc = 0x004 ∧ (jigAt ch t).stack = []
          ∧ (jigAt ch t).trap = { valid := true, kind := true, cause := BitVec.ofNat 8 c, addr := g.pc }
          ∧ (jigAt ch t).trapCount = satAdd g.trapCount 1
          ∧ t.irq.pend.getD (82 + ch) false = (v.irq.cause (82 + ch)).pend.getD (82 + ch) false
          ∧ t.irq.count.getD (82 + ch) 0 = (v.irq.cause (82 + ch)).count.getD (82 + ch) 0)
    ∧ (badQuarters w = 0 → g.waiting = false → abortsWord ch w g x v = false → earlyTrap ch w g x v = none →
        stallOf ch w g x v ≠ 0 →
        ∃ t, exec (.jigMicroword ch p) s = .next t ∧ (jigAt ch t).pc = g.pc
          ∧ (jigAt ch t).stall = BitVec.ofNat 4 (stallOf ch w g x v) ∧ (jigAt ch t).j = g.j ∧ (jigAt ch t).cntA = g.cntA
          ∧ (jigAt ch t).cntB = g.cntB ∧ (jigAt ch t).busQ = g.busQ)
    ∧ (∀ a stack, badQuarters w = 0 → g.waiting = false → abortsWord ch w g x v = false → earlyTrap ch w g x v = none →
        stallOf ch w g x v = 0 → seqGo w (condOf ch w g x p v) true (seenItem w g v.now) g = .to a stack →
        ∃ t, exec (.jigMicroword ch p) s = .next t ∧ (jigAt ch t).pc = BitVec.ofNat 11 a ∧ (jigAt ch t).stack = stack
          ∧ (jigAt ch t).waiting = false ∧ (jigAt ch t).stall = 0 ∧ (jigAt ch t).cntA = countOp (mwCntA w) w g g.cntA
          ∧ (jigAt ch t).cntB = countOp (mwCntB w) w g g.cntB))

/-! ### The codec and the ladder (chapters 7 and 8) -/

/-- An encoder adds the stored form of the next codeword of its page set to the channel write queue, which keeps what an
engine that has since failed gave it; one that shows a fault leaves service, is recorded and raises source 241 (R230, R231,
R232, R244). -/
def Obligations.EncodersFillTheWriteQueue : Prop :=
  (∀ (e h : Nat) (j : Job) (s : State), e < 4 → s.chans.length = 16 → j.ch < 16 → s.codec.engines.lookup e = some h →
      jobAt h s = some j → j.encoded < 16 → mayEncode j j.encoded s = true → (pageData j j.encoded s).2.1 = true →
    ∃ t x, exec (.codewordEncode e none) s = .next t ∧ jobAt h t = some x
      ∧ (if j.encoded < j.delivered then t.codec.parity = s.codec.parity ∧ x = { j with encoded := j.encoded + 1 }
          ∧ (chanAt j.ch t).wrq = (chanAt j.ch s).wrq
        else t.codec.parity = s.codec.parity ++ [(h, j.encoded,
            encodeCw j.block j.page (pageLabel j j.encoded s) (pageData j j.encoded s).1)]
          ∧ x = { j with encoded := j.encoded + 1, delivered := j.encoded + 1 }
          ∧ (chanAt j.ch t).wrq = (chanAt j.ch s).wrq
            + (encodeCw j.block j.page (pageLabel j j.encoded s) (pageData j j.encoded s).1).length)
      ∧ t.rings = s.rings ∧ t.modes = s.modes ∧ t.jigs = s.jigs ∧ t.stripe = s.stripe)
  ∧ (∀ (e h : Nat) (syn : Bool) (j : Job) (s : State), e < 4 → s.codec.engines.lookup e = some h → jobAt h s = some j →
      engineUp 0 e s = true →
    ∃ t, exec (.codewordEncode e (some syn)) s = .next t ∧ engineUp 0 e t = false
      ∧ (∀ i, i ≠ e → engineUp 0 i t = engineUp 0 i s) ∧ t.codec.faultValid = true ∧ t.codec.faultKind = 0
      ∧ t.codec.faultIndex.toNat = e ∧ t.codec.faultCause = (if syn = true then 2 else 1)
      ∧ t.evq.rseq = s.evq.rseq + 1 ∧ t.irq.raises = s.irq.raises.modify 1 (fun c => satAdd c 1))
  ∧ (∀ (e : Nat) (f : Option Bool) (s : State), e < 4 → s.codec.engines.lookup e = none →
    exec (.codewordEncode e f) s = .next s)

/-- Decodes: the codeword that an engine holds is decoded, the counters of its kind follow RESULT, and a failure without
convergence is kept in CODEC_LASTFAIL; a damaged work area gives no decode; a fault takes the engine out of service (R236, R238,
R241, R242, R244, R279, R563).
Log entry 8 names what in it is the model's own reading or choice. -/
def Obligations.DecodesCountTheirResults : Prop :=
  (∀ (k e job cw : Nat) (cmd : Bool → Instr) (dj : DecJob) (c : Cw) (j : Job) (d : Decoded) (r s : State),
      (k = 0 ∧ e < 8 ∧ cmd = .hardDecode e job cw ∧ d = hardResult (ctxOf c j) (cfg 0x2400 2 s) dj.inject c.raw
      ∨ k = 1 ∧ e < 4 ∧ cmd = .softDecode e job cw ∧ readArea c.work (cwLen j.profile) s = (true, r) ∧ d = softResult c j r
      ∨ k = 2 ∧ e = 0 ∧ cmd = .fusionDecode e job cw ∧ readArea c.work (cwLen j.profile) s = (true, r)
        ∧ d = fusionResult c j r) →
      decodeAt k e job cw s = some dj → cwOf job cw s = some c → jobAt job s = some j →
    (∃ t, exec (cmd false) s = .next t
      ∧ (d.result ≤ 1 → t.codec.counters = s.codec.counters.modify (2 * k) (· + 1))
      ∧ (d.result = 2 → t.codec.counters = s.codec.counters.modify (2 * k + 1) (· + 1)
          ∧ t.codec.lastFail = BitVec.ofNat 128 (leVal (statusRecord (ctxOf c j) k e c.lun job d)))
      ∧ (d.result = 5 → t.codec.counters = s.codec.counters.modify 8 (· + 1))
      ∧ t.rings = s.rings ∧ t.modes = s.modes)
    ∧ (engineUp (k + 1) e s = true → ∃ t, exec (cmd true) s = .next t ∧ engineUp (k + 1) e t = false
      ∧ t.codec.faultValid = true ∧ t.codec.faultKind.toNat = k + 1 ∧ t.codec.faultIndex.toNat = e ∧ t.codec.faultCause = 1
      ∧ t.irq.raises = s.irq.raises.modify 1 (fun c => satAdd c 1)))
  ∧ (∀ (k e job cw : Nat) (cmd : Bool → Instr) (dj : DecJob) (c : Cw) (j : Job) (r s : State),
      (k = 1 ∧ e < 4 ∧ cmd = .softDecode e job cw ∨ k = 2 ∧ e = 0 ∧ cmd = .fusionDecode e job cw) →
      decodeAt k e job cw s = some dj → cwOf job cw s = some c → jobAt job s = some j →
      readArea c.work (cwLen j.profile) s = (false, r) → exec (cmd false) s = .next r)

/-- The ladder's steps 1 to 5: the failed codewords of a page that have the same to try go on together, under jobs of the step,
with thresholds not yet tried; step 2 uses a fresh trued set or waits for a search of the zone; for steps 4 and 5 every codeword
asks for a work area, and is sensed once it has one (R239, R248, R250, R254, R268, R272, R273, R277, R278).
Log entry 61 names what in it is the model's own reading or choice. -/
def Obligations.LadderStepsRereadThePage : Prop :=
  (∀ (job tag : Nat) (off : List Int) (j : Job) (c : Cw) (cs : List Cw) (s : State), jobAt job s = some j →
      climbers job 1 s = c :: cs → ladderRuns s = true → stepOneSet c j.pageOf s = some (off, tag) →
    ∃ t, exec (.predictedThresholds job) s = .next t
      ∧ climbsOn ((c :: cs).filter (fun x => stepOneSet x j.pageOf s == some (off, tag))) j 1 t
      ∧ t.rings = s.rings ∧ t.modes = s.modes ∧ t.stripe = s.stripe)
  ∧ (∀ (job : Nat) (j : Job) (c : Cw) (cs : List Cw) (s : State), jobAt job s = some j → climbers job 2 s = c :: cs →
      ladderRuns s = true → recentTrued j.lun j.block (zoneOf j.lun j.page s) s = none → tableOk j.lun s = true →
      (∀ q ∈ s.recov.searches, q.id < s.recov.nextSearch) →
    ∃ t, exec (.truedThresholds job) s = .next t
      ∧ (∀ x ∈ c :: cs, ∃ y ∈ t.sched.cws, y.cw = x.cw ∧ y.job = x.job ∧ y.step = 2 ∧ y.state = .truing)
      ∧ (∃ q ∈ t.recov.searches, q.lun = j.lun ∧ q.block = j.block ∧ q.zone = zoneOf j.lun j.page s)
      ∧ t.rings = s.rings ∧ t.modes = s.modes ∧ t.stripe = s.stripe)
  ∧ (∀ (job : Nat) (j : Job) (c : Cw) (cs : List Cw) (e : TrueEntry) (s : State), jobAt job s = some j →
      climbers job 2 s = c :: cs → ladderRuns s = true → recentTrued j.lun j.block (zoneOf j.lun j.page s) s = some e →
    ∃ t, exec (.truedThresholds job) s = .next t ∧ climbsOn (c :: cs) j 2 t ∧ t.rings = s.rings ∧ t.modes = s.modes)
  ∧ (∀ (job i : Nat) (j : Job) (c : Cw) (cs : List Cw) (s : State), jobAt job s = some j → climbers job 3 s = c :: cs →
      ladderRuns s = true → nextRetry c j.pageOf s = some i →
    ∃ t, exec (.retryTable job) s = .next t
      ∧ climbsOn ((c :: cs).filter (fun x => nextRetry x j.pageOf s == some i)) j 3 t
      ∧ (∃ k ∈ t.sched.jobs, k.owner = j.owner ∧ k.lun = j.lun ∧ k.step = 3 ∧ k.items.length = 2)
      ∧ t.rings = s.rings ∧ t.modes = s.modes ∧ t.stripe = s.stripe)
  ∧ (∀ (k job : Nat) (j : Job) (c : Cw) (cs : List Cw) (s : State), (k = 4 ∨ k = 5) → jobAt job s = some j →
      climbers job k s = c :: cs → ladderRuns s = true → areaTurns s = [] → (∀ x ∈ s.sched.cws, x.state ≠ .waitArea) →
    ∃ t, exec (if k = 4 then .softRead job else .fusion job) s = .next t
      ∧ (∀ x ∈ c :: cs, ∃ y ∈ t.sched.cws, y.cw = x.cw ∧ y.member = x.member ∧ y.step = k
          ∧ (y.state = .waitArea ∨ y.state = .reading))
      ∧ (cs = [] → c.work = none → areasHeld s < s.codec.workLimit.toNat → findArea s ≠ none →
          (k = 5 → 1 ≤ cfg 0x2500 0x10 s) →
          climbsOn [c] j k t ∧ ∃ y ∈ t.sched.cws, y.cw = c.cw ∧ y.member = c.member ∧ y.work ≠ none ∧ y.sensings = [])
      ∧ t.rings = s.rings ∧ t.modes = s.modes ∧ t.stripe = s.stripe)
  ∧ (∀ (job : Nat) (c : Instr) (s : State), ladderRuns s = false →
      (c = .predictedThresholds job ∨ c = .truedThresholds job ∨ c = .retryTable job ∨ c = .softRead job ∨ c = .fusion job) →
      exec c s = .next s)

/-- Step 6: the other members' codewords are read, and the entry notes the step; from what they gave, a codeword whose row
still gives it is rebuilt, one that the row never held reads as zeros, and any other is lost and its entry counts the loss. A
row whose directory entry is not cached waits for it while the window's read meets errors (R251, R280, R303, R323, R337,
R593).
Log entries 13, 61 and 83 name what in it is the model's own reading or choice. -/
def Obligations.ReconstructionRebuildsOrLoses : Prop :=
  (∀ (job cw : Nat) (w : HostRead) (c : Cw) (u v s : State), stepSixOf job cw s = none → ladderRuns s = true →
      (climbers job 6 s).find? (fun c => c.cw == cw) = some c → useEntry c.group w s = (true, v) →
      readWants v.bg.nextRun (cwPrio c v)
        (((givers c.group c.row v).filter (· != c.member)).map (wantOf c.group c.row (2 ^ c.cw) v))
        (takeRow { service := .reconstruct, group := c.group, row := c.row, member := c.member, job := c.job, cw := c.cw } v)
        = some u →
    ∃ t, exec (.reconstruction job cw w) s = .next t
      ∧ (∃ r ∈ t.bg.runs, r.service = .reconstruct ∧ r.job = c.job ∧ r.cw = c.cw ∧ r.group = c.group ∧ r.row = c.row)
      ∧ (∃ y ∈ t.sched.cws, y.job = c.job ∧ y.cw = c.cw ∧ y.state = .recovering ∧ y.step = 6)
      ∧ (∀ eid e, c.eid = some eid → entryAt eid s = some e →
          entryAt eid t = some { e with ladderStep := max e.ladderStep 6 })
      ∧ t.rings = s.rings ∧ t.modes = s.modes)
  ∧ (∀ (job cw mask : Nat) (w : HostRead) (got : List MemberRead) (run : RowRun) (c : Cw) (u v s : State), stepSixOf job cw s = some run →
      runQuiet run.id s = true → cwOf run.job run.cw s = some c → gather (runCws run.id s) s = (got, true, u) →
      v = endRow run.id u → mask = maskWith c.group c.row got v →
    (c.member < (dirAt c.group v).width → bitAt mask c.member = false →
        exec (.reconstruction job cw w) s = .next (landCw { c with step := 6 } zeroCw v))
    ∧ ((c.member < (dirAt c.group v).width → bitAt mask c.member = true) → ∀ eid e, c.eid = some eid →
        entryAt eid s = some e →
        ∃ t x, exec (.reconstruction job cw w) s = .next t ∧ entryAt eid t = some x
          ∧ (∀ d, rebuildOne c.group c.member c.row c.cw mask got v = some d →
              x.rebuilt = true ∧ x.lost = e.lost ∧ t.recov.resolved = s.recov.resolved.modify 5 (· + 1))
          ∧ (rebuildOne c.group c.member c.row c.cw mask got v = none →
              x.lost = e.lost + 1 ∧ x.rebuilt = e.rebuilt ∧ t.recov.lost = s.recov.lost + 1
              ∧ (∀ y ∈ t.sched.cws, ¬ (y.job = c.job ∧ y.cw = c.cw)))))
  ∧ (∀ (job cw : Nat) (w : HostRead) (run : RowRun) (s : State), stepSixOf job cw s = some run →
      runQuiet run.id s = false → exec (.reconstruction job cw w) s = .next s)
  ∧ (∀ (job cw : Nat) (w : HostRead) (s : State), stepSixOf job cw s = none → ladderRuns s = false →
      exec (.reconstruction job cw w) s = .next s)
  ∧ (∀ (g : Nat) (w : HostRead) (s : State), s.stripe.granted = true → g < s.stripe.dirEntries →
      s.stripe.missing.contains g = false → s.stripe.readHeld.contains g = false →
    (s.modes.follower = true → useEntry g w s = (true, s))
    ∧ (s.modes.follower = false → hostReady s = false → useEntry g w s = (false, s))
    ∧ (s.modes.follower = false → hostReady s = true →
    (entryCached g s = true → useEntry g w s = (true, cacheTouch g s))
    ∧ (entryCached g s = false → (∀ bs, w = .ok bs → ∃ v, useEntry g w s = (true, v) ∧ v.stripe.dir = s.stripe.dir
            ∧ v.bg = s.bg ∧ v.sched = s.sched)
        ∧ (w = .err → ∃ v, useEntry g w s = (false, v) ∧ v.stripe.readHeld = s.stripe.readHeld ++ [g]
            ∧ ∀ (job cw : Nat) (c : Cw), stepSixOf job cw s = none → ladderRuns s = true →
              (climbers job 6 s).find? (fun c => c.cw == cw) = some c → c.group = g →
              exec (.reconstruction job cw w) s = .next v))))

/-- A truing search whose iteration is sensed, and whose work area is sound, ends as not randomised, converges into the
cache, or moves its offsets; a damaged work area ends nothing; a search that has lasted 5 ms is abandoned, counted and
reported by source 114; the last search of initial truing lets recovery, and TRAIN with it, go on (R73, R269, R271, R272,
R563).
Log entry 61 names what in it is the model's own reading or choice. -/
def Obligations.TruingSearches : Prop :=
  (∀ (id : Nat) (q : Search) (s : State), s.recov.searches.find? (fun x => x.id == id) = some q → q.work ≠ none →
      (∀ p < max 1 (lunBits q.lun s), ∃ x ∈ q.sensings, x.1 = p) →
    ((readArea q.work (cwLen q.profile) s).1 = false →
      exec (.truingIteration id) s = .next (settleRecovery (readArea q.work (cwLen q.profile) s).2))
    ∧ ((readArea q.work (cwLen q.profile) s).1 = true → ∃ t, exec (.truingIteration id) s = .next (settleRecovery t)
        ∧ t.rings = s.rings ∧ t.modes = s.modes
      ∧ (if q.first = true ∧ 8 * cwLen q.profile < 2 * (stateCounts q (max 1 (lunBits q.lun s)) s).getD 0 0 then
          (∀ x ∈ t.recov.searches, x.id ≠ id) ∧ t.recov.trueOk = s.recov.trueOk
        else match moveLevels q (max 1 (lunBits q.lun s)) (stateCounts q (max 1 (lunBits q.lun s)) s) s with
          | none => (∀ x ∈ t.recov.searches, x.id ≠ id) ∧ t.recov.trueOk = s.recov.trueOk + 1
              ∧ (∃ e ∈ t.recov.cache, e.lun = q.lun ∧ e.block = q.block ∧ e.zone = q.zone ∧ e.off = q.off)
          | some q' => ∃ x ∈ t.recov.searches, x.id = id ∧ x.off = q'.off ∧ x.first = false)))
  ∧ (∀ (id : Nat) (q : Search) (s : State), s.recov.searches.find? (fun x => x.id == id) = some q → q.work ≠ none →
      5000 ≤ s.now - q.start →
    ∃ t, exec (.truingAbandon id) s = .next (settleRecovery t) ∧ (∀ x ∈ t.recov.searches, x.id ≠ id)
      ∧ t.recov.trueAbandon = s.recov.trueAbandon + 1 ∧ t.irq = s.irq.cause 114 ∧ t.rings = s.rings ∧ t.modes = s.modes)
  ∧ (∀ (id : Nat) (s : State), s.recov.searches.find? (fun x => x.id == id) = none →
    exec (.truingIteration id) s = .next (settleRecovery s) ∧ exec (.truingAbandon id) s = .next (settleRecovery s))

/-- Dose: each tick adds to every channel's clock what its temperature gives; the clocks are saved with the wall clock once it
has been known; writing wallClock makes the dose known; without a write the wake sweep starts (R258, R259, R262, R263, R285).
Log entries 17 and 41 name what in it is the model's own reading or choice. -/
def Obligations.DoseClocksAndWallClock : Prop :=
  (∀ s : State, clocksRun s = true → s.recov.clocks.length = 16 → s.recov.hostTempAge.length = 16 →
    ∃ t, exec .doseTick s = .next t
      ∧ (∀ ch < 16, t.recov.clocks.getD ch 0 = s.recov.clocks.getD ch 0 + BitVec.ofNat 64 (doseUnits
          (accel (if cfg 0x2500 3 s = 1 ∧ s.recov.hostTempAge.getD ch 0 + 1 < 10 then
              sgn 16 (leVal (stored (0x2510 + ch) 2 s)) else meanTemp s) s)
          (1000 * cfg 0x2500 2 s)))
      ∧ (cfg 0x2500 3 s ≠ 1 → t.irq = s.irq) ∧ t = { s with recov := t.recov, irq := t.irq })
  ∧ (∀ s : State, clocksRun s = false → exec .doseTick s = .next s ∧ exec .doseSave s = .next s)
  ∧ (∀ s : State, clocksRun s = true → s.modes.holdup = false →
    ∃ t, exec .doseSave s = .next t
      ∧ t.recov = { s.recov with savedWall := if s.recov.doseKnown = true
          ∨ s.recov.savedWall ≠ none then some (wallNow s) else none }
      ∧ t.rings = s.rings ∧ t.modes = s.modes ∧ t.stripe = s.stripe)
  ∧ (∀ (v : BitVec 48) (s : State), clocksRun s = false → exec (.wallClock v) s = .next s)
  ∧ (∀ (v : BitVec 48) (s : State), clocksRun s = true → ∃ t, exec (.wallClock v) s = .next t ∧ t.recov.wallClock = v
      ∧ t.recov.wallBase = s.now
      ∧ t.recov.doseKnown = true ∧ t.recov.savedWall = some v ∧ wallNow t = v ∧ stored 0x2500 6 t = le 6 v.toNat
      ∧ (s.recov.doseKnown = true → t.recov.clocks = s.recov.clocks) ∧ t.rings = s.rings ∧ t.modes = s.modes)
  ∧ (∀ s : State, s.recov.sweepPend = true → s.recov.doseKnown = false → clocksRun s = true →
    ∃ t, exec .wakeSweep s = .next t ∧ t.recov.sweepPend = false ∧ (t.recov.sweep = 2 ∨ t.recov.sweep = 3)
      ∧ t.rings = s.rings ∧ t.modes = s.modes)
  ∧ (∀ s : State, s.recov.sweepPend = false → exec .wakeSweep s = .next s)

/-- Drift monitor and retraining: a measure at the trip level and, in XM, tRTINT start a search unless one is under way; a
good one places a TRAIN job, a bad one keeps the settings, counts, reports and, three in a row, falls back once the channel's
jobs have ended; it starts again after its wait (R205 to R208).
Log entry 60 names what in it is the model's own reading or choice. -/
def Obligations.DriftStartsASearch : Prop :=
  (∀ (ch : Nat) (m : Byte) (s : State), ch < 16 → s.chans.length = 16 →
    ∃ t, exec (.driftTrip ch m) s = .next t ∧ (∀ n, n ≠ ch → chanAt n t = chanAt n s)
      ∧ t = { s with chans := t.chans, sched := { s.sched with jobs := t.sched.jobs, nextJob := t.sched.nextJob } }
      ∧ (chanAt ch t).drift.toNat = max (chanAt ch s).drift.toNat m.toNat
      ∧ (if (chanAt ch s).trip.toNat ≤ m.toNat ∧ (chanAt ch s).up = true then
          (chanAt ch t).driftTrip = true
          ∧ (if retraining ch s = true then (chanAt ch t).search = (chanAt ch s).search ∧ t.sched = s.sched
            else (chanAt ch t).search = true)
        else (chanAt ch t).driftTrip = (chanAt ch s).driftTrip ∧ (chanAt ch t).search = (chanAt ch s).search))
  ∧ (∀ (ch : Nat) (s : State), ch < 16 → s.chans.length = 16 →
    ((chanAt ch s).mode ≠ 4 → exec (.retrainDue ch) s = .next s)
    ∧ ((chanAt ch s).mode = 4 → ∃ t, exec (.retrainDue ch) s = .next t
        ∧ t = { s with chans := t.chans, sched := { s.sched with jobs := t.sched.jobs, nextJob := t.sched.nextJob } }
        ∧ (retraining ch s = true → chanAt ch t = { chanAt ch s with retrainDue := true } ∧ t.sched = s.sched)
        ∧ (retraining ch s = false → chanAt ch t = { chanAt ch s with retrainDue := true, search := true })))
  ∧ (∀ (ch : Nat) (r : SearchResult) (ts : List TargetIn) (s : State), ch < 16 → (chanAt ch s).search = false →
    exec (.retrainSearchEnd ch r ts) s = .next s)
  ∧ (∀ (ch : Nat) (r : SearchResult) (ts : List TargetIn) (s : State), ch < 16 → s.chans.length = 16 →
      (chanAt ch s).search = true → judgeSearch r s = 0 →
    ∃ t, exec (.retrainSearchEnd ch r ts) s = .next t
      ∧ chanAt ch t = { chanAt ch s with search := false, badRun := 0 }
      ∧ (s.modes.holdup = false → ∃ j ∈ t.sched.jobs, j.owner = .train ∧ j.prio = 0 ∧ lunChan j.lun = ch)
      ∧ (s.modes.holdup = true → ∀ j ∈ t.sched.jobs, j ∈ s.sched.jobs)
      ∧ (∀ j ∈ t.sched.jobs, j.owner = .pattern → j.ch = ch → j.state = .popped ∨ j.state = .ended)
      ∧ t = { s with chans := t.chans, sched := t.sched, jigs := t.jigs, luns := t.luns })
  ∧ (∀ (ch : Nat) (r : SearchResult) (ts : List TargetIn) (s : State), ch < 16 → s.chans.length = 16 →
      (chanAt ch s).search = true → judgeSearch r s ≠ 0 → (chanAt ch s).badRun ≠ 2 →
    ∃ t, exec (.retrainSearchEnd ch r ts) s = .next t ∧ t.irq = s.irq.cause (98 + ch)
      ∧ chanAt ch t = { chanAt ch s with
          search := false, failCount := satAdd (chanAt ch s).failCount 1, searchFails := (chanAt ch s).searchFails + 1
          lastResult := BitVec.ofNat 4 (judgeSearch r s), restartPend := true, badRun := (chanAt ch s).badRun + 1 }
      ∧ t = { s with chans := t.chans, irq := t.irq, sched := t.sched, jigs := t.jigs, luns := t.luns })
  ∧ (∀ (ch : Nat) (r : SearchResult) (ts : List TargetIn) (s : State), ch < 16 → s.chans.length = 16 →
      (chanAt ch s).search = true → judgeSearch r s ≠ 0 → (chanAt ch s).badRun = 2 → runningJobs ch s = [] →
    ∃ t, exec (.retrainSearchEnd ch r ts) s = .next t ∧ (chanAt ch t).badRun = 0 ∧ (chanAt ch t).search = false
      ∧ (chanAt ch t).failCount = satAdd (chanAt ch s).failCount 1
      ∧ (chanAt ch t).fallback = ((chanAt ch s).fallback || ((allowedRates ch
          (((List.range 8).filter (fun i => bitAt (chanAt ch s).present.toNat i)).map
            (fun i => (chanAt ch s).dieTypes.getD i 0)) s).any (fun x => decide (x < (chanAt ch s).rate)))))
  ∧ (∀ (ch : Nat) (r : SearchResult) (ts : List TargetIn) (s : State), ch < 16 → s.chans.length = 16 →
      s.jigs.length = 16 → (chanAt ch s).search = true → judgeSearch r s ≠ 0 → (chanAt ch s).badRun = 2 →
      runningJobs ch s ≠ [] →
    ∃ t, exec (.retrainSearchEnd ch r ts) s = .next t ∧ (chanAt ch t).badRun = 3 ∧ (chanAt ch t).search = false
      ∧ (jigAt ch t).fallPend = true ∧ (chanAt ch t).fallIn = ts ∧ (chanAt ch t).rate = (chanAt ch s).rate
      ∧ t.irq = s.irq.cause (98 + ch))
  ∧ (∀ (ch : Nat) (s : State), ch < 16 → s.chans.length = 16 →
    ((chanAt ch s).restartPend = false → exec (.searchRestart ch) s = .next s)
    ∧ ((chanAt ch s).restartPend = true → ∃ t, exec (.searchRestart ch) s = .next t
        ∧ t = { s with chans := t.chans, sched := { s.sched with jobs := t.sched.jobs, nextJob := t.sched.nextJob } }
        ∧ chanAt ch t = { chanAt ch s with
            search := (chanAt ch s).search
              || !(s.sched.jobs.any (fun j => j.ch == ch && (j.owner == .pattern || j.owner == .train))), restartPend := false }))

/-! ### The glue-up journal and the directory window (chapter 9) -/

/-- Journal pages: the waiting records go out in order, at most 2,047 to a page; a snapshot page of a fold is read from the
window and goes in its turn; a page whose copies have all passed makes its records durable; recovery, once its reads have
their clamps, replays what it can trust and scans the seals otherwise; a candidate written is kept (R16, R306, R307, R308,
R310, R311, R315, R325, R364, R366, R490, R502, R593).
Log entries 24 and 54 name what in it is the model's own reading or choice. -/
def Obligations.JournalPagesAndRecovery : Prop :=
  (∀ s : State, jrnlWrites s = false → exec .journalPageStart s = .next s)
  ∧ (∀ s : State, jrnlWrites s = true → s.stripe.jrnl.queue ≠ [] →
      (s.stripe.jrnl.snapTurn = false ∨ snapWhole s = false ∨ s.stripe.jrnl.folding = false ∨ s.stripe.jrnl.snapLeft = 0
        ∨ s.modes.holdup = true) →
    ∃ t p, exec .journalPageStart s = .next t ∧ t.stripe.jrnl.queue = s.stripe.jrnl.queue.drop 2047
      ∧ t.stripe.jrnl.inFlight = some p ∧ p.kind = 0 ∧ p.jseq = s.stripe.jrnl.jseq + 1 ∧ p.page = s.stripe.jrnl.page
      ∧ p.recs = (s.stripe.jrnl.queue.take 2047).map (stampFold (s.stripe.jrnl.jseq + 1))
      ∧ t.stripe.jrnl.copiesLeft = p.copies
      ∧ t.stripe.jrnl.pageRecs = s.stripe.jrnl.pageRecs + min 2047 s.stripe.jrnl.queue.length
      ∧ t.rings = s.rings ∧ t.modes = s.modes ∧ t.stripe.dir = s.stripe.dir)
  ∧ (∀ s : State, jrnlWrites s = true → snapReady s = true → snapWhole s = false → s.stripe.jrnl.queue = [] →
    (snapReading s = true → exec .journalPageStart s = .next s)
    ∧ (snapReading s = false → ∃ t, exec .journalPageStart s = .next t
      ∧ (∀ x ∈ snapReads s, ∃ r ∈ t.host.reads ++ t.host.rstalled, r.what = .snapRead ∧ r.addr = BitVec.ofNat 64 x.1
          ∧ r.len = x.2)
      ∧ t = { s with host := t.host, stripe := { s.stripe with jrnl := { s.stripe.jrnl with snapGot := [] } } }))
  ∧ (∀ s : State, jrnlWrites s = true → snapWhole s = true → s.stripe.jrnl.folding = true → 0 < s.stripe.jrnl.snapLeft →
      s.modes.holdup = false → (s.stripe.jrnl.queue = [] ∨ s.stripe.jrnl.snapTurn = true) →
    ∃ t p, exec .journalPageStart s = .next t ∧ t.stripe.jrnl.inFlight = some p ∧ p.kind = 1
      ∧ p.woff = (snapPages s - s.stripe.jrnl.snapLeft) * 61440 ∧ p.snap = snapData s ∧ p.snap.length = 61440
      ∧ t.stripe.jrnl.snapLeft = s.stripe.jrnl.snapLeft - 1 ∧ t.rings = s.rings ∧ t.modes = s.modes)
  ∧ (∀ (p : JPage) (s : State), s.stripe.jrnl.inFlight = some p → s.stripe.jrnl.copiesLeft = [] → s.stripe.jrnl.lost = false →
    ∃ t, exec .journalPageDurable s = .next t ∧ t.stripe.jrnl.inFlight = none
      ∧ t.stripe.jrnl.durableRec = s.stripe.jrnl.pageRecs)
  ∧ (∀ s : State, (s.stripe.jrnl.inFlight = none ∨ s.stripe.jrnl.copiesLeft ≠ []) → exec .journalPageDurable s = .next s)
  ∧ (∀ (i : RecoveryIn) (s : State), ¬ (s.stripe.jrnl.state = 1 ∧ s.stripe.jrnl.recStep = 2) →
    exec (.journalRecovery i) s = .next (settle s))
  ∧ (∀ (i : RecoveryIn) (s : State), s.stripe.jrnl.state = 1 → s.stripe.jrnl.recStep = 2 →
      recoveryGranted (grantForecast s) = false → exec (.journalRecovery i) s = .next (settle (grantForecast s)))
  ∧ (∀ (i : RecoveryIn) (s : State), s.stripe.jrnl.state = 1 → s.stripe.jrnl.recStep = 2 →
      recoveryGranted (grantForecast s) = true →
    ∃ t u, exec (.journalRecovery i) s = .next t ∧ t = settle u ∧ t.bg.scanned = u.bg.scanned
      ∧ t.stripe.granted = u.stripe.granted
      ∧ (if s.stripe.jrnl.anchorValid = true ∧ (journalRun i s.stripe.jrnl).isSome = true then
          u.stripe.jrnl.recStep = 4 ∨ u.stripe.jrnl.recStep = 5 ∨ u.bg.scanned = true
        else u.bg.scanned = true ∧ u.modes.fenceJournal = true ∧ u.stripe.granted = true))
  ∧ (∀ (sub : Nat) (lun : BitVec 16) (s : State), 1 ≤ sub → sub ≤ 8 →
    ((dictServes s = false ∨ s.modes.holdup = true ∨ saveWorks s = false ∨ (4096 ≤ lun.toNat ∧ lun ≠ 0xFFFF)) →
      exec (.journalCandidates sub lun) s = .next s)
    ∧ (dictServes s = true → s.modes.holdup = false → saveWorks s = true → (lun.toNat < 4096 ∨ lun = 0xFFFF) → ∃ t, exec (.journalCandidates sub lun) s = .next t ∧ stored 0x2801 sub t = le 2 lun.toNat
      ∧ t.rings = s.rings
      ∧ (s.stripe.jrnl.moving = false ∨ s.stripe.jrnl.pairWaits = false ∨ s.modes.follower = true → t.stripe = s.stripe
          ∧ t.modes = s.modes)))

/-- The window: a grant is judged by the checks of R318 and R319 once recovery waits for it; an entry read from it is cached,
and after a fabric error held, as other window reads are, until it is read again; a held write is issued again (R318, R319,
R323, R324, R419, R593).
Log entries 53 and 64 name what in it is the model's own reading or choice. -/
def Obligations.WindowGrantAndAccess : Prop :=
  (∀ (v : Word) (s : State), bitAt v.toNat 0 = false → exec (.stripeWinGrant v) s = .next s)
  ∧ (∀ (v : Word) (s : State), bitAt v.toNat 0 = true →
    (s.modes.follower = true → exec (.stripeWinGrant v) s = .next (settle s)
        ∧ (s.dv.tkClose = false → (settle s).stripe.err = s.stripe.err
          ∧ (settle s).stripe.granted = s.stripe.granted ∧ (settle s).stripe.grantPend = s.stripe.grantPend))
    ∧ (s.modes.follower = false → s.stripe.granted = true →
        ∃ t, exec (.stripeWinGrant v) s = .next t ∧ t = settle { s with stripe := { s.stripe with err := 4 } }
          ∧ t.stripe.err = 4 ∧ t.stripe.granted = true
          ∧ t.stripe.dirOff = s.stripe.dirOff ∧ t.stripe.dirEntries = s.stripe.dirEntries)
    ∧ (s.modes.follower = false → s.stripe.granted = false →
        (s.stripe.jrnl.recStep ≠ 1 ∨ copiesIn s = false) →
        ∃ t, exec (.stripeWinGrant v) s = .next t ∧ t = settle { s with stripe := { s.stripe with grantPend := true } }
          ∧ (s.dv.tkClose = false → t.stripe.grantPend = true ∧ t.stripe.granted = false ∧ t.stripe.err = s.stripe.err))
    ∧ (s.modes.follower = false → s.stripe.granted = false → s.stripe.jrnl.recStep = 1 → copiesIn s = true →
        grantError s ≠ 0 →
        ∃ t, exec (.stripeWinGrant v) s = .next t
          ∧ t = settle { s with stripe := { s.stripe with err := BitVec.ofNat 8 (grantError s) } }
          ∧ (s.dv.tkClose = false → t.stripe.err = BitVec.ofNat 8 (grantError s)
            ∧ t.stripe.granted = false ∧ t.stripe.grantPend = s.stripe.grantPend))
    ∧ (s.modes.follower = false → s.stripe.granted = false → s.stripe.jrnl.recStep = 1 → copiesIn s = true →
        grantError s = 0 →
        ∃ t, exec (.stripeWinGrant v) s = .next t ∧ t = settle (acceptGrant s)
          ∧ t.stripe.granted = true ∧ (s.dv.tkClose = false → t.stripe.err = 0)
          ∧ t.stripe.dirOff = dirOffset s ∧ t.stripe.dirEntries = (winBytes s - dirOffset s) / 256
          ∧ (anchorsBlank s = false → s.dv.draining = false → t.stripe.jrnl.recStep = 2)))
  ∧ (∀ (off : BitVec 64) (bs : List Byte) (s : State), s.stripe.held = [(off, bs)] → bs ≠ [] →
      (winBase s + off.toNat) % 4096 + bs.length ≤ 4096 →
      (∀ r ∈ s.host.writes ++ s.host.stalled, r.addr.toNat ≠ winBase s + off.toNat) →
    ∃ t, exec .windowWriteRetry s = .next t ∧ asks t (.window off.toNat) (winBase s + off.toNat) bs
      ∧ t = { s with host := t.host })
  ∧ (∀ s : State, s.stripe.held = [] → exec .windowWriteRetry s = .next s)
  ∧ (∀ s : State, ∃ t, exec .windowReadRetry s = .next t ∧ t.recov.doseHeld = []
      ∧ (∀ k ∈ s.recov.doseHeld, ∃ r ∈ t.host.reads ++ t.host.rstalled, r.what = .doseRead k.1 k.2)
      ∧ (∀ h ∈ s.stripe.winReadHeld, h.2.2 ≠ 0 → ∃ r ∈ t.host.reads ++ t.host.rstalled, r.what = h.1
          ∧ r.addr = BitVec.ofNat 64 h.2.1)
      ∧ t = { s with
          stripe := { s.stripe with missing := s.stripe.missing ++ s.stripe.readHeld, readHeld := [], winReadHeld := [] }
          recov := { s.recov with doseHeld := [] }, host := t.host })
  ∧ (∀ (g : Nat) (r : HostRead) (s : State), (g ∉ s.stripe.missing ∨ hostReady s = false) →
      exec (.dirCacheMiss g r) s = .next s)
  ∧ (∀ (tag : Nat) (r : HostReq) (s : State), s.host.reads.find? (fun x => x.tag == tag) = some r →
      (r.what = .snapRead ∨ ∃ i, r.what = .bindRead i) →
    ∃ t, exec (.hostReadDone tag .err) s = .next t
      ∧ t.stripe = { s.stripe with winReadHeld := s.stripe.winReadHeld ++ [(r.what, r.addr.toNat, r.len)] }
      ∧ t = { s with stripe := t.stripe, host := t.host })
  ∧ (∀ (g : Nat) (s : State), g ∈ s.stripe.missing → hostReady s = true →
    ∃ t, exec (.dirCacheMiss g .err) s = .next t ∧ t.stripe.readHeld = s.stripe.readHeld ++ [g] ∧ g ∉ t.stripe.missing
      ∧ t = { s with
          stripe := { s.stripe with missing := t.stripe.missing, readHeld := t.stripe.readHeld }
          host := { s.host with issued := t.host.issued, answered := t.host.answered } })
  ∧ (∀ (g : Nat) (b : List Byte) (s : State), g ∈ s.stripe.missing → hostReady s = true →
      s.stripe.cache.length < 4096 →
    ∃ t, exec (.dirCacheMiss g (.ok b)) s = .next t ∧ g ∉ t.stripe.missing ∧ g ∈ t.stripe.cache
      ∧ dirAt g t = (if (dirAt g s).state = 0 ∧ byteAt b 3 ≠ 0 ∧ dirBytesBad b = false then
          { parseDir b with group := g } else dirAt g s)
      ∧ t = { s with
          stripe := { s.stripe with
            missing := t.stripe.missing, cache := t.stripe.cache, dir := t.stripe.dir, lines := t.stripe.lines }
          host := { s.host with issued := t.host.issued, answered := t.host.answered } })

/-! ### Failure, rebuild, patrol and refit (chapter 10) -/

/-- A LUN declared failed is noted and takes every member on it out of service; a failed member may be retired; a loss ledger
entry may be cleared; a refit may be aborted (R328, R331, R343, R362, R490, R502).
Log entry 38 names what in it is the model's own reading or choice. -/
def Obligations.OperatorsDeclareAndClear : Prop :=
  (∀ (u : BitVec 16) (s : State), (4096 ≤ u.toNat ∨ appliesObjects s = false) → exec (.declareLunFailed u) s = .next s)
  ∧ (∀ (u : BitVec 16) (s : State), appliesObjects s = true → u.toNat < 4096 → s.bg.refitState = 0 →
    ∃ t, exec (.declareLunFailed u) s = .next t ∧ (lunRec u.toNat t).failed = true
      ∧ (∀ g m, (dirAt g s).state ≠ 0 → m < (dirAt g s).members.length → (memberAt g m s).lun = u.toNat →
          (memberAt g m t).mstate = 1 ∨ (memberAt g m t).mstate = 3))
  ∧ (∀ (v : Word) (s : State), (retirable v.toNat s = false ∨ appliesObjects s = false) → exec (.retireMember v) s = .next s)
  ∧ (∀ (v : Word) (s : State), appliesObjects s = true → retirable v.toNat s = true →
    ∃ t, exec (.retireMember v) s = .next t ∧ (memberAt (fld v.toNat 0 24) (fld v.toNat 24 8) t).mstate = 3
      ∧ (∀ m, m ≠ fld v.toNat 24 8 → memberAt (fld v.toNat 0 24) m t = memberAt (fld v.toNat 0 24) m s)
      ∧ mkRec 0x11 (fld v.toNat 0 24) [(8, fld v.toNat 24 8)] ∈ t.stripe.jrnl.queue
      ∧ t.rings = s.rings)
  ∧ (∀ (i : BitVec 16) (s : State), (4096 ≤ i.toNat ∨ (∀ p ∈ s.stripe.ledger, p.1 ≠ i.toNat) ∨ appliesObjects s = false) →
    exec (.ledgerClear i) s = .next s)
  ∧ (∀ (i : BitVec 16) (e : LossEntry) (s : State), appliesObjects s = true → i.toNat < 4096 → (i.toNat, e) ∈ s.stripe.ledger →
    ∃ t, exec (.ledgerClear i) s = .next t ∧ t.stripe.ledger = dropKey i.toNat s.stripe.ledger
      ∧ t.stripe.ledgerFull = false ∧ mkRec 0x19 0 [(2, i.toNat)] ∈ t.stripe.jrnl.queue
      ∧ t.rings = s.rings ∧ t.modes = s.modes)
  ∧ (∀ (v : Byte) (s : State), (v ≠ 1 ∨ s.bg.refitState = 0 ∨ appliesObjects s = false) → exec (.refitAbort v) s = .next s)
  ∧ (∀ s : State, appliesObjects s = true → s.bg.refitState ≠ 0 →
    ∃ t, exec (.refitAbort 1) s = .next t ∧ t.bg.refitState = 0 ∧ t.bg.sources = [] ∧ t.bg.targets = []
      ∧ t.modes.refit = false ∧ t.modes.mode = t.modes.primary ∧ t.rings = s.rings)

/-- Background rows: a rebuild with no group left ends and the next begins; a row of it is taken in hand and read, and once
its reads have ended its page is programmed on the spare; patrol takes the next sealed row in hand, moves past it once its
reads have ended, or ends its lap; a refit row is taken in hand, copied into a slot, and left once it is sealed; a row whose
directory entry must wait for the window is not taken (R323, R345, R347, R351, R352, R358).
Log entry 13 names what in it is the model's own reading or choice. -/
def Obligations.BackgroundRows : Prop :=
  (∀ (w : HostRead) (s : State), (s.bg.queue = [] ∨ bgRuns s = false ∨ s.bg.erasing = true) →
      exec (.rebuildRow w) s = .next s)
  ∧ (∀ (w : HostRead) (r : Rebuild) (rest : List Rebuild) (s : State), s.bg.queue = r :: rest → bgRuns s = true →
      s.bg.erasing = false →
      runOf .rebuild s = none → s.bg.active = false → (∀ g ∈ concerned r.group r.failedLun s, g < r.next) →
    ∃ t, exec (.rebuildRow w) s = .next t ∧ t.bg.queue = rest ∧ t.bg.active = false
      ∧ t.modes.rebuild = (!rest.isEmpty) ∧ t.modes.mode = t.modes.primary ∧ t.rings = s.rings)
  ∧ (∀ (w : HostRead) (s : State), s.bg.queue ≠ [] → bgRuns s = true → s.bg.erasing = false → runOf .rebuild s = none →
      s.bg.active = true → groupExists s.bg.curGroup s = true → groupReachable s.bg.curGroup s = true →
      s.bg.pointer < (dirAt s.bg.curGroup s).nextRow →
    (findSlot s.bg.curGroup s.bg.pointer s ≠ none → exec (.rebuildRow w) s = .next s)
    ∧ (∀ v, findSlot s.bg.curGroup s.bg.pointer s = none → useEntry s.bg.curGroup w s = (false, v) →
        exec (.rebuildRow w) s = .next v)
    ∧ (∀ u v, findSlot s.bg.curGroup s.bg.pointer s = none → useEntry s.bg.curGroup w s = (true, v) →
        readWants v.bg.nextRun 3 (rebuildWants s.bg.curGroup s.bg.curMember s.bg.pointer v) (takeRow
          { service := .rebuild, group := s.bg.curGroup, row := s.bg.pointer, member := s.bg.curMember } v) = some u →
        ∃ t, exec (.rebuildRow w) s = .next t ∧ t = u ∧ t.bg.pointer = s.bg.pointer
          ∧ (∃ x ∈ t.bg.runs, x.service = .rebuild ∧ x.group = s.bg.curGroup ∧ x.member = s.bg.curMember
              ∧ x.row = s.bg.pointer)
          ∧ t.rings = s.rings ∧ t.modes = s.modes))
  ∧ (∀ (w : HostRead) (run : RowRun) (s : State), s.bg.queue ≠ [] → bgRuns s = true → s.bg.erasing = false →
      runOf .rebuild s = some run → run.phase = .reading →
    (runQuiet run.id s = false → exec (.rebuildRow w) s = .next s)
    ∧ (∀ reads u, runQuiet run.id s = true → gather (runCws run.id s) s = (reads, true, u) →
        (run.wave ≠ 0 ∨ (moreWants run.group run.member run.row reads u).filter (fun x => x.mask != 0) = []) →
        (∀ x ∈ reads, x.member ≠ run.member) →
        ∃ t, exec (.rebuildRow w) s = .next t ∧ t.bg.rebuildState = 1 ∧ t.bg.pointer = s.bg.pointer
          ∧ (∃ x ∈ t.bg.runs, x.id = run.id ∧ x.phase = .programming ∧ x.page.length = 16)
          ∧ (∃ j ∈ t.sched.jobs, j.owner = .spare run.id ∧ j.prio = 3 ∧ j.page = run.row
              ∧ j.lun = (memberAt run.group run.member s).lun ∧ j.block = (memberAt run.group run.member s).block)
          ∧ t.rings = s.rings ∧ t.modes = s.modes))
  ∧ (∀ (w : HostRead) (v s : State), v = patrolUpdate s → runOf .patrol v = none →
    (patrolRuns v = false → exec (.patrolRow w) s = .next v)
    ∧ (∀ g r, patrolRuns v = true → nextPatrol v v.bg.patrolGroup v.bg.patrolRow = some (g, r) →
        (v.now < v.bg.patrolNext ∨ drawersIdle g v = false ∨ groupReachable g v = false → exec (.patrolRow w) s = .next v)
        ∧ (∀ x, v.bg.patrolNext ≤ v.now → drawersIdle g v = true → groupReachable g v = true →
            useEntry g w v = (false, x) → exec (.patrolRow w) s = .next x)
        ∧ (∀ u x, v.bg.patrolNext ≤ v.now → drawersIdle g v = true → groupReachable g v = true →
            useEntry g w v = (true, x) →
            readWants x.bg.nextRun 3 ((givers g r x).map (wantOf g r 0xFFFF x))
              (takeRow { service := .patrol, group := g, row := r } x) = some u →
            ∃ t, exec (.patrolRow w) s = .next t
              ∧ t = { u with bg := { u.bg with patrolNext := t.bg.patrolNext, lapStart := t.bg.lapStart } }
              ∧ t.bg.lapStart = some (v.bg.lapStart.getD v.now)
              ∧ t.bg.patrolNext = v.now + (1000000 + cfg 0x2900 3 v - 1) / max 1 (cfg 0x2900 3 v)
              ∧ (∃ x ∈ t.bg.runs, x.service = .patrol ∧ x.group = g ∧ x.row = r) ∧ t.rings = s.rings ∧ t.modes = s.modes))
    ∧ (patrolRuns v = true → nextPatrol v v.bg.patrolGroup v.bg.patrolRow = none →
        (v.bg.patrolGroup ≠ 0 ∨ v.bg.patrolRow ≠ 0) →
        ∃ t, exec (.patrolRow w) s = .next t ∧ t.bg.laps = s.bg.laps + 1 ∧ t.bg.patrolGroup = 0 ∧ t.bg.patrolRow = 0
          ∧ t.rings = s.rings ∧ t.modes = s.modes))
  ∧ (∀ (w : HostRead) (run : RowRun) (reads : List MemberRead) (u v s : State), v = patrolUpdate s →
      runOf .patrol v = some run →
    (runQuiet run.id v = false → exec (.patrolRow w) s = .next v)
    ∧ (runQuiet run.id v = true → gather (runCws run.id v) v = (reads, true, u) →
        ∃ t, exec (.patrolRow w) s = .next t ∧ t.bg.patrolGroup = run.group ∧ t.bg.patrolRow = run.row + 1
          ∧ t.bg.laps = s.bg.laps ∧ (∀ x ∈ t.bg.runs, x.id ≠ run.id) ∧ t.rings = s.rings ∧ t.modes = s.modes))
  ∧ (∀ (w : HostRead) (s : State), (bgRuns s = false ∨ runOf .refit s = none ∧ refitMay s = false) →
      exec (.refitRow w) s = .next s)
  ∧ (∀ (w : HostRead) (v s : State), bgRuns s = true → runOf .refit s = none → refitMay s = true →
    (useEntry (refitGroup s) w s = (false, v) → exec (.refitRow w) s = .next v)
    ∧ (useEntry (refitGroup s) w s = (true, v) → ∃ t, exec (.refitRow w) s = .next t
      ∧ (∃ x ∈ t.bg.runs, x.service = .refit ∧ x.row = s.bg.refitRow ∧ x.group = refitGroup s)
      ∧ t.bg.unit = s.bg.unit ∧ t.rings = s.rings ∧ t.modes = s.modes))
  ∧ (∀ (w : HostRead) (run : RowRun) (s : State), bgRuns s = true → runOf .refit s = some run →
    (run.phase = .reading → run.wave % 2 = 1 → runQuiet run.id s = false → exec (.refitRow w) s = .next s)
    ∧ (∀ got i u, run.phase = .reading → run.wave = 5 → runQuiet run.id s = true →
        gather (runCws run.id s) s = (got, true, u) → freeSlot run.group u = some i →
        ∃ t, exec (.refitRow w) s = .next t ∧ (slotAt i t).group = run.group ∧ (slotAt i t).row = run.row
          ∧ (slotAt i t).form = 4 ∧ (slotAt i t).state ≠ .free ∧ t.bg.unit = s.bg.unit ∧ t.rings = s.rings
          ∧ t.modes = s.modes)
    ∧ (run.phase = .sealing →
        (∀ i, findSlot run.group run.row s = some i → (slotAt i s).recNo = none → exec (.refitRow w) s = .next s)
        ∧ ((∀ i, findSlot run.group run.row s = some i → (slotAt i s).recNo ≠ none) →
          ∃ t, exec (.refitRow w) s = .next t ∧ t.bg.unit = s.bg.unit + (rowFill s).length
            ∧ (∀ x ∈ t.bg.runs, x.id ≠ run.id) ∧ t.rings = s.rings ∧ t.modes = s.modes)))

/-! ### The media port and the accumulator (chapter 11) -/

/-- Messages of the heads: taken by their KIND only, while the inbound queue has room, forwarded by a follower but for those
to its accumulator, answered NAK 0x01 where a field that must be zero is not; one that looks up a bind entry outside the
cache waits for the window read; ATTACH opens a job on a head that has none and DETACH ends it (R41, R373, R374, R376, R378,
R379, R385, R420).
Log entries 62 and 128 name what in it is the model's own reading or choice. -/
def Obligations.MediaMessagesAreAnswered : Prop :=
  (∀ (p : (BitVec 64 → Instr) × Nat) (m : BitVec 64) (s : State), p ∈ mediaCommands →
    (mKind m ≠ p.2 → exec (p.1 m) s = .next s)
    ∧ (inReady s = false → exec (p.1 m) s = .next s)
    ∧ (inReady s = true → s.modes.follower = true → mKind m = p.2 → p.2 < 8 →
        exec (p.1 m) s = .next (dvSend 0x30 (some s.modes.leadDie) (le 8 m.toNat)
          (modHead (mHead m) (fun x => { x with answers := x.answers ++ [{ fwd := some p.2 }] }) s)))
    ∧ (servesMedia m s → mKind m = p.2 → owesNothing (mHead m) s → msgZeros m = false → passWaits m s = false →
        rowsHeld m s → ∃ t, exec (p.1 m) s = .next t ∧ nakMsg m 1 ∈ t.media.out ∧ onlyMedia s t)
    ∧ (∀ i, servesMedia m s → mKind m = p.2 → looksUpRows m = true → s.stripe.granted = true →
        i ∈ bindsNear (mGroup m) (mRow m) (mRows m) s → i ∉ s.stripe.bindCache →
        ∃ t, exec (p.1 m) s = .next t ∧ t.media = { s.media with inQ := [m] } ∧ bindReading i t = true
          ∧ t = { s with media := t.media, host := t.host, stripe := { s.stripe with bindCache := t.stripe.bindCache } }))
  ∧ (∀ (m : BitVec 64) (s : State), knownKind (mKind m) = true → exec (.mediaReservedMsg m) s = .next s)
  ∧ (∀ (m : BitVec 64) (s : State), servesMedia m s → owesNothing (mHead m) s → knownKind (mKind m) = false →
    ∃ t, exec (.mediaReservedMsg m) s = .next t ∧ nakMsg m 1 ∈ t.media.out ∧ onlyMedia s t)
  ∧ (∀ (m : BitVec 64) (s : State), servesMedia m s → owesNothing (mHead m) s → mKind m = 1 → msgZeros m = true →
      (headAt (mHead m) s).job = none → fld m.toNat 0 32 ≠ 0xFFFFFFFF → headWire (mHead m) s = none →
    ∃ t, exec (.attach m) s = .next t ∧ (headAt (mHead m) t).job = some (BitVec.ofNat 32 (fld m.toNat 0 32))
      ∧ (headAt (mHead m) t).fed = [] ∧ ackMsg m ∈ t.media.out
      ∧ (∀ n, n ≠ mHead m → (headAt n t).job = (headAt n s).job ∧ (headAt n t).fed = (headAt n s).fed) ∧ onlyMedia s t)
  ∧ (∀ (m : BitVec 64) (s : State), servesMedia m s → owesNothing (mHead m) s → mKind m = 1 → msgZeros m = true →
      ((headAt (mHead m) s).job ≠ none ∨ fld m.toNat 0 32 = 0xFFFFFFFF) →
    ∃ t, exec (.attach m) s = .next t ∧ (headAt (mHead m) t).job = (headAt (mHead m) s).job
      ∧ nakMsg m (if fld m.toNat 0 32 = 0xFFFFFFFF then 1 else 0xA) ∈ t.media.out ∧ onlyMedia s t)
  ∧ (∀ (m : BitVec 64) (s : State), servesMedia m s → mKind m = 2 → msgZeros m = true →
    ∃ t, exec (.detach m) s = .next t ∧ (headAt (mHead m) t).job = none ∧ (headAt (mHead m) t).fed = []
      ∧ (headAt (mHead m) t).feed = none
      ∧ (∀ n, n ≠ mHead m → (headAt n t).job = (headAt n s).job ∧ (headAt n t).feed = (headAt n s).feed)
      ∧ t.rings = s.rings ∧ t.modes = s.modes ∧ t.stripe = s.stripe)

/-- FEED reads the data members of its rows in ascending order, one FEED to a head; FEED_RUN sends a unit in beats and ends
it with DATA_END; VERIFY_GOOD unbinds the rows, records it and is answered once that record is durable; VERIFY_BAD takes them
off the fed list, counts them and fires source 120 (R377, R386, R387, R388, R390, R391, R392).
Log entry 62 names what in it is the model's own reading or choice. -/
def Obligations.FeedsRunAndAreVerified : Prop :=
  (∀ (m : BitVec 64) (s : State), servesMedia m s → mKind m = 3 → (headAt (mHead m) s).job ≠ none →
      (headAt (mHead m) s).feeding = true → (headAt (mHead m) s).via = none → msgZeros m = true → rowsHeld m s →
    ∃ t, exec (.feed m) s = .next t ∧ t.media = { s.media with out := s.media.out ++ [nakMsg m 9] } ∧ onlyMedia s t)
  ∧ (∀ (m : BitVec 64) (units : List (Nat × Nat)) (s : State), servesMedia m s → mKind m = 3 →
      rangeFault m (headAt (mHead m) s).feeding s = none → units ≠ [] → msgZeros m = true → rowsHeld m s →
      units = (List.range (mRows m)).flatMap (fun k =>
        ((List.range (dirAt (mGroup m) s).width).filter (fun x => bitAt (sealedMask (mGroup m) (mRow m + k) s) x)).map
          (fun x => (mRow m + k, x))) →
    ∃ t f, exec (.feed m) s = .next t ∧ (headAt (mHead m) t).feed = some f ∧ f.group = mGroup m ∧ f.row = mRow m
      ∧ f.rows = mRows m ∧ f.read ++ f.units = units ∧ f.sending = none ∧ t.rings = s.rings ∧ t.modes = s.modes)
  ∧ (∀ (k : BitVec 64 → Instr) (m : BitVec 64) (r : Nat) (s : State), servesMedia m s → owesNothing (mHead m) s →
      (k = .feed ∧ mKind m = 3 ∧ r ≠ 9 ∨ k = .verifyGood ∧ mKind m = 4 ∨ k = .verifyBad ∧ mKind m = 5) →
      rangeFault m (decide (mKind m = 3) && (headAt (mHead m) s).feeding) s = some r → msgZeros m = true → rowsHeld m s →
    ∃ t, exec (k m) s = .next t ∧ nakMsg m r ∈ t.media.out ∧ onlyMedia s t)
  ∧ (∀ (h beats : Nat) (f : Feed) (u : Nat × Nat) (rest : List (Nat × Nat)) (s : State), h < 16 → s.media.heads.length = 16 →
      runTurn s = some h → (headAt h s).feed = some f → f.read = u :: rest → (headAt h s).via = none →
      ((unitData (unitCws h f.group u s) s).2.1 = true ∨ f.sending ≠ none) →
    (f.sending.getD 0 + beats < 2048 → ∃ t, exec (.feedRun h beats) s = .next t
      ∧ (headAt h t).feed = some { f with sending := some (f.sending.getD 0 + beats) } ∧ t.media.running = some h
      ∧ t.media.beats = s.media.beats
          ++ beatsOf beats ((unitData (unitCws h f.group u s) s).1.drop (32 * f.sending.getD 0))
      ∧ (f.sending = none → t.media.out = s.media.out ++ [mkMsg 3 h [(32, f.group), (12, u.1), (7, u.2)]])
      ∧ t.modes = s.modes ∧ t.rings = s.rings ∧ t.stripe = s.stripe)
    ∧ (2048 ≤ f.sending.getD 0 + beats → f.sending.getD 0 ≤ 2048 → ∃ t, exec (.feedRun h beats) s = .next t
      ∧ (headAt h t).runs = (headAt h s).runs + 1 ∧ t.media.running = none
      ∧ mkMsg 4 h [(40, lostMask (unitCws h f.group u s) 16), (27, 2048), (24, 0)] ∈ t.media.out
      ∧ (rest = [] → f.units = [] → (headAt h t).feed = none) ∧ t.modes = s.modes ∧ t.rings = s.rings))
  ∧ (∀ (h beats : Nat) (s : State), h < 16 → (runTurn s ≠ some h ∨ (headAt h s).feed = none) →
    exec (.feedRun h beats) s = .next s)
  ∧ (∀ (m : BitVec 64) (job : Word) (s : State), servesMedia m s → owesNothing (mHead m) s → mKind m = 4 →
      rangeFault m false s = none → (headAt (mHead m) s).job = some job →
      fedHolds (mGroup m) (mRow m) (mRows m) (headAt (mHead m) s).fed = true → 0 < bindsFree s →
      s.stripe.jrnl.durableRec ≤ s.stripe.jrnl.recNo → msgZeros m = true → rowsHeld m s →
    ∃ t, exec (.verifyGood m) s = .next t
      ∧ t.stripe.binds = (unbindRange (mGroup m) (mRow m) (mRows m) job s).2.stripe.binds
      ∧ (headAt (mHead m) t).released = (headAt (mHead m) s).released + mRows m
      ∧ (headAt (mHead m) t).fed = fedRemove (mGroup m) (mRow m) (mRows m) (headAt (mHead m) s).fed
      ∧ t.stats.rowsReleased = s.stats.rowsReleased + mRows m
      ∧ releaseRec 0x32 (mHead m) (mGroup m) (mRow m) (mRows m) job s ∈ t.stripe.jrnl.queue
      ∧ (headAt (mHead m) t).answers = [{
          msgs := [mkMsg 6 (mHead m) [(32, mGroup m), (12, mRow m), (0, mRows m)]], recNo := some (lastRec t) }]
      ∧ t.rings = s.rings ∧ t.modes = s.modes)
  ∧ (∀ (m : BitVec 64) (s : State), servesMedia m s → owesNothing (mHead m) s → mKind m = 5 → rangeFault m false s = none →
      msgZeros m = true → rowsHeld m s →
    ∃ t, exec (.verifyBad m) s = .next t
      ∧ (headAt (mHead m) t).fed = fedRemove (mGroup m) (mRow m) (mRows m) (headAt (mHead m) s).fed
      ∧ t.stats.verifyBadRows = s.stats.verifyBadRows + mRows m ∧ t.irq = s.irq.cause 120 ∧ ackMsg m ∈ t.media.out
      ∧ t = { s with
          media := t.media, dv := t.dv, stats := t.stats, irq := t.irq
          stripe := { s.stripe with bindCache := t.stripe.bindCache } })

/-- The accumulator: a head that it is open to opens, passes to, reads and closes fragments; another is answered NAK 0x06; a
pass is cut, refused for its sync or its score, or summed, and what waited behind it is served (R373, R378, R394, R395, R396,
R397, R398, R399).
Log entry 62 names what in it is the model's own reading or choice. -/
def Obligations.AccumulatorFragments : Prop :=
  (∀ (k : BitVec 64 → Instr) (m : BitVec 64) (s : State), servesMedia m s → owesNothing (mHead m) s → msgZeros m = true →
      (k = .fragOpen ∧ mKind m = 8 ∨ k = .pass ∧ mKind m = 9 ∨ k = .fragRead ∧ mKind m = 10 ∨ k = .fragClose ∧ mKind m = 11) →
      accOpenTo (mHead m) s = false → passWaits m s = false →
    ∃ t, exec (k m) s = .next t ∧ nakMsg m 6 ∈ t.media.out ∧ onlyMedia s t)
  ∧ (∀ (m : BitVec 64) (s : State), servesMedia m s → owesNothing (mHead m) s → msgZeros m = true → mKind m = 8 →
      accOpenTo (mHead m) s = true → (∀ f ∈ s.media.frags, f.frag.toNat ≠ mFrag m) → 1024 ≤ mN m → mN m ≤ 65536 →
      mRefOff m + 64 ≤ mN m →
    (findFrag (fragSlots (mN m)) s = none →
      ∃ t, exec (.fragOpen m) s = .next t ∧ nakMsg m 8 ∈ t.media.out ∧ onlyMedia s t)
    ∧ (∀ slot, findFrag (fragSlots (mN m)) s = some slot →
      ∃ t, exec (.fragOpen m) s = .next t ∧ ackMsg m ∈ t.media.out
        ∧ t.media.frags = s.media.frags ++ [{ frag := BitVec.ofNat 6 (mFrag m), head := mHead m, n := mN m, g := mGuard m
                                              refOff := mRefOff m, slot := slot }]
        ∧ t.media.report = s.media.report.modify 5 (· + 1)
        ∧ t = { s with media := t.media, sram := t.sram, dv := t.dv }))
  ∧ (∀ (m : BitVec 64) (f : Frag) (s : State), servesMedia m s → owesNothing (mHead m) s → msgZeros m = true → mKind m = 9 →
      accOpenTo (mHead m) s = true → ownFrag (mHead m) (mFrag m) s = some f → passWaits m s = false →
    (fld m.toNat 36 12 ≠ (f.n + 2 * f.g) / 32 →
      ∃ t, exec (.pass m) s = .next t ∧ nakMsg m 7 ∈ t.media.out ∧ onlyMedia s t)
    ∧ (fld m.toNat 36 12 = (f.n + 2 * f.g) / 32 →
      ∃ t, exec (.pass m) s = .next t ∧ (headAt (mHead m) t).pass = some (f.frag, bitAt m.toNat 49, fld m.toNat 36 12)
        ∧ (headAt (mHead m) t).answers = [{ pass := true }] ∧ onlyMedia s t))
  ∧ (∀ (m : BitVec 64) (s : State), servesMedia m s → mKind m = 9 → passWaits m s = true →
    exec (.pass m) s = .next { s with media := { s.media with inQ := [m] } })
  ∧ (∀ (h : Nat) (x : List Byte) (s : State), h < 16 → (headAt h s).pass = none → exec (.passJudge h x) s = .next s)
  ∧ (∀ (h : Nat) (x : List Byte) (fr : BitVec 6) (sync : Bool) (n : Nat) (s : State), h < 16 → s.media.heads.length = 16 →
      s.media.inQ = [] → (headAt h s).pass = some (fr, sync, n) →
    (ownFrag h fr.toNat s = none → ∃ t, exec (.passJudge h x) s = .next t ∧ (headAt h t).pass = none
      ∧ (headAt h t).passRej = (headAt h s).passRej + 1 ∧ t.media.report = s.media.report.modify 4 (· + 1) ∧ onlyMedia s t)
    ∧ (∀ f, ownFrag h fr.toNat s = some f → sync = false → ∃ t, exec (.passJudge h x) s = .next t
      ∧ (headAt h t).pass = none ∧ (headAt h t).passRej = (headAt h s).passRej + 1 ∧ t.media.frags = s.media.frags
      ∧ t.media.report = s.media.report.modify 2 (· + 1) ∧ t.media.rejSync = satAdd s.media.rejSync 1 ∧ onlyMedia s t)
    ∧ (∀ f, ownFrag h fr.toNat s = some f → sync = true → f.passes = 255 → ∃ t, exec (.passJudge h x) s = .next t
      ∧ (headAt h t).pass = none ∧ (headAt h t).passRej = (headAt h s).passRej + 1 ∧ t.media.frags = s.media.frags
      ∧ t.media.report = s.media.report.modify 4 (· + 1) ∧ onlyMedia s t)
    ∧ (∀ (f : Frag) (y : List Byte) (sh c : Int) (score : Nat), ownFrag h fr.toNat s = some f → sync = true → f.passes ≠ 255 →
        y = padTo (f.n + 2 * f.g) x → (sh, c) = bestShift y s.media.ref f.g f.refOff →
        score = scoreOf c (energy (slice y ((f.g + f.refOff : Nat) + sh).toNat 64) * energy s.media.ref) →
      (score < s.media.scoreMin → ∃ t, exec (.passJudge h x) s = .next t ∧ (headAt h t).pass = none
        ∧ (headAt h t).passRej = (headAt h s).passRej + 1 ∧ t.media.frags = s.media.frags
        ∧ t.media.report = s.media.report.modify 3 (· + 1) ∧ t.media.rejScore = satAdd s.media.rejScore 1 ∧ t.sram = s.sram
        ∧ t.modes = s.modes ∧ t.rings = s.rings)
      ∧ (s.media.scoreMin ≤ score → ∃ t, exec (.passJudge h x) s = .next t ∧ (headAt h t).pass = none
        ∧ (headAt h t).passOk = (headAt h s).passOk + 1 ∧ t.media.report = s.media.report.modify (if sh = 0 then 0 else 1) (· + 1)
        ∧ t.media.frags = s.media.frags.map (fun z => if z.frag = f.frag then { z with passes := z.passes + 1 } else z)
        ∧ t.modes = s.modes ∧ t.rings = s.rings)))
  ∧ (∀ (h n : Nat) (x : List Byte) (fr : BitVec 6) (sync : Bool) (m : BitVec 64) (s : State), h < 16 →
      s.media.heads.length = 16 → s.media.inQ = [m] → (headAt h s).pass = some (fr, sync, n) →
      (∀ k, k ≠ h → (headAt k s).pass = none) → rowsWait m s = false →
    ∃ t, exec (.passJudge h x) s = .next t ∧ t.media.inQ = [] ∧ t.modes = s.modes ∧ t.rings = s.rings)
  ∧ (∀ (m : BitVec 64) (f : Frag) (s : State), servesMedia m s → owesNothing (mHead m) s → msgZeros m = true → mKind m = 10 →
      accOpenTo (mHead m) s = true → ownFrag (mHead m) (mFrag m) s = some f → s.media.running = none →
    ∃ t, exec (.fragRead m) s = .next t
      ∧ mkMsg 8 (mHead m) [(50, mFrag m), (49, fld m.toNat 49 1), (28, f.passes)] ∈ t.media.out
      ∧ mkMsg 4 (mHead m) [(27, if fld m.toNat 49 1 = 0 then f.n / 32 else f.n / 16)] ∈ t.media.out
      ∧ (if fld m.toNat 49 1 = 0 then
          beatsOf (f.n / 32) (averages f.passes f.n (sramRead (accOff f.slot) (2 * f.n) s).1)
        else beatsOf (f.n / 16) (sramRead (accOff f.slot) (2 * f.n) s).1) <:+: t.media.beats
      ∧ t.media.frags = s.media.frags ∧ t.modes = s.modes ∧ t.rings = s.rings)
  ∧ (∀ (m : BitVec 64) (f : Frag) (s : State), servesMedia m s → owesNothing (mHead m) s → msgZeros m = true → mKind m = 11 →
      accOpenTo (mHead m) s = true → ownFrag (mHead m) (mFrag m) s = some f →
    ∃ t, exec (.fragClose m) s = .next t ∧ ackMsg m ∈ t.media.out
      ∧ t.media.frags = s.media.frags.filter (fun x => x.frag != f.frag) ∧ onlyMedia s t)

/-! ### Dovetail and the cascade (chapter 12) -/

/-- Links, presence and elections: a link lost or found is counted and fires source 123; a block heard enters the view and
one that is silent leaves it; a claimant takes the next term; a claim that can be granted is granted once; a block granted by
its whole view leads; heartbeats make a follower, and three missed lose the lead block; a message leaves as flits, and a
refused one is sent again (R406, R407, R408, R409, R410, R411, R412, R419, R421, R422, R424, R425, R426, R427).
Log entries 49, 50, 51 and 127 name what in it is the model's own reading or choice. -/
def Obligations.LinksPresenceAndElections : Prop :=
  (∀ (p : Side) (s : State), exec (.linkTrainRetry p) s = .next s
    ∧ ((portAt p s).up = false → exec (.linkDown p) s = .next s)
    ∧ ((portAt p s).up = true → ∃ t, exec (.linkDown p) s = .next t ∧ portAt p t = { portAt p s with up := false, lanes := 0 }
        ∧ t.dv.eastDown = (if p = .east then satAdd s.dv.eastDown 1 else s.dv.eastDown)
        ∧ t.dv.westDown = (if p = .west then satAdd s.dv.westDown 1 else s.dv.westDown)
        ∧ t = { s with irq := s.irq.cause 123, dv := { s.dv with
            east := t.dv.east, west := t.dv.west, eastDown := t.dv.eastDown, westDown := t.dv.westDown } }))
  ∧ (∀ (p : Side) (n : Nat) (d : BitVec 3) (s : State),
      ((portAt p s).hadPartner = true → (portAt p s).up = false → s.pins.inReset = false → (n = 2 ∨ n = 4) →
        exec (.linkUp p n d) s
          = .next (raise 123 (modPort p (fun q => { q with up := true, lanes := BitVec.ofNat 4 n, peer := d }) s)))
      ∧ (((portAt p s).hadPartner = false ∨ (portAt p s).up = true ∨ s.pins.inReset = true ∨ n ≠ 2 ∧ n ≠ 4) →
        exec (.linkUp p n d) s = .next s))
  ∧ (∀ (p : Side) (n : BitVec 9) (s : State), exec (.flitRefused (.here p)) s = .next s
    ∧ ((∀ f ∈ (portAt p s).replay, f.seq ≠ n) → exec (.flitRefused (.peer p n)) s = .next s)
    ∧ (∀ (old : List Flit) (f : Flit) (later : List Flit), (portAt p s).replay = old ++ f :: later → f.seq = n →
        (∀ x ∈ old, x.seq ≠ n) →
      exec (.flitRefused (.peer p n)) s = .next (modPort p (fun q => { q with replay := f :: later })
        { s with dv := { s.dv with replays := satAdd s.dv.replays (later.length + 1) } })))
  ∧ (∀ (b : Byte) (s : State),
      exec (.dvReservedMsg b) s = .next { s with dv := { s.dv with discards := satAdd s.dv.discards 1 } })
  ∧ (∀ (d : BitVec 3) (ok : Bool) (term : Word) (w : RingIn) (s : State), onLink s = true → d ≠ s.modes.dieId →
      (w.whole = false ∨ w.east = false ∨ w.west = false ∨ s.dv.east.up = false ∨ s.dv.west.up = false ∨ s.dv.size ≠ 0) →
    ∃ t u, exec (.presence d ok term w) s = .next t ∧ t = settle u ∧ t.dv.view = s.dv.view ||| dieBit d
      ∧ (d, w.east, w.west) ∈ t.dv.links
      ∧ t.dv.quorum = hasQuorum t.dv.view s.dv.size.toNat ∧ (d, ok) ∈ t.dv.peers
      ∧ t.dv.term.toNat = max s.dv.term.toNat term.toNat ∧ t.dv.size = s.dv.size
      ∧ (t.dv.quorum = false → u.modes.lead = false))
  ∧ (∀ (d : BitVec 3) (ok : Bool) (term : Word) (n : Nat) (s : State), onLink s = true → d ≠ s.modes.dieId → s.dv.size = 0 →
      s.dv.east.up = true → s.dv.west.up = true →
      (∀ l ∈ s.dv.links, l.1 = d ∨ bitAt s.dv.view.toNat l.1.toNat = false ∨ l.2 = (true, true)) →
      n = ones 8 (s.dv.view ||| dieBit d).toNat → 2 ≤ n → s.modes.holdup = false →
    ∃ t u, exec (.presence d ok term { whole := true }) s = .next t ∧ t = settle u ∧ t.dv.size.toNat = n
        ∧ stored 0x3400 1 u = [BitVec.ofNat 8 n]
      ∧ (n ≤ s.modes.dieId.toNat → s.dv.dupId = false → t.dv.dupId = true ∧ t.modes.fenced = true))
  ∧ (∀ (ok : Bool) (term : Word) (w : RingIn) (s : State), onLink s = true → s.dv.dupId = false →
    ∃ t u, exec (.presence s.modes.dieId ok term w) s = .next t ∧ t = settle u ∧ t.dv.dupId = true ∧ t.modes.fenced = true
      ∧ u.modes.lead = false)
  ∧ (∀ (d : BitVec 3) (s : State), (onLink s = false ∨ d = s.modes.dieId ∨ bitAt s.dv.view.toNat d.toNat = false) →
    exec (.presenceTimeout d) s = .next s)
  ∧ (∀ (d : BitVec 3) (s : State), onLink s = true → d ≠ s.modes.dieId → bitAt s.dv.view.toNat d.toNat = true →
    ∃ t u, exec (.presenceTimeout d) s = .next t ∧ t = settle u ∧ bitAt t.dv.view.toNat d.toNat = false
      ∧ t.dv.view = s.dv.view &&& ~~~(dieBit d) ∧ t.dv.quorum = hasQuorum t.dv.view s.dv.size.toNat
      ∧ bitAt t.dv.reach.toNat d.toNat = false
      ∧ (s.modes.lead = false → s.dv.electing = false → s.dv.draining = false → s.stripe.grantPend = false →
          u = { s with dv := u.dv, media := { s.media with accWait := s.media.accWait &&& u.dv.view } }))
  ∧ (∀ s : State, (onLink s = false ∨ s.modes.quarantine = true ∨ s.dv.dupId = true) → exec .presenceSend s = .next s)
  ∧ (∀ s : State, onLink s = true → s.modes.quarantine = false → s.dv.dupId = false →
      waysOf none s ≠ [] →
    (s.modes.lead = false → ∃ t m, exec .presenceSend s = .next t
      ∧ t = { s with dv := { s.dv with out := s.dv.out ++ [m], east := t.dv.east, west := t.dv.west } }
      ∧ (∀ p ∈ waysOf none s, ∃ f ∈ (portAt p t).replay, f.type = 1 ∧ f.src = s.modes.dieId ∧ f.dst = none
          ∧ f.seq = (portAt p s).txSeq ∧ f.payload = m.payload)
      ∧ m.type = 1 ∧ m.src = s.modes.dieId ∧ m.dst = none ∧ m.ways = waysOf none s
      ∧ byteAt m.payload 0 = s.modes.dieId.toNat ∧ leAt m.payload 2 4 = s.dv.term.toNat)
    ∧ (s.modes.lead = true → s.dv.tkWait = false → ∃ t u m, exec .presenceSend s = .next t ∧ t = settle u
      ∧ t.dv.hbSend = s.dv.hbSend + 1 ∧ m ∈ t.dv.out ∧ m.type = 4 ∧ m.dst = none ∧ leAt m.payload 0 4 = s.dv.term.toNat
      ∧ leAt m.payload 5 4 = s.dv.hbSend.toNat ∧ u = { s with dv := u.dv }))
  ∧ (∀ (term : Word) (d : BitVec 3) (v : Byte) (s : State), onLink s = false → exec (.claim term d v) s = .next s)
  ∧ (∀ (term : Word) (d : BitVec 3) (s : State), inElections s = true → s.dv.bestClaim = none → (d, true) ∈ s.dv.peers →
      s.dv.term.toNat ≤ term.toNat → s.modes.lead = false →
    ((s.dv.savedTerm = term ∨ saveWorks s = true) →
    ∃ t u, exec (.claim term d s.dv.view) s = .next t ∧ t = settle u ∧ t.dv.bestClaim = some (term, d) ∧ t.dv.term = term
      ∧ t.dv.savedTerm = term
      ∧ (route d.toNat s ≠ none → ∃ m ∈ t.dv.out, m.type = 3 ∧ m.dst = some d
          ∧ m.payload = le 4 term.toNat ++ [BitVec.ofNat 8 s.modes.dieId.toNat])
      ∧ u.modes = s.modes ∧ u.rings = s.rings)
    ∧ (s.dv.savedTerm ≠ term → saveWorks s = false →
      ∃ t, exec (.claim term d s.dv.view) s = .next t ∧ t.dv.term = term ∧ t.dv.out = s.dv.out ∧ t.dv.bestClaim = none
        ∧ t = { s with dv := t.dv }))
  ∧ (∀ (term : Word) (d : BitVec 3) (s : State), onLink s = false → exec (.grant term d) s = .next s)
  ∧ (∀ (term : Word) (d : BitVec 3) (s : State), onLink s = true →
      (inElections s = false ∨ s.dv.electing = false ∨ s.dv.claim ≠ some term) →
    ∃ t, exec (.grant term d) s = .next t ∧ t.dv.term.toNat = max s.dv.term.toNat term.toNat
      ∧ t = { s with dv := { s.dv with term := t.dv.term, hbSeq := t.dv.hbSeq, hbClean := t.dv.hbClean } })
  ∧ (∀ (term : Word) (d : BitVec 3) (s : State), inElections s = true → s.dv.electing = true → s.dv.claim = some term →
    ∃ t u, exec (.grant term d) s = .next t ∧ t = settle u ∧ t.dv.grants = s.dv.grants ||| dieBit d
      ∧ (if s.dv.quorum = true ∧ s.dv.view &&& (s.dv.grants ||| dieBit d) = s.dv.view then
          t.modes.lead = true ∧ t.modes.leadDie = s.modes.dieId ∧ t.dv.electing = false
            ∧ t.stats.electionsWon = s.stats.electionsWon + 1
        else u = { s with dv := u.dv } ∧ u.dv.out = s.dv.out ∧ t.dv.term.toNat = max s.dv.term.toNat term.toNat))
  ∧ (∀ (term : Word) (d : BitVec 3) (n : Word) (v : Byte) (i : Bool) (s : State),
      (onLink s = false ∨ d = s.modes.dieId ∨ term.toNat < s.dv.term.toNat) → exec (.heartbeat term d n v i) s = .next s)
  ∧ (∀ (term : Word) (d : BitVec 3) (n : Word) (v : Byte) (i : Bool) (s : State), onLink s = true → d ≠ s.modes.dieId →
      s.dv.term.toNat ≤ term.toNat → (s.dv.dupId = true ∨ s.modes.quarantine = true) → s.modes.lead = false →
    ∃ t u, exec (.heartbeat term d n v i) s = .next t ∧ t = settle u ∧ t.dv.term = term
      ∧ u = { s with dv := { s.dv with term := term, hbSeq := u.dv.hbSeq, hbClean := u.dv.hbClean } })
  ∧ (∀ (term : Word) (d : BitVec 3) (n : Word) (v : Byte) (i : Bool) (s : State), onLink s = true → s.dv.dupId = false →
      d ≠ s.modes.dieId → s.dv.term.toNat ≤ term.toNat → s.modes.quarantine = false → s.modes.lead = false →
    ∃ t u, exec (.heartbeat term d n v i) s = .next t ∧ t = settle u ∧ t.dv.term = term ∧ u.modes.leadDie = d
        ∧ t.dv.leadKnown = true
      ∧ t.dv.hbSeq = some n ∧ t.dv.hbMissRun = 0 ∧ t.dv.electing = false
      ∧ ((s.dv.term ≠ term ∨ s.dv.hbSeq = none ∨ s.modes.leadDie ≠ d) → route d.toNat s ≠ none →
          ∃ m ∈ t.dv.out, m.type = 0x22 ∧ m.dst = some d)
      ∧ t.dv.hbClean = (if s.dv.term = term ∧ s.dv.hbSeq = some (n - 1) ∧ s.modes.leadDie = d ∧ i = true then s.dv.hbClean + 1
          else 0)
      ∧ (if s.modes.fenced = true ∧ t.dv.hbClean < 3 then t.modes.fenced = true ∧ t.modes.follower = s.modes.follower
        else t.modes.follower = true ∧ t.modes.fenced = false ∨ s.modes.follower = true ∧ s.modes.fenced = false))
  ∧ (∀ s : State, (onLink s = false ∨ s.dv.leadKnown = false ∨ s.modes.lead = true) → exec .heartbeatMiss s = .next s)
  ∧ (∀ s : State, onLink s = true → s.dv.leadKnown = true → s.modes.lead = false →
    (s.dv.hbMissRun ≠ 2 → ∃ t, exec .heartbeatMiss s = .next t ∧ t.dv.missed = satAdd s.dv.missed 1
      ∧ t.dv.hbMissRun = s.dv.hbMissRun + 1 ∧ t.dv.hbClean = 0 ∧ t.stats.heartbeatsMissed = s.stats.heartbeatsMissed + 1
      ∧ t = { s with
          dv := { s.dv with missed := t.dv.missed, hbMissRun := t.dv.hbMissRun, hbClean := 0 }
          stats := { s.stats with heartbeatsMissed := t.stats.heartbeatsMissed } })
    ∧ (s.dv.hbMissRun = 2 → ∃ t u, exec .heartbeatMiss s = .next t ∧ t = settle u ∧ t.dv.leadKnown = false ∧ t.dv.hbSeq = none
      ∧ (∀ r ∈ u.dv.remotes, r.dropped = true) ∧ (inElections s = true → t.dv.electing = true ∧ t.dv.bid = s.dv.term + 1
          ∧ (s.dv.quorum = false → t.modes.fenced = true))))
  ∧ (∀ s : State, inElections s = true → s.dv.electing = true → s.dv.claim = none → s.dv.quorum = true →
      s.modes.leadOk = true → s.dv.size ≠ 0 → s.dv.rival = false → termSavable (s.dv.term + 1) s = true →
    ∃ t u, exec .electionBackoff s = .next t ∧ t = settle u ∧ t.dv.term = s.dv.term + 1
      ∧ t.dv.bestClaim = some (s.dv.term + 1, s.modes.dieId) ∧ t.dv.grants = dieBit s.modes.dieId
      ∧ (t.dv.claim = some (s.dv.term + 1) ∨ t.modes.lead = true))
  ∧ (∀ s : State, (inElections s = false ∨ s.dv.electing = false ∨ s.dv.claim ≠ none ∨ s.dv.quorum = false
      ∨ s.modes.leadOk = false ∨ s.dv.size = 0 ∨ s.dv.rival = true ∨ termSavable (s.dv.term + 1) s = false) →
    exec .electionBackoff s = .next s)
  ∧ (∀ s : State, (inElections s = false ∨ s.dv.electing = false ∨ s.dv.claimed = false) → exec .electTimeout s = .next s)
  ∧ (∀ s : State, inElections s = true → s.dv.electing = true → s.dv.claimed = true →
    ∃ t u, exec .electTimeout s = .next t ∧ t = settle u ∧ t.dv.bid = s.dv.term + 1 ∧ t.dv.claim = none ∧ t.dv.claimed = false
      ∧ t.dv.grants = 0 ∧ t.dv.rival = false ∧ t.dv.electing = true
      ∧ (if s.dv.quorum = true then u = { s with dv := u.dv } else t.modes.fenced = true ∧ t.modes.follower = false))

/-- Work shared in a cascade: a follower takes the lead block's jobs for its own LUNs, any block a read for a reconstruction;
a job's end, a part of P and Q, a codeword, records, directory entries, a copy of an anchor and messages of heads are taken
by the block they are for; a follower's accumulator opens and returns with the lead block's; a follower sleeps and wakes with
the lead block (R77, R78, R414, R415, R416, R417, R419, R420).
Log entries 28, 52, 127, 128 and 129 name what in it is the model's own reading or choice. -/
def Obligations.CascadeWorkIsShared : Prop :=
  (∀ (r : RemoteIn) (s : State),
      (onLink s = false ∨ s.modes.quarantine = true ∨ s.modes.fenced = true
        ∨ s.modes.follower = false ∧ (r.go = true ∨ r.accum ≠ none ∨ endsInRead r.items = false)
        ∨ r.accum = none ∧ r.go = false ∧ (ownLun r.lun s = false ∨ remoteAt (remoteKey r) s ≠ none)) →
    exec (.job r) s = .next s)
  ∧ (∀ (r : RemoteIn) (s : State), onLink s = true → s.modes.quarantine = false → s.modes.fenced = false → r.accum = none →
      r.go = false → ownLun r.lun s = true → remoteAt (remoteKey r) s = none →
    (endsInRead r.items = true → exec (.job r) s
        = .next (settle { s with dv := { s.dv with remotes := s.dv.remotes ++ [{ work := r }] } }))
    ∧ (endsInRead r.items = false → s.modes.follower = true →
      ∃ t u, exec (.job r) s = .next t ∧ t = settle u ∧ (∃ x ∈ u.dv.remotes, x.work = r ∧ x.job ≠ none)
        ∧ (∃ j ∈ u.sched.jobs, j.owner = .remote (remoteKey r) ∧ j.lun = r.lun ∧ j.block = r.block ∧ j.page = r.page
            ∧ j.prio = r.prio ∧ j.items.length = r.items.length)
        ∧ u.rings = s.rings ∧ u.modes = s.modes))
  ∧ (∀ (r : RemoteIn) (x : Remote) (s : State), onLink s = true → s.modes.quarantine = false → s.modes.follower = true →
      s.modes.fenced = false → r.accum = none → r.go = true → remoteAt (remoteKey r) s = some x →
    ∃ t u, exec (.job r) s = .next t ∧ t = settle u ∧ u.rings = s.rings ∧ u.modes = s.modes
      ∧ ((r.kind = 1 ∨ r.kind = 4) → ∀ j ∈ u.sched.jobs, x.job = some j.handle → j.dataWait = false)
      ∧ (r.kind ≠ 1 → r.kind ≠ 4 → remoteAt (remoteKey r) u = none)
      ∧ (∀ i, findSlot x.work.group x.work.row s = some i → homeHere x.work.group s = true →
          x.work.member ∈ (slotAt i u).folded))
  ∧ (∀ (r : RemoteIn) (h : BitVec 16) (p : List Byte) (s : State), onLink s = true → s.modes.quarantine = false →
      s.modes.follower = true → s.modes.fenced = false →
    (r.accum = some (.open h p) → ∃ t u, exec (.job r) s = .next t ∧ t = settle u ∧ u.media = { s.media with
          accum := 1, headsMask := h, ref := padTo 64 p, scoreMin := if leAt p 64 2 = 0 then 32768 else leAt p 64 2
          frags := [], report := List.replicate 6 0 }
        ∧ u = { s with media := u.media })
    ∧ (r.accum = some .close → s.media.inQ = [] → ∃ t u, exec (.job r) s = .next t ∧ t = settle u ∧ u.media.accum = 0
        ∧ u.media.frags = [] ∧ (∀ k < 16, (headAt k u).pass = none)
        ∧ (route s.modes.leadDie.toNat s ≠ none → ∃ x ∈ u.dv.out, x.type = 0x11 ∧ x.dst = some s.modes.leadDie
            ∧ leAt x.payload 0 2 = 0x2000 + s.modes.dieId.toNat)
        ∧ u = { s with media := u.media, dv := u.dv }))
  ∧ (∀ (h : Nat) (o : Byte) (d l : List (Nat × Nat)) (e : Bool) (s : State), onLink s = false →
    exec (.jobEnd h o d l e) s = .next s)
  ∧ (∀ (h eid : Nat) (d l : List (Nat × Nat)) (j : Job) (e : Entry) (s : State), onLink s = true → h < 0x1000 →
      jobAt h s = some j → j.state = .popped → ownLun j.lun s = false → j.owner = .read eid → entryAt eid s = some e →
      endsInRead j.items = true → (∀ it ∈ j.items, itemType it ≠ 5) → ((d ++ l).map (·.1)).Nodup →
      (∀ p ∈ d ++ l, ∃ c ∈ cwsOf h s, c.cw = p.1 ∧ c.state = .reading) → (∀ c ∈ cwsOf h s, c.eid = some eid) →
      (∀ c ∈ cwsOf h s, c.state = .reading → ∃ p ∈ d ++ l, p.1 = c.cw) →
    ∃ t u x, exec (.jobEnd h 0 d l false) s = .next t ∧ t = settle u ∧ entryAt eid u = some x
      ∧ x.count = e.count + d.length ∧ x.lost = e.lost + l.length ∧ u.rings = s.rings ∧ u.modes = s.modes)
  ∧ (∀ (h eid m i : Nat) (o : Byte) (d : List (Nat × Nat)) (j : Job) (e : Entry) (s : State), onLink s = true → h < 0x1000 →
      jobAt h s = some j → j.state = .popped → ownLun j.lun s = false → j.owner = .write eid m → j.dataWait = true →
      endsInRead j.items = false → entryAt eid s = some e → findSlot e.group.toNat e.row.toNat s = some i → d ≠ [] →
    ∃ t u x, exec (.jobEnd h o d [] false) s = .next t ∧ t = settle u ∧ entryAt eid u = some x
      ∧ (∀ c ∈ List.range 16, (m, c) ∈ x.arrived) ∧ u.rings = s.rings)
  ∧ (∀ (h : Nat) (o : Byte) (s : State), onLink s = true → 0x1000 ≤ h → h < 0x1008 → s.media.accEid = none →
    ∃ t u, exec (.jobEnd h o [] [] false) s = .next t ∧ t = settle u
      ∧ bitAt u.media.accWait.toNat (h % 8) = false ∧ u = { s with media := { s.media with accWait := u.media.accWait } })
  ∧ (∀ (g r : Nat) (p : PartIn) (pq : List Byte) (s : State), onLink s = false → exec (.parity g r p pq) s = .next s)
  ∧ (∀ (g r i : Nat) (p : PartIn) (pq : List Byte) (s : State), onLink s = true → findSlot g r s = some i → pq ≠ [] →
      s.modes.lead = true → homeHere g s = true → (slotAt i s).state = .filling → (slotAt i s).whole = false →
      (∀ m ∈ p.members, m ∉ (slotAt i s).folded) →
    ∃ t u, exec (.parity g r p pq) s = .next t ∧ t = settle u ∧ (slotAt i u).folded = (slotAt i s).folded ++ p.members
      ∧ ((slotAt i u).state = .filling ∨ (slotAt i u).state = .sealing)
      ∧ (route p.die.toNat s ≠ none → ∃ x ∈ u.dv.out, x.type = 0x12 ∧ x.dst = some p.die
          ∧ x.payload = le 3 g ++ le 4 r ++ le 4 0)
      ∧ u.rings = s.rings)
  ∧ (∀ (g r i : Nat) (p : PartIn) (s : State), onLink s = true → s.modes.lead = false → findSlot g r s = some i →
    ∃ t u, exec (.parity g r p []) s = .next t ∧ t = settle u ∧ slotAt i u = {}
      ∧ u = { s with stripe := { s.stripe with slots := u.stripe.slots } })
  ∧ (∀ (h job cw : Nat) (d : CwTo) (x : List Byte) (s : State),
      (onLink s = false → exec (.codeword d job cw x) s = .next s)
      ∧ (onLink s = true → s.pins.mediaReady = false → exec (.codeword (.head h) job cw x) s = .next s)
      ∧ (onLink s = true → s.pins.mediaReady = true → exec (.codeword (.head h) job cw x) s = .next { s with
          media := { s.media with beats := s.media.beats ++ beatsOf ((x.length + 31) / 32) x } }))
  ∧ (∀ (d : BitVec 3) (job cw : Nat) (x : List Byte) (k : Remote) (s : State), onLink s = true → cw < 16 →
      remoteAt (d.toNat * 0x1000 + job) s = some k → k.work.link = true →
    ∃ t u y, exec (.codeword (.page d) job cw x) s = .next t ∧ t = settle u
      ∧ remoteAt (d.toNat * 0x1000 + job) u = some y ∧ y.page.lookup cw = some x
      ∧ u = { s with dv := { s.dv with remotes := u.dv.remotes } })
  ∧ (∀ (job cw : Nat) (x : List Byte) (j : Job) (c : Cw) (s : State), onLink s = true → jobAt job s = some j →
      cwOf job cw s = some c → ownLun j.lun s = false → c.state = .reading → c.eid = none →
      (sramRead (landOff c.slot) 4096 (sramWrite (landOff c.slot) (padTo 4096 x) (landLabel c (x.drop 4096) s))).2.1 = true →
    ∃ t u y, exec (.codeword .job job cw x) s = .next t ∧ t = settle u ∧ cwOf job cw u = some y ∧ y.state = .decoded
        ∧ y.slot = c.slot
      ∧ u.rings = s.rings ∧ u.modes = s.modes)
  ∧ (∀ (rs : List (BitVec 256)) (s : State), onLink s = true →
      (s.modes.lead = false → ∃ t, exec (.record rs) s = .next t
          ∧ t = settle { s with dv := { s.dv with recOut := false } } ∧ t.modes.follower = s.modes.follower)
      ∧ (s.modes.lead = true → s.modes.follower = false → (∀ r ∈ rs, recType r ≠ 0x18) →
          ∃ t u, exec (.record rs) s = .next t ∧ t = settle u
          ∧ u.stripe.jrnl.queue = s.stripe.jrnl.queue ++ rs ∧ u.stripe.jrnl.recNo = s.stripe.jrnl.recNo + rs.length
          ∧ u.dv.recWait = some u.stripe.jrnl.recNo ∧ u.rings = s.rings ∧ u.modes = s.modes))
  ∧ (∀ (rs : List (BitVec 256)) (s : State), onLink s = false → exec (.record rs) s = .next s)
  ∧ (∀ (r : BitVec 256) (e : LossEntry) (s : State), onLink s = true → s.modes.lead = true → s.modes.follower = false →
      recType r = 0x18 → e = parseLoss (le 24 (recFld r 8 24)) 0 →
      (∃ c < 16, bitAt e.mask.toNat c = true ∧ inLedger e.group e.member e.first c s = false) → freeLedger s ≠ none →
    ∃ t u, exec (.record [r]) s = .next t ∧ t = settle u
      ∧ u.bg.lossCount = s.bg.lossCount + BitVec.ofNat 32 (maskCount e.mask.toNat)
      ∧ (∃ p ∈ u.stripe.ledger, p.2.group = e.group ∧ p.2.member = e.member ∧ p.2.mask = e.mask ∧ p.2.cause = e.cause)
      ∧ u.rings = s.rings ∧ u.modes = s.modes)
  ∧ (∀ (gr : Option (BitVec 64 × Nat)) (l : List (Nat × List Byte)) (s : State),
      (onLink s = false ∨ s.modes.follower = false) → exec (.directory gr l) s = .next s)
  ∧ (∀ (b : BitVec 64) (mib g : Nat) (x : List Byte) (s : State), onLink s = true → s.modes.follower = true →
      dirBytesBad x = false →
    ∃ t, exec (.directory (some (b, mib)) [(g, x)]) s = .next t ∧ t.dv.grantWin = some (b, mib) ∧ t.stripe.granted = true
      ∧ t.stripe.mib = BitVec.ofNat 11 mib ∧ t.stripe.baseHi = BitVec.ofNat 32 (b.toNat / 2 ^ 32)
      ∧ dirAt g t = { parseDir x with group := g } ∧ t.rings = s.rings ∧ t.modes = s.modes ∧ t.stripe.jrnl = s.stripe.jrnl)
  ∧ (∀ (a : AnchorMsg) (s : State), (onLink s = false ∨ s.modes.holdup = true) → exec (.anchor a) s = .next s)
  ∧ (∀ (a : AnchorMsg) (s : State), onLink s = true → s.modes.holdup = false → s.stripe.grantPend = false →
      (anchorOk (padTo 64 a.bytes) = false
        ∨ s.stripe.jrnl.anchorValid = true ∧ leAt a.bytes 4 4 ≤ s.stripe.jrnl.aseq.toNat) →
    exec (.anchor a) s = .next (settle { s with dv := { s.dv with copies := s.dv.copies ||| dieBit a.die } }))
  ∧ (∀ (a : AnchorMsg) (s : State), onLink s = true → s.modes.holdup = false → s.stripe.grantPend = false →
      anchorOk (padTo 64 a.bytes) = true →
      (s.stripe.jrnl.anchorValid = true → s.stripe.jrnl.aseq.toNat < leAt a.bytes 4 4) →
      (s.modes.lead = false ∨ s.stripe.jrnl.recStep = 1 ∨ s.dv.tkClose = true) →
    ∃ t u, exec (.anchor a) s = .next t ∧ t = settle u ∧ u.stripe.jrnl.anchorValid = true
      ∧ u.stripe.jrnl.anchorSector = (anchorNext s).1 ∧ u.stripe.jrnl.anchorRecord = (anchorNext s).2
      ∧ anchorBytes (anchorNext s).1 (anchorNext s).2 u = padTo 64 a.bytes
      ∧ u.stripe.jrnl.aseq.toNat = leAt a.bytes 4 4 ∧ u.dv.copies = s.dv.copies ||| dieBit a.die
      ∧ u.rings = s.rings ∧ u.modes = s.modes)
  ∧ (∀ (d : BitVec 3) (m : BitVec 64) (s : State),
      ((onLink s = false ∨ s.pins.mediaReady = false ∨ s.modes.lead = true ∧ inReady s = false) →
        exec (.media d m) s = .next s)
      ∧ (onLink s = true → s.pins.mediaReady = true → s.modes.lead = false → (headAt (mHead m) s).answers = [] →
          s.media.heads.length = 16 → (∀ x ∈ s.media.heads, x.answers = []) → mKind m ≠ 2 → mKind m ≠ 3 → mKind m ≠ 4 →
        exec (.media d m) s = .next { s with media := { s.media with out := s.media.out ++ [m] } })
      ∧ (∀ (a : Ans) (k : Nat), onLink s = true → s.pins.mediaReady = true → s.modes.lead = false →
          s.media.heads.length = 16 → (∀ h < 16, h ≠ mHead m → (headAt h s).answers = []) →
          (headAt (mHead m) s).answers = [a] → a.fwd = some k → (headAt (mHead m) s).via = none →
          mKind m ≠ 3 → mKind m ≠ 4 → (mKind m = 2 → fld m.toNat 0 8 ≠ 9) →
        ∃ t, exec (.media d m) s = .next t ∧ t.media.out = s.media.out ++ [m] ∧ (headAt (mHead m) t).answers = []
          ∧ t = { s with media := t.media })
      ∧ (onLink s = true → inReady s = true → s.modes.lead = true → s.media.heads.length = 16 →
        ∃ t, exec (.media d m) s = .next t
          ∧ t = settle (acceptMessage m (modHead (mHead m) (fun h => { h with via := some d }) s))
          ∧ (mKind m ≠ 1 → s.media.inQ = [] → (headAt (mHead m) t).via = some d))
      ∧ (onLink s = true → s.pins.mediaReady = true → s.media.inQ = [] → s.modes.lead = true → s.media.heads.length = 16 →
          (headAt (mHead m) s).answers = [] → mKind m = 11 → msgZeros m = true → accOpenTo (mHead m) s = false →
          route d.toNat s ≠ none →
        ∃ t, exec (.media d m) s = .next t
          ∧ (∃ x ∈ t.dv.out, x.type = 0x30 ∧ x.dst = some d ∧ x.payload = le 8 (nakMsg m 6).toNat)))
  ∧ (∀ (b : Bool) (s : State), (onLink s = false ∨ s.modes.follower = false) → exec (.wakeMsg b) s = .next s)
  ∧ (∀ s : State, onLink s = true → s.modes.follower = true →
      (∃ t, exec (.wakeMsg true) s = .next t ∧ t.modes.standby = true ∧ t.modes.mode = t.modes.primary ∧ t.rings = s.rings)
      ∧ (∃ t, exec (.wakeMsg false) s = .next t ∧ t.modes.standby = false ∧ t.rings = s.rings
          ∧ (s.modes.standby = false → t = s) ∧ (s.modes.standby = true → t.modes.mode = t.modes.primary)))

/-! ### Interrupts, the event queue and the Cabinet (chapters 14 and 16) -/

/-- Sources and targets: an input sampled, a software set, a clear, a group that fires; a privileged raise takes a record
with the next RSEQ; the event queue is enabled, disabled and consumed; the main core copies records to the log (R466, R467,
R468, R470, R471, R472, R473, R475, R477, R478, R480, R545).
Log entries 2, 30 and 67 name what in it is the model's own reading or choice. -/
def Obligations.InterruptsAndEventQueue : Prop :=
  (∀ (id : Nat) (lvl : Bool) (s : State), id < 256 → hasInput id = true → s.irq.wf →
    ∃ t, exec (.sourceEvent id lvl) s = .next t ∧ t.irq.input.getD id (!lvl) = lvl
      ∧ (s.irq.input.getD id false ≠ lvl → senseArrives (s.irq.sense.getD id 0) lvl = true →
          (lvl = true ∨ s.irq.causes.getD id 0 = 0) →
          t.irq.pend.getD id false = true ∧ t.irq.count.getD id 0 = satAdd (s.irq.count.getD id 0) 1)
      ∧ (∀ n, n ≠ id → t.irq.pend.getD n false = s.irq.pend.getD n false ∧ t.irq.count.getD n 0 = s.irq.count.getD n 0)
      ∧ t = { s with irq := t.irq })
  ∧ (∀ (id : Nat) (lvl : Bool) (s : State), id < 256 → hasInput id = false → exec (.sourceEvent id lvl) s = .next (evqLevels s))
  ∧ (∀ (who : Writer) (w : Nat) (v : Word) (s : State), w < 8 → (w < 7 ∨ who ≠ .mainCore) → s.irq.wf →
    ∃ t, exec (.irqPset who w v) s = .next t ∧ t = { s with irq := t.irq }
      ∧ ∀ n < 256, if n / 32 = w ∧ bitAt v.toNat (n % 32) = true ∧ ordinary n = true then
          t.irq.pend.getD n false = true ∧ t.irq.count.getD n 0 = satAdd (s.irq.count.getD n 0) 1
        else t.irq.pend.getD n false = s.irq.pend.getD n false ∧ t.irq.count.getD n 0 = s.irq.count.getD n 0)
  ∧ (∀ (id : Nat) (s : State), 240 ≤ id → id < 256 →
    ∃ t, exec (.irqPset .mainCore 7 (BitVec.ofNat 32 (2 ^ (id - 224)))) s = .next t ∧ t.evq.rseq = s.evq.rseq + 1
      ∧ t.irq.raises = s.irq.raises.modify (id - 240) (fun c => satAdd c 1)
      ∧ (∃ r, (s.evq.copy.length < 256 → t.evq.copy = s.evq.copy ++ [r])
          ∧ (s.evq.enable = true → s.evq.full = false → s.evq.fault = false →
              t.evq.writing = s.evq.writing ++ [(t.evq.rseq, r, 0)])
          ∧ byteAt r 0 = id ∧ byteAt r 1 = 1 ∧ slice r 16 16 = zeros 16)
      ∧ t.rings = s.rings ∧ t.modes = s.modes)
  ∧ (∀ (w : Nat) (v : Word) (s : State), w < 8 → s.irq.wf →
    ∃ t, exec (.irqPendClear w v) s = .next t ∧ t = { s with irq := { s.irq with pend := t.irq.pend } }
      ∧ ∀ n < 256, t.irq.pend.getD n false = (if n / 32 = w ∧ bitAt v.toNat (n % 32) = true then
          senseHolds (s.irq.sense.getD n 0) (s.irq.input.getD n false) else s.irq.pend.getD n false))
  ∧ (∀ (g x : Nat) (s : State), g < 30 → x < 6 → s.irq.wf → groupWants g x s = true → s.irq.signalled.getD x false = false →
      (s.irq.deadline.getD g none = none ∨ 2 ≤ x ∧ s.irq.idle.getD x false = true) →
    ∃ t, exec (.groupFire g x) s = .next t ∧ t.irq = { s.irq with
          signalled := s.irq.signalled.set x true, idle := s.irq.idle.set x false
          signals := s.irq.signals.modify x (fun c => satAdd c 1), deadline := t.irq.deadline }
      ∧ (∀ h < 30, (groupWants h x s = true → (s.irq.deadline.getD h none = none ∨ 2 ≤ x ∧ s.irq.idle.getD x false = true) →
          t.irq.deadline.getD h none = (if s.irq.holdoff.getD h 0 = 0 then s.irq.deadline.getD h none
            else some (s.now + (s.irq.holdoff.getD h 0).toNat)))
        ∧ ((groupWants h x s = false ∨ 2 ≤ x ∧ s.irq.idle.getD x false = false ∧ s.irq.deadline.getD h none ≠ none) →
          t.irq.deadline.getD h none = s.irq.deadline.getD h none))
      ∧ (if 2 ≤ x ∧ s.irq.naddr.getD x 0 ≠ 0 then
          asks t (.notify x) (s.irq.naddr.getD x 0).toNat (le 4 (s.irq.ndata.getD x 0).toNat)
        else t.host = s.host)
      ∧ t = { s with irq := t.irq, host := t.host, freeCtr := s.freeCtr + if x < 2 then 1 else 0 })
  ∧ (∀ (g x : Nat) (s : State), g < 30 → x < 6 → s.irq.deadline.getD g none ≠ none → groupWants g x s = true →
      s.irq.signalled.getD x false = false →
    (2 ≤ x → s.irq.idle.getD x false = false → exec (.groupFire g x) s = .next s)
    ∧ (x < 2 → ∃ t, exec (.groupFire g x) s = .next t ∧ t.freeCtr = s.freeCtr + 1
        ∧ (t.irq = s.irq ∨ t.irq.signalled = s.irq.signalled.set x true)))
  ∧ (∀ (g x : Nat) (s : State), g < 30 → x < 6 → (groupWants g x s = false ∨ s.irq.signalled.getD x false = true) →
    exec (.groupFire g x) s = .next s)
  ∧ (∀ (g : Nat) (s : State), g < 30 →
    exec (.holdoffExpiry g) s = .next { s with irq := { s.irq with deadline := s.irq.deadline.set g none } })
  ∧ (∀ (who : Writer) (x : Nat) (s : State), x < 6 →
    (x < 2 → who = .hostPort → exec (.signalledClear who x) s = .next { s with regs := { s.regs with rsp := s.regs.rsp ++ [(3, 0)] } }
      ∧ exec (.idleSet who x) s = .next { s with regs := { s.regs with rsp := s.regs.rsp ++ [(3, 0)] } })
    ∧ (x < 2 → who = .hkCore →
      exec (.signalledClear who x) s = .next { s with regs := { s.regs with coreFaults := s.regs.coreFaults + 1 } }
      ∧ exec (.idleSet who x) s = .next { s with regs := { s.regs with coreFaults := s.regs.coreFaults + 1 } })
    ∧ ((2 ≤ x ∨ who = .mainCore) →
      exec (.signalledClear who x) s = .next { s with irq := { s.irq with signalled := s.irq.signalled.set x false } })
    ∧ (2 ≤ x → exec (.idleSet who x) s = .next { s with irq := { s.irq with idle := s.irq.idle.set x true } })
    ∧ (x < 2 → who = .mainCore → exec (.idleSet who x) s = .next s))
  ∧ (∀ (id : Nat) (d : List Byte) (s : State), 240 ≤ id → id < 256 →
    (252 ≤ id → exec (.privilegedRaise id d) s = .next s)
    ∧ (id < 252 → ∃ t, exec (.privilegedRaise id d) s = .next t ∧ t.evq.rseq = s.evq.rseq + 1
        ∧ t.irq.raises = s.irq.raises.modify (id - 240) (fun c => satAdd c 1)
        ∧ (s.evq.copy.length < 256 → ∃ r, t.evq.copy = s.evq.copy ++ [r] ∧ byteAt r 0 = id ∧ byteAt r 1 = 0
            ∧ leAt r 12 4 = t.evq.rseq.toNat ∧ slice r 16 16 = padTo 16 d)
        ∧ (if s.evq.enable = true ∧ s.evq.full = false ∧ s.evq.fault = false then
            t.evq.writing.length = s.evq.writing.length + 1 ∧ t.evq.dropped = s.evq.dropped
          else t.evq.writing = s.evq.writing ∧ t.evq.dropped = satAdd s.evq.dropped 1)
        ∧ t.rings = s.rings ∧ t.modes = s.modes))
  ∧ (∀ (v : Word) (s : State), (bitAt v.toNat 8 = false ∨ s.evq.enable = true) → exec (.evqEnable v) s = .next s)
  ∧ (∀ (v : Word) (s : State), bitAt v.toNat 8 = true → s.evq.enable = false →
    ∃ t, exec (.evqEnable v) s = .next t ∧ t.evq = { s.evq with
        enable := true, prod := 0, cons := 0, phase := true
        sizeLog2 := if 6 ≤ fld v.toNat 0 5 ∧ fld v.toNat 0 5 ≤ 16 then BitVec.ofNat 5 (fld v.toNat 0 5) else s.evq.sizeLog2 }
      ∧ t = { s with evq := t.evq, irq := t.irq })
  ∧ (∀ (v : Word) (s : State), bitAt v.toNat 8 = true → exec (.evqDisable v) s = .next s)
  ∧ (∀ (v : Word) (s : State), bitAt v.toNat 8 = false →
    ∃ t, exec (.evqDisable v) s = .next t ∧ t.evq.enable = false ∧ t.evq.fault = false ∧ t.evq.writing = []
      ∧ t.evq.dropped = satAdd s.evq.dropped s.evq.writing.length
      ∧ t.stats.recordsDropped = s.stats.recordsDropped + s.evq.writing.length
      ∧ t.evq.prod = s.evq.prod ∧ t = { s with evq := t.evq, irq := t.irq, stats := t.stats })
  ∧ (∀ (v : Word) (s : State),
    (s.evq.size ≤ fld v.toNat 0 16 → exec (.evqCons v) s = .next s)
    ∧ (fld v.toNat 0 16 < s.evq.size → ∃ t, exec (.evqCons v) s = .next t
        ∧ t.evq = { s.evq with cons := BitVec.ofNat 16 (fld v.toNat 0 16) } ∧ t = { s with evq := t.evq, irq := t.irq }))
  ∧ (∀ s : State, (s.modes.holdup = true ∨ s.cab.prog.isSome = true ∨ s.evq.copy = [] ∧ s.evq.logged = []) →
      exec .logRecordCopy s = .next s)
  ∧ (∀ (r : List Byte) (rest : List (List Byte)) (s : State), s.modes.holdup = false → s.cab.prog = none →
      (s.evq.copy = r :: rest ∨ s.evq.copy = [] ∧ s.evq.logged = r :: rest) →
    ∃ t, exec .logRecordCopy s = .next t ∧ (s.evq.copy = r :: rest → t.evq.logged = s.evq.logged)
      ∧ t.cab.lseq = s.cab.lseq + 1 ∧ t.cab.logSlot = (logPlace s + 1) % 49152
      ∧ cabBytes (logSector (logPlace s)) (logPlace s % 64 * 8) 4 t = padTo 32 r ∧ t.rings = s.rings ∧ t.modes = s.modes)

/-- The Cabinet's service routine: only boot ROM execution reaches it; a program, an erase and a mark program are checked in
order and start; the erase's header takes the next count; suspend, resume, status, count and the lock answer at once; the end
of an operation posts its result and fires source 126; the saved area is compacted into its other half (R526, R528, R529,
R530, R532, R533, R535, R537, R539, R543, R544, R514).
Log entries 2, 11 and 69 name what in it is the model's own reading or choice. -/
def Obligations.CabinetRoutine : Prop :=
  (∀ (c : Caller) (sec w : Nat) (d : List (BitVec 64)) (a b : Bool) (i : Instr) (s : State), c.boot = false →
      (i = .program c sec w d a b ∨ i = .erase c sec ∨ i = .suspend c ∨ i = .resume c ∨ i = .status c ∨ i = .count c sec
        ∨ i = .markProgram c w d a ∨ i = .markLock c) →
    ∃ t, exec i s = .next t ∧ t.stats.cabinetFaults = s.stats.cabinetFaults + 1 ∧ t.cab = s.cab
      ∧ t.irq.raises = s.irq.raises.modify 11 (fun x => satAdd x 1))
  ∧ (∀ (sec w : Nat) (d : List (BitVec 64)) (a b : Bool) (s : State),
    exec (.program ⟨true, false⟩ sec w d a b) s = .next { s with cab := { s.cab with ret := (0x11, 0, 0) } }
    ∧ (s.modes.holdup = true →
        exec (.program ⟨true, true⟩ sec w d a b) s = .next { s with cab := { s.cab with ret := (0x15, 0, 0) } })
    ∧ (s.modes.holdup = false → (s.cab.prog ≠ none ∨ ∃ e, s.cab.erase = some e ∧ (b = false ∨ e.sector = sec)) →
        exec (.program ⟨true, true⟩ sec w d a b) s = .next { s with cab := { s.cab with ret := (0x10, 0, 0) } })
    ∧ (s.modes.holdup = false → s.cab.prog = none → (∀ e, s.cab.erase = some e → b = true ∧ e.sector ≠ sec) →
        ((2048 ≤ sec ∨ 512 ≤ w ∨ d = [] ∨ 512 < w + d.length ∨ sectorFailed s.cab sec = true) →
          exec (.program ⟨true, true⟩ sec w d a b) s = .next { s with cab := { s.cab with ret := (0x13, 0, 0) } })
        ∧ (sec < 2048 → w < 512 → d ≠ [] → w + d.length ≤ 512 → sectorFailed s.cab sec = false →
          (blankAll s.cab.words a (sec * 512 + w) d = false →
            exec (.program ⟨true, true⟩ sec w d a b) s = .next { s with cab := { s.cab with ret := (0x12, 0, 0) } })
          ∧ (blankAll s.cab.words a (sec * 512 + w) d = true → ∃ t, exec (.program ⟨true, true⟩ sec w d a b) s = .next t
            ∧ t.cab.ret = (1, 0, 0) ∧ t.cab.prog = some {
                op := 1, sector := sec, words := number (sec * 512 + w) d, clearOnly := a }
            ∧ (∀ e, s.cab.erase = some e → ∃ x, t.cab.erase = some x ∧ x.suspended = true ∧ x.sector = e.sector)
            ∧ t = { s with cab := { s.cab with ret := t.cab.ret, prog := t.cab.prog, erase := t.cab.erase } }))))
  ∧ (∀ (sec : Nat) (s : State),
    exec (.erase ⟨true, false⟩ sec) s = .next { s with cab := { s.cab with ret := (0x11, 0, 0) } }
    ∧ (s.modes.holdup = true → exec (.erase ⟨true, true⟩ sec) s = .next { s with cab := { s.cab with ret := (0x15, 0, 0) } })
    ∧ (s.modes.holdup = false → cabBusy s.cab = true →
        exec (.erase ⟨true, true⟩ sec) s = .next { s with cab := { s.cab with ret := (0x10, 0, 0) } })
    ∧ (s.modes.holdup = false → cabBusy s.cab = false → (2048 ≤ sec ∨ sectorFailed s.cab sec = true) →
        exec (.erase ⟨true, true⟩ sec) s = .next { s with cab := { s.cab with ret := (0x13, 0, 0) } })
    ∧ (s.modes.holdup = false → cabBusy s.cab = false → sec < 2048 → sectorFailed s.cab sec = false →
        eraseCount s.cab sec + 2 < 2 ^ 32 →
        ∃ t, exec (.erase ⟨true, true⟩ sec) s = .next t ∧ t.cab.ret = (1, 0, 0)
          ∧ t.cab.erase = some { op := 2, sector := sec, redo := sectorInterrupted s.cab sec } ∧ t.cab.words = s.cab.words
          ∧ eraseCount t.cab sec = eraseCount s.cab sec + (if sectorInterrupted s.cab sec = true then 0 else 1)
          ∧ t.rings = s.rings ∧ t.modes = s.modes))
  ∧ (∀ (ok : Bool) (s : State),
    (∀ e, s.cab.erase = some e → e.suspended = false → exec (.suspend ⟨true, ok⟩) s
      = .next { s with cab := { s.cab with ret := (0, 0, 0), erase := some { e with suspended := true } } })
    ∧ ((s.cab.erase = none ∨ ∃ e, s.cab.erase = some e ∧ e.suspended = true) →
      exec (.suspend ⟨true, ok⟩) s = .next { s with cab := { s.cab with ret := (0x16, 0, 0) } })
    ∧ (∀ e, s.cab.erase = some e → e.suspended = true → s.cab.prog = none → s.modes.holdup = false →
      exec (.resume ⟨true, ok⟩) s
        = .next { s with cab := { s.cab with ret := (0, 0, 0), erase := some { e with suspended := false, auto := false } } })
    ∧ ((s.cab.erase = none ∨ (∃ e, s.cab.erase = some e ∧ e.suspended = false) ∨ s.cab.prog ≠ none ∨ s.modes.holdup = true) →
      exec (.resume ⟨true, ok⟩) s = .next { s with cab := { s.cab with ret := (0x16, 0, 0) } })
    ∧ (cabBusy s.cab = false → exec (.status ⟨true, ok⟩) s = .next { s with cab := { s.cab with ret := (0, 0, 0) } })
    ∧ (∀ o, cabCurrent s.cab = some o → o.sector < 65536 → o.words.length < 65535 →
      ∃ t, exec (.status ⟨true, ok⟩) s = .next t ∧ t.cab.ret.1 = 0 ∧ t.cab.ret.2.1 / 65536 = o.sector
        ∧ t.cab.ret.2.2 / 65536 = 0xCAB1 ∧ t.cab.ret.2.2 / 256 % 256 = o.op.toNat
        ∧ (if o.suspended = true then t.cab.ret.2.2 % 256 = 3 else t.cab.ret.2.2 % 256 = 1 ∨ t.cab.ret.2.2 % 256 = 2
            ∨ (o.op = 2 ∧ t.cab.ret.2.2 % 256 = 4))
        ∧ t = { s with cab := { s.cab with ret := t.cab.ret }, freeCtr := t.freeCtr })
    ∧ (∀ sec, 2048 ≤ sec → exec (.count ⟨true, ok⟩ sec) s = .next { s with cab := { s.cab with ret := (0x13, 0, 0) } })
    ∧ (∀ sec, sec < 2048 → exec (.count ⟨true, ok⟩ sec) s = .next { s with cab := { s.cab with ret := (0, eraseCount s.cab sec,
        (if sectorInterrupted s.cab sec then 1 else 0) + (if sectorFailed s.cab sec then 2 else 0)) } })
    ∧ exec (.markLock ⟨true, ok⟩) s = .next { s with cab := { s.cab with ret := (0, 0, 0), markLocked := true } })
  ∧ (∀ (w : Nat) (d : List (BitVec 64)) (a : Bool) (s : State), s.modes.holdup = false → cabBusy s.cab = false → w < 128 →
      d ≠ [] → w + d.length ≤ 128 →
    (markAllowed w d.length a s = false →
      exec (.markProgram ⟨true, true⟩ w d a) s = .next { s with cab := { s.cab with ret := (0x14, 0, 0) } })
    ∧ (markAllowed w d.length a s = true → blankAll s.cab.mark a w d = false →
      exec (.markProgram ⟨true, true⟩ w d a) s = .next { s with cab := { s.cab with ret := (0x12, 0, 0) } })
    ∧ (markAllowed w d.length a s = true → blankAll s.cab.mark a w d = true →
      exec (.markProgram ⟨true, true⟩ w d a) s = .next { s with cab := { s.cab with
        ret := (1, 0, 0), prog := some { op := 3, words := number w d, clearOnly := a } } }))
  ∧ (∀ (v : Bool) (n : Nat) (s : State), (s.cab.prog = none ∧ ∀ e, s.cab.erase = some e → e.suspended = true) →
    exec (.cabinetOpEnd v n) s = .next s)
  ∧ (∀ (p : CabOp) (n : Nat) (s : State), s.cab.prog = some p → p.words.Pairwise (fun a b => a.1 ≠ b.1) →
    ∃ t, exec (.cabinetOpEnd true n) s = .next t ∧ t.cab.prog = none ∧ t.cab.result = 0 ∧ t.irq = s.irq.cause 126
      ∧ (∀ q ∈ p.words, wordIn (if p.op = 3 then t.cab.mark else t.cab.words) q.1 = q.2.toNat)
      ∧ t = { s with cab := t.cab, irq := t.irq })
  ∧ (∀ (p : CabOp) (n : Nat) (s : State), s.cab.prog = some p → n < p.words.length →
    ∃ t, exec (.cabinetOpEnd false n) s = .next t ∧ t.cab.prog = none ∧ t.cab.result = 0x20
      ∧ t.stats.cabinetFaults = s.stats.cabinetFaults + 1 ∧ t.rings = s.rings ∧ t.modes = s.modes)
  ∧ (∀ (e : CabOp) (n : Nat) (s : State), s.cab.prog = none → s.cab.erase = some e → e.suspended = false →
    (∃ t, exec (.cabinetOpEnd true n) s = .next t ∧ t.cab.erase = none ∧ t.cab.result = 0 ∧ sectorErased e.sector t = true
      ∧ t.irq = s.irq.cause 126 ∧ t = { s with cab := t.cab, irq := t.irq })
    ∧ (∃ t, exec (.cabinetOpEnd false n) s = .next t ∧ t.cab.erase = none ∧ t.cab.result = 0x21
      ∧ (halfInForce s.cab e.sector ≠ none → sectorFailed t.cab e.sector = true)
      ∧ t.stats.cabinetFaults = s.stats.cabinetFaults + 1 ∧ t.rings = s.rings ∧ t.modes = s.modes))
  ∧ (∀ s : State, (s.cab.savePos = 0 ∨ 16384 ≤ saveFree s ∨ halfErased (1 - s.cab.saveHalf % 2) s = false
      ∨ s.modes.holdup = true) → exec .saveCompaction s = .next s)
  ∧ (∀ s : State, s.cab.savePos ≠ 0 → saveFree s < 16384 → halfErased (1 - s.cab.saveHalf % 2) s = true →
      s.modes.holdup = false →
    ∃ t, exec .saveCompaction s = .next t ∧ t.cab.saveHalf = 1 - s.cab.saveHalf % 2 ∧ t.cab.saveGen = s.cab.saveGen + 1
      ∧ halfGen t.cab.saveHalf t = some t.cab.saveGen.toNat ∧ t.dict = s.dict ∧ t.rings = s.rings)

/-! ### The dictionary, its carriers and the objects that act (chapter 15) -/

/-- The dictionary port: a request outside RESET and while not BUSY is checked, read, written or described and ends with its
abort code; while BUSY it only sets IGNORED; an unknown OP or a reserved bit is BAD_OP (R495, R496, R497, R500, R501, R502,
R503, R504).
Log entries 36 and 68 name what in it is the model's own reading or choice. -/
def Obligations.DictionaryPortRequests : Prop :=
  (∀ (p : (Word → Instr) × Nat) (v : Word) (s : State), p ∈ portCommands →
    (s.pins.inReset = true → exec (p.1 v) s = .next s)
    ∧ (1 ≤ fld v.toNat 28 4 → fld v.toNat 28 4 ≤ 3 → fld v.toNat 28 4 ≠ p.2 → exec (p.1 v) s = .next s)
    ∧ (s.pins.inReset = false → s.dict.busy = true → (fld v.toNat 28 4 = p.2 ∨ fld v.toNat 28 4 = 0 ∨ 4 ≤ fld v.toNat 28 4) →
        exec (p.1 v) s = .next { s with dict := { s.dict with ignored := true } })
    ∧ (s.pins.inReset = false → s.dict.busy = false →
        (fld v.toNat 28 4 = p.2 ∧ fld v.toNat 24 4 ≠ 0 ∨ fld v.toNat 28 4 = 0 ∨ 4 ≤ fld v.toNat 28 4) →
        ∃ t, exec (p.1 v) s = .next t ∧ portOnly abBadOp s t))
  ∧ (∀ (p : (Word → Instr) × Nat) (op : DictOp) (v : Word) (c : Nat) (s : State),
      (p = (.dictRead, 1) ∧ op = .read ∨ p = (.dictWrite, 2) ∧ op = .write ∨ p = (.dictDescribe, 3) ∧ op = .describe) →
      s.pins.inReset = false → s.dict.busy = false → fld v.toNat 28 4 = p.2 → fld v.toNat 24 4 = 0 →
      objCheck 0 op (fld v.toNat 8 16) (fld v.toNat 0 8) s = .inl c →
    ∃ t, exec (p.1 v) s = .next t ∧ portOnly c s t ∧ t.dict.saved = s.dict.saved ∧ t.dict.buf = s.dict.buf)
  ∧ (∀ (v : Word) (idx sub : Nat) (o : Obj) (s : State), s.pins.inReset = false → s.dict.busy = false → fld v.toNat 28 4 = 1 →
      fld v.toNat 24 4 = 0 → idx = fld v.toNat 8 16 → sub = fld v.toNat 0 8 → objCheck 0 .read idx sub s = .inr o →
    (1024 < s.dict.length.toNat → ∃ t, exec (.dictRead v) s = .next t ∧ portOnly abLength s t)
    ∧ (s.dict.length.toNat ≤ 1024 → s.dict.offset = 0 → idx ≠ 0x1210 → ∃ t, exec (.dictRead v) s = .next t ∧ portOnly 0 s t
        ∧ t.dict.total = BitVec.ofNat 32 (readObject o idx sub s).length
        ∧ t.dict.length.toNat = min s.dict.length.toNat (readObject o idx sub s).length
        ∧ t.dict.buf.take t.dict.length.toNat = (readObject o idx sub s).take s.dict.length.toNat
        ∧ t.dict.port.snap = some ((idx, sub), readObject o idx sub s) ∧ t.dict.saved = s.dict.saved)
    ∧ (s.dict.length.toNat ≤ 1024 → s.dict.offset ≠ 0 → s.dict.port.timedRead = some (idx, sub) →
        ∃ t, exec (.dictRead v) s = .next t ∧ portOnly abTimeout s t ∧ t.dict.port.timedRead = none)
    ∧ (∀ x, s.dict.length.toNat ≤ 1024 → s.dict.offset ≠ 0 → s.dict.port.timedRead ≠ some (idx, sub) →
        s.dict.port.snap = some ((idx, sub), x) → s.dict.offset.toNat < x.length →
        ∃ t, exec (.dictRead v) s = .next t ∧ portOnly 0 s t ∧ t.dict.total = BitVec.ofNat 32 x.length
          ∧ t.dict.buf.take t.dict.length.toNat = slice x s.dict.offset.toNat s.dict.length.toNat)
    ∧ (s.dict.length.toNat ≤ 1024 → s.dict.offset ≠ 0 → s.dict.port.timedRead ≠ some (idx, sub) →
        (∀ x, s.dict.port.snap = some ((idx, sub), x) → x.length ≤ s.dict.offset.toNat) →
        ∃ t, exec (.dictRead v) s = .next t ∧ portOnly abSequence s t))
  ∧ (∀ (v : Word) (idx sub : Nat) (o : Obj) (s : State), s.pins.inReset = false → s.dict.busy = false → fld v.toNat 28 4 = 2 →
      fld v.toNat 24 4 = 0 → idx = fld v.toNat 8 16 → sub = fld v.toNat 0 8 → objCheck 0 .write idx sub s = .inr o →
      s.dict.buf.length = 1024 →
    ((1024 < s.dict.length.toNat ∨ s.dict.total.toNat ≠ o.total s
        ∨ s.dict.total.toNat < s.dict.offset.toNat + s.dict.length.toNat) →
        ∃ t, exec (.dictWrite v) s = .next t ∧ portOnly abLength s t ∧ t.dict.saved = s.dict.saved)
    ∧ (s.dict.length.toNat ≤ 1024 → s.dict.offset = 0 → s.dict.total.toNat = o.len → o.acc ≠ .wo → o.flags / 4 % 2 = 0 →
        s.dict.last = false → s.dict.length.toNat ≤ o.len →
        ∃ t, exec (.dictWrite v) s = .next t ∧ portOnly 0 s t ∧ t.dict.saved = s.dict.saved
          ∧ t.dict.port.open_ = some ((idx, sub), s.dict.buf.take s.dict.length.toNat))
    ∧ (s.dict.length.toNat ≤ 1024 → s.dict.offset = 0 → s.dict.last = true → s.dict.length.toNat = o.len →
        s.dict.total.toNat = o.len → keepsOnly 0 idx sub (s.dict.buf.take o.len) o →
        valueCheck o idx sub (s.dict.buf.take o.len) s = 0 →
        valueLevel idx sub (s.dict.buf.take o.len) ≤ s.dict.port.level.toNat →
        ∃ t, exec (.dictWrite v) s = .next t ∧ portOnly 0 s t ∧ stored idx sub t = s.dict.buf.take o.len
          ∧ t.dict.port.open_ = none))
  ∧ (∀ (v : Word) (o : Obj) (s : State), s.pins.inReset = false → s.dict.busy = false → fld v.toNat 28 4 = 3 →
      fld v.toNat 24 4 = 0 → objCheck 0 .describe (fld v.toNat 8 16) (fld v.toNat 0 8) s = .inr o →
    ∃ t, exec (.dictDescribe v) s = .next t ∧ portOnly 0 s t ∧ t.dict.length = 32 ∧ t.dict.buf.take 32 = descriptor o
      ∧ t.dict.saved = s.dict.saved)

/-- The CAN node: a REQUEST is answered by one RESPONSE with the data or the abort code; a session ends by CLOSE, by its
timeout or at bus-off; STATUS and EVENT frames are sent while the node takes part in the bus; its error state is counted and
reported (R50, R495, R496, R501, R505, R506, R508, R509, R510, R511).
Log entry 36 names what in it is the model's own reading or choice. -/
def Obligations.CanNodeServesClients : Prop :=
  (∀ (p : (List Byte → Instr) × Nat) (f : List Byte) (s : State), p ∈ canCommands →
    (canOn s = false → exec (p.1 f) s = .next s)
    ∧ (1 ≤ byteAt f 0 → byteAt f 0 ≤ 4 → byteAt f 0 ≠ p.2 → exec (p.1 f) s = .next s)
    ∧ (canOn s = true → byteAt f 0 = p.2 → (byteAt f 2 = 0 ∨ 127 < byteAt f 2) →
        ∃ t, exec (p.1 f) s = .next t ∧ responds f 0xC0 abBadOp [] s t ∧ t = { s with dict := t.dict })
    ∧ (canOn s = true → byteAt f 0 = p.2 → 1 ≤ byteAt f 2 → byteAt f 2 ≤ 127 → byteAt f 2 ∈ s.dict.lostClients →
        ∃ t, exec (p.1 f) s = .next t ∧ responds f 0xC0 abSessionLost [] s t ∧ byteAt f 2 ∉ t.dict.lostClients
          ∧ t = { s with dict := t.dict })
    ∧ (canOn s = true → byteAt f 0 = p.2 → 1 ≤ byteAt f 2 → byteAt f 2 ≤ 127 → byteAt f 2 ∉ s.dict.lostClients →
        fld (byteAt f 7) 1 7 ≠ 0 →
        ∃ t, exec (p.1 f) s = .next t ∧ responds f 0xC0 abBadOp [] s t ∧ t = { s with dict := t.dict }))
  ∧ (∀ (p : (List Byte → Instr) × Nat) (op : DictOp) (f : List Byte) (c : Nat) (s : State),
      (p = (.canRead, 1) ∧ op = .read ∨ p = (.canWrite, 2) ∧ op = .write ∨ p = (.canDescribe, 3) ∧ op = .describe) →
      servesFrame p.2 f s → objCheck (byteAt f 2) op (leAt f 4 2) (byteAt f 3) s = .inl c →
    ∃ t, exec (p.1 f) s = .next t ∧ responds f 0xC0 c [] s t ∧ t.dict.saved = s.dict.saved ∧ t = { s with dict := t.dict })
  ∧ (∀ (f : List Byte) (idx sub : Nat) (o : Obj) (s : State), servesFrame 1 f s → idx = leAt f 4 2 → sub = byteAt f 3 →
      objCheck (byteAt f 2) .read idx sub s = .inr o → idx ≠ 0x1210 → leAt f 8 4 = 0 → 16 ≤ f.length →
      (readObject o idx sub s).length < 2 ^ 32 →
    (byteAt f 6 ≤ 48 → ∃ t, exec (.canRead f) s = .next t
      ∧ responds f 0x81 (readObject o idx sub s).length ((readObject o idx sub s).take (byteAt f 6)) s t
      ∧ t.dict.saved = s.dict.saved ∧ t = { s with dict := t.dict })
    ∧ (48 < byteAt f 6 → ∃ t, exec (.canRead f) s = .next t ∧ responds f 0xC0 abLength [] s t ∧ t = { s with dict := t.dict }))
  ∧ (∀ (f : List Byte) (idx sub : Nat) (o : Obj) (s : State), servesFrame 2 f s → idx = leAt f 4 2 → sub = byteAt f 3 →
      objCheck (byteAt f 2) .write idx sub s = .inr o → leAt f 8 4 = 0 → byteAt f 7 = 1 → byteAt f 6 = o.len → o.len ≤ 48 →
      leAt f 12 4 = o.len → 16 + o.len ≤ f.length → keepsOnly (byteAt f 2) idx sub (slice f 16 o.len) o →
      valueCheck o idx sub (slice f 16 o.len) s = 0 →
      valueLevel idx sub (slice f 16 o.len) ≤ (sessionAt (byteAt f 2) s).level.toNat →
    ∃ t, exec (.canWrite f) s = .next t ∧ responds f 0x82 0 [] s t ∧ stored idx sub t = slice f 16 o.len
      ∧ t = { s with dict := t.dict })
  ∧ (∀ (f : List Byte) (o : Obj) (s : State), servesFrame 3 f s → 16 ≤ f.length →
      objCheck (byteAt f 2) .describe (leAt f 4 2) (byteAt f 3) s = .inr o →
    ∃ t, exec (.canDescribe f) s = .next t ∧ responds f 0x83 0 (descriptor o) s t ∧ t = { s with dict := t.dict })
  ∧ (∀ (f : List Byte) (s : State), servesFrame 4 f s → 16 ≤ f.length →
    ∃ t, exec (.closeSession f) s = .next t ∧ responds f 0x84 0 [] s t ∧ (∀ x ∈ t.dict.can, x.client ≠ byteAt f 2)
      ∧ t = { s with dict := t.dict })
  ∧ (∀ s : State, (canOn s = false ∨ cfg 0x1300 5 s = 0) → exec .canStatusFrame s = .next s)
  ∧ (∀ s : State, canOn s = true → cfg 0x1300 5 s ≠ 0 →
    ∃ t r, exec .canStatusFrame s = .next t ∧ r.length = 8 ∧ byteAt r 0 = s.modes.mode.code
      ∧ byteAt r 7 = s.dict.frameCount.toNat
      ∧ t = { s with dict := { s.dict with
          frameCount := s.dict.frameCount + 1
          canOut := s.dict.canOut ++ [(BitVec.ofNat 11 (0x500 + canNode s), r)] } })
  ∧ (∀ s : State, (canOn s = false ∨ s.dict.events = []) → exec .canEventFrame s = .next s)
  ∧ (∀ (r : List Byte) (rest : List (List Byte)) (s : State), canOn s = true → s.dict.events = r :: rest →
    exec .canEventFrame s = .next { s with dict := { s.dict with
      events := rest
      canOut := s.dict.canOut ++ [(BitVec.ofNat 11 (0x080 + canNode s), padTo (canSize r.length) r)] } })
  ∧ (∀ (c : Nat) (s : State), exec (.canSessionTimeout c) s
      = .next { s with dict := { s.dict with can := s.dict.can.filter (fun x => x.client != c) } })
  ∧ (∀ s : State, exec (.dictTransferTimeout 0) s = .next { s with dict := { s.dict with port := { s.dict.port with
      snap := none, open_ := none
      timedRead := (s.dict.port.snap.map (·.1)).or s.dict.port.timedRead
      timedWrite := (s.dict.port.open_.map (·.1)).or s.dict.port.timedWrite } } })
  ∧ (∀ (p : (List Byte → Instr) × Nat) (op : DictOp) (f : List Byte) (o : Obj) (s : State),
      (p = (.canRead, 1) ∧ op = .read ∨ p = (.canWrite, 2) ∧ op = .write ∨ p = (.canDescribe, 3) ∧ op = .describe) →
      servesFrame p.2 f s → f.length < 16 → objCheck (byteAt f 2) op (leAt f 4 2) (byteAt f 3) s = .inr o →
    ∃ t, exec (p.1 f) s = .next t ∧ responds f 0xC0 abLength [] s t ∧ t = { s with dict := t.dict })
  ∧ (∀ (f : List Byte) (s : State), servesFrame 4 f s → f.length < 16 →
    ∃ t, exec (.closeSession f) s = .next t ∧ responds f 0xC0 abLength [] s t ∧ t = { s with dict := t.dict })
  ∧ (∀ (c : Nat) (s : State), c ≠ 0 → ∃ t, exec (.dictTransferTimeout c) s = .next t
      ∧ (∀ x ∈ t.dict.can, x.client = c → x.snap = none ∧ x.open_ = none)
      ∧ t.dict.can.map (·.client) = s.dict.can.map (·.client) ∧ t = { s with dict := { s.dict with can := t.dict.can } })
  ∧ (∀ s : State, (canOn s = false → exec .busOff s = .next s)
      ∧ (canOn s = true → exec .busOff s = .next { s with
          irq := s.irq.cause 125, dict := { s.dict with errState := 2, can := [], lostClients := [] } }))
  ∧ (∀ s : State, (s.dict.errState ≠ 2 → exec .busOffRecovery s = .next s)
      ∧ (s.dict.errState = 2 →
        exec .busOffRecovery s = .next { s with irq := s.irq.cause 125, dict := { s.dict with errState := 0 } }))
  ∧ (∀ s : State, (canOn s = false → exec (.errorPassive true) s = .next s ∧ exec (.errorPassive false) s = .next s)
      ∧ (canOn s = true → s.dict.errState = 0 → exec (.errorPassive false) s = .next s ∧ exec (.errorPassive true) s
          = .next { s with irq := s.irq.cause 125, dict := { s.dict with errState := 1 } })
      ∧ (canOn s = true → s.dict.errState = 1 → exec (.errorPassive true) s = .next s ∧ exec (.errorPassive false) s
          = .next { s with irq := s.irq.cause 125, dict := { s.dict with errState := 0 } }))

/-- Objects that act, written whole through the dictionary port: authentication, images, defaults, the statistics mark, the
factory request, the floors, the keys and the customer sectors; a request that a check refuses has only its abort code (R83,
R491, R492, R494, R497, R515, R516, R517, R522, R541, R542, R544, R547).
Log entries 11, 39, 40 and 68 name what in it is the model's own reading or choice. -/
def Obligations.ObjectsThatAct : Prop :=
  (∀ (i : Instr) (c idx sub : Nat) (s : State), objectCommand i = some (c, idx, sub) →
    (c = 0 → s.pins.inReset = true → exec i s = .next s)
    ∧ (c ≠ 0 → (canOn s = false ∨ 127 < c) → exec i s = .next s)
    ∧ (canOn s = true → 1 ≤ c → c ≤ 127 → c ∈ s.dict.lostClients →
        ∃ t, exec i s = .next t ∧ c ∉ t.dict.lostClients ∧ t = { s with dict := { s.dict with
          can := t.dict.can, useOrder := t.dict.useOrder, lostClients := t.dict.lostClients } })
    ∧ (∀ code, c = 0 → s.pins.inReset = false →
        objCheck 0 (if sub = 2 ∧ idx = 0x1210 then .read else .write) idx sub s = .inl code →
        ∃ t, exec i s = .next t ∧ portOnly code s t ∧ t.dict.saved = s.dict.saved))
  ∧ (∀ (l : Byte) (o : Obj) (s : State), s.pins.inReset = false → objCheck 0 .write 0x1210 1 s = .inr o →
    ((l = 1 ∨ l = 2) → ∃ t, exec (.authRequest 0 l) s = .next t ∧ portOnly 0 s t
      ∧ (if l = 1 ∧ slotInForce s = none then
          t.dict.port.level = (if s.dict.port.level = 0 then 1 else s.dict.port.level)
            ∧ t.dict.port.authLevel = s.dict.port.authLevel
        else t.dict.port.level = s.dict.port.level ∧ t.dict.port.authLevel = some (BitVec.ofNat 2 l.toNat)))
    ∧ (l = 0 → ∃ t, exec (.authRequest 0 l) s = .next t ∧ portOnly abBelow s t ∧ t.dict.port.level = s.dict.port.level)
    ∧ (2 < l.toNat → ∃ t, exec (.authRequest 0 l) s = .next t ∧ portOnly abAbove s t ∧ t.dict.port.level = s.dict.port.level))
  ∧ (∀ (r : List Byte) (o : Obj) (s : State), s.pins.inReset = false → objCheck 0 .read 0x1210 2 s = .inr o →
    ∃ t, exec (.authChallenge 0 r) s = .next t ∧ portOnly 0 s t ∧ t.dict.port.challenge = some (padTo 48 r)
      ∧ t.dict.port.drawnAt = s.now ∧ t.dict.total = 48 ∧ t.dict.buf.take 48 = padTo 48 r)
  ∧ (∀ (k : List Byte) (o : Obj) (s : State), s.pins.inReset = false → objCheck 0 .write 0x1210 3 s = .inr o →
    (k.length = 97 → ∃ t, exec (.authKey 0 k) s = .next t ∧ portOnly 0 s t ∧ t.dict.port.key = some k
      ∧ t.dict.port.level = s.dict.port.level)
    ∧ (k.length ≠ 97 → ∃ t, exec (.authKey 0 k) s = .next t ∧ portOnly abLength s t ∧ t.dict.port.key = s.dict.port.key))
  ∧ (∀ (g : List Byte) (o : Obj) (s : State), s.pins.inReset = false → objCheck 0 .write 0x1210 4 s = .inr o → g.length = 96 →
    (challengeNow s.dict.port s = none → ∃ t, exec (.authSignature 0 g) s = .next t ∧ portOnly abNoChallenge s t
      ∧ t.dict.port.level = s.dict.port.level)
    ∧ (∀ c, challengeNow s.dict.port s = some c → ∃ t, exec (.authSignature 0 g) s = .next t ∧ t.dict.port.challenge = none
      ∧ (if signatureOk s.dict.port c g s = true then
          portOnly 0 s t ∧ t.dict.port.level = s.dict.port.authLevel.getD 0
        else portOnly abAuthFailed s t ∧ t.dict.port.level = s.dict.port.level)))
  ∧ (∀ (o : Obj) (s : State), s.pins.inReset = false → objCheck 0 .write 0x1210 6 s = .inr o →
    (∃ t, exec (.authDrop 0 1) s = .next t ∧ portOnly 0 s t ∧ t.dict.port.level = 0)
    ∧ (∃ t, exec (.authDrop 0 0) s = .next t ∧ portOnly 0 s t ∧ t.dict.port.level = s.dict.port.level))
  ∧ (∀ (v : Byte) (o : Obj) (s : State), s.pins.inReset = false → objCheck 0 .write 0x1201 1 s = .inr o → 1 ≤ v.toNat →
      v.toNat ≤ 4 → (v = 3 → s.dict.port.level.toNat = 2 ∨ s.dict.port.level.toNat = 3) →
    ∃ t, exec (.imageTarget 0 v) s = .next t
      ∧ (if firmwareRuns s = true ∧ (v = 1 ∧ s.modes.fwSlot = false ∨ v = 2 ∧ s.modes.fwSlot = true) then
          portOnly abRunningSlot s t ∧ t.dict.imgState = s.dict.imgState
        else portOnly 0 s t ∧ t.dict.imgState = 0 ∧ stored 0x1201 1 t = [v]))
  ∧ (∀ (n : Word) (o : Obj) (s : State), s.pins.inReset = false → objCheck 0 .write 0x1201 2 s = .inr o →
    ((imgTarget s = 0 ∨ n.toNat < 256 ∨ imageLengthOk (imgTarget s) (n.toNat - 256) = false) →
      ∃ t, exec (.imageLength 0 n) s = .next t ∧ portOnly abImageLength s t ∧ t.dict.imgState = s.dict.imgState)
    ∧ (imgTarget s ≠ 0 → 256 ≤ n.toNat → imageLengthOk (imgTarget s) (n.toNat - 256) = true → s.modes.holdup = false →
        (∀ i ∈ imgSectors n.toNat s, sectorFailed s.cab i = false) →
      ∃ t, exec (.imageLength 0 n) s = .next t ∧ portDone 0 t ∧ t.dict.imgState = 1 ∧ t.dict.imgBytes = 0
        ∧ (∀ i ∈ imgSectors n.toNat s, sectorErased i t = true) ∧ imgLength t = n.toNat ∧ t.rings = s.rings
            ∧ t.modes = s.modes))
  ∧ (∀ (off : Nat) (last : Bool) (d : List Byte) (o : Obj) (s : State), s.pins.inReset = false →
      objCheck 0 .write 0x1201 3 s = .inr o → d.length ≤ 1024 → off + d.length ≤ imgLength s →
      (last = true → off + d.length = imgLength s) → (off = 0 ∨ s.dict.port.timedWrite ≠ some (0x1201, 3)) →
    (s.dict.imgState ≠ 1 → ∃ t, exec (.imageData 0 off last d) s = .next t ∧ portOnly abImageState s t)
    ∧ (s.dict.imgState = 1 → (off = 0 ∨ received 0 0x1201 3 s ≠ none ∧ off = s.dict.imgBytes) →
        (imgSegment off last d s).1 = 0 →
      ∃ t, exec (.imageData 0 off last d) s = .next t ∧ portDone 0 t ∧ t.dict.imgBytes = off + d.length
        ∧ t.dict.imgState = (if last = true then 2 else 1) ∧ t.cab = (imgSegment off last d s).2.cab ∧ t.rings = s.rings
        ∧ t.modes = s.modes))
  ∧ (∀ (o : Obj) (s : State), s.pins.inReset = false → objCheck 0 .write 0x1201 5 s = .inr o →
    (s.dict.imgState ≠ 2 → ∃ t, exec (.imageCheck 0 1) s = .next t ∧ portOnly abImageState s t)
    ∧ (s.dict.imgState ≠ 2 → ∃ t, exec (.imageCheck 0 0) s = .next t ∧ portOnly abImageState s t)
    ∧ (s.dict.imgState = 2 → ∃ t, exec (.imageCheck 0 0) s = .next t ∧ portOnly 0 s t ∧ t.dict.imgState = 2)
    ∧ (s.dict.imgState = 2 → ∃ t, exec (.imageCheck 0 1) s = .next t ∧ portOnly 0 s t
      ∧ (match imageRefused (imgTarget s) s with
        | some r => t.dict.imgState = 4 ∧ t.dict.imgReason = BitVec.ofNat 8 r
        | none => t.dict.imgState = 3 ∧ t.dict.imgReason = 0)))
  ∧ (∀ (o : Obj) (s : State), s.pins.inReset = false → objCheck 0 .write 0x1300 0x0A s = .inr o →
    ((s.modes.holdup = true ∨ saveWorks s = false) →
      ∃ t, exec (.restoreDefaults 0 1) s = .next t ∧ portOnly abSave s t ∧ t.dict.defaultsNext = s.dict.defaultsNext)
    ∧ (s.modes.holdup = false → saveWorks s = true → ∃ t, exec (.restoreDefaults 0 1) s = .next t ∧ portDone 0 t
      ∧ t.dict.defaultsNext = true ∧ t.rings = s.rings ∧ t.modes = s.modes ∧ t.dict.saved = s.dict.saved))
  ∧ (∀ (o : Obj) (s : State), s.pins.inReset = false → objCheck 0 .write 0x6000 6 s = .inr o →
    ∃ t, exec (.statisticsMark 0 1) s = .next t ∧ portDone 0 t
      ∧ t.stats.mark = (s.stats.bytesWritten, s.stats.bytesRead, s.stats.entriesCompleted)
      ∧ t = { s with dict := t.dict, irq := t.irq, stats := { s.stats with mark := t.stats.mark } })
  ∧ (∀ (o : Obj) (s : State), s.pins.inReset = false → objCheck 0 .write 0x1100 5 s = .inr o →
    ∃ t, exec (.factoryRequest 0 1) s = .next t ∧ portDone 0 t ∧ t.modes = { s.modes with factoryReq := true }
      ∧ t = { s with dict := t.dict, irq := t.irq, modes := t.modes })
  ∧ (∀ (v : BitVec 16) (sub off : Nat) (i : Instr) (o : Obj) (s : State),
      (i = .raiseVendorFloor 0 v ∧ sub = 7 ∧ off = 0x380 ∨ i = .raiseCustomerFloor 0 v ∧ sub = 8 ∧ off = 0x3A0) →
      s.pins.inReset = false → objCheck 0 .write 0x3C00 sub s = .inr o → v.toNat ≤ 256 →
    (v.toNat < floorAt off s → ∃ t, exec i s = .next t ∧ portOnly abBelow s t)
    ∧ (v.toNat = floorAt off s → ∃ t, exec i s = .next t ∧ portOnly 0 s t)
    ∧ (floorAt off s < v.toNat → s.modes.holdup = true → ∃ t, exec i s = .next t ∧ portOnly abSave s t)
    ∧ (floorAt off s < v.toNat → s.modes.holdup = false → ∃ t, exec i s = .next t ∧ portDone 0 t ∧ v.toNat ≤ floorAt off t
      ∧ t = { s with dict := t.dict, irq := t.irq, cab := { s.cab with mark := t.cab.mark } }))
  ∧ (∀ (d : List Byte) (o : Obj) (s : State), s.pins.inReset = false → objCheck 0 .write 0x3C00 9 s = .inr o → d.length = 80 →
    ((nextSlot s = none ∨ factoryOk s = false) →
      ∃ t, exec (.customerKeyProvision 0 d) s = .next t ∧ portOnly abBadValue s t)
    ∧ (∀ k, nextSlot s = some k → factoryOk s = true → s.modes.holdup = false →
      ∃ t, exec (.customerKeyProvision 0 d) s = .next t ∧ portDone 0 t ∧ markBytes (0x200 + 96 * k) 80 t = d
        ∧ slotValid k t = true ∧ t = { s with dict := t.dict, irq := t.irq, cab := { s.cab with mark := t.cab.mark } }))
  ∧ (∀ (d : List Byte) (o : Obj) (s : State), s.pins.inReset = false → objCheck 0 .write 0x3C00 0x0A s = .inr o →
      d.length = 504 →
    (erasedIn s.cab.mark 0 64 = false → ∃ t, exec (.factoryPart 0 d) s = .next t ∧ portOnly abBadValue s t)
    ∧ (erasedIn s.cab.mark 0 64 = true → s.modes.holdup = false → ∃ t, exec (.factoryPart 0 d) s = .next t ∧ portDone 0 t
      ∧ markBytes 0 504 t = d ∧ factoryOk t = true
      ∧ t = { s with dict := t.dict, irq := t.irq, cab := { s.cab with mark := t.cab.mark } }))
  ∧ (∀ (d : List Byte) (o : Obj) (k : Nat) (s : State), s.pins.inReset = false → objCheck 0 .write 0x3C00 0x10 s = .inr o →
      d.length = 4096 → k = 0x740 + leVal (stored 0x3C00 0x0F s) →
    ((s.modes.holdup = true ∨ sectorFailed s.cab k = true) →
      ∃ t, exec (.customerSectorData 0 d) s = .next t ∧ portOnly abSave s t ∧ t.cab = s.cab)
    ∧ (s.modes.holdup = false → sectorFailed s.cab k = false → ∃ t, exec (.customerSectorData 0 d) s = .next t ∧ portDone 0 t
      ∧ cabBytes k 0 512 t = d ∧ t.rings = s.rings ∧ t.modes = s.modes))

/-! ### SRAM integrity and the register window (chapters 2, 17 and 18) -/

/-- The code of a stored word: its 137 bits, the place of each data bit, the checks and the overall parity (R552); every value
encodes to a clean word that gives it back, one inverted position is corrected, and two are detected (R553). -/
def Obligations.SramCodeCorrectsOneAndDetectsTwo : Prop :=
  ∀ v < 2 ^ 128, sramEncode v < 2 ^ 137
    ∧ (∀ d < 128, bitAt (sramEncode v)
        (((List.range 137).filter (fun p => !([0, 1, 2, 4, 8, 16, 32, 64, 128].contains p))).getD d 0) = bitAt v d)
    ∧ (∀ j < 8, ((List.range 137).filter (fun p => bitAt p j)).foldl (fun a p => xor a (bitAt (sramEncode v) p)) false = false)
    ∧ (List.range 137).foldl (fun a p => xor a (bitAt (sramEncode v) p)) false = false
    ∧ sramClass (sramEncode v) = .clean ∧ sramData (sramEncode v) = v
    ∧ (∀ p < 137, sramClass (flipBit (sramEncode v) p) = .corrected (sramEncode v))
    ∧ (∀ p < 137, ∀ q < 137, p ≠ q → sramClass (flipBit (flipBit (sramEncode v) p) q) = .bad)

/-- The scrubber reads a word a step, keeps a corrected one for its rewrite and counts; a merge entry retires into its word; the
flip and the codec's injection take writes from the main core only (R244, R553, R556, R558, R559, R560, R561, R562, R565, R577).
Log entries 30 and 65 name what in it is the model's own reading or choice. -/
def Obligations.SramIntegrityCommands : Prop :=
  (∀ s : State, scrubRuns s = false → exec .scrubRead s = .next s)
  ∧ (∀ s : State, scrubRuns s = true → (∀ e ∈ s.sram.merge, e.word ≠ s.sram.scrubPos) →
    ∃ t u, exec .scrubRead s = .next t ∧ t = settle u ∧ u.modes = s.modes ∧ u.rings = s.rings ∧ u.sram.words = s.sram.words
      ∧ (if s.sram.scrubPos + 1 < 786432 then t.sram.scrubPos = s.sram.scrubPos + 1 ∧ t.sram.laps = s.sram.laps
        else t.sram.scrubPos = 0 ∧ t.sram.laps = s.sram.laps + 1 ∧ t.stats.scrubLaps = s.stats.scrubLaps + 1)
      ∧ (match sramClass (s.sram.word s.sram.scrubPos) with
        | .clean => u.sram.rewrites = s.sram.rewrites ∧ t.sram.corr = s.sram.corr ∧ t.sram.uncorr = s.sram.uncorr
        | .corrected f => u.sram.rewrites = s.sram.rewrites ++ [(s.sram.scrubPos, BitVec.ofNat 137 f)]
            ∧ t.sram.corr = s.sram.corr + 1 ∧ t.sram.errValid = true ∧ t.sram.errUncorr = false
        | .bad => t.sram.uncorr = s.sram.uncorr + 1 ∧ t.sram.errValid = true ∧ t.sram.errUncorr = true
            ∧ s.sram.scrubPos ∈ u.sram.bad))
  ∧ (∀ s : State, s.sram.rewrites = [] → exec .scrubRewrite s = .next s)
  ∧ (∀ (a : Nat) (w : BitVec 137) (rest : List (Nat × BitVec 137)) (s : State), s.sram.rewrites = (a, w) :: rest →
    ∃ t, exec .scrubRewrite s = .next t ∧ t.sram.word a = w.toNat ∧ t.sram.rewrites = rest
      ∧ (∀ b, b ≠ a → t.sram.word b = s.sram.word b) ∧ t.sram.fixed = s.sram.fixed + 1
      ∧ t.stats = { s.stats with scrubFixed := s.stats.scrubFixed + 1 } ∧ t = { s with sram := t.sram, stats := t.stats })
  ∧ (∀ (i : Nat) (s : State), i < 8 → s.sram.merge[i]? = none → exec (.mergeRetire i) s = .next s)
  ∧ (∀ (i : Nat) (e : Merge) (s : State), i < 8 → s.sram.merge[i]? = some e → s.sram.flipArm = false →
    ∃ t u, exec (.mergeRetire i) s = .next t ∧ t = settle u ∧ (∀ x ∈ u.sram.merge, x.word ≠ e.word)
      ∧ (∀ b, b ≠ e.word → u.sram.word b = s.sram.word b)
      ∧ (e.bytes.all (·.isSome) = true → u.sram.word e.word = sramEncode (leVal (e.bytes.map (·.getD 0))) % 2 ^ 137)
      ∧ (e.bytes.all (·.isSome) = false → sramClass (s.sram.word e.word) = .clean →
          u.sram.word e.word = sramEncode (leVal (overlay e.bytes (le 16 (sramData (s.sram.word e.word))))) % 2 ^ 137)
      ∧ (e.bytes.all (·.isSome) = false → sramClass (s.sram.word e.word) = .bad → t.sram.poisoned = true)
      ∧ u.modes = s.modes ∧ u.rings = s.rings)
  ∧ (∀ (v : Word) (s : State),
    exec (.sramFlip .hostPort v) s = .next { s with regs := { s.regs with rsp := s.regs.rsp ++ [(3, 0)] } }
    ∧ exec (.sramFlip .hkCore v) s = .next { s with regs := { s.regs with coreFaults := s.regs.coreFaults + 1 } }
    ∧ exec (.codecInject .hostPort v) s = .next { s with regs := { s.regs with rsp := s.regs.rsp ++ [(3, 0)] } }
    ∧ exec (.codecInject .hkCore v) s = .next { s with regs := { s.regs with coreFaults := s.regs.coreFaults + 1 } }
    ∧ exec (.codecInject .mainCore v) s = .next { s with codec := { s.codec with
        injectCount := BitVec.ofNat 16 (v.toNat / 65536), injectBits := BitVec.ofNat 16 v.toNat } }
    ∧ ((136 < fld v.toNat 0 8 ∨ bitAt v.toNat 30 = true ∧ 136 < fld v.toNat 8 8) → exec (.sramFlip .mainCore v) s = .next s)
    ∧ (fld v.toNat 0 8 ≤ 136 → (bitAt v.toNat 30 = true → fld v.toNat 8 8 ≤ 136) →
      exec (.sramFlip .mainCore v) s = .next { s with sram := { s.sram with
        flipArm := bitAt v.toNat 31, flipB := bitAt v.toNat 30, flipRegion := BitVec.ofNat 3 (fld v.toNat 24 3)
        flipPosB := BitVec.ofNat 8 (fld v.toNat 8 8), flipPosA := BitVec.ofNat 8 (fld v.toNat 0 8) } }))

/-- The register window: a read answers OKAY with the register's value and clears its RC fields; an access outside the
registers, in RESET or OFF, misaligned or without the privilege is answered with its code and changes nothing; read-only
fields keep their values, W1C fields clear where a one is written, a ring's base is kept unless it is DISABLED (R4, R28, R30,
R31, R54, R61, R87, R467, R483, R575, R576, R577).
Log entries 30, 31 and 33 name what in it is the model's own reading or choice. -/
def Obligations.RegisterAccesses : Prop :=
  (∀ (who : Writer) (wide : Bool) (a : Nat) (x : BitVec 64) (w : List HostRead) (s : State), accessOk who wide a = true →
      accessCode wide a s ≠ 0 →
    (who = .hostPort → exec (.registerReadClear who wide a) s
        = .next { s with regs := { s.regs with rsp := s.regs.rsp ++ [(BitVec.ofNat 2 (accessCode wide a s), 0)] } }
      ∧ exec (.registerWrite who wide a x w) s
        = .next { s with regs := { s.regs with rsp := s.regs.rsp ++ [(BitVec.ofNat 2 (accessCode wide a s), 0)] } })
    ∧ ((s.pins.inReset = true ∨ s.pins.powered = false) → accessCode wide a s = 1)
    ∧ (who ≠ .hostPort →
      exec (.registerReadClear who wide a) s = .next { s with regs := { s.regs with coreFaults := s.regs.coreFaults + 1 } }
      ∧ exec (.registerWrite who wide a x w) s = .next { s with regs := { s.regs with coreFaults := s.regs.coreFaults + 1 } }))
  ∧ (∀ (a : Nat) (v : Word) (s : State), accessOk .hostPort false a = true → s.pins.inReset = false → s.pins.powered = true →
      readReg a s = some v →
      a ≠ 0x04800 → a ≠ 0x04810 →
    ∃ t, exec (.registerReadClear .hostPort false a) s = .next t ∧ t.regs.rsp = s.regs.rsp ++ [(0, BitVec.ofNat 64 v.toNat)]
      ∧ (0x04400 ≤ a → a < 0x04500 → ∀ n, (a - 0x04400) ≤ n → n < (a - 0x04400) + 4 → t.irq.count.getD n 0 = 0)
      ∧ (a = 0x05014 → t.evq.dropped = 0 ∧ t.evq.coreDropped = 0) ∧ (a = 0x06008 → t.rack.deferred = 0)
      ∧ (a = 0x07000 → t.hk.discarded = 0) ∧ (a = 0x0D018 → t.stripe.waits = 0 ∧ t.stripe.waitLong = 0)
      ∧ (a = 0x0E024 → t.sram.merges = 0) ∧ (a = 0x0F00C → t.dv.missed = 0)
      ∧ (a < 0x04000 → t = { s with regs := t.regs }) ∧ t.modes = s.modes ∧ t.rings = s.rings ∧ t.cab = s.cab)
  ∧ (∀ (a : Nat) (lo hi : Word) (s : State), accessOk .hostPort true a = true → s.pins.inReset = false →
      s.pins.powered = true → a % 8 = 0 →
      a < 0x04000 → readReg a s = some lo → readReg (a + 4) s = some hi →
    ∃ t, exec (.registerReadClear .hostPort true a) s = .next t
      ∧ t.regs.rsp = s.regs.rsp ++ [(0, BitVec.ofNat 64 (lo.toNat + 2 ^ 32 * hi.toNat))] ∧ t = { s with regs := t.regs })
  ∧ (∀ (who : Writer) (a : Nat) (x : BitVec 64) (w : List HostRead) (s : State), accessOk who false a = true →
      accessCode false a s = 0 → mainOnly a = true → who ≠ .mainCore →
    (who = .hostPort → exec (.registerWrite who false a x w) s
      = .next { s with regs := { s.regs with rsp := s.regs.rsp ++ [(3, 0)] } })
    ∧ (who ≠ .hostPort → exec (.registerWrite who false a x w) s
      = .next { s with regs := { s.regs with coreFaults := s.regs.coreFaults + 1 } }))
  ∧ (∀ (a : Nat) (x : BitVec 64) (w : List HostRead) (s : State), accessOk .hostPort false a = true →
      accessCode false a s = 0 → 0x06000 ≤ a → a < 0x08000 → exec (.registerWrite .hostPort false a x w) s
      = .next { s with regs := { s.regs with rsp := s.regs.rsp ++ [(0, 0)] } })
  ∧ (∀ (x : BitVec 64) (w : List HostRead) (s : State), s.pins.inReset = false → s.pins.powered = true →
    (∃ t, exec (.registerWrite .hostPort false 0x14 x w) s = .next t
      ∧ t.modes = { s.modes with
          causePor := s.modes.causePor && !bitAt x.toNat 0, causePin := s.modes.causePin && !bitAt x.toNat 1
          causeSoft := s.modes.causeSoft && !bitAt x.toNat 2, causeWdog := s.modes.causeWdog && !bitAt x.toNat 3 }
      ∧ t.regs.rsp = s.regs.rsp ++ [(0, 0)] ∧ t = { s with modes := t.modes, regs := t.regs })
    ∧ (∃ t, exec (.registerWrite .hostPort true 0x20 x w) s = .next t ∧ t.modes.scratch0 = BitVec.ofNat 32 x.toNat
      ∧ t.modes.scratch1 = BitVec.ofNat 32 (x.toNat / 2 ^ 32)
      ∧ t = { s with regs := t.regs, modes := { s.modes with scratch0 := t.modes.scratch0, scratch1 := t.modes.scratch1 } })
    ∧ (∀ n < 64, s.rings.length = 64 → ∃ t, exec (.registerWrite .hostPort true (0x02000 + 0x80 * n) x w) s = .next t
      ∧ ringAt n t = (if (ringAt n s).state = .disabled then { ringAt n s with
            baseLo := BitVec.ofNat 20 (fld x.toNat 12 20), baseHi := BitVec.ofNat 32 (x.toNat / 2 ^ 32) }
          else ringAt n s)
      ∧ (∀ m, m ≠ n → ringAt m t = ringAt m s) ∧ t = { s with rings := t.rings, regs := t.regs }))
end

