-- ==== Sys2Proof/Laws/Held.lean ====
section
/-!
SUPPORT. The rules by which an operation is shown to keep the queue, the counts of units and the canonical form of the
memories: one for a record update, one for each control form.
-/
namespace Sys2Proof.Machine

/-- The queue is `p`, and what every command keeps holds. -/
structure Held (p : List Instr) (s : State) : Prop where
  queue : s.pending = p
  kept : Kept s

/-- An outcome whose next state, if any, is held. -/
def HeldOut (p : List Instr) (o : Out) : Prop := ∀ t, o = .next t → Held p t

/-- A record update keeps it when each part it changes keeps its own form. -/
theorem Held.upd {p : List Instr} {u : State} {fc now pins modes rings sched host regs rack power hk image jigs chans codec
    recov luns stripe bg media dv irq evq dict cab sram stats}
    (h : Held p u)
    (h1 : u.rings.length = 64 → rings.length = 64) (h2 : jigsWf u.jigs → jigsWf jigs)
    (h3 : u.chans.length = 16 → chans.length = 16) (h4 : u.media.heads.length = 16 → media.heads.length = 16)
    (h5 : 32 ≤ u.stripe.slots.length → 32 ≤ stripe.slots.length) (h6 : u.irq.wf → irq.wf)
    (h7 : imageWf u.storeImage → imageWf image) (h8 : lunsWf u.luns → lunsWf luns) (h9 : u.cab.wf → cab.wf)
    (h10 : u.sram.wf → sram.wf) (h11 : u.host.wf → host.wf) (h12 : u.dict.wf → dict.wf) :
    Held p (State.mk u.pending fc now pins modes rings sched host regs rack power hk image jigs chans codec recov luns
      stripe bg media dv irq evq dict cab sram stats) :=
  ⟨h.queue, h1 h.kept.rings, h2 h.kept.jigs, h3 h.kept.chans, h4 h.kept.heads, h5 h.kept.slots, h6 h.kept.irq,
    h7 h.kept.image, h8 h.kept.luns, h9 h.kept.cab, h10 h.kept.sram,
    h11 h.kept.host, h12 h.kept.dict⟩

theorem held_let {p : List Instr} {a : State} {b : State → State} (ha : Held p a) (hb : ∀ x, Held p x → Held p (b x)) :
    Held p (let x := a; b x) := hb a ha

theorem heldOut_let {p : List Instr} {a : State} {b : State → Out} (ha : Held p a) (hb : ∀ x, Held p x → HeldOut p (b x)) :
    HeldOut p (let x := a; b x) := hb a ha

theorem held_letAny {α : Sort _} {p : List Instr} {a : α} {b : α → State} (hb : ∀ x, Held p (b x)) :
    Held p (let x := a; b x) := hb a

theorem heldOut_letAny {α : Sort _} {p : List Instr} {a : α} {b : α → Out} (hb : ∀ x, HeldOut p (b x)) :
    HeldOut p (let x := a; b x) := hb a

theorem held_ite {p : List Instr} {c : Prop} [Decidable c] {a b : State} (ha : Held p a) (hb : Held p b) :
    Held p (if c then a else b) := by split <;> assumption

theorem heldOut_ite {p : List Instr} {c : Prop} [Decidable c] {a b : Out} (ha : HeldOut p a) (hb : HeldOut p b) :
    HeldOut p (if c then a else b) := by split <;> assumption

theorem held_foldl {α : Type} {p : List Instr} {f : State → α → State} (hf : ∀ s a, Held p s → Held p (f s a)) (l : List α)
    {s : State} (h : Held p s) : Held p (l.foldl f s) := by
  induction l generalizing s with
  | nil => exact h
  | cons a l ih => exact ih (hf s a h)

theorem held_foldl_fst {α β : Type} {p : List Instr} {f : State × β → α → State × β}
    (hf : ∀ x a, Held p x.1 → Held p (f x a).1) (l : List α) {x : State × β} (h : Held p x.1) :
    Held p (l.foldl f x).1 := by
  induction l generalizing x with
  | nil => exact h
  | cons a l ih => exact ih (hf x a h)

theorem held_foldl_snd {α β : Type} {p : List Instr} {f : β × State → α → β × State}
    (hf : ∀ x a, Held p x.2 → Held p (f x a).2) (l : List α) {x : β × State} (h : Held p x.2) :
    Held p (l.foldl f x).2 := by
  induction l generalizing x with
  | nil => exact h
  | cons a l ih => exact ih (hf x a h)

theorem held_foldl_third {α β γ : Type} {p : List Instr} {f : β × γ × State → α → β × γ × State}
    (hf : ∀ x a, Held p x.2.2 → Held p (f x a).2.2) (l : List α) {x : β × γ × State} (h : Held p x.2.2) :
    Held p (l.foldl f x).2.2 := by
  induction l generalizing x with
  | nil => exact h
  | cons a l ih => exact ih (hf x a h)

theorem heldOut_next {p : List Instr} {s : State} (h : Held p s) : HeldOut p (.next s) := by
  intro t e; cases e; exact h

theorem heldOut_fault {p : List Instr} {f : Fault} : HeldOut p (.fault f) := by intro t e; cases e

theorem heldOut_checked {p : List Instr} {c : Bool} {s : State} (h : Held p s) : HeldOut p (checked c s) := by
  unfold checked; split
  · exact heldOut_next h
  · exact heldOut_fault

/-- An operation that may not act: its state, if any, is held. -/
def HeldOpt (p : List Instr) (o : Option State) : Prop := ∀ t, o = some t → Held p t

theorem held_some {p : List Instr} {o : Option State} {s : State} (e : o = some s) (h : HeldOpt p o) : Held p s := h s e

theorem heldOpt_some {p : List Instr} {s : State} (h : Held p s) : HeldOpt p (some s) := by
  intro t e; rw [← Option.some.inj e]; exact h

theorem heldOpt_none {p : List Instr} : HeldOpt p none := by intro t e; cases e

theorem heldOpt_ite {p : List Instr} {c : Prop} [Decidable c] {a b : Option State} (ha : HeldOpt p a) (hb : HeldOpt p b) :
    HeldOpt p (if c then a else b) := by split <;> assumption

theorem held_snd {α : Type _} {p : List Instr} {x : α × State} {a : α} {s : State} (e : x = (a, s)) (h : Held p x.2) :
    Held p s := by rw [e] at h; exact h

theorem held_third {α β : Type _} {p : List Instr} {x : α × β × State} {a : α} {b : β} {s : State} (e : x = (a, b, s))
    (h : Held p x.2.2) : Held p s := by rw [e] at h; exact h

end Sys2Proof.Machine
end

