-- ==== Sys2Proof/Laws/Canon.lean ====
section
/-!
SUPPORT. The operations over the sparse memories keep their canonical form, and what a read gives after a write (R525, R551,
R555).
-/
namespace Sys2Proof.Machine

/-! ### Ascending lists -/

theorem mem_putAsc {β : Type} {k : Nat} {v : β} {l : List (Nat × β)} {q : Nat × β} (h : q ∈ putAsc k v l) :
    q = (k, v) ∨ q ∈ l := by
  induction l with
  | nil => simpa [putAsc] using h
  | cons a l ih =>
    obtain ⟨a, b⟩ := a
    simp only [putAsc] at h
    split at h
    · simpa using h
    · split at h
      · simp only [List.mem_cons] at h ⊢; tauto
      · simp only [List.mem_cons] at h ⊢
        rcases h with h | h
        · tauto
        · rcases ih h with h | h <;> tauto

theorem putAsc_asc {β : Type} (k : Nat) (v : β) {l : List (Nat × β)} (h : l.Pairwise (fun p q => p.1 < q.1)) :
    (putAsc k v l).Pairwise (fun p q => p.1 < q.1) := by
  induction l with
  | nil => simp [putAsc]
  | cons a l ih =>
    obtain ⟨a, b⟩ := a
    rw [List.pairwise_cons] at h
    simp only [putAsc]
    split
    · refine List.pairwise_cons.2 ⟨fun q hq => ?_, List.pairwise_cons.2 h⟩
      rcases List.mem_cons.1 hq with rfl | hq
      · assumption
      · exact Nat.lt_trans ‹k < a› (h.1 q hq)
    · split
      · rename_i hk; have hk := beq_iff_eq.1 hk; subst hk
        exact List.pairwise_cons.2 ⟨h.1, h.2⟩
      · rename_i h1 h2
        refine List.pairwise_cons.2 ⟨fun q hq => ?_, ih h.2⟩
        rcases mem_putAsc hq with rfl | hq
        · have : k ≠ a := fun e => h2 (by simp [e])
          simp; omega
        · exact h.1 q hq

theorem putAsc_wf {β : Type} [DecidableEq β] {blank : Nat → β} {k : Nat} {v : β} {l : List (Nat × β)} (hv : v ≠ blank k)
    (h : Memory.wf blank l) : Memory.wf blank (putAsc k v l) := by
  refine ⟨putAsc_asc k v h.1, fun q hq => ?_⟩
  rcases mem_putAsc hq with rfl | hq
  · exact hv
  · exact h.2 q hq

theorem filter_wf {β : Type} [DecidableEq β] {blank : Nat → β} (f : Nat × β → Bool) {l : List (Nat × β)}
    (h : Memory.wf blank l) : Memory.wf blank (l.filter f) :=
  ⟨h.1.filter f, fun q hq => h.2 q (List.mem_filter.1 hq).1⟩

/-- A map that keeps the keys, its entries that read as unlisted then left out. -/
theorem map_filter_wf {β : Type} [DecidableEq β] {blank : Nat → β} {f : Nat × β → Nat × β} (hf : ∀ x, (f x).1 = x.1)
    {q : Nat × β → Bool} (hq : ∀ x, q x = true → x.2 ≠ blank x.1) {l : List (Nat × β)} (h : Memory.wf blank l) :
    Memory.wf blank ((l.map f).filter q) := by
  refine ⟨?_, fun x hx => hq x (List.mem_filter.mp hx).2⟩
  refine List.Pairwise.filter _ (List.pairwise_map.mpr ?_)
  exact h.1.imp (fun {a b} hab => by rw [hf, hf]; exact hab)

theorem dropKey_wf {β : Type} [DecidableEq β] {blank : Nat → β} (k : Nat) {l : List (Nat × β)}
    (h : Memory.wf blank l) : Memory.wf blank (dropKey k l) := filter_wf _ h

theorem nil_wf {β : Type} [DecidableEq β] {blank : Nat → β} : Memory.wf blank [] := ⟨.nil, by simp⟩

/-- What a sparse memory reads after one key is bound. -/
theorem lookup_putAsc {β : Type} (k : Nat) (v : β) (l : List (Nat × β)) (a : Nat) :
    (putAsc k v l).lookup a = if a = k then some v else l.lookup a := by
  induction l with
  | nil => by_cases h : a = k <;> simp [putAsc, List.lookup, h, beq_eq_false_iff_ne.2]
  | cons x l ih =>
    obtain ⟨x, b⟩ := x
    simp only [putAsc]
    split
    · by_cases h : a = k <;> simp [List.lookup, h, beq_eq_false_iff_ne.2]
    · split
      · rename_i hk; have hk := beq_iff_eq.1 hk; subst hk
        by_cases h : a = k <;> simp [List.lookup, h, beq_eq_false_iff_ne.2]
      · rename_i h1 h2
        have hne : k ≠ x := fun e => h2 (by simp [e])
        by_cases hx : a = x
        · subst hx; simp [List.lookup, Ne.symm hne]
        · simp only [List.lookup, beq_eq_false_iff_ne.2 hx]; exact ih

/-- What a sparse memory reads after one key is dropped. -/
theorem lookup_dropKey {β : Type} (k : Nat) (l : List (Nat × β)) (a : Nat) :
    (dropKey k l).lookup a = if a = k then none else l.lookup a := by
  induction l with
  | nil => simp [dropKey]
  | cons x l ih =>
    obtain ⟨x, b⟩ := x
    unfold dropKey at ih ⊢
    by_cases hx : x = k
    · subst hx
      simp only [List.filter_cons, beq_self_eq_true, Bool.not_true, Bool.false_eq_true, if_false, ih]
      by_cases h : a = x
      · simp [h]
      · simp [List.lookup, h, beq_eq_false_iff_ne.2]
    · simp only [List.filter_cons, beq_eq_false_iff_ne.2 hx, Bool.not_false, if_true]
      by_cases h : a = x
      · subst h; simp [List.lookup, hx]
      · simp only [List.lookup, beq_eq_false_iff_ne.2 h]; exact ih

/-! ### The Cabinet -/

theorem putIn_wf (k v : Nat) {l : List (Nat × BitVec 64)} (h : Memory.wf (fun _ => BitVec.ofNat 64 erasedWord) l) :
    Memory.wf (fun _ => BitVec.ofNat 64 erasedWord) (putIn l k v) := by
  unfold putIn; split
  · exact dropKey_wf k h
  · rename_i hv; exact putAsc_wf (fun e => hv (by simp [e])) h

theorem putWords_wf (vs : List Nat) : ∀ {k : Nat} {l : List (Nat × BitVec 64)},
    Memory.wf (fun _ => BitVec.ofNat 64 erasedWord) l → Memory.wf (fun _ => BitVec.ofNat 64 erasedWord) (putWords l k vs) := by
  induction vs with
  | nil => intro k l h; exact h
  | cons v vs ih => intro k l h; exact ih (putIn_wf k v h)

theorem foldl_putIn_wf (ws : List (Nat × BitVec 64)) : ∀ {l : List (Nat × BitVec 64)},
    Memory.wf (fun _ => BitVec.ofNat 64 erasedWord) l →
    Memory.wf (fun _ => BitVec.ofNat 64 erasedWord) (ws.foldl (fun l p => putIn l p.1 p.2.toNat) l) := by
  induction ws with
  | nil => intro l h; exact h
  | cons w ws ih => intro l h; exact ih (putIn_wf _ _ h)

theorem wordIn_putIn (l : List (Nat × BitVec 64)) (k v a : Nat) (hv : v < 2 ^ 64) :
    wordIn (putIn l k v) a = if a = k then v else wordIn l a := by
  unfold putIn wordIn
  split
  · rename_i h
    have h : v = erasedWord := by
      have := congrArg BitVec.toNat (beq_iff_eq.1 h)
      rw [BitVec.toNat_ofNat, BitVec.toNat_ofNat, Nat.mod_eq_of_lt hv] at this
      exact this
    rw [lookup_dropKey]; split <;> simp [h]
  · rw [lookup_putAsc]; split
    · simpa using hv
    · rfl

theorem Cabinet.startHeader_wf (s : Nat) {c : Cabinet} (h : c.wf) : (startHeader c s).wf := by
  unfold startHeader
  split
  · exact h
  · exact ⟨h.1, putIn_wf _ _ (filter_wf _ h.2.1), h.2.2⟩

theorem Cabinet.endHeader_wf (s : Nat) (ok : Bool) {c : Cabinet} (h : c.wf) : (endHeader c s ok).wf := by
  unfold endHeader
  split
  · exact ⟨h.1, putIn_wf _ _ h.2.1, h.2.2⟩
  · exact h

theorem Cabinet.clearSector_wf (s : Nat) {c : Cabinet} (h : c.wf) : (clearSector c s).wf := ⟨filter_wf _ h.1, h.2⟩

theorem Cabinet.applyWords_wf (o : CabOp) (ws : List (Nat × BitVec 64)) {c : Cabinet} (h : c.wf) : (applyWords o ws c).wf := by
  unfold applyWords
  split
  · exact ⟨h.1, h.2.1, foldl_putIn_wf ws h.2.2⟩
  · exact ⟨foldl_putIn_wf ws h.1, h.2⟩

theorem Cabinet.progGone_wf {c : Cabinet} (h : c.wf) : (progGone c).wf := h

/-- The Cabinet changed in an operation that keeps its form. -/
theorem Held.setCab {p : List Instr} {s : State} {c : Cabinet} (h : Held p s) (hc : s.cab.wf → c.wf) :
    Held p { s with cab := c } := by
  with_reducible apply Held.upd h <;> first | with_reducible exact id | exact hc

/-- The interrupt controller changed in an operation that keeps its counts. -/
theorem Held.setIrq {p : List Instr} {s : State} {c : Irq} (h : Held p s) (hc : s.irq.wf → c.wf) :
    Held p { s with irq := c } := by
  with_reducible apply Held.upd h <;> first | with_reducible exact id | exact hc

/-- The SRAM changed in an operation that keeps its form. -/
theorem Held.setSram {p : List Instr} {s : State} {c : Sram} (h : Held p s) (hc : s.sram.wf → c.wf) :
    Held p { s with sram := c } := by
  with_reducible apply Held.upd h <;> first | with_reducible exact id | exact hc

/-! ### The SRAM -/

theorem Sram.putWord_wf (a w : Nat) {m : Sram} (h : m.wf) : (m.putWord a w).wf := by
  refine ⟨?_, h.2⟩
  unfold Sram.putWord
  split
  · exact dropKey_wf a h.1
  · rename_i hv; exact putAsc_wf (fun e => hv (by simp [e])) h.1

theorem Sram.writeCode_wf (a w : Nat) {m : Sram} (h : m.wf) : (m.writeCode a w).wf := by
  unfold Sram.writeCode
  refine ⟨(Sram.putWord_wf a _ h).1, ?_⟩
  exact Nat.le_trans (List.length_filter_le _ _) h.2

theorem zeroRange_wf (a n : Nat) {m : Sram} (h : m.wf) : (zeroRange a n m).wf := by
  have h1 : (m.writeWord a 0).wf := Sram.writeCode_wf a _ h
  unfold zeroRange
  dsimp only
  split
  · exact h
  rename_i hn
  have hn : 0 < n := Nat.pos_of_ne_zero (by simpa using hn)
  refine ⟨?_, Nat.le_trans (List.length_filter_le _ _) h.2⟩
  refine ⟨?_, ?_⟩
  · rw [List.pairwise_append, List.pairwise_append]
    refine ⟨⟨h.1.1.filter _, ?_, ?_⟩, h.1.1.filter _, ?_⟩
    · split
      · exact h1.1.1.filter _
      · exact .nil
    · intro x hx y hy
      split at hy
      · simp only [List.mem_filter, decide_eq_true_eq, beq_iff_eq] at hx hy; omega
      · simp at hy
    · intro x hx y hy
      simp only [List.mem_append, List.mem_filter, decide_eq_true_eq] at hx hy
      rcases hx with hx | hx
      · omega
      · split at hx
        · simp only [List.mem_filter, beq_iff_eq] at hx; omega
        · simp at hx
  · intro q hq
    simp only [List.mem_append, List.mem_filter] at hq
    rcases hq with (hq | hq) | hq
    · exact h.1.2 q hq.1
    · split at hq
      · exact h1.1.2 q (List.mem_filter.1 hq).1
      · simp at hq
    · exact h.1.2 q hq.1

theorem Sram.writeWord_wf (a v : Nat) {m : Sram} (h : m.wf) : (m.writeWord a v).wf := Sram.writeCode_wf a _ h

/-! ### The jig stores -/

theorem forgetResident_wf (us : List Nat) {l : List (Nat × LunRec)} (h : lunsWf l) : lunsWf (forgetResident us l) := by
  unfold lunsWf forgetResident at *
  exact map_filter_wf (fun x => by dsimp only; split <;> rfl) (fun x hx => by simpa using hx) h

theorem putStore_wf (a : Nat) (w : BitVec 160) {l : List (Nat × BitVec 160)} (h : imageWf l) : imageWf (putStore l a w) := by
  unfold putStore; split
  · exact dropKey_wf a h
  · rename_i hv; exact putAsc_wf (fun e => hv (by simp [e])) h

theorem foldl_putStore_wf (ws : List (Nat × BitVec 160)) : ∀ {l : List (Nat × BitVec 160)}, imageWf l →
    imageWf (ws.foldl (fun l w => putStore l w.1 w.2) l) := by
  induction ws with
  | nil => intro l h; exact h
  | cons w ws ih => intro l h; exact ih (putStore_wf _ _ h)

theorem jigsWf_map {f : Jig → Jig} (hf : ∀ j, (f j).store = j.store) {l : List Jig} (h : jigsWf l) : jigsWf (l.map f) := by
  refine ⟨by simpa using h.1, fun j hj => ?_⟩
  obtain ⟨i, hi, rfl⟩ := List.mem_map.1 hj
  rw [hf]; exact h.2 i hi

theorem jigsWf_modify {f : Jig → Jig} (hf : ∀ j, imageWf j.store → imageWf (f j).store) (n : Nat) {l : List Jig}
    (h : jigsWf l) : jigsWf (l.modify n f) := by
  refine ⟨by simpa using h.1, fun j hj => ?_⟩
  rw [List.mem_iff_getElem] at hj
  obtain ⟨i, hi, rfl⟩ := hj
  simp only [List.length_modify] at hi
  have := h.2 _ (List.getElem_mem hi)
  by_cases e : n = i
  · simpa [List.getElem_modify, e] using hf _ this
  · simpa [List.getElem_modify, e] using this

theorem jigsWf_set {j : Jig} (hj : imageWf j.store) (n : Nat) {l : List Jig} (h : jigsWf l) : jigsWf (l.set n j) := by
  refine ⟨by simpa using h.1, fun i hi => ?_⟩
  rcases List.mem_or_eq_of_mem_set hi with hi | rfl
  · exact h.2 i hi
  · exact hj

/-! ### The interrupt controller -/

theorem Irq.sample_wf (id : Nat) (lvl : Bool) {q : Irq} (h : q.wf) : (q.sample id lvl).wf := by
  unfold Irq.sample
  split
  · obtain ⟨⟨a1, a2, a3, a4, a5, a6⟩, h2, h3⟩ := h
    refine ⟨⟨a1, a2, ?_, ?_, ?_, a6⟩, h2, h3⟩
    · dsimp only; split <;> simp [a3]
    · dsimp only; split <;> simp [a4]
    · simp [a5]
  · exact h

theorem Irq.pulse_wf (id : Nat) {q : Irq} (h : q.wf) : (q.pulse id).wf := Irq.sample_wf id false (Irq.sample_wf id true h)

theorem Irq.cause_wf (id : Nat) {q : Irq} (h : q.wf) : (q.cause id).wf := by
  unfold Irq.cause
  split
  · simpa [Irq.wf] using h
  · exact Irq.pulse_wf id h

theorem Irq.pulses_wf (n : Nat) : ∀ {q : Irq} (id : Nat), q.wf → (Irq.pulses n q id).wf := by
  induction n with
  | zero => intro q id h; exact h
  | succ n ih => intro q id h; exact ih id (Irq.pulse_wf id h)

theorem Irq.softSet_wf (id : Nat) {q : Irq} (h : q.wf) : (q.softSet id).wf := by
  unfold Irq.softSet
  split
  · simpa [Irq.wf] using h
  · exact h

theorem Irq.relevel_wf (id : Nat) {q : Irq} (h : q.wf) : (q.relevel id).wf := by
  unfold Irq.relevel
  split
  · simpa [Irq.wf] using h
  · exact h

/-! ### The host data ports -/

theorem admitReqs_len (fuel : Nat) : ∀ (out wait : List HostReq), out.length ≤ 256 → (admitReqs fuel out wait).1.length ≤ 256 := by
  induction fuel with
  | zero => intro out wait h; exact h
  | succ n ih =>
    intro out wait h
    cases wait with
    | nil => exact h
    | cons r rest =>
      simp only [admitReqs]
      split
      · refine ih _ _ ?_; simp; omega
      · exact h

theorem HostPorts.settle_wf {h : HostPorts} (hw : h.wf) : (HostPorts.settle h).wf := by
  unfold HostPorts.settle
  exact ⟨admitReqs_len _ _ _ hw.1, admitReqs_len _ _ _ hw.2⟩

end Sys2Proof.Machine
end

