-- ==== Sys2Proof/Laws/HeldUnits.lean ====
section
/-!
SUPPORT. One lemma per operation of the shared operations, power, the SRAM, entries, the Cabinet, saves, stripe tables, the journal, background work, thresholds and
reads:
it keeps the queue, the counts of units and the canonical form of the memories.
-/
namespace Sys2Proof.Machine

/-! ### Machine/Ops.lean -/

theorem checked_held {p : List Instr} (ok : Bool) (t : State) (ht : Held p t) :
    HeldOut p (checked ok t) := by
  unfold checked
  repeat' (first
    | with_reducible assumption
    | with_reducible exact heldOut_fault
    | with_reducible refine heldOut_next ?_
    | with_reducible refine heldOut_ite ?_ ?_
    | fail)

theorem setRing_held {p : List Instr} (n : ℕ) (r : Ring) (s : State) (hs : Held p s) :
    Held p (setRing n r s) := by
  unfold setRing
  repeat' (first
    | with_reducible apply Held.upd (by assumption)
    | with_reducible exact id
    | (intro h; simpa only [List.length_set, List.length_modify, List.length_map] using h)
    | fail)

theorem modRing_held {p : List Instr} (n : ℕ) (f : Ring → Ring) (s : State) (hs : Held p s) :
    Held p (modRing n f s) := by
  unfold modRing
  repeat' (first
    | with_reducible apply Held.upd (by assumption)
    | with_reducible exact id
    | (intro h; simpa only [List.length_set, List.length_modify, List.length_map] using h)
    | fail)

theorem setJig_held {p : List Instr} (n : ℕ) (j : Jig) (s : State) (hj : imageWf j.store)
    (hs : Held p s) : Held p (setJig n j s) := by
  unfold setJig
  with_reducible apply Held.upd hs <;> first | with_reducible exact id | exact fun h => jigsWf_set hj _ h

theorem modJig_held {p : List Instr} (n : ℕ) (f : Jig → Jig) (s : State) (hf : ∀ j, imageWf j.store → imageWf (f j).store)
    (hs : Held p s) : Held p (modJig n f s) := by
  unfold modJig
  with_reducible apply Held.upd hs <;> first | with_reducible exact id | exact fun h => jigsWf_modify hf _ h

theorem modChan_held {p : List Instr} (n : ℕ) (f : Chan → Chan) (s : State) (hs : Held p s) :
    Held p (modChan n f s) := by
  unfold modChan
  repeat' (first
    | with_reducible apply Held.upd (by assumption)
    | with_reducible exact id
    | (intro h; simpa only [List.length_set, List.length_modify, List.length_map] using h)
    | fail)

theorem modHead_held {p : List Instr} (n : ℕ) (f : Head → Head) (s : State) (hs : Held p s) :
    Held p (modHead n f s) := by
  unfold modHead
  repeat' (first
    | with_reducible apply Held.upd (by assumption)
    | with_reducible exact id
    | (intro h; simpa only [List.length_set, List.length_modify, List.length_map] using h)
    | fail)

theorem takeFree_held {p : List Instr} (s : State) (hs : Held p s) :
    Held p (takeFree s).2 := by
  unfold takeFree
  repeat' (first
    | with_reducible apply Held.upd (by assumption)
    | with_reducible exact id
    | fail)

theorem mainCoreOnly_held {p : List Instr} (who : Writer) (f : State → State) (s : State) (hf : ∀ x, Held p x → Held p (f x)) (hs : Held p s) :
    Held p (mainCoreOnly who f s) := by
  unfold mainCoreOnly
  repeat' (first
    | with_reducible assumption
    | with_reducible apply hf
    | with_reducible apply Held.upd (by assumption)
    | with_reducible exact id
    | split
    | fail)

theorem loadTime_held {p : List Instr} (s : State) (hs : Held p s) :
    Held p (loadTime s) := by
  unfold loadTime
  repeat' (first
    | with_reducible apply Held.upd (by assumption)
    | with_reducible exact id
    | (unfold Irq.wf; with_reducible exact id)
    | fail)

theorem reloadTime_held {p : List Instr} (s : State) (hs : Held p s) :
    Held p (reloadTime s) := by
  unfold reloadTime
  repeat' (first
    | with_reducible apply Held.upd (by assumption)
    | with_reducible exact id
    | (unfold Irq.wf; with_reducible exact id)
    | fail)

theorem tick_held {p : List Instr} (s : State) (hs : Held p s) :
    Held p (tick s) := by
  unfold tick
  repeat' (first
    | with_reducible apply Held.upd (by assumption)
    | with_reducible exact id
    | (unfold Irq.wf; with_reducible exact id)
    | fail)

theorem raise_held {p : List Instr} (a0 : ℕ) (s : State) (hs : Held p s) :
    Held p (raise a0 s) := by
  unfold raise
  repeat' (first
    | with_reducible apply Held.upd (by assumption)
    | with_reducible exact id
    | with_reducible apply Irq.cause_wf
    | fail)

theorem evqLevels_held {p : List Instr} (s : State) (hs : Held p s) :
    Held p (evqLevels s) := by
  unfold evqLevels
  repeat' (first
    | with_reducible assumption
    | with_reducible apply Held.upd (by assumption)
    | with_reducible exact id
    | with_reducible apply Irq.sample_wf
    | intro _
    | fail)

theorem hostWrite_held {p : List Instr} (what : HostWhat) (addr : ℕ) (bs : List Byte) (s : State) (hs : Held p s) :
    Held p (hostWrite what addr bs s) := by
  unfold hostWrite
  repeat' (first
    | with_reducible apply Held.upd (by assumption)
    | with_reducible exact id
    | (intro h; exact HostPorts.settle_wf h)
    | fail)

theorem hostWriteData_held {p : List Instr} (what : HostWhat) (addr : ℕ) (bs : List Byte) (s : State) (hs : Held p s) :
    Held p (hostWriteData what addr bs s) := by
  unfold hostWriteData
  repeat' (first
    | with_reducible assumption
    | with_reducible apply hostWrite_held
    | with_reducible refine held_foldl (fun _ _ _ => ?_) _ ?_
    | fail)

theorem hostReadData_held {p : List Instr} (what : HostWhat) (addr : ℕ) (len : ℕ) (s : State) (hs : Held p s) :
    Held p (hostReadData what addr len s) := by
  unfold hostReadData
  repeat' (first
    | with_reducible apply Held.upd (by assumption)
    | with_reducible exact id
    | (intro h; exact HostPorts.settle_wf h)
    | fail)

theorem fetchHost_held {p : List Instr} (what : HostWhat) (ps : List (ℕ × ℕ)) (s : State) (hs : Held p s) :
    Held p (fetchHost what ps s) := by
  unfold fetchHost
  repeat' (first
    | with_reducible apply Held.upd (by assumption)
    | with_reducible exact id
    | (unfold HostPorts.wf; with_reducible exact id)
    | fail)

theorem issueRecord_held {p : List Instr} (s : State) (hs : Held p s) :
    Held p (issueRecord s) := by
  unfold issueRecord
  repeat' (first
    | with_reducible assumption
    | with_reducible apply hostWrite_held
    | split
    | fail)

theorem queueCanEvent_held {p : List Instr} (bs : List Byte) (s : State) (hs : Held p s) : Held p (queueCanEvent bs s) := by
  unfold queueCanEvent
  split
  · with_reducible apply Held.upd hs <;> try with_reducible exact id
    intro _; simp only [Dict.wf, List.length_append, List.length_singleton]; omega
  · with_reducible apply Held.upd hs <;> try with_reducible exact id
    simp only [Dict.wf, List.length_append, List.length_tail, List.length_singleton]; omega

theorem dropRecord_held {p : List Instr} (s : State) (hs : Held p s) :
    Held p (dropRecord s) := by
  unfold dropRecord
  repeat' (first
    | with_reducible apply Held.upd (by assumption)
    | with_reducible exact id
    | fail)

theorem raisePriv_held {p : List Instr} (a0 : ℕ) (soft : Bool) (detail : List Byte) (s : State) (hs : Held p s) :
    Held p (raisePriv a0 soft detail s) := by
  unfold raisePriv
  repeat' (first
    | with_reducible refine held_ite ?_ ?_
    | with_reducible apply queueCanEvent_held
    | with_reducible apply issueRecord_held
    | with_reducible apply dropRecord_held
    | with_reducible apply Held.upd (by assumption)
    | with_reducible exact id
    | (intro h; simp only [Irq.wf, apply_ite List.length, List.length_set, List.length_modify, List.length_map, ite_self] at h ⊢; exact h)
    | (extract_lets +onlyGivenNames x; subst x)
    | (with_reducible apply Held.upd; on_goal 1 => (with_reducible refine held_ite ?_ ?_))
    | fail)

theorem logRecord_held {p : List Instr} (bs : List Byte) (s : State) (hs : Held p s) :
    Held p (logRecord bs s) := by
  unfold logRecord
  repeat' (first
    | with_reducible apply Held.upd (by assumption)
    | with_reducible exact id
    | fail)

theorem modEntry_held {p : List Instr} (eid : ℕ) (f : Entry → Entry) (s : State) (hs : Held p s) :
    Held p (modEntry eid f s) := by
  unfold modEntry
  repeat' (first
    | with_reducible apply Held.upd (by assumption)
    | with_reducible exact id
    | fail)

theorem endEntry_held {p : List Instr} (eid : ℕ) (status : ℕ) (detail : ℕ) (count : ℕ) (s : State) (hs : Held p s) :
    Held p (endEntry eid status detail count s) := by
  unfold endEntry
  repeat' (first
    | with_reducible assumption
    | with_reducible apply modEntry_held
    | fail)

theorem modJob_held {p : List Instr} (a0 : ℕ) (f : Job → Job) (s : State) (hs : Held p s) :
    Held p (modJob a0 f s) := by
  unfold modJob
  repeat' (first
    | with_reducible apply Held.upd (by assumption)
    | with_reducible exact id
    | fail)

theorem withdraw_held {p : List Instr} (f : Job → Bool) (s : State) (hs : Held p s) : Held p (withdraw f s) := by
  unfold withdraw
  extract_lets gone
  with_reducible apply Held.upd hs <;> first
    | with_reducible exact id
    | exact forgetResident_wf _
    | (intro h; refine jigsWf_map ?_ h; intro _; rfl)

theorem abortPopped_held {p : List Instr} (a0 : Job → Bool) (s : State) (hs : Held p s) :
    Held p (abortPopped a0 s) := by
  unfold abortPopped
  repeat' (first
    | with_reducible apply Held.upd (by assumption)
    | with_reducible exact id
    | fail)

theorem dropFeedCws_held {p : List Instr} (a0 : ℕ → Bool) (s : State) (hs : Held p s) :
    Held p (dropFeedCws a0 s) := by
  unfold dropFeedCws
  repeat' (first
    | with_reducible apply Held.upd (by assumption)
    | with_reducible exact id
    | fail)

theorem mediaReadyFall_held {p : List Instr} (s : State) (hs : Held p s) :
    Held p (mediaReadyFall s) := by
  unfold mediaReadyFall
  repeat' (first
    | with_reducible apply withdraw_held
    | with_reducible apply dropFeedCws_held
    | with_reducible apply Held.upd (by assumption)
    | with_reducible exact id
    | (intro h; simpa only [List.length_set, List.length_modify, List.length_map] using h)
    | fail)

theorem endCanSessions_held {p : List Instr} (s : State) (hs : Held p s) :
    Held p (endCanSessions s) := by
  unfold endCanSessions
  repeat' (first
    | with_reducible apply Held.upd (by assumption)
    | with_reducible exact id
    | (unfold Dict.wf; with_reducible exact id)
    | fail)

theorem applyMode_held {p : List Instr} (s : State) (hs : Held p s) :
    Held p (applyMode s) := by
  unfold applyMode
  repeat' (first
    | with_reducible assumption
    | with_reducible refine held_ite ?_ ?_
    | with_reducible apply logRecord_held
    | with_reducible apply raise_held
    | with_reducible apply mediaReadyFall_held
    | with_reducible apply endCanSessions_held
    | with_reducible apply Held.upd (by assumption)
    | with_reducible exact id
    | (extract_lets +onlyGivenNames x; refine (have hx : Held p x := ?_; ?_); on_goal 2 => try clear_value x; on_goal 1 => subst x)
    | (extract_lets +onlyGivenNames x; subst x)
    | fail)

theorem setConds_held {p : List Instr} (f : Modes → Modes) (s : State) (hs : Held p s) :
    Held p (setConds f s) := by
  unfold setConds
  repeat' (first
    | with_reducible apply applyMode_held
    | with_reducible apply Held.upd (by assumption)
    | with_reducible exact id
    | fail)

theorem lockKeys_held {p : List Instr} (s : State) (hs : Held p s) :
    Held p (lockKeys s) := by
  unfold lockKeys
  repeat' (first
    | with_reducible apply Held.upd (by assumption)
    | with_reducible exact id
    | (unfold Cabinet.wf; with_reducible exact id)
    | fail)

theorem enterPadHold_held {p : List Instr} (ch : ℕ) (s : State) (hs : Held p s) :
    Held p (enterPadHold ch s) := by
  unfold enterPadHold
  repeat' (first
    | with_reducible assumption
    | with_reducible apply modJig_held
    | with_reducible apply modChan_held
    | exact fun _ => id
    | fail)

theorem modPort_held {p : List Instr} (a0 : Side) (f : Port → Port) (s : State) (hs : Held p s) :
    Held p (modPort a0 f s) := by
  unfold modPort
  repeat' (first
    | with_reducible apply Held.upd (by assumption)
    | with_reducible exact id
    | split
    | fail)

theorem sendFlits_held {p : List Instr} (m : DvMsg) (s : State) (a2 : Sys2Proof.Side) (hs : Held p s) :
    Held p (sendFlits m s a2) := by
  unfold sendFlits
  repeat' (first
    | with_reducible assumption
    | with_reducible apply modPort_held
    | fail)

theorem dvSend_held {p : List Instr} (type : ℕ) (dst : Option (BitVec 3)) (payload : List Sys2Proof.Byte) (s : State) (hs : Held p s) :
    Held p (dvSend type dst payload s) := by
  unfold dvSend
  repeat' (first
    | with_reducible assumption
    | with_reducible apply sendFlits_held
    | with_reducible refine held_foldl (fun _ _ _ => ?_) _ ?_
    | with_reducible apply Held.upd (by assumption)
    | with_reducible exact id
    | (extract_lets +onlyGivenNames x; subst x)
    | split
    | fail)

/-! ### Machine/Power.lean -/

theorem grantReq_held {p : List Instr} (r : RackReq) (s : State) (hs : Held p s) :
    Held p (grantReq r s) := by
  unfold grantReq
  repeat' (first
    | with_reducible assumption
    | with_reducible apply modJig_held
    | with_reducible apply Held.upd (by assumption)
    | with_reducible exact id
    | exact fun _ => id
    | (extract_lets +onlyGivenNames x; subst x)
    | split
    | fail)

theorem grantFrom_held {p : List Instr} (l : List RackReq) : ∀ (s : State), Held p s → Held p (grantFrom l s) := by
  induction l with
  | nil => intro s h; exact h
  | cons r rs ih =>
    intro s h
    exact held_ite (ih s h) (held_ite (ih _ (grantReq_held r s h)) h)

theorem grantForecast_held {p : List Instr} (s : State) (hs : Held p s) :
    Held p (grantForecast s) := by
  unfold grantForecast
  repeat' (first
    | with_reducible assumption
    | with_reducible refine held_ite ?_ ?_
    | with_reducible apply Held.upd (by assumption)
    | with_reducible exact id
    | fail)

theorem rackCycle_held {p : List Instr} (s : State) (hs : Held p s) :
    Held p (rackCycle s) := by
  unfold rackCycle
  repeat' (first
    | with_reducible assumption
    | with_reducible refine held_ite ?_ ?_
    | with_reducible apply grantForecast_held
    | with_reducible apply grantFrom_held
    | fail)

theorem execClampGrant_held {p : List Instr} (s : State) (hs : Held p s) :
    HeldOut p (execClampGrant s) := by
  unfold execClampGrant
  repeat' (first
    | with_reducible assumption
    | with_reducible refine heldOut_next ?_
    | with_reducible apply rackCycle_held
    | fail)

theorem askClamps_held {p : List Instr} (ch : ℕ) (lun : ℕ) (n : ℕ) (s : State) (hs : Held p s) :
    Held p (askClamps ch lun n s) := by
  unfold askClamps
  repeat' (first
    | with_reducible apply modJig_held
    | with_reducible apply Held.upd (by assumption)
    | with_reducible exact id
    | exact fun _ => id
    | fail)

theorem askXm_held {p : List Instr} (ch : ℕ) (s : State) (hs : Held p s) :
    Held p (askXm ch s) := by
  unfold askXm
  repeat' (first
    | with_reducible assumption
    | with_reducible refine held_ite ?_ ?_
    | with_reducible apply Held.upd (by assumption)
    | with_reducible exact id
    | fail)

theorem returnLun_held {p : List Instr} (ch : ℕ) (lun : ℕ) (s : State) (hs : Held p s) :
    Held p (returnLun ch lun s) := by
  unfold returnLun
  repeat' (first
    | with_reducible apply Held.upd (by assumption)
    | with_reducible exact id
    | fail)

theorem returnAll_held {p : List Instr} (ch : ℕ) (s : State) (hs : Held p s) :
    Held p (returnAll ch s) := by
  unfold returnAll
  repeat' (first
    | with_reducible apply Held.upd (by assumption)
    | with_reducible exact id
    | fail)

theorem execXmChargeRelease_held {p : List Instr} (ch : ℕ) (s : State) (hs : Held p s) :
    HeldOut p (execXmChargeRelease ch s) := by
  unfold execXmChargeRelease
  repeat' (first
    | with_reducible assumption
    | with_reducible refine heldOut_checked ?_
    | with_reducible refine held_ite ?_ ?_
    | with_reducible apply Held.upd (by assumption)
    | with_reducible exact id
    | fail)

theorem countDeferred_held {p : List Instr} (s : State) (hs : Held p s) :
    Held p (countDeferred s) := by
  unfold countDeferred
  repeat' (first
    | with_reducible apply raise_held
    | with_reducible apply Held.upd (by assumption)
    | with_reducible exact id
    | fail)

theorem execDeferEvent_held {p : List Instr} (who : Requester) (s : State) (hs : Held p s) :
    HeldOut p (execDeferEvent who s) := by
  unfold execDeferEvent
  repeat' (first
    | with_reducible assumption
    | with_reducible refine heldOut_next ?_
    | with_reducible refine held_ite ?_ ?_
    | with_reducible apply countDeferred_held
    | with_reducible apply Held.upd (by assumption)
    | with_reducible exact id
    | split
    | fail)

theorem tellStandby_held {p : List Instr} (sleep : Bool) (s : State) (hs : Held p s) :
    Held p (tellStandby sleep s) := by
  unfold tellStandby
  repeat' (first
    | with_reducible assumption
    | with_reducible refine held_ite ?_ ?_
    | with_reducible apply dvSend_held
    | fail)

theorem wake_held {p : List Instr} (s : State) (hs : Held p s) : Held p (wake s) := by
  unfold wake
  refine held_ite (tellStandby_held _ _ (setConds_held _ _ ?_)) hs
  with_reducible apply Held.upd (reloadTime_held s hs) <;> try with_reducible exact id
  intro _
  rw [List.length_map]
  exact hs.kept.chans

theorem sbTake_held {p : List Instr} (s : State) (hs : Held p s) :
    Held p (sbTake s) := by
  unfold sbTake
  repeat' (first
    | with_reducible apply wake_held
    | with_reducible apply Held.upd (by assumption)
    | with_reducible exact id
    | fail)

theorem sbIgnore_held {p : List Instr} (s : State) (hs : Held p s) :
    Held p (sbIgnore s) := by
  unfold sbIgnore
  repeat' (first
    | with_reducible apply Held.upd (by assumption)
    | with_reducible exact id
    | fail)

theorem placeForecast_held {p : List Instr} (m : Word) (s : State) (hs : Held p s) :
    Held p (placeForecast m s) := by
  unfold placeForecast
  repeat' (first
    | with_reducible apply grantForecast_held
    | with_reducible apply Held.upd (by assumption)
    | with_reducible exact id
    | fail)

theorem execForecast_held {p : List Instr} (m : Word) (s : State) (hs : Held p s) :
    HeldOut p (execForecast m s) := by
  unfold execForecast
  repeat' (first
    | with_reducible assumption
    | with_reducible refine heldOut_next ?_
    | with_reducible refine held_ite ?_ ?_
    | with_reducible apply sbIgnore_held
    | with_reducible apply sbTake_held
    | with_reducible apply placeForecast_held
    | fail)

theorem dropForecast_held {p : List Instr} (s : State) (hs : Held p s) :
    Held p (dropForecast s) := by
  unfold dropForecast
  repeat' (first
    | with_reducible apply Held.upd (by assumption)
    | with_reducible exact id
    | fail)

theorem execRevoke_held {p : List Instr} (m : Word) (s : State) (hs : Held p s) :
    HeldOut p (execRevoke m s) := by
  unfold execRevoke
  repeat' (first
    | with_reducible assumption
    | with_reducible refine heldOut_next ?_
    | with_reducible refine held_ite ?_ ?_
    | with_reducible apply dropForecast_held
    | with_reducible apply sbTake_held
    | fail)

theorem execSidebandIgnored_held {p : List Instr} (m : Word) (s : State) (hs : Held p s) :
    HeldOut p (execSidebandIgnored m s) := by
  unfold execSidebandIgnored
  repeat' (first
    | with_reducible assumption
    | with_reducible refine heldOut_next ?_
    | with_reducible refine held_ite ?_ ?_
    | with_reducible apply sbIgnore_held
    | with_reducible apply sbTake_held
    | fail)

theorem execForecastExpiry_held {p : List Instr} (s : State) (hs : Held p s) :
    HeldOut p (execForecastExpiry s) := by
  unfold execForecastExpiry
  repeat' (first
    | with_reducible assumption
    | with_reducible refine heldOut_next ?_
    | with_reducible refine held_ite ?_ ?_
    | with_reducible apply Held.upd (by assumption)
    | with_reducible exact id
    | fail)

theorem execSbReqLowered_held {p : List Instr} (s : State) (hs : Held p s) :
    HeldOut p (execSbReqLowered s) := by
  unfold execSbReqLowered
  repeat' (first
    | with_reducible refine heldOut_next ?_
    | with_reducible apply Held.upd (by assumption)
    | with_reducible exact id
    | fail)

theorem execDroopTrip_held {p : List Instr} (detector : ℕ) (s : State) (hs : Held p s) :
    HeldOut p (execDroopTrip detector s) := by
  unfold execDroopTrip
  repeat' (first
    | with_reducible refine heldOut_checked ?_
    | with_reducible apply Held.upd (by assumption)
    | with_reducible exact id
    | fail)

theorem execDroopRestore_held {p : List Instr} (s : State) (hs : Held p s) :
    HeldOut p (execDroopRestore s) := by
  unfold execDroopRestore
  repeat' (first
    | with_reducible refine heldOut_next ?_
    | with_reducible apply Held.upd (by assumption)
    | with_reducible exact id
    | fail)

/-! ### Machine/Sram.lean -/

theorem sramNote_held {p : List Instr} (a : ℕ) (s : ℕ) (q : Bool) (bad : Bool) (st : State) (hst : Held p st) :
    Held p (sramNote a s q bad st) := by
  unfold sramNote
  repeat' (first
    | with_reducible refine held_ite ?_ ?_
    | with_reducible apply raisePriv_held
    | with_reducible apply raise_held
    | with_reducible apply Held.upd (by assumption)
    | with_reducible exact id
    | (unfold Sram.wf; with_reducible exact id)
    | fail)

theorem readStored_held {p : List Instr} (a : ℕ) (st : State) (hst : Held p st) :
    Held p (readStored a st).2.2 := by
  unfold readStored
  repeat' (first
    | with_reducible assumption
    | with_reducible apply sramNote_held
    | (extract_lets +onlyGivenNames x; subst x)
    | split
    | fail)

theorem readWord_held {p : List Instr} (a : ℕ) (st : State) (hst : Held p st) :
    Held p (readWord a st).2.2 := by
  unfold readWord
  repeat' (first
    | with_reducible assumption
    | (with_reducible refine held_third (by assumption) ?_; with_reducible apply readStored_held)
    | split
    | fail)

theorem readWords_held {p : List Instr} (n : ℕ) : ∀ (a : ℕ) (s : State), Held p s → Held p (readWords n a s).2.2 := by
  induction n with
  | zero => intro a s h; exact h
  | succ n ih => intro a s h; exact ih _ _ (readWord_held a s h)

theorem retire_held {p : List Instr} (e : Merge) (st : State) (hst : Held p st) : Held p (retire e st) := by
  have hx : Held p { st with sram := { st.sram with merge := st.sram.merge.filter (fun x => x.word != e.word) } } :=
    Held.setSram hst (fun h => ⟨h.1, Nat.le_trans (List.length_filter_le _ _) h.2⟩)
  have hr := readStored_held e.word _ hx
  unfold retire
  dsimp only
  split
  · exact Held.setSram hst (fun h => Sram.writeWord_wf _ _ ⟨h.1, Nat.le_trans (List.length_filter_le _ _) h.2⟩)
  · split
    · exact Held.setSram hr (Sram.writeCode_wf _ _)
    · exact Held.setSram hr (fun h => Sram.writeCode_wf _ _ h)

theorem raisePriv_sram (i : ℕ) (b : Bool) (d : List Byte) (s : State) : (raisePriv i b d s).sram = s.sram := by
  have hq (b : List Byte) (s : State) : (queueCanEvent b s).sram = s.sram := by unfold queueCanEvent; split <;> rfl
  have hi (s : State) : (issueRecord s).sram = s.sram := by unfold issueRecord; split <;> rfl
  unfold raisePriv
  dsimp only
  repeat' split
  all_goals simp [hi, hq, dropRecord]

theorem sramNote_merge (a n : ℕ) (q bad : Bool) (s : State) : (sramNote a n q bad s).sram.merge = s.sram.merge := by
  unfold sramNote
  dsimp only
  split
  · rw [raisePriv_sram]
  · rfl

theorem readStored_merge (a : ℕ) (s : State) : (readStored a s).2.2.sram.merge = s.sram.merge := by
  unfold readStored
  dsimp only
  split
  · rfl
  · exact sramNote_merge ..
  · exact sramNote_merge ..

theorem retire_merge (e : Merge) (s : State) :
    (retire e s).sram.merge.length ≤ (s.sram.merge.filter (fun x => x.word != e.word)).length := by
  have hw (m : Sram) (a w : Nat) : (m.writeCode a w).merge.length ≤ m.merge.length := List.length_filter_le _ _
  unfold retire
  dsimp only
  split
  · exact hw _ _ _
  · split
    · exact Nat.le_trans (hw _ _ _) (by rw [readStored_merge])
    · exact Nat.le_trans (hw _ _ _) (by rw [readStored_merge])

theorem narrowWrite_held {p : List Instr} (a off : ℕ) (bs : List Byte) (st : State) (hst : Held p st) :
    Held p (narrowWrite a off bs st) := by
  unfold narrowWrite
  split
  · rename_i e _
    have hx : Held p { st with sram := { st.sram with
        merges := satAdd st.sram.merges 1
        merge := st.sram.merge.map (fun x => if x.word == a then { e with bytes := mergeBytes e.bytes off bs } else x) } } :=
      Held.setSram hst (fun h => ⟨h.1, by simpa using h.2⟩)
    exact held_ite (retire_held _ _ hx) hx
  · extract_lets x
    have hx : Held p x ∧ x.sram.merge.length < 8 := by
      unfold x
      split
      · exact ⟨hst, by assumption⟩
      · rename_i hlen
        split
        · rename_i y rest hm
          refine ⟨retire_held _ _ hst, ?_⟩
          have hk := hst.kept.sram.2
          have := retire_merge y st
          rw [hm] at this hk
          simp only [List.filter_cons, bne_self_eq_false, Bool.false_eq_true, if_false, List.length_cons] at this hk
          have := List.length_filter_le (fun x : Merge => x.word != y.word) rest
          omega
        · rename_i hm; exact absurd (by rw [hm]; decide) hlen
    refine Held.setSram hx.1 (fun h => ⟨h.1, ?_⟩)
    simp only [List.length_append, List.length_singleton]
    have := hx.2
    omega

theorem sramWriteFuel_held {p : List Instr} (n : ℕ) : ∀ (off : ℕ) (bs : List Byte) (s : State), Held p s →
    Held p (sramWriteFuel n off bs s) := by
  induction n with
  | zero => intro off bs s h; exact h
  | succ n ih =>
    intro off bs s h
    exact held_ite h (held_ite (ih _ _ _ (Held.setSram h (Sram.writeWord_wf _ _))) (ih _ _ _ (narrowWrite_held _ _ _ _ h)))

theorem sramWrite_held {p : List Instr} (off : ℕ) (bs : List Byte) (st : State) (hst : Held p st) :
    Held p (sramWrite off bs st) := by
  unfold sramWrite
  repeat' (first
    | with_reducible assumption
    | with_reducible apply sramWriteFuel_held
    | fail)

theorem sramRead_held {p : List Instr} (off : ℕ) (len : ℕ) (st : State) (hst : Held p st) :
    Held p (sramRead off len st).2.2 := by
  unfold sramRead
  repeat' (first
    | with_reducible assumption
    | with_reducible apply readWords_held
    | fail)

theorem retireAll_held {p : List Instr} (st : State) (hst : Held p st) :
    Held p (retireAll st) := by
  unfold retireAll
  repeat' (first
    | with_reducible assumption
    | with_reducible apply retire_held
    | with_reducible refine held_foldl (fun _ _ _ => ?_) _ ?_
    | fail)

theorem scrubNext_held {p : List Instr} (s : State) (hs : Held p s) :
    Held p (scrubNext s) := by
  unfold scrubNext
  repeat' (first
    | with_reducible refine held_ite ?_ ?_
    | with_reducible apply raise_held
    | with_reducible apply Held.upd (by assumption)
    | with_reducible exact id
    | (unfold Sram.wf; with_reducible exact id)
    | fail)

theorem scrubOne_held {p : List Instr} (s : State) (hs : Held p s) :
    Held p (scrubOne s) := by
  unfold scrubOne
  repeat' (first
    | with_reducible assumption
    | with_reducible refine held_ite ?_ ?_
    | with_reducible apply scrubNext_held
    | with_reducible apply sramNote_held
    | with_reducible apply Held.upd (by assumption)
    | with_reducible exact id
    | (unfold Sram.wf; with_reducible exact id)
    | (extract_lets +onlyGivenNames x; refine (have hx : Held p x := ?_; ?_); on_goal 2 => try clear_value x; on_goal 1 => subst x)
    | (extract_lets +onlyGivenNames x; subst x)
    | split
    | fail)

theorem execScrubRewrite_held {p : List Instr} (s : State) (hs : Held p s) : HeldOut p (execScrubRewrite s) := by
  unfold execScrubRewrite
  refine heldOut_next ?_
  split
  · with_reducible apply Held.upd hs <;> try with_reducible exact id
    exact fun h => Sram.putWord_wf _ _ h
  · exact hs

theorem writeFlip_held {p : List Instr} (v : Word) (s : State) (hs : Held p s) :
    Held p (writeFlip v s) := by
  unfold writeFlip
  repeat' (first
    | with_reducible assumption
    | with_reducible refine held_ite ?_ ?_
    | with_reducible apply Held.upd (by assumption)
    | with_reducible exact id
    | (unfold Sram.wf; with_reducible exact id)
    | fail)

/-! ### Machine/Sched.lean -/

theorem modLun_held {p : List Instr} (u : ℕ) (f : LunRec → LunRec) (s : State) (hs : Held p s) : Held p (modLun u f s) := by
  unfold modLun
  extract_lets r
  with_reducible apply Held.upd hs <;> try with_reducible exact id
  intro h
  unfold lunsWf at h ⊢
  split
  · exact dropKey_wf u h
  · rename_i hv; exact putAsc_wf (blank := fun _ => ({} : LunRec)) hv h

theorem modRemote_held {p : List Instr} (a0 : ℕ) (f : Remote → Remote) (s : State) (hs : Held p s) :
    Held p (modRemote a0 f s) := by
  unfold modRemote
  repeat' (first
    | with_reducible apply Held.upd (by assumption)
    | with_reducible exact id
    | fail)

theorem clearResident_held {p : List Instr} (u : ℕ) (s : State) (hs : Held p s) : Held p (clearResident u s) := by
  unfold clearResident
  with_reducible apply Held.upd hs <;> first
    | with_reducible exact id
    | exact forgetResident_wf _

theorem resolveFeats_held {p : List Instr} (j : Job) (s : State) (hs : Held p s) : Held p (resolveFeats j s).2 := by
  unfold resolveFeats
  repeat' (first
    | with_reducible assumption
    | with_reducible apply clearResident_held
    | with_reducible apply modLun_held
    | with_reducible apply Held.upd (by assumption)
    | with_reducible exact id
    | exact forgetResident_wf _
    | (extract_lets +onlyGivenNames x; subst x)
    | split
    | fail)

theorem sendJob_held {p : List Instr} (j : Job) (s : State) (hs : Held p s) :
    Held p (sendJob j s) := by
  unfold sendJob
  repeat' (first
    | with_reducible assumption
    | with_reducible apply resolveFeats_held
    | with_reducible apply modJob_held
    | with_reducible apply dvSend_held
    | fail)

theorem sendGo_held {p : List Instr} (j : Job) (kind : ℕ) (s : State) (hs : Held p s) :
    Held p (sendGo j kind s) := by
  unfold sendGo
  repeat' (first
    | with_reducible assumption
    | with_reducible apply dvSend_held
    | with_reducible apply modJob_held
    | fail)

theorem addJob_held {p : List Instr} (j : Job) (s : State) (hs : Held p s) :
    Held p (addJob j s).2 := by
  unfold addJob
  repeat' (first
    | with_reducible assumption
    | with_reducible apply sendJob_held
    | with_reducible apply Held.upd (by assumption)
    | with_reducible exact id
    | (extract_lets +onlyGivenNames x; refine (have hx : Held p x := ?_; ?_); on_goal 2 => try clear_value x; on_goal 1 => subst x)
    | (extract_lets +onlyGivenNames x; subst x)
    | split
    | fail)

theorem addProgram_held {p : List Instr} (owner : Owner) (u : ℕ) (block : ℕ) (page : ℕ) (profile : ℕ) (prio : ℕ) (handle : ℕ) (s : State) (hs : Held p s) :
    Held p (addProgram owner u block page profile prio handle s).2 := by
  unfold addProgram
  repeat' (first
    | with_reducible assumption
    | with_reducible apply addJob_held
    | fail)

theorem dropSearches_held {p : List Instr} (u : ℕ) (block : ℕ) (s : State) (hs : Held p s) :
    Held p (dropSearches u block s) := by
  unfold dropSearches
  repeat' (first
    | with_reducible apply withdraw_held
    | with_reducible apply Held.upd (by assumption)
    | with_reducible exact id
    | fail)

theorem addErase_held {p : List Instr} (owner : Owner) (u : ℕ) (block : ℕ) (prio : ℕ) (s : State) (hs : Held p s) :
    Held p (addErase owner u block prio s).2 := by
  unfold addErase
  repeat' (first
    | with_reducible assumption
    | with_reducible apply addJob_held
    | with_reducible apply dropSearches_held
    | fail)

theorem noteStatus_held {p : List Instr} (eid : ℕ) (st : ℕ) (detail : ℕ) (s : State) (hs : Held p s) :
    Held p (noteStatus eid st detail s) := by
  unfold noteStatus
  repeat' (first
    | with_reducible assumption
    | with_reducible apply modEntry_held
    | fail)

/-! ### Machine/Cabinet.lean -/

theorem cabFault_held {p : List Instr} (cause : ℕ) (sector : ℕ) (status : ℕ) (st : State) (hst : Held p st) :
    Held p (cabFault cause sector status st) := by
  unfold cabFault
  repeat' (first
    | with_reducible apply raisePriv_held
    | with_reducible apply Held.upd (by assumption)
    | with_reducible exact id
    | fail)

theorem noteEndurance_held {p : List Instr} (s : ℕ) (st : State) (hst : Held p st) :
    Held p (noteEndurance s st) := by
  unfold noteEndurance
  repeat' (first
    | with_reducible assumption
    | with_reducible refine held_ite ?_ ?_
    | with_reducible apply cabFault_held
    | fail)

theorem eraseSector_held {p : List Instr} (s : ℕ) (st : State) (hst : Held p st) :
    Held p (eraseSector s st) := by
  unfold eraseSector
  repeat' (first
    | with_reducible assumption
    | with_reducible refine held_ite ?_ ?_
    | with_reducible apply noteEndurance_held
    | with_reducible apply Held.upd (by assumption)
    | with_reducible exact id
    | with_reducible apply Cabinet.endHeader_wf
    | with_reducible apply Cabinet.clearSector_wf
    | with_reducible apply Cabinet.startHeader_wf
    | intro _
    | fail)

theorem storeWords_held {p : List Instr} (s : ℕ) (w : ℕ) (vs : List ℕ) (st : State) (hst : Held p st) :
    Held p (storeWords s w vs st) := by
  unfold storeWords
  repeat' (first
    | with_reducible apply Held.upd (by assumption)
    | with_reducible exact id
    | (intro h; exact ⟨putWords_wf _ h.1, h.2⟩)
    | fail)

theorem storeBytes_held {p : List Instr} (s : ℕ) (w : ℕ) (bs : List Byte) (st : State) (hst : Held p st) :
    Held p (storeBytes s w bs st) := by
  unfold storeBytes
  repeat' (first
    | with_reducible assumption
    | with_reducible apply storeWords_held
    | fail)

theorem cabReturn_held {p : List Instr} (a0 : ℕ) (a1 : ℕ) (a2 : ℕ) (st : State) (hst : Held p st) :
    Held p (cabReturn a0 a1 a2 st) := by
  unfold cabReturn
  repeat' (first
    | with_reducible apply Held.upd (by assumption)
    | with_reducible exact id
    | (unfold Cabinet.wf; with_reducible exact id)
    | fail)

theorem asRoutine_held {p : List Instr} (c : Caller) (st : State) (t : State) (hst : Held p st) (ht : Held p t) :
    Held p (asRoutine c st t) := by
  unfold asRoutine
  repeat' (first
    | with_reducible assumption
    | with_reducible refine held_ite ?_ ?_
    | with_reducible apply cabFault_held
    | fail)

theorem execProgram_held {p : List Instr} (caller : Caller) (sector : ℕ) (word : ℕ) (data : List (BitVec 64)) (clearOnly : Bool) (suspendOk : Bool) (s : State) (hs : Held p s) :
    HeldOut p (execProgram caller sector word data clearOnly suspendOk s) := by
  unfold execProgram
  repeat' (first
    | with_reducible assumption
    | with_reducible refine heldOut_next ?_
    | with_reducible refine held_ite ?_ ?_
    | with_reducible apply asRoutine_held
    | with_reducible apply cabReturn_held
    | with_reducible apply Held.upd (by assumption)
    | with_reducible exact id
    | (unfold Cabinet.wf; with_reducible exact id)
    | fail)

theorem execErase_held {p : List Instr} (caller : Caller) (sector : ℕ) (s : State) (hs : Held p s) :
    HeldOut p (execErase caller sector s) := by
  unfold execErase
  refine heldOut_next ?_
  have hn : Held p (asRoutine caller s { s with cab := s.cab }) := asRoutine_held _ _ _ hs hs
  repeat' first
    | with_reducible assumption
    | with_reducible refine held_ite ?_ ?_
    | with_reducible apply cabReturn_held
    | with_reducible apply asRoutine_held
    | with_reducible apply noteEndurance_held
    | exact Held.setCab hs (fun h => Cabinet.startHeader_wf _ h)
    | fail

theorem execSuspend_held {p : List Instr} (caller : Caller) (s : State) (hs : Held p s) :
    HeldOut p (execSuspend caller s) := by
  unfold execSuspend
  repeat' (first
    | with_reducible assumption
    | with_reducible refine heldOut_next ?_
    | with_reducible refine held_ite ?_ ?_
    | with_reducible apply asRoutine_held
    | with_reducible apply cabReturn_held
    | with_reducible apply Held.upd (by assumption)
    | with_reducible exact id
    | (unfold Cabinet.wf; with_reducible exact id)
    | split
    | fail)

theorem execResume_held {p : List Instr} (caller : Caller) (s : State) (hs : Held p s) :
    HeldOut p (execResume caller s) := by
  unfold execResume
  repeat' (first
    | with_reducible assumption
    | with_reducible refine heldOut_next ?_
    | with_reducible refine held_ite ?_ ?_
    | with_reducible apply asRoutine_held
    | with_reducible apply cabReturn_held
    | with_reducible apply Held.upd (by assumption)
    | with_reducible exact id
    | (unfold Cabinet.wf; with_reducible exact id)
    | split
    | fail)

theorem execStatus_held {p : List Instr} (caller : Caller) (s : State) (hs : Held p s) :
    HeldOut p (execStatus caller s) := by
  unfold execStatus
  repeat' (first
    | with_reducible assumption
    | with_reducible refine heldOut_next ?_
    | with_reducible apply asRoutine_held
    | with_reducible apply cabReturn_held
    | with_reducible apply Held.upd (by assumption)
    | with_reducible exact id
    | split
    | fail)

theorem cabCoreRead_held {p : List Instr} (k : ℕ) (n : ℕ) (s : State) (hs : Held p s) :
    Held p (cabCoreRead k n s).2 := by
  unfold cabCoreRead
  repeat' (first
    | with_reducible assumption
    | with_reducible apply Held.upd (by assumption)
    | with_reducible exact id
    | (unfold Cabinet.wf; with_reducible exact id)
    | (extract_lets +onlyGivenNames x; subst x)
    | split
    | fail)

theorem execCount_held {p : List Instr} (caller : Caller) (sector : ℕ) (s : State) (hs : Held p s) :
    HeldOut p (execCount caller sector s) := by
  unfold execCount
  repeat' (first
    | with_reducible assumption
    | with_reducible refine heldOut_next ?_
    | with_reducible refine held_ite ?_ ?_
    | with_reducible apply asRoutine_held
    | with_reducible apply cabReturn_held
    | fail)

theorem execMarkProgram_held {p : List Instr} (caller : Caller) (word : ℕ) (data : List (BitVec 64)) (clearOnly : Bool) (s : State) (hs : Held p s) :
    HeldOut p (execMarkProgram caller word data clearOnly s) := by
  unfold execMarkProgram
  repeat' (first
    | with_reducible assumption
    | with_reducible refine heldOut_next ?_
    | with_reducible refine held_ite ?_ ?_
    | with_reducible apply asRoutine_held
    | with_reducible apply cabReturn_held
    | with_reducible apply Held.upd (by assumption)
    | with_reducible exact id
    | (unfold Cabinet.wf; with_reducible exact id)
    | fail)

theorem execMarkLock_held {p : List Instr} (caller : Caller) (s : State) (hs : Held p s) :
    HeldOut p (execMarkLock caller s) := by
  unfold execMarkLock
  repeat' (first
    | with_reducible assumption
    | with_reducible refine heldOut_next ?_
    | with_reducible apply asRoutine_held
    | with_reducible apply cabReturn_held
    | with_reducible apply Held.upd (by assumption)
    | with_reducible exact id
    | (unfold Cabinet.wf; with_reducible exact id)
    | fail)

theorem failedWord_held {p : List Instr} (o : CabOp) (k : ℕ) (new : ℕ) (s : State) (hs : Held p s) :
    Held p (failedWord o k new s) := by
  unfold failedWord
  repeat' (first
    | with_reducible assumption
    | with_reducible exact id
    | with_reducible apply Cabinet.applyWords_wf
    | (extract_lets +onlyGivenNames x; subst x)
    | split
    | (with_reducible apply Held.upd; on_goal 1 => (with_reducible refine held_snd (by assumption) ?_; with_reducible apply takeFree_held))
    | fail)

theorem cabEnd_held {p : List Instr} (result : ℕ) (word : ℕ) (s : State) (hs : Held p s) :
    Held p (cabEnd result word s) := by
  unfold cabEnd
  repeat' (first
    | with_reducible apply raise_held
    | with_reducible apply Held.upd (by assumption)
    | with_reducible exact id
    | (unfold Cabinet.wf; with_reducible exact id)
    | fail)

theorem endProgram_held {p : List Instr} (o : CabOp) (verified : Bool) (n : ℕ) (s : State) (hs : Held p s) :
    Held p (endProgram o verified n s) := by
  unfold endProgram
  repeat' (first
    | with_reducible refine held_ite ?_ ?_
    | with_reducible apply cabEnd_held
    | with_reducible apply failedWord_held
    | with_reducible apply cabFault_held
    | with_reducible exact id
    | with_reducible apply Cabinet.applyWords_wf
    | with_reducible apply Cabinet.progGone_wf
    | split
    | (with_reducible apply Held.upd; on_goal 1 => (with_reducible apply Held.upd (by assumption)))
    | fail)

theorem freeSector_held {p : List Instr} (sec : ℕ) (s : State) (hs : Held p s) : Held p (freeSector sec s) := by
  unfold freeSector
  extract_lets vs
  with_reducible apply Held.upd hs <;> try with_reducible exact id
  intro h
  unfold Cabinet.wf at h ⊢
  dsimp only
  exact ⟨putWords_wf vs (filter_wf _ h.1), h.2⟩

theorem eraseFails_held {p : List Instr} (sec : Nat) (s : State) (hs : Held p s) : Held p (eraseFails sec s) := by
  unfold eraseFails
  exact cabFault_held _ _ _ _ (Held.setCab (freeSector_held sec s hs) fun h => Cabinet.endHeader_wf _ _ h)

theorem endErase_held {p : List Instr} (o : CabOp) (verified : Bool) (s : State) (hs : Held p s) :
    Held p (endErase o verified s) := by
  have h0 : Held p { s with cab := { s.cab with erase := none } } := Held.setCab hs id
  have h1 : Held p { s with cab := endHeader (clearSector { s.cab with erase := none } o.sector) o.sector true } :=
    Held.setCab hs fun h => Cabinet.endHeader_wf _ _ (Cabinet.clearSector_wf _ h)
  unfold endErase
  dsimp only
  split
  · exact cabEnd_held _ _ _ h1
  · exact eraseFails_held _ _ (cabEnd_held _ _ _ h0)

theorem execCabinetOpEnd_held {p : List Instr} (verified : Bool) (wordsDone : ℕ) (s : State) (hs : Held p s) :
    HeldOut p (execCabinetOpEnd verified wordsDone s) := by
  unfold execCabinetOpEnd
  repeat' (first
    | with_reducible assumption
    | with_reducible refine heldOut_next ?_
    | with_reducible refine held_ite ?_ ?_
    | with_reducible apply endProgram_held
    | with_reducible apply endErase_held
    | split
    | fail)

theorem cabHoldup_held {p : List Instr} (s : State) (hs : Held p s) : Held p (cabHoldup s) := by
  unfold cabHoldup
  extract_lets x
  have hx : Held p x := by
    unfold x
    split
    · exact cabEnd_held _ _ _ (Held.setCab (takeFree_held s hs) (fun h => Cabinet.applyWords_wf _ _ h))
    · exact hs
  exact Held.setCab hx id

theorem writeLog_held {p : List Instr} (rec : List Byte) (s : State) (hs : Held p s) :
    Held p (writeLog rec s) := by
  unfold writeLog
  repeat' (first
    | with_reducible assumption
    | with_reducible refine held_ite ?_ ?_
    | with_reducible apply eraseSector_held
    | with_reducible apply storeWords_held
    | with_reducible apply Held.upd (by assumption)
    | with_reducible exact id
    | (unfold Cabinet.wf; with_reducible exact id)
    | (extract_lets +onlyGivenNames x; refine (have hx : Held p x := ?_; ?_); on_goal 2 => try clear_value x; on_goal 1 => subst x)
    | (extract_lets +onlyGivenNames x; subst x)
    | fail)

theorem execLogRecordCopy_held {p : List Instr} (s : State) (hs : Held p s) :
    HeldOut p (execLogRecordCopy s) := by
  unfold execLogRecordCopy
  repeat' (first
    | with_reducible assumption
    | with_reducible refine heldOut_next ?_
    | with_reducible refine held_ite ?_ ?_
    | with_reducible apply writeLog_held
    | with_reducible apply Held.upd (by assumption)
    | with_reducible exact id
    | split
    | fail)

/-! ### Machine/Saves.lean -/

theorem eraseHalf_held {p : List Instr} (a0 : ℕ) (s : State) (hs : Held p s) :
    Held p (eraseHalf a0 s) := by
  unfold eraseHalf
  repeat' (first
    | with_reducible assumption
    | with_reducible refine held_ite ?_ ?_
    | with_reducible apply eraseSector_held
    | with_reducible refine held_foldl (fun _ _ _ => ?_) _ ?_
    | fail)

theorem appendRecord_held {p : List Instr} (idx : ℕ) (sub : ℕ) (v : List Byte) (s : State) (hs : Held p s) :
    Held p (appendRecord idx sub v s) := by
  unfold appendRecord
  repeat' (first
    | with_reducible assumption
    | with_reducible apply storeBytes_held
    | with_reducible apply Held.upd (by assumption)
    | with_reducible exact id
    | (unfold Cabinet.wf; with_reducible exact id)
    | (extract_lets +onlyGivenNames x; refine (have hx : Held p x := ?_; ?_); on_goal 2 => try clear_value x; on_goal 1 => subst x)
    | (extract_lets +onlyGivenNames x; subst x)
    | fail)

theorem compactNow_held {p : List Instr} (s : State) (hs : Held p s) :
    Held p (compactNow s) := by
  unfold compactNow
  repeat' (first
    | with_reducible assumption
    | with_reducible refine held_ite ?_ ?_
    | with_reducible apply appendRecord_held
    | with_reducible apply storeBytes_held
    | with_reducible refine held_foldl (fun _ _ _ => ?_) _ ?_
    | with_reducible exact id
    | (unfold Cabinet.wf; with_reducible exact id)
    | (extract_lets +onlyGivenNames x; subst x)
    | (with_reducible apply Held.upd; on_goal 1 => (with_reducible apply eraseHalf_held))
    | fail)

theorem ensureHalf_held {p : List Instr} (s : State) (hs : Held p s) :
    Held p (ensureHalf s) := by
  unfold ensureHalf
  repeat' (first
    | with_reducible assumption
    | with_reducible refine held_ite ?_ ?_
    | with_reducible apply storeBytes_held
    | with_reducible exact id
    | (unfold Cabinet.wf; with_reducible exact id)
    | (extract_lets +onlyGivenNames x; subst x)
    | (with_reducible apply Held.upd; on_goal 1 => (with_reducible apply eraseHalf_held))
    | fail)

theorem eraseAhead_held {p : List Instr} (s : State) (hs : Held p s) :
    Held p (eraseAhead s) := by
  unfold eraseAhead
  repeat' (first
    | with_reducible assumption
    | with_reducible refine held_ite ?_ ?_
    | with_reducible apply eraseSector_held
    | split
    | fail)

theorem saveRecord_held {p : List Instr} (idx : ℕ) (sub : ℕ) (v : List Byte) (s : State) (hs : Held p s) :
    Held p (saveRecord idx sub v s) := by
  unfold saveRecord
  repeat' (first
    | with_reducible assumption
    | with_reducible refine held_ite ?_ ?_
    | with_reducible apply ensureHalf_held
    | with_reducible apply compactNow_held
    | with_reducible apply eraseAhead_held
    | with_reducible apply appendRecord_held
    | fail)

theorem execSaveCompaction_held {p : List Instr} (s : State) (hs : Held p s) :
    HeldOut p (execSaveCompaction s) := by
  unfold execSaveCompaction
  repeat' (first
    | with_reducible assumption
    | with_reducible refine heldOut_next ?_
    | with_reducible refine held_ite ?_ ?_
    | with_reducible apply compactNow_held
    | fail)

theorem saveClocks_held {p : List Instr} (s : State) (hs : Held p s) :
    Held p (saveClocks s) := by
  unfold saveClocks
  repeat' (first
    | with_reducible assumption
    | with_reducible refine held_ite ?_ ?_
    | with_reducible apply saveRecord_held
    | with_reducible refine held_foldl (fun _ _ _ => ?_) _ ?_
    | with_reducible apply Held.upd (by assumption)
    | with_reducible exact id
    | (unfold Dict.wf; with_reducible exact id)
    | (extract_lets +onlyGivenNames x; subst x)
    | (with_reducible apply Held.upd; on_goal 1 => (with_reducible refine held_foldl (fun _ _ _ => ?_) _ ?_))
    | fail)

theorem applyRecord_held {p : List Instr} (r : SaveRec) (s : State) (hs : Held p s) :
    Held p (applyRecord r s) := by
  unfold applyRecord
  repeat' (first
    | with_reducible refine held_ite ?_ ?_
    | with_reducible apply Held.upd (by assumption)
    | with_reducible exact id
    | (unfold Dict.wf; with_reducible exact id)
    | split
    | fail)

theorem countStart_held {p : List Instr} (s : State) (hs : Held p s) :
    Held p (countStart s) := by
  unfold countStart
  repeat' (first
    | with_reducible assumption
    | with_reducible refine held_ite ?_ ?_
    | with_reducible apply saveRecord_held
    | with_reducible apply Held.upd (by assumption)
    | with_reducible exact id
    | fail)

theorem restoreBias_held {p : List Instr} (s : State) (hs : Held p s) :
    Held p (restoreBias s) := by
  unfold restoreBias
  repeat' (first
    | with_reducible assumption
    | with_reducible refine held_ite ?_ ?_
    | with_reducible apply modLun_held
    | with_reducible refine held_foldl (fun _ _ _ => ?_) _ ?_
    | fail)

theorem restoreSaved_held {p : List Instr} (s : State) (hs : Held p s) :
    Held p (restoreSaved s) := by
  unfold restoreSaved
  repeat' (first
    | with_reducible assumption
    | with_reducible apply applyRecord_held
    | with_reducible apply restoreBias_held
    | with_reducible apply Held.upd (by assumption)
    | with_reducible exact id
    | (unfold Dict.wf; with_reducible exact id)
    | (unfold Cabinet.wf; with_reducible exact id)
    | (extract_lets +onlyGivenNames x; refine (have hx : Held p x := ?_; ?_); on_goal 2 => try clear_value x; on_goal 1 => subst x)
    | (extract_lets +onlyGivenNames x; subst x)
    | split
    | (with_reducible apply Held.upd; on_goal 1 => (with_reducible refine held_foldl (fun _ _ _ => ?_) _ ?_))
    | fail)

/-! ### Machine/Stripe.lean -/

theorem winPut_held {p : List Instr} (s : State) (a1 : ℕ × List Sys2Proof.Byte) (hs : Held p s) :
    Held p (winPut s a1) := by
  unfold winPut
  repeat' (first
    | with_reducible refine held_ite ?_ ?_
    | with_reducible apply hostWrite_held
    | with_reducible apply Held.upd (by assumption)
    | with_reducible exact id
    | (with_reducible apply Held.upd; on_goal 1 => (with_reducible apply Held.upd (by assumption)))
    | fail)

theorem winPutAll_held {p : List Instr} (off : ℕ) (bs : List Sys2Proof.Byte) (s : State) (hs : Held p s) :
    Held p (winPutAll off bs s) := by
  unfold winPutAll
  repeat' (first
    | with_reducible assumption
    | with_reducible apply winPut_held
    | with_reducible refine held_foldl (fun _ _ _ => ?_) _ ?_
    | fail)

theorem winWrite_held {p : List Instr} (off : ℕ) (bs : List Sys2Proof.Byte) (s : State) (hs : Held p s) :
    Held p (winWrite off bs s) := by
  unfold winWrite
  repeat' (first
    | with_reducible assumption
    | with_reducible refine held_ite ?_ ?_
    | with_reducible apply winPutAll_held
    | fail)

theorem touchBinds_held {p : List Instr} (is : List ℕ) (s : State) (hs : Held p s) :
    Held p (touchBinds is s) := by
  unfold touchBinds
  repeat' (first
    | with_reducible apply Held.upd (by assumption)
    | with_reducible exact id
    | fail)

theorem lookUpBinds_held {p : List Instr} (s : State) (x : ℕ × ℕ × ℕ) (hs : Held p s) :
    Held p (lookUpBinds s x) := by
  unfold lookUpBinds
  repeat' (first
    | with_reducible assumption
    | with_reducible refine held_ite ?_ ?_
    | with_reducible apply touchBinds_held
    | with_reducible apply hostReadData_held
    | with_reducible refine held_foldl (fun _ _ _ => ?_) _ ?_
    | fail)

theorem writeDir_held {p : List Instr} (g : ℕ) (f : DirEntry → DirEntry) (s : State) (hs : Held p s) :
    Held p (writeDir g f s) := by
  unfold writeDir
  repeat' (first
    | with_reducible assumption
    | with_reducible apply dvSend_held
    | with_reducible apply winWrite_held
    | with_reducible exact id
    | (extract_lets +onlyGivenNames x; subst x)
    | (with_reducible apply Held.upd; on_goal 1 => (with_reducible refine held_ite ?_ ?_))
    | fail)

theorem freeDir_held {p : List Instr} (g : ℕ) (s : State) (hs : Held p s) :
    Held p (freeDir g s) := by
  unfold freeDir
  repeat' (first
    | with_reducible apply winWrite_held
    | with_reducible apply Held.upd (by assumption)
    | with_reducible exact id
    | fail)

theorem cacheTouch_held {p : List Instr} (g : ℕ) (s : State) (hs : Held p s) :
    Held p (cacheTouch g s) := by
  unfold cacheTouch
  repeat' (first
    | with_reducible apply Held.upd (by assumption)
    | with_reducible exact id
    | fail)

theorem addRec_held {p : List Instr} (r : BitVec 256) (s : State) (hs : Held p s) :
    Held p (addRec r s) := by
  unfold addRec
  repeat' (first
    | with_reducible refine held_ite ?_ ?_
    | with_reducible apply dvSend_held
    | with_reducible apply Held.upd (by assumption)
    | with_reducible exact id
    | fail)

theorem rowMembersRec_held {p : List Instr} (g : ℕ) (r : ℕ) (mask : ℕ) (s : State) (hs : Held p s) :
    Held p (rowMembersRec g r mask s).2 := by
  unfold rowMembersRec
  repeat' (first
    | with_reducible assumption
    | with_reducible apply addRec_held
    | with_reducible apply Held.upd (by assumption)
    | with_reducible exact id
    | (extract_lets +onlyGivenNames x; refine (have hx : Held p x := ?_; ?_); on_goal 2 => try clear_value x; on_goal 1 => subst x)
    | (extract_lets +onlyGivenNames x; subst x)
    | split
    | fail)

theorem touchDose_held {p : List Instr} (u : ℕ) (b : ℕ) (s : State) (hs : Held p s) :
    Held p (touchDose u b s) := by
  unfold touchDose
  repeat' (first
    | with_reducible apply Held.upd (by assumption)
    | with_reducible exact id
    | fail)

theorem setDose_held {p : List Instr} (u : ℕ) (b : ℕ) (f : DoseRec → DoseRec) (s : State) (hs : Held p s) :
    Held p (setDose u b f s) := by
  unfold setDose
  repeat' (first
    | with_reducible assumption
    | with_reducible apply winWrite_held
    | with_reducible apply addRec_held
    | with_reducible exact id
    | (with_reducible apply Held.upd; on_goal 1 => (with_reducible apply touchDose_held))
    | fail)

theorem doseErase_held {p : List Instr} (u : ℕ) (b : ℕ) (s : State) (hs : Held p s) :
    Held p (doseErase u b s) := by
  unfold doseErase
  repeat' (first
    | with_reducible assumption
    | with_reducible apply setDose_held
    | fail)

theorem doseProgram_held {p : List Instr} (u : ℕ) (b : ℕ) (s : State) (hs : Held p s) :
    Held p (doseProgram u b s) := by
  unfold doseProgram
  repeat' (first
    | with_reducible assumption
    | with_reducible refine held_ite ?_ ?_
    | with_reducible apply setDose_held
    | fail)

theorem setLedger_held {p : List Instr} (i : ℕ) (e : LossEntry) (s : State) (hs : Held p s) :
    Held p (setLedger i e s) := by
  unfold setLedger
  repeat' (first
    | with_reducible apply winWrite_held
    | with_reducible apply addRec_held
    | with_reducible apply Held.upd (by assumption)
    | with_reducible exact id
    | fail)

theorem clearLedger_held {p : List Instr} (i : ℕ) (s : State) (hs : Held p s) :
    Held p (clearLedger i s) := by
  unfold clearLedger
  repeat' (first
    | with_reducible assumption
    | with_reducible refine held_ite ?_ ?_
    | with_reducible apply addRec_held
    | with_reducible apply winWrite_held
    | with_reducible apply Held.upd (by assumption)
    | with_reducible exact id
    | fail)

theorem clearLedgerGroup_held {p : List Instr} (g : ℕ) (s : State) (hs : Held p s) :
    Held p (clearLedgerGroup g s) := by
  unfold clearLedgerGroup
  repeat' (first
    | with_reducible assumption
    | with_reducible apply clearLedger_held
    | with_reducible refine held_foldl (fun _ _ _ => ?_) _ ?_
    | fail)

theorem lossEvent_held {p : List Instr} (g : ℕ) (m : ℕ) (r : ℕ) (mask : ℕ) (cause : ℕ) (full : Bool) (idx : ℕ) (s : State) (hs : Held p s) :
    Held p (lossEvent g m r mask cause full idx s) := by
  unfold lossEvent
  repeat' (first
    | with_reducible assumption
    | with_reducible apply raisePriv_held
    | fail)

theorem sendLoss_held {p : List Instr} (g : ℕ) (m : ℕ) (r : ℕ) (mask : ℕ) (cause : ℕ) (s : State) (hs : Held p s) :
    Held p (sendLoss g m r mask cause s) := by
  unfold sendLoss
  repeat' (first
    | with_reducible assumption
    | with_reducible apply addRec_held
    | fail)

theorem addLoss_held {p : List Instr} (g : ℕ) (m : ℕ) (r : ℕ) (mask : ℕ) (cause : ℕ) (s : State) (hs : Held p s) :
    Held p (addLoss g m r mask cause s) := by
  unfold addLoss
  repeat' (first
    | with_reducible assumption
    | with_reducible refine held_ite ?_ ?_
    | with_reducible apply sendLoss_held
    | with_reducible apply lossEvent_held
    | with_reducible apply setLedger_held
    | with_reducible apply logRecord_held
    | with_reducible apply Held.upd (by assumption)
    | with_reducible exact id
    | (extract_lets +onlyGivenNames x; refine (have hx : Held p x := ?_; ?_); on_goal 2 => try clear_value x; on_goal 1 => subst x)
    | (extract_lets +onlyGivenNames x; subst x)
    | split
    | fail)

theorem modSlot_held {p : List Instr} (i : ℕ) (f : Slot → Slot) (s : State) (hs : Held p s) :
    Held p (modSlot i f s) := by
  unfold modSlot
  repeat' (first
    | with_reducible apply Held.upd (by assumption)
    | with_reducible exact id
    | (intro h; simpa only [List.length_set, List.length_modify, List.length_map] using h)
    | fail)

theorem assignSlot_held {p : List Instr} (i g r : ℕ) (s : State) (hs : Held p s) : Held p (assignSlot i g r s) := by
  unfold assignSlot
  refine modSlot_held _ _ _ (held_ite (Held.setSram hs (zeroRange_wf _ _)) ?_)
  with_reducible apply Held.upd hs <;> first
    | with_reducible exact id
    | (intro h; rw [List.length_append]; exact Nat.le_add_right_of_le h)

theorem slotBytes_held {p : List Instr} (i : ℕ) (half : ℕ) (c : ℕ) (s : State) (hs : Held p s) :
    Held p (slotBytes i half c s).2.2 := by
  unfold slotBytes
  repeat' (first
    | with_reducible assumption
    | with_reducible apply sramRead_held
    | split
    | fail)

theorem slotWrite_held {p : List Instr} (i : ℕ) (half : ℕ) (c : ℕ) (bs : List Sys2Proof.Byte) (s : State) (hs : Held p s) :
    Held p (slotWrite i half c bs s) := by
  unfold slotWrite
  repeat' (first
    | with_reducible assumption
    | with_reducible refine held_ite ?_ ?_
    | with_reducible apply sramWrite_held
    | with_reducible apply modSlot_held
    | fail)

theorem foldRead_held {p : List Instr} (i : ℕ) (half : ℕ) (c : ℕ) (d : List Sys2Proof.Byte) (old : List Sys2Proof.Byte) (ok : Bool) (s : State) (hs : Held p s) :
    Held p (foldRead i half c d old ok s) := by
  unfold foldRead
  repeat' (first
    | with_reducible assumption
    | with_reducible refine held_ite ?_ ?_
    | with_reducible apply modSlot_held
    | with_reducible apply slotWrite_held
    | fail)

theorem foldHalf_held {p : List Instr} (i : ℕ) (half : ℕ) (c : ℕ) (d : List Sys2Proof.Byte) (s : State) (hs : Held p s) :
    Held p (foldHalf i half c d s) := by
  unfold foldHalf
  repeat' (first
    | with_reducible assumption
    | with_reducible apply slotBytes_held
    | with_reducible apply foldRead_held
    | fail)

theorem foldCw_held {p : List Instr} (i : ℕ) (m : ℕ) (c : ℕ) (d : List Byte) (s : State) (hs : Held p s) :
    Held p (foldCw i m c d s) := by
  unfold foldCw
  repeat' (first
    | with_reducible assumption
    | with_reducible apply foldHalf_held
    | fail)

theorem listShort_held {p : List Instr} (g : ℕ) (r : ℕ) (mask : ℕ) (s : State) (hs : Held p s) :
    Held p (listShort g r mask s) := by
  unfold listShort
  repeat' (first
    | with_reducible assumption
    | with_reducible refine held_ite ?_ ?_
    | with_reducible apply writeDir_held
    | with_reducible apply Held.upd (by assumption)
    | with_reducible exact id
    | fail)

theorem programMember_held {p : List Instr} (owner : Owner) (g : ℕ) (m : ℕ) (r : ℕ) (prio : ℕ) (handle : ℕ) (stamp : Word) (sealW : BitVec 96) (s : State) (hs : Held p s) :
    Held p (programMember owner g m r prio handle stamp sealW s) := by
  unfold programMember
  repeat' (first
    | with_reducible assumption
    | with_reducible apply addJob_held
    | fail)

theorem foldsAway_held {p : List Instr} (i : ℕ) (g : ℕ) (m : ℕ) (s : State) (hs : Held p s) :
    Held p (foldsAway i g m s) := by
  unfold foldsAway
  repeat' (first
    | with_reducible assumption
    | with_reducible refine held_ite ?_ ?_
    | with_reducible apply modSlot_held
    | fail)

theorem padMember_held {p : List Instr} (i : ℕ) (g : ℕ) (m : ℕ) (r : ℕ) (s : State) (hs : Held p s) :
    Held p (padMember i g m r s) := by
  unfold padMember
  repeat' (first
    | with_reducible assumption
    | with_reducible refine held_ite ?_ ?_
    | with_reducible apply foldsAway_held
    | with_reducible apply programMember_held
    | with_reducible apply modSlot_held
    | fail)

theorem noteParityFail_held {p : List Instr} (g : ℕ) (r : ℕ) (m : ℕ) (s : State) (hs : Held p s) :
    Held p (noteParityFail g r m s) := by
  unfold noteParityFail
  repeat' (first
    | with_reducible assumption
    | with_reducible apply noteStatus_held
    | split
    | fail)

theorem placeParityOne_held {p : List Instr} (i : ℕ) (m : ℕ) (half : ℕ) (s : State) (hs : Held p s) :
    Held p (placeParityOne i m half s) := by
  unfold placeParityOne
  repeat' (first
    | with_reducible assumption
    | with_reducible refine held_ite ?_ ?_
    | with_reducible apply programMember_held
    | with_reducible apply modSlot_held
    | with_reducible apply noteParityFail_held
    | fail)

theorem rowSealed_held {p : List Instr} (i : ℕ) (s : State) (hs : Held p s) :
    Held p (rowSealed i s) := by
  unfold rowSealed
  repeat' (first
    | with_reducible assumption
    | with_reducible refine held_ite ?_ ?_
    | with_reducible apply addRec_held
    | with_reducible apply modSlot_held
    | fail)

theorem placeParity_held {p : List Instr} (i : ℕ) (s : State) (hs : Held p s) :
    Held p (placeParity i s) := by
  unfold placeParity
  repeat' (first
    | with_reducible assumption
    | with_reducible apply modSlot_held
    | with_reducible apply rowSealed_held
    | with_reducible apply placeParityOne_held
    | fail)

theorem placeAll_held {p : List Instr} (a0 : ℕ) : ∀ (a1 : State), Held p a1 →
    Held p (placeAll a0 a1) := by
  induction a0 with
  | zero =>
    intro a1 h0
    first | rw [placeAll] | unfold placeAll
    repeat' (first
      | with_reducible assumption
      | fail)
  | succ _ ih =>
    intro a1 h0
    first | rw [placeAll] | unfold placeAll
    repeat' (first
      | with_reducible assumption
      | with_reducible apply ih
      | with_reducible apply placeParity_held
      | split
      | fail)

theorem slotAll_held {p : List Instr} (i : ℕ) (s : State) (hs : Held p s) :
    Held p (slotAll i s).2 := by
  unfold slotAll
  repeat' (first
    | with_reducible assumption
    | with_reducible apply slotBytes_held
    | with_reducible refine held_foldl_snd (fun _ _ _ => ?_) _ ?_
    | fail)

theorem sendPart_held {p : List Instr} (die : BitVec 3) (i : ℕ) (members : List ℕ) (s : State) (hs : Held p s) :
    Held p (sendPart die i members s) := by
  unfold sendPart
  repeat' (first
    | with_reducible assumption
    | with_reducible apply slotAll_held
    | with_reducible apply dvSend_held
    | fail)

theorem giveQ_held {p : List Instr} (i : ℕ) (s : State) (hs : Held p s) :
    Held p (giveQ i s) := by
  unfold giveQ
  repeat' (first
    | with_reducible assumption
    | with_reducible refine held_ite ?_ ?_
    | with_reducible apply sendPart_held
    | fail)

theorem sendParity_held {p : List Instr} (i : ℕ) (s : State) (hs : Held p s) :
    Held p (sendParity i s) := by
  unfold sendParity
  repeat' (first
    | with_reducible assumption
    | with_reducible refine held_ite ?_ ?_
    | with_reducible apply giveQ_held
    | with_reducible apply modSlot_held
    | with_reducible apply sendPart_held
    | fail)

theorem sealSlot_held {p : List Instr} (i : ℕ) (s : State) (hs : Held p s) :
    Held p (sealSlot i s) := by
  unfold sealSlot
  repeat' (first
    | with_reducible assumption
    | with_reducible refine held_ite ?_ ?_
    | with_reducible apply modSlot_held
    | with_reducible apply writeDir_held
    | with_reducible apply listShort_held
    | with_reducible apply placeAll_held
    | with_reducible apply sendParity_held
    | with_reducible apply Held.upd (by assumption)
    | with_reducible exact id
    | fail)

theorem closeShort_held {p : List Instr} (g : ℕ) (s : State) (hs : Held p s) :
    Held p (closeShort g s) := by
  unfold closeShort
  repeat' (first
    | with_reducible assumption
    | with_reducible refine held_ite ?_ ?_
    | with_reducible apply modSlot_held
    | with_reducible apply padMember_held
    | with_reducible apply writeDir_held
    | with_reducible apply sealSlot_held
    | with_reducible refine held_foldl (fun _ _ _ => ?_) _ ?_
    | (extract_lets +onlyGivenNames x; subst x)
    | split
    | fail)

theorem closeGroup_held {p : List Instr} (g : ℕ) (s : State) (hs : Held p s) :
    Held p (closeGroup g s) := by
  unfold closeGroup
  repeat' (first
    | with_reducible assumption
    | with_reducible refine held_ite ?_ ?_
    | with_reducible apply closeShort_held
    | with_reducible apply addRec_held
    | with_reducible apply writeDir_held
    | fail)

/-! ### Machine/Journal.lean -/

theorem modJrnl_held {p : List Instr} (f : Jrnl → Jrnl) (s : State) (hs : Held p s) :
    Held p (modJrnl f s) := by
  unfold modJrnl
  repeat' (first
    | with_reducible apply Held.upd (by assumption)
    | with_reducible exact id
    | fail)

theorem programJournal_held {p : List Instr} (copy : ℕ) (u : ℕ) (base : ℕ) (pj : ℕ) (idx : ℕ) (s : State) (hs : Held p s) :
    Held p (programJournal copy u base pj idx s) := by
  unfold programJournal
  repeat' (first
    | with_reducible assumption
    | with_reducible apply addProgram_held
    | fail)

theorem eraseJournal_held {p : List Instr} (u : ℕ) (block : ℕ) (s : State) (hs : Held p s) :
    Held p (eraseJournal u block s) := by
  unfold eraseJournal
  repeat' (first
    | with_reducible assumption
    | with_reducible apply modJrnl_held
    | with_reducible apply addErase_held
    | fail)

theorem eraseRing_held {p : List Instr} (idxs : List ℕ) (s : State) (hs : Held p s) :
    Held p (eraseRing idxs s) := by
  unfold eraseRing
  repeat' (first
    | with_reducible assumption
    | with_reducible apply eraseJournal_held
    | with_reducible refine held_foldl (fun _ _ _ => ?_) _ ?_
    | fail)

theorem eraseOldRing_held {p : List Instr} (j : Jrnl) (s : State) (hs : Held p s) :
    Held p (eraseOldRing j s) := by
  unfold eraseOldRing
  repeat' (first
    | with_reducible assumption
    | with_reducible refine held_ite ?_ ?_
    | with_reducible apply eraseJournal_held
    | fail)

theorem launchPage_held {p : List Instr} (a0 : JPage) (recs : ℕ) (s : State) (hs : Held p s) :
    Held p (launchPage a0 recs s) := by
  unfold launchPage
  repeat' (first
    | with_reducible assumption
    | with_reducible refine held_ite ?_ ?_
    | with_reducible apply modJrnl_held
    | with_reducible apply programJournal_held
    | with_reducible apply eraseOldRing_held
    | with_reducible apply eraseRing_held
    | fail)

theorem programCopy_held {p : List Instr} (copy : ℕ) (s : State) (hs : Held p s) :
    Held p (programCopy copy s) := by
  unfold programCopy
  repeat' (first
    | with_reducible assumption
    | with_reducible refine held_ite ?_ ?_
    | with_reducible apply programJournal_held
    | split
    | fail)

theorem placePageAgain_held {p : List Instr} (s : State) (hs : Held p s) :
    Held p (placePageAgain s) := by
  unfold placePageAgain
  repeat' (first
    | with_reducible assumption
    | with_reducible apply programCopy_held
    | with_reducible refine held_foldl (fun _ _ _ => ?_) _ ?_
    | fail)

theorem startRecords_held {p : List Instr} (s : State) (hs : Held p s) :
    Held p (startRecords s) := by
  unfold startRecords
  repeat' (first
    | with_reducible assumption
    | with_reducible apply modJrnl_held
    | with_reducible apply launchPage_held
    | fail)

theorem readSnapshot_held {p : List Instr} (s : State) (hs : Held p s) :
    Held p (readSnapshot s) := by
  unfold readSnapshot
  repeat' (first
    | with_reducible assumption
    | with_reducible refine held_ite ?_ ?_
    | with_reducible apply hostReadData_held
    | with_reducible apply modJrnl_held
    | fail)

theorem snapArrived_held {p : List Instr} (addr : ℕ) (len : ℕ) (beats : List Sys2Proof.Byte) (s : State) (hs : Held p s) :
    Held p (snapArrived addr len beats s) := by
  unfold snapArrived
  repeat' (first
    | with_reducible assumption
    | with_reducible refine held_ite ?_ ?_
    | with_reducible apply modJrnl_held
    | fail)

theorem startSnapshot_held {p : List Instr} (s : State) (hs : Held p s) :
    Held p (startSnapshot s) := by
  unfold startSnapshot
  repeat' (first
    | with_reducible assumption
    | with_reducible refine held_ite ?_ ?_
    | with_reducible apply modJrnl_held
    | with_reducible apply launchPage_held
    | with_reducible apply addRec_held
    | fail)

theorem execJournalPageStart_held {p : List Instr} (s : State) (hs : Held p s) :
    HeldOut p (execJournalPageStart s) := by
  unfold execJournalPageStart
  repeat' (first
    | with_reducible assumption
    | with_reducible refine heldOut_next ?_
    | with_reducible refine held_ite ?_ ?_
    | with_reducible apply startSnapshot_held
    | with_reducible apply readSnapshot_held
    | with_reducible apply startRecords_held
    | fail)

theorem startFold_held {p : List Instr} (s : State) (hs : Held p s) :
    Held p (startFold s) := by
  unfold startFold
  repeat' (first
    | with_reducible assumption
    | with_reducible apply modJrnl_held
    | with_reducible apply addRec_held
    | fail)

theorem foldIfDue_held {p : List Instr} (s : State) (hs : Held p s) :
    Held p (foldIfDue s) := by
  unfold foldIfDue
  repeat' (first
    | with_reducible assumption
    | with_reducible refine held_ite ?_ ?_
    | with_reducible apply startFold_held
    | fail)

theorem cutFold_held {p : List Instr} (s : State) (hs : Held p s) :
    Held p (cutFold s) := by
  unfold cutFold
  repeat' (first
    | with_reducible assumption
    | with_reducible apply modJrnl_held
    | fail)

theorem putAnchor_held {p : List Instr} (bs : List Byte) (s : State) (hs : Held p s) :
    Held p (putAnchor bs s) := by
  unfold putAnchor
  repeat' (first
    | with_reducible assumption
    | with_reducible refine held_ite ?_ ?_
    | with_reducible apply eraseSector_held
    | with_reducible apply storeBytes_held
    | with_reducible apply modJrnl_held
    | fail)

theorem writeAnchor_held {p : List Instr} (s : State) (hs : Held p s) :
    Held p (writeAnchor s) := by
  unfold writeAnchor
  repeat' (first
    | with_reducible assumption
    | with_reducible refine held_ite ?_ ?_
    | with_reducible apply putAnchor_held
    | with_reducible apply dvSend_held
    | fail)

theorem journalEvent_held {p : List Instr} (cause : ℕ) (s : State) (hs : Held p s) :
    Held p (journalEvent cause s) := by
  unfold journalEvent
  repeat' (first
    | with_reducible assumption
    | with_reducible apply raisePriv_held
    | fail)

theorem endFold_held {p : List Instr} (s : State) (hs : Held p s) :
    Held p (endFold s) := by
  unfold endFold
  repeat' (first
    | with_reducible assumption
    | with_reducible refine held_ite ?_ ?_
    | with_reducible apply modJrnl_held
    | with_reducible apply writeAnchor_held
    | with_reducible apply journalEvent_held
    | with_reducible apply setConds_held
    | fail)

theorem pageDurable_held {p : List Instr} (a0 : JPage) (s : State) (hs : Held p s) :
    Held p (pageDurable a0 s) := by
  unfold pageDurable
  repeat' (first
    | with_reducible assumption
    | with_reducible refine held_ite ?_ ?_
    | with_reducible apply modJrnl_held
    | with_reducible apply endFold_held
    | with_reducible apply foldIfDue_held
    | fail)

theorem liveRecords_held {p : List Instr} (s : State) (hs : Held p s) :
    Held p (liveRecords s) := by
  unfold liveRecords
  repeat' (first
    | with_reducible assumption
    | with_reducible refine held_ite ?_ ?_
    | with_reducible apply addRec_held
    | with_reducible refine held_foldl (fun _ _ _ => ?_) _ ?_
    | fail)

theorem takePair_held {p : List Instr} (a : ℕ) (b : ℕ) (s : State) (hs : Held p s) :
    Held p (takePair a b s) := by
  unfold takePair
  repeat' (first
    | with_reducible assumption
    | with_reducible apply modJrnl_held
    | with_reducible apply winWrite_held
    | with_reducible apply eraseRing_held
    | fail)

theorem awaitPair_held {p : List Instr} (s : State) (hs : Held p s) :
    Held p (awaitPair s) := by
  unfold awaitPair
  repeat' (first
    | with_reducible assumption
    | with_reducible apply modJrnl_held
    | with_reducible apply cutFold_held
    | fail)

theorem movePair_held {p : List Instr} (s : State) (hs : Held p s) :
    Held p (movePair s) := by
  unfold movePair
  repeat' (first
    | with_reducible assumption
    | with_reducible refine held_ite ?_ ?_
    | with_reducible apply awaitPair_held
    | with_reducible apply startFold_held
    | with_reducible apply liveRecords_held
    | with_reducible apply takePair_held
    | with_reducible apply setConds_held
    | split
    | fail)

theorem disownCopies_held {p : List Instr} (cs : List ℕ) (s : State) (hs : Held p s) :
    Held p (disownCopies cs s) := by
  unfold disownCopies
  repeat' (first
    | with_reducible apply Held.upd (by assumption)
    | with_reducible exact id
    | fail)

theorem keepCopy_held {p : List Instr} (surv : ℕ) (s : State) (hs : Held p s) :
    Held p (keepCopy surv s) := by
  unfold keepCopy
  repeat' (first
    | with_reducible apply Held.upd (by assumption)
    | with_reducible exact id
    | fail)

theorem journalCopyFailed_held {p : List Instr} (copy : ℕ) (s : State) (hs : Held p s) :
    Held p (journalCopyFailed copy s) := by
  unfold journalCopyFailed
  repeat' (first
    | with_reducible assumption
    | with_reducible refine held_ite ?_ ?_
    | with_reducible apply modJrnl_held
    | with_reducible apply movePair_held
    | with_reducible apply journalEvent_held
    | with_reducible apply keepCopy_held
    | with_reducible apply disownCopies_held
    | with_reducible apply setConds_held
    | fail)

theorem journalLunFailed_held {p : List Instr} (u : ℕ) (s : State) (hs : Held p s) :
    Held p (journalLunFailed u s) := by
  unfold journalLunFailed
  repeat' (first
    | with_reducible assumption
    | with_reducible refine held_ite ?_ ?_
    | with_reducible apply journalCopyFailed_held
    | fail)

theorem journalProgramEnd_held {p : List Instr} (copy : ℕ) (ok : Bool) (s : State) (hs : Held p s) :
    Held p (journalProgramEnd copy ok s) := by
  unfold journalProgramEnd
  repeat' (first
    | with_reducible assumption
    | with_reducible refine held_ite ?_ ?_
    | with_reducible apply modJrnl_held
    | with_reducible apply journalCopyFailed_held
    | fail)

theorem journalEraseEnd_held {p : List Instr} (u : ℕ) (block : ℕ) (ok : Bool) (s : State) (hs : Held p s) :
    Held p (journalEraseEnd u block ok s) := by
  unfold journalEraseEnd
  repeat' (first
    | with_reducible assumption
    | with_reducible refine held_ite ?_ ?_
    | with_reducible apply modJrnl_held
    | with_reducible apply journalLunFailed_held
    | fail)

/-! ### Machine/Background.lean -/

theorem enterLosses_held {p : List Instr} (g : ℕ) (r : ℕ) (mask : ℕ) (cause : ℕ) (reads : List MemberRead) (s : State) (hs : Held p s) :
    Held p (enterLosses g r mask cause reads s) := by
  unfold enterLosses
  repeat' (first
    | with_reducible assumption
    | with_reducible refine held_ite ?_ ?_
    | with_reducible apply addLoss_held
    | with_reducible refine held_foldl (fun _ _ _ => ?_) _ ?_
    | fail)

theorem modRun_held {p : List Instr} (a0 : ℕ) (f : RowRun → RowRun) (s : State) (hs : Held p s) :
    Held p (modRun a0 f s) := by
  unfold modRun
  repeat' (first
    | with_reducible apply Held.upd (by assumption)
    | with_reducible exact id
    | fail)

theorem takeRow_held {p : List Instr} (r : RowRun) (s : State) (hs : Held p s) :
    Held p (takeRow r s) := by
  unfold takeRow
  repeat' (first
    | with_reducible apply Held.upd (by assumption)
    | with_reducible exact id
    | fail)

theorem dropReads_held {p : List Instr} (a0 : ℕ) (s : State) (hs : Held p s) :
    Held p (dropReads a0 s) := by
  unfold dropReads
  repeat' (first
    | with_reducible assumption
    | with_reducible exact id
    | (with_reducible apply Held.upd; on_goal 1 => (with_reducible apply withdraw_held))
    | fail)

theorem endRow_held {p : List Instr} (a0 : ℕ) (s : State) (hs : Held p s) :
    Held p (endRow a0 s) := by
  unfold endRow
  repeat' (first
    | with_reducible assumption
    | with_reducible exact id
    | (with_reducible apply Held.upd; on_goal 1 => (with_reducible apply dropReads_held))
    | fail)

theorem endRows_held {p : List Instr} (a0 : RowRun → Bool) (s : State) (hs : Held p s) :
    Held p (endRows a0 s) := by
  unfold endRows
  repeat' (first
    | with_reducible assumption
    | with_reducible apply endRow_held
    | with_reducible refine held_foldl (fun _ _ _ => ?_) _ ?_
    | fail)

theorem bgEvent_held {p : List Instr} (source : ℕ) (g : ℕ) (m : ℕ) (r : ℕ) (s : State) (hs : Held p s) :
    Held p (bgEvent source g m r s) := by
  unfold bgEvent
  repeat' (first
    | with_reducible apply raise_held
    | with_reducible apply Held.upd (by assumption)
    | with_reducible exact id
    | fail)

theorem setDegraded_held {p : List Instr} (s : State) (hs : Held p s) :
    Held p (setDegraded s) := by
  unfold setDegraded
  repeat' (first
    | with_reducible assumption
    | with_reducible apply setConds_held
    | fail)

theorem patrolRec_held {p : List Instr} (s : State) (hs : Held p s) :
    Held p (patrolRec s) := by
  unfold patrolRec
  repeat' (first
    | with_reducible assumption
    | with_reducible apply addRec_held
    | fail)

theorem patrolUpdate_held {p : List Instr} (s : State) (hs : Held p s) :
    Held p (patrolUpdate s) := by
  unfold patrolUpdate
  repeat' (first
    | with_reducible assumption
    | with_reducible refine held_ite ?_ ?_
    | with_reducible apply patrolRec_held
    | with_reducible apply Held.upd (by assumption)
    | with_reducible exact id
    | (extract_lets +onlyGivenNames x; refine (have hx : Held p x := ?_; ?_); on_goal 2 => try clear_value x; on_goal 1 => subst x)
    | (extract_lets +onlyGivenNames x; subst x)
    | fail)

theorem checkpointRec_held {p : List Instr} (s : State) (hs : Held p s) :
    Held p (checkpointRec s) := by
  unfold checkpointRec
  repeat' (first
    | with_reducible apply addRec_held
    | with_reducible apply Held.upd (by assumption)
    | with_reducible exact id
    | fail)

theorem pauseRefit_held {p : List Instr} (s : State) (hs : Held p s) :
    Held p (pauseRefit s) := by
  unfold pauseRefit
  repeat' (first
    | with_reducible assumption
    | with_reducible refine held_ite ?_ ?_
    | with_reducible apply checkpointRec_held
    | with_reducible apply Held.upd (by assumption)
    | with_reducible exact id
    | fail)

theorem rebuildCond_held {p : List Instr} (s : State) (hs : Held p s) :
    Held p (rebuildCond s) := by
  unfold rebuildCond
  repeat' (first
    | with_reducible assumption
    | with_reducible refine held_ite ?_ ?_
    | with_reducible apply pauseRefit_held
    | with_reducible apply patrolUpdate_held
    | with_reducible apply setConds_held
    | with_reducible apply Held.upd (by assumption)
    | with_reducible exact id
    | (with_reducible apply Held.upd; on_goal 1 => (with_reducible refine held_ite ?_ ?_))
    | fail)

theorem queueRebuild_held {p : List Instr} (g : ℕ) (failed : ℕ) (i : ℕ) (given : Option ℕ) (s : State) (hs : Held p s) :
    Held p (queueRebuild g failed i given s) := by
  unfold queueRebuild
  repeat' (first
    | with_reducible assumption
    | with_reducible apply rebuildCond_held
    | with_reducible exact id
    | (with_reducible apply Held.upd; on_goal 1 => (with_reducible apply addRec_held))
    | fail)

theorem autoRebuild_held {p : List Instr} (u : ℕ) (s : State) (hs : Held p s) :
    Held p (autoRebuild u s) := by
  unfold autoRebuild
  repeat' (first
    | with_reducible assumption
    | with_reducible refine held_ite ?_ ?_
    | with_reducible apply queueRebuild_held
    | with_reducible apply raise_held
    | split
    | fail)

theorem autoRebuilds_held {p : List Instr} (ms : List (ℕ × ℕ)) (s : State) (hs : Held p s) :
    Held p (autoRebuilds ms s) := by
  unfold autoRebuilds
  repeat' (first
    | with_reducible assumption
    | with_reducible apply autoRebuild_held
    | with_reducible refine held_foldl (fun _ _ _ => ?_) _ ?_
    | fail)

theorem leaveMember_held {p : List Instr} (s : State) (hs : Held p s) :
    Held p (leaveMember s) := by
  unfold leaveMember
  repeat' (first
    | with_reducible assumption
    | with_reducible exact id
    | (with_reducible apply Held.upd; on_goal 1 => (with_reducible apply endRows_held))
    | fail)

theorem popRebuild_held {p : List Instr} (s : State) (hs : Held p s) :
    Held p (popRebuild s) := by
  unfold popRebuild
  repeat' (first
    | with_reducible assumption
    | with_reducible apply rebuildCond_held
    | with_reducible exact id
    | (with_reducible apply Held.upd; on_goal 1 => (with_reducible apply leaveMember_held))
    | fail)

theorem freeSlots_held {p : List Instr} (gs : List ℕ) (s : State) (hs : Held p s) :
    Held p (freeSlots gs s) := by
  unfold freeSlots
  repeat' (first
    | with_reducible apply Held.upd (by assumption)
    | with_reducible exact id
    | (intro h; simpa only [List.length_set, List.length_modify, List.length_map] using h)
    | fail)

theorem eraseBlocks_held {p : List Instr} (ws : List Member) (s : State) (hs : Held p s) :
    Held p (eraseBlocks ws s) := by
  unfold eraseBlocks
  repeat' (first
    | with_reducible assumption
    | with_reducible refine held_ite ?_ ?_
    | with_reducible apply addErase_held
    | with_reducible refine held_foldl (fun _ _ _ => ?_) _ ?_
    | fail)

theorem abandonRefit_held {p : List Instr} (cause : ℕ) (s : State) (hs : Held p s) :
    Held p (abandonRefit cause s) := by
  unfold abandonRefit
  repeat' (first
    | with_reducible assumption
    | with_reducible refine held_ite ?_ ?_
    | with_reducible apply addRec_held
    | with_reducible apply endRows_held
    | with_reducible apply abortPopped_held
    | with_reducible apply withdraw_held
    | with_reducible apply freeSlots_held
    | with_reducible apply freeDir_held
    | with_reducible apply eraseBlocks_held
    | with_reducible apply writeDir_held
    | with_reducible apply patrolUpdate_held
    | with_reducible apply setConds_held
    | with_reducible apply raise_held
    | with_reducible apply setDegraded_held
    | with_reducible refine held_foldl (fun _ _ _ => ?_) _ ?_
    | with_reducible exact id
    | (with_reducible apply Held.upd; on_goal 1 => (with_reducible refine held_foldl (fun _ _ _ => ?_) _ ?_))
    | fail)

theorem declareDown_held {p : List Instr} (g : ℕ) (m : ℕ) (cause : ℕ) (s : State) (hs : Held p s) :
    Held p (declareDown g m cause s) := by
  unfold declareDown
  repeat' (first
    | with_reducible assumption
    | with_reducible refine held_ite ?_ ?_
    | with_reducible apply writeDir_held
    | with_reducible apply addRec_held
    | with_reducible apply raisePriv_held
    | with_reducible apply leaveMember_held
    | with_reducible apply abandonRefit_held
    | with_reducible apply closeGroup_held
    | with_reducible apply patrolUpdate_held
    | with_reducible apply setDegraded_held
    | fail)

theorem memberDown_held {p : List Instr} (g : ℕ) (m : ℕ) (cause : ℕ) (s : State) (hs : Held p s) :
    Held p (memberDown g m cause s) := by
  unfold memberDown
  repeat' (first
    | with_reducible assumption
    | with_reducible refine held_ite ?_ ?_
    | with_reducible apply declareDown_held
    | fail)

theorem lunDown_held {p : List Instr} (u : ℕ) (cause : ℕ) (s : State) (hs : Held p s) :
    Held p (lunDown u cause s) := by
  unfold lunDown
  repeat' (first
    | with_reducible assumption
    | with_reducible refine held_ite ?_ ?_
    | with_reducible apply memberDown_held
    | with_reducible apply modLun_held
    | with_reducible apply abandonRefit_held
    | with_reducible apply autoRebuilds_held
    | with_reducible apply journalLunFailed_held
    | with_reducible refine held_foldl (fun _ _ _ => ?_) _ ?_
    | fail)

theorem beginMember_held {p : List Instr} (r : Rebuild) (g : ℕ) (m : ℕ) (attempt : ℕ) (s : State) (hs : Held p s) :
    Held p (beginMember r g m attempt s) := by
  unfold beginMember
  repeat' (first
    | with_reducible apply addErase_held
    | with_reducible apply Held.upd (by assumption)
    | with_reducible exact id
    | fail)

theorem memberBegun_held {p : List Instr} (r : Rebuild) (s : State) (hs : Held p s) :
    Held p (memberBegun r s) := by
  unfold memberBegun
  repeat' (first
    | with_reducible apply writeDir_held
    | with_reducible apply addRec_held
    | with_reducible apply setDegraded_held
    | with_reducible apply Held.upd (by assumption)
    | with_reducible exact id
    | fail)

theorem abandonMember_held {p : List Instr} (s : State) (hs : Held p s) :
    Held p (abandonMember s) := by
  unfold abandonMember
  repeat' (first
    | with_reducible assumption
    | with_reducible refine held_ite ?_ ?_
    | with_reducible apply leaveMember_held
    | with_reducible apply declareDown_held
    | with_reducible apply addRec_held
    | with_reducible apply autoRebuilds_held
    | with_reducible exact id
    | (with_reducible apply Held.upd; on_goal 1 => (with_reducible apply raise_held))
    | fail)

theorem spareFailed_held {p : List Instr} (s : State) (hs : Held p s) :
    Held p (spareFailed s) := by
  unfold spareFailed
  repeat' (first
    | with_reducible assumption
    | with_reducible refine held_ite ?_ ?_
    | with_reducible apply beginMember_held
    | with_reducible apply endRows_held
    | with_reducible apply abandonMember_held
    | split
    | fail)

theorem programDown_held {p : List Instr} (g : ℕ) (m : ℕ) (s : State) (hs : Held p s) :
    Held p (programDown g m s) := by
  unfold programDown
  repeat' (first
    | with_reducible assumption
    | with_reducible refine held_ite ?_ ?_
    | with_reducible apply spareFailed_held
    | with_reducible apply autoRebuilds_held
    | with_reducible apply memberDown_held
    | fail)

theorem rebuildDone_held {p : List Instr} (s : State) (hs : Held p s) :
    Held p (rebuildDone s) := by
  unfold rebuildDone
  repeat' (first
    | with_reducible assumption
    | with_reducible apply writeDir_held
    | with_reducible apply addRec_held
    | with_reducible apply setDegraded_held
    | with_reducible exact id
    | (with_reducible apply Held.upd; on_goal 1 => (with_reducible apply leaveMember_held))
    | fail)

theorem reachEnd_held {p : List Instr} (s : State) (hs : Held p s) :
    Held p (reachEnd s) := by
  unfold reachEnd
  repeat' (first
    | with_reducible assumption
    | with_reducible refine held_ite ?_ ?_
    | with_reducible apply rebuildDone_held
    | with_reducible apply Held.upd (by assumption)
    | with_reducible exact id
    | (extract_lets +onlyGivenNames x; subst x)
    | split
    | fail)

theorem rebuildSeal_held {p : List Instr} (g : ℕ) (m : ℕ) (mask : ℕ) (reads : List MemberRead) (s : State) (hs : Held p s) :
    Held p (rebuildSeal g m mask reads s).2.2 := by
  unfold rebuildSeal
  repeat' (first
    | with_reducible assumption
    | with_reducible apply Held.upd (by assumption)
    | with_reducible exact id
    | (extract_lets +onlyGivenNames x; subst x)
    | split
    | fail)

theorem advance_held {p : List Instr} (s : State) (hs : Held p s) :
    Held p (advance s) := by
  unfold advance
  repeat' (first
    | with_reducible refine held_ite ?_ ?_
    | with_reducible apply addRec_held
    | with_reducible apply Held.upd (by assumption)
    | with_reducible exact id
    | fail)

theorem countFind_held {p : List Instr} (unread : ℕ) (silent : ℕ) (parity : ℕ) (unres : ℕ) (s : State) (hs : Held p s) :
    Held p (countFind unread silent parity unres s) := by
  unfold countFind
  repeat' (first
    | with_reducible apply Held.upd (by assumption)
    | with_reducible exact id
    | fail)

theorem patrolCw_held {p : List Instr} (g : ℕ) (r : ℕ) (mask : ℕ) (reads : List MemberRead) (s : State) (c : ℕ) (hs : Held p s) :
    Held p (patrolCw g r mask reads s c) := by
  unfold patrolCw
  repeat' (first
    | with_reducible assumption
    | with_reducible refine held_ite ?_ ?_
    | with_reducible apply bgEvent_held
    | with_reducible apply countFind_held
    | with_reducible apply addLoss_held
    | with_reducible refine held_foldl (fun _ _ _ => ?_) _ ?_
    | (extract_lets +onlyGivenNames x; refine (have hx : Held p x := ?_; ?_); on_goal 2 => try clear_value x; on_goal 1 => subst x)
    | (extract_lets +onlyGivenNames x; subst x)
    | split
    | fail)

theorem patrolOne_held {p : List Instr} (g : ℕ) (r : ℕ) (reads : List MemberRead) (s : State) (hs : Held p s) :
    Held p (patrolOne g r reads s) := by
  unfold patrolOne
  repeat' (first
    | with_reducible assumption
    | with_reducible refine held_ite ?_ ?_
    | with_reducible apply patrolCw_held
    | with_reducible apply patrolRec_held
    | with_reducible refine held_foldl (fun _ _ _ => ?_) _ ?_
    | with_reducible exact id
    | (extract_lets +onlyGivenNames x; subst x)
    | (with_reducible apply Held.upd; on_goal 1 => (with_reducible apply enterLosses_held))
    | (with_reducible apply Held.upd; on_goal 1 => (with_reducible apply Held.upd; on_goal 1 => (with_reducible apply enterLosses_held)))
    | fail)

theorem newLap_held {p : List Instr} (complete : Bool) (s : State) (hs : Held p s) :
    Held p (newLap complete s) := by
  unfold newLap
  repeat' (first
    | with_reducible assumption
    | with_reducible exact id
    | (with_reducible apply Held.upd; on_goal 1 => (with_reducible apply endRows_held))
    | fail)

theorem memberRecs_held {p : List Instr} (g : ℕ) (a1 : ℕ) : ∀ (a2 : ℕ) (a3 : List Member) (a4 : State), Held p a4 →
    Held p (memberRecs g a1 a2 a3 a4) := by
  induction a1 with
  | zero =>
    intro a2 a3 a4 h0
    first | rw [memberRecs] | unfold memberRecs
    repeat' (first
      | with_reducible assumption
      | fail)
  | succ _ ih =>
    intro a2 a3 a4 h0
    first | rw [memberRecs] | unfold memberRecs
    repeat' (first
      | with_reducible assumption
      | with_reducible apply ih
      | with_reducible refine held_ite ?_ ?_
      | with_reducible apply addRec_held
      | fail)

theorem openGroup_held {p : List Instr} (e : DirEntry) (s : State) (hs : Held p s) :
    Held p (openGroup e s) := by
  unfold openGroup
  repeat' (first
    | with_reducible assumption
    | with_reducible apply addRec_held
    | with_reducible apply memberRecs_held
    | with_reducible apply writeDir_held
    | fail)

theorem refitEraseEnd_held {p : List Instr} (ok : Bool) (s : State) (hs : Held p s) :
    Held p (refitEraseEnd ok s) := by
  unfold refitEraseEnd
  repeat' (first
    | with_reducible assumption
    | with_reducible refine held_ite ?_ ?_
    | with_reducible apply abandonRefit_held
    | with_reducible apply openGroup_held
    | with_reducible apply addRec_held
    | with_reducible refine held_foldl (fun _ _ _ => ?_) _ ?_
    | with_reducible apply Held.upd (by assumption)
    | with_reducible exact id
    | (extract_lets +onlyGivenNames x; refine (have hx : Held p x := ?_; ?_); on_goal 2 => try clear_value x; on_goal 1 => subst x)
    | (extract_lets +onlyGivenNames x; subst x)
    | fail)

theorem adoptRow_held {p : List Instr} (g : ℕ) (row : ℕ) (w : ℕ) (s : State) (hs : Held p s) :
    Held p (adoptRow g row w s) := by
  unfold adoptRow
  repeat' (first
    | with_reducible refine held_ite ?_ ?_
    | with_reducible apply addRec_held
    | with_reducible apply listShort_held
    | with_reducible apply writeDir_held
    | with_reducible apply Held.upd (by assumption)
    | with_reducible exact id
    | fail)

theorem afterTargetRow_held {p : List Instr} (n : ℕ) (total : ℕ) (s : State) (hs : Held p s) :
    Held p (afterTargetRow n total s) := by
  unfold afterTargetRow
  repeat' (first
    | with_reducible refine held_ite ?_ ?_
    | with_reducible apply pauseRefit_held
    | with_reducible apply checkpointRec_held
    | with_reducible apply Held.upd (by assumption)
    | with_reducible exact id
    | (with_reducible apply Held.upd; on_goal 1 => (with_reducible apply addRec_held))
    | fail)

theorem moveBinds_held {p : List Instr} (s : State) (hs : Held p s) :
    Held p (moveBinds s) := by
  unfold moveBinds
  repeat' (first
    | with_reducible assumption
    | with_reducible apply winWrite_held
    | with_reducible apply touchBinds_held
    | with_reducible apply writeDir_held
    | with_reducible refine held_foldl (fun _ _ _ => ?_) _ ?_
    | with_reducible apply Held.upd (by assumption)
    | with_reducible exact id
    | (extract_lets +onlyGivenNames x; subst x)
    | split
    | fail)

theorem commitRefit_held {p : List Instr} (s : State) (hs : Held p s) :
    Held p (commitRefit s) := by
  unfold commitRefit
  repeat' (first
    | with_reducible assumption
    | with_reducible apply moveBinds_held
    | with_reducible apply writeDir_held
    | with_reducible apply freeDir_held
    | with_reducible apply clearLedgerGroup_held
    | with_reducible apply patrolUpdate_held
    | with_reducible apply setConds_held
    | with_reducible apply raise_held
    | with_reducible apply setDegraded_held
    | with_reducible refine held_foldl (fun _ _ _ => ?_) _ ?_
    | with_reducible exact id
    | (with_reducible apply Held.upd; on_goal 1 => (with_reducible apply eraseBlocks_held))
    | fail)

theorem stopBackground_held {p : List Instr} (s : State) (hs : Held p s) :
    Held p (stopBackground s) := by
  unfold stopBackground
  repeat' (first
    | with_reducible assumption
    | with_reducible refine held_ite ?_ ?_
    | with_reducible apply endRows_held
    | with_reducible apply addRec_held
    | with_reducible apply checkpointRec_held
    | with_reducible apply patrolUpdate_held
    | fail)

theorem execDeclareLunFailed_held {p : List Instr} (lun : BitVec 16) (s : State) (hs : Held p s) :
    HeldOut p (execDeclareLunFailed lun s) := by
  unfold execDeclareLunFailed
  repeat' (first
    | with_reducible assumption
    | with_reducible refine heldOut_next ?_
    | with_reducible refine held_ite ?_ ?_
    | with_reducible apply lunDown_held
    | fail)

theorem retireMember_held {p : List Instr} (n : ℕ) (s : State) (hs : Held p s) :
    Held p (retireMember n s) := by
  unfold retireMember
  repeat' (first
    | with_reducible assumption
    | with_reducible refine held_ite ?_ ?_
    | with_reducible apply writeDir_held
    | with_reducible apply patrolUpdate_held
    | with_reducible apply setDegraded_held
    | with_reducible apply addRec_held
    | fail)

theorem execRetireMember_held {p : List Instr} (v : Sys2Proof.Word) (s : State) (hs : Held p s) :
    HeldOut p (execRetireMember v s) := by
  unfold execRetireMember
  repeat' (first
    | with_reducible assumption
    | with_reducible refine heldOut_next ?_
    | with_reducible refine held_ite ?_ ?_
    | with_reducible apply retireMember_held
    | fail)

theorem execLedgerClear_held {p : List Instr} (idx : BitVec 16) (s : State) (hs : Held p s) :
    HeldOut p (execLedgerClear idx s) := by
  unfold execLedgerClear
  repeat' (first
    | with_reducible assumption
    | with_reducible refine heldOut_next ?_
    | with_reducible refine held_ite ?_ ?_
    | with_reducible apply clearLedger_held
    | fail)

theorem execRefitAbort_held {p : List Instr} (v : Byte) (s : State) (hs : Held p s) :
    HeldOut p (execRefitAbort v s) := by
  unfold execRefitAbort
  repeat' (first
    | with_reducible assumption
    | with_reducible refine heldOut_next ?_
    | with_reducible refine held_ite ?_ ?_
    | with_reducible apply abandonRefit_held
    | fail)

theorem candidateWritten_held {p : List Instr} (sub : ℕ) (n : ℕ) (s : State) (hs : Held p s) :
    Held p (candidateWritten sub n s) := by
  unfold candidateWritten
  repeat' (first
    | with_reducible assumption
    | with_reducible refine held_ite ?_ ?_
    | with_reducible apply movePair_held
    | with_reducible apply Held.upd (by assumption)
    | with_reducible exact id
    | (unfold Dict.wf; with_reducible exact id)
    | fail)

/-! ### Machine/Operands.lean -/

theorem fetchList_held {p : List Instr} (e : Entry) (list : List Sys2Proof.HostRead) (s : State) (hs : Held p s) :
    Held p (fetchList e list s) := by
  unfold fetchList
  repeat' (first
    | with_reducible assumption
    | with_reducible refine held_ite ?_ ?_
    | with_reducible apply fetchHost_held
    | fail)

/-! ### Machine/Entries.lean -/

theorem grantFetch_held {p : List Instr} (n : ℕ) (newRound : Bool) (s : State) (hs : Held p s) :
    Held p (grantFetch n newRound s) := by
  unfold grantFetch
  repeat' (first
    | with_reducible assumption
    | with_reducible apply modRing_held
    | with_reducible apply Held.upd (by assumption)
    | with_reducible exact id
    | (intro h; simpa only [List.length_set, List.length_modify, List.length_map] using h)
    | (extract_lets +onlyGivenNames x; subst x)
    | (with_reducible apply Held.upd; on_goal 1 => (with_reducible refine held_ite ?_ ?_))
    | fail)

theorem dropEntry_held {p : List Instr} (eid : ℕ) (s : State) (hs : Held p s) :
    Held p (dropEntry eid s) := by
  unfold dropEntry
  repeat' (first
    | with_reducible apply Held.upd (by assumption)
    | with_reducible exact id
    | fail)

theorem pushEntry_held {p : List Instr} (e : Entry) (s : State) (hs : Held p s) :
    Held p (pushEntry e s) := by
  unfold pushEntry
  repeat' (first
    | with_reducible apply modRing_held
    | with_reducible apply Held.upd (by assumption)
    | with_reducible exact id
    | fail)

theorem writeCompl_held {p : List Instr} (e : Entry) (i : ℕ) (s : State) (hs : Held p s) :
    Held p (writeCompl e i s) := by
  unfold writeCompl
  repeat' (first
    | with_reducible assumption
    | with_reducible apply hostWrite_held
    | fail)

theorem writeOwn_held {p : List Instr} (e : Entry) (i : ℕ) (s : State) (hs : Held p s) :
    Held p (writeOwn e i s) := by
  unfold writeOwn
  repeat' (first
    | with_reducible assumption
    | with_reducible apply hostWrite_held
    | fail)

theorem stopRing_held {p : List Instr} (n : ℕ) (cause : ℕ) (index : ℕ) (s : State) (hs : Held p s) :
    Held p (stopRing n cause index s) := by
  unfold stopRing
  repeat' (first
    | with_reducible apply raise_held
    | with_reducible apply modRing_held
    | with_reducible apply Held.upd (by assumption)
    | with_reducible exact id
    | fail)

theorem latchStop_held {p : List Instr} (n : ℕ) (cause : ℕ) (index : ℕ) (s : State) (hs : Held p s) :
    Held p (latchStop n cause index s) := by
  unfold latchStop
  repeat' (first
    | with_reducible apply modRing_held
    | with_reducible apply Held.upd (by assumption)
    | with_reducible exact id
    | fail)

theorem settleStop_held {p : List Instr} (n : ℕ) (s : State) (hs : Held p s) :
    Held p (settleStop n s) := by
  unfold settleStop
  repeat' (first
    | with_reducible assumption
    | with_reducible refine held_ite ?_ ?_
    | with_reducible apply modRing_held
    | with_reducible apply latchStop_held
    | with_reducible apply stopRing_held
    | (extract_lets +onlyGivenNames x; refine (have hx : Held p x := ?_; ?_); on_goal 2 => try clear_value x; on_goal 1 => subst x)
    | split
    | fail)

theorem undoOpen_held {p : List Instr} (e : Entry) (s : State) (hs : Held p s) :
    Held p (undoOpen e s) := by
  unfold undoOpen
  repeat' (first
    | with_reducible assumption
    | with_reducible refine held_ite ?_ ?_
    | with_reducible apply Held.upd (by assumption)
    | with_reducible exact id
    | fail)

theorem tellAccums_held {p : List Instr} (handle : ℕ) (body : List Sys2Proof.Byte) (s : State) (hs : Held p s) :
    Held p (tellAccums handle body s) := by
  unfold tellAccums
  repeat' (first
    | with_reducible assumption
    | with_reducible refine held_ite ?_ ?_
    | with_reducible apply dvSend_held
    | with_reducible apply Held.upd (by assumption)
    | with_reducible exact id
    | fail)

theorem dropAccum_held {p : List Instr} (s : State) (hs : Held p s) :
    Held p (dropAccum s) := by
  unfold dropAccum
  repeat' (first
    | with_reducible apply Held.upd (by assumption)
    | with_reducible exact id
    | (with_reducible apply Held.upd; on_goal 1 => (with_reducible apply tellAccums_held))
    | fail)

theorem abortEntry_held {p : List Instr} (st : ℕ) (det : ℕ) (s : State) (e : Entry) (hs : Held p s) :
    Held p (abortEntry st det s e) := by
  unfold abortEntry
  repeat' (first
    | with_reducible assumption
    | with_reducible apply undoOpen_held
    | with_reducible apply abortPopped_held
    | with_reducible apply withdraw_held
    | with_reducible apply dropAccum_held
    | with_reducible apply modRing_held
    | with_reducible apply modEntry_held
    | with_reducible exact id
    | (with_reducible apply Held.upd; on_goal 1 => (with_reducible refine held_ite ?_ ?_))
    | fail)

theorem stopAt_held {p : List Instr} (e : Entry) (cause : ℕ) (s : State) (hs : Held p s) :
    Held p (stopAt e cause s) := by
  unfold stopAt
  repeat' (first
    | with_reducible assumption
    | with_reducible apply abortEntry_held
    | with_reducible apply modRing_held
    | with_reducible exact id
    | (extract_lets +onlyGivenNames x; subst x)
    | (with_reducible apply Held.upd; on_goal 1 => (with_reducible refine held_foldl (fun _ _ _ => ?_) _ ?_))
    | fail)

theorem advanceHead_held {p : List Instr} (n : ℕ) (units : ℕ) (s : State) (hs : Held p s) :
    Held p (advanceHead n units s) := by
  unfold advanceHead
  repeat' (first
    | with_reducible assumption
    | with_reducible apply modRing_held
    | fail)

theorem takeEntry_held {p : List Instr} (n : ℕ) (a1 : Head0) (rest : List Byte) (s : State) (hs : Held p s) :
    Held p (takeEntry n a1 rest s) := by
  unfold takeEntry
  repeat' (first
    | with_reducible assumption
    | with_reducible refine held_ite ?_ ?_
    | with_reducible apply modRing_held
    | with_reducible apply pushEntry_held
    | with_reducible exact id
    | (extract_lets +onlyGivenNames x; refine (have hx : Held p x := ?_; ?_); on_goal 2 => try clear_value x; on_goal 1 => subst x)
    | (extract_lets +onlyGivenNames x; subst x)
    | split
    | (with_reducible apply Held.upd; on_goal 1 => (with_reducible apply modEntry_held))
    | (with_reducible apply Held.upd; on_goal 1 => (with_reducible apply Held.upd; on_goal 1 => (with_reducible apply modEntry_held)))
    | fail)

theorem takeBad_held {p : List Instr} (n : ℕ) (cause : ℕ) (units : ℕ) (h : Head0) (s : State) (hs : Held p s) :
    Held p (takeBad n cause units h s) := by
  unfold takeBad
  repeat' (first
    | with_reducible assumption
    | with_reducible apply modEntry_held
    | with_reducible apply pushEntry_held
    | with_reducible apply modRing_held
    | with_reducible apply Held.upd (by assumption)
    | with_reducible exact id
    | (with_reducible apply Held.upd; on_goal 1 => (with_reducible apply abortEntry_held))
    | (extract_lets +onlyGivenNames x; subst x)
    | split
    | fail)

theorem fetchOwned_held {p : List Instr} (n : ℕ) (a1 : Head0) (rest : HostRead) (s : State) (hs : Held p s) :
    Held p (fetchOwned n a1 rest s) := by
  unfold fetchOwned
  repeat' (first
    | with_reducible assumption
    | with_reducible refine held_ite ?_ ?_
    | with_reducible apply takeBad_held
    | with_reducible apply stopRing_held
    | with_reducible apply advanceHead_held
    | with_reducible apply takeEntry_held
    | split
    | fail)

theorem readIfMissed_held {p : List Instr} (s : State) (g : ℕ) (hs : Held p s) :
    Held p (readIfMissed s g) := by
  unfold readIfMissed
  repeat' (first
    | with_reducible assumption
    | with_reducible refine held_ite ?_ ?_
    | with_reducible apply Held.upd (by assumption)
    | with_reducible exact id
    | fail)

theorem missIfNeeded_held {p : List Instr} (n : ℕ) (s : State) (hs : Held p s) :
    Held p (missIfNeeded n s) := by
  unfold missIfNeeded
  repeat' (first
    | with_reducible assumption
    | with_reducible refine held_ite ?_ ?_
    | with_reducible apply lookUpBinds_held
    | with_reducible apply readIfMissed_held
    | with_reducible refine held_foldl (fun _ _ _ => ?_) _ ?_
    | split
    | fail)

theorem execRingFetch_held {p : List Instr} (n : ℕ) (unit0 : Sys2Proof.HostRead) (rest : Sys2Proof.HostRead) (s : State) (hs : Held p s) :
    HeldOut p (execRingFetch n unit0 rest s) := by
  unfold execRingFetch
  repeat' (first
    | with_reducible assumption
    | with_reducible refine heldOut_checked ?_
    | with_reducible refine held_ite ?_ ?_
    | with_reducible apply grantFetch_held
    | with_reducible apply fetchHost_held
    | with_reducible apply modRing_held
    | with_reducible apply stopRing_held
    | with_reducible apply missIfNeeded_held
    | with_reducible apply fetchOwned_held
    | (extract_lets +onlyGivenNames x; refine (have hx : Held p x := ?_; ?_); on_goal 2 => try clear_value x; on_goal 1 => subst x)
    | (extract_lets +onlyGivenNames x; subst x)
    | split
    | fail)

theorem endWalk_held {p : List Instr} (n : ℕ) (s : State) (hs : Held p s) :
    Held p (endWalk n s) := by
  unfold endWalk
  repeat' (first
    | with_reducible assumption
    | with_reducible apply modRing_held
    | fail)

theorem walkStops_held {p : List Instr} (n : ℕ) (cause : ℕ) (units : ℕ) (h : Head0) (s : State) (hs : Held p s) :
    Held p (walkStops n cause units h s) := by
  unfold walkStops
  repeat' (first
    | with_reducible assumption
    | with_reducible apply latchStop_held
    | with_reducible apply pushEntry_held
    | with_reducible apply endWalk_held
    | fail)

theorem walkTakes_held {p : List Instr} (n : ℕ) (h : Head0) (bs : List Sys2Proof.Byte) (more : List Sys2Proof.HostRead) (s : State) (hs : Held p s) :
    Held p (walkTakes n h bs more s) := by
  unfold walkTakes
  repeat' (first
    | with_reducible assumption
    | with_reducible apply modRing_held
    | with_reducible apply advanceHead_held
    | with_reducible apply pushEntry_held
    | fail)

theorem walkStep_held {p : List Instr} (n : ℕ) (s : State) (hs : Held p s) :
    Held p (walkStep n s) := by
  unfold walkStep
  repeat' (first
    | with_reducible assumption
    | with_reducible refine held_ite ?_ ?_
    | with_reducible apply endWalk_held
    | with_reducible apply fetchHost_held
    | with_reducible apply modRing_held
    | with_reducible apply latchStop_held
    | with_reducible apply walkStops_held
    | with_reducible apply walkTakes_held
    | (extract_lets +onlyGivenNames x; refine (have hx : Held p x := ?_; ?_); on_goal 2 => try clear_value x; on_goal 1 => subst x)
    | (extract_lets +onlyGivenNames x; subst x)
    | split
    | fail)

theorem disableRing_held {p : List Instr} (n : ℕ) (s : State) (hs : Held p s) :
    Held p (disableRing n s) := by
  unfold disableRing
  repeat' (first
    | with_reducible assumption
    | with_reducible apply raise_held
    | with_reducible apply modRing_held
    | fail)

theorem settleShutdown_held {p : List Instr} (n : ℕ) (s : State) (hs : Held p s) :
    Held p (settleShutdown n s) := by
  unfold settleShutdown
  repeat' (first
    | with_reducible assumption
    | with_reducible refine held_ite ?_ ?_
    | with_reducible apply disableRing_held
    | with_reducible apply walkStep_held
    | fail)

theorem settleRestart_held {p : List Instr} (n : ℕ) (s : State) (hs : Held p s) :
    Held p (settleRestart n s) := by
  unfold settleRestart
  repeat' (first
    | with_reducible assumption
    | with_reducible refine held_ite ?_ ?_
    | with_reducible apply setRing_held
    | fail)

theorem settleRing_held {p : List Instr} (n : ℕ) (s : State) (hs : Held p s) :
    Held p (settleRing n s) := by
  unfold settleRing
  repeat' (first
    | with_reducible assumption
    | with_reducible apply settleRestart_held
    | with_reducible apply settleShutdown_held
    | with_reducible apply settleStop_held
    | fail)

theorem settleRings_held {p : List Instr} (s : State) (hs : Held p s) :
    Held p (settleRings s) := by
  unfold settleRings
  repeat' (first
    | with_reducible assumption
    | with_reducible refine held_ite ?_ ?_
    | with_reducible apply settleRing_held
    | with_reducible refine held_foldl (fun _ _ _ => ?_) _ ?_
    | fail)

theorem enableRing_held {p : List Instr} (n : ℕ) (s : State) (hs : Held p s) :
    Held p (enableRing n s) := by
  unfold enableRing
  repeat' (first
    | with_reducible assumption
    | with_reducible refine held_ite ?_ ?_
    | with_reducible apply setRing_held
    | fail)

theorem execRingEnable_held {p : List Instr} (n : ℕ) (s : State) (hs : Held p s) :
    HeldOut p (execRingEnable n s) := by
  unfold execRingEnable
  repeat' (first
    | with_reducible assumption
    | with_reducible refine heldOut_checked ?_
    | with_reducible apply enableRing_held
    | fail)

theorem doorbell_held {p : List Instr} (n : ℕ) (s : State) (hs : Held p s) :
    Held p (doorbell n s) := by
  unfold doorbell
  repeat' (first
    | with_reducible assumption
    | with_reducible apply setRing_held
    | (extract_lets +onlyGivenNames x; subst x)
    | split
    | fail)

theorem execRingDoorbell_held {p : List Instr} (n : ℕ) (_v : Word) (s : State) (hs : Held p s) :
    HeldOut p (execRingDoorbell n _v s) := by
  unfold execRingDoorbell
  repeat' (first
    | with_reducible assumption
    | with_reducible refine heldOut_checked ?_
    | with_reducible apply doorbell_held
    | with_reducible apply wake_held
    | fail)

theorem restartRing_held {p : List Instr} (n : ℕ) (s : State) (hs : Held p s) :
    Held p (restartRing n s) := by
  unfold restartRing
  repeat' (first
    | with_reducible assumption
    | with_reducible refine held_ite ?_ ?_
    | with_reducible apply settleRestart_held
    | with_reducible apply modRing_held
    | fail)

theorem execRingRestart_held {p : List Instr} (n : ℕ) (s : State) (hs : Held p s) :
    HeldOut p (execRingRestart n s) := by
  unfold execRingRestart
  repeat' (first
    | with_reducible assumption
    | with_reducible refine heldOut_checked ?_
    | with_reducible apply restartRing_held
    | fail)

theorem shutdownRing_held {p : List Instr} (n : ℕ) (walk : List HostRead) (s : State) (hs : Held p s) :
    Held p (shutdownRing n walk s) := by
  unfold shutdownRing
  repeat' (first
    | with_reducible assumption
    | with_reducible refine held_ite ?_ ?_
    | with_reducible apply modRing_held
    | with_reducible apply abortEntry_held
    | with_reducible apply shutdownWalk_held
    | with_reducible apply settleRing_held
    | with_reducible refine held_foldl (fun _ _ _ => ?_) _ ?_
    | fail)

theorem execRingShutdown_held {p : List Instr} (n : ℕ) (walk : List HostRead) (s : State) (hs : Held p s) :
    HeldOut p (execRingShutdown n walk s) := by
  unfold execRingShutdown
  repeat' (first
    | with_reducible assumption
    | with_reducible refine heldOut_checked ?_
    | with_reducible apply shutdownRing_held
    | fail)

theorem countEntry_held {p : List Instr} (e : Entry) (s : State) (hs : Held p s) :
    Held p (countEntry e s) := by
  unfold countEntry
  repeat' (first
    | with_reducible apply Held.upd (by assumption)
    | with_reducible exact id
    | fail)

theorem partDone_held {p : List Instr} (e : Entry) (s : State) (hs : Held p s) :
    Held p (partDone e s) := by
  unfold partDone
  repeat' (first
    | with_reducible assumption
    | with_reducible refine held_ite ?_ ?_
    | with_reducible apply modRing_held
    | with_reducible apply raise_held
    | fail)

theorem entryGone_held {p : List Instr} (e : Entry) (s : State) (hs : Held p s) :
    Held p (entryGone e s) := by
  unfold entryGone
  repeat' (first
    | with_reducible assumption
    | with_reducible refine held_ite ?_ ?_
    | with_reducible apply raise_held
    | with_reducible apply countEntry_held
    | with_reducible apply dropEntry_held
    | with_reducible apply settleRing_held
    | with_reducible apply modRing_held
    | with_reducible apply Held.upd (by assumption)
    | with_reducible exact id
    | (extract_lets +onlyGivenNames x; subst x)
    | split
    | (with_reducible apply Held.upd; on_goal 1 => (with_reducible apply raise_held))
    | fail)

theorem nextWrite_held {p : List Instr} (e : Entry) (s : State) (hs : Held p s) :
    Held p (nextWrite e s) := by
  unfold nextWrite
  repeat' (first
    | with_reducible assumption
    | with_reducible refine held_ite ?_ ?_
    | with_reducible apply writeOwn_held
    | with_reducible apply writeCompl_held
    | fail)

theorem completeEntry_held {p : List Instr} (eid : ℕ) (s : State) (hs : Held p s) :
    Held p (completeEntry eid s) := by
  unfold completeEntry
  repeat' (first
    | with_reducible assumption
    | with_reducible refine held_ite ?_ ?_
    | with_reducible apply writeCompl_held
    | with_reducible apply modEntry_held
    | with_reducible apply nextWrite_held
    | split
    | fail)

theorem complAcked_held {p : List Instr} (eid : ℕ) (part : ℕ) (own : Bool) (s : State) (hs : Held p s) :
    Held p (complAcked eid part own s) := by
  unfold complAcked
  repeat' (first
    | with_reducible assumption
    | with_reducible refine held_ite ?_ ?_
    | with_reducible apply modEntry_held
    | with_reducible apply partDone_held
    | with_reducible apply entryGone_held
    | with_reducible apply nextWrite_held
    | (extract_lets +onlyGivenNames x; refine (have hx : Held p x := ?_; ?_); on_goal 2 => try clear_value x; on_goal 1 => subst x)
    | split
    | fail)

theorem neverWritten_held {p : List Instr} (e : Entry) (s : State) (hs : Held p s) :
    Held p (neverWritten e s) := by
  unfold neverWritten
  repeat' (first
    | with_reducible assumption
    | with_reducible apply Held.upd (by assumption)
    | with_reducible exact id
    | (extract_lets +onlyGivenNames x; subst x)
    | split
    | fail)

theorem complFailed_held {p : List Instr} (eid : ℕ) (part : ℕ) (s : State) (hs : Held p s) :
    Held p (complFailed eid part s) := by
  unfold complFailed
  repeat' (first
    | with_reducible assumption
    | with_reducible refine held_ite ?_ ?_
    | with_reducible apply modRing_held
    | with_reducible apply dropEntry_held
    | with_reducible apply neverWritten_held
    | with_reducible apply settleRing_held
    | with_reducible apply latchStop_held
    | with_reducible apply stopRing_held
    | split
    | fail)

/-! ### Machine/Thresholds.lean -/

theorem useTrued_held {p : List Instr} (u : ℕ) (b : ℕ) (z : ℕ) (s : State) (hs : Held p s) :
    Held p (useTrued u b z s) := by
  unfold useTrued
  repeat' (first
    | with_reducible apply Held.upd (by assumption)
    | with_reducible exact id
    | fail)

theorem readDose_held {p : List Instr} (u : ℕ) (b : ℕ) (s : State) (hs : Held p s) :
    Held p (readDose u b s) := by
  unfold readDose
  repeat' (first
    | with_reducible assumption
    | with_reducible apply hostReadData_held
    | fail)

theorem useDose_held {p : List Instr} (u : ℕ) (b : ℕ) (s : State) (hs : Held p s) :
    Held p (useDose u b s).2 := by
  unfold useDose
  repeat' (first
    | with_reducible assumption
    | with_reducible apply touchDose_held
    | with_reducible apply readDose_held
    | split
    | fail)

theorem doseArrived_held {p : List Instr} (u : ℕ) (b : ℕ) (s : State) (hs : Held p s) :
    Held p (doseArrived u b s) := by
  unfold doseArrived
  repeat' (first
    | with_reducible assumption
    | with_reducible apply touchDose_held
    | with_reducible apply sendJob_held
    | with_reducible refine held_foldl (fun _ _ _ => ?_) _ ?_
    | with_reducible apply Held.upd (by assumption)
    | with_reducible exact id
    | fail)

theorem addPageJob_held {p : List Instr} (owner : Owner) (a1 : Page) (mask : ℕ) (slot : ℕ) (prio : ℕ) (step : ℕ) (feats : List (ℕ × ℕ)) (items : List (BitVec 128)) (s : State) (hs : Held p s) :
    Held p (addPageJob owner a1 mask slot prio step feats items s).2 := by
  unfold addPageJob
  repeat' (first
    | with_reducible assumption
    | with_reducible apply useDose_held
    | with_reducible apply addJob_held
    | fail)

theorem addRead_held {p : List Instr} (owner : Owner) (a1 : Page) (mask : ℕ) (slot : ℕ) (prio : ℕ) (step : ℕ) (tag : ℕ) (off : List ℤ) (s : State) (hs : Held p s) :
    Held p (addRead owner a1 mask slot prio step tag off s).2 := by
  unfold addRead
  repeat' (first
    | with_reducible assumption
    | with_reducible refine held_ite ?_ ?_
    | with_reducible apply useTrued_held
    | with_reducible apply addPageJob_held
    | fail)

theorem addSense_held {p : List Instr} (owner : Owner) (a1 : Page) (mask : ℕ) (slot : ℕ) (prio : ℕ) (step : ℕ) (tag : ℕ) (i : ℕ) (off : List ℤ) (s : State) (hs : Held p s) :
    Held p (addSense owner a1 mask slot prio step tag i off s).2 := by
  unfold addSense
  repeat' (first
    | with_reducible assumption
    | with_reducible apply addPageJob_held
    | fail)

theorem addRetry_held {p : List Instr} (owner : Owner) (a1 : Page) (mask : ℕ) (slot : ℕ) (prio : ℕ) (i : ℕ) (s : State) (hs : Held p s) :
    Held p (addRetry owner a1 mask slot prio i s).2 := by
  unfold addRetry
  repeat' (first
    | with_reducible assumption
    | with_reducible apply clearResident_held
    | with_reducible apply addJob_held
    | fail)

/-! ### Machine/Reads.lean -/

theorem modCw_held {p : List Instr} (job : ℕ) (cw : ℕ) (f : Cw → Cw) (s : State) (hs : Held p s) :
    Held p (modCw job cw f s) := by
  unfold modCw
  repeat' (first
    | with_reducible apply Held.upd (by assumption)
    | with_reducible exact id
    | fail)

theorem dropCw_held {p : List Instr} (job : ℕ) (cw : ℕ) (s : State) (hs : Held p s) :
    Held p (dropCw job cw s) := by
  unfold dropCw
  repeat' (first
    | with_reducible apply Held.upd (by assumption)
    | with_reducible exact id
    | fail)

theorem dropJobs_held {p : List Instr} (s : State) (hs : Held p s) :
    Held p (dropJobs s) := by
  unfold dropJobs
  repeat' (first
    | with_reducible apply Held.upd (by assumption)
    | with_reducible exact id
    | fail)

theorem deliverAt_held {p : List Instr} (eid : ℕ) (pos : ℕ) (slot : ℕ) (bs : List Byte) (s : State) (hs : Held p s) :
    Held p (deliverAt eid pos slot bs s) := by
  unfold deliverAt
  repeat' (first
    | with_reducible assumption
    | with_reducible apply hostWriteData_held
    | with_reducible apply modEntry_held
    | with_reducible refine held_foldl_fst (fun _ _ _ => ?_) _ ?_
    | split
    | fail)

theorem loseCw_held {p : List Instr} (eid : ℕ) (det : ℕ) (s : State) (hs : Held p s) :
    Held p (loseCw eid det s) := by
  unfold loseCw
  repeat' (first
    | with_reducible assumption
    | with_reducible apply noteStatus_held
    | with_reducible apply modEntry_held
    | fail)

theorem awaitRecord_held {p : List Instr} (eid : ℕ) (s : State) (hs : Held p s) :
    Held p (awaitRecord eid s) := by
  unfold awaitRecord
  repeat' (first
    | with_reducible assumption
    | with_reducible apply modEntry_held
    | fail)

theorem noteLadder_held {p : List Instr} (c : Cw) (step : ℕ) (leaves : Bool) (s : State) (hs : Held p s) :
    Held p (noteLadder c step leaves s) := by
  unfold noteLadder
  repeat' (first
    | with_reducible assumption
    | with_reducible apply modEntry_held
    | split
    | fail)

theorem clearBad_held {p : List Instr} (off : ℕ) (s : State) (hs : Held p s) :
    Held p (clearBad off s) := by
  unfold clearBad
  repeat' (first
    | with_reducible apply Held.upd (by assumption)
    | with_reducible exact id
    | (unfold Sram.wf; with_reducible exact id)
    | fail)

theorem rereadCw_held {p : List Instr} (c : Cw) (a1 : Page) (prio : ℕ) (owner : Owner) (s : State) (hs : Held p s) :
    Held p (rereadCw c a1 prio owner s) := by
  unfold rereadCw
  repeat' (first
    | with_reducible assumption
    | with_reducible exact id
    | (extract_lets +onlyGivenNames x; subst x)
    | split
    | (with_reducible apply Held.upd; on_goal 1 => (with_reducible refine held_snd (by assumption) ?_; with_reducible apply addRead_held))
    | fail)

theorem sendCw_held {p : List Instr} (r : Remote) (c : Cw) (bs : List Sys2Proof.Byte) (label : List Sys2Proof.Byte × Bool × State) (hlabel : Held p label.2.2) :
    Held p (sendCw r c bs label) := by
  unfold sendCw
  repeat' (first
    | with_reducible assumption
    | with_reducible apply dvSend_held
    | fail)

theorem deliverRemote_held {p : List Instr} (c : Cw) (bs : List Sys2Proof.Byte) (s : State) (hs : Held p s) :
    Held p (deliverRemote c bs s) := by
  unfold deliverRemote
  repeat' (first
    | with_reducible assumption
    | with_reducible refine held_ite ?_ ?_
    | with_reducible apply hostWriteData_held
    | with_reducible apply sendCw_held
    | with_reducible apply sramRead_held
    | with_reducible refine held_foldl_fst (fun _ _ _ => ?_) _ ?_
    | split
    | fail)

theorem landRead_held {p : List Instr} (c : Cw) (bs : List Byte) (ok : Bool) (s : State) (hs : Held p s) :
    Held p (landRead c bs ok s) := by
  unfold landRead
  repeat' (first
    | with_reducible assumption
    | with_reducible refine held_ite ?_ ?_
    | with_reducible apply clearBad_held
    | with_reducible apply modCw_held
    | with_reducible apply deliverAt_held
    | with_reducible apply deliverRemote_held
    | with_reducible apply noteStatus_held
    | with_reducible apply dropCw_held
    | with_reducible apply rereadCw_held
    | (extract_lets +onlyGivenNames x; refine (have hx : Held p x := ?_; ?_); on_goal 2 => try clear_value x; on_goal 1 => subst x)
    | split
    | (with_reducible apply Held.upd; on_goal 1 => (with_reducible apply Held.upd; on_goal 1 => (with_reducible apply dropCw_held)))
    | (with_reducible apply Held.upd; on_goal 1 => (with_reducible apply Held.upd; on_goal 1 => (with_reducible apply rereadCw_held)))
    | (unfold x)
    | (with_reducible refine held_snd (by assumption) ?_; split)
    | (intro h; exact h)
    | intro _
    | fail)

theorem landLabel_held {p : List Instr} (c : Cw) (label : List Sys2Proof.Byte) (s : State) (hs : Held p s) :
    Held p (landLabel c label s) := by
  unfold landLabel
  repeat' (first
    | with_reducible assumption
    | with_reducible refine held_ite ?_ ?_
    | with_reducible apply sramWrite_held
    | fail)

theorem landCw_held {p : List Instr} (c : Cw) (data : List Byte) (s : State) (hs : Held p s) :
    Held p (landCw c data s) := by
  unfold landCw
  exact landRead_held _ _ _ _ (sramRead_held _ _ _ (sramWrite_held _ _ _ hs))

theorem countLost_held {p : List Instr} (n : ℕ) (s : State) (hs : Held p s) :
    Held p (countLost n s) := by
  unfold countLost
  repeat' (first
    | with_reducible apply Held.upd (by assumption)
    | with_reducible exact id
    | fail)

theorem endClimb_held {p : List Instr} (c : Cw) (s : State) (hs : Held p s) :
    Held p (endClimb c s) := by
  unfold endClimb
  repeat' (first
    | with_reducible assumption
    | with_reducible apply countLost_held
    | with_reducible apply loseCw_held
    | with_reducible apply dropCw_held
    | with_reducible apply modCw_held
    | (extract_lets +onlyGivenNames x; refine (have hx : Held p x := ?_; ?_); on_goal 2 => try clear_value x; on_goal 1 => subst x)
    | split
    | fail)

theorem failCw_held {p : List Instr} (c : Cw) (spent : Bool) (s : State) (hs : Held p s) :
    Held p (failCw c spent s) := by
  unfold failCw
  repeat' (first
    | with_reducible assumption
    | with_reducible refine held_ite ?_ ?_
    | with_reducible apply modCw_held
    | with_reducible apply endClimb_held
    | fail)

theorem moveCws_held {p : List Instr} (cs : List Cw) (h : ℕ) (slot : ℕ) (step : ℕ) (f : Cw → Cw) (s : State) (hs : Held p s) :
    Held p (moveCws cs h slot step f s) := by
  unfold moveCws
  repeat' (first
    | with_reducible apply Held.upd (by assumption)
    | with_reducible exact id
    | fail)

theorem reread_held {p : List Instr} (cs : List Cw) (step : ℕ) (add : ℕ → ℕ → State → ℕ × State) (f : Cw → Cw) (s : State)
    (ha : ∀ m h u, Held p u → Held p (add m h u).2) (hs : Held p s) : Held p (reread cs step add f s) := by
  unfold reread
  refine dropJobs_held _ (held_foldl (fun s g h => ?_) _ hs)
  exact moveCws_held _ _ _ _ _ _ (ha _ _ _ h)

theorem noteStep_held {p : List Instr} (cs : List Cw) (step : ℕ) (s : State) (hs : Held p s) :
    Held p (noteStep cs step s) := by
  unfold noteStep
  repeat' (first
    | with_reducible assumption
    | with_reducible apply noteLadder_held
    | with_reducible refine held_foldl (fun _ _ _ => ?_) _ ?_
    | fail)

theorem execPredictedThresholds_held {p : List Instr} (job : ℕ) (s : State) (hs : Held p s) :
    HeldOut p (execPredictedThresholds job s) := by
  unfold execPredictedThresholds
  repeat' (first
    | with_reducible assumption
    | with_reducible refine heldOut_next ?_
    | with_reducible apply reread_held
    | with_reducible apply addRead_held
    | with_reducible apply noteStep_held
    | split
    | intro _
    | fail)

theorem execRetryTable_held {p : List Instr} (job : ℕ) (s : State) (hs : Held p s) :
    HeldOut p (execRetryTable job s) := by
  unfold execRetryTable
  repeat' (first
    | with_reducible assumption
    | with_reducible refine heldOut_next ?_
    | with_reducible apply reread_held
    | with_reducible apply addRetry_held
    | with_reducible apply noteStep_held
    | split
    | intro _
    | fail)

theorem startMemberRead_held {p : List Instr} (e : Entry) (m : ℕ) (s : State) (hs : Held p s) :
    HeldOpt p (startMemberRead e m s) := by
  unfold startMemberRead
  repeat' (first
    | with_reducible refine heldOpt_some ?_
    | with_reducible exact heldOpt_none
    | with_reducible refine heldOpt_ite ?_ ?_
    | with_reducible assumption
    | with_reducible refine held_ite ?_ ?_
    | with_reducible apply modEntry_held
    | with_reducible apply deliverAt_held
    | with_reducible apply loseCw_held
    | with_reducible apply noteLadder_held
    | with_reducible apply endClimb_held
    | with_reducible refine held_foldl (fun _ _ _ => ?_) _ ?_
    | with_reducible exact id
    | (extract_lets +onlyGivenNames x; subst x)
    | split
    | (with_reducible apply Held.upd; on_goal 1 => (with_reducible apply modEntry_held))
    | (with_reducible apply Held.upd; on_goal 1 => (with_reducible apply Held.upd; on_goal 1 => (with_reducible apply loseCw_held)))
    | (with_reducible apply Held.upd; on_goal 1 => (with_reducible apply Held.upd; on_goal 1 => (with_reducible apply noteLadder_held)))
    | (with_reducible apply Held.upd; on_goal 1 => (with_reducible apply Held.upd; on_goal 1 => (with_reducible apply endClimb_held)))
    | (with_reducible apply Held.upd; on_goal 1 => (with_reducible apply Held.upd; on_goal 1 => (with_reducible apply addRead_held)))
    | (unfold x)
    | (with_reducible apply Held.upd; on_goal 1 => (with_reducible refine held_snd (by assumption) ?_; with_reducible apply addRead_held))
    | (with_reducible apply Held.upd; on_goal 1 => (with_reducible refine held_third (by assumption) ?_; with_reducible apply addRead_held))
    | (with_reducible apply Held.upd; on_goal 1 => (with_reducible apply addRead_held))
    | (with_reducible refine held_snd (by assumption) ?_; split)
    | (intro h; exact h)
    | intro _
    | fail)

theorem pumpReads_held {p : List Instr} (s : State) (hs : Held p s) :
    Held p (pumpReads s) := by
  unfold pumpReads
  repeat' (first
    | with_reducible assumption
    | (with_reducible refine held_some (by assumption) ?_; with_reducible apply startMemberRead_held)
    | with_reducible refine held_foldl (fun _ _ _ => ?_) _ ?_
    | split
    | fail)

theorem stopClimbs_held {p : List Instr} (s : State) (hs : Held p s) :
    Held p (stopClimbs s) := by
  unfold stopClimbs
  repeat' (first
    | with_reducible assumption
    | with_reducible apply modLun_held
    | with_reducible apply endClimb_held
    | with_reducible refine held_foldl (fun _ _ _ => ?_) _ ?_
    | with_reducible apply Held.upd (by assumption)
    | with_reducible exact id
    | (extract_lets +onlyGivenNames x; subst x)
    | (with_reducible apply Held.upd; on_goal 1 => (with_reducible apply withdraw_held))
    | fail)

theorem dataAcked_held {p : List Instr} (eid : ℕ) (slot : ℕ) (s : State) (hs : Held p s) :
    Held p (dataAcked eid slot s) := by
  unfold dataAcked
  repeat' (first
    | with_reducible assumption
    | with_reducible refine held_ite ?_ ?_
    | with_reducible apply pumpReads_held
    | with_reducible apply dropJobs_held
    | with_reducible apply Held.upd (by assumption)
    | with_reducible exact id
    | fail)

end Sys2Proof.Machine
end

