-- ==== Sys2Proof/Laws/HeldWork.lean ====
section
/-!
SUPPORT. One lemma per operation of the read ladder, dose, writes, groups, services, job ends, jigs, drawers, channels and recovery:
it keeps the queue, the counts of units and the canonical form of the memories.
-/
namespace Sys2Proof.Machine

/-! ### Machine/Ladder.lean -/

theorem engineFault_held {p : List Instr} (kind : ℕ) (i : ℕ) (cause : ℕ) (s : State) (hs : Held p s) :
    Held p (engineFault kind i cause s) := by
  unfold engineFault
  repeat' (first
    | with_reducible apply raisePriv_held
    | with_reducible apply Held.upd (by assumption)
    | with_reducible exact id
    | fail)

theorem assignEncoders_held {p : List Instr} (s : State) (hs : Held p s) :
    Held p (assignEncoders s) := by
  unfold assignEncoders
  repeat' (first
    | with_reducible assumption
    | with_reducible refine held_foldl (fun _ _ _ => ?_) _ ?_
    | with_reducible apply Held.upd (by assumption)
    | with_reducible exact id
    | (extract_lets +onlyGivenNames x; subst x)
    | split
    | fail)

theorem remoteData_held {p : List Instr} (r : Remote) (c : ℕ) (s : State) (hs : Held p s) :
    Held p (remoteData r c s).2.2 := by
  unfold remoteData
  repeat' (first
    | with_reducible assumption
    | with_reducible apply sramRead_held
    | with_reducible apply slotBytes_held
    | (extract_lets +onlyGivenNames x; subst x)
    | split
    | fail)

theorem pageData_held {p : List Instr} (j : Job) (c : ℕ) (s : State) (hs : Held p s) :
    Held p (pageData j c s).2.2 := by
  unfold pageData
  repeat' (first
    | with_reducible assumption
    | with_reducible apply sramRead_held
    | with_reducible apply slotBytes_held
    | with_reducible apply remoteData_held
    | split
    | fail)

theorem badPage_held {p : List Instr} (j : Job) (c : ℕ) (s : State) (hs : Held p s) :
    Held p (badPage j c s) := by
  unfold badPage
  repeat' (first
    | with_reducible assumption
    | with_reducible apply modEntry_held
    | with_reducible apply hostReadData_held
    | with_reducible apply modSlot_held
    | with_reducible refine held_foldl (fun _ _ _ => ?_) _ ?_
    | (extract_lets +onlyGivenNames x; refine (have hx : Held p x := ?_; ?_); on_goal 2 => try clear_value x; on_goal 1 => subst x)
    | split
    | fail)

theorem noEncoder_held {p : List Instr} (j : Job) (s : State) (hs : Held p s) :
    Held p (noEncoder j s) := by
  unfold noEncoder
  repeat' (first
    | with_reducible assumption
    | with_reducible apply modJob_held
    | with_reducible apply noteStatus_held
    | (extract_lets +onlyGivenNames x; refine (have hx : Held p x := ?_; ?_); on_goal 2 => try clear_value x; on_goal 1 => subst x)
    | split
    | fail)

theorem encoderFault_held {p : List Instr} (engine : ℕ) (cause : ℕ) (j : Job) (s : State) (hs : Held p s) :
    Held p (encoderFault engine cause j s) := by
  unfold encoderFault
  repeat' (first
    | with_reducible assumption
    | with_reducible refine held_ite ?_ ?_
    | with_reducible apply engineFault_held
    | with_reducible apply modJob_held
    | with_reducible apply assignEncoders_held
    | with_reducible apply noEncoder_held
    | with_reducible refine held_foldl (fun _ _ _ => ?_) _ ?_
    | with_reducible apply Held.upd (by assumption)
    | with_reducible exact id
    | fail)

theorem deliverCw_held {p : List Instr} (j : Job) (c : ℕ) (bs : List Sys2Proof.Byte) (s : State) (hs : Held p s) :
    Held p (deliverCw j c bs s) := by
  unfold deliverCw
  repeat' (first
    | with_reducible assumption
    | with_reducible refine held_ite ?_ ?_
    | with_reducible apply modChan_held
    | with_reducible apply modJob_held
    | with_reducible apply Held.upd (by assumption)
    | with_reducible exact id
    | fail)

theorem encodeNext_held {p : List Instr} (engine : ℕ) (j : Job) (s : State) (hs : Held p s) :
    Held p (encodeNext engine j s) := by
  unfold encodeNext
  repeat' (first
    | with_reducible assumption
    | with_reducible refine held_ite ?_ ?_
    | with_reducible apply badPage_held
    | with_reducible apply assignEncoders_held
    | with_reducible apply modJob_held
    | with_reducible exact id
    | (with_reducible apply Held.upd; on_goal 1 => (with_reducible apply pageData_held))
    | (with_reducible apply Held.upd; on_goal 1 => (with_reducible apply deliverCw_held))
    | (unfold Sram.wf; with_reducible exact id)
    | fail)

theorem execCodewordEncode_held {p : List Instr} (engine : ℕ) (fault : Option Bool) (s : State) (hs : Held p s) :
    HeldOut p (execCodewordEncode engine fault s) := by
  unfold execCodewordEncode
  repeat' (first
    | with_reducible assumption
    | with_reducible refine heldOut_checked ?_
    | with_reducible refine held_ite ?_ ?_
    | with_reducible apply encoderFault_held
    | with_reducible apply encodeNext_held
    | split
    | fail)

theorem bumpCount_held {p : List Instr} (i : ℕ) (s : State) (hs : Held p s) :
    Held p (bumpCount i s) := by
  unfold bumpCount
  repeat' (first
    | with_reducible apply Held.upd (by assumption)
    | with_reducible exact id
    | fail)

theorem countResult_held {p : List Instr} (kind : ℕ) (r : ℕ) (s : State) (hs : Held p s) :
    Held p (countResult kind r s) := by
  unfold countResult
  repeat' (first
    | with_reducible assumption
    | with_reducible refine held_ite ?_ ?_
    | with_reducible apply bumpCount_held
    | fail)

theorem noteRecord_held {p : List Instr} (kind : ℕ) (engine : ℕ) (c : Cw) (j : Job) (d : Decoded) (s : State) (hs : Held p s) :
    Held p (noteRecord kind engine c j d s) := by
  unfold noteRecord
  repeat' (first
    | with_reducible assumption
    | with_reducible refine held_ite ?_ ?_
    | with_reducible apply countResult_held
    | with_reducible exact id
    | (extract_lets +onlyGivenNames x; subst x)
    | (with_reducible apply Held.upd; on_goal 1 => (with_reducible apply countResult_held))
    | fail)

theorem countResolved_held {p : List Instr} (k : ℕ) (s : State) (hs : Held p s) :
    Held p (countResolved k s) := by
  unfold countResolved
  repeat' (first
    | with_reducible assumption
    | with_reducible refine held_ite ?_ ?_
    | with_reducible apply Held.upd (by assumption)
    | with_reducible exact id
    | fail)

theorem failRead_held {p : List Instr} (eid : ℕ) (st : ℕ) (det : ℕ) (s : State) (hs : Held p s) :
    Held p (failRead eid st det s) := by
  unfold failRead
  repeat' (first
    | with_reducible assumption
    | with_reducible apply withdraw_held
    | with_reducible apply noteStatus_held
    | with_reducible apply modEntry_held
    | with_reducible exact id
    | (with_reducible apply Held.upd; on_goal 1 => (with_reducible apply countLost_held))
    | fail)

theorem noEngine_held {p : List Instr} (kind : ℕ) (c : Cw) (j : Job) (s : State) (hs : Held p s) :
    Held p (noEngine kind c j s) := by
  unfold noEngine
  repeat' (first
    | with_reducible assumption
    | with_reducible refine held_ite ?_ ?_
    | with_reducible apply noteRecord_held
    | with_reducible apply failRead_held
    | with_reducible apply modCw_held
    | with_reducible apply countLost_held
    | with_reducible apply failCw_held
    | split
    | fail)

theorem queueDecode_held {p : List Instr} (c : Cw) (s : State) (hs : Held p s) :
    Held p (queueDecode c s) := by
  unfold queueDecode
  repeat' (first
    | with_reducible refine held_ite ?_ ?_
    | with_reducible apply modCw_held
    | with_reducible apply noEngine_held
    | with_reducible apply Held.upd (by assumption)
    | with_reducible exact id
    | (extract_lets +onlyGivenNames x; subst x)
    | split
    | fail)

theorem takeInject_held {p : List Instr} (raw : List Sys2Proof.Byte) (s : State) (hs : Held p s) :
    Held p (takeInject raw s).2 := by
  unfold takeInject
  repeat' (first
    | with_reducible assumption
    | with_reducible apply Held.upd (by assumption)
    | with_reducible exact id
    | (extract_lets +onlyGivenNames x; subst x)
    | split
    | fail)

theorem takeDecode_held {p : List Instr} (kind : ℕ) (s : State) (engine : ℕ) (hs : Held p s) :
    Held p (takeDecode kind s engine) := by
  unfold takeDecode
  repeat' (first
    | with_reducible assumption
    | with_reducible refine held_ite ?_ ?_
    | with_reducible apply Held.upd (by assumption)
    | with_reducible exact id
    | (with_reducible apply Held.upd; on_goal 1 => (with_reducible apply takeInject_held))
    | (extract_lets +onlyGivenNames x; subst x)
    | split
    | fail)

theorem dropDecodes_held {p : List Instr} (s : State) (hs : Held p s) :
    Held p (dropDecodes s) := by
  unfold dropDecodes
  repeat' (first
    | with_reducible apply Held.upd (by assumption)
    | with_reducible exact id
    | fail)

theorem assignDecoders_held {p : List Instr} (s : State) (hs : Held p s) :
    Held p (assignDecoders s) := by
  unfold assignDecoders
  repeat' (first
    | with_reducible assumption
    | with_reducible apply takeDecode_held
    | with_reducible apply dropDecodes_held
    | with_reducible refine held_foldl (fun _ _ _ => ?_) _ ?_
    | fail)

theorem modSearch_held {p : List Instr} (a0 : ℕ) (f : Search → Search) (s : State) (hs : Held p s) :
    Held p (modSearch a0 f s) := by
  unfold modSearch
  repeat' (first
    | with_reducible apply Held.upd (by assumption)
    | with_reducible exact id
    | fail)

theorem senseSearch_held {p : List Instr} (q : Search) (s : State) (hs : Held p s) :
    Held p (senseSearch q s) := by
  unfold senseSearch
  repeat' (first
    | with_reducible assumption
    | with_reducible apply modSearch_held
    | with_reducible apply addSense_held
    | with_reducible refine held_foldl (fun _ _ _ => ?_) _ ?_
    | fail)

theorem writeArea_held {p : List Instr} (w : ℕ) (len : ℕ) (value : ℕ → ℕ) (s : State) (hs : Held p s) :
    Held p (writeArea w len value s) := by
  unfold writeArea
  repeat' (first
    | with_reducible assumption
    | with_reducible apply sramWrite_held
    | fail)

theorem readArea_held {p : List Instr} (w : Option ℕ) (len : ℕ) (s : State) (hs : Held p s) :
    Held p (readArea w len s).2 := by
  unfold readArea
  repeat' (first
    | with_reducible assumption
    | with_reducible apply sramRead_held
    | split
    | fail)

theorem senseAll_held {p : List Instr} (j : Job) (off : List ℤ) (step : ℕ) (mask : ℕ) (slot : ℕ) (s : State) (hs : Held p s) :
    Held p (senseAll j off step mask slot s).2 := by
  unfold senseAll
  repeat' (first
    | with_reducible assumption
    | with_reducible apply modJob_held
    | (with_reducible refine held_snd (by assumption) ?_; with_reducible apply addSense_held)
    | with_reducible refine held_foldl_snd (fun _ _ _ => ?_) _ ?_
    | split
    | fail)

theorem senseGranted_held {p : List Instr} (s : State) (job : ℕ) (hs : Held p s) : Held p (senseGranted s job) := by
  unfold senseGranted
  split
  · refine reread_held _ _ _ _ _ (fun m h u hu => ?_) hs
    with_reducible exact senseAll_held _ _ _ m h u hu
  · exact hs

theorem grantArea_held {p : List Instr} (s : State) (t : AreaTurn) (hs : Held p s) :
    Held p (grantArea s t) := by
  unfold grantArea
  repeat' (first
    | with_reducible assumption
    | with_reducible refine held_ite ?_ ?_
    | with_reducible apply senseSearch_held
    | with_reducible apply modSearch_held
    | with_reducible apply modCw_held
    | split
    | fail)

theorem pumpAreas_held {p : List Instr} (s : State) (hs : Held p s) :
    Held p (pumpAreas s) := by
  unfold pumpAreas
  repeat' (first
    | with_reducible assumption
    | with_reducible refine held_ite ?_ ?_
    | with_reducible apply senseGranted_held
    | with_reducible apply grantArea_held
    | with_reducible refine held_foldl (fun _ _ _ => ?_) _ ?_
    | fail)

theorem senseStep_held {p : List Instr} (job : ℕ) (step : ℕ) (s : State) (hs : Held p s) :
    Held p (senseStep job step s) := by
  unfold senseStep
  repeat' (first
    | with_reducible assumption
    | with_reducible refine held_ite ?_ ?_
    | with_reducible apply modCw_held
    | with_reducible apply noteStep_held
    | with_reducible apply pumpAreas_held
    | with_reducible exact id
    | (with_reducible apply Held.upd; on_goal 1 => (with_reducible refine held_foldl (fun _ _ _ => ?_) _ ?_))
    | (extract_lets +onlyGivenNames x; subst x)
    | split
    | fail)

theorem execSoftRead_held {p : List Instr} (job : ℕ) (s : State) (hs : Held p s) :
    HeldOut p (execSoftRead job s) := by
  unfold execSoftRead
  repeat' (first
    | with_reducible assumption
    | with_reducible refine heldOut_next ?_
    | with_reducible apply senseStep_held
    | fail)

theorem execFusion_held {p : List Instr} (job : ℕ) (s : State) (hs : Held p s) :
    HeldOut p (execFusion job s) := by
  unfold execFusion
  repeat' (first
    | with_reducible assumption
    | with_reducible refine heldOut_next ?_
    | with_reducible apply senseStep_held
    | fail)

theorem startSearch_held {p : List Instr} (u : ℕ) (b : ℕ) (z : ℕ) (wl : ℕ) (slot : ℕ) (profile : ℕ) (prio : ℕ) (climb : Bool) (sweep : Bool) (s : State) (hs : Held p s) :
    Held p (startSearch u b z wl slot profile prio climb sweep s) := by
  unfold startSearch
  repeat' (first
    | with_reducible assumption
    | with_reducible refine held_ite ?_ ?_
    | with_reducible apply pumpAreas_held
    | with_reducible exact id
    | (with_reducible apply Held.upd; on_goal 1 => (with_reducible apply useTrued_held))
    | fail)

theorem backgroundSearch_held {p : List Instr} (u : ℕ) (b : ℕ) (z : ℕ) (sweep : Bool) (s : State) (hs : Held p s) :
    Held p (backgroundSearch u b z sweep s) := by
  unfold backgroundSearch
  repeat' (first
    | with_reducible assumption
    | with_reducible refine held_ite ?_ ?_
    | with_reducible apply startSearch_held
    | split
    | fail)

theorem trueRead_held {p : List Instr} (job : ℕ) (cs : List Cw) (off : List ℤ) (s : State) (hs : Held p s) :
    Held p (trueRead job cs off s) := by
  unfold trueRead
  repeat' (first
    | with_reducible assumption
    | with_reducible apply reread_held
    | with_reducible apply addRead_held
    | split
    | intro _
    | fail)

theorem rereadAll_held {p : List Instr} (cs : List Cw) (off : List ℤ) (s : State) (hs : Held p s) :
    Held p (rereadAll cs off s) := by
  unfold rereadAll
  repeat' (first
    | with_reducible assumption
    | with_reducible apply trueRead_held
    | with_reducible refine held_foldl (fun _ _ _ => ?_) _ ?_
    | fail)

theorem failTruing_held {p : List Instr} (cs : List Cw) (s : State) (hs : Held p s) :
    Held p (failTruing cs s) := by
  unfold failTruing
  repeat' (first
    | with_reducible assumption
    | with_reducible apply failCw_held
    | with_reducible refine held_foldl (fun _ _ _ => ?_) _ ?_
    | fail)

theorem settleTruing_held {p : List Instr} (s : State) (hs : Held p s) :
    Held p (settleTruing s) := by
  unfold settleTruing
  repeat' (first
    | with_reducible assumption
    | with_reducible apply failTruing_held
    | fail)

theorem dropSearch_held {p : List Instr} (a0 : ℕ) (s : State) (hs : Held p s) :
    Held p (dropSearch a0 s) := by
  unfold dropSearch
  repeat' (first
    | with_reducible assumption
    | with_reducible apply withdraw_held
    | with_reducible apply Held.upd (by assumption)
    | with_reducible exact id
    | (extract_lets +onlyGivenNames x; refine (have hx : Held p x := ?_; ?_); on_goal 2 => try clear_value x; on_goal 1 => subst x)
    | fail)

theorem abandonSearch_held {p : List Instr} (q : Search) (s : State) (hs : Held p s) :
    Held p (abandonSearch q s) := by
  unfold abandonSearch
  repeat' (first
    | with_reducible assumption
    | with_reducible apply dropSearch_held
    | with_reducible apply raise_held
    | with_reducible apply pumpAreas_held
    | with_reducible apply failTruing_held
    | with_reducible exact id
    | (with_reducible apply Held.upd; on_goal 1 => (with_reducible apply modLun_held))
    | fail)

theorem updateBias_held {p : List Instr} (q : Search) (s : State) (hs : Held p s) :
    Held p (updateBias q s) := by
  unfold updateBias
  repeat' (first
    | with_reducible assumption
    | with_reducible refine held_ite ?_ ?_
    | with_reducible apply modLun_held
    | fail)

theorem retrueHeld_held {p : List Instr} (q : Search) (s : State) (hs : Held p s) :
    Held p (retrueHeld q s) := by
  unfold retrueHeld
  repeat' (first
    | with_reducible apply Held.upd (by assumption)
    | with_reducible exact id
    | fail)

theorem convergeSearch_held {p : List Instr} (q : Search) (s : State) (hs : Held p s) :
    Held p (convergeSearch q s) := by
  unfold convergeSearch
  repeat' (first
    | with_reducible assumption
    | with_reducible refine held_ite ?_ ?_
    | with_reducible apply updateBias_held
    | with_reducible apply modLun_held
    | with_reducible apply pumpAreas_held
    | with_reducible apply retrueHeld_held
    | with_reducible apply addJob_held
    | with_reducible apply rereadAll_held
    | with_reducible exact id
    | (with_reducible apply Held.upd; on_goal 1 => (with_reducible apply dropSearch_held))
    | fail)

theorem truingIteration_held {p : List Instr} (a0 : ℕ) (s : State) (hs : Held p s) :
    Held p (truingIteration a0 s) := by
  unfold truingIteration
  repeat' (first
    | with_reducible assumption
    | with_reducible refine held_ite ?_ ?_
    | with_reducible apply readArea_held
    | with_reducible apply pumpAreas_held
    | with_reducible apply failTruing_held
    | with_reducible apply dropSearch_held
    | with_reducible apply convergeSearch_held
    | with_reducible apply modSearch_held
    | with_reducible apply senseSearch_held
    | split
    | fail)

theorem truingAbandon_held {p : List Instr} (a0 : ℕ) (s : State) (hs : Held p s) :
    Held p (truingAbandon a0 s) := by
  unfold truingAbandon
  repeat' (first
    | with_reducible assumption
    | with_reducible refine held_ite ?_ ?_
    | with_reducible apply abandonSearch_held
    | split
    | fail)

theorem execTruedThresholds_held {p : List Instr} (job : ℕ) (s : State) (hs : Held p s) :
    HeldOut p (execTruedThresholds job s) := by
  unfold execTruedThresholds
  repeat' (first
    | with_reducible assumption
    | with_reducible refine heldOut_next ?_
    | with_reducible refine held_ite ?_ ?_
    | with_reducible apply noteStep_held
    | with_reducible apply rereadAll_held
    | with_reducible apply modCw_held
    | with_reducible apply startSearch_held
    | with_reducible refine held_foldl (fun _ _ _ => ?_) _ ?_
    | (extract_lets +onlyGivenNames x; refine (have hx : Held p x := ?_; ?_); on_goal 2 => try clear_value x; on_goal 1 => subst x)
    | (extract_lets +onlyGivenNames x; subst x)
    | split
    | fail)

theorem senseAgain_held {p : List Instr} (j : Job) (s : State) (cs : List Cw) (hs : Held p s) :
    Held p (senseAgain j s cs) := by
  unfold senseAgain
  repeat' (first
    | with_reducible assumption
    | with_reducible apply addJob_held
    | (extract_lets +onlyGivenNames x; subst x)
    | split
    | fail)

theorem repeatRead_held {p : List Instr} (cs : List Cw) (j : Job) (s : State) (hs : Held p s) :
    Held p (repeatRead cs j s) := by
  unfold repeatRead
  repeat' (first
    | with_reducible assumption
    | with_reducible refine held_ite ?_ ?_
    | with_reducible refine reread_held _ _ _ _ _ (fun _ _ _ _ => ?_) ?_
    | with_reducible apply senseAgain_held
    | with_reducible apply modCw_held
    | with_reducible apply addRetry_held
    | with_reducible apply addRead_held
    | with_reducible refine held_foldl (fun _ _ _ => ?_) _ ?_
    | (extract_lets +onlyGivenNames x; subst x)
    | split
    | fail)

theorem leaveZero_held {p : List Instr} (c : Cw) (s : State) (hs : Held p s) :
    Held p (leaveZero c s) := by
  unfold leaveZero
  repeat' (first
    | with_reducible assumption
    | with_reducible refine held_ite ?_ ?_
    | with_reducible apply noteLadder_held
    | fail)

theorem incompleteCws_held {p : List Instr} (cs : List Cw) (j : Job) (s : State) (hs : Held p s) : Held p (incompleteCws cs j s) := by
  unfold incompleteCws
  refine held_foldl (fun s c h => failCw_held _ _ _ (leaveZero_held _ _ h)) _ (repeatRead_held _ _ _ ?_)
  exact held_foldl (fun s c h => noteRecord_held _ _ _ _ _ _ h) _ hs

theorem triggerTruing_held {p : List Instr} (c : Cw) (j : Job) (d : Decoded) (s : State) (hs : Held p s) :
    Held p (triggerTruing c j d s) := by
  unfold triggerTruing
  repeat' (first
    | with_reducible assumption
    | with_reducible refine held_ite ?_ ?_
    | with_reducible apply backgroundSearch_held
    | fail)

theorem decodedCw_held {p : List Instr} (c : Cw) (j : Job) (d : Decoded) (s : State) (hs : Held p s) :
    Held p (decodedCw c j d s) := by
  unfold decodedCw
  repeat' (first
    | with_reducible assumption
    | with_reducible refine held_ite ?_ ?_
    | with_reducible apply countResolved_held
    | with_reducible apply modLun_held
    | with_reducible apply modCw_held
    | with_reducible apply triggerTruing_held
    | with_reducible apply landCw_held
    | with_reducible apply landLabel_held
    | fail)

theorem afterDecode_held {p : List Instr} (c : Cw) (j : Job) (d : Decoded) (s : State) (hs : Held p s) :
    Held p (afterDecode c j d s) := by
  unfold afterDecode
  repeat' (first
    | with_reducible assumption
    | with_reducible refine held_ite ?_ ?_
    | with_reducible apply decodedCw_held
    | with_reducible apply incompleteCws_held
    | with_reducible apply failCw_held
    | with_reducible apply leaveZero_held
    | fail)

theorem drainKind_held {p : List Instr} (kind : ℕ) (s : State) (hs : Held p s) :
    Held p (drainKind kind s) := by
  unfold drainKind
  repeat' (first
    | with_reducible assumption
    | with_reducible refine held_ite ?_ ?_
    | with_reducible apply noEngine_held
    | with_reducible apply failRead_held
    | with_reducible refine held_foldl (fun _ _ _ => ?_) _ ?_
    | split
    | fail)

theorem endDecode_held {p : List Instr} (d : DecJob) (fault : Bool) (result : Cw → Job → Decoded) (s : State) (hs : Held p s) :
    Held p (endDecode d fault result s) := by
  unfold endDecode
  repeat' (first
    | with_reducible assumption
    | with_reducible refine held_ite ?_ ?_
    | with_reducible apply modCw_held
    | with_reducible apply assignDecoders_held
    | with_reducible apply pumpAreas_held
    | with_reducible apply drainKind_held
    | with_reducible apply engineFault_held
    | with_reducible apply afterDecode_held
    | with_reducible apply noteRecord_held
    | with_reducible apply Held.upd (by assumption)
    | with_reducible exact id
    | (extract_lets +onlyGivenNames x; refine (have hx : Held p x := ?_; ?_); on_goal 2 => try clear_value x; on_goal 1 => subst x)
    | (extract_lets +onlyGivenNames x; subst x)
    | split
    | fail)

theorem execHardDecode_held {p : List Instr} (engine : ℕ) (job : ℕ) (cw : ℕ) (fault : Bool) (s : State) (hs : Held p s) :
    HeldOut p (execHardDecode engine job cw fault s) := by
  unfold execHardDecode
  repeat' (first
    | with_reducible assumption
    | with_reducible refine heldOut_checked ?_
    | with_reducible apply endDecode_held
    | split
    | fail)

theorem areaDecode_held {p : List Instr} (kind : ℕ) (engine : ℕ) (job : ℕ) (cw : ℕ) (fault : Bool) (s : State) (hs : Held p s) :
    Held p (areaDecode kind engine job cw fault s) := by
  unfold areaDecode
  repeat' (first
    | with_reducible assumption
    | with_reducible refine held_ite ?_ ?_
    | with_reducible apply readArea_held
    | with_reducible apply endDecode_held
    | split
    | fail)

theorem execSoftDecode_held {p : List Instr} (engine : ℕ) (job : ℕ) (cw : ℕ) (fault : Bool) (s : State) (hs : Held p s) :
    HeldOut p (execSoftDecode engine job cw fault s) := by
  unfold execSoftDecode
  repeat' (first
    | with_reducible assumption
    | with_reducible refine heldOut_checked ?_
    | with_reducible apply areaDecode_held
    | fail)

theorem execFusionDecode_held {p : List Instr} (engine : ℕ) (job : ℕ) (cw : ℕ) (fault : Bool) (s : State) (hs : Held p s) :
    HeldOut p (execFusionDecode engine job cw fault s) := by
  unfold execFusionDecode
  repeat' (first
    | with_reducible assumption
    | with_reducible refine heldOut_checked ?_
    | with_reducible apply areaDecode_held
    | fail)

theorem writeInject_held {p : List Instr} (v : Word) (s : State) (hs : Held p s) :
    Held p (writeInject v s) := by
  unfold writeInject
  repeat' (first
    | with_reducible apply Held.upd (by assumption)
    | with_reducible exact id
    | fail)

theorem execCodecInject_held {p : List Instr} (who : Writer) (v : Word) (s : State) (hs : Held p s) :
    HeldOut p (execCodecInject who v s) := by
  unfold execCodecInject
  repeat' (first
    | with_reducible assumption
    | with_reducible refine heldOut_next ?_
    | with_reducible refine mainCoreOnly_held _ _ _ (fun _ _ => ?_) ?_
    | with_reducible apply writeInject_held
    | fail)

theorem settleRead_held {p : List Instr} (s : State) (e : Entry) (hs : Held p s) :
    Held p (settleRead s e) := by
  unfold settleRead
  repeat' (first
    | with_reducible assumption
    | with_reducible refine held_ite ?_ ?_
    | with_reducible apply modEntry_held
    | fail)

theorem fixRead_held {p : List Instr} (i : ℕ) (c : ℕ) (m : ℕ) (s : State) (hs : Held p s) :
    Held p (fixRead i c m s) := by
  unfold fixRead
  repeat' (first
    | with_reducible assumption
    | with_reducible refine held_ite ?_ ?_
    | with_reducible apply Held.upd (by assumption)
    | with_reducible exact id
    | (extract_lets +onlyGivenNames x; subst x)
    | split
    | (with_reducible apply Held.upd; on_goal 1 => (with_reducible refine held_snd (by assumption) ?_; with_reducible apply addRead_held))
    | fail)

theorem rewriteParity_held {p : List Instr} (i : ℕ) (c : ℕ) (ds : List (ℕ × List Sys2Proof.Byte)) (s : State) (hs : Held p s) :
    Held p (rewriteParity i c ds s) := by
  unfold rewriteParity
  repeat' (first
    | with_reducible assumption
    | with_reducible apply slotWrite_held
    | fail)

theorem fixGot_held {p : List Instr} (m : ℕ) (ds : List (ℕ × List Byte)) (gone : List ℕ) (bs : List Byte) (ok : Bool)
    (s : State) (hs : Held p s) : Held p (fixGot m ds gone bs ok s).2.2 := hs

theorem fixData_held {p : List Instr} (i : ℕ) (c : ℕ) (s : State) (hs : Held p s) :
    Held p (fixData i c s).2.2 := by
  unfold fixData
  refine held_foldl_third (fun x m h => ?_) _ hs
  split
  · exact fixGot_held _ _ _ _ _ _ (sramRead_held _ _ _ h)
  · split
    · exact fixGot_held _ _ _ _ _ _ (sramRead_held _ _ _ h)
    · exact h

theorem fixEnd_held {p : List Instr} (i : ℕ) (c : ℕ) (s : State) (hs : Held p s) :
    Held p (fixEnd i c s) := by
  unfold fixEnd
  repeat' (first
    | with_reducible assumption
    | with_reducible refine held_ite ?_ ?_
    | with_reducible apply dropJobs_held
    | with_reducible apply modSlot_held
    | with_reducible apply rewriteParity_held
    | with_reducible apply addLoss_held
    | with_reducible apply placeAll_held
    | with_reducible refine held_foldl (fun _ _ _ => ?_) _ ?_
    | with_reducible exact id
    | (extract_lets +onlyGivenNames x; subst x)
    | (with_reducible apply Held.upd; on_goal 1 => (with_reducible apply Held.upd; on_goal 1 => (with_reducible apply fixData_held)))
    | (with_reducible refine held_snd (by assumption) ?_; split)
    | (intro h; exact h)
    | intro _
    | fail)

theorem pumpFix_held {p : List Instr} (s : State) (i : ℕ) (hs : Held p s) :
    Held p (pumpFix s i) := by
  unfold pumpFix
  repeat' (first
    | with_reducible assumption
    | with_reducible refine held_ite ?_ ?_
    | with_reducible apply fixRead_held
    | with_reducible apply fixEnd_held
    | with_reducible refine held_foldl (fun _ _ _ => ?_) _ ?_
    | (extract_lets +onlyGivenNames x; subst x)
    | split
    | fail)

/-! ### Machine/Dose.lean -/

theorem tickChannel_held {p : List Instr} (s : State) (ch : ℕ) (hs : Held p s) :
    Held p (tickChannel s ch) := by
  unfold tickChannel
  repeat' (first
    | with_reducible assumption
    | with_reducible refine held_ite ?_ ?_
    | with_reducible apply raise_held
    | with_reducible apply Held.upd (by assumption)
    | with_reducible exact id
    | (extract_lets +onlyGivenNames x; refine (have hx : Held p x := ?_; ?_); on_goal 2 => try clear_value x; on_goal 1 => subst x)
    | (extract_lets +onlyGivenNames x; subst x)
    | fail)

theorem execDoseTick_held {p : List Instr} (s : State) (hs : Held p s) :
    HeldOut p (execDoseTick s) := by
  unfold execDoseTick
  repeat' (first
    | with_reducible assumption
    | with_reducible refine heldOut_next ?_
    | with_reducible refine held_ite ?_ ?_
    | with_reducible apply tickChannel_held
    | with_reducible refine held_foldl (fun _ _ _ => ?_) _ ?_
    | fail)

theorem execDoseSave_held {p : List Instr} (s : State) (hs : Held p s) :
    HeldOut p (execDoseSave s) := by
  unfold execDoseSave
  repeat' (first
    | with_reducible assumption
    | with_reducible refine heldOut_next ?_
    | with_reducible refine held_ite ?_ ?_
    | with_reducible apply saveClocks_held
    | fail)

theorem startSweep_held {p : List Instr} (s : State) (hs : Held p s) :
    Held p (startSweep s) := by
  unfold startSweep
  repeat' (first
    | with_reducible assumption
    | with_reducible apply backgroundSearch_held
    | with_reducible refine held_foldl (fun _ _ _ => ?_) _ ?_
    | with_reducible apply Held.upd (by assumption)
    | with_reducible exact id
    | fail)

theorem settleSweep_held {p : List Instr} (s : State) (hs : Held p s) :
    Held p (settleSweep s) := by
  unfold settleSweep
  repeat' (first
    | with_reducible assumption
    | with_reducible refine held_ite ?_ ?_
    | with_reducible apply Held.upd (by assumption)
    | with_reducible exact id
    | fail)

theorem execWakeSweep_held {p : List Instr} (s : State) (hs : Held p s) :
    HeldOut p (execWakeSweep s) := by
  unfold execWakeSweep
  repeat' (first
    | with_reducible assumption
    | with_reducible refine heldOut_next ?_
    | with_reducible refine held_ite ?_ ?_
    | with_reducible apply settleSweep_held
    | with_reducible apply startSweep_held
    | fail)

theorem firstWall_held {p : List Instr} (v : BitVec 48) (s : State) (hs : Held p s) :
    Held p (firstWall v s) := by
  unfold firstWall
  repeat' (first
    | with_reducible assumption
    | with_reducible refine held_ite ?_ ?_
    | with_reducible apply startSweep_held
    | with_reducible apply Held.upd (by assumption)
    | with_reducible exact id
    | (extract_lets +onlyGivenNames x; subst x)
    | split
    | (with_reducible apply Held.upd; on_goal 1 => (with_reducible apply raise_held))
    | (with_reducible apply Held.upd; on_goal 1 => (with_reducible apply Held.upd (by assumption)))
    | (with_reducible apply Held.upd; on_goal 1 => (with_reducible apply Held.upd; on_goal 1 => (with_reducible apply raise_held)))
    | fail)

theorem writeWall_held {p : List Instr} (v : BitVec 48) (s : State) (hs : Held p s) :
    Held p (writeWall v s) := by
  unfold writeWall
  repeat' (first
    | with_reducible assumption
    | with_reducible apply firstWall_held
    | with_reducible apply settleSweep_held
    | with_reducible apply saveClocks_held
    | with_reducible exact id
    | (with_reducible apply Held.upd; on_goal 1 => (with_reducible refine held_ite ?_ ?_))
    | (unfold Dict.wf; with_reducible exact id)
    | fail)

theorem execWallClock_held {p : List Instr} (v : BitVec 48) (s : State) (hs : Held p s) :
    HeldOut p (execWallClock v s) := by
  unfold execWallClock
  repeat' (first
    | with_reducible assumption
    | with_reducible refine heldOut_next ?_
    | with_reducible refine held_ite ?_ ?_
    | with_reducible apply writeWall_held
    | fail)

/-! ### Machine/Writes.lean -/

theorem dispatch.cacheAll_held {p : List Instr} (gs : List ℕ) (s : State) (hs : Held p s) : Held p (dispatch.cacheAll gs s) := by
  unfold dispatch.cacheAll
  exact held_ite (held_foldl (fun s g h => held_ite (cacheTouch_held g s h) h) _ hs) hs

theorem dispatch_held {p : List Instr} (eid : ℕ) (op : ℕ) (s : State) (f : Entry → State → State) (hs : Held p s) (hf : ∀ e x, Held p x → Held p (f e x)) :
    Held p (dispatch eid op s f) := by
  unfold dispatch
  repeat' (first
    | with_reducible assumption
    | with_reducible apply hf
    | with_reducible refine held_ite ?_ ?_
    | with_reducible apply dispatch.cacheAll_held
    | split
    | fail)

theorem refuse_held {p : List Instr} (e : Entry) (st : ℕ) (det : ℕ) (s : State) (hs : Held p s) :
    Held p (refuse e st det s) := by
  unfold refuse
  repeat' (first
    | with_reducible assumption
    | with_reducible apply endEntry_held
    | fail)

theorem fetchCw_held {p : List Instr} (e : Entry) (set : ℕ) (m : ℕ) (c : ℕ) (s : State) (hs : Held p s) :
    Held p (fetchCw e set m c s) := by
  unfold fetchCw
  repeat' (first
    | with_reducible assumption
    | with_reducible apply hostReadData_held
    | with_reducible refine held_foldl (fun _ _ _ => ?_) _ ?_
    | fail)

theorem programEntryMember_held {p : List Instr} (e : Entry) (m : ℕ) (handle : ℕ) (s : State) (hs : Held p s) :
    Held p (programEntryMember e m handle s) := by
  unfold programEntryMember
  repeat' (first
    | with_reducible assumption
    | with_reducible apply programMember_held
    | fail)

theorem dispatchPrograms_held {p : List Instr} (e : Entry) (ms : List ℕ) (s : State) (hs : Held p s) :
    Held p (dispatchPrograms e ms s) := by
  unfold dispatchPrograms
  repeat' (first
    | with_reducible assumption
    | with_reducible apply programEntryMember_held
    | with_reducible apply modEntry_held
    | with_reducible exact id
    | (with_reducible apply Held.upd; on_goal 1 => (with_reducible refine held_foldl (fun _ _ _ => ?_) _ ?_))
    | fail)

theorem takeStages_held {p : List Instr} (s : State) (e : Entry) (hs : Held p s) :
    Held p (takeStages s e) := by
  unfold takeStages
  repeat' (first
    | with_reducible assumption
    | with_reducible refine held_ite ?_ ?_
    | with_reducible apply modEntry_held
    | with_reducible apply fetchCw_held
    | with_reducible apply programEntryMember_held
    | with_reducible refine held_foldl (fun _ _ _ => ?_) _ ?_
    | fail)

theorem pumpStages_held {p : List Instr} (s : State) (hs : Held p s) :
    Held p (pumpStages s) := by
  unfold pumpStages
  repeat' (first
    | with_reducible assumption
    | with_reducible apply takeStages_held
    | split
    | fail)

theorem pumpAllStages_held {p : List Instr} (a0 : ℕ) : ∀ (a1 : State), Held p a1 →
    Held p (pumpAllStages a0 a1) := by
  induction a0 with
  | zero =>
    intro a1 h0
    first | rw [pumpAllStages] | unfold pumpAllStages
    repeat' (first
      | with_reducible assumption
      | fail)
  | succ _ ih =>
    intro a1 h0
    first | rw [pumpAllStages] | unfold pumpAllStages
    repeat' (first
      | with_reducible assumption
      | with_reducible apply ih
      | with_reducible apply pumpStages_held
      | fail)

theorem acceptMembers_held {p : List Instr} (e : Entry) (ms : List ℕ) (s : State) (hs : Held p s) :
    Held p (acceptMembers e ms s) := by
  unfold acceptMembers
  repeat' (first
    | with_reducible assumption
    | with_reducible refine held_ite ?_ ?_
    | with_reducible apply writeDir_held
    | with_reducible apply modEntry_held
    | with_reducible apply closeGroup_held
    | fail)

theorem acceptWrite_held {p : List Instr} (e : Entry) (s : State) (hs : Held p s) :
    Held p (acceptWrite e s) := by
  unfold acceptWrite
  repeat' (first
    | with_reducible assumption
    | with_reducible apply assignSlot_held
    | with_reducible apply modSlot_held
    | with_reducible apply modEntry_held
    | with_reducible apply noteStatus_held
    | with_reducible apply pumpAllStages_held
    | with_reducible apply dispatchPrograms_held
    | with_reducible apply acceptMembers_held
    | with_reducible refine held_foldl (fun _ _ _ => ?_) _ ?_
    | split
    | fail)

theorem tryWrite_held {p : List Instr} (e : Entry) (s : State) (hs : Held p s) :
    Held p (tryWrite e s) := by
  unfold tryWrite
  repeat' (first
    | with_reducible assumption
    | with_reducible refine held_ite ?_ ?_
    | with_reducible apply refuse_held
    | with_reducible apply acceptWrite_held
    | with_reducible exact id
    | split
    | (with_reducible apply Held.upd; on_goal 1 => (with_reducible apply modEntry_held))
    | (intro h; exact h)
    | fail)

theorem execWriteRow_held {p : List Instr} (eid : ℕ) (list : List Sys2Proof.HostRead) (s : State) (hs : Held p s) :
    HeldOut p (execWriteRow eid list s) := by
  unfold execWriteRow
  repeat' (first
    | with_reducible assumption
    | with_reducible refine heldOut_next ?_
    | with_reducible refine held_ite ?_ ?_
    | with_reducible refine dispatch_held _ _ _ _ ?_ (fun _ _ _ => ?_)
    | with_reducible apply fetchList_held
    | with_reducible apply stopAt_held
    | with_reducible apply refuse_held
    | with_reducible apply modEntry_held
    | with_reducible apply tryWrite_held
    | (extract_lets +onlyGivenNames x; refine (have hx : Held p x := ?_; ?_); on_goal 2 => try clear_value x; on_goal 1 => subst x)
    | (extract_lets +onlyGivenNames x; subst x)
    | split
    | fail)

theorem execSlotAssign_held {p : List Instr} (eid : ℕ) (s : State) (hs : Held p s) :
    HeldOut p (execSlotAssign eid s) := by
  unfold execSlotAssign
  repeat' (first
    | with_reducible assumption
    | with_reducible refine heldOut_next ?_
    | with_reducible refine held_ite ?_ ?_
    | with_reducible apply tryWrite_held
    | with_reducible apply refuse_held
    | split
    | fail)

theorem execSlotWaitEvent_held {p : List Instr} (eid : ℕ) (s : State) (hs : Held p s) :
    HeldOut p (execSlotWaitEvent eid s) := by
  unfold execSlotWaitEvent
  repeat' (first
    | with_reducible assumption
    | with_reducible refine heldOut_next ?_
    | with_reducible refine held_ite ?_ ?_
    | with_reducible apply raise_held
    | with_reducible apply modEntry_held
    | with_reducible apply Held.upd (by assumption)
    | with_reducible exact id
    | split
    | fail)

theorem fillProgram_held {p : List Instr} (j : Job) (handle : ℕ) (s : State) (hs : Held p s) :
    Held p (fillProgram j handle s) := by
  unfold fillProgram
  repeat' (first
    | with_reducible assumption
    | with_reducible apply modJob_held
    | fail)

theorem memberNotProgrammed_held {p : List Instr} (e : Entry) (m : ℕ) (s : State) (hs : Held p s) :
    Held p (memberNotProgrammed e m s) := by
  unfold memberNotProgrammed
  repeat' (first
    | with_reducible assumption
    | with_reducible apply noteStatus_held
    | with_reducible apply withdraw_held
    | with_reducible apply modSlot_held
    | with_reducible apply modEntry_held
    | split
    | fail)

theorem startAway_held {p : List Instr} (e : Entry) (m : ℕ) (j : Job) (s : State) (hs : Held p s) :
    Held p (startAway e m j s) := by
  unfold startAway
  repeat' (first
    | with_reducible assumption
    | with_reducible refine held_ite ?_ ?_
    | with_reducible apply foldsAway_held
    | with_reducible apply sendGo_held
    | with_reducible apply modJob_held
    | with_reducible apply dropJobs_held
    | with_reducible apply memberNotProgrammed_held
    | split
    | fail)

theorem startPrograms_held {p : List Instr} (eid : ℕ) (s : State) (hs : Held p s) :
    Held p (startPrograms eid s) := by
  unfold startPrograms
  repeat' (first
    | with_reducible assumption
    | with_reducible refine held_ite ?_ ?_
    | with_reducible apply startAway_held
    | with_reducible apply fillProgram_held
    | with_reducible apply memberNotProgrammed_held
    | with_reducible refine held_foldl (fun _ _ _ => ?_) _ ?_
    | (extract_lets +onlyGivenNames x; subst x)
    | split
    | fail)

theorem awayFetched_held {p : List Instr} (eid : ℕ) (m : ℕ) (s : State) (hs : Held p s) :
    Held p (awayFetched eid m s) := by
  unfold awayFetched
  repeat' (first
    | with_reducible assumption
    | with_reducible apply modEntry_held
    | with_reducible apply sealSlot_held
    | with_reducible apply startPrograms_held
    | (extract_lets +onlyGivenNames x; refine (have hx : Held p x := ?_; ?_); on_goal 2 => try clear_value x; on_goal 1 => subst x)
    | split
    | fail)

theorem foldedWhole_held {p : List Instr} (i : ℕ) (m : ℕ) (s : State) (hs : Held p s) :
    Held p (foldedWhole i m s) := by
  unfold foldedWhole
  repeat' (first
    | with_reducible assumption
    | with_reducible apply modSlot_held
    | fail)

theorem foldOnce_held {p : List Instr} (i : ℕ) (m : ℕ) (c : ℕ) (data : List Sys2Proof.Byte) (s : State) (hs : Held p s) :
    Held p (foldOnce i m c data s) := by
  unfold foldOnce
  repeat' (first
    | with_reducible assumption
    | with_reducible refine held_ite ?_ ?_
    | with_reducible apply foldCw_held
    | with_reducible apply modSlot_held
    | fail)

theorem dataArrives_held {p : List Instr} (e : Entry) (set m c : ℕ) (data : List Byte) (s : State) (hs : Held p s) :
    Held p (dataArrives e set m c data s) := by
  unfold dataArrives
  dsimp only
  have h1 := sramWrite_held (stageOff (16 * set + c)) data s hs
  revert h1
  generalize sramWrite (stageOff (16 * set + c)) data s = t
  intro h1
  cases findSlot e.group.toNat e.row.toNat t with
  | none =>
    dsimp only
    split
    · exact held_ite (modEntry_held _ _ _ h1) (modEntry_held _ _ _ h1)
    · exact modEntry_held _ _ _ h1
  | some i =>
    dsimp only
    have h2 := modEntry_held e.eid (fun e => { e with arrived := e.arrived ++ [(m, c)] }) _ (foldOnce_held i m c data t h1)
    revert h2
    generalize modEntry e.eid (fun e => { e with arrived := e.arrived ++ [(m, c)] }) (foldOnce i m c data t) = u
    intro h2
    have h3 : Held p (if (slotAt i u).folded.contains m = true then u else foldedWhole i m u) :=
      held_ite h2 (foldedWhole_held _ _ _ h2)
    split
    · exact held_ite (held_ite h3 (sealSlot_held _ _ (startPrograms_held _ _ h3))) h2
    · exact h2

theorem execWriteDataArrival_held {p : List Instr} (eid : ℕ) (member : ℕ) (cw : ℕ) (data : List Byte) (s : State) (hs : Held p s) :
    HeldOut p (execWriteDataArrival eid member cw data s) := by
  unfold execWriteDataArrival
  repeat' (first
    | with_reducible assumption
    | with_reducible refine heldOut_next ?_
    | with_reducible refine held_ite ?_ ?_
    | with_reducible apply dataArrives_held
    | split
    | fail)

theorem foldOut_held {p : List Instr} (i : ℕ) (e : Entry) (ms : List ℕ) (s : State) (hs : Held p s) :
    Held p (foldOut i e ms s) := by
  unfold foldOut
  repeat' (first
    | with_reducible assumption
    | with_reducible apply sramRead_held
    | with_reducible apply foldCw_held
    | with_reducible apply modSlot_held
    | with_reducible refine held_foldl (fun _ _ _ => ?_) _ ?_
    | split
    | fail)

theorem padInstead_held {p : List Instr} (e : Entry) (i : ℕ) (s : State) (m : ℕ) (hs : Held p s) :
    Held p (padInstead e i s m) := by
  unfold padInstead
  repeat' (first
    | with_reducible assumption
    | with_reducible apply foldsAway_held
    | with_reducible apply sendGo_held
    | with_reducible apply modJob_held
    | with_reducible apply padMember_held
    | split
    | fail)

theorem writeFetchFailed.abortPrograms_held {p : List Instr} (e : Entry) (s : State) (hs : Held p s) :
    Held p (writeFetchFailed.abortPrograms e s) := by
  unfold writeFetchFailed.abortPrograms
  repeat' (first
    | with_reducible assumption
    | with_reducible apply abortPopped_held
    | with_reducible apply withdraw_held
    | with_reducible apply modEntry_held
    | fail)

theorem writeFetchFailed_held {p : List Instr} (e : Entry) (s : State) (hs : Held p s) : Held p (writeFetchFailed e s) := by
  unfold writeFetchFailed
  dsimp only
  have h1 := noteStatus_held e.eid 0x50 0xF0 _ (modEntry_held e.eid (fun e => { e with hostErr := true }) s hs)
  revert h1
  generalize noteStatus e.eid 0x50 0xF0 (modEntry e.eid (fun e => { e with hostErr := true }) s) = t
  intro h1
  have h2 : Held p ({ t with host := { t.host with rstalled := t.host.rstalled.filter (fun q =>
      match q.what with | .data x _ => x != e.eid | _ => true) } } : State) := by
    with_reducible apply Held.upd h1 <;> first
      | with_reducible exact id
      | (unfold HostPorts.wf; with_reducible exact id)
  revert h2
  generalize ({ t with host := { t.host with rstalled := t.host.rstalled.filter (fun q =>
      match q.what with | .data x _ => x != e.eid | _ => true) } } : State) = u
  intro h2
  split
  · refine held_ite ?_ (writeFetchFailed.abortPrograms_held _ _ h2)
    refine sealSlot_held _ _ (abortPopped_held _ _ (modEntry_held _ _ _ ?_))
    exact held_foldl (fun s m h => padInstead_held _ _ _ _ h) _
      (withdraw_held _ _ (modSlot_held _ _ _ (foldOut_held _ _ _ _ h2)))
  · exact writeFetchFailed.abortPrograms_held _ _ h2

theorem notePassed_held {p : List Instr} (g : ℕ) (r : ℕ) (m : ℕ) (s : State) (hs : Held p s) :
    Held p (notePassed g r m s).2 := by
  unfold notePassed
  repeat' (first
    | with_reducible assumption
    | with_reducible apply modSlot_held
    | with_reducible apply Held.upd (by assumption)
    | with_reducible exact id
    | (extract_lets +onlyGivenNames x; subst x)
    | split
    | fail)

theorem programPassed_held {p : List Instr} (e : Entry) (m : ℕ) (s : State) (hs : Held p s) :
    Held p (programPassed e m s) := by
  unfold programPassed
  repeat' (first
    | with_reducible assumption
    | with_reducible apply notePassed_held
    | with_reducible apply rowMembersRec_held
    | with_reducible apply modEntry_held
    | fail)

theorem programFailed_held {p : List Instr} (e : Entry) (m : ℕ) (outcome : ℕ) (s : State) (hs : Held p s) :
    Held p (programFailed e m outcome s) := by
  unfold programFailed
  repeat' (first
    | with_reducible assumption
    | with_reducible refine held_ite ?_ ?_
    | with_reducible apply modEntry_held
    | with_reducible apply modSlot_held
    | with_reducible apply programDown_held
    | with_reducible apply noteStatus_held
    | with_reducible apply closeGroup_held
    | split
    | fail)

theorem programCut_held {p : List Instr} (e : Entry) (m : ℕ) (s : State) (hs : Held p s) :
    Held p (programCut e m s) := by
  unfold programCut
  repeat' (first
    | with_reducible assumption
    | with_reducible apply modEntry_held
    | fail)

theorem settleWrite_held {p : List Instr} (s : State) (e : Entry) (hs : Held p s) :
    Held p (settleWrite s e) := by
  unfold settleWrite
  repeat' (first
    | with_reducible assumption
    | with_reducible refine held_ite ?_ ?_
    | with_reducible apply modEntry_held
    | fail)

/-! ### Machine/Groups.lean -/

theorem execRead_held {p : List Instr} (eid : ℕ) (list : List Sys2Proof.HostRead) (s : State) (hs : Held p s) :
    HeldOut p (execRead eid list s) := by
  unfold execRead
  repeat' (first
    | with_reducible assumption
    | with_reducible refine heldOut_next ?_
    | with_reducible refine held_ite ?_ ?_
    | with_reducible refine dispatch_held _ _ _ _ ?_ (fun _ _ _ => ?_)
    | with_reducible apply fetchList_held
    | with_reducible apply stopAt_held
    | with_reducible apply refuse_held
    | with_reducible apply modEntry_held
    | with_reducible apply pumpReads_held
    | with_reducible apply settleRead_held
    | (extract_lets +onlyGivenNames x; refine (have hx : Held p x := ?_; ?_); on_goal 2 => try clear_value x; on_goal 1 => subst x)
    | (extract_lets +onlyGivenNames x; subst x)
    | split
    | fail)

theorem execReleaseGroup_held {p : List Instr} (eid : ℕ) (s : State) (hs : Held p s) :
    HeldOut p (execReleaseGroup eid s) := by
  unfold execReleaseGroup
  repeat' (first
    | with_reducible assumption
    | with_reducible refine heldOut_next ?_
    | with_reducible refine held_ite ?_ ?_
    | with_reducible refine dispatch_held _ _ _ _ ?_ (fun _ _ _ => ?_)
    | with_reducible apply refuse_held
    | with_reducible apply addRec_held
    | with_reducible apply modEntry_held
    | fail)

theorem dropSlots_held {p : List Instr} (g : ℕ) (s : State) (hs : Held p s) :
    Held p (dropSlots g s) := by
  unfold dropSlots
  repeat' (first
    | with_reducible apply Held.upd (by assumption)
    | with_reducible exact id
    | (intro h; simpa only [List.length_set, List.length_modify, List.length_map] using h)
    | fail)

theorem releaseNow_held {p : List Instr} (e : Entry) (s : State) (hs : Held p s) :
    Held p (releaseNow e s) := by
  unfold releaseNow
  repeat' (first
    | with_reducible assumption
    | with_reducible apply dropSlots_held
    | with_reducible apply freeDir_held
    | with_reducible apply clearLedgerGroup_held
    | with_reducible apply modEntry_held
    | with_reducible apply setDegraded_held
    | with_reducible apply addErase_held
    | with_reducible refine held_foldl (fun _ _ _ => ?_) _ ?_
    | fail)

theorem releaseErased_held {p : List Instr} (eid : ℕ) (m : ℕ) (outcome : ℕ) (s : State) (hs : Held p s) :
    Held p (releaseErased eid m outcome s) := by
  unfold releaseErased
  repeat' (first
    | with_reducible assumption
    | with_reducible refine held_ite ?_ ?_
    | with_reducible apply modEntry_held
    | with_reducible apply noteStatus_held
    | fail)

theorem settleRelease_held {p : List Instr} (s : State) (e : Entry) (hs : Held p s) :
    Held p (settleRelease s e) := by
  unfold settleRelease
  repeat' (first
    | with_reducible assumption
    | with_reducible refine held_ite ?_ ?_
    | with_reducible apply releaseNow_held
    | with_reducible apply modEntry_held
    | split
    | fail)

theorem settleFlush_held {p : List Instr} (s : State) (e : Entry) (hs : Held p s) :
    Held p (settleFlush s e) := by
  unfold settleFlush
  repeat' (first
    | with_reducible assumption
    | with_reducible refine held_ite ?_ ?_
    | with_reducible apply endEntry_held
    | with_reducible apply modEntry_held
    | split
    | fail)

theorem execFlush_held {p : List Instr} (eid : ℕ) (s : State) (hs : Held p s) :
    HeldOut p (execFlush eid s) := by
  unfold execFlush
  repeat' (first
    | with_reducible assumption
    | with_reducible refine heldOut_next ?_
    | with_reducible refine held_ite ?_ ?_
    | with_reducible refine dispatch_held _ _ _ _ ?_ (fun _ _ _ => ?_)
    | with_reducible apply refuse_held
    | with_reducible apply modEntry_held
    | with_reducible apply settleFlush_held
    | (extract_lets +onlyGivenNames x; refine (have hx : Held p x := ?_; ?_); on_goal 2 => try clear_value x; on_goal 1 => subst x)
    | (extract_lets +onlyGivenNames x; subst x)
    | split
    | fail)

theorem execRawJig_held {p : List Instr} (eid : ℕ) (data : Sys2Proof.HostRead) (s : State) (hs : Held p s) :
    HeldOut p (execRawJig eid data s) := by
  unfold execRawJig
  repeat' (first
    | with_reducible assumption
    | with_reducible refine heldOut_next ?_
    | with_reducible refine held_ite ?_ ?_
    | with_reducible refine dispatch_held _ _ _ _ ?_ (fun _ _ _ => ?_)
    | with_reducible apply refuse_held
    | with_reducible apply fetchHost_held
    | with_reducible apply addJob_held
    | with_reducible apply modEntry_held
    | (extract_lets +onlyGivenNames x; refine (have hx : Held p x := ?_; ?_); on_goal 2 => try clear_value x; on_goal 1 => subst x)
    | split
    | fail)

theorem markOpening_held {p : List Instr} (g : ℕ) (s : State) (hs : Held p s) :
    Held p (markOpening g s) := by
  unfold markOpening
  repeat' (first
    | with_reducible apply Held.upd (by assumption)
    | with_reducible exact id
    | fail)

theorem execGroupOpen_held {p : List Instr} (eid : ℕ) (s : State) (hs : Held p s) :
    HeldOut p (execGroupOpen eid s) := by
  unfold execGroupOpen
  repeat' (first
    | with_reducible assumption
    | with_reducible refine heldOut_next ?_
    | with_reducible refine held_ite ?_ ?_
    | with_reducible refine dispatch_held _ _ _ _ ?_ (fun _ _ _ => ?_)
    | with_reducible apply refuse_held
    | with_reducible apply modEntry_held
    | with_reducible apply markOpening_held
    | with_reducible apply addErase_held
    | with_reducible refine held_foldl (fun _ _ _ => ?_) _ ?_
    | (extract_lets +onlyGivenNames x; refine (have hx : Held p x := ?_; ?_); on_goal 2 => try clear_value x; on_goal 1 => subst x)
    | split
    | fail)

theorem openErased_held {p : List Instr} (eid : ℕ) (m : ℕ) (outcome : ℕ) (s : State) (hs : Held p s) :
    Held p (openErased eid m outcome s) := by
  unfold openErased
  repeat' (first
    | with_reducible assumption
    | with_reducible refine held_ite ?_ ?_
    | with_reducible apply modEntry_held
    | with_reducible apply noteStatus_held
    | split
    | fail)

theorem settleOpen_held {p : List Instr} (s : State) (e : Entry) (hs : Held p s) :
    Held p (settleOpen s e) := by
  unfold settleOpen
  repeat' (first
    | with_reducible assumption
    | with_reducible refine held_ite ?_ ?_
    | with_reducible apply openGroup_held
    | with_reducible apply modEntry_held
    | with_reducible apply undoOpen_held
    | fail)

theorem execGroupClose_held {p : List Instr} (eid : ℕ) (s : State) (hs : Held p s) :
    HeldOut p (execGroupClose eid s) := by
  unfold execGroupClose
  repeat' (first
    | with_reducible assumption
    | with_reducible refine heldOut_next ?_
    | with_reducible refine held_ite ?_ ?_
    | with_reducible refine dispatch_held _ _ _ _ ?_ (fun _ _ _ => ?_)
    | with_reducible apply refuse_held
    | with_reducible apply closeGroup_held
    | with_reducible apply modEntry_held
    | fail)

theorem settleClose_held {p : List Instr} (s : State) (e : Entry) (hs : Held p s) :
    Held p (settleClose s e) := by
  unfold settleClose
  repeat' (first
    | with_reducible assumption
    | with_reducible refine held_ite ?_ ?_
    | with_reducible apply modEntry_held
    | fail)

theorem execRebuildStart_held {p : List Instr} (eid : ℕ) (s : State) (hs : Held p s) :
    HeldOut p (execRebuildStart eid s) := by
  unfold execRebuildStart
  repeat' (first
    | with_reducible assumption
    | with_reducible refine heldOut_next ?_
    | with_reducible refine held_ite ?_ ?_
    | with_reducible refine dispatch_held _ _ _ _ ?_ (fun _ _ _ => ?_)
    | with_reducible apply refuse_held
    | with_reducible apply endEntry_held
    | with_reducible apply queueRebuild_held
    | split
    | fail)

theorem beginRefit_held {p : List Instr} (a0 : Plan) (s : State) (hs : Held p s) :
    Held p (beginRefit a0 s) := by
  unfold beginRefit
  repeat' (first
    | with_reducible assumption
    | with_reducible apply closeGroup_held
    | with_reducible apply addRec_held
    | with_reducible apply writeDir_held
    | with_reducible apply markOpening_held
    | with_reducible apply addErase_held
    | with_reducible apply patrolUpdate_held
    | with_reducible apply setConds_held
    | with_reducible refine held_foldl (fun _ _ _ => ?_) _ ?_
    | with_reducible exact id
    | (extract_lets +onlyGivenNames x; subst x)
    | (with_reducible apply Held.upd; on_goal 1 => (with_reducible refine held_foldl (fun _ _ _ => ?_) _ ?_))
    | (with_reducible apply Held.upd; on_goal 1 => (with_reducible refine held_snd (by assumption) ?_; with_reducible apply addErase_held))
    | (with_reducible apply Held.upd; on_goal 1 => (with_reducible refine held_third (by assumption) ?_; with_reducible apply addErase_held))
    | (with_reducible apply Held.upd; on_goal 1 => (with_reducible apply addErase_held))
    | (with_reducible refine held_snd (by assumption) ?_; split)
    | (intro h; exact h)
    | intro _
    | fail)

theorem execRefitStart_held {p : List Instr} (eid : ℕ) (plan : Sys2Proof.HostRead) (s : State) (hs : Held p s) :
    HeldOut p (execRefitStart eid plan s) := by
  unfold execRefitStart
  repeat' (first
    | with_reducible assumption
    | with_reducible refine heldOut_next ?_
    | with_reducible refine held_ite ?_ ?_
    | with_reducible refine dispatch_held _ _ _ _ ?_ (fun _ _ _ => ?_)
    | with_reducible apply fetchHost_held
    | with_reducible apply refuse_held
    | with_reducible apply stopAt_held
    | with_reducible apply endEntry_held
    | with_reducible apply beginRefit_held
    | (extract_lets +onlyGivenNames x; refine (have hx : Held p x := ?_; ?_); on_goal 2 => try clear_value x; on_goal 1 => subst x)
    | split
    | fail)

theorem patrolCtl_held {p : List Instr} (eid : ℕ) (action : ℕ) (f : Entry → State → State) (s : State) (hf : ∀ e x, Held p x → Held p (f e x)) (hs : Held p s) :
    Held p (patrolCtl eid action f s) := by
  unfold patrolCtl
  repeat' (first
    | with_reducible assumption
    | with_reducible apply hf
    | with_reducible refine held_ite ?_ ?_
    | with_reducible refine dispatch_held _ _ _ _ ?_ (fun _ _ _ => ?_)
    | with_reducible apply patrolUpdate_held
    | with_reducible apply endEntry_held
    | fail)

theorem execPatrolPause_held {p : List Instr} (eid : ℕ) (s : State) (hs : Held p s) :
    HeldOut p (execPatrolPause eid s) := by
  unfold execPatrolPause
  repeat' (first
    | with_reducible assumption
    | with_reducible refine heldOut_next ?_
    | with_reducible apply patrolCtl_held
    | with_reducible apply Held.upd (by assumption)
    | with_reducible exact id
    | intro _
    | fail)

theorem execPatrolResume_held {p : List Instr} (eid : ℕ) (s : State) (hs : Held p s) :
    HeldOut p (execPatrolResume eid s) := by
  unfold execPatrolResume
  repeat' (first
    | with_reducible assumption
    | with_reducible refine heldOut_next ?_
    | with_reducible apply patrolCtl_held
    | with_reducible apply Held.upd (by assumption)
    | with_reducible exact id
    | intro _
    | fail)

theorem execPatrolSetRate_held {p : List Instr} (eid : ℕ) (s : State) (hs : Held p s) : HeldOut p (execPatrolSetRate eid s) := by
  unfold execPatrolSetRate
  refine heldOut_next (patrolCtl_held _ _ _ _ (fun e x hx => ?_) hs)
  have h1 : Held p (if stored 0x2900 3 x == le 4 (fld e.options.toNat 32 32) then x
      else saveRecord 0x2900 3 (le 4 (fld e.options.toNat 32 32)) x) := held_ite hx (saveRecord_held _ _ _ _ hx)
  with_reducible apply Held.upd h1 <;> try with_reducible exact id
  unfold Dict.wf; with_reducible exact id

theorem execPatrolNewLap_held {p : List Instr} (eid : ℕ) (s : State) (hs : Held p s) :
    HeldOut p (execPatrolNewLap eid s) := by
  unfold execPatrolNewLap
  repeat' (first
    | with_reducible assumption
    | with_reducible refine heldOut_next ?_
    | with_reducible apply patrolCtl_held
    | with_reducible apply newLap_held
    | intro _
    | fail)

theorem execNop_held {p : List Instr} (eid : ℕ) (s : State) (hs : Held p s) :
    HeldOut p (execNop eid s) := by
  unfold execNop
  repeat' (first
    | with_reducible assumption
    | with_reducible refine heldOut_next ?_
    | with_reducible refine dispatch_held _ _ _ _ ?_ (fun _ _ _ => ?_)
    | with_reducible apply endEntry_held
    | fail)

/-! ### Machine/Microword.lean -/

theorem upsetWord_held {p : List Instr} (ch : ℕ) (a : ℕ) (mask : BitVec 160) (s : State) (hs : Held p s) :
    Held p (upsetWord ch a mask s) := by
  unfold upsetWord
  refine held_ite hs ?_
  exact modJig_held _ _ _ (fun j h => putStore_wf _ _ h) hs

/-! ### Machine/Services.lean -/

theorem useEntry_held {p : List Instr} (g : ℕ) (w : Sys2Proof.HostRead) (s : State) (hs : Held p s) :
    Held p (useEntry g w s).2 := by
  unfold useEntry
  repeat' (first
    | with_reducible assumption
    | with_reducible apply cacheTouch_held
    | with_reducible apply fetchHost_held
    | with_reducible apply Held.upd (by assumption)
    | with_reducible exact id
    | (extract_lets +onlyGivenNames x; refine (have hx : Held p x := ?_; ?_); on_goal 2 => try clear_value x; on_goal 1 => subst x)
    | (extract_lets +onlyGivenNames x; subst x)
    | split
    | fail)

theorem withEntry_held {p : List Instr} (g : ℕ) (w : HostRead) (f : State → State) (s : State)
    (hf : ∀ t, Held p t → Held p (f t)) (hs : Held p s) : Held p (withEntry g w f s) := by
  have h := useEntry_held g w s hs
  unfold withEntry
  dsimp only
  split
  · exact hf _ h
  · exact h

theorem addCws_held {p : List Instr} (l : List Cw) (s : State) (hs : Held p s) :
    Held p (addCws l s) := by
  unfold addCws
  repeat' (first
    | with_reducible apply Held.upd (by assumption)
    | with_reducible exact id
    | fail)

theorem readWant_held {p : List Instr} (a0 : ℕ) (prio : ℕ) (x : Want) (s : State) (hs : Held p s) :
    HeldOpt p (readWant a0 prio x s) := by
  unfold readWant
  repeat' (first
    | with_reducible assumption
    | with_reducible refine heldOpt_some ?_
    | with_reducible exact heldOpt_none
    | with_reducible refine heldOpt_ite ?_ ?_
    | with_reducible apply addCws_held
    | with_reducible apply addRead_held
    | with_reducible apply Held.upd (by assumption)
    | with_reducible exact id
    | (extract_lets +onlyGivenNames x; subst x)
    | split
    | fail)

theorem readWants_held {p : List Instr} (id prio : ℕ) (l : List Want) (s : State) (hs : Held p s) : HeldOpt p (readWants id prio l s) := by
  unfold readWants
  have h (o : Option State) (ho : HeldOpt p o) : HeldOpt p (l.foldl (fun acc x => acc.bind (readWant id prio x)) o) := by
    induction l generalizing o with
    | nil => exact ho
    | cons x l ih =>
      rw [List.foldl_cons]
      refine ih _ ?_
      cases o with
      | none => exact heldOpt_none
      | some t => rw [Option.bind_some]; exact readWant_held _ _ _ _ (ho t rfl)
  exact h _ (heldOpt_some hs)

theorem readBare_held {p : List Instr} (c : Cw) (d : List Byte × Bool × State) (hd : Held p d.2.2) : Held p (readBare c d).2.2 := hd

theorem readLabelled_held {p : List Instr} (c : Cw) (u : List Byte) (ok fits : Bool) (l : List Byte × Bool × State)
    (hl : Held p l.2.2) : Held p (readLabelled c u ok fits l).2.2 := hl

theorem readOf_held {p : List Instr} (c : Cw) (s : State) (hs : Held p s) : Held p (readOf c s).2.2 := by
  have h1 := sramRead_held (landOff c.slot) 4096 s hs
  have h2 := sramRead_held (landOff (c.slot + 1)) 32 _ h1
  unfold readOf
  extract_lets d l
  split
  · exact hs
  · split
    · exact readLabelled_held _ _ _ _ _ h2
    · exact readBare_held _ _ h1

theorem gatherStep_held {p : List Instr} (acc : List MemberRead × Bool × State) (c : Cw) (hacc : Held p acc.2.2) :
    Held p (gatherStep acc c).2.2 := by
  unfold gatherStep
  repeat' (first
    | with_reducible assumption
    | with_reducible apply readOf_held
    | fail)

theorem gather_held {p : List Instr} (cs : List Cw) (s : State) (hs : Held p s) :
    Held p (gather cs s).2.2 := by
  unfold gather
  repeat' (first
    | with_reducible assumption
    | with_reducible apply gatherStep_held
    | with_reducible refine held_foldl_third (fun _ _ _ => ?_) _ ?_
    | fail)

theorem enterIndex_held {p : List Instr} (g : ℕ) (r : ℕ) (c : ℕ) (mask : ℕ) (cause : ℕ) (reads : List MemberRead) (s : State) (hs : Held p s) :
    Held p (enterIndex g r c mask cause reads s) := by
  unfold enterIndex
  repeat' (first
    | with_reducible assumption
    | with_reducible refine held_ite ?_ ?_
    | with_reducible apply addLoss_held
    | with_reducible refine held_foldl (fun _ _ _ => ?_) _ ?_
    | fail)

theorem rebuildCodeword_held {p : List Instr} (c : Cw) (got : List MemberRead) (s : State) (hs : Held p s) :
    Held p (rebuildCodeword c got s) := by
  unfold rebuildCodeword
  dsimp only
  refine held_ite (landCw_held _ _ _ hs) ?_
  split
  · refine landCw_held _ _ _ (countResolved_held _ _ ?_)
    split
    · exact modEntry_held _ _ _ hs
    · exact hs
  · have h1 := enterIndex_held c.group c.row c.cw (maskWith c.group c.row got s) 1 got s hs
    revert h1; generalize enterIndex c.group c.row c.cw (maskWith c.group c.row got s) 1 got s = t; intro h1
    have h2 : Held p ({ t with recov := { t.recov with lost := t.recov.lost + 1 } } : State) := by
      with_reducible apply Held.upd h1 <;> with_reducible exact id
    revert h2; generalize ({ t with recov := { t.recov with lost := t.recov.lost + 1 } } : State) = u; intro h2
    split
    · rename_i e _
      have h3 := dropJobs_held _ (loseCw_held e 2 _ (dropCw_held c.job c.cw u h2))
      exact held_ite h3 (awaitRecord_held _ _ h3)
    · exact modCw_held _ _ _ _ h2

theorem beginStepSix_held {p : List Instr} (c : Cw) (s : State) (hs : Held p s) :
    Held p (beginStepSix c s) := by
  unfold beginStepSix
  repeat' (first
    | with_reducible assumption
    | with_reducible apply takeRow_held
    | with_reducible apply modCw_held
    | with_reducible apply noteLadder_held
    | (with_reducible refine held_some (by assumption) ?_; with_reducible apply readWants_held)
    | (extract_lets +onlyGivenNames x; subst x)
    | split
    | fail)

theorem endStepSix_held {p : List Instr} (run : RowRun) (s : State) (hs : Held p s) :
    Held p (endStepSix run s) := by
  unfold endStepSix
  repeat' (first
    | with_reducible assumption
    | with_reducible refine held_ite ?_ ?_
    | with_reducible apply gather_held
    | with_reducible apply rebuildCodeword_held
    | with_reducible apply endRow_held
    | split
    | fail)

theorem execReconstruction_held {p : List Instr} (job : ℕ) (cw : ℕ) (w : Sys2Proof.HostRead) (s : State) (hs : Held p s) :
    HeldOut p (execReconstruction job cw w s) := by
  unfold execReconstruction
  repeat' (first
    | with_reducible assumption
    | with_reducible refine heldOut_next ?_
    | with_reducible refine held_ite ?_ ?_
    | with_reducible apply endStepSix_held
    | exact withEntry_held _ _ _ _ (fun _ h => beginStepSix_held _ _ h) (by assumption)
    | split
    | fail)

theorem settleRuns_held {p : List Instr} (s : State) (hs : Held p s) :
    Held p (settleRuns s) := by
  unfold settleRuns
  repeat' (first
    | with_reducible assumption
    | with_reducible apply endRows_held
    | fail)

theorem beginRebuildRow_held {p : List Instr} (s : State) (hs : Held p s) :
    Held p (beginRebuildRow s) := by
  unfold beginRebuildRow
  repeat' (first
    | with_reducible assumption
    | with_reducible apply takeRow_held
    | (with_reducible refine held_some (by assumption) ?_; with_reducible apply readWants_held)
    | (extract_lets +onlyGivenNames x; subst x)
    | split
    | fail)

theorem programSpare_held {p : List Instr} (run : RowRun) (page : List PageCw) (sealW : BitVec 96) (s : State) (hs : Held p s) :
    Held p (programSpare run page sealW s) := by
  unfold programSpare
  repeat' (first
    | with_reducible assumption
    | with_reducible apply dropReads_held
    | with_reducible apply programMember_held
    | with_reducible exact id
    | (with_reducible apply Held.upd; on_goal 1 => (with_reducible apply modRun_held))
    | fail)

theorem endRebuildRow_held {p : List Instr} (run : RowRun) (all : List MemberRead) (s : State) (hs : Held p s) :
    Held p (endRebuildRow run all s) := by
  unfold endRebuildRow
  repeat' (first
    | with_reducible assumption
    | with_reducible refine held_ite ?_ ?_
    | with_reducible apply rebuildSeal_held
    | with_reducible apply enterLosses_held
    | with_reducible apply programSpare_held
    | with_reducible apply bgEvent_held
    | with_reducible apply reachEnd_held
    | with_reducible apply advance_held
    | with_reducible apply endRow_held
    | fail)

theorem stepRebuild_held {p : List Instr} (run : RowRun) (s : State) (hs : Held p s) :
    Held p (stepRebuild run s) := by
  unfold stepRebuild
  repeat' (first
    | with_reducible assumption
    | with_reducible refine held_ite ?_ ?_
    | with_reducible apply gather_held
    | with_reducible apply endRebuildRow_held
    | with_reducible apply modRun_held
    | (with_reducible refine held_some (by assumption) ?_; with_reducible apply readWants_held)
    | split
    | fail)

theorem startMember_held {p : List Instr} (r : Rebuild) (s : State) (hs : Held p s) :
    Held p (startMember r s) := by
  unfold startMember
  repeat' (first
    | with_reducible assumption
    | with_reducible refine held_ite ?_ ?_
    | with_reducible apply abandonMember_held
    | with_reducible apply beginMember_held
    | with_reducible apply popRebuild_held
    | with_reducible apply Held.upd (by assumption)
    | with_reducible exact id
    | (extract_lets +onlyGivenNames x; subst x)
    | split
    | fail)

theorem nextGroup_held {p : List Instr} (s : State) (hs : Held p s) :
    Held p (nextGroup s) := by
  unfold nextGroup
  repeat' (first
    | with_reducible assumption
    | with_reducible exact id
    | (with_reducible apply Held.upd; on_goal 1 => (with_reducible apply leaveMember_held))
    | fail)

theorem execRebuildRow_held {p : List Instr} (w : Sys2Proof.HostRead) (s : State) (hs : Held p s) :
    HeldOut p (execRebuildRow w s) := by
  unfold execRebuildRow
  repeat' (first
    | with_reducible assumption
    | with_reducible refine heldOut_next ?_
    | with_reducible refine held_ite ?_ ?_
    | with_reducible apply stepRebuild_held
    | with_reducible apply startMember_held
    | with_reducible apply nextGroup_held
    | with_reducible apply abandonMember_held
    | exact withEntry_held _ _ _ _ (fun _ h => beginRebuildRow_held _ h) (by assumption)
    | with_reducible apply reachEnd_held
    | split
    | fail)

theorem spareEnd_held {p : List Instr} (a0 : ℕ) (outcome : ℕ) (s : State) (hs : Held p s) :
    Held p (spareEnd a0 outcome s) := by
  unfold spareEnd
  repeat' (first
    | with_reducible assumption
    | with_reducible refine held_ite ?_ ?_
    | with_reducible apply reachEnd_held
    | with_reducible apply advance_held
    | with_reducible apply endRow_held
    | with_reducible apply spareFailed_held
    | split
    | fail)

theorem repairEnd_held {p : List Instr} (a0 : ℕ) (outcome : ℕ) (s : State) (hs : Held p s) :
    Held p (repairEnd a0 outcome s) := by
  unfold repairEnd
  repeat' (first
    | with_reducible assumption
    | with_reducible refine held_ite ?_ ?_
    | with_reducible apply endRow_held
    | with_reducible apply programDown_held
    | (extract_lets +onlyGivenNames x; refine (have hx : Held p x := ?_; ?_); on_goal 2 => try clear_value x; on_goal 1 => subst x)
    | split
    | fail)

theorem spareErased_held {p : List Instr} (outcome : ℕ) (s : State) (hs : Held p s) :
    Held p (spareErased outcome s) := by
  unfold spareErased
  repeat' (first
    | with_reducible assumption
    | with_reducible refine held_ite ?_ ?_
    | with_reducible apply spareFailed_held
    | with_reducible apply nextGroup_held
    | with_reducible apply reachEnd_held
    | with_reducible apply memberBegun_held
    | with_reducible apply Held.upd (by assumption)
    | with_reducible exact id
    | (extract_lets +onlyGivenNames x; subst x)
    | split
    | fail)

theorem beginPatrolRow_held {p : List Instr} (g : ℕ) (r : ℕ) (s : State) (hs : Held p s) :
    Held p (beginPatrolRow g r s) := by
  unfold beginPatrolRow
  repeat' (first
    | with_reducible assumption
    | with_reducible apply takeRow_held
    | with_reducible exact id
    | (with_reducible apply Held.upd; on_goal 1 => (with_reducible refine held_some (by assumption) ?_; with_reducible apply readWants_held))
    | (extract_lets +onlyGivenNames x; subst x)
    | split
    | fail)

theorem endPatrolRow_held {p : List Instr} (run : RowRun) (s : State) (hs : Held p s) :
    Held p (endPatrolRow run s) := by
  unfold endPatrolRow
  repeat' (first
    | with_reducible assumption
    | with_reducible refine held_ite ?_ ?_
    | with_reducible apply gather_held
    | with_reducible apply patrolOne_held
    | with_reducible apply endRow_held
    | fail)

theorem execPatrolRow_held {p : List Instr} (w : Sys2Proof.HostRead) (s : State) (hs : Held p s) :
    HeldOut p (execPatrolRow w s) := by
  unfold execPatrolRow
  repeat' (first
    | with_reducible assumption
    | with_reducible refine heldOut_next ?_
    | with_reducible refine held_ite ?_ ?_
    | with_reducible apply patrolUpdate_held
    | with_reducible apply endPatrolRow_held
    | exact withEntry_held _ _ _ _ (fun _ h => beginPatrolRow_held _ _ _ h) (by assumption)
    | with_reducible apply newLap_held
    | (extract_lets +onlyGivenNames x; refine (have hx : Held p x := ?_; ?_); on_goal 2 => try clear_value x; on_goal 1 => subst x)
    | split
    | fail)

theorem placeRefit_held {p : List Instr} (run : RowRun) (s : State) (hs : Held p s) :
    Held p (placeRefit run s) := by
  unfold placeRefit
  repeat' (first
    | with_reducible assumption
    | with_reducible apply modRun_held
    | (with_reducible refine held_some (by assumption) ?_; with_reducible apply readWants_held)
    | split
    | fail)

theorem pageAdd_held {p : List Instr} (k : ℕ) (acc : List PageCw × Bool × State) (d : List Byte × Bool × State)
    (_ : Held p acc.2.2) (hd : Held p d.2.2) : Held p (pageAdd k acc d).2.2 := hd

theorem pageStep_held {p : List Instr} (id k : ℕ) (u : Option (ℕ × ℕ × ℕ)) (x : List PageCw × Bool × State) (c : ℕ)
    (h : Held p x.2.2) : Held p (pageStep id k u x c).2.2 := by
  unfold pageStep
  split
  · exact h
  · split
    · exact pageAdd_held _ _ _ h (sramRead_held _ _ _ h)
    · exact h

theorem targetPage_held {p : List Instr} (id k : ℕ) (u : Option (ℕ × ℕ × ℕ)) (s : State) (hs : Held p s) :
    Held p (targetPage id k u s).2.2 := held_foldl_third (fun x c h => pageStep_held _ _ _ x c h) _ hs

theorem sealTarget_held {p : List Instr} (run : RowRun) (s : State) (hs : Held p s) :
    Held p (sealTarget run s) := by
  unfold sealTarget
  repeat' (first
    | with_reducible assumption
    | with_reducible apply modRun_held
    | with_reducible apply dropReads_held
    | with_reducible apply sealSlot_held
    | with_reducible apply writeDir_held
    | (extract_lets +onlyGivenNames x; refine (have hx : Held p x := ?_; ?_); on_goal 2 => try clear_value x; on_goal 1 => subst x)
    | split
    | fail)

theorem programNext_held {p : List Instr} (a0 : ℕ) (s : State) (hs : Held p s) : Held p (programNext a0 s) := by
  unfold programNext
  split
  · dsimp only
    split
    · rename_i k _
      have h1 := targetPage_held a0 k ((rowFill s)[k]?) s hs
      revert h1; generalize targetPage a0 k ((rowFill s)[k]?) s = d; intro h1
      exact held_ite (programMember_held _ _ _ _ _ _ _ _ _ (modRun_held _ _ _ h1)) h1
    · exact sealTarget_held _ _ hs
  · exact hs

theorem foldUnit_held {p : List Instr} (a0 : ℕ) (i : ℕ) (k : ℕ) (u : ℕ × ℕ × ℕ) (s : State) (hs : Held p s) :
    Held p (foldUnit a0 i k u s) := by
  unfold foldUnit
  repeat' (first
    | with_reducible assumption
    | with_reducible apply sramRead_held
    | with_reducible apply foldCw_held
    | with_reducible refine held_foldl (fun _ _ _ => ?_) _ ?_
    | split
    | fail)

theorem refitLosses_held {p : List Instr} (a0 : ℕ) (g : ℕ) (row : ℕ) (us : List (ℕ × ℕ × ℕ)) (s : State) (hs : Held p s) :
    Held p (refitLosses a0 g row us s) := by
  unfold refitLosses
  repeat' (first
    | with_reducible assumption
    | with_reducible refine held_ite ?_ ?_
    | with_reducible apply addLoss_held
    | with_reducible refine held_foldl (fun _ _ _ => ?_) _ ?_
    | fail)

theorem copyRow_held {p : List Instr} (run : RowRun) (s : State) (hs : Held p s) :
    Held p (copyRow run s) := by
  unfold copyRow
  repeat' (first
    | with_reducible assumption
    | with_reducible apply refitLosses_held
    | with_reducible apply modSlot_held
    | with_reducible apply assignSlot_held
    | with_reducible apply foldUnit_held
    | with_reducible apply programNext_held
    | with_reducible apply modRun_held
    | (with_reducible refine held_third (by assumption) ?_; with_reducible apply gather_held)
    | with_reducible refine held_foldl (fun _ _ _ => ?_) _ ?_
    | with_reducible exact id
    | (with_reducible apply Held.upd; on_goal 1 => (with_reducible refine held_third (by assumption) ?_; with_reducible apply gather_held))
    | (extract_lets +onlyGivenNames x; refine (have hx : Held p x := ?_; ?_); on_goal 2 => try clear_value x; on_goal 1 => subst x)
    | (extract_lets +onlyGivenNames x; subst x)
    | split
    | fail)

theorem endTargetRow_held {p : List Instr} (run : RowRun) (s : State) (hs : Held p s) :
    Held p (endTargetRow run s) := by
  unfold endTargetRow
  repeat' (first
    | with_reducible assumption
    | with_reducible apply afterTargetRow_held
    | with_reducible apply endRow_held
    | fail)

theorem countCut_held {p : List Instr} (run : RowRun) (cut : List ℕ) (s : State) (hs : Held p s) :
    Held p (countCut run cut s) := by
  unfold countCut
  repeat' (first
    | with_reducible assumption
    | with_reducible apply bgEvent_held
    | with_reducible refine held_foldl (fun _ _ _ => ?_) _ ?_
    | with_reducible apply Held.upd (by assumption)
    | with_reducible exact id
    | fail)

theorem judgeSeal_held {p : List Instr} (run : RowRun) (reads : List MemberRead) (s : State) (hs : Held p s) :
    Held p (judgeSeal run reads s) := by
  unfold judgeSeal
  repeat' (first
    | with_reducible assumption
    | with_reducible apply endTargetRow_held
    | with_reducible apply adoptRow_held
    | with_reducible apply modRun_held
    | with_reducible apply dropReads_held
    | with_reducible apply countCut_held
    | (extract_lets +onlyGivenNames x; subst x)
    | split
    | fail)

theorem judgeMembers_held {p : List Instr} (run : RowRun) (reads : List MemberRead) (s : State) (hs : Held p s) :
    Held p (judgeMembers run reads s) := by
  unfold judgeMembers
  repeat' (first
    | with_reducible assumption
    | with_reducible apply modRun_held
    | with_reducible apply dropReads_held
    | with_reducible apply countCut_held
    | fail)

theorem judgeRefit_held {p : List Instr} (run : RowRun) (s : State) (hs : Held p s) : Held p (judgeRefit run s) := by
  have h1 := gather_held (runCws run.id s) s hs
  unfold judgeRefit
  split
  · exact held_ite h1 (held_ite (judgeSeal_held _ _ _ h1) (judgeMembers_held _ _ _ h1))
  · exact held_ite h1 (held_ite (judgeSeal_held _ _ _ h1) (judgeMembers_held _ _ _ h1))
  · exact copyRow_held _ _ hs

theorem stepRefit_held {p : List Instr} (run : RowRun) (s : State) (hs : Held p s) :
    Held p (stepRefit run s) := by
  unfold stepRefit
  repeat' (first
    | with_reducible assumption
    | with_reducible refine held_ite ?_ ?_
    | with_reducible apply placeRefit_held
    | with_reducible apply judgeRefit_held
    | with_reducible apply programNext_held
    | with_reducible apply endTargetRow_held
    | split
    | fail)

theorem beginRefitRow_held {p : List Instr} (s : State) (hs : Held p s) :
    Held p (beginRefitRow s) := by
  unfold beginRefitRow
  repeat' (first
    | with_reducible assumption
    | with_reducible apply takeRow_held
    | with_reducible apply placeRefit_held
    | (extract_lets +onlyGivenNames x; refine (have hx : Held p x := ?_; ?_); on_goal 2 => try clear_value x; on_goal 1 => subst x)
    | (extract_lets +onlyGivenNames x; subst x)
    | split
    | fail)

theorem execRefitRow_held {p : List Instr} (w : Sys2Proof.HostRead) (s : State) (hs : Held p s) :
    HeldOut p (execRefitRow w s) := by
  unfold execRefitRow
  repeat' (first
    | with_reducible assumption
    | with_reducible refine heldOut_next ?_
    | with_reducible refine held_ite ?_ ?_
    | with_reducible apply stepRefit_held
    | exact withEntry_held _ _ _ _ (fun _ h => beginRefitRow_held _ h) (by assumption)
    | split
    | fail)

theorem targetEnd_held {p : List Instr} (a0 : ℕ) (m : ℕ) (outcome : ℕ) (s : State) (hs : Held p s) :
    Held p (targetEnd a0 m outcome s) := by
  unfold targetEnd
  repeat' (first
    | with_reducible assumption
    | with_reducible refine held_ite ?_ ?_
    | with_reducible apply abandonRefit_held
    | with_reducible apply modSlot_held
    | with_reducible apply rowMembersRec_held
    | with_reducible apply modRun_held
    | with_reducible apply programNext_held
    | split
    | fail)

/-! ### Machine/JobEnd.lean -/

theorem arriveCw_held {p : List Instr} (j : Job) (kind : ℕ) (sensing : ℕ) (cw : ℕ) (bs : List Sys2Proof.Byte) (s : State) (hs : Held p s) :
    Held p (arriveCw j kind sensing cw bs s) := by
  unfold arriveCw
  repeat' (first
    | with_reducible assumption
    | with_reducible refine held_ite ?_ ?_
    | with_reducible apply queueDecode_held
    | with_reducible apply modCw_held
    | with_reducible apply writeArea_held
    | (extract_lets +onlyGivenNames x; subst x)
    | split
    | fail)

theorem arriveTruing_held {p : List Instr} (a0 : ℕ) (sensing : ℕ) (bs : List Sys2Proof.Byte) (s : State) (hs : Held p s) :
    Held p (arriveTruing a0 sensing bs s) := by
  unfold arriveTruing
  repeat' (first
    | with_reducible assumption
    | with_reducible refine held_ite ?_ ?_
    | with_reducible apply modSearch_held
    | with_reducible apply writeArea_held
    | (extract_lets +onlyGivenNames x; refine (have hx : Held p x := ?_; ?_); on_goal 2 => try clear_value x; on_goal 1 => subst x)
    | (extract_lets +onlyGivenNames x; subst x)
    | split
    | fail)

theorem cutBurst_held {p : List Instr} (j : Job) (kind : ℕ) (sensing : ℕ) (plane : ℕ) (bs : List Byte) (s : State) (hs : Held p s) :
    Held p (cutBurst j kind sensing plane bs s) := by
  unfold cutBurst
  repeat' (first
    | with_reducible assumption
    | with_reducible refine held_ite ?_ ?_
    | with_reducible apply arriveTruing_held
    | with_reducible apply arriveCw_held
    | with_reducible refine held_foldl (fun _ _ _ => ?_) _ ?_
    | split
    | fail)

theorem takeBurst_held {p : List Instr} (kind : ℕ) (handle : ℕ) (sensing : ℕ) (job : ℕ) (bs : List Byte) (s : State) (hs : Held p s) :
    Held p (takeBurst kind handle sensing job bs s) := by
  unfold takeBurst
  repeat' (first
    | with_reducible assumption
    | with_reducible refine held_ite ?_ ?_
    | with_reducible apply cutBurst_held
    | with_reducible apply modJob_held
    | split
    | fail)

theorem noteSensing_held {p : List Instr} (j : Job) (s : State) (hs : Held p s) :
    Held p (noteSensing j s) := by
  unfold noteSensing
  repeat' (first
    | with_reducible assumption
    | with_reducible apply noteRecord_held
    | split
    | fail)

theorem missingTruing_held {p : List Instr} (j : Job) (a1 : ℕ) (s : State) (hs : Held p s) :
    Held p (missingTruing j a1 s) := by
  unfold missingTruing
  repeat' (first
    | with_reducible assumption
    | with_reducible refine held_ite ?_ ?_
    | with_reducible apply noteSensing_held
    | with_reducible apply abandonSearch_held
    | with_reducible apply addSense_held
    | with_reducible apply modSearch_held
    | (extract_lets +onlyGivenNames x; refine (have hx : Held p x := ?_; ?_); on_goal 2 => try clear_value x; on_goal 1 => subst x)
    | (extract_lets +onlyGivenNames x; subst x)
    | split
    | fail)

theorem closeSet_held {p : List Instr} (h : ℕ) (s : State) (hs : Held p s) :
    Held p (closeSet h s) := by
  unfold closeSet
  repeat' (first
    | with_reducible assumption
    | with_reducible refine held_ite ?_ ?_
    | with_reducible apply modJob_held
    | with_reducible apply missingTruing_held
    | with_reducible apply incompleteCws_held
    | (extract_lets +onlyGivenNames x; refine (have hx : Held p x := ?_; ?_); on_goal 2 => try clear_value x; on_goal 1 => subst x)
    | split
    | fail)

theorem startEncoding_held {p : List Instr} (h : ℕ) (handle : ℕ) (s : State) (hs : Held p s) :
    Held p (startEncoding h handle s) := by
  unfold startEncoding
  repeat' (first
    | with_reducible assumption
    | with_reducible refine held_ite ?_ ?_
    | with_reducible apply assignEncoders_held
    | with_reducible apply modJob_held
    | with_reducible apply noEncoder_held
    | split
    | fail)

theorem drawQueue_held {p : List Instr} (ch : ℕ) (a1 : ℕ) (n : ℕ) (s : State) (hs : Held p s) :
    Held p (drawQueue ch a1 n s) := by
  unfold drawQueue
  repeat' (first
    | with_reducible apply modChan_held
    | with_reducible apply Held.upd (by assumption)
    | with_reducible exact id
    | fail)

theorem discardSet_held {p : List Instr} (j : Job) (s : State) (hs : Held p s) :
    Held p (discardSet j s) := by
  unfold discardSet
  repeat' (first
    | with_reducible apply modChan_held
    | with_reducible apply assignEncoders_held
    | with_reducible apply modJob_held
    | with_reducible apply Held.upd (by assumption)
    | with_reducible exact id
    | fail)

theorem countFail_held {p : List Instr} (u : ℕ) (outcome : ℕ) (s : State) (hs : Held p s) :
    Held p (countFail u outcome s) := by
  unfold countFail
  repeat' (first
    | with_reducible assumption
    | with_reducible apply modLun_held
    | split
    | fail)

theorem lunOutcome_held {p : List Instr} (u : ℕ) (outcome : ℕ) (s : State) (hs : Held p s) :
    Held p (lunOutcome u outcome s) := by
  unfold lunOutcome
  repeat' (first
    | with_reducible assumption
    | with_reducible refine held_ite ?_ ?_
    | with_reducible apply lunDown_held
    | fail)

theorem toStepSix_held {p : List Instr} (cs : List Cw) (s : State) (hs : Held p s) :
    Held p (toStepSix cs s) := by
  unfold toStepSix
  repeat' (first
    | with_reducible assumption
    | with_reducible apply failCw_held
    | with_reducible apply leaveZero_held
    | with_reducible refine held_foldl (fun _ _ _ => ?_) _ ?_
    | fail)

theorem loseCws_held {p : List Instr} (cs : List Cw) (s : State) (hs : Held p s) :
    Held p (loseCws cs s) := by
  unfold loseCws
  repeat' (first
    | with_reducible assumption
    | with_reducible apply modCw_held
    | with_reducible apply countLost_held
    | with_reducible refine held_foldl (fun _ _ _ => ?_) _ ?_
    | fail)

theorem noteUnread_held {p : List Instr} (j : Job) (s : State) (hs : Held p s) :
    Held p (noteUnread j s) := by
  unfold noteUnread
  repeat' (first
    | with_reducible assumption
    | with_reducible refine held_ite ?_ ?_
    | with_reducible apply noteRecord_held
    | with_reducible refine held_foldl (fun _ _ _ => ?_) _ ?_
    | fail)

theorem readEnd_held {p : List Instr} (j : Job) (outcome : ℕ) (mc : Bool) (s : State) (hs : Held p s) :
    Held p (readEnd j outcome mc s) := by
  unfold readEnd
  repeat' (first
    | with_reducible assumption
    | with_reducible refine held_ite ?_ ?_
    | with_reducible apply noteUnread_held
    | with_reducible apply closeSet_held
    | with_reducible apply toStepSix_held
    | with_reducible apply failRead_held
    | with_reducible apply loseCws_held
    | with_reducible apply failCw_held
    | with_reducible refine held_foldl (fun _ _ _ => ?_) _ ?_
    | (extract_lets +onlyGivenNames x; refine (have hx : Held p x := ?_; ?_); on_goal 2 => try clear_value x; on_goal 1 => subst x)
    | (extract_lets +onlyGivenNames x; subst x)
    | split
    | fail)

theorem noteUnprogrammed_held {p : List Instr} (g : ℕ) (r : ℕ) (m : ℕ) (s : State) (hs : Held p s) :
    Held p (noteUnprogrammed g r m s) := by
  unfold noteUnprogrammed
  repeat' (first
    | with_reducible assumption
    | with_reducible apply modSlot_held
    | split
    | fail)

theorem writeEnd_held {p : List Instr} (eid : ℕ) (m : ℕ) (outcome : ℕ) (s : State) (hs : Held p s) :
    Held p (writeEnd eid m outcome s) := by
  unfold writeEnd
  repeat' (first
    | with_reducible assumption
    | with_reducible apply programPassed_held
    | with_reducible apply programCut_held
    | with_reducible apply noteStatus_held
    | with_reducible apply programFailed_held
    | with_reducible apply noteUnprogrammed_held
    | split
    | fail)

theorem padEnd_held {p : List Instr} (j : Job) (m : ℕ) (outcome : ℕ) (s : State) (hs : Held p s) :
    Held p (padEnd j m outcome s) := by
  unfold padEnd
  repeat' (first
    | with_reducible assumption
    | with_reducible refine held_ite ?_ ?_
    | with_reducible apply noteUnprogrammed_held
    | with_reducible apply programDown_held
    | fail)

theorem parityEnd_held {p : List Instr} (j : Job) (i : ℕ) (m : ℕ) (outcome : ℕ) (s : State) (hs : Held p s) :
    Held p (parityEnd j i m outcome s) := by
  unfold parityEnd
  repeat' (first
    | with_reducible assumption
    | with_reducible refine held_ite ?_ ?_
    | with_reducible apply noteStatus_held
    | with_reducible apply abandonRefit_held
    | with_reducible apply modSlot_held
    | with_reducible apply noteUnprogrammed_held
    | with_reducible apply programDown_held
    | with_reducible apply closeGroup_held
    | with_reducible apply rowSealed_held
    | (extract_lets +onlyGivenNames x; refine (have hx : Held p x := ?_; ?_); on_goal 2 => try clear_value x; on_goal 1 => subst x)
    | split
    | fail)

theorem eraseCut_held {p : List Instr} (eid : ℕ) (m : ℕ) (s : State) (hs : Held p s) :
    Held p (eraseCut eid m s) := by
  unfold eraseCut
  repeat' (first
    | with_reducible assumption
    | with_reducible refine held_ite ?_ ?_
    | with_reducible apply modEntry_held
    | with_reducible apply noteStatus_held
    | fail)

theorem rawEnd_held {p : List Instr} (j : Job) (eid : ℕ) (outcome : ℕ) (result : ℕ) (s : State) (hs : Held p s) :
    Held p (rawEnd j eid outcome result s) := by
  unfold rawEnd
  repeat' (first
    | with_reducible assumption
    | with_reducible refine held_ite ?_ ?_
    | with_reducible apply hostWriteData_held
    | with_reducible apply modEntry_held
    | with_reducible apply noteStatus_held
    | (extract_lets +onlyGivenNames x; refine (have hx : Held p x := ?_; ?_); on_goal 2 => try clear_value x; on_goal 1 => subst x)
    | split
    | fail)

theorem applySets_held {p : List Instr} (ch : ℕ) (s : State) (hs : Held p s) :
    Held p (applySets ch s) := by
  unfold applySets
  repeat' (first
    | with_reducible assumption
    | with_reducible apply takeFree_held
    | with_reducible apply modChan_held
    | fail)

theorem trainEnd_held {p : List Instr} (ch : ℕ) (outcome : ℕ) (s : State) (hs : Held p s) :
    Held p (trainEnd ch outcome s) := by
  unfold trainEnd
  repeat' (first
    | with_reducible assumption
    | with_reducible refine held_ite ?_ ?_
    | with_reducible apply modChan_held
    | with_reducible apply applySets_held
    | with_reducible apply takeFree_held
    | fail)

theorem ownerEnd_held {p : List Instr} (j : Job) (u : ℕ) (outcome : ℕ) (result : ℕ) (mc : Bool) (s : State) (hs : Held p s) :
    Held p (ownerEnd j u outcome result mc s) := by
  unfold ownerEnd
  repeat' (first
    | with_reducible assumption
    | with_reducible refine held_ite ?_ ?_
    | with_reducible apply readEnd_held
    | with_reducible apply closeSet_held
    | with_reducible apply writeEnd_held
    | with_reducible apply padEnd_held
    | with_reducible apply parityEnd_held
    | with_reducible apply journalProgramEnd_held
    | with_reducible apply journalEraseEnd_held
    | with_reducible apply openErased_held
    | with_reducible apply eraseCut_held
    | with_reducible apply noteStatus_held
    | with_reducible apply modEntry_held
    | with_reducible apply releaseErased_held
    | with_reducible apply rawEnd_held
    | with_reducible apply trainEnd_held
    | with_reducible apply refitEraseEnd_held
    | with_reducible apply spareEnd_held
    | with_reducible apply spareErased_held
    | with_reducible apply targetEnd_held
    | with_reducible apply repairEnd_held
    | with_reducible apply modRemote_held
    | split
    | fail)

theorem endJobWith_held {p : List Instr} (a0 : ℕ) (u : ℕ) (outcome : ℕ) (result : ℕ) (mc : Bool) (s : State) (hs : Held p s) :
    Held p (endJobWith a0 u outcome result mc s) := by
  unfold endJobWith
  repeat' (first
    | with_reducible assumption
    | with_reducible refine held_ite ?_ ?_
    | with_reducible apply modJob_held
    | with_reducible apply lunOutcome_held
    | with_reducible apply countFail_held
    | with_reducible apply dropJobs_held
    | with_reducible apply ownerEnd_held
    | with_reducible apply discardSet_held
    | (extract_lets +onlyGivenNames x; refine (have hx : Held p x := ?_; ?_); on_goal 2 => try clear_value x; on_goal 1 => subst x)
    | (extract_lets +onlyGivenNames x; subst x)
    | split
    | fail)

theorem endJob_held {p : List Instr} (a0 : ℕ) (sel : ℕ) (outcome : ℕ) (result : ℕ) (s : State) (hs : Held p s) :
    Held p (endJob a0 sel outcome result s) := by
  unfold endJob
  repeat' (first
    | with_reducible assumption
    | with_reducible apply endJobWith_held
    | fail)

theorem failHeld_held {p : List Instr} (a0 : ℕ) (s : State) (hs : Held p s) :
    Held p (failHeld a0 s) := by
  unfold failHeld
  repeat' (first
    | with_reducible assumption
    | with_reducible apply modJob_held
    | with_reducible apply dropJobs_held
    | with_reducible apply ownerEnd_held
    | (extract_lets +onlyGivenNames x; refine (have hx : Held p x := ?_; ?_); on_goal 2 => try clear_value x; on_goal 1 => subst x)
    | split
    | fail)

/-! ### Machine/Jigs.lean -/

theorem doPop_held {p : List Instr} (ch : ℕ) (s : State) (hs : Held p s) :
    Held p (doPop ch s) := by
  unfold doPop
  repeat' (first
    | with_reducible assumption
    | with_reducible refine held_ite ?_ ?_
    | with_reducible apply modJig_held
    | with_reducible apply modJob_held
    | with_reducible apply modChan_held
    | exact fun _ => id
    | fail)

theorem doPeek_held {p : List Instr} (ch : ℕ) (s : State) (hs : Held p s) :
    Held p (doPeek ch s) := by
  unfold doPeek
  repeat' (first
    | with_reducible assumption
    | with_reducible apply modJig_held
    | exact fun _ => id
    | fail)

theorem doDrop_held {p : List Instr} (ch : ℕ) (s : State) (hs : Held p s) :
    Held p (doDrop ch s) := by
  unfold doDrop
  repeat' (first
    | with_reducible assumption
    | with_reducible apply modJig_held
    | (intro _ h; split <;> exact h)
    | fail)

theorem trapJig_held {p : List Instr} (ch : ℕ) (hard : Bool) (cause : ℕ) (s : State) (hs : Held p s) :
    Held p (trapJig ch hard cause s) := by
  unfold trapJig
  repeat' (first
    | with_reducible assumption
    | with_reducible apply raise_held
    | with_reducible apply modJig_held
    | exact fun _ => id
    | fail)

theorem haltJig_held {p : List Instr} (ch : ℕ) (resume : ℕ) (s : State) (hs : Held p s) :
    Held p (haltJig ch resume s) := by
  unfold haltJig
  repeat' (first
    | with_reducible assumption
    | with_reducible refine held_ite ?_ ?_
    | with_reducible apply modJig_held
    | with_reducible apply endJob_held
    | exact fun _ => id
    | fail)

theorem machineCheck_held {p : List Instr} (ch : ℕ) (addr : ℕ) (quarters : ℕ) (s : State) (hs : Held p s) :
    Held p (machineCheck ch addr quarters s) := by
  unfold machineCheck
  repeat' (first
    | with_reducible assumption
    | with_reducible apply modJig_held
    | with_reducible apply endJobWith_held
    | with_reducible apply abandonSearch_held
    | with_reducible apply raisePriv_held
    | with_reducible refine held_foldl (fun _ _ _ => ?_) _ ?_
    | with_reducible exact id
    | exact fun _ => id
    | (with_reducible apply Held.upd; on_goal 1 => (with_reducible apply clearResident_held))
    | fail)

theorem finishBus_held {p : List Instr} (ch : ℕ) (b : Bus) (d : List Byte) (s : State) (hs : Held p s) :
    Held p (finishBus ch b d s) := by
  unfold finishBus
  repeat' (first
    | with_reducible assumption
    | with_reducible refine held_ite ?_ ?_
    | with_reducible apply takeBurst_held
    | with_reducible apply modJob_held
    | with_reducible apply modJig_held
    | with_reducible apply drawQueue_held
    | with_reducible apply closeSet_held
    | exact fun _ => id
    | fail)

theorem phyRun_held {p : List Instr} (ch : ℕ) (a1 : ℕ) : ∀ (a2 : List Byte) (a3 : State), Held p a3 →
    Held p (phyRun ch a1 a2 a3) := by
  induction a1 with
  | zero =>
    intro a2 a3 h0
    first | rw [phyRun] | unfold phyRun
    repeat' (first
      | with_reducible assumption
      | fail)
  | succ _ ih =>
    intro a2 a3 h0
    first | rw [phyRun] | unfold phyRun
    repeat' (first
      | with_reducible assumption
      | with_reducible apply ih
      | with_reducible refine held_ite ?_ ?_
      | with_reducible apply modJig_held
      | with_reducible apply finishBus_held
      | exact fun _ => id
      | split
      | fail)

theorem bumpOps_held {p : List Instr} (ch : ℕ) (kind : ℕ) (s : State) (hs : Held p s) :
    Held p (bumpOps ch kind s) := by
  unfold bumpOps
  repeat' (first
    | with_reducible apply Held.upd (by assumption)
    | with_reducible exact id
    | fail)

theorem startArray_held {p : List Instr} (ch : ℕ) (kind : ℕ) (g : Jig) (x : Sel) (s : State) (hs : Held p s) :
    Held p (startArray ch kind g x s) := by
  unfold startArray
  repeat' (first
    | with_reducible assumption
    | with_reducible refine held_ite ?_ ?_
    | with_reducible apply modJig_held
    | with_reducible apply bumpOps_held
    | with_reducible apply modJob_held
    | with_reducible apply modLun_held
    | with_reducible apply doseProgram_held
    | with_reducible apply doseErase_held
    | exact fun _ => id
    | (extract_lets +onlyGivenNames x; refine (have hx : Held p x := ?_; ?_); on_goal 2 => try clear_value x; on_goal 1 => subst x)
    | (extract_lets +onlyGivenNames x; subst x)
    | split
    | fail)

theorem putBus_held {p : List Instr} (ch : ℕ) (w : ℕ) (g : Jig) (x : Sel) (s : State) (hs : Held p s) :
    Held p (putBus ch w g x s) := by
  unfold putBus
  repeat' (first
    | with_reducible assumption
    | with_reducible refine held_ite ?_ ?_
    | with_reducible apply applySets_held
    | with_reducible apply modJig_held
    | with_reducible apply askXm_held
    | with_reducible apply startArray_held
    | exact fun _ => id
    | (extract_lets +onlyGivenNames x; refine (have hx : Held p x := ?_; ?_); on_goal 2 => try clear_value x; on_goal 1 => subst x)
    | (extract_lets +onlyGivenNames x; subst x)
    | split
    | fail)

theorem putCodec_held {p : List Instr} (ch : ℕ) (w : ℕ) (g : Jig) (s : State) (hs : Held p s) :
    Held p (putCodec ch w g s) := by
  unfold putCodec
  repeat' (first
    | with_reducible assumption
    | with_reducible refine held_ite ?_ ?_
    | with_reducible apply modJig_held
    | with_reducible apply startEncoding_held
    | with_reducible apply closeSet_held
    | exact fun _ => id
    | split
    | fail)

theorem trainItem_held {p : List Instr} (owner : Owner) (prio : ℕ) (ch : ℕ) (s : State) (hs : Held p s) :
    Held p (trainItem owner prio ch s) := by
  unfold trainItem
  repeat' (first
    | with_reducible assumption
    | with_reducible apply addJob_held
    | fail)

theorem startRetrain_held {p : List Instr} (ch : ℕ) (s : State) (hs : Held p s) :
    Held p (startRetrain ch s) := by
  unfold startRetrain
  repeat' (first
    | with_reducible assumption
    | with_reducible refine held_ite ?_ ?_
    | with_reducible apply modChan_held
    | with_reducible apply trainItem_held
    | fail)

theorem driftMeasure_held {p : List Instr} (ch : ℕ) (measure : Sys2Proof.Byte) (s : State) (hs : Held p s) :
    Held p (driftMeasure ch measure s) := by
  unfold driftMeasure
  repeat' (first
    | with_reducible assumption
    | with_reducible refine held_ite ?_ ?_
    | with_reducible apply modChan_held
    | with_reducible apply startRetrain_held
    | fail)

theorem putSample_held {p : List Instr} (ch : ℕ) (w : ℕ) (g : Jig) (a3 : Sys2Proof.JigIn) (s : State) (hs : Held p s) :
    Held p (putSample ch w g a3 s) := by
  unfold putSample
  repeat' (first
    | with_reducible assumption
    | with_reducible refine held_ite ?_ ?_
    | with_reducible apply driftMeasure_held
    | fail)

theorem putPin_held {p : List Instr} (ch : ℕ) (w : ℕ) (s : State) (hs : Held p s) :
    Held p (putPin ch w s) := by
  unfold putPin
  repeat' (first
    | with_reducible assumption
    | with_reducible apply modJig_held
    | (intro _ h; split <;> exact h)
    | fail)

theorem putClamp_held {p : List Instr} (ch : ℕ) (w : ℕ) (x : Sel) (s : State) (hs : Held p s) :
    Held p (putClamp ch w x s) := by
  unfold putClamp
  repeat' (first
    | with_reducible assumption
    | with_reducible refine held_ite ?_ ?_
    | with_reducible apply modJig_held
    | with_reducible apply returnLun_held
    | with_reducible apply returnAll_held
    | exact fun _ => id
    | fail)

theorem putDrawer_held {p : List Instr} (ch : ℕ) (w : ℕ) (s : State) (hs : Held p s) :
    Held p (putDrawer ch w s) := by
  unfold putDrawer
  repeat' (first
    | with_reducible assumption
    | with_reducible apply doPop_held
    | with_reducible apply doPeek_held
    | with_reducible apply doDrop_held
    | split
    | fail)

theorem timerOp_store (w : ℕ) (g : Jig) : (timerOp w g).store = g.store := by unfold timerOp; split <;> rfl

theorem timerTick_store (g : Jig) : (timerTick g).store = g.store := by
  unfold timerTick; split
  · split <;> rfl
  · rfl

theorem putRegs_held {p : List Instr} (ch w : ℕ) (old : Jig) (s : State) (hs : Held p s) : Held p (putRegs ch w old s) := by
  unfold putRegs
  refine modJig_held _ _ _ (fun j h => ?_) hs
  unfold regsAfter
  dsimp only
  rw [timerOp_store]
  exact h

theorem report_held {p : List Instr} (ch : ℕ) (kind : ℕ) (old : Jig) (x : Sel) (s : State) (hs : Held p s) :
    Held p (report ch kind old x s) := by
  unfold report
  repeat' (first
    | with_reducible assumption
    | with_reducible apply modJig_held
    | with_reducible apply returnLun_held
    | exact fun _ => id
    | fail)

theorem keepData_held {p : List Instr} (ch : ℕ) (a1 : ℕ) (s : State) (hs : Held p s) :
    Held p (keepData ch a1 s) := by
  unfold keepData
  repeat' (first
    | with_reducible assumption
    | with_reducible apply modJob_held
    | fail)

theorem putStat_held {p : List Instr} (ch : ℕ) (w : ℕ) (old : Jig) (x : Sel) (s : State) (hs : Held p s) :
    Held p (putStat ch w old x s) := by
  unfold putStat
  repeat' (first
    | with_reducible assumption
    | with_reducible apply report_held
    | with_reducible apply endJob_held
    | with_reducible apply keepData_held
    | split
    | fail)

theorem putEvent_held {p : List Instr} (ch : ℕ) (w : ℕ) (old : Jig) (s : State) (hs : Held p s) :
    Held p (putEvent ch w old s) := by
  unfold putEvent
  repeat' (first
    | with_reducible assumption
    | with_reducible refine held_ite ?_ ?_
    | with_reducible apply raise_held
    | with_reducible apply modJig_held
    | exact fun _ => id
    | fail)

theorem applyFields_held {p : List Instr} (ch : ℕ) (w : ℕ) (g : Jig) (x : Sel) (a4 : Sys2Proof.JigIn) (s : State) (hs : Held p s) :
    Held p (applyFields ch w g x a4 s) := by
  unfold applyFields
  repeat' (first
    | with_reducible assumption
    | with_reducible apply modJig_held
    | with_reducible apply putSample_held
    | with_reducible apply putPin_held
    | with_reducible apply putClamp_held
    | with_reducible apply putCodec_held
    | with_reducible apply putBus_held
    | with_reducible apply putRegs_held
    | with_reducible apply putDrawer_held
    | with_reducible apply putEvent_held
    | with_reducible apply putStat_held
    | exact fun _ => id
    | fail)

theorem transfer_held {p : List Instr} (ch : ℕ) (w : ℕ) (g : Jig) (go : Go) (s : State) (hs : Held p s) :
    Held p (transfer ch w g go s) := by
  unfold transfer
  repeat' (first
    | with_reducible assumption
    | with_reducible apply modJig_held
    | with_reducible apply haltJig_held
    | with_reducible apply trapJig_held
    | exact fun _ => id
    | split
    | fail)

theorem firstCycle_held {p : List Instr} (ch : ℕ) (w : ℕ) (done : Bool) (a3 : Sys2Proof.JigIn) (s : State) (hs : Held p s) :
    Held p (firstCycle ch w done a3 s) := by
  unfold firstCycle
  repeat' (first
    | with_reducible assumption
    | with_reducible refine held_ite ?_ ?_
    | with_reducible apply transfer_held
    | with_reducible apply trapJig_held
    | with_reducible apply modJig_held
    | with_reducible apply askClamps_held
    | with_reducible apply applyFields_held
    | exact fun _ => id
    | (extract_lets +onlyGivenNames x; refine (have hx : Held p x := ?_; ?_); on_goal 2 => try clear_value x; on_goal 1 => subst x)
    | (extract_lets +onlyGivenNames x; subst x)
    | split
    | fail)

theorem waitCycle_held {p : List Instr} (ch : ℕ) (w : ℕ) (done : Bool) (a3 : Sys2Proof.JigIn) (s : State) (hs : Held p s) :
    Held p (waitCycle ch w done a3 s) := by
  unfold waitCycle
  repeat' (first
    | with_reducible assumption
    | with_reducible refine held_ite ?_ ?_
    | with_reducible apply modJig_held
    | with_reducible apply trapJig_held
    | with_reducible apply transfer_held
    | exact fun _ => id
    | (extract_lets +onlyGivenNames x; subst x)
    | split
    | fail)

theorem jigCycle_held {p : List Instr} (ch : ℕ) (q : JigIn) (s : State) (hs : Held p s) : Held p (jigCycle ch q s) := by
  have h1 : Held p (modJig ch (fun g => { timerTick g with cycles := g.cycles + 1 }) s) :=
    modJig_held _ _ _ (fun j h => by rw [← timerTick_store] at h; exact h) hs
  unfold jigCycle
  dsimp only
  revert h1
  generalize modJig ch (fun g => { timerTick g with cycles := g.cycles + 1 }) s = t
  intro h1
  have h2 := upsetWord_held ch (jigAt ch s).pc.toNat q.upset _ h1
  exact held_ite (haltJig_held _ _ _ h1) (held_ite (machineCheck_held _ _ _ _ h2)
    (held_ite (waitCycle_held _ _ _ _ _ h2) (firstCycle_held _ _ _ _ _ h2)))

theorem jigWord_held {p : List Instr} (ch : ℕ) (a1 : JigIn) (s : State) (hs : Held p s) :
    Held p (jigWord ch a1 s) := by
  unfold jigWord
  repeat' (first
    | with_reducible assumption
    | with_reducible refine held_ite ?_ ?_
    | with_reducible apply phyRun_held
    | with_reducible apply jigCycle_held
    | fail)

/-! ### Machine/Drawers.lean -/

theorem placeJob_held {p : List Instr} (ch : ℕ) (j : Job) (s : State) (hs : Held p s) :
    Held p (placeJob ch j s) := by
  unfold placeJob
  repeat' (first
    | with_reducible assumption
    | with_reducible apply resolveFeats_held
    | with_reducible apply modJig_held
    | with_reducible apply modJob_held
    | exact fun _ => id
    | fail)

theorem execDrawerPlace_held {p : List Instr} (ch : ℕ) (s : State) (hs : Held p s) :
    HeldOut p (execDrawerPlace ch s) := by
  unfold execDrawerPlace
  repeat' (first
    | with_reducible assumption
    | with_reducible refine heldOut_checked ?_
    | with_reducible refine held_ite ?_ ?_
    | with_reducible apply placeJob_held
    | with_reducible apply modChan_held
    | with_reducible apply modJig_held
    | exact fun _ => id
    | (extract_lets +onlyGivenNames x; subst x)
    | split
    | fail)

theorem execMcClampRelease_held {p : List Instr} (ch : ℕ) (s : State) (hs : Held p s) :
    HeldOut p (execMcClampRelease ch s) := by
  unfold execMcClampRelease
  repeat' (first
    | with_reducible assumption
    | with_reducible refine heldOut_checked ?_
    | with_reducible refine held_ite ?_ ?_
    | with_reducible apply enterPadHold_held
    | with_reducible apply returnAll_held
    | with_reducible apply modChan_held
    | with_reducible apply modJig_held
    | exact fun _ => id
    | fail)

theorem restartJig_held {p : List Instr} (ch : ℕ) (s : State) (hs : Held p s) : Held p (restartJig ch s) := by
  unfold restartJig
  have h1 : Held p (modJig ch (fun g => { g with
      state := .running, store := s.storeImage, pc := 0, stack := [], waiting := false, stall := 0, timerRun := false }) s) :=
    modJig_held _ _ _ (fun _ _ => hs.kept.image) hs
  exact held_ite (modJig_held _ _ _ (fun _ h => h) h1) (modChan_held _ _ _ h1)

theorem fenceChannel_held {p : List Instr} (ch : ℕ) (s : State) (hs : Held p s) :
    Held p (fenceChannel ch s) := by
  unfold fenceChannel
  repeat' (first
    | with_reducible assumption
    | with_reducible apply modJig_held
    | with_reducible apply lunDown_held
    | with_reducible apply failHeld_held
    | with_reducible refine held_foldl (fun _ _ _ => ?_) _ ?_
    | exact fun _ => id
    | fail)

theorem execJigReload_held {p : List Instr} (ch : ℕ) (parityOk : Bool) (s : State) (hs : Held p s) :
    HeldOut p (execJigReload ch parityOk s) := by
  unfold execJigReload
  repeat' (first
    | with_reducible assumption
    | with_reducible refine heldOut_checked ?_
    | with_reducible refine held_ite ?_ ?_
    | with_reducible apply restartJig_held
    | with_reducible apply fenceChannel_held
    | fail)

theorem execJigTimerExpiry_held {p : List Instr} (ch : ℕ) (s : State) (hs : Held p s) :
    HeldOut p (execJigTimerExpiry ch s) := by
  unfold execJigTimerExpiry
  repeat' (first
    | with_reducible assumption
    | with_reducible refine heldOut_checked ?_
    | with_reducible apply modJig_held
    | (intro _ h; split <;> exact h)
    | fail)

theorem execStatusCapture_held {p : List Instr} (ch : ℕ) (b : Byte) (s : State) (hs : Held p s) :
    HeldOut p (execStatusCapture ch b s) := by
  unfold execStatusCapture
  repeat' (first
    | with_reducible assumption
    | with_reducible refine heldOut_checked ?_
    | with_reducible refine held_ite ?_ ?_
    | with_reducible apply modJig_held
    | exact fun _ => id
    | split
    | fail)

theorem resumeJig_held {p : List Instr} (ch : ℕ) (s : State) (hs : Held p s) :
    Held p (resumeJig ch s) := by
  unfold resumeJig
  repeat' (first
    | with_reducible assumption
    | with_reducible apply modJig_held
    | (intro _ h; split <;> exact h)
    | fail)

theorem execJigResume_held {p : List Instr} (who : Writer) (ch : ℕ) (s : State) (hs : Held p s) :
    HeldOut p (execJigResume who ch s) := by
  unfold execJigResume
  repeat' (first
    | with_reducible assumption
    | with_reducible refine heldOut_checked ?_
    | with_reducible refine mainCoreOnly_held _ _ _ (fun _ _ => ?_) ?_
    | with_reducible apply resumeJig_held
    | fail)

theorem stopJig_held {p : List Instr} (ch : ℕ) (s : State) (hs : Held p s) :
    Held p (stopJig ch s) := by
  unfold stopJig
  repeat' (first
    | with_reducible assumption
    | with_reducible apply modJig_held
    | exact fun _ => id
    | fail)

theorem execJigStop_held {p : List Instr} (who : Writer) (ch : ℕ) (s : State) (hs : Held p s) :
    HeldOut p (execJigStop who ch s) := by
  unfold execJigStop
  repeat' (first
    | with_reducible assumption
    | with_reducible refine heldOut_checked ?_
    | with_reducible refine mainCoreOnly_held _ _ _ (fun _ _ => ?_) ?_
    | with_reducible apply stopJig_held
    | fail)

theorem storeRead_held {p : List Instr} (v : Word) (s : State) (hs : Held p s) :
    Held p (storeRead v s) := by
  unfold storeRead
  repeat' (first
    | with_reducible refine held_ite ?_ ?_
    | with_reducible apply machineCheck_held
    | with_reducible apply Held.upd (by assumption)
    | with_reducible exact id
    | fail)

theorem execJsSel_held {p : List Instr} (v : Word) (s : State) (hs : Held p s) :
    HeldOut p (execJsSel v s) := by
  unfold execJsSel
  repeat' (first
    | with_reducible assumption
    | with_reducible refine heldOut_next ?_
    | with_reducible apply storeRead_held
    | fail)

/-! ### Machine/Channels.lean -/

theorem configEvent_held {p : List Instr} (cause : ℕ) (what : ℕ) (sub : ℕ) (rate : ℕ) (s : State) (hs : Held p s) :
    Held p (configEvent cause what sub rate s) := by
  unfold configEvent
  repeat' (first
    | with_reducible assumption
    | with_reducible apply raisePriv_held
    | fail)

theorem refuseTypes_held {p : List Instr} (s : State) (hs : Held p s) :
    Held p (refuseTypes s) := by
  unfold refuseTypes
  repeat' (first
    | with_reducible assumption
    | with_reducible apply configEvent_held
    | with_reducible refine held_foldl (fun _ _ _ => ?_) _ ?_
    | (extract_lets +onlyGivenNames x; subst x)
    | split
    | fail)

theorem dropType_held {p : List Instr} (t : ℕ) (chans : List ℕ) (s : State) (hs : Held p s) :
    Held p (dropType t chans s) := by
  unfold dropType
  repeat' (first
    | with_reducible assumption
    | with_reducible apply modChan_held
    | with_reducible refine held_foldl (fun _ _ _ => ?_) _ ?_
    | fail)

theorem recheckTypes_held {p : List Instr} (s : State) (hs : Held p s) :
    Held p (recheckTypes s) := by
  unfold recheckTypes
  repeat' (first
    | with_reducible assumption
    | with_reducible apply dropType_held
    | with_reducible apply configEvent_held
    | with_reducible refine held_foldl (fun _ _ _ => ?_) _ ?_
    | (extract_lets +onlyGivenNames x; subst x)
    | split
    | fail)

theorem dropMixed_held {p : List Instr} (ch : ℕ) (s : State) (hs : Held p s) :
    Held p (dropMixed ch s) := by
  unfold dropMixed
  repeat' (first
    | with_reducible assumption
    | with_reducible refine held_ite ?_ ?_
    | with_reducible apply configEvent_held
    | with_reducible refine held_foldl (fun _ _ _ => ?_) _ ?_
    | fail)

theorem checkTables_held {p : List Instr} (s : State) (hs : Held p s) :
    Held p (checkTables s) := by
  unfold checkTables
  repeat' (first
    | with_reducible assumption
    | with_reducible apply raise_held
    | with_reducible refine held_foldl (fun _ _ _ => ?_) _ ?_
    | with_reducible apply Held.upd (by assumption)
    | with_reducible exact id
    | fail)

theorem runRoutine_held {p : List Instr} (ch : ℕ) (ce : ℕ) (lun : ℕ) (a : ℕ) (regs : List (ℕ × ℕ)) (s : State) (hs : Held p s) :
    Held p (runRoutine ch ce lun a regs s) := by
  unfold runRoutine
  repeat' (first
    | with_reducible assumption
    | with_reducible apply modChan_held
    | fail)

theorem trainTarget_held {p : List Instr} (ch : ℕ) (s : State) (ce : ℕ) (hs : Held p s) :
    Held p (trainTarget ch s ce) := by
  unfold trainTarget
  repeat' (first
    | with_reducible assumption
    | with_reducible refine held_ite ?_ ?_
    | with_reducible apply runRoutine_held
    | fail)

theorem setFeature_held {p : List Instr} (ch : ℕ) (ce : ℕ) (f : BitVec 40) (s : State) (hs : Held p s) :
    Held p (setFeature ch ce f s) := by
  unfold setFeature
  repeat' (first
    | with_reducible assumption
    | with_reducible apply runRoutine_held
    | fail)

theorem tryRate_held {p : List Instr} (ch : ℕ) (ces : List ℕ) (s : State) (rate : ℕ) (hs : Held p s) :
    Held p (tryRate ch ces s rate) := by
  unfold tryRate
  repeat' (first
    | with_reducible assumption
    | with_reducible apply runRoutine_held
    | with_reducible apply setFeature_held
    | with_reducible apply trainTarget_held
    | with_reducible refine held_foldl (fun _ _ _ => ?_) _ ?_
    | fail)

theorem setTimings_held {p : List Instr} (ch : ℕ) (ces : List ℕ) (s : State) (hs : Held p s) :
    Held p (setTimings ch ces s) := by
  unfold setTimings
  repeat' (first
    | with_reducible assumption
    | with_reducible apply takeFree_held
    | with_reducible apply modChan_held
    | fail)

theorem setRate_held {p : List Instr} (ch : ℕ) (rate : ℕ) (s : State) (hs : Held p s) :
    Held p (setRate ch rate s) := by
  unfold setRate
  repeat' (first
    | with_reducible assumption
    | with_reducible apply modChan_held
    | fail)

theorem execDriftTrip_held {p : List Instr} (ch : ℕ) (measure : Sys2Proof.Byte) (s : State) (hs : Held p s) :
    HeldOut p (execDriftTrip ch measure s) := by
  unfold execDriftTrip
  repeat' (first
    | with_reducible assumption
    | with_reducible refine heldOut_checked ?_
    | with_reducible apply driftMeasure_held
    | fail)

theorem execRetrainDue_held {p : List Instr} (ch : ℕ) (s : State) (hs : Held p s) :
    HeldOut p (execRetrainDue ch s) := by
  unfold execRetrainDue
  repeat' (first
    | with_reducible assumption
    | with_reducible refine heldOut_checked ?_
    | with_reducible refine held_ite ?_ ?_
    | with_reducible apply startRetrain_held
    | with_reducible apply modChan_held
    | fail)

theorem trainJob_held {p : List Instr} (ch : ℕ) (s : State) (hs : Held p s) :
    Held p (trainJob ch s) := by
  unfold trainJob
  repeat' (first
    | with_reducible assumption
    | with_reducible apply trainItem_held
    | fail)

theorem dropTargets_held {p : List Instr} (ch : ℕ) (mask : ℕ) (s : State) (hs : Held p s) :
    Held p (dropTargets ch mask s) := by
  unfold dropTargets
  repeat' (first
    | with_reducible assumption
    | with_reducible refine held_ite ?_ ?_
    | with_reducible apply modChan_held
    | with_reducible apply lunDown_held
    | with_reducible refine held_foldl (fun _ _ _ => ?_) _ ?_
    | fail)

theorem fallBack_held {p : List Instr} (ch : ℕ) (targets : List Sys2Proof.TargetIn) (s : State) (hs : Held p s) :
    Held p (fallBack ch targets s) := by
  unfold fallBack
  repeat' (first
    | with_reducible assumption
    | with_reducible refine held_ite ?_ ?_
    | with_reducible apply modChan_held
    | with_reducible apply tryRate_held
    | with_reducible apply setTimings_held
    | with_reducible apply dropTargets_held
    | with_reducible apply setRate_held
    | with_reducible apply configEvent_held
    | with_reducible refine held_foldl (fun _ _ _ => ?_) _ ?_
    | fail)

theorem settleFall_held {p : List Instr} (s : State) (ch : ℕ) (hs : Held p s) :
    Held p (settleFall s ch) := by
  unfold settleFall
  repeat' (first
    | with_reducible assumption
    | with_reducible refine held_ite ?_ ?_
    | with_reducible apply fallBack_held
    | with_reducible apply modChan_held
    | with_reducible apply modJig_held
    | exact fun _ => id
    | fail)

theorem badSearch_held {p : List Instr} (ch : ℕ) (result : ℕ) (targets : List Sys2Proof.TargetIn) (s : State) (hs : Held p s) :
    Held p (badSearch ch result targets s) := by
  unfold badSearch
  repeat' (first
    | with_reducible assumption
    | with_reducible refine held_ite ?_ ?_
    | with_reducible apply raise_held
    | with_reducible apply modChan_held
    | with_reducible apply settleFall_held
    | with_reducible apply modJig_held
    | exact fun _ => id
    | fail)

theorem execRetrainSearchEnd_held {p : List Instr} (ch : ℕ) (r : Sys2Proof.SearchResult) (targets : List Sys2Proof.TargetIn) (s : State) (hs : Held p s) :
    HeldOut p (execRetrainSearchEnd ch r targets s) := by
  unfold execRetrainSearchEnd
  repeat' (first
    | with_reducible assumption
    | with_reducible refine heldOut_checked ?_
    | with_reducible refine held_ite ?_ ?_
    | with_reducible apply withdraw_held
    | with_reducible apply modChan_held
    | with_reducible apply trainJob_held
    | with_reducible apply badSearch_held
    | fail)

theorem execSearchRestart_held {p : List Instr} (ch : ℕ) (s : State) (hs : Held p s) :
    HeldOut p (execSearchRestart ch s) := by
  unfold execSearchRestart
  repeat' (first
    | with_reducible assumption
    | with_reducible refine heldOut_checked ?_
    | with_reducible refine held_ite ?_ ?_
    | with_reducible apply startRetrain_held
    | with_reducible apply modChan_held
    | fail)

/-! ### Machine/Recovery.lean -/

theorem takeAnchor_held {p : List Instr} (sec : ℕ) (rec : ℕ) (s : State) (hs : Held p s) :
    Held p (takeAnchor sec rec s) := by
  unfold takeAnchor
  repeat' (first
    | with_reducible assumption
    | with_reducible apply modJrnl_held
    | fail)

theorem beginRecovery_held {p : List Instr} (s : State) (hs : Held p s) :
    Held p (beginRecovery s) := by
  unfold beginRecovery
  repeat' (first
    | with_reducible assumption
    | with_reducible refine held_ite ?_ ?_
    | with_reducible apply modJrnl_held
    | with_reducible apply takeAnchor_held
    | with_reducible apply setConds_held
    | with_reducible apply Held.upd (by assumption)
    | with_reducible exact id
    | (extract_lets +onlyGivenNames x; refine (have hx : Held p x := ?_; ?_); on_goal 2 => try clear_value x; on_goal 1 => subst x)
    | (extract_lets +onlyGivenNames x; subst x)
    | split
    | fail)

theorem writeWindow_held {p : List Instr} (s : State) (hs : Held p s) :
    Held p (writeWindow s) := by
  unfold writeWindow
  repeat' (first
    | with_reducible assumption
    | with_reducible apply winPutAll_held
    | fail)

theorem newJournal_held {p : List Instr} (s : State) (hs : Held p s) :
    Held p (newJournal s) := by
  unfold newJournal
  repeat' (first
    | with_reducible assumption
    | with_reducible apply takePair_held
    | with_reducible apply startFold_held
    | with_reducible apply writeWindow_held
    | with_reducible apply modJrnl_held
    | with_reducible apply setConds_held
    | split
    | fail)

theorem grantTo_held {p : List Instr} (dst : Option (BitVec 3)) (s : State) (hs : Held p s) :
    Held p (grantTo dst s) := by
  unfold grantTo
  repeat' (first
    | with_reducible assumption
    | with_reducible refine held_ite ?_ ?_
    | with_reducible apply dvSend_held
    | fail)

theorem acceptGrant_held {p : List Instr} (s : State) (hs : Held p s) :
    Held p (acceptGrant s) := by
  unfold acceptGrant
  repeat' (first
    | with_reducible refine held_ite ?_ ?_
    | with_reducible apply grantTo_held
    | with_reducible apply newJournal_held
    | with_reducible apply modJrnl_held
    | with_reducible apply Held.upd (by assumption)
    | with_reducible exact id
    | fail)

theorem tryGrant_held {p : List Instr} (s : State) (hs : Held p s) :
    Held p (tryGrant s) := by
  unfold tryGrant
  repeat' (first
    | with_reducible assumption
    | with_reducible refine held_ite ?_ ?_
    | with_reducible apply acceptGrant_held
    | with_reducible apply Held.upd (by assumption)
    | with_reducible exact id
    | fail)

theorem pendingGrant_held {p : List Instr} (s : State) (hs : Held p s) :
    Held p (pendingGrant s) := by
  unfold pendingGrant
  repeat' (first
    | with_reducible assumption
    | with_reducible refine held_ite ?_ ?_
    | with_reducible apply tryGrant_held
    | with_reducible apply Held.upd (by assumption)
    | with_reducible exact id
    | fail)

theorem restoreImage_held {p : List Instr} (w : List Byte) (oldLuns : List (ℕ × ℕ)) (s : State) (hs : Held p s) :
    Held p (restoreImage w oldLuns s) := by
  unfold restoreImage
  repeat' (first
    | with_reducible apply Held.upd (by assumption)
    | with_reducible exact id
    | fail)

theorem modDir_held {p : List Instr} (g : ℕ) (f : DirEntry → DirEntry) (s : State) (hs : Held p s) :
    Held p (modDir g f s) := by
  unfold modDir
  repeat' (first
    | with_reducible apply Held.upd (by assumption)
    | with_reducible exact id
    | fail)

theorem modMember_held {p : List Instr} (g : ℕ) (m : ℕ) (f : Member → Member) (s : State) (hs : Held p s) :
    Held p (modMember g m f s) := by
  unfold modMember
  repeat' (first
    | with_reducible assumption
    | with_reducible apply modDir_held
    | fail)

theorem replayMembers_held {p : List Instr} (r : BitVec 256) (s : State) (hs : Held p s) :
    Held p (replayMembers r s) := by
  unfold replayMembers
  repeat' (first
    | with_reducible assumption
    | with_reducible apply modDir_held
    | fail)

theorem replaySealed_held {p : List Instr} (r : BitVec 256) (s : State) (hs : Held p s) :
    Held p (replaySealed r s) := by
  unfold replaySealed
  repeat' (first
    | with_reducible assumption
    | with_reducible refine held_ite ?_ ?_
    | with_reducible apply modDir_held
    | with_reducible apply modJrnl_held
    | with_reducible apply listShort_held
    | fail)

theorem replayBegin_held {p : List Instr} (r : BitVec 256) (s : State) (hs : Held p s) :
    Held p (replayBegin r s) := by
  unfold replayBegin
  repeat' (first
    | with_reducible assumption
    | with_reducible apply modMember_held
    | with_reducible apply Held.upd (by assumption)
    | with_reducible exact id
    | (extract_lets +onlyGivenNames x; refine (have hx : Held p x := ?_; ?_); on_goal 2 => try clear_value x; on_goal 1 => subst x)
    | (extract_lets +onlyGivenNames x; subst x)
    | fail)

theorem replayProgress_held {p : List Instr} (r : BitVec 256) (s : State) (hs : Held p s) :
    Held p (replayProgress r s) := by
  unfold replayProgress
  repeat' (first
    | with_reducible assumption
    | with_reducible refine held_ite ?_ ?_
    | with_reducible apply Held.upd (by assumption)
    | with_reducible exact id
    | fail)

theorem replayLeave_held {p : List Instr} (g : ℕ) (s : State) (hs : Held p s) :
    Held p (replayLeave g s) := by
  unfold replayLeave
  repeat' (first
    | with_reducible apply Held.upd (by assumption)
    | with_reducible exact id
    | fail)

theorem replayOpened_held {p : List Instr} (r : BitVec 256) (s : State) (hs : Held p s) :
    Held p (replayOpened r s) := by
  unfold replayOpened
  repeat' (first
    | with_reducible assumption
    | with_reducible refine held_ite ?_ ?_
    | with_reducible apply modDir_held
    | with_reducible exact id
    | (extract_lets +onlyGivenNames x; subst x)
    | (with_reducible apply Held.upd; on_goal 1 => (with_reducible apply modDir_held))
    | fail)

theorem endReplayRefit_held {p : List Instr} (s : State) (hs : Held p s) :
    Held p (endReplayRefit s) := by
  unfold endReplayRefit
  repeat' (first
    | with_reducible apply Held.upd (by assumption)
    | with_reducible exact id
    | fail)

theorem replayAbandon_held {p : List Instr} (s : State) (hs : Held p s) :
    Held p (replayAbandon s) := by
  unfold replayAbandon
  repeat' (first
    | with_reducible assumption
    | with_reducible apply modDir_held
    | with_reducible apply endReplayRefit_held
    | with_reducible refine held_foldl (fun _ _ _ => ?_) _ ?_
    | fail)

theorem replayCommit_held {p : List Instr} (s : State) (hs : Held p s) :
    Held p (replayCommit s) := by
  unfold replayCommit
  repeat' (first
    | with_reducible assumption
    | with_reducible apply moveBinds_held
    | with_reducible apply modDir_held
    | with_reducible apply endReplayRefit_held
    | with_reducible refine held_foldl (fun _ _ _ => ?_) _ ?_
    | with_reducible exact id
    | (extract_lets +onlyGivenNames x; subst x)
    | (with_reducible apply Held.upd; on_goal 1 => (with_reducible refine held_foldl (fun _ _ _ => ?_) _ ?_))
    | fail)

theorem replayRec_held {p : List Instr} (s : State) (r : BitVec 256) (hs : Held p s) :
    Held p (replayRec s r) := by
  unfold replayRec
  repeat' (first
    | with_reducible assumption
    | with_reducible apply replaySealed_held
    | with_reducible apply replayOpened_held
    | with_reducible apply replayMembers_held
    | with_reducible apply modDir_held
    | with_reducible apply modMember_held
    | with_reducible apply replayBegin_held
    | with_reducible apply replayProgress_held
    | with_reducible apply replayLeave_held
    | with_reducible apply replayCommit_held
    | with_reducible apply replayAbandon_held
    | with_reducible refine held_foldl (fun _ _ _ => ?_) _ ?_
    | with_reducible apply Held.upd (by assumption)
    | with_reducible exact id
    | (extract_lets +onlyGivenNames x; refine (have hx : Held p x := ?_; ?_); on_goal 2 => try clear_value x; on_goal 1 => subst x)
    | (extract_lets +onlyGivenNames x; subst x)
    | split
    | fail)

theorem repairMember_held {p : List Instr} (g : ℕ) (r : ℕ) (mask : ℕ) (w : ℕ) (reads : List MemberRead) (s : State) (m : ℕ) (hs : Held p s) :
    Held p (repairMember g r mask w reads s m) := by
  unfold repairMember
  repeat' (first
    | with_reducible assumption
    | with_reducible apply programMember_held
    | with_reducible apply takeRow_held
    | fail)

theorem programErased_held {p : List Instr} (i : Sys2Proof.RecoveryIn) (g : ℕ) (r : ℕ) (passed : ℕ) (w : ℕ) (s : State) (hs : Held p s) :
    Held p (programErased i g r passed w s) := by
  unfold programErased
  repeat' (first
    | with_reducible assumption
    | with_reducible apply repairMember_held
    | with_reducible refine held_foldl (fun _ _ _ => ?_) _ ?_
    | fail)

theorem settleSeal_held {p : List Instr} (g : ℕ) (r : ℕ) (w : ℕ) (s : State) (hs : Held p s) :
    Held p (settleSeal g r w s) := by
  unfold settleSeal
  repeat' (first
    | with_reducible assumption
    | with_reducible refine held_ite ?_ ?_
    | with_reducible apply addRec_held
    | with_reducible apply listShort_held
    | with_reducible apply modDir_held
    | fail)

theorem resolveRow_held {p : List Instr} (i : Sys2Proof.RecoveryIn) (g : ℕ) (r : ℕ) (passed : ℕ) (s : State) (hs : Held p s) :
    Held p (resolveRow i g r passed s) := by
  unfold resolveRow
  repeat' (first
    | with_reducible assumption
    | with_reducible apply modJrnl_held
    | with_reducible apply settleSeal_held
    | with_reducible apply programErased_held
    | (extract_lets +onlyGivenNames x; refine (have hx : Held p x := ?_; ?_); on_goal 2 => try clear_value x; on_goal 1 => subst x)
    | (extract_lets +onlyGivenNames x; subst x)
    | split
    | fail)

theorem resolveNext_held {p : List Instr} (i : RecoveryIn) (g : ℕ) (a2 : ℕ) : ∀ (a3 : State), Held p a3 →
    Held p (resolveNext i g a2 a3) := by
  induction a2 with
  | zero =>
    intro a3 h0
    first | rw [resolveNext] | unfold resolveNext
    repeat' (first
      | with_reducible assumption
      | fail)
  | succ _ ih =>
    intro a3 h0
    first | rw [resolveNext] | unfold resolveNext
    repeat' (first
      | with_reducible assumption
      | with_reducible apply ih
      | with_reducible refine held_ite ?_ ?_
      | with_reducible apply resolveRow_held
      | fail)

theorem resolveRows_held {p : List Instr} (i : RecoveryIn) (rows : List (ℕ × ℕ × ℕ)) (s : State) (hs : Held p s) :
    Held p (resolveRows i rows s) := by
  unfold resolveRows
  repeat' (first
    | with_reducible assumption
    | with_reducible refine held_ite ?_ ?_
    | with_reducible apply resolveRow_held
    | with_reducible apply resolveNext_held
    | with_reducible apply modDir_held
    | with_reducible apply addRec_held
    | with_reducible refine held_foldl (fun _ _ _ => ?_) _ ?_
    | fail)

theorem orphanRebuild_held {p : List Instr} (s : State) (hs : Held p s) :
    Held p (orphanRebuild s) := by
  unfold orphanRebuild
  repeat' (first
    | with_reducible assumption
    | with_reducible refine held_ite ?_ ?_
    | with_reducible exact id
    | (extract_lets +onlyGivenNames x; subst x)
    | split
    | (with_reducible apply Held.upd; on_goal 1 => (with_reducible refine held_snd (by assumption) ?_; with_reducible apply takeFree_held))
    | fail)

theorem orphanRefit_held {p : List Instr} (s : State) (hs : Held p s) : Held p (orphanRefit s) := by
  have ht : Held p (if s.bg.refitState == 0 then takeFree s else (s.bg.planId.toNat, s)).2 := by
    split
    · exact takeFree_held s hs
    · exact hs
  unfold orphanRefit
  dsimp only
  revert ht
  generalize (if s.bg.refitState == 0 then takeFree s else (s.bg.planId.toNat, s)) = y
  obtain ⟨f, t⟩ := y
  intro ht
  dsimp only at ht
  refine held_ite hs (held_ite ?_ (held_ite ?_ ?_))
  · with_reducible apply Held.upd hs <;> with_reducible exact id
  · with_reducible apply Held.upd ht <;> with_reducible exact id
  · exact endReplayRefit_held _ (held_foldl (fun s g h => modDir_held _ _ _ h) _ hs)

theorem resumeServices_held {p : List Instr} (s : State) (hs : Held p s) :
    Held p (resumeServices s) := by
  unfold resumeServices
  repeat' (first
    | with_reducible assumption
    | with_reducible apply orphanRefit_held
    | with_reducible apply orphanRebuild_held
    | with_reducible apply Held.upd (by assumption)
    | with_reducible exact id
    | (extract_lets +onlyGivenNames x; refine (have hx : Held p x := ?_; ?_); on_goal 2 => try clear_value x; on_goal 1 => subst x)
    | fail)

theorem scanMembers_held {p : List Instr} (bs : List Sys2Proof.BlockSeen) (g : ℕ) (w : ℕ) (top : Option ℕ) (s : State) (hs : Held p s) :
    Held p (scanMembers bs g w top s).2 := by
  unfold scanMembers
  repeat' (first
    | with_reducible assumption
    | with_reducible apply takeFree_held
    | with_reducible refine held_foldl_snd (fun _ _ _ => ?_) _ ?_
    | split
    | fail)

theorem scanLosses_held {p : List Instr} (i : RecoveryIn) (g : ℕ) (r : ℕ) (s : State) (hs : Held p s) :
    Held p (scanLosses i g r s) := by
  unfold scanLosses
  repeat' (first
    | with_reducible assumption
    | with_reducible refine held_ite ?_ ?_
    | with_reducible apply addLoss_held
    | with_reducible refine held_foldl (fun _ _ _ => ?_) _ ?_
    | fail)

theorem scanGroup_held {p : List Instr} (i : Sys2Proof.RecoveryIn) (bs : List Sys2Proof.BlockSeen) (s : State) (g : ℕ) (hs : Held p s) :
    Held p (scanGroup i bs s g) := by
  unfold scanGroup
  repeat' (first
    | with_reducible assumption
    | with_reducible refine held_ite ?_ ?_
    | with_reducible apply scanMembers_held
    | with_reducible apply modDir_held
    | with_reducible apply modJrnl_held
    | with_reducible apply listShort_held
    | with_reducible apply resolveRow_held
    | with_reducible apply scanLosses_held
    | with_reducible exact id
    | (with_reducible apply Held.upd; on_goal 1 => (with_reducible refine held_foldl (fun _ _ _ => ?_) _ ?_))
    | (extract_lets +onlyGivenNames x; refine (have hx : Held p x := ?_; ?_); on_goal 2 => try clear_value x; on_goal 1 => subst x)
    | split
    | fail)

theorem scanSources_held {p : List Instr} (s : State) (hs : Held p s) :
    Held p (scanSources s) := by
  unfold scanSources
  repeat' (first
    | with_reducible assumption
    | with_reducible refine held_ite ?_ ?_
    | with_reducible apply takeFree_held
    | with_reducible apply modDir_held
    | with_reducible refine held_foldl (fun _ _ _ => ?_) _ ?_
    | fail)

theorem sealScan_held {p : List Instr} (i : Sys2Proof.RecoveryIn) (s : State) (hs : Held p s) :
    Held p (sealScan i s) := by
  unfold sealScan
  repeat' (first
    | with_reducible assumption
    | with_reducible refine held_ite ?_ ?_
    | with_reducible apply scanGroup_held
    | with_reducible apply eraseSector_held
    | with_reducible apply journalEvent_held
    | with_reducible apply newJournal_held
    | with_reducible refine held_foldl (fun _ _ _ => ?_) _ ?_
    | with_reducible exact id
    | (with_reducible apply Held.upd; on_goal 1 => (with_reducible apply setConds_held))
    | (with_reducible apply Held.upd; on_goal 1 => (with_reducible apply scanSources_held))
    | fail)

theorem nextBlock_held {p : List Instr} (last : ℕ) (jseq : ℕ) (s : State) (hs : Held p s) :
    Held p (nextBlock last jseq s) := by
  unfold nextBlock
  repeat' (first
    | with_reducible assumption
    | with_reducible apply eraseRing_held
    | with_reducible apply modJrnl_held
    | fail)

theorem replayRun_held {p : List Instr} (i : RecoveryIn) (pages : List (List Byte)) (last : ℕ) (s : State) (hs : Held p s) :
    Held p (replayRun i pages last s) := by
  unfold replayRun
  repeat' (first
    | with_reducible assumption
    | with_reducible refine held_ite ?_ ?_
    | with_reducible apply replayRec_held
    | with_reducible apply restoreImage_held
    | with_reducible apply modJrnl_held
    | with_reducible apply sealScan_held
    | with_reducible apply journalEvent_held
    | with_reducible apply nextBlock_held
    | with_reducible apply resumeServices_held
    | with_reducible apply writeWindow_held
    | with_reducible refine held_foldl (fun _ _ _ => ?_) _ ?_
    | with_reducible exact id
    | (extract_lets +onlyGivenNames x; subst x)
    | (with_reducible apply Held.upd; on_goal 1 => (with_reducible apply modJrnl_held))
    | (with_reducible apply Held.upd; on_goal 1 => (with_reducible apply resolveRows_held))
    | (with_reducible apply Held.upd; on_goal 1 => (with_reducible apply Held.upd (by assumption)))
    | (with_reducible apply Held.upd; on_goal 1 => (with_reducible apply Held.upd; on_goal 1 => (with_reducible apply journalEvent_held)))
    | (with_reducible apply Held.upd; on_goal 1 => (with_reducible apply Held.upd; on_goal 1 => (with_reducible apply nextBlock_held)))
    | (with_reducible apply Held.upd; on_goal 1 => (with_reducible apply Held.upd; on_goal 1 => (with_reducible apply resolveRows_held)))
    | (with_reducible apply Held.upd; on_goal 1 => (with_reducible apply Held.upd; on_goal 1 => (with_reducible apply resumeServices_held)))
    | (with_reducible apply Held.upd; on_goal 1 => (with_reducible apply Held.upd; on_goal 1 => (with_reducible apply writeWindow_held)))
    | (unfold x)
    | (intro h; exact h)
    | intro _
    | fail)

theorem initialTruing_held {p : List Instr} (s : State) (hs : Held p s) :
    Held p (initialTruing s) := by
  unfold initialTruing
  repeat' (first
    | with_reducible assumption
    | with_reducible refine held_ite ?_ ?_
    | with_reducible apply backgroundSearch_held
    | with_reducible refine held_foldl (fun _ _ _ => ?_) _ ?_
    | with_reducible apply Held.upd (by assumption)
    | with_reducible exact id
    | split
    | fail)

theorem recoverJournal_held {p : List Instr} (i : Sys2Proof.RecoveryIn) (s : State) (hs : Held p s) :
    Held p (recoverJournal i s) := by
  unfold recoverJournal
  repeat' (first
    | with_reducible assumption
    | with_reducible refine held_ite ?_ ?_
    | with_reducible apply grantForecast_held
    | with_reducible apply modJrnl_held
    | with_reducible apply initialTruing_held
    | with_reducible apply sealScan_held
    | with_reducible apply replayRun_held
    | split
    | fail)

theorem absentDown_held {p : List Instr} (s : State) (hs : Held p s) :
    Held p (absentDown s) := by
  unfold absentDown
  repeat' (first
    | with_reducible assumption
    | with_reducible apply lunDown_held
    | with_reducible refine held_foldl (fun _ _ _ => ?_) _ ?_
    | fail)

theorem soloLeads_held {p : List Instr} (s : State) (hs : Held p s) :
    Held p (soloLeads s) := by
  unfold soloLeads
  repeat' (first
    | with_reducible assumption
    | with_reducible refine held_ite ?_ ?_
    | with_reducible apply Held.upd (by assumption)
    | with_reducible exact id
    | fail)

theorem endTruing_held {p : List Instr} (s : State) (hs : Held p s) :
    Held p (endTruing s) := by
  unfold endTruing
  repeat' (first
    | with_reducible assumption
    | with_reducible refine held_ite ?_ ?_
    | with_reducible apply dropSearch_held
    | with_reducible refine held_foldl (fun _ _ _ => ?_) _ ?_
    | with_reducible apply Held.upd (by assumption)
    | with_reducible exact id
    | fail)

theorem endTrain_held {p : List Instr} (s : State) (hs : Held p s) :
    Held p (endTrain s) := by
  unfold endTrain
  repeat' (first
    | with_reducible assumption
    | with_reducible refine held_ite ?_ ?_
    | with_reducible apply soloLeads_held
    | with_reducible apply applyMode_held
    | with_reducible exact id
    | (with_reducible apply Held.upd; on_goal 1 => (with_reducible apply endTruing_held))
    | fail)

theorem endRecovery_held {p : List Instr} (s : State) (hs : Held p s) :
    Held p (endRecovery s) := by
  unfold endRecovery
  repeat' (first
    | with_reducible assumption
    | with_reducible refine held_ite ?_ ?_
    | with_reducible apply setConds_held
    | with_reducible apply recheckTypes_held
    | with_reducible apply absentDown_held
    | with_reducible apply lunDown_held
    | with_reducible apply soloLeads_held
    | with_reducible apply setDegraded_held
    | with_reducible apply rebuildCond_held
    | with_reducible apply endTrain_held
    | with_reducible apply raise_held
    | with_reducible apply patrolUpdate_held
    | with_reducible apply foldIfDue_held
    | with_reducible refine held_foldl (fun _ _ _ => ?_) _ ?_
    | with_reducible apply Held.upd (by assumption)
    | with_reducible exact id
    | (with_reducible apply Held.upd; on_goal 1 => (with_reducible apply endTrain_held))
    | fail)

theorem settleRecovery_held {p : List Instr} (s : State) (hs : Held p s) :
    Held p (settleRecovery s) := by
  unfold settleRecovery
  repeat' (first
    | with_reducible assumption
    | with_reducible refine held_ite ?_ ?_
    | with_reducible apply endRecovery_held
    | fail)

end Sys2Proof.Machine
end

