-- ==== Sys2Proof/Laws/HeldService.lean ====
section
/-!
SUPPORT. One lemma per operation of the media port, the flush, work for other blocks, what follows an end, the interrupt controller, images and the
dictionary:
it keeps the queue, the counts of units and the canonical form of the memories.
-/
namespace Sys2Proof.Machine

/-! ### Machine/Media.lean -/

theorem setBind_held {p : List Instr} (i : ℕ) (b : BindEntry) (s : State) (hs : Held p s) :
    Held p (setBind i b s) := by
  unfold setBind
  repeat' (first
    | with_reducible apply winWrite_held
    | with_reducible apply touchBinds_held
    | with_reducible apply addRec_held
    | with_reducible apply Held.upd (by assumption)
    | with_reducible exact id
    | fail)

theorem clearBind_held {p : List Instr} (i : ℕ) (s : State) (hs : Held p s) :
    Held p (clearBind i s) := by
  unfold clearBind
  repeat' (first
    | with_reducible apply winWrite_held
    | with_reducible apply addRec_held
    | with_reducible apply Held.upd (by assumption)
    | with_reducible exact id
    | fail)

theorem bindRange_held {p : List Instr} (g : ℕ) (first : ℕ) (n : ℕ) (job : Word) (s : State) (hs : Held p s) :
    Held p (bindRange g first n job s).2 := by
  unfold bindRange
  repeat' (first
    | with_reducible assumption
    | with_reducible refine held_ite ?_ ?_
    | with_reducible apply setBind_held
    | with_reducible apply clearBind_held
    | with_reducible apply writeDir_held
    | with_reducible refine held_foldl (fun _ _ _ => ?_) _ ?_
    | (extract_lets +onlyGivenNames x; subst x)
    | split
    | fail)

theorem trimBind_held {p : List Instr} (first : ℕ) (n : ℕ) (s : State) (a3 : ℕ × BindEntry) (hs : Held p s) :
    Held p (trimBind first n s a3) := by
  unfold trimBind
  repeat' (first
    | with_reducible assumption
    | with_reducible refine held_ite ?_ ?_
    | with_reducible apply clearBind_held
    | with_reducible apply setBind_held
    | split
    | fail)

theorem unbindRange_held {p : List Instr} (g : ℕ) (first : ℕ) (n : ℕ) (job : Word) (s : State) (hs : Held p s) :
    Held p (unbindRange g first n job s).2 := by
  unfold unbindRange
  repeat' (first
    | with_reducible assumption
    | with_reducible refine held_ite ?_ ?_
    | with_reducible apply trimBind_held
    | with_reducible apply writeDir_held
    | with_reducible refine held_foldl (fun _ _ _ => ?_) _ ?_
    | fail)

theorem applyBind_held {p : List Instr} (e : Entry) (s : State) (hs : Held p s) :
    Held p (applyBind e s).2 := by
  unfold applyBind
  repeat' (first
    | with_reducible assumption
    | with_reducible apply bindRange_held
    | with_reducible refine held_foldl_snd (fun _ _ _ => ?_) _ ?_
    | fail)

theorem forceRange_held {p : List Instr} (e : Entry) (acc : ℕ × State) (r : ℕ × ℕ × ℕ) (hacc : Held p acc.2) :
    Held p (forceRange e acc r).2 := by
  unfold forceRange
  repeat' (first
    | with_reducible assumption
    | (with_reducible refine held_snd (by assumption) ?_; with_reducible apply unbindRange_held)
    | with_reducible apply addRec_held
    | with_reducible apply raisePriv_held
    | with_reducible apply modEntry_held
    | with_reducible apply Held.upd (by assumption)
    | with_reducible exact id
    | (extract_lets +onlyGivenNames x; refine (have hx : Held p x := ?_; ?_); on_goal 2 => try clear_value x; on_goal 1 => subst x)
    | (extract_lets +onlyGivenNames x; subst x)
    | split
    | fail)

theorem applyUnbind_held {p : List Instr} (e : Entry) (s : State) (hs : Held p s) :
    Held p (applyUnbind e s).2 := by
  unfold applyUnbind
  repeat' (first
    | with_reducible assumption
    | with_reducible apply forceRange_held
    | with_reducible refine held_foldl_snd (fun _ _ _ => ?_) _ ?_
    | fail)

theorem serveBind_held {p : List Instr} (e : Entry) (s : State) (hs : Held p s) :
    Held p (serveBind e s) := by
  unfold serveBind
  repeat' (first
    | with_reducible assumption
    | with_reducible apply applyBind_held
    | with_reducible apply applyUnbind_held
    | with_reducible apply modEntry_held
    | split
    | fail)

theorem reserveBind_held {p : List Instr} (e : Entry) (s : State) (hs : Held p s) :
    Held p (reserveBind e s) := by
  unfold reserveBind
  repeat' (first
    | with_reducible assumption
    | with_reducible refine held_ite ?_ ?_
    | with_reducible apply serveBind_held
    | with_reducible apply modEntry_held
    | with_reducible apply Held.upd (by assumption)
    | with_reducible exact id
    | fail)

theorem execBind_held {p : List Instr} (eid : ℕ) (s : State) (hs : Held p s) :
    HeldOut p (execBind eid s) := by
  unfold execBind
  repeat' (first
    | with_reducible assumption
    | with_reducible refine heldOut_next ?_
    | with_reducible refine dispatch_held _ _ _ _ ?_ (fun _ _ _ => ?_)
    | with_reducible apply refuse_held
    | with_reducible apply reserveBind_held
    | split
    | fail)

theorem execUnbindForce_held {p : List Instr} (eid : ℕ) (s : State) (hs : Held p s) :
    HeldOut p (execUnbindForce eid s) := by
  unfold execUnbindForce
  repeat' (first
    | with_reducible assumption
    | with_reducible refine heldOut_next ?_
    | with_reducible refine held_ite ?_ ?_
    | with_reducible refine dispatch_held _ _ _ _ ?_ (fun _ _ _ => ?_)
    | with_reducible apply refuse_held
    | with_reducible apply reserveBind_held
    | fail)

theorem execBindReserve_held {p : List Instr} (s : State) (hs : Held p s) :
    HeldOut p (execBindReserve s) := by
  unfold execBindReserve
  repeat' (first
    | with_reducible assumption
    | with_reducible refine heldOut_next ?_
    | with_reducible apply serveBind_held
    | split
    | fail)

theorem execBindWaitEvent_held {p : List Instr} (eid : ℕ) (s : State) (hs : Held p s) :
    HeldOut p (execBindWaitEvent eid s) := by
  unfold execBindWaitEvent
  repeat' (first
    | with_reducible assumption
    | with_reducible refine heldOut_next ?_
    | with_reducible refine held_ite ?_ ?_
    | with_reducible apply raise_held
    | with_reducible apply modEntry_held
    | with_reducible apply Held.upd (by assumption)
    | with_reducible exact id
    | split
    | fail)

theorem settleBind_held {p : List Instr} (s : State) (e : Entry) (hs : Held p s) :
    Held p (settleBind s e) := by
  unfold settleBind
  repeat' (first
    | with_reducible assumption
    | with_reducible refine held_ite ?_ ?_
    | with_reducible apply modEntry_held
    | fail)

theorem mediaSend_held {p : List Instr} (a0 : ℕ) (m : BitVec 64) (s : State) (hs : Held p s) :
    Held p (mediaSend a0 m s) := by
  unfold mediaSend
  repeat' (first
    | with_reducible assumption
    | with_reducible apply dvSend_held
    | with_reducible apply Held.upd (by assumption)
    | with_reducible exact id
    | split
    | fail)

theorem mediaBeats_held {p : List Instr} (a0 : ℕ) (l : List (List Byte)) (s : State) (hs : Held p s) :
    Held p (mediaBeats a0 l s) := by
  unfold mediaBeats
  repeat' (first
    | with_reducible assumption
    | with_reducible refine held_ite ?_ ?_
    | with_reducible apply dvSend_held
    | with_reducible apply Held.upd (by assumption)
    | with_reducible exact id
    | split
    | fail)

theorem flushHead_held {p : List Instr} (a0 : ℕ) : ∀ (a1 : ℕ) (a2 : State), Held p a2 →
    Held p (flushHead a0 a1 a2) := by
  induction a0 with
  | zero =>
    intro a1 a2 h0
    first | rw [flushHead] | unfold flushHead
    repeat' (first
      | with_reducible assumption
      | fail)
  | succ _ ih =>
    intro a1 a2 h0
    first | rw [flushHead] | unfold flushHead
    repeat' (first
      | with_reducible assumption
      | with_reducible apply ih
      | with_reducible refine held_ite ?_ ?_
      | with_reducible apply modHead_held
      | with_reducible apply mediaSend_held
      | with_reducible apply mediaBeats_held
      | with_reducible refine held_foldl (fun _ _ _ => ?_) _ ?_
      | split
      | fail)

theorem flushAnswers_held {p : List Instr} (s : State) (hs : Held p s) :
    Held p (flushAnswers s) := by
  unfold flushAnswers
  repeat' (first
    | with_reducible assumption
    | with_reducible apply flushHead_held
    | with_reducible refine held_foldl (fun _ _ _ => ?_) _ ?_
    | fail)

theorem answer_held {p : List Instr} (a0 : ℕ) (a : Ans) (s : State) (hs : Held p s) :
    Held p (answer a0 a s) := by
  unfold answer
  repeat' (first
    | with_reducible assumption
    | with_reducible apply flushAnswers_held
    | with_reducible apply modHead_held
    | fail)

theorem ack_held {p : List Instr} (m : BitVec 64) (s : State) (hs : Held p s) :
    Held p (ack m s) := by
  unfold ack
  repeat' (first
    | with_reducible assumption
    | with_reducible apply answer_held
    | fail)

theorem nak_held {p : List Instr} (m : BitVec 64) (reason : ℕ) (s : State) (hs : Held p s) :
    Held p (nak m reason s) := by
  unfold nak
  repeat' (first
    | with_reducible assumption
    | with_reducible apply answer_held
    | fail)

theorem startUnit_held {p : List Instr} (a0 : ℕ) (g : ℕ) (u : ℕ × ℕ) (s : State) (hs : Held p s) :
    HeldOpt p (startUnit a0 g u s) := by
  unfold startUnit
  repeat' (first
    | with_reducible refine heldOpt_some ?_
    | with_reducible exact heldOpt_none
    | with_reducible refine heldOpt_ite ?_ ?_
    | with_reducible assumption
    | with_reducible apply Held.upd (by assumption)
    | with_reducible exact id
    | (extract_lets +onlyGivenNames x; subst x)
    | split
    | (with_reducible apply Held.upd; on_goal 1 => (with_reducible apply Held.upd; on_goal 1 => (with_reducible apply addRead_held)))
    | fail)

theorem unitRead_held {p : List Instr} (a0 : ℕ) (f : Feed) (u : ℕ × ℕ) (rest : List (ℕ × ℕ)) (s : State) (hs : Held p s) :
    Held p (unitRead a0 f u rest s) := by
  unfold unitRead
  repeat' (first
    | with_reducible assumption
    | with_reducible apply modHead_held
    | fail)

theorem nextUnit_held {p : List Instr} (a0 : ℕ) (s : State) (hs : Held p s) :
    HeldOpt p (nextUnit a0 s) := by
  unfold nextUnit
  repeat' (first
    | with_reducible refine heldOpt_some ?_
    | with_reducible exact heldOpt_none
    | with_reducible refine heldOpt_ite ?_ ?_
    | with_reducible assumption
    | (with_reducible refine held_some (by assumption) ?_; with_reducible apply startUnit_held)
    | with_reducible apply unitRead_held
    | split
    | fail)

theorem pumpFeed_held {p : List Instr} (n : ℕ) : ∀ (h : ℕ) (s : State), Held p s → Held p (pumpFeed n h s) := by
  induction n with
  | zero => intro h s hs; exact hs
  | succ n ih =>
    intro h s hs
    unfold pumpFeed
    split
    · rename_i e; exact ih _ _ (held_some e (nextUnit_held h s hs))
    · exact hs

theorem pumpFeeds_held {p : List Instr} (s : State) (hs : Held p s) :
    Held p (pumpFeeds s) := by
  unfold pumpFeeds
  repeat' (first
    | with_reducible assumption
    | with_reducible apply pumpFeed_held
    | with_reducible refine held_foldl (fun _ _ _ => ?_) _ ?_
    | fail)

theorem feedDone_held {p : List Instr} (a0 : ℕ) (f : Feed) (s : State) (hs : Held p s) :
    Held p (feedDone a0 f s) := by
  unfold feedDone
  repeat' (first
    | with_reducible assumption
    | with_reducible apply flushAnswers_held
    | with_reducible apply modHead_held
    | fail)

theorem cutFeed_held {p : List Instr} (a0 : ℕ) (s : State) (hs : Held p s) :
    Held p (cutFeed a0 s) := by
  unfold cutFeed
  repeat' (first
    | with_reducible assumption
    | with_reducible apply mediaSend_held
    | with_reducible apply feedDone_held
    | with_reducible apply dropFeedCws_held
    | with_reducible apply withdraw_held
    | with_reducible apply Held.upd (by assumption)
    | with_reducible exact id
    | (extract_lets +onlyGivenNames x; refine (have hx : Held p x := ?_; ?_); on_goal 2 => try clear_value x; on_goal 1 => subst x)
    | (extract_lets +onlyGivenNames x; subst x)
    | split
    | fail)

theorem unitGot_held {p : List Instr} (acc : List Byte × Bool × State) (bs : List Byte) (ok : Bool) (s : State)
    (hs : Held p s) : Held p (unitGot acc bs ok s).2.2 := hs

theorem unitData_held {p : List Instr} (cs : List Cw) (s : State) (hs : Held p s) : Held p (unitData cs s).2.2 := by
  unfold unitData
  refine held_foldl_third (fun x k h => ?_) _ hs
  split
  · exact unitGot_held _ _ _ _ (sramRead_held _ _ _ h)
  · exact h

theorem endRun_held {p : List Instr} (a0 : ℕ) (f : Feed) (u : ℕ × ℕ) (rest : List (ℕ × ℕ)) (lost : ℕ) (s : State) (hs : Held p s) :
    Held p (endRun a0 f u rest lost s) := by
  unfold endRun
  repeat' (first
    | with_reducible assumption
    | with_reducible refine held_ite ?_ ?_
    | with_reducible apply modHead_held
    | with_reducible apply feedDone_held
    | with_reducible apply pumpFeeds_held
    | with_reducible apply flushAnswers_held
    | with_reducible exact id
    | (extract_lets +onlyGivenNames x; subst x)
    | (with_reducible apply Held.upd; on_goal 1 => (with_reducible apply mediaSend_held))
    | (with_reducible apply Held.upd; on_goal 1 => (with_reducible apply dropJobs_held))
    | fail)

theorem execFeedRun_held {p : List Instr} (head : ℕ) (beats : ℕ) (s : State) (hs : Held p s) :
    HeldOut p (execFeedRun head beats s) := by
  unfold execFeedRun
  repeat' (first
    | with_reducible assumption
    | with_reducible refine heldOut_checked ?_
    | with_reducible refine held_ite ?_ ?_
    | with_reducible apply unitData_held
    | with_reducible apply mediaSend_held
    | with_reducible apply mediaBeats_held
    | with_reducible apply endRun_held
    | with_reducible apply modHead_held
    | with_reducible exact id
    | (extract_lets +onlyGivenNames x; subst x)
    | split
    | (with_reducible apply Held.upd; on_goal 1 => (with_reducible apply mediaBeats_held))
    | fail)

theorem serveAttach_held {p : List Instr} (m : BitVec 64) (s : State) (hs : Held p s) :
    Held p (serveAttach m s) := by
  unfold serveAttach
  repeat' (first
    | with_reducible assumption
    | with_reducible refine held_ite ?_ ?_
    | with_reducible apply nak_held
    | with_reducible apply ack_held
    | with_reducible apply modHead_held
    | fail)

theorem serveDetach_held {p : List Instr} (m : BitVec 64) (s : State) (hs : Held p s) :
    Held p (serveDetach m s) := by
  unfold serveDetach
  repeat' (first
    | with_reducible assumption
    | with_reducible apply cutFeed_held
    | with_reducible apply ack_held
    | with_reducible apply modHead_held
    | fail)

theorem serveFeed_held {p : List Instr} (m : BitVec 64) (s : State) (hs : Held p s) :
    Held p (serveFeed m s) := by
  unfold serveFeed
  repeat' (first
    | with_reducible assumption
    | with_reducible refine held_ite ?_ ?_
    | with_reducible apply mediaSend_held
    | with_reducible apply nak_held
    | with_reducible apply answer_held
    | with_reducible apply modHead_held
    | with_reducible apply feedDone_held
    | with_reducible apply pumpFeeds_held
    | (extract_lets +onlyGivenNames x; refine (have hx : Held p x := ?_; ?_); on_goal 2 => try clear_value x; on_goal 1 => subst x)
    | (extract_lets +onlyGivenNames x; subst x)
    | split
    | fail)

theorem serveVerifyGood_held {p : List Instr} (m : BitVec 64) (s : State) (hs : Held p s) :
    Held p (serveVerifyGood m s) := by
  unfold serveVerifyGood
  repeat' (first
    | with_reducible assumption
    | with_reducible refine held_ite ?_ ?_
    | with_reducible apply nak_held
    | with_reducible apply unbindRange_held
    | with_reducible apply addRec_held
    | with_reducible apply answer_held
    | with_reducible exact id
    | (extract_lets +onlyGivenNames x; subst x)
    | split
    | (with_reducible apply Held.upd; on_goal 1 => (with_reducible apply modHead_held))
    | fail)

theorem serveVerifyBad_held {p : List Instr} (m : BitVec 64) (s : State) (hs : Held p s) :
    Held p (serveVerifyBad m s) := by
  unfold serveVerifyBad
  repeat' (first
    | with_reducible assumption
    | with_reducible apply nak_held
    | with_reducible apply modHead_held
    | with_reducible apply ack_held
    | with_reducible apply raise_held
    | with_reducible apply Held.upd (by assumption)
    | with_reducible exact id
    | (extract_lets +onlyGivenNames x; refine (have hx : Held p x := ?_; ?_); on_goal 2 => try clear_value x; on_goal 1 => subst x)
    | (extract_lets +onlyGivenNames x; subst x)
    | split
    | fail)

theorem bumpReport_held {p : List Instr} (i : ℕ) (s : State) (hs : Held p s) :
    Held p (bumpReport i s) := by
  unfold bumpReport
  repeat' (first
    | with_reducible apply Held.upd (by assumption)
    | with_reducible exact id
    | fail)

theorem zeroFrag_held {p : List Instr} (f : Frag) (s : State) (hs : Held p s) : Held p (zeroFrag f s) :=
  Held.setSram hs (zeroRange_wf _ _)

theorem serveFragOpen_held {p : List Instr} (m : BitVec 64) (s : State) (hs : Held p s) :
    Held p (serveFragOpen m s) := by
  unfold serveFragOpen
  repeat' (first
    | with_reducible assumption
    | with_reducible refine held_ite ?_ ?_
    | with_reducible apply nak_held
    | with_reducible apply zeroFrag_held
    | with_reducible apply ack_held
    | with_reducible apply bumpReport_held
    | with_reducible apply Held.upd (by assumption)
    | with_reducible exact id
    | (extract_lets +onlyGivenNames x; subst x)
    | split
    | fail)

theorem servePass_held {p : List Instr} (m : BitVec 64) (s : State) (hs : Held p s) :
    Held p (servePass m s) := by
  unfold servePass
  repeat' (first
    | with_reducible assumption
    | with_reducible refine held_ite ?_ ?_
    | with_reducible apply nak_held
    | with_reducible apply answer_held
    | with_reducible apply modHead_held
    | split
    | fail)

theorem passResult_held {p : List Instr} (a0 : ℕ) (frag : ℕ) (result : ℕ) (shift : ℤ) (score : ℕ) (s : State) (hs : Held p s) :
    Held p (passResult a0 frag result shift score s) := by
  unfold passResult
  repeat' (first
    | with_reducible assumption
    | with_reducible apply flushAnswers_held
    | with_reducible apply modHead_held
    | fail)

theorem cutPass_held {p : List Instr} (a0 : ℕ) (s : State) (hs : Held p s) :
    Held p (cutPass a0 s) := by
  unfold cutPass
  repeat' (first
    | with_reducible assumption
    | with_reducible apply passResult_held
    | with_reducible apply bumpReport_held
    | split
    | fail)

theorem sumPass_held {p : List Instr} (f : Frag) (x : List Byte) (sh : ℤ) (s : State) (hs : Held p s) :
    Held p (sumPass f x sh s) := by
  have h : Held p (sramRead (accOff f.slot) (2 * f.n) s).2.2 := sramRead_held _ _ _ hs
  unfold sumPass
  exact Held.upd (sramWrite_held _ _ _ h) id id id id id id id id id id id id

theorem scoreField_held {p : List Instr} (score : ℕ) (s : State) (hs : Held p s) :
    Held p (scoreField score s).2 := by
  unfold scoreField
  repeat' (first
    | with_reducible assumption
    | with_reducible apply takeFree_held
    | split
    | fail)

theorem judgePass_held {p : List Instr} (a0 : ℕ) (f : Frag) (x : List Byte) (s : State) (hs : Held p s) :
    Held p (judgePass a0 f x s) := by
  unfold judgePass
  repeat' (first
    | with_reducible assumption
    | with_reducible refine held_ite ?_ ?_
    | with_reducible apply scoreField_held
    | with_reducible apply passResult_held
    | with_reducible apply bumpReport_held
    | with_reducible exact id
    | (extract_lets +onlyGivenNames x; subst x)
    | (with_reducible apply Held.upd; on_goal 1 => (with_reducible apply sumPass_held))
    | (with_reducible apply Held.upd; on_goal 1 => (with_reducible apply Held.upd; on_goal 1 => (with_reducible apply scoreField_held)))
    | fail)

theorem endPass_held {p : List Instr} (head : ℕ) (fr : ℕ) (sync : Bool) (samples : List Sys2Proof.Byte) (s : State) (hs : Held p s) :
    Held p (endPass head fr sync samples s) := by
  unfold endPass
  repeat' (first
    | with_reducible assumption
    | with_reducible refine held_ite ?_ ?_
    | with_reducible apply cutPass_held
    | with_reducible apply passResult_held
    | with_reducible apply bumpReport_held
    | with_reducible apply judgePass_held
    | with_reducible apply Held.upd (by assumption)
    | with_reducible exact id
    | (extract_lets +onlyGivenNames x; subst x)
    | split
    | fail)

theorem serveFragRead_held {p : List Instr} (m : BitVec 64) (s : State) (hs : Held p s) :
    Held p (serveFragRead m s) := by
  unfold serveFragRead
  repeat' (first
    | with_reducible assumption
    | with_reducible refine held_ite ?_ ?_
    | with_reducible apply nak_held
    | with_reducible apply sramRead_held
    | with_reducible apply answer_held
    | split
    | fail)

theorem serveFragClose_held {p : List Instr} (m : BitVec 64) (s : State) (hs : Held p s) :
    Held p (serveFragClose m s) := by
  unfold serveFragClose
  repeat' (first
    | with_reducible assumption
    | with_reducible refine held_ite ?_ ?_
    | with_reducible apply nak_held
    | with_reducible apply ack_held
    | with_reducible apply Held.upd (by assumption)
    | with_reducible exact id
    | split
    | fail)

theorem serveMessage_held {p : List Instr} (m : BitVec 64) (s : State) (hs : Held p s) :
    Held p (serveMessage m s) := by
  unfold serveMessage
  repeat' (first
    | with_reducible assumption
    | with_reducible refine held_ite ?_ ?_
    | with_reducible apply nak_held
    | with_reducible apply serveAttach_held
    | with_reducible apply serveDetach_held
    | with_reducible apply serveFeed_held
    | with_reducible apply serveVerifyGood_held
    | with_reducible apply serveVerifyBad_held
    | with_reducible apply serveFragOpen_held
    | with_reducible apply servePass_held
    | with_reducible apply serveFragRead_held
    | with_reducible apply serveFragClose_held
    | split
    | fail)

theorem serveQueue_held {p : List Instr} (n : ℕ) (s : State) (hs : Held p s) : Held p (serveQueue n s) := by
  induction n generalizing s with
  | zero => exact hs
  | succ n ih =>
    unfold serveQueue
    split
    · exact hs
    · refine held_ite hs (ih _ (serveMessage_held _ _ ?_))
      apply Held.upd hs
      all_goals exact id

theorem acceptMessage_held {p : List Instr} (m : BitVec 64) (s : State) (hs : Held p s) :
    Held p (acceptMessage m s) := by
  unfold acceptMessage
  repeat' (first
    | with_reducible assumption
    | with_reducible refine held_ite ?_ ?_
    | with_reducible apply lookUpBinds_held
    | with_reducible apply serveQueue_held
    | with_reducible exact id
    | (with_reducible apply Held.upd; on_goal 1 => (with_reducible refine held_ite ?_ ?_))
    | fail)

theorem forward_held {p : List Instr} (m : BitVec 64) (s : State) (hs : Held p s) :
    Held p (forward m s) := by
  unfold forward
  repeat' (first
    | with_reducible assumption
    | with_reducible apply dvSend_held
    | with_reducible apply modHead_held
    | fail)

theorem takeMessage_held {p : List Instr} (m : BitVec 64) (s : State) (hs : Held p s) :
    Held p (takeMessage m s) := by
  unfold takeMessage
  repeat' (first
    | with_reducible assumption
    | with_reducible refine held_ite ?_ ?_
    | with_reducible apply forward_held
    | with_reducible apply acceptMessage_held
    | fail)

theorem answerBack_held {p : List Instr} (m : BitVec 64) (s : State) (hs : Held p s) :
    Held p (answerBack m s) := by
  unfold answerBack
  repeat' (first
    | with_reducible assumption
    | with_reducible refine held_ite ?_ ?_
    | with_reducible apply modHead_held
    | with_reducible apply Held.upd (by assumption)
    | with_reducible exact id
    | (with_reducible apply Held.upd; on_goal 1 => (with_reducible apply modHead_held))
    | (with_reducible apply Held.upd; on_goal 1 => (with_reducible apply Held.upd (by assumption)))
    | fail)

theorem execPassJudge_held {p : List Instr} (head : ℕ) (samples : List Sys2Proof.Byte) (s : State) (hs : Held p s) :
    HeldOut p (execPassJudge head samples s) := by
  unfold execPassJudge
  repeat' (first
    | with_reducible assumption
    | with_reducible refine heldOut_checked ?_
    | with_reducible apply serveQueue_held
    | with_reducible apply endPass_held
    | split
    | fail)

theorem ofKind_held {p : List Instr} (kind : ℕ) (m : BitVec 64) (s : State) (hs : Held p s) :
    Held p (ofKind kind m s) := by
  unfold ofKind
  repeat' (first
    | with_reducible assumption
    | with_reducible refine held_ite ?_ ?_
    | with_reducible apply takeMessage_held
    | fail)

theorem execAttach_held {p : List Instr} (m : BitVec 64) (s : State) (hs : Held p s) :
    HeldOut p (execAttach m s) := by
  unfold execAttach
  repeat' (first
    | with_reducible assumption
    | with_reducible refine heldOut_next ?_
    | with_reducible apply ofKind_held
    | fail)

theorem execDetach_held {p : List Instr} (m : BitVec 64) (s : State) (hs : Held p s) :
    HeldOut p (execDetach m s) := by
  unfold execDetach
  repeat' (first
    | with_reducible assumption
    | with_reducible refine heldOut_next ?_
    | with_reducible apply ofKind_held
    | fail)

theorem execFeed_held {p : List Instr} (m : BitVec 64) (s : State) (hs : Held p s) :
    HeldOut p (execFeed m s) := by
  unfold execFeed
  repeat' (first
    | with_reducible assumption
    | with_reducible refine heldOut_next ?_
    | with_reducible apply ofKind_held
    | fail)

theorem execVerifyGood_held {p : List Instr} (m : BitVec 64) (s : State) (hs : Held p s) :
    HeldOut p (execVerifyGood m s) := by
  unfold execVerifyGood
  repeat' (first
    | with_reducible assumption
    | with_reducible refine heldOut_next ?_
    | with_reducible apply ofKind_held
    | fail)

theorem execVerifyBad_held {p : List Instr} (m : BitVec 64) (s : State) (hs : Held p s) :
    HeldOut p (execVerifyBad m s) := by
  unfold execVerifyBad
  repeat' (first
    | with_reducible assumption
    | with_reducible refine heldOut_next ?_
    | with_reducible apply ofKind_held
    | fail)

theorem execFragOpen_held {p : List Instr} (m : BitVec 64) (s : State) (hs : Held p s) :
    HeldOut p (execFragOpen m s) := by
  unfold execFragOpen
  repeat' (first
    | with_reducible assumption
    | with_reducible refine heldOut_next ?_
    | with_reducible apply ofKind_held
    | fail)

theorem execPass_held {p : List Instr} (m : BitVec 64) (s : State) (hs : Held p s) :
    HeldOut p (execPass m s) := by
  unfold execPass
  repeat' (first
    | with_reducible assumption
    | with_reducible refine heldOut_next ?_
    | with_reducible apply ofKind_held
    | fail)

theorem execFragRead_held {p : List Instr} (m : BitVec 64) (s : State) (hs : Held p s) :
    HeldOut p (execFragRead m s) := by
  unfold execFragRead
  repeat' (first
    | with_reducible assumption
    | with_reducible refine heldOut_next ?_
    | with_reducible apply ofKind_held
    | fail)

theorem execFragClose_held {p : List Instr} (m : BitVec 64) (s : State) (hs : Held p s) :
    HeldOut p (execFragClose m s) := by
  unfold execFragClose
  repeat' (first
    | with_reducible assumption
    | with_reducible refine heldOut_next ?_
    | with_reducible apply ofKind_held
    | fail)

theorem execMediaReservedMsg_held {p : List Instr} (m : BitVec 64) (s : State) (hs : Held p s) :
    HeldOut p (execMediaReservedMsg m s) := by
  unfold execMediaReservedMsg
  repeat' (first
    | with_reducible assumption
    | with_reducible refine heldOut_next ?_
    | with_reducible refine held_ite ?_ ?_
    | with_reducible apply takeMessage_held
    | fail)

theorem openAccum_held {p : List Instr} (heads : BitVec 16) (param : List Sys2Proof.Byte) (s : State) (hs : Held p s) :
    Held p (openAccum heads param s) := by
  unfold openAccum
  repeat' (first
    | with_reducible apply Held.upd (by assumption)
    | with_reducible exact id
    | fail)

theorem execAccumOpen_held {p : List Instr} (eid : ℕ) (param : Sys2Proof.HostRead) (s : State) (hs : Held p s) :
    HeldOut p (execAccumOpen eid param s) := by
  unfold execAccumOpen
  repeat' (first
    | with_reducible assumption
    | with_reducible refine heldOut_next ?_
    | with_reducible refine held_ite ?_ ?_
    | with_reducible refine dispatch_held _ _ _ _ ?_ (fun _ _ _ => ?_)
    | with_reducible apply refuse_held
    | with_reducible apply fetchHost_held
    | with_reducible apply modEntry_held
    | with_reducible apply tellAccums_held
    | with_reducible exact id
    | (with_reducible apply Held.upd; on_goal 1 => (with_reducible apply openAccum_held))
    | (extract_lets +onlyGivenNames x; refine (have hx : Held p x := ?_; ?_); on_goal 2 => try clear_value x; on_goal 1 => subst x)
    | (extract_lets +onlyGivenNames x; subst x)
    | split
    | fail)

theorem openedAll_held {p : List Instr} (s : State) (hs : Held p s) :
    Held p (openedAll s) := by
  unfold openedAll
  repeat' (first
    | with_reducible assumption
    | with_reducible refine held_ite ?_ ?_
    | with_reducible apply endEntry_held
    | with_reducible apply Held.upd (by assumption)
    | with_reducible exact id
    | (extract_lets +onlyGivenNames x; subst x)
    | split
    | fail)

theorem execAccumDrainEnd_held {p : List Instr} (s : State) (hs : Held p s) :
    HeldOut p (execAccumDrainEnd s) := by
  unfold execAccumDrainEnd
  repeat' (first
    | with_reducible assumption
    | with_reducible refine heldOut_next ?_
    | with_reducible refine held_ite ?_ ?_
    | with_reducible apply dvSend_held
    | with_reducible apply openedAll_held
    | with_reducible apply Held.upd (by assumption)
    | with_reducible exact id
    | fail)

theorem closeFrags_held {p : List Instr} (s : State) (hs : Held p s) :
    Held p (closeFrags s) := by
  unfold closeFrags
  repeat' (first
    | with_reducible assumption
    | with_reducible apply cutPass_held
    | with_reducible exact id
    | (with_reducible apply Held.upd; on_goal 1 => (with_reducible refine held_foldl (fun _ _ _ => ?_) _ ?_))
    | fail)

theorem returnedAll_held {p : List Instr} (s : State) (hs : Held p s) :
    Held p (returnedAll s) := by
  unfold returnedAll
  repeat' (first
    | with_reducible assumption
    | with_reducible refine held_ite ?_ ?_
    | with_reducible apply hostWrite_held
    | split
    | fail)

theorem execAccumReturn_held {p : List Instr} (eid : ℕ) (s : State) (hs : Held p s) :
    HeldOut p (execAccumReturn eid s) := by
  unfold execAccumReturn
  repeat' (first
    | with_reducible assumption
    | with_reducible refine heldOut_next ?_
    | with_reducible refine held_ite ?_ ?_
    | with_reducible refine dispatch_held _ _ _ _ ?_ (fun _ _ _ => ?_)
    | with_reducible apply refuse_held
    | with_reducible apply tellAccums_held
    | with_reducible apply serveQueue_held
    | with_reducible apply modEntry_held
    | with_reducible apply returnedAll_held
    | with_reducible exact id
    | (with_reducible apply Held.upd; on_goal 1 => (with_reducible apply closeFrags_held))
    | fail)

theorem accumJob_held {p : List Instr} (a : Sys2Proof.AccumIn) (s : State) (hs : Held p s) :
    Held p (accumJob a s) := by
  unfold accumJob
  repeat' (first
    | with_reducible assumption
    | with_reducible apply openAccum_held
    | with_reducible apply closeFrags_held
    | with_reducible apply dvSend_held
    | with_reducible apply serveQueue_held
    | with_reducible apply Held.upd (by assumption)
    | with_reducible exact id
    | (extract_lets +onlyGivenNames x; refine (have hx : Held p x := ?_; ?_); on_goal 2 => try clear_value x; on_goal 1 => subst x)
    | (extract_lets +onlyGivenNames x; subst x)
    | split
    | fail)

theorem accumAnswered_held {p : List Instr} (handle : ℕ) (counts : List (ℕ × ℕ)) (s : State) (hs : Held p s) :
    Held p (accumAnswered handle counts s) := by
  unfold accumAnswered
  repeat' (first
    | with_reducible refine held_ite ?_ ?_
    | with_reducible apply openedAll_held
    | with_reducible apply returnedAll_held
    | with_reducible apply Held.upd (by assumption)
    | with_reducible exact id
    | (with_reducible apply Held.upd; on_goal 1 => (with_reducible apply Held.upd (by assumption)))
    | fail)

theorem accumLeft_held {p : List Instr} (s : State) (hs : Held p s) :
    Held p (accumLeft s) := by
  unfold accumLeft
  repeat' (first
    | with_reducible refine held_ite ?_ ?_
    | with_reducible apply returnedAll_held
    | with_reducible apply openedAll_held
    | with_reducible apply Held.upd (by assumption)
    | with_reducible exact id
    | fail)

theorem reportAcked_held {p : List Instr} (eid : ℕ) (err : Bool) (s : State) (hs : Held p s) :
    Held p (reportAcked eid err s) := by
  unfold reportAcked
  repeat' (first
    | with_reducible refine held_ite ?_ ?_
    | with_reducible apply endEntry_held
    | with_reducible apply Held.upd (by assumption)
    | with_reducible exact id
    | fail)

theorem abortHead_held {p : List Instr} (s : State) (a1 : ℕ) (hs : Held p s) :
    Held p (abortHead s a1) := by
  unfold abortHead
  repeat' (first
    | with_reducible assumption
    | with_reducible apply cutPass_held
    | with_reducible apply cutFeed_held
    | with_reducible apply modHead_held
    | fail)

theorem execMediaAbort_held {p : List Instr} (m : Sys2Proof.Word) (s : State) (hs : Held p s) :
    HeldOut p (execMediaAbort m s) := by
  unfold execMediaAbort
  repeat' (first
    | with_reducible assumption
    | with_reducible refine heldOut_next ?_
    | with_reducible refine held_ite ?_ ?_
    | with_reducible apply abortHead_held
    | with_reducible apply sbTake_held
    | with_reducible apply serveQueue_held
    | with_reducible refine held_foldl (fun _ _ _ => ?_) _ ?_
    | with_reducible exact id
    | (with_reducible apply Held.upd; on_goal 1 => (with_reducible apply addRec_held))
    | fail)

theorem cutLostFeeds_held {p : List Instr} (s : State) (hs : Held p s) :
    Held p (cutLostFeeds s) := by
  unfold cutLostFeeds
  repeat' (first
    | with_reducible assumption
    | with_reducible refine held_ite ?_ ?_
    | with_reducible apply cutFeed_held
    | with_reducible refine held_foldl (fun _ _ _ => ?_) _ ?_
    | split
    | fail)

/-! ### Machine/Flush.lean -/

theorem suspendErases_held {p : List Instr} (s : State) (hs : Held p s) :
    Held p (suspendErases s) := by
  unfold suspendErases
  repeat' (first
    | with_reducible assumption
    | with_reducible apply modJig_held
    | with_reducible refine held_foldl (fun _ _ _ => ?_) _ ?_
    | exact fun _ => id
    | fail)

theorem settleFence_held {p : List Instr} (s : State) (hs : Held p s) :
    Held p (settleFence s) := by
  unfold settleFence
  repeat' (first
    | with_reducible assumption
    | with_reducible refine held_ite ?_ ?_
    | with_reducible apply abortEntry_held
    | with_reducible refine held_foldl (fun _ _ _ => ?_) _ ?_
    | fail)

theorem powerEvent_held {p : List Instr} (cause : ℕ) (s : State) (hs : Held p s) :
    Held p (powerEvent cause s) := by
  unfold powerEvent
  repeat' (first
    | with_reducible assumption
    | with_reducible apply raisePriv_held
    | fail)

theorem settleOv_held {p : List Instr} (s : State) (hs : Held p s) :
    Held p (settleOv s) := by
  unfold settleOv
  repeat' (first
    | with_reducible assumption
    | with_reducible refine held_ite ?_ ?_
    | with_reducible apply powerEvent_held
    | with_reducible apply Held.upd (by assumption)
    | with_reducible exact id
    | fail)

theorem stageOne_held {p : List Instr} (s : State) (hs : Held p s) :
    Held p (stageOne s) := by
  unfold stageOne
  repeat' (first
    | with_reducible assumption
    | with_reducible refine held_ite ?_ ?_
    | with_reducible apply Held.upd (by assumption)
    | with_reducible exact id
    | fail)

theorem stageTwo_held {p : List Instr} (s : State) (hs : Held p s) :
    Held p (stageTwo s) := by
  unfold stageTwo
  repeat' (first
    | with_reducible assumption
    | with_reducible refine held_ite ?_ ?_
    | with_reducible apply setConds_held
    | with_reducible apply suspendErases_held
    | with_reducible apply Held.upd (by assumption)
    | with_reducible exact id
    | fail)

theorem stagesEnd_held {p : List Instr} (s : State) (hs : Held p s) :
    Held p (stagesEnd s) := by
  unfold stagesEnd
  repeat' (first
    | with_reducible refine held_ite ?_ ?_
    | with_reducible apply powerEvent_held
    | with_reducible apply setConds_held
    | with_reducible apply Held.upd (by assumption)
    | with_reducible exact id
    | fail)

theorem endWithdrawn_held {p : List Instr} (a0 : Job → Bool) (s : State) (hs : Held p s) :
    Held p (endWithdrawn a0 s) := by
  unfold endWithdrawn
  repeat' (first
    | with_reducible assumption
    | with_reducible apply endClimb_held
    | with_reducible refine held_foldl (fun _ _ _ => ?_) _ ?_
    | fail)

theorem cutReleases_held {p : List Instr} (a0 : Job → Bool) (s : State) (hs : Held p s) :
    Held p (cutReleases a0 s) := by
  unfold cutReleases
  repeat' (first
    | with_reducible assumption
    | with_reducible refine held_ite ?_ ?_
    | with_reducible apply eraseCut_held
    | with_reducible refine held_foldl (fun _ _ _ => ?_) _ ?_
    | split
    | fail)

theorem stopServices_held {p : List Instr} (s : State) (hs : Held p s) :
    Held p (stopServices s) := by
  unfold stopServices
  repeat' (first
    | with_reducible assumption
    | with_reducible apply retireAll_held
    | with_reducible apply cutFold_held
    | with_reducible apply stopBackground_held
    | with_reducible apply stopClimbs_held
    | fail)

theorem closeFilling_held {p : List Instr} (s : State) (hs : Held p s) :
    Held p (closeFilling s) := by
  unfold closeFilling
  repeat' (first
    | with_reducible assumption
    | with_reducible refine held_ite ?_ ?_
    | with_reducible apply closeShort_held
    | with_reducible refine held_foldl (fun _ _ _ => ?_) _ ?_
    | fail)

theorem flushBegins_held {p : List Instr} (s : State) (hs : Held p s) :
    Held p (flushBegins s) := by
  unfold flushBegins
  repeat' (first
    | with_reducible assumption
    | with_reducible apply abortEntry_held
    | with_reducible apply cutReleases_held
    | with_reducible apply endWithdrawn_held
    | with_reducible apply abortPopped_held
    | with_reducible apply withdraw_held
    | with_reducible apply suspendErases_held
    | with_reducible apply closeFilling_held
    | with_reducible apply stopServices_held
    | with_reducible refine held_foldl (fun _ _ _ => ?_) _ ?_
    | fail)

theorem endForecasts_held {p : List Instr} (s : State) (hs : Held p s) :
    Held p (endForecasts s) := by
  unfold endForecasts
  repeat' (first
    | with_reducible assumption
    | with_reducible apply dropForecast_held
    | fail)

theorem powerFails_held {p : List Instr} (s : State) (hs : Held p s) :
    Held p (powerFails s) := by
  unfold powerFails
  repeat' (first
    | with_reducible assumption
    | with_reducible refine held_ite ?_ ?_
    | with_reducible apply cabHoldup_held
    | with_reducible apply endForecasts_held
    | with_reducible apply setConds_held
    | with_reducible apply retireAll_held
    | with_reducible apply stopServices_held
    | with_reducible apply flushBegins_held
    | with_reducible apply Held.upd (by assumption)
    | with_reducible exact id
    | (extract_lets +onlyGivenNames x; refine (have hx : Held p x := ?_; ?_); on_goal 2 => try clear_value x; on_goal 1 => subst x)
    | (extract_lets +onlyGivenNames x; subst x)
    | split
    | fail)

theorem raiseDone_held {p : List Instr} (s : State) (hs : Held p s) :
    Held p (raiseDone s) := by
  unfold raiseDone
  repeat' (first
    | with_reducible apply Held.upd (by assumption)
    | with_reducible exact id
    | fail)

theorem cutWrite_held {p : List Instr} (st : ℕ) (det : ℕ) (s : State) (e : Entry) (hs : Held p s) :
    Held p (cutWrite st det s e) := by
  unfold cutWrite
  repeat' (first
    | with_reducible assumption
    | with_reducible refine held_ite ?_ ?_
    | with_reducible apply programCut_held
    | with_reducible apply noteStatus_held
    | with_reducible refine held_foldl (fun _ _ _ => ?_) _ ?_
    | fail)

theorem cutUnread_held {p : List Instr} (s : State) (e : Entry) (hs : Held p s) :
    Held p (cutUnread s e) := by
  unfold cutUnread
  repeat' (first
    | with_reducible assumption
    | with_reducible refine held_ite ?_ ?_
    | with_reducible apply modEntry_held
    | with_reducible apply noteStatus_held
    | fail)

theorem cutErases_held {p : List Instr} (det : ℕ) (s : State) (hs : Held p s) :
    Held p (cutErases det s) := by
  unfold cutErases
  repeat' (first
    | with_reducible assumption
    | with_reducible refine held_ite ?_ ?_
    | with_reducible apply noteStatus_held
    | with_reducible apply modEntry_held
    | with_reducible refine held_foldl (fun _ _ _ => ?_) _ ?_
    | split
    | fail)

theorem thermalEvent_held {p : List Instr} (cause : ℕ) (s : State) (hs : Held p s) :
    Held p (thermalEvent cause s) := by
  unfold thermalEvent
  repeat' (first
    | with_reducible assumption
    | with_reducible apply raisePriv_held
    | fail)

theorem latchSets_held {p : List Instr} (s : State) (hs : Held p s) :
    Held p (latchSets s) := by
  unfold latchSets
  repeat' (first
    | with_reducible assumption
    | with_reducible refine held_ite ?_ ?_
    | with_reducible apply lockKeys_held
    | with_reducible apply setConds_held
    | with_reducible apply abortEntry_held
    | with_reducible apply cutErases_held
    | with_reducible apply endWithdrawn_held
    | with_reducible apply abortPopped_held
    | with_reducible apply withdraw_held
    | with_reducible apply suspendErases_held
    | with_reducible apply cutWrite_held
    | with_reducible apply stopServices_held
    | with_reducible apply cutUnread_held
    | with_reducible refine held_foldl (fun _ _ _ => ?_) _ ?_
    | with_reducible exact id
    | (with_reducible apply Held.upd; on_goal 1 => (with_reducible apply thermalEvent_held))
    | fail)

theorem abandonJob_held {p : List Instr} (s : State) (j : Job) (hs : Held p s) :
    Held p (abandonJob s j) := by
  unfold abandonJob
  repeat' (first
    | with_reducible assumption
    | with_reducible apply failRead_held
    | with_reducible apply programCut_held
    | with_reducible apply noteStatus_held
    | with_reducible apply modEntry_held
    | with_reducible apply journalCopyFailed_held
    | split
    | fail)

theorem abandonOps_held {p : List Instr} (s : State) (hs : Held p s) :
    Held p (abandonOps s) := by
  unfold abandonOps
  repeat' (first
    | with_reducible assumption
    | with_reducible apply returnLun_held
    | with_reducible apply modJig_held
    | with_reducible apply abandonJob_held
    | with_reducible apply placePageAgain_held
    | with_reducible apply dropJobs_held
    | with_reducible exact id
    | (with_reducible apply Held.upd; on_goal 1 => (with_reducible apply Held.upd; on_goal 1 => (with_reducible refine held_foldl (fun _ _ _ => ?_) _ ?_)))
    | split
    | intro _
    | fail)

theorem settleLatch_held {p : List Instr} (s : State) (hs : Held p s) :
    Held p (settleLatch s) := by
  unfold settleLatch
  repeat' (first
    | with_reducible assumption
    | with_reducible refine held_ite ?_ ?_
    | with_reducible apply placePageAgain_held
    | with_reducible apply enterPadHold_held
    | with_reducible refine held_foldl (fun _ _ _ => ?_) _ ?_
    | with_reducible apply Held.upd (by assumption)
    | with_reducible exact id
    | (with_reducible apply Held.upd; on_goal 1 => (with_reducible refine held_ite ?_ ?_))
    | fail)

theorem endLost_held {p : List Instr} (s : State) (e : Entry) (hs : Held p s) :
    Held p (endLost s e) := by
  unfold endLost
  repeat' (first
    | with_reducible assumption
    | with_reducible refine held_ite ?_ ?_
    | with_reducible apply modEntry_held
    | with_reducible apply abortEntry_held
    | split
    | fail)

theorem settleLost_held {p : List Instr} (s : State) (hs : Held p s) : Held p (settleLost s) := by
  unfold settleLost
  have h1 : Held p (s.sched.entries.foldl endLost s) := held_foldl (fun t e h => endLost_held _ _ h) _ hs
  split
  · refine held_ite ?_ h1
    with_reducible apply Held.upd h1 <;> try with_reducible exact id
    · simp only [List.length_map]; exact id
    · exact fun _ => Nat.le_of_eq List.length_replicate.symm
  · exact hs

theorem dropUnreachable_held {p : List Instr} (s : State) (hs : Held p s) :
    Held p (dropUnreachable s) := by
  unfold dropUnreachable
  repeat' (first
    | with_reducible apply Held.upd (by assumption)
    | with_reducible exact id
    | fail)

theorem cutJobs_held {p : List Instr} (s : State) (hs : Held p s) :
    Held p (cutJobs s) := by
  unfold cutJobs
  repeat' (first
    | with_reducible assumption
    | with_reducible apply dropUnreachable_held
    | with_reducible apply withdraw_held
    | fail)

theorem recallItems_held {p : List Instr} (s : State) (hs : Held p s) : Held p (recallItems s) := by
  unfold recallItems
  with_reducible apply Held.upd hs <;> first
    | with_reducible exact id
    | exact forgetResident_wf _
    | (intro h; refine jigsWf_map ?_ h; intro _; rfl)

theorem setFenced_held {p : List Instr} (s : State) (hs : Held p s) :
    Held p (setFenced s) := by
  unfold setFenced
  repeat' (first
    | with_reducible assumption
    | with_reducible apply setConds_held
    | with_reducible apply recallItems_held
    | fail)

theorem cascadeEvent_held {p : List Instr} (cause : ℕ) (die : BitVec 3) (s : State) (hs : Held p s) :
    Held p (cascadeEvent cause die s) := by
  unfold cascadeEvent
  repeat' (first
    | with_reducible assumption
    | with_reducible apply raisePriv_held
    | fail)

theorem loseLead_held {p : List Instr} (s : State) (hs : Held p s) :
    Held p (loseLead s) := by
  unfold loseLead
  repeat' (first
    | with_reducible assumption
    | with_reducible refine held_ite ?_ ?_
    | with_reducible apply endRows_held
    | with_reducible apply cascadeEvent_held
    | with_reducible apply abortEntry_held
    | with_reducible apply cutJobs_held
    | with_reducible apply noteStatus_held
    | with_reducible apply cutWrite_held
    | with_reducible refine held_foldl (fun _ _ _ => ?_) _ ?_
    | with_reducible exact id
    | (with_reducible apply Held.upd; on_goal 1 => (with_reducible apply setConds_held))
    | fail)

theorem takeWindow_held {p : List Instr} (s : State) (hs : Held p s) :
    Held p (takeWindow s) := by
  unfold takeWindow
  repeat' (first
    | with_reducible assumption
    | with_reducible apply Held.upd (by assumption)
    | with_reducible exact id
    | split
    | fail)

theorem layWindow_held {p : List Instr} (s : State) (hs : Held p s) :
    Held p (layWindow s) := by
  unfold layWindow
  repeat' (first
    | with_reducible apply Held.upd (by assumption)
    | with_reducible exact id
    | fail)

theorem settleClosing_held {p : List Instr} (s : State) (hs : Held p s) : Held p (settleClosing s) := by
  unfold settleClosing
  refine held_ite ?_ hs
  with_reducible apply Held.upd hs <;> try with_reducible exact id
  exact fun _ => Nat.le_of_eq List.length_replicate.symm

theorem startTakeover_held {p : List Instr} (s : State) (hs : Held p s) :
    Held p (startTakeover s) := by
  unfold startTakeover
  repeat' (first
    | with_reducible refine held_ite ?_ ?_
    | with_reducible apply beginRecovery_held
    | with_reducible apply takeWindow_held
    | with_reducible apply setConds_held
    | with_reducible apply modJrnl_held
    | with_reducible apply tryGrant_held
    | with_reducible apply pendingGrant_held
    | with_reducible apply Held.upd (by assumption)
    | with_reducible exact id
    | (with_reducible apply Held.upd; on_goal 1 => (with_reducible apply beginRecovery_held))
    | (with_reducible apply Held.upd; on_goal 1 => (with_reducible apply layWindow_held))
    | fail)

theorem settleTakeover_held {p : List Instr} (s : State) (hs : Held p s) :
    Held p (settleTakeover s) := by
  unfold settleTakeover
  repeat' (first
    | with_reducible assumption
    | with_reducible refine held_ite ?_ ?_
    | with_reducible apply settleClosing_held
    | with_reducible apply startTakeover_held
    | fail)

/-! ### Machine/Remote.lean -/

theorem placeRemote_held {p : List Instr} (w : RemoteIn) (buf : ℕ) (s : State) (hs : Held p s) :
    Held p (placeRemote w buf s).2 := by
  unfold placeRemote
  repeat' (first
    | with_reducible assumption
    | with_reducible apply addJob_held
    | with_reducible apply modRemote_held
    | fail)

theorem fillRemote_held {p : List Instr} (r : Remote) (buf : ℕ) (s : State) (hs : Held p s) :
    Held p (fillRemote r buf s) := by
  unfold fillRemote
  repeat' (first
    | with_reducible assumption
    | with_reducible apply modJob_held
    | split
    | fail)

theorem beginRemote_held {p : List Instr} (w : RemoteIn) (s : State) (hs : Held p s) :
    Held p (beginRemote w s) := by
  unfold beginRemote
  repeat' (first
    | with_reducible assumption
    | with_reducible refine held_ite ?_ ?_
    | with_reducible apply placeRemote_held
    | with_reducible apply modRemote_held
    | with_reducible apply hostReadData_held
    | with_reducible refine held_foldl (fun _ _ _ => ?_) _ ?_
    | with_reducible exact id
    | (extract_lets +onlyGivenNames x; subst x)
    | split
    | (with_reducible apply Held.upd; on_goal 1 => (with_reducible refine held_snd (by assumption) ?_; with_reducible apply placeRemote_held))
    | fail)

theorem pumpRemotes_held {p : List Instr} (s : State) (hs : Held p s) :
    Held p (pumpRemotes s) := by
  unfold pumpRemotes
  repeat' (first
    | with_reducible assumption
    | with_reducible apply beginRemote_held
    | with_reducible refine held_foldl (fun _ _ _ => ?_) _ ?_
    | fail)

theorem sendEnd_held {p : List Instr} (w : Sys2Proof.RemoteIn) (outcome : Sys2Proof.Byte) (delivered : List (ℕ × ℕ)) (lost : List (ℕ × ℕ)) (hostErr : Bool) (s : State) (hs : Held p s) :
    Held p (sendEnd w outcome delivered lost hostErr s) := by
  unfold sendEnd
  repeat' (first
    | with_reducible assumption
    | with_reducible apply dvSend_held
    | fail)

theorem reportFetch_held {p : List Instr} (r : Remote) (err : Bool) (s : State) (hs : Held p s) :
    Held p (reportFetch r err s) := by
  unfold reportFetch
  repeat' (first
    | with_reducible assumption
    | with_reducible apply sendEnd_held
    | with_reducible apply modRemote_held
    | fail)

theorem remoteArrived_held {p : List Instr} (h : ℕ) (c : ℕ) (addr : ℕ) (len : ℕ) (a : Sys2Proof.HostRead) (s : State) (hs : Held p s) :
    Held p (remoteArrived h c addr len a s) := by
  unfold remoteArrived
  repeat' (first
    | with_reducible assumption
    | with_reducible refine held_ite ?_ ?_
    | with_reducible apply reportFetch_held
    | with_reducible apply sramWrite_held
    | with_reducible apply modRemote_held
    | split
    | fail)

theorem slotFor_held {p : List Instr} (g : ℕ) (r : ℕ) (s : State) (hs : Held p s) :
    Held p (slotFor g r s).2 := by
  unfold slotFor
  repeat' (first
    | with_reducible assumption
    | with_reducible apply assignSlot_held
    | split
    | fail)

theorem wholeHome_held {p : List Instr} (i : ℕ) (s : State) (hs : Held p s) :
    Held p (wholeHome i s) := by
  unfold wholeHome
  repeat' (first
    | with_reducible assumption
    | with_reducible refine held_ite ?_ ?_
    | with_reducible apply giveQ_held
    | with_reducible apply modSlot_held
    | fail)

theorem ownPartDone_held {p : List Instr} (i : ℕ) (s : State) (hs : Held p s) :
    Held p (ownPartDone i s) := by
  unfold ownPartDone
  repeat' (first
    | with_reducible assumption
    | with_reducible refine held_ite ?_ ?_
    | with_reducible apply wholeHome_held
    | with_reducible apply sendPart_held
    | with_reducible apply modSlot_held
    | fail)

theorem foldMember_held {p : List Instr} (g : ℕ) (r : ℕ) (m : ℕ) (set : Option ℕ) (s : State) (hs : Held p s) :
    Held p (foldMember g r m set s) := by
  unfold foldMember
  repeat' (first
    | with_reducible assumption
    | with_reducible refine held_ite ?_ ?_
    | with_reducible apply sramRead_held
    | with_reducible apply foldCw_held
    | with_reducible apply ownPartDone_held
    | with_reducible apply foldedWhole_held
    | (with_reducible refine held_snd (by assumption) ?_; with_reducible apply slotFor_held)
    | with_reducible refine held_foldl (fun _ _ _ => ?_) _ ?_
    | split
    | fail)

theorem foldPart_held {p : List Instr} (i : ℕ) (members : List ℕ) (pq : List Sys2Proof.Byte) (s : State) (hs : Held p s) :
    Held p (foldPart i members pq s) := by
  unfold foldPart
  repeat' (first
    | with_reducible assumption
    | with_reducible apply foldHalf_held
    | with_reducible apply modSlot_held
    | with_reducible refine held_foldl (fun _ _ _ => ?_) _ ?_
    | fail)

theorem keepWhole_held {p : List Instr} (i : ℕ) (pq : List Sys2Proof.Byte) (s : State) (hs : Held p s) :
    Held p (keepWhole i pq s) := by
  unfold keepWhole
  repeat' (first
    | with_reducible assumption
    | with_reducible exact id
    | (with_reducible apply Held.upd; on_goal 1 => (with_reducible apply modSlot_held))
    | fail)

theorem takePart_held {p : List Instr} (g : ℕ) (r : ℕ) (part : Sys2Proof.PartIn) (pq : List Sys2Proof.Byte) (s : State) (hs : Held p s) :
    Held p (takePart g r part pq s) := by
  unfold takePart
  repeat' (first
    | with_reducible assumption
    | with_reducible refine held_ite ?_ ?_
    | with_reducible apply slotFor_held
    | with_reducible apply keepWhole_held
    | with_reducible apply foldPart_held
    | with_reducible apply sealSlot_held
    | with_reducible apply wholeHome_held
    | with_reducible apply dvSend_held
    | split
    | fail)

theorem dropPart_held {p : List Instr} (g : ℕ) (r : ℕ) (s : State) (hs : Held p s) :
    Held p (dropPart g r s) := by
  unfold dropPart
  repeat' (first
    | with_reducible assumption
    | with_reducible refine held_ite ?_ ?_
    | with_reducible apply modSlot_held
    | split
    | fail)

theorem tellFree_held {p : List Instr} (k : Slot) (s : State) (hs : Held p s) :
    Held p (tellFree k s) := by
  unfold tellFree
  repeat' (first
    | with_reducible assumption
    | with_reducible refine held_ite ?_ ?_
    | with_reducible apply dvSend_held
    | fail)

theorem joinRemote_held {p : List Instr} (w : Sys2Proof.RemoteIn) (s : State) (hs : Held p s) :
    Held p (joinRemote w s) := by
  unfold joinRemote
  repeat' (first
    | with_reducible refine held_ite ?_ ?_
    | with_reducible apply placeRemote_held
    | with_reducible apply foldMember_held
    | with_reducible apply Held.upd (by assumption)
    | with_reducible exact id
    | fail)

theorem dropRemote_held {p : List Instr} (h : ℕ) (s : State) (hs : Held p s) :
    Held p (dropRemote h s) := by
  unfold dropRemote
  repeat' (first
    | with_reducible apply Held.upd (by assumption)
    | with_reducible exact id
    | fail)

theorem goRemote_held {p : List Instr} (w : Sys2Proof.RemoteIn) (s : State) (hs : Held p s) :
    Held p (goRemote w s) := by
  unfold goRemote
  repeat' (first
    | with_reducible assumption
    | with_reducible apply fillRemote_held
    | with_reducible apply foldMember_held
    | with_reducible apply modRemote_held
    | with_reducible apply dropRemote_held
    | with_reducible apply withdraw_held
    | (extract_lets +onlyGivenNames x; refine (have hx : Held p x := ?_; ?_); on_goal 2 => try clear_value x; on_goal 1 => subst x)
    | (extract_lets +onlyGivenNames x; subst x)
    | split
    | fail)

theorem fillWaiting_held {p : List Instr} (s : State) (r : Remote) (hs : Held p s) :
    Held p (fillWaiting s r) := by
  unfold fillWaiting
  repeat' (first
    | with_reducible assumption
    | with_reducible refine held_ite ?_ ?_
    | with_reducible apply fillRemote_held
    | fail)

theorem endRemote_held {p : List Instr} (s : State) (r : Remote) (hs : Held p s) :
    Held p (endRemote s r) := by
  unfold endRemote
  repeat' (first
    | with_reducible assumption
    | with_reducible refine held_ite ?_ ?_
    | with_reducible apply dropJobs_held
    | with_reducible apply dropRemote_held
    | with_reducible exact id
    | (with_reducible apply Held.upd; on_goal 1 => (with_reducible apply sendEnd_held))
    | (extract_lets +onlyGivenNames x; subst x)
    | split
    | fail)

theorem reportRecords_held {p : List Instr} (s : State) (hs : Held p s) :
    Held p (reportRecords s) := by
  unfold reportRecords
  repeat' (first
    | with_reducible assumption
    | with_reducible refine held_ite ?_ ?_
    | with_reducible apply dvSend_held
    | with_reducible apply Held.upd (by assumption)
    | with_reducible exact id
    | split
    | fail)

theorem settleRemotes_held {p : List Instr} (s : State) (hs : Held p s) :
    Held p (settleRemotes s) := by
  unfold settleRemotes
  repeat' (first
    | with_reducible assumption
    | with_reducible refine held_ite ?_ ?_
    | with_reducible apply reportRecords_held
    | with_reducible apply fillWaiting_held
    | with_reducible apply pumpRemotes_held
    | with_reducible apply endRemote_held
    | with_reducible refine held_foldl (fun _ _ _ => ?_) _ ?_
    | fail)

theorem dropRemotes_held {p : List Instr} (s : State) (hs : Held p s) :
    Held p (dropRemotes s) := by
  unfold dropRemotes
  repeat' (first
    | with_reducible assumption
    | with_reducible apply sendEnd_held
    | with_reducible apply dropJobs_held
    | with_reducible exact id
    | (with_reducible apply Held.upd; on_goal 1 => (with_reducible refine held_foldl (fun _ _ _ => ?_) _ ?_))
    | (with_reducible apply Held.upd; on_goal 1 => (with_reducible apply withdraw_held))
    | fail)

theorem sendPage_held {p : List Instr} (s : State) (j : Job) (hs : Held p s) :
    Held p (sendPage s j) := by
  unfold sendPage
  repeat' (first
    | with_reducible assumption
    | with_reducible apply pageData_held
    | with_reducible apply dvSend_held
    | with_reducible apply modJob_held
    | with_reducible refine held_foldl (fun _ _ _ => ?_) _ ?_
    | fail)

theorem sendPages_held {p : List Instr} (s : State) (hs : Held p s) :
    Held p (sendPages s) := by
  unfold sendPages
  repeat' (first
    | with_reducible assumption
    | with_reducible apply sendPage_held
    | with_reducible refine held_foldl (fun _ _ _ => ?_) _ ?_
    | fail)

theorem awayLost_held {p : List Instr} (j : Job) (s : State) (x : ℕ × ℕ) (hs : Held p s) :
    Held p (awayLost j s x) := by
  unfold awayLost
  repeat' (first
    | with_reducible assumption
    | with_reducible refine held_ite ?_ ?_
    | with_reducible apply loseCw_held
    | with_reducible apply dropCw_held
    | with_reducible apply awaitRecord_held
    | with_reducible apply modCw_held
    | split
    | fail)

theorem awayGot_held {p : List Instr} (j : Job) (s : State) (x : ℕ × ℕ) (hs : Held p s) :
    Held p (awayGot j s x) := by
  unfold awayGot
  repeat' (first
    | with_reducible assumption
    | with_reducible refine held_ite ?_ ?_
    | with_reducible apply modEntry_held
    | with_reducible apply dropCw_held
    | with_reducible apply noteLadder_held
    | split
    | fail)

theorem awayRead_held {p : List Instr} (j : Job) (delivered : List (ℕ × ℕ)) (lost : List (ℕ × ℕ)) (hostErr : Bool) (s : State) (hs : Held p s) :
    Held p (awayRead j delivered lost hostErr s) := by
  unfold awayRead
  repeat' (first
    | with_reducible assumption
    | with_reducible apply awayLost_held
    | with_reducible apply awayGot_held
    | with_reducible apply noteStatus_held
    | with_reducible refine held_foldl (fun _ _ _ => ?_) _ ?_
    | (extract_lets +onlyGivenNames x; refine (have hx : Held p x := ?_; ?_); on_goal 2 => try clear_value x; on_goal 1 => subst x)
    | split
    | fail)

theorem awayEnd_held {p : List Instr} (h : ℕ) (outcome : ℕ) (delivered : List (ℕ × ℕ)) (lost : List (ℕ × ℕ)) (hostErr : Bool) (s : State) (hs : Held p s) :
    Held p (awayEnd h outcome delivered lost hostErr s) := by
  unfold awayEnd
  repeat' (first
    | with_reducible assumption
    | with_reducible refine held_ite ?_ ?_
    | with_reducible apply endJobWith_held
    | with_reducible apply awayRead_held
    | with_reducible apply writeFetchFailed_held
    | with_reducible apply awayFetched_held
    | split
    | fail)

theorem awayGone_held {p : List Instr} (j : Job) (s : State) (hs : Held p s) :
    Held p (awayGone j s) := by
  unfold awayGone
  repeat' (first
    | with_reducible assumption
    | with_reducible apply modSlot_held
    | with_reducible apply awayFetched_held
    | split
    | fail)

theorem endUnreachable_held {p : List Instr} (s : State) (hs : Held p s) :
    Held p (endUnreachable s) := by
  unfold endUnreachable
  repeat' (first
    | with_reducible assumption
    | with_reducible apply noteStatus_held
    | with_reducible apply awayGone_held
    | with_reducible apply dropJobs_held
    | with_reducible apply ownerEnd_held
    | with_reducible apply modJob_held
    | with_reducible refine held_foldl (fun _ _ _ => ?_) _ ?_
    | split
    | fail)

/-! ### Machine/Settle.lean -/

theorem recoverSlot_held {p : List Instr} (i : ℕ) (c : ℕ) (s : State) (hs : Held p s) :
    Held p (recoverSlot i c s) := by
  unfold recoverSlot
  repeat' (first
    | with_reducible assumption
    | with_reducible refine held_ite ?_ ?_
    | with_reducible apply modSlot_held
    | fail)

theorem repeatCw_held {p : List Instr} (s : State) (c : Cw) (hs : Held p s) :
    Held p (repeatCw s c) := by
  unfold repeatCw
  repeat' (first
    | with_reducible assumption
    | with_reducible refine held_ite ?_ ?_
    | with_reducible apply noteStatus_held
    | with_reducible apply dropCw_held
    | with_reducible apply modCw_held
    | with_reducible apply rereadCw_held
    | split
    | fail)

theorem repeatSearch_held {p : List Instr} (s : State) (q : Search) (hs : Held p s) :
    Held p (repeatSearch s q) := by
  unfold repeatSearch
  repeat' (first
    | with_reducible assumption
    | with_reducible refine held_ite ?_ ?_
    | with_reducible apply abandonSearch_held
    | with_reducible apply modSearch_held
    | with_reducible apply senseSearch_held
    | fail)

theorem recoverLanding_held {p : List Instr} (n : ℕ) (s : State) (hs : Held p s) :
    Held p (recoverLanding n s) := by
  unfold recoverLanding
  repeat' (first
    | with_reducible assumption
    | with_reducible apply repeatCw_held
    | with_reducible apply repeatSearch_held
    | with_reducible refine held_foldl (fun _ _ _ => ?_) _ ?_
    | fail)

theorem recoverStaging_held {p : List Instr} (set : ℕ) (c : ℕ) (s : State) (hs : Held p s) :
    Held p (recoverStaging set c s) := by
  unfold recoverStaging
  repeat' (first
    | with_reducible assumption
    | with_reducible refine held_ite ?_ ?_
    | with_reducible apply badPage_held
    | split
    | fail)

theorem recoverAccum_held {p : List Instr} (n : ℕ) (s : State) (hs : Held p s) :
    Held p (recoverAccum n s) := by
  unfold recoverAccum
  repeat' (first
    | with_reducible assumption
    | with_reducible apply zeroFrag_held
    | with_reducible apply Held.upd (by assumption)
    | with_reducible exact id
    | split
    | fail)

theorem recoverWord_held {p : List Instr} (s : State) (a : ℕ) (hs : Held p s) :
    Held p (recoverWord s a) := by
  unfold recoverWord
  repeat' (first
    | with_reducible assumption
    | with_reducible refine held_ite ?_ ?_
    | with_reducible apply recoverSlot_held
    | with_reducible apply recoverLanding_held
    | with_reducible apply recoverStaging_held
    | with_reducible apply recoverAccum_held
    | with_reducible apply Held.upd (by assumption)
    | with_reducible exact id
    | split
    | fail)

theorem recoverSram_held {p : List Instr} (s : State) (hs : Held p s) :
    Held p (recoverSram s) := by
  unfold recoverSram
  repeat' (first
    | with_reducible assumption
    | with_reducible apply recoverWord_held
    | with_reducible refine held_foldl (fun _ _ _ => ?_) _ ?_
    | with_reducible apply Held.upd (by assumption)
    | with_reducible exact id
    | (unfold Sram.wf; with_reducible exact id)
    | fail)

theorem freeSealed_held {p : List Instr} (s : State) (i : ℕ) (hs : Held p s) :
    Held p (freeSealed s i) := by
  unfold freeSealed
  dsimp only
  split
  · refine held_ite (modSlot_held _ _ _ ?_) hs
    with_reducible apply Held.upd (tellFree_held _ _ hs) <;> first
      | with_reducible exact id
      | exact fun _ => hs.kept.slots
  · exact hs

theorem settleRows_held {p : List Instr} (s : State) (hs : Held p s) :
    Held p (settleRows s) := by
  unfold settleRows
  repeat' (first
    | with_reducible apply Held.upd (by assumption)
    | with_reducible exact id
    | fail)

theorem settleEntry_held {p : List Instr} (s : State) (eid : ℕ) (hs : Held p s) : Held p (settleEntry s eid) := by
  unfold settleEntry
  extract_lets go
  have hgo (f : State → Entry → State) (hf : ∀ t e, Held p t → Held p (f t e)) (t : State) (ht : Held p t) : Held p (go f t) := by
    unfold go
    split
    · exact hf _ _ ht
    · exact ht
  clear_value go
  exact hgo _ (fun t e h => settleBind_held t e h) _ (hgo _ (fun t e h => settleClose_held t e h) _
    (hgo _ (fun t e h => settleOpen_held t e h) _ (hgo _ (fun t e h => settleFlush_held t e h) _
    (hgo _ (fun t e h => settleRelease_held t e h) _ (hgo _ (fun t e h => settleRead_held t e h) _
    (hgo _ (fun t e h => settleWrite_held t e h) _ hs))))))

theorem settleCommit_held {p : List Instr} (s : State) (hs : Held p s) :
    Held p (settleCommit s) := by
  unfold settleCommit
  repeat' (first
    | with_reducible assumption
    | with_reducible refine held_ite ?_ ?_
    | with_reducible apply cutLostFeeds_held
    | with_reducible apply commitRefit_held
    | split
    | fail)

theorem pumpAll_held {p : List Instr} (s : State) (hs : Held p s) :
    Held p (pumpAll s) := by
  unfold pumpAll
  repeat' (first
    | with_reducible assumption
    | with_reducible apply settleFall_held
    | with_reducible apply pumpFix_held
    | with_reducible apply settleRemotes_held
    | with_reducible apply sendPages_held
    | with_reducible apply pumpFeeds_held
    | with_reducible apply pumpReads_held
    | with_reducible apply pumpAllStages_held
    | with_reducible apply placeAll_held
    | with_reducible apply patrolUpdate_held
    | with_reducible apply settleSweep_held
    | with_reducible apply assignDecoders_held
    | with_reducible apply pumpAreas_held
    | with_reducible apply assignEncoders_held
    | with_reducible apply settleRuns_held
    | with_reducible apply settleTruing_held
    | with_reducible refine held_foldl (fun _ _ _ => ?_) _ ?_
    | fail)

theorem settle_held {p : List Instr} (s : State) (hs : Held p s) :
    Held p (settle s) := by
  unfold settle
  repeat' (first
    | with_reducible assumption
    | with_reducible apply recoverSram_held
    | with_reducible apply settleRings_held
    | with_reducible apply freeSealed_held
    | with_reducible apply settleEntry_held
    | with_reducible apply settleTakeover_held
    | with_reducible apply settleLost_held
    | with_reducible apply settleLatch_held
    | with_reducible apply settleOv_held
    | with_reducible apply settleFence_held
    | with_reducible apply settleRecovery_held
    | with_reducible apply settleCommit_held
    | with_reducible apply flushAnswers_held
    | with_reducible apply pumpAll_held
    | with_reducible apply settleRows_held
    | with_reducible refine held_foldl (fun _ _ _ => ?_) _ ?_
    | fail)

theorem execJigMicroword_held {p : List Instr} (ch : ℕ) (a1 : JigIn) (s : State) (hs : Held p s) :
    HeldOut p (execJigMicroword ch a1 s) := by
  unfold execJigMicroword
  repeat' (first
    | with_reducible assumption
    | with_reducible refine heldOut_checked ?_
    | with_reducible apply settle_held
    | with_reducible apply jigWord_held
    | fail)

theorem execEntryCompletion_held {p : List Instr} (eid : ℕ) (s : State) (hs : Held p s) :
    HeldOut p (execEntryCompletion eid s) := by
  unfold execEntryCompletion
  repeat' (first
    | with_reducible assumption
    | with_reducible refine heldOut_next ?_
    | with_reducible refine held_ite ?_ ?_
    | with_reducible apply completeEntry_held
    | with_reducible apply settle_held
    | fail)

theorem execJournalPageDurable_held {p : List Instr} (s : State) (hs : Held p s) :
    HeldOut p (execJournalPageDurable s) := by
  unfold execJournalPageDurable
  repeat' (first
    | with_reducible assumption
    | with_reducible refine heldOut_next ?_
    | with_reducible refine held_ite ?_ ?_
    | with_reducible apply logRecord_held
    | with_reducible apply pageDurable_held
    | with_reducible apply settle_held
    | with_reducible refine held_foldl (fun _ _ _ => ?_) _ ?_
    | split
    | fail)

theorem execHostReadDone_held {p : List Instr} (tag : ℕ) (a : HostRead) (s : State) (hs : Held p s) :
    HeldOut p (execHostReadDone tag a s) := by
  unfold execHostReadDone
  refine heldOut_next ?_
  split
  · have h1 : Held p ({ s with host := HostPorts.settle { s.host with reads := s.host.reads.filter (fun x => x.tag != tag) } } : State) := by
      with_reducible apply Held.upd hs <;> first
        | with_reducible exact id
        | exact fun h => HostPorts.settle_wf (by unfold HostPorts.wf at *; exact And.intro h.1 ((List.length_filter_le _ _).trans h.2))
    revert h1
    generalize ({ s with host := HostPorts.settle { s.host with reads := s.host.reads.filter (fun x => x.tag != tag) } } : State) = t
    intro h1
    dsimp only
    split
    · split
      · exact settle_held _ (writeFetchFailed_held _ _ h1)
      · exact h1
    · exact settle_held _ (remoteArrived_held _ _ _ _ _ _ h1)
    · exact settle_held _ (doseArrived_held _ _ _ h1)
    · with_reducible apply Held.upd h1 <;> with_reducible exact id
    · exact settle_held _ (serveQueue_held _ _ (touchBinds_held _ _ h1))
    · exact snapArrived_held _ _ _ _ h1
    · with_reducible apply Held.upd h1 <;> with_reducible exact id
    · with_reducible apply Held.upd h1 <;> with_reducible exact id
    · exact h1
  · exact hs

theorem recordAcked_held {p : List Instr} (rseq : ℕ) (second : Bool) (err : Bool) (s : State) (hs : Held p s) :
    Held p (recordAcked rseq second err s) := by
  unfold recordAcked
  repeat' (first
    | with_reducible assumption
    | with_reducible refine held_ite ?_ ?_
    | with_reducible apply evqLevels_held
    | with_reducible apply dropRecord_held
    | with_reducible apply hostWrite_held
    | with_reducible apply issueRecord_held
    | with_reducible refine held_foldl (fun _ _ _ => ?_) _ ?_
    | with_reducible apply Held.upd (by assumption)
    | with_reducible exact id
    | (extract_lets +onlyGivenNames x; subst x)
    | split
    | fail)

theorem pumpWindow_held {p : List Instr} (s : State) (hs : Held p s) :
    Held p (pumpWindow s) := by
  unfold pumpWindow
  repeat' (first
    | with_reducible assumption
    | with_reducible apply winPut_held
    | with_reducible refine held_foldl (fun _ _ _ => ?_) _ ?_
    | with_reducible apply Held.upd (by assumption)
    | with_reducible exact id
    | fail)

theorem windowAcked_held {p : List Instr} (off : ℕ) (bs : List Sys2Proof.Byte) (err : Bool) (s : State) (hs : Held p s) :
    Held p (windowAcked off bs err s) := by
  unfold windowAcked
  repeat' (first
    | with_reducible refine held_ite ?_ ?_
    | with_reducible apply pumpWindow_held
    | with_reducible apply journalEvent_held
    | with_reducible apply setConds_held
    | with_reducible apply Held.upd (by assumption)
    | with_reducible exact id
    | (with_reducible apply Held.upd; on_goal 1 => (with_reducible apply pumpWindow_held))
    | fail)

theorem writeAcked_held {p : List Instr} (r : HostReq) (err : Bool) (s : State) (hs : Held p s) :
    Held p (writeAcked r err s) := by
  unfold writeAcked
  repeat' (first
    | with_reducible assumption
    | with_reducible refine held_ite ?_ ?_
    | with_reducible apply dataAcked_held
    | with_reducible apply noteStatus_held
    | with_reducible apply complFailed_held
    | with_reducible apply complAcked_held
    | with_reducible apply recordAcked_held
    | with_reducible apply windowAcked_held
    | with_reducible apply reportAcked_held
    | with_reducible apply modRemote_held
    | with_reducible apply Held.upd (by assumption)
    | with_reducible exact id
    | (intro h; simp only [Irq.wf, apply_ite List.length, List.length_set, List.length_modify, List.length_map, ite_self] at h ⊢; exact h)
    | split
    | (with_reducible apply Held.upd; on_goal 1 => (with_reducible apply Held.upd; on_goal 1 => (with_reducible apply windowAcked_held)))
    | (with_reducible apply Held.upd; on_goal 1 => (with_reducible apply Held.upd; on_goal 1 => (with_reducible apply reportAcked_held)))
    | (with_reducible apply Held.upd; on_goal 1 => (with_reducible apply Held.upd; on_goal 1 => (with_reducible apply modRemote_held)))
    | (intro h; exact h)
    | intro _
    | fail)

theorem execHostWriteAck_held {p : List Instr} (tag : ℕ) (err : Bool) (s : State) (hs : Held p s) :
    HeldOut p (execHostWriteAck tag err s) := by
  unfold execHostWriteAck
  refine heldOut_next ?_
  split
  · refine settle_held _ (writeAcked_held _ _ _ ?_)
    with_reducible apply Held.upd hs <;> first
      | with_reducible exact id
      | exact fun h => HostPorts.settle_wf (by unfold HostPorts.wf at *; exact And.intro ((List.length_filter_le _ _).trans h.1) h.2)
  · exact hs

theorem execWindowWriteRetry_held {p : List Instr} (s : State) (hs : Held p s) :
    HeldOut p (execWindowWriteRetry s) := by
  unfold execWindowWriteRetry
  repeat' (first
    | with_reducible assumption
    | with_reducible refine heldOut_next ?_
    | with_reducible refine held_ite ?_ ?_
    | with_reducible apply hostWrite_held
    | with_reducible refine held_foldl (fun _ _ _ => ?_) _ ?_
    | fail)

theorem execTruingIteration_held {p : List Instr} (a0 : ℕ) (s : State) (hs : Held p s) :
    HeldOut p (execTruingIteration a0 s) := by
  unfold execTruingIteration
  repeat' (first
    | with_reducible assumption
    | with_reducible refine heldOut_next ?_
    | with_reducible apply settleRecovery_held
    | with_reducible apply truingIteration_held
    | fail)

theorem execTruingAbandon_held {p : List Instr} (a0 : ℕ) (s : State) (hs : Held p s) :
    HeldOut p (execTruingAbandon a0 s) := by
  unfold execTruingAbandon
  repeat' (first
    | with_reducible assumption
    | with_reducible refine heldOut_next ?_
    | with_reducible apply settleRecovery_held
    | with_reducible apply truingAbandon_held
    | fail)

/-! ### Machine/Interrupts.lean -/

theorem presentCauses_held {p : List Instr} (a0 : ℕ) (s : State) (hs : Held p s) :
    Held p (presentCauses a0 s) := by
  unfold presentCauses
  repeat' (first
    | with_reducible apply Held.upd (by assumption)
    | with_reducible exact id
    | with_reducible apply Irq.pulses_wf
    | (show Irq.wf _; simp only [Irq.wf, apply_ite List.length, List.length_set, List.length_modify, List.length_map, ite_self] at *; assumption)
    | (extract_lets +onlyGivenNames x; subst x)
    | intro _
    | fail)

theorem sourceLevel_held {p : List Instr} (a0 : ℕ) (lvl : Bool) (s : State) (hs : Held p s) :
    Held p (sourceLevel a0 lvl s) := by
  unfold sourceLevel
  repeat' (first
    | with_reducible assumption
    | with_reducible refine held_ite ?_ ?_
    | with_reducible apply presentCauses_held
    | with_reducible apply evqLevels_held
    | with_reducible apply Held.upd (by assumption)
    | with_reducible exact id
    | with_reducible apply Irq.sample_wf
    | fail)

theorem execSourceEvent_held {p : List Instr} (a0 : ℕ) (level : Bool) (s : State) (hs : Held p s) :
    HeldOut p (execSourceEvent a0 level s) := by
  unfold execSourceEvent
  repeat' (first
    | with_reducible assumption
    | with_reducible refine heldOut_checked ?_
    | with_reducible apply sourceLevel_held
    | fail)

theorem softSetOne_held {p : List Instr} (who : Writer) (a1 : ℕ) (s : State) (hs : Held p s) :
    Held p (softSetOne who a1 s) := by
  unfold softSetOne
  repeat' (first
    | with_reducible assumption
    | with_reducible refine held_ite ?_ ?_
    | with_reducible apply raisePriv_held
    | with_reducible apply Held.upd (by assumption)
    | with_reducible exact id
    | with_reducible apply Irq.softSet_wf
    | fail)

theorem writePset_held {p : List Instr} (who : Writer) (w : ℕ) (v : Word) (s : State) (hs : Held p s) :
    Held p (writePset who w v s) := by
  unfold writePset
  repeat' (first
    | with_reducible assumption
    | with_reducible apply softSetOne_held
    | with_reducible refine held_foldl (fun _ _ _ => ?_) _ ?_
    | fail)

theorem execIrqPset_held {p : List Instr} (who : Writer) (w : ℕ) (v : Word) (s : State) (hs : Held p s) :
    HeldOut p (execIrqPset who w v s) := by
  unfold execIrqPset
  repeat' (first
    | with_reducible assumption
    | with_reducible refine heldOut_checked ?_
    | with_reducible apply writePset_held
    | fail)

theorem clearPend_held {p : List Instr} (a0 : ℕ) (s : State) (hs : Held p s) :
    Held p (clearPend a0 s) := by
  unfold clearPend
  repeat' (first
    | with_reducible apply Held.upd (by assumption)
    | with_reducible exact id
    | with_reducible apply Irq.relevel_wf
    | (show Irq.wf _; simp only [Irq.wf, apply_ite List.length, List.length_set, List.length_modify, List.length_map, ite_self] at *; assumption)
    | intro _
    | fail)

theorem writePend_held {p : List Instr} (w : ℕ) (v : Word) (s : State) (hs : Held p s) :
    Held p (writePend w v s) := by
  unfold writePend
  repeat' (first
    | with_reducible assumption
    | with_reducible apply clearPend_held
    | with_reducible refine held_foldl (fun _ _ _ => ?_) _ ?_
    | fail)

theorem execIrqPendClear_held {p : List Instr} (w : ℕ) (v : Word) (s : State) (hs : Held p s) :
    HeldOut p (execIrqPendClear w v s) := by
  unfold execIrqPendClear
  repeat' (first
    | with_reducible assumption
    | with_reducible refine heldOut_checked ?_
    | with_reducible apply writePend_held
    | fail)

theorem targetIdle_held {p : List Instr} (t : ℕ) (s : State) (hs : Held p s) :
    Held p (targetIdle t s).2 := by
  unfold targetIdle
  repeat' (first
    | with_reducible assumption
    | with_reducible apply takeFree_held
    | split
    | fail)

theorem notify_held {p : List Instr} (t : ℕ) (s : State) (hs : Held p s) :
    Held p (notify t s) := by
  unfold notify
  repeat' (first
    | with_reducible assumption
    | with_reducible refine held_ite ?_ ?_
    | with_reducible apply hostWrite_held
    | fail)

theorem restartTimer_wf (now : ℕ) (q : Irq) (g : ℕ) (h : q.wf) : (restartTimer now q g).wf := by
  simp only [restartTimer, Irq.wf, apply_ite List.length, List.length_set, ite_self] at h ⊢
  exact h

theorem restartTimers_wf (now : ℕ) (gs : List ℕ) (q : Irq) (h : q.wf) : (gs.foldl (restartTimer now) q).wf := by
  induction gs generalizing q with
  | nil => exact h
  | cons g gs ih => exact ih _ (restartTimer_wf now q g h)

theorem fireGroups_held {p : List Instr} (gs : List ℕ) (t : ℕ) (s : State) (hs : Held p s) :
    Held p (fireGroups gs t s) := by
  unfold fireGroups
  apply notify_held
  apply Held.upd hs
  case h6 =>
    intro h
    have := restartTimers_wf s.now gs s.irq h
    simp only [Irq.wf, List.length_set, List.length_modify] at this ⊢
    exact this
  all_goals exact id

theorem execGroupFire_held {p : List Instr} (g : ℕ) (t : ℕ) (s : State) (hs : Held p s) :
    HeldOut p (execGroupFire g t s) := by
  unfold execGroupFire
  repeat' (first
    | with_reducible assumption
    | with_reducible refine heldOut_checked ?_
    | with_reducible refine held_ite ?_ ?_
    | with_reducible apply targetIdle_held
    | with_reducible apply fireGroups_held
    | fail)

theorem execHoldoffExpiry_held {p : List Instr} (g : ℕ) (s : State) (hs : Held p s) :
    HeldOut p (execHoldoffExpiry g s) := by
  unfold execHoldoffExpiry
  repeat' (first
    | with_reducible refine heldOut_checked ?_
    | with_reducible apply Held.upd (by assumption)
    | with_reducible exact id
    | (intro h; simp only [Irq.wf, apply_ite List.length, List.length_set, List.length_modify, List.length_map, ite_self] at h ⊢; exact h)
    | fail)

theorem writeTgtStatus_held {p : List Instr} (t : ℕ) (v : Word) (s : State) (hs : Held p s) :
    Held p (writeTgtStatus t v s) := by
  unfold writeTgtStatus
  repeat' (first
    | with_reducible apply Held.upd (by assumption)
    | with_reducible exact id
    | (intro h; simp only [Irq.wf, apply_ite List.length, List.length_set, List.length_modify, List.length_map, ite_self] at h ⊢; exact h)
    | fail)

theorem tgtStatusBy_held {p : List Instr} (who : Writer) (t : ℕ) (v : Word) (s : State) (hs : Held p s) :
    Held p (tgtStatusBy who t v s) := by
  unfold tgtStatusBy
  repeat' (first
    | with_reducible assumption
    | with_reducible refine held_ite ?_ ?_
    | with_reducible refine mainCoreOnly_held _ _ _ (fun _ _ => ?_) ?_
    | with_reducible apply writeTgtStatus_held
    | fail)

theorem execSignalledClear_held {p : List Instr} (who : Writer) (t : ℕ) (s : State) (hs : Held p s) :
    HeldOut p (execSignalledClear who t s) := by
  unfold execSignalledClear
  repeat' (first
    | with_reducible assumption
    | with_reducible refine heldOut_checked ?_
    | with_reducible apply tgtStatusBy_held
    | fail)

theorem execIdleSet_held {p : List Instr} (who : Writer) (t : ℕ) (s : State) (hs : Held p s) :
    HeldOut p (execIdleSet who t s) := by
  unfold execIdleSet
  repeat' (first
    | with_reducible assumption
    | with_reducible refine heldOut_checked ?_
    | with_reducible apply tgtStatusBy_held
    | fail)

theorem execPrivilegedRaise_held {p : List Instr} (a0 : ℕ) (detail : List Byte) (s : State) (hs : Held p s) :
    HeldOut p (execPrivilegedRaise a0 detail s) := by
  unfold execPrivilegedRaise
  repeat' (first
    | with_reducible assumption
    | with_reducible refine heldOut_checked ?_
    | with_reducible refine held_ite ?_ ?_
    | with_reducible apply raisePriv_held
    | fail)

theorem dropWaiting_held {p : List Instr} (s : State) (hs : Held p s) :
    Held p (dropWaiting s) := by
  unfold dropWaiting
  repeat' (first
    | with_reducible assumption
    | with_reducible apply dropRecord_held
    | with_reducible refine held_foldl (fun _ _ _ => ?_) _ ?_
    | with_reducible apply Held.upd (by assumption)
    | with_reducible exact id
    | fail)

theorem writeEvqCfg_held {p : List Instr} (v : Word) (s : State) (hs : Held p s) :
    Held p (writeEvqCfg v s) := by
  unfold writeEvqCfg
  repeat' (first
    | with_reducible refine held_ite ?_ ?_
    | with_reducible apply evqLevels_held
    | with_reducible apply Held.upd (by assumption)
    | with_reducible exact id
    | (extract_lets +onlyGivenNames x; subst x)
    | (with_reducible apply Held.upd; on_goal 1 => (with_reducible apply dropWaiting_held))
    | (with_reducible apply Held.upd; on_goal 1 => (with_reducible apply Held.upd (by assumption)))
    | fail)

theorem execEvqEnable_held {p : List Instr} (v : Word) (s : State) (hs : Held p s) :
    HeldOut p (execEvqEnable v s) := by
  unfold execEvqEnable
  repeat' (first
    | with_reducible assumption
    | with_reducible refine heldOut_next ?_
    | with_reducible refine held_ite ?_ ?_
    | with_reducible apply writeEvqCfg_held
    | fail)

theorem execEvqDisable_held {p : List Instr} (v : Word) (s : State) (hs : Held p s) :
    HeldOut p (execEvqDisable v s) := by
  unfold execEvqDisable
  repeat' (first
    | with_reducible assumption
    | with_reducible refine heldOut_next ?_
    | with_reducible refine held_ite ?_ ?_
    | with_reducible apply writeEvqCfg_held
    | fail)

theorem writeEvqCons_held {p : List Instr} (v : Word) (s : State) (hs : Held p s) :
    Held p (writeEvqCons v s) := by
  unfold writeEvqCons
  repeat' (first
    | with_reducible assumption
    | with_reducible refine held_ite ?_ ?_
    | with_reducible apply evqLevels_held
    | with_reducible apply Held.upd (by assumption)
    | with_reducible exact id
    | fail)

theorem execEvqCons_held {p : List Instr} (v : Word) (s : State) (hs : Held p s) :
    HeldOut p (execEvqCons v s) := by
  unfold execEvqCons
  repeat' (first
    | with_reducible assumption
    | with_reducible refine heldOut_next ?_
    | with_reducible apply writeEvqCons_held
    | fail)

/-! ### Machine/Images.lean -/

theorem bootRefusal_held {p : List Instr} (place : ℕ) (reason : ℕ) (s : State) (hs : Held p s) :
    Held p (bootRefusal place reason s) := by
  unfold bootRefusal
  repeat' (first
    | with_reducible assumption
    | with_reducible refine held_ite ?_ ?_
    | with_reducible apply logRecord_held
    | with_reducible apply Held.upd (by assumption)
    | with_reducible exact id
    | fail)

theorem tryFirmware_held {p : List Instr} (a0 : List ℕ) : ∀ (a1 : State), Held p a1 → Held p (tryFirmware a0 a1).2 := by
  induction a0 with
  | nil => exact fun _ h => h
  | cons t ts ih =>
    intro s h
    rw [tryFirmware]
    split
    · refine sramWrite_held _ _ _ ?_
      with_reducible apply Held.upd h <;> with_reducible exact id
    · exact ih _ (bootRefusal_held _ _ _ h)

theorem bootFirmware_held {p : List Instr} (s : State) (hs : Held p s) :
    Held p (bootFirmware s).2 := by
  unfold bootFirmware
  repeat' (first
    | with_reducible assumption
    | with_reducible apply bootRefusal_held
    | with_reducible apply tryFirmware_held
    | split
    | fail)

theorem bootPatch_held {p : List Instr} (s : State) (hs : Held p s) : Held p (bootPatch s) := by
  unfold bootPatch
  refine held_ite hs ?_
  split
  · with_reducible apply Held.upd hs <;> try with_reducible exact id
    exact fun _ => foldl_putStore_wf _ nil_wf
  · exact configEvent_held _ _ _ _ _ (bootRefusal_held _ _ _ hs)

theorem bootCustomer_held {p : List Instr} (s : State) (hs : Held p s) : Held p (bootCustomer s) := by
  unfold bootCustomer
  refine held_ite hs ?_
  split
  · with_reducible apply Held.upd hs <;> try with_reducible exact id
    exact fun h => foldl_putStore_wf _ h
  · exact configEvent_held _ _ _ _ _ (bootRefusal_held _ _ _ hs)

theorem loadStores_held {p : List Instr} (s : State) (hs : Held p s) : Held p (loadStores s) := by
  have hj (l : List Jig) (h : jigsWf l) : jigsWf (l.map (fun g => { g with store := s.storeImage })) := by
    refine And.intro (by rw [List.length_map]; exact h.1) (fun j hj => ?_)
    obtain ⟨g, _, rfl⟩ := List.mem_map.1 hj
    exact hs.kept.image
  unfold loadStores
  with_reducible apply Held.upd hs <;> first
    | with_reducible exact id
    | exact hj _

/-! ### Machine/Dict.lean -/

theorem modSession_held {p : List Instr} (client : ℕ) (f : Session → Session) (s : State) (hs : Held p s) :
    Held p (modSession client f s) := by
  unfold modSession
  repeat' (first
    | with_reducible refine held_ite ?_ ?_
    | with_reducible apply Held.upd (by assumption)
    | with_reducible exact id
    | (unfold Dict.wf; with_reducible exact id)
    | fail)

theorem useSession_held {p : List Instr} (client : ℕ) (s : State) (hs : Held p s) :
    Held p (useSession client s) := by
  unfold useSession
  repeat' (first
    | with_reducible refine held_ite ?_ ?_
    | with_reducible apply modSession_held
    | with_reducible apply Held.upd (by assumption)
    | with_reducible exact id
    | (unfold Dict.wf; with_reducible exact id)
    | (extract_lets +onlyGivenNames x; subst x)
    | split
    | (with_reducible apply Held.upd; on_goal 1 => (with_reducible apply Held.upd (by assumption)))
    | fail)

theorem answerLost_held {p : List Instr} (client : ℕ) (s : State) (hs : Held p s) :
    Held p (answerLost client s).2 := by
  unfold answerLost
  repeat' (first
    | with_reducible assumption
    | with_reducible refine held_ite ?_ ?_
    | with_reducible apply useSession_held
    | with_reducible exact id
    | (with_reducible apply Held.upd; on_goal 1 => (with_reducible apply useSession_held))
    | (unfold Dict.wf; with_reducible exact id)
    | fail)

theorem endSession_held {p : List Instr} (client : ℕ) (s : State) (hs : Held p s) :
    Held p (endSession client s) := by
  unfold endSession
  repeat' (first
    | with_reducible apply Held.upd (by assumption)
    | with_reducible exact id
    | (unfold Dict.wf; with_reducible exact id)
    | fail)

theorem drawChallenge_held {p : List Instr} (client : ℕ) (random : List Byte) (s : State) (hs : Held p s) :
    Held p (drawChallenge client random s) := by
  unfold drawChallenge
  repeat' (first
    | with_reducible assumption
    | with_reducible apply modSession_held
    | fail)

theorem sessionValue_held {p : List Instr} (client : ℕ) (o : Obj) (idx : ℕ) (sub : ℕ) (s : State) (hs : Held p s) :
    Held p (sessionValue client o idx sub s).2 := by
  unfold sessionValue
  repeat' (first
    | with_reducible assumption
    | with_reducible apply drawChallenge_held
    | with_reducible apply Held.upd (by assumption)
    | with_reducible exact id
    | (extract_lets +onlyGivenNames x; subst x)
    | split
    | fail)

theorem serveRead_held {p : List Instr} (client : ℕ) (idx : ℕ) (sub : ℕ) (off : ℕ) (len : ℕ) (cap : ℕ) (s : State) (hs : Held p s) :
    Held p (serveRead client idx sub off len cap s).2 := by
  unfold serveRead
  repeat' (first
    | with_reducible assumption
    | with_reducible apply sessionValue_held
    | with_reducible apply modSession_held
    | split
    | fail)

theorem authAsk_held {p : List Instr} (client : ℕ) (level : ℕ) (s : State) (hs : Held p s) :
    Held p (authAsk client level s).2 := by
  unfold authAsk
  repeat' (first
    | with_reducible assumption
    | with_reducible apply modSession_held
    | split
    | fail)

theorem authSign_held {p : List Instr} (client : ℕ) (sig : List Byte) (s : State) (hs : Held p s) :
    Held p (authSign client sig s).2 := by
  unfold authSign
  repeat' (first
    | with_reducible assumption
    | with_reducible apply modSession_held
    | (extract_lets +onlyGivenNames x; refine (have hx : Held p x := ?_; ?_); on_goal 2 => try clear_value x; on_goal 1 => subst x)
    | (extract_lets +onlyGivenNames x; subst x)
    | split
    | fail)

theorem imgSelect_held {p : List Instr} (v : ℕ) (s : State) (hs : Held p s) :
    Held p (imgSelect v s).2 := by
  unfold imgSelect
  repeat' (first
    | with_reducible assumption
    | with_reducible apply Held.upd (by assumption)
    | with_reducible exact id
    | (unfold Dict.wf; with_reducible exact id)
    | split
    | fail)

theorem imgErase_held {p : List Instr} (n : ℕ) (s : State) (hs : Held p s) :
    Held p (imgErase n s).2 := by
  unfold imgErase
  repeat' (first
    | with_reducible assumption
    | with_reducible apply eraseSector_held
    | with_reducible refine held_foldl (fun _ _ _ => ?_) _ ?_
    | with_reducible apply Held.upd (by assumption)
    | with_reducible exact id
    | (unfold Dict.wf; with_reducible exact id)
    | (extract_lets +onlyGivenNames x; refine (have hx : Held p x := ?_; ?_); on_goal 2 => try clear_value x; on_goal 1 => subst x)
    | (extract_lets +onlyGivenNames x; subst x)
    | split
    | fail)

theorem imgSegment_held {p : List Instr} (off : ℕ) (last : Bool) (data : List Byte) (s : State) (hs : Held p s) :
    Held p (imgSegment off last data s).2 := by
  unfold imgSegment
  repeat' (first
    | with_reducible assumption
    | with_reducible apply Held.upd (by assumption)
    | with_reducible exact id
    | (unfold Dict.wf; with_reducible exact id)
    | (intro h; exact ⟨putWords_wf _ h.1, h.2⟩)
    | (extract_lets +onlyGivenNames x; refine (have hx : Held p x := ?_; ?_); on_goal 2 => try clear_value x; on_goal 1 => subst x)
    | (extract_lets +onlyGivenNames x; subst x)
    | split
    | fail)

theorem imgCheck_held {p : List Instr} (run : Bool) (s : State) (hs : Held p s) :
    Held p (imgCheck run s).2 := by
  unfold imgCheck
  repeat' (first
    | with_reducible assumption
    | with_reducible apply Held.upd (by assumption)
    | with_reducible exact id
    | (unfold Dict.wf; with_reducible exact id)
    | (extract_lets +onlyGivenNames x; subst x)
    | split
    | fail)

theorem storeMark_held {p : List Instr} (k : ℕ) (bs : List Byte) (s : State) (hs : Held p s) :
    Held p (storeMark k bs s) := by
  unfold storeMark
  repeat' (first
    | with_reducible apply Held.upd (by assumption)
    | with_reducible exact id
    | (intro h; exact ⟨h.1, h.2.1, putWords_wf _ h.2.2⟩)
    | fail)

theorem raiseFloor_held {p : List Instr} (off : ℕ) (v : ℕ) (s : State) (hs : Held p s) :
    Held p (raiseFloor off v s).2 := by
  unfold raiseFloor
  repeat' (first
    | with_reducible assumption
    | with_reducible apply storeMark_held
    | (extract_lets +onlyGivenNames x; subst x)
    | split
    | fail)

theorem provisionKey_held {p : List Instr} (v : List Byte) (s : State) (hs : Held p s) :
    Held p (provisionKey v s).2 := by
  unfold provisionKey
  repeat' (first
    | with_reducible assumption
    | with_reducible apply storeMark_held
    | (extract_lets +onlyGivenNames x; subst x)
    | split
    | fail)

theorem programFactory_held {p : List Instr} (v : List Byte) (s : State) (hs : Held p s) :
    Held p (programFactory v s).2 := by
  unfold programFactory
  repeat' (first
    | with_reducible assumption
    | with_reducible apply storeMark_held
    | split
    | fail)

theorem writeCustomer_held {p : List Instr} (v : List Byte) (s : State) (hs : Held p s) :
    Held p (writeCustomer v s).2 := by
  unfold writeCustomer
  repeat' (first
    | with_reducible assumption
    | with_reducible apply storeBytes_held
    | with_reducible apply eraseSector_held
    | (extract_lets +onlyGivenNames x; subst x)
    | split
    | fail)

theorem saveDefaults_held {p : List Instr} (s : State) (hs : Held p s) : Held p (saveDefaults s).2 := by
  unfold saveDefaults
  split
  · exact hs
  · with_reducible apply Held.upd (saveRecord_held _ _ _ _ hs) <;> try with_reducible exact id
    exact fun _ => hs.kept.dict

theorem markStats_held {p : List Instr} (s : State) (hs : Held p s) :
    Held p (markStats s) := by
  unfold markStats
  repeat' (first
    | with_reducible apply Held.upd (by assumption)
    | with_reducible exact id
    | fail)

theorem actOn_held {p : List Instr} (client : ℕ) (idx : ℕ) (sub : ℕ) (v : List Sys2Proof.Byte) (s : State) (hs : Held p s) :
    Held p (actOn client idx sub v s).2 := by
  unfold actOn
  repeat' (first
    | with_reducible assumption
    | with_reducible refine held_ite ?_ ?_
    | with_reducible apply imgSelect_held
    | with_reducible apply imgErase_held
    | with_reducible apply imgCheck_held
    | with_reducible apply authAsk_held
    | with_reducible apply modSession_held
    | with_reducible apply authSign_held
    | with_reducible apply saveDefaults_held
    | with_reducible apply writeWall_held
    | with_reducible apply candidateWritten_held
    | with_reducible apply patrolUpdate_held
    | with_reducible apply lunDown_held
    | with_reducible apply retireMember_held
    | with_reducible apply clearLedger_held
    | with_reducible apply abandonRefit_held
    | with_reducible apply raiseFloor_held
    | with_reducible apply provisionKey_held
    | with_reducible apply programFactory_held
    | with_reducible apply writeCustomer_held
    | with_reducible apply writeFlip_held
    | with_reducible apply markStats_held
    | with_reducible apply modLun_held
    | with_reducible apply Held.upd (by assumption)
    | with_reducible exact id
    | (unfold Dict.wf; with_reducible exact id)
    | (unfold Sram.wf; with_reducible exact id)
    | (intro h; refine jigsWf_map ?_ h; intro _; rfl)
    | (extract_lets +onlyGivenNames x; subst x)
    | split
    | fail)

theorem applyObject_held {p : List Instr} (client : ℕ) (o : Obj) (idx : ℕ) (sub : ℕ) (v : List Sys2Proof.Byte) (s : State) (hs : Held p s) :
    Held p (applyObject client o idx sub v s).2 := by
  unfold applyObject
  repeat' (first
    | with_reducible assumption
    | with_reducible apply actOn_held
    | split
    | fail)

theorem commit_held {p : List Instr} (client : ℕ) (o : Obj) (idx : ℕ) (sub : ℕ) (v : List Sys2Proof.Byte) (s : State) (hs : Held p s) :
    Held p (commit client o idx sub v s).2 := by
  unfold commit
  repeat' (first
    | with_reducible assumption
    | with_reducible refine held_ite ?_ ?_
    | with_reducible apply saveRecord_held
    | (with_reducible refine held_snd (by assumption) ?_; with_reducible apply applyObject_held)
    | with_reducible apply Held.upd (by assumption)
    | with_reducible exact id
    | (with_reducible apply Held.upd; on_goal 1 => (with_reducible refine held_snd (by assumption) ?_; with_reducible apply applyObject_held))
    | (unfold Dict.wf; with_reducible exact id)
    | (extract_lets +onlyGivenNames x; refine (have hx : Held p x := ?_; ?_); on_goal 2 => try clear_value x; on_goal 1 => subst x)
    | (extract_lets +onlyGivenNames x; subst x)
    | split
    | fail)

theorem execJournalCandidates_held {p : List Instr} (sub : ℕ) (lun : BitVec 16) (s : State) (hs : Held p s) :
    HeldOut p (execJournalCandidates sub lun s) := by
  unfold execJournalCandidates
  repeat' (first
    | with_reducible assumption
    | with_reducible refine heldOut_checked ?_
    | with_reducible refine held_ite ?_ ?_
    | with_reducible apply saveRecord_held
    | with_reducible apply candidateWritten_held
    | with_reducible apply Held.upd (by assumption)
    | with_reducible exact id
    | (unfold Dict.wf; with_reducible exact id)
    | fail)

theorem ackAgain_held {p : List Instr} (client : ℕ) (n : ℕ) (s : State) (hs : Held p s) :
    Held p (ackAgain client n s).2.2 := by
  unfold ackAgain
  repeat' (first
    | with_reducible assumption
    | with_reducible apply modSession_held
    | fail)

theorem outOfOrder_held {p : List Instr} (client : ℕ) (s : State) (hs : Held p s) :
    Held p (outOfOrder client s).2.2 := by
  unfold outOfOrder
  repeat' (first
    | with_reducible assumption
    | with_reducible apply modSession_held
    | fail)

theorem takeSegment_held {p : List Instr} (client : ℕ) (o : Obj) (idx : ℕ) (sub : ℕ) (old : List Sys2Proof.Byte) (last : Bool) (data : List Sys2Proof.Byte) (s : State) (hs : Held p s) :
    Held p (takeSegment client o idx sub old last data s).2.2 := by
  unfold takeSegment
  repeat' (first
    | with_reducible assumption
    | with_reducible refine held_ite ?_ ?_
    | with_reducible apply modSession_held
    | with_reducible apply commit_held
    | (extract_lets +onlyGivenNames x; refine (have hx : Held p x := ?_; ?_); on_goal 2 => try clear_value x; on_goal 1 => subst x)
    | (extract_lets +onlyGivenNames x; subst x)
    | split
    | fail)

theorem takeImage_held {p : List Instr} (client : ℕ) (off : ℕ) (last : Bool) (data : List Sys2Proof.Byte) (s : State) (hs : Held p s) :
    Held p (takeImage client off last data s).2.2 := by
  unfold takeImage
  repeat' (first
    | with_reducible assumption
    | with_reducible apply imgSegment_held
    | with_reducible apply modSession_held
    | with_reducible apply ackAgain_held
    | with_reducible apply outOfOrder_held
    | (extract_lets +onlyGivenNames x; subst x)
    | split
    | fail)

theorem serveWrite_held {p : List Instr} (client : ℕ) (idx : ℕ) (sub : ℕ) (off : ℕ) (total : ℕ) (cap : ℕ) (last : Bool) (data : List Sys2Proof.Byte) (s : State) (hs : Held p s) :
    Held p (serveWrite client idx sub off total cap last data s).2.2 := by
  unfold serveWrite
  repeat' (first
    | with_reducible assumption
    | with_reducible apply modSession_held
    | with_reducible apply takeImage_held
    | with_reducible apply takeSegment_held
    | with_reducible apply ackAgain_held
    | with_reducible apply outOfOrder_held
    | split
    | fail)

theorem portEnd_held {p : List Instr} (r : Reply) (withTotal : Bool) (s : State) (hs : Held p s) :
    Held p (portEnd r withTotal s) := by
  unfold portEnd
  repeat' (first
    | with_reducible apply raise_held
    | with_reducible apply Held.upd (by assumption)
    | with_reducible exact id
    | (unfold Dict.wf; with_reducible exact id)
    | fail)

theorem portRequest_held {p : List Instr} (v : Word) (s : State) (hs : Held p s) :
    Held p (portRequest v s) := by
  unfold portRequest
  repeat' (first
    | with_reducible refine held_ite ?_ ?_
    | with_reducible apply useSession_held
    | with_reducible apply portEnd_held
    | with_reducible apply serveRead_held
    | with_reducible apply serveWrite_held
    | with_reducible apply Held.upd (by assumption)
    | with_reducible exact id
    | (unfold Dict.wf; with_reducible exact id)
    | (extract_lets +onlyGivenNames x; subst x)
    | split
    | fail)

theorem portCommand_held {p : List Instr} (op : ℕ) (v : Word) (s : State) (hs : Held p s) :
    Held p (portCommand op v s) := by
  unfold portCommand
  repeat' (first
    | with_reducible assumption
    | with_reducible refine held_ite ?_ ?_
    | with_reducible apply portRequest_held
    | with_reducible apply Held.upd (by assumption)
    | with_reducible exact id
    | (unfold Dict.wf; with_reducible exact id)
    | fail)

theorem execDictRead_held {p : List Instr} (v : Word) (s : State) (hs : Held p s) :
    HeldOut p (execDictRead v s) := by
  unfold execDictRead
  repeat' (first
    | with_reducible assumption
    | with_reducible refine heldOut_next ?_
    | with_reducible apply portCommand_held
    | fail)

theorem execDictWrite_held {p : List Instr} (v : Word) (s : State) (hs : Held p s) :
    HeldOut p (execDictWrite v s) := by
  unfold execDictWrite
  repeat' (first
    | with_reducible assumption
    | with_reducible refine heldOut_next ?_
    | with_reducible apply portCommand_held
    | fail)

theorem execDictDescribe_held {p : List Instr} (v : Word) (s : State) (hs : Held p s) :
    HeldOut p (execDictDescribe v s) := by
  unfold execDictDescribe
  repeat' (first
    | with_reducible assumption
    | with_reducible refine heldOut_next ?_
    | with_reducible apply portCommand_held
    | fail)

theorem canSend_held {p : List Instr} (base : ℕ) (bs : List Byte) (s : State) (hs : Held p s) :
    Held p (canSend base bs s) := by
  unfold canSend
  repeat' (first
    | with_reducible apply Held.upd (by assumption)
    | with_reducible exact id
    | (unfold Dict.wf; with_reducible exact id)
    | fail)

theorem canRespond_held {p : List Instr} (f : List Byte) (code : ℕ) (off : ℕ) (total : ℕ) (data : List Byte) (s : State) (hs : Held p s) :
    Held p (canRespond f code off total data s) := by
  unfold canRespond
  repeat' (first
    | with_reducible assumption
    | with_reducible apply canSend_held
    | fail)

theorem canServe_held {p : List Instr} (f : List Sys2Proof.Byte) (s : State) (hs : Held p s) :
    Held p (canServe f s) := by
  unfold canServe
  repeat' (first
    | with_reducible assumption
    | with_reducible refine held_ite ?_ ?_
    | with_reducible apply answerLost_held
    | with_reducible apply canRespond_held
    | with_reducible apply serveRead_held
    | with_reducible apply serveWrite_held
    | with_reducible apply endSession_held
    | (extract_lets +onlyGivenNames x; subst x)
    | split
    | fail)

theorem canCommand_held {p : List Instr} (cmd : ℕ) (f : List Byte) (s : State) (hs : Held p s) :
    Held p (canCommand cmd f s) := by
  unfold canCommand
  repeat' (first
    | with_reducible assumption
    | with_reducible refine held_ite ?_ ?_
    | with_reducible apply canRespond_held
    | with_reducible apply canServe_held
    | fail)

theorem execCanRead_held {p : List Instr} (frame : List Byte) (s : State) (hs : Held p s) :
    HeldOut p (execCanRead frame s) := by
  unfold execCanRead
  repeat' (first
    | with_reducible assumption
    | with_reducible refine heldOut_next ?_
    | with_reducible apply canCommand_held
    | fail)

theorem execCanWrite_held {p : List Instr} (frame : List Byte) (s : State) (hs : Held p s) :
    HeldOut p (execCanWrite frame s) := by
  unfold execCanWrite
  repeat' (first
    | with_reducible assumption
    | with_reducible refine heldOut_next ?_
    | with_reducible apply canCommand_held
    | fail)

theorem execCanDescribe_held {p : List Instr} (frame : List Byte) (s : State) (hs : Held p s) :
    HeldOut p (execCanDescribe frame s) := by
  unfold execCanDescribe
  repeat' (first
    | with_reducible assumption
    | with_reducible refine heldOut_next ?_
    | with_reducible apply canCommand_held
    | fail)

theorem execCloseSession_held {p : List Instr} (frame : List Byte) (s : State) (hs : Held p s) :
    HeldOut p (execCloseSession frame s) := by
  unfold execCloseSession
  repeat' (first
    | with_reducible assumption
    | with_reducible refine heldOut_next ?_
    | with_reducible apply canCommand_held
    | fail)

theorem execCanStatusFrame_held {p : List Instr} (s : State) (hs : Held p s) :
    HeldOut p (execCanStatusFrame s) := by
  unfold execCanStatusFrame
  repeat' (first
    | with_reducible assumption
    | with_reducible refine heldOut_next ?_
    | with_reducible refine held_ite ?_ ?_
    | with_reducible apply canSend_held
    | with_reducible apply Held.upd (by assumption)
    | with_reducible exact id
    | (unfold Dict.wf; with_reducible exact id)
    | fail)

theorem execCanEventFrame_held {p : List Instr} (s : State) (hs : Held p s) : HeldOut p (execCanEventFrame s) := by
  unfold execCanEventFrame
  refine heldOut_next ?_
  split
  · rename_i r rest e
    refine held_ite (canSend_held _ _ _ ?_) hs
    with_reducible apply Held.upd hs <;> try with_reducible exact id
    intro h
    unfold Dict.wf at h ⊢
    rw [e] at h
    simp only [List.length_cons] at h
    dsimp only
    omega
  · exact hs

theorem execCanSessionTimeout_held {p : List Instr} (client : ℕ) (s : State) (hs : Held p s) :
    HeldOut p (execCanSessionTimeout client s) := by
  unfold execCanSessionTimeout
  repeat' (first
    | with_reducible assumption
    | with_reducible refine heldOut_next ?_
    | with_reducible apply endSession_held
    | fail)

theorem execDictTransferTimeout_held {p : List Instr} (client : ℕ) (s : State) (hs : Held p s) :
    HeldOut p (execDictTransferTimeout client s) := by
  unfold execDictTransferTimeout
  repeat' (first
    | with_reducible assumption
    | with_reducible refine heldOut_next ?_
    | with_reducible apply modSession_held
    | fail)

theorem execBusOff_held {p : List Instr} (s : State) (hs : Held p s) :
    HeldOut p (execBusOff s) := by
  unfold execBusOff
  repeat' (first
    | with_reducible assumption
    | with_reducible refine heldOut_next ?_
    | with_reducible refine held_ite ?_ ?_
    | with_reducible apply endCanSessions_held
    | with_reducible apply raise_held
    | with_reducible apply Held.upd (by assumption)
    | with_reducible exact id
    | (unfold Dict.wf; with_reducible exact id)
    | fail)

theorem execBusOffRecovery_held {p : List Instr} (s : State) (hs : Held p s) :
    HeldOut p (execBusOffRecovery s) := by
  unfold execBusOffRecovery
  repeat' (first
    | with_reducible assumption
    | with_reducible refine heldOut_next ?_
    | with_reducible refine held_ite ?_ ?_
    | with_reducible apply raise_held
    | with_reducible apply Held.upd (by assumption)
    | with_reducible exact id
    | (unfold Dict.wf; with_reducible exact id)
    | fail)

theorem execErrorPassive_held {p : List Instr} (passive : Bool) (s : State) (hs : Held p s) :
    HeldOut p (execErrorPassive passive s) := by
  unfold execErrorPassive
  repeat' (first
    | with_reducible assumption
    | with_reducible refine heldOut_next ?_
    | with_reducible refine held_ite ?_ ?_
    | with_reducible apply raise_held
    | with_reducible apply Held.upd (by assumption)
    | with_reducible exact id
    | (unfold Dict.wf; with_reducible exact id)
    | fail)

theorem objectWrite_held {p : List Instr} (client : ℕ) (idx : ℕ) (sub : ℕ) (v : List Sys2Proof.Byte) (s : State) (hs : Held p s) :
    Held p (objectWrite client idx sub v s) := by
  unfold objectWrite
  repeat' (first
    | with_reducible assumption
    | with_reducible refine held_ite ?_ ?_
    | with_reducible apply serveWrite_held
    | with_reducible apply useSession_held
    | with_reducible apply portEnd_held
    | with_reducible apply answerLost_held
    | fail)

theorem execAuthRequest_held {p : List Instr} (client : ℕ) (level : Byte) (s : State) (hs : Held p s) :
    HeldOut p (execAuthRequest client level s) := by
  unfold execAuthRequest
  repeat' (first
    | with_reducible assumption
    | with_reducible refine heldOut_next ?_
    | with_reducible apply objectWrite_held
    | fail)

theorem execAuthChallenge_held {p : List Instr} (client : ℕ) (random : List Sys2Proof.Byte) (s : State) (hs : Held p s) :
    HeldOut p (execAuthChallenge client random s) := by
  unfold execAuthChallenge
  repeat' (first
    | with_reducible assumption
    | with_reducible refine heldOut_next ?_
    | with_reducible refine held_ite ?_ ?_
    | with_reducible apply modSession_held
    | with_reducible apply drawChallenge_held
    | with_reducible apply portEnd_held
    | with_reducible apply useSession_held
    | with_reducible apply answerLost_held
    | split
    | fail)

theorem execAuthKey_held {p : List Instr} (client : ℕ) (key : List Byte) (s : State) (hs : Held p s) :
    HeldOut p (execAuthKey client key s) := by
  unfold execAuthKey
  repeat' (first
    | with_reducible assumption
    | with_reducible refine heldOut_next ?_
    | with_reducible apply objectWrite_held
    | fail)

theorem execAuthSignature_held {p : List Instr} (client : ℕ) (sig : List Byte) (s : State) (hs : Held p s) :
    HeldOut p (execAuthSignature client sig s) := by
  unfold execAuthSignature
  repeat' (first
    | with_reducible assumption
    | with_reducible refine heldOut_next ?_
    | with_reducible apply objectWrite_held
    | fail)

theorem execAuthDrop_held {p : List Instr} (client : ℕ) (v : Byte) (s : State) (hs : Held p s) :
    HeldOut p (execAuthDrop client v s) := by
  unfold execAuthDrop
  repeat' (first
    | with_reducible assumption
    | with_reducible refine heldOut_next ?_
    | with_reducible apply objectWrite_held
    | fail)

theorem execImageTarget_held {p : List Instr} (client : ℕ) (v : Byte) (s : State) (hs : Held p s) :
    HeldOut p (execImageTarget client v s) := by
  unfold execImageTarget
  repeat' (first
    | with_reducible assumption
    | with_reducible refine heldOut_next ?_
    | with_reducible apply objectWrite_held
    | fail)

theorem execImageLength_held {p : List Instr} (client : ℕ) (v : Word) (s : State) (hs : Held p s) :
    HeldOut p (execImageLength client v s) := by
  unfold execImageLength
  repeat' (first
    | with_reducible assumption
    | with_reducible refine heldOut_next ?_
    | with_reducible apply objectWrite_held
    | fail)

theorem execImageData_held {p : List Instr} (client : ℕ) (offset : ℕ) (last : Bool) (data : List Sys2Proof.Byte) (s : State) (hs : Held p s) :
    HeldOut p (execImageData client offset last data s) := by
  unfold execImageData
  repeat' (first
    | with_reducible assumption
    | with_reducible refine heldOut_next ?_
    | with_reducible refine held_ite ?_ ?_
    | with_reducible apply serveWrite_held
    | with_reducible apply useSession_held
    | with_reducible apply portEnd_held
    | with_reducible apply answerLost_held
    | fail)

theorem execImageCheck_held {p : List Instr} (client : ℕ) (v : Byte) (s : State) (hs : Held p s) :
    HeldOut p (execImageCheck client v s) := by
  unfold execImageCheck
  repeat' (first
    | with_reducible assumption
    | with_reducible refine heldOut_next ?_
    | with_reducible apply objectWrite_held
    | fail)

theorem execRestoreDefaults_held {p : List Instr} (client : ℕ) (v : Byte) (s : State) (hs : Held p s) :
    HeldOut p (execRestoreDefaults client v s) := by
  unfold execRestoreDefaults
  repeat' (first
    | with_reducible assumption
    | with_reducible refine heldOut_next ?_
    | with_reducible apply objectWrite_held
    | fail)

theorem execStatisticsMark_held {p : List Instr} (client : ℕ) (v : Byte) (s : State) (hs : Held p s) :
    HeldOut p (execStatisticsMark client v s) := by
  unfold execStatisticsMark
  repeat' (first
    | with_reducible assumption
    | with_reducible refine heldOut_next ?_
    | with_reducible apply objectWrite_held
    | fail)

theorem execFactoryRequest_held {p : List Instr} (client : ℕ) (v : Byte) (s : State) (hs : Held p s) :
    HeldOut p (execFactoryRequest client v s) := by
  unfold execFactoryRequest
  repeat' (first
    | with_reducible assumption
    | with_reducible refine heldOut_next ?_
    | with_reducible apply objectWrite_held
    | fail)

theorem execRaiseVendorFloor_held {p : List Instr} (client : ℕ) (v : BitVec 16) (s : State) (hs : Held p s) :
    HeldOut p (execRaiseVendorFloor client v s) := by
  unfold execRaiseVendorFloor
  repeat' (first
    | with_reducible assumption
    | with_reducible refine heldOut_next ?_
    | with_reducible apply objectWrite_held
    | fail)

theorem execRaiseCustomerFloor_held {p : List Instr} (client : ℕ) (v : BitVec 16) (s : State) (hs : Held p s) :
    HeldOut p (execRaiseCustomerFloor client v s) := by
  unfold execRaiseCustomerFloor
  repeat' (first
    | with_reducible assumption
    | with_reducible refine heldOut_next ?_
    | with_reducible apply objectWrite_held
    | fail)

theorem execCustomerKeyProvision_held {p : List Instr} (client : ℕ) (data : List Byte) (s : State) (hs : Held p s) :
    HeldOut p (execCustomerKeyProvision client data s) := by
  unfold execCustomerKeyProvision
  repeat' (first
    | with_reducible assumption
    | with_reducible refine heldOut_next ?_
    | with_reducible apply objectWrite_held
    | fail)

theorem execFactoryPart_held {p : List Instr} (client : ℕ) (data : List Byte) (s : State) (hs : Held p s) :
    HeldOut p (execFactoryPart client data s) := by
  unfold execFactoryPart
  repeat' (first
    | with_reducible assumption
    | with_reducible refine heldOut_next ?_
    | with_reducible apply objectWrite_held
    | fail)

theorem execCustomerSectorData_held {p : List Instr} (client : ℕ) (data : List Byte) (s : State) (hs : Held p s) :
    HeldOut p (execCustomerSectorData client data s) := by
  unfold execCustomerSectorData
  repeat' (first
    | with_reducible assumption
    | with_reducible refine heldOut_next ?_
    | with_reducible apply objectWrite_held
    | fail)

end Sys2Proof.Machine
end

