-- ==== Sys2Proof/Laws/HeldBlock.lean ====
section
/-!
SUPPORT. One lemma per operation of integrity, the window, outages, the cascade, start and the registers:
it keeps the queue, the counts of units and the canonical form of the memories.
-/
namespace Sys2Proof.Machine

/-! ### Machine/Integrity.lean -/

theorem execSramFlip_held {p : List Instr} (who : Writer) (v : Word) (s : State) (hs : Held p s) :
    HeldOut p (execSramFlip who v s) := by
  unfold execSramFlip
  repeat' (first
    | with_reducible assumption
    | with_reducible refine heldOut_next ?_
    | with_reducible refine mainCoreOnly_held _ _ _ (fun _ _ => ?_) ?_
    | with_reducible apply writeFlip_held
    | fail)

theorem execScrubRead_held {p : List Instr} (s : State) (hs : Held p s) :
    HeldOut p (execScrubRead s) := by
  unfold execScrubRead
  repeat' (first
    | with_reducible assumption
    | with_reducible refine heldOut_next ?_
    | with_reducible refine held_ite ?_ ?_
    | with_reducible apply settle_held
    | with_reducible apply scrubOne_held
    | fail)

theorem execMergeRetire_held {p : List Instr} (idx : ℕ) (s : State) (hs : Held p s) :
    HeldOut p (execMergeRetire idx s) := by
  unfold execMergeRetire
  repeat' (first
    | with_reducible assumption
    | with_reducible refine heldOut_checked ?_
    | with_reducible apply settle_held
    | with_reducible apply retire_held
    | split
    | fail)

/-! ### Machine/Window.lean -/

theorem writeGrant_held {p : List Instr} (v : Word) (s : State) (hs : Held p s) :
    Held p (writeGrant v s) := by
  unfold writeGrant
  repeat' (first
    | with_reducible assumption
    | with_reducible refine held_ite ?_ ?_
    | with_reducible apply tryGrant_held
    | with_reducible apply settle_held
    | with_reducible apply passGrant_held
    | fail)

theorem execStripeWinGrant_held {p : List Instr} (v : Word) (s : State) (hs : Held p s) :
    HeldOut p (execStripeWinGrant v s) := by
  unfold execStripeWinGrant
  repeat' (first
    | with_reducible assumption
    | with_reducible refine heldOut_next ?_
    | with_reducible apply writeGrant_held
    | fail)

theorem execJournalRecovery_held {p : List Instr} (r : RecoveryIn) (s : State) (hs : Held p s) :
    HeldOut p (execJournalRecovery r s) := by
  unfold execJournalRecovery
  repeat' (first
    | with_reducible assumption
    | with_reducible refine heldOut_next ?_
    | with_reducible apply settle_held
    | with_reducible apply recoverJournal_held
    | fail)

theorem takeDirEntry_held {p : List Instr} (group : ℕ) (b : List Byte) (s : State) (hs : Held p s) :
    Held p (takeDirEntry group b s) := by
  unfold takeDirEntry
  repeat' (first
    | with_reducible assumption
    | with_reducible refine held_ite ?_ ?_
    | with_reducible apply modDir_held
    | fail)

theorem execDirCacheMiss_held {p : List Instr} (group : ℕ) (r : Sys2Proof.HostRead) (s : State) (hs : Held p s) :
    HeldOut p (execDirCacheMiss group r s) := by
  unfold execDirCacheMiss
  repeat' (first
    | with_reducible assumption
    | with_reducible refine heldOut_next ?_
    | with_reducible refine held_ite ?_ ?_
    | with_reducible apply fetchHost_held
    | with_reducible apply cacheTouch_held
    | with_reducible apply takeDirEntry_held
    | with_reducible apply Held.upd (by assumption)
    | with_reducible exact id
    | (extract_lets +onlyGivenNames x; refine (have hx : Held p x := ?_; ?_); on_goal 2 => try clear_value x; on_goal 1 => subst x)
    | (extract_lets +onlyGivenNames x; subst x)
    | split
    | fail)

theorem execWindowReadRetry_held {p : List Instr} (s : State) (hs : Held p s) :
    HeldOut p (execWindowReadRetry s) := by
  unfold execWindowReadRetry
  repeat' (first
    | with_reducible assumption
    | with_reducible refine heldOut_next ?_
    | with_reducible apply readDose_held
    | with_reducible apply hostReadData_held
    | with_reducible refine held_foldl (fun _ _ _ => ?_) _ ?_
    | with_reducible apply Held.upd (by assumption)
    | with_reducible exact id
    | fail)

/-! ### Machine/Outage.lean -/

theorem execPwrFail_held {p : List Instr} (s : State) (hs : Held p s) :
    HeldOut p (execPwrFail s) := by
  unfold execPwrFail
  repeat' (first
    | with_reducible assumption
    | with_reducible refine heldOut_next ?_
    | with_reducible apply settle_held
    | with_reducible apply powerFails_held
    | fail)

theorem execHoldupDone_held {p : List Instr} (s : State) (hs : Held p s) :
    HeldOut p (execHoldupDone s) := by
  unfold execHoldupDone
  repeat' (first
    | with_reducible assumption
    | with_reducible refine heldOut_next ?_
    | with_reducible refine held_ite ?_ ?_
    | with_reducible apply settle_held
    | with_reducible apply raiseDone_held
    | fail)

theorem execOvAlert_held {p : List Instr} (s : State) (hs : Held p s) :
    HeldOut p (execOvAlert s) := by
  unfold execOvAlert
  repeat' (first
    | with_reducible assumption
    | with_reducible refine heldOut_next ?_
    | with_reducible refine held_ite ?_ ?_
    | with_reducible apply wake_held
    | with_reducible apply stageOne_held
    | with_reducible apply Held.upd (by assumption)
    | with_reducible exact id
    | fail)

theorem execOvStage2_held {p : List Instr} (s : State) (hs : Held p s) :
    HeldOut p (execOvStage2 s) := by
  unfold execOvStage2
  repeat' (first
    | with_reducible assumption
    | with_reducible refine heldOut_next ?_
    | with_reducible refine held_ite ?_ ?_
    | with_reducible apply settle_held
    | with_reducible apply stageTwo_held
    | fail)

theorem execVm31Crossing_held {p : List Instr} (s : State) (hs : Held p s) :
    HeldOut p (execVm31Crossing s) := by
  unfold execVm31Crossing
  repeat' (first
    | with_reducible assumption
    | with_reducible refine heldOut_next ?_
    | with_reducible refine held_ite ?_ ?_
    | with_reducible apply settle_held
    | with_reducible apply stageTwo_held
    | with_reducible apply Held.upd (by assumption)
    | with_reducible exact id
    | fail)

theorem execOvClear_held {p : List Instr} (s : State) (hs : Held p s) :
    HeldOut p (execOvClear s) := by
  unfold execOvClear
  repeat' (first
    | with_reducible assumption
    | with_reducible refine heldOut_next ?_
    | with_reducible refine held_ite ?_ ?_
    | with_reducible apply settle_held
    | with_reducible apply stagesEnd_held
    | fail)

theorem publishRound_held {p : List Instr} (r : RoundIn) (s : State) (hs : Held p s) :
    Held p (publishRound r s) := by
  unfold publishRound
  repeat' (first
    | with_reducible apply Held.upd (by assumption)
    | with_reducible exact id
    | fail)

theorem judgeWarn_held {p : List Instr} (t : ℤ) (s : State) (hs : Held p s) :
    Held p (judgeWarn t s) := by
  unfold judgeWarn
  repeat' (first
    | with_reducible refine held_ite ?_ ?_
    | with_reducible apply wake_held
    | with_reducible apply raise_held
    | with_reducible apply Held.upd (by assumption)
    | with_reducible exact id
    | (extract_lets +onlyGivenNames x; subst x)
    | (with_reducible apply Held.upd; on_goal 1 => (with_reducible apply Held.upd (by assumption)))
    | fail)

theorem judgeThrottle_held {p : List Instr} (t : ℤ) (s : State) (hs : Held p s) :
    Held p (judgeThrottle t s) := by
  unfold judgeThrottle
  repeat' (first
    | with_reducible refine held_ite ?_ ?_
    | with_reducible apply raise_held
    | with_reducible apply Held.upd (by assumption)
    | with_reducible exact id
    | fail)

theorem judgeLatch_held {p : List Instr} (t : ℤ) (s : State) (hs : Held p s) :
    Held p (judgeLatch t s) := by
  unfold judgeLatch
  repeat' (first
    | with_reducible refine held_ite ?_ ?_
    | with_reducible apply settle_held
    | with_reducible apply latchSets_held
    | with_reducible apply Held.upd (by assumption)
    | with_reducible exact id
    | fail)

theorem judgeBoot_held {p : List Instr} (t : ℤ) (s : State) (hs : Held p s) :
    Held p (judgeBoot t s) := by
  unfold judgeBoot
  repeat' (first
    | with_reducible assumption
    | with_reducible refine held_ite ?_ ?_
    | with_reducible apply Held.upd (by assumption)
    | with_reducible exact id
    | fail)

theorem execHkRoundEnd_held {p : List Instr} (r : RoundIn) (s : State) (hs : Held p s) :
    HeldOut p (execHkRoundEnd r s) := by
  unfold execHkRoundEnd
  repeat' (first
    | with_reducible assumption
    | with_reducible refine heldOut_next ?_
    | with_reducible refine held_ite ?_ ?_
    | with_reducible apply publishRound_held
    | with_reducible apply judgeLatch_held
    | with_reducible apply judgeThrottle_held
    | with_reducible apply judgeWarn_held
    | with_reducible apply judgeBoot_held
    | with_reducible apply thermalEvent_held
    | with_reducible apply Held.upd (by assumption)
    | with_reducible exact id
    | fail)

theorem execLatchOpsTimeout_held {p : List Instr} (s : State) (hs : Held p s) :
    HeldOut p (execLatchOpsTimeout s) := by
  unfold execLatchOpsTimeout
  repeat' (first
    | with_reducible assumption
    | with_reducible refine heldOut_next ?_
    | with_reducible refine held_ite ?_ ?_
    | with_reducible apply settle_held
    | with_reducible apply abandonOps_held
    | fail)

/-! ### Machine/Cascade.lean -/

theorem cascadeFires_held {p : List Instr} (s : State) (hs : Held p s) :
    Held p (cascadeFires s) := by
  unfold cascadeFires
  repeat' (first
    | with_reducible assumption
    | with_reducible apply raise_held
    | fail)

theorem execLinkDown_held {p : List Instr} (port : Side) (s : State) (hs : Held p s) :
    HeldOut p (execLinkDown port s) := by
  unfold execLinkDown
  repeat' (first
    | with_reducible assumption
    | with_reducible refine heldOut_next ?_
    | with_reducible refine held_ite ?_ ?_
    | with_reducible apply cascadeFires_held
    | with_reducible exact id
    | (extract_lets +onlyGivenNames x; subst x)
    | split
    | (with_reducible apply Held.upd; on_goal 1 => (with_reducible apply modPort_held))
    | fail)

theorem execLinkUp_held {p : List Instr} (port : Side) (lanes : ℕ) (peer : BitVec 3) (s : State) (hs : Held p s) :
    HeldOut p (execLinkUp port lanes peer s) := by
  unfold execLinkUp
  repeat' (first
    | with_reducible assumption
    | with_reducible refine heldOut_next ?_
    | with_reducible refine held_ite ?_ ?_
    | with_reducible apply cascadeFires_held
    | with_reducible apply modPort_held
    | fail)

theorem execLinkTrainRetry_held {p : List Instr} (_port : Side) (s : State) (hs : Held p s) :
    HeldOut p (execLinkTrainRetry _port s) := by
  unfold execLinkTrainRetry
  repeat' (first
    | with_reducible assumption
    | with_reducible refine heldOut_next ?_
    | fail)

theorem execFlitRefused_held {p : List Instr} (r : Sys2Proof.FlitRefusal) (s : State) (hs : Held p s) :
    HeldOut p (execFlitRefused r s) := by
  unfold execFlitRefused
  repeat' (first
    | with_reducible assumption
    | with_reducible refine heldOut_next ?_
    | with_reducible refine held_ite ?_ ?_
    | with_reducible apply modPort_held
    | with_reducible apply Held.upd (by assumption)
    | with_reducible exact id
    | (extract_lets +onlyGivenNames x; subst x)
    | split
    | fail)

theorem execDvReservedMsg_held {p : List Instr} (_type : Byte) (s : State) (hs : Held p s) :
    HeldOut p (execDvReservedMsg _type s) := by
  unfold execDvReservedMsg
  repeat' (first
    | with_reducible refine heldOut_next ?_
    | with_reducible apply Held.upd (by assumption)
    | with_reducible exact id
    | fail)

theorem setView_held {p : List Instr} (v : BitVec 8) (s : State) (hs : Held p s) :
    Held p (setView v s) := by
  unfold setView
  repeat' (first
    | with_reducible apply Held.upd (by assumption)
    | with_reducible exact id
    | fail)

theorem raiseTerm_held {p : List Instr} (t : Word) (s : State) (hs : Held p s) :
    Held p (raiseTerm t s) := by
  unfold raiseTerm
  repeat' (first
    | with_reducible assumption
    | with_reducible refine held_ite ?_ ?_
    | with_reducible apply Held.upd (by assumption)
    | with_reducible exact id
    | fail)

theorem fenceIdentity_held {p : List Instr} (cause : ℕ) (s : State) (hs : Held p s) :
    Held p (fenceIdentity cause s) := by
  unfold fenceIdentity
  repeat' (first
    | with_reducible assumption
    | with_reducible refine held_ite ?_ ?_
    | with_reducible apply cascadeEvent_held
    | with_reducible apply endTrain_held
    | with_reducible apply setFenced_held
    | with_reducible exact id
    | (with_reducible apply Held.upd; on_goal 1 => (with_reducible apply loseLead_held))
    | fail)

theorem saveTerm_held {p : List Instr} (s : State) (hs : Held p s) :
    Held p (saveTerm s) := by
  unfold saveTerm
  repeat' (first
    | with_reducible assumption
    | with_reducible refine held_ite ?_ ?_
    | with_reducible apply saveRecord_held
    | with_reducible apply Held.upd (by assumption)
    | with_reducible exact id
    | fail)

theorem electionStep_held {p : List Instr} (s : State) (hs : Held p s) :
    Held p (electionStep s) := by
  unfold electionStep
  repeat' (first
    | with_reducible refine held_ite ?_ ?_
    | with_reducible apply endTrain_held
    | with_reducible apply setFenced_held
    | with_reducible apply Held.upd (by assumption)
    | with_reducible exact id
    | fail)

theorem startElection_held {p : List Instr} (s : State) (hs : Held p s) :
    Held p (startElection s) := by
  unfold startElection
  repeat' (first
    | with_reducible assumption
    | with_reducible refine held_ite ?_ ?_
    | with_reducible apply electionStep_held
    | with_reducible apply cascadeFires_held
    | with_reducible apply Held.upd (by assumption)
    | with_reducible exact id
    | fail)

theorem takeOver_held {p : List Instr} (s : State) (hs : Held p s) :
    Held p (takeOver s) := by
  unfold takeOver
  repeat' (first
    | with_reducible apply modJrnl_held
    | with_reducible apply Held.upd (by assumption)
    | with_reducible exact id
    | fail)

theorem winElection_held {p : List Instr} (s : State) (hs : Held p s) :
    Held p (winElection s) := by
  unfold winElection
  repeat' (first
    | with_reducible refine held_ite ?_ ?_
    | with_reducible apply setConds_held
    | with_reducible apply dvSend_held
    | with_reducible apply cascadeEvent_held
    | with_reducible apply cascadeFires_held
    | with_reducible apply pendingGrant_held
    | with_reducible apply beginRecovery_held
    | with_reducible apply takeOver_held
    | with_reducible apply dropRemotes_held
    | with_reducible apply Held.upd (by assumption)
    | with_reducible exact id
    | fail)

theorem checkElected_held {p : List Instr} (s : State) (hs : Held p s) :
    Held p (checkElected s) := by
  unfold checkElected
  repeat' (first
    | with_reducible assumption
    | with_reducible refine held_ite ?_ ?_
    | with_reducible apply winElection_held
    | fail)

theorem execElectionBackoff_held {p : List Instr} (s : State) (hs : Held p s) :
    HeldOut p (execElectionBackoff s) := by
  unfold execElectionBackoff
  repeat' (first
    | with_reducible assumption
    | with_reducible refine heldOut_next ?_
    | with_reducible refine held_ite ?_ ?_
    | with_reducible apply saveTerm_held
    | with_reducible apply settle_held
    | with_reducible apply checkElected_held
    | with_reducible apply dvSend_held
    | with_reducible apply Held.upd (by assumption)
    | with_reducible exact id
    | fail)

theorem execElectTimeout_held {p : List Instr} (s : State) (hs : Held p s) :
    HeldOut p (execElectTimeout s) := by
  unfold execElectTimeout
  repeat' (first
    | with_reducible assumption
    | with_reducible refine heldOut_next ?_
    | with_reducible refine held_ite ?_ ?_
    | with_reducible apply settle_held
    | with_reducible apply electionStep_held
    | fail)

theorem execClaim_held {p : List Instr} (term : Word) (die : BitVec 3) (view : Byte) (s : State) (hs : Held p s) :
    HeldOut p (execClaim term die view s) := by
  unfold execClaim
  repeat' (first
    | with_reducible assumption
    | with_reducible refine heldOut_next ?_
    | with_reducible refine held_ite ?_ ?_
    | with_reducible apply raiseTerm_held
    | with_reducible apply loseLead_held
    | with_reducible apply settle_held
    | with_reducible apply dvSend_held
    | with_reducible apply saveTerm_held
    | with_reducible exact id
    | (extract_lets +onlyGivenNames x; subst x)
    | (with_reducible apply Held.upd; on_goal 1 => (with_reducible refine held_ite ?_ ?_))
    | (with_reducible apply Held.upd; on_goal 1 => (with_reducible apply raiseTerm_held))
    | fail)

theorem execGrant_held {p : List Instr} (term : Sys2Proof.Word) (die : BitVec 3) (s : State) (hs : Held p s) :
    HeldOut p (execGrant term die s) := by
  unfold execGrant
  repeat' (first
    | with_reducible assumption
    | with_reducible refine heldOut_next ?_
    | with_reducible refine held_ite ?_ ?_
    | with_reducible apply raiseTerm_held
    | with_reducible apply settle_held
    | with_reducible apply checkElected_held
    | with_reducible exact id
    | (with_reducible apply Held.upd; on_goal 1 => (with_reducible apply raiseTerm_held))
    | fail)

theorem countRing_held {p : List Instr} (whole : Bool) (s : State) (hs : Held p s) :
    Held p (countRing whole s) := by
  unfold countRing
  repeat' (first
    | with_reducible assumption
    | with_reducible refine held_ite ?_ ?_
    | with_reducible apply saveRecord_held
    | with_reducible apply fenceIdentity_held
    | with_reducible apply Held.upd (by assumption)
    | with_reducible exact id
    | (unfold Dict.wf; with_reducible exact id)
    | fail)

theorem checkLead_held {p : List Instr} (s : State) (hs : Held p s) :
    Held p (checkLead s) := by
  unfold checkLead
  repeat' (first
    | with_reducible assumption
    | with_reducible refine held_ite ?_ ?_
    | with_reducible apply loseLead_held
    | fail)

theorem execPresence_held {p : List Instr} (die : BitVec 3) (leadOk : Bool) (term : Sys2Proof.Word) (ring : Sys2Proof.RingIn) (s : State) (hs : Held p s) :
    HeldOut p (execPresence die leadOk term ring s) := by
  unfold execPresence
  repeat' (first
    | with_reducible assumption
    | with_reducible refine heldOut_next ?_
    | with_reducible refine held_ite ?_ ?_
    | with_reducible apply settle_held
    | with_reducible apply fenceIdentity_held
    | with_reducible apply raiseTerm_held
    | with_reducible apply countRing_held
    | with_reducible apply setView_held
    | with_reducible apply checkLead_held
    | with_reducible apply Held.upd (by assumption)
    | with_reducible exact id
    | fail)

theorem execPresenceTimeout_held {p : List Instr} (die : BitVec 3) (s : State) (hs : Held p s) :
    HeldOut p (execPresenceTimeout die s) := by
  unfold execPresenceTimeout
  repeat' (first
    | with_reducible assumption
    | with_reducible refine heldOut_next ?_
    | with_reducible refine held_ite ?_ ?_
    | with_reducible apply setView_held
    | with_reducible apply checkLead_held
    | with_reducible apply endUnreachable_held
    | with_reducible apply dropUnreachable_held
    | with_reducible apply settle_held
    | with_reducible apply pendingGrant_held
    | with_reducible apply checkElected_held
    | with_reducible apply accumLeft_held
    | with_reducible apply Held.upd (by assumption)
    | with_reducible exact id
    | fail)

theorem countJoining_held {p : List Instr} (s : State) (hs : Held p s) :
    Held p (countJoining s) := by
  unfold countJoining
  repeat' (first
    | with_reducible assumption
    | with_reducible apply grantTo_held
    | with_reducible refine held_foldl (fun _ _ _ => ?_) _ ?_
    | with_reducible apply Held.upd (by assumption)
    | with_reducible exact id
    | fail)

theorem execPresenceSend_held {p : List Instr} (s : State) (hs : Held p s) :
    HeldOut p (execPresenceSend s) := by
  unfold execPresenceSend
  repeat' (first
    | with_reducible assumption
    | with_reducible refine heldOut_next ?_
    | with_reducible refine held_ite ?_ ?_
    | with_reducible apply dvSend_held
    | with_reducible apply countJoining_held
    | with_reducible apply settle_held
    | with_reducible apply takeOver_held
    | with_reducible exact id
    | (extract_lets +onlyGivenNames x; subst x)
    | (with_reducible apply Held.upd; on_goal 1 => (with_reducible apply dvSend_held))
    | fail)

theorem becomeFollower_held {p : List Instr} (s : State) (hs : Held p s) :
    Held p (becomeFollower s) := by
  unfold becomeFollower
  repeat' (first
    | with_reducible apply endTrain_held
    | with_reducible apply setConds_held
    | with_reducible apply Held.upd (by assumption)
    | with_reducible exact id
    | (intro h; simpa only [List.length_set, List.length_modify, List.length_map] using h)
    | split
    | fail)

theorem sendCopy_held {p : List Instr} (die : BitVec 3) (s : State) (hs : Held p s) :
    Held p (sendCopy die s) := by
  unfold sendCopy
  repeat' (first
    | with_reducible assumption
    | with_reducible apply dvSend_held
    | fail)

theorem leaveLeader_held {p : List Instr} (s : State) (hs : Held p s) :
    Held p (leaveLeader s) := by
  unfold leaveLeader
  repeat' (first
    | with_reducible apply dropRemotes_held
    | with_reducible apply Held.upd (by assumption)
    | with_reducible exact id
    | fail)

theorem noteHeartbeat_held {p : List Instr} (die : BitVec 3) (seq : Sys2Proof.Word) (inTime : Bool) (s : State) (hs : Held p s) :
    Held p (noteHeartbeat die seq inTime s) := by
  unfold noteHeartbeat
  repeat' (first
    | with_reducible assumption
    | with_reducible refine held_ite ?_ ?_
    | with_reducible apply leaveLeader_held
    | with_reducible apply sendCopy_held
    | with_reducible exact id
    | (with_reducible apply Held.upd; on_goal 1 => (with_reducible refine held_ite ?_ ?_))
    | fail)

theorem execHeartbeat_held {p : List Instr} (term : Sys2Proof.Word) (die : BitVec 3) (seq : Sys2Proof.Word) (a3 : Sys2Proof.Byte) (inTime : Bool) (s : State) (hs : Held p s) :
    HeldOut p (execHeartbeat term die seq a3 inTime s) := by
  unfold execHeartbeat
  repeat' (first
    | with_reducible assumption
    | with_reducible refine heldOut_next ?_
    | with_reducible refine held_ite ?_ ?_
    | with_reducible apply loseLead_held
    | with_reducible apply raiseTerm_held
    | with_reducible apply settle_held
    | with_reducible apply noteHeartbeat_held
    | with_reducible apply cascadeFires_held
    | with_reducible apply becomeFollower_held
    | fail)

theorem loseLeader_held {p : List Instr} (s : State) (hs : Held p s) :
    Held p (loseLeader s) := by
  unfold loseLeader
  repeat' (first
    | with_reducible assumption
    | with_reducible apply startElection_held
    | with_reducible exact id
    | (with_reducible apply Held.upd; on_goal 1 => (with_reducible apply leaveLeader_held))
    | fail)

theorem execHeartbeatMiss_held {p : List Instr} (s : State) (hs : Held p s) :
    HeldOut p (execHeartbeatMiss s) := by
  unfold execHeartbeatMiss
  repeat' (first
    | with_reducible assumption
    | with_reducible refine heldOut_next ?_
    | with_reducible refine held_ite ?_ ?_
    | with_reducible apply settle_held
    | with_reducible apply loseLeader_held
    | with_reducible apply Held.upd (by assumption)
    | with_reducible exact id
    | fail)

theorem execJob_held {p : List Instr} (w : Sys2Proof.RemoteIn) (s : State) (hs : Held p s) :
    HeldOut p (execJob w s) := by
  unfold execJob
  repeat' (first
    | with_reducible assumption
    | with_reducible refine heldOut_next ?_
    | with_reducible refine held_ite ?_ ?_
    | with_reducible apply settle_held
    | with_reducible apply accumJob_held
    | with_reducible apply goRemote_held
    | with_reducible apply joinRemote_held
    | (extract_lets +onlyGivenNames x; subst x)
    | split
    | fail)

theorem execJobEnd_held {p : List Instr} (handle : ℕ) (outcome : Sys2Proof.Byte) (delivered : List (ℕ × ℕ)) (lost : List (ℕ × ℕ)) (hostErr : Bool) (s : State) (hs : Held p s) :
    HeldOut p (execJobEnd handle outcome delivered lost hostErr s) := by
  unfold execJobEnd
  repeat' (first
    | with_reducible assumption
    | with_reducible refine heldOut_next ?_
    | with_reducible refine held_ite ?_ ?_
    | with_reducible apply settle_held
    | with_reducible apply accumAnswered_held
    | with_reducible apply awayEnd_held
    | fail)

theorem execParity_held {p : List Instr} (group : ℕ) (row : ℕ) (part : Sys2Proof.PartIn) (pq : List Sys2Proof.Byte) (s : State) (hs : Held p s) :
    HeldOut p (execParity group row part pq s) := by
  unfold execParity
  repeat' (first
    | with_reducible assumption
    | with_reducible refine heldOut_next ?_
    | with_reducible refine held_ite ?_ ?_
    | with_reducible apply settle_held
    | with_reducible apply dropPart_held
    | with_reducible apply takePart_held
    | fail)

theorem execCodeword_held {p : List Instr} (dest : Sys2Proof.CwTo) (job : ℕ) (cw : ℕ) (data : List Sys2Proof.Byte) (s : State) (hs : Held p s) :
    HeldOut p (execCodeword dest job cw data s) := by
  unfold execCodeword
  repeat' (first
    | with_reducible assumption
    | with_reducible refine heldOut_next ?_
    | with_reducible refine held_ite ?_ ?_
    | with_reducible apply settle_held
    | with_reducible apply landCw_held
    | with_reducible apply landLabel_held
    | with_reducible apply modRemote_held
    | with_reducible apply Held.upd (by assumption)
    | with_reducible exact id
    | (extract_lets +onlyGivenNames x; subst x)
    | split
    | fail)

theorem takeRecord_held {p : List Instr} (s : State) (r : BitVec 256) (hs : Held p s) :
    Held p (takeRecord s r) := by
  unfold takeRecord
  repeat' (first
    | with_reducible assumption
    | with_reducible refine held_ite ?_ ?_
    | with_reducible apply addRec_held
    | with_reducible apply replayRec_held
    | with_reducible apply addLoss_held
    | (extract_lets +onlyGivenNames x; subst x)
    | split
    | fail)

theorem execRecord_held {p : List Instr} (recs : List (BitVec 256)) (s : State) (hs : Held p s) :
    HeldOut p (execRecord recs s) := by
  unfold execRecord
  repeat' (first
    | with_reducible assumption
    | with_reducible refine heldOut_next ?_
    | with_reducible refine held_ite ?_ ?_
    | with_reducible apply takeRecord_held
    | with_reducible apply settle_held
    | with_reducible apply Held.upd (by assumption)
    | with_reducible exact id
    | (with_reducible apply Held.upd; on_goal 1 => (with_reducible refine held_foldl (fun _ _ _ => ?_) _ ?_))
    | fail)

theorem execDirectory_held {p : List Instr} (grant : Option (BitVec 64 × ℕ)) (entries : List (ℕ × List Byte)) (s : State) (hs : Held p s) :
    HeldOut p (execDirectory grant entries s) := by
  unfold execDirectory
  repeat' (first
    | with_reducible assumption
    | with_reducible refine heldOut_next ?_
    | with_reducible refine held_ite ?_ ?_
    | with_reducible apply layWindow_held
    | with_reducible apply takeWindow_held
    | with_reducible apply modDir_held
    | with_reducible refine held_foldl (fun _ _ _ => ?_) _ ?_
    | with_reducible apply Held.upd (by assumption)
    | with_reducible exact id
    | (extract_lets +onlyGivenNames x; subst x)
    | split
    | fail)

theorem takeCopy_held {p : List Instr} (rec : List Sys2Proof.Byte) (s : State) (hs : Held p s) :
    Held p (takeCopy rec s) := by
  unfold takeCopy
  repeat' (first
    | with_reducible assumption
    | with_reducible refine held_ite ?_ ?_
    | with_reducible apply putAnchor_held
    | with_reducible apply takeAnchor_held
    | fail)

theorem execAnchor_held {p : List Instr} (a : Sys2Proof.AnchorMsg) (s : State) (hs : Held p s) :
    HeldOut p (execAnchor a s) := by
  unfold execAnchor
  repeat' (first
    | with_reducible assumption
    | with_reducible refine heldOut_next ?_
    | with_reducible refine held_ite ?_ ?_
    | with_reducible apply settle_held
    | with_reducible apply pendingGrant_held
    | with_reducible apply takeCopy_held
    | with_reducible apply Held.upd (by assumption)
    | with_reducible exact id
    | fail)

theorem execMedia_held {p : List Instr} (die : BitVec 3) (m : BitVec 64) (s : State) (hs : Held p s) :
    HeldOut p (execMedia die m s) := by
  unfold execMedia
  repeat' (first
    | with_reducible assumption
    | with_reducible refine heldOut_next ?_
    | with_reducible refine held_ite ?_ ?_
    | with_reducible apply settle_held
    | with_reducible apply acceptMessage_held
    | with_reducible apply modHead_held
    | with_reducible apply flushAnswers_held
    | with_reducible apply answerBack_held
    | fail)

theorem execWakeMsg_held {p : List Instr} (sleep : Bool) (s : State) (hs : Held p s) :
    HeldOut p (execWakeMsg sleep s) := by
  unfold execWakeMsg
  repeat' (first
    | with_reducible assumption
    | with_reducible refine heldOut_next ?_
    | with_reducible refine held_ite ?_ ?_
    | with_reducible apply setConds_held
    | with_reducible apply wake_held
    | fail)

/-! ### Machine/Start.lean -/

/-- A sector's half erased again keeps the Cabinet's form. -/
theorem Cabinet.undoHeader_wf (c : Cabinet) (sec : Nat) (h : c.wf) : (undoHeader c sec).wf := by
  unfold undoHeader
  split
  · exact ⟨h.1, filter_wf _ h.2.1, h.2.2⟩
  · exact h

theorem cutErase_held {p : List Instr} (e : CabOp) (s : State) (hs : Held p s) : Held p (cutErase e s) := by
  have h1 := takeFree_held _ (Held.setCab (c := { s.cab with erase := none }) hs id)
  unfold cutErase
  revert h1
  generalize takeFree { s with cab := { s.cab with erase := none } } = y
  obtain ⟨f, t⟩ := y
  intro h1
  dsimp only
  split
  · exact Held.setCab h1 (Cabinet.undoHeader_wf _ _)
  · exact freeSector_held _ _ h1

theorem cutCabinet_held {p : List Instr} (s : State) (hs : Held p s) : Held p (cutCabinet s) := by
  unfold cutCabinet
  extract_lets x
  have hx : Held p x := by
    unfold x
    split
    · have h1 := takeFree_held s hs
      revert h1
      generalize takeFree s = y
      obtain ⟨f, t⟩ := y
      intro h1
      rename_i pr _
      have h2 : Held p { t with cab := { applyWords pr (pr.words.take (f % (pr.words.length + 1))) t.cab with prog := none } } :=
        Held.setCab h1 (fun h => Cabinet.applyWords_wf _ _ h)
      dsimp only
      split
      · exact failedWord_held _ _ _ _ h2
      · exact h2
    · exact hs
  clear_value x
  split
  · exact cutErase_held _ _ hx
  · exact hx

theorem intoReset_held {p : List Instr} (cold : Bool) (m : Modes) (s : State) (hs : Held p s) : Held p (intoReset cold m s) := by
  have hi : State.reset.irq.wf := by
    refine ⟨⟨?_, ?_, ?_, ?_, ?_, ?_⟩, ⟨rfl, rfl, rfl, rfl, rfl, rfl⟩, rfl, rfl⟩
    · show defaultSense.length = 256
      unfold defaultSense
      simp only [List.length_append, List.length_replicate, List.length_cons, List.length_nil]
    all_goals exact List.length_replicate
  have hc := cutCabinet_held s hs
  unfold intoReset
  exact { queue := hs.queue, kept := {
    rings := List.length_replicate
    jigs := ⟨List.length_replicate, fun j hj => by rw [List.eq_of_mem_replicate hj]; exact nil_wf⟩
    chans := by
      dsimp only
      split
      · exact List.length_replicate
      · rw [List.length_map]; exact hs.kept.chans
    heads := by
      dsimp only
      split
      · rfl
      · rw [List.length_map]; exact hs.kept.heads
    slots := Nat.le_of_eq List.length_replicate.symm
    irq := by
      dsimp only
      split <;> exact hi
    image := nil_wf
    luns := by
      dsimp only
      split
      · exact nil_wf (blank := fun _ => ({} : LunRec))
      · refine ⟨((hs.kept.luns.1.map _ ?_).filter _), ?_⟩
        · exact fun _ _ h => h
        · intro q hq
          simpa using (List.mem_filter.1 hq).2
    cab := hc.kept.cab
    sram := ⟨nil_wf, Nat.zero_le _⟩
    host := ⟨Nat.zero_le _, Nat.zero_le _⟩
    dict := Nat.zero_le _ } }

theorem coldReset_held {p : List Instr} (s : State) (hs : Held p s) :
    Held p (coldReset s) := by
  unfold coldReset
  repeat' (first
    | with_reducible assumption
    | with_reducible apply intoReset_held
    | fail)

theorem warmReset_held {p : List Instr} (cause : Modes → Modes) (s : State) (hs : Held p s) :
    Held p (warmReset cause s) := by
  unfold warmReset
  repeat' (first
    | with_reducible assumption
    | with_reducible refine held_ite ?_ ?_
    | with_reducible apply intoReset_held
    | fail)

theorem execPorNAssert_held {p : List Instr} (s : State) (hs : Held p s) :
    HeldOut p (execPorNAssert s) := by
  unfold execPorNAssert
  repeat' (first
    | with_reducible assumption
    | with_reducible refine heldOut_next ?_
    | with_reducible apply coldReset_held
    | fail)

theorem execRstNAssert_held {p : List Instr} (s : State) (hs : Held p s) :
    HeldOut p (execRstNAssert s) := by
  unfold execRstNAssert
  repeat' (first
    | with_reducible assumption
    | with_reducible refine heldOut_next ?_
    | with_reducible apply warmReset_held
    | fail)

theorem execWatchdog_held {p : List Instr} (s : State) (hs : Held p s) :
    HeldOut p (execWatchdog s) := by
  unfold execWatchdog
  repeat' (first
    | with_reducible assumption
    | with_reducible refine heldOut_next ?_
    | with_reducible apply warmReset_held
    | fail)

theorem requestStandby_held {p : List Instr} (s : State) (hs : Held p s) :
    Held p (requestStandby s) := by
  unfold requestStandby
  repeat' (first
    | with_reducible apply Held.upd (by assumption)
    | with_reducible exact id
    | fail)

theorem writeModeCtrl_held {p : List Instr} (v : Word) (s : State) (hs : Held p s) :
    Held p (writeModeCtrl v s) := by
  unfold writeModeCtrl
  repeat' (first
    | with_reducible assumption
    | with_reducible refine held_ite ?_ ?_
    | with_reducible apply warmReset_held
    | with_reducible apply requestStandby_held
    | fail)

theorem execSoftReset_held {p : List Instr} (v : Word) (s : State) (hs : Held p s) :
    HeldOut p (execSoftReset v s) := by
  unfold execSoftReset
  repeat' (first
    | with_reducible assumption
    | with_reducible refine heldOut_next ?_
    | with_reducible refine held_ite ?_ ?_
    | with_reducible apply writeModeCtrl_held
    | fail)

theorem execEnterStandby_held {p : List Instr} (v : Word) (s : State) (hs : Held p s) :
    HeldOut p (execEnterStandby v s) := by
  unfold execEnterStandby
  repeat' (first
    | with_reducible assumption
    | with_reducible refine heldOut_next ?_
    | with_reducible refine held_ite ?_ ?_
    | with_reducible apply writeModeCtrl_held
    | fail)

theorem execStandbyEntry_held {p : List Instr} (ownClear : Bool) (s : State) (hs : Held p s) :
    HeldOut p (execStandbyEntry ownClear s) := by
  unfold execStandbyEntry
  repeat' (first
    | with_reducible assumption
    | with_reducible refine heldOut_next ?_
    | with_reducible refine held_ite ?_ ?_
    | with_reducible apply saveClocks_held
    | with_reducible apply settle_held
    | with_reducible apply patrolUpdate_held
    | with_reducible apply tellStandby_held
    | with_reducible apply setConds_held
    | with_reducible apply Held.upd (by assumption)
    | with_reducible exact id
    | fail)

theorem execStbyRefused_held {p : List Instr} (s : State) (hs : Held p s) :
    HeldOut p (execStbyRefused s) := by
  unfold execStbyRefused
  repeat' (first
    | with_reducible assumption
    | with_reducible refine heldOut_next ?_
    | with_reducible refine held_ite ?_ ?_
    | with_reducible apply Held.upd (by assumption)
    | with_reducible exact id
    | fail)

theorem execAonTimerExpiry_held {p : List Instr} (s : State) (hs : Held p s) :
    HeldOut p (execAonTimerExpiry s) := by
  unfold execAonTimerExpiry
  repeat' (first
    | with_reducible assumption
    | with_reducible refine heldOut_next ?_
    | with_reducible refine held_ite ?_ ?_
    | with_reducible apply wake_held
    | with_reducible apply raise_held
    | fail)

theorem atStage_held {p : List Instr} (n : ℕ) (s : State) (hs : Held p s) :
    Held p (atStage n s) := by
  unfold atStage
  repeat' (first
    | with_reducible apply Held.upd (by assumption)
    | with_reducible exact id
    | fail)

theorem resumeLog_held {p : List Instr} (s : State) (hs : Held p s) :
    Held p (resumeLog s) := by
  unfold resumeLog
  repeat' (first
    | with_reducible apply Held.upd (by assumption)
    | with_reducible exact id
    | (unfold Cabinet.wf; with_reducible exact id)
    | fail)

theorem copyTrims_held {p : List Instr} (s : State) (hs : Held p s) :
    Held p (copyTrims s) := by
  unfold copyTrims
  repeat' (first
    | with_reducible apply Held.upd (by assumption)
    | with_reducible exact id
    | fail)

theorem bootBegins_held {p : List Instr} (b : Sys2Proof.BootIn) (s : State) (hs : Held p s) :
    Held p (bootBegins b s) := by
  unfold bootBegins
  repeat' (first
    | with_reducible apply resumeLog_held
    | with_reducible apply loadTime_held
    | with_reducible apply atStage_held
    | with_reducible apply logRecord_held
    | with_reducible apply raise_held
    | with_reducible apply Held.upd (by assumption)
    | with_reducible exact id
    | (unfold Sram.wf; with_reducible exact id)
    | fail)

theorem redoErase_held {p : List Instr} (ok : Bool) (s : State) (hs : Held p s) :
    Held p (redoErase ok s) := by
  unfold redoErase
  repeat' (first
    | with_reducible assumption
    | with_reducible refine held_ite ?_ ?_
    | with_reducible apply takeFree_held
    | with_reducible apply eraseSector_held
    | with_reducible apply cabFault_held
    | with_reducible apply eraseFails_held
    | with_reducible apply Held.upd (by assumption)
    | with_reducible exact id
    | (extract_lets +onlyGivenNames x; refine (have hx : Held p x := ?_; ?_); on_goal 2 => try clear_value x; on_goal 1 => subst x)
    | (extract_lets +onlyGivenNames x; subst x)
    | split
    | fail)

theorem loadValues_held {p : List Instr} (s : State) (hs : Held p s) : Held p (loadValues s) := by
  unfold loadValues
  with_reducible apply Held.upd hs
  · with_reducible exact id
  · intro h; refine jigsWf_map ?_ h; intro _; rfl
  · exact fun _ => (List.length_map _).trans List.length_range
  · with_reducible exact id
  · with_reducible exact id
  · with_reducible exact id
  · with_reducible exact id
  · with_reducible exact id
  · with_reducible exact id
  · unfold Sram.wf; with_reducible exact id
  · with_reducible exact id
  · unfold Dict.wf; with_reducible exact id

theorem bootLinks_held {p : List Instr} (b : BootIn) (s : State) (hs : Held p s) :
    Held p (bootLinks b s) := by
  unfold bootLinks
  repeat' (first
    | with_reducible refine held_ite ?_ ?_
    | with_reducible apply setView_held
    | with_reducible apply countRing_held
    | with_reducible apply fenceIdentity_held
    | with_reducible apply Held.upd (by assumption)
    | with_reducible exact id
    | fail)

theorem bootTemp_held {p : List Instr} (b : BootIn) (s : State) (hs : Held p s) :
    Held p (bootTemp b s) := by
  unfold bootTemp
  repeat' (first
    | with_reducible assumption
    | with_reducible refine held_ite ?_ ?_
    | with_reducible apply lockKeys_held
    | with_reducible apply atStage_held
    | with_reducible apply bootRefusal_held
    | with_reducible apply Held.upd (by assumption)
    | with_reducible exact id
    | (extract_lets +onlyGivenNames x; refine (have hx : Held p x := ?_; ?_); on_goal 2 => try clear_value x; on_goal 1 => subst x)
    | fail)

theorem bootLoads_held {p : List Instr} (b : Sys2Proof.BootIn) (s : State) (hs : Held p s) :
    Held p (bootLoads b s) := by
  unfold bootLoads
  repeat' (first
    | with_reducible assumption
    | with_reducible refine held_ite ?_ ?_
    | with_reducible apply bootFirmware_held
    | with_reducible apply atStage_held
    | with_reducible apply redoErase_held
    | with_reducible apply copyTrims_held
    | with_reducible apply loadValues_held
    | with_reducible apply countStart_held
    | with_reducible apply restoreSaved_held
    | with_reducible apply loadStores_held
    | with_reducible apply bootCustomer_held
    | with_reducible apply bootPatch_held
    | with_reducible apply bootTemp_held
    | with_reducible apply bootLinks_held
    | with_reducible apply lockKeys_held
    | with_reducible exact id
    | (with_reducible apply Held.upd; on_goal 1 => (with_reducible apply bootFirmware_held))
    | fail)

theorem execResetDeassert_held {p : List Instr} (b : Sys2Proof.BootIn) (s : State) (hs : Held p s) :
    HeldOut p (execResetDeassert b s) := by
  unfold execResetDeassert
  repeat' (first
    | with_reducible assumption
    | with_reducible refine heldOut_next ?_
    | with_reducible refine held_ite ?_ ?_
    | with_reducible apply bootBegins_held
    | with_reducible apply applyMode_held
    | with_reducible apply lockKeys_held
    | with_reducible apply atStage_held
    | with_reducible apply copyTrims_held
    | with_reducible apply setConds_held
    | with_reducible apply bootLoads_held
    | with_reducible apply bootRefusal_held
    | with_reducible exact id
    | (with_reducible apply Held.upd; on_goal 1 => (with_reducible apply bootBegins_held))
    | fail)

theorem suspect_held {p : List Instr} (ch : ℕ) (u : ℕ) (s : State) (hs : Held p s) :
    Held p (suspect ch u s) := by
  unfold suspect
  repeat' (first
    | with_reducible assumption
    | with_reducible apply modChan_held
    | fail)

theorem suspectTarget_held {p : List Instr} (ch : ℕ) (ce : ℕ) (s : State) (hs : Held p s) :
    Held p (suspectTarget ch ce s) := by
  unfold suspectTarget
  repeat' (first
    | with_reducible assumption
    | with_reducible apply suspect_held
    | with_reducible refine held_foldl (fun _ _ _ => ?_) _ ?_
    | fail)

theorem resumeLun_held {p : List Instr} (ch : ℕ) (ce : ℕ) (ty : ℕ) (s : State) (w : Sys2Proof.LunWait) (hs : Held p s) :
    Held p (resumeLun ch ce ty s w) := by
  unfold resumeLun
  repeat' (first
    | with_reducible assumption
    | with_reducible refine held_ite ?_ ?_
    | with_reducible apply modJig_held
    | with_reducible apply askClamps_held
    | with_reducible apply returnLun_held
    | with_reducible apply runRoutine_held
    | with_reducible apply suspect_held
    | with_reducible apply suspectTarget_held
    | with_reducible exact id
    | exact fun _ => id
    | (with_reducible apply Held.upd; on_goal 1 => (with_reducible apply rackCycle_held))
    | fail)

theorem resetTarget_held {p : List Instr} (ch : ℕ) (ce : ℕ) (ty : ℕ) (s : State) (hs : Held p s) :
    Held p (resetTarget ch ce ty s) := by
  unfold resetTarget
  repeat' (first
    | with_reducible assumption
    | with_reducible refine held_ite ?_ ?_
    | with_reducible apply runRoutine_held
    | with_reducible refine held_foldl (fun _ _ _ => ?_) _ ?_
    | fail)

theorem findTarget_held {p : List Instr} (ch : ℕ) (s : State) (t : Sys2Proof.TargetIn) (hs : Held p s) :
    Held p (findTarget ch s t) := by
  unfold findTarget
  repeat' (first
    | with_reducible assumption
    | with_reducible refine held_ite ?_ ?_
    | with_reducible apply resumeLun_held
    | with_reducible apply runRoutine_held
    | with_reducible apply resetTarget_held
    | with_reducible refine held_foldl (fun _ _ _ => ?_) _ ?_
    | fail)

theorem trainChan_held {p : List Instr} (ch : ℕ) (ts : List Sys2Proof.TargetIn) (s : State) (hs : Held p s) :
    Held p (trainChan ch ts s) := by
  unfold trainChan
  repeat' (first
    | with_reducible assumption
    | with_reducible refine held_ite ?_ ?_
    | with_reducible apply modChan_held
    | with_reducible apply dropMixed_held
    | with_reducible apply findTarget_held
    | with_reducible apply setRate_held
    | with_reducible apply tryRate_held
    | with_reducible apply setTimings_held
    | with_reducible apply modJig_held
    | with_reducible apply configEvent_held
    | with_reducible refine held_foldl (fun _ _ _ => ?_) _ ?_
    | exact fun _ => id
    | fail)

theorem trainChannels_held {p : List Instr} (t : List ChanTrainIn) (s : State) (hs : Held p s) :
    Held p (trainChannels t s) := by
  unfold trainChannels
  repeat' (first
    | with_reducible assumption
    | with_reducible refine held_ite ?_ ?_
    | with_reducible apply checkTables_held
    | with_reducible apply refuseTypes_held
    | with_reducible apply trainChan_held
    | with_reducible refine held_foldl (fun _ _ _ => ?_) _ ?_
    | with_reducible apply Held.upd (by assumption)
    | with_reducible exact id
    | (extract_lets +onlyGivenNames x; refine (have hx : Held p x := ?_; ?_); on_goal 2 => try clear_value x; on_goal 1 => subst x)
    | fail)

theorem readAnchor_held {p : List Instr} (s : State) (hs : Held p s) :
    Held p (readAnchor s) := by
  unfold readAnchor
  repeat' (first
    | with_reducible assumption
    | with_reducible apply takeAnchor_held
    | split
    | fail)

theorem execTrainEntry_held {p : List Instr} (t : List ChanTrainIn) (s : State) (hs : Held p s) :
    HeldOut p (execTrainEntry t s) := by
  unfold execTrainEntry
  repeat' (first
    | with_reducible assumption
    | with_reducible refine heldOut_next ?_
    | with_reducible refine held_ite ?_ ?_
    | with_reducible apply atStage_held
    | with_reducible apply setConds_held
    | with_reducible apply trainChannels_held
    | with_reducible apply settle_held
    | with_reducible apply pendingGrant_held
    | with_reducible apply beginRecovery_held
    | with_reducible apply endTrain_held
    | with_reducible apply readAnchor_held
    | with_reducible apply startElection_held
    | fail)

theorem execTargetReadyTimeout_held {p : List Instr} (ch : ℕ) (ce : ℕ) (s : State) (hs : Held p s) :
    HeldOut p (execTargetReadyTimeout ch ce s) := by
  unfold execTargetReadyTimeout
  repeat' (first
    | with_reducible assumption
    | with_reducible refine heldOut_checked ?_
    | with_reducible refine held_ite ?_ ?_
    | with_reducible apply suspectTarget_held
    | with_reducible apply resetTarget_held
    | fail)

/-! ### Machine/Registers.lean -/

theorem answerReg_held {p : List Instr} (who : Writer) (code : ℕ) (data : ℕ) (s : State) (hs : Held p s) :
    Held p (answerReg who code data s) := by
  unfold answerReg
  repeat' (first
    | with_reducible assumption
    | with_reducible refine held_ite ?_ ?_
    | with_reducible apply Held.upd (by assumption)
    | with_reducible exact id
    | split
    | fail)

theorem clearCounts_wf (k : ℕ) {q : Irq} (h : q.wf) : (clearCounts k q).wf := by
  unfold clearCounts
  simpa [Irq.wf, List.range, List.range.loop] using h

theorem clearReg_held {p : List Instr} (a : ℕ) (s : State) (hs : Held p s) : Held p (clearReg a s) := by
  unfold clearReg
  dsimp only
  repeat' first
    | with_reducible exact hs
    | with_reducible refine held_ite ?_ ?_
    | with_reducible exact modJig_held _ _ _ (fun _ h => h) hs
    | with_reducible apply Held.upd hs
    | with_reducible exact id
    | (intro h; exact clearCounts_wf _ h)
    | (intro h; simpa [Irq.wf] using h)
    | (unfold Sram.wf; with_reducible exact id)
    | split

theorem sampleReg_held {p : List Instr} (a : ℕ) (s : State) (hs : Held p s) : Held p (sampleReg a s).2 := by
  have h1 := targetIdle_held ((a - 0x04800) / 0x10) s hs
  unfold sampleReg
  revert h1
  generalize targetIdle ((a - 0x04800) / 0x10) s = y
  obtain ⟨i, t⟩ := y
  intro h1
  generalize ((readReg a s).getD 0).toNat = v
  dsimp only at h1 ⊢
  split
  · exact h1
  · exact hs

theorem execRegisterReadClear_held {p : List Instr} (who : Writer) (wide : Bool) (addr : ℕ) (s : State) (hs : Held p s) :
    HeldOut p (execRegisterReadClear who wide addr s) := by
  unfold execRegisterReadClear
  repeat' (first
    | with_reducible assumption
    | with_reducible refine heldOut_checked ?_
    | with_reducible refine held_ite ?_ ?_
    | with_reducible apply sampleReg_held
    | with_reducible apply clearReg_held
    | with_reducible apply answerReg_held
    | split
    | fail)

theorem writeGlobal_held {p : List Instr} (off : ℕ) (v : Word) (s : State) (hs : Held p s) :
    Held p (writeGlobal off v s) := by
  unfold writeGlobal
  repeat' (first
    | with_reducible assumption
    | with_reducible apply writeModeCtrl_held
    | with_reducible apply Held.upd (by assumption)
    | with_reducible exact id
    | (extract_lets +onlyGivenNames x; subst x)
    | split
    | fail)

theorem writeDictReg_held {p : List Instr} (off : ℕ) (v : Word) (s : State) (hs : Held p s) :
    Held p (writeDictReg off v s) := by
  unfold writeDictReg
  repeat' (first
    | with_reducible assumption
    | with_reducible refine held_ite ?_ ?_
    | with_reducible apply portRequest_held
    | with_reducible apply Held.upd (by assumption)
    | with_reducible exact id
    | (unfold Dict.wf; with_reducible exact id)
    | split
    | fail)

theorem writeRingCtrl_held {p : List Instr} (n : ℕ) (v : Word) (walk : List HostRead) (s : State) (hs : Held p s) :
    Held p (writeRingCtrl n v walk s) := by
  unfold writeRingCtrl
  repeat' (first
    | with_reducible assumption
    | with_reducible refine held_ite ?_ ?_
    | with_reducible apply enableRing_held
    | with_reducible apply shutdownRing_held
    | with_reducible apply restartRing_held
    | fail)

theorem writeRing_held {p : List Instr} (n : ℕ) (off : ℕ) (v : Word) (walk : List HostRead) (s : State) (hs : Held p s) :
    Held p (writeRing n off v walk s) := by
  unfold writeRing
  repeat' (first
    | with_reducible assumption
    | with_reducible refine held_ite ?_ ?_
    | with_reducible apply setRing_held
    | with_reducible apply writeRingCtrl_held
    | with_reducible apply doorbell_held
    | with_reducible apply wake_held
    | (extract_lets +onlyGivenNames x; subst x)
    | split
    | fail)

theorem writeIrqCfg_held {p : List Instr} (who : Writer) (a1 : ℕ) (v : Word) (s : State) (hs : Held p s) :
    Held p (writeIrqCfg who a1 v s) := by
  unfold writeIrqCfg
  repeat' (first
    | with_reducible apply Held.upd (by assumption)
    | with_reducible exact id
    | with_reducible apply Irq.relevel_wf
    | (show Irq.wf _; simp only [Irq.wf, apply_ite List.length, List.length_set, List.length_modify, List.length_map, ite_self] at *; assumption)
    | intro _
    | fail)

theorem writeNotify_wf (t off : ℕ) (v : Word) {q : Irq} (h : q.wf) : (writeNotify t off v q).wf := by
  unfold writeNotify
  dsimp only
  split <;> simpa [Irq.wf] using h

theorem writeIrqReg_held {p : List Instr} (who : Writer) (off : ℕ) (v : Word) (s : State) (hs : Held p s) :
    Held p (writeIrqReg who off v s) := by
  unfold writeIrqReg
  refine held_ite (writeIrqCfg_held _ _ _ _ hs) (held_ite (writePend_held _ _ _ hs) (held_ite (writePset_held _ _ _ _ hs)
    (held_ite (Held.setIrq hs ?_) (held_ite (held_ite (writeTgtStatus_held _ _ _ hs) (Held.setIrq hs (writeNotify_wf _ _ _))) hs))))
  intro h; simpa [Irq.wf] using h

theorem writeEvqReg_held {p : List Instr} (off : ℕ) (v : Word) (s : State) (hs : Held p s) :
    Held p (writeEvqReg off v s) := by
  unfold writeEvqReg
  repeat' (first
    | with_reducible assumption
    | with_reducible refine held_ite ?_ ?_
    | with_reducible apply writeEvqCfg_held
    | with_reducible apply writeEvqCons_held
    | with_reducible apply Held.upd (by assumption)
    | with_reducible exact id
    | split
    | fail)

theorem writeJigReg_held {p : List Instr} (who : Writer) (ch : ℕ) (off : ℕ) (v : Word) (s : State) (hs : Held p s) :
    Held p (writeJigReg who ch off v s) := by
  unfold writeJigReg
  repeat' (first
    | with_reducible assumption
    | with_reducible refine held_ite ?_ ?_
    | with_reducible apply stopJig_held
    | with_reducible apply resumeJig_held
    | with_reducible apply modJig_held
    | exact fun _ => id
    | (extract_lets +onlyGivenNames x; refine (have hx : Held p x := ?_; ?_); on_goal 2 => try clear_value x; on_goal 1 => subst x)
    | (extract_lets +onlyGivenNames x; subst x)
    | split
    | fail)

theorem writeStripeReg_held {p : List Instr} (off : ℕ) (v : Word) (s : State) (hs : Held p s) :
    Held p (writeStripeReg off v s) := by
  unfold writeStripeReg
  repeat' (first
    | with_reducible assumption
    | with_reducible refine held_ite ?_ ?_
    | with_reducible apply writeGrant_held
    | with_reducible apply Held.upd (by assumption)
    | with_reducible exact id
    | (extract_lets +onlyGivenNames x; subst x)
    | split
    | fail)

theorem writeReg_held {p : List Instr} (who : Writer) (a : ℕ) (v : Word) (walk : List HostRead) (s : State) (hs : Held p s) :
    Held p (writeReg who a v walk s) := by
  unfold writeReg
  repeat' (first
    | with_reducible assumption
    | with_reducible refine held_ite ?_ ?_
    | with_reducible apply writeGlobal_held
    | with_reducible apply writeDictReg_held
    | with_reducible apply writeRing_held
    | with_reducible apply writeIrqReg_held
    | with_reducible apply writeEvqReg_held
    | with_reducible apply writeJigReg_held
    | with_reducible apply writeInject_held
    | with_reducible apply writeStripeReg_held
    | with_reducible apply writeFlip_held
    | with_reducible apply storeRead_held
    | with_reducible apply Held.upd (by assumption)
    | with_reducible exact id
    | (unfold Sram.wf; with_reducible exact id)
    | (with_reducible apply Held.upd; on_goal 1 => (with_reducible apply Held.upd; on_goal 1 => (with_reducible apply writeFlip_held)))
    | (with_reducible apply Held.upd; on_goal 1 => (with_reducible apply Held.upd; on_goal 1 => (with_reducible apply storeRead_held)))
    | (intro h; exact h)
    | intro _
    | fail)

theorem writeRegs_held {p : List Instr} (who : Writer) (wide : Bool) (a : ℕ) (v : BitVec 64) (walk : List HostRead) (s : State) (hs : Held p s) :
    Held p (writeRegs who wide a v walk s) := by
  unfold writeRegs
  repeat' (first
    | with_reducible assumption
    | with_reducible refine held_ite ?_ ?_
    | with_reducible apply writeReg_held
    | fail)

theorem execRegisterWrite_held {p : List Instr} (who : Writer) (wide : Bool) (addr : ℕ) (v : BitVec 64) (walk : List HostRead) (s : State) (hs : Held p s) :
    HeldOut p (execRegisterWrite who wide addr v walk s) := by
  unfold execRegisterWrite
  repeat' (first
    | with_reducible assumption
    | with_reducible refine heldOut_checked ?_
    | with_reducible refine held_ite ?_ ?_
    | with_reducible apply answerReg_held
    | with_reducible apply writeRegs_held
    | fail)

end Sys2Proof.Machine
end

