-- ==== Sys2Proof/Laws/State.lean ====
section
/-!
SUPPORT. What the shared updates of State leave as it was, one lemma per update and field, and what a read of a unit gives
after a write of it.
-/
namespace Sys2Proof.Machine

variable (s : State)

/-! ### A unit read after it is written -/

@[simp] theorem ringAt_setRing (n : Nat) (r : Ring) (h : n < s.rings.length) : ringAt n (setRing n r s) = r := by
  simp [ringAt, setRing, h]

@[simp] theorem ringAt_modRing (n : Nat) (f : Ring → Ring) (h : n < s.rings.length) :
    ringAt n (modRing n f s) = f (ringAt n s) := by
  simp [ringAt, modRing, h]

@[simp] theorem jigAt_setJig (n : Nat) (j : Jig) (h : n < s.jigs.length) : jigAt n (setJig n j s) = j := by
  simp [jigAt, setJig, h]

@[simp] theorem jigAt_modJig (n : Nat) (f : Jig → Jig) (h : n < s.jigs.length) :
    jigAt n (modJig n f s) = f (jigAt n s) := by
  simp [jigAt, modJig, h]

@[simp] theorem chanAt_modChan (n : Nat) (f : Chan → Chan) (h : n < s.chans.length) :
    chanAt n (modChan n f s) = f (chanAt n s) := by
  simp [chanAt, modChan, h]

@[simp] theorem headAt_modHead (n : Nat) (f : Head → Head) (h : n < s.media.heads.length) :
    headAt n (modHead n f s) = f (headAt n s) := by
  simp [headAt, modHead, h]

theorem ringAt_modRing_ne (n k : Nat) (f : Ring → Ring) (h : n ≠ k) : ringAt k (modRing n f s) = ringAt k s := by
  simp [ringAt, modRing, h]

theorem jigAt_modJig_ne (n k : Nat) (f : Jig → Jig) (h : n ≠ k) : jigAt k (modJig n f s) = jigAt k s := by
  simp [jigAt, modJig, h]

theorem chanAt_modChan_ne (n k : Nat) (f : Chan → Chan) (h : n ≠ k) : chanAt k (modChan n f s) = chanAt k s := by
  simp [chanAt, modChan, h]

theorem headAt_modHead_ne (n k : Nat) (f : Head → Head) (h : n ≠ k) : headAt k (modHead n f s) = headAt k s := by
  simp [headAt, modHead, h]

@[simp] theorem portAt_modPort (p : Side) (f : Port → Port) : portAt p (modPort p f s) = f (portAt p s) := by
  cases p <;> rfl

theorem portAt_modPort_ne (p q : Side) (f : Port → Port) (h : p ≠ q) : portAt q (modPort p f s) = portAt q s := by
  cases p <;> cases q <;> first | rfl | exact absurd rfl h

/-! ### Fields that an update leaves -/

@[simp] theorem setRing_pending (n : Nat) (r : Ring) : (setRing n r s).pending = s.pending := rfl
@[simp] theorem setRing_freeCtr (n : Nat) (r : Ring) : (setRing n r s).freeCtr = s.freeCtr := rfl
@[simp] theorem setRing_now (n : Nat) (r : Ring) : (setRing n r s).now = s.now := rfl
@[simp] theorem setRing_pins (n : Nat) (r : Ring) : (setRing n r s).pins = s.pins := rfl
@[simp] theorem setRing_modes (n : Nat) (r : Ring) : (setRing n r s).modes = s.modes := rfl
@[simp] theorem setRing_sched (n : Nat) (r : Ring) : (setRing n r s).sched = s.sched := rfl
@[simp] theorem setRing_host (n : Nat) (r : Ring) : (setRing n r s).host = s.host := rfl
@[simp] theorem setRing_regs (n : Nat) (r : Ring) : (setRing n r s).regs = s.regs := rfl
@[simp] theorem setRing_rack (n : Nat) (r : Ring) : (setRing n r s).rack = s.rack := rfl
@[simp] theorem setRing_power (n : Nat) (r : Ring) : (setRing n r s).power = s.power := rfl
@[simp] theorem setRing_hk (n : Nat) (r : Ring) : (setRing n r s).hk = s.hk := rfl
@[simp] theorem setRing_storeImage (n : Nat) (r : Ring) : (setRing n r s).storeImage = s.storeImage := rfl
@[simp] theorem setRing_jigs (n : Nat) (r : Ring) : (setRing n r s).jigs = s.jigs := rfl
@[simp] theorem setRing_chans (n : Nat) (r : Ring) : (setRing n r s).chans = s.chans := rfl
@[simp] theorem setRing_codec (n : Nat) (r : Ring) : (setRing n r s).codec = s.codec := rfl
@[simp] theorem setRing_recov (n : Nat) (r : Ring) : (setRing n r s).recov = s.recov := rfl
@[simp] theorem setRing_luns (n : Nat) (r : Ring) : (setRing n r s).luns = s.luns := rfl
@[simp] theorem setRing_stripe (n : Nat) (r : Ring) : (setRing n r s).stripe = s.stripe := rfl
@[simp] theorem setRing_bg (n : Nat) (r : Ring) : (setRing n r s).bg = s.bg := rfl
@[simp] theorem setRing_media (n : Nat) (r : Ring) : (setRing n r s).media = s.media := rfl
@[simp] theorem setRing_dv (n : Nat) (r : Ring) : (setRing n r s).dv = s.dv := rfl
@[simp] theorem setRing_irq (n : Nat) (r : Ring) : (setRing n r s).irq = s.irq := rfl
@[simp] theorem setRing_evq (n : Nat) (r : Ring) : (setRing n r s).evq = s.evq := rfl
@[simp] theorem setRing_dict (n : Nat) (r : Ring) : (setRing n r s).dict = s.dict := rfl
@[simp] theorem setRing_cab (n : Nat) (r : Ring) : (setRing n r s).cab = s.cab := rfl
@[simp] theorem setRing_sram (n : Nat) (r : Ring) : (setRing n r s).sram = s.sram := rfl
@[simp] theorem setRing_stats (n : Nat) (r : Ring) : (setRing n r s).stats = s.stats := rfl

@[simp] theorem modRing_pending (n : Nat) (f : Ring → Ring) : (modRing n f s).pending = s.pending := rfl
@[simp] theorem modRing_freeCtr (n : Nat) (f : Ring → Ring) : (modRing n f s).freeCtr = s.freeCtr := rfl
@[simp] theorem modRing_now (n : Nat) (f : Ring → Ring) : (modRing n f s).now = s.now := rfl
@[simp] theorem modRing_pins (n : Nat) (f : Ring → Ring) : (modRing n f s).pins = s.pins := rfl
@[simp] theorem modRing_modes (n : Nat) (f : Ring → Ring) : (modRing n f s).modes = s.modes := rfl
@[simp] theorem modRing_sched (n : Nat) (f : Ring → Ring) : (modRing n f s).sched = s.sched := rfl
@[simp] theorem modRing_host (n : Nat) (f : Ring → Ring) : (modRing n f s).host = s.host := rfl
@[simp] theorem modRing_regs (n : Nat) (f : Ring → Ring) : (modRing n f s).regs = s.regs := rfl
@[simp] theorem modRing_rack (n : Nat) (f : Ring → Ring) : (modRing n f s).rack = s.rack := rfl
@[simp] theorem modRing_power (n : Nat) (f : Ring → Ring) : (modRing n f s).power = s.power := rfl
@[simp] theorem modRing_hk (n : Nat) (f : Ring → Ring) : (modRing n f s).hk = s.hk := rfl
@[simp] theorem modRing_storeImage (n : Nat) (f : Ring → Ring) : (modRing n f s).storeImage = s.storeImage := rfl
@[simp] theorem modRing_jigs (n : Nat) (f : Ring → Ring) : (modRing n f s).jigs = s.jigs := rfl
@[simp] theorem modRing_chans (n : Nat) (f : Ring → Ring) : (modRing n f s).chans = s.chans := rfl
@[simp] theorem modRing_codec (n : Nat) (f : Ring → Ring) : (modRing n f s).codec = s.codec := rfl
@[simp] theorem modRing_recov (n : Nat) (f : Ring → Ring) : (modRing n f s).recov = s.recov := rfl
@[simp] theorem modRing_luns (n : Nat) (f : Ring → Ring) : (modRing n f s).luns = s.luns := rfl
@[simp] theorem modRing_stripe (n : Nat) (f : Ring → Ring) : (modRing n f s).stripe = s.stripe := rfl
@[simp] theorem modRing_bg (n : Nat) (f : Ring → Ring) : (modRing n f s).bg = s.bg := rfl
@[simp] theorem modRing_media (n : Nat) (f : Ring → Ring) : (modRing n f s).media = s.media := rfl
@[simp] theorem modRing_dv (n : Nat) (f : Ring → Ring) : (modRing n f s).dv = s.dv := rfl
@[simp] theorem modRing_irq (n : Nat) (f : Ring → Ring) : (modRing n f s).irq = s.irq := rfl
@[simp] theorem modRing_evq (n : Nat) (f : Ring → Ring) : (modRing n f s).evq = s.evq := rfl
@[simp] theorem modRing_dict (n : Nat) (f : Ring → Ring) : (modRing n f s).dict = s.dict := rfl
@[simp] theorem modRing_cab (n : Nat) (f : Ring → Ring) : (modRing n f s).cab = s.cab := rfl
@[simp] theorem modRing_sram (n : Nat) (f : Ring → Ring) : (modRing n f s).sram = s.sram := rfl
@[simp] theorem modRing_stats (n : Nat) (f : Ring → Ring) : (modRing n f s).stats = s.stats := rfl

@[simp] theorem setJig_pending (n : Nat) (j : Jig) : (setJig n j s).pending = s.pending := rfl
@[simp] theorem setJig_freeCtr (n : Nat) (j : Jig) : (setJig n j s).freeCtr = s.freeCtr := rfl
@[simp] theorem setJig_now (n : Nat) (j : Jig) : (setJig n j s).now = s.now := rfl
@[simp] theorem setJig_pins (n : Nat) (j : Jig) : (setJig n j s).pins = s.pins := rfl
@[simp] theorem setJig_modes (n : Nat) (j : Jig) : (setJig n j s).modes = s.modes := rfl
@[simp] theorem setJig_rings (n : Nat) (j : Jig) : (setJig n j s).rings = s.rings := rfl
@[simp] theorem setJig_sched (n : Nat) (j : Jig) : (setJig n j s).sched = s.sched := rfl
@[simp] theorem setJig_host (n : Nat) (j : Jig) : (setJig n j s).host = s.host := rfl
@[simp] theorem setJig_regs (n : Nat) (j : Jig) : (setJig n j s).regs = s.regs := rfl
@[simp] theorem setJig_rack (n : Nat) (j : Jig) : (setJig n j s).rack = s.rack := rfl
@[simp] theorem setJig_power (n : Nat) (j : Jig) : (setJig n j s).power = s.power := rfl
@[simp] theorem setJig_hk (n : Nat) (j : Jig) : (setJig n j s).hk = s.hk := rfl
@[simp] theorem setJig_storeImage (n : Nat) (j : Jig) : (setJig n j s).storeImage = s.storeImage := rfl
@[simp] theorem setJig_chans (n : Nat) (j : Jig) : (setJig n j s).chans = s.chans := rfl
@[simp] theorem setJig_codec (n : Nat) (j : Jig) : (setJig n j s).codec = s.codec := rfl
@[simp] theorem setJig_recov (n : Nat) (j : Jig) : (setJig n j s).recov = s.recov := rfl
@[simp] theorem setJig_luns (n : Nat) (j : Jig) : (setJig n j s).luns = s.luns := rfl
@[simp] theorem setJig_stripe (n : Nat) (j : Jig) : (setJig n j s).stripe = s.stripe := rfl
@[simp] theorem setJig_bg (n : Nat) (j : Jig) : (setJig n j s).bg = s.bg := rfl
@[simp] theorem setJig_media (n : Nat) (j : Jig) : (setJig n j s).media = s.media := rfl
@[simp] theorem setJig_dv (n : Nat) (j : Jig) : (setJig n j s).dv = s.dv := rfl
@[simp] theorem setJig_irq (n : Nat) (j : Jig) : (setJig n j s).irq = s.irq := rfl
@[simp] theorem setJig_evq (n : Nat) (j : Jig) : (setJig n j s).evq = s.evq := rfl
@[simp] theorem setJig_dict (n : Nat) (j : Jig) : (setJig n j s).dict = s.dict := rfl
@[simp] theorem setJig_cab (n : Nat) (j : Jig) : (setJig n j s).cab = s.cab := rfl
@[simp] theorem setJig_sram (n : Nat) (j : Jig) : (setJig n j s).sram = s.sram := rfl
@[simp] theorem setJig_stats (n : Nat) (j : Jig) : (setJig n j s).stats = s.stats := rfl

@[simp] theorem modJig_pending (n : Nat) (f : Jig → Jig) : (modJig n f s).pending = s.pending := rfl
@[simp] theorem modJig_freeCtr (n : Nat) (f : Jig → Jig) : (modJig n f s).freeCtr = s.freeCtr := rfl
@[simp] theorem modJig_now (n : Nat) (f : Jig → Jig) : (modJig n f s).now = s.now := rfl
@[simp] theorem modJig_pins (n : Nat) (f : Jig → Jig) : (modJig n f s).pins = s.pins := rfl
@[simp] theorem modJig_modes (n : Nat) (f : Jig → Jig) : (modJig n f s).modes = s.modes := rfl
@[simp] theorem modJig_rings (n : Nat) (f : Jig → Jig) : (modJig n f s).rings = s.rings := rfl
@[simp] theorem modJig_sched (n : Nat) (f : Jig → Jig) : (modJig n f s).sched = s.sched := rfl
@[simp] theorem modJig_host (n : Nat) (f : Jig → Jig) : (modJig n f s).host = s.host := rfl
@[simp] theorem modJig_regs (n : Nat) (f : Jig → Jig) : (modJig n f s).regs = s.regs := rfl
@[simp] theorem modJig_rack (n : Nat) (f : Jig → Jig) : (modJig n f s).rack = s.rack := rfl
@[simp] theorem modJig_power (n : Nat) (f : Jig → Jig) : (modJig n f s).power = s.power := rfl
@[simp] theorem modJig_hk (n : Nat) (f : Jig → Jig) : (modJig n f s).hk = s.hk := rfl
@[simp] theorem modJig_storeImage (n : Nat) (f : Jig → Jig) : (modJig n f s).storeImage = s.storeImage := rfl
@[simp] theorem modJig_chans (n : Nat) (f : Jig → Jig) : (modJig n f s).chans = s.chans := rfl
@[simp] theorem modJig_codec (n : Nat) (f : Jig → Jig) : (modJig n f s).codec = s.codec := rfl
@[simp] theorem modJig_recov (n : Nat) (f : Jig → Jig) : (modJig n f s).recov = s.recov := rfl
@[simp] theorem modJig_luns (n : Nat) (f : Jig → Jig) : (modJig n f s).luns = s.luns := rfl
@[simp] theorem modJig_stripe (n : Nat) (f : Jig → Jig) : (modJig n f s).stripe = s.stripe := rfl
@[simp] theorem modJig_bg (n : Nat) (f : Jig → Jig) : (modJig n f s).bg = s.bg := rfl
@[simp] theorem modJig_media (n : Nat) (f : Jig → Jig) : (modJig n f s).media = s.media := rfl
@[simp] theorem modJig_dv (n : Nat) (f : Jig → Jig) : (modJig n f s).dv = s.dv := rfl
@[simp] theorem modJig_irq (n : Nat) (f : Jig → Jig) : (modJig n f s).irq = s.irq := rfl
@[simp] theorem modJig_evq (n : Nat) (f : Jig → Jig) : (modJig n f s).evq = s.evq := rfl
@[simp] theorem modJig_dict (n : Nat) (f : Jig → Jig) : (modJig n f s).dict = s.dict := rfl
@[simp] theorem modJig_cab (n : Nat) (f : Jig → Jig) : (modJig n f s).cab = s.cab := rfl
@[simp] theorem modJig_sram (n : Nat) (f : Jig → Jig) : (modJig n f s).sram = s.sram := rfl
@[simp] theorem modJig_stats (n : Nat) (f : Jig → Jig) : (modJig n f s).stats = s.stats := rfl

@[simp] theorem modChan_pending (n : Nat) (f : Chan → Chan) : (modChan n f s).pending = s.pending := rfl
@[simp] theorem modChan_freeCtr (n : Nat) (f : Chan → Chan) : (modChan n f s).freeCtr = s.freeCtr := rfl
@[simp] theorem modChan_now (n : Nat) (f : Chan → Chan) : (modChan n f s).now = s.now := rfl
@[simp] theorem modChan_pins (n : Nat) (f : Chan → Chan) : (modChan n f s).pins = s.pins := rfl
@[simp] theorem modChan_modes (n : Nat) (f : Chan → Chan) : (modChan n f s).modes = s.modes := rfl
@[simp] theorem modChan_rings (n : Nat) (f : Chan → Chan) : (modChan n f s).rings = s.rings := rfl
@[simp] theorem modChan_sched (n : Nat) (f : Chan → Chan) : (modChan n f s).sched = s.sched := rfl
@[simp] theorem modChan_host (n : Nat) (f : Chan → Chan) : (modChan n f s).host = s.host := rfl
@[simp] theorem modChan_regs (n : Nat) (f : Chan → Chan) : (modChan n f s).regs = s.regs := rfl
@[simp] theorem modChan_rack (n : Nat) (f : Chan → Chan) : (modChan n f s).rack = s.rack := rfl
@[simp] theorem modChan_power (n : Nat) (f : Chan → Chan) : (modChan n f s).power = s.power := rfl
@[simp] theorem modChan_hk (n : Nat) (f : Chan → Chan) : (modChan n f s).hk = s.hk := rfl
@[simp] theorem modChan_storeImage (n : Nat) (f : Chan → Chan) : (modChan n f s).storeImage = s.storeImage := rfl
@[simp] theorem modChan_jigs (n : Nat) (f : Chan → Chan) : (modChan n f s).jigs = s.jigs := rfl
@[simp] theorem modChan_codec (n : Nat) (f : Chan → Chan) : (modChan n f s).codec = s.codec := rfl
@[simp] theorem modChan_recov (n : Nat) (f : Chan → Chan) : (modChan n f s).recov = s.recov := rfl
@[simp] theorem modChan_luns (n : Nat) (f : Chan → Chan) : (modChan n f s).luns = s.luns := rfl
@[simp] theorem modChan_stripe (n : Nat) (f : Chan → Chan) : (modChan n f s).stripe = s.stripe := rfl
@[simp] theorem modChan_bg (n : Nat) (f : Chan → Chan) : (modChan n f s).bg = s.bg := rfl
@[simp] theorem modChan_media (n : Nat) (f : Chan → Chan) : (modChan n f s).media = s.media := rfl
@[simp] theorem modChan_dv (n : Nat) (f : Chan → Chan) : (modChan n f s).dv = s.dv := rfl
@[simp] theorem modChan_irq (n : Nat) (f : Chan → Chan) : (modChan n f s).irq = s.irq := rfl
@[simp] theorem modChan_evq (n : Nat) (f : Chan → Chan) : (modChan n f s).evq = s.evq := rfl
@[simp] theorem modChan_dict (n : Nat) (f : Chan → Chan) : (modChan n f s).dict = s.dict := rfl
@[simp] theorem modChan_cab (n : Nat) (f : Chan → Chan) : (modChan n f s).cab = s.cab := rfl
@[simp] theorem modChan_sram (n : Nat) (f : Chan → Chan) : (modChan n f s).sram = s.sram := rfl
@[simp] theorem modChan_stats (n : Nat) (f : Chan → Chan) : (modChan n f s).stats = s.stats := rfl

@[simp] theorem modHead_pending (n : Nat) (f : Head → Head) : (modHead n f s).pending = s.pending := rfl
@[simp] theorem modHead_freeCtr (n : Nat) (f : Head → Head) : (modHead n f s).freeCtr = s.freeCtr := rfl
@[simp] theorem modHead_now (n : Nat) (f : Head → Head) : (modHead n f s).now = s.now := rfl
@[simp] theorem modHead_pins (n : Nat) (f : Head → Head) : (modHead n f s).pins = s.pins := rfl
@[simp] theorem modHead_modes (n : Nat) (f : Head → Head) : (modHead n f s).modes = s.modes := rfl
@[simp] theorem modHead_rings (n : Nat) (f : Head → Head) : (modHead n f s).rings = s.rings := rfl
@[simp] theorem modHead_sched (n : Nat) (f : Head → Head) : (modHead n f s).sched = s.sched := rfl
@[simp] theorem modHead_host (n : Nat) (f : Head → Head) : (modHead n f s).host = s.host := rfl
@[simp] theorem modHead_regs (n : Nat) (f : Head → Head) : (modHead n f s).regs = s.regs := rfl
@[simp] theorem modHead_rack (n : Nat) (f : Head → Head) : (modHead n f s).rack = s.rack := rfl
@[simp] theorem modHead_power (n : Nat) (f : Head → Head) : (modHead n f s).power = s.power := rfl
@[simp] theorem modHead_hk (n : Nat) (f : Head → Head) : (modHead n f s).hk = s.hk := rfl
@[simp] theorem modHead_storeImage (n : Nat) (f : Head → Head) : (modHead n f s).storeImage = s.storeImage := rfl
@[simp] theorem modHead_jigs (n : Nat) (f : Head → Head) : (modHead n f s).jigs = s.jigs := rfl
@[simp] theorem modHead_chans (n : Nat) (f : Head → Head) : (modHead n f s).chans = s.chans := rfl
@[simp] theorem modHead_codec (n : Nat) (f : Head → Head) : (modHead n f s).codec = s.codec := rfl
@[simp] theorem modHead_recov (n : Nat) (f : Head → Head) : (modHead n f s).recov = s.recov := rfl
@[simp] theorem modHead_luns (n : Nat) (f : Head → Head) : (modHead n f s).luns = s.luns := rfl
@[simp] theorem modHead_stripe (n : Nat) (f : Head → Head) : (modHead n f s).stripe = s.stripe := rfl
@[simp] theorem modHead_bg (n : Nat) (f : Head → Head) : (modHead n f s).bg = s.bg := rfl
@[simp] theorem modHead_dv (n : Nat) (f : Head → Head) : (modHead n f s).dv = s.dv := rfl
@[simp] theorem modHead_irq (n : Nat) (f : Head → Head) : (modHead n f s).irq = s.irq := rfl
@[simp] theorem modHead_evq (n : Nat) (f : Head → Head) : (modHead n f s).evq = s.evq := rfl
@[simp] theorem modHead_dict (n : Nat) (f : Head → Head) : (modHead n f s).dict = s.dict := rfl
@[simp] theorem modHead_cab (n : Nat) (f : Head → Head) : (modHead n f s).cab = s.cab := rfl
@[simp] theorem modHead_sram (n : Nat) (f : Head → Head) : (modHead n f s).sram = s.sram := rfl
@[simp] theorem modHead_stats (n : Nat) (f : Head → Head) : (modHead n f s).stats = s.stats := rfl

@[simp] theorem modEntry_pending (e : Nat) (f : Entry → Entry) : (modEntry e f s).pending = s.pending := rfl
@[simp] theorem modEntry_freeCtr (e : Nat) (f : Entry → Entry) : (modEntry e f s).freeCtr = s.freeCtr := rfl
@[simp] theorem modEntry_now (e : Nat) (f : Entry → Entry) : (modEntry e f s).now = s.now := rfl
@[simp] theorem modEntry_pins (e : Nat) (f : Entry → Entry) : (modEntry e f s).pins = s.pins := rfl
@[simp] theorem modEntry_modes (e : Nat) (f : Entry → Entry) : (modEntry e f s).modes = s.modes := rfl
@[simp] theorem modEntry_rings (e : Nat) (f : Entry → Entry) : (modEntry e f s).rings = s.rings := rfl
@[simp] theorem modEntry_host (e : Nat) (f : Entry → Entry) : (modEntry e f s).host = s.host := rfl
@[simp] theorem modEntry_regs (e : Nat) (f : Entry → Entry) : (modEntry e f s).regs = s.regs := rfl
@[simp] theorem modEntry_rack (e : Nat) (f : Entry → Entry) : (modEntry e f s).rack = s.rack := rfl
@[simp] theorem modEntry_power (e : Nat) (f : Entry → Entry) : (modEntry e f s).power = s.power := rfl
@[simp] theorem modEntry_hk (e : Nat) (f : Entry → Entry) : (modEntry e f s).hk = s.hk := rfl
@[simp] theorem modEntry_storeImage (e : Nat) (f : Entry → Entry) : (modEntry e f s).storeImage = s.storeImage := rfl
@[simp] theorem modEntry_jigs (e : Nat) (f : Entry → Entry) : (modEntry e f s).jigs = s.jigs := rfl
@[simp] theorem modEntry_chans (e : Nat) (f : Entry → Entry) : (modEntry e f s).chans = s.chans := rfl
@[simp] theorem modEntry_codec (e : Nat) (f : Entry → Entry) : (modEntry e f s).codec = s.codec := rfl
@[simp] theorem modEntry_recov (e : Nat) (f : Entry → Entry) : (modEntry e f s).recov = s.recov := rfl
@[simp] theorem modEntry_luns (e : Nat) (f : Entry → Entry) : (modEntry e f s).luns = s.luns := rfl
@[simp] theorem modEntry_stripe (e : Nat) (f : Entry → Entry) : (modEntry e f s).stripe = s.stripe := rfl
@[simp] theorem modEntry_bg (e : Nat) (f : Entry → Entry) : (modEntry e f s).bg = s.bg := rfl
@[simp] theorem modEntry_media (e : Nat) (f : Entry → Entry) : (modEntry e f s).media = s.media := rfl
@[simp] theorem modEntry_dv (e : Nat) (f : Entry → Entry) : (modEntry e f s).dv = s.dv := rfl
@[simp] theorem modEntry_irq (e : Nat) (f : Entry → Entry) : (modEntry e f s).irq = s.irq := rfl
@[simp] theorem modEntry_evq (e : Nat) (f : Entry → Entry) : (modEntry e f s).evq = s.evq := rfl
@[simp] theorem modEntry_dict (e : Nat) (f : Entry → Entry) : (modEntry e f s).dict = s.dict := rfl
@[simp] theorem modEntry_cab (e : Nat) (f : Entry → Entry) : (modEntry e f s).cab = s.cab := rfl
@[simp] theorem modEntry_sram (e : Nat) (f : Entry → Entry) : (modEntry e f s).sram = s.sram := rfl
@[simp] theorem modEntry_stats (e : Nat) (f : Entry → Entry) : (modEntry e f s).stats = s.stats := rfl

@[simp] theorem modJob_pending (h : Nat) (f : Job → Job) : (modJob h f s).pending = s.pending := rfl
@[simp] theorem modJob_freeCtr (h : Nat) (f : Job → Job) : (modJob h f s).freeCtr = s.freeCtr := rfl
@[simp] theorem modJob_now (h : Nat) (f : Job → Job) : (modJob h f s).now = s.now := rfl
@[simp] theorem modJob_pins (h : Nat) (f : Job → Job) : (modJob h f s).pins = s.pins := rfl
@[simp] theorem modJob_modes (h : Nat) (f : Job → Job) : (modJob h f s).modes = s.modes := rfl
@[simp] theorem modJob_rings (h : Nat) (f : Job → Job) : (modJob h f s).rings = s.rings := rfl
@[simp] theorem modJob_host (h : Nat) (f : Job → Job) : (modJob h f s).host = s.host := rfl
@[simp] theorem modJob_regs (h : Nat) (f : Job → Job) : (modJob h f s).regs = s.regs := rfl
@[simp] theorem modJob_rack (h : Nat) (f : Job → Job) : (modJob h f s).rack = s.rack := rfl
@[simp] theorem modJob_power (h : Nat) (f : Job → Job) : (modJob h f s).power = s.power := rfl
@[simp] theorem modJob_hk (h : Nat) (f : Job → Job) : (modJob h f s).hk = s.hk := rfl
@[simp] theorem modJob_storeImage (h : Nat) (f : Job → Job) : (modJob h f s).storeImage = s.storeImage := rfl
@[simp] theorem modJob_jigs (h : Nat) (f : Job → Job) : (modJob h f s).jigs = s.jigs := rfl
@[simp] theorem modJob_chans (h : Nat) (f : Job → Job) : (modJob h f s).chans = s.chans := rfl
@[simp] theorem modJob_codec (h : Nat) (f : Job → Job) : (modJob h f s).codec = s.codec := rfl
@[simp] theorem modJob_recov (h : Nat) (f : Job → Job) : (modJob h f s).recov = s.recov := rfl
@[simp] theorem modJob_luns (h : Nat) (f : Job → Job) : (modJob h f s).luns = s.luns := rfl
@[simp] theorem modJob_stripe (h : Nat) (f : Job → Job) : (modJob h f s).stripe = s.stripe := rfl
@[simp] theorem modJob_bg (h : Nat) (f : Job → Job) : (modJob h f s).bg = s.bg := rfl
@[simp] theorem modJob_media (h : Nat) (f : Job → Job) : (modJob h f s).media = s.media := rfl
@[simp] theorem modJob_dv (h : Nat) (f : Job → Job) : (modJob h f s).dv = s.dv := rfl
@[simp] theorem modJob_irq (h : Nat) (f : Job → Job) : (modJob h f s).irq = s.irq := rfl
@[simp] theorem modJob_evq (h : Nat) (f : Job → Job) : (modJob h f s).evq = s.evq := rfl
@[simp] theorem modJob_dict (h : Nat) (f : Job → Job) : (modJob h f s).dict = s.dict := rfl
@[simp] theorem modJob_cab (h : Nat) (f : Job → Job) : (modJob h f s).cab = s.cab := rfl
@[simp] theorem modJob_sram (h : Nat) (f : Job → Job) : (modJob h f s).sram = s.sram := rfl
@[simp] theorem modJob_stats (h : Nat) (f : Job → Job) : (modJob h f s).stats = s.stats := rfl

@[simp] theorem endEntry_pending (e st d c : Nat) : (endEntry e st d c s).pending = s.pending := rfl
@[simp] theorem endEntry_freeCtr (e st d c : Nat) : (endEntry e st d c s).freeCtr = s.freeCtr := rfl
@[simp] theorem endEntry_now (e st d c : Nat) : (endEntry e st d c s).now = s.now := rfl
@[simp] theorem endEntry_pins (e st d c : Nat) : (endEntry e st d c s).pins = s.pins := rfl
@[simp] theorem endEntry_modes (e st d c : Nat) : (endEntry e st d c s).modes = s.modes := rfl
@[simp] theorem endEntry_rings (e st d c : Nat) : (endEntry e st d c s).rings = s.rings := rfl
@[simp] theorem endEntry_host (e st d c : Nat) : (endEntry e st d c s).host = s.host := rfl
@[simp] theorem endEntry_regs (e st d c : Nat) : (endEntry e st d c s).regs = s.regs := rfl
@[simp] theorem endEntry_rack (e st d c : Nat) : (endEntry e st d c s).rack = s.rack := rfl
@[simp] theorem endEntry_power (e st d c : Nat) : (endEntry e st d c s).power = s.power := rfl
@[simp] theorem endEntry_hk (e st d c : Nat) : (endEntry e st d c s).hk = s.hk := rfl
@[simp] theorem endEntry_storeImage (e st d c : Nat) : (endEntry e st d c s).storeImage = s.storeImage := rfl
@[simp] theorem endEntry_jigs (e st d c : Nat) : (endEntry e st d c s).jigs = s.jigs := rfl
@[simp] theorem endEntry_chans (e st d c : Nat) : (endEntry e st d c s).chans = s.chans := rfl
@[simp] theorem endEntry_codec (e st d c : Nat) : (endEntry e st d c s).codec = s.codec := rfl
@[simp] theorem endEntry_recov (e st d c : Nat) : (endEntry e st d c s).recov = s.recov := rfl
@[simp] theorem endEntry_luns (e st d c : Nat) : (endEntry e st d c s).luns = s.luns := rfl
@[simp] theorem endEntry_stripe (e st d c : Nat) : (endEntry e st d c s).stripe = s.stripe := rfl
@[simp] theorem endEntry_bg (e st d c : Nat) : (endEntry e st d c s).bg = s.bg := rfl
@[simp] theorem endEntry_media (e st d c : Nat) : (endEntry e st d c s).media = s.media := rfl
@[simp] theorem endEntry_dv (e st d c : Nat) : (endEntry e st d c s).dv = s.dv := rfl
@[simp] theorem endEntry_irq (e st d c : Nat) : (endEntry e st d c s).irq = s.irq := rfl
@[simp] theorem endEntry_evq (e st d c : Nat) : (endEntry e st d c s).evq = s.evq := rfl
@[simp] theorem endEntry_dict (e st d c : Nat) : (endEntry e st d c s).dict = s.dict := rfl
@[simp] theorem endEntry_cab (e st d c : Nat) : (endEntry e st d c s).cab = s.cab := rfl
@[simp] theorem endEntry_sram (e st d c : Nat) : (endEntry e st d c s).sram = s.sram := rfl
@[simp] theorem endEntry_stats (e st d c : Nat) : (endEntry e st d c s).stats = s.stats := rfl

@[simp] theorem raise_pending (n : Nat) : (raise n s).pending = s.pending := rfl
@[simp] theorem raise_freeCtr (n : Nat) : (raise n s).freeCtr = s.freeCtr := rfl
@[simp] theorem raise_now (n : Nat) : (raise n s).now = s.now := rfl
@[simp] theorem raise_pins (n : Nat) : (raise n s).pins = s.pins := rfl
@[simp] theorem raise_modes (n : Nat) : (raise n s).modes = s.modes := rfl
@[simp] theorem raise_rings (n : Nat) : (raise n s).rings = s.rings := rfl
@[simp] theorem raise_sched (n : Nat) : (raise n s).sched = s.sched := rfl
@[simp] theorem raise_host (n : Nat) : (raise n s).host = s.host := rfl
@[simp] theorem raise_regs (n : Nat) : (raise n s).regs = s.regs := rfl
@[simp] theorem raise_rack (n : Nat) : (raise n s).rack = s.rack := rfl
@[simp] theorem raise_power (n : Nat) : (raise n s).power = s.power := rfl
@[simp] theorem raise_hk (n : Nat) : (raise n s).hk = s.hk := rfl
@[simp] theorem raise_storeImage (n : Nat) : (raise n s).storeImage = s.storeImage := rfl
@[simp] theorem raise_jigs (n : Nat) : (raise n s).jigs = s.jigs := rfl
@[simp] theorem raise_chans (n : Nat) : (raise n s).chans = s.chans := rfl
@[simp] theorem raise_codec (n : Nat) : (raise n s).codec = s.codec := rfl
@[simp] theorem raise_recov (n : Nat) : (raise n s).recov = s.recov := rfl
@[simp] theorem raise_luns (n : Nat) : (raise n s).luns = s.luns := rfl
@[simp] theorem raise_stripe (n : Nat) : (raise n s).stripe = s.stripe := rfl
@[simp] theorem raise_bg (n : Nat) : (raise n s).bg = s.bg := rfl
@[simp] theorem raise_media (n : Nat) : (raise n s).media = s.media := rfl
@[simp] theorem raise_dv (n : Nat) : (raise n s).dv = s.dv := rfl
@[simp] theorem raise_evq (n : Nat) : (raise n s).evq = s.evq := rfl
@[simp] theorem raise_dict (n : Nat) : (raise n s).dict = s.dict := rfl
@[simp] theorem raise_cab (n : Nat) : (raise n s).cab = s.cab := rfl
@[simp] theorem raise_sram (n : Nat) : (raise n s).sram = s.sram := rfl
@[simp] theorem raise_stats (n : Nat) : (raise n s).stats = s.stats := rfl

@[simp] theorem evqLevels_pending : (evqLevels s).pending = s.pending := rfl
@[simp] theorem evqLevels_freeCtr : (evqLevels s).freeCtr = s.freeCtr := rfl
@[simp] theorem evqLevels_now : (evqLevels s).now = s.now := rfl
@[simp] theorem evqLevels_pins : (evqLevels s).pins = s.pins := rfl
@[simp] theorem evqLevels_modes : (evqLevels s).modes = s.modes := rfl
@[simp] theorem evqLevels_rings : (evqLevels s).rings = s.rings := rfl
@[simp] theorem evqLevels_sched : (evqLevels s).sched = s.sched := rfl
@[simp] theorem evqLevels_host : (evqLevels s).host = s.host := rfl
@[simp] theorem evqLevels_regs : (evqLevels s).regs = s.regs := rfl
@[simp] theorem evqLevels_rack : (evqLevels s).rack = s.rack := rfl
@[simp] theorem evqLevels_power : (evqLevels s).power = s.power := rfl
@[simp] theorem evqLevels_hk : (evqLevels s).hk = s.hk := rfl
@[simp] theorem evqLevels_storeImage : (evqLevels s).storeImage = s.storeImage := rfl
@[simp] theorem evqLevels_jigs : (evqLevels s).jigs = s.jigs := rfl
@[simp] theorem evqLevels_chans : (evqLevels s).chans = s.chans := rfl
@[simp] theorem evqLevels_codec : (evqLevels s).codec = s.codec := rfl
@[simp] theorem evqLevels_recov : (evqLevels s).recov = s.recov := rfl
@[simp] theorem evqLevels_luns : (evqLevels s).luns = s.luns := rfl
@[simp] theorem evqLevels_stripe : (evqLevels s).stripe = s.stripe := rfl
@[simp] theorem evqLevels_bg : (evqLevels s).bg = s.bg := rfl
@[simp] theorem evqLevels_media : (evqLevels s).media = s.media := rfl
@[simp] theorem evqLevels_dv : (evqLevels s).dv = s.dv := rfl
@[simp] theorem evqLevels_evq : (evqLevels s).evq = s.evq := rfl
@[simp] theorem evqLevels_dict : (evqLevels s).dict = s.dict := rfl
@[simp] theorem evqLevels_cab : (evqLevels s).cab = s.cab := rfl
@[simp] theorem evqLevels_sram : (evqLevels s).sram = s.sram := rfl
@[simp] theorem evqLevels_stats : (evqLevels s).stats = s.stats := rfl

@[simp] theorem logRecord_pending (b : List Byte) : (logRecord b s).pending = s.pending := rfl
@[simp] theorem logRecord_freeCtr (b : List Byte) : (logRecord b s).freeCtr = s.freeCtr := rfl
@[simp] theorem logRecord_now (b : List Byte) : (logRecord b s).now = s.now := rfl
@[simp] theorem logRecord_pins (b : List Byte) : (logRecord b s).pins = s.pins := rfl
@[simp] theorem logRecord_modes (b : List Byte) : (logRecord b s).modes = s.modes := rfl
@[simp] theorem logRecord_rings (b : List Byte) : (logRecord b s).rings = s.rings := rfl
@[simp] theorem logRecord_sched (b : List Byte) : (logRecord b s).sched = s.sched := rfl
@[simp] theorem logRecord_host (b : List Byte) : (logRecord b s).host = s.host := rfl
@[simp] theorem logRecord_regs (b : List Byte) : (logRecord b s).regs = s.regs := rfl
@[simp] theorem logRecord_rack (b : List Byte) : (logRecord b s).rack = s.rack := rfl
@[simp] theorem logRecord_power (b : List Byte) : (logRecord b s).power = s.power := rfl
@[simp] theorem logRecord_hk (b : List Byte) : (logRecord b s).hk = s.hk := rfl
@[simp] theorem logRecord_storeImage (b : List Byte) : (logRecord b s).storeImage = s.storeImage := rfl
@[simp] theorem logRecord_jigs (b : List Byte) : (logRecord b s).jigs = s.jigs := rfl
@[simp] theorem logRecord_chans (b : List Byte) : (logRecord b s).chans = s.chans := rfl
@[simp] theorem logRecord_codec (b : List Byte) : (logRecord b s).codec = s.codec := rfl
@[simp] theorem logRecord_recov (b : List Byte) : (logRecord b s).recov = s.recov := rfl
@[simp] theorem logRecord_luns (b : List Byte) : (logRecord b s).luns = s.luns := rfl
@[simp] theorem logRecord_stripe (b : List Byte) : (logRecord b s).stripe = s.stripe := rfl
@[simp] theorem logRecord_bg (b : List Byte) : (logRecord b s).bg = s.bg := rfl
@[simp] theorem logRecord_media (b : List Byte) : (logRecord b s).media = s.media := rfl
@[simp] theorem logRecord_dv (b : List Byte) : (logRecord b s).dv = s.dv := rfl
@[simp] theorem logRecord_irq (b : List Byte) : (logRecord b s).irq = s.irq := rfl
@[simp] theorem logRecord_dict (b : List Byte) : (logRecord b s).dict = s.dict := rfl
@[simp] theorem logRecord_cab (b : List Byte) : (logRecord b s).cab = s.cab := rfl
@[simp] theorem logRecord_sram (b : List Byte) : (logRecord b s).sram = s.sram := rfl
@[simp] theorem logRecord_stats (b : List Byte) : (logRecord b s).stats = s.stats := rfl

@[simp] theorem hostWrite_pending (w : HostWhat) (a : Nat) (b : List Byte) : (hostWrite w a b s).pending = s.pending := rfl
@[simp] theorem hostWrite_freeCtr (w : HostWhat) (a : Nat) (b : List Byte) : (hostWrite w a b s).freeCtr = s.freeCtr := rfl
@[simp] theorem hostWrite_now (w : HostWhat) (a : Nat) (b : List Byte) : (hostWrite w a b s).now = s.now := rfl
@[simp] theorem hostWrite_pins (w : HostWhat) (a : Nat) (b : List Byte) : (hostWrite w a b s).pins = s.pins := rfl
@[simp] theorem hostWrite_modes (w : HostWhat) (a : Nat) (b : List Byte) : (hostWrite w a b s).modes = s.modes := rfl
@[simp] theorem hostWrite_rings (w : HostWhat) (a : Nat) (b : List Byte) : (hostWrite w a b s).rings = s.rings := rfl
@[simp] theorem hostWrite_sched (w : HostWhat) (a : Nat) (b : List Byte) : (hostWrite w a b s).sched = s.sched := rfl
@[simp] theorem hostWrite_regs (w : HostWhat) (a : Nat) (b : List Byte) : (hostWrite w a b s).regs = s.regs := rfl
@[simp] theorem hostWrite_rack (w : HostWhat) (a : Nat) (b : List Byte) : (hostWrite w a b s).rack = s.rack := rfl
@[simp] theorem hostWrite_power (w : HostWhat) (a : Nat) (b : List Byte) : (hostWrite w a b s).power = s.power := rfl
@[simp] theorem hostWrite_hk (w : HostWhat) (a : Nat) (b : List Byte) : (hostWrite w a b s).hk = s.hk := rfl
@[simp] theorem hostWrite_storeImage (w : HostWhat) (a : Nat) (b : List Byte) : (hostWrite w a b s).storeImage = s.storeImage := rfl
@[simp] theorem hostWrite_jigs (w : HostWhat) (a : Nat) (b : List Byte) : (hostWrite w a b s).jigs = s.jigs := rfl
@[simp] theorem hostWrite_chans (w : HostWhat) (a : Nat) (b : List Byte) : (hostWrite w a b s).chans = s.chans := rfl
@[simp] theorem hostWrite_codec (w : HostWhat) (a : Nat) (b : List Byte) : (hostWrite w a b s).codec = s.codec := rfl
@[simp] theorem hostWrite_recov (w : HostWhat) (a : Nat) (b : List Byte) : (hostWrite w a b s).recov = s.recov := rfl
@[simp] theorem hostWrite_luns (w : HostWhat) (a : Nat) (b : List Byte) : (hostWrite w a b s).luns = s.luns := rfl
@[simp] theorem hostWrite_stripe (w : HostWhat) (a : Nat) (b : List Byte) : (hostWrite w a b s).stripe = s.stripe := rfl
@[simp] theorem hostWrite_bg (w : HostWhat) (a : Nat) (b : List Byte) : (hostWrite w a b s).bg = s.bg := rfl
@[simp] theorem hostWrite_media (w : HostWhat) (a : Nat) (b : List Byte) : (hostWrite w a b s).media = s.media := rfl
@[simp] theorem hostWrite_dv (w : HostWhat) (a : Nat) (b : List Byte) : (hostWrite w a b s).dv = s.dv := rfl
@[simp] theorem hostWrite_irq (w : HostWhat) (a : Nat) (b : List Byte) : (hostWrite w a b s).irq = s.irq := rfl
@[simp] theorem hostWrite_evq (w : HostWhat) (a : Nat) (b : List Byte) : (hostWrite w a b s).evq = s.evq := rfl
@[simp] theorem hostWrite_dict (w : HostWhat) (a : Nat) (b : List Byte) : (hostWrite w a b s).dict = s.dict := rfl
@[simp] theorem hostWrite_cab (w : HostWhat) (a : Nat) (b : List Byte) : (hostWrite w a b s).cab = s.cab := rfl
@[simp] theorem hostWrite_sram (w : HostWhat) (a : Nat) (b : List Byte) : (hostWrite w a b s).sram = s.sram := rfl
@[simp] theorem hostWrite_stats (w : HostWhat) (a : Nat) (b : List Byte) : (hostWrite w a b s).stats = s.stats := rfl

@[simp] theorem hostReadData_pending (w : HostWhat) (a n : Nat) : (hostReadData w a n s).pending = s.pending := rfl
@[simp] theorem hostReadData_freeCtr (w : HostWhat) (a n : Nat) : (hostReadData w a n s).freeCtr = s.freeCtr := rfl
@[simp] theorem hostReadData_now (w : HostWhat) (a n : Nat) : (hostReadData w a n s).now = s.now := rfl
@[simp] theorem hostReadData_pins (w : HostWhat) (a n : Nat) : (hostReadData w a n s).pins = s.pins := rfl
@[simp] theorem hostReadData_modes (w : HostWhat) (a n : Nat) : (hostReadData w a n s).modes = s.modes := rfl
@[simp] theorem hostReadData_rings (w : HostWhat) (a n : Nat) : (hostReadData w a n s).rings = s.rings := rfl
@[simp] theorem hostReadData_sched (w : HostWhat) (a n : Nat) : (hostReadData w a n s).sched = s.sched := rfl
@[simp] theorem hostReadData_regs (w : HostWhat) (a n : Nat) : (hostReadData w a n s).regs = s.regs := rfl
@[simp] theorem hostReadData_rack (w : HostWhat) (a n : Nat) : (hostReadData w a n s).rack = s.rack := rfl
@[simp] theorem hostReadData_power (w : HostWhat) (a n : Nat) : (hostReadData w a n s).power = s.power := rfl
@[simp] theorem hostReadData_hk (w : HostWhat) (a n : Nat) : (hostReadData w a n s).hk = s.hk := rfl
@[simp] theorem hostReadData_storeImage (w : HostWhat) (a n : Nat) : (hostReadData w a n s).storeImage = s.storeImage := rfl
@[simp] theorem hostReadData_jigs (w : HostWhat) (a n : Nat) : (hostReadData w a n s).jigs = s.jigs := rfl
@[simp] theorem hostReadData_chans (w : HostWhat) (a n : Nat) : (hostReadData w a n s).chans = s.chans := rfl
@[simp] theorem hostReadData_codec (w : HostWhat) (a n : Nat) : (hostReadData w a n s).codec = s.codec := rfl
@[simp] theorem hostReadData_recov (w : HostWhat) (a n : Nat) : (hostReadData w a n s).recov = s.recov := rfl
@[simp] theorem hostReadData_luns (w : HostWhat) (a n : Nat) : (hostReadData w a n s).luns = s.luns := rfl
@[simp] theorem hostReadData_stripe (w : HostWhat) (a n : Nat) : (hostReadData w a n s).stripe = s.stripe := rfl
@[simp] theorem hostReadData_bg (w : HostWhat) (a n : Nat) : (hostReadData w a n s).bg = s.bg := rfl
@[simp] theorem hostReadData_media (w : HostWhat) (a n : Nat) : (hostReadData w a n s).media = s.media := rfl
@[simp] theorem hostReadData_dv (w : HostWhat) (a n : Nat) : (hostReadData w a n s).dv = s.dv := rfl
@[simp] theorem hostReadData_irq (w : HostWhat) (a n : Nat) : (hostReadData w a n s).irq = s.irq := rfl
@[simp] theorem hostReadData_evq (w : HostWhat) (a n : Nat) : (hostReadData w a n s).evq = s.evq := rfl
@[simp] theorem hostReadData_dict (w : HostWhat) (a n : Nat) : (hostReadData w a n s).dict = s.dict := rfl
@[simp] theorem hostReadData_cab (w : HostWhat) (a n : Nat) : (hostReadData w a n s).cab = s.cab := rfl
@[simp] theorem hostReadData_sram (w : HostWhat) (a n : Nat) : (hostReadData w a n s).sram = s.sram := rfl
@[simp] theorem hostReadData_stats (w : HostWhat) (a n : Nat) : (hostReadData w a n s).stats = s.stats := rfl

@[simp] theorem tick_pending : (tick s).pending = s.pending := rfl
@[simp] theorem tick_freeCtr : (tick s).freeCtr = s.freeCtr := rfl
@[simp] theorem tick_pins : (tick s).pins = s.pins := rfl
@[simp] theorem tick_modes : (tick s).modes = s.modes := rfl
@[simp] theorem tick_rings : (tick s).rings = s.rings := rfl
@[simp] theorem tick_sched : (tick s).sched = s.sched := rfl
@[simp] theorem tick_host : (tick s).host = s.host := rfl
@[simp] theorem tick_regs : (tick s).regs = s.regs := rfl
@[simp] theorem tick_rack : (tick s).rack = s.rack := rfl
@[simp] theorem tick_power : (tick s).power = s.power := rfl
@[simp] theorem tick_hk : (tick s).hk = s.hk := rfl
@[simp] theorem tick_storeImage : (tick s).storeImage = s.storeImage := rfl
@[simp] theorem tick_jigs : (tick s).jigs = s.jigs := rfl
@[simp] theorem tick_chans : (tick s).chans = s.chans := rfl
@[simp] theorem tick_codec : (tick s).codec = s.codec := rfl
@[simp] theorem tick_recov : (tick s).recov = s.recov := rfl
@[simp] theorem tick_luns : (tick s).luns = s.luns := rfl
@[simp] theorem tick_stripe : (tick s).stripe = s.stripe := rfl
@[simp] theorem tick_bg : (tick s).bg = s.bg := rfl
@[simp] theorem tick_media : (tick s).media = s.media := rfl
@[simp] theorem tick_dv : (tick s).dv = s.dv := rfl
@[simp] theorem tick_evq : (tick s).evq = s.evq := rfl
@[simp] theorem tick_dict : (tick s).dict = s.dict := rfl
@[simp] theorem tick_cab : (tick s).cab = s.cab := rfl
@[simp] theorem tick_sram : (tick s).sram = s.sram := rfl
@[simp] theorem tick_stats : (tick s).stats = s.stats := rfl

@[simp] theorem takeFree_pending : (takeFree s).2.pending = s.pending := rfl
@[simp] theorem takeFree_now : (takeFree s).2.now = s.now := rfl
@[simp] theorem takeFree_pins : (takeFree s).2.pins = s.pins := rfl
@[simp] theorem takeFree_modes : (takeFree s).2.modes = s.modes := rfl
@[simp] theorem takeFree_rings : (takeFree s).2.rings = s.rings := rfl
@[simp] theorem takeFree_sched : (takeFree s).2.sched = s.sched := rfl
@[simp] theorem takeFree_host : (takeFree s).2.host = s.host := rfl
@[simp] theorem takeFree_regs : (takeFree s).2.regs = s.regs := rfl
@[simp] theorem takeFree_rack : (takeFree s).2.rack = s.rack := rfl
@[simp] theorem takeFree_power : (takeFree s).2.power = s.power := rfl
@[simp] theorem takeFree_hk : (takeFree s).2.hk = s.hk := rfl
@[simp] theorem takeFree_storeImage : (takeFree s).2.storeImage = s.storeImage := rfl
@[simp] theorem takeFree_jigs : (takeFree s).2.jigs = s.jigs := rfl
@[simp] theorem takeFree_chans : (takeFree s).2.chans = s.chans := rfl
@[simp] theorem takeFree_codec : (takeFree s).2.codec = s.codec := rfl
@[simp] theorem takeFree_recov : (takeFree s).2.recov = s.recov := rfl
@[simp] theorem takeFree_luns : (takeFree s).2.luns = s.luns := rfl
@[simp] theorem takeFree_stripe : (takeFree s).2.stripe = s.stripe := rfl
@[simp] theorem takeFree_bg : (takeFree s).2.bg = s.bg := rfl
@[simp] theorem takeFree_media : (takeFree s).2.media = s.media := rfl
@[simp] theorem takeFree_dv : (takeFree s).2.dv = s.dv := rfl
@[simp] theorem takeFree_irq : (takeFree s).2.irq = s.irq := rfl
@[simp] theorem takeFree_evq : (takeFree s).2.evq = s.evq := rfl
@[simp] theorem takeFree_dict : (takeFree s).2.dict = s.dict := rfl
@[simp] theorem takeFree_cab : (takeFree s).2.cab = s.cab := rfl
@[simp] theorem takeFree_sram : (takeFree s).2.sram = s.sram := rfl
@[simp] theorem takeFree_stats : (takeFree s).2.stats = s.stats := rfl

@[simp] theorem modSlot_pending (i : Nat) (f : Slot → Slot) : (modSlot i f s).pending = s.pending := rfl
@[simp] theorem modSlot_freeCtr (i : Nat) (f : Slot → Slot) : (modSlot i f s).freeCtr = s.freeCtr := rfl
@[simp] theorem modSlot_now (i : Nat) (f : Slot → Slot) : (modSlot i f s).now = s.now := rfl
@[simp] theorem modSlot_pins (i : Nat) (f : Slot → Slot) : (modSlot i f s).pins = s.pins := rfl
@[simp] theorem modSlot_modes (i : Nat) (f : Slot → Slot) : (modSlot i f s).modes = s.modes := rfl
@[simp] theorem modSlot_rings (i : Nat) (f : Slot → Slot) : (modSlot i f s).rings = s.rings := rfl
@[simp] theorem modSlot_sched (i : Nat) (f : Slot → Slot) : (modSlot i f s).sched = s.sched := rfl
@[simp] theorem modSlot_host (i : Nat) (f : Slot → Slot) : (modSlot i f s).host = s.host := rfl
@[simp] theorem modSlot_regs (i : Nat) (f : Slot → Slot) : (modSlot i f s).regs = s.regs := rfl
@[simp] theorem modSlot_rack (i : Nat) (f : Slot → Slot) : (modSlot i f s).rack = s.rack := rfl
@[simp] theorem modSlot_power (i : Nat) (f : Slot → Slot) : (modSlot i f s).power = s.power := rfl
@[simp] theorem modSlot_hk (i : Nat) (f : Slot → Slot) : (modSlot i f s).hk = s.hk := rfl
@[simp] theorem modSlot_storeImage (i : Nat) (f : Slot → Slot) : (modSlot i f s).storeImage = s.storeImage := rfl
@[simp] theorem modSlot_jigs (i : Nat) (f : Slot → Slot) : (modSlot i f s).jigs = s.jigs := rfl
@[simp] theorem modSlot_chans (i : Nat) (f : Slot → Slot) : (modSlot i f s).chans = s.chans := rfl
@[simp] theorem modSlot_codec (i : Nat) (f : Slot → Slot) : (modSlot i f s).codec = s.codec := rfl
@[simp] theorem modSlot_recov (i : Nat) (f : Slot → Slot) : (modSlot i f s).recov = s.recov := rfl
@[simp] theorem modSlot_luns (i : Nat) (f : Slot → Slot) : (modSlot i f s).luns = s.luns := rfl
@[simp] theorem modSlot_bg (i : Nat) (f : Slot → Slot) : (modSlot i f s).bg = s.bg := rfl
@[simp] theorem modSlot_media (i : Nat) (f : Slot → Slot) : (modSlot i f s).media = s.media := rfl
@[simp] theorem modSlot_dv (i : Nat) (f : Slot → Slot) : (modSlot i f s).dv = s.dv := rfl
@[simp] theorem modSlot_irq (i : Nat) (f : Slot → Slot) : (modSlot i f s).irq = s.irq := rfl
@[simp] theorem modSlot_evq (i : Nat) (f : Slot → Slot) : (modSlot i f s).evq = s.evq := rfl
@[simp] theorem modSlot_dict (i : Nat) (f : Slot → Slot) : (modSlot i f s).dict = s.dict := rfl
@[simp] theorem modSlot_cab (i : Nat) (f : Slot → Slot) : (modSlot i f s).cab = s.cab := rfl
@[simp] theorem modSlot_sram (i : Nat) (f : Slot → Slot) : (modSlot i f s).sram = s.sram := rfl
@[simp] theorem modSlot_stats (i : Nat) (f : Slot → Slot) : (modSlot i f s).stats = s.stats := rfl

@[simp] theorem modJrnl_pending (f : Jrnl → Jrnl) : (modJrnl f s).pending = s.pending := rfl
@[simp] theorem modJrnl_freeCtr (f : Jrnl → Jrnl) : (modJrnl f s).freeCtr = s.freeCtr := rfl
@[simp] theorem modJrnl_now (f : Jrnl → Jrnl) : (modJrnl f s).now = s.now := rfl
@[simp] theorem modJrnl_pins (f : Jrnl → Jrnl) : (modJrnl f s).pins = s.pins := rfl
@[simp] theorem modJrnl_modes (f : Jrnl → Jrnl) : (modJrnl f s).modes = s.modes := rfl
@[simp] theorem modJrnl_rings (f : Jrnl → Jrnl) : (modJrnl f s).rings = s.rings := rfl
@[simp] theorem modJrnl_sched (f : Jrnl → Jrnl) : (modJrnl f s).sched = s.sched := rfl
@[simp] theorem modJrnl_host (f : Jrnl → Jrnl) : (modJrnl f s).host = s.host := rfl
@[simp] theorem modJrnl_regs (f : Jrnl → Jrnl) : (modJrnl f s).regs = s.regs := rfl
@[simp] theorem modJrnl_rack (f : Jrnl → Jrnl) : (modJrnl f s).rack = s.rack := rfl
@[simp] theorem modJrnl_power (f : Jrnl → Jrnl) : (modJrnl f s).power = s.power := rfl
@[simp] theorem modJrnl_hk (f : Jrnl → Jrnl) : (modJrnl f s).hk = s.hk := rfl
@[simp] theorem modJrnl_storeImage (f : Jrnl → Jrnl) : (modJrnl f s).storeImage = s.storeImage := rfl
@[simp] theorem modJrnl_jigs (f : Jrnl → Jrnl) : (modJrnl f s).jigs = s.jigs := rfl
@[simp] theorem modJrnl_chans (f : Jrnl → Jrnl) : (modJrnl f s).chans = s.chans := rfl
@[simp] theorem modJrnl_codec (f : Jrnl → Jrnl) : (modJrnl f s).codec = s.codec := rfl
@[simp] theorem modJrnl_recov (f : Jrnl → Jrnl) : (modJrnl f s).recov = s.recov := rfl
@[simp] theorem modJrnl_luns (f : Jrnl → Jrnl) : (modJrnl f s).luns = s.luns := rfl
@[simp] theorem modJrnl_bg (f : Jrnl → Jrnl) : (modJrnl f s).bg = s.bg := rfl
@[simp] theorem modJrnl_media (f : Jrnl → Jrnl) : (modJrnl f s).media = s.media := rfl
@[simp] theorem modJrnl_dv (f : Jrnl → Jrnl) : (modJrnl f s).dv = s.dv := rfl
@[simp] theorem modJrnl_irq (f : Jrnl → Jrnl) : (modJrnl f s).irq = s.irq := rfl
@[simp] theorem modJrnl_evq (f : Jrnl → Jrnl) : (modJrnl f s).evq = s.evq := rfl
@[simp] theorem modJrnl_dict (f : Jrnl → Jrnl) : (modJrnl f s).dict = s.dict := rfl
@[simp] theorem modJrnl_cab (f : Jrnl → Jrnl) : (modJrnl f s).cab = s.cab := rfl
@[simp] theorem modJrnl_sram (f : Jrnl → Jrnl) : (modJrnl f s).sram = s.sram := rfl
@[simp] theorem modJrnl_stats (f : Jrnl → Jrnl) : (modJrnl f s).stats = s.stats := rfl

@[simp] theorem modCw_pending (j c : Nat) (f : Cw → Cw) : (modCw j c f s).pending = s.pending := rfl
@[simp] theorem modCw_freeCtr (j c : Nat) (f : Cw → Cw) : (modCw j c f s).freeCtr = s.freeCtr := rfl
@[simp] theorem modCw_now (j c : Nat) (f : Cw → Cw) : (modCw j c f s).now = s.now := rfl
@[simp] theorem modCw_pins (j c : Nat) (f : Cw → Cw) : (modCw j c f s).pins = s.pins := rfl
@[simp] theorem modCw_modes (j c : Nat) (f : Cw → Cw) : (modCw j c f s).modes = s.modes := rfl
@[simp] theorem modCw_rings (j c : Nat) (f : Cw → Cw) : (modCw j c f s).rings = s.rings := rfl
@[simp] theorem modCw_host (j c : Nat) (f : Cw → Cw) : (modCw j c f s).host = s.host := rfl
@[simp] theorem modCw_regs (j c : Nat) (f : Cw → Cw) : (modCw j c f s).regs = s.regs := rfl
@[simp] theorem modCw_rack (j c : Nat) (f : Cw → Cw) : (modCw j c f s).rack = s.rack := rfl
@[simp] theorem modCw_power (j c : Nat) (f : Cw → Cw) : (modCw j c f s).power = s.power := rfl
@[simp] theorem modCw_hk (j c : Nat) (f : Cw → Cw) : (modCw j c f s).hk = s.hk := rfl
@[simp] theorem modCw_storeImage (j c : Nat) (f : Cw → Cw) : (modCw j c f s).storeImage = s.storeImage := rfl
@[simp] theorem modCw_jigs (j c : Nat) (f : Cw → Cw) : (modCw j c f s).jigs = s.jigs := rfl
@[simp] theorem modCw_chans (j c : Nat) (f : Cw → Cw) : (modCw j c f s).chans = s.chans := rfl
@[simp] theorem modCw_codec (j c : Nat) (f : Cw → Cw) : (modCw j c f s).codec = s.codec := rfl
@[simp] theorem modCw_recov (j c : Nat) (f : Cw → Cw) : (modCw j c f s).recov = s.recov := rfl
@[simp] theorem modCw_luns (j c : Nat) (f : Cw → Cw) : (modCw j c f s).luns = s.luns := rfl
@[simp] theorem modCw_stripe (j c : Nat) (f : Cw → Cw) : (modCw j c f s).stripe = s.stripe := rfl
@[simp] theorem modCw_bg (j c : Nat) (f : Cw → Cw) : (modCw j c f s).bg = s.bg := rfl
@[simp] theorem modCw_media (j c : Nat) (f : Cw → Cw) : (modCw j c f s).media = s.media := rfl
@[simp] theorem modCw_dv (j c : Nat) (f : Cw → Cw) : (modCw j c f s).dv = s.dv := rfl
@[simp] theorem modCw_irq (j c : Nat) (f : Cw → Cw) : (modCw j c f s).irq = s.irq := rfl
@[simp] theorem modCw_evq (j c : Nat) (f : Cw → Cw) : (modCw j c f s).evq = s.evq := rfl
@[simp] theorem modCw_dict (j c : Nat) (f : Cw → Cw) : (modCw j c f s).dict = s.dict := rfl
@[simp] theorem modCw_cab (j c : Nat) (f : Cw → Cw) : (modCw j c f s).cab = s.cab := rfl
@[simp] theorem modCw_sram (j c : Nat) (f : Cw → Cw) : (modCw j c f s).sram = s.sram := rfl
@[simp] theorem modCw_stats (j c : Nat) (f : Cw → Cw) : (modCw j c f s).stats = s.stats := rfl

@[simp] theorem modLun_pending (u : Nat) (f : LunRec → LunRec) : (modLun u f s).pending = s.pending := rfl
@[simp] theorem modLun_freeCtr (u : Nat) (f : LunRec → LunRec) : (modLun u f s).freeCtr = s.freeCtr := rfl
@[simp] theorem modLun_now (u : Nat) (f : LunRec → LunRec) : (modLun u f s).now = s.now := rfl
@[simp] theorem modLun_pins (u : Nat) (f : LunRec → LunRec) : (modLun u f s).pins = s.pins := rfl
@[simp] theorem modLun_modes (u : Nat) (f : LunRec → LunRec) : (modLun u f s).modes = s.modes := rfl
@[simp] theorem modLun_rings (u : Nat) (f : LunRec → LunRec) : (modLun u f s).rings = s.rings := rfl
@[simp] theorem modLun_sched (u : Nat) (f : LunRec → LunRec) : (modLun u f s).sched = s.sched := rfl
@[simp] theorem modLun_host (u : Nat) (f : LunRec → LunRec) : (modLun u f s).host = s.host := rfl
@[simp] theorem modLun_regs (u : Nat) (f : LunRec → LunRec) : (modLun u f s).regs = s.regs := rfl
@[simp] theorem modLun_rack (u : Nat) (f : LunRec → LunRec) : (modLun u f s).rack = s.rack := rfl
@[simp] theorem modLun_power (u : Nat) (f : LunRec → LunRec) : (modLun u f s).power = s.power := rfl
@[simp] theorem modLun_hk (u : Nat) (f : LunRec → LunRec) : (modLun u f s).hk = s.hk := rfl
@[simp] theorem modLun_storeImage (u : Nat) (f : LunRec → LunRec) : (modLun u f s).storeImage = s.storeImage := rfl
@[simp] theorem modLun_jigs (u : Nat) (f : LunRec → LunRec) : (modLun u f s).jigs = s.jigs := rfl
@[simp] theorem modLun_chans (u : Nat) (f : LunRec → LunRec) : (modLun u f s).chans = s.chans := rfl
@[simp] theorem modLun_codec (u : Nat) (f : LunRec → LunRec) : (modLun u f s).codec = s.codec := rfl
@[simp] theorem modLun_recov (u : Nat) (f : LunRec → LunRec) : (modLun u f s).recov = s.recov := rfl
@[simp] theorem modLun_stripe (u : Nat) (f : LunRec → LunRec) : (modLun u f s).stripe = s.stripe := rfl
@[simp] theorem modLun_bg (u : Nat) (f : LunRec → LunRec) : (modLun u f s).bg = s.bg := rfl
@[simp] theorem modLun_media (u : Nat) (f : LunRec → LunRec) : (modLun u f s).media = s.media := rfl
@[simp] theorem modLun_dv (u : Nat) (f : LunRec → LunRec) : (modLun u f s).dv = s.dv := rfl
@[simp] theorem modLun_irq (u : Nat) (f : LunRec → LunRec) : (modLun u f s).irq = s.irq := rfl
@[simp] theorem modLun_evq (u : Nat) (f : LunRec → LunRec) : (modLun u f s).evq = s.evq := rfl
@[simp] theorem modLun_dict (u : Nat) (f : LunRec → LunRec) : (modLun u f s).dict = s.dict := rfl
@[simp] theorem modLun_cab (u : Nat) (f : LunRec → LunRec) : (modLun u f s).cab = s.cab := rfl
@[simp] theorem modLun_sram (u : Nat) (f : LunRec → LunRec) : (modLun u f s).sram = s.sram := rfl
@[simp] theorem modLun_stats (u : Nat) (f : LunRec → LunRec) : (modLun u f s).stats = s.stats := rfl

@[simp] theorem modSearch_pending (i : Nat) (f : Search → Search) : (modSearch i f s).pending = s.pending := rfl
@[simp] theorem modSearch_freeCtr (i : Nat) (f : Search → Search) : (modSearch i f s).freeCtr = s.freeCtr := rfl
@[simp] theorem modSearch_now (i : Nat) (f : Search → Search) : (modSearch i f s).now = s.now := rfl
@[simp] theorem modSearch_pins (i : Nat) (f : Search → Search) : (modSearch i f s).pins = s.pins := rfl
@[simp] theorem modSearch_modes (i : Nat) (f : Search → Search) : (modSearch i f s).modes = s.modes := rfl
@[simp] theorem modSearch_rings (i : Nat) (f : Search → Search) : (modSearch i f s).rings = s.rings := rfl
@[simp] theorem modSearch_sched (i : Nat) (f : Search → Search) : (modSearch i f s).sched = s.sched := rfl
@[simp] theorem modSearch_host (i : Nat) (f : Search → Search) : (modSearch i f s).host = s.host := rfl
@[simp] theorem modSearch_regs (i : Nat) (f : Search → Search) : (modSearch i f s).regs = s.regs := rfl
@[simp] theorem modSearch_rack (i : Nat) (f : Search → Search) : (modSearch i f s).rack = s.rack := rfl
@[simp] theorem modSearch_power (i : Nat) (f : Search → Search) : (modSearch i f s).power = s.power := rfl
@[simp] theorem modSearch_hk (i : Nat) (f : Search → Search) : (modSearch i f s).hk = s.hk := rfl
@[simp] theorem modSearch_storeImage (i : Nat) (f : Search → Search) : (modSearch i f s).storeImage = s.storeImage := rfl
@[simp] theorem modSearch_jigs (i : Nat) (f : Search → Search) : (modSearch i f s).jigs = s.jigs := rfl
@[simp] theorem modSearch_chans (i : Nat) (f : Search → Search) : (modSearch i f s).chans = s.chans := rfl
@[simp] theorem modSearch_codec (i : Nat) (f : Search → Search) : (modSearch i f s).codec = s.codec := rfl
@[simp] theorem modSearch_luns (i : Nat) (f : Search → Search) : (modSearch i f s).luns = s.luns := rfl
@[simp] theorem modSearch_stripe (i : Nat) (f : Search → Search) : (modSearch i f s).stripe = s.stripe := rfl
@[simp] theorem modSearch_bg (i : Nat) (f : Search → Search) : (modSearch i f s).bg = s.bg := rfl
@[simp] theorem modSearch_media (i : Nat) (f : Search → Search) : (modSearch i f s).media = s.media := rfl
@[simp] theorem modSearch_dv (i : Nat) (f : Search → Search) : (modSearch i f s).dv = s.dv := rfl
@[simp] theorem modSearch_irq (i : Nat) (f : Search → Search) : (modSearch i f s).irq = s.irq := rfl
@[simp] theorem modSearch_evq (i : Nat) (f : Search → Search) : (modSearch i f s).evq = s.evq := rfl
@[simp] theorem modSearch_dict (i : Nat) (f : Search → Search) : (modSearch i f s).dict = s.dict := rfl
@[simp] theorem modSearch_cab (i : Nat) (f : Search → Search) : (modSearch i f s).cab = s.cab := rfl
@[simp] theorem modSearch_sram (i : Nat) (f : Search → Search) : (modSearch i f s).sram = s.sram := rfl
@[simp] theorem modSearch_stats (i : Nat) (f : Search → Search) : (modSearch i f s).stats = s.stats := rfl

@[simp] theorem modRun_pending (i : Nat) (f : RowRun → RowRun) : (modRun i f s).pending = s.pending := rfl
@[simp] theorem modRun_freeCtr (i : Nat) (f : RowRun → RowRun) : (modRun i f s).freeCtr = s.freeCtr := rfl
@[simp] theorem modRun_now (i : Nat) (f : RowRun → RowRun) : (modRun i f s).now = s.now := rfl
@[simp] theorem modRun_pins (i : Nat) (f : RowRun → RowRun) : (modRun i f s).pins = s.pins := rfl
@[simp] theorem modRun_modes (i : Nat) (f : RowRun → RowRun) : (modRun i f s).modes = s.modes := rfl
@[simp] theorem modRun_rings (i : Nat) (f : RowRun → RowRun) : (modRun i f s).rings = s.rings := rfl
@[simp] theorem modRun_sched (i : Nat) (f : RowRun → RowRun) : (modRun i f s).sched = s.sched := rfl
@[simp] theorem modRun_host (i : Nat) (f : RowRun → RowRun) : (modRun i f s).host = s.host := rfl
@[simp] theorem modRun_regs (i : Nat) (f : RowRun → RowRun) : (modRun i f s).regs = s.regs := rfl
@[simp] theorem modRun_rack (i : Nat) (f : RowRun → RowRun) : (modRun i f s).rack = s.rack := rfl
@[simp] theorem modRun_power (i : Nat) (f : RowRun → RowRun) : (modRun i f s).power = s.power := rfl
@[simp] theorem modRun_hk (i : Nat) (f : RowRun → RowRun) : (modRun i f s).hk = s.hk := rfl
@[simp] theorem modRun_storeImage (i : Nat) (f : RowRun → RowRun) : (modRun i f s).storeImage = s.storeImage := rfl
@[simp] theorem modRun_jigs (i : Nat) (f : RowRun → RowRun) : (modRun i f s).jigs = s.jigs := rfl
@[simp] theorem modRun_chans (i : Nat) (f : RowRun → RowRun) : (modRun i f s).chans = s.chans := rfl
@[simp] theorem modRun_codec (i : Nat) (f : RowRun → RowRun) : (modRun i f s).codec = s.codec := rfl
@[simp] theorem modRun_recov (i : Nat) (f : RowRun → RowRun) : (modRun i f s).recov = s.recov := rfl
@[simp] theorem modRun_luns (i : Nat) (f : RowRun → RowRun) : (modRun i f s).luns = s.luns := rfl
@[simp] theorem modRun_stripe (i : Nat) (f : RowRun → RowRun) : (modRun i f s).stripe = s.stripe := rfl
@[simp] theorem modRun_media (i : Nat) (f : RowRun → RowRun) : (modRun i f s).media = s.media := rfl
@[simp] theorem modRun_dv (i : Nat) (f : RowRun → RowRun) : (modRun i f s).dv = s.dv := rfl
@[simp] theorem modRun_irq (i : Nat) (f : RowRun → RowRun) : (modRun i f s).irq = s.irq := rfl
@[simp] theorem modRun_evq (i : Nat) (f : RowRun → RowRun) : (modRun i f s).evq = s.evq := rfl
@[simp] theorem modRun_dict (i : Nat) (f : RowRun → RowRun) : (modRun i f s).dict = s.dict := rfl
@[simp] theorem modRun_cab (i : Nat) (f : RowRun → RowRun) : (modRun i f s).cab = s.cab := rfl
@[simp] theorem modRun_sram (i : Nat) (f : RowRun → RowRun) : (modRun i f s).sram = s.sram := rfl
@[simp] theorem modRun_stats (i : Nat) (f : RowRun → RowRun) : (modRun i f s).stats = s.stats := rfl

@[simp] theorem takeRow_pending (r : RowRun) : (takeRow r s).pending = s.pending := rfl
@[simp] theorem takeRow_freeCtr (r : RowRun) : (takeRow r s).freeCtr = s.freeCtr := rfl
@[simp] theorem takeRow_now (r : RowRun) : (takeRow r s).now = s.now := rfl
@[simp] theorem takeRow_pins (r : RowRun) : (takeRow r s).pins = s.pins := rfl
@[simp] theorem takeRow_modes (r : RowRun) : (takeRow r s).modes = s.modes := rfl
@[simp] theorem takeRow_rings (r : RowRun) : (takeRow r s).rings = s.rings := rfl
@[simp] theorem takeRow_sched (r : RowRun) : (takeRow r s).sched = s.sched := rfl
@[simp] theorem takeRow_host (r : RowRun) : (takeRow r s).host = s.host := rfl
@[simp] theorem takeRow_regs (r : RowRun) : (takeRow r s).regs = s.regs := rfl
@[simp] theorem takeRow_rack (r : RowRun) : (takeRow r s).rack = s.rack := rfl
@[simp] theorem takeRow_power (r : RowRun) : (takeRow r s).power = s.power := rfl
@[simp] theorem takeRow_hk (r : RowRun) : (takeRow r s).hk = s.hk := rfl
@[simp] theorem takeRow_storeImage (r : RowRun) : (takeRow r s).storeImage = s.storeImage := rfl
@[simp] theorem takeRow_jigs (r : RowRun) : (takeRow r s).jigs = s.jigs := rfl
@[simp] theorem takeRow_chans (r : RowRun) : (takeRow r s).chans = s.chans := rfl
@[simp] theorem takeRow_codec (r : RowRun) : (takeRow r s).codec = s.codec := rfl
@[simp] theorem takeRow_recov (r : RowRun) : (takeRow r s).recov = s.recov := rfl
@[simp] theorem takeRow_luns (r : RowRun) : (takeRow r s).luns = s.luns := rfl
@[simp] theorem takeRow_stripe (r : RowRun) : (takeRow r s).stripe = s.stripe := rfl
@[simp] theorem takeRow_media (r : RowRun) : (takeRow r s).media = s.media := rfl
@[simp] theorem takeRow_dv (r : RowRun) : (takeRow r s).dv = s.dv := rfl
@[simp] theorem takeRow_irq (r : RowRun) : (takeRow r s).irq = s.irq := rfl
@[simp] theorem takeRow_evq (r : RowRun) : (takeRow r s).evq = s.evq := rfl
@[simp] theorem takeRow_dict (r : RowRun) : (takeRow r s).dict = s.dict := rfl
@[simp] theorem takeRow_cab (r : RowRun) : (takeRow r s).cab = s.cab := rfl
@[simp] theorem takeRow_sram (r : RowRun) : (takeRow r s).sram = s.sram := rfl
@[simp] theorem takeRow_stats (r : RowRun) : (takeRow r s).stats = s.stats := rfl

@[simp] theorem modRemote_pending (h : Nat) (f : Remote → Remote) : (modRemote h f s).pending = s.pending := rfl
@[simp] theorem modRemote_freeCtr (h : Nat) (f : Remote → Remote) : (modRemote h f s).freeCtr = s.freeCtr := rfl
@[simp] theorem modRemote_now (h : Nat) (f : Remote → Remote) : (modRemote h f s).now = s.now := rfl
@[simp] theorem modRemote_pins (h : Nat) (f : Remote → Remote) : (modRemote h f s).pins = s.pins := rfl
@[simp] theorem modRemote_modes (h : Nat) (f : Remote → Remote) : (modRemote h f s).modes = s.modes := rfl
@[simp] theorem modRemote_rings (h : Nat) (f : Remote → Remote) : (modRemote h f s).rings = s.rings := rfl
@[simp] theorem modRemote_sched (h : Nat) (f : Remote → Remote) : (modRemote h f s).sched = s.sched := rfl
@[simp] theorem modRemote_host (h : Nat) (f : Remote → Remote) : (modRemote h f s).host = s.host := rfl
@[simp] theorem modRemote_regs (h : Nat) (f : Remote → Remote) : (modRemote h f s).regs = s.regs := rfl
@[simp] theorem modRemote_rack (h : Nat) (f : Remote → Remote) : (modRemote h f s).rack = s.rack := rfl
@[simp] theorem modRemote_power (h : Nat) (f : Remote → Remote) : (modRemote h f s).power = s.power := rfl
@[simp] theorem modRemote_hk (h : Nat) (f : Remote → Remote) : (modRemote h f s).hk = s.hk := rfl
@[simp] theorem modRemote_storeImage (h : Nat) (f : Remote → Remote) : (modRemote h f s).storeImage = s.storeImage := rfl
@[simp] theorem modRemote_jigs (h : Nat) (f : Remote → Remote) : (modRemote h f s).jigs = s.jigs := rfl
@[simp] theorem modRemote_chans (h : Nat) (f : Remote → Remote) : (modRemote h f s).chans = s.chans := rfl
@[simp] theorem modRemote_codec (h : Nat) (f : Remote → Remote) : (modRemote h f s).codec = s.codec := rfl
@[simp] theorem modRemote_recov (h : Nat) (f : Remote → Remote) : (modRemote h f s).recov = s.recov := rfl
@[simp] theorem modRemote_luns (h : Nat) (f : Remote → Remote) : (modRemote h f s).luns = s.luns := rfl
@[simp] theorem modRemote_stripe (h : Nat) (f : Remote → Remote) : (modRemote h f s).stripe = s.stripe := rfl
@[simp] theorem modRemote_bg (h : Nat) (f : Remote → Remote) : (modRemote h f s).bg = s.bg := rfl
@[simp] theorem modRemote_media (h : Nat) (f : Remote → Remote) : (modRemote h f s).media = s.media := rfl
@[simp] theorem modRemote_irq (h : Nat) (f : Remote → Remote) : (modRemote h f s).irq = s.irq := rfl
@[simp] theorem modRemote_evq (h : Nat) (f : Remote → Remote) : (modRemote h f s).evq = s.evq := rfl
@[simp] theorem modRemote_dict (h : Nat) (f : Remote → Remote) : (modRemote h f s).dict = s.dict := rfl
@[simp] theorem modRemote_cab (h : Nat) (f : Remote → Remote) : (modRemote h f s).cab = s.cab := rfl
@[simp] theorem modRemote_sram (h : Nat) (f : Remote → Remote) : (modRemote h f s).sram = s.sram := rfl
@[simp] theorem modRemote_stats (h : Nat) (f : Remote → Remote) : (modRemote h f s).stats = s.stats := rfl


@[simp] theorem modPort_pending (p : Side) (f : Port → Port) : (modPort p f s).pending = s.pending := by cases p <;> rfl
@[simp] theorem modPort_freeCtr (p : Side) (f : Port → Port) : (modPort p f s).freeCtr = s.freeCtr := by cases p <;> rfl
@[simp] theorem modPort_now (p : Side) (f : Port → Port) : (modPort p f s).now = s.now := by cases p <;> rfl
@[simp] theorem modPort_pins (p : Side) (f : Port → Port) : (modPort p f s).pins = s.pins := by cases p <;> rfl
@[simp] theorem modPort_modes (p : Side) (f : Port → Port) : (modPort p f s).modes = s.modes := by cases p <;> rfl
@[simp] theorem modPort_rings (p : Side) (f : Port → Port) : (modPort p f s).rings = s.rings := by cases p <;> rfl
@[simp] theorem modPort_sched (p : Side) (f : Port → Port) : (modPort p f s).sched = s.sched := by cases p <;> rfl
@[simp] theorem modPort_host (p : Side) (f : Port → Port) : (modPort p f s).host = s.host := by cases p <;> rfl
@[simp] theorem modPort_regs (p : Side) (f : Port → Port) : (modPort p f s).regs = s.regs := by cases p <;> rfl
@[simp] theorem modPort_rack (p : Side) (f : Port → Port) : (modPort p f s).rack = s.rack := by cases p <;> rfl
@[simp] theorem modPort_power (p : Side) (f : Port → Port) : (modPort p f s).power = s.power := by cases p <;> rfl
@[simp] theorem modPort_hk (p : Side) (f : Port → Port) : (modPort p f s).hk = s.hk := by cases p <;> rfl
@[simp] theorem modPort_storeImage (p : Side) (f : Port → Port) : (modPort p f s).storeImage = s.storeImage := by cases p <;> rfl
@[simp] theorem modPort_jigs (p : Side) (f : Port → Port) : (modPort p f s).jigs = s.jigs := by cases p <;> rfl
@[simp] theorem modPort_chans (p : Side) (f : Port → Port) : (modPort p f s).chans = s.chans := by cases p <;> rfl
@[simp] theorem modPort_codec (p : Side) (f : Port → Port) : (modPort p f s).codec = s.codec := by cases p <;> rfl
@[simp] theorem modPort_recov (p : Side) (f : Port → Port) : (modPort p f s).recov = s.recov := by cases p <;> rfl
@[simp] theorem modPort_luns (p : Side) (f : Port → Port) : (modPort p f s).luns = s.luns := by cases p <;> rfl
@[simp] theorem modPort_stripe (p : Side) (f : Port → Port) : (modPort p f s).stripe = s.stripe := by cases p <;> rfl
@[simp] theorem modPort_bg (p : Side) (f : Port → Port) : (modPort p f s).bg = s.bg := by cases p <;> rfl
@[simp] theorem modPort_media (p : Side) (f : Port → Port) : (modPort p f s).media = s.media := by cases p <;> rfl
@[simp] theorem modPort_irq (p : Side) (f : Port → Port) : (modPort p f s).irq = s.irq := by cases p <;> rfl
@[simp] theorem modPort_evq (p : Side) (f : Port → Port) : (modPort p f s).evq = s.evq := by cases p <;> rfl
@[simp] theorem modPort_dict (p : Side) (f : Port → Port) : (modPort p f s).dict = s.dict := by cases p <;> rfl
@[simp] theorem modPort_cab (p : Side) (f : Port → Port) : (modPort p f s).cab = s.cab := by cases p <;> rfl
@[simp] theorem modPort_sram (p : Side) (f : Port → Port) : (modPort p f s).sram = s.sram := by cases p <;> rfl
@[simp] theorem modPort_stats (p : Side) (f : Port → Port) : (modPort p f s).stats = s.stats := by cases p <;> rfl

@[simp] theorem touchBinds_pending (is : List Nat) : (touchBinds is s).pending = s.pending := rfl
@[simp] theorem touchBinds_freeCtr (is : List Nat) : (touchBinds is s).freeCtr = s.freeCtr := rfl
@[simp] theorem touchBinds_now (is : List Nat) : (touchBinds is s).now = s.now := rfl
@[simp] theorem touchBinds_pins (is : List Nat) : (touchBinds is s).pins = s.pins := rfl
@[simp] theorem touchBinds_modes (is : List Nat) : (touchBinds is s).modes = s.modes := rfl
@[simp] theorem touchBinds_rings (is : List Nat) : (touchBinds is s).rings = s.rings := rfl
@[simp] theorem touchBinds_sched (is : List Nat) : (touchBinds is s).sched = s.sched := rfl
@[simp] theorem touchBinds_host (is : List Nat) : (touchBinds is s).host = s.host := rfl
@[simp] theorem touchBinds_regs (is : List Nat) : (touchBinds is s).regs = s.regs := rfl
@[simp] theorem touchBinds_rack (is : List Nat) : (touchBinds is s).rack = s.rack := rfl
@[simp] theorem touchBinds_power (is : List Nat) : (touchBinds is s).power = s.power := rfl
@[simp] theorem touchBinds_hk (is : List Nat) : (touchBinds is s).hk = s.hk := rfl
@[simp] theorem touchBinds_storeImage (is : List Nat) : (touchBinds is s).storeImage = s.storeImage := rfl
@[simp] theorem touchBinds_jigs (is : List Nat) : (touchBinds is s).jigs = s.jigs := rfl
@[simp] theorem touchBinds_chans (is : List Nat) : (touchBinds is s).chans = s.chans := rfl
@[simp] theorem touchBinds_codec (is : List Nat) : (touchBinds is s).codec = s.codec := rfl
@[simp] theorem touchBinds_recov (is : List Nat) : (touchBinds is s).recov = s.recov := rfl
@[simp] theorem touchBinds_luns (is : List Nat) : (touchBinds is s).luns = s.luns := rfl
@[simp] theorem touchBinds_bg (is : List Nat) : (touchBinds is s).bg = s.bg := rfl
@[simp] theorem touchBinds_media (is : List Nat) : (touchBinds is s).media = s.media := rfl
@[simp] theorem touchBinds_dv (is : List Nat) : (touchBinds is s).dv = s.dv := rfl
@[simp] theorem touchBinds_irq (is : List Nat) : (touchBinds is s).irq = s.irq := rfl
@[simp] theorem touchBinds_evq (is : List Nat) : (touchBinds is s).evq = s.evq := rfl
@[simp] theorem touchBinds_dict (is : List Nat) : (touchBinds is s).dict = s.dict := rfl
@[simp] theorem touchBinds_cab (is : List Nat) : (touchBinds is s).cab = s.cab := rfl
@[simp] theorem touchBinds_sram (is : List Nat) : (touchBinds is s).sram = s.sram := rfl
@[simp] theorem touchBinds_stats (is : List Nat) : (touchBinds is s).stats = s.stats := rfl

end Sys2Proof.Machine
end

