-- ==== Sys2Proof/Tests/Slice0.lean ====
section
/-!
SUPPORT. Tests of the model: a concrete state for every statement with hypotheses, a command refused for each check of
WellFormed, and worked examples of the spec.
-/
open Sys2Proof Sys2Proof.Machine

/-! ### States of the witnesses -/

namespace Sys2Proof.Test

set_option maxRecDepth 100000
set_option Elab.async false

/-- Reset is over, and the block serves alone. -/
def up : State := { State.reset with
  pins.inReset := false, pins.mediaReady := true, modes.boot := false, modes.mode := .service, modes.lead := true
  modes.stage := 0xB, now := 20000, bg.patrolState := 1 }

/-- The members of a group of width 4, one on each of six channels. -/
def six : List Member := (List.range 6).map (fun i => { lun := 32 * i, block := 40 })

/-- An open group whose rows 0 to 2 are written. -/
def grp : DirEntry :=
  { group := 5, state := 1, width := 4, rows := 1000, nextRow := 3, members := six }

/-- A die table of type 1. -/
def dieForce : List ((Nat × Nat) × List Byte) :=
  [((0x2201, 7), [4]), ((0x2201, 8), le 2 1024), ((0x2201, 9), le 2 1000), ((0x2201, 0xA), le 2 20000), ((0x2201, 0x19), [2])]

/-- Every channel up with one target, the window granted, one open group, every ring active. -/
def work : State := { up with
  chans := List.replicate 16 { up := true, padHold := false, present := 1, dieTypes := [1, 0, 0, 0, 0, 0, 0, 0] }
  jigs := List.replicate 16 { state := .running }
  rings := List.replicate 64 { state := .active, depthLog2 := 4 }
  stripe.granted := true, stripe.dirEntries := 64, stripe.dir := [grp]
  recov.tableValid := [true, false, false, false, false, false, false, false]
  dict.force := dieForce }

/-- An entry of an opcode for group 5, member 0, and row 0. -/
def ent (op : Byte) : Entry := { eid := 1, opcode := op, parts := [{}], group := 5 }

/-- One entry in flight. -/
def holding (e : Entry) (s : State) : State := { s with sched.entries := [e], sched.nextEid := 2 }

/-- The group of `work` with a member failed. -/
def failedGrp : DirEntry := { grp with members := { lun := 0, block := 40, mstate := 1 } :: six.drop 1 }

/-- A group that a change of its entry makes. -/
def withGrp (d : DirEntry) (s : State) : State := { s with stripe.dir := [d] }

/-- A head attached to job 7 and one job bound to rows 0 and 1 of the group. -/
def bound : State := { work with
  stripe.binds := [(0, { group := 5, first := 0, rows := 2, job := 7 })], stripe.bindCache := [0]
  media.heads := { job := some 7 } :: List.replicate 15 {} }

/-- A read job of entry 1 whose one codeword failed at a step. -/
def climb (step : Nat) : State := { holding { ent 2 with phase := .waiting } work with
  sched.jobs := [{ handle := 3, owner := .read 1, lun := 0, block := 40, group := 5, state := .popped }]
  sched.nextJob := 4
  sched.cws := [{ job := 3, eid := some 1, group := 5, cw := 0, state := .failed, step := step, stepOver := true }] }

/-- HOLDUP with its flush done. -/
def held : State := { up with modes.holdup := true, modes.mode := .holdup, pins.holdupDone := true, bg.patrolState := 3 }

/-- Two blocks on a link; this one follows block 1. -/
def follows : State := { work with
  modes.mode := .follower, modes.follower := true, modes.lead := false, modes.leadDie := 1
  dv.size := 2, dv.view := 3, dv.quorum := true, dv.leadKnown := true, dv.east := { up := true, hadPartner := true }
  dv.peers := [(1, true)] }

/-- Two blocks on a link; this one leads. -/
def leads : State := { follows with
  modes.mode := .service, modes.follower := false, modes.lead := true, modes.leadDie := 0, dv.reach := 2 }

/-- The accumulator open to every head, with one fragment of head 0. -/
def accum : State := { work with
  media.accum := 2, media.headsMask := 0xFFFF, media.frags := [{ frag := 3, head := 0, n := 1024, g := 16 }] }

/-- The journal runs on a pair. -/
def jrnl : State := { work with
  stripe.jrnl := { state := 2, lunA := 0, lunB := 32, baseBlock := 10, blocks := 8, pj := 1024, page := 3, jseq := 3
                   pages := 3, anchorValid := true } }

/-- A session of the dictionary port at VENDOR. -/
def vendor : State := { up with dict.port := { level := 2 } }

/-- A mark row whose factory part passes its check. -/
def marked (s : State) : State := { s with cab.mark := [(63, BitVec.ofNat 64 0xFFFFFFFF2FE68632)] }

/-! ### The hypotheses of the statements -/

theorem test_witness_EveryPresentableCommandGoesOn_1 :
    wellFormed (.ringEnable 63) = true ∧ wellFormed (.ringEnable 64) = false := by decide +kernel

theorem test_witness_ForecastIsJudgedAtOnce_1 :
    sbReady up = true ∧ up.modes.holdup = false ∧ fld (0x1800FFFF : Word).toNat 28 4 = 1 ∧ fld (0x1800FFFF : Word).toNat 26 2 ≠ 3 ∧ fld (0x1800FFFF : Word).toNat 0 16 ≠ 0 := by decide +kernel

theorem test_witness_SidebandMessagesAreAcknowledged_1 :
    sbReady up = true ∧ fld (0x20000000 : Word).toNat 28 4 = 2 := by decide +kernel
theorem test_witness_SidebandMessagesAreAcknowledged_2 :
    fld (0x40000000 : Word).toNat 28 4 ≠ 1 ∧ fld (0x40000000 : Word).toNat 28 4 ≠ 2 ∧ fld (0x40000000 : Word).toNat 28 4 ≠ 3 := by decide +kernel
theorem test_witness_SidebandMessagesAreAcknowledged_3 :
    fld (0x1C000001 : Word).toNat 28 4 = 1 ∧ fld (0x1C000001 : Word).toNat 26 2 = 3 := by decide +kernel
theorem test_witness_SidebandMessagesAreAcknowledged_4 :
    fld (0x10000000 : Word).toNat 28 4 = 1 ∧ fld (0x10000000 : Word).toNat 0 16 = 0 := by decide +kernel
theorem test_witness_SidebandMessagesAreAcknowledged_5 :
    sbReady held = true ∧ held.modes.holdup = true ∧ fld (0x10000001 : Word).toNat 28 4 = 1 ∧ fld (0x10000001 : Word).toNat 26 2 ≠ 3 ∧ fld (0x10000001 : Word).toNat 0 16 ≠ 0 := by decide +kernel
theorem test_witness_SidebandMessagesAreAcknowledged_6 :
    ({ up with rack.fcHeld := true } : State).rack.fcHeld = true := by decide +kernel

theorem test_witness_MediaAbortCutsTheHeadsNamed_1 :
    fld (0x30008001 : Word).toNat 28 4 = 3 ∧ sbReady up = true ∧ up.media.inQ = [] ∧ up.media.heads.length = 16 ∧ bitAt (fld (0x30008001 : Word).toNat 0 16) 15 = true ∧ bitAt (fld (0x30008001 : Word).toNat 0 16) 14 = false := by decide +kernel

theorem test_witness_ClampGrantsStayWithinTheBudget_1 :
    (∀ r ∈ ({ up with rack.waiting := [{ who := .xm 15, clamps := 2 }] } : State).rack.waiting, ∀ ch, r.who = .xm ch → r.clamps = 2) ∧ ({ up with rack.waiting := [{ who := .xm 15, clamps := 2 }] } : State).rack.total ≤ budget { up with rack.waiting := [{ who := .xm 15, clamps := 2 }] } := ⟨by intro r hr; simp only [List.mem_singleton] at hr; intros; rw [hr], by decide +kernel⟩

def fw : State := { up with rack.fcWaiting := true, rack.fcClamps := 0x10000 }
theorem test_witness_ClampGrantOrderAndDeferral_1 :
    fw.rack.fcWaiting = true ∧ budget fw < fw.rack.nandHeld + fw.rack.fcClamps ∧ fw.rack.fcDeferred = false := by decide +kernel
def rq : State := { work with rack.waiting := [{ who := .jig 15, lun := 480, clamps := 1 }] }
theorem test_witness_ClampGrantOrderAndDeferral_2 :
    rq.rack.fcWaiting = false ∧ rq.rack.waiting = [{ who := .jig 15, lun := 480, clamps := 1 }] ∧ rq.jigs.length = 16 ∧ rq.power.ovStage = 0 ∧ rq.rack.total + 1 ≤ budget rq ∧ rampSum rq + 1 ≤ cfg 0x3800 4 rq := by decide +kernel
def wr : State := { rq with power.ovStage := 1, jigs := List.replicate 16 { state := .running, j := List.replicate 16 0x20000000 } }
theorem test_witness_ClampGrantOrderAndDeferral_3 :
    wr.rack.fcWaiting = false ∧ wr.power.ovStage ≠ 0 ∧ wr.modes.holdup = false ∧ writeClass wr (.jig 15) = true := by decide +kernel
theorem test_witness_ClampGrantOrderAndDeferral_4 :
    ({ who := .jig 15, lun := 480, clamps := 1 } : RackReq) ∈ rq.rack.waiting ∧ (rq.power.ovStage = 0 ∨ rq.modes.holdup = true ∨ writeClass rq (.jig 15) = false) := by decide +kernel
theorem test_witness_ClampGrantOrderAndDeferral_5 :
    ∀ b ∈ (jigAt 15 rq).busQ, b.code ≠ 4 ∧ b.code ≠ 5 := by decide +kernel

theorem test_witness_DroopAndOvervoltage_1 :
    up.pins.inReset = false ∧ up.modes.standby = false ∧ up.power.ovStage ≠ 2 := by decide +kernel
def ov : State := { up with pins.ovAlert := true, power.ovStage := 1 }
theorem test_witness_DroopAndOvervoltage_2 :
    ov.pins.ovAlert = true ∧ ov.power.ovStage = 1 ∧ ov.pins.inReset = false ∧ ov.power.ovStage ≠ 0 := by decide +kernel
theorem test_witness_DroopAndOvervoltage_3 :
    ({ ov with power.ovStage := 2 } : State).power.ovStage = 2 := by decide +kernel
def eras : Job := { handle := 5, owner := .release 1 0, state := .popped, arrayStarted := true }
def erases : State := { work with pins.ovAlert := true, power.ovStage := 1, sched.jobs := [eras], rack.held := [(0, 0, 1)], dict.force := ((0x2201, 0x0F), [2]) :: dieForce }
theorem test_witness_DroopAndOvervoltage_4 :
    eras ∈ erases.sched.jobs ∧ suspended erases eras = true ∧ eras.abortReq = false ∧ 0 < heldFor eras.ch eras.lun erases ∧ eras.ch < erases.jigs.length := by decide +kernel

theorem test_witness_HoldupBeginsAndEnds_1 :
    up.modes.holdup = false ∧ up.pins.inReset = false := by decide +kernel
def flushed : State := { held with pins.holdupDone := false }
theorem test_witness_HoldupBeginsAndEnds_2 :
    flushed.modes.holdup = true ∧ flushed.pins.holdupDone = false ∧ flushed.power.latchSeq = 0 ∧ flushDone (settle flushed) = true := by decide +kernel

theorem test_witness_HousekeepingRounds_1 :
    up.pins.inReset = false ∧ up.modes.standby = false ∧ ({ up with hk.latchRun := 1 } : State).hk.latchRun.toNat < 2 ∧ ({ up with hk.discardRun := 1 } : State).hk.discardRun < 2 ∧ ({ up with hk.discardRun := 2 } : State).hk.discardRun = 2 := by decide +kernel

theorem test_witness_ThermalLatch_1 :
    ({ up with hk.latchRun := 2 } : State).hk.latchRun.toNat = 2 ∧ 500 ≤ (((List.replicate 23 0 ++ [500] : List (BitVec 16))).getD 23 0).toInt ∧ ({ up with power.latchSeq := 1 } : State).power.latchSeq = 1 := by decide +kernel

theorem test_witness_ResetCausesBeginAReset_1 :
    fld (0xD1AD0001 : Word).toNat 16 16 = 0xD1AD ∧ fld (0xD1AD0001 : Word).toNat 0 4 = 1 ∧ held.modes.holdup = true ∧ up.modes.holdup = false ∧ up.pins.inReset = false ∧ up.pins.powered = true := by decide +kernel

theorem test_witness_ModeCtrlRequests_1 :
    fld (0xD1AC0001 : Word).toNat 16 16 ≠ 0xD1AD ∧ fld (0xD1AD0002 : Word).toNat 16 16 = 0xD1AD ∧ fld (0xD1AD0002 : Word).toNat 0 4 = 2 ∧ up.pins.inReset = false ∧ ({ up with modes.stbyRequested := true } : State).modes.stbyRequested = true := by decide +kernel

def sleep : State := { up with modes.standby := true, modes.mode := .standby }
theorem test_witness_StandbyEntryAndWake_1 :
    standbyReady { up with modes.stbyRequested := true } = true ∧ sleep.pins.inReset = false ∧ sleep.modes.standby = true ∧ sleep.modes.mode = .standby := by decide +kernel
theorem test_witness_StandbyEntryAndWake_2 :
    up.irq.sense.getD 130 0 = 3 ∧ up.irq.input.getD 130 false = false ∧ 130 < up.irq.pend.length ∧ up.modes.standby = false := by decide +kernel

theorem test_witness_BootBeginsAsTheMarkRowSays_1 :
    State.reset.pins.inReset = true ∧ State.reset.pins.powered = true ∧ State.reset.modes.quarantine = false ∧ State.reset.modes.holdup = false ∧ markBlank State.reset = true := by decide +kernel
theorem test_witness_BootBeginsAsTheMarkRowSays_2 :
    ({ State.reset with modes.quarantine := true } : State).modes.quarantine = true := by decide +kernel
theorem test_witness_BootBeginsAsTheMarkRowSays_3 :
    markBlank { State.reset with cab.mark := [(0, 0)] } = false ∧ factoryOk { State.reset with cab.mark := [(0, 0)] } = false := by decide +kernel
theorem test_witness_BootBeginsAsTheMarkRowSays_4 :
    markBlank (marked State.reset) = false ∧ factoryOk (marked State.reset) = true ∧ (marked State.reset).modes.factoryReq = false := by decide +kernel

def boots : State := { up with modes.boot := true, modes.mode := .boot }
theorem test_witness_TrainingStarts_1 :
    boots.power.latchSeq = 0 ∧ (chanAt 15 boots).enabled = true ∧ boots.modes.boot = true ∧ boots.modes.stage = 0xB ∧ boots.modes.bootHot = false ∧ boots.pins.inReset = false ∧ boots.modes.holdup = false ∧ boots.modes.quarantine = false ∧ boots.modes.mode = .boot ∧ boots.modes.factory = false ∧ boots.chans.length = 16 ∧ boots.jigs.length = 16 := by decide +kernel
theorem test_witness_TrainingStarts_2 :
    up.modes.boot = false ∧ up.modes.train = false ∧ ({ up with modes.train := true } : State).modes.train = true := by decide +kernel

theorem test_witness_EntriesWaitTheirTurn_1 :
    entryCommand (.nop 1) = some (1, 0x3F) ∧ ∀ e, ¬ turn up 1 0x3F e := ⟨rfl, fun e h => by have h := h.1; simp [entryAt, up, State.reset] at h⟩

theorem test_witness_RingControl_1 :
    (63 : Nat) < 64 ∧ up.rings.length = 64 ∧ (ringAt 63 up).state = .disabled ∧ (ringAt 63 work).state ≠ .disabled ∧ (ringAt 63 up).depthLog2 = 0 ∧ up.modes.follower = false ∧ up.modes.standby = false ∧ sleep.modes.standby = true := by decide +kernel
theorem test_witness_RingControl_2 :
    (ringAt 0 { work with rings := { state := .error, inflight := 1 } :: List.replicate 63 {} }).inflight ≠ 0 ∧ (ringAt 0 { work with rings := { state := .error } :: List.replicate 63 {} }).state = .error ∧ (ringAt 0 { work with rings := { state := .error } :: List.replicate 63 {} }).inflight = 0 := by decide +kernel
def startRing : State := { work with rings := { depthLog2 := 4, start := 3 } :: List.replicate 63 {} }
theorem test_witness_RingControl_3 :
    (ringAt 0 startRing).state = .disabled ∧ startRing.rings.length = 64 ∧ startRing.modes.follower = false ∧ 4 ≤ (ringAt 0 startRing).depthLog2.toNat ∧ (ringAt 0 startRing).depthLog2.toNat ≤ 16 ∧ (ringAt 0 startRing).start.toNat < (ringAt 0 startRing).depth := by decide +kernel

theorem test_witness_RingFetchTakesTheWinner_1 :
    fetchMode held = false ∧ wrrWinner work = some (0, false) ∧ fetchMode work = true ∧ hostReady work = true ∧ hostReady { work with host.reads := (List.range 256).map (fun k => { tag := k, what := .data 0 0, len := 32 }) } = false := by decide +kernel
def last : State := { work with sched.rrRing := 63 }
theorem test_witness_RingFetchTakesTheWinner_2 :
    wrrWinner last = some (63, false) ∧ fetchMode last = true ∧ hostReady last = true := by decide +kernel
theorem test_witness_RingFetchTakesTheWinner_3 :
    linesOf (ringAt 63 last).headAddr 32 (.ok (0x60 :: zeros 63)) = .ok (0x60 :: zeros 31) ∧ (parseHead (0x60 :: zeros 31)).own = false := by decide +kernel
def nopUnit : List Byte := [0xE0, 0x3F] ++ zeros 30
theorem test_witness_RingFetchTakesTheWinner_4 :
    linesOf (ringAt 63 last).headAddr 32 (.ok (nopUnit ++ zeros 32)) = .ok nopUnit ∧ (parseHead nopUnit).own = true ∧ (parseHead nopUnit).last = true ∧ (ringAt 63 last).chain = none ∧ fld (parseHead nopUnit).byte0.toNat 3 2 = 0 ∧ (ringAt 63 last).head.toNat + (parseHead nopUnit).units ≤ (ringAt 63 last).depth ∧ (parseHead nopUnit).units = 1 ∧ entryFault (ringAt 63 last).priv.toNat none (parseHead nopUnit) [] = none := by decide +kernel
def low : State := { last with rings := List.replicate 63 {} ++ [{ state := .active, depthLog2 := 4, head := 1 }] }
theorem test_witness_RingFetchTakesTheWinner_5 :
    linesOf (ringAt 63 low).headAddr 32 (.ok (zeros 32 ++ nopUnit)) = .ok nopUnit := by decide +kernel
theorem test_witness_RingFetchTakesTheWinner_6 :
    linesOf (ringAt 63 last).headAddr 32 (.ok ([0xE0, 0x3E] ++ zeros 62)) = .ok ([0xE0, 0x3E] ++ zeros 30) ∧ entryFault (ringAt 63 last).priv.toNat none (parseHead ([0xE0, 0x3E] ++ zeros 30)) [] = some 5 ∧ (parseHead ([0xE0, 0x3E] ++ zeros 30)).own = true ∧ fld (parseHead ([0xE0, 0x3E] ++ zeros 30)).byte0.toNat 3 2 = 0 := by decide +kernel

theorem test_witness_RingShutdownEndsTheRing_1 :
    (ringAt 63 up).state = .disabled ∧ (ringAt 63 work).state ≠ .disabled ∧ (ringAt 63 work).state ≠ .shuttingDown ∧ (ringAt 63 work).stopPend = none ∧ ofRing 63 work = [] ∧ (ringAt 63 work).chain = none ∧ (ringAt 63 work).head.toNat + 1 ≤ (ringAt 63 work).depth := by decide +kernel
theorem test_witness_RingShutdownEndsTheRing_2 :
    entryAt 1 (holding (ent 2) work) = some (ent 2) ∧ entryStarted (holding (ent 2) work) (ent 2) = false := by decide +kernel
theorem test_witness_RingShutdownEndsTheRing_3 :
    fetchMode work = true ∧ hostReady work = true ∧ work.sched.entries.length < 2048 ∧ linesOf (ringAt 63 work).headAddr 32 (.ok (nopUnit ++ zeros 32)) = .ok nopUnit ∧ (parseHead nopUnit).own = true ∧ (parseHead nopUnit).last = true ∧ (parseHead nopUnit).units = 1 ∧ fld (parseHead nopUnit).byte0.toNat 3 2 = 0 ∧ entryFault (ringAt 63 work).priv.toNat none (parseHead nopUnit) [] = none := by decide +kernel
def sunk : State := { held with rings := work.rings }
theorem test_witness_RingShutdownEndsTheRing_4 :
    fetchMode sunk = false ∧ sunk.rings.length = 64 ∧ (ringAt 63 sunk).state = .active ∧ (ringAt 63 sunk).stopPend = none ∧ ofRing 63 sunk = [] := by decide +kernel

def done : State := holding { ent 0x3F with phase := .ready } work
theorem test_witness_CompletionsAreWrittenInTwoSteps_1 :
    entryAt 1 done = some { ent 0x3F with phase := .ready } ∧ dataOut 1 done = false ∧ mayComplete { ent 0x3F with phase := .ready } done = true ∧ recordOk { ent 0x3F with phase := .ready } done = true ∧ done.sched.jobs.any (jobOf 1) = false := by decide +kernel
theorem test_witness_CompletionsAreWrittenInTwoSteps_2 :
    (∀ e, entryAt 1 up = some e → e.phase ≠ .ready ∧ e.phase ≠ .writing) ∧ ∀ e, entryAt 1 (settle up) = some e → e.phase ≠ .ready ∧ e.phase ≠ .writing := by constructor <;> (intro e h; first | (rw [show entryAt 1 up = none from rfl] at h; cases h) | (rw [show entryAt 1 (settle up) = none from by decide +kernel] at h; cases h))
def out (w : HostWhat) : State := { holding { ent 0x3F with phase := .writing } work with host.writes := [{ tag := 9, what := w }], host.reads := [{ tag := 8, what := .data 1 0 }] }
theorem test_witness_CompletionsAreWrittenInTwoSteps_3 :
    (out (.compl 1 0)).host.writes.find? (fun x => x.tag == 9) = some { tag := 9, what := .compl 1 0 } ∧ entryAt 1 (out (.compl 1 0)) = some { ent 0x3F with phase := .writing } ∧ (out (.compl 1 0)).rings.length = 64 ∧ (ringAt 0 (out (.compl 1 0))).state ≠ .shuttingDown := by decide +kernel
theorem test_witness_CompletionsAreWrittenInTwoSteps_4 :
    (out (.own 1 0)).host.writes.find? (fun x => x.tag == 9) = some { tag := 9, what := .own 1 0 } ∧ (ent 0x3F).parts.length = 0 + 1 ∧ (out (.own 1 0)).dv.draining = false ∧ (ringAt 0 (out (.own 1 0))).restartPend = false ∧ (ringAt 0 (out (.own 1 0))).stopPend = none ∧ (ent 0x3F).ring < 64 := by decide +kernel
theorem test_witness_CompletionsAreWrittenInTwoSteps_5 :
    (out (.notify 5)).host.writes.find? (fun x => x.tag == 9) = some { tag := 9, what := .notify 5 } ∧ (out (.notify 5)).host.writes.find? (fun x => x.tag == 7) = none := by decide +kernel
theorem test_witness_CompletionsAreWrittenInTwoSteps_6 :
    (out (.notify 5)).host.reads.find? (fun x => x.tag == 8) = some { tag := 8, what := .data 1 0 } ∧ (out (.notify 5)).host.stalled = [] ∧ (out (.notify 5)).host.rstalled = [] := by decide +kernel
def fetches : State := { holding { ent 1 with phase := .waiting, accepted := true } work with host.reads := [{ tag := 8, what := .data 1 0 }] }
theorem test_witness_CompletionsAreWrittenInTwoSteps_7 :
    fetches.host.reads.find? (fun x => x.tag == 8) = some { tag := 8, what := .data 1 0 } ∧ entryAt 1 fetches = some { ent 1 with phase := .waiting, accepted := true } := by decide +kernel

def none5 (op : Byte) : State := holding (ent op) (withGrp { grp with group := 6 } work)
def one5 (op : Byte) : State := holding (ent op) work
def fence5 (op : Byte) : State := { one5 op with modes.fenceOv := true }
def bind5 (op : Byte) : State := { one5 op with stripe.binds := [(0, { group := 5, first := 0, rows := 4, job := 7 })], stripe.dir := [{ grp with boundRows := true }] }
theorem test_witness_RefusalsAtDispatch_1 :
    turn (none5 3) 1 3 (ent 3) ∧ groupServes 5 (looked (ent 3) (none5 3)) = false := by unfold turn; decide +kernel
def src5 : State := { one5 3 with stripe.dir := [{ grp with refitSource := true }], bg.refitState := 1 }
theorem test_witness_RefusalsAtDispatch_2 :
    turn src5 1 3 (ent 3) ∧ groupServes 5 (looked (ent 3) src5) = true ∧ (dirAt 5 src5).refitSource = true ∧ src5.bg.refitState ≠ 0 := by unfold turn; decide +kernel
theorem test_witness_RefusalsAtDispatch_3 :
    turn (fence5 3) 1 3 (ent 3) ∧ groupServes 5 (looked (ent 3) (fence5 3)) = true ∧ (fence5 3).bg.refitState = 0 ∧ groupReachable 5 (looked (ent 3) (fence5 3)) = true ∧ (fence5 3).modes.wfence = true := by unfold turn; decide +kernel
theorem test_witness_RefusalsAtDispatch_4 :
    turn (bind5 3) 1 3 (ent 3) ∧ groupServes 5 (looked (ent 3) (bind5 3)) = true ∧ (bind5 3).modes.wfence = false ∧ groupBound 5 (bind5 3) = true := by unfold turn; decide +kernel
theorem test_witness_RefusalsAtDispatch_5 :
    turn (none5 4) 1 4 (ent 4) ∧ groupExists 5 (looked (ent 4) (none5 4)) = false := by unfold turn; decide +kernel
theorem test_witness_RefusalsAtDispatch_6 :
    turn (none5 5) 1 5 (ent 5) ∧ bindCheck (ent 5) (looked (ent 5) (none5 5)) = some (0x21, 1) := by unfold turn; decide +kernel
theorem test_witness_RefusalsAtDispatch_7 :
    turn (one5 6) 1 6 (ent 6) ∧ (∀ r ∈ (ent 6).ranges, groupExists r.1 (looked (ent 6) (one5 6)) = true) ∧ (ringAt 0 (one5 6)).priv = 0 := by unfold turn; decide +kernel
theorem test_witness_RefusalsAtDispatch_8 :
    turn (one5 0x20) 1 0x20 (ent 0x20) ∧ idFree 5 (looked (ent 0x20) (one5 0x20)) = false := by unfold turn; decide +kernel
def opens (ds : List (BitVec 128)) : Entry := { ent 0x20 with length := BitVec.ofNat 32 ds.length, elements := ds }
def desc (l : Nat) : BitVec 128 := BitVec.ofNat 128 (l + 41 * 2 ^ 32)
def opening (e : Entry) : State := { holding e work with stripe.dir := [] }
theorem test_witness_RefusalsAtDispatch_9 :
    turn (opening (opens [desc 0, desc 0])) 1 0x20 (opens [desc 0, desc 0]) ∧ idFree 5 (looked (opens [desc 0, desc 0]) (opening (opens [desc 0, desc 0]))) = true ∧ membersCheck (openMembers (opens [desc 0, desc 0])) (openProfile (opens [desc 0, desc 0])) (looked (opens [desc 0, desc 0]) (opening (opens [desc 0, desc 0]))) = some (0x21, 5) := by unfold turn; decide +kernel
def four : Entry := opens [desc 0, desc 32, desc 64, desc 96]
def overBound : State := { opening four with stripe.dir := [{ grp with group := 6, boundRows := true, members := [{ lun := 0, block := 41 }] }] }
theorem test_witness_RefusalsAtDispatch_10 :
    turn overBound 1 0x20 four ∧ idFree 5 (looked four overBound) = true ∧ membersCheck (openMembers four) (openProfile four) (looked four overBound) = none ∧ overBound.modes.wfence = false ∧ boundBlocks (openMembers four) overBound = true := by unfold turn; decide +kernel
theorem test_witness_RefusalsAtDispatch_11 :
    turn (none5 0x21) 1 0x21 (ent 0x21) ∧ groupExists 5 (looked (ent 0x21) (none5 0x21)) = false := by unfold turn; decide +kernel
theorem test_witness_RefusalsAtDispatch_12 :
    turn (fence5 0x21) 1 0x21 (ent 0x21) ∧ groupExists 5 (looked (ent 0x21) (fence5 0x21)) = true ∧ (fence5 0x21).modes.wfence = true := by unfold turn; decide +kernel
theorem test_witness_RefusalsAtDispatch_13 :
    turn (one5 0x22) 1 0x22 (ent 0x22) ∧ groupExists 5 (looked (ent 0x22) (one5 0x22)) = true ∧ concerned 5 0 (looked (ent 0x22) (one5 0x22)) = [] := by unfold turn; decide +kernel
theorem test_witness_RefusalsAtDispatch_14 :
    turn (one5 0x23) 1 0x23 (ent 0x23) := by unfold turn; decide +kernel
theorem test_witness_RefusalsAtDispatch_15 :
    turn { one5 0x30 with media.accum := 1 } 1 0x30 (ent 0x30) ∧ ({ one5 0x30 with media.accum := 1 } : State).media.accum ≠ 0 ∧ turn (one5 0x31) 1 0x31 (ent 0x31) ∧ (one5 0x31).media.accum ≠ 2 := by unfold turn; decide +kernel
def far : State := { one5 0x10 with modes.dieId := 1 }
theorem test_witness_RefusalsAtDispatch_16 :
    turn far 1 0x10 (ent 0x10) ∧ reachable ((ent 0x10).group.toNat % 128 * 32) far = false := by unfold turn; decide +kernel
def listed (op : Byte) : Entry := { ent op with options := 4, length := 2, addr := 0x1000 }
theorem test_witness_RefusalsAtDispatch_17 :
    turn (holding (listed 2) work) 1 2 (listed 2) ∧ entryPieces (listed 2) (listLines (listed 2).addr.toNat [.err]) = .fabric ∧ turn (holding (listed 1) work) 1 1 (listed 1) ∧ entryPieces (listed 1) (listLines (listed 1).addr.toNat [.err]) = .fabric := by unfold turn; decide +kernel
def wrote : Entry := { ent 1 with length := 16 }
theorem test_witness_RefusalsAtDispatch_18 :
    turn (holding wrote (withGrp { grp with group := 6 } work)) 1 1 wrote ∧ entryPieces wrote (listLines 0 []) = .ok [(0, 65536)] ∧ wrote.member ≠ 0xFF ∧ groupServes 5 (looked wrote (holding wrote (withGrp { grp with group := 6 } work))) = false := by unfold turn; decide +kernel
def wide : Entry := { wrote with member := 4 }
theorem test_witness_RefusalsAtDispatch_19 :
    turn (holding wide work) 1 1 wide ∧ entryPieces wide (listLines 0 []) = .ok [(0, 65536)] ∧ groupServes 5 (looked wide (holding wide work)) = true ∧ (dirAt 5 (holding wide work)).width ≤ wide.member.toNat := by unfold turn; decide +kernel
theorem test_witness_RefusalsAtDispatch_20 :
    turn (holding wrote { work with modes.fenceOv := true }) 1 1 wrote ∧ wrote.member.toNat < (dirAt 5 work).width ∧ groupReachable 5 (looked wrote (holding wrote { work with modes.fenceOv := true })) = true := by unfold turn; decide +kernel
theorem test_witness_RefusalsAtDispatch_21 :
    turn (holding wrote bound) 1 1 wrote ∧ rowBound 5 0 (holding wrote bound) = true ∧ bound.modes.wfence = false ∧ groupServes 5 (looked wrote (holding wrote bound)) = true := by unfold turn; decide +kernel
theorem test_witness_RefusalsAtDispatch_22 :
    turn (holding wrote work) 1 1 wrote ∧ rowBound 5 0 (holding wrote work) = false ∧ (dirAt 5 (holding wrote work)).state = 1 ∧ wrote.row.toNat ≠ (dirAt 5 (holding wrote work)).nextRow ∧ groupServes 5 (looked wrote (holding wrote work)) = true := by unfold turn; decide +kernel

theorem test_witness_GroupEntriesBegin_1 :
    turn (one5 3) 1 3 (ent 3) ∧ groupServes 5 (looked (ent 3) (one5 3)) = true ∧ (one5 3).bg.refitState = 0 ∧ groupReachable 5 (looked (ent 3) (one5 3)) = true ∧ (one5 3).modes.wfence = false ∧ groupBound 5 (one5 3) = false ∧ (one5 3).modes.follower = false := by unfold turn; decide +kernel
theorem test_witness_GroupEntriesBegin_2 :
    turn (one5 4) 1 4 (ent 4) ∧ groupExists 5 (looked (ent 4) (one5 4)) = true := by unfold turn; decide +kernel
theorem test_witness_GroupEntriesBegin_3 :
    turn (opening four) 1 0x20 four ∧ idFree 5 (looked four (opening four)) = true ∧ membersCheck (openMembers four) (openProfile four) (looked four (opening four)) = none ∧ (opening four).modes.wfence = false ∧ boundBlocks (openMembers four) (opening four) = false := by unfold turn; decide +kernel
theorem test_witness_GroupEntriesBegin_4 :
    turn (one5 0x21) 1 0x21 (ent 0x21) ∧ groupExists 5 (looked (ent 0x21) (one5 0x21)) = true ∧ (one5 0x21).modes.wfence = false ∧ turn (one5 0x3F) 1 0x3F (ent 0x3F) := by unfold turn; decide +kernel
theorem test_witness_GroupEntriesBegin_5 :
    (∀ p ∈ before (one5 4) (ent 4), writesGroup p.opcode.toNat = false) ∧ openRecord 5 (one5 4) = none ∧ (ent 4).recWait = none := by decide +kernel
def writer : Entry := { wrote with phase := .waiting, accepted := true }
def late : Entry := { ent 4 with eid := 2 }
def two4 : State := { work with sched.entries := [writer, late], sched.nextEid := 3 }
theorem test_witness_GroupEntriesBegin_6 :
    turn two4 2 4 late ∧ groupExists 5 (looked late two4) = true ∧ writer ∈ before two4 late ∧ writesGroup writer.opcode.toNat = true ∧ 5 ∈ groupsOf writer := by unfold turn; decide +kernel

def spare : List ((Nat × Nat) × List Byte) := [((0x2902, 1), le 8 (192 + 50 * 2 ^ 16 + 100 * 2 ^ 32))]
def rb : State := { holding (ent 0x22) (withGrp failedGrp work) with dict.saved := spare, dict.force := spare ++ dieForce }
theorem test_witness_BackgroundEntriesBegin_1 :
    turn rb 1 0x22 (ent 0x22) ∧ groupExists 5 (looked (ent 0x22) rb) = true ∧ concerned 5 0 (looked (ent 0x22) rb) ≠ [] ∧ (none : Option Nat) = (if bitAt (ent 0x22).options.toNat 47 = true then some (fld (ent 0x22).options.toNat 32 12) else none) ∧ pickSpare none (concerned 5 0 (looked (ent 0x22) rb)) (looked (ent 0x22) rb) = some 0 ∧ rb.bg.queue.length ≤ 4 ∧ rb.modes.wfence = false := by unfold turn; decide +kernel
def planBytes : List Byte := le 4 0x0D1A2EF1 ++ le 4 9 ++ [1, 1] ++ zeros 54 ++ le 4 5 ++ zeros 444 ++ (le 3 7 ++ [0, 3, 0, 0, 0]) ++ (List.range 5).flatMap (fun i => le 4 (32 * i + 41 * 2 ^ 16)) ++ zeros 120 ++ zeros (4096 - 512 - 8 - 20 - 120)
def planEnt : Entry := { ent 0x23 with length := 1 }
def planOf : Plan := (parsePlan (padTo 4096 planBytes) 1).getD { id := 0, sources := [], targets := [] }
theorem test_witness_BackgroundEntriesBegin_2 :
    turn (holding planEnt work) 1 0x23 planEnt ∧ linesOf planEnt.addr.toNat (4096 * planEnt.length.toNat) (.ok planBytes) = .ok planBytes ∧ parsePlan (padTo (4096 * planEnt.length.toNat) planBytes) planEnt.length.toNat = some planOf ∧ planCheck planOf (looked planEnt (holding planEnt work)) = none ∧ work.modes.wfence = false := by unfold turn; decide +kernel
def patrols (a : Nat) : Entry := { ent 0x24 with options := BitVec.ofNat 64 (256 * a) }
theorem test_witness_BackgroundEntriesBegin_3 :
    turn (holding (patrols 0) work) 1 0x24 (patrols 0) ∧ turn (holding (patrols 3) work) 1 0x24 (patrols 3) ∧ [0, 1, 2, 3].all (fun a => fld (patrols a).options.toNat 8 2 == a) = true := by unfold turn; decide +kernel
theorem test_witness_BackgroundEntriesBegin_4 :
    turn (one5 0x10) 1 0x10 (ent 0x10) ∧ reachable ((ent 0x10).group.toNat % 128 * 32) (one5 0x10) = true ∧ (chanAt (lunChan ((ent 0x10).group.toNat % 128 * 32)) (one5 0x10)).up = true ∧ (ent 0x10).row.toNat % 2048 < 0x600 ∧ (one5 0x10).modes.wfence = false ∧ (if (ent 0x10).length = 0 then HostRead.ok [] else linesOf (ent 0x10).addr.toNat (4096 * (ent 0x10).length.toNat) .err) = .ok [] := by unfold turn; decide +kernel

def row3 : Entry := { wrote with row := 3 }
theorem test_witness_WriteRowIsAccepted_1 :
    turn (holding row3 work) 1 1 row3 ∧ entryPieces row3 (listLines row3.addr.toNat []) = .ok [(0, 65536)] ∧ row3.member ≠ 0xFF ∧ groupServes 5 (looked row3 (holding row3 work)) = true ∧ writeCheck row3 (looked row3 (holding row3 work)) = none ∧ needsSlot row3 (holding row3 work) = false := by unfold turn; decide +kernel
def noSlot : State := { holding row3 work with stripe.slots := List.replicate 32 { state := .filling, group := 6 } }
theorem test_witness_WriteRowIsAccepted_2 :
    turn noSlot 1 1 row3 ∧ writeCheck row3 (looked row3 noSlot) = none ∧ needsSlot row3 noSlot = true := by unfold turn; decide +kernel
def waits : Entry := { row3 with phase := .waiting }
theorem test_witness_WriteRowIsAccepted_3 :
    entryAt 1 (holding waits work) = some waits ∧ slotWaits waits = true ∧ waits.member ≠ 0xFF ∧ (∀ x ∈ before (holding waits work) waits, slotWaits x = false) ∧ freeSlot 5 (holding waits work) ≠ none ∧ groupServes 5 (holding waits work) = true ∧ writeCheck waits (holding waits work) = none ∧ waits.slotWaited = false := by decide +kernel
theorem test_witness_WriteRowIsAccepted_4 :
    ∀ e, entryAt 1 (holding row3 work) = some e → slotWaits e = false := by intro e h; rw [show entryAt 1 (holding row3 work) = some row3 from by decide +kernel] at h; cases h; decide +kernel
def staged : Entry := { row3 with phase := .waiting, accepted := true, members := [0], stage := [(0, 31)] }
theorem test_witness_WriteRowIsAccepted_5 :
    entryAt 1 (holding staged work) = some staged ∧ staged.stage.lookup 0 = some 31 ∧ staged.opcode = 1 ∧ staged.hostErr = false ∧ 0 ∈ staged.members ∧ (0, 15) ∉ staged.arrived ∧ slotRead 1 (16 * 31 + 15) (holding staged work) = true := by decide +kernel
def whole4 : Entry := { row3 with member := 0xFF, length := 64 }
theorem test_witness_WriteRowIsAccepted_6 :
    turn (holding whole4 work) 1 1 whole4 ∧ entryPieces whole4 (listLines whole4.addr.toNat []) = .ok [(0, 262144)] ∧ groupServes 5 (looked whole4 (holding whole4 work)) = true ∧ whole4.length.toNat = 16 * (dirAt 5 (holding whole4 work)).width ∧ writeCheck whole4 (looked whole4 (holding whole4 work)) = none ∧ needsSlot whole4 (holding whole4 work) = false := by unfold turn; decide +kernel

def reads : Entry := { ent 2 with cwMask := 0xFF, length := 16 }
theorem test_witness_ReadBegins_1 :
    turn (holding reads work) 1 2 reads ∧ (holding reads work).sched.entries = [reads] ∧ entryPieces reads (listLines reads.addr.toNat []) = .ok [(0, 65536)] ∧ reads.member ≠ 0xFF ∧ groupServes 5 (looked reads (holding reads work)) = true ∧ readCheck reads (looked reads (holding reads work)) = none ∧ reads.selected ≠ [] ∧ bitAt (rowMask 5 0 (holding reads work)) 0 = true ∧ (∀ c ∈ reads.selected, inLedger 5 0 0 c (holding reads work) = false) ∧ memberGone 5 0 0 (holding reads work) = false ∧ findLanding (holding reads work) reads.selected.length = some 0 := by unfold turn; decide +kernel

def binds : Entry := { ent 5 with length := 3, options := 7 * 2 ^ 32 }
theorem test_witness_BindTableChanges_1 :
    turn (holding binds work) 1 5 binds ∧ binds.ranges = [(5, 0, 3)] ∧ bindCheck binds (looked binds (holding binds work)) = none ∧ 1 ≤ bindsFree (holding binds work) ∧ freeBind (holding binds work) = some 0 ∧ bindsOf 5 binds.job (holding binds work) = [] := by unfold turn; decide +kernel
def heldBind : State := holding { binds with phase := .waiting, reserved := 1 } work
theorem test_witness_BindTableChanges_2 :
    heldBind.sched.entries.find? (fun x => bindWaiting x && decide (bindNeed x heldBind ≤ bindsFree heldBind)) = some { binds with phase := .waiting, reserved := 1 } ∧ bindWaiting { binds with phase := .waiting, reserved := 1 } = true ∧ ({ binds with phase := .waiting, reserved := 1 } : Entry).bindWaited = false ∧ entryAt 1 heldBind = some { binds with phase := .waiting, reserved := 1 } := by decide +kernel
theorem test_witness_BindTableChanges_3 :
    ∀ x ∈ work.sched.entries, bindWaiting x = false := by decide +kernel
def force : Entry := { ent 6 with length := 2, options := 7 * 2 ^ 32 + 128 }
def forced : State := { holding force bound with rings := { state := .active, priv := 1 } :: List.replicate 63 {} }
theorem test_witness_BindTableChanges_4 :
    turn forced 1 6 force ∧ force.ranges = [(5, 0, 2)] ∧ groupExists 5 (looked force forced) = true ∧ (ringAt 0 forced).priv ≠ 0 ∧ bitAt force.options.toNat 7 = true ∧ (bindsOf 5 force.job forced).filter (fun p => p.2.shared 0 2 != 0) = [(0, { group := 5, first := 0, rows := 2, job := 7 })] := by unfold turn; decide +kernel
def tabled (n : Nat) : State := { holding binds work with stripe.binds := List.replicate n (0, { group := 6, first := 0, rows := 1, job := 9 }) }
theorem test_witness_BindTableChanges_5 :
    ∀ n, turn (tabled n) 1 5 binds := fun n => have hb : bindsNear 5 0 3 (tabled n) = [] := (by unfold bindsNear; rw [List.filter_eq_nil_iff.mpr (fun p hp => by rw [(List.mem_replicate.mp hp).2]; decide)]; rfl); ⟨rfl, rfl, (by unfold mayDispatch dirWaits bindsWait; rw [show bindLookups binds = [(5, 0, 3)] from by decide +kernel, List.any_cons, hb]; rfl), .inr rfl⟩
theorem test_witness_BindTableChanges_6 :
    ∀ n, bindCheck binds (looked binds (tabled n)) = none := fun _ => rfl
theorem test_witness_BindTableChanges_7 :
    ∀ n, bindsFree (tabled n) = 65536 - n := fun n => congrArg (fun k => bindEntries - k) (List.length_replicate (n := n))
theorem test_witness_BindTableChanges_8 :
    65536 - 65536 < binds.ranges.length := by decide +kernel

theorem test_witness_AccumulatorOpensAndReturns_1 :
    turn (one5 0x30) 1 0x30 (ent 0x30) ∧ (one5 0x30).media.accum = 0 ∧ otherBlocks (one5 0x30) = 0 ∧ linesOf (ent 0x30).addr.toNat 128 (.ok (zeros 128)) = .ok (zeros 128) := by unfold turn; decide +kernel
def led (op : Byte) : State := holding (ent op) leads
theorem test_witness_AccumulatorOpensAndReturns_2 :
    turn (led 0x30) 1 0x30 (ent 0x30) ∧ (led 0x30).media.accum = 0 ∧ otherBlocks (led 0x30) ≠ 0 ∧ waysOf none (led 0x30) ≠ [] := by unfold turn; decide +kernel
def drains : State := { holding { ent 0x30 with phase := .waiting } work with media.accEid := some 1, media.accum := 1 }
theorem test_witness_AccumulatorOpensAndReturns_3 :
    drains.media.accEid = some 1 ∧ drains.media.accum = 1 ∧ drains.modes.follower = false ∧ drains.media.accWait = 0 ∧ entryAt 1 drains = some { ent 0x30 with phase := .waiting } ∧ accumUsed drains = false ∧ drains.media.accum ≠ 2 ∧ work.media.accum ≠ 1 := by decide +kernel
theorem test_witness_AccumulatorOpensAndReturns_4 :
    ({ drains with media.accWait := 2 } : State).media.accum = 1 ∧ accumUsed { drains with media.accWait := 2 } = false ∧ ({ drains with media.accWait := 2 } : State).modes.follower = false ∧ ({ drains with media.accWait := 2 } : State).media.accWait ≠ 0 := by decide +kernel
def drainsAway : State := { follows with media.accum := 1 }
theorem test_witness_AccumulatorOpensAndReturns_5 :
    drainsAway.media.accum = 1 ∧ accumUsed drainsAway = false ∧ drainsAway.modes.follower = true ∧ route drainsAway.modes.leadDie.toNat drainsAway ≠ none := by decide +kernel
theorem test_witness_AccumulatorOpensAndReturns_6 :
    accumUsed { drains with sched.cws := [{ slot := 768 }] } = true := by decide +kernel
theorem test_witness_AccumulatorOpensAndReturns_7 :
    turn { one5 0x31 with media.accum := 2 } 1 0x31 (ent 0x31) ∧ ({ one5 0x31 with media.accum := 2 } : State).media.accum = 2 ∧ ({ one5 0x31 with media.accum := 2 } : State).media.accWait = 0 ∧ ({ one5 0x31 with media.accum := 2 } : State).host.writes ++ ({ one5 0x31 with media.accum := 2 } : State).host.stalled = [] ∧ otherBlocks { one5 0x31 with media.accum := 2 } = 0 := by unfold turn; decide +kernel
theorem test_witness_AccumulatorOpensAndReturns_8 :
    turn { led 0x31 with media.accum := 2 } 1 0x31 (ent 0x31) ∧ otherBlocks { led 0x31 with media.accum := 2 } ≠ 0 ∧ waysOf none { led 0x31 with media.accum := 2 } ≠ [] ∧ (led 0x31).media.accWait = 0 := by unfold turn; decide +kernel

def heldJob : Job := { handle := 3, ch := 15, lun := 480, items := List.replicate 64 0 }
def place : State := { work with sched.jobs := [heldJob] }
theorem test_witness_DrawersAndJigControl_1 :
    place.jigs.length = 16 ∧ nextPlaced 15 place = some heldJob ∧ (chanAt 15 place).up = true ∧ (jigAt 15 place).state ≠ .machineCheck ∧ (jigAt 15 place).state ≠ .fenced ∧ (jigAt 15 place).drawer.length + (resolveFeats heldJob place).1.items.length = 64 ∧ nextPlaced 15 work = none := by decide +kernel
def oneJig (g : Jig) : State := { work with jigs := g :: List.replicate 15 {} }
theorem test_witness_DrawersAndJigControl_2 :
    (jigAt 0 (oneJig { mcClamps := true })).mcClamps = true ∧ (jigAt 0 work).mcClamps = false := by decide +kernel
theorem test_witness_DrawersAndJigControl_3 :
    (jigAt 0 (oneJig { state := .machineCheck })).state = .machineCheck ∧ (jigAt 0 (oneJig { state := .machineCheck })).mcClamps = false ∧ (jigAt 0 work).state ≠ .machineCheck := by decide +kernel
theorem test_witness_DrawersAndJigControl_4 :
    (jigAt 0 (oneJig { busQ := [{ code := 6, capture := 2 }] })).busQ = [{ code := 6, capture := 2 }] ∧ (jigAt 0 (oneJig {})).j.length = 16 ∧ (jigAt 0 work).busQ = [] := by decide +kernel
theorem test_witness_DrawersAndJigControl_5 :
    badQuarters (storeWord (fld (0xF7FF : Word).toNat 12 4) (fld (0xF7FF : Word).toNat 0 11) work).toNat = 0 := by decide +kernel
theorem test_witness_DrawersAndJigControl_6 :
    imageParityOk work = true ∧ work.stats.machineChecks.getD 0 0 ≤ cfg 0x2100 5 work ∧ (chanAt 0 work).lastStep = 0 ∧ (chanAt 0 { work with chans := { lastStep := 4 } :: List.replicate 15 {} }).lastStep ≠ 0 := by decide +kernel
theorem test_witness_DrawersAndJigControl_7 :
    badQuarters (storeWord (fld (0x0 : Word).toNat 12 4) (fld (0x0 : Word).toNat 0 11) (oneJig { store := [(0, 1)] })).toNat ≠ 0 := by decide +kernel

theorem test_witness_JigRunsOneWord_1 :
    (jigAt 15 up).state ≠ .running ∧ (jigAt 15 work).state = .running ∧ (jigAt 15 (phyRun 15 0 [] up)).state ≠ .running := by decide +kernel
def stops : State := oneJig { state := .running, stopReq := true }
theorem test_witness_JigRunsOneWord_2 :
    stops.jigs.length = 16 ∧ (jigAt 0 (jigNow 0 {} stops)).state = .running ∧ (jigAt 0 (jigNow 0 {} stops)).stopReq = true ∧ (jigAt 0 (jigNow 0 {} stops)).waiting = false ∧ (jigAt 0 (jigNow 0 {} stops)).clampWait = false ∧ (jigAt 0 (jigNow 0 {} stops)).stall = 0 := by decide +kernel
def at0 (w : BitVec 160) : State := upsetWord 0 0 0 (jigNow 0 {} (oneJig { state := .running, store := [(0, w)] }))
theorem test_witness_JigRunsOneWord_3 :
    (jigAt 0 (at0 1)).state = .running ∧ (jigAt 0 (at0 1)).stopReq = false ∧ badQuarters (storeWord 0 (jigAt 0 (at0 1)).pc.toNat (at0 1)).toNat ≠ 0 ∧ chanGated 0 (at0 1) = false := by decide +kernel
def runs (l : List (Nat × Nat)) : Nat := (asm l).toNat
theorem test_witness_JigRunsOneWord_4 :
    badQuarters (runs [(0, 1)]) = 0 ∧ (jigAt 0 (at0 (asm [(0, 1)]))).waiting = false ∧ earlyTrap 0 (runs [(0, 1)]) (jigAt 0 (at0 (asm [(0, 1)]))) (selOf (runs [(0, 1)]) (jigAt 0 (at0 (asm [(0, 1)])))) (at0 (asm [(0, 1)])) = some 1 ∧ abortsWord 0 (runs [(0, 1)]) (jigAt 0 (at0 (asm [(0, 1)]))) (selOf (runs [(0, 1)]) (jigAt 0 (at0 (asm [(0, 1)])))) (at0 (asm [(0, 1)])) = false := by decide +kernel
def asksWord : Nat := runs [(24, 1), (145, 3)]
def asksState : State := at0 (BitVec.ofNat 160 asksWord)
theorem test_witness_JigRunsOneWord_5 :
    badQuarters asksWord = 0 ∧ abortsWord 0 asksWord (jigAt 0 asksState) (selOf asksWord (jigAt 0 asksState)) asksState = false ∧ earlyTrap 0 asksWord (jigAt 0 asksState) (selOf asksWord (jigAt 0 asksState)) asksState = none ∧ stallOf 0 asksWord (jigAt 0 asksState) (selOf asksWord (jigAt 0 asksState)) asksState ≠ 0 := by decide +kernel
def goesWord : Nat := runs [(145, 3)]
def goesState : State := at0 (BitVec.ofNat 160 goesWord)
theorem test_witness_JigRunsOneWord_6 :
    badQuarters goesWord = 0 ∧ abortsWord 0 goesWord (jigAt 0 goesState) (selOf goesWord (jigAt 0 goesState)) goesState = false ∧ earlyTrap 0 goesWord (jigAt 0 goesState) (selOf goesWord (jigAt 0 goesState)) goesState = none ∧ stallOf 0 goesWord (jigAt 0 goesState) (selOf goesWord (jigAt 0 goesState)) goesState = 0 ∧ seqGo goesWord (condOf 0 goesWord (jigAt 0 goesState) (selOf goesWord (jigAt 0 goesState)) {} goesState) true (seenItem goesWord (jigAt 0 goesState) goesState.now) (jigAt 0 goesState) = .to 3 [] := by decide +kernel
def startWord : Nat := runs ((0x14A, goNext 0x14B ++ cmd 0x30) : Nat × List (Nat × Nat)).2
def startState : State := upsetWord 0 0 0 (jigNow 0 {} { oneJig { state := .running, j := List.replicate 5 0 ++ 0x300 :: List.replicate 10 0, ce := some 0, store := [(0, BitVec.ofNat 160 startWord)] } with sched.jobs := [{ handle := 3, state := .popped, abortReq := true }], dict.force := ((0x2201, 0x13), [0x30, 1, 8, 0] ++ List.replicate 28 0) :: dieForce })
theorem test_witness_JigRunsOneWord_7 :
    badQuarters startWord = 0 ∧ (jigAt 0 startState).waiting = false ∧ abortsWord 0 startWord (jigAt 0 startState) (selOf startWord (jigAt 0 startState)) startState = true := by decide +kernel

def encJob : Job := { handle := 3, owner := .pad 0 0, ch := 15, lun := 480, state := .popped, encoded := 15 }
def enc : State := { work with sched.jobs := [encJob], codec.engines := [(3, 3)] }
theorem test_witness_EncodersFillTheWriteQueue_1 :
    enc.chans.length = 16 ∧ enc.codec.engines.lookup 3 = some 3 ∧ jobAt 3 enc = some encJob ∧ encJob.ch < 16 ∧ encJob.encoded < 16 ∧ ¬ encJob.encoded < encJob.delivered ∧ ({ encJob with delivered := 16 } : Job).encoded < ({ encJob with delivered := 16 } : Job).delivered ∧ mayEncode encJob 15 enc = true ∧ (pageData encJob 15 enc).2.1 = true ∧ engineUp 0 3 enc = true ∧ work.codec.engines.lookup 3 = none := by decide +kernel

def decCw (k : Nat) (raw : List Byte) : Cw := { job := 3, eid := some 1, group := 5, state := .waitDecode, step := if k = 0 then 0 else 3 + k, work := if k = 0 then none else some 0, raw := raw }
def deco (k e : Nat) (raw : List Byte) : State := { climb 0 with sched.cws := [decCw k raw], codec.decoders := [{ kind := k, engine := e, job := 3 }] }
theorem test_witness_DecodesCountTheirResults_1 :
    decodeAt 0 7 3 0 (deco 0 7 []) = some { kind := 0, engine := 7, job := 3 } ∧ cwOf 3 0 (deco 0 7 []) = some (decCw 0 []) ∧ (jobAt 3 (deco 0 7 [])).isSome = true ∧ engineUp 1 7 (deco 0 7 []) = true := by decide +kernel
theorem test_witness_DecodesCountTheirResults_2 :
    decodeAt 1 3 3 0 (deco 1 3 []) = some { kind := 1, engine := 3, job := 3 } ∧ decodeAt 2 0 3 0 (deco 2 0 []) = some { kind := 2, engine := 0, job := 3 } ∧ engineUp 2 3 (deco 1 3 []) = true ∧ engineUp 3 0 (deco 2 0 []) = true := by decide +kernel
theorem test_witness_DecodesCountTheirResults_3 :
    (readArea (decCw 1 []).work 16 (deco 1 3 [])).1 = true ∧ (readArea (decCw 1 []).work 16 { deco 1 3 [] with sram.words := [(262144, 3)] }).1 = false := by decide +kernel

theorem test_witness_LadderStepsRereadThePage_1 :
    (jobAt 3 (climb 0)).isSome = true ∧ (climbers 3 1 (climb 0)).length = 1 ∧ ladderRuns (climb 0) = true ∧ ((climbers 3 1 (climb 0)).head?.bind (fun c => stepOneSet c (((jobAt 3 (climb 0)).map Job.pageOf).getD {}) (climb 0))).isSome = true := by decide +kernel
def whole (k : Nat) : State := { climb k with stripe.dir := [{ grp with nextRow := 100 }] }
theorem test_witness_LadderStepsRereadThePage_2 :
    (climbers 3 2 (whole 1)).length = 1 ∧ tableOk 0 (whole 1) = true ∧ recentTrued 0 40 (zoneOf 0 0 (whole 1)) (whole 1) = none ∧ ladderRuns (whole 1) = true ∧ (whole 1).recov.searches = [] := by decide +kernel
def cached : State := { whole 1 with recov.cache := [{ lun := 0, block := 40, zone := 0, off := [1], time := 19999 }] }
theorem test_witness_LadderStepsRereadThePage_3 :
    (climbers 3 2 cached).length = 1 ∧ (recentTrued 0 40 (zoneOf 0 0 cached) cached).isSome = true ∧ (cached.recov.cache.find? (fun e => e.lun == 0 && e.block == 40 && e.zone == zoneOf 0 0 cached && cached.now - e.time < 10000)).isSome = true := by decide +kernel
theorem test_witness_LadderStepsRereadThePage_4 :
    (climbers 3 3 (climb 2)).length = 1 ∧ ((climbers 3 3 (climb 2)).head?.bind (fun c => nextRetry c (((jobAt 3 (climb 2)).map Job.pageOf).getD {}) (climb 2))).isSome = true := by decide +kernel
theorem test_witness_LadderStepsRereadThePage_5 :
    (climbers 3 4 (climb 3)).length = 1 ∧ areaTurns (climb 3) = [] ∧ (∀ x ∈ (climb 3).sched.cws, x.state ≠ .waitArea) ∧ (climbers 3 5 (climb 4)).length = 1 ∧ areaTurns (climb 4) = [] ∧ areasHeld (climb 3) < (climb 3).codec.workLimit.toNat ∧ findArea (climb 3) ≠ none ∧ 1 ≤ cfg 0x2500 0x10 (climb 4) := by decide +kernel
theorem test_witness_LadderStepsRereadThePage_6 :
    ladderRuns held = false := by decide +kernel

def s6 : State := climb 5
def c6 : Cw := ((climbers 3 6 s6).find? (fun c => c.cw == 0)).getD {}
def wants6 : List Want := ((givers c6.group c6.row s6).filter (· != c6.member)).map (wantOf c6.group c6.row (2 ^ c6.cw) s6)
def run6 : RowRun := { service := .reconstruct, group := c6.group, row := c6.row, member := c6.member, job := c6.job, cw := c6.cw }
def entered (g : Nat) (s : State) : State := (useEntry g (.ok []) s).2
theorem test_witness_ReconstructionRebuildsOrLoses_1 :
    hostReady s6 = true ∧ s6.modes.follower = false ∧ follows.modes.follower = true ∧ follows.stripe.granted = true ∧ follows.stripe.missing.contains 5 = false ∧ follows.stripe.readHeld.contains 5 = false ∧ 5 < follows.stripe.dirEntries := by decide +kernel
theorem test_witness_ReconstructionRebuildsOrLoses_2 :
    hostReady { s6 with host.reads := (List.range 256).map (fun i => { tag := i, what := .snapRead, len := 64 }) } = false := by decide +kernel
theorem test_witness_ReconstructionRebuildsOrLoses_3 :
    stepSixOf 3 0 s6 = none ∧ ladderRuns s6 = true ∧ (climbers 3 6 s6).find? (fun c => c.cw == 0) = some c6 ∧ (useEntry c6.group (.ok []) s6).1 = true ∧ (readWants (entered c6.group s6).bg.nextRun (cwPrio c6 s6) wants6 (takeRow run6 (entered c6.group s6))).isSome = true ∧ (entryAt 1 s6).isSome = true := by decide +kernel
def at6 : State := (match exec (.reconstruction 3 0 (.ok [])) s6 with | .next t => t | _ => s6)
def lost6 : State := { at6 with sched.cws := at6.sched.cws.map (fun c => if c.eid.isNone then { c with state := .lost } else c) }
theorem test_witness_ReconstructionRebuildsOrLoses_4 :
    (stepSixOf 3 0 at6).isSome = true ∧ runQuiet 0 at6 = false ∧ (stepSixOf 3 0 lost6).map (·.id) = some 0 ∧ runQuiet 0 lost6 = true ∧ (cwOf 3 0 lost6).isSome = true ∧ (gather (runCws 0 lost6) lost6).2.1 = true ∧ rebuildOne 5 0 0 0 15 [] (endRow 0 lost6) = none := by decide +kernel
def short6 : State := { lost6 with stripe.dir := [{ grp with short := [(0, 0xE)] }] }
theorem test_witness_ReconstructionRebuildsOrLoses_5 :
    maskWith 5 0 (gather (runCws 0 short6) short6).1 (endRow 0 short6) = 0xE ∧ bitAt 0xE 0 = false ∧ stepSixOf 3 0 held = none ∧ ladderRuns held = false := by decide +kernel
def other (m : Nat) : MemberRead := { member := m, data := some (zeros 4096) }
theorem test_witness_ReconstructionRebuildsOrLoses_6 :
    (rebuildOne 5 0 0 0 15 [other 1, other 2, other 3, other 4, other 5] s6).isSome = true := by decide +kernel
theorem test_witness_ReconstructionRebuildsOrLoses_7 :
    s6.stripe.granted = true ∧ 5 < s6.stripe.dirEntries ∧ s6.stripe.missing.contains 5 = false ∧ s6.stripe.readHeld.contains 5 = false ∧ entryCached 5 s6 = false ∧ entryCached 5 (cacheTouch 5 s6) = true ∧ c6.group = 5 := by decide +kernel

def search : Search := { id := 2, work := some 0, start := 15000, sensings := [(0, []), (1, []), (2, []), (3, [])] }
def sought : State := { work with recov.searches := [search] }
theorem test_witness_TruingSearches_1 :
    sought.recov.searches.find? (fun x => x.id == 2) = some search ∧ search.work ≠ none ∧ (∀ p < max 1 (lunBits search.lun sought), ∃ x ∈ search.sensings, x.1 = p) ∧ 5000 ≤ sought.now - search.start ∧ work.recov.searches.find? (fun x => x.id == 2) = none := by decide +kernel
theorem test_witness_TruingSearches_2 :
    (readArea (some 0) 16 sought).1 = true ∧ (readArea (some 0) 16 { sought with sram.words := [(262144, 3)] }).1 = false := by decide +kernel

theorem test_witness_DoseClocksAndWallClock_1 :
    clocksRun up = true ∧ up.recov.clocks.length = 16 ∧ up.recov.hostTempAge.length = 16 ∧ cfg 0x2500 3 up ≠ 1 ∧ clocksRun State.reset = false ∧ up.modes.holdup = false := by decide +kernel
theorem test_witness_DoseClocksAndWallClock_2 :
    ({ up with recov.doseKnown := true } : State).recov.doseKnown = true ∧ ({ up with recov.sweepPend := true } : State).recov.sweepPend = true ∧ up.recov.doseKnown = false ∧ up.recov.sweepPend = false := by decide +kernel

def oneChan (c : Chan) : State := { work with chans := List.replicate 15 {} ++ [c] }
theorem test_witness_DriftStartsASearch_1 :
    (oneChan {}).chans.length = 16 ∧ (chanAt 15 (oneChan { trip := 6, up := true })).trip.toNat ≤ (6 : Byte).toNat ∧ (chanAt 15 (oneChan { mode := 4 })).mode = 4 ∧ (chanAt 15 (oneChan {})).mode ≠ 4 ∧ (chanAt 15 (oneChan { search := true })).search = true ∧ (chanAt 15 (oneChan {})).search = false := by decide +kernel
theorem test_witness_DriftStartsASearch_2 :
    judgeSearch {} work = 0 ∧ judgeSearch { micros := 2001 } work = 1 ∧ judgeSearch { eye := 0 } work = 2 ∧ (chanAt 15 (oneChan { search := true, badRun := 2 })).badRun = 2 ∧ (chanAt 15 (oneChan { search := true, badRun := 1 })).badRun ≠ 2 ∧ runningJobs 15 (oneChan { search := true, badRun := 2 }) = [] ∧ (chanAt 15 (oneChan { restartPend := true })).restartPend = true ∧ (chanAt 15 (oneChan {})).restartPend = false := by decide +kernel
def busyChan : State := { oneChan { search := true, badRun := 2 } with sched.jobs := [{ handle := 3, owner := .read 1, lun := 480, ch := 15, state := .popped }] }
theorem test_witness_DriftStartsASearch_3 :
    runningJobs 15 busyChan ≠ [] ∧ busyChan.jigs.length = 16 ∧ (chanAt 15 busyChan).search = true ∧ (chanAt 15 busyChan).badRun = 2 := by decide +kernel
theorem test_witness_DriftStartsASearch_4 :
    retraining 15 (oneChan { mode := 4, search := true, trip := 6, up := true }) = true ∧ retraining 15 (oneChan { mode := 4, trip := 6, up := true }) = false := by decide +kernel

theorem test_witness_JournalPagesAndRecovery_1 :
    jrnlWrites up = false ∧ jrnlWrites { jrnl with stripe.jrnl.queue := [0] } = true ∧ snapReady jrnl = false := by decide +kernel
def folds : State := { jrnl with stripe.mib := 64, stripe.jrnl.folding := true, stripe.jrnl.foldFirst := some (0, 0), stripe.jrnl.snapLeft := 1 }
theorem test_witness_JournalPagesAndRecovery_2 :
    jrnlWrites folds = true ∧ snapReady folds = true ∧ snapWhole folds = false ∧ folds.stripe.jrnl.queue = [] ∧ snapReading folds = false ∧ snapReads folds ≠ [] := by decide +kernel
def foldsGot : State := { folds with stripe.jrnl.snapGot := (snapReads folds).map (fun p => (p.1 - winBase folds, zeros p.2)) }
theorem test_witness_JournalPagesAndRecovery_3 :
    jrnlWrites foldsGot = true ∧ snapWhole foldsGot = true ∧ foldsGot.stripe.jrnl.folding = true ∧ 0 < foldsGot.stripe.jrnl.snapLeft ∧ foldsGot.modes.holdup = false ∧ foldsGot.stripe.jrnl.queue = [] := by decide +kernel
theorem test_witness_JournalPagesAndRecovery_4 :
    snapReading { folds with host.reads := [{ tag := 0, what := .snapRead, len := 64 }] } = true := by decide +kernel
def flight : State := { jrnl with stripe.jrnl.inFlight := some {} }
theorem test_witness_JournalPagesAndRecovery_5 :
    flight.stripe.jrnl.inFlight = some {} ∧ flight.stripe.jrnl.copiesLeft = [] ∧ flight.stripe.jrnl.lost = false ∧ up.stripe.jrnl.inFlight = none := by decide +kernel
theorem test_witness_JournalPagesAndRecovery_6 :
    ¬ (up.stripe.jrnl.state = 1 ∧ up.stripe.jrnl.recStep = 2) ∧ ({ up with stripe.jrnl.state := 1, stripe.jrnl.recStep := 2 } : State).stripe.jrnl.state = 1 ∧ jrnl.stripe.jrnl.moving = false := by decide +kernel
theorem test_witness_JournalPagesAndRecovery_7 :
    saveWorks jrnl = true ∧ jrnl.stripe.jrnl.moving = false ∧ follows.modes.follower = true ∧ ({ up with stripe.jrnl.state := 1, stripe.jrnl.recStep := 2 } : State).stripe.jrnl.recStep = 2 ∧ folds.stripe.jrnl.snapTurn = false ∧ jrnlWrites { jrnl with stripe.jrnl.queue := [0] } = true := by decide +kernel
def replays : State := { up with stripe.jrnl.state := 1, stripe.jrnl.recStep := 2 }
theorem test_witness_JournalPagesAndRecovery_8 :
    replays.stripe.jrnl.state = 1 ∧ replays.stripe.jrnl.recStep = 2 ∧ recoveryGranted (grantForecast { replays with rack.fcWaiting := true, rack.fcClamps := 0x10000 }) = false := by decide +kernel
/-- No LUN is present where no target is, on this block or another. -/
theorem no_lun_present (u : Nat) (s : State) (hl : s.chans.length = 16) (hc : ∀ n < 16, (chanAt n s).present = 0)
    (hr : s.dv.reach = 0) : lunPresent u s = false := by
  have hc : ∀ n, (chanAt n s).present = 0 := by
    intro n
    by_cases h : n < 16
    · exact hc n h
    · unfold chanAt
      rw [List.getD_eq_getElem?_getD, List.getElem?_eq_none (by rw [hl]; omega)]; rfl
  unfold lunPresent reachable
  rw [hc, hr]
  cases ownLun u s <;> simp [bitAt]

/-- Recovery's reads are granted where no forecast waits and no LUN is present. -/
theorem test_witness_replays_granted : recoveryGranted (grantForecast replays) = true := by
  have hl : presentLuns replays = [] := by
    unfold presentLuns
    rw [List.filter_eq_nil_iff.mpr (fun u _ => by
      simp [no_lun_present u replays (by decide +kernel) (by decide +kernel) rfl])]
  rw [show grantForecast replays = replays from rfl]
  unfold recoveryGranted
  rw [hl]
  decide +kernel

theorem test_witness_JournalPagesAndRecovery_10 :
    saveWorks State.reset = false ∨ saveWorks up = true ∧ jrnl.stripe.jrnl.pairWaits = false := by decide +kernel
theorem test_witness_JournalPagesAndRecovery_11 :
    dictServes up = true ∧ up.modes.holdup = false ∧ (4095 : BitVec 16).toNat < 4096 ∧ dictServes State.reset = false ∧ held.modes.holdup = true ∧ 4096 ≤ (4096 : BitVec 16).toNat ∧ (4096 : BitVec 16) ≠ 0xFFFF := by decide +kernel

def waiting1 : State := { up with stripe.mib := 64, stripe.jrnl.state := 1, stripe.jrnl.recStep := 1 }
theorem test_witness_WindowGrantAndAccess_1 :
    bitAt (0 : Word).toNat 0 = false ∧ bitAt (1 : Word).toNat 0 = true ∧ follows.modes.follower = true ∧ work.stripe.granted = true ∧ work.modes.follower = false ∧ up.stripe.granted = false ∧ up.stripe.jrnl.recStep ≠ 1 ∧ follows.dv.tkClose = false ∧ up.dv.tkClose = false ∧ up.modes.follower = false ∧ copiesIn waiting1 = true ∧ waiting1.modes.follower = false ∧ copiesIn { waiting1 with dv.view := 3 } = false ∧ anchorsBlank { waiting1 with cab.words := [(0x700 * 512, 5)] } = false ∧ waiting1.dv.draining = false := by decide +kernel
/-- A grant of 64 MiB passes where no LUN is present. -/
theorem grant_without_luns (s : State) (h : ∀ u, lunPresent u s = false) (hm : s.stripe.mib = 64)
    (ha : s.stripe.jrnl.anchorValid = false) : grantError s = 0 := by
  have hd : doseSize s = 0 := by
    unfold doseSize lunBase
    rw [List.filter_eq_nil_iff.mpr (fun u _ => by simp [h])]
    simp
  have hp : pickPair [] s = none := by
    unfold pickPair
    rw [List.filter_eq_nil_iff.mpr (fun u _ => by simp [qualifies, h])]
  unfold grantError ringHolds ringPages dirOffset winBytes
  simp [hd, hp, hm, ha]

theorem test_witness_WindowGrantAndAccess_2 : waiting1.stripe.jrnl.recStep = 1 ∧ waiting1.stripe.granted = false
    ∧ grantError waiting1 = 0 ∧ grantError { waiting1 with stripe.mib := 15 } = 1 :=
  ⟨rfl, rfl, grant_without_luns _ (fun u => no_lun_present u waiting1 (by decide +kernel) (by decide +kernel) rfl) rfl rfl,
    by decide +kernel⟩

def kept4 : State := { work with stripe.held := [(0, [1])] }
theorem test_witness_WindowGrantAndAccess_3 :
    kept4.stripe.held = [(0, [1])] ∧ (winBase kept4 + (0 : BitVec 64).toNat) % 4096 + 1 ≤ 4096 ∧ (∀ r ∈ kept4.host.writes ++ kept4.host.stalled, r.addr.toNat ≠ winBase kept4 + (0 : BitVec 64).toNat) ∧ up.stripe.held = [] := by decide +kernel
theorem test_witness_WindowGrantAndAccess_4 :
    hostReady { up with stripe.missing := [63] } = true ∧ (63 : Nat) ∉ up.stripe.missing ∧ 63 ∈ ({ up with stripe.missing := [63] } : State).stripe.missing ∧ up.stripe.cache.length < 4096 := by decide +kernel
theorem test_witness_WindowGrantAndAccess_5 :
    ({ up with recov.doseHeld := [(0, 40)] } : State).recov.doseHeld = [(0, 40)] := by decide +kernel
theorem test_witness_WindowGrantAndAccess_6 :
    ({ work with stripe.winReadHeld := [(.bindRead 5, 4096, 32)] } : State).stripe.winReadHeld ≠ [] := by decide +kernel
theorem test_witness_WindowGrantAndAccess_7 :
    ({ work with host.reads := [{ tag := 255, what := .snapRead, len := 64 }] } : State).host.reads.find? (fun x => x.tag == 255) = some { tag := 255, what := .snapRead, len := 64 } := by decide +kernel
theorem test_witness_WindowGrantAndAccess_8 :
    ({ work with host.reads := [{ tag := 0, what := .bindRead 3, len := 64 }] } : State).host.reads.find? (fun x => x.tag == 0) = some { tag := 0, what := .bindRead 3, len := 64 } := by decide +kernel

theorem test_witness_OperatorsDeclareAndClear_1 :
    4096 ≤ (4096 : BitVec 16).toNat ∧ (4095 : BitVec 16).toNat < 4096 ∧ work.bg.refitState = 0 ∧ retirable 5 work = false ∧ retirable 5 (withGrp failedGrp work) = true ∧ work.modes.follower = false := by decide +kernel
def ledger : State := { work with stripe.ledger := [(4095, {})] }
theorem test_witness_OperatorsDeclareAndClear_2 :
    appliesObjects work = true ∧ appliesObjects (withGrp failedGrp work) = true ∧ appliesObjects follows = false ∧ appliesObjects State.reset = false ∧ appliesObjects ledger = true := by decide +kernel
theorem test_witness_OperatorsDeclareAndClear_3 :
    (4095 : BitVec 16).toNat < 4096 ∧ ((4095 : BitVec 16).toNat, ({} : LossEntry)) ∈ ledger.stripe.ledger ∧ (∀ p ∈ work.stripe.ledger, p.1 ≠ 4095) ∧ ({ work with bg.refitState := 1 } : State).bg.refitState ≠ 0 := by decide +kernel

def rbRow : State := { withGrp failedGrp work with bg.queue := [{ failedLun := 0, spareLun := 192 }], bg.active := true, bg.curGroup := 5, bg.pointer := 2, modes.rebuild := true, modes.mode := .rebuild }
theorem test_witness_BackgroundRows_1 :
    rbRow.bg.erasing = false ∧ runOf .rebuild rbRow = none ∧ rbRow.bg.active = true ∧ groupExists rbRow.bg.curGroup rbRow = true ∧ work.bg.queue = [] ∧ bgRuns rbRow = true ∧ bgRuns held = false ∧ rbRow.bg.queue ≠ [] ∧ groupReachable 5 rbRow = true ∧ rbRow.bg.pointer < (dirAt 5 rbRow).nextRow ∧ findSlot 5 2 rbRow = none := by decide +kernel
def rbEnd : State := { rbRow with bg.active := false, bg.queue := [{ failedLun := 1 }] }
theorem test_witness_BackgroundRows_2 :
    runOf .rebuild rbEnd = none ∧ rbEnd.bg.erasing = false ∧ rbEnd.bg.queue = [{ failedLun := 1 }] ∧ bgRuns rbEnd = true ∧ rbEnd.bg.active = false ∧ (∀ g ∈ concerned 0xFFFFFF 1 rbEnd, g < 0) := by decide +kernel
theorem test_witness_BackgroundRows_3 :
    findSlot 5 2 { rbRow with stripe.slots := { state := .filling, group := 5, row := 2 } :: List.replicate 31 {} } ≠ none := by decide +kernel
theorem test_witness_BackgroundRows_4 :
    patrolRuns (patrolUpdate held) = false ∧ patrolRuns (patrolUpdate work) = true ∧ nextPatrol (patrolUpdate work) 0 0 = some (5, 0) ∧ drawersIdle 5 work = true ∧ groupReachable 5 (patrolUpdate work) = true := by decide +kernel
def lapEnd : State := { work with bg.patrolGroup := 5, bg.patrolRow := 3 }
theorem test_witness_BackgroundRows_5 :
    patrolRuns (patrolUpdate lapEnd) = true ∧ nextPatrol (patrolUpdate lapEnd) 5 3 = none ∧ lapEnd.bg.patrolGroup ≠ 0 := by decide +kernel
def refit1 : State := { work with bg.refitState := 1, bg.sources := [5], bg.targets := [7], modes.refit := true, modes.mode := .refit, stripe.dir := [{ grp with refitSource := true }, { group := 7, state := 1, width := 3, rows := 1000, refitTarget := true, members := six.take 5 }] }
def rbTaken : State := ((readWants (entered 5 rbRow).bg.nextRun 3 (rebuildWants 5 rbRow.bg.curMember 2 (entered 5 rbRow)) (takeRow { service := .rebuild, group := 5, row := 2, member := rbRow.bg.curMember } (entered 5 rbRow))).getD rbRow)
theorem test_witness_BackgroundRows_6 :
    (readWants (entered 5 rbRow).bg.nextRun 3 (rebuildWants 5 rbRow.bg.curMember 2 (entered 5 rbRow)) (takeRow { service := .rebuild, group := 5, row := 2, member := rbRow.bg.curMember } (entered 5 rbRow))).isSome = true ∧ (runOf .rebuild rbTaken).map (fun r => (r.id, r.phase, r.wave)) = some (0, .reading, 0) ∧ runQuiet 0 rbTaken = false := by decide +kernel
def settled (x : CwState) (s : State) : State := { s with sched.cws := s.sched.cws.map (fun c => { c with state := x }) }
theorem test_witness_BackgroundRows_7 :
    (runOf .rebuild (settled .lost rbTaken)).isSome = true ∧ runQuiet 0 (settled .lost rbTaken) = true ∧ (gather (runCws 0 (settled .lost rbTaken)) (settled .lost rbTaken)).2.1 = true ∧ ((gather (runCws 0 (settled .lost rbTaken)) (settled .lost rbTaken)).1.all (fun x => x.member != 0)) = true := by decide +kernel
theorem test_witness_BackgroundRows_8 :
    (runOf .rebuild (settled .lost { rbTaken with bg.runs := rbTaken.bg.runs.map (fun r => { r with wave := 1 }) })).map (·.wave) = some 1 := by decide +kernel
theorem test_witness_BackgroundRows_9 :
    runOf .patrol (patrolUpdate work) = none ∧ (patrolUpdate work).bg.patrolNext ≤ (patrolUpdate work).now ∧ drawersIdle 5 (patrolUpdate work) = true ∧ (useEntry 5 (.ok []) (patrolUpdate work)).1 = true ∧ (useEntry 5 .err (patrolUpdate work)).1 = false ∧ (readWants (entered 5 (patrolUpdate work)).bg.nextRun 3 ((givers 5 0 (entered 5 (patrolUpdate work))).map (wantOf 5 0 0xFFFF (entered 5 (patrolUpdate work)))) (takeRow { service := .patrol, group := 5, row := 0 } (entered 5 (patrolUpdate work)))).isSome = true := by decide +kernel
theorem test_witness_BackgroundRows_10 :
    (patrolUpdate { work with bg.patrolNext := 20001 }).now < (patrolUpdate { work with bg.patrolNext := 20001 }).bg.patrolNext ∧ runOf .patrol (patrolUpdate lapEnd) = none := by decide +kernel
def patrolled : State := (match exec (.patrolRow (.ok [])) work with | .next t => t | _ => work)
theorem test_witness_BackgroundRows_11 :
    (runOf .patrol (patrolUpdate patrolled)).isSome = true ∧ runQuiet 0 (patrolUpdate patrolled) = false ∧ runQuiet 0 (patrolUpdate (settled .lost patrolled)) = true ∧ (gather (runCws 0 (patrolUpdate (settled .lost patrolled))) (patrolUpdate (settled .lost patrolled))).2.1 = true := by decide +kernel
theorem test_witness_BackgroundRows_12 :
    refitMay work = false ∧ runOf .refit work = none ∧ bgRuns refit1 = true ∧ runOf .refit refit1 = none ∧ refitMay refit1 = true := by decide +kernel
def copying : State := (match exec (.refitRow (.ok [])) refit1 with | .next t => t | _ => refit1)
theorem test_witness_BackgroundRows_13 :
    (runOf .refit copying).map (fun r => (r.id, r.phase, r.wave)) = some (0, .reading, 5) ∧ bgRuns copying = true ∧ runQuiet 0 copying = false ∧ runQuiet 0 (settled .lost copying) = true ∧ (gather (runCws 0 (settled .lost copying)) (settled .lost copying)).2.1 = true ∧ freeSlot 7 (gather (runCws 0 (settled .lost copying)) (settled .lost copying)).2.2 = some 0 := by decide +kernel
def sealing : State := { copying with bg.runs := copying.bg.runs.map (fun r => { r with phase := .sealing }) }
theorem test_witness_BackgroundRows_14 :
    (runOf .refit sealing).map (·.phase) = some .sealing ∧ findSlot 7 0 sealing = none ∧ (findSlot 7 0 { sealing with stripe.slots := { state := .sealing, group := 7 } :: List.replicate 31 {} }) = some 0 := by decide +kernel
theorem test_witness_BackgroundRows_15 :
    (useEntry 5 .err rbRow).1 = false ∧ (useEntry 5 (.ok []) rbRow).1 = true ∧ (useEntry (refitGroup refit1) .err refit1).1 = false ∧ (useEntry (refitGroup refit1) (.ok []) refit1).1 = true ∧ refitMay refit1 = true := by decide +kernel

theorem test_witness_MediaMessagesAreAnswered_1 :
    (BitVec.ofNat 64 (1 * 2 ^ 60 + 15 * 2 ^ 56 + 7) |> fun m => mKind m = 1 ∧ mHead m = 15 ∧ msgZeros m = true ∧ fld m.toNat 0 32 ≠ 0xFFFFFFFF ∧ owesNothing (mHead m) work ∧ (headAt (mHead m) work).job = none ∧ headWire (mHead m) work = none) ∧ servesMedia (BitVec.ofNat 64 (1 * 2 ^ 60 + 15 * 2 ^ 56 + 7)) work := by unfold servesMedia owesNothing; decide +kernel
theorem test_witness_MediaMessagesAreAnswered_2 :
    mKind 0x1000000000000000 ≠ 2 ∧ State.reset.pins.mediaReady = false ∧ follows.pins.mediaReady = true ∧ follows.modes.follower = true ∧ mKind 0x2000000000000001 = 2 ∧ msgZeros 0x2000000000000001 = false ∧ mKind 0x2000000000000000 = 2 ∧ msgZeros 0x2000000000000000 = true ∧ mHead 0x2000000000000000 = 0 := by decide +kernel
theorem test_witness_MediaMessagesAreAnswered_3 :
    knownKind (mKind 0x3000000000000000) = true ∧ knownKind (mKind 0xF000000000000000) = false ∧ knownKind (mKind 0x6000000000000000) = false ∧ knownKind (mKind 0xC000000000000000) = false := by decide +kernel
theorem test_witness_MediaMessagesAreAnswered_4 :
    (headAt 0 bound).job ≠ none ∧ fld (0x10000000FFFFFFFF : BitVec 64).toNat 0 32 = 0xFFFFFFFF ∧ mKind 0x10000000FFFFFFFF = 1 ∧ msgZeros 0x10000000FFFFFFFF = true := by decide +kernel
theorem test_witness_MediaMessagesAreAnswered_5 :
    inReady State.reset = false ∧ inReady follows = true ∧ passWaits 0x2000000000000001 work = false ∧ rowsHeld 0x2000000000000001 work ∧ servesMedia 0x2000000000000001 work ∧ servesMedia 0xF000000000000000 work ∧ servesMedia 0x10000000FFFFFFFF work ∧ servesMedia 0x1000000000000007 bound ∧ servesMedia 0x2000000000000000 work ∧ servesMedia 0x9000000000000001 follows ∧ ((.attach, 1) : (BitVec 64 → Instr) × Nat).2 = 1 := by unfold rowsHeld servesMedia; decide +kernel
theorem test_witness_MediaMessagesAreAnswered_6 :
    servesMedia 0x3000000500000002 { bound with stripe.bindCache := [] } ∧ mKind 0x3000000500000002 = 3 ∧ looksUpRows 0x3000000500000002 = true ∧ bound.stripe.granted = true ∧ 0 ∈ bindsNear (mGroup 0x3000000500000002) (mRow 0x3000000500000002) (mRows 0x3000000500000002) { bound with stripe.bindCache := [] } ∧ 0 ∉ ({ bound with stripe.bindCache := [] } : State).stripe.bindCache := by unfold servesMedia; decide +kernel

def feedMsg : BitVec 64 := BitVec.ofNat 64 (3 * 2 ^ 60 + 5 * 2 ^ 32 + 2)
def feeding : State := { bound with media.heads := { job := some 7, feed := some { group := 5, rows := 2 } } :: List.replicate 15 {} }
theorem test_witness_FeedsRunAndAreVerified_1 :
    mKind feedMsg = 3 ∧ (headAt 0 feeding).job ≠ none ∧ (headAt 0 feeding).feeding = true ∧ (headAt 0 feeding).via = none ∧ msgZeros feedMsg = true ∧ rowsHeld feedMsg feeding ∧ servesMedia feedMsg feeding ∧ rangeFault feedMsg (headAt 0 bound).feeding bound = none ∧ servesMedia feedMsg bound ∧ rowsHeld feedMsg bound ∧ owesNothing 0 bound ∧ ((List.range 2).flatMap (fun k => ((List.range (dirAt 5 bound).width).filter (fun x => bitAt (sealedMask 5 k bound) x)).map (fun x => (k, x)))) ≠ [] := by unfold rowsHeld servesMedia owesNothing; decide +kernel
theorem test_witness_FeedsRunAndAreVerified_2 :
    servesMedia 0x3000000500002002 bound ∧ rowsHeld 0x3000000500002002 bound ∧ msgZeros 0x3000000500002002 = true ∧ servesMedia feedMsg work ∧ rowsHeld feedMsg work ∧ owesNothing 0 work := by unfold rowsHeld servesMedia owesNothing; decide +kernel
theorem test_witness_FeedsRunAndAreVerified_3 :
    rangeFault feedMsg false work = some 2 ∧ rangeFault 0x3000000500002002 false bound = some 5 ∧ (5 : Nat) ≠ 9 := by decide +kernel
def running (k : Option Nat) : State := { bound with media.running := some 15, media.heads := List.replicate 15 {} ++ [{ job := some 7, feed := some { group := 5, rows := 1, read := [(0, 0)], sending := k } }] }
theorem test_witness_FeedsRunAndAreVerified_4 :
    (running (some 2048)).media.heads.length = 16 ∧ runTurn (running (some 2048)) = some 15 ∧ (headAt 15 (running (some 2048))).via = none ∧ runTurn (running (some 2048)) ≠ some 14 ∧ (some 2048 : Option Nat).getD 0 ≤ 2048 ∧ (headAt 0 bound).feed = none := by decide +kernel
theorem test_witness_FeedsRunAndAreVerified_5 :
    (headAt 15 (running (some 0))).feed = some { group := 5, rows := 1, read := [(0, 0)], sending := some 0 } ∧ (some 0 : Option Nat).getD 0 + 2047 < 2048 := by decide +kernel
def fed : State := { bound with media.heads := { job := some 7, fed := [{ group := 5, first := 0, rows := 2 }] } :: List.replicate 15 {} }
theorem test_witness_FeedsRunAndAreVerified_6 :
    mKind 0x4000000500000002 = 4 ∧ rangeFault 0x4000000500000002 false fed = none ∧ fedHolds 5 0 2 (headAt 0 fed).fed = true ∧ 0 < bindsFree fed ∧ fed.stripe.jrnl.durableRec ≤ fed.stripe.jrnl.recNo ∧ mKind 0x5000000500000002 = 5 ∧ rangeFault 0x5000000500000002 false fed = none ∧ servesMedia 0x5000000500000002 fed ∧ servesMedia 0x4000000500000002 fed ∧ rowsHeld 0x5000000500000002 fed ∧ rowsHeld 0x4000000500000002 fed ∧ msgZeros 0x4000000500000002 = true ∧ msgZeros 0x5000000500000002 = true ∧ (headAt 0 fed).job = some 7 ∧ owesNothing 0 fed := by unfold rowsHeld servesMedia owesNothing; decide +kernel
theorem test_witness_FeedsRunAndAreVerified_7 :
    (unitData (unitCws 15 5 (0, 0) (running none)) (running none)).2.1 = true := by decide +kernel

def openMsg : BitVec 64 := BitVec.ofNat 64 (8 * 2 ^ 60 + 63 * 2 ^ 50 + 32 * 2 ^ 36)
theorem test_witness_AccumulatorFragments_1 :
    servesMedia openMsg work ∧ owesNothing 0 work ∧ accOpenTo 0 work = false ∧ msgZeros openMsg = true ∧ mKind openMsg = 8 := by unfold servesMedia owesNothing; decide +kernel
theorem test_witness_AccumulatorFragments_2 :
    servesMedia openMsg accum ∧ owesNothing 0 accum ∧ accOpenTo 0 accum = true ∧ (∀ f ∈ accum.media.frags, f.frag.toNat ≠ mFrag openMsg) ∧ mN openMsg = 1024 ∧ mRefOff openMsg + 64 ≤ mN openMsg ∧ (findFrag (fragSlots 1024) accum).isSome = true := by unfold servesMedia owesNothing; decide +kernel
theorem test_witness_AccumulatorFragments_3 :
    findFrag (fragSlots 1024) { accum with media.frags := [{ n := 65536 * 16 }] } = none := by decide +kernel
def passMsg (n : Nat) : BitVec 64 := BitVec.ofNat 64 (9 * 2 ^ 60 + 3 * 2 ^ 50 + 2 ^ 49 + n * 2 ^ 36)
theorem test_witness_AccumulatorFragments_4 :
    mKind (passMsg 33) = 9 ∧ msgZeros (passMsg 33) = true ∧ (ownFrag 0 (mFrag (passMsg 33)) accum).isSome = true ∧ fld (passMsg 33).toNat 36 12 = (1024 + 2 * 16) / 32 ∧ fld (passMsg 34).toNat 36 12 ≠ (1024 + 2 * 16) / 32 ∧ (headAt 0 accum).pass = none := by decide +kernel
def passing (sync : Bool) (fr : BitVec 6) : State := { accum with media.heads := { pass := some (fr, sync, 33) } :: List.replicate 15 {} }
theorem test_witness_AccumulatorFragments_5 :
    (headAt 0 (passing true 3)).pass = some (3, true, 33) ∧ (ownFrag 0 3 (passing true 3)).isSome = true ∧ ownFrag 0 4 (passing true 4) = none ∧ (passing true 3).media.heads.length = 16 ∧ (ownFrag 0 3 (passing true 3)).map (·.passes) ≠ some 255 := by decide +kernel
theorem test_witness_AccumulatorFragments_6 :
    (ownFrag 0 3 { passing true 3 with media.frags := [{ frag := 3, n := 1024, passes := 255 }] }).map (·.passes) = some 255 := by decide +kernel
theorem test_witness_AccumulatorFragments_7 :
    mKind 0xA00C000000000000 = 10 ∧ msgZeros 0xA00C000000000000 = true ∧ mFrag 0xA00C000000000000 = 3 ∧ accum.media.running = none ∧ mKind 0xB00C000000000000 = 11 ∧ msgZeros 0xB00C000000000000 = true ∧ mFrag 0xB00C000000000000 = 3 := by decide +kernel
theorem test_witness_AccumulatorFragments_8 :
    passWaits (passMsg 33) work = false ∧ passWaits (passMsg 33) accum = false ∧ passWaits (passMsg 33) (passing true 3) = true ∧ (passing true 3).media.inQ = [] ∧ ({ passing true 3 with media.inQ := [passMsg 33] } : State).media.inQ = [passMsg 33] := by decide +kernel
theorem test_witness_AccumulatorFragments_9 :
    ∀ k ∈ List.range 16, k ≠ 0 → (headAt k (passing true 3)).pass = none := by decide +kernel
def accAway : State := { accum with modes.lead := false, modes.follower := true, modes.mode := .follower }
theorem test_witness_AccumulatorFragments_10 :
    servesMedia openMsg accAway ∧ servesMedia (passMsg 33) accAway ∧ servesMedia 0xA00C000000000000 accAway ∧ servesMedia 0xB00C000000000000 accAway ∧ accOpenTo 0 accAway = true ∧ servesMedia (passMsg 33) accum ∧ servesMedia 0xA00C000000000000 accum ∧ servesMedia 0xB00C000000000000 accum := by unfold servesMedia; decide +kernel
theorem test_witness_AccumulatorFragments_11 :
    ({ passing true 3 with media.inQ := [passMsg 33] } : State).pins.mediaReady = true ∧ rowsWait (passMsg 33) { passing true 3 with media.inQ := [passMsg 33] } = false := by decide +kernel

theorem test_witness_LinksPresenceAndElections_1 :
    (portAt .east up).up = false ∧ (portAt .east follows).up = true ∧ onLink follows = true ∧ onLink State.reset = false ∧ (1 : BitVec 3) ≠ follows.modes.dieId ∧ follows.dv.size ≠ 0 ∧ work.dv.size = 0 ∧ follows.dv.dupId = false ∧ bitAt follows.dv.view.toNat (7 : BitVec 3).toNat = false ∧ bitAt follows.dv.view.toNat (1 : BitVec 3).toNat = true := by decide +kernel
theorem test_witness_LinksPresenceAndElections_2 :
    (portAt .west { up with dv.west := { hadPartner := true } }).hadPartner = true ∧ (portAt .west { up with dv.west := { hadPartner := true } }).up = false ∧ up.pins.inReset = false := by decide +kernel
theorem test_witness_LinksPresenceAndElections_3 :
    onLink leads = true ∧ leads.modes.quarantine = false ∧ leads.modes.lead = true ∧ leads.dv.tkWait = false ∧ leads.dv.east.up = true ∧ follows.modes.lead = false ∧ follows.dv.electing = false := by decide +kernel
theorem test_witness_LinksPresenceAndElections_4 :
    inElections follows = true ∧ follows.dv.bestClaim = none ∧ ((1 : BitVec 3), true) ∈ follows.dv.peers ∧ follows.dv.term.toNat ≤ (0 : Word).toNat ∧ follows.dv.electing = false := by decide +kernel
def elects : State := { follows with dv.electing := true, dv.claim := some 5, dv.claimed := true, dv.hbMissRun := 2 }
theorem test_witness_LinksPresenceAndElections_5 :
    inElections elects = true ∧ elects.dv.electing = true ∧ elects.dv.claim = some 5 ∧ elects.dv.claimed = true ∧ elects.dv.hbMissRun = 2 ∧ elects.dv.leadKnown = true ∧ follows.dv.hbMissRun ≠ 2 ∧ up.dv.leadKnown = false := by decide +kernel
def bids : State := { follows with dv.electing := true, modes.leadOk := true }
theorem test_witness_LinksPresenceAndElections_6 :
    inElections bids = true ∧ bids.dv.electing = true ∧ bids.dv.claim = none ∧ bids.dv.quorum = true := by decide +kernel
theorem test_witness_LinksPresenceAndElections_7 :
    bids.modes.leadOk = true ∧ bids.dv.size ≠ 0 ∧ bids.dv.rival = false ∧ follows.modes.quarantine = false ∧ follows.dv.term.toNat ≤ (0 : Word).toNat := by decide +kernel
def unsized : State := { follows with dv.size := 0 }
theorem test_witness_LinksPresenceAndElections_8 :
    onLink unsized = true ∧ unsized.dv.size = 0 ∧ unsized.modes.holdup = false ∧ (1 : BitVec 3) ≠ unsized.modes.dieId ∧ (2 : Nat) ≤ 8 := by decide +kernel
def fl (k : Nat) : Flit := { type := 1, seq := BitVec.ofNat 9 k }
def rep : State := { follows with dv.west := { up := true, replay := [fl 510, fl 511, fl 0, fl 1] } }
theorem test_witness_LinksPresenceAndElections_9 :
    (∀ f ∈ (portAt .west rep).replay, f.seq ≠ 2) ∧ (portAt .west rep).replay = [fl 510, fl 511] ++ fl 0 :: [fl 1] ∧ (fl 0).seq = 0 ∧ (∀ x ∈ [fl 510, fl 511], x.seq ≠ 0) := by decide +kernel
theorem test_witness_LinksPresenceAndElections_10 :
    follows.dv.west.up = false ∧ leads.dv.size ≠ 0 ∧ ({ whole := false } : RingIn).whole = false := by decide +kernel
def sz0 : State := { follows with dv.size := 0, dv.west := { up := true, hadPartner := true } }
theorem test_witness_LinksPresenceAndElections_11 :
    onLink sz0 = true ∧ sz0.dv.size = 0 ∧ sz0.dv.east.up = true ∧ sz0.dv.west.up = true ∧ sz0.dv.links = [] ∧ ones 8 (sz0.dv.view ||| dieBit 1).toNat = 2 ∧ sz0.modes.holdup = false := by decide +kernel
def sz2 : State := { sz0 with modes.dieId := 2 }
theorem test_witness_LinksPresenceAndElections_12 :
    onLink sz2 = true ∧ sz2.dv.size = 0 ∧ (1 : BitVec 3) ≠ sz2.modes.dieId ∧ ones 8 (sz2.dv.view ||| dieBit 1).toNat = 2 ∧ 2 ≤ sz2.modes.dieId.toNat ∧ sz2.dv.dupId = false := by decide +kernel
theorem test_witness_LinksPresenceAndElections_13 :
    follows.modes.lead = false ∧ follows.dv.electing = false ∧ follows.dv.draining = false ∧ follows.stripe.grantPend = false ∧ waysOf none follows ≠ [] ∧ waysOf none leads ≠ [] := by decide +kernel
theorem test_witness_LinksPresenceAndElections_14 :
    follows.dv.savedTerm = 0 ∧ saveWorks follows = true ∧ route 1 follows ≠ none := by decide +kernel
def unsaved : State := { follows with cab.savePos := 16, cab.heads := [(0x1800, BitVec.ofNat 64 (1 + crc32c (le 4 1) * 2 ^ 32)), (0x1802, BitVec.ofNat 64 failWord)] }
theorem test_witness_LinksPresenceAndElections_15 :
    inElections unsaved = true ∧ unsaved.dv.bestClaim = none ∧ unsaved.dv.term.toNat ≤ (3 : Word).toNat ∧ unsaved.modes.lead = false ∧ unsaved.dv.savedTerm ≠ 3 ∧ saveWorks unsaved = false := by decide +kernel
theorem test_witness_LinksPresenceAndElections_16 :
    follows.modes.quarantine = false ∧ ({ follows with dv.dupId := true } : State).dv.dupId = true ∧ onLink { follows with dv.dupId := true } = true := by decide +kernel
theorem test_witness_LinksPresenceAndElections_17 :
    termSavable (bids.dv.term + 1) bids = true ∧ inElections follows = true ∧ follows.dv.claim ≠ some 3 ∧ inElections elects = true ∧ elects.dv.view &&& (elects.dv.grants ||| dieBit 1) ≠ elects.dv.view := by decide +kernel

theorem test_witness_CascadeWorkIsShared_1 :
    onLink State.reset = false ∧ onLink follows = true ∧ follows.modes.follower = true ∧ ownLun 511 follows = true ∧ ownLun 512 follows = false ∧ follows.modes.quarantine = false ∧ follows.modes.fenced = false := by decide +kernel
def rdItem : BitVec 128 := mkItem 1 []
def pgItem : BitVec 128 := mkItem 2 []
def rj : RemoteIn := { src := 1, handle := 9, lun := 480, items := [rdItem], mask := 3 }
def wj : RemoteIn := { src := 1, handle := 9, lun := 480, items := [pgItem], group := 5, member := 1, row := 3, addrs := List.replicate 16 [(0x1000, 4096)] }
def nextOf (c : Instr) (s : State) : State := match exec c s with | .next t => t | _ => s
def gone : State := nextOf (.job wj) follows
def sent (k : Nat) : RemoteIn := { wj with go := true, kind := k, items := [] }
theorem test_witness_CascadeWorkIsShared_2 :
    rj.accum = none ∧ rj.go = false ∧ ownLun rj.lun follows = true ∧ remoteAt (remoteKey rj) follows = none ∧ endsInRead rj.items = true ∧ endsInRead wj.items = false ∧ onLink leads = true ∧ leads.modes.fenced = false ∧ leads.modes.quarantine = false ∧ ownLun rj.lun leads = true ∧ remoteAt (remoteKey rj) leads = none ∧ leads.modes.follower = false := by decide +kernel
theorem test_witness_CascadeWorkIsShared_3 :
    remoteAt (remoteKey (sent 1)) gone ≠ none ∧ onLink gone = true ∧ gone.modes.follower = true ∧ gone.modes.fenced = false ∧ gone.modes.quarantine = false ∧ (sent 1).accum = none ∧ (sent 4).go = true ∧ (sent 0).kind = 0 := by decide +kernel
theorem test_witness_CascadeWorkIsShared_4 :
    ({ rj with accum := some .close } : RemoteIn).accum = some .close ∧ follows.media.inQ = [] ∧ route follows.modes.leadDie.toNat follows ≠ none := by decide +kernel
def awayJob : Job := { handle := 3, owner := .read 1, lun := 512, group := 5, state := .popped }
def away : State := { holding { ent 2 with phase := .waiting } leads with sched.jobs := [awayJob], sched.cws := [{ job := 3, eid := some 1, group := 5 }] }
theorem test_witness_CascadeWorkIsShared_5 :
    (3 : Nat) < 0x1000 ∧ entryAt 1 away = some { ent 2 with phase := .waiting }  := by decide +kernel
def awayR : State := { away with sched.jobs := [{ awayJob with items := [rdItem] }] }
theorem test_witness_CascadeWorkIsShared_6 :
    onLink awayR = true ∧ jobAt 3 awayR = some { awayJob with items := [rdItem] } ∧ ownLun awayJob.lun awayR = false ∧ entryAt 1 awayR = some { ent 2 with phase := .waiting } ∧ endsInRead [rdItem] = true ∧ itemType rdItem ≠ 5 ∧ cwsOf 3 awayR = [{ job := 3, eid := some 1, group := 5 }] ∧ ({ job := 3, eid := some 1, group := 5 } : Cw).state = .reading := by decide +kernel
def filling : State := { leads with stripe.slots := List.replicate 31 {} ++ [{ state := .filling, group := 5, row := 3 }] }
theorem test_witness_CascadeWorkIsShared_7 :
    findSlot 5 3 leads = none ∧ onLink filling = true ∧ findSlot 5 3 filling = some 31 ∧ (slotAt 31 filling).state = .filling ∧ (slotAt 31 filling).whole = false ∧ filling.modes.lead = true ∧ homeHere 5 filling = true ∧ [0, 1].all (fun m => !(slotAt 31 filling).folded.contains m) = true ∧ route 1 filling ≠ none := by decide +kernel
def writes1 : Entry := { ent 1 with row := 3, phase := .waiting, accepted := true, members := [1], away := [1] }
def awayW : State := { holding writes1 filling with sched.jobs := [{ awayJob with owner := .write 1 1, items := [pgItem], dataWait := true }] }
theorem test_witness_CascadeWorkIsShared_8 :
    onLink awayW = true ∧ jobAt 3 awayW = some { awayJob with owner := .write 1 1, items := [pgItem], dataWait := true } ∧ endsInRead [pgItem] = false ∧ entryAt 1 awayW = some writes1 ∧ findSlot 5 3 awayW = some 31 ∧ ownLun awayJob.lun awayW = false := by decide +kernel
theorem test_witness_CascadeWorkIsShared_9 :
    ({ leads with media.accWait := 2 } : State).media.accEid = none ∧ (0x1000 : Nat) ≤ 0x1001 ∧ 0x1001 < 0x1008 := by decide +kernel
theorem test_witness_CascadeWorkIsShared_10 :
    findSlot 5 3 { filling with modes.lead := false, modes.follower := true, modes.mode := .follower } = some 31 ∧ onLink { filling with modes.lead := false, modes.follower := true, modes.mode := .follower } = true := by decide +kernel
theorem test_witness_CascadeWorkIsShared_11 :
    follows.pins.mediaReady = true ∧ ({ follows with pins.mediaReady := false } : State).pins.mediaReady = false := by decide +kernel
def linked : State := nextOf (.job { wj with link := true, addrs := [] }) follows
theorem test_witness_CascadeWorkIsShared_12 :
    onLink linked = true ∧ (remoteAt (0x1000 + 9) linked).map (·.work.link) = some true := by decide +kernel
def awayCw : State := { away with sched.cws := [{ job := 3, group := 5, slot := 767 }] }
theorem test_witness_CascadeWorkIsShared_13 :
    onLink awayCw = true ∧ ownLun awayJob.lun awayCw = false ∧ jobAt 3 awayCw = some awayJob ∧ cwOf 3 0 awayCw = some { job := 3, group := 5, slot := 767 } := by decide +kernel
/-- Zero words are not listed, so an SRAM in which none is listed reads without an error. -/
theorem zero_words_read : ∀ (n a : Nat) (s : State), s.sram.words = [] → (readWords n a s).2.1 = true
  | 0, _, _, _ => rfl
  | n + 1, a, s, h => by
    have hr : readStored a s = (sramData 0, true, s) := by
      unfold readStored Sram.word
      rw [h, show (lookD 0 a ([] : List (Nat × BitVec 137))).toNat = 0 from rfl]
      simp only [show sramClass 0 = .clean from by decide +kernel]
    have hw : (readWord a s).2 = (true, s) := by
      unfold readWord
      rw [hr]
      simp only
      split <;> rfl
    unfold readWords
    simp only [hw, zero_words_read n (a + 1) s h, Bool.and_self]

/-- Zeros written to such an SRAM leave it so. -/
theorem zeros_written : ∀ (fuel off k : Nat) (s : State), off % 16 = 0 → s.sram.words = [] → s.sram.flipArm = false →
    (sramWriteFuel fuel off (zeros (16 * k)) s).sram.words = []
  | 0, _, _, _, _, h, _ => h
  | n + 1, off, 0, s, _, h, _ => h
  | n + 1, off, k + 1, s, ho, h, hf => by
    have ht : (zeros (16 * (k + 1))).take 16 = zeros 16 := by simp [zeros]
    have hd : (zeros (16 * (k + 1))).drop 16 = zeros (16 * k) := by simp [zeros]; omega
    have hl : 16 ≤ (zeros (16 * (k + 1))).length := by simp [zeros]
    have he : (zeros (16 * (k + 1))).isEmpty = false := by simp [zeros]
    unfold sramWriteFuel
    rw [he, ho, ht, hd, show leVal (zeros 16) = 0 from by decide +kernel]
    simp only [Bool.false_eq_true, if_false, beq_self_eq_true, Bool.true_and, decide_eq_true hl, if_true]
    have hz : sramEncode 0 = 0 := by decide +kernel
    have hw : (s.sram.writeWord (off / 16) 0).words = [] := by
      simp [Sram.writeWord, Sram.writeCode, Sram.putWord, hf, hz, h, dropKey]
    have hg : (s.sram.writeWord (off / 16) 0).flipArm = false := by
      simp [Sram.writeWord, Sram.writeCode, Sram.putWord, hf]
    exact zeros_written n (off + 16) k _ (by omega) hw hg

/-- Zeros written to an SRAM of zeros read back. -/
theorem zeros_read_back (off n k : Nat) (s : State) (ho : off % 16 = 0) (hn : n = 16 * k) (h : s.sram.words = [])
    (hf : s.sram.flipArm = false) : (sramRead off n (sramWrite off (padTo n []) s)).2.1 = true := by
  subst hn
  rw [show padTo (16 * k) ([] : List Byte) = zeros (16 * k) from by simp [padTo]]
  exact zero_words_read _ _ _ (zeros_written _ _ k s ho h hf)
/-- A codeword that is no scan read's has no label beside it. -/
theorem no_label_beside (c : Cw) (x : List Byte) (s : State) (h : c.wide = false) : landLabel c x s = s := by
  unfold landLabel
  rw [h]
  rfl

theorem test_witness_CascadeWorkIsShared_14 :
    (sramRead (landOff 767) 4096 (sramWrite (landOff 767) (padTo 4096 [])
      (landLabel { job := 3, group := 5, slot := 767 } [] awayCw))).2.1 = true := by
  rw [no_label_beside _ _ _ rfl]
  exact zeros_read_back _ _ 256 awayCw (by decide +kernel) rfl rfl rfl

theorem test_witness_CascadeWorkIsShared_15 :
    leads.modes.lead = true ∧ leads.modes.follower = false ∧ follows.modes.lead = false ∧ recType (mkRec 5 5 [(8, 2)]) ≠ 0x18 := by decide +kernel
def lossR : BitVec 256 := mkRec 0x18 0 [(8, 5), (12, 1), (13, 5), (14, 3), (16, 2), (20, 1)]
def lossE : LossEntry := parseLoss (le 24 (recFld lossR 8 24)) 0
theorem test_witness_CascadeWorkIsShared_16 :
    recType lossR = 0x18 ∧ bitAt lossE.mask.toNat 0 = true ∧ inLedger lossE.group lossE.member lossE.first 0 leads = false ∧ freeLedger leads ≠ none := by decide +kernel
theorem test_witness_CascadeWorkIsShared_17 :
    dirBytesBad (zeros 256) = false ∧ anchorOk (padTo 64 []) = false ∧ held.modes.holdup = true := by decide +kernel
theorem test_witness_CascadeWorkIsShared_18 :
    route 1 leads ≠ none ∧ leads.pins.mediaReady = true ∧ leads.media.heads.length = 16 ∧ (headAt 0 leads).answers = [] ∧ mKind 0xB000000000000000 = 11 ∧ msgZeros 0xB000000000000000 = true ∧ accOpenTo 0 leads = false ∧ leads.dv.east.up = true ∧ follows.modes.standby = false ∧ ({ follows with modes.standby := true } : State).modes.standby = true := by decide +kernel
def record9 : List Byte := le 4 0x0D1AAC40 ++ le 4 9 ++ zeros 52
theorem test_witness_CascadeWorkIsShared_19 :
    anchorOk (padTo 64 (record9 ++ le 4 (crc32c record9))) = true ∧ follows.modes.holdup = false ∧ follows.stripe.jrnl.anchorValid = false ∧ inReady leads = true ∧ leads.media.inQ = [] ∧ mKind 0xB000000000000000 ≠ 1 := by decide +kernel
def anc : AnchorMsg := { die := 1, bytes := record9 ++ le 4 (crc32c record9) }
theorem test_witness_CascadeWorkIsShared_20 :
    anchorOk (padTo 64 anc.bytes) = true ∧ follows.stripe.grantPend = false ∧ follows.modes.lead = false ∧ leAt anc.bytes 4 4 = 9 ∧ ({ leads with stripe.jrnl.anchorValid := true, stripe.jrnl.aseq := 9 } : State).stripe.jrnl.aseq.toNat = 9 ∧ ({ leads with dv.tkClose := true } : State).dv.tkClose = true := by decide +kernel
def owed : State := { follows with media.heads := List.replicate 15 {} ++ [{ answers := [{ fwd := some 4 }] }] }
theorem test_witness_CascadeWorkIsShared_21 :
    onLink owed = true ∧ owed.pins.mediaReady = true ∧ owed.modes.lead = false ∧ owed.media.heads.length = 16 ∧ (List.range 15).all (fun h => (headAt h owed).answers.isEmpty) = true ∧ (headAt 15 owed).answers = [{ fwd := some 4 }] ∧ (headAt 15 owed).via = none ∧ mHead 0x6F00000000000005 = 15 ∧ mKind 0x6F00000000000005 = 6 := by decide +kernel
theorem test_witness_CascadeWorkIsShared_22 :
    (∀ x ∈ follows.media.heads, x.answers = []) ∧ follows.media.heads.length = 16 ∧ mKind 0x6000000000000005 = 6 := by decide +kernel

theorem test_witness_InterruptsAndEventQueue_1 :
    hasInput 127 = true ∧ hasInput 130 = true ∧ hasInput 128 = false ∧ hasInput 255 = false := by decide +kernel
theorem test_witness_InterruptsAndEventQueue_2 :
    up.irq.wf := by unfold Irq.wf; decide +kernel
theorem test_witness_InterruptsAndEventQueue_3 :
    (7 : Nat) < 8 ∧ Writer.hostPort ≠ .mainCore ∧ up.evq.copy.length < 256 := by decide +kernel
def fires : State := { up with irq.pend := List.replicate 239 false ++ [true] ++ List.replicate 16 false, irq.route := List.replicate 256 0x3F }
theorem test_witness_InterruptsAndEventQueue_4 :
    groupWants 29 5 fires = true ∧ fires.irq.signalled.getD 5 false = false ∧ fires.irq.deadline.getD 29 none = none := by decide +kernel
theorem test_witness_InterruptsAndEventQueue_5 :
    fires.irq.wf := by unfold Irq.wf; decide +kernel
def timed : State := { fires with irq.deadline := List.replicate 30 (some 30000) }
theorem test_witness_InterruptsAndEventQueue_6 :
    timed.irq.deadline.getD 29 none ≠ none ∧ groupWants 29 5 timed = true ∧ groupWants 29 1 timed = true ∧ timed.irq.signalled.getD 1 false = false ∧ timed.irq.idle.getD 5 false = false ∧ ({ timed with irq.idle := List.replicate 6 true } : State).irq.idle.getD 5 false = true ∧ groupWants 29 5 up = false := by decide +kernel
theorem test_witness_InterruptsAndEventQueue_7 :
    bitAt (0x106 : Word).toNat 8 = true ∧ bitAt (6 : Word).toNat 8 = false ∧ up.evq.enable = false ∧ ({ up with evq.enable := true } : State).evq.enable = true ∧ up.evq.size ≤ fld (64 : Word).toNat 0 16 ∧ fld (63 : Word).toNat 0 16 < up.evq.size := by decide +kernel
theorem test_witness_InterruptsAndEventQueue_8 :
    up.evq.copy = [] ∧ up.evq.logged = [] ∧ ({ up with evq.copy := [zeros 32] } : State).evq.copy = [zeros 32] := by decide +kernel
theorem test_witness_InterruptsAndEventQueue_9 :
    ({ up with evq.logged := [zeros 32] } : State).evq.logged = [zeros 32] ∧ up.cab.prog = none ∧ up.modes.holdup = false := by decide +kernel

theorem test_witness_CabinetRoutine_1 :
    (⟨false, true⟩ : Caller).boot = false ∧ held.modes.holdup = true ∧ up.modes.holdup = false ∧ up.cab.prog = none ∧ up.cab.erase = none := by decide +kernel
def cabUp : State := { up with cab.erase := some { op := 2, sector := 2047 } }
def cabProg : State := { up with cab.prog := some { op := 1, sector := 2046, words := [(2046 * 512, 5)] } }
theorem test_witness_CabinetRoutine_2 :
    cabProg.cab.prog ≠ none ∧ (cabUp.cab.erase.map (·.sector)) = some 2047 ∧ sectorFailed up.cab 2047 = false ∧ blankAll up.cab.words false (2047 * 512 + 511) [1] = true ∧ (511 : Nat) + [(1 : BitVec 64)].length ≤ 512 ∧ blankAll [(0, (0 : BitVec 64))] false 0 [1] = false := by decide +kernel
theorem test_witness_CabinetRoutine_3 :
    cabBusy cabUp.cab = true ∧ cabBusy up.cab = false ∧ eraseCount up.cab 2047 + 2 < 2 ^ 32 ∧ (cabUp.cab.erase.map (·.suspended)) = some false ∧ (cabCurrent cabProg.cab).map (fun o => decide (o.sector < 65536 ∧ o.words.length < 65535)) = some true := by decide +kernel
def suspended1 : State := { up with cab.erase := some { op := 2, sector := 2047, suspended := true } }
theorem test_witness_CabinetRoutine_4 :
    (suspended1.cab.erase.map (·.suspended)) = some true ∧ suspended1.cab.prog = none ∧ suspended1.modes.holdup = false := by decide +kernel
def maker : State := { up with modes.factory := true, modes.mode := .factory }
theorem test_witness_CabinetRoutine_5 :
    markAllowed 63 1 false maker = true ∧ markAllowed 127 1 false up = false ∧ blankAll maker.cab.mark false 63 [1] = true ∧ markAllowed 112 1 true { up with cab.mark := [(112, 0)] } = true ∧ blankAll [(112, (0 : BitVec 64))] true 112 [1] = false := by decide +kernel
theorem test_witness_CabinetRoutine_6 :
    ([(2046 * 512, (5 : BitVec 64))]).Pairwise (fun a b => a.1 ≠ b.1) ∧ (0 : Nat) < [(2046 * 512, (5 : BitVec 64))].length := by decide +kernel
def full : State := { up with cab.savePos := 520000 }
theorem test_witness_CabinetRoutine_7 :
    up.cab.savePos = 0 ∧ full.cab.savePos ≠ 0 ∧ saveFree full < 16384 ∧ full.modes.holdup = false := by decide +kernel
theorem test_witness_CabinetRoutine_8 :
    halfErased (1 - full.cab.saveHalf % 2) full = true := by decide +kernel

theorem test_witness_DictionaryPortRequests_1 :
    ((fun v => Instr.dictRead v, 1) : (Word → Instr) × Nat).2 = 1 ∧ State.reset.pins.inReset = true ∧ up.dict.busy = false ∧ ({ up with dict.busy := true } : State).dict.busy = true ∧ fld (0x10100001 : Word).toNat 28 4 = 1 ∧ fld (0x20100001 : Word).toNat 28 4 ≠ 1 ∧ fld (0x11100001 : Word).toNat 24 4 ≠ 0 ∧ 4 ≤ fld (0xF0100001 : Word).toNat 28 4 := by decide +kernel
theorem test_witness_DictionaryPortRequests_2 :
    objCheck 0 .read (fld (0x10FFFF01 : Word).toNat 8 16) (fld (0x10FFFF01 : Word).toNat 0 8) up = .inl abNoObject ∧ objCheck 0 .write 0x1000 1 up = .inl abNotWritable ∧ objCheck 0 .describe 0x1000 0xFF up = .inl abNoSubindex := by decide +kernel
theorem test_witness_DictionaryPortRequests_3 :
    (objCheck 0 .read (fld (0x10100001 : Word).toNat 8 16) (fld (0x10100001 : Word).toNat 0 8) up).isRight = true ∧ up.dict.length.toNat ≤ 1024 ∧ 1024 < (1025 : BitVec 11).toNat ∧ up.dict.offset = 0 ∧ (0x1000 : Nat) ≠ 0x1210 := by decide +kernel
def snapped : State := { up with dict.offset := 1, dict.port := { snap := some ((0x1000, 1), zeros 16) } }
theorem test_witness_DictionaryPortRequests_4 :
    snapped.dict.offset ≠ 0 ∧ snapped.dict.port.timedRead ≠ some (0x1000, 1) ∧ snapped.dict.port.snap = some ((0x1000, 1), zeros 16) ∧ snapped.dict.offset.toNat < (zeros 16).length ∧ up.dict.port.snap = none := by decide +kernel
def writing : State := { vendor with dict.length := 4, dict.total := 4, dict.last := true }
theorem test_witness_DictionaryPortRequests_5 :
    (objCheck 0 .write 0x2500 2 writing).isRight = true ∧ writing.dict.buf.length = 1024 ∧ fld (0x20250002 : Word).toNat 28 4 = 2 := by decide +kernel
theorem test_witness_DictionaryPortRequests_6 :
    (findObj 0x7000 1).map (fun o => (decide (o.acc ≠ .wo), o.flags / 4 % 2)) = some (true, 0) := by decide +kernel
theorem test_witness_DictionaryPortRequests_7 :
    (objCheck 0 .describe 0x1000 1 up).isRight = true ∧ fld (0x30100001 : Word).toNat 28 4 = 3 := by decide +kernel
def selects : State := { vendor with dict.length := 1, dict.total := 1, dict.last := true, dict.buf := 191 :: zeros 1023 }
theorem test_witness_DictionaryPortRequests_8 :
    (objCheck 0 .write 0x3C00 0x0F selects).isRight = true ∧ (findObj 0x3C00 0x0F).map (fun o => (o.len, valueCheck o 0x3C00 0x0F (selects.dict.buf.take 1) selects)) = some (1, 0) ∧ valueLevel 0x3C00 0x0F (selects.dict.buf.take 1) ≤ selects.dict.port.level.toNat ∧ (findObj 0x3C00 0x0F).map (fun o => (decide (o.acc = .rw), o.flags / 4 % 2)) = some (true, 0) := by decide +kernel
theorem test_witness_DictionaryPortRequests_9 :
    ∀ x, actOn 0 0x3C00 0x0F [191] x = (0, x) := fun _ => rfl
theorem test_witness_DictionaryPortRequests_10 :
    ({ snapped with dict.port := { timedRead := some (0x1000, 1) } } : State).dict.port.timedRead = some (0x1000, 1) := by decide +kernel

theorem test_witness_CanNodeServesClients_1 :
    canOn up = true ∧ canOn State.reset = false ∧ 1 ≤ byteAt [1, 0, 127] 0 ∧ byteAt [1, 0, 127] 2 = 127 ∧ 127 < byteAt [1, 0, 128] 2 ∧ byteAt [1, 0, 0] 2 = 0 ∧ 127 ∈ ({ up with dict.lostClients := [127] } : State).dict.lostClients ∧ fld (byteAt [1, 0, 1, 0, 0, 0, 0, 2] 7) 1 7 ≠ 0 := by decide +kernel
def frame (cmd : Byte) (sub : Byte) (idx : Nat) (len seg : Byte) (tot : Nat) (d : List Byte) : List Byte := [cmd, 0, 127, sub] ++ le 2 idx ++ [len, seg] ++ le 4 0 ++ le 4 tot ++ d
theorem test_witness_CanNodeServesClients_2 :
    servesFrame 1 (frame 1 1 0x1000 48 0 0 []) up ∧ (objCheck 127 .read 0x1000 1 up).isRight = true ∧ leAt (frame 1 1 0x1000 48 0 0 []) 4 2 = 0x1000 ∧ byteAt (frame 1 1 0x1000 48 0 0 []) 6 ≤ 48 ∧ 48 < byteAt (frame 1 1 0x1000 49 0 0 []) 6 ∧ leAt (frame 1 1 0x1000 48 0 0 []) 8 4 = 0 := by unfold servesFrame; decide +kernel
theorem test_witness_CanNodeServesClients_3 :
    servesFrame 1 (frame 1 1 0xFFFF 4 0 0 []) up ∧ objCheck 127 .read 0xFFFF 1 up = .inl abNoObject := by unfold servesFrame; decide +kernel
theorem test_witness_CanNodeServesClients_4 :
    servesFrame 2 (frame 2 0x0F 0x3C00 1 1 1 [191]) up ∧ (objCheck 127 .write 0x3C00 0x0F up).isRight = true ∧ leAt (frame 2 0x0F 0x3C00 1 1 1 [191]) 12 4 = 1 ∧ byteAt (frame 2 0x0F 0x3C00 1 1 1 [191]) 7 = 1 ∧ slice (frame 2 0x0F 0x3C00 1 1 1 [191]) 16 1 = [191] ∧ valueLevel 0x3C00 0x0F [191] ≤ (sessionAt 127 up).level.toNat := by unfold servesFrame; decide +kernel
theorem test_witness_CanNodeServesClients_5 :
    ∀ x, actOn 127 0x3C00 0x0F [191] x = (0, x) := fun _ => rfl
theorem test_witness_CanNodeServesClients_6 :
    servesFrame 3 (frame 3 1 0x1000 0 0 0 []) up ∧ (objCheck 127 .describe 0x1000 1 up).isRight = true ∧ servesFrame 4 (frame 4 0 0 0 0 0 []) up := by unfold servesFrame; decide +kernel
theorem test_witness_CanNodeServesClients_7 :
    cfg 0x1300 5 { up with dict.saved := [((0x1300, 5), le 2 100)], dict.force := [((0x1300, 5), le 2 100)] } ≠ 0 ∧ cfg 0x1300 5 { up with dict.saved := [((0x1300, 5), le 2 0)], dict.force := [((0x1300, 5), le 2 0)] } = 0 := by decide +kernel
theorem test_witness_CanNodeServesClients_8 :
    up.dict.events = [] ∧ ({ up with dict.events := [zeros 32] } : State).dict.events = [zeros 32] ∧ ({ up with dict.errState := 2 } : State).dict.errState = 2 ∧ up.dict.errState ≠ 2 ∧ ({ up with dict.errState := 1 } : State).dict.errState = 1 ∧ canOn { up with dict.errState := 1 } = true := by decide +kernel
theorem test_witness_CanNodeServesClients_9 :
    16 ≤ (frame 1 1 0x1000 48 0 0 []).length ∧ ([4, 0, 127] : List Byte).length < 16 ∧ servesFrame 4 [4, 0, 127] up ∧ servesFrame 3 ((frame 3 1 0x1000 0 0 0 []).take 12) up ∧ ((frame 3 1 0x1000 0 0 0 []).take 12).length < 16 ∧ (objCheck 127 .describe 0x1000 1 up).isRight = true := by unfold servesFrame; decide +kernel
theorem test_witness_CanNodeServesClients_10 :
    ((findObj 0x1000 1).map (fun o => decide ((readObject o 0x1000 1 up).length < 2 ^ 32))) = some true := by decide +kernel

theorem test_witness_ObjectsThatAct_1 :
    objectCommand (.authRequest 0 1) = some (0, 0x1210, 1) ∧ State.reset.pins.inReset = true ∧ canOn State.reset = false ∧ (128 : Nat) > 127 ∧ objCheck 0 .write 0x3C00 7 up = .inl abPrivilege := by decide +kernel
theorem test_witness_ObjectsThatAct_2 :
    canOn { vendor with dict.lostClients := [127] } = true ∧ 127 ∈ ({ vendor with dict.lostClients := [127] } : State).dict.lostClients := by decide +kernel
theorem test_witness_ObjectsThatAct_3 :
    [1, 3, 4, 6].all (fun k => (objCheck 0 .write 0x1210 k vendor).isRight) = true := by decide +kernel
theorem test_witness_ObjectsThatAct_4 :
    (objCheck 0 .read 0x1210 2 vendor).isRight = true ∧ [1, 2, 3, 5].all (fun k => (objCheck 0 .write 0x1201 k vendor).isRight) = true := by decide +kernel
theorem test_witness_ObjectsThatAct_5 :
    challengeNow vendor.dict.port vendor = none ∧ challengeNow { challenge := some (zeros 48) } vendor = some (zeros 48) ∧ (zeros 97).length = 97 ∧ (zeros 96).length = 96 := by decide +kernel
theorem test_witness_ObjectsThatAct_6 :
    vendor.dict.port.level.toNat = 2 ∧ firmwareRuns vendor = true ∧ imgTarget vendor = 0 := by decide +kernel
def target1 : State := { vendor with dict.saved := [((0x1201, 1), [4]), ((0x1201, 2), le 4 276)], dict.imgState := 1 }
theorem test_witness_ObjectsThatAct_7 :
    imgTarget target1 = 4 ∧ imageLengthOk (imgTarget target1) (276 - 256) = true ∧ imgLength target1 = 276 ∧ target1.modes.holdup = false ∧ (∀ i ∈ imgSectors 276 target1, sectorFailed target1.cab i = false) ∧ (imgSegment 0 true (zeros 276) target1).1 = 0 ∧ target1.dict.imgState = 1 ∧ vendor.dict.imgState ≠ 1 ∧ vendor.dict.imgState ≠ 2 ∧ ({ vendor with dict.imgState := 2 } : State).dict.imgState = 2 := by decide +kernel
theorem test_witness_ObjectsThatAct_8 :
    (objCheck 0 .write 0x1300 0x0A vendor).isRight = true ∧ saveWorks vendor = true ∧ (objCheck 0 .write 0x6000 6 vendor).isRight = true ∧ (objCheck 0 .write 0x1100 5 vendor).isRight = true := by decide +kernel
theorem test_witness_ObjectsThatAct_9 :
    saveWorks { vendor with modes.holdup := true } = true ∧ ({ vendor with modes.holdup := true } : State).modes.holdup = true ∧ (objCheck 0 .write 0x1300 0x0A { vendor with modes.holdup := true }).isRight = true := by decide +kernel
theorem test_witness_ObjectsThatAct_10 :
    (objCheck 0 .write 0x3C00 7 vendor).isRight = true ∧ (objCheck 0 .write 0x3C00 8 vendor).isRight = true ∧ floorAt 0x380 vendor = 0 ∧ (256 : BitVec 16).toNat ≤ 256 ∧ floorAt 0x380 { vendor with cab.mark := [(112, 0xFFFFFFFFFFFFFFFE)] } = 1 := by decide +kernel
def makes : State := { vendor with modes.mode := .factory, modes.factory := true }
theorem test_witness_ObjectsThatAct_11 :
    (objCheck 0 .write 0x3C00 9 (marked makes)).isRight = true ∧ nextSlot (marked makes) = some 0 ∧ factoryOk (marked makes) = true ∧ factoryOk makes = false ∧ (zeros 80).length = 80 := by decide +kernel
theorem test_witness_ObjectsThatAct_12 :
    (objCheck 0 .write 0x3C00 0x0A makes).isRight = true ∧ erasedIn makes.cab.mark 0 64 = true ∧ erasedIn (marked makes).cab.mark 0 64 = false ∧ (zeros 504).length = 504 := by decide +kernel
theorem test_witness_ObjectsThatAct_13 :
    (objCheck 0 .write 0x3C00 0x10 vendor).isRight = true ∧ sectorFailed vendor.cab 0x740 = false ∧ 0x740 + leVal (stored 0x3C00 0x0F vendor) = 0x740 := by decide +kernel

theorem test_witness_SramIntegrityCommands_1 :
    scrubRuns up = false ∧ scrubRuns { up with sram.scrubOn := true } = true ∧ up.sram.merge = [] ∧ up.sram.rewrites = [] := by decide +kernel
theorem test_witness_SramIntegrityCommands_2 :
    ({ up with sram.rewrites := [(786431, 5)] } : State).sram.rewrites = [(786431, 5)] ∧ up.sram.merge[7]? = none ∧ (({ up with sram.merge := [{ word := 786431 }] } : State).sram.merge[0]?).isSome = true ∧ up.sram.flipArm = false := by decide +kernel
theorem test_witness_SramIntegrityCommands_3 :
    136 < fld (137 : Word).toNat 0 8 ∧ fld (0xC7008888 : Word).toNat 0 8 ≤ 136 ∧ bitAt (0xC7008888 : Word).toNat 30 = true ∧ fld (0xC7008888 : Word).toNat 8 8 ≤ 136 := by decide +kernel

theorem test_witness_RegisterAccesses_1 :
    accessOk .hostPort false 0x3FFFC = true ∧ accessCode false 0x3FFFC up ≠ 0 ∧ accessCode true 0x14 up ≠ 0 ∧ accessOk .hostPort true 0x14 = true ∧ accessCode false 0x14 State.reset ≠ 0 ∧ accessOk .hkCore false 0x3FFFC = true := by decide +kernel
theorem test_witness_RegisterAccesses_2 :
    accessOk .hostPort false 0x14 = true ∧ (readReg 0x14 up).isSome = true ∧ accessOk .hostPort false 0x06008 = true ∧ (readReg 0x06008 up).isSome = true ∧ accessOk .hostPort true 0x20 = true ∧ (readReg 0x20 up).isSome = true ∧ (readReg 0x24 up).isSome = true := by decide +kernel
theorem test_witness_RegisterAccesses_3 :
    mainOnly 0x0E028 = true ∧ accessCode false 0x0E028 up = 0 ∧ accessOk .hkCore false 0x0E028 = true ∧ mainOnly 0x0BC00 = true ∧ accessCode false 0x0BC00 up = 0 ∧ mainOnly 0x04810 = true := by decide +kernel
theorem test_witness_RegisterAccesses_4 :
    accessOk .hostPort false 0x06000 = true ∧ accessCode false 0x06000 up = 0 ∧ accessCode false 0x07000 up = 0 := by decide +kernel
theorem test_witness_RegisterAccesses_5 :
    up.pins.inReset = false ∧ up.pins.powered = true ∧ accessCode false 0x14 { up with pins.powered := false } = 1 := by decide +kernel

/-! ### The statements about every step -/

/-- One command waits. -/
def queued : State := { up with pending := [.nop 1] }

theorem test_witness_StepRunsFrontCommand : up.pending = [] := rfl

theorem test_witness_EveryStepKeepsTheForms_1 : Kept queued := by
  constructor
  all_goals try unfold jigsWf
  all_goals try unfold imageWf
  all_goals try unfold lunsWf
  all_goals try unfold Irq.wf
  all_goals try unfold Cabinet.wf
  all_goals try unfold Sram.wf
  all_goals try unfold HostPorts.wf
  all_goals try unfold Dict.wf
  all_goals decide +kernel

theorem test_witness_EveryStepKeepsTheForms_2 : step queued = .next up := rfl

theorem test_witness_CommandsLeaveTheQueueAlone : exec (.nop 1) queued = .next queued := rfl

theorem test_witness_OnlyPorEndsHoldup_1 : held.modes.holdup = true ∧ held.pins.holdupDone = true
    ∧ Instr.nop 1 ≠ .porNAssert := by decide +kernel

theorem test_witness_OnlyPorEndsHoldup_2 : exec (.nop 1) held = .next held := rfl

/-- The thermal latch is set. -/
def latched : State := { up with modes.quarantine := true, modes.mode := .quarantine }

theorem test_witness_OnlyPorEndsQuarantine : latched.modes.quarantine = true := rfl

theorem test_witness_PrimaryModeFollowsTheConditions : modeFollows up ∧ exec (.nop 1) up = .next up :=
  ⟨by unfold modeFollows; decide +kernel, rfl⟩

theorem test_witness_SramCodeCorrectsOneAndDetectsTwo : (2 ^ 128 - 1 : Nat) < 2 ^ 128 ∧ (0 : Nat) < 137 ∧ (136 : Nat) < 137
    ∧ (0 : Nat) ≠ 136 ∧ sramClass (flipBit (flipBit (sramEncode (2 ^ 128 - 1)) 0) 136) = .bad := by decide +kernel

/-! ### Commands that name a unit the block does not have -/

theorem test_ill_formed : [Instr.targetReadyTimeout 16 0, .targetReadyTimeout 0 8, .ringEnable 64, .ringShutdown 64 [],
    .ringRestart 64, .ringDoorbell 64 1, .ringFetch 64 .err .err, .drawerPlace 16, .xmChargeRelease 16, .mcClampRelease 16,
    .jigReload 16 true, .jigTimerExpiry 16, .statusCapture 16 0, .jigResume .hostPort 16, .jigStop .hostPort 16,
    .codewordEncode 4 none, .hardDecode 8 0 0 false, .softDecode 4 0 0 false, .fusionDecode 1 0 0 false, .driftTrip 16 0,
    .retrainDue 16, .searchRestart 16, .journalCandidates 0 0, .journalCandidates 9 0, .droopTrip 4, .sourceEvent 256 0,
    .groupFire 30 0, .groupFire 0 6, .holdoffExpiry 30, .irqPset .hostPort 8 0, .irqPendClear 8 0, .signalledClear .hostPort 6,
    .idleSet .hostPort 6, .privilegedRaise 239 [], .privilegedRaise 256 [], .mergeRetire 8, .registerReadClear .hostPort false 2,
    .registerReadClear .hostPort false 0x40000, .registerReadClear .mainCore true 0,
    .registerWrite .hostPort false 1 0 []].all (fun c => !wellFormed c) = true := by decide +kernel

theorem test_ill_formed_stops : exec (.ringEnable 64) up = .fault .noSuchUnit := rfl

theorem test_no_word_spells_a_command : decodeTableWord 32 0 = none ∧ up.withFetchWord 32 0 = up := ⟨rfl, rfl⟩

/-! ### Worked examples of the spec -/

/-- The state that a command answers. -/
def after (c : Instr) (s : State) : Option State :=
  match exec c s with
  | .next t => some t
  | _ => none

/-- The dispatch word of the example under R135. -/
theorem test_microword_bytes : asm [(149, 1), (143, 1), (129, 1), (50, 1)] = 0xA020800200000000000000000004000000000000 := by
  decide +kernel

/-- P and Q of the example of chapter 9: 0x11, 0x22 and 0x80. -/
theorem test_row_parity : (0x11 ^^^ 0x22 ^^^ 0x80 : Nat) = 0xB3
    ∧ (0x11 ^^^ gfMul (gfPow 1) 0x22 ^^^ gfMul (gfPow 2) 0x80 : Nat) = 0x6F ∧ gfMul (gfInv 0x05) 0x55 = 0x11 := by decide +kernel

/-- The randomiser of the example under R227. -/
theorem test_randomiser : seed 0x123 0x456 9 = 0x4C560123 ∧ stream 2 0x4C560123 = [0xBA, 0x33] := by decide +kernel

/-- LUN 2 on chip enable 5 of CH9 of die 3: the example of chapter 12. -/
theorem test_global_lun : globalLun 9 5 2 { up with modes.dieId := 3 } = 0x736 := by decide +kernel

/-- Position 37 holds data bit 30, and with position 2 it leaves the syndrome 0x27 (the example of chapter 17). -/
theorem test_sram_positions : dataPos.getD 30 0 = 37 ∧ synd (flipBit (flipBit (sramEncode 0) 37) 2) = 0x27
    ∧ qParity (flipBit (flipBit (sramEncode 0) 37) 2) = false := by decide +kernel

/-- The blank check of the example under R532. -/
theorem test_blank_check : blankAll [(0, 0xFFFF0000FFFFFFFF)] true 0 [0xFF0F0000FFFFF00F] = true
    ∧ blankAll [(0, 0xFFFF0000FFFFFFFF)] true 0 [0xFF0F00F0FFFFF00F] = false
    ∧ blankAll [(0, 0xFFFF0000FFFFFFFF)] false 0 [0xFF0F0000FFFFF00F] = false := by decide +kernel

/-- Sector 0x412 with half B in force at 2,999 and its erase done. -/
def sector412 : State := { up with cab.heads :=
  [(0x412 * 8 + 4, BitVec.ofNat 64 (2999 + crc32c (le 4 2999) * 2 ^ 32)), (0x412 * 8 + 5, BitVec.ofNat 64 doneWord)] }

/-- The erase of the example under R538 puts half A in force at 3,000, interrupted. -/
theorem test_erase_counts_once : (after (.erase ⟨true, true⟩ 0x412) sector412).map
    (fun t => (halfInForce t.cab 0x412, sectorInterrupted t.cab 0x412, sectorInterrupted sector412.cab 0x412))
      = some (some (0, 3000), true, false) := by decide +kernel

/-- An erase cut off in step 2 leaves the old half in force, with its erase done (R538). -/
theorem test_erased_half_is_not_in_force : halfInForce sector412.cab 0x412 = some (1, 2999)
    ∧ halfInForce up.cab 0x412 = none := by decide +kernel

/-- The example of chapter 18: the words at offset 0 and 4. -/
theorem test_identity_registers : (after (.registerReadClear .hostPort true 0) up).map (fun t => t.regs.rsp)
    = some [(0, 0x104008400D1AD016)] := by decide +kernel

end Sys2Proof.Test
end

/-!
What an access of the register window answers, which RC fields a read clears and what a write does, up to the statement
about register accesses (R4, R28, R30, R31, R54, R61, R87, R467, R483, R575, R576, R577).
-/
namespace Sys2Proof.Machine

/-! ### Fields of the words of a 64-bit write -/

theorem bitAt_eq_testBit (v i : Nat) : bitAt v i = v.testBit i := by
  rw [bitAt, Nat.testBit_eq_decide_div_mod_eq]
  rfl

/-- The low word of a write has the bits of the written value. -/
theorem bitAt_lowWord (x : Nat) {i : Nat} (h : i < 32) : bitAt (x % 2 ^ 32) i = bitAt x i := by
  simp only [bitAt_eq_testBit, Nat.testBit_mod_two_pow, h, decide_true, Bool.true_and]

/-- BASE_LO lies in the low word of a write (R87). -/
theorem fld_baseLo_lowWord (x : Nat) : fld (x % 2 ^ 32) 12 20 = fld x 12 20 := by
  rw [fld, fld]
  omega

/-! ### Responses (R30, R31, R576) -/

theorem answerReg_hostPort (code data : Nat) (s : State) : answerReg .hostPort code data s
    = { s with regs := { s.regs with rsp := s.regs.rsp ++ [(BitVec.ofNat 2 code, BitVec.ofNat 64 data)] } } := rfl

/-- A core gets an access fault for each code but OKAY. -/
theorem answerReg_core {who : Writer} {code : Nat} (hw : who ≠ .hostPort) (hc : code ≠ 0) (data : Nat) (s : State) :
    answerReg who code data s = { s with regs := { s.regs with coreFaults := s.regs.coreFaults + 1 } } := by
  cases who with
  | hostPort => exact absurd rfl hw
  | mainCore => simp [answerReg, hc]
  | hkCore => simp [answerReg, hc]

theorem accessCode_of_isolated {s : State} (h : s.pins.inReset = true ∨ s.pins.powered = false) (wide : Bool) (a : Nat) :
    accessCode wide a s = 1 := by
  rcases h with h | h <;> simp [accessCode, h]

theorem accessCode_narrow {s : State} {a : Nat} {v : Word} (hr : s.pins.inReset = false) (hp : s.pins.powered = true)
    (hv : readReg a s = some v) : accessCode false a s = 0 := by
  simp [accessCode, holdsReg, hr, hp, hv]

theorem accessCode_wide {s : State} {a : Nat} {lo hi : Word} (hr : s.pins.inReset = false) (hp : s.pins.powered = true)
    (ha : a % 8 = 0) (hlo : readReg a s = some lo) (hhi : readReg (a + 4) s = some hi) : accessCode true a s = 0 := by
  simp [accessCode, holdsReg, hr, hp, ha, hlo, hhi]

theorem exec_registerReadClear_coded {who : Writer} {wide : Bool} {a : Nat} {s : State} (hok : accessOk who wide a = true)
    (hc : accessCode wide a s ≠ 0) :
    exec (.registerReadClear who wide a) s = .next (answerReg who (accessCode wide a s) 0 s) := by
  simp [exec, execRegisterReadClear, checked, hok, hc]

theorem exec_registerWrite_coded {who : Writer} {wide : Bool} {a : Nat} {s : State} (hok : accessOk who wide a = true)
    (hc : accessCode wide a s ≠ 0) (x : BitVec 64) (w : List HostRead) :
    exec (.registerWrite who wide a x w) s = .next (answerReg who (accessCode wide a s) 0 s) := by
  simp [exec, execRegisterWrite, checked, hok, hc]

/-! ### Reads (R4, R28) -/

/-- Every register but the TGT_STATUS of a core target reads as its value. -/
theorem sampleReg_value {a : Nat} {v : Word} {s : State} (h0 : a ≠ 0x04800) (h1 : a ≠ 0x04810) (hv : readReg a s = some v) :
    sampleReg a s = (v.toNat, s) := by
  simp [sampleReg, h0, h1, hv]

theorem exec_registerReadClear_narrow {a : Nat} {v : Word} {s : State} (hok : accessOk .hostPort false a = true)
    (hc : accessCode false a s = 0) (h0 : a ≠ 0x04800) (h1 : a ≠ 0x04810) (hv : readReg a s = some v) :
    exec (.registerReadClear .hostPort false a) s = .next (answerReg .hostPort 0 v.toNat (clearReg a s)) := by
  simp [exec, execRegisterReadClear, checked, hok, hc, sampleReg_value h0 h1 hv]

theorem exec_registerReadClear_wide {a : Nat} {lo hi : Word} {s : State} (hok : accessOk .hostPort true a = true)
    (hc : accessCode true a s = 0) (ha : a < 0x04000) (hlo : readReg a s = some lo) (hhi : readReg (a + 4) s = some hi) :
    exec (.registerReadClear .hostPort true a) s
      = .next (answerReg .hostPort 0 (lo.toNat + 2 ^ 32 * hi.toNat) (clearReg (a + 4) (clearReg a s))) := by
  have slo := sampleReg_value (by omega) (by omega) hlo
  have shi := sampleReg_value (by omega) (by omega) hhi
  simp [exec, execRegisterReadClear, checked, hok, hc, slo, shi]

/-- `t` has the modes, the rings, the cabinet and the answered accesses of `s`. -/
structure ReadFrame (s t : State) : Prop where
  modes : t.modes = s.modes
  rings : t.rings = s.rings
  cab : t.cab = s.cab
  regs : t.regs = s.regs

theorem ReadFrame.ite {s t u : State} {c : Prop} [Decidable c] (ht : ReadFrame s t) (hu : ReadFrame s u) :
    ReadFrame s (if c then t else u) := by split <;> assumption

theorem ReadFrame.refl (s : State) : ReadFrame s s := ⟨rfl, rfl, rfl, rfl⟩

theorem ReadFrame.modJig (n : Nat) (f : Jig → Jig) (s : State) : ReadFrame s (modJig n f s) := ⟨rfl, rfl, rfl, rfl⟩

/-- No RC field lies in what `ReadFrame` names. -/
theorem clearReg_frame (a : Nat) (s : State) : ReadFrame s (clearReg a s) := by
  unfold clearReg
  refine .ite ⟨rfl, rfl, rfl, rfl⟩ (.ite ⟨rfl, rfl, rfl, rfl⟩ (.ite ?jig ?other))
  case jig =>
    dsimp only
    split
    · exact .modJig _ _ s
    · exact .modJig _ _ s
    · exact .refl s
  case other =>
    repeat' with_reducible refine ReadFrame.ite ?_ ?_
    all_goals exact ⟨rfl, rfl, rfl, rfl⟩

/-- No register below the interrupt controller has an RC field. -/
theorem clearReg_of_lt {a : Nat} (h : a < 0x04000) (s : State) : clearReg a s = s := by
  have hle (k : Nat) (hk : 0x04000 ≤ k) : ¬ k ≤ a := by omega
  have hne (k : Nat) (hk : 0x04000 ≤ k) : a ≠ k := by omega
  simp [clearReg, hle, hne]

theorem clearReg_irqCount {a : Nat} (hlo : 0x04400 ≤ a) (hhi : a < 0x04500) (s : State) :
    clearReg a s = { s with irq := clearCounts ((a - 0x04400) / 4) s.irq } := by
  simp [clearReg, hlo, hhi]

/-- The four counts of the word are zero (R467). -/
theorem clearCounts_getD {k n : Nat} (hlo : 4 * k ≤ n) (hhi : n < 4 * k + 4) (q : Irq) :
    (clearCounts k q).count.getD n 0 = 0 := by
  obtain ⟨j, rfl⟩ := Nat.exists_eq_add_of_le hlo
  have hj : j = 0 ∨ j = 1 ∨ j = 2 ∨ j = 3 := by omega
  rcases hj with rfl | rfl | rfl | rfl <;>
    simp [clearCounts, List.range, List.range.loop, List.getD_eq_getElem?_getD, List.getElem?_set]
  all_goals split <;> simp

/-! ### Writes (R4, R577) -/

theorem exec_registerWrite_refused {who : Writer} {wide : Bool} {a : Nat} {s : State} (hok : accessOk who wide a = true)
    (hc : accessCode wide a s = 0) (hr : refusedWrite who wide a = true) (x : BitVec 64) (w : List HostRead) :
    exec (.registerWrite who wide a x w) s = .next (answerReg who 3 0 s) := by
  simp [exec, execRegisterWrite, checked, hok, hc, hr]

theorem exec_registerWrite_okay {who : Writer} {wide : Bool} {a : Nat} {s : State} (hok : accessOk who wide a = true)
    (hc : accessCode wide a s = 0) (hr : refusedWrite who wide a = false) (x : BitVec 64) (w : List HostRead) :
    exec (.registerWrite who wide a x w) s = .next (answerReg who 0 0 (writeRegs who wide a x w s)) := by
  simp [exec, execRegisterWrite, checked, hok, hc, hr]

theorem refusedWrite_narrow {who : Writer} {a : Nat} (hm : mainOnly a = true) (hw : who ≠ .mainCore) :
    refusedWrite who false a = true := by
  simp [refusedWrite, hm, hw]

/-- Below the interrupt controller every register takes writes from the port. -/
theorem refusedWrite_of_lt {a : Nat} (h : a < 0x04000) (wide : Bool) : refusedWrite .hostPort wide a = false := by
  simp [refusedWrite, mainOnly]
  omega

/-- The registers of power and of housekeeping are read-only (R461, R462). -/
theorem writeRegs_power_hk {a : Nat} (hlo : 0x06000 ≤ a) (hhi : a < 0x08000) (who : Writer) (x : BitVec 64)
    (w : List HostRead) (s : State) : writeRegs who false a x w s = s := by
  have hlt (k : Nat) (hk : k ≤ 0x06000) : ¬ a < k := by omega
  simp [writeRegs, writeReg, hlt, hhi]

theorem refusedWrite_power_hk {a : Nat} (hlo : 0x06000 ≤ a) (hhi : a < 0x08000) : refusedWrite .hostPort false a = false := by
  simp [refusedWrite, mainOnly]
  omega

/-- A one clears the cause it is written to (R61). -/
theorem writeRegs_resetCause (who : Writer) (x : BitVec 64) (w : List HostRead) (s : State) :
    writeRegs who false 0x14 x w s = { s with modes := { s.modes with
      causePor := s.modes.causePor && !bitAt x.toNat 0, causePin := s.modes.causePin && !bitAt x.toNat 1
      causeSoft := s.modes.causeSoft && !bitAt x.toNat 2, causeWdog := s.modes.causeWdog && !bitAt x.toNat 3 } } := by
  simp [writeRegs, writeReg, writeGlobal, bitAt_lowWord, -Nat.reducePow]

/-- A 64-bit write at SCRATCH0 reaches both scratch registers (R28, R575). -/
theorem writeRegs_scratch (who : Writer) (x : BitVec 64) (w : List HostRead) (s : State) :
    writeRegs who true 0x20 x w s = { s with modes := { s.modes with
      scratch0 := BitVec.ofNat 32 x.toNat, scratch1 := BitVec.ofNat 32 (x.toNat / 2 ^ 32) } } := rfl

/-! ### Bases of a ring (R87) -/

theorem ringAt_setRing_ne (n k : Nat) (r : Ring) (s : State) (h : n ≠ k) : ringAt k (setRing n r s) = ringAt k s := by
  simp [ringAt, setRing, h]

theorem setRing_setRing (n : Nat) (r r' : Ring) (s : State) : setRing n r' (setRing n r s) = setRing n r' s := by
  simp [setRing]

theorem setRing_ringAt (n : Nat) (s : State) : setRing n (ringAt n s) s = s := by
  have h : s.rings.set n (s.rings.getD n {}) = s.rings := by
    by_cases hn : n < s.rings.length
    · simp [hn]
    · exact List.set_eq_of_length_le (by omega)
  rw [setRing, ringAt, h]

theorem ring_of_address {n off : Nat} (ho : off < 0x80) : (0x02000 + 0x80 * n + off - 0x02000) / 0x80 = n := by omega

theorem offset_of_address {n off : Nat} (ho : off < 0x80) : (0x02000 + 0x80 * n + off - 0x02000) % 0x80 = off := by omega

theorem readReg_ring {n off : Nat} (hn : n < 64) (ho : off < 0x80) (s : State) :
    readReg (0x02000 + 0x80 * n + off) s = readRing off (ringAt n s) := by
  have hlt (k : Nat) (hk : k ≤ 0x02000) : ¬ 0x02000 + 0x80 * n + off < k := by omega
  have hin : 0x02000 + 0x80 * n + off < 0x04000 := by omega
  simp only [readReg, hlt, hin, ring_of_address ho, offset_of_address ho, Nat.reduceLeDiff, if_true, if_false]

theorem writeReg_ring {n off : Nat} (hn : n < 64) (ho : off < 0x80) (who : Writer) (v : Word) (w : List HostRead) (s : State) :
    writeReg who (0x02000 + 0x80 * n + off) v w s = writeRing n off v w s := by
  have hlt (k : Nat) (hk : k ≤ 0x02000) : ¬ 0x02000 + 0x80 * n + off < k := by omega
  have hin : 0x02000 + 0x80 * n + off < 0x04000 := by omega
  simp only [writeReg, hlt, hin, ring_of_address ho, offset_of_address ho, Nat.reduceLeDiff, if_true, if_false]

/-- Ring `r` with the bases that a 64-bit write of `x` to RING_BASE gives it (R87). -/
def Ring.rebase (r : Ring) (x : BitVec 64) : Ring :=
  if r.state = .disabled then
    { r with baseLo := BitVec.ofNat 20 (fld x.toNat 12 20), baseHi := BitVec.ofNat 32 (x.toNat / 2 ^ 32) }
  else r

/-- The second half of the write finds the ring as DISABLED as the first did. -/
theorem writeRegs_ringBase {n : Nat} {s : State} (hn : n < 64) (hl : s.rings.length = 64) (x : BitVec 64) (w : List HostRead) :
    writeRegs .hostPort true (0x02000 + 0x80 * n) x w s = setRing n ((ringAt n s).rebase x) s := by
  have hlen : n < s.rings.length := by omega
  have h1000 : 0x02000 + 0x80 * n ≠ 0x01000 := by omega
  have hw0 (v : Word) (u : State) : writeReg .hostPort (0x02000 + 0x80 * n) v w u = writeRing n 0 v w u :=
    writeReg_ring hn (off := 0) (by omega) _ v w u
  have hw4 (v : Word) (u : State) : writeReg .hostPort (0x02000 + 0x80 * n + 4) v w u = writeRing n 4 v w u :=
    writeReg_ring hn (by omega) _ v w u
  by_cases hd : (ringAt n s).state = .disabled
  · simp [writeRegs, h1000, hw0, hw4, writeRing, hd, hlen, Ring.rebase, setRing_setRing, fld_baseLo_lowWord,
      -Nat.reducePow]
  · simp [writeRegs, h1000, hw0, hw4, writeRing, hd, Ring.rebase, setRing_ringAt]

/-! ### Writes from the port to a block that is powered and out of reset -/

theorem exec_registerWrite_resetCause {s : State} (hr : s.pins.inReset = false) (hp : s.pins.powered = true)
    (x : BitVec 64) (w : List HostRead) : exec (.registerWrite .hostPort false 0x14 x w) s
      = .next (answerReg .hostPort 0 0 { s with modes := { s.modes with
          causePor := s.modes.causePor && !bitAt x.toNat 0, causePin := s.modes.causePin && !bitAt x.toNat 1
          causeSoft := s.modes.causeSoft && !bitAt x.toNat 2, causeWdog := s.modes.causeWdog && !bitAt x.toNat 3 } }) := by
  have hc : accessCode false 0x14 s = 0 := accessCode_narrow hr hp rfl
  rw [exec_registerWrite_okay (by decide) hc (refusedWrite_of_lt (by omega) false), writeRegs_resetCause]

theorem exec_registerWrite_scratch {s : State} (hr : s.pins.inReset = false) (hp : s.pins.powered = true)
    (x : BitVec 64) (w : List HostRead) : exec (.registerWrite .hostPort true 0x20 x w) s
      = .next (answerReg .hostPort 0 0 { s with modes := { s.modes with
          scratch0 := BitVec.ofNat 32 x.toNat, scratch1 := BitVec.ofNat 32 (x.toNat / 2 ^ 32) } }) := by
  have hc : accessCode true 0x20 s = 0 := accessCode_wide hr hp rfl rfl rfl
  rw [exec_registerWrite_okay (by decide) hc (refusedWrite_of_lt (by omega) true), writeRegs_scratch]

theorem exec_registerWrite_ringBase {n : Nat} {s : State} (hr : s.pins.inReset = false) (hp : s.pins.powered = true)
    (hn : n < 64) (hl : s.rings.length = 64) (x : BitVec 64) (w : List HostRead) :
    exec (.registerWrite .hostPort true (0x02000 + 0x80 * n) x w) s
      = .next (answerReg .hostPort 0 0 (setRing n ((ringAt n s).rebase x) s)) := by
  have hok : accessOk .hostPort true (0x02000 + 0x80 * n) = true := by simp [accessOk]; omega
  have hlo := readReg_ring hn (off := 0) (by omega) s
  have hhi := readReg_ring hn (off := 4) (by omega) s
  rw [exec_registerWrite_okay hok (accessCode_wide hr hp (by omega) hlo hhi) (refusedWrite_of_lt (by omega) true),
    writeRegs_ringBase hn hl]

/-! ### The statement -/

/-- Settles O60: each clause is the answer of the access, put together with what the clear or the write does. -/
theorem registerAccesses : Obligations.RegisterAccesses := by
  unfold Obligations.RegisterAccesses
  refine ⟨?coded, ?narrowRead, ?wideRead, ?mainOnly, ?readOnly, ?written⟩
  case coded =>
    intro who wide a x w s hok hc
    have hread := exec_registerReadClear_coded hok hc
    have hwrite := exec_registerWrite_coded hok hc x w
    refine ⟨?_, fun h => accessCode_of_isolated h wide a, ?_⟩
    · rintro rfl
      exact ⟨hread, hwrite⟩
    · intro hw
      rw [answerReg_core hw hc] at hread hwrite
      exact ⟨hread, hwrite⟩
  case narrowRead =>
    intro a v s hok hr hp hv h0 h1
    have ha : a % 4 = 0 := by simp [accessOk] at hok; omega
    obtain ⟨hmodes, hrings, hcab, hregs⟩ := clearReg_frame a s
    refine ⟨_, exec_registerReadClear_narrow hok (accessCode_narrow hr hp hv) h0 h1 hv, ?_⟩
    rw [answerReg_hostPort]
    refine ⟨by rw [hregs]; rfl, ?counts, ?_, ?_, ?_, ?_, ?_, ?_, ?below, hmodes, hrings, hcab⟩
    case counts =>
      intro hlo hhi n hn hn'
      simp only [clearReg_irqCount hlo hhi]
      exact clearCounts_getD (by omega) (by omega) s.irq
    case below =>
      intro hlt
      rw [clearReg_of_lt hlt]
    · rintro rfl; exact ⟨rfl, rfl⟩
    · rintro rfl; rfl
    · rintro rfl; rfl
    · rintro rfl; exact ⟨rfl, rfl⟩
    · rintro rfl; rfl
    · rintro rfl; rfl
  case wideRead =>
    intro a lo hi s hok hr hp ha hlt hlo hhi
    refine ⟨_, exec_registerReadClear_wide hok (accessCode_wide hr hp ha hlo hhi) hlt hlo hhi, ?_⟩
    rw [clearReg_of_lt hlt, clearReg_of_lt (by omega)]
    exact ⟨rfl, rfl⟩
  case mainOnly =>
    intro who a x w s hok hc hm hw
    have hexec := exec_registerWrite_refused hok hc (refusedWrite_narrow hm hw) x w
    refine ⟨?_, ?_⟩
    · rintro rfl
      exact hexec
    · intro hport
      rwa [answerReg_core hport (by decide)] at hexec
  case readOnly =>
    intro a x w s hok hc hlo hhi
    rw [exec_registerWrite_okay hok hc (refusedWrite_power_hk hlo hhi), writeRegs_power_hk hlo hhi]
    rfl
  case written =>
    intro x w s hr hp
    refine ⟨⟨_, exec_registerWrite_resetCause hr hp x w, rfl, rfl, rfl⟩,
      ⟨_, exec_registerWrite_scratch hr hp x w, rfl, rfl, rfl⟩, fun n hn hl => ?_⟩
    exact ⟨_, exec_registerWrite_ringBase hr hp hn hl x w, ringAt_setRing s n _ (by omega),
      fun m hm => ringAt_setRing_ne n m _ s (Ne.symm hm), rfl⟩

end Sys2Proof.Machine

namespace Sys2Proof.Machine

/-! ### The clamp rack: a grant stays within the budget (R436 to R439) -/

/-- Clamps added to what a jig holds add so many to what is held. -/
theorem addHeld_sum (ch lun n : Nat) (held : List (Nat × Nat × Nat)) :
    ((addHeld ch lun n held).map (fun h => h.2.2)).sum = (held.map (fun h => h.2.2)).sum + n := by
  induction held with
  | nil => simp [addHeld]
  | cons h rest ih =>
    obtain ⟨c, l, m⟩ := h
    rw [addHeld]
    split
    · simp only [List.map_cons, List.sum_cons]
      omega
    · simp only [List.map_cons, List.sum_cons, ih]
      omega

theorem mem_insertReq {s : State} {r x : RackReq} {l : List RackReq} (h : x ∈ insertReq s r l) : x = r ∨ x ∈ l := by
  induction l with
  | nil => simpa [insertReq] using h
  | cons y ys ih =>
    rw [insertReq] at h
    split at h
    · simpa using h
    · rcases List.mem_cons.mp h with rfl | hy
      · simp
      · rcases ih hy with e | e <;> simp [e]

/-- The requests in the order of R438 are the waiting requests. -/
theorem mem_waiting_of_mem_orderedReqs {s : State} {r : RackReq} (h : r ∈ orderedReqs s) : r ∈ s.rack.waiting := by
  have key : ∀ l : List RackReq, r ∈ l.foldr (insertReq s) [] → r ∈ l := by
    intro l
    induction l with
    | nil => exact id
    | cons x xs ih =>
      intro hr
      rcases mem_insertReq hr with rfl | hr
      · exact List.mem_cons_self
      · exact List.mem_cons_of_mem _ (ih hr)
  exact key _ h

/-- A request of a channel in XM asks for the charge of 2 (R183, R436). -/
def RackReq.charged (r : RackReq) : Prop := ∀ ch, r.who = .xm ch → r.clamps = xmCharge

/-- The budget is the same, and what is held fits it when it did before. -/
def KeepsBudget (s t : State) : Prop := budget t = budget s ∧ (s.rack.total ≤ budget s → t.rack.total ≤ budget t)

theorem KeepsBudget.refl (s : State) : KeepsBudget s s := ⟨rfl, id⟩

theorem KeepsBudget.trans {s t u : State} (h : KeepsBudget s t) (k : KeepsBudget t u) : KeepsBudget s u :=
  ⟨k.1.trans h.1, k.2 ∘ h.2⟩

/-- A request granted takes no more clamps than it asks for. -/
theorem grantReq_total_le {r : RackReq} (s : State) (hr : r.charged) :
    (grantReq r s).rack.total ≤ s.rack.total + r.clamps := by
  cases hw : r.who with
  | forecast => simp [grantReq, hw]
  | xm ch =>
    have hc : r.clamps = xmCharge := hr ch hw
    simp only [grantReq, hw, Rack.total, Rack.nandHeld, List.length_cons, hc, Nat.mul_succ]
    omega
  | jig ch =>
    simp only [grantReq, hw, modJig, Rack.total, Rack.nandHeld, addHeld_sum]
    omega

theorem grantReq_budget (r : RackReq) (s : State) : budget (grantReq r s) = budget s := by
  unfold grantReq
  cases r.who <;> rfl

theorem grantReq_keepsBudget {r : RackReq} {s : State} (hr : r.charged) (hfit : s.rack.total + r.clamps ≤ budget s) :
    KeepsBudget s (grantReq r s) :=
  ⟨grantReq_budget r s, fun _ => (grantReq_budget r s).symm ▸ (grantReq_total_le s hr).trans hfit⟩

theorem grantFrom_keepsBudget {rs : List RackReq} (hrs : ∀ r ∈ rs, r.charged) (s : State) :
    KeepsBudget s (grantFrom rs s) := by
  induction rs generalizing s with
  | nil => exact .refl s
  | cons r rs ih =>
    obtain ⟨hr, hrest⟩ := List.forall_mem_cons.mp hrs
    rw [grantFrom]
    split
    · exact ih hrest s
    · split
      case isTrue hfit =>
        simp only [Bool.and_eq_true, decide_eq_true_eq] at hfit
        exact (grantReq_keepsBudget hr hfit.1).trans (ih hrest _)
      case isFalse => exact .refl s

theorem grantForecast_keepsBudget (s : State) : KeepsBudget s (grantForecast s) := by
  unfold grantForecast
  split
  case isTrue hfit =>
    simp only [Bool.and_eq_true, decide_eq_true_eq] at hfit
    exact ⟨rfl, fun _ => hfit.2⟩
  case isFalse => exact .refl s

theorem grantForecast_waiting (s : State) : (grantForecast s).rack.waiting = s.rack.waiting := by
  unfold grantForecast
  split <;> rfl

theorem rackCycle_keepsBudget {s : State} (hs : ∀ r ∈ s.rack.waiting, r.charged) : KeepsBudget s (rackCycle s) := by
  have hordered : ∀ r ∈ orderedReqs (grantForecast s), r.charged := fun r hr =>
    hs r (grantForecast_waiting s ▸ mem_waiting_of_mem_orderedReqs hr)
  unfold rackCycle
  extract_lets t
  split
  · exact grantForecast_keepsBudget s
  · exact (grantForecast_keepsBudget s).trans (grantFrom_keepsBudget hordered t)

/-- Settles O12: a forecast or a request is granted only when what is held with it fits the budget, which a grant does not move. -/
theorem clampGrantsStayWithinTheBudget : Obligations.ClampGrantsStayWithinTheBudget := by
  intro s hxm hfit
  obtain ⟨hbudget, htotal⟩ := rackCycle_keepsBudget (s := s) hxm
  exact ⟨rackCycle s, rfl, htotal hfit, hbudget⟩

end Sys2Proof.Machine

namespace Sys2Proof.Machine

/-! ### What the block's own work leaves as it is -/

/-- The conditions that only a command of their own changes: MODE and the conditions of rebuild, refit, degradation, the journal's
fence, the lead and start-up move with the block's work. -/
def Modes.core (m : Modes) : Modes :=
  { m with
    mode := .boot, prevMode := .boot, refit := false, rebuild := false, degraded := false, fenceJournal := false
    recovering := false, stage := 0, train := false, lead := false, leadDie := 0 }

/-- The pins but media_ready, which follows MODE (R41). -/
def Pins.core (p : Pins) : Pins := { p with mediaReady := false }

/-- The stage of the overvoltage stop and the times of HOLDUP; the sequences of R446 and R459 move the rest. -/
def Power.core (p : Power) : Power := { p with latchSeq := 0, ovEventDone := false, ovFences := 0 }

/-- What of a jig its own words and bus cycles move: not its drawer, which jobs withdrawn leave (R170), nor what pad hold
and a fallback that is due set (R40, R208). -/
def Jig.core (g : Jig) : Jig :=
  { g with drawer := [], waitSince := [], lock := none, ce := none, odt := false, wp := false, fallPend := false }

/-- Jig `g` has become `g'` by the block's own work. -/
structure JigKept (g g' : Jig) : Prop where
  core : g'.core = g.core
  drawer : g.drawer = [] → g'.drawer = []

theorem JigKept.refl (g : Jig) : JigKept g g := ⟨rfl, id⟩

theorem JigKept.trans {a b c : Jig} (h : JigKept a b) (k : JigKept b c) : JigKept a c :=
  ⟨k.core.trans h.core, k.drawer ∘ h.drawer⟩

/-- MODE is the primary mode of R23, or neither has changed. -/
def modeMoved (m m' : Modes) : Prop := m'.mode = m'.primary ∨ m'.mode = m.mode ∧ m'.primary = m.primary

/-- The interrupt sources of the jigs' traps (R469). -/
def trapSource (n : Nat) : Prop := 82 ≤ n ∧ n < 98

/-- The block's own work leads from `s` to `t`: what lets waiting work go on, and what the end of a job brings. -/
structure Quiet (s t : State) : Prop where
  now : t.now = s.now
  pins : t.pins.core = s.pins.core
  modes : t.modes.core = s.modes.core
  mode : modeMoved s.modes t.modes
  power : t.power.core = s.power.core
  latch : s.power.latchSeq = 0 → t.power.latchSeq = 0
  rack : t.rack = s.rack
  hk : t.hk = s.hk
  jigCount : t.jigs.length = s.jigs.length
  jigs : ∀ n, JigKept (jigAt n s) (jigAt n t)
  pend : ∀ n, trapSource n → t.irq.pend.getD n false = s.irq.pend.getD n false
  count : ∀ n, trapSource n → t.irq.count.getD n 0 = s.irq.count.getD n 0
  scanned : t.bg.scanned = s.bg.scanned
  granted : s.stripe.granted = true → t.stripe.granted = true
  inFlight : s.stripe.jrnl.inFlight = none → t.stripe.jrnl.inFlight = none
  pageRecs : t.stripe.jrnl.pageRecs = s.stripe.jrnl.pageRecs
  durable : s.stripe.jrnl.durableRec = s.stripe.jrnl.pageRecs → t.stripe.jrnl.durableRec = t.stripe.jrnl.pageRecs

/-- What `Quiet` speaks of. -/
def State.still (s : State) :
    Nat × Pins × Modes × Power × Rack × Hk × List Jig × Irq × Bool × Bool × Option JPage × Nat × Nat :=
  (s.now, s.pins, s.modes, s.power, s.rack, s.hk, s.jigs, s.irq, s.bg.scanned, s.stripe.granted, s.stripe.jrnl.inFlight,
    s.stripe.jrnl.pageRecs, s.stripe.jrnl.durableRec)

variable {s₀ s t : State}

theorem modeMoved.refl (m : Modes) : modeMoved m m := .inr ⟨rfl, rfl⟩

theorem Quiet.refl (s : State) : Quiet s s :=
  ⟨rfl, rfl, rfl, .refl _, rfl, id, rfl, rfl, rfl, fun _ => .refl _, fun _ _ => rfl, fun _ _ => rfl, rfl, id, id, rfl, id⟩

theorem modeMoved.trans {a b c : Modes} (h : modeMoved a b) (k : modeMoved b c) : modeMoved a c := by
  rcases k with k | ⟨kmode, kprim⟩
  · exact .inl k
  · rcases h with h | ⟨hmode, hprim⟩
    · exact .inl (by rw [kmode, kprim, h])
    · exact .inr ⟨kmode.trans hmode, kprim.trans hprim⟩

theorem Quiet.trans (h : Quiet s₀ s) (k : Quiet s t) : Quiet s₀ t :=
  ⟨k.now.trans h.now, k.pins.trans h.pins, k.modes.trans h.modes, h.mode.trans k.mode, k.power.trans h.power,
    k.latch ∘ h.latch, k.rack.trans h.rack, k.hk.trans h.hk, k.jigCount.trans h.jigCount,
    fun n => (h.jigs n).trans (k.jigs n), fun n hn => (k.pend n hn).trans (h.pend n hn),
    fun n hn => (k.count n hn).trans (h.count n hn), k.scanned.trans h.scanned, k.granted ∘ h.granted,
    k.inFlight ∘ h.inFlight, k.pageRecs.trans h.pageRecs, k.durable ∘ h.durable⟩

/-- An update of anything else. -/
theorem Quiet.ofStill (h : Quiet s₀ s) (e : t.still = s.still) : Quiet s₀ t := by
  simp only [State.still, Prod.mk.injEq] at e
  obtain ⟨hnow, hpins, hmodes, hpower, hrack, hhk, hjigs, hirq, hscanned, hgranted, hflight, hpage, hdurable⟩ := e
  refine h.trans ⟨hnow, by rw [hpins], by rw [hmodes], by rw [hmodes]; exact .refl _, by rw [hpower], by rw [hpower]; exact id,
    hrack, hhk, by rw [hjigs], fun n => ?_, fun n _ => by rw [hirq], fun n _ => by rw [hirq], hscanned,
    by rw [hgranted]; exact id, by rw [hflight]; exact id, hpage,
    by rw [hpage, hdurable]; exact id⟩
  rw [jigAt, jigAt, hjigs]
  exact .refl _

/-- What `Quiet` says of the services, the window and the journal. -/
def quietParts (b : Bg) (p : Stripe) : Bool × Bool × Option JPage × Nat × Nat :=
  (b.scanned, p.granted, p.jrnl.inFlight, p.jrnl.pageRecs, p.jrnl.durableRec)

/-- An update of the parts of the state that `Quiet` does not speak of. -/
theorem Quiet.frame {pending : List Instr} {freeCtr : Nat} {rings : List Ring} {sched : Sched} {host : HostPorts}
    {regs : RegPort} {storeImage : List (Nat × BitVec 160)} {chans : List Chan} {codec : Codec} {recov : Recov}
    {luns : List (Nat × LunRec)} {stripe : Stripe} {bg : Bg} {media : Media} {dv : Dv} {evq : Evq} {dict : Dict}
    {cab : Cabinet} {sram : Sram} {stats : Stats} (h : Quiet s₀ s) (e : quietParts bg stripe = quietParts s.bg s.stripe) :
    Quiet s₀ { s with
      pending := pending, freeCtr := freeCtr, rings := rings, sched := sched, host := host, regs := regs
      storeImage := storeImage, chans := chans, codec := codec, recov := recov, luns := luns, stripe := stripe, bg := bg
      media := media, dv := dv, evq := evq, dict := dict, cab := cab, sram := sram, stats := stats } := by
  simp only [quietParts, Prod.mk.injEq] at e
  obtain ⟨hscanned, hgranted, hflight, hpage, hdurable⟩ := e
  exact h.ofStill (by simp [State.still, *])

theorem Quiet.ite {c : Prop} [Decidable c] {a b : State} (ha : Quiet s₀ a) (hb : Quiet s₀ b) :
    Quiet s₀ (if c then a else b) := by split <;> assumption

theorem Quiet.option {α : Type _} {o : Option α} {b : State} {f : α → State} (hb : Quiet s₀ b) (hf : ∀ a, Quiet s₀ (f a)) :
    Quiet s₀ (o.casesOn b f) := by
  cases o with
  | none => exact hb
  | some a => exact hf a

theorem Quiet.foldl {α : Type _} {f : State → α → State} {l : List α} (hf : ∀ s a, Quiet s₀ s → Quiet s₀ (f s a))
    (h : Quiet s₀ s) : Quiet s₀ (l.foldl f s) := by
  induction l generalizing s with
  | nil => exact h
  | cons a l ih => exact ih (hf s a h)


theorem Quiet.foldlFst {α β : Type _} {f : State × β → α → State × β} {l : List α} {x : State × β}
    (hf : ∀ x a, Quiet s₀ x.1 → Quiet s₀ (f x a).1) (h : Quiet s₀ x.1) : Quiet s₀ (l.foldl f x).1 := by
  induction l generalizing x with
  | nil => exact h
  | cons a l ih => exact ih (hf x a h)

theorem Quiet.foldlSnd {α β : Type _} {f : β × State → α → β × State} {l : List α} {x : β × State}
    (hf : ∀ x a, Quiet s₀ x.2 → Quiet s₀ (f x a).2) (h : Quiet s₀ x.2) : Quiet s₀ (l.foldl f x).2 := by
  induction l generalizing x with
  | nil => exact h
  | cons a l ih => exact ih (hf x a h)

theorem Quiet.foldlThird {α β γ : Type _} {f : β × γ × State → α → β × γ × State} {l : List α} {x : β × γ × State}
    (hf : ∀ x a, Quiet s₀ x.2.2 → Quiet s₀ (f x a).2.2) (h : Quiet s₀ x.2.2) : Quiet s₀ (l.foldl f x).2.2 := by
  induction l generalizing x with
  | nil => exact h
  | cons a l ih => exact ih (hf x a h)

/-- An operation that may not act: its state, if any, is reached so. -/
def QuietIf (s₀ : State) (o : Option State) : Prop := ∀ t, o = .some t → Quiet s₀ t

theorem QuietIf.some (h : Quiet s₀ s) : QuietIf s₀ (.some s) := by rintro _ ⟨⟩; exact h

theorem QuietIf.none : QuietIf s₀ .none := by intro _ e; cases e

theorem QuietIf.ite {c : Prop} [Decidable c] {a b : Option State} (ha : QuietIf s₀ a) (hb : QuietIf s₀ b) :
    QuietIf s₀ (if c then a else b) := by split <;> assumption

theorem QuietIf.option {α : Type _} {o : Option α} {b : Option State} {f : α → Option State} (hb : QuietIf s₀ b)
    (hf : ∀ a, QuietIf s₀ (f a)) : QuietIf s₀ (o.casesOn b f) := by
  cases o with
  | none => exact hb
  | some a => exact hf a

theorem Quiet.elim {o : Option State} {b : State} {f : State → State} (ho : QuietIf s₀ o) (hb : Quiet s₀ b)
    (hf : ∀ t, Quiet s₀ t → Quiet s₀ (f t)) : Quiet s₀ (o.casesOn b f) := by
  cases o with
  | none => exact hb
  | some t => exact hf t (ho t rfl)

/-! ### The updates that Quiet speaks of -/

theorem getD_set_ne {α : Type _} {l : List α} {m n : Nat} {a d : α} (h : m ≠ n) : (l.set m a).getD n d = l.getD n d := by
  simp [List.getD_eq_getElem?_getD, List.getElem?_set_ne h]

theorem getD_modify_ne {α : Type _} {l : List α} {m n : Nat} {f : α → α} {d : α} (h : m ≠ n) :
    (l.modify m f).getD n d = l.getD n d := by
  simp [List.getD_eq_getElem?_getD, h]

/-- Only source `id` has had a cause, or been sampled. -/
structure Irq.Only (id : Nat) (q r : Irq) : Prop where
  pend : ∀ n, id ≠ n → r.pend.getD n false = q.pend.getD n false
  count : ∀ n, id ≠ n → r.count.getD n 0 = q.count.getD n 0

theorem Irq.Only.trans {id : Nat} {a b c : Irq} (h : Irq.Only id a b) (k : Irq.Only id b c) : Irq.Only id a c :=
  ⟨fun n hn => (k.pend n hn).trans (h.pend n hn), fun n hn => (k.count n hn).trans (h.count n hn)⟩

theorem getD_ite {α : Type _} {c : Prop} [Decidable c] {l m : List α} {n : Nat} {d : α} (h : m.getD n d = l.getD n d) :
    (if c then m else l).getD n d = l.getD n d := by
  split
  · exact h
  · rfl

theorem Irq.sample_only (q : Irq) (id : Nat) (lvl : Bool) : Irq.Only id q (q.sample id lvl) := by
  unfold Irq.sample
  by_cases ho : ordinary id = true
  · rw [if_pos ho]
    exact ⟨fun n hn => getD_ite (getD_set_ne hn), fun n hn => getD_ite (getD_modify_ne hn)⟩
  · rw [if_neg ho]
    exact ⟨fun _ _ => rfl, fun _ _ => rfl⟩

theorem Irq.cause_only (q : Irq) (id : Nat) : Irq.Only id q (q.cause id) := by
  unfold Irq.cause
  split
  · exact ⟨fun _ _ => rfl, fun _ _ => rfl⟩
  · exact (sample_only q id true).trans (sample_only _ id false)

/-- An update of the interrupt controller that leaves the jigs' traps alone. -/
theorem Quiet.irq {q : Irq} (h : Quiet s₀ s) (hp : ∀ n, trapSource n → q.pend.getD n false = s.irq.pend.getD n false)
    (hc : ∀ n, trapSource n → q.count.getD n 0 = s.irq.count.getD n 0) : Quiet s₀ { s with irq := q } :=
  h.trans { Quiet.refl s with pend := hp, count := hc }

theorem ne_of_trapSource {id n : Nat} (hid : id < 82 ∨ 98 ≤ id) (hn : trapSource n) : id ≠ n := by
  obtain ⟨h82, h98⟩ := hn
  omega

theorem raise_quiet {id : Nat} (hid : id < 82 ∨ 98 ≤ id) (h : Quiet s₀ s) : Quiet s₀ (raise id s) :=
  h.irq (fun n hn => (Irq.cause_only _ id).pend n (ne_of_trapSource hid hn))
    (fun n hn => (Irq.cause_only _ id).count n (ne_of_trapSource hid hn))

theorem evqLevels_quiet (h : Quiet s₀ s) : Quiet s₀ (evqLevels s) := by
  have h128 := Irq.sample_only s.irq 128 (s.evq.prod != s.evq.cons)
  have h129 := Irq.sample_only (s.irq.sample 128 (s.evq.prod != s.evq.cons)) 129 s.evq.fault
  refine h.irq (fun n hn => ?_) (fun n hn => ?_)
  · exact (h129.pend n (ne_of_trapSource (by omega) hn)).trans (h128.pend n (ne_of_trapSource (by omega) hn))
  · exact (h129.count n (ne_of_trapSource (by omega) hn)).trans (h128.count n (ne_of_trapSource (by omega) hn))

theorem logRecord_quiet {bs : List Byte} (h : Quiet s₀ s) : Quiet s₀ (logRecord bs s) := .frame h rfl

theorem issueRecord_quiet (h : Quiet s₀ s) : Quiet s₀ (issueRecord s) := by
  unfold issueRecord
  split
  · exact .frame h rfl
  · exact h

theorem queueCanEvent_quiet {bs : List Byte} (h : Quiet s₀ s) : Quiet s₀ (queueCanEvent bs s) :=
  .ite (.frame h rfl) (.frame h rfl)

theorem raisePriv_quiet {id : Nat} {soft : Bool} {detail : List Byte} (hid : id < 82 ∨ 98 ≤ id) (h : Quiet s₀ s) :
    Quiet s₀ (raisePriv id soft detail s) := by
  have hcount {raises} :
      Quiet s₀ { s with irq := { s.irq with count := s.irq.count.modify id (fun c => satAdd c 1), raises := raises } } :=
    h.irq (fun _ _ => rfl) (fun n hn => getD_modify_ne (ne_of_trapSource hid hn))
  unfold raisePriv
  extract_lets +onlyGivenNames _ _ _ _ _ t u
  have ht : Quiet s₀ t := .frame hcount rfl
  have hu : Quiet s₀ u := .ite (queueCanEvent_quiet ht) ht
  exact .ite (.ite (issueRecord_quiet (.frame hu rfl)) (.frame hu rfl)) (.frame hu rfl)

theorem jigAt_map {f : Jig → Jig} {n : Nat} (hf : ∀ g, JigKept g (f g)) :
    JigKept (jigAt n s) (jigAt n { s with jigs := s.jigs.map f }) := by
  simp only [jigAt, List.getD_eq_getElem?_getD, List.getElem?_map]
  cases s.jigs[n]? with
  | none => exact .refl _
  | some g => exact hf g

/-- An update of every jig. -/
theorem Quiet.mapJigs {f : Jig → Jig} (hf : ∀ g, JigKept g (f g)) (h : Quiet s₀ s) :
    Quiet s₀ { s with jigs := s.jigs.map f } :=
  h.trans { Quiet.refl s with jigCount := List.length_map .., jigs := fun _ => jigAt_map hf }

theorem modJig_quiet {ch : Nat} {f : Jig → Jig} (hf : ∀ g, JigKept g (f g)) (h : Quiet s₀ s) : Quiet s₀ (modJig ch f s) := by
  refine h.trans { Quiet.refl s with jigCount := List.length_modify .., jigs := fun n => ?_ }
  by_cases hn : ch = n
  · subst hn
    by_cases hl : ch < s.jigs.length
    · rw [jigAt_modJig s ch f hl]
      exact hf _
    · have : s.jigs.length ≤ ch := by omega
      simp only [jigAt, modJig, List.getD_eq_getElem?_getD, List.getElem?_modify, List.getElem?_eq_none this]
      exact .refl _
  · rw [jigAt_modJig_ne s ch n f hn]
    exact .refl _

theorem withdraw_quiet {p : Job → Bool} (h : Quiet s₀ s) : Quiet s₀ (withdraw p s) := by
  refine .frame (h.mapJigs ?_) rfl
  exact fun g => ⟨rfl, fun e => by simp [e]⟩

theorem enterPadHold_quiet {ch : Nat} (h : Quiet s₀ s) : Quiet s₀ (enterPadHold ch s) :=
  modJig_quiet (fun _ => ⟨rfl, id⟩) (.frame h rfl)

theorem mediaReadyFall_quiet (h : Quiet s₀ s) : Quiet s₀ (mediaReadyFall s) := withdraw_quiet (.frame (.frame h rfl) rfl)

/-- What R23 applied changes of the modes. -/
theorem applyMode_modes (s : State) :
    (applyMode s).modes = s.modes ∧ s.modes.mode = s.modes.primary
      ∨ (applyMode s).modes = { s.modes with mode := s.modes.primary, prevMode := s.modes.mode } := by
  unfold applyMode
  by_cases hm : s.modes.primary = s.modes.mode
  · exact .inl ⟨by simp [hm], hm.symm⟩
  · right
    simp only [beq_iff_eq, hm, if_false]
    split <;> split <;> rfl

/-- Once R23 is applied, MODE shows the primary mode. -/
theorem applyMode_mode (s : State) : (applyMode s).modes.mode = (applyMode s).modes.primary := by
  rcases applyMode_modes s with ⟨h, hm⟩ | h
  · rw [h, hm]
  · rw [h]
    rfl

/-- `t` is `s` but for the modes, of which the block's work may have changed what it moves, and what `Quiet` does not speak of. -/
structure Moved (s t : State) : Prop where
  still : { t with modes := s.modes }.still = s.still
  core : t.modes.core = s.modes.core

theorem Moved.quiet (m : Moved s t) (hm : modeMoved s.modes t.modes) : Quiet s t := by
  obtain ⟨e, hcore⟩ := m
  have hq : Quiet s { t with modes := s.modes } := .ofStill (.refl s) e
  exact { hq with modes := hcore, mode := hm }

theorem Quiet.media {b : Bool} (h : Quiet s₀ s) : Quiet s₀ { s with pins := { s.pins with mediaReady := b } } :=
  h.trans { Quiet.refl s with pins := rfl }

/-- R23 applied to a state whose conditions the block's work has moved. -/
theorem applyMode_quiet (h : Quiet s₀ s) (m : Moved s t) : Quiet s₀ (applyMode t) := by
  unfold applyMode
  extract_lets +onlyGivenNames mode
  split
  case isTrue hm => exact h.trans (m.quiet (.inl (beq_iff_eq.mp hm).symm))
  case isFalse =>
    have hu : Quiet s₀ { t with modes := { t.modes with mode := mode, prevMode := t.modes.mode } } :=
      h.trans (Moved.quiet ⟨m.still, m.core⟩ (.inl rfl))
    have hl {bs} := logRecord_quiet (bs := bs) (raise_quiet (id := 65) (by omega) hu)
    exact .media (.ite (.ite (mediaReadyFall_quiet hl) hl) (.frame (.ite (mediaReadyFall_quiet hl) hl) rfl))

theorem setConds_quiet {f : Modes → Modes} (hf : ∀ m, (f m).core = m.core) (h : Quiet s₀ s) : Quiet s₀ (setConds f s) :=
  applyMode_quiet h ⟨rfl, hf _⟩

/-- The stages of the latch sequence and of the overvoltage stop go on (R446, R459). -/
theorem Quiet.setPower {p : Power} (h : Quiet s₀ s) (hc : p.core = s.power.core) (hl : s.power.latchSeq = 0 → p.latchSeq = 0) :
    Quiet s₀ { s with power := p } :=
  h.trans { Quiet.refl s with power := hc, latch := hl }

/-- The window is granted (R318, R429). -/
theorem Quiet.grant {f : State → State} (hf : (f s).still = { s with stripe := { s.stripe with granted := true } }.still)
    (h : Quiet s₀ s) : Quiet s₀ (f s) :=
  .ofStill (h.trans { Quiet.refl s with granted := fun _ => rfl } :
    Quiet s₀ { s with stripe := { s.stripe with granted := true } }) hf

/-- An update of the journal's state that takes no page into flight and makes no record durable but all (R307). -/
theorem Quiet.jrnl {f : Jrnl → Jrnl} (hflight : ∀ j, j.inFlight = none → (f j).inFlight = none)
    (hpage : ∀ j, (f j).pageRecs = j.pageRecs)
    (hdurable : ∀ j, j.durableRec = j.pageRecs → (f j).durableRec = j.pageRecs) (h : Quiet s₀ s) : Quiet s₀ (modJrnl f s) :=
  h.trans { Quiet.refl s with
    inFlight := hflight _, pageRecs := hpage _, durable := fun e => (hdurable _ e).trans (hpage _).symm }

end Sys2Proof.Machine

namespace Sys2Proof.Machine
variable {s₀ s : State}

/-! ### Machine/Ops.lean -/

theorem hostWriteData_quiet {what : HostWhat} {addr : Nat} {bs : List Byte} (h : Quiet s₀ s) :
    Quiet s₀ (hostWriteData what addr bs s) :=
  .foldl (fun _ _ ht => .frame ht rfl) h

theorem modPort_quiet {p : Side} {f : Port → Port} (h : Quiet s₀ s) : Quiet s₀ (modPort p f s) := by
  unfold modPort
  split <;> exact .frame h rfl

theorem sendFlits_quiet {m : DvMsg} {p : Side} (h : Quiet s₀ s) : Quiet s₀ (sendFlits m s p) := modPort_quiet h

theorem dvSend_quiet {type : Nat} {dst : Option (BitVec 3)} {payload : List Byte} (h : Quiet s₀ s) :
    Quiet s₀ (dvSend type dst payload s) := by
  unfold dvSend
  split
  · exact .frame h rfl
  · exact .foldl (fun _ _ ht => sendFlits_quiet ht) (.frame h rfl)

/-! ### Machine/Power.lean -/

theorem tellStandby_quiet {sleep : Bool} (h : Quiet s₀ s) : Quiet s₀ (tellStandby sleep s) := .ite (dvSend_quiet h) h

/-! ### Machine/Sram.lean -/

theorem sramNote_quiet {x1 s' : Nat} {q bad : Bool} (h : Quiet s₀ s) : Quiet s₀ (sramNote x1 s' q bad s) :=
  .ite (raisePriv_quiet (by omega) (.frame h rfl)) (raise_quiet (by omega) (.frame h rfl))

theorem readStored_quiet {x1 : Nat} (h : Quiet s₀ s) : Quiet s₀ (readStored x1 s).2.2 := by
  unfold readStored
  extract_lets w
  split
  · exact h
  · exact (sramNote_quiet h : Quiet s₀ (sramNote x1 (synd w) (qParity w) false s))
  · exact (sramNote_quiet h : Quiet s₀ (sramNote x1 (synd w) (qParity w) true s))

theorem readWord_quiet {x1 : Nat} (h : Quiet s₀ s) : Quiet s₀ (readWord x1 s).2.2 := by
  unfold readWord
  dsimp only
  split <;> exact readStored_quiet h

theorem readWords_quiet {n a : Nat} (h : Quiet s₀ s) : Quiet s₀ (readWords n a s).2.2 := by
  induction n generalizing a s with
  | zero => exact h
  | succ n ih => exact ih (readWord_quiet h)

theorem retire_quiet {e : Merge} (h : Quiet s₀ s) : Quiet s₀ (retire e s) :=
  .ite (.frame (.frame h rfl) rfl) (.ite (.frame (readStored_quiet (.frame h rfl)) rfl) (.frame (readStored_quiet (.frame h rfl)) rfl))

theorem narrowWrite_quiet {x1 off : Nat} {bs : List Byte} (h : Quiet s₀ s) : Quiet s₀ (narrowWrite x1 off bs s) := by
  unfold narrowWrite
  dsimp only
  split
  · exact .ite (retire_quiet (.frame h rfl)) (.frame h rfl)
  · refine .frame ?_ rfl
    refine .ite h ?_
    split
    · exact retire_quiet h
    · exact h

theorem sramWriteFuel_quiet {n off : Nat} {bs : List Byte} (h : Quiet s₀ s) : Quiet s₀ (sramWriteFuel n off bs s) := by
  induction n generalizing off bs s with
  | zero => exact h
  | succ n ih => exact .ite h (.ite (ih (.frame h rfl)) (ih (narrowWrite_quiet h)))

theorem sramWrite_quiet {off : Nat} {bs : List Byte} (h : Quiet s₀ s) : Quiet s₀ (sramWrite off bs s) := sramWriteFuel_quiet h

theorem sramRead_quiet {off len : Nat} (h : Quiet s₀ s) : Quiet s₀ (sramRead off len s).2.2 := readWords_quiet h

theorem retireAll_quiet (h : Quiet s₀ s) : Quiet s₀ (retireAll s) := .foldl (fun _ _ ht => retire_quiet ht) h

theorem scrubNext_quiet (h : Quiet s₀ s) : Quiet s₀ (scrubNext s) := .ite (.frame h rfl) (raise_quiet (by omega) (.frame h rfl))

theorem scrubOne_quiet (h : Quiet s₀ s) : Quiet s₀ (scrubOne s) := by
  refine .ite (scrubNext_quiet h) ?_
  split
  · exact scrubNext_quiet h
  · exact scrubNext_quiet (.frame (sramNote_quiet h) rfl)
  · exact scrubNext_quiet (sramNote_quiet h)

theorem writeFlip_quiet {v : Word} (h : Quiet s₀ s) : Quiet s₀ (writeFlip v s) := .ite h (.frame h rfl)

/-! ### Machine/Sched.lean -/

theorem resolveFeats_quiet {j : Job} (h : Quiet s₀ s) : Quiet s₀ (resolveFeats j s).2 := by
  unfold resolveFeats
  extract_lets +onlyGivenNames _ _
  split
  · exact .frame h rfl
  · split
    · exact h
    · split <;> exact .frame h rfl

theorem sendJob_quiet {j : Job} (h : Quiet s₀ s) : Quiet s₀ (sendJob j s) := dvSend_quiet (resolveFeats_quiet (.frame h rfl))

theorem sendGo_quiet {j : Job} {kind : Nat} (h : Quiet s₀ s) : Quiet s₀ (sendGo j kind s) := dvSend_quiet (.frame h rfl)

theorem addJob_quiet {j : Job} (h : Quiet s₀ s) : Quiet s₀ (addJob j s).2 := by
  unfold addJob
  extract_lets +onlyGivenNames _ _ _ _
  split
  · exact .frame h rfl
  · exact sendJob_quiet (.frame h rfl)

theorem addProgram_quiet {owner : Owner} {u block page profile prio handle : Nat} (h : Quiet s₀ s) :
    Quiet s₀ (addProgram owner u block page profile prio handle s).2 :=
  addJob_quiet h

theorem dropSearches_quiet {u block : Nat} (h : Quiet s₀ s) : Quiet s₀ (dropSearches u block s) := withdraw_quiet (.frame h rfl)

theorem addErase_quiet {owner : Owner} {u block prio : Nat} (h : Quiet s₀ s) : Quiet s₀ (addErase owner u block prio s).2 :=
  addJob_quiet (dropSearches_quiet h)

/-! ### Machine/Cabinet.lean -/

theorem cabFault_quiet {cause sector status : Nat} (h : Quiet s₀ s) : Quiet s₀ (cabFault cause sector status s) :=
  raisePriv_quiet (by omega) (.frame h rfl)

theorem noteEndurance_quiet {s' : Nat} (h : Quiet s₀ s) : Quiet s₀ (noteEndurance s' s) := .ite (cabFault_quiet h) h

theorem eraseSector_quiet {s' : Nat} (h : Quiet s₀ s) : Quiet s₀ (eraseSector s' s) :=
  .ite (.frame h rfl) (noteEndurance_quiet (.frame h rfl))

theorem failedWord_quiet {o : CabOp} {k new : Nat} (h : Quiet s₀ s) : Quiet s₀ (failedWord o k new s) := .frame (.frame h rfl) rfl

theorem cabEnd_quiet {result word : Nat} (h : Quiet s₀ s) : Quiet s₀ (cabEnd result word s) :=
  raise_quiet (by omega) (.frame h rfl)

theorem endProgram_quiet {o : CabOp} {verified : Bool} {n : Nat} (h : Quiet s₀ s) : Quiet s₀ (endProgram o verified n s) := by
  refine .ite (cabEnd_quiet (.frame (.frame h rfl) rfl)) ?_
  refine cabFault_quiet ?_
  refine cabEnd_quiet ?_
  split
  · exact failedWord_quiet (.frame (.frame h rfl) rfl)
  · exact .frame (.frame h rfl) rfl

theorem eraseFails_quiet {sec : Nat} (h : Quiet s₀ s) : Quiet s₀ (eraseFails sec s) := cabFault_quiet (.frame (.frame h rfl) rfl)

theorem endErase_quiet {o : CabOp} {verified : Bool} (h : Quiet s₀ s) : Quiet s₀ (endErase o verified s) :=
  .ite (cabEnd_quiet (.frame (.frame h rfl) rfl)) (eraseFails_quiet (cabEnd_quiet (.frame h rfl)))

theorem cabHoldup_quiet (h : Quiet s₀ s) : Quiet s₀ (cabHoldup s) := by
  unfold cabHoldup
  dsimp only
  split
  · exact .frame (cabEnd_quiet (.frame (.frame h rfl) rfl)) rfl
  · exact .frame h rfl

theorem writeLog_quiet {rec : List Byte} (h : Quiet s₀ s) : Quiet s₀ (writeLog rec s) :=
  .frame (.frame (.frame (.ite (eraseSector_quiet h) h) rfl) rfl) rfl

/-! ### Machine/Stripe.lean -/

theorem winPut_quiet {p : Nat × List Byte} (h : Quiet s₀ s) : Quiet s₀ (winPut s p) :=
  .ite (.frame h rfl) (.ite (.frame (.frame h rfl) rfl) (.frame (.frame h rfl) rfl))

theorem winPutAll_quiet {off : Nat} {bs : List Byte} (h : Quiet s₀ s) : Quiet s₀ (winPutAll off bs s) :=
  .foldl (fun _ _ ht => winPut_quiet ht) h

theorem winWrite_quiet {off : Nat} {bs : List Byte} (h : Quiet s₀ s) : Quiet s₀ (winWrite off bs s) := .ite (winPutAll_quiet h) h

theorem lookUpBinds_quiet {x : Nat × Nat × Nat} (h : Quiet s₀ s) : Quiet s₀ (lookUpBinds s x) :=
  .foldl (fun _ _ ht => .ite (.frame ht rfl) (.ite ht (.frame ht rfl))) h

theorem writeDir_quiet {g : Nat} {f : DirEntry → DirEntry} (h : Quiet s₀ s) : Quiet s₀ (writeDir g f s) :=
  winWrite_quiet (.frame (.ite (dvSend_quiet h) h) rfl)

theorem freeDir_quiet {g : Nat} (h : Quiet s₀ s) : Quiet s₀ (freeDir g s) := winWrite_quiet (.frame h rfl)

theorem addRec_quiet {r : BitVec 256} (h : Quiet s₀ s) : Quiet s₀ (addRec r s) :=
  .ite (dvSend_quiet (.frame h rfl)) (.frame h rfl)

theorem rowMembersRec_quiet {g r mask : Nat} (h : Quiet s₀ s) : Quiet s₀ (rowMembersRec g r mask s).2 := by
  unfold rowMembersRec
  extract_lets +onlyGivenNames _ _
  split
  · exact .frame h rfl
  · exact addRec_quiet h

theorem setDose_quiet {u b : Nat} {f : DoseRec → DoseRec} (h : Quiet s₀ s) : Quiet s₀ (setDose u b f s) :=
  addRec_quiet (winWrite_quiet (.frame (.frame h rfl) rfl))

theorem doseErase_quiet {u b : Nat} (h : Quiet s₀ s) : Quiet s₀ (doseErase u b s) := setDose_quiet h

theorem doseProgram_quiet {u b : Nat} (h : Quiet s₀ s) : Quiet s₀ (doseProgram u b s) := .ite h (setDose_quiet h)

theorem setLedger_quiet {i : Nat} {e : LossEntry} (h : Quiet s₀ s) : Quiet s₀ (setLedger i e s) :=
  addRec_quiet (winWrite_quiet (.frame h rfl))

theorem clearLedger_quiet {i : Nat} (h : Quiet s₀ s) : Quiet s₀ (clearLedger i s) :=
  .ite (addRec_quiet (winWrite_quiet (.frame h rfl))) h

theorem clearLedgerGroup_quiet {g : Nat} (h : Quiet s₀ s) : Quiet s₀ (clearLedgerGroup g s) :=
  .foldl (fun _ _ ht => clearLedger_quiet ht) h

theorem lossEvent_quiet {g m r mask cause : Nat} {full : Bool} {idx : Nat} (h : Quiet s₀ s) :
    Quiet s₀ (lossEvent g m r mask cause full idx s) :=
  raisePriv_quiet (by omega) h

theorem sendLoss_quiet {g m r mask cause : Nat} (h : Quiet s₀ s) : Quiet s₀ (sendLoss g m r mask cause s) := addRec_quiet h

theorem addLoss_quiet {g m r mask cause : Nat} (h : Quiet s₀ s) : Quiet s₀ (addLoss g m r mask cause s) := by
  unfold addLoss
  extract_lets +onlyGivenNames _ _ _ s₁
  have hs₁ : Quiet s₀ s₁ := .frame h (by dsimp only [quietParts])
  extract_lets
  refine .ite (sendLoss_quiet h) ?_
  split
  · exact lossEvent_quiet (setLedger_quiet hs₁)
  · split
    · exact lossEvent_quiet (setLedger_quiet (.frame hs₁ rfl))
    · exact lossEvent_quiet (logRecord_quiet (.frame hs₁ rfl))

theorem assignSlot_quiet {i g r : Nat} (h : Quiet s₀ s) : Quiet s₀ (assignSlot i g r s) :=
  .frame (.ite (.frame h rfl) (.frame h rfl)) rfl

theorem slotBytes_quiet {i half c : Nat} (h : Quiet s₀ s) : Quiet s₀ (slotBytes i half c s).2.2 := by
  unfold slotBytes
  split
  · exact sramRead_quiet h
  · exact h

theorem slotWrite_quiet {i half c : Nat} {bs : List Byte} (h : Quiet s₀ s) : Quiet s₀ (slotWrite i half c bs s) :=
  .ite (sramWrite_quiet h) (.frame h rfl)

theorem foldRead_quiet {i half c : Nat} {d old : List Byte} {ok : Bool} (h : Quiet s₀ s) :
    Quiet s₀ (foldRead i half c d old ok s) :=
  slotWrite_quiet (.ite h (.frame h rfl))

theorem foldHalf_quiet {i half c : Nat} {d : List Byte} (h : Quiet s₀ s) : Quiet s₀ (foldHalf i half c d s) :=
  foldRead_quiet (slotBytes_quiet h)

theorem foldCw_quiet {i m c : Nat} {d : List Byte} (h : Quiet s₀ s) : Quiet s₀ (foldCw i m c d s) :=
  foldHalf_quiet (foldHalf_quiet h)

theorem listShort_quiet {g r mask : Nat} (h : Quiet s₀ s) : Quiet s₀ (listShort g r mask s) :=
  .ite h (.ite (writeDir_quiet h) (writeDir_quiet (.frame h rfl)))

theorem programMember_quiet {owner : Owner} {g m r prio handle : Nat} {stamp : Word} {sealW : BitVec 96} (h : Quiet s₀ s) :
    Quiet s₀ (programMember owner g m r prio handle stamp sealW s) :=
  addJob_quiet h

theorem foldsAway_quiet {i g m : Nat} (h : Quiet s₀ s) : Quiet s₀ (foldsAway i g m s) := .ite h (.frame h rfl)

theorem padMember_quiet {i g m r : Nat} (h : Quiet s₀ s) : Quiet s₀ (padMember i g m r s) :=
  .ite (foldsAway_quiet (programMember_quiet h)) (.frame h rfl)

theorem noteParityFail_quiet {g r m : Nat} (h : Quiet s₀ s) : Quiet s₀ (noteParityFail g r m s) := by
  unfold noteParityFail
  split
  · exact .frame h rfl
  · exact h

theorem placeParityOne_quiet {i m half : Nat} (h : Quiet s₀ s) : Quiet s₀ (placeParityOne i m half s) :=
  .ite h (.ite (programMember_quiet (.frame h rfl)) (noteParityFail_quiet (.frame h rfl)))

theorem rowSealed_quiet {i : Nat} (h : Quiet s₀ s) : Quiet s₀ (rowSealed i s) := .ite (.frame (addRec_quiet h) rfl) h

theorem placeParity_quiet {i : Nat} (h : Quiet s₀ s) : Quiet s₀ (placeParity i s) :=
  rowSealed_quiet (placeParityOne_quiet (placeParityOne_quiet (.frame h rfl)))

theorem placeAll_quiet {n : Nat} (h : Quiet s₀ s) : Quiet s₀ (placeAll n s) := by
  induction n generalizing s with
  | zero => exact h
  | succ n ih =>
    unfold placeAll
    split
    · exact ih (placeParity_quiet h)
    · exact h

theorem slotAll_quiet {i : Nat} (h : Quiet s₀ s) : Quiet s₀ (slotAll i s).2 := .foldlSnd (fun _ _ ht => slotBytes_quiet ht) h

theorem sendPart_quiet {die : BitVec 3} {i : Nat} {members : List Nat} (h : Quiet s₀ s) : Quiet s₀ (sendPart die i members s) :=
  dvSend_quiet (slotAll_quiet h)

theorem giveQ_quiet {i : Nat} (h : Quiet s₀ s) : Quiet s₀ (giveQ i s) := .ite h (sendPart_quiet h)

theorem sendParity_quiet {i : Nat} (h : Quiet s₀ s) : Quiet s₀ (sendParity i s) :=
  .ite (giveQ_quiet (.frame h rfl)) (sendPart_quiet h)

theorem sealSlot_quiet {i : Nat} (h : Quiet s₀ s) : Quiet s₀ (sealSlot i s) := by
  unfold sealSlot
  extract_lets k e mask full form w seq _ _ _ _ s₁ s₂
  have hs₂ : Quiet s₀ s₂ := writeDir_quiet (.frame (.frame h rfl) rfl)
  exact .ite (placeAll_quiet (sendParity_quiet (.ite hs₂ (listShort_quiet hs₂)))) h

theorem closeShort_quiet {g : Nat} (h : Quiet s₀ s) : Quiet s₀ (closeShort g s) := by
  refine .ite h ?_
  split
  · exact h
  · exact sealSlot_quiet (writeDir_quiet (.foldl (fun _ _ ht => padMember_quiet ht) (.frame h rfl)))

theorem closeGroup_quiet {g : Nat} (h : Quiet s₀ s) : Quiet s₀ (closeGroup g s) :=
  .ite (writeDir_quiet (addRec_quiet (closeShort_quiet h))) h

/-! ### Machine/Journal.lean -/

theorem programJournal_quiet {copy u base pj idx : Nat} (h : Quiet s₀ s) : Quiet s₀ (programJournal copy u base pj idx s) :=
  addProgram_quiet h

theorem eraseJournal_quiet {u block : Nat} (h : Quiet s₀ s) : Quiet s₀ (eraseJournal u block s) := addErase_quiet (.frame h rfl)

theorem eraseRing_quiet {idxs : List Nat} (h : Quiet s₀ s) : Quiet s₀ (eraseRing idxs s) :=
  .foldl (fun _ _ ht => eraseJournal_quiet (eraseJournal_quiet ht)) h

theorem eraseOldRing_quiet {j : Jrnl} (h : Quiet s₀ s) : Quiet s₀ (eraseOldRing j s) := .ite (eraseJournal_quiet h) h

theorem programCopy_quiet {copy : Nat} (h : Quiet s₀ s) : Quiet s₀ (programCopy copy s) := by
  refine .ite (programJournal_quiet h) ?_
  split
  · exact programJournal_quiet h
  · exact h

theorem placePageAgain_quiet (h : Quiet s₀ s) : Quiet s₀ (placePageAgain s) := .foldl (fun _ _ ht => programCopy_quiet ht) h

theorem readSnapshot_quiet (h : Quiet s₀ s) : Quiet s₀ (readSnapshot s) := .ite h (.frame (.frame h rfl) rfl)

theorem snapArrived_quiet {addr len : Nat} {beats : List Byte} (h : Quiet s₀ s) : Quiet s₀ (snapArrived addr len beats s) :=
  .ite (.frame h rfl) h

theorem startFold_quiet (h : Quiet s₀ s) : Quiet s₀ (startFold s) := .frame (addRec_quiet h) rfl

theorem foldIfDue_quiet (h : Quiet s₀ s) : Quiet s₀ (foldIfDue s) := .ite (startFold_quiet h) h

theorem cutFold_quiet (h : Quiet s₀ s) : Quiet s₀ (cutFold s) := by
  refine h.jrnl (fun j e => ?_) (fun j => ?_) (fun j e => ?_)
  · split
    · exact e
    · exact e
  · split <;> rfl
  · split
    · exact e
    · exact e

theorem putAnchor_quiet {bs : List Byte} (h : Quiet s₀ s) : Quiet s₀ (putAnchor bs s) :=
  .frame (.frame (.ite (eraseSector_quiet h) h) rfl) rfl

theorem writeAnchor_quiet (h : Quiet s₀ s) : Quiet s₀ (writeAnchor s) :=
  .ite (dvSend_quiet (putAnchor_quiet h)) (putAnchor_quiet h)

theorem journalEvent_quiet {cause : Nat} (h : Quiet s₀ s) : Quiet s₀ (journalEvent cause s) := raisePriv_quiet (by omega) h

theorem liveRecords_quiet (h : Quiet s₀ s) : Quiet s₀ (liveRecords s) :=
  .foldl (fun _ _ ht => addRec_quiet ht) (.foldl (fun _ _ ht => .ite ht (addRec_quiet ht)) h)

theorem takePair_quiet {x1 b : Nat} (h : Quiet s₀ s) : Quiet s₀ (takePair x1 b s) :=
  winWrite_quiet (eraseRing_quiet (.frame h rfl))

theorem awaitPair_quiet (h : Quiet s₀ s) : Quiet s₀ (awaitPair s) := .frame (cutFold_quiet h) rfl

theorem movePair_quiet (h : Quiet s₀ s) : Quiet s₀ (movePair s) := by
  unfold movePair
  extract_lets
  refine .ite (awaitPair_quiet h) ?_
  split
  · exact startFold_quiet (liveRecords_quiet (takePair_quiet h))
  · exact setConds_quiet (fun _ => rfl) (awaitPair_quiet h)

theorem journalCopyFailed_quiet {copy : Nat} (h : Quiet s₀ s) : Quiet s₀ (journalCopyFailed copy s) := by
  have hflight {p : Prop} [Decidable p] {f : JPage → JPage} (j : Jrnl) (e : j.inFlight = none) :
      (if p then none else j.inFlight.map f) = none := by simp [e]
  unfold journalCopyFailed
  extract_lets +onlyGivenNames _ _ s₁ s₂
  have hs₁ : Quiet s₀ s₁ := h.jrnl (fun _ e => by simp [e]) (fun _ => rfl) (fun _ => id)
  have hs₂ : Quiet s₀ s₂ := .frame h rfl
  have hs₃ : Quiet s₀ (disownCopies [0, 1] s) := .frame h rfl
  refine .ite h (.ite ?_ (.ite ?_ (movePair_quiet (hs₃.jrnl (hflight ·) (fun _ => rfl) (fun _ => id)))))
  · exact movePair_quiet (journalEvent_quiet (.frame (.frame hs₁ rfl) rfl))
  · exact journalEvent_quiet (setConds_quiet (fun _ => rfl) hs₂)

theorem journalLunFailed_quiet {u : Nat} (h : Quiet s₀ s) : Quiet s₀ (journalLunFailed u s) :=
  .ite (journalCopyFailed_quiet h) (.ite h (.ite (journalCopyFailed_quiet h) (.ite (journalCopyFailed_quiet h) h)))

theorem journalProgramEnd_quiet {copy : Nat} {ok : Bool} (h : Quiet s₀ s) : Quiet s₀ (journalProgramEnd copy ok s) := by
  refine .ite h (.ite ?_ (journalCopyFailed_quiet h))
  refine h.jrnl (fun _ => id) (fun _ => rfl) (fun j hj => ?_)
  dsimp only
  split
  · rfl
  · exact hj

theorem journalEraseEnd_quiet {u block : Nat} {ok : Bool} (h : Quiet s₀ s) : Quiet s₀ (journalEraseEnd u block ok s) :=
  .ite (.frame h rfl) (journalLunFailed_quiet (.frame h rfl))

/-! ### Machine/Background.lean -/

theorem enterLosses_quiet {g r mask cause : Nat} {reads : List MemberRead} (h : Quiet s₀ s) :
    Quiet s₀ (enterLosses g r mask cause reads s) :=
  .foldl (fun _ _ ht => .ite ht (addLoss_quiet ht)) h

theorem dropReads_quiet {id : Nat} (h : Quiet s₀ s) : Quiet s₀ (dropReads id s) := .frame (withdraw_quiet h) rfl

theorem endRow_quiet {id : Nat} (h : Quiet s₀ s) : Quiet s₀ (endRow id s) := .frame (dropReads_quiet h) rfl

theorem endRows_quiet {p : RowRun → Bool} (h : Quiet s₀ s) : Quiet s₀ (endRows p s) := .foldl (fun _ _ ht => endRow_quiet ht) h

theorem bgEvent_quiet {source g m r : Nat} (hid : source < 82 ∨ 98 ≤ source) (h : Quiet s₀ s) :
    Quiet s₀ (bgEvent source g m r s) := raise_quiet hid (.frame h rfl)

theorem setDegraded_quiet (h : Quiet s₀ s) : Quiet s₀ (setDegraded s) := by
  unfold setDegraded
  exact setConds_quiet (fun _ => rfl) h

theorem patrolRec_quiet (h : Quiet s₀ s) : Quiet s₀ (patrolRec s) := addRec_quiet h

theorem patrolUpdate_quiet (h : Quiet s₀ s) : Quiet s₀ (patrolUpdate s) := .frame (.ite (patrolRec_quiet h) h) rfl

theorem checkpointRec_quiet (h : Quiet s₀ s) : Quiet s₀ (checkpointRec s) := addRec_quiet (.frame h rfl)

theorem pauseRefit_quiet (h : Quiet s₀ s) : Quiet s₀ (pauseRefit s) := .ite (checkpointRec_quiet (.frame h rfl)) h

theorem rebuildCond_quiet (h : Quiet s₀ s) : Quiet s₀ (rebuildCond s) :=
  patrolUpdate_quiet (setConds_quiet (fun _ => rfl) (.frame (.ite (pauseRefit_quiet h) (.ite (.frame h rfl) h)) rfl))

theorem queueRebuild_quiet {g failed i : Nat} {given : Option Nat} (h : Quiet s₀ s) :
    Quiet s₀ (queueRebuild g failed i given s) :=
  rebuildCond_quiet (.frame (addRec_quiet h) rfl)

theorem autoRebuild_quiet {u : Nat} (h : Quiet s₀ s) : Quiet s₀ (autoRebuild u s) := by
  refine .ite ?_ h
  split
  · exact .ite h (queueRebuild_quiet h)
  · exact raise_quiet (by omega) h

theorem autoRebuilds_quiet {ms : List (Nat × Nat)} (h : Quiet s₀ s) : Quiet s₀ (autoRebuilds ms s) :=
  .foldl (fun _ _ ht => autoRebuild_quiet ht) h

theorem leaveMember_quiet (h : Quiet s₀ s) : Quiet s₀ (leaveMember s) := .frame (endRows_quiet h) rfl

theorem popRebuild_quiet (h : Quiet s₀ s) : Quiet s₀ (popRebuild s) := rebuildCond_quiet (.frame (leaveMember_quiet h) rfl)

theorem eraseBlocks_quiet {ws : List Member} (h : Quiet s₀ s) : Quiet s₀ (eraseBlocks ws s) :=
  .ite h (.foldl (fun _ _ ht => addErase_quiet ht) h)

theorem abandonRefit_quiet {cause : Nat} (h : Quiet s₀ s) : Quiet s₀ (abandonRefit cause s) :=
  .ite h (patrolUpdate_quiet (setConds_quiet (fun _ => rfl) (raise_quiet (by omega)
    (setDegraded_quiet (.frame (.foldl (fun _ _ ht => writeDir_quiet ht)
    (eraseBlocks_quiet (.foldl (fun _ _ ht => freeDir_quiet ht)
    (.frame (endRows_quiet (.frame (withdraw_quiet (addRec_quiet h)) rfl)) rfl)))) rfl)))))

theorem declareDown_quiet {g m cause : Nat} (h : Quiet s₀ s) : Quiet s₀ (declareDown g m cause s) := by
  unfold declareDown
  extract_lets +onlyGivenNames _ _ _ _ s₁
  have hs₁ : Quiet s₀ s₁ := raisePriv_quiet (by omega) (addRec_quiet (writeDir_quiet h))
  extract_lets +onlyGivenNames s₂
  have hs₂ : Quiet s₀ s₂ := .ite (leaveMember_quiet hs₁) hs₁
  extract_lets +onlyGivenNames s₃
  have hs₃ : Quiet s₀ s₃ := .ite (abandonRefit_quiet hs₂) hs₂
  exact patrolUpdate_quiet (setDegraded_quiet (.ite (closeGroup_quiet hs₃) hs₃))

theorem memberDown_quiet {g m cause : Nat} (h : Quiet s₀ s) : Quiet s₀ (memberDown g m cause s) := .ite h (declareDown_quiet h)

theorem lunDown_quiet {u cause : Nat} (h : Quiet s₀ s) : Quiet s₀ (lunDown u cause s) := by
  unfold lunDown
  extract_lets +onlyGivenNames _ s₁
  have hs₁ : Quiet s₀ s₁ := .foldl (fun _ _ ht => memberDown_quiet ht) h
  exact autoRebuilds_quiet (journalLunFailed_quiet (.ite (abandonRefit_quiet (.frame hs₁ rfl)) (.frame hs₁ rfl)))

theorem beginMember_quiet {r : Rebuild} {g m attempt : Nat} (h : Quiet s₀ s) : Quiet s₀ (beginMember r g m attempt s) :=
  addErase_quiet (.frame h rfl)

theorem memberBegun_quiet {r : Rebuild} (h : Quiet s₀ s) : Quiet s₀ (memberBegun r s) :=
  setDegraded_quiet (addRec_quiet (writeDir_quiet (.frame h rfl)))

theorem abandonMember_quiet (h : Quiet s₀ s) : Quiet s₀ (abandonMember s) :=
  autoRebuilds_quiet (.frame (raise_quiet (by omega) (addRec_quiet
    (.ite (declareDown_quiet (leaveMember_quiet h)) (leaveMember_quiet h)))) rfl)

theorem spareFailed_quiet (h : Quiet s₀ s) : Quiet s₀ (spareFailed s) := by
  unfold spareFailed
  split
  · exact h
  · exact .ite (endRows_quiet h) (.ite (beginMember_quiet (endRows_quiet h)) (abandonMember_quiet h))

theorem programDown_quiet {g m : Nat} (h : Quiet s₀ s) : Quiet s₀ (programDown g m s) :=
  .ite (spareFailed_quiet h) (autoRebuilds_quiet (memberDown_quiet h))

theorem rebuildDone_quiet (h : Quiet s₀ s) : Quiet s₀ (rebuildDone s) :=
  setDegraded_quiet (.frame (leaveMember_quiet (addRec_quiet (writeDir_quiet h))) rfl)

theorem reachEnd_quiet (h : Quiet s₀ s) : Quiet s₀ (reachEnd s) := by
  unfold reachEnd
  dsimp only
  split
  · exact .ite (rebuildDone_quiet h) h
  · exact .ite h (.ite (.frame h rfl) (rebuildDone_quiet h))

theorem rebuildSeal_quiet {g m mask : Nat} {reads : List MemberRead} (h : Quiet s₀ s) :
    Quiet s₀ (rebuildSeal g m mask reads s).2.2 := by
  unfold rebuildSeal
  extract_lets +onlyGivenNames _
  split
  · exact h
  · split
    · exact h
    · exact .frame h rfl

theorem advance_quiet (h : Quiet s₀ s) : Quiet s₀ (advance s) := .ite (addRec_quiet (.frame h rfl)) (.frame h rfl)

theorem countFind_quiet {a b c d : Nat} (h : Quiet s₀ s) : Quiet s₀ (countFind a b c d s) := 
  .frame h (by dsimp only [quietParts])

theorem patrolCw_quiet {g r mask : Nat} {reads : List MemberRead} {c : Nat} (h : Quiet s₀ s) :
    Quiet s₀ (patrolCw g r mask reads s c) := by
  unfold patrolCw
  extract_lets w e ds dp dq unread s₁
  have hs₁ : Quiet s₀ s₁ := .foldl (fun _ _ ht => bgEvent_quiet (by omega) (countFind_quiet ht)) h
  clear_value e
  split
  · refine .ite hs₁ (.ite (bgEvent_quiet (by omega) (countFind_quiet hs₁)) ?_)
    split
    · exact addLoss_quiet (countFind_quiet hs₁)
    · exact bgEvent_quiet (by omega) (countFind_quiet hs₁)
  · exact .ite (bgEvent_quiet (by omega) (countFind_quiet hs₁)) hs₁
  · exact hs₁

theorem patrolOne_quiet {g r : Nat} {reads : List MemberRead} (h : Quiet s₀ s) : Quiet s₀ (patrolOne g r reads s) := by
  unfold patrolOne
  extract_lets mask s₁ s₂ b s₃
  have hs₂ : Quiet s₀ s₂ := enterLosses_quiet (.foldl (fun _ _ ht => patrolCw_quiet ht) h)
  clear_value s₂
  have hs₃ : Quiet s₀ s₃ := .frame hs₂ (by dsimp only [quietParts, b])
  exact .ite (patrolRec_quiet (.frame hs₃ rfl)) hs₃

theorem newLap_quiet {complete : Bool} (h : Quiet s₀ s) : Quiet s₀ (newLap complete s) := .frame (endRows_quiet h) rfl

theorem memberRecs_quiet {g n i : Nat} {ms : List Member} (h : Quiet s₀ s) : Quiet s₀ (memberRecs g n i ms s) := by
  induction n generalizing i ms s with
  | zero => exact h
  | succ n ih => exact .ite h (ih (addRec_quiet h))

theorem openGroup_quiet {e : DirEntry} (h : Quiet s₀ s) : Quiet s₀ (openGroup e s) := by
  unfold openGroup
  extract_lets +onlyGivenNames _ s₁
  have hs₁ : Quiet s₀ s₁ := addRec_quiet h
  extract_lets +onlyGivenNames s₂
  have hs₂ : Quiet s₀ s₂ := memberRecs_quiet hs₁
  exact writeDir_quiet hs₂

theorem refitEraseEnd_quiet {ok : Bool} (h : Quiet s₀ s) : Quiet s₀ (refitEraseEnd ok s) :=
  .ite (abandonRefit_quiet h) (.ite (.frame (.foldl (fun _ _ ht => addRec_quiet ht)
    (.foldl (fun _ _ ht => openGroup_quiet ht) (.frame h rfl))) rfl) (.frame h rfl))

theorem adoptRow_quiet {g row w : Nat} (h : Quiet s₀ s) : Quiet s₀ (adoptRow g row w s) := by
  unfold adoptRow
  extract_lets +onlyGivenNames _ _ _ s₁
  have hs₁ : Quiet s₀ s₁ := .frame h rfl
  extract_lets +onlyGivenNames s₂
  have hs₂ : Quiet s₀ s₂ := addRec_quiet hs₁
  extract_lets +onlyGivenNames s₃
  have hs₃ : Quiet s₀ s₃ := .ite hs₂ (listShort_quiet hs₂)
  exact writeDir_quiet hs₃

theorem afterTargetRow_quiet {n total : Nat} (h : Quiet s₀ s) : Quiet s₀ (afterTargetRow n total s) :=
  .ite (.frame (addRec_quiet (.frame h rfl)) rfl) (.ite (pauseRefit_quiet (.frame h rfl))
    (.ite (checkpointRec_quiet (.frame h rfl)) (.frame h rfl)))

theorem moveBinds_quiet (h : Quiet s₀ s) : Quiet s₀ (moveBinds s) := by
  refine .foldl (fun _ _ ht => writeDir_quiet ht) ?_
  refine .foldl (fun _ _ ht => ?_) (.foldl (fun _ _ ht => winWrite_quiet ht) (.frame h rfl))
  split
  · exact winWrite_quiet (.frame (.frame ht rfl) rfl)
  · exact ht

theorem commitRefit_quiet (h : Quiet s₀ s) : Quiet s₀ (commitRefit s) := by
  unfold commitRefit
  extract_lets s₁ words s₂ s₃ s₄ _ s₅
  have hs₂ : Quiet s₀ s₂ := .foldl (fun _ _ ht => writeDir_quiet ht) (moveBinds_quiet h)
  have hs₃ : Quiet s₀ s₃ := .foldl (fun _ _ ht => freeDir_quiet (clearLedgerGroup_quiet ht)) hs₂
  have hs₅ : Quiet s₀ s₅ := .frame (eraseBlocks_quiet hs₃) rfl
  exact patrolUpdate_quiet (setConds_quiet (fun _ => rfl) (raise_quiet (by omega) (setDegraded_quiet hs₅)))

theorem stopBackground_quiet (h : Quiet s₀ s) : Quiet s₀ (stopBackground s) := by
  unfold stopBackground
  extract_lets +onlyGivenNames _ s₁
  have hs₁ : Quiet s₀ s₁ := .ite (addRec_quiet (endRows_quiet h)) (endRows_quiet h)
  exact patrolUpdate_quiet (.ite (checkpointRec_quiet hs₁) hs₁)

theorem retireMember_quiet {n : Nat} (h : Quiet s₀ s) : Quiet s₀ (retireMember n s) :=
  .ite (patrolUpdate_quiet (setDegraded_quiet (addRec_quiet (writeDir_quiet h)))) h

theorem candidateWritten_quiet {sub n : Nat} (h : Quiet s₀ s) : Quiet s₀ (candidateWritten sub n s) :=
  .ite (movePair_quiet (.frame h rfl)) h

/-! ### Machine/Operands.lean -/

theorem fetchList_quiet {e : Entry} {list : List HostRead} (h : Quiet s₀ s) : Quiet s₀ (fetchList e list s) :=
  .ite (.frame h rfl) h

/-! ### Machine/Entries.lean -/

theorem grantFetch_quiet {n : Nat} {newRound : Bool} (h : Quiet s₀ s) : Quiet s₀ (grantFetch n newRound s) :=
  .frame (.frame (.ite (.frame h rfl) h) rfl) rfl

theorem pushEntry_quiet {e : Entry} (h : Quiet s₀ s) : Quiet s₀ (pushEntry e s) := .frame (.frame h rfl) rfl

theorem stopRing_quiet {n cause index : Nat} (h : Quiet s₀ s) : Quiet s₀ (stopRing n cause index s) :=
  raise_quiet (by omega) (.frame (.frame h rfl) rfl)

theorem latchStop_quiet {n cause index : Nat} (h : Quiet s₀ s) : Quiet s₀ (latchStop n cause index s) := .frame (.frame h rfl) rfl

theorem settleStop_quiet {n : Nat} (h : Quiet s₀ s) : Quiet s₀ (settleStop n s) := by
  unfold settleStop
  split
  · exact .ite h (.ite (latchStop_quiet (.frame h rfl)) (stopRing_quiet (.frame h rfl)))
  · exact h

theorem undoOpen_quiet {e : Entry} (h : Quiet s₀ s) : Quiet s₀ (undoOpen e s) := .ite (.frame h rfl) h

theorem tellAccums_quiet {handle : Nat} {body : List Byte} (h : Quiet s₀ s) : Quiet s₀ (tellAccums handle body s) :=
  .ite h (dvSend_quiet (.frame h rfl))

theorem dropAccum_quiet (h : Quiet s₀ s) : Quiet s₀ (dropAccum s) := .frame (tellAccums_quiet (.frame h rfl)) rfl

theorem abortEntry_quiet {st det : Nat} {e : Entry} (h : Quiet s₀ s) : Quiet s₀ (abortEntry st det s e) := by
  unfold abortEntry
  extract_lets +onlyGivenNames s₁
  have hs₁ : Quiet s₀ s₁ := undoOpen_quiet (.frame (withdraw_quiet h) rfl)
  exact .frame (.frame (.frame (.ite (dropAccum_quiet hs₁) hs₁) rfl) rfl) rfl

theorem stopAt_quiet {e : Entry} {cause : Nat} (h : Quiet s₀ s) : Quiet s₀ (stopAt e cause s) :=
  .frame (.frame (.foldl (fun _ _ ht => abortEntry_quiet ht) (abortEntry_quiet h)) rfl) rfl

theorem takeEntry_quiet {n : Nat} {x2 : Head0} {rest : List Byte} (h : Quiet s₀ s) : Quiet s₀ (takeEntry n x2 rest s) := by
  unfold takeEntry
  dsimp only
  split
  · exact .ite (.frame (.frame (.frame (.frame h rfl) rfl) rfl) rfl) (.frame (.frame h rfl) rfl)
  · exact .ite (pushEntry_quiet h) (.frame (pushEntry_quiet h) rfl)

theorem takeBad_quiet {n cause units : Nat} {x4 : Head0} (h : Quiet s₀ s) : Quiet s₀ (takeBad n cause units x4 s) := by
  unfold takeBad
  dsimp only
  split
  · refine .frame ?_ rfl
    refine .frame ?_ rfl
    split
    · exact .frame (abortEntry_quiet h) rfl
    · exact .frame h rfl
  · exact .frame (pushEntry_quiet h) rfl

theorem fetchOwned_quiet {n : Nat} {x2 : Head0} {rest : HostRead} (h : Quiet s₀ s) : Quiet s₀ (fetchOwned n x2 rest s) := by
  refine .ite (takeBad_quiet h) ?_
  refine .ite (takeBad_quiet h) ?_
  split
  · exact stopRing_quiet h
  · split
    · exact takeBad_quiet h
    · exact .frame (takeEntry_quiet h) rfl

theorem readIfMissed_quiet {g : Nat} (h : Quiet s₀ s) : Quiet s₀ (readIfMissed s g) := .ite (.frame h rfl) h

theorem missIfNeeded_quiet {n : Nat} (h : Quiet s₀ s) : Quiet s₀ (missIfNeeded n s) := by
  unfold missIfNeeded
  split
  · exact .ite (.foldl (fun _ _ ht => lookUpBinds_quiet ht) (.foldl (fun _ _ ht => readIfMissed_quiet ht) h)) h
  · exact h

theorem walkStops_quiet {n cause units : Nat} {x4 : Head0} (h : Quiet s₀ s) : Quiet s₀ (walkStops n cause units x4 s) :=
  latchStop_quiet (pushEntry_quiet (.frame h rfl))

theorem walkTakes_quiet {n : Nat} {x2 : Head0} {bs : List Byte} {more : List HostRead} (h : Quiet s₀ s) :
    Quiet s₀ (walkTakes n x2 bs more s) :=
  .frame (.frame (pushEntry_quiet h) rfl) rfl

theorem walkStep_quiet {n : Nat} (h : Quiet s₀ s) : Quiet s₀ (walkStep n s) := by
  unfold walkStep
  dsimp only
  split
  · exact .frame h rfl
  · split
    · exact .frame (latchStop_quiet (.frame (.frame h rfl) rfl)) rfl
    · refine .ite (.frame (.frame (.frame h rfl) rfl) rfl) ?_
      refine .ite (walkStops_quiet (.frame (.frame h rfl) rfl)) ?_
      refine .ite (walkStops_quiet (.frame (.frame h rfl) rfl)) ?_
      split
      · exact .frame (.frame (.frame h rfl) rfl) rfl
      · exact .frame (latchStop_quiet (.frame (.frame h rfl) rfl)) rfl
      · split
        · exact walkStops_quiet (.frame (.frame h rfl) rfl)
        · exact walkTakes_quiet (.frame (.frame h rfl) rfl)

theorem disableRing_quiet {n : Nat} (h : Quiet s₀ s) : Quiet s₀ (disableRing n s) := raise_quiet (by omega) (.frame h rfl)

theorem settleShutdown_quiet {n : Nat} (h : Quiet s₀ s) : Quiet s₀ (settleShutdown n s) :=
  .ite (.ite (disableRing_quiet h) (.ite (.ite (disableRing_quiet (walkStep_quiet h)) (walkStep_quiet h)) h)) h

theorem settleRestart_quiet {n : Nat} (h : Quiet s₀ s) : Quiet s₀ (settleRestart n s) := .ite (.frame h rfl) h

theorem settleRing_quiet {n : Nat} (h : Quiet s₀ s) : Quiet s₀ (settleRing n s) :=
  settleRestart_quiet (settleShutdown_quiet (settleStop_quiet h))

theorem settleRings_quiet (h : Quiet s₀ s) : Quiet s₀ (settleRings s) :=
  .ite (.foldl (fun _ _ ht => .ite (settleRing_quiet ht) ht) h) h

theorem enableRing_quiet {n : Nat} (h : Quiet s₀ s) : Quiet s₀ (enableRing n s) := .ite (.ite (.frame h rfl) (.frame h rfl)) h

theorem doorbell_quiet {n : Nat} (h : Quiet s₀ s) : Quiet s₀ (doorbell n s) := by
  unfold doorbell
  extract_lets +onlyGivenNames _
  split
  · exact h
  · exact h
  · exact .frame h rfl
  · exact .frame h rfl

theorem restartRing_quiet {n : Nat} (h : Quiet s₀ s) : Quiet s₀ (restartRing n s) := .ite (settleRestart_quiet (.frame h rfl)) h

theorem shutdownRing_quiet {n : Nat} {walk : List HostRead} (h : Quiet s₀ s) : Quiet s₀ (shutdownRing n walk s) :=
  .ite h (settleRing_quiet (.frame (.foldl (fun _ _ ht => abortEntry_quiet ht) (.frame h rfl)) rfl))

theorem nextWrite_quiet {e : Entry} (h : Quiet s₀ s) : Quiet s₀ (nextWrite e s) := .ite (.frame h rfl) (.frame h rfl)

theorem completeEntry_quiet {eid : Nat} (h : Quiet s₀ s) : Quiet s₀ (completeEntry eid s) := by
  unfold completeEntry
  split
  · exact .ite (.frame (.frame h rfl) rfl) (.ite (nextWrite_quiet h) h)
  · exact h

theorem neverWritten_quiet {e : Entry} (h : Quiet s₀ s) : Quiet s₀ (neverWritten e s) := by
  unfold neverWritten
  dsimp only
  split
  · exact .frame h rfl
  · exact h

theorem complFailed_quiet {eid part : Nat} (h : Quiet s₀ s) : Quiet s₀ (complFailed eid part s) := by
  unfold complFailed
  split
  · extract_lets +onlyGivenNames s₁
    have hs₁ : Quiet s₀ s₁ := .frame (.frame (neverWritten_quiet h) rfl) rfl
    exact settleRing_quiet (.ite (latchStop_quiet hs₁) (stopRing_quiet hs₁))
  · exact h

/-! ### Machine/Thresholds.lean -/

theorem useDose_quiet {u b : Nat} (h : Quiet s₀ s) : Quiet s₀ (useDose u b s).2 := by
  unfold useDose
  split
  · exact h
  · split
    · exact .frame h rfl
    · split
      · exact h
      · exact .frame h rfl

theorem doseArrived_quiet {u b : Nat} (h : Quiet s₀ s) : Quiet s₀ (doseArrived u b s) :=
  .foldl (fun _ _ ht => sendJob_quiet ht) (.frame (.frame h rfl) rfl)

theorem addPageJob_quiet {owner : Owner} {p : Page} {mask slot prio step : Nat} {feats : List (Nat × Nat)} {items : List (BitVec 128)}
    (h : Quiet s₀ s) : Quiet s₀ (addPageJob owner p mask slot prio step feats items s).2 :=
  addJob_quiet (useDose_quiet h)

theorem addRead_quiet {owner : Owner} {p : Page} {mask slot prio step tag : Nat} {off : List ℤ} (h : Quiet s₀ s) :
    Quiet s₀ (addRead owner p mask slot prio step tag off s).2 :=
  addPageJob_quiet (.ite (.frame h rfl) h)

theorem addSense_quiet {owner : Owner} {p : Page} {mask slot prio step tag i : Nat} {off : List ℤ} (h : Quiet s₀ s) :
    Quiet s₀ (addSense owner p mask slot prio step tag i off s).2 :=
  addPageJob_quiet h

theorem addRetry_quiet {owner : Owner} {p : Page} {mask slot prio i : Nat} (h : Quiet s₀ s) :
    Quiet s₀ (addRetry owner p mask slot prio i s).2 :=
  addJob_quiet h

/-! ### Machine/Reads.lean -/

theorem deliverAt_quiet {eid pos slot : Nat} {bs : List Byte} (h : Quiet s₀ s) : Quiet s₀ (deliverAt eid pos slot bs s) := by
  unfold deliverAt
  dsimp only
  split
  · exact .frame (.foldlFst (fun _ _ ht => hostWriteData_quiet ht) h) rfl
  · exact h

theorem loseCw_quiet {eid det : Nat} (h : Quiet s₀ s) : Quiet s₀ (loseCw eid det s) := .frame (.frame h rfl) rfl

theorem noteLadder_quiet {c : Cw} {step : Nat} {leaves : Bool} (h : Quiet s₀ s) : Quiet s₀ (noteLadder c step leaves s) := by
  unfold noteLadder
  split
  · exact .frame h rfl
  · exact h

theorem rereadCw_quiet {c : Cw} {p : Page} {prio : Nat} {owner : Owner} (h : Quiet s₀ s) : Quiet s₀ (rereadCw c p prio owner s) :=
  .frame (addRead_quiet h) rfl

theorem deliverRemote_quiet {c : Cw} {bs : List Byte} (h : Quiet s₀ s) : Quiet s₀ (deliverRemote c bs s) := by
  unfold deliverRemote
  split
  · split
    · refine .ite h ?_
      split
      · exact .foldlFst (fun _ _ ht => hostWriteData_quiet ht) h
      · refine dvSend_quiet ?_
        split
        · exact sramRead_quiet h
        · exact h
    · exact h
  · exact h

theorem landRead_quiet {c : Cw} {bs : List Byte} {ok : Bool} (h : Quiet s₀ s) : Quiet s₀ (landRead c bs ok s) := by
  unfold landRead
  extract_lets +onlyGivenNames s₁
  have hs₁ : Quiet s₀ s₁ := .ite h (.frame h rfl)
  refine .ite ?_ ?_
  · extract_lets +onlyGivenNames s₂
    have hs₂ : Quiet s₀ s₂ := .frame hs₁ rfl
    split
    · exact deliverAt_quiet hs₂
    · exact deliverRemote_quiet hs₂
  · split
    · refine .ite ?_ (rereadCw_quiet hs₁)
      split
      · exact .frame (.frame hs₁ rfl) rfl
      · exact .frame hs₁ rfl
    · exact hs₁

theorem landLabel_quiet {c : Cw} {label : List Byte} (h : Quiet s₀ s) : Quiet s₀ (landLabel c label s) :=
  .ite (sramWrite_quiet h) h

theorem landCw_quiet {c : Cw} {data : List Byte} (h : Quiet s₀ s) : Quiet s₀ (landCw c data s) :=
  landRead_quiet (sramRead_quiet (sramWrite_quiet h))

theorem endClimb_quiet {c : Cw} (h : Quiet s₀ s) : Quiet s₀ (endClimb c s) := by
  unfold endClimb
  dsimp only
  split
  · exact loseCw_quiet (.frame (.frame h rfl) rfl)
  · exact .frame (.frame h rfl) rfl

theorem failCw_quiet {c : Cw} {spent : Bool} (h : Quiet s₀ s) : Quiet s₀ (failCw c spent s) :=
  .ite (endClimb_quiet (.frame h rfl)) (.frame h rfl)

theorem reread_quiet {cs : List Cw} {step : Nat} {add : Nat → Nat → State → Nat × State} {f : Cw → Cw}
  (hf : ∀ {y1 y2 u}, Quiet s₀ u → Quiet s₀ (add y1 y2 u).2)
    (h : Quiet s₀ s) : Quiet s₀ (reread cs step add f s) :=
  .frame (.foldl (fun _ _ ht => .frame (hf ht) rfl) h) rfl

theorem noteStep_quiet {cs : List Cw} {step : Nat} (h : Quiet s₀ s) : Quiet s₀ (noteStep cs step s) :=
  .foldl (fun _ _ ht => noteLadder_quiet ht) h

theorem startMemberRead_quiet {e : Entry} {m : Nat} (h : Quiet s₀ s) : QuietIf s₀ (startMemberRead e m s) := by
  refine .ite (.some (.foldl (fun _ _ ht => deliverAt_quiet ht) (.frame h rfl))) ?_
  refine .ite (.some (.foldl (fun _ _ ht => loseCw_quiet ht) (.frame h rfl))) ?_
  split
  · exact .none
  · exact .ite (.some (.foldl (fun _ _ ht => .ite (endClimb_quiet ht) ht)
      (.foldl (fun _ _ ht => noteLadder_quiet ht) (.foldl (fun _ _ ht => loseCw_quiet ht)
      (.frame (.frame h rfl) rfl))))) (.some (.foldl (fun _ _ ht => loseCw_quiet ht)
      (.frame (addRead_quiet (.frame h rfl)) rfl)))

theorem pumpReads_quiet (h : Quiet s₀ s) : Quiet s₀ (pumpReads s) := by
  refine .foldl (fun t p ht => ?_) h
  split
  case h_1 u e => exact startMemberRead_quiet ht u e
  case h_2 => exact ht

theorem stopClimbs_quiet (h : Quiet s₀ s) : Quiet s₀ (stopClimbs s) :=
  .foldl (fun _ _ ht => endClimb_quiet ht) (.foldl (fun _ _ ht => .frame ht rfl) (.frame (withdraw_quiet h) rfl))

theorem dataAcked_quiet {eid slot : Nat} (h : Quiet s₀ s) : Quiet s₀ (dataAcked eid slot s) :=
  .ite h (pumpReads_quiet (.frame (.frame h rfl) rfl))

/-! ### Machine/Ladder.lean -/

theorem engineFault_quiet {kind i cause : Nat} (h : Quiet s₀ s) : Quiet s₀ (engineFault kind i cause s) :=
  raisePriv_quiet (by omega) (.frame h rfl)

theorem assignEncoders_quiet (h : Quiet s₀ s) : Quiet s₀ (assignEncoders s) := by
  refine .foldl (fun _ _ ht => ?_) h
  split
  · exact .frame ht rfl
  · exact ht

theorem remoteData_quiet {r : Remote} {c : Nat} (h : Quiet s₀ s) : Quiet s₀ (remoteData r c s).2.2 := by
  unfold remoteData
  extract_lets +onlyGivenNames _
  split
  · exact sramRead_quiet h
  · exact h
  · split
    · exact slotBytes_quiet h
    · exact h

theorem pageData_quiet {j : Job} {c : Nat} (h : Quiet s₀ s) : Quiet s₀ (pageData j c s).2.2 := by
  unfold pageData
  split
  · exact sramRead_quiet h
  · split
    · exact h
    · exact slotBytes_quiet h
  · split <;> exact h
  · exact h
  · exact h
  · exact h
  · split
    · exact remoteData_quiet h
    · exact h
  · exact h

theorem badPage_quiet {j : Job} {c : Nat} (h : Quiet s₀ s) : Quiet s₀ (badPage j c s) := by
  unfold badPage
  dsimp only
  split
  · split
    · exact .foldl (fun _ _ ht => .frame ht rfl) (.frame h rfl)
    · exact h
  · exact .frame h rfl
  · exact h

theorem noEncoder_quiet {j : Job} (h : Quiet s₀ s) : Quiet s₀ (noEncoder j s) := by
  unfold noEncoder
  dsimp only
  split
  · exact .frame (.frame h rfl) rfl
  · exact .frame h rfl

theorem encoderFault_quiet {engine cause : Nat} {j : Job} (h : Quiet s₀ s) : Quiet s₀ (encoderFault engine cause j s) := by
  unfold encoderFault
  extract_lets +onlyGivenNames _ _ s₁
  have hs₁ : Quiet s₀ s₁ := .frame (engineFault_quiet (.frame h rfl)) rfl
  exact .ite (assignEncoders_quiet hs₁) (.foldl (fun _ _ ht₁ => noEncoder_quiet ht₁) hs₁)

theorem deliverCw_quiet {j : Job} {c : Nat} {bs : List Byte} (h : Quiet s₀ s) : Quiet s₀ (deliverCw j c bs s) :=
  .ite h (.frame (.frame (.frame h rfl) rfl) rfl)

theorem encodeNext_quiet {engine : Nat} {j : Job} (h : Quiet s₀ s) : Quiet s₀ (encodeNext engine j s) :=
  .ite (badPage_quiet (.frame (pageData_quiet h) rfl)) (assignEncoders_quiet
    (.frame (.frame (deliverCw_quiet (.frame (pageData_quiet h) rfl)) rfl) rfl))

theorem countResult_quiet {kind r : Nat} (h : Quiet s₀ s) : Quiet s₀ (countResult kind r s) := by
  unfold countResult
  extract_lets +onlyGivenNames s₁
  have hs₁ : Quiet s₀ s₁ := .ite (.frame h rfl) (.ite (.frame h rfl) h)
  exact .ite (.frame hs₁ rfl) (.ite (.frame hs₁ rfl) (.ite (.frame hs₁ rfl) hs₁))

theorem noteRecord_quiet {kind engine : Nat} {c : Cw} {j : Job} {d : Decoded} (h : Quiet s₀ s) :
    Quiet s₀ (noteRecord kind engine c j d s) :=
  .ite (.frame (countResult_quiet h) rfl) (countResult_quiet h)

theorem countResolved_quiet {k : Nat} (h : Quiet s₀ s) : Quiet s₀ (countResolved k s) := .ite h (.frame h rfl)

theorem failRead_quiet {eid st det : Nat} (h : Quiet s₀ s) : Quiet s₀ (failRead eid st det s) :=
  .frame (.frame (.frame (withdraw_quiet (.frame h rfl)) rfl) rfl) rfl

theorem noEngine_quiet {kind : Nat} {c : Cw} {j : Job} (h : Quiet s₀ s) : Quiet s₀ (noEngine kind c j s) := by
  refine .ite ?_ (failCw_quiet (noteRecord_quiet h))
  split
  · exact failRead_quiet (noteRecord_quiet h)
  · exact .frame (.frame (noteRecord_quiet h) rfl) rfl

theorem queueDecode_quiet {c : Cw} (h : Quiet s₀ s) : Quiet s₀ (queueDecode c s) := by
  refine .ite (.frame (.frame h rfl) rfl) ?_
  split
  · exact noEngine_quiet (.frame (.frame h rfl) rfl)
  · exact .frame (.frame h rfl) rfl

theorem takeInject_quiet {raw : List Byte} (h : Quiet s₀ s) : Quiet s₀ (takeInject raw s).2 := by
  unfold takeInject
  split
  · exact h
  · exact .frame h rfl

theorem takeDecode_quiet {kind engine : Nat} (h : Quiet s₀ s) : Quiet s₀ (takeDecode kind s engine) := by
  refine .ite h ?_
  refine .ite ?_ ?_
  · split
    · exact .frame (takeInject_quiet h) rfl
    · exact h
  · split
    · exact .frame h rfl
    · exact h

theorem assignDecoders_quiet (h : Quiet s₀ s) : Quiet s₀ (assignDecoders s) :=
  takeDecode_quiet (.foldl (fun _ _ ht => takeDecode_quiet ht) (.foldl (fun _ _ ht => takeDecode_quiet ht) (.frame h rfl)))

theorem senseSearch_quiet {q : Search} (h : Quiet s₀ s) : Quiet s₀ (senseSearch q s) :=
  .foldl (fun _ _ ht => addSense_quiet ht) (.frame h rfl)

theorem writeArea_quiet {w len : Nat} {value : Nat → Nat} (h : Quiet s₀ s) : Quiet s₀ (writeArea w len value s) :=
  sramWrite_quiet h

theorem readArea_quiet {w : Option Nat} {len : Nat} (h : Quiet s₀ s) : Quiet s₀ (readArea w len s).2 := by
  unfold readArea
  split
  · exact sramRead_quiet h
  · exact h

theorem senseAll_quiet {j : Job} {off : List ℤ} {step mask slot : Nat} (h : Quiet s₀ s) :
    Quiet s₀ (senseAll j off step mask slot s).2 := by
  refine .foldlSnd (fun acc x ht => ?_) h
  dsimp only
  split
  · exact addSense_quiet ht
  · exact .frame (addSense_quiet ht) rfl

theorem senseGranted_quiet {job : Nat} (h : Quiet s₀ s) : Quiet s₀ (senseGranted s job) := by
  unfold senseGranted
  split
  · exact reread_quiet (fun hu => senseAll_quiet hu) h
  · exact h

theorem grantArea_quiet {t' : AreaTurn} (h : Quiet s₀ s) : Quiet s₀ (grantArea s t') := by
  refine .ite ?_ h
  split
  · split
    · exact senseSearch_quiet (.frame h rfl)
    · exact h
  · exact .frame h rfl
  · exact h

theorem pumpAreas_quiet (h : Quiet s₀ s) : Quiet s₀ (pumpAreas s) :=
  .ite h (.foldl (fun _ _ ht => senseGranted_quiet ht) (.foldl (fun _ _ ht => grantArea_quiet ht) h))

theorem senseStep_quiet {job step : Nat} (h : Quiet s₀ s) : Quiet s₀ (senseStep job step s) := by
  unfold senseStep
  split
  · exact h
  · exact .ite h (pumpAreas_quiet (.frame (.foldl (fun _ _ ht => .frame ht rfl) (noteStep_quiet h)) rfl))

theorem startSearch_quiet {u b z wl slot profile prio : Nat} {climb sweep : Bool} (h : Quiet s₀ s) :
    Quiet s₀ (startSearch u b z wl slot profile prio climb sweep s) :=
  .ite h (pumpAreas_quiet (.frame (.frame h rfl) rfl))

theorem backgroundSearch_quiet {u b z : Nat} {sweep : Bool} (h : Quiet s₀ s) : Quiet s₀ (backgroundSearch u b z sweep s) := by
  unfold backgroundSearch
  split
  · exact .ite (startSearch_quiet h) h
  · exact h

theorem trueRead_quiet {job : Nat} {cs : List Cw} {off : List ℤ} (h : Quiet s₀ s) : Quiet s₀ (trueRead job cs off s) := by
  unfold trueRead
  split
  · exact reread_quiet (fun hu => addRead_quiet hu) h
  · exact h

theorem rereadAll_quiet {cs : List Cw} {off : List ℤ} (h : Quiet s₀ s) : Quiet s₀ (rereadAll cs off s) :=
  .foldl (fun _ _ ht => trueRead_quiet ht) h

theorem failTruing_quiet {cs : List Cw} (h : Quiet s₀ s) : Quiet s₀ (failTruing cs s) := .foldl (fun _ _ ht => failCw_quiet ht) h

theorem settleTruing_quiet (h : Quiet s₀ s) : Quiet s₀ (settleTruing s) := failTruing_quiet h

theorem dropSearch_quiet {id : Nat} (h : Quiet s₀ s) : Quiet s₀ (dropSearch id s) := .frame (withdraw_quiet h) rfl

theorem abandonSearch_quiet {q : Search} (h : Quiet s₀ s) : Quiet s₀ (abandonSearch q s) :=
  pumpAreas_quiet (failTruing_quiet (raise_quiet (by omega) (.frame (.frame (dropSearch_quiet h) rfl) rfl)))

theorem updateBias_quiet {q : Search} (h : Quiet s₀ s) : Quiet s₀ (updateBias q s) := .ite (.frame h rfl) h

theorem convergeSearch_quiet {q : Search} (h : Quiet s₀ s) : Quiet s₀ (convergeSearch q s) := by
  unfold convergeSearch
  extract_lets +onlyGivenNames _ s₁
  have hs₁ : Quiet s₀ s₁ := dropSearch_quiet h
  extract_lets +onlyGivenNames _ _ _ s₂
  have hs₂ : Quiet s₀ s₂ := .frame hs₁ rfl
  extract_lets +onlyGivenNames s₃
  have hs₃ : Quiet s₀ s₃ := updateBias_quiet (.frame hs₂ rfl)
  refine .ite (pumpAreas_quiet hs₃) ?_
  extract_lets +onlyGivenNames s₄
  have hs₄ : Quiet s₀ s₄ := .frame hs₃ rfl
  extract_lets +onlyGivenNames s₅
  have hs₅ : Quiet s₀ s₅ := addJob_quiet hs₄
  extract_lets +onlyGivenNames s₆
  have hs₆ : Quiet s₀ s₆ := .frame hs₅ rfl
  exact pumpAreas_quiet (rereadAll_quiet hs₆)

theorem truingIteration_quiet {id : Nat} (h : Quiet s₀ s) : Quiet s₀ (truingIteration id s) := by
  unfold truingIteration
  dsimp only
  split
  · refine .ite ?_ h
    refine .ite (readArea_quiet h) ?_
    refine .ite (pumpAreas_quiet (failTruing_quiet (dropSearch_quiet (readArea_quiet h)))) ?_
    split
    · exact convergeSearch_quiet (readArea_quiet h)
    · exact .ite (.frame (readArea_quiet h) rfl) (senseSearch_quiet (.frame (readArea_quiet h) rfl))
  · exact h

theorem truingAbandon_quiet {id : Nat} (h : Quiet s₀ s) : Quiet s₀ (truingAbandon id s) := by
  unfold truingAbandon
  split
  · exact .ite (abandonSearch_quiet h) h
  · exact h

theorem senseAgain_quiet {j : Job} {cs : List Cw} (h : Quiet s₀ s) : Quiet s₀ (senseAgain j s cs) := by
  unfold senseAgain
  split
  · exact h
  · exact addJob_quiet h

theorem repeatRead_quiet {cs : List Cw} {j : Job} (h : Quiet s₀ s) : Quiet s₀ (repeatRead cs j s) := by
  unfold repeatRead
  split
  · exact h
  · exact .ite (.foldl (fun _ _ ht => senseAgain_quiet ht) (.foldl (fun _ _ ht => .frame ht rfl) h))
      (.ite (reread_quiet (fun hu => addRetry_quiet hu) h) (reread_quiet (fun hu => addRead_quiet hu) h))

theorem leaveZero_quiet {c : Cw} (h : Quiet s₀ s) : Quiet s₀ (leaveZero c s) := .ite (noteLadder_quiet h) h

theorem incompleteCws_quiet {cs : List Cw} {j : Job} (h : Quiet s₀ s) : Quiet s₀ (incompleteCws cs j s) :=
  .foldl (fun _ _ ht => failCw_quiet (leaveZero_quiet ht)) (repeatRead_quiet (.foldl (fun _ _ ht => noteRecord_quiet ht) h))

theorem triggerTruing_quiet {c : Cw} {j : Job} {d : Decoded} (h : Quiet s₀ s) : Quiet s₀ (triggerTruing c j d s) :=
  .ite (backgroundSearch_quiet h) h

theorem decodedCw_quiet {c : Cw} {j : Job} {d : Decoded} (h : Quiet s₀ s) : Quiet s₀ (decodedCw c j d s) :=
  triggerTruing_quiet (landCw_quiet (landLabel_quiet (.frame (.ite (.frame (countResolved_quiet h) rfl) (countResolved_quiet h)) rfl)))

theorem afterDecode_quiet {c : Cw} {j : Job} {d : Decoded} (h : Quiet s₀ s) : Quiet s₀ (afterDecode c j d s) :=
  .ite (decodedCw_quiet h) (.ite (incompleteCws_quiet h) (.ite (failCw_quiet (leaveZero_quiet h)) (failCw_quiet (leaveZero_quiet h))))

theorem drainKind_quiet {kind : Nat} (h : Quiet s₀ s) : Quiet s₀ (drainKind kind s) := by
  refine .ite h ?_
  extract_lets +onlyGivenNames s₁
  have hs₁ : Quiet s₀ s₁ := by
    refine .foldl (fun _ _ ht => ?_) h
    split
    · exact noEngine_quiet ht
    · exact ht
  exact .ite (.foldl (fun _ _ ht₁ => failRead_quiet ht₁) hs₁) hs₁

theorem endDecode_quiet {d : DecJob} {fault : Bool} {result : Cw → Job → Decoded} (h : Quiet s₀ s) :
    Quiet s₀ (endDecode d fault result s) := by
  unfold endDecode
  split
  · exact .ite (assignDecoders_quiet (pumpAreas_quiet (drainKind_quiet
      (engineFault_quiet (.frame (.frame h rfl) rfl))))) (assignDecoders_quiet
      (pumpAreas_quiet (afterDecode_quiet (noteRecord_quiet (.frame h rfl)))))
  · exact h

theorem areaDecode_quiet {kind engine job cw : Nat} {fault : Bool} (h : Quiet s₀ s) :
    Quiet s₀ (areaDecode kind engine job cw fault s) := by
  unfold areaDecode
  split
  · refine .ite ?_ ?_
    · split
      · exact h
      · exact readArea_quiet h
    · refine endDecode_quiet ?_
      split
      · exact h
      · exact readArea_quiet h
  · exact h

theorem settleRead_quiet {e : Entry} (h : Quiet s₀ s) : Quiet s₀ (settleRead s e) := .ite (.frame h rfl) h

theorem fixRead_quiet {i c m : Nat} (h : Quiet s₀ s) : Quiet s₀ (fixRead i c m s) := by
  unfold fixRead
  dsimp only
  split
  · exact h
  · exact .ite (.frame h rfl) (.frame (addRead_quiet h) rfl)

theorem rewriteParity_quiet {i c : Nat} {ds : List (Nat × List Byte)} (h : Quiet s₀ s) : Quiet s₀ (rewriteParity i c ds s) :=
  slotWrite_quiet (slotWrite_quiet h)

theorem fixGot_state (m : Nat) (ds : List (Nat × List Byte)) (gone : List Nat) (bs : List Byte) (ok : Bool) (s : State) :
    (fixGot m ds gone bs ok s).2.2 = s := by
  unfold fixGot
  split <;> rfl

theorem fixData_quiet {i c : Nat} (h : Quiet s₀ s) : Quiet s₀ (fixData i c s).2.2 := by
  refine .foldlThird (fun acc m ht => ?_) h
  split
  · rw [fixGot_state]
    exact sramRead_quiet ht
  · split
    · rw [fixGot_state]
      exact sramRead_quiet ht
    · exact ht

theorem fixEnd_quiet {i c : Nat} (h : Quiet s₀ s) : Quiet s₀ (fixEnd i c s) := by
  have hdata : Quiet s₀ (fixData i c s).2.2 := fixData_quiet h
  unfold fixEnd
  generalize fixData i c s = d at hdata
  extract_lets k
  obtain ⟨ds, gone, t⟩ := d
  dsimp -zeta only at hdata ⊢
  extract_lets back _ s₁ s₂ s₃
  have hs₃ : Quiet s₀ s₃ := .frame (.frame (.frame hdata rfl) rfl) rfl
  exact placeAll_quiet (.ite (rewriteParity_quiet hs₃) (.foldl (fun _ _ ht => addLoss_quiet ht) (.frame hs₃ rfl)))

theorem pumpFix_quiet {i : Nat} (h : Quiet s₀ s) : Quiet s₀ (pumpFix s i) := by
  unfold pumpFix
  extract_lets +onlyGivenNames _
  split
  · exact .ite (.ite (.foldl (fun _ _ ht => fixRead_quiet ht) h) h) (.ite (fixEnd_quiet h) h)
  · exact h

/-! ### Machine/Saves.lean -/

theorem eraseHalf_quiet {x1 : Nat} (h : Quiet s₀ s) : Quiet s₀ (eraseHalf x1 s) :=
  .foldl (fun _ _ ht => .ite ht (eraseSector_quiet ht)) h

theorem appendRecord_quiet {idx sub : Nat} {v : List Byte} (h : Quiet s₀ s) : Quiet s₀ (appendRecord idx sub v s) :=
  .frame (.frame h rfl) rfl

theorem compactNow_quiet (h : Quiet s₀ s) : Quiet s₀ (compactNow s) := by
  unfold compactNow
  extract_lets +onlyGivenNames _ _ _ _ _ s₁
  have hs₁ : Quiet s₀ s₁ := eraseHalf_quiet h
  extract_lets +onlyGivenNames _ s₂
  have hs₂ : Quiet s₀ s₂ := .frame hs₁ rfl
  extract_lets +onlyGivenNames s₃
  have hs₃ : Quiet s₀ s₃ := .foldl (fun _ _ ht₂ => appendRecord_quiet ht₂) hs₂
  extract_lets +onlyGivenNames s₄
  have hs₄ : Quiet s₀ s₄ := .ite (appendRecord_quiet hs₃) hs₃
  exact .frame hs₄ rfl

theorem ensureHalf_quiet (h : Quiet s₀ s) : Quiet s₀ (ensureHalf s) := .ite (.frame (.frame (eraseHalf_quiet h) rfl) rfl) h

theorem eraseAhead_quiet (h : Quiet s₀ s) : Quiet s₀ (eraseAhead s) := by
  refine .ite ?_ h
  split
  · exact eraseSector_quiet h
  · exact h

theorem saveRecord_quiet {idx sub : Nat} {v : List Byte} (h : Quiet s₀ s) : Quiet s₀ (saveRecord idx sub v s) :=
  eraseAhead_quiet (appendRecord_quiet (.ite (compactNow_quiet (ensureHalf_quiet h)) (ensureHalf_quiet h)))

theorem saveClocks_quiet (h : Quiet s₀ s) : Quiet s₀ (saveClocks s) := by
  unfold saveClocks
  extract_lets +onlyGivenNames _ s₁
  have hs₁ : Quiet s₀ s₁ := .foldl (fun _ _ ht => saveRecord_quiet ht) h
  exact .foldl (fun _ _ ht₁ => .ite ht₁ (.ite ht₁ (saveRecord_quiet (.frame ht₁ rfl)))) (.ite (saveRecord_quiet (.frame hs₁ rfl)) hs₁)

theorem applyRecord_quiet {r : SaveRec} (h : Quiet s₀ s) : Quiet s₀ (applyRecord r s) := by
  refine .ite (.frame h rfl) ?_
  refine .ite (.ite (.frame h rfl) h) ?_
  refine .ite (.frame h rfl) ?_
  refine .ite (.frame h rfl) ?_
  split
  · exact .ite (.frame h rfl) (.frame h rfl)
  · exact .frame h rfl

theorem countStart_quiet (h : Quiet s₀ s) : Quiet s₀ (countStart s) :=
  .ite (.ite (saveRecord_quiet (.frame h rfl)) (.frame h rfl)) h

theorem restoreBias_quiet (h : Quiet s₀ s) : Quiet s₀ (restoreBias s) := .foldl (fun _ _ ht => .ite (.frame ht rfl) ht) h

theorem restoreSaved_quiet (h : Quiet s₀ s) : Quiet s₀ (restoreSaved s) := by
  unfold restoreSaved
  dsimp only
  split
  · exact .frame (.frame h rfl) rfl
  · exact restoreBias_quiet (.frame (.foldl (fun _ _ ht => applyRecord_quiet ht) (.frame (.frame h rfl) rfl)) rfl)

/-! ### Machine/Dose.lean -/

theorem tickChannel_quiet {ch : Nat} (h : Quiet s₀ s) : Quiet s₀ (tickChannel s ch) :=
  .frame (.ite (raise_quiet (by omega) (.frame h rfl)) (.frame h rfl)) rfl

theorem startSweep_quiet (h : Quiet s₀ s) : Quiet s₀ (startSweep s) :=
  .foldl (fun _ _ ht => .foldl (fun _ _ ht₁ => .foldl (fun _ _ ht₂ => backgroundSearch_quiet ht₂) ht₁) ht) (.frame h rfl)

theorem settleSweep_quiet (h : Quiet s₀ s) : Quiet s₀ (settleSweep s) := .ite (.frame h rfl) h

theorem firstWall_quiet {v : BitVec 48} (h : Quiet s₀ s) : Quiet s₀ (firstWall v s) := by
  unfold firstWall
  extract_lets +onlyGivenNames _ _ s₁
  have hs₁ : Quiet s₀ s₁ := .ite h (raise_quiet (by omega) h)
  exact .ite (startSweep_quiet (.frame hs₁ rfl)) (.frame (.frame hs₁ rfl) rfl)

theorem writeWall_quiet {v : BitVec 48} (h : Quiet s₀ s) : Quiet s₀ (writeWall v s) :=
  settleSweep_quiet (saveClocks_quiet (.frame (.ite h (firstWall_quiet h)) rfl))

/-! ### Machine/Writes.lean -/

theorem dispatch_cacheAll_quiet {gs : List Nat} (h : Quiet s₀ s) : Quiet s₀ (dispatch.cacheAll gs s) :=
  .ite (.foldl (fun _ _ ht => .ite (.frame ht rfl) ht) h) h

theorem dispatch_quiet {eid op : Nat} {f : Entry → State → State} (hf : ∀ {y1 u}, Quiet s₀ u → Quiet s₀ (f y1 u))
    (h : Quiet s₀ s) : Quiet s₀ (dispatch eid op s f) := by
  unfold dispatch
  split
  · exact .ite (hf (dispatch_cacheAll_quiet h)) h
  · exact h

theorem fetchCw_quiet {e : Entry} {set m c : Nat} (h : Quiet s₀ s) : Quiet s₀ (fetchCw e set m c s) :=
  .foldl (fun _ _ ht => .frame ht rfl) h

theorem programEntryMember_quiet {e : Entry} {m handle : Nat} (h : Quiet s₀ s) : Quiet s₀ (programEntryMember e m handle s) :=
  programMember_quiet h

theorem dispatchPrograms_quiet {e : Entry} {ms : List Nat} (h : Quiet s₀ s) : Quiet s₀ (dispatchPrograms e ms s) :=
  .frame (.foldl (fun _ _ ht => programEntryMember_quiet ht) (.frame h rfl)) rfl

theorem takeStages_quiet {e : Entry} (h : Quiet s₀ s) : Quiet s₀ (takeStages s e) :=
  .ite (.foldl (fun _ _ ht => .foldl (fun _ _ ht₁ => fetchCw_quiet ht₁) ht) (.frame h rfl)) h

theorem pumpStages_quiet (h : Quiet s₀ s) : Quiet s₀ (pumpStages s) := by
  unfold pumpStages
  split
  · exact takeStages_quiet h
  · exact h

theorem pumpAllStages_quiet {n : Nat} (h : Quiet s₀ s) : Quiet s₀ (pumpAllStages n s) := by
  induction n generalizing s with
  | zero => exact h
  | succ n ih => exact ih (pumpStages_quiet h)

theorem acceptMembers_quiet {e : Entry} {ms : List Nat} (h : Quiet s₀ s) : Quiet s₀ (acceptMembers e ms s) :=
  .ite (.ite (closeGroup_quiet (.frame (writeDir_quiet h) rfl)) (.frame (writeDir_quiet h) rfl)) (writeDir_quiet h)

theorem acceptWrite_quiet {e : Entry} (h : Quiet s₀ s) : Quiet s₀ (acceptWrite e s) := by
  refine pumpAllStages_quiet ?_
  refine dispatchPrograms_quiet ?_
  refine acceptMembers_quiet ?_
  refine .foldl (fun _ _ ht => .frame ht rfl) ?_
  refine .frame ?_ rfl
  split
  · exact .frame (assignSlot_quiet h) rfl
  · exact .frame h rfl

theorem tryWrite_quiet {e : Entry} (h : Quiet s₀ s) : Quiet s₀ (tryWrite e s) := by
  unfold tryWrite
  split
  · exact .frame h rfl
  · exact .ite (.ite h (.frame (.frame h rfl) rfl)) (acceptWrite_quiet h)

theorem memberNotProgrammed_quiet {e : Entry} {m : Nat} (h : Quiet s₀ s) : Quiet s₀ (memberNotProgrammed e m s) := by
  unfold memberNotProgrammed
  dsimp only
  split
  · exact .frame (.frame (.frame (withdraw_quiet h) rfl) rfl) rfl
  · exact .frame (.frame (withdraw_quiet h) rfl) rfl

theorem startAway_quiet {e : Entry} {m : Nat} {j : Job} (h : Quiet s₀ s) : Quiet s₀ (startAway e m j s) := by
  unfold startAway
  extract_lets +onlyGivenNames _ _ s₁
  have hs₁ : Quiet s₀ s₁ := by
    unfold s₁
    split
    · exact foldsAway_quiet h
    · exact h
  refine .ite (sendGo_quiet hs₁) ?_
  extract_lets +onlyGivenNames s₂
  have hs₂ : Quiet s₀ s₂ := .frame (sendGo_quiet hs₁) rfl
  exact .frame (memberNotProgrammed_quiet hs₂) rfl

theorem startPrograms_quiet {eid : Nat} (h : Quiet s₀ s) : Quiet s₀ (startPrograms eid s) := by
  unfold startPrograms
  dsimp only
  split
  · refine .foldl (fun _ _ ht => ?_) h
    split
    · exact .ite (startAway_quiet ht) (.ite (.frame ht rfl) (memberNotProgrammed_quiet ht))
    · exact memberNotProgrammed_quiet ht
  · exact h

theorem awayFetched_quiet {eid m : Nat} (h : Quiet s₀ s) : Quiet s₀ (awayFetched eid m s) := by
  unfold awayFetched
  dsimp only
  split
  · split
    · exact sealSlot_quiet (startPrograms_quiet (.frame h rfl))
    · exact .frame h rfl
  · exact .frame h rfl

theorem foldOnce_quiet {i m c : Nat} {data : List Byte} (h : Quiet s₀ s) : Quiet s₀ (foldOnce i m c data s) :=
  .ite h (foldCw_quiet (.frame h rfl))

theorem dataArrives_quiet {e : Entry} {set m c : Nat} {data : List Byte} (h : Quiet s₀ s) :
    Quiet s₀ (dataArrives e set m c data s) := by
  unfold dataArrives
  extract_lets s₁ slot s₂ s₃
  clear_value slot
  have hs₂ : Quiet s₀ s₂ := by
    unfold s₂
    split
    · exact foldOnce_quiet (sramWrite_quiet h)
    · exact sramWrite_quiet h
  have hs₃ : Quiet s₀ s₃ := .frame hs₂ rfl
  split
  · refine .ite ?_ hs₃
    split
    · extract_lets again s₄
      have hs₄ : Quiet s₀ s₄ := .ite hs₃ (.frame hs₃ rfl)
      exact .ite hs₄ (sealSlot_quiet (startPrograms_quiet hs₄))
    · exact hs₃
  · exact hs₃

theorem foldOut_quiet {i : Nat} {e : Entry} {ms : List Nat} (h : Quiet s₀ s) : Quiet s₀ (foldOut i e ms s) := by
  refine .foldl (fun _ _ ht => ?_) h
  split
  · exact foldCw_quiet (sramRead_quiet ht)
  · exact .frame ht rfl

theorem padInstead_quiet {e : Entry} {i m : Nat} (h : Quiet s₀ s) : Quiet s₀ (padInstead e i s m) := by
  unfold padInstead
  dsimp only
  split
  · exact .frame (foldsAway_quiet (sendGo_quiet h)) rfl
  · exact padMember_quiet h

theorem writeFetchFailed_abortPrograms_quiet {e : Entry} (h : Quiet s₀ s) : Quiet s₀ (writeFetchFailed.abortPrograms e s) :=
  .frame (withdraw_quiet (.frame h rfl)) rfl

theorem writeFetchFailed_quiet {e : Entry} (h : Quiet s₀ s) : Quiet s₀ (writeFetchFailed e s) := by
  unfold writeFetchFailed
  extract_lets +onlyGivenNames _ _ s₁
  have hs₁ : Quiet s₀ s₁ := .frame (.frame h rfl) rfl
  extract_lets +onlyGivenNames _ s₂
  have hs₂ : Quiet s₀ s₂ := .frame hs₁ rfl
  extract_lets +onlyGivenNames _
  split
  · refine .ite ?_ (writeFetchFailed_abortPrograms_quiet hs₂)
    extract_lets +onlyGivenNames s₃
    have hs₃ : Quiet s₀ s₃ := foldOut_quiet hs₂
    extract_lets +onlyGivenNames s₄
    have hs₄ : Quiet s₀ s₄ := .frame hs₃ rfl
    extract_lets +onlyGivenNames s₅
    have hs₅ : Quiet s₀ s₅ := withdraw_quiet hs₄
    extract_lets +onlyGivenNames s₆
    have hs₆ : Quiet s₀ s₆ := .foldl (fun _ _ ht₅ => padInstead_quiet ht₅) hs₅
    extract_lets +onlyGivenNames s₇
    have hs₇ : Quiet s₀ s₇ := .frame hs₆ rfl
    exact sealSlot_quiet (.frame hs₇ rfl)
  · exact writeFetchFailed_abortPrograms_quiet hs₂

theorem notePassed_quiet {g r m : Nat} (h : Quiet s₀ s) : Quiet s₀ (notePassed g r m s).2 := by
  unfold notePassed
  split <;> exact .frame h rfl

theorem programPassed_quiet {e : Entry} {m : Nat} (h : Quiet s₀ s) : Quiet s₀ (programPassed e m s) :=
  .frame (rowMembersRec_quiet (notePassed_quiet h)) rfl

theorem programFailed_quiet {e : Entry} {m outcome : Nat} (h : Quiet s₀ s) : Quiet s₀ (programFailed e m outcome s) := by
  unfold programFailed
  extract_lets +onlyGivenNames _ s₁
  have hs₁ : Quiet s₀ s₁ := .frame h rfl
  extract_lets +onlyGivenNames s₂
  have hs₂ : Quiet s₀ s₂ := by
    unfold s₂
    split
    · exact .frame hs₁ rfl
    · exact hs₁
  extract_lets +onlyGivenNames s₃
  have hs₃ : Quiet s₀ s₃ := programDown_quiet hs₂
  extract_lets +onlyGivenNames s₄
  have hs₄ : Quiet s₀ s₄ := .frame hs₃ rfl
  exact .ite (.frame (closeGroup_quiet hs₄) rfl) (.frame hs₄ rfl)

theorem settleWrite_quiet {e : Entry} (h : Quiet s₀ s) : Quiet s₀ (settleWrite s e) :=
  .ite (.ite (.frame (.frame h rfl) rfl) (.frame h rfl)) h

/-! ### Machine/Groups.lean -/

theorem releaseNow_quiet {e : Entry} (h : Quiet s₀ s) : Quiet s₀ (releaseNow e s) :=
  setDegraded_quiet (.foldl (fun _ _ ht => addErase_quiet ht) (.frame (.frame (freeDir_quiet (clearLedgerGroup_quiet h)) rfl) rfl))

theorem releaseErased_quiet {eid m outcome : Nat} (h : Quiet s₀ s) : Quiet s₀ (releaseErased eid m outcome s) :=
  .ite (.frame h rfl) (.frame (.frame h rfl) rfl)

theorem settleRelease_quiet {e : Entry} (h : Quiet s₀ s) : Quiet s₀ (settleRelease s e) := by
  refine .ite ?_ h
  split
  · exact .ite (releaseNow_quiet h) h
  · exact .ite (.frame h rfl) h

theorem settleFlush_quiet {e : Entry} (h : Quiet s₀ s) : Quiet s₀ (settleFlush s e) := by
  refine .ite ?_ h
  refine .ite h ?_
  split
  · exact .ite (.frame h rfl) h
  · exact .frame h rfl
  · exact .frame h rfl

theorem openErased_quiet {eid m outcome : Nat} (h : Quiet s₀ s) : Quiet s₀ (openErased eid m outcome s) := by
  refine .ite (.frame h rfl) ?_
  split
  · exact .frame (.ite (.frame h rfl) (.frame (.frame h rfl) rfl)) rfl
  · exact .frame h rfl

theorem settleOpen_quiet {e : Entry} (h : Quiet s₀ s) : Quiet s₀ (settleOpen s e) :=
  .ite (.ite (.frame (openGroup_quiet h) rfl) (.frame (undoOpen_quiet h) rfl)) h

theorem settleClose_quiet {e : Entry} (h : Quiet s₀ s) : Quiet s₀ (settleClose s e) := .ite (.frame h rfl) h

theorem beginRefit_quiet {p : Plan} (h : Quiet s₀ s) : Quiet s₀ (beginRefit p s) :=
  patrolUpdate_quiet (setConds_quiet (fun _ => rfl) (.foldl (fun _ _ ht => addErase_quiet ht)
    (.frame (.foldl (fun _ _ ht => .frame ht rfl) (.foldl (fun _ _ ht => writeDir_quiet ht)
    (addRec_quiet (.foldl (fun _ _ ht => closeGroup_quiet ht) h)))) rfl)))

theorem patrolCtl_quiet {eid action : Nat} {f : Entry → State → State} (hf : ∀ {y1 u}, Quiet s₀ u → Quiet s₀ (f y1 u))
    (h : Quiet s₀ s) : Quiet s₀ (patrolCtl eid action f s) :=
  dispatch_quiet (fun hu => .ite (.frame (patrolUpdate_quiet (hf hu)) rfl) hu) h

/-! ### Machine/Services.lean -/

theorem useEntry_quiet {g : Nat} {w : HostRead} (h : Quiet s₀ s) : Quiet s₀ (useEntry g w s).2 := by
  unfold useEntry
  split
  · exact h
  · split
    · exact h
    · split
      · exact .frame h rfl
      · split <;> exact .frame (.frame h rfl) rfl

theorem readWant_quiet {id prio : Nat} {x : Want} (h : Quiet s₀ s) : QuietIf s₀ (readWant id prio x s) := by
  refine .ite (.some h) ?_
  split
  · exact .none
  · exact .ite (.some (.frame (.frame h rfl) rfl)) (.some (.frame (addRead_quiet h) rfl))

theorem readWants_quiet {id prio : Nat} {l : List Want} (h : Quiet s₀ s) : QuietIf s₀ (readWants id prio l s) := by
  have key (o : Option State) (ho : QuietIf s₀ o) :
      QuietIf s₀ (l.foldl (fun acc x => acc.bind (readWant id prio x)) o) := by
    induction l generalizing o with
    | nil => exact ho
    | cons x l ih =>
      rw [List.foldl_cons]
      refine ih _ ?_
      cases o with
      | none => exact .none
      | some t => 
        rw [Option.bind_some]
        exact readWant_quiet (ho t rfl)
  exact key _ (.some h)

theorem readLabelled_state (c : Cw) (user : List Byte) (ok fits : Bool) (l : List Byte × Bool × State) :
    (readLabelled c user ok fits l).2.2 = l.2.2 := rfl

theorem readBare_state (c : Cw) (d : List Byte × Bool × State) : (readBare c d).2.2 = d.2.2 := rfl

theorem readOf_quiet {c : Cw} (h : Quiet s₀ s) : Quiet s₀ (readOf c s).2.2 := by
  unfold readOf
  split
  · exact h
  · split
    · rw [readLabelled_state]
      exact sramRead_quiet (sramRead_quiet h)
    · rw [readBare_state]
      exact sramRead_quiet h

theorem gatherStep_quiet {acc : List MemberRead × Bool × State} {c : Cw} (h : Quiet s₀ acc.2.2) :
    Quiet s₀ (gatherStep acc c).2.2 :=
  readOf_quiet h

theorem gather_quiet {cs : List Cw} (h : Quiet s₀ s) : Quiet s₀ (gather cs s).2.2 :=
  .foldlThird (fun _ _ ht => gatherStep_quiet ht) h

theorem enterIndex_quiet {g r c mask cause : Nat} {reads : List MemberRead} (h : Quiet s₀ s) :
    Quiet s₀ (enterIndex g r c mask cause reads s) :=
  .foldl (fun _ _ ht => .ite ht (addLoss_quiet ht)) h

theorem rebuildCodeword_quiet {c : Cw} {got : List MemberRead} (h : Quiet s₀ s) : Quiet s₀ (rebuildCodeword c got s) := by
  refine .ite (landCw_quiet h) ?_
  split
  · refine landCw_quiet ?_
    refine countResolved_quiet ?_
    extract_lets
    split
    · exact .frame h rfl
    · exact h
  · extract_lets +onlyGivenNames _ _ _ _
    split
    · extract_lets +onlyGivenNames s₁
      have hs₁ : Quiet s₀ s₁ := .frame (loseCw_quiet (.frame (.frame (enterIndex_quiet h) rfl) rfl)) rfl
      exact .ite hs₁ (.frame hs₁ rfl)
    · exact .frame (.frame (enterIndex_quiet h) rfl) rfl

theorem beginStepSix_quiet {c : Cw} (h : Quiet s₀ s) : Quiet s₀ (beginStepSix c s) := by
  unfold beginStepSix
  extract_lets id others run
  have htake : Quiet s₀ (takeRow run s) := .frame h rfl
  split
  case h_1 t e => exact .frame (noteLadder_quiet (readWants_quiet htake t e)) rfl
  case h_2 => exact h

theorem endStepSix_quiet {run : RowRun} (h : Quiet s₀ s) : Quiet s₀ (endStepSix run s) := by
  unfold endStepSix
  dsimp only
  split
  · exact .ite (rebuildCodeword_quiet (endRow_quiet (gather_quiet h))) (gather_quiet h)
  · exact endRow_quiet h

theorem settleRuns_quiet (h : Quiet s₀ s) : Quiet s₀ (settleRuns s) := endRows_quiet h

theorem beginRebuildRow_quiet (h : Quiet s₀ s) : Quiet s₀ (beginRebuildRow s) := by
  unfold beginRebuildRow
  extract_lets g m r id
  split
  case h_1 t e => exact readWants_quiet (s := takeRow _ s) (.frame h rfl) t e
  case h_2 => exact h

theorem programSpare_quiet {run : RowRun} {page : List PageCw} {sealW : BitVec 96} (h : Quiet s₀ s) :
    Quiet s₀ (programSpare run page sealW s) :=
  programMember_quiet (.frame (.frame (dropReads_quiet h) rfl) rfl)

theorem endRebuildRow_quiet {run : RowRun} {all : List MemberRead} (h : Quiet s₀ s) : Quiet s₀ (endRebuildRow run all s) :=
  .ite (programSpare_quiet (enterLosses_quiet (rebuildSeal_quiet h)))
    (reachEnd_quiet (advance_quiet (endRow_quiet (.ite (enterLosses_quiet (rebuildSeal_quiet h))
    (bgEvent_quiet (by omega) (enterLosses_quiet (rebuildSeal_quiet h)))))))

theorem stepRebuild_quiet {run : RowRun} (h : Quiet s₀ s) : Quiet s₀ (stepRebuild run s) := by
  have hread : Quiet s₀ (gather (runCws run.id s) s).2.2 := gather_quiet h
  unfold stepRebuild
  generalize gather (runCws run.id s) s = d at hread
  obtain ⟨reads, ok, t⟩ := d
  refine .ite hread (.ite (endRebuildRow_quiet hread) ?_)
  split
  case h_1 u e => exact .frame (readWants_quiet (s := t) hread u e) rfl
  case h_2 => exact hread

theorem startMember_quiet {r : Rebuild} (h : Quiet s₀ s) : Quiet s₀ (startMember r s) := by
  unfold startMember
  dsimp only
  split
  · exact .ite (abandonMember_quiet (.frame h rfl)) (beginMember_quiet h)
  · exact popRebuild_quiet h

theorem nextGroup_quiet (h : Quiet s₀ s) : Quiet s₀ (nextGroup s) := .frame (leaveMember_quiet h) rfl

theorem spareEnd_quiet {id outcome : Nat} (h : Quiet s₀ s) : Quiet s₀ (spareEnd id outcome s) := by
  unfold spareEnd
  split
  · exact .ite (reachEnd_quiet (advance_quiet (endRow_quiet h))) (.ite (endRow_quiet h) (spareFailed_quiet h))
  · exact h

theorem repairEnd_quiet {id outcome : Nat} (h : Quiet s₀ s) : Quiet s₀ (repairEnd id outcome s) := by
  unfold repairEnd
  dsimp only
  split
  · exact .ite (programDown_quiet (endRow_quiet h)) (endRow_quiet h)
  · exact h

theorem spareErased_quiet {outcome : Nat} (h : Quiet s₀ s) : Quiet s₀ (spareErased outcome s) := by
  unfold spareErased
  split
  · exact .ite h (.ite (spareFailed_quiet (.frame h rfl)) (.ite (nextGroup_quiet h) (reachEnd_quiet (memberBegun_quiet h))))
  · exact h

theorem beginPatrolRow_quiet {g r : Nat} (h : Quiet s₀ s) : Quiet s₀ (beginPatrolRow g r s) := by
  unfold beginPatrolRow
  extract_lets id
  split
  case h_1 t e =>
    have ht : Quiet s₀ t := readWants_quiet (s := takeRow _ s) (.frame h rfl) t e
    exact .frame ht (by dsimp only [quietParts])
  case h_2 => exact h

theorem endPatrolRow_quiet {run : RowRun} (h : Quiet s₀ s) : Quiet s₀ (endPatrolRow run s) :=
  .ite (patrolOne_quiet (endRow_quiet (gather_quiet h))) (gather_quiet h)

theorem placeRefit_quiet {run : RowRun} (h : Quiet s₀ s) : Quiet s₀ (placeRefit run s) := by
  unfold placeRefit
  split
  case h_1 t e => exact .frame (readWants_quiet h t e) rfl
  case h_2 => exact h

theorem pageAdd_state (k : Nat) (acc : List PageCw × Bool × State) (d : List Byte × Bool × State) :
    (pageAdd k acc d).2.2 = d.2.2 := rfl

theorem pageStep_quiet {id k : Nat} {u : Option (Nat × Nat × Nat)} {acc : List PageCw × Bool × State} {c : Nat}
    (h : Quiet s₀ acc.2.2) : Quiet s₀ (pageStep id k u acc c).2.2 := by
  unfold pageStep
  split
  · exact h
  · split
    · rw [pageAdd_state]
      exact sramRead_quiet h
    · exact h

theorem targetPage_quiet {id k : Nat} {u : Option (Nat × Nat × Nat)} (h : Quiet s₀ s) : Quiet s₀ (targetPage id k u s).2.2 :=
  .foldlThird (fun _ _ ht => pageStep_quiet ht) h

theorem sealTarget_quiet {run : RowRun} (h : Quiet s₀ s) : Quiet s₀ (sealTarget run s) := by
  unfold sealTarget
  dsimp only
  split
  · exact sealSlot_quiet (writeDir_quiet (.frame (dropReads_quiet h) rfl))
  · exact h

theorem programNext_quiet {id : Nat} (h : Quiet s₀ s) : Quiet s₀ (programNext id s) := by
  unfold programNext
  dsimp only
  split
  · split
    · exact .ite (programMember_quiet (.frame (targetPage_quiet h) rfl)) (targetPage_quiet h)
    · exact sealTarget_quiet h
  · exact h

theorem foldUnit_quiet {id i k : Nat} {u : Nat × Nat × Nat} (h : Quiet s₀ s) : Quiet s₀ (foldUnit id i k u s) := by
  refine .foldl (fun _ _ ht => ?_) h
  split
  · exact foldCw_quiet (sramRead_quiet ht)
  · exact ht

theorem refitLosses_quiet {id g row : Nat} {us : List (Nat × Nat × Nat)} (h : Quiet s₀ s) :
    Quiet s₀ (refitLosses id g row us s) :=
  .foldl (fun _ _ ht => .ite ht (addLoss_quiet ht)) h

theorem copyRow_quiet {run : RowRun} (h : Quiet s₀ s) : Quiet s₀ (copyRow run s) := by
  have hread : Quiet s₀ (gather (runCws run.id s) s).2.2 := gather_quiet h
  unfold copyRow
  generalize gather (runCws run.id s) s = d at hread
  obtain ⟨reads, ok, t⟩ := d
  dsimp -zeta only at hread ⊢
  split
  · extract_lets us ms bg s₁ s₂ s₃ s₄
    have hs₂ : Quiet s₀ s₂ := refitLosses_quiet (.frame hread rfl)
    have hs₃ : Quiet s₀ s₃ := .frame (assignSlot_quiet hs₂) rfl
    have hs₄ : Quiet s₀ s₄ := .foldl (fun _ _ ht => foldUnit_quiet ht) hs₃
    exact programNext_quiet (.frame hs₄ rfl)
  · exact hread

theorem endTargetRow_quiet {run : RowRun} (h : Quiet s₀ s) : Quiet s₀ (endTargetRow run s) :=
  afterTargetRow_quiet (endRow_quiet h)

theorem countCut_quiet {run : RowRun} {cut : List Nat} (h : Quiet s₀ s) : Quiet s₀ (countCut run cut s) :=
  .foldl (fun _ _ ht => bgEvent_quiet (by omega) (.frame ht rfl)) h

theorem judgeSeal_quiet {run : RowRun} {reads : List MemberRead} (h : Quiet s₀ s) : Quiet s₀ (judgeSeal run reads s) := by
  unfold judgeSeal
  dsimp only
  split
  · exact endTargetRow_quiet (adoptRow_quiet h)
  · exact .frame (dropReads_quiet (countCut_quiet h)) rfl

theorem judgeMembers_quiet {run : RowRun} {reads : List MemberRead} (h : Quiet s₀ s) : Quiet s₀ (judgeMembers run reads s) :=
  .frame (dropReads_quiet (countCut_quiet h)) rfl

theorem judgeRefit_quiet {run : RowRun} (h : Quiet s₀ s) : Quiet s₀ (judgeRefit run s) := by
  unfold judgeRefit
  split
  · exact .ite (gather_quiet h) (.ite (judgeSeal_quiet (gather_quiet h)) (judgeMembers_quiet (gather_quiet h)))
  · exact .ite (gather_quiet h) (.ite (judgeSeal_quiet (gather_quiet h)) (judgeMembers_quiet (gather_quiet h)))
  · exact copyRow_quiet h

theorem stepRefit_quiet {run : RowRun} (h : Quiet s₀ s) : Quiet s₀ (stepRefit run s) := by
  unfold stepRefit
  split
  · exact .ite (placeRefit_quiet h) (.ite (judgeRefit_quiet h) h)
  · exact .ite h (programNext_quiet h)
  · split
    · exact .ite (endTargetRow_quiet h) h
    · exact endTargetRow_quiet h

theorem beginRefitRow_quiet (h : Quiet s₀ s) : Quiet s₀ (beginRefitRow s) := by
  unfold beginRefitRow
  dsimp only
  split
  · exact placeRefit_quiet (.frame h rfl)
  · exact .frame h rfl

theorem targetEnd_quiet {id m outcome : Nat} (h : Quiet s₀ s) : Quiet s₀ (targetEnd id m outcome s) := by
  unfold targetEnd
  split
  · refine .ite h ?_
    refine .ite (abandonRefit_quiet h) ?_
    extract_lets +onlyGivenNames s₁
    have hs₁ : Quiet s₀ s₁ := by
      unfold s₁
      split
      · extract_lets +onlyGivenNames s₁
        have hs₁ : Quiet s₀ s₁ := .frame h rfl
        exact rowMembersRec_quiet hs₁
      · exact h
    extract_lets +onlyGivenNames s₂
    have hs₂ : Quiet s₀ s₂ := .frame hs₁ rfl
    exact .ite (programNext_quiet hs₂) hs₂
  · exact h

/-! ### Machine/JobEnd.lean -/

theorem arriveCw_quiet {j : Job} {kind sensing cw : Nat} {bs : List Byte} (h : Quiet s₀ s) :
    Quiet s₀ (arriveCw j kind sensing cw bs s) := by
  unfold arriveCw
  extract_lets +onlyGivenNames _
  split
  · refine .ite h ?_
    refine .ite (queueDecode_quiet (.frame h rfl)) ?_
    refine .ite h ?_
    extract_lets +onlyGivenNames _ s₁
    have hs₁ : Quiet s₀ s₁ := .frame h rfl
    extract_lets +onlyGivenNames s₂
    have hs₂ : Quiet s₀ s₂ := by
      unfold s₂
      split
      · exact writeArea_quiet hs₁
      · exact hs₁
    exact .ite (queueDecode_quiet hs₂) hs₂
  · exact h

theorem arriveTruing_quiet {id sensing : Nat} {bs : List Byte} (h : Quiet s₀ s) : Quiet s₀ (arriveTruing id sensing bs s) := by
  unfold arriveTruing
  dsimp only
  split
  · refine .ite h ?_
    split
    · exact writeArea_quiet (.frame h rfl)
    · exact .frame h rfl
  · exact h

theorem cutBurst_quiet {j : Job} {kind sensing plane : Nat} {bs : List Byte} (h : Quiet s₀ s) :
    Quiet s₀ (cutBurst j kind sensing plane bs s) := by
  refine .foldl (fun _ _ ht => ?_) h
  refine .ite ht ?_
  split
  · exact arriveTruing_quiet ht
  · exact arriveCw_quiet ht

theorem takeBurst_quiet {kind handle sensing job : Nat} {bs : List Byte} (h : Quiet s₀ s) :
    Quiet s₀ (takeBurst kind handle sensing job bs s) := by
  unfold takeBurst
  split
  · refine .ite h ?_
    split
    · exact cutBurst_quiet (.frame h rfl)
    · exact h
  · exact h

theorem noteSensing_quiet {j : Job} (h : Quiet s₀ s) : Quiet s₀ (noteSensing j s) := by
  unfold noteSensing
  split
  · exact noteRecord_quiet h
  · exact h

theorem missingTruing_quiet {j : Job} {id : Nat} (h : Quiet s₀ s) : Quiet s₀ (missingTruing j id s) := by
  unfold missingTruing
  dsimp only
  split
  · exact .ite (abandonSearch_quiet (noteSensing_quiet h)) (addSense_quiet (.frame (noteSensing_quiet h) rfl))
  · exact h

theorem closeSet_quiet {x1 : Nat} (h : Quiet s₀ s) : Quiet s₀ (closeSet x1 s) := by
  unfold closeSet
  dsimp only
  split
  · refine .ite h ?_
    split
    · exact missingTruing_quiet (.frame h rfl)
    · exact incompleteCws_quiet (.frame h rfl)
  · exact h

theorem startEncoding_quiet {x1 handle : Nat} (h : Quiet s₀ s) : Quiet s₀ (startEncoding x1 handle s) := by
  unfold startEncoding
  split
  · exact .ite (.ite (assignEncoders_quiet (.frame h rfl)) (noEncoder_quiet h)) h
  · exact h

theorem drawQueue_quiet {ch x2 n : Nat} (h : Quiet s₀ s) : Quiet s₀ (drawQueue ch x2 n s) := .frame (.frame h rfl) rfl

theorem discardSet_quiet {j : Job} (h : Quiet s₀ s) : Quiet s₀ (discardSet j s) :=
  assignEncoders_quiet (.frame (.frame (.frame h rfl) rfl) rfl)

theorem countFail_quiet {u outcome : Nat} (h : Quiet s₀ s) : Quiet s₀ (countFail u outcome s) := by
  unfold countFail
  split
  · exact .frame h rfl
  · exact .frame h rfl
  · exact .frame h rfl
  · exact h

theorem lunOutcome_quiet {u outcome : Nat} (h : Quiet s₀ s) : Quiet s₀ (lunOutcome u outcome s) :=
  .ite (lunDown_quiet h) (.ite (lunDown_quiet h) h)

theorem toStepSix_quiet {cs : List Cw} (h : Quiet s₀ s) : Quiet s₀ (toStepSix cs s) :=
  .foldl (fun _ _ ht => failCw_quiet (leaveZero_quiet ht)) h

theorem loseCws_quiet {cs : List Cw} (h : Quiet s₀ s) : Quiet s₀ (loseCws cs s) :=
  .foldl (fun _ _ ht => .frame ht rfl) (.frame h rfl)

theorem noteUnread_quiet {j : Job} (h : Quiet s₀ s) : Quiet s₀ (noteUnread j s) :=
  .ite h (.foldl (fun _ _ ht => noteRecord_quiet ht) h)

theorem readEnd_quiet {j : Job} {outcome : Nat} {mc : Bool} (h : Quiet s₀ s) : Quiet s₀ (readEnd j outcome mc s) := by
  unfold readEnd
  extract_lets +onlyGivenNames _ s₁
  have hs₁ : Quiet s₀ s₁ := .ite h (noteUnread_quiet h)
  split
  · exact closeSet_quiet hs₁
  · exact toStepSix_quiet hs₁
  · exact toStepSix_quiet hs₁
  · split
    · exact failRead_quiet hs₁
    · exact loseCws_quiet hs₁
  · split
    · exact failRead_quiet hs₁
    · exact loseCws_quiet hs₁
  · split
    · exact failRead_quiet hs₁
    · exact loseCws_quiet hs₁
  · refine .ite (.foldl (fun _ _ ht₁ => failCw_quiet ht₁) hs₁) ?_
    split
    · exact failRead_quiet hs₁
    · exact loseCws_quiet hs₁

theorem noteUnprogrammed_quiet {g r m : Nat} (h : Quiet s₀ s) : Quiet s₀ (noteUnprogrammed g r m s) := by
  unfold noteUnprogrammed
  split
  · exact .frame h rfl
  · exact h

theorem writeEnd_quiet {eid m outcome : Nat} (h : Quiet s₀ s) : Quiet s₀ (writeEnd eid m outcome s) := by
  unfold writeEnd
  split
  · split
    · exact programPassed_quiet h
    · exact .frame (.frame h rfl) rfl
    · exact programFailed_quiet h
    · exact programFailed_quiet h
    · exact programFailed_quiet h
    · exact programFailed_quiet h
    · exact .frame (.frame (noteUnprogrammed_quiet h) rfl) rfl
  · exact h

theorem padEnd_quiet {j : Job} {m outcome : Nat} (h : Quiet s₀ s) : Quiet s₀ (padEnd j m outcome s) :=
  .ite h (.ite (programDown_quiet (noteUnprogrammed_quiet h)) (noteUnprogrammed_quiet h))

theorem parityEnd_quiet {j : Job} {i m outcome : Nat} (h : Quiet s₀ s) : Quiet s₀ (parityEnd j i m outcome s) := by
  refine .ite h ?_
  refine .ite ?_ ?_
  · extract_lets
    split
    · exact .frame h rfl
    · exact h
  · refine .ite (abandonRefit_quiet h) ?_
    refine rowSealed_quiet ?_
    refine .ite (.frame h rfl) ?_
    extract_lets +onlyGivenNames _ s₁
    have hs₁ : Quiet s₀ s₁ := .ite (programDown_quiet (noteUnprogrammed_quiet (.frame h rfl))) (noteUnprogrammed_quiet (.frame h rfl))
    split
    · exact .ite (.frame hs₁ rfl) (.ite (.frame (closeGroup_quiet hs₁) rfl) (.frame hs₁ rfl))
    · exact hs₁

theorem eraseCut_quiet {eid m : Nat} (h : Quiet s₀ s) : Quiet s₀ (eraseCut eid m s) :=
  .ite (.frame h rfl) (.frame (.frame h rfl) rfl)

theorem rawEnd_quiet {j : Job} {eid outcome result : Nat} (h : Quiet s₀ s) : Quiet s₀ (rawEnd j eid outcome result s) := by
  unfold rawEnd
  split
  · extract_lets +onlyGivenNames s₁
    have hs₁ : Quiet s₀ s₁ := .ite (hostWriteData_quiet h) h
    extract_lets +onlyGivenNames s₂
    have hs₂ : Quiet s₀ s₂ := .frame hs₁ rfl
    split
    · exact hs₂
    · exact .frame hs₂ rfl
    · exact .frame hs₂ rfl
    · exact .frame hs₂ rfl
    · exact .frame hs₂ rfl
    · exact .frame hs₂ rfl
    · exact .frame hs₂ rfl
  · exact h

theorem applySets_quiet {ch : Nat} (h : Quiet s₀ s) : Quiet s₀ (applySets ch s) := .frame (.frame h rfl) rfl

theorem trainEnd_quiet {ch outcome : Nat} (h : Quiet s₀ s) : Quiet s₀ (trainEnd ch outcome s) :=
  .ite (.frame h rfl) (.frame (.frame (.ite h (applySets_quiet h)) rfl) rfl)

theorem ownerEnd_quiet {j : Job} {u outcome result : Nat} {mc : Bool} (h : Quiet s₀ s) :
    Quiet s₀ (ownerEnd j u outcome result mc s) := by
  unfold ownerEnd
  split
  · exact readEnd_quiet h
  · exact readEnd_quiet h
  · exact readEnd_quiet h
  · exact readEnd_quiet h
  · exact closeSet_quiet h
  · exact writeEnd_quiet h
  · exact padEnd_quiet h
  · exact parityEnd_quiet h
  · exact .ite (journalProgramEnd_quiet h) (.ite h (journalProgramEnd_quiet h))
  · exact .ite h (journalEraseEnd_quiet h)
  · split
    · exact openErased_quiet h
    · exact openErased_quiet h
    · exact openErased_quiet h
    · exact openErased_quiet h
    · exact openErased_quiet h
    · exact eraseCut_quiet h
    · exact .frame (.frame h rfl) rfl
  · split
    · exact releaseErased_quiet h
    · exact releaseErased_quiet h
    · exact releaseErased_quiet h
    · exact releaseErased_quiet h
    · exact releaseErased_quiet h
    · exact eraseCut_quiet h
    · exact .frame (.frame h rfl) rfl
  · exact rawEnd_quiet h
  · exact trainEnd_quiet h
  · exact .ite h (refitEraseEnd_quiet h)
  · exact spareEnd_quiet h
  · exact spareErased_quiet h
  · exact targetEnd_quiet h
  · exact repairEnd_quiet h
  · exact .ite (readEnd_quiet (.frame h rfl)) (.frame h rfl)
  · exact h
  · exact h
  · exact h
  · exact h

theorem endJobWith_quiet {x1 u outcome result : Nat} {mc : Bool} (h : Quiet s₀ s) :
    Quiet s₀ (endJobWith x1 u outcome result mc s) := by
  unfold endJobWith
  dsimp only
  split
  · exact .ite h (.frame (ownerEnd_quiet (discardSet_quiet (.ite (.frame h rfl)
      (lunOutcome_quiet (countFail_quiet (.frame h rfl)))))) rfl)
  · exact h

theorem endJob_quiet {x1 sel outcome result : Nat} (h : Quiet s₀ s) : Quiet s₀ (endJob x1 sel outcome result s) :=
  endJobWith_quiet h

theorem failHeld_quiet {x1 : Nat} (h : Quiet s₀ s) : Quiet s₀ (failHeld x1 s) := by
  unfold failHeld
  dsimp only
  split
  · exact .frame (ownerEnd_quiet (.frame h rfl)) rfl
  · exact h

/-! ### Machine/Jigs.lean -/

theorem trainItem_quiet {owner : Owner} {prio ch : Nat} (h : Quiet s₀ s) : Quiet s₀ (trainItem owner prio ch s) := addJob_quiet h

theorem startRetrain_quiet {ch : Nat} (h : Quiet s₀ s) : Quiet s₀ (startRetrain ch s) :=
  .ite h (.ite (trainItem_quiet (.frame h rfl)) (.frame h rfl))

theorem driftMeasure_quiet {ch : Nat} {measure : Byte} (h : Quiet s₀ s) : Quiet s₀ (driftMeasure ch measure s) :=
  .ite (startRetrain_quiet (.frame (.frame h rfl) rfl)) (.frame h rfl)

theorem putSample_quiet {ch w : Nat} {g : Jig} {p : JigIn} (h : Quiet s₀ s) : Quiet s₀ (putSample ch w g p s) :=
  .ite (driftMeasure_quiet h) h

/-! ### Machine/Media.lean -/

theorem setBind_quiet {i : Nat} {b : BindEntry} (h : Quiet s₀ s) : Quiet s₀ (setBind i b s) :=
  addRec_quiet (winWrite_quiet (.frame (.frame h rfl) rfl))

theorem clearBind_quiet {i : Nat} (h : Quiet s₀ s) : Quiet s₀ (clearBind i s) := addRec_quiet (winWrite_quiet (.frame h rfl))

theorem bindRange_quiet {g first n : Nat} {job : Word} (h : Quiet s₀ s) : Quiet s₀ (bindRange g first n job s).2 := by
  unfold bindRange
  extract_lets +onlyGivenNames _ _
  split
  · exact h
  · split
    · exact .ite (.foldl (fun _ _ ht => clearBind_quiet ht) (setBind_quiet h))
        (writeDir_quiet (.foldl (fun _ _ ht => clearBind_quiet ht) (setBind_quiet h)))
    · exact h

theorem trimBind_quiet {first n : Nat} {p : Nat × BindEntry} (h : Quiet s₀ s) : Quiet s₀ (trimBind first n s p) := by
  refine .ite (clearBind_quiet h) ?_
  refine .ite (setBind_quiet h) ?_
  refine .ite (setBind_quiet h) ?_
  split
  · exact setBind_quiet (setBind_quiet h)
  · exact h

theorem unbindRange_quiet {g first n : Nat} {job : Word} (h : Quiet s₀ s) : Quiet s₀ (unbindRange g first n job s).2 :=
  .ite (writeDir_quiet (.foldl (fun _ _ ht => trimBind_quiet ht) h)) (.foldl (fun _ _ ht => trimBind_quiet ht) h)

theorem applyBind_quiet {e : Entry} (h : Quiet s₀ s) : Quiet s₀ (applyBind e s).2 :=
  .foldlSnd (fun _ _ ht => bindRange_quiet ht) h

theorem forceRange_quiet {e : Entry} {acc : Nat × State} {r : Nat × Nat × Nat} (h : Quiet s₀ acc.2) :
    Quiet s₀ (forceRange e acc r).2 := by
  unfold forceRange
  dsimp only
  split
  · exact unbindRange_quiet h
  · exact .frame (.frame (raisePriv_quiet (by omega) (addRec_quiet (unbindRange_quiet h))) rfl) rfl

theorem applyUnbind_quiet {e : Entry} (h : Quiet s₀ s) : Quiet s₀ (applyUnbind e s).2 :=
  .foldlSnd (fun _ _ ht => forceRange_quiet ht) h

theorem serveBind_quiet {e : Entry} (h : Quiet s₀ s) : Quiet s₀ (serveBind e s) := by
  unfold serveBind
  dsimp only
  split
  · exact .frame (applyBind_quiet h) rfl
  · exact .frame (applyUnbind_quiet h) rfl

theorem reserveBind_quiet {e : Entry} (h : Quiet s₀ s) : Quiet s₀ (reserveBind e s) :=
  .ite (serveBind_quiet h) (.frame (.frame h rfl) rfl)

theorem settleBind_quiet {e : Entry} (h : Quiet s₀ s) : Quiet s₀ (settleBind s e) := .ite (.frame h rfl) h

theorem mediaSend_quiet {x1 : Nat} {m : BitVec 64} (h : Quiet s₀ s) : Quiet s₀ (mediaSend x1 m s) := by
  unfold mediaSend
  dsimp only
  split
  · exact .frame h rfl
  · exact dvSend_quiet h

theorem mediaBeats_quiet {x1 : Nat} {l : List (List Byte)} (h : Quiet s₀ s) : Quiet s₀ (mediaBeats x1 l s) := by
  unfold mediaBeats
  dsimp only
  split
  · exact .frame h rfl
  · exact .ite h (dvSend_quiet h)

theorem flushHead_quiet {n hd : Nat} (h : Quiet s₀ s) : Quiet s₀ (flushHead n hd s) := by
  induction n generalizing s with
  | zero => exact h
  | succ n ih =>
    unfold flushHead
    split
    case h_1 =>
      refine .ite (ih (.foldl (fun _ _ ht => mediaSend_quiet ht) (mediaBeats_quiet ?_))) h
      exact .foldl (fun _ _ ht => mediaSend_quiet ht) (.frame h rfl)
    case h_2 => exact h

theorem flushAnswers_quiet (h : Quiet s₀ s) : Quiet s₀ (flushAnswers s) := .foldl (fun _ _ ht => flushHead_quiet ht) h

theorem answer_quiet {x1 : Nat} {x2 : Ans} (h : Quiet s₀ s) : Quiet s₀ (answer x1 x2 s) := flushAnswers_quiet (.frame h rfl)

theorem ack_quiet {m : BitVec 64} (h : Quiet s₀ s) : Quiet s₀ (ack m s) := answer_quiet h

theorem nak_quiet {m : BitVec 64} {reason : Nat} (h : Quiet s₀ s) : Quiet s₀ (nak m reason s) := answer_quiet h

theorem startUnit_quiet {x1 g : Nat} {u : Nat × Nat} (h : Quiet s₀ s) : QuietIf s₀ (startUnit x1 g u s) := by
  unfold startUnit
  dsimp only
  split
  · exact .none
  · exact .ite (.some (.frame h rfl)) (.some (.frame (addRead_quiet h) rfl))

theorem nextUnit_quiet {x1 : Nat} (h : Quiet s₀ s) : QuietIf s₀ (nextUnit x1 s) := by
  unfold nextUnit
  split
  · split
    · refine .ite .none ?_
      split
      case h_1 t e => exact .some (.frame (startUnit_quiet h t e) rfl)
      case h_2 => exact .none
    · exact .none
  · exact .none

theorem pumpFeed_quiet {n hd : Nat} (h : Quiet s₀ s) : Quiet s₀ (pumpFeed n hd s) := by
  induction n generalizing s with
  | zero => exact h
  | succ n ih =>
    unfold pumpFeed
    split
    case h_1 t e => exact ih (nextUnit_quiet h t e)
    case h_2 => exact h

theorem pumpFeeds_quiet (h : Quiet s₀ s) : Quiet s₀ (pumpFeeds s) := .foldl (fun _ _ ht => pumpFeed_quiet ht) h

theorem feedDone_quiet {x1 : Nat} {f : Feed} (h : Quiet s₀ s) : Quiet s₀ (feedDone x1 f s) := flushAnswers_quiet (.frame h rfl)

theorem cutFeed_quiet {x1 : Nat} (h : Quiet s₀ s) : Quiet s₀ (cutFeed x1 s) := by
  unfold cutFeed
  dsimp only
  split
  · exact h
  · refine feedDone_quiet ?_
    refine .frame ?_ rfl
    refine withdraw_quiet ?_
    split
    · exact .frame (mediaSend_quiet h) rfl
    · exact h

theorem unitGot_state (acc : List Byte × Bool × State) (bs : List Byte) (ok : Bool) (s : State) :
    (unitGot acc bs ok s).2.2 = s := rfl

theorem unitData_quiet {cs : List Cw} (h : Quiet s₀ s) : Quiet s₀ (unitData cs s).2.2 := by
  refine .foldlThird (fun acc k ht => ?_) h
  split
  · rw [unitGot_state]
    exact sramRead_quiet ht
  · exact ht

theorem endRun_quiet {x1 : Nat} {f : Feed} {u : Nat × Nat} {rest : List (Nat × Nat)} {lost : Nat} (h : Quiet s₀ s) :
    Quiet s₀ (endRun x1 f u rest lost s) := by
  unfold endRun
  extract_lets +onlyGivenNames _ _ _ s₁
  have hs₁ : Quiet s₀ s₁ := .frame (.frame (mediaSend_quiet h) rfl) rfl
  exact .ite (feedDone_quiet (.frame (.frame hs₁ rfl) rfl)) (pumpFeeds_quiet (flushAnswers_quiet (.frame (.frame hs₁ rfl) rfl)))

theorem serveAttach_quiet {m : BitVec 64} (h : Quiet s₀ s) : Quiet s₀ (serveAttach m s) :=
  .ite (nak_quiet h) (.ite (nak_quiet h) (ack_quiet (.frame h rfl)))

theorem serveDetach_quiet {m : BitVec 64} (h : Quiet s₀ s) : Quiet s₀ (serveDetach m s) :=
  ack_quiet (.frame (cutFeed_quiet h) rfl)

theorem serveFeed_quiet {m : BitVec 64} (h : Quiet s₀ s) : Quiet s₀ (serveFeed m s) := by
  unfold serveFeed
  extract_lets +onlyGivenNames _
  split
  · exact mediaSend_quiet h
  · exact nak_quiet h
  · exact .ite (feedDone_quiet (answer_quiet (.frame h rfl))) (pumpFeeds_quiet (answer_quiet (.frame h rfl)))

theorem serveVerifyGood_quiet {m : BitVec 64} (h : Quiet s₀ s) : Quiet s₀ (serveVerifyGood m s) := by
  unfold serveVerifyGood
  dsimp only
  split
  · exact nak_quiet h
  · exact .ite (nak_quiet h) (.ite (nak_quiet h) (answer_quiet (.frame (.frame (addRec_quiet (unbindRange_quiet h)) rfl) rfl)))

theorem serveVerifyBad_quiet {m : BitVec 64} (h : Quiet s₀ s) : Quiet s₀ (serveVerifyBad m s) := by
  unfold serveVerifyBad
  dsimp only
  split
  · exact nak_quiet h
  · exact ack_quiet (raise_quiet (by omega) (.frame (.frame h rfl) rfl))

theorem serveFragOpen_quiet {m : BitVec 64} (h : Quiet s₀ s) : Quiet s₀ (serveFragOpen m s) := by
  refine .ite (nak_quiet h) ?_
  refine .ite (nak_quiet h) ?_
  split
  · exact nak_quiet h
  · exact ack_quiet (.frame (.frame (.frame h rfl) rfl) rfl)

theorem servePass_quiet {m : BitVec 64} (h : Quiet s₀ s) : Quiet s₀ (servePass m s) := by
  refine .ite (nak_quiet h) ?_
  split
  · exact nak_quiet h
  · exact .ite (nak_quiet h) (answer_quiet (.frame h rfl))

theorem passResult_quiet {x1 frag result : Nat} {shift : ℤ} {score : Nat} (h : Quiet s₀ s) :
    Quiet s₀ (passResult x1 frag result shift score s) :=
  flushAnswers_quiet (.frame h rfl)

theorem cutPass_quiet {x1 : Nat} (h : Quiet s₀ s) : Quiet s₀ (cutPass x1 s) := by
  unfold cutPass
  split
  · exact passResult_quiet (.frame h rfl)
  · exact h

theorem sumPass_quiet {f : Frag} {x : List Byte} {sh : ℤ} (h : Quiet s₀ s) : Quiet s₀ (sumPass f x sh s) :=
  .frame (sramWrite_quiet (sramRead_quiet h)) rfl

theorem scoreField_quiet {score : Nat} (h : Quiet s₀ s) : Quiet s₀ (scoreField score s).2 := by
  unfold scoreField
  split
  · exact h
  · exact .frame h rfl

theorem judgePass_quiet {x1 : Nat} {f : Frag} {x : List Byte} (h : Quiet s₀ s) : Quiet s₀ (judgePass x1 f x s) :=
  .ite (passResult_quiet (.frame (.frame (scoreField_quiet h) rfl) rfl))
    (.ite (passResult_quiet (.frame (.frame (sumPass_quiet (scoreField_quiet h)) rfl) rfl))
    (passResult_quiet (.frame (.frame (sumPass_quiet (scoreField_quiet h)) rfl) rfl)))

theorem endPass_quiet {head fr : Nat} {sync : Bool} {samples : List Byte} (h : Quiet s₀ s) :
    Quiet s₀ (endPass head fr sync samples s) := by
  unfold endPass
  dsimp only
  split
  · exact cutPass_quiet h
  · exact .ite (passResult_quiet (.frame (.frame h rfl) rfl)) (.ite (passResult_quiet (.frame h rfl)) (judgePass_quiet h))

theorem serveFragRead_quiet {m : BitVec 64} (h : Quiet s₀ s) : Quiet s₀ (serveFragRead m s) := by
  refine .ite (nak_quiet h) ?_
  split
  · exact nak_quiet h
  · exact answer_quiet (sramRead_quiet h)

theorem serveFragClose_quiet {m : BitVec 64} (h : Quiet s₀ s) : Quiet s₀ (serveFragClose m s) := by
  refine .ite (nak_quiet h) ?_
  split
  · exact nak_quiet h
  · exact ack_quiet (.frame h rfl)

theorem serveMessage_quiet {m : BitVec 64} (h : Quiet s₀ s) : Quiet s₀ (serveMessage m s) := by
  refine .ite (nak_quiet h) ?_
  split
  · exact serveAttach_quiet h
  · exact serveDetach_quiet h
  · exact serveFeed_quiet h
  · exact serveVerifyGood_quiet h
  · exact serveVerifyBad_quiet h
  · exact serveFragOpen_quiet h
  · exact servePass_quiet h
  · exact serveFragRead_quiet h
  · exact serveFragClose_quiet h
  · exact nak_quiet h

theorem serveQueue_quiet {n : Nat} (h : Quiet s₀ s) : Quiet s₀ (serveQueue n s) := by
  induction n generalizing s with
  | zero => exact h
  | succ n ih =>
    unfold serveQueue
    split
    case h_1 => exact h
    case h_2 => exact .ite h (ih (serveMessage_quiet (.frame h rfl)))

theorem acceptMessage_quiet {m : BitVec 64} (h : Quiet s₀ s) : Quiet s₀ (acceptMessage m s) :=
  .ite (serveQueue_quiet (.frame (.ite (lookUpBinds_quiet h) h) rfl)) h

theorem forward_quiet {m : BitVec 64} (h : Quiet s₀ s) : Quiet s₀ (forward m s) := dvSend_quiet (.frame h rfl)

theorem takeMessage_quiet {m : BitVec 64} (h : Quiet s₀ s) : Quiet s₀ (takeMessage m s) :=
  .ite h (.ite (forward_quiet h) (acceptMessage_quiet h))

theorem answerBack_quiet {m : BitVec 64} (h : Quiet s₀ s) : Quiet s₀ (answerBack m s) :=
  .ite (.frame (.frame h rfl) rfl) (.ite (.frame (.frame h rfl) rfl) (.ite (.frame h rfl) (.frame h rfl)))

theorem ofKind_quiet {kind : Nat} {m : BitVec 64} (h : Quiet s₀ s) : Quiet s₀ (ofKind kind m s) := .ite (takeMessage_quiet h) h

theorem openedAll_quiet (h : Quiet s₀ s) : Quiet s₀ (openedAll s) := by
  unfold openedAll
  dsimp only
  split
  · exact .ite (.frame (.frame h rfl) rfl) h
  · exact h

theorem closeFrags_quiet (h : Quiet s₀ s) : Quiet s₀ (closeFrags s) := .frame (.foldl (fun _ _ ht => cutPass_quiet ht) h) rfl

theorem returnedAll_quiet (h : Quiet s₀ s) : Quiet s₀ (returnedAll s) := by
  unfold returnedAll
  split
  · exact .ite (.frame h rfl) h
  · exact h

theorem accumJob_quiet {x1 : AccumIn} (h : Quiet s₀ s) : Quiet s₀ (accumJob x1 s) := by
  unfold accumJob
  split
  · exact .frame h rfl
  · exact serveQueue_quiet (.frame (dvSend_quiet (closeFrags_quiet h)) rfl)

theorem accumAnswered_quiet {handle : Nat} {counts : List (Nat × Nat)} (h : Quiet s₀ s) :
    Quiet s₀ (accumAnswered handle counts s) :=
  .ite (openedAll_quiet (.frame h rfl)) (returnedAll_quiet (.frame (.frame h rfl) rfl))

theorem accumLeft_quiet (h : Quiet s₀ s) : Quiet s₀ (accumLeft s) :=
  .ite (returnedAll_quiet (openedAll_quiet (.frame h rfl))) (.frame h rfl)

theorem reportAcked_quiet {eid : Nat} {err : Bool} (h : Quiet s₀ s) : Quiet s₀ (reportAcked eid err s) :=
  .ite (.frame (.frame h rfl) rfl) (.frame (.frame h rfl) rfl)

theorem abortHead_quiet {x2 : Nat} (h : Quiet s₀ s) : Quiet s₀ (abortHead s x2) := .frame (cutPass_quiet (cutFeed_quiet h)) rfl

theorem cutLostFeeds_quiet (h : Quiet s₀ s) : Quiet s₀ (cutLostFeeds s) := by
  refine .foldl (fun _ _ ht => ?_) h
  split
  · exact .ite ht (cutFeed_quiet ht)
  · exact ht

/-! ### Machine/Channels.lean -/

theorem configEvent_quiet {cause what sub rate : Nat} (h : Quiet s₀ s) : Quiet s₀ (configEvent cause what sub rate s) :=
  raisePriv_quiet (by omega) h

theorem refuseTypes_quiet (h : Quiet s₀ s) : Quiet s₀ (refuseTypes s) := by
  unfold refuseTypes
  extract_lets chans
  refine .foldl (fun t n ht => ?_) h
  dsimp only
  split
  · exact configEvent_quiet ht
  · exact ht

theorem dropType_quiet {t' : Nat} {chans : List Nat} (h : Quiet s₀ s) : Quiet s₀ (dropType t' chans s) :=
  .foldl (fun _ _ ht => .frame ht rfl) h

theorem recheckTypes_quiet (h : Quiet s₀ s) : Quiet s₀ (recheckTypes s) := by
  refine .foldl (fun t n ht => ?_) h
  dsimp only
  split
  · exact dropType_quiet (configEvent_quiet ht)
  · exact ht

theorem dropMixed_quiet {ch : Nat} (h : Quiet s₀ s) : Quiet s₀ (dropMixed ch s) :=
  .foldl (fun _ _ ht => .ite (configEvent_quiet ht) ht) h

theorem checkTables_quiet (h : Quiet s₀ s) : Quiet s₀ (checkTables s) :=
  .foldl (fun _ _ ht => raise_quiet (by omega) ht) (.frame h rfl)

theorem trainTarget_quiet {ch ce : Nat} (h : Quiet s₀ s) : Quiet s₀ (trainTarget ch s ce) := by
  unfold trainTarget
  extract_lets +onlyGivenNames _ _ s₁
  have hs₁ : Quiet s₀ s₁ := .ite (.frame h rfl) h
  extract_lets +onlyGivenNames s₂
  have hs₂ : Quiet s₀ s₂ := .ite (.frame hs₁ rfl) (.frame hs₁ rfl)
  exact .ite (.frame (.frame hs₂ rfl) rfl) (.frame hs₂ rfl)

theorem setFeature_quiet {ch ce : Nat} {f : BitVec 40} (h : Quiet s₀ s) : Quiet s₀ (setFeature ch ce f s) :=
  .frame (.frame h rfl) rfl

theorem tryRate_quiet {ch : Nat} {ces : List Nat} {rate : Nat} (h : Quiet s₀ s) : Quiet s₀ (tryRate ch ces s rate) :=
  .foldl (fun _ _ ht => trainTarget_quiet ht) (.foldl (fun _ _ ht => .frame (setFeature_quiet (setFeature_quiet ht)) rfl) h)

theorem setTimings_quiet {ch : Nat} {ces : List Nat} (h : Quiet s₀ s) : Quiet s₀ (setTimings ch ces s) :=
  .frame (.frame h rfl) rfl

theorem trainJob_quiet {ch : Nat} (h : Quiet s₀ s) : Quiet s₀ (trainJob ch s) := trainItem_quiet h

theorem dropTargets_quiet {ch mask : Nat} (h : Quiet s₀ s) : Quiet s₀ (dropTargets ch mask s) :=
  .foldl (fun _ _ ht => .ite ht (lunDown_quiet ht)) (.frame h rfl)

theorem fallBack_quiet {ch : Nat} {targets : List TargetIn} (h : Quiet s₀ s) : Quiet s₀ (fallBack ch targets s) :=
  .ite (.frame h rfl) (configEvent_quiet (.frame (setTimings_quiet
    (dropTargets_quiet (.frame (.foldl (fun _ _ ht => tryRate_quiet ht) h) rfl))) rfl))

theorem settleFall_quiet {ch : Nat} (h : Quiet s₀ s) : Quiet s₀ (settleFall s ch) :=
  .ite (fallBack_quiet (.frame (modJig_quiet (fun _ => ⟨rfl, id⟩) h) rfl)) h

theorem badSearch_quiet {ch result : Nat} {targets : List TargetIn} (h : Quiet s₀ s) :
    Quiet s₀ (badSearch ch result targets s) := by
  unfold badSearch
  extract_lets +onlyGivenNames s₁
  have hs₁ : Quiet s₀ s₁ := raise_quiet (by omega) (.frame h rfl)
  exact .ite (settleFall_quiet (.frame (modJig_quiet (fun _ => ⟨rfl, id⟩) hs₁) rfl)) hs₁

/-! ### Machine/Recovery.lean -/

theorem beginRecovery_quiet (h : Quiet s₀ s) : Quiet s₀ (beginRecovery s) := by
  unfold beginRecovery
  extract_lets +onlyGivenNames modes s₁
  have hs₁ : Quiet s₀ s₁ :=
    .frame (s := { s with modes := _ }) (h.trans (Moved.quiet ⟨rfl, rfl⟩ (.inr ⟨rfl, rfl⟩))) rfl
  split
  · exact .frame hs₁ rfl
  · exact .ite hs₁ (setConds_quiet (fun _ => rfl) hs₁)

theorem writeWindow_quiet (h : Quiet s₀ s) : Quiet s₀ (writeWindow s) := winPutAll_quiet h

theorem newJournal_quiet (h : Quiet s₀ s) : Quiet s₀ (newJournal s) := by
  unfold newJournal
  split
  · exact startFold_quiet (writeWindow_quiet (.frame (takePair_quiet h) rfl))
  · exact setConds_quiet (fun _ => rfl) (writeWindow_quiet (.frame h rfl))

theorem grantTo_quiet {dst : Option (BitVec 3)} (h : Quiet s₀ s) : Quiet s₀ (grantTo dst s) := .ite (dvSend_quiet h) h

theorem acceptGrant_quiet (h : Quiet s₀ s) : Quiet s₀ (acceptGrant s) := by
  unfold acceptGrant
  extract_lets off recov stripe jrnl s₁ s₂
  have hs₁ : Quiet s₀ s₁ := h.grant (f := fun _ => s₁) rfl
  have hs₂ : Quiet s₀ s₂ := grantTo_quiet hs₁
  exact .ite (newJournal_quiet (.frame hs₂ rfl)) (.frame hs₂ rfl)

theorem tryGrant_quiet (h : Quiet s₀ s) : Quiet s₀ (tryGrant s) :=
  .ite h (.ite (.frame h rfl) (.ite (.frame h rfl) (.ite (acceptGrant_quiet h) (.frame h rfl))))

theorem pendingGrant_quiet (h : Quiet s₀ s) : Quiet s₀ (pendingGrant s) := .ite (tryGrant_quiet (.frame h rfl)) h

theorem replaySealed_quiet {r : BitVec 256} (h : Quiet s₀ s) : Quiet s₀ (replaySealed r s) :=
  .ite h (.ite (.frame (.frame h rfl) rfl) (listShort_quiet (.frame (.frame h rfl) rfl)))

theorem replayBegin_quiet {r : BitVec 256} (h : Quiet s₀ s) : Quiet s₀ (replayBegin r s) := .frame (.frame h rfl) rfl

theorem replayProgress_quiet {r : BitVec 256} (h : Quiet s₀ s) : Quiet s₀ (replayProgress r s) := .ite h (.frame h rfl)

theorem replayOpened_quiet {r : BitVec 256} (h : Quiet s₀ s) : Quiet s₀ (replayOpened r s) :=
  .ite (.frame (.frame h rfl) rfl) (.frame h rfl)

theorem replayAbandon_quiet (h : Quiet s₀ s) : Quiet s₀ (replayAbandon s) :=
  .frame (.foldl (fun _ _ ht => .frame ht rfl) (.foldl (fun _ _ ht => .frame ht rfl) h)) rfl

theorem replayCommit_quiet (h : Quiet s₀ s) : Quiet s₀ (replayCommit s) := by
  unfold replayCommit
  extract_lets s₁ s₂ stripe s₃
  have hs₂ : Quiet s₀ s₂ := .foldl (fun _ _ ht => .frame ht rfl) (moveBinds_quiet h)
  clear_value s₂
  have hs₃ : Quiet s₀ s₃ := .frame hs₂ rfl
  clear_value s₃
  exact .frame (.foldl (fun _ _ ht => .frame ht rfl) hs₃) rfl

theorem replayRec_quiet {r : BitVec 256} (h : Quiet s₀ s) : Quiet s₀ (replayRec s r) := by
  unfold replayRec
  split
  · exact replaySealed_quiet h
  · exact replayOpened_quiet h
  · exact .frame h rfl
  · exact .frame h rfl
  · exact .frame h rfl
  · exact .frame h rfl
  · exact .frame h rfl
  · exact .frame h rfl
  · exact replayBegin_quiet h
  · exact replayProgress_quiet h
  · exact .frame (.frame h rfl) rfl
  · exact .frame h rfl
  · exact .frame h rfl
  · exact .frame h rfl
  · exact .frame h rfl
  · exact .frame h rfl
  · exact .frame h rfl
  · exact .frame (.frame (.foldl (fun _ _ ht => .frame ht rfl) h) rfl) rfl
  · exact .frame h rfl
  · exact replayCommit_quiet h
  · exact replayAbandon_quiet h
  · exact .frame (.frame h rfl) rfl
  · exact .frame h rfl
  · exact h

theorem repairMember_quiet {g r mask w : Nat} {reads : List MemberRead} {m : Nat} (h : Quiet s₀ s) :
    Quiet s₀ (repairMember g r mask w reads s m) :=
  programMember_quiet (.frame h rfl)

theorem programErased_quiet {i : RecoveryIn} {g r passed w : Nat} (h : Quiet s₀ s) : Quiet s₀ (programErased i g r passed w s) :=
  .foldl (fun _ _ ht => repairMember_quiet ht) h

theorem settleSeal_quiet {g r w : Nat} (h : Quiet s₀ s) : Quiet s₀ (settleSeal g r w s) :=
  .frame (.ite (addRec_quiet h) (listShort_quiet (addRec_quiet h))) rfl

theorem resolveRow_quiet {i : RecoveryIn} {g r passed : Nat} (h : Quiet s₀ s) : Quiet s₀ (resolveRow i g r passed s) := by
  unfold resolveRow
  dsimp only
  split <;> exact settleSeal_quiet (programErased_quiet (.frame h rfl))

theorem resolveNext_quiet {i : RecoveryIn} {g n : Nat} (h : Quiet s₀ s) : Quiet s₀ (resolveNext i g n s) := by
  induction n generalizing s with
  | zero => exact h
  | succ n ih => exact .ite (ih (resolveRow_quiet h)) h

theorem resolveRows_quiet {i : RecoveryIn} {rows : List (Nat × Nat × Nat)} (h : Quiet s₀ s) : Quiet s₀ (resolveRows i rows s) :=
  .foldl (fun _ _ ht => .ite (.frame (addRec_quiet ht) rfl) ht)
    (.foldl (fun _ _ ht => resolveNext_quiet ht) (.foldl (fun _ _ ht => .ite ht (resolveRow_quiet ht)) h))

theorem orphanRebuild_quiet (h : Quiet s₀ s) : Quiet s₀ (orphanRebuild s) := by
  refine .ite h ?_
  split
  · exact h
  · exact .frame (.frame h rfl) rfl

theorem orphanRefit_quiet (h : Quiet s₀ s) : Quiet s₀ (orphanRefit s) := by
  unfold orphanRefit
  dsimp only
  split
  · exact h
  · split
    · exact .frame h rfl
    · split
      · split
        · exact .frame (.frame h rfl) rfl
        · exact .frame h rfl
      · exact .frame (.foldl (fun _ _ ht => .frame ht rfl) h) rfl

theorem resumeServices_quiet (h : Quiet s₀ s) : Quiet s₀ (resumeServices s) :=
  .frame (orphanRefit_quiet (orphanRebuild_quiet h)) rfl

theorem scanMembers_quiet {bs : List BlockSeen} {g w : Nat} {top : Option Nat} (h : Quiet s₀ s) :
    Quiet s₀ (scanMembers bs g w top s).2 := by
  refine .foldlSnd (fun _ _ ht => ?_) h
  split
  · exact ht
  · exact .frame ht rfl

theorem scanLosses_quiet {i : RecoveryIn} {g r : Nat} (h : Quiet s₀ s) : Quiet s₀ (scanLosses i g r s) :=
  .foldl (fun _ _ ht => .ite (addLoss_quiet ht) ht) h

theorem scanSources_quiet (h : Quiet s₀ s) : Quiet s₀ (scanSources s) :=
  .ite (.foldl (fun _ _ ht => .ite ht (.frame (.frame ht rfl) rfl)) h) h

theorem initialTruing_quiet (h : Quiet s₀ s) : Quiet s₀ (initialTruing s) := by
  refine .ite ?_ h
  refine .foldl (fun _ _ ht => ?_) (.frame h rfl)
  split
  · exact backgroundSearch_quiet ht
  · exact ht

theorem absentDown_quiet (h : Quiet s₀ s) : Quiet s₀ (absentDown s) := .foldl (fun _ _ ht => lunDown_quiet ht) h

theorem soloLeads_quiet (h : Quiet s₀ s) : Quiet s₀ (soloLeads s) :=
  .ite (h.trans (Moved.quiet ⟨rfl, rfl⟩ (.inr ⟨rfl, rfl⟩))) h

theorem endTruing_quiet (h : Quiet s₀ s) : Quiet s₀ (endTruing s) :=
  .ite (.foldl (fun _ _ ht => dropSearch_quiet ht) (.frame h rfl)) h

theorem endTrain_quiet (h : Quiet s₀ s) : Quiet s₀ (endTrain s) :=
  .ite (applyMode_quiet (endTruing_quiet (soloLeads_quiet h)) ⟨rfl, rfl⟩) h

theorem endRecovery_quiet (h : Quiet s₀ s) : Quiet s₀ (endRecovery s) := by
  unfold endRecovery
  extract_lets j noPair modes stripe s₁ s₂ s₃ s₄ s₅ s₆ dv s₇
  have hs₁ : Quiet s₀ s₁ :=
    .ofStill (s := { s with modes := s₁.modes }) (h.trans (Moved.quiet ⟨rfl, rfl⟩ (.inr ⟨rfl, rfl⟩))) rfl
  have hs₃ : Quiet s₀ s₃ := recheckTypes_quiet (.ite (setConds_quiet (fun _ => rfl) hs₁) hs₁)
  clear_value s₃
  have hs₄ : Quiet s₀ s₄ := absentDown_quiet (.foldl (fun _ _ ht => lunDown_quiet ht) (soloLeads_quiet hs₃))
  clear_value s₄
  have hs₆ : Quiet s₀ s₆ :=
    endTrain_quiet (setDegraded_quiet (rebuildCond_quiet (setConds_quiet (fun _ => rfl) hs₄)))
  clear_value s₆
  exact patrolUpdate_quiet (foldIfDue_quiet (.ite (raise_quiet (by omega) (.frame hs₆ rfl)) hs₆))

theorem settleRecovery_quiet (h : Quiet s₀ s) : Quiet s₀ (settleRecovery s) :=
  .ite h (.ite (endRecovery_quiet h) (.ite (endRecovery_quiet h) h))

/-! ### Machine/Flush.lean -/

theorem settleFence_quiet (h : Quiet s₀ s) : Quiet s₀ (settleFence s) := .ite (.foldl (fun _ _ ht => abortEntry_quiet ht) h) h

theorem powerEvent_quiet {cause : Nat} (h : Quiet s₀ s) : Quiet s₀ (powerEvent cause s) := raisePriv_quiet (by omega) h

theorem settleOv_quiet (h : Quiet s₀ s) : Quiet s₀ (settleOv s) := by
  refine .ite (powerEvent_quiet ?_) h
  exact .ofStill (h.setPower (p := { s.power with ovEventDone := true, ovFences := satAdd s.power.ovFences 1 }) rfl id) rfl

theorem endWithdrawn_quiet {p : Job → Bool} (h : Quiet s₀ s) : Quiet s₀ (endWithdrawn p s) :=
  .foldl (fun _ _ ht => endClimb_quiet ht) h

theorem cutReleases_quiet {p : Job → Bool} (h : Quiet s₀ s) : Quiet s₀ (cutReleases p s) := by
  refine .foldl (fun _ _ ht => ?_) h
  split
  · exact .ite (eraseCut_quiet ht) ht
  · exact ht

theorem stopServices_quiet (h : Quiet s₀ s) : Quiet s₀ (stopServices s) :=
  retireAll_quiet (cutFold_quiet (stopBackground_quiet (stopClimbs_quiet h)))

theorem closeFilling_quiet (h : Quiet s₀ s) : Quiet s₀ (closeFilling s) := .ite h (.foldl (fun _ _ ht => closeShort_quiet ht) h)

theorem cutWrite_quiet {st det : Nat} {e : Entry} (h : Quiet s₀ s) : Quiet s₀ (cutWrite st det s e) :=
  .ite (.ite h (.foldl (fun _ _ ht => .frame ht rfl) (.frame h rfl))) h

theorem cutUnread_quiet {e : Entry} (h : Quiet s₀ s) : Quiet s₀ (cutUnread s e) :=
  .ite (.ite (.frame h rfl) (.frame (.frame h rfl) rfl)) h

theorem cutErases_quiet {det : Nat} (h : Quiet s₀ s) : Quiet s₀ (cutErases det s) := by
  refine .foldl (fun _ _ ht => ?_) h
  refine .ite ?_ ht
  split
  · exact .frame (.frame ht rfl) rfl
  · exact .frame (.frame ht rfl) rfl
  · exact ht

theorem thermalEvent_quiet {cause : Nat} (h : Quiet s₀ s) : Quiet s₀ (thermalEvent cause s) := raisePriv_quiet (by omega) h

theorem abandonJob_quiet {j : Job} (h : Quiet s₀ s) : Quiet s₀ (abandonJob s j) := by
  unfold abandonJob
  split
  · exact failRead_quiet h
  · split
    · exact .frame (.frame h rfl) rfl
    · exact h
  · exact .frame (.frame h rfl) rfl
  · exact .frame (.frame h rfl) rfl
  · exact .frame (.frame h rfl) rfl
  · exact journalCopyFailed_quiet h
  · split
    · exact .frame h rfl
    · exact h
  · exact h

theorem settleLatch_quiet (h : Quiet s₀ s) : Quiet s₀ (settleLatch s) := by
  have hpower {t : State} {q : BitVec 2} (ht : Quiet s₀ t) (hq : t.power.latchSeq ≠ 0) :
      Quiet s₀ { t with power := { t.power with latchSeq := q } } := ht.setPower rfl (fun e => absurd e hq)
  unfold settleLatch
  extract_lets +onlyGivenNames _ s₁
  have hs₁ : Quiet s₀ s₁ := by
    unfold s₁
    split
    case isTrue c => exact placePageAgain_quiet (hpower h (by simp_all))
    case isFalse => exact h
  clear_value s₁
  extract_lets
  split
  case isTrue c => exact .foldl (fun _ _ ht => enterPadHold_quiet ht) (hpower hs₁ (by simp_all))
  case isFalse => exact hs₁

theorem endLost_quiet {e : Entry} (h : Quiet s₀ s) : Quiet s₀ (endLost s e) := by
  unfold endLost
  split
  · exact h
  · exact .frame h rfl
  · exact .ite h (.frame (abortEntry_quiet h) rfl)

theorem settleLost_quiet (h : Quiet s₀ s) : Quiet s₀ (settleLost s) := by
  refine .ite ?_ h
  extract_lets +onlyGivenNames s₁
  have hs₁ : Quiet s₀ s₁ := .foldl (fun _ _ ht => endLost_quiet ht) h
  exact .ite (.frame hs₁ rfl) hs₁

theorem cutJobs_quiet (h : Quiet s₀ s) : Quiet s₀ (cutJobs s) := .frame (withdraw_quiet h) rfl

theorem cascadeEvent_quiet {cause : Nat} {die : BitVec 3} (h : Quiet s₀ s) : Quiet s₀ (cascadeEvent cause die s) :=
  raisePriv_quiet (by omega) h

theorem takeWindow_quiet (h : Quiet s₀ s) : Quiet s₀ (takeWindow s) := by
  unfold takeWindow
  split
  · exact .frame h rfl
  · exact h

theorem layWindow_quiet (h : Quiet s₀ s) : Quiet s₀ (layWindow s) := h.grant rfl

theorem settleClosing_quiet (h : Quiet s₀ s) : Quiet s₀ (settleClosing s) := .ite (.frame h rfl) h

theorem startTakeover_quiet (h : Quiet s₀ s) : Quiet s₀ (startTakeover s) := by
  unfold startTakeover
  extract_lets +onlyGivenNames _ s₁
  have hs₁ : Quiet s₀ s₁ := beginRecovery_quiet (takeWindow_quiet (.frame h rfl))
  refine .ite ?_ (.ite (tryGrant_quiet hs₁) (pendingGrant_quiet hs₁))
  extract_lets +onlyGivenNames _ s₂
  have hs₂ : Quiet s₀ s₂ := setConds_quiet (fun _ => rfl) (.frame (.frame hs₁ rfl) rfl)
  exact .ite (.frame (layWindow_quiet hs₂) rfl) hs₂

theorem settleTakeover_quiet (h : Quiet s₀ s) : Quiet s₀ (settleTakeover s) :=
  .ite (startTakeover_quiet (settleClosing_quiet h)) (settleClosing_quiet h)

/-! ### Machine/Remote.lean -/

theorem placeRemote_quiet {w : RemoteIn} {buf : Nat} (h : Quiet s₀ s) : Quiet s₀ (placeRemote w buf s).2 :=
  .frame (addJob_quiet h) rfl

theorem fillRemote_quiet {r : Remote} {buf : Nat} (h : Quiet s₀ s) : Quiet s₀ (fillRemote r buf s) := by
  unfold fillRemote
  split
  · exact .frame h rfl
  · exact h

theorem beginRemote_quiet {w : RemoteIn} (h : Quiet s₀ s) : Quiet s₀ (beginRemote w s) := by
  refine .ite ?_ ?_
  · split
    · exact .frame (placeRemote_quiet h) rfl
    · exact h
  · split
    · exact .foldl (fun _ _ ht => .foldl (fun _ _ ht₁ => .frame ht₁ rfl) ht) (.frame h rfl)
    · exact h

theorem pumpRemotes_quiet (h : Quiet s₀ s) : Quiet s₀ (pumpRemotes s) := .foldl (fun _ _ ht => beginRemote_quiet ht) h

theorem sendEnd_quiet {w : RemoteIn} {outcome : Byte} {delivered lost : List (Nat × Nat)} {hostErr : Bool} (h : Quiet s₀ s) :
    Quiet s₀ (sendEnd w outcome delivered lost hostErr s) :=
  dvSend_quiet h

theorem reportFetch_quiet {r : Remote} {err : Bool} (h : Quiet s₀ s) : Quiet s₀ (reportFetch r err s) :=
  sendEnd_quiet (.frame h rfl)

theorem remoteArrived_quiet {x1 c addr len : Nat} {x5 : HostRead} (h : Quiet s₀ s) :
    Quiet s₀ (remoteArrived x1 c addr len x5 s) := by
  unfold remoteArrived
  dsimp only
  split
  · split
    · refine .ite h ?_
      split
      · exact reportFetch_quiet h
      · exact .ite (sramWrite_quiet h) (.ite (reportFetch_quiet (.frame (sramWrite_quiet h) rfl)) (.frame (sramWrite_quiet h) rfl))
    · exact h
  · exact h

theorem slotFor_quiet {g r : Nat} (h : Quiet s₀ s) : Quiet s₀ (slotFor g r s).2 := by
  unfold slotFor
  split
  · exact h
  · exact assignSlot_quiet h
  · exact h

theorem wholeHome_quiet {i : Nat} (h : Quiet s₀ s) : Quiet s₀ (wholeHome i s) := .ite h (giveQ_quiet (.frame h rfl))

theorem ownPartDone_quiet {i : Nat} (h : Quiet s₀ s) : Quiet s₀ (ownPartDone i s) :=
  .ite (wholeHome_quiet h) (.ite (sendPart_quiet (.frame h rfl)) h)

theorem foldMember_quiet {g r m : Nat} {set : Option Nat} (h : Quiet s₀ s) : Quiet s₀ (foldMember g r m set s) := by
  unfold foldMember
  dsimp only
  split
  · refine .ite (slotFor_quiet h) ?_
    refine ownPartDone_quiet ?_
    split
    · exact .frame (.foldl (fun _ _ ht => foldCw_quiet (sramRead_quiet ht)) (slotFor_quiet h)) rfl
    · exact .frame (slotFor_quiet h) rfl
  · exact slotFor_quiet h

theorem foldPart_quiet {i : Nat} {members : List Nat} {pq : List Byte} (h : Quiet s₀ s) : Quiet s₀ (foldPart i members pq s) :=
  .frame (.foldl (fun _ _ ht => foldHalf_quiet ht) h) rfl

theorem keepWhole_quiet {i : Nat} {pq : List Byte} (h : Quiet s₀ s) : Quiet s₀ (keepWhole i pq s) := .frame (.frame h rfl) rfl

theorem takePart_quiet {g r : Nat} {part : PartIn} {pq : List Byte} (h : Quiet s₀ s) : Quiet s₀ (takePart g r part pq s) := by
  unfold takePart
  have hslot : Quiet s₀ (if s.modes.lead then (findSlot g r s, s) else slotFor g r s).2 := by
    split
    · exact h
    · exact slotFor_quiet h
  generalize (if s.modes.lead then (findSlot g r s, s) else slotFor g r s) = d at hslot ⊢
  obtain ⟨slot, t⟩ := d
  dsimp -zeta only at hslot ⊢
  split
  · split
    · exact keepWhole_quiet hslot
    · exact hslot
  · refine dvSend_quiet ?_
    split
    · refine .ite ?_ hslot
      exact .ite (sealSlot_quiet (foldPart_quiet hslot)) (wholeHome_quiet (foldPart_quiet hslot))
    · exact hslot

theorem dropPart_quiet {g r : Nat} (h : Quiet s₀ s) : Quiet s₀ (dropPart g r s) := by
  unfold dropPart
  split
  · exact .ite h (.frame h rfl)
  · exact h

theorem tellFree_quiet {k : Slot} (h : Quiet s₀ s) : Quiet s₀ (tellFree k s) := .ite (dvSend_quiet h) h

theorem joinRemote_quiet {w : RemoteIn} (h : Quiet s₀ s) : Quiet s₀ (joinRemote w s) :=
  .ite (.frame h rfl) (.ite (foldMember_quiet (placeRemote_quiet (.frame h rfl))) (placeRemote_quiet (.frame h rfl)))

theorem goRemote_quiet {w : RemoteIn} (h : Quiet s₀ s) : Quiet s₀ (goRemote w s) := by
  unfold goRemote
  dsimp only
  split
  · split
    · exact fillRemote_quiet (foldMember_quiet h)
    · exact fillRemote_quiet (foldMember_quiet (.frame h rfl))
    · exact .frame (withdraw_quiet (foldMember_quiet h)) rfl
  · exact h

theorem fillWaiting_quiet {r : Remote} (h : Quiet s₀ s) : Quiet s₀ (fillWaiting s r) := .ite (fillRemote_quiet h) h

theorem endRemote_quiet {r : Remote} (h : Quiet s₀ s) : Quiet s₀ (endRemote s r) := by
  unfold endRemote
  dsimp only
  split
  · exact .ite (.frame (.frame (.frame (sendEnd_quiet h) rfl) rfl) rfl) h
  · exact h

theorem reportRecords_quiet (h : Quiet s₀ s) : Quiet s₀ (reportRecords s) := by
  unfold reportRecords
  dsimp only
  split
  · exact .ite (dvSend_quiet (.frame h rfl)) h
  · exact h

theorem settleRemotes_quiet (h : Quiet s₀ s) : Quiet s₀ (settleRemotes s) :=
  .ite (reportRecords_quiet h) (pumpRemotes_quiet (.foldl (fun _ _ ht => endRemote_quiet ht)
    (.foldl (fun _ _ ht => fillWaiting_quiet ht) (reportRecords_quiet h))))

theorem dropRemotes_quiet (h : Quiet s₀ s) : Quiet s₀ (dropRemotes s) :=
  .frame (.frame (.foldl (fun _ _ ht => sendEnd_quiet ht) (.frame (withdraw_quiet h) rfl)) rfl) rfl

theorem sendPage_quiet {j : Job} (h : Quiet s₀ s) : Quiet s₀ (sendPage s j) :=
  .foldl (fun _ _ ht => dvSend_quiet (pageData_quiet ht)) (.frame h rfl)

theorem sendPages_quiet (h : Quiet s₀ s) : Quiet s₀ (sendPages s) := .foldl (fun _ _ ht => sendPage_quiet ht) h

theorem awayLost_quiet {j : Job} {x : Nat × Nat} (h : Quiet s₀ s) : Quiet s₀ (awayLost j s x) := by
  unfold awayLost
  dsimp only
  split
  · split
    · exact .ite (.frame (loseCw_quiet (.frame h rfl)) rfl) (loseCw_quiet (.frame h rfl))
    · exact .frame h rfl
  · exact h

theorem awayGot_quiet {j : Job} {x : Nat × Nat} (h : Quiet s₀ s) : Quiet s₀ (awayGot j s x) := by
  unfold awayGot
  dsimp only
  split
  · split
    · exact .ite (.frame (.frame h rfl) rfl) (noteLadder_quiet (.frame (.frame h rfl) rfl))
    · exact h
  · exact h

theorem awayRead_quiet {j : Job} {delivered lost : List (Nat × Nat)} {hostErr : Bool} (h : Quiet s₀ s) :
    Quiet s₀ (awayRead j delivered lost hostErr s) := by
  unfold awayRead
  extract_lets +onlyGivenNames s₁
  have hs₁ : Quiet s₀ s₁ := .foldl (fun _ _ ht => awayLost_quiet ht) (.foldl (fun _ _ ht => awayGot_quiet ht) h)
  split
  · exact .frame hs₁ rfl
  · exact hs₁

theorem awayEnd_quiet {x1 outcome : Nat} {delivered lost : List (Nat × Nat)} {hostErr : Bool} (h : Quiet s₀ s) :
    Quiet s₀ (awayEnd x1 outcome delivered lost hostErr s) := by
  unfold awayEnd
  split
  · refine .ite h ?_
    refine .ite (endJobWith_quiet (awayRead_quiet h)) ?_
    refine .ite ?_ (endJobWith_quiet h)
    split
    · split
      · exact .ite (writeFetchFailed_quiet h) (awayFetched_quiet h)
      · exact h
    · exact h
  · exact h

theorem awayGone_quiet {j : Job} (h : Quiet s₀ s) : Quiet s₀ (awayGone j s) := by
  unfold awayGone
  dsimp only
  split
  · refine awayFetched_quiet ?_
    split
    · exact .frame h rfl
    · exact h
  · exact h

theorem endUnreachable_quiet (h : Quiet s₀ s) : Quiet s₀ (endUnreachable s) := by
  refine .foldl (fun _ _ ht => ?_) h
  refine awayGone_quiet ?_
  refine .frame ?_ rfl
  refine ownerEnd_quiet ?_
  split
  · exact .frame (.frame ht rfl) rfl
  · exact .frame (.frame ht rfl) rfl
  · exact .frame (.frame ht rfl) rfl
  · exact .frame ht rfl

/-! ### Machine/Settle.lean -/

theorem recoverSlot_quiet {i c : Nat} (h : Quiet s₀ s) : Quiet s₀ (recoverSlot i c s) := .ite h (.frame h rfl)

theorem repeatCw_quiet {c : Cw} (h : Quiet s₀ s) : Quiet s₀ (repeatCw s c) := by
  refine .ite ?_ ?_
  · split
    · exact .frame (.frame h rfl) rfl
    · exact .frame h rfl
  · refine .ite (.frame h rfl) ?_
    split
    · exact rereadCw_quiet h
    · exact h

theorem repeatSearch_quiet {q : Search} (h : Quiet s₀ s) : Quiet s₀ (repeatSearch s q) :=
  .ite (abandonSearch_quiet h) (.frame (senseSearch_quiet h) rfl)

theorem recoverLanding_quiet {n : Nat} (h : Quiet s₀ s) : Quiet s₀ (recoverLanding n s) :=
  .foldl (fun _ _ ht => repeatSearch_quiet ht) (.foldl (fun _ _ ht => repeatCw_quiet ht) h)

theorem recoverStaging_quiet {set c : Nat} (h : Quiet s₀ s) : Quiet s₀ (recoverStaging set c s) := by
  unfold recoverStaging
  dsimp only
  split
  · split
    · exact .ite (badPage_quiet h) h
    · exact h
  · exact h

theorem recoverAccum_quiet {n : Nat} (h : Quiet s₀ s) : Quiet s₀ (recoverAccum n s) := by
  unfold recoverAccum
  dsimp only
  split
  · exact .frame (.frame h rfl) rfl
  · exact h

theorem recoverWord_quiet {x2 : Nat} (h : Quiet s₀ s) : Quiet s₀ (recoverWord s x2) := by
  unfold recoverWord
  split
  · exact recoverSlot_quiet h
  · exact recoverLanding_quiet h
  · exact recoverStaging_quiet h
  · exact .ite (recoverLanding_quiet h) (recoverAccum_quiet h)
  · exact .frame h rfl
  · exact h

theorem recoverSram_quiet (h : Quiet s₀ s) : Quiet s₀ (recoverSram s) :=
  .foldl (fun _ _ ht => recoverWord_quiet ht) (.frame h rfl)

theorem dvSend_stripe (type : Nat) (dst : Option (BitVec 3)) (payload : List Byte) (s : State) :
    (dvSend type dst payload s).stripe = s.stripe := by
  have hflits (m : DvMsg) (ways : List Side) (t : State) : (ways.foldl (sendFlits m) t).stripe = t.stripe := by
    induction ways generalizing t with
    | nil => rfl
    | cons w ways ih =>
      rw [List.foldl_cons, ih]
      cases w <;> rfl
  unfold dvSend
  split
  · rfl
  · rw [hflits]

theorem tellFree_stripe (k : Slot) (s : State) : (tellFree k s).stripe = s.stripe := by
  unfold tellFree
  split
  · exact dvSend_stripe ..
  · rfl

theorem freeSealed_quiet {i : Nat} (h : Quiet s₀ s) : Quiet s₀ (freeSealed s i) := by
  unfold freeSealed
  extract_lets k
  split
  · refine .ite (.frame (.frame (s := tellFree k s) (tellFree_quiet h) ?_) rfl) h
    rw [tellFree_stripe]
    rfl
  · exact h

theorem settleEntry_quiet {eid : Nat} (h : Quiet s₀ s) : Quiet s₀ (settleEntry s eid) := by
  unfold settleEntry
  extract_lets go
  have hgo {f : State → Entry → State} (hf : ∀ {t e}, Quiet s₀ t → Quiet s₀ (f t e)) {t : State} (ht : Quiet s₀ t) :
      Quiet s₀ (go f t) := by
    unfold go
    split
    · exact hf ht
    · exact ht
  clear_value go
  exact hgo settleBind_quiet (hgo settleClose_quiet (hgo settleOpen_quiet (hgo settleFlush_quiet (hgo settleRelease_quiet
    (hgo settleRead_quiet (hgo settleWrite_quiet h))))))

theorem settleCommit_quiet (h : Quiet s₀ s) : Quiet s₀ (settleCommit s) := by
  unfold settleCommit
  split
  · exact .ite (cutLostFeeds_quiet (commitRefit_quiet h)) h
  · exact h

theorem pumpAll_quiet (h : Quiet s₀ s) : Quiet s₀ (pumpAll s) :=
  patrolUpdate_quiet (settleSweep_quiet (assignDecoders_quiet
    (pumpAreas_quiet (assignEncoders_quiet (settleRuns_quiet (settleTruing_quiet
    (settleRemotes_quiet (sendPages_quiet (pumpFeeds_quiet (pumpReads_quiet
    (pumpAllStages_quiet (placeAll_quiet (.foldl (fun _ _ ht => pumpFix_quiet ht)
    (.foldl (fun _ _ ht => settleFall_quiet ht) h))))))))))))))

theorem settle_quiet (h : Quiet s₀ s) : Quiet s₀ (settle s) := by
  unfold settle
  extract_lets s₁ s₂ s₃ s₄
  have hs₂ : Quiet s₀ s₂ := settleRings_quiet (.foldl (fun _ _ ht => freeSealed_quiet ht) (recoverSram_quiet h))
  clear_value s₂
  have hs₃ : Quiet s₀ s₃ := .foldl (fun _ _ ht => settleEntry_quiet ht) hs₂
  clear_value s₃
  have hs₄ : Quiet s₀ s₄ := settleTakeover_quiet (settleLost_quiet (settleLatch_quiet (settleOv_quiet
    (settleFence_quiet (settleRecovery_quiet (settleCommit_quiet hs₃))))))
  clear_value s₄
  exact flushAnswers_quiet (pumpAll_quiet (.frame hs₄ rfl))

theorem recordAcked_quiet {rseq : Nat} {second err : Bool} (h : Quiet s₀ s) : Quiet s₀ (recordAcked rseq second err s) := by
  unfold recordAcked
  split
  · exact .ite h (.ite (evqLevels_quiet (.foldl (fun _ _ ht => .frame ht rfl) (.frame h rfl)))
      (.ite (.frame (.frame h rfl) rfl) (issueRecord_quiet (evqLevels_quiet (.frame h rfl)))))
  · exact h

theorem pumpWindow_quiet (h : Quiet s₀ s) : Quiet s₀ (pumpWindow s) := .foldl (fun _ _ ht => winPut_quiet ht) (.frame h rfl)

/-! ### Machine/Window.lean -/

theorem writeGrant_quiet {v : Word} (h : Quiet s₀ s) : Quiet s₀ (writeGrant v s) := .ite (settle_quiet (tryGrant_quiet h)) h

theorem takeDirEntry_quiet {group : Nat} {b : List Byte} (h : Quiet s₀ s) : Quiet s₀ (takeDirEntry group b s) :=
  .ite (.frame h rfl) h

/-! ### Machine/Cascade.lean -/

theorem cascadeFires_quiet (h : Quiet s₀ s) : Quiet s₀ (cascadeFires s) := raise_quiet (by omega) h

theorem raiseTerm_quiet {t' : Word} (h : Quiet s₀ s) : Quiet s₀ (raiseTerm t' s) := .ite (.frame h rfl) h

theorem saveTerm_quiet (h : Quiet s₀ s) : Quiet s₀ (saveTerm s) := .ite h (saveRecord_quiet (.frame h rfl))

theorem countJoining_quiet (h : Quiet s₀ s) : Quiet s₀ (countJoining s) := .foldl (fun _ _ ht => grantTo_quiet ht) (.frame h rfl)

theorem sendCopy_quiet {die : BitVec 3} (h : Quiet s₀ s) : Quiet s₀ (sendCopy die s) := dvSend_quiet h

theorem leaveLeader_quiet (h : Quiet s₀ s) : Quiet s₀ (leaveLeader s) := dropRemotes_quiet (.frame h rfl)

theorem takeRecord_quiet {r : BitVec 256} (h : Quiet s₀ s) : Quiet s₀ (takeRecord s r) := by
  unfold takeRecord
  split
  · exact addRec_quiet (replayRec_quiet h)
  · exact .ite h (addLoss_quiet h)
  · exact addRec_quiet h

theorem takeCopy_quiet {rec : List Byte} (h : Quiet s₀ s) : Quiet s₀ (takeCopy rec s) := .ite (.frame (putAnchor_quiet h) rfl) h

/-! ### Machine/Dict.lean -/

theorem modSession_quiet {client : Nat} {f : Session → Session} (h : Quiet s₀ s) : Quiet s₀ (modSession client f s) :=
  .ite (.frame h rfl) (.frame h rfl)

theorem useSession_quiet {client : Nat} (h : Quiet s₀ s) : Quiet s₀ (useSession client s) := by
  refine .ite (.frame h rfl) ?_
  refine .ite (modSession_quiet (.frame h rfl)) ?_
  refine .ite (.frame (.frame h rfl) rfl) ?_
  split
  · exact .frame (.frame h rfl) rfl
  · exact .frame h rfl

theorem answerLost_quiet {client : Nat} (h : Quiet s₀ s) : Quiet s₀ (answerLost client s).2 :=
  .ite (.frame (useSession_quiet h) rfl) (useSession_quiet h)

theorem drawChallenge_quiet {client : Nat} {random : List Byte} (h : Quiet s₀ s) : Quiet s₀ (drawChallenge client random s) :=
  modSession_quiet h

theorem sessionValue_quiet {client : Nat} {o : Obj} {idx sub : Nat} (h : Quiet s₀ s) :
    Quiet s₀ (sessionValue client o idx sub s).2 := by
  unfold sessionValue
  split
  · exact drawChallenge_quiet (.frame h rfl)
  · split <;> exact h

theorem serveRead_quiet {client idx sub off len cap : Nat} (h : Quiet s₀ s) :
    Quiet s₀ (serveRead client idx sub off len cap s).2 := by
  unfold serveRead
  split
  · exact h
  · split
    · exact h
    · split
      · exact modSession_quiet (sessionValue_quiet h)
      · split
        · exact modSession_quiet h
        · split
          · split <;> exact h
          · exact h

theorem authAsk_quiet {client level : Nat} (h : Quiet s₀ s) : Quiet s₀ (authAsk client level s).2 := by
  unfold authAsk
  split
  · exact h
  · split <;> exact modSession_quiet h

theorem authSign_quiet {client : Nat} {sig : List Byte} (h : Quiet s₀ s) : Quiet s₀ (authSign client sig s).2 := by
  unfold authSign
  extract_lets +onlyGivenNames _
  split
  · exact modSession_quiet h
  · split
    · exact modSession_quiet (modSession_quiet h)
    · exact modSession_quiet h

theorem imgSelect_quiet {v : Nat} (h : Quiet s₀ s) : Quiet s₀ (imgSelect v s).2 := by
  unfold imgSelect
  split
  · exact h
  · exact .frame h rfl

theorem imgErase_quiet {n : Nat} (h : Quiet s₀ s) : Quiet s₀ (imgErase n s).2 := by
  unfold imgErase
  split
  · exact h
  · split
    · exact h
    · exact .frame (.foldl (fun _ _ ht => eraseSector_quiet ht) h) rfl

theorem imgSegment_quiet {off : Nat} {last : Bool} {data : List Byte} (h : Quiet s₀ s) :
    Quiet s₀ (imgSegment off last data s).2 := by
  unfold imgSegment
  extract_lets +onlyGivenNames _ _ _ _ _ _
  split
  · exact h
  · exact .frame (.frame h rfl) rfl

theorem imgCheck_quiet {run : Bool} (h : Quiet s₀ s) : Quiet s₀ (imgCheck run s).2 := by
  unfold imgCheck
  split
  · exact h
  · split
    · exact h
    · split <;> exact .frame h rfl

theorem raiseFloor_quiet {off v : Nat} (h : Quiet s₀ s) : Quiet s₀ (raiseFloor off v s).2 := by
  unfold raiseFloor
  split
  · exact h
  · split
    · exact h
    · split
      · exact h
      · exact .frame h rfl

theorem provisionKey_quiet {v : List Byte} (h : Quiet s₀ s) : Quiet s₀ (provisionKey v s).2 := by
  unfold provisionKey
  split
  · split
    · exact h
    · split
      · exact h
      · exact .frame h rfl
  · exact h

theorem programFactory_quiet {v : List Byte} (h : Quiet s₀ s) : Quiet s₀ (programFactory v s).2 := by
  unfold programFactory
  split
  · exact h
  · split
    · exact h
    · exact .frame h rfl

theorem writeCustomer_quiet {v : List Byte} (h : Quiet s₀ s) : Quiet s₀ (writeCustomer v s).2 := by
  unfold writeCustomer
  extract_lets +onlyGivenNames _
  split
  · exact h
  · exact .frame (eraseSector_quiet h) rfl

theorem saveDefaults_quiet (h : Quiet s₀ s) : Quiet s₀ (saveDefaults s).2 := by
  unfold saveDefaults
  split
  · exact h
  · exact .frame (saveRecord_quiet h) rfl

theorem ackAgain_quiet {client n : Nat} (h : Quiet s₀ s) : Quiet s₀ (ackAgain client n s).2.2 := modSession_quiet h

theorem outOfOrder_quiet {client : Nat} (h : Quiet s₀ s) : Quiet s₀ (outOfOrder client s).2.2 := modSession_quiet h

theorem takeImage_quiet {client off : Nat} {last : Bool} {data : List Byte} (h : Quiet s₀ s) :
    Quiet s₀ (takeImage client off last data s).2.2 := by
  unfold takeImage
  extract_lets +onlyGivenNames _
  split
  · exact h
  · split
    · exact imgSegment_quiet (modSession_quiet h)
    · split
      · exact ackAgain_quiet h
      · exact outOfOrder_quiet h

theorem portEnd_quiet {r : Reply} {withTotal : Bool} (h : Quiet s₀ s) : Quiet s₀ (portEnd r withTotal s) :=
  raise_quiet (by omega) (.frame h rfl)

/-! ### Machine/Interrupts.lean -/

theorem targetIdle_quiet {t' : Nat} (h : Quiet s₀ s) : Quiet s₀ (targetIdle t' s).2 := by
  unfold targetIdle
  split
  · exact .frame h rfl
  · exact h

theorem notify_quiet {t' : Nat} (h : Quiet s₀ s) : Quiet s₀ (notify t' s) := .ite (.frame h rfl) h

theorem dropWaiting_quiet (h : Quiet s₀ s) : Quiet s₀ (dropWaiting s) := .foldl (fun _ _ ht => .frame ht rfl) (.frame h rfl)

theorem writeEvqCfg_quiet {v : Word} (h : Quiet s₀ s) : Quiet s₀ (writeEvqCfg v s) :=
  .ite (.ite (.frame h rfl) (evqLevels_quiet (.frame (.frame h rfl) rfl)))
    (evqLevels_quiet (.frame (dropWaiting_quiet (.frame h rfl)) rfl))

theorem writeEvqCons_quiet {v : Word} (h : Quiet s₀ s) : Quiet s₀ (writeEvqCons v s) := .ite (evqLevels_quiet (.frame h rfl)) h

/-! ### Machine/Start.lean -/

theorem suspectTarget_quiet {ch ce : Nat} (h : Quiet s₀ s) : Quiet s₀ (suspectTarget ch ce s) :=
  .foldl (fun _ _ ht => .frame ht rfl) h

theorem resetTarget_quiet {ch ce ty : Nat} (h : Quiet s₀ s) : Quiet s₀ (resetTarget ch ce ty s) :=
  .ite (.frame h rfl) (.foldl (fun _ _ ht => .frame ht rfl) h)

theorem readAnchor_quiet (h : Quiet s₀ s) : Quiet s₀ (readAnchor s) := by
  unfold readAnchor
  split
  · exact .frame h rfl
  · exact h

/-! ### Machine/Registers.lean -/

theorem answerReg_quiet {who : Writer} {code data : Nat} (h : Quiet s₀ s) : Quiet s₀ (answerReg who code data s) := by
  unfold answerReg
  split
  · exact .frame h rfl
  · exact .ite h (.frame h rfl)

theorem sampleReg_quiet {x1 : Nat} (h : Quiet s₀ s) : Quiet s₀ (sampleReg x1 s).2 := by
  have hidle : Quiet s₀ (targetIdle ((x1 - 0x04800) / 0x10) s).2 := targetIdle_quiet h
  unfold sampleReg
  generalize targetIdle ((x1 - 0x04800) / 0x10) s = d at hidle ⊢
  obtain ⟨idle, t⟩ := d
  generalize ((readReg x1 s).getD 0).toNat = v
  dsimp only at hidle ⊢
  split
  · exact hidle
  · exact h

theorem writeRingCtrl_quiet {n : Nat} {v : Word} {walk : List HostRead} (h : Quiet s₀ s) :
    Quiet s₀ (writeRingCtrl n v walk s) := by
  unfold writeRingCtrl
  extract_lets +onlyGivenNames _ s₁
  have hs₁ : Quiet s₀ s₁ := .ite (enableRing_quiet h) h
  extract_lets +onlyGivenNames s₂
  have hs₂ : Quiet s₀ s₂ := .ite (shutdownRing_quiet hs₁) hs₁
  exact .ite (restartRing_quiet hs₂) hs₂

theorem writeEvqReg_quiet {off : Nat} {v : Word} (h : Quiet s₀ s) : Quiet s₀ (writeEvqReg off v s) := by
  unfold writeEvqReg
  split
  · exact .ite h (.frame h rfl)
  · exact .ite h (.frame h rfl)
  · exact writeEvqCfg_quiet h
  · exact writeEvqCons_quiet h
  · exact h

theorem writeStripeReg_quiet {off : Nat} {v : Word} (h : Quiet s₀ s) : Quiet s₀ (writeStripeReg off v s) := by
  unfold writeStripeReg
  split
  · exact .ite h (.frame h rfl)
  · exact .ite h (.frame h rfl)
  · exact .ite h (.frame h rfl)
  · exact writeGrant_quiet h
  · exact h


end Sys2Proof.Machine

namespace Sys2Proof.Machine

/-! ### The primary mode (R23) -/

section
variable {s t : State}

/-- What `modeFollows` says of the modes. -/
def modesSeen (m : Modes) : Mode × Mode × Bool × Bool × Bool := (m.mode, m.primary, m.boot, m.holdup, m.factory)

/-- An update of the parts that the primary mode does not depend on. -/
theorem modeFollows.frame {pending : List Instr} {freeCtr : Nat} {now : Nat} {pins : Pins} {rings : List Ring} {sched : Sched}
    {host : HostPorts} {regs : RegPort} {rack : Rack} {power : Power} {hk : Hk} {storeImage : List (Nat × BitVec 160)}
    {jigs : List Jig} {chans : List Chan} {codec : Codec} {recov : Recov} {luns : List (Nat × LunRec)} {stripe : Stripe}
    {bg : Bg} {media : Media} {dv : Dv} {irq : Irq} {evq : Evq} {dict : Dict} {cab : Cabinet} {sram : Sram} {stats : Stats}
    (h : modeFollows s) (e : pins.inReset = s.pins.inReset) :
    modeFollows { s with
      pending := pending, freeCtr := freeCtr, now := now, pins := pins, rings := rings, sched := sched, host := host
      regs := regs, rack := rack, power := power, hk := hk, storeImage := storeImage, jigs := jigs, chans := chans
      codec := codec, recov := recov, luns := luns, stripe := stripe, bg := bg, media := media, dv := dv, irq := irq
      evq := evq, dict := dict, cab := cab, sram := sram, stats := stats } := by
  unfold modeFollows
  dsimp only
  rw [e]
  exact h

/-- An update of the modes that the primary mode does not depend on. -/
theorem modeFollows.modes {pending : List Instr} {freeCtr : Nat} {now : Nat} {modes : Modes} {rings : List Ring} {sched : Sched}
    {host : HostPorts} {regs : RegPort} {rack : Rack} {power : Power} {hk : Hk} {storeImage : List (Nat × BitVec 160)}
    {jigs : List Jig} {chans : List Chan} {codec : Codec} {recov : Recov} {luns : List (Nat × LunRec)} {stripe : Stripe}
    {bg : Bg} {media : Media} {dv : Dv} {irq : Irq} {evq : Evq} {dict : Dict} {cab : Cabinet} {sram : Sram} {stats : Stats}
    (e : modesSeen modes = modesSeen s.modes) (h : modeFollows s) :
    modeFollows { s with
      pending := pending, freeCtr := freeCtr, now := now, modes := modes, rings := rings, sched := sched, host := host
      regs := regs, rack := rack, power := power, hk := hk, storeImage := storeImage, jigs := jigs, chans := chans
      codec := codec, recov := recov, luns := luns, stripe := stripe, bg := bg, media := media, dv := dv, irq := irq
      evq := evq, dict := dict, cab := cab, sram := sram, stats := stats } := by
  simp only [modesSeen, Prod.mk.injEq] at e
  obtain ⟨hmode, hprimary, hboot, hholdup, hfactory⟩ := e
  unfold modeFollows
  dsimp only
  rw [hmode, hprimary, hboot, hholdup, hfactory]
  exact h

theorem modeFollows.ite {c : Prop} [Decidable c] (hs : modeFollows s) (ht : modeFollows t) :
    modeFollows (if c then s else t) := by split <;> assumption

theorem modeFollows.option {α : Type _} {o : Option α} {f : α → State} (hs : modeFollows s) (hf : ∀ a, modeFollows (f a)) :
    modeFollows (o.casesOn s f) := by
  cases o with
  | none => exact hs
  | some a => exact hf a

theorem modeFollows.foldl {α : Type _} {f : State → α → State} {l : List α}
    (hf : ∀ s a, modeFollows s → modeFollows (f s a)) (h : modeFollows s) : modeFollows (l.foldl f s) := by
  induction l generalizing s with
  | nil => exact h
  | cons a l ih => exact ih (hf s a h)

theorem Quiet.inReset (q : Quiet s t) : t.pins.inReset = s.pins.inReset := by
  have h := congrArg Pins.inReset q.pins
  exact h

theorem Quiet.resetConds (q : Quiet s t) :
    t.modes.boot = s.modes.boot ∧ t.modes.holdup = s.modes.holdup ∧ t.modes.factory = s.modes.factory := by
  have hboot := congrArg Modes.boot q.modes
  have hholdup := congrArg Modes.holdup q.modes
  have hfactory := congrArg Modes.factory q.modes
  exact ⟨hboot, hholdup, hfactory⟩

/-- The block's own work keeps the order of R23. -/
theorem modeFollows.after (q : Quiet s t) (h : modeFollows s) : modeFollows t := by
  obtain ⟨hout, hin⟩ := h
  obtain ⟨hboot, hholdup, hfactory⟩ := q.resetConds
  have hreset := q.inReset
  rw [modeFollows, hreset, hboot, hholdup, hfactory]
  rcases q.mode with hmoved | ⟨hmode, hprimary⟩
  · refine ⟨fun _ => hmoved, fun hr => ?_⟩
    obtain ⟨hb, hh, hf, -⟩ := hin hr
    exact ⟨hb, hh, hf, .inr hmoved⟩
  · rw [hmode, hprimary]
    exact ⟨hout, hin⟩

/-- The conditions that hold while reset is in force (R60). -/
def resetHolds (m : Modes) : Prop := m.boot = true ∧ m.holdup = false ∧ m.factory = false

theorem modeFollows.resetHolds (h : modeFollows s) (hr : s.pins.inReset = true) : resetHolds s.modes := by
  obtain ⟨hb, hh, hf, -⟩ := h.2 hr
  exact ⟨hb, hh, hf⟩

/-- R23 applied to conditions that have changed. -/
theorem applyMode_follows (hr : s.pins.inReset = true → resetHolds s.modes) : modeFollows (applyMode s) := by
  have q : Quiet s (applyMode s) := applyMode_quiet (.refl s) ⟨rfl, rfl⟩
  obtain ⟨hboot, hholdup, hfactory⟩ := q.resetConds
  refine ⟨fun _ => applyMode_mode s, fun hin => ?_⟩
  obtain ⟨hb, hh, hf⟩ := hr (q.inReset ▸ hin)
  exact ⟨hboot.trans hb, hholdup.trans hh, hfactory.trans hf, .inr (applyMode_mode s)⟩

theorem setConds_follows {f : Modes → Modes} (hf : ∀ m, resetHolds m → resetHolds (f m)) (h : modeFollows s) :
    modeFollows (setConds f s) := applyMode_follows fun hr => hf _ (h.resetHolds hr)

/-- The outcome of a command keeps the order of R23. -/
def FollowsOut (o : Out) : Prop := ∀ t, o = .next t → modeFollows t

theorem FollowsOut.next (h : modeFollows s) : FollowsOut (.next s) := by rintro _ ⟨⟩; exact h

theorem FollowsOut.checked {ok : Bool} (h : modeFollows s) : FollowsOut (checked ok s) := by
  unfold Machine.checked
  split
  · exact .next h
  · intro _ e
    cases e

/-! ### The updates that R23 does not look at -/

theorem raise_follows {id : Nat} (h : modeFollows s) : modeFollows (raise id s) := .frame h rfl

theorem issueRecord_follows (h : modeFollows s) : modeFollows (issueRecord s) := .after (issueRecord_quiet (.refl _)) h

theorem raisePriv_follows {id : Nat} {soft : Bool} {detail : List Byte} (h : modeFollows s) :
    modeFollows (raisePriv id soft detail s) := by
  unfold raisePriv
  extract_lets +onlyGivenNames _ _ _ _ _ t u
  have ht : modeFollows t := .frame h rfl
  have hu : modeFollows u := .ite (.after (queueCanEvent_quiet (.refl _)) ht) ht
  exact .ite (.ite (issueRecord_follows (.frame hu rfl)) (.frame hu rfl)) (.frame hu rfl)

/-- A command that only the main core may give (R501). -/
theorem mainCoreOnly_follows {who : Writer} {f : State → State} (hf : ∀ {u}, modeFollows u → modeFollows (f u))
    (h : modeFollows s) : modeFollows (mainCoreOnly who f s) := by
  cases who with
  | mainCore => exact hf h
  | hostPort => exact .frame h rfl
  | hkCore => exact .frame h rfl

/-- A routine of the Cabinet returns, or faults outside BOOT. -/
theorem asRoutine_follows {c : Caller} (h : modeFollows s) (ht : modeFollows t) : modeFollows (asRoutine c s t) :=
  .ite ht (raisePriv_follows (.frame h rfl))

end

end Sys2Proof.Machine

namespace Sys2Proof.Machine
variable {s₀ s t : State}

/-! ### Machine/Power.lean -/

theorem grantReq_follows {r : RackReq} (h : modeFollows s) : modeFollows (grantReq r s) := by
  unfold grantReq
  split
  · exact h
  · exact .frame h rfl
  · exact .frame (.frame h rfl) rfl

theorem grantFrom_follows {reqs : List RackReq} (h : modeFollows s) : modeFollows (grantFrom reqs s) := by
  induction reqs generalizing s with
  | nil => exact h
  | cons r rs ih => exact .ite (ih h) (.ite (ih (grantReq_follows h)) h)

theorem grantForecast_follows (h : modeFollows s) : modeFollows (grantForecast s) := .ite (.frame h rfl) h

theorem rackCycle_follows (h : modeFollows s) : modeFollows (rackCycle s) :=
  .ite (grantForecast_follows h) (grantFrom_follows (grantForecast_follows h))

theorem execClampGrant_follows (h : modeFollows s) : FollowsOut (execClampGrant s) := .next (rackCycle_follows h)

theorem askClamps_follows {ch lun n : Nat} (h : modeFollows s) : modeFollows (askClamps ch lun n s) := .frame (.frame h rfl) rfl

theorem askXm_follows {ch : Nat} (h : modeFollows s) : modeFollows (askXm ch s) := .ite h (.frame h rfl)

theorem execXmChargeRelease_follows {ch : Nat} (h : modeFollows s) : FollowsOut (execXmChargeRelease ch s) :=
  .checked (.ite h (.frame h rfl))

theorem countDeferred_follows (h : modeFollows s) : modeFollows (countDeferred s) :=
  .after (raise_quiet (by omega) (.refl _)) (.frame h rfl)

theorem execDeferEvent_follows {who : Requester} (h : modeFollows s) : FollowsOut (execDeferEvent who s) := by
  refine .next ?_
  split <;> exact .ite (countDeferred_follows (.frame h rfl)) h

theorem wake_follows (h : modeFollows s) : modeFollows (wake s) :=
  .ite (.after (tellStandby_quiet (.refl _)) (setConds_follows (fun _ => id) (.frame (.frame h rfl) rfl))) h

theorem sbTake_follows (h : modeFollows s) : modeFollows (sbTake s) := wake_follows (.frame h rfl)

theorem placeForecast_follows {m : Word} (h : modeFollows s) : modeFollows (placeForecast m s) :=
  grantForecast_follows (.frame h rfl)

theorem execForecast_follows {m : Word} (h : modeFollows s) : FollowsOut (execForecast m s) :=
  .next (.ite (.ite (.frame (sbTake_follows h) rfl) (placeForecast_follows (sbTake_follows h))) h)

theorem execRevoke_follows {m : Word} (h : modeFollows s) : FollowsOut (execRevoke m s) :=
  .next (.ite (.frame (sbTake_follows h) rfl) h)

theorem execSidebandIgnored_follows {m : Word} (h : modeFollows s) : FollowsOut (execSidebandIgnored m s) :=
  .next (.ite (.frame (sbTake_follows h) rfl) h)

theorem execForecastExpiry_follows (h : modeFollows s) : FollowsOut (execForecastExpiry s) := .next (.ite (.frame h rfl) h)

theorem execSbReqLowered_follows (h : modeFollows s) : FollowsOut (execSbReqLowered s) := .next (.frame h rfl)

theorem execDroopTrip_follows {detector : Nat} (h : modeFollows s) : FollowsOut (execDroopTrip detector s) :=
  .checked (.modes rfl h)

theorem execDroopRestore_follows (h : modeFollows s) : FollowsOut (execDroopRestore s) := .next (.modes rfl h)

/-! ### Machine/Sram.lean -/

theorem execScrubRewrite_follows (h : modeFollows s) : FollowsOut (execScrubRewrite s) := by
  refine .next ?_
  split
  · exact .frame h rfl
  · exact h

/-! ### Machine/Cabinet.lean -/

theorem execProgram_follows {caller : Caller} {sector word : Nat} {data : List (BitVec 64)} {clearOnly suspendOk : Bool}
    (h : modeFollows s) : FollowsOut (execProgram caller sector word data clearOnly suspendOk s) := by
  unfold execProgram
  refine .next (asRoutine_follows h ?_)
  extract_lets +onlyGivenNames c eraseBars
  exact .ite (.frame h rfl) (.ite (.frame h rfl) (.ite (.frame h rfl) (.ite (.frame h rfl) (.ite (.frame h rfl)
    (.frame h rfl)))))

theorem execErase_follows {caller : Caller} {sector : Nat} (h : modeFollows s) :
    FollowsOut (execErase caller sector s) := by
  unfold execErase
  refine .next (asRoutine_follows h ?_)
  extract_lets +onlyGivenNames _ _ t
  have ht : modeFollows t := .frame h rfl
  exact .ite (.frame h rfl) (.ite (.frame h rfl) (.ite (.frame h rfl) (.ite (.frame h rfl)
    (.ite ht (.after (noteEndurance_quiet (.refl _)) ht)))))

theorem execSuspend_follows {caller : Caller} (h : modeFollows s) : FollowsOut (execSuspend caller s) := by
  refine .next (asRoutine_follows h ?_)
  split
  · split <;> exact .frame h rfl
  · exact .frame h rfl

theorem execResume_follows {caller : Caller} (h : modeFollows s) : FollowsOut (execResume caller s) := by
  refine .next (asRoutine_follows h ?_)
  split
  · split <;> exact .frame h rfl
  · exact .frame h rfl

theorem execStatus_follows {caller : Caller} (h : modeFollows s) : FollowsOut (execStatus caller s) := by
  refine .next (asRoutine_follows h ?_)
  split
  · exact .frame h rfl
  · exact .frame h rfl

theorem execCount_follows {caller : Caller} {sector : Nat} (h : modeFollows s) :
    FollowsOut (execCount caller sector s) := by
  refine .next (asRoutine_follows h ?_)
  split <;> exact .frame h rfl

theorem execMarkProgram_follows {caller : Caller} {word : Nat} {data : List (BitVec 64)} {clearOnly : Bool}
    (h : modeFollows s) : FollowsOut (execMarkProgram caller word data clearOnly s) := by
  refine .next (asRoutine_follows h ?_)
  split_ifs <;> exact .frame h rfl

theorem execMarkLock_follows {caller : Caller} (h : modeFollows s) : FollowsOut (execMarkLock caller s) :=
  .next (asRoutine_follows h (.frame h rfl))

theorem execCabinetOpEnd_follows {verified : Bool} {wordsDone : Nat} (h : modeFollows s) :
    FollowsOut (execCabinetOpEnd verified wordsDone s) := by
  refine .next ?_
  split
  · exact .after (endProgram_quiet (.refl _)) h
  · exact .ite h (.after (endErase_quiet (.refl _)) h)
  · exact h

theorem execLogRecordCopy_follows (h : modeFollows s) : FollowsOut (execLogRecordCopy s) := by
  refine .next ?_
  refine .ite h ?_
  split
  · exact .after (writeLog_quiet (.refl _)) (.frame h rfl)
  · exact .after (writeLog_quiet (.refl _)) (.frame h rfl)
  · exact h

/-! ### Machine/Journal.lean -/

theorem launchPage_follows {p : JPage} {recs : Nat} (h : modeFollows s) : modeFollows (launchPage p recs s) := by
  unfold launchPage
  extract_lets +onlyGivenNames _ _ _ s₁
  have hs₁ : modeFollows s₁ := .ite (.after (programJournal_quiet (programJournal_quiet (.refl _))) (.frame h rfl)) (.frame h rfl)
  extract_lets +onlyGivenNames s₂
  have hs₂ : modeFollows s₂ := .ite (.after (programJournal_quiet (.refl _)) hs₁) hs₁
  refine .ite hs₂ ?_
  extract_lets +onlyGivenNames s₃
  have hs₃ : modeFollows s₃ := .ite (.after (eraseOldRing_quiet (.refl _)) hs₂) hs₂
  exact .ite (.after (eraseRing_quiet (.refl _)) hs₃) hs₃

theorem startRecords_follows (h : modeFollows s) : modeFollows (startRecords s) := launchPage_follows (.frame h rfl)

theorem startSnapshot_follows (h : modeFollows s) : modeFollows (startSnapshot s) :=
  .ite (.frame (.after (addRec_quiet (.refl _)) (launchPage_follows (.frame h rfl))) rfl) (launchPage_follows (.frame h rfl))

theorem execJournalPageStart_follows (h : modeFollows s) : FollowsOut (execJournalPageStart s) := by
  refine .next ?_
  refine .ite h ?_
  refine .ite (startSnapshot_follows h) ?_
  extract_lets +onlyGivenNames s₁
  have hs₁ : modeFollows s₁ := .ite (.after (readSnapshot_quiet (.refl _)) h) h
  exact .ite hs₁ (startRecords_follows hs₁)

theorem endFold_follows (h : modeFollows s) : modeFollows (endFold s) := by
  unfold endFold
  extract_lets +onlyGivenNames _ _ _ s₁
  have hs₁ : modeFollows s₁ := .after (writeAnchor_quiet (.refl _)) (.frame h rfl)
  exact .ite (.after (journalEvent_quiet (setConds_quiet (fun _ => rfl) (.refl _))) (.frame hs₁ rfl)) hs₁

theorem pageDurable_follows {p : JPage} (h : modeFollows s) : modeFollows (pageDurable p s) :=
  .after (foldIfDue_quiet (.refl _)) (.ite (endFold_follows (.frame h rfl)) (.frame h rfl))

/-! ### Machine/Background.lean -/

theorem execDeclareLunFailed_follows {lun : BitVec 16} (h : modeFollows s) : FollowsOut (execDeclareLunFailed lun s) :=
  .next (.ite (.after (lunDown_quiet (.refl _)) h) h)

theorem execRetireMember_follows {v : Word} (h : modeFollows s) : FollowsOut (execRetireMember v s) :=
  .next (.ite (.after (retireMember_quiet (.refl _)) h) h)

theorem execLedgerClear_follows {idx : BitVec 16} (h : modeFollows s) : FollowsOut (execLedgerClear idx s) :=
  .next (.ite (.after (clearLedger_quiet (.refl _)) h) h)

theorem execRefitAbort_follows {v : Byte} (h : modeFollows s) : FollowsOut (execRefitAbort v s) :=
  .next (.ite (.after (abandonRefit_quiet (.refl _)) h) h)

/-! ### Machine/Entries.lean -/

theorem execRingFetch_follows {n : Nat} {unit0 rest : HostRead} (h : modeFollows s) :
    FollowsOut (execRingFetch n unit0 rest s) := by
  unfold execRingFetch
  refine .checked ?_
  split
  · split
    · extract_lets +onlyGivenNames unit0 rest s₁ s₂
      have hs₁ : modeFollows s₁ := .after (grantFetch_quiet (.refl _)) h
      have hs₂ : modeFollows s₂ := .frame hs₁ rfl
      clear_value s₂ unit0
      cases unit0 with
      | err => exact .after (stopRing_quiet (.refl _)) hs₂
      | ok u => exact .ite (.after (missIfNeeded_quiet (fetchOwned_quiet (.refl _))) hs₂) (.frame hs₂ rfl)
    · exact h
  · exact h

theorem execRingEnable_follows {n : Nat} (h : modeFollows s) : FollowsOut (execRingEnable n s) :=
  .checked (.after (enableRing_quiet (.refl _)) h)

theorem execRingDoorbell_follows {n : Nat} {v : Word} (h : modeFollows s) : FollowsOut (execRingDoorbell n v s) :=
  .checked (.after (doorbell_quiet (.refl _)) (wake_follows h))

theorem execRingRestart_follows {n : Nat} (h : modeFollows s) : FollowsOut (execRingRestart n s) :=
  .checked (.after (restartRing_quiet (.refl _)) h)

theorem execRingShutdown_follows {n : Nat} {walk : List HostRead} (h : modeFollows s) : FollowsOut (execRingShutdown n walk s) :=
  .checked (.after (shutdownRing_quiet (.refl _)) h)

theorem partDone_follows {e : Entry} (h : modeFollows s) : modeFollows (partDone e s) :=
  .ite (raise_follows (.frame h rfl)) (.frame h rfl)

theorem entryGone_follows {e : Entry} (h : modeFollows s) : modeFollows (entryGone e s) := by
  unfold entryGone
  extract_lets +onlyGivenNames s₁
  have hs₁ : modeFollows s₁ := .ite (raise_follows h) h
  extract_lets +onlyGivenNames _ s₂
  have hs₂ : modeFollows s₂ := by
    unfold s₂
    split
    · exact .frame hs₁ rfl
    · exact hs₁
  extract_lets +onlyGivenNames s₃
  have hs₃ : modeFollows s₃ := .frame (.frame hs₂ rfl) rfl
  exact .after (settleRing_quiet (.refl _)) (.frame hs₃ rfl)

theorem complAcked_follows {eid part : Nat} {own : Bool} (h : modeFollows s) : modeFollows (complAcked eid part own s) := by
  unfold complAcked
  split
  · extract_lets +onlyGivenNames s₁
    have hs₁ : modeFollows s₁ := .frame h rfl
    extract_lets +onlyGivenNames _ s₂
    have hs₂ : modeFollows s₂ := .ite (partDone_follows hs₁) hs₁
    exact .ite (entryGone_follows hs₂) (.ite hs₂ (.after (nextWrite_quiet (.refl _)) hs₂))
  · exact h

/-! ### Machine/Reads.lean -/

theorem execPredictedThresholds_follows {job : Nat} (h : modeFollows s) : FollowsOut (execPredictedThresholds job s) := by
  refine .next ?_
  split
  · split
    · exact .after (reread_quiet (fun hu => addRead_quiet hu) (noteStep_quiet (.refl _))) h
    · exact h
  · exact h

theorem execRetryTable_follows {job : Nat} (h : modeFollows s) : FollowsOut (execRetryTable job s) := by
  refine .next ?_
  split
  · split
    · exact .after (reread_quiet (fun hu => addRetry_quiet hu) (noteStep_quiet (.refl _))) h
    · exact h
  · exact h

/-! ### Machine/Ladder.lean -/

theorem execCodewordEncode_follows {engine : Nat} {fault : Option Bool} (h : modeFollows s) :
    FollowsOut (execCodewordEncode engine fault s) := by
  refine .checked ?_
  split
  · split
    · split
      · exact .ite (.after (encoderFault_quiet (.refl _)) h) h
      · exact .ite (.after (encodeNext_quiet (.refl _)) h) h
    · exact h
  · exact h

theorem execSoftRead_follows {job : Nat} (h : modeFollows s) : FollowsOut (execSoftRead job s) :=
  .next (.after (senseStep_quiet (.refl _)) h)

theorem execFusion_follows {job : Nat} (h : modeFollows s) : FollowsOut (execFusion job s) :=
  .next (.after (senseStep_quiet (.refl _)) h)

theorem execTruedThresholds_follows {job : Nat} (h : modeFollows s) : FollowsOut (execTruedThresholds job s) := by
  refine .next ?_
  split
  · refine .ite h ?_
    extract_lets +onlyGivenNames _ _ s₁
    have hs₁ : modeFollows s₁ := .after (noteStep_quiet (.refl _)) h
    split
    · exact .after (rereadAll_quiet (.refl _)) hs₁
    · exact .after (startSearch_quiet (.refl _)) (.foldl (fun _ _ ht₁ => .frame ht₁ rfl) hs₁)
  · exact h

theorem execHardDecode_follows {engine job cw : Nat} {fault : Bool} (h : modeFollows s) :
    FollowsOut (execHardDecode engine job cw fault s) := by
  refine .checked ?_
  split
  · exact .after (endDecode_quiet (.refl _)) h
  · exact h

theorem execSoftDecode_follows {engine job cw : Nat} {fault : Bool} (h : modeFollows s) :
    FollowsOut (execSoftDecode engine job cw fault s) :=
  .checked (.after (areaDecode_quiet (.refl _)) h)

theorem execFusionDecode_follows {engine job cw : Nat} {fault : Bool} (h : modeFollows s) :
    FollowsOut (execFusionDecode engine job cw fault s) :=
  .checked (.after (areaDecode_quiet (.refl _)) h)

theorem execCodecInject_follows {who : Writer} {v : Word} (h : modeFollows s) : FollowsOut (execCodecInject who v s) :=
  .next (mainCoreOnly_follows (fun hu => .frame hu rfl) h)

/-! ### Machine/Saves.lean -/

theorem execSaveCompaction_follows (h : modeFollows s) : FollowsOut (execSaveCompaction s) :=
  .next (.ite (.after (compactNow_quiet (.refl _)) h) h)

/-! ### Machine/Dose.lean -/

theorem execDoseTick_follows (h : modeFollows s) : FollowsOut (execDoseTick s) :=
  .next (.ite (.foldl (fun _ _ ht => .after (tickChannel_quiet (.refl _)) ht) h) h)

theorem execDoseSave_follows (h : modeFollows s) : FollowsOut (execDoseSave s) :=
  .next (.ite (.after (saveClocks_quiet (.refl _)) h) h)

theorem execWakeSweep_follows (h : modeFollows s) : FollowsOut (execWakeSweep s) :=
  .next (.ite (.after (settleSweep_quiet (startSweep_quiet (.refl _))) h) h)

theorem execWallClock_follows {v : BitVec 48} (h : modeFollows s) : FollowsOut (execWallClock v s) :=
  .next (.ite (.after (writeWall_quiet (.refl _)) h) h)

/-! ### Machine/Writes.lean -/

theorem execWriteRow_follows {eid : Nat} {list : List HostRead} (h : modeFollows s) : FollowsOut (execWriteRow eid list s) := by
  refine .next ?_
  refine .after (s := s) ?_ h
  refine dispatch_quiet (fun hu => ?_) (.refl _)
  extract_lets +onlyGivenNames _
  split
  · exact stopAt_quiet (fetchList_quiet hu)
  · exact .frame (fetchList_quiet hu) rfl
  · exact .ite (.frame (.frame (fetchList_quiet hu) rfl) rfl)
      (.ite (stopAt_quiet (.frame (fetchList_quiet hu) rfl)) (tryWrite_quiet (.frame (fetchList_quiet hu) rfl)))

theorem execSlotAssign_follows {eid : Nat} (h : modeFollows s) : FollowsOut (execSlotAssign eid s) := by
  refine .next ?_
  split
  · exact .ite (.ite (.after (tryWrite_quiet (.refl _)) h) (.frame h rfl)) h
  · exact h

theorem execSlotWaitEvent_follows {eid : Nat} (h : modeFollows s) : FollowsOut (execSlotWaitEvent eid s) := by
  refine .next ?_
  split
  · exact .ite (.after (raise_quiet (by omega) (.refl _)) (.frame (.frame h rfl) rfl)) h
  · exact h

theorem execWriteDataArrival_follows {eid member cw : Nat} {beats : List Byte} (h : modeFollows s) :
    FollowsOut (execWriteDataArrival eid member cw beats s) := by
  refine .next ?_
  split
  · split
    · exact .ite (.after (dataArrives_quiet (.refl _)) h) h
    · exact h
  · exact h

/-! ### Machine/Groups.lean -/

theorem execRead_follows {eid : Nat} {list : List HostRead} (h : modeFollows s) : FollowsOut (execRead eid list s) := by
  refine .next ?_
  refine .after (s := s) ?_ h
  refine dispatch_quiet (fun hu => ?_) (.refl _)
  extract_lets +onlyGivenNames _
  split
  · exact stopAt_quiet (fetchList_quiet hu)
  · exact .frame (fetchList_quiet hu) rfl
  · refine .ite (.frame (fetchList_quiet hu) rfl) ?_
    refine .ite (stopAt_quiet (fetchList_quiet hu)) ?_
    extract_lets +onlyGivenNames _ _
    split
    · exact .frame (fetchList_quiet hu) rfl
    · extract_lets +onlyGivenNames s₂
      have hs₂ : Quiet s s₂ := pumpReads_quiet (.frame (fetchList_quiet hu) rfl)
      split
      · exact settleRead_quiet hs₂
      · exact hs₂

theorem execReleaseGroup_follows {eid : Nat} (h : modeFollows s) : FollowsOut (execReleaseGroup eid s) :=
  .next (.after (dispatch_quiet (fun hu => .ite (.frame hu rfl)
    (.ite (.frame hu rfl) (.ite (.frame hu rfl) (.ite (.frame hu rfl)
    (.ite (.frame hu rfl) (.frame (addRec_quiet hu) rfl)))))) (.refl _)) h)

theorem execFlush_follows {eid : Nat} (h : modeFollows s) : FollowsOut (execFlush eid s) := by
  refine .next ?_
  refine .after (s := s) ?_ h
  refine dispatch_quiet (fun hu => ?_) (.refl _)
  refine .ite (.frame hu rfl) ?_
  extract_lets +onlyGivenNames _ _
  split
  · exact settleFlush_quiet (.frame hu rfl)
  · exact .frame hu rfl

theorem execRawJig_follows {eid : Nat} {data : HostRead} (h : modeFollows s) : FollowsOut (execRawJig eid data s) := by
  refine .next ?_
  refine .after (s := s) ?_ h
  refine dispatch_quiet (fun hu => ?_) (.refl _)
  refine .ite (.frame hu rfl) ?_
  refine .ite (.frame hu rfl) ?_
  refine .ite (.frame hu rfl) ?_
  extract_lets +onlyGivenNames s₂
  have hs₂ : Quiet s s₂ := .ite hu (.frame hu rfl)
  split
  · exact .frame hs₂ rfl
  · exact .frame (addJob_quiet hs₂) rfl

theorem execGroupOpen_follows {eid : Nat} (h : modeFollows s) : FollowsOut (execGroupOpen eid s) := by
  refine .next ?_
  refine .after (s := s) ?_ h
  refine dispatch_quiet (fun hu => ?_) (.refl _)
  refine .ite (.frame hu rfl) ?_
  split
  · exact .frame hu rfl
  · exact .ite (.frame hu rfl) (.ite (.frame hu rfl) (.foldl (fun _ _ ht₁ => addErase_quiet ht₁) (.frame (.frame hu rfl) rfl)))

theorem execGroupClose_follows {eid : Nat} (h : modeFollows s) : FollowsOut (execGroupClose eid s) := by
  refine .next (.after (dispatch_quiet (fun hu => ?_) (.refl _)) h)
  exact .ite (.frame hu rfl) (.ite (.frame hu rfl) (.frame (closeGroup_quiet hu) rfl))

theorem execRebuildStart_follows {eid : Nat} (h : modeFollows s) : FollowsOut (execRebuildStart eid s) := by
  refine .next ?_
  refine .after (s := s) ?_ h
  refine dispatch_quiet (fun hu => ?_) (.refl _)
  refine .ite (.frame hu rfl) ?_
  refine .ite (.frame hu rfl) ?_
  split
  · exact .frame hu rfl
  · exact .ite (.frame hu rfl) (.ite (.frame hu rfl) (.frame (queueRebuild_quiet hu) rfl))

theorem execRefitStart_follows {eid : Nat} {plan : HostRead} (h : modeFollows s) : FollowsOut (execRefitStart eid plan s) := by
  refine .next ?_
  refine .after (s := s) ?_ h
  refine dispatch_quiet (fun hu => ?_) (.refl _)
  extract_lets +onlyGivenNames _
  split
  · exact .frame (.frame hu rfl) rfl
  · split
    · exact stopAt_quiet (.frame hu rfl)
    · split
      · exact .frame (.frame hu rfl) rfl
      · exact .ite (.frame (.frame hu rfl) rfl) (.frame (beginRefit_quiet (.frame hu rfl)) rfl)

theorem execPatrolPause_follows {eid : Nat} (h : modeFollows s) : FollowsOut (execPatrolPause eid s) :=
  .next (.after (patrolCtl_quiet (fun hu => .frame hu rfl) (.refl _)) h)

theorem execPatrolResume_follows {eid : Nat} (h : modeFollows s) : FollowsOut (execPatrolResume eid s) :=
  .next (.after (patrolCtl_quiet (fun hu => .frame hu rfl) (.refl _)) h)

theorem execPatrolSetRate_follows {eid : Nat} (h : modeFollows s) : FollowsOut (execPatrolSetRate eid s) :=
  .next (.after (patrolCtl_quiet (fun hu => .frame (.ite hu (saveRecord_quiet hu)) rfl) (.refl _)) h)

theorem execPatrolNewLap_follows {eid : Nat} (h : modeFollows s) : FollowsOut (execPatrolNewLap eid s) :=
  .next (.after (patrolCtl_quiet (fun hu => newLap_quiet hu) (.refl _)) h)

theorem execNop_follows {eid : Nat} (h : modeFollows s) : FollowsOut (execNop eid s) :=
  .next (.after (dispatch_quiet (fun hu => .frame hu rfl) (.refl _)) h)

/-! ### Machine/Microword.lean -/

theorem upsetWord_follows {ch x2 : Nat} {mask : BitVec 160} (h : modeFollows s) : modeFollows (upsetWord ch x2 mask s) :=
  .ite h (.frame h rfl)

/-! ### Machine/Services.lean -/

theorem execReconstruction_follows {job cw : Nat} {w : HostRead} (h : modeFollows s) :
    FollowsOut (execReconstruction job cw w s) := by
  refine .next ?_
  split
  · exact .ite (.after (endStepSix_quiet (.refl _)) h) h
  · split
    · exact .ite (.ite (.after (beginStepSix_quiet (useEntry_quiet (.refl _))) h) (.after (useEntry_quiet (.refl _)) h)) h
    · exact h

theorem execRebuildRow_follows {w : HostRead} (h : modeFollows s) : FollowsOut (execRebuildRow w s) := by
  refine .next ?_
  split
  · exact h
  · refine .ite h ?_
    split
    · exact .ite (.after (stepRebuild_quiet (.refl _)) h) h
    · exact .ite (.after (startMember_quiet (.refl _)) h) (.ite (.after (nextGroup_quiet (.refl _)) h)
        (.ite (.after (abandonMember_quiet (.refl _)) h) (.ite
        (.ite h (.ite (.after (beginRebuildRow_quiet (useEntry_quiet (.refl _))) h)
        (.after (useEntry_quiet (.refl _)) h))) (.after (reachEnd_quiet (.refl _)) h))))

theorem execPatrolRow_follows {w : HostRead} (h : modeFollows s) : FollowsOut (execPatrolRow w s) := by
  refine .next ?_
  extract_lets +onlyGivenNames s₁
  have hs₁ : modeFollows s₁ := .after (patrolUpdate_quiet (.refl _)) h
  split
  · exact .ite (.after (endPatrolRow_quiet (.refl _)) hs₁) hs₁
  · refine .ite hs₁ ?_
    split
    · exact .ite (.ite (.after (beginPatrolRow_quiet (useEntry_quiet (.refl _))) hs₁) (.after (useEntry_quiet (.refl _)) hs₁)) hs₁
    · exact .ite hs₁ (.after (newLap_quiet (.refl _)) hs₁)

theorem execRefitRow_follows {w : HostRead} (h : modeFollows s) : FollowsOut (execRefitRow w s) := by
  refine .next ?_
  refine .ite h ?_
  split
  · exact .after (stepRefit_quiet (.refl _)) h
  · exact .ite (.ite (.after (beginRefitRow_quiet (useEntry_quiet (.refl _))) h) (.after (useEntry_quiet (.refl _)) h)) h

/-! ### Machine/Jigs.lean -/

theorem doPop_follows {ch : Nat} (h : modeFollows s) : modeFollows (doPop ch s) :=
  .ite (.frame h rfl) (.ite (.frame (.frame (.ite (.frame (.frame h rfl) rfl) (.frame h rfl)) rfl) rfl) (.frame h rfl))

theorem trapJig_follows {ch : Nat} {hard : Bool} {cause : Nat} (h : modeFollows s) : modeFollows (trapJig ch hard cause s) :=
  raise_follows (.frame h rfl)

theorem haltJig_follows {ch resume : Nat} (h : modeFollows s) : modeFollows (haltJig ch resume s) :=
  .ite (.after (endJob_quiet (.refl _)) (.frame h rfl)) (.frame h rfl)

theorem machineCheck_follows {ch addr quarters : Nat} (h : modeFollows s) : modeFollows (machineCheck ch addr quarters s) :=
  .after (raisePriv_quiet (by omega) (.refl _)) (.foldl (fun _ _ ht => .after (abandonSearch_quiet (.refl _)) ht)
    (.foldl (fun _ _ ht => .after (endJobWith_quiet (.refl _)) ht) (.frame (.frame (.frame h rfl) rfl) rfl)))

theorem finishBus_follows {ch : Nat} {b : Bus} {d : List Byte} (h : modeFollows s) : modeFollows (finishBus ch b d s) := by
  unfold finishBus
  extract_lets +onlyGivenNames s₁
  have hs₁ : modeFollows s₁ := .ite (.ite (.ite (.after (takeBurst_quiet (.refl _)) h) h)
    (.ite (.frame (.frame h rfl) rfl) h)) (.ite (.frame h rfl) (.ite (.after (drawQueue_quiet (.refl _)) h) h))
  exact .ite (.frame (.after (closeSet_quiet (.refl _)) hs₁) rfl) hs₁

theorem phyRun_follows {ch n : Nat} {d : List Byte} (h : modeFollows s) : modeFollows (phyRun ch n d s) := by
  induction n generalizing d s with
  | zero => exact h
  | succ n ih =>
    unfold phyRun
    split
    · exact h
    · exact .ite h (ih (finishBus_follows (.frame h rfl)))

theorem startArray_follows {ch kind : Nat} {g : Jig} {x : Sel} (h : modeFollows s) : modeFollows (startArray ch kind g x s) := by
  unfold startArray
  extract_lets +onlyGivenNames _ s₁
  have hs₁ : modeFollows s₁ := .frame h rfl
  extract_lets +onlyGivenNames s₂
  have hs₂ : modeFollows s₂ := .frame (.frame hs₁ rfl) rfl
  extract_lets +onlyGivenNames s₃
  have hs₃ : modeFollows s₃ := .frame hs₂ rfl
  split
  · exact .ite hs₃ (.ite (.after (doseProgram_quiet (.refl _)) hs₃) (.ite (.after (doseErase_quiet (.refl _)) hs₃) hs₃))
  · exact hs₃

theorem putBus_follows {ch w : Nat} {g : Jig} {x : Sel} (h : modeFollows s) : modeFollows (putBus ch w g x s) := by
  refine .ite h ?_
  extract_lets +onlyGivenNames _ _ _ s₁
  have hs₁ : modeFollows s₁ := .ite (.after (applySets_quiet (.refl _)) h) h
  extract_lets +onlyGivenNames s₂
  have hs₂ : modeFollows s₂ := .ite (askXm_follows (.frame (.frame hs₁ rfl) rfl)) (.frame (.frame hs₁ rfl) rfl)
  split
  · exact startArray_follows hs₂
  · exact hs₂

theorem putCodec_follows {ch w : Nat} {g : Jig} (h : modeFollows s) : modeFollows (putCodec ch w g s) := by
  refine .ite (.after (startEncoding_quiet (.refl _)) (.frame h rfl)) ?_
  refine .ite ?_ (.frame h rfl)
  split
  · exact .frame (.frame h rfl) rfl
  · exact .frame (.after (closeSet_quiet (.refl _)) (.frame h rfl)) rfl

theorem putClamp_follows {ch w : Nat} {x : Sel} (h : modeFollows s) : modeFollows (putClamp ch w x s) :=
  .ite (.frame h rfl) (.ite (.frame h rfl) (.ite (.frame h rfl) h))

theorem putDrawer_follows {ch w : Nat} (h : modeFollows s) : modeFollows (putDrawer ch w s) := by
  unfold putDrawer
  split
  · exact doPop_follows h
  · exact .frame h rfl
  · exact .frame h rfl
  · exact h

theorem report_follows {ch kind : Nat} {old : Jig} {x : Sel} (h : modeFollows s) : modeFollows (report ch kind old x s) :=
  .frame (.frame h rfl) rfl

theorem putStat_follows {ch w : Nat} {old : Jig} {x : Sel} (h : modeFollows s) : modeFollows (putStat ch w old x s) := by
  unfold putStat
  split
  · exact report_follows h
  · exact report_follows h
  · exact report_follows h
  · exact .after (endJob_quiet (.refl _)) (.frame h rfl)
  · exact h

theorem putEvent_follows {ch w : Nat} {old : Jig} (h : modeFollows s) : modeFollows (putEvent ch w old s) := by
  unfold putEvent
  extract_lets +onlyGivenNames s₁
  have hs₁ : modeFollows s₁ := .ite h (raise_follows (.frame h rfl))
  exact .ite hs₁ (.frame hs₁ rfl)

theorem applyFields_follows {ch w : Nat} {g : Jig} {x : Sel} {p : JigIn} (h : modeFollows s) :
    modeFollows (applyFields ch w g x p s) :=
  putEvent_follows (putStat_follows (.frame (putDrawer_follows
    (putCodec_follows (putBus_follows (.after (putSample_quiet (.refl _))
    (.frame (putClamp_follows (.frame h rfl)) rfl))))) rfl))

theorem transfer_follows {ch w : Nat} {g : Jig} {go : Go} (h : modeFollows s) : modeFollows (transfer ch w g go s) := by
  unfold transfer
  split
  · exact .frame h rfl
  · exact .frame h rfl
  · exact haltJig_follows h
  · exact trapJig_follows h

theorem firstCycle_follows {ch w : Nat} {done : Bool} {p : JigIn} (h : modeFollows s) :
    modeFollows (firstCycle ch w done p s) := by
  refine .ite (transfer_follows h) ?_
  split
  · exact trapJig_follows h
  · refine .ite (.ite (askClamps_follows (.frame h rfl)) (.frame h rfl)) ?_
    split
    · exact trapJig_follows h
    · exact transfer_follows (applyFields_follows h)

theorem waitCycle_follows {ch w : Nat} {done : Bool} {p : JigIn} (h : modeFollows s) : modeFollows (waitCycle ch w done p s) := by
  refine .ite (.frame h rfl) ?_
  split
  · exact trapJig_follows h
  · exact transfer_follows h

theorem jigCycle_follows {ch : Nat} {p : JigIn} (h : modeFollows s) : modeFollows (jigCycle ch p s) :=
  .ite (haltJig_follows (.frame h rfl)) (.ite (machineCheck_follows (upsetWord_follows (.frame h rfl)))
    (.ite (waitCycle_follows (upsetWord_follows (.frame h rfl))) (firstCycle_follows (upsetWord_follows (.frame h rfl)))))

theorem jigWord_follows {ch : Nat} {p : JigIn} (h : modeFollows s) : modeFollows (jigWord ch p s) :=
  .ite (jigCycle_follows (phyRun_follows h)) (phyRun_follows h)

/-! ### Machine/Drawers.lean -/

theorem placeJob_follows {ch : Nat} {j : Job} (h : modeFollows s) : modeFollows (placeJob ch j s) :=
  .frame (.frame (.after (resolveFeats_quiet (.refl _)) h) rfl) rfl

theorem execDrawerPlace_follows {ch : Nat} (h : modeFollows s) : FollowsOut (execDrawerPlace ch s) := by
  refine .checked ?_
  split
  · exact .ite h (.ite (placeJob_follows (.frame h rfl)) (.frame h rfl))
  · exact h

theorem execMcClampRelease_follows {ch : Nat} (h : modeFollows s) : FollowsOut (execMcClampRelease ch s) :=
  .checked (.ite (.after (enterPadHold_quiet (.refl _)) (.frame (.frame (.frame h rfl) rfl) rfl)) h)

theorem restartJig_follows {ch : Nat} (h : modeFollows s) : modeFollows (restartJig ch s) :=
  .ite (.frame (.frame h rfl) rfl) (.frame (.frame h rfl) rfl)

theorem fenceChannel_follows {ch : Nat} (h : modeFollows s) : modeFollows (fenceChannel ch s) :=
  .foldl (fun _ _ ht => .after (failHeld_quiet (.refl _)) ht)
    (.foldl (fun _ _ ht => .after (lunDown_quiet (.refl _)) ht) (.frame h rfl))

theorem execJigReload_follows {ch : Nat} {parityOk : Bool} (h : modeFollows s) : FollowsOut (execJigReload ch parityOk s) :=
  .checked (.ite (.ite (restartJig_follows h) (fenceChannel_follows h)) h)

theorem execJigTimerExpiry_follows {ch : Nat} (h : modeFollows s) : FollowsOut (execJigTimerExpiry ch s) :=
  .checked (.frame h rfl)

theorem execStatusCapture_follows {ch : Nat} {b : Byte} (h : modeFollows s) : FollowsOut (execStatusCapture ch b s) := by
  refine .checked ?_
  split
  · exact .ite (.frame h rfl) h
  · exact h

theorem execJigResume_follows {who : Writer} {ch : Nat} (h : modeFollows s) : FollowsOut (execJigResume who ch s) :=
  .checked (mainCoreOnly_follows (fun hu => .frame hu rfl) h)

theorem execJigStop_follows {who : Writer} {ch : Nat} (h : modeFollows s) : FollowsOut (execJigStop who ch s) :=
  .checked (mainCoreOnly_follows (fun hu => .frame hu rfl) h)

theorem storeRead_follows {v : Word} (h : modeFollows s) : modeFollows (storeRead v s) :=
  .ite (machineCheck_follows (.frame h rfl)) (.frame h rfl)

theorem execJsSel_follows {v : Word} (h : modeFollows s) : FollowsOut (execJsSel v s) := .next (storeRead_follows h)

/-! ### Machine/Media.lean -/

theorem execBind_follows {eid : Nat} (h : modeFollows s) : FollowsOut (execBind eid s) := by
  refine .next ?_
  refine .after (s := s) ?_ h
  refine dispatch_quiet (fun hu => ?_) (.refl _)
  split
  · exact .frame hu rfl
  · exact reserveBind_quiet hu

theorem execUnbindForce_follows {eid : Nat} (h : modeFollows s) : FollowsOut (execUnbindForce eid s) :=
  .next (.after (dispatch_quiet (fun hu => .ite (.frame hu rfl) (.ite (.frame hu rfl) (reserveBind_quiet hu))) (.refl _)) h)

theorem execBindReserve_follows (h : modeFollows s) : FollowsOut (execBindReserve s) := by
  refine .next ?_
  split
  · exact .after (serveBind_quiet (.refl _)) h
  · exact h

theorem execBindWaitEvent_follows {eid : Nat} (h : modeFollows s) : FollowsOut (execBindWaitEvent eid s) := by
  refine .next ?_
  split
  · exact .ite (.after (raise_quiet (by omega) (.refl _)) (.frame (.frame h rfl) rfl)) h
  · exact h

theorem execFeedRun_follows {head beats : Nat} (h : modeFollows s) : FollowsOut (execFeedRun head beats s) := by
  refine .checked ?_
  split
  · split
    · refine .ite (.after (unitData_quiet (.refl _)) h) ?_
      extract_lets +onlyGivenNames _ _ _ s₁
      have hs₁ : modeFollows s₁ := .after (mediaBeats_quiet (.refl _))
        (.ite (.after (mediaSend_quiet (unitData_quiet (.refl _))) h) (.after (unitData_quiet (.refl _)) h))
      exact .ite (.after (endRun_quiet (.refl _)) hs₁) (.frame (.frame hs₁ rfl) rfl)
    · exact h
  · exact h

theorem execPassJudge_follows {head : Nat} {samples : List Byte} (h : modeFollows s) :
    FollowsOut (execPassJudge head samples s) := by
  refine .checked ?_
  split
  · exact h
  · exact .after (serveQueue_quiet (endPass_quiet (.refl _))) h

theorem execAttach_follows {m : BitVec 64} (h : modeFollows s) : FollowsOut (execAttach m s) :=
  .next (.after (ofKind_quiet (.refl _)) h)

theorem execDetach_follows {m : BitVec 64} (h : modeFollows s) : FollowsOut (execDetach m s) :=
  .next (.after (ofKind_quiet (.refl _)) h)

theorem execFeed_follows {m : BitVec 64} (h : modeFollows s) : FollowsOut (execFeed m s) :=
  .next (.after (ofKind_quiet (.refl _)) h)

theorem execVerifyGood_follows {m : BitVec 64} (h : modeFollows s) : FollowsOut (execVerifyGood m s) :=
  .next (.after (ofKind_quiet (.refl _)) h)

theorem execVerifyBad_follows {m : BitVec 64} (h : modeFollows s) : FollowsOut (execVerifyBad m s) :=
  .next (.after (ofKind_quiet (.refl _)) h)

theorem execFragOpen_follows {m : BitVec 64} (h : modeFollows s) : FollowsOut (execFragOpen m s) :=
  .next (.after (ofKind_quiet (.refl _)) h)

theorem execPass_follows {m : BitVec 64} (h : modeFollows s) : FollowsOut (execPass m s) :=
  .next (.after (ofKind_quiet (.refl _)) h)

theorem execFragRead_follows {m : BitVec 64} (h : modeFollows s) : FollowsOut (execFragRead m s) :=
  .next (.after (ofKind_quiet (.refl _)) h)

theorem execFragClose_follows {m : BitVec 64} (h : modeFollows s) : FollowsOut (execFragClose m s) :=
  .next (.after (ofKind_quiet (.refl _)) h)

theorem execMediaReservedMsg_follows {m : BitVec 64} (h : modeFollows s) : FollowsOut (execMediaReservedMsg m s) :=
  .next (.ite h (.after (takeMessage_quiet (.refl _)) h))

theorem execAccumOpen_follows {eid : Nat} {param : HostRead} (h : modeFollows s) : FollowsOut (execAccumOpen eid param s) := by
  refine .next ?_
  refine .after (s := s) ?_ h
  refine dispatch_quiet (fun hu => ?_) (.refl _)
  refine .ite (.frame hu rfl) ?_
  split
  · exact .frame (.frame hu rfl) rfl
  · exact tellAccums_quiet (.frame (.frame (.frame (.frame hu rfl) rfl) rfl) rfl)

theorem execAccumDrainEnd_follows (h : modeFollows s) : FollowsOut (execAccumDrainEnd s) :=
  .next (.ite (.ite (.after (dvSend_quiet (.refl _)) (.frame h rfl)) (.after (openedAll_quiet (.refl _)) (.frame h rfl))) h)

theorem execAccumReturn_follows {eid : Nat} (h : modeFollows s) : FollowsOut (execAccumReturn eid s) :=
  .next (.after (dispatch_quiet (fun hu => .ite (.frame hu rfl)
    (serveQueue_quiet (.frame (returnedAll_quiet (tellAccums_quiet (.frame (closeFrags_quiet hu) rfl))) rfl))) (.refl _)) h)

theorem execMediaAbort_follows {m : Word} (h : modeFollows s) : FollowsOut (execMediaAbort m s) :=
  .next (.ite (.after (serveQueue_quiet (.refl _)) (.frame (.after (addRec_quiet (.refl _))
    (.foldl (fun _ _ ht => .after (abortHead_quiet (.refl _)) ht) (sbTake_follows h))) rfl)) h)

/-! ### Machine/Channels.lean -/

theorem execDriftTrip_follows {ch : Nat} {measure : Byte} (h : modeFollows s) : FollowsOut (execDriftTrip ch measure s) :=
  .checked (.after (driftMeasure_quiet (.refl _)) h)

theorem execRetrainDue_follows {ch : Nat} (h : modeFollows s) : FollowsOut (execRetrainDue ch s) :=
  .checked (.ite (.after (startRetrain_quiet (.refl _)) (.frame h rfl)) h)

theorem execRetrainSearchEnd_follows {ch : Nat} {r : SearchResult} {targets : List TargetIn} (h : modeFollows s) :
    FollowsOut (execRetrainSearchEnd ch r targets s) := by
  refine .checked ?_
  refine .ite h ?_
  extract_lets +onlyGivenNames s₁
  have hs₁ : modeFollows s₁ := .after (withdraw_quiet (.refl _)) h
  exact .ite (.ite (.frame hs₁ rfl) (.after (trainJob_quiet (.refl _)) (.frame hs₁ rfl))) (.after (badSearch_quiet (.refl _)) hs₁)

theorem execSearchRestart_follows {ch : Nat} (h : modeFollows s) : FollowsOut (execSearchRestart ch s) :=
  .checked (.ite (.after (startRetrain_quiet (.refl _)) (.frame h rfl)) h)

/-! ### Machine/Recovery.lean -/

theorem scanGroup_follows {i : RecoveryIn} {bs : List BlockSeen} {g : Nat} (h : modeFollows s) :
    modeFollows (scanGroup i bs s g) := by
  unfold scanGroup
  dsimp only
  split
  · exact h
  · refine .frame ?_ rfl
    refine .foldl (fun _ _ ht => ?_) (.frame (.after (scanMembers_quiet (.refl _)) h) rfl)
    split
    · exact .ite (.frame ht rfl) (.after (listShort_quiet (.refl _)) (.frame ht rfl))
    · exact .frame (.after (resolveRow_quiet (scanLosses_quiet (.refl _))) ht) rfl

theorem sealScan_follows {i : RecoveryIn} (h : modeFollows s) : modeFollows (sealScan i s) := by
  unfold sealScan
  extract_lets +onlyGivenNames _ _ _ _ _ _ _ s₁
  have hs₁ : modeFollows s₁ := .after (scanSources_quiet (.refl _))
    (.foldl (fun _ _ ht => scanGroup_follows ht) (.frame (.after (setConds_quiet (fun _ => rfl) (.refl _)) h) rfl))
  exact .after (journalEvent_quiet (newJournal_quiet (.refl _)))
    (.ite (.frame hs₁ rfl) (.after (eraseSector_quiet (.refl _)) (.frame hs₁ rfl)))

theorem nextBlock_follows {last jseq : Nat} (h : modeFollows s) : modeFollows (nextBlock last jseq s) :=
  .after (eraseRing_quiet (.refl _)) (.frame h rfl)

theorem replayRun_follows {i : RecoveryIn} {pages : List (List Byte)} {last : Nat} (h : modeFollows s) :
    modeFollows (replayRun i pages last s) := by
  unfold replayRun
  extract_lets +onlyGivenNames _ _ _ _ _ _ s₁
  have hs₁ : modeFollows s₁ := .foldl (fun _ _ ht => .after (replayRec_quiet (.refl _)) ht) (.frame (.frame (.frame h rfl) rfl) rfl)
  exact .ite (sealScan_follows h) (.ite (.after (journalEvent_quiet (writeWindow_quiet (.refl _)))
    (.frame (.frame (.frame hs₁ rfl) rfl) rfl)) (.after (resumeServices_quiet (writeWindow_quiet (.refl _)))
    (.frame (.frame (.after (resolveRows_quiet (.refl _)) (nextBlock_follows (.frame hs₁ rfl))) rfl) rfl)))

theorem recoverJournal_follows {i : RecoveryIn} (h : modeFollows s) : modeFollows (recoverJournal i s) := by
  unfold recoverJournal
  extract_lets +onlyGivenNames _ s₁
  have hs₁ : modeFollows s₁ := .ite (grantForecast_follows h) h
  refine .ite ?_ hs₁
  refine .after (initialTruing_quiet (.refl _)) ?_
  refine .ite (sealScan_follows (.frame hs₁ rfl)) ?_
  split
  · exact replayRun_follows (.frame hs₁ rfl)
  · exact sealScan_follows (.frame hs₁ rfl)

/-! ### Machine/Flush.lean -/

theorem suspendErases_follows (h : modeFollows s) : modeFollows (suspendErases s) := .foldl (fun _ _ ht => .frame ht rfl) h

theorem stageOne_follows (h : modeFollows s) : modeFollows (stageOne s) := .ite (.frame h rfl) h

theorem stageTwo_follows (h : modeFollows s) : modeFollows (stageTwo s) :=
  .ite h (setConds_follows (fun _ => id) (suspendErases_follows (.frame h rfl)))

theorem stagesEnd_follows (h : modeFollows s) : modeFollows (stagesEnd s) :=
  .ite (.after (powerEvent_quiet (.refl _)) (setConds_follows (fun _ => id) (.frame h rfl))) (.frame h rfl)

theorem flushBegins_follows (h : modeFollows s) : modeFollows (flushBegins s) :=
  .after (closeFilling_quiet (stopServices_quiet (.refl _))) (.frame
    (.after (withdraw_quiet (.refl _)) (suspendErases_follows
    (.after (endWithdrawn_quiet (cutReleases_quiet (.refl _)))
    (.foldl (fun _ _ ht => .after (abortEntry_quiet (.refl _)) ht) h)))) rfl)

theorem powerFails_follows (h : modeFollows s) : modeFollows (powerFails s) := by
  unfold powerFails
  split
  · exact h
  case isFalse hstart =>
    have hreset : s.pins.inReset = false := by simp_all
    extract_lets +onlyGivenNames old pins power s₁ s₂
    have hs₁ : modeFollows (setConds (fun m => { m with holdup := true, stbyRequested := false }) s₁) :=
      applyMode_follows fun hr => absurd (hreset.symm.trans hr) (by decide)
    have hs₂ : modeFollows s₂ := .after (cabHoldup_quiet (.refl _)) (.frame hs₁ rfl)
    clear_value old s₂
    split
    · exact .after (retireAll_quiet (.refl _)) hs₂
    · exact .after (retireAll_quiet (.refl _)) hs₂
    · exact hs₂
    · exact .after (stopServices_quiet (.refl _)) hs₂
    · exact flushBegins_follows hs₂

theorem latchSets_follows (hreset : s.pins.inReset = false) (h : modeFollows s) : modeFollows (latchSets s) := by
  unfold latchSets
  split
  · exact h
  · extract_lets +onlyGivenNames held s₁ s₂ power s₃ s₄ s₅ s₆ s₇ s₈
    have hreset₁ : s₁.pins.inReset = false := by unfold s₁; split <;> exact hreset
    have hs₂ : modeFollows s₂ :=
      .after (thermalEvent_quiet (.refl _)) (applyMode_follows fun hr => absurd (hreset₁.symm.trans hr) (by decide))
    have hs₃ : modeFollows s₃ := .frame hs₂ rfl
    have hs₄ : modeFollows s₄ := .after (.foldl (fun _ _ ht => abortEntry_quiet ht) (.refl _)) hs₃
    have hs₆ : modeFollows s₆ := .after (endWithdrawn_quiet (cutErases_quiet (.refl _))) hs₄
    have hs₇ : modeFollows s₇ := .frame (.after (withdraw_quiet (.refl _)) (suspendErases_follows hs₆)) rfl
    have hs₈ : modeFollows s₈ := .after (.foldl (fun _ _ ht => cutWrite_quiet ht) (.refl _)) hs₇
    exact .ite hs₃ (.after (stopServices_quiet (.foldl (fun _ _ ht => cutUnread_quiet ht) (.refl _))) hs₈)

theorem abandonOps_follows (h : modeFollows s) : modeFollows (abandonOps s) :=
  .after (placePageAgain_quiet (.refl _)) (.frame (.frame (.frame
    (.foldl (fun _ _ ht => .frame (.frame (.after (abandonJob_quiet (.refl _)) ht) rfl) rfl) h) rfl) rfl) rfl)

theorem setFenced_follows (h : modeFollows s) : modeFollows (setFenced s) := setConds_follows (fun _ => id) (.frame h rfl)

theorem loseLead_follows (h : modeFollows s) : modeFollows (loseLead s) :=
  .ite (.foldl (fun _ _ ht => .after (cutWrite_quiet (.refl _)) ht)
    (.after (cutJobs_quiet (.refl _)) (.foldl (fun _ _ ht => .after (abortEntry_quiet (.refl _)) ht)
    (.after (cascadeEvent_quiet (endRows_quiet (.refl _))) (.frame (setConds_follows (fun _ => id) h) rfl))))) h

/-! ### Machine/Settle.lean -/

theorem execJigMicroword_follows {ch : Nat} {p : JigIn} (h : modeFollows s) : FollowsOut (execJigMicroword ch p s) :=
  .checked (.after (settle_quiet (.refl _)) (jigWord_follows h))

theorem execEntryCompletion_follows {eid : Nat} (h : modeFollows s) : FollowsOut (execEntryCompletion eid s) :=
  .next (.after (completeEntry_quiet (.refl _)) (.ite h (.after (settle_quiet (.refl _)) h)))

theorem execJournalPageDurable_follows (h : modeFollows s) : FollowsOut (execJournalPageDurable s) := by
  refine .next ?_
  split
  · exact .ite (.after (settle_quiet (.refl _)) (.foldl (fun _ _ ht => .after (logRecord_quiet (.refl _)) ht)
      (pageDurable_follows h))) h
  · exact h

theorem execHostReadDone_follows {tag : Nat} {x2 : HostRead} (h : modeFollows s) : FollowsOut (execHostReadDone tag x2 s) := by
  refine .next ?_
  extract_lets +onlyGivenNames _ _
  split
  · split
    · split
      · exact .after (settle_quiet (writeFetchFailed_quiet (.refl _))) (.frame h rfl)
      · exact .frame h rfl
    · exact .after (settle_quiet (remoteArrived_quiet (.refl _))) (.frame h rfl)
    · exact .after (settle_quiet (doseArrived_quiet (.refl _))) (.frame h rfl)
    · exact .frame (.frame h rfl) rfl
    · exact .after (settle_quiet (serveQueue_quiet (.refl _))) (.frame (.frame h rfl) rfl)
    · exact .after (snapArrived_quiet (.refl _)) (.frame h rfl)
    · exact .frame (.frame h rfl) rfl
    · exact .frame (.frame h rfl) rfl
    · exact .frame h rfl
  · exact h

theorem windowAcked_follows {off : Nat} {bs : List Byte} {err : Bool} (h : modeFollows s) :
    modeFollows (windowAcked off bs err s) := by
  unfold windowAcked
  extract_lets +onlyGivenNames key
  split
  · extract_lets +onlyGivenNames held first _ s₁
    have hs₁ : modeFollows s₁ := .after (pumpWindow_quiet (.refl _)) (.frame h rfl)
    exact .ite (.after (journalEvent_quiet (.refl _)) (setConds_follows (fun _ => id) hs₁)) hs₁
  · extract_lets +onlyGivenNames _ s₁
    have hs₁ : modeFollows s₁ := .after (pumpWindow_quiet (.refl _)) (.frame h rfl)
    exact .ite (.after (journalEvent_quiet (.refl _)) (setConds_follows (fun _ => id) (.frame hs₁ rfl))) hs₁

theorem writeAcked_follows {r : HostReq} {err : Bool} (h : modeFollows s) : modeFollows (writeAcked r err s) := by
  unfold writeAcked
  split
  · exact .after (dataAcked_quiet (.refl _)) (.ite (.frame h rfl) h)
  · exact .ite (.after (complFailed_quiet (.refl _)) h) (complAcked_follows h)
  · exact .ite (.after (complFailed_quiet (.refl _)) h) (complAcked_follows h)
  · exact .after (recordAcked_quiet (.refl _)) h
  · exact .ite (.frame h rfl) h
  · exact windowAcked_follows h
  · exact .after (reportAcked_quiet (.refl _)) h
  · exact .ite (.frame h rfl) h
  · exact h
  · exact h
  · exact h
  · exact h
  · exact h
  · exact h

theorem execHostWriteAck_follows {tag : Nat} {err : Bool} (h : modeFollows s) : FollowsOut (execHostWriteAck tag err s) := by
  refine .next ?_
  split
  · exact .after (settle_quiet (.refl _)) (writeAcked_follows (.frame h rfl))
  · exact h

theorem execWindowWriteRetry_follows (h : modeFollows s) : FollowsOut (execWindowWriteRetry s) :=
  .next (.foldl (fun _ _ ht => .ite ht (.frame ht rfl)) h)

theorem execTruingIteration_follows {id : Nat} (h : modeFollows s) : FollowsOut (execTruingIteration id s) :=
  .next (.after (settleRecovery_quiet (truingIteration_quiet (.refl _))) h)

theorem execTruingAbandon_follows {id : Nat} (h : modeFollows s) : FollowsOut (execTruingAbandon id s) :=
  .next (.after (settleRecovery_quiet (truingAbandon_quiet (.refl _))) h)

/-! ### Machine/Window.lean -/

theorem execStripeWinGrant_follows {v : Word} (h : modeFollows s) : FollowsOut (execStripeWinGrant v s) :=
  .next (.after (writeGrant_quiet (.refl _)) h)

theorem execJournalRecovery_follows {r : RecoveryIn} (h : modeFollows s) : FollowsOut (execJournalRecovery r s) :=
  .next (.after (settle_quiet (.refl _)) (recoverJournal_follows h))

theorem execDirCacheMiss_follows {group : Nat} {r : HostRead} (h : modeFollows s) : FollowsOut (execDirCacheMiss group r s) := by
  refine .next ?_
  refine .ite ?_ h
  split
  · exact .frame (.frame (.frame h rfl) rfl) rfl
  · exact .frame (.after (takeDirEntry_quiet (.refl _)) (.frame (.frame h rfl) rfl)) rfl

theorem execWindowReadRetry_follows (h : modeFollows s) : FollowsOut (execWindowReadRetry s) :=
  .next (.foldl (fun _ _ ht => .frame ht rfl) (.foldl (fun _ _ ht => .frame ht rfl) (.frame h rfl)))

/-! ### Machine/Cascade.lean -/

theorem execLinkDown_follows {port : Side} (h : modeFollows s) : FollowsOut (execLinkDown port s) := by
  refine .next ?_
  refine .ite ?_ h
  extract_lets +onlyGivenNames s₁
  have hs₁ : modeFollows s₁ := .after (modPort_quiet (.refl _)) h
  refine .after (cascadeFires_quiet (.refl _)) ?_
  split <;> exact .frame hs₁ rfl

theorem execLinkUp_follows {port : Side} {lanes : Nat} {peer : BitVec 3} (h : modeFollows s) :
    FollowsOut (execLinkUp port lanes peer s) :=
  .next (.ite (.after (cascadeFires_quiet (modPort_quiet (.refl _))) h) h)

theorem execLinkTrainRetry_follows {port : Side} (h : modeFollows s) : FollowsOut (execLinkTrainRetry port s) := .next h

theorem execFlitRefused_follows {r : FlitRefusal} (h : modeFollows s) : FollowsOut (execFlitRefused r s) := by
  refine .next ?_
  split
  · exact h
  · exact .ite h (.after (modPort_quiet (.refl _)) (.frame h rfl))

theorem execDvReservedMsg_follows {type : Byte} (h : modeFollows s) : FollowsOut (execDvReservedMsg type s) :=
  .next (.frame h rfl)

theorem fenceIdentity_follows {cause : Nat} (h : modeFollows s) : modeFollows (fenceIdentity cause s) :=
  .ite h (.after (cascadeEvent_quiet (endTrain_quiet (.refl _))) (setFenced_follows (.frame (loseLead_follows h) rfl)))

theorem electionStep_follows (h : modeFollows s) : modeFollows (electionStep s) :=
  .ite (.frame h rfl) (.after (endTrain_quiet (.refl _)) (setFenced_follows (.frame h rfl)))

theorem startElection_follows (h : modeFollows s) : modeFollows (startElection s) :=
  .ite (electionStep_follows (.after (cascadeFires_quiet (.refl _)) (.frame h rfl))) h

theorem takeOver_follows (h : modeFollows s) : modeFollows (takeOver s) := .frame (.frame h rfl) rfl

theorem winElection_follows (h : modeFollows s) : modeFollows (winElection s) := by
  unfold winElection
  extract_lets +onlyGivenNames _ _ _ _ _ s₁
  have hs₁ : modeFollows s₁ := .after (cascadeEvent_quiet (cascadeFires_quiet (dvSend_quiet (.refl _))))
    (setConds_follows (fun _ => id) (.frame h rfl))
  exact .ite (.after (pendingGrant_quiet (beginRecovery_quiet (.refl _))) hs₁)
    (takeOver_follows (.after (dropRemotes_quiet (.refl _)) hs₁))

theorem checkElected_follows (h : modeFollows s) : modeFollows (checkElected s) := .ite (winElection_follows h) h

theorem execElectionBackoff_follows (h : modeFollows s) : FollowsOut (execElectionBackoff s) :=
  .next (.ite (.after (settle_quiet (.refl _)) (checkElected_follows
    (.after (dvSend_quiet (saveTerm_quiet (.refl _))) (.frame h rfl)))) h)

theorem execElectTimeout_follows (h : modeFollows s) : FollowsOut (execElectTimeout s) :=
  .next (.ite (.after (settle_quiet (.refl _)) (electionStep_follows h)) h)

theorem execClaim_follows {term : Word} {die : BitVec 3} {view : Byte} (h : modeFollows s) :
    FollowsOut (execClaim term die view s) := by
  refine .next ?_
  refine .ite h ?_
  extract_lets +onlyGivenNames _ s₁
  have hs₁ : modeFollows s₁ := .after (raiseTerm_quiet (.refl _)) h
  refine .ite hs₁ ?_
  extract_lets +onlyGivenNames _ _ _ s₂
  have hs₂ : modeFollows s₂ := .ite (.frame hs₁ rfl) hs₁
  exact .ite (.after (settle_quiet (dvSend_quiet (saveTerm_quiet (.refl _)))) (.frame (.ite (loseLead_follows hs₂) hs₂) rfl)) hs₂

theorem execGrant_follows {term : Word} {die : BitVec 3} (h : modeFollows s) : FollowsOut (execGrant term die s) := by
  refine .next ?_
  refine .ite h ?_
  extract_lets +onlyGivenNames s₁
  have hs₁ : modeFollows s₁ := .after (raiseTerm_quiet (.refl _)) h
  exact .ite (.after (settle_quiet (.refl _)) (checkElected_follows (.frame hs₁ rfl))) hs₁

theorem countRing_follows {whole : Bool} (h : modeFollows s) : modeFollows (countRing whole s) := by
  unfold countRing
  extract_lets +onlyGivenNames n
  split
  · extract_lets +onlyGivenNames v _ _ s₁
    have hs₁ : modeFollows s₁ := .after (saveRecord_quiet (.refl _)) (.frame h rfl)
    exact .ite (fenceIdentity_follows hs₁) hs₁
  · exact h

theorem checkLead_follows (h : modeFollows s) : modeFollows (checkLead s) := .ite (loseLead_follows h) h

theorem execPresence_follows {die : BitVec 3} {leadOk : Bool} {term : Word} {ring : RingIn} (h : modeFollows s) :
    FollowsOut (execPresence die leadOk term ring s) :=
  .next (.ite h (.ite (.after (settle_quiet (.refl _)) (fenceIdentity_follows h))
    (.after (settle_quiet (.refl _)) (checkLead_follows (.frame
    (countRing_follows (.frame (.after (raiseTerm_quiet (.refl _)) (.frame h rfl)) rfl)) rfl)))))

theorem execPresenceTimeout_follows {die : BitVec 3} (h : modeFollows s) : FollowsOut (execPresenceTimeout die s) := by
  refine .next ?_
  refine .ite ?_ h
  extract_lets +onlyGivenNames _ _ s₁
  have hs₁ : modeFollows s₁ := checkLead_follows (.frame (.frame h rfl) rfl)
  exact .after (settle_quiet (pendingGrant_quiet (.refl _))) (checkElected_follows
    (.after (accumLeft_quiet (.refl _)) (.ite (.after (endUnreachable_quiet (.refl _)) hs₁) (.ite (.frame hs₁ rfl) hs₁))))

theorem execPresenceSend_follows (h : modeFollows s) : FollowsOut (execPresenceSend s) := by
  refine .next ?_
  refine .ite h ?_
  extract_lets +onlyGivenNames _ s₁
  have hs₁ : modeFollows s₁ := .after (dvSend_quiet (.refl _)) h
  refine .ite ?_ hs₁
  extract_lets +onlyGivenNames _ _ s₂
  have hs₂ : modeFollows s₂ := .after (countJoining_quiet (.refl _)) (.frame (.after (dvSend_quiet (.refl _)) hs₁) rfl)
  exact .after (settle_quiet (.refl _)) (.ite (takeOver_follows hs₂) hs₂)

theorem becomeFollower_follows (h : modeFollows s) : modeFollows (becomeFollower s) :=
  .after (endTrain_quiet (.refl _)) (setConds_follows (fun _ => id) (.frame h rfl))

theorem noteHeartbeat_follows {die : BitVec 3} {seq : Word} {inTime : Bool} (h : modeFollows s) :
    modeFollows (noteHeartbeat die seq inTime s) := by
  unfold noteHeartbeat
  extract_lets +onlyGivenNames _ _ s₁
  have hs₁ : modeFollows s₁ := .ite (.after (leaveLeader_quiet (.refl _)) h) h
  exact .ite (.after (sendCopy_quiet (.refl _)) (.modes rfl hs₁)) (.modes rfl hs₁)

theorem execHeartbeat_follows {term : Word} {die : BitVec 3} {seq : Word} {view : Byte} {inTime : Bool} (h : modeFollows s) :
    FollowsOut (execHeartbeat term die seq view inTime s) := by
  refine .next ?_
  refine .ite h ?_
  extract_lets +onlyGivenNames s₁
  have hs₁ : modeFollows s₁ := .ite (loseLead_follows (.after (raiseTerm_quiet (.refl _)) h)) h
  refine .ite (.after (settle_quiet (.refl _)) hs₁) ?_
  extract_lets +onlyGivenNames _ _ s₂
  have hs₂ : modeFollows s₂ := .ite (.after (cascadeFires_quiet (.refl _)) (noteHeartbeat_follows hs₁)) (noteHeartbeat_follows hs₁)
  exact .after (settle_quiet (.refl _)) (.ite (.ite (becomeFollower_follows hs₂) hs₂) (.ite hs₂ (becomeFollower_follows hs₂)))

theorem loseLeader_follows (h : modeFollows s) : modeFollows (loseLeader s) :=
  startElection_follows (.frame (.after (leaveLeader_quiet (.refl _)) h) rfl)

theorem execHeartbeatMiss_follows (h : modeFollows s) : FollowsOut (execHeartbeatMiss s) :=
  .next (.ite (.ite (.after (settle_quiet (.refl _)) (loseLeader_follows (.frame h rfl))) (.frame h rfl)) h)

theorem execJob_follows {w : RemoteIn} (h : modeFollows s) : FollowsOut (execJob w s) := by
  refine .next ?_
  refine .ite h ?_
  split
  · exact .ite (.after (settle_quiet (accumJob_quiet (.refl _))) h) h
  · exact .ite (.ite (.after (settle_quiet (goRemote_quiet (.refl _))) h) h)
      (.ite (.after (settle_quiet (joinRemote_quiet (.refl _))) h) h)

theorem execJobEnd_follows {handle : Nat} {outcome : Byte} {delivered lost : List (Nat × Nat)} {hostErr : Bool}
    (h : modeFollows s) : FollowsOut (execJobEnd handle outcome delivered lost hostErr s) :=
  .next (.ite h (.ite (.after (settle_quiet (accumAnswered_quiet (.refl _))) h) (.after (settle_quiet (awayEnd_quiet (.refl _))) h)))

theorem execParity_follows {group row : Nat} {part : PartIn} {pq : List Byte} (h : modeFollows s) :
    FollowsOut (execParity group row part pq s) :=
  .next (.ite h (.after (settle_quiet (.refl _)) (.ite (.after (dropPart_quiet (.refl _)) h) (.after (takePart_quiet (.refl _)) h))))

theorem execCodeword_follows {dest : CwTo} {job cw : Nat} {data : List Byte} (h : modeFollows s) :
    FollowsOut (execCodeword dest job cw data s) := by
  refine .next ?_
  refine .ite h ?_
  split
  · exact .ite h (.frame h rfl)
  · split
    · exact .ite (.after (settle_quiet (landCw_quiet (landLabel_quiet (.refl _)))) h) h
    · exact h
  · exact .after (settle_quiet (.refl _)) (.frame h rfl)

theorem execRecord_follows {recs : List (BitVec 256)} (h : modeFollows s) : FollowsOut (execRecord recs s) :=
  .next (.ite h (.ite (.after (settle_quiet (.refl _)) (.frame
    (.foldl (fun _ _ ht => .after (takeRecord_quiet (.refl _)) ht) h) rfl))
    (.after (settle_quiet (.refl _)) (.frame h rfl))))

theorem execDirectory_follows {grant : Option (BitVec 64 × Nat)} {entries : List (Nat × List Byte)} (h : modeFollows s) :
    FollowsOut (execDirectory grant entries s) := by
  refine .next ?_
  refine .ite ?_ h
  refine .foldl (fun _ _ ht => .ite ht (.frame ht rfl)) ?_
  split
  · exact .after (layWindow_quiet (takeWindow_quiet (.refl _))) (.frame h rfl)
  · exact h

theorem execAnchor_follows {x1 : AnchorMsg} (h : modeFollows s) : FollowsOut (execAnchor x1 s) :=
  .next (.ite (.after (settle_quiet (pendingGrant_quiet (takeCopy_quiet (.refl _)))) (.frame h rfl)) h)

theorem execMedia_follows {die : BitVec 3} {m : BitVec 64} (h : modeFollows s) : FollowsOut (execMedia die m s) :=
  .next (.ite h (.ite (.ite (.after (settle_quiet (acceptMessage_quiet (.refl _))) (.frame h rfl)) h)
    (.ite (.after (flushAnswers_quiet (answerBack_quiet (.refl _))) h) h)))

theorem execWakeMsg_follows {sleep : Bool} (h : modeFollows s) : FollowsOut (execWakeMsg sleep s) :=
  .next (.ite (.ite (setConds_follows (fun _ => id) h) (wake_follows h)) h)

/-! ### Machine/Images.lean -/

theorem bootRefusal_follows {place reason : Nat} (h : modeFollows s) : modeFollows (bootRefusal place reason s) :=
  .ite (.modes rfl h) (.after (logRecord_quiet (.refl _)) h)

theorem tryFirmware_follows {places : List Nat} (h : modeFollows s) : modeFollows (tryFirmware places s).2 := by
  induction places generalizing s with
  | nil => exact h
  | cons place places ih =>
    unfold tryFirmware
    split
    · exact .after (sramWrite_quiet (.refl _)) (.modes rfl h)
    · exact ih (bootRefusal_follows h)

theorem bootFirmware_follows (h : modeFollows s) : modeFollows (bootFirmware s).2 := by
  unfold bootFirmware
  split
  · exact bootRefusal_follows h
  · exact tryFirmware_follows h

theorem bootPatch_follows (h : modeFollows s) : modeFollows (bootPatch s) := by
  refine .ite h ?_
  split
  · exact .modes rfl h
  · exact .after (configEvent_quiet (.refl _)) (bootRefusal_follows h)

theorem bootCustomer_follows (h : modeFollows s) : modeFollows (bootCustomer s) := by
  refine .ite h ?_
  split
  · exact .modes rfl h
  · exact .after (configEvent_quiet (.refl _)) (bootRefusal_follows h)

/-! ### Machine/Dict.lean -/

theorem actOn_follows {client idx sub : Nat} {v : List Byte} (h : modeFollows s) : modeFollows (actOn client idx sub v s).2 := by
  unfold actOn
  extract_lets +onlyGivenNames n
  split
  · exact .modes rfl h
  · exact .after (imgSelect_quiet (.refl s)) h
  · exact .after (imgErase_quiet (.refl s)) h
  · exact .after (imgCheck_quiet (.refl s)) h
  · exact .after (authAsk_quiet (.refl s)) h
  · exact .after (modSession_quiet (.refl s)) h
  · exact .after (authSign_quiet (.refl s)) h
  · exact .ite (.after (modSession_quiet (.refl s)) h) h
  · exact .frame h rfl
  · split
    · exact .after (saveDefaults_quiet (.refl s)) h
    · exact h
  · exact .frame h rfl
  · exact .frame h rfl
  · dsimp only
    exact .after (writeWall_quiet (.refl s)) h
  · exact .after (candidateWritten_quiet (.refl s)) h
  · exact .after (patrolUpdate_quiet (.refl s)) h
  · exact .after (lunDown_quiet (.refl s)) h
  · exact .after (retireMember_quiet (.refl s)) h
  · exact .after (clearLedger_quiet (.refl s)) h
  · exact .ite (.after (abandonRefit_quiet (.refl s)) h) h
  · exact .frame h rfl
  · exact .after (raiseFloor_quiet (.refl s)) h
  · exact .after (raiseFloor_quiet (.refl s)) h
  · exact .after (provisionKey_quiet (.refl s)) h
  · exact .after (programFactory_quiet (.refl s)) h
  · exact .after (writeCustomer_quiet (.refl s)) h
  · exact .frame h rfl
  · exact .frame h rfl
  · exact .after (writeFlip_quiet (.refl s)) h
  · exact .ite (.frame h rfl) h
  · split
    · exact .frame h rfl
    · split
      · exact .frame h rfl
      · exact h

theorem applyObject_follows {client : Nat} {o : Obj} {idx sub : Nat} {v : List Byte} (h : modeFollows s) :
    modeFollows (applyObject client o idx sub v s).2 := by
  unfold applyObject
  split
  · exact h
  · exact actOn_follows h

theorem commit_follows {client : Nat} {o : Obj} {idx sub : Nat} {v : List Byte} (h : modeFollows s) :
    modeFollows (commit client o idx sub v s).2 := by
  have hkeep {u : State} (hu : modeFollows u) {c : Prop} [Decidable c] :
      modeFollows (if c then { u with dict := { u.dict with saved := putValue idx sub v u.dict.saved } } else u) :=
    .ite (.frame hu rfl) hu
  unfold commit
  extract_lets +onlyGivenNames c keep
  split
  · exact h
  · split
    · exact h
    · split
      · exact h
      · have hd : modeFollows (applyObject client o idx sub v (if o.acc == .rws then keep s else s)).2 :=
          applyObject_follows (hkeep h)
        generalize applyObject client o idx sub v (if o.acc == .rws then keep s else s) = d at hd ⊢
        obtain ⟨c, t⟩ := d
        dsimp only at hd ⊢
        split
        · exact .ite h hd
        · exact .ite (.after (saveRecord_quiet (.refl _)) (hkeep hd)) (hkeep hd)

theorem execJournalCandidates_follows {sub : Nat} {lun : BitVec 16} (h : modeFollows s) :
    FollowsOut (execJournalCandidates sub lun s) :=
  .checked (.ite (.after (saveRecord_quiet (.refl _)) (.ite (.frame h rfl)
    (.after (candidateWritten_quiet (.refl _)) (.frame h rfl)))) h)

theorem takeSegment_follows {client : Nat} {o : Obj} {idx sub : Nat} {old : List Byte} {last : Bool} {data : List Byte}
    (h : modeFollows s) : modeFollows (takeSegment client o idx sub old last data s).2.2 := by
  unfold takeSegment
  split
  · exact .ite (.after (modSession_quiet (.refl _)) (commit_follows (.after (modSession_quiet (.refl _)) h)))
      (commit_follows (.after (modSession_quiet (.refl _)) h))
  · exact .after (modSession_quiet (.refl _)) h

theorem serveWrite_follows {client idx sub off total cap : Nat} {last : Bool} {data : List Byte} (h : modeFollows s) :
    modeFollows (serveWrite client idx sub off total cap last data s).2.2 := by
  unfold serveWrite
  split
  · exact h
  · split
    · exact h
    · split
      · exact .after (modSession_quiet (.refl _)) h
      · split
        · exact .after (takeImage_quiet (.refl _)) h
        · split
          · exact takeSegment_follows h
          · split
            · split
              · exact takeSegment_follows h
              · split
                · exact .after (ackAgain_quiet (.refl _)) h
                · exact .after (outOfOrder_quiet (.refl _)) h
            · split
              · exact .after (ackAgain_quiet (.refl _)) h
              · exact .after (outOfOrder_quiet (.refl _)) h

theorem portRequest_follows {v : Word} (h : modeFollows s) : modeFollows (portRequest v s) := by
  unfold portRequest
  extract_lets +onlyGivenNames _ _ _ _ s₁
  have hs₁ : modeFollows s₁ := .after (useSession_quiet (.refl _)) (.frame h rfl)
  refine .ite (.after (portEnd_quiet (.refl _)) hs₁) ?_
  split
  · exact .after (portEnd_quiet (serveRead_quiet (.refl _))) hs₁
  · exact .ite (.after (portEnd_quiet (.refl _)) hs₁) (.after (portEnd_quiet (.refl _)) (serveWrite_follows hs₁))
  · exact .after (portEnd_quiet (.refl _)) hs₁
  · exact .after (portEnd_quiet (.refl _)) hs₁

theorem portCommand_follows {op : Nat} {v : Word} (h : modeFollows s) : modeFollows (portCommand op v s) :=
  .ite h (.ite (.frame h rfl) (portRequest_follows h))

theorem execDictRead_follows {v : Word} (h : modeFollows s) : FollowsOut (execDictRead v s) := .next (portCommand_follows h)

theorem execDictWrite_follows {v : Word} (h : modeFollows s) : FollowsOut (execDictWrite v s) := .next (portCommand_follows h)

theorem execDictDescribe_follows {v : Word} (h : modeFollows s) : FollowsOut (execDictDescribe v s) :=
  .next (portCommand_follows h)

theorem canServe_follows {f : List Byte} (h : modeFollows s) : modeFollows (canServe f s) := by
  refine .ite (.frame (.after (answerLost_quiet (.refl _)) h) rfl) ?_
  refine .ite (.frame (.after (answerLost_quiet (.refl _)) h) rfl) ?_
  split
  · exact .ite (.frame (.after (answerLost_quiet (.refl _)) h) rfl)
      (.frame (.after (serveRead_quiet (answerLost_quiet (.refl _))) h) rfl)
  · exact .ite (.frame (.after (answerLost_quiet (.refl _)) h) rfl)
      (.frame (serveWrite_follows (.after (answerLost_quiet (.refl _)) h)) rfl)
  · exact .frame (.after (answerLost_quiet (.refl _)) h) rfl
  · exact .ite (.frame (.after (answerLost_quiet (.refl _)) h) rfl) (.frame (.frame (.after (answerLost_quiet (.refl _)) h) rfl) rfl)
  · exact .frame (.after (answerLost_quiet (.refl _)) h) rfl

theorem canCommand_follows {cmd : Nat} {f : List Byte} (h : modeFollows s) : modeFollows (canCommand cmd f s) :=
  .ite h (.ite (.frame h rfl) (canServe_follows h))

theorem execCanRead_follows {frame : List Byte} (h : modeFollows s) : FollowsOut (execCanRead frame s) :=
  .next (canCommand_follows h)

theorem execCanWrite_follows {frame : List Byte} (h : modeFollows s) : FollowsOut (execCanWrite frame s) :=
  .next (canCommand_follows h)

theorem execCanDescribe_follows {frame : List Byte} (h : modeFollows s) : FollowsOut (execCanDescribe frame s) :=
  .next (canCommand_follows h)

theorem execCloseSession_follows {frame : List Byte} (h : modeFollows s) : FollowsOut (execCloseSession frame s) :=
  .next (canCommand_follows h)

theorem execCanStatusFrame_follows (h : modeFollows s) : FollowsOut (execCanStatusFrame s) :=
  .next (.ite (.frame (.frame h rfl) rfl) h)

theorem execCanEventFrame_follows (h : modeFollows s) : FollowsOut (execCanEventFrame s) := by
  refine .next ?_
  split
  · exact .ite (.frame (.frame h rfl) rfl) h
  · exact h

theorem execCanSessionTimeout_follows {client : Nat} (h : modeFollows s) : FollowsOut (execCanSessionTimeout client s) :=
  .next (.frame h rfl)

theorem execDictTransferTimeout_follows {client : Nat} (h : modeFollows s) : FollowsOut (execDictTransferTimeout client s) :=
  .next (.after (modSession_quiet (.refl _)) h)

theorem execBusOff_follows (h : modeFollows s) : FollowsOut (execBusOff s) :=
  .next (.ite (.frame (.after (raise_quiet (by omega) (.refl _)) (.frame h rfl)) rfl) h)

theorem execBusOffRecovery_follows (h : modeFollows s) : FollowsOut (execBusOffRecovery s) :=
  .next (.ite (.after (raise_quiet (by omega) (.refl _)) (.frame h rfl)) h)

theorem execErrorPassive_follows {passive : Bool} (h : modeFollows s) : FollowsOut (execErrorPassive passive s) :=
  .next (.ite h (.ite (.after (raise_quiet (by omega) (.refl _)) (.frame h rfl))
    (.ite (.after (raise_quiet (by omega) (.refl _)) (.frame h rfl)) h)))

theorem objectWrite_follows {client idx sub : Nat} {v : List Byte} (h : modeFollows s) :
    modeFollows (objectWrite client idx sub v s) :=
  .ite (.ite (.after (portEnd_quiet (.refl _)) (serveWrite_follows (.after (useSession_quiet (.refl _)) h))) h)
    (.ite (.ite (.after (answerLost_quiet (.refl _)) h) (serveWrite_follows (.after (answerLost_quiet (.refl _)) h))) h)

theorem execAuthRequest_follows {client : Nat} {level : Byte} (h : modeFollows s) : FollowsOut (execAuthRequest client level s) :=
  .next (objectWrite_follows h)

theorem execAuthChallenge_follows {client : Nat} {random : List Byte} (h : modeFollows s) :
    FollowsOut (execAuthChallenge client random s) := by
  refine .next ?_
  refine .ite ?_ (.ite (.ite (.after (answerLost_quiet (.refl _)) h)
    (.after (modSession_quiet (drawChallenge_quiet (answerLost_quiet (.refl _)))) h)) h)
  refine .ite h ?_
  split
  · exact .after (portEnd_quiet (useSession_quiet (.refl _))) h
  · exact .after (portEnd_quiet (modSession_quiet (drawChallenge_quiet (useSession_quiet (.refl _))))) h

theorem execAuthKey_follows {client : Nat} {key : List Byte} (h : modeFollows s) : FollowsOut (execAuthKey client key s) :=
  .next (objectWrite_follows h)

theorem execAuthSignature_follows {client : Nat} {sig : List Byte} (h : modeFollows s) :
    FollowsOut (execAuthSignature client sig s) :=
  .next (objectWrite_follows h)

theorem execAuthDrop_follows {client : Nat} {v : Byte} (h : modeFollows s) : FollowsOut (execAuthDrop client v s) :=
  .next (objectWrite_follows h)

theorem execImageTarget_follows {client : Nat} {v : Byte} (h : modeFollows s) : FollowsOut (execImageTarget client v s) :=
  .next (objectWrite_follows h)

theorem execImageLength_follows {client : Nat} {v : Word} (h : modeFollows s) : FollowsOut (execImageLength client v s) :=
  .next (objectWrite_follows h)

theorem execImageData_follows {client offset : Nat} {last : Bool} {data : List Byte} (h : modeFollows s) :
    FollowsOut (execImageData client offset last data s) :=
  .next (.ite (.ite (.after (portEnd_quiet (.refl _)) (serveWrite_follows (.after (useSession_quiet (.refl _)) h))) h)
    (.ite (.ite (.after (answerLost_quiet (.refl _)) h) (serveWrite_follows (.after (answerLost_quiet (.refl _)) h))) h))

theorem execImageCheck_follows {client : Nat} {v : Byte} (h : modeFollows s) : FollowsOut (execImageCheck client v s) :=
  .next (objectWrite_follows h)

theorem execRestoreDefaults_follows {client : Nat} {v : Byte} (h : modeFollows s) : FollowsOut (execRestoreDefaults client v s) :=
  .next (objectWrite_follows h)

theorem execStatisticsMark_follows {client : Nat} {v : Byte} (h : modeFollows s) : FollowsOut (execStatisticsMark client v s) :=
  .next (objectWrite_follows h)

theorem execFactoryRequest_follows {client : Nat} {v : Byte} (h : modeFollows s) : FollowsOut (execFactoryRequest client v s) :=
  .next (objectWrite_follows h)

theorem execRaiseVendorFloor_follows {client : Nat} {v : BitVec 16} (h : modeFollows s) :
    FollowsOut (execRaiseVendorFloor client v s) :=
  .next (objectWrite_follows h)

theorem execRaiseCustomerFloor_follows {client : Nat} {v : BitVec 16} (h : modeFollows s) :
    FollowsOut (execRaiseCustomerFloor client v s) :=
  .next (objectWrite_follows h)

theorem execCustomerKeyProvision_follows {client : Nat} {data : List Byte} (h : modeFollows s) :
    FollowsOut (execCustomerKeyProvision client data s) :=
  .next (objectWrite_follows h)

theorem execFactoryPart_follows {client : Nat} {data : List Byte} (h : modeFollows s) :
    FollowsOut (execFactoryPart client data s) :=
  .next (objectWrite_follows h)

theorem execCustomerSectorData_follows {client : Nat} {data : List Byte} (h : modeFollows s) :
    FollowsOut (execCustomerSectorData client data s) :=
  .next (objectWrite_follows h)

/-! ### Machine/Integrity.lean -/

theorem execSramFlip_follows {who : Writer} {v : Word} (h : modeFollows s) : FollowsOut (execSramFlip who v s) :=
  .next (mainCoreOnly_follows (fun hu => .after (writeFlip_quiet (.refl _)) hu) h)

theorem execScrubRead_follows (h : modeFollows s) : FollowsOut (execScrubRead s) :=
  .next (.ite (.after (settle_quiet (scrubOne_quiet (.refl _))) h) h)

theorem execMergeRetire_follows {idx : Nat} (h : modeFollows s) : FollowsOut (execMergeRetire idx s) := by
  refine .checked ?_
  split
  · exact .after (settle_quiet (retire_quiet (.refl _))) h
  · exact h

/-! ### Machine/Interrupts.lean -/

theorem sourceLevel_follows {id : Nat} {lvl : Bool} (h : modeFollows s) : modeFollows (sourceLevel id lvl s) :=
  .ite (.ite (.frame h rfl) (.frame (.frame h rfl) rfl)) (.after (evqLevels_quiet (.refl _)) h)

theorem execSourceEvent_follows {id : Nat} {level : Bool} (h : modeFollows s) : FollowsOut (execSourceEvent id level s) :=
  .checked (sourceLevel_follows h)

theorem softSetOne_follows {who : Writer} {id : Nat} (h : modeFollows s) : modeFollows (softSetOne who id s) := by
  unfold softSetOne
  split
  · split
    · exact .after (raisePriv_quiet (by omega) (.refl _)) h
    · exact h
  · exact .frame h rfl

theorem writePset_follows {who : Writer} {w : Nat} {v : Word} (h : modeFollows s) : modeFollows (writePset who w v s) :=
  .foldl (fun _ _ ht => softSetOne_follows ht) h

theorem execIrqPset_follows {who : Writer} {w : Nat} {v : Word} (h : modeFollows s) : FollowsOut (execIrqPset who w v s) :=
  .checked (writePset_follows h)

theorem writePend_follows {w : Nat} {v : Word} (h : modeFollows s) : modeFollows (writePend w v s) :=
  .foldl (fun _ _ ht => .frame ht rfl) h

theorem execIrqPendClear_follows {w : Nat} {v : Word} (h : modeFollows s) : FollowsOut (execIrqPendClear w v s) :=
  .checked (writePend_follows h)

theorem fireGroups_follows {gs : List Nat} {t' : Nat} (h : modeFollows s) : modeFollows (fireGroups gs t' s) :=
  .after (notify_quiet (.refl _)) (.frame h rfl)

theorem execGroupFire_follows {g t' : Nat} (h : modeFollows s) : FollowsOut (execGroupFire g t' s) :=
  .checked (.ite (.ite (fireGroups_follows (.after (targetIdle_quiet (.refl _)) h)) (.after (targetIdle_quiet (.refl _)) h)) h)

theorem execHoldoffExpiry_follows {g : Nat} (h : modeFollows s) : FollowsOut (execHoldoffExpiry g s) := .checked (.frame h rfl)

theorem tgtStatusBy_follows {who : Writer} {t' : Nat} {v : Word} (h : modeFollows s) : modeFollows (tgtStatusBy who t' v s) :=
  .ite (mainCoreOnly_follows (fun hu => .frame hu rfl) h) (.frame h rfl)

theorem execSignalledClear_follows {who : Writer} {t' : Nat} (h : modeFollows s) : FollowsOut (execSignalledClear who t' s) :=
  .checked (tgtStatusBy_follows h)

theorem execIdleSet_follows {who : Writer} {t' : Nat} (h : modeFollows s) : FollowsOut (execIdleSet who t' s) :=
  .checked (tgtStatusBy_follows h)

theorem execPrivilegedRaise_follows {id : Nat} {detail : List Byte} (h : modeFollows s) :
    FollowsOut (execPrivilegedRaise id detail s) :=
  .checked (.ite (raisePriv_follows h) h)

theorem execEvqEnable_follows {v : Word} (h : modeFollows s) : FollowsOut (execEvqEnable v s) :=
  .next (.ite (.after (writeEvqCfg_quiet (.refl _)) h) h)

theorem execEvqDisable_follows {v : Word} (h : modeFollows s) : FollowsOut (execEvqDisable v s) :=
  .next (.ite h (.after (writeEvqCfg_quiet (.refl _)) h))

theorem execEvqCons_follows {v : Word} (h : modeFollows s) : FollowsOut (execEvqCons v s) :=
  .next (.after (writeEvqCons_quiet (.refl _)) h)

/-! ### Machine/Outage.lean -/

theorem execPwrFail_follows (h : modeFollows s) : FollowsOut (execPwrFail s) :=
  .next (.after (settle_quiet (.refl _)) (powerFails_follows h))

theorem execHoldupDone_follows (h : modeFollows s) : FollowsOut (execHoldupDone s) := by
  have hsettle {u : State} (hu : modeFollows u) : modeFollows (settle u) := .after (settle_quiet (.refl _)) hu
  have hraise {u : State} (hu : modeFollows u) : modeFollows (raiseDone u) := .frame hu rfl
  exact .next (.ite (hsettle (hraise (hsettle h))) h)

theorem execOvAlert_follows (h : modeFollows s) : FollowsOut (execOvAlert s) :=
  .next (.ite h (wake_follows (stageOne_follows (.frame h rfl))))

theorem execOvStage2_follows (h : modeFollows s) : FollowsOut (execOvStage2 s) :=
  .next (.ite (.after (settle_quiet (.refl _)) (stageTwo_follows h)) h)

theorem execVm31Crossing_follows (h : modeFollows s) : FollowsOut (execVm31Crossing s) :=
  .next (.ite h (.after (settle_quiet (.refl _)) (stageTwo_follows (.frame h rfl))))

theorem execOvClear_follows (h : modeFollows s) : FollowsOut (execOvClear s) :=
  .next (.ite h (.after (settle_quiet (.refl _)) (stagesEnd_follows h)))

theorem judgeWarn_follows {t' : ℤ} (h : modeFollows s) : modeFollows (judgeWarn t' s) :=
  .ite (wake_follows (.after (raise_quiet (by omega) (.refl _)) (.frame (.frame h rfl) rfl))) (.frame h rfl)

theorem judgeThrottle_follows {t' : ℤ} (h : modeFollows s) : modeFollows (judgeThrottle t' s) :=
  .ite (.after (raise_quiet (by omega) (.refl _)) (.frame h rfl)) (.frame h rfl)

theorem judgeLatch_follows {temp : Int} (hreset : s.pins.inReset = false) (h : modeFollows s) :
    modeFollows (judgeLatch temp s) :=
  .ite (.after (settle_quiet (.refl _)) (latchSets_follows hreset (.frame h rfl))) (.frame h rfl)

theorem judgeBoot_follows {t' : ℤ} (h : modeFollows s) : modeFollows (judgeBoot t' s) := .ite (.modes rfl h) h

theorem execLatchOpsTimeout_follows (h : modeFollows s) : FollowsOut (execLatchOpsTimeout s) :=
  .next (.ite (.after (settle_quiet (.refl _)) (abandonOps_follows h)) h)

/-! ### Machine/Start.lean -/

/-- Into RESET: BOOT holds, and of the conditions that outrank it at most the latch (R60). -/
theorem intoReset_follows {cold : Bool} {m : Modes} (hm : m.mode = .boot) (hc : resetHolds m) :
    modeFollows (intoReset cold m s) := by
  obtain ⟨hb, hh, hf⟩ := hc
  have hreset : (intoReset cold m s).pins.inReset = true := rfl
  exact ⟨fun hr => absurd (hreset.symm.trans hr) (by decide), fun _ => ⟨hb, hh, hf, .inl hm⟩⟩

theorem coldReset_follows : modeFollows (coldReset s) := intoReset_follows rfl ⟨rfl, rfl, rfl⟩

theorem warmReset_follows {cause : Modes → Modes} (hmode : ∀ m, m.mode = .boot → (cause m).mode = .boot)
    (hc : ∀ m, resetHolds m → resetHolds (cause m)) (h : modeFollows s) : modeFollows (warmReset cause s) :=
  .ite h (intoReset_follows (hmode _ rfl) (hc _ ⟨rfl, rfl, rfl⟩))

theorem execPorNAssert_follows : FollowsOut (execPorNAssert s) := .next coldReset_follows

theorem execRstNAssert_follows (h : modeFollows s) : FollowsOut (execRstNAssert s) :=
  .next (warmReset_follows (fun _ => id) (fun _ => id) h)

theorem execWatchdog_follows (h : modeFollows s) : FollowsOut (execWatchdog s) :=
  .next (warmReset_follows (fun _ => id) (fun _ => id) h)

theorem requestStandby_follows (h : modeFollows s) : modeFollows (requestStandby s) := by
  refine .modes ?_ h
  dsimp only
  split <;> rfl

theorem writeModeCtrl_follows {v : Word} (h : modeFollows s) : modeFollows (writeModeCtrl v s) :=
  .ite h (.ite (warmReset_follows (fun _ => id) (fun _ => id) h) (.ite (requestStandby_follows h) h))

theorem execSoftReset_follows {v : Word} (h : modeFollows s) : FollowsOut (execSoftReset v s) :=
  .next (.ite (writeModeCtrl_follows h) h)

theorem execEnterStandby_follows {v : Word} (h : modeFollows s) : FollowsOut (execEnterStandby v s) :=
  .next (.ite (writeModeCtrl_follows h) h)

theorem execStandbyEntry_follows {ownClear : Bool} (h : modeFollows s) : FollowsOut (execStandbyEntry ownClear s) :=
  .next (.ite (.after (settle_quiet (patrolUpdate_quiet (tellStandby_quiet (.refl _))))
    (setConds_follows (fun _ => id) (.after (saveClocks_quiet (.refl _)) (.modes rfl h)))) h)

theorem execStbyRefused_follows (h : modeFollows s) : FollowsOut (execStbyRefused s) := .next (.ite (.modes rfl h) h)

theorem execAonTimerExpiry_follows (h : modeFollows s) : FollowsOut (execAonTimerExpiry s) :=
  .next (.ite h (wake_follows (.after (raise_quiet (by omega) (.refl _)) h)))

theorem atStage_follows {n : Nat} (h : modeFollows s) : modeFollows (atStage n s) := .modes rfl h

theorem redoErase_follows {ok : Bool} (h : modeFollows s) : modeFollows (redoErase ok s) := by
  unfold redoErase
  dsimp only
  split
  · exact .ite (.after (cabFault_quiet (.refl _)) (.frame (.after (eraseSector_quiet (.refl _)) (.modes rfl h)) rfl))
      (.after (cabFault_quiet (eraseFails_quiet (.refl _))) (.modes rfl h))
  · exact h

theorem bootLinks_follows {b : BootIn} (h : modeFollows s) : modeFollows (bootLinks b s) :=
  .ite (.frame (.frame h rfl) rfl) (.ite (fenceIdentity_follows (.frame (.frame h rfl) rfl))
    (.ite (fenceIdentity_follows (.frame (.frame h rfl) rfl)) (.frame (.frame h rfl) rfl)))

theorem bootTemp_follows {b : BootIn} (h : modeFollows s) : modeFollows (bootTemp b s) :=
  .ite (atStage_follows (.modes rfl (bootRefusal_follows (.frame h rfl)))) (atStage_follows (.frame h rfl))

theorem bootLoads_follows {b : BootIn} (h : modeFollows s) : modeFollows (bootLoads b s) := by
  have hd : modeFollows (bootFirmware (atStage 6 (redoErase b.redoOk (copyTrims s)))).2 :=
    bootFirmware_follows (atStage_follows (redoErase_follows (.frame h rfl)))
  unfold bootLoads
  generalize bootFirmware (atStage 6 (redoErase b.redoOk (copyTrims s))) = d at hd ⊢
  obtain ⟨ok, u⟩ := d
  dsimp only at hd ⊢
  refine .ite ?_ (.frame (.modes rfl hd) rfl)
  have hrest : modeFollows (loadStores (bootCustomer (bootPatch u))) := .frame (bootCustomer_follows (bootPatch_follows hd)) rfl
  exact bootTemp_follows (bootLinks_follows (.frame (.after (countStart_quiet (restoreSaved_quiet (.refl _))) hrest) rfl))

theorem resumeLun_follows {ch ce ty : Nat} {w : LunWait} (h : modeFollows s) : modeFollows (resumeLun ch ce ty s w) := by
  refine .ite h ?_
  extract_lets +onlyGivenNames _ _ s₁
  have hs₁ : modeFollows s₁ := .frame (.frame (.frame (rackCycle_follows (askClamps_follows (.frame h rfl))) rfl) rfl) rfl
  exact .ite (.ite (.frame hs₁ rfl) (.frame (.frame hs₁ rfl) rfl)) (.after (suspectTarget_quiet (.refl _)) hs₁)

theorem findTarget_follows {ch : Nat} {t' : TargetIn} (h : modeFollows s) : modeFollows (findTarget ch s t') :=
  .ite h (.frame (.frame (.after (resetTarget_quiet (.refl _)) (.foldl (fun _ _ ht => resumeLun_follows ht) (.frame h rfl))) rfl) rfl)

theorem trainChan_follows {ch : Nat} {ts : List TargetIn} (h : modeFollows s) : modeFollows (trainChan ch ts s) := by
  have hjig {g : Jig → Jig} {u : State} (hu : modeFollows u) : modeFollows (modJig ch g u) := .frame hu rfl
  unfold trainChan
  extract_lets +onlyGivenNames s₁ s₂ good types rates
  have hs₁ : modeFollows s₁ := .frame (.after (dropMixed_quiet (.refl _)) h) rfl
  have hs₂ : modeFollows s₂ := .foldl (fun _ _ ht => findTarget_follows ht) hs₁
  generalize tryRates (channelMode ch s₂) s₂ rates 0 good = d
  obtain ⟨r, ok⟩ := d
  have htried : modeFollows ((triedRates rates r).foldl (tryRate ch (good.map (·.ce))) s₂) :=
    .foldl (fun _ _ ht => .after (tryRate_quiet (.refl _)) ht) hs₂
  have hset {f : Chan → Chan} : modeFollows (setTimings ch (ok.map (·.ce)) (setRate ch r (modChan ch f
      ((triedRates rates r).foldl (tryRate ch (good.map (·.ce))) s₂)))) :=
    .after (setTimings_quiet (.refl _)) (.frame (.frame htried rfl) rfl)
  exact .ite (.after (configEvent_quiet (.refl _)) (hjig hset)) (hjig hset)

theorem trainChannels_follows {t' : List ChanTrainIn} (h : modeFollows s) : modeFollows (trainChannels t' s) :=
  .frame (.foldl (fun _ _ ht => .ite (trainChan_follows ht) ht) (.after (checkTables_quiet (refuseTypes_quiet (.refl _))) h)) rfl

theorem execTargetReadyTimeout_follows {ch ce : Nat} (h : modeFollows s) : FollowsOut (execTargetReadyTimeout ch ce s) :=
  .checked (.ite (.after (suspectTarget_quiet (resetTarget_quiet (.refl _))) h) h)

/-! ### Machine/Registers.lean -/

theorem clearReg_follows {x1 : Nat} (h : modeFollows s) : modeFollows (clearReg x1 s) := by
  refine .ite (.frame h rfl) ?_
  refine .ite (.frame h rfl) ?_
  refine .ite ?_ (.ite (.frame h rfl) (.ite (.frame h rfl) (.ite (.frame h rfl)
    (.ite (.frame h rfl) (.ite (.frame h rfl) (.ite (.frame h rfl)
    (.ite (.frame h rfl) (.ite (.frame h rfl) (.ite (.frame h rfl)
    (.ite (.frame h rfl) (.ite (.frame h rfl) (.ite (.frame h rfl) (.ite (.frame h rfl) h)))))))))))))
  split
  · exact .frame h rfl
  · exact .frame h rfl
  · exact h

theorem execRegisterReadClear_follows {who : Writer} {wide : Bool} {addr : Nat} (h : modeFollows s) :
    FollowsOut (execRegisterReadClear who wide addr s) := by
  have hsample {a : Nat} {u : State} (hu : modeFollows u) : modeFollows (sampleReg a u).2 :=
    .after (sampleReg_quiet (.refl _)) hu
  have hclear {a : Nat} {u : State} (hu : modeFollows u) :
      modeFollows (if wide then clearReg (a + 4) (clearReg a u) else clearReg a u) :=
    .ite (clearReg_follows (clearReg_follows hu)) (clearReg_follows hu)
  refine .checked (.ite (.after (answerReg_quiet (.refl _)) (hclear ?_)) (.after (answerReg_quiet (.refl _)) h))
  cases wide with
  | true => exact hsample (hsample h)
  | false => exact hsample h

theorem writeGlobal_follows {off : Nat} {v : Word} (h : modeFollows s) : modeFollows (writeGlobal off v s) := by
  unfold writeGlobal
  split
  · exact .modes rfl h
  · exact .modes rfl h
  · exact writeModeCtrl_follows h
  · exact .modes rfl h
  · exact .modes rfl h
  · exact h

theorem writeDictReg_follows {off : Nat} {v : Word} (h : modeFollows s) : modeFollows (writeDictReg off v s) := by
  refine .ite (.frame h rfl) ?_
  split
  · exact portRequest_follows h
  · exact .frame h rfl
  · exact .frame h rfl
  · exact .frame h rfl
  · exact .frame h rfl
  · exact h
  · exact .frame h rfl

theorem writeRing_follows {n off : Nat} {v : Word} {walk : List HostRead} (h : modeFollows s) :
    modeFollows (writeRing n off v walk s) := by
  unfold writeRing
  split
  · exact .ite (.frame h rfl) h
  · exact .ite (.frame h rfl) h
  · exact .ite (.frame h rfl) h
  · exact .after (writeRingCtrl_quiet (.refl _)) h
  · exact .after (doorbell_quiet (.refl _)) (wake_follows h)
  · exact .ite (.frame h rfl) h
  · exact h

theorem writeIrqReg_follows {who : Writer} {off : Nat} {v : Word} (h : modeFollows s) : modeFollows (writeIrqReg who off v s) :=
  .ite (.frame h rfl) (.ite (writePend_follows h) (.ite (writePset_follows h)
    (.ite (.frame h rfl) (.ite (.ite (.frame h rfl) (.frame h rfl)) h))))

theorem writeJigReg_follows {who : Writer} {ch off : Nat} {v : Word} (h : modeFollows s) :
    modeFollows (writeJigReg who ch off v s) := by
  unfold writeJigReg
  extract_lets +onlyGivenNames _
  split
  · extract_lets +onlyGivenNames s₁
    have hs₁ : modeFollows s₁ := .ite (.frame h rfl) h
    exact .ite (.frame hs₁ rfl) hs₁
  · exact .ite (.frame h rfl) h
  · exact .ite (.frame h rfl) h
  · exact h

theorem writeReg_follows {who : Writer} {x2 : Nat} {v : Word} {walk : List HostRead} (h : modeFollows s) :
    modeFollows (writeReg who x2 v walk s) :=
  .ite (writeGlobal_follows h) (.ite (writeDictReg_follows h)
    (.ite (writeRing_follows h) (.ite (writeIrqReg_follows h)
    (.ite (.after (writeEvqReg_quiet (.refl _)) h) (.ite h (.ite (writeJigReg_follows h)
    (.ite (.frame h rfl) (.ite (.frame h rfl) (.ite (.after (writeStripeReg_quiet (.refl _)) h)
    (.ite (.frame h rfl) (.ite (.after (writeFlip_quiet (.refl _)) h)
    (.ite (.frame h rfl) (.ite (storeRead_follows h) h)))))))))))))

theorem writeRegs_follows {who : Writer} {wide : Bool} {x3 : Nat} {v : BitVec 64} {walk : List HostRead} (h : modeFollows s) :
    modeFollows (writeRegs who wide x3 v walk s) :=
  .ite (writeReg_follows h) (.ite (writeReg_follows (writeReg_follows h)) (writeReg_follows (writeReg_follows h)))

theorem execRegisterWrite_follows {who : Writer} {wide : Bool} {addr : Nat} {v : BitVec 64} {walk : List HostRead}
    (h : modeFollows s) : FollowsOut (execRegisterWrite who wide addr v walk s) :=
  .checked (.ite (.after (answerReg_quiet (.refl _)) h) (.ite (.after (answerReg_quiet (.refl _)) h)
    (.after (answerReg_quiet (.refl _)) (writeRegs_follows h))))

/-! ### The ends of housekeeping rounds, of reset and of BOOT -/

theorem applyMode_inReset (s : State) : (applyMode s).pins.inReset = s.pins.inReset :=
  (applyMode_quiet (.refl s) ⟨rfl, rfl⟩).inReset

theorem setConds_inReset (f : Modes → Modes) (s : State) : (setConds f s).pins.inReset = s.pins.inReset :=
  applyMode_inReset { s with modes := f s.modes }

theorem tellStandby_inReset (b : Bool) (s : State) : (tellStandby b s).pins.inReset = s.pins.inReset :=
  (tellStandby_quiet (.refl s)).inReset

theorem reloadTime_quiet (h : Quiet s₀ s) : Quiet s₀ (reloadTime s) :=
  h.irq (fun _ _ => rfl) (fun _ _ => rfl)

theorem wake_inReset (s : State) : (wake s).pins.inReset = s.pins.inReset := by
  have htime {cs : List Chan} : Quiet s { reloadTime s with chans := cs } := .frame (reloadTime_quiet (.refl s)) rfl
  unfold wake
  split
  · rw [tellStandby_inReset, setConds_inReset, htime.inReset]
  · rfl

theorem judgeBoot_inReset (temp : Int) (s : State) : (judgeBoot temp s).pins.inReset = s.pins.inReset := by
  unfold judgeBoot
  split <;> rfl

theorem judgeWarn_inReset (temp : Int) (s : State) : (judgeWarn temp s).pins.inReset = s.pins.inReset := by
  unfold judgeWarn
  extract_lets +onlyGivenNames holds sets _ u
  have hu : u.pins.inReset = s.pins.inReset := rfl
  split
  · rw [wake_inReset, (raise_quiet (by omega) (.refl _)).inReset, ← hu]
  · exact hu

theorem judgeThrottle_inReset (temp : Int) (s : State) : (judgeThrottle temp s).pins.inReset = s.pins.inReset := by
  unfold judgeThrottle
  extract_lets +onlyGivenNames holds sets _ _ u
  have hu : u.pins.inReset = s.pins.inReset := rfl
  split
  · rw [(raise_quiet (by omega) (.refl _)).inReset, hu]
  · exact hu

/-- The judgements of a round before the latch's leave the reset pins alone. -/
theorem judge_inReset (temp : Int) (r : RoundIn) (s : State) :
    (judgeThrottle temp (judgeWarn temp (judgeBoot temp (publishRound r s)))).pins.inReset = s.pins.inReset := by
  rw [judgeThrottle_inReset, judgeWarn_inReset, judgeBoot_inReset]
  rfl

theorem execHkRoundEnd_follows {r : RoundIn} (h : modeFollows s) : FollowsOut (execHkRoundEnd r s) := by
  refine .next ?_
  split
  · exact h
  case isFalse hreset =>
    refine .ite (judgeLatch_follows ?_ (judgeThrottle_follows (judgeWarn_follows (judgeBoot_follows (.frame h rfl))))) ?_
    · rw [judge_inReset]
      exact Bool.eq_false_iff.mpr hreset
    · exact .ite (.after (thermalEvent_quiet (.refl _)) (.frame h rfl)) (.frame h rfl)

/-- The pins, the modes and the scrub's lap as the end of reset sets them (R63). -/
def resetEnds (b : BootIn) (s : State) : State :=
  { s with
    pins := { s.pins with inReset := false }
    modes := { s.modes with
      dieId := if s.modes.porCold then b.dieId else s.modes.dieId
      leadOk := if s.modes.porCold then b.leadOk else s.modes.leadOk
      quarHeld := s.modes.quarantine, factoryReq := false }
    sram := { s.sram with lapStart := s.now } }

theorem bootBegins_eq (b : BootIn) (s : State) : ∃ t, Quiet (resetEnds b s) t ∧ bootBegins b s = atStage 3 t := by
  refine ⟨_, ?_, rfl⟩
  have htime : Quiet (resetEnds b s) (loadTime (resetEnds b s)) := Quiet.irq (.refl _) (fun _ _ => rfl) (fun _ _ => rfl)
  exact logRecord_quiet (raise_quiet (by omega) (.frame htime rfl))

theorem bootBegins_inReset (b : BootIn) (s : State) : (bootBegins b s).pins.inReset = false := by
  obtain ⟨t, q, e⟩ := bootBegins_eq b s
  rw [e]
  exact q.inReset

theorem bootBegins_quarantine (b : BootIn) (s : State) : (bootBegins b s).modes.quarantine = s.modes.quarantine := by
  obtain ⟨t, q, e⟩ := bootBegins_eq b s
  rw [e]
  have hcore := congrArg Modes.quarantine q.modes
  exact hcore

/-- At the end of reset, without the latch, R23 gives BOOT. -/
theorem resetEnds_follows {b : BootIn} (hreset : s.pins.inReset = true) (hlatch : s.modes.quarantine = false)
    (h : modeFollows s) : modeFollows (resetEnds b s) := by
  obtain ⟨hboot, hholdup, hfactory, hmode⟩ := h.2 hreset
  have hprimary : s.modes.primary = .boot := by simp [Modes.primary, hlatch, hholdup, hfactory, hboot]
  have hseen : (resetEnds b s).modes.primary = s.modes.primary := rfl
  have hin : (resetEnds b s).pins.inReset = false := rfl
  refine ⟨fun _ => ?_, fun hr => absurd (hin.symm.trans hr) (by decide)⟩
  rw [hseen, hprimary]
  rcases hmode with hm | hm
  · exact hm
  · exact hm.trans hprimary

theorem bootBegins_follows {b : BootIn} (hreset : s.pins.inReset = true) (hlatch : s.modes.quarantine = false)
    (h : modeFollows s) : modeFollows (bootBegins b s) := by
  obtain ⟨t, q, e⟩ := bootBegins_eq b s
  rw [e]
  exact atStage_follows (.after q (resetEnds_follows hreset hlatch h))

theorem execResetDeassert_follows {b : BootIn} (h : modeFollows s) : FollowsOut (execResetDeassert b s) := by
  refine .next ?_
  split
  · exact h
  case isFalse hstart =>
    have hreset : s.pins.inReset = true := by simp_all
    extract_lets +onlyGivenNames want u
    have hout {v : State} (e : v.pins.inReset = u.pins.inReset) : v.pins.inReset = true → resetHolds v.modes := fun hr =>
      absurd ((bootBegins_inReset b s).symm.trans (e.symm.trans hr)) (by decide)
    split
    · exact applyMode_follows (hout rfl)
    case isFalse hlatch =>
      have hu : modeFollows u :=
        bootBegins_follows hreset ((bootBegins_quarantine b s).symm.trans (Bool.eq_false_iff.mpr hlatch)) h
      refine .ite ?_ (.ite (bootLoads_follows (atStage_follows hu)) (bootRefusal_follows hu))
      extract_lets +onlyGivenNames v
      have hv : v.pins.inReset = u.pins.inReset := by unfold v; split <;> rfl
      exact .frame (applyMode_follows (hout hv)) rfl

theorem execTrainEntry_follows {ins : List ChanTrainIn} (h : modeFollows s) : FollowsOut (execTrainEntry ins s) := by
  refine .next ?_
  split
  case isTrue hstart =>
    have hreset : s.pins.inReset = false := by simp_all
    extract_lets +onlyGivenNames s₁ s₂
    have hs₁ : modeFollows s₁ := .modes rfl (applyMode_follows fun hr => absurd (hreset.symm.trans hr) (by decide))
    have hs₂ : modeFollows s₂ := trainChannels_follows hs₁
    refine .after (settle_quiet (.refl _)) (.ite ?_ (.ite ?_ ?_))
    · exact .after (pendingGrant_quiet (beginRecovery_quiet (.refl _))) hs₂
    · exact .after (endTrain_quiet (readAnchor_quiet (.refl _))) hs₂
    · exact startElection_follows (.after (readAnchor_quiet (.refl _)) hs₂)
  · exact h
/-! ### Every command -/

/-- Every command keeps the order of R23. -/
theorem exec_follows (c : Instr) (h : modeFollows s) : FollowsOut (exec c s) := by
  cases c with
  | porNAssert => exact execPorNAssert_follows
  | rstNAssert => exact execRstNAssert_follows h
  | resetDeassert _ => exact execResetDeassert_follows h
  | trainEntry _ => exact execTrainEntry_follows h
  | targetReadyTimeout _ _ => exact execTargetReadyTimeout_follows h
  | softReset _ => exact execSoftReset_follows h
  | enterStandby _ => exact execEnterStandby_follows h
  | standbyEntry _ => exact execStandbyEntry_follows h
  | stbyRefused => exact execStbyRefused_follows h
  | watchdog => exact execWatchdog_follows h
  | aonTimerExpiry => exact execAonTimerExpiry_follows h
  | ringEnable _ => exact execRingEnable_follows h
  | ringShutdown _ _ => exact execRingShutdown_follows h
  | ringRestart _ => exact execRingRestart_follows h
  | ringDoorbell _ v => exact execRingDoorbell_follows (v := v) h
  | ringFetch _ _ _ => exact execRingFetch_follows h
  | entryCompletion _ => exact execEntryCompletion_follows h
  | writeRow _ _ => exact execWriteRow_follows h
  | read _ _ => exact execRead_follows h
  | releaseGroup _ => exact execReleaseGroup_follows h
  | flush _ => exact execFlush_follows h
  | bind _ => exact execBind_follows h
  | bindReserve => exact execBindReserve_follows h
  | bindWaitEvent _ => exact execBindWaitEvent_follows h
  | unbindForce _ => exact execUnbindForce_follows h
  | rawJig _ _ => exact execRawJig_follows h
  | groupOpen _ => exact execGroupOpen_follows h
  | groupClose _ => exact execGroupClose_follows h
  | rebuildStart _ => exact execRebuildStart_follows h
  | refitStart _ _ => exact execRefitStart_follows h
  | patrolPause _ => exact execPatrolPause_follows h
  | patrolResume _ => exact execPatrolResume_follows h
  | patrolSetRate _ => exact execPatrolSetRate_follows h
  | patrolNewLap _ => exact execPatrolNewLap_follows h
  | accumOpen _ _ => exact execAccumOpen_follows h
  | accumDrainEnd => exact execAccumDrainEnd_follows h
  | accumReturn _ => exact execAccumReturn_follows h
  | nop _ => exact execNop_follows h
  | hostReadDone _ _ => exact execHostReadDone_follows h
  | hostWriteAck _ _ => exact execHostWriteAck_follows h
  | writeDataArrival _ _ _ _ => exact execWriteDataArrival_follows h
  | slotAssign _ => exact execSlotAssign_follows h
  | slotWaitEvent _ => exact execSlotWaitEvent_follows h
  | drawerPlace _ => exact execDrawerPlace_follows h
  | clampGrant => exact execClampGrant_follows h
  | deferEvent _ => exact execDeferEvent_follows h
  | xmChargeRelease _ => exact execXmChargeRelease_follows h
  | jigMicroword _ _ => exact execJigMicroword_follows h
  | mcClampRelease _ => exact execMcClampRelease_follows h
  | jigReload _ _ => exact execJigReload_follows h
  | jigTimerExpiry _ => exact execJigTimerExpiry_follows h
  | statusCapture _ _ => exact execStatusCapture_follows h
  | jigResume _ _ => exact execJigResume_follows h
  | jigStop _ _ => exact execJigStop_follows h
  | jsSel _ => exact execJsSel_follows h
  | codewordEncode _ _ => exact execCodewordEncode_follows h
  | hardDecode _ _ _ _ => exact execHardDecode_follows h
  | softDecode _ _ _ _ => exact execSoftDecode_follows h
  | fusionDecode _ _ _ _ => exact execFusionDecode_follows h
  | predictedThresholds _ => exact execPredictedThresholds_follows h
  | truedThresholds _ => exact execTruedThresholds_follows h
  | retryTable _ => exact execRetryTable_follows h
  | softRead _ => exact execSoftRead_follows h
  | fusion _ => exact execFusion_follows h
  | reconstruction _ _ _ => exact execReconstruction_follows h
  | truingIteration _ => exact execTruingIteration_follows h
  | truingAbandon _ => exact execTruingAbandon_follows h
  | wakeSweep => exact execWakeSweep_follows h
  | doseTick => exact execDoseTick_follows h
  | doseSave => exact execDoseSave_follows h
  | wallClock _ => exact execWallClock_follows h
  | driftTrip _ _ => exact execDriftTrip_follows h
  | retrainDue _ => exact execRetrainDue_follows h
  | retrainSearchEnd _ _ _ => exact execRetrainSearchEnd_follows h
  | searchRestart _ => exact execSearchRestart_follows h
  | journalPageStart => exact execJournalPageStart_follows h
  | journalPageDurable => exact execJournalPageDurable_follows h
  | stripeWinGrant _ => exact execStripeWinGrant_follows h
  | journalRecovery _ => exact execJournalRecovery_follows h
  | windowWriteRetry => exact execWindowWriteRetry_follows h
  | windowReadRetry => exact execWindowReadRetry_follows h
  | dirCacheMiss _ _ => exact execDirCacheMiss_follows h
  | journalCandidates _ _ => exact execJournalCandidates_follows h
  | declareLunFailed _ => exact execDeclareLunFailed_follows h
  | retireMember _ => exact execRetireMember_follows h
  | ledgerClear _ => exact execLedgerClear_follows h
  | rebuildRow _ => exact execRebuildRow_follows h
  | patrolRow _ => exact execPatrolRow_follows h
  | refitRow _ => exact execRefitRow_follows h
  | refitAbort _ => exact execRefitAbort_follows h
  | attach _ => exact execAttach_follows h
  | detach _ => exact execDetach_follows h
  | feed _ => exact execFeed_follows h
  | feedRun _ _ => exact execFeedRun_follows h
  | verifyGood _ => exact execVerifyGood_follows h
  | verifyBad _ => exact execVerifyBad_follows h
  | fragOpen _ => exact execFragOpen_follows h
  | pass _ => exact execPass_follows h
  | passJudge _ _ => exact execPassJudge_follows h
  | fragRead _ => exact execFragRead_follows h
  | fragClose _ => exact execFragClose_follows h
  | mediaReservedMsg _ => exact execMediaReservedMsg_follows h
  | forecast _ => exact execForecast_follows h
  | revoke _ => exact execRevoke_follows h
  | mediaAbort _ => exact execMediaAbort_follows h
  | sidebandIgnored _ => exact execSidebandIgnored_follows h
  | forecastExpiry => exact execForecastExpiry_follows h
  | pwrFail => exact execPwrFail_follows h
  | holdupDone => exact execHoldupDone_follows h
  | ovAlert => exact execOvAlert_follows h
  | ovStage2 => exact execOvStage2_follows h
  | vm31Crossing => exact execVm31Crossing_follows h
  | ovClear => exact execOvClear_follows h
  | droopTrip _ => exact execDroopTrip_follows h
  | droopRestore => exact execDroopRestore_follows h
  | hkRoundEnd _ => exact execHkRoundEnd_follows h
  | latchOpsTimeout => exact execLatchOpsTimeout_follows h
  | linkDown _ => exact execLinkDown_follows h
  | linkTrainRetry port => exact execLinkTrainRetry_follows (port := port) h
  | flitRefused _ => exact execFlitRefused_follows h
  | presence _ _ _ _ => exact execPresence_follows h
  | presenceSend => exact execPresenceSend_follows h
  | claim _ _ _ => exact execClaim_follows h
  | grant _ _ => exact execGrant_follows h
  | heartbeat _ _ _ view _ => exact execHeartbeat_follows (view := view) h
  | heartbeatMiss => exact execHeartbeatMiss_follows h
  | electionBackoff => exact execElectionBackoff_follows h
  | electTimeout => exact execElectTimeout_follows h
  | job _ => exact execJob_follows h
  | jobEnd _ _ _ _ _ => exact execJobEnd_follows h
  | parity _ _ _ _ => exact execParity_follows h
  | codeword _ _ _ _ => exact execCodeword_follows h
  | record _ => exact execRecord_follows h
  | directory _ _ => exact execDirectory_follows h
  | anchor _ => exact execAnchor_follows h
  | media _ _ => exact execMedia_follows h
  | wakeMsg _ => exact execWakeMsg_follows h
  | dvReservedMsg type => exact execDvReservedMsg_follows (type := type) h
  | sourceEvent _ _ => exact execSourceEvent_follows h
  | groupFire _ _ => exact execGroupFire_follows h
  | holdoffExpiry _ => exact execHoldoffExpiry_follows h
  | irqPset _ _ _ => exact execIrqPset_follows h
  | irqPendClear _ _ => exact execIrqPendClear_follows h
  | signalledClear _ _ => exact execSignalledClear_follows h
  | idleSet _ _ => exact execIdleSet_follows h
  | privilegedRaise _ _ => exact execPrivilegedRaise_follows h
  | evqEnable _ => exact execEvqEnable_follows h
  | evqDisable _ => exact execEvqDisable_follows h
  | evqCons _ => exact execEvqCons_follows h
  | logRecordCopy => exact execLogRecordCopy_follows h
  | program _ _ _ _ _ _ => exact execProgram_follows h
  | erase _ _ => exact execErase_follows h
  | suspend _ => exact execSuspend_follows h
  | resume _ => exact execResume_follows h
  | status _ => exact execStatus_follows h
  | count _ _ => exact execCount_follows h
  | markProgram _ _ _ _ => exact execMarkProgram_follows h
  | markLock _ => exact execMarkLock_follows h
  | cabinetOpEnd _ _ => exact execCabinetOpEnd_follows h
  | dictRead _ => exact execDictRead_follows h
  | dictWrite _ => exact execDictWrite_follows h
  | dictDescribe _ => exact execDictDescribe_follows h
  | canRead _ => exact execCanRead_follows h
  | canWrite _ => exact execCanWrite_follows h
  | canDescribe _ => exact execCanDescribe_follows h
  | closeSession _ => exact execCloseSession_follows h
  | canStatusFrame => exact execCanStatusFrame_follows h
  | canEventFrame => exact execCanEventFrame_follows h
  | canSessionTimeout _ => exact execCanSessionTimeout_follows h
  | dictTransferTimeout _ => exact execDictTransferTimeout_follows h
  | busOff => exact execBusOff_follows h
  | busOffRecovery => exact execBusOffRecovery_follows h
  | saveCompaction => exact execSaveCompaction_follows h
  | authRequest _ _ => exact execAuthRequest_follows h
  | authChallenge _ _ => exact execAuthChallenge_follows h
  | authKey _ _ => exact execAuthKey_follows h
  | authSignature _ _ => exact execAuthSignature_follows h
  | authDrop _ _ => exact execAuthDrop_follows h
  | imageTarget _ _ => exact execImageTarget_follows h
  | imageLength _ _ => exact execImageLength_follows h
  | imageData _ _ _ _ => exact execImageData_follows h
  | imageCheck _ _ => exact execImageCheck_follows h
  | restoreDefaults _ _ => exact execRestoreDefaults_follows h
  | statisticsMark _ _ => exact execStatisticsMark_follows h
  | factoryRequest _ _ => exact execFactoryRequest_follows h
  | raiseVendorFloor _ _ => exact execRaiseVendorFloor_follows h
  | raiseCustomerFloor _ _ => exact execRaiseCustomerFloor_follows h
  | customerKeyProvision _ _ => exact execCustomerKeyProvision_follows h
  | factoryPart _ _ => exact execFactoryPart_follows h
  | customerSectorData _ _ => exact execCustomerSectorData_follows h
  | codecInject _ _ => exact execCodecInject_follows h
  | sramFlip _ _ => exact execSramFlip_follows h
  | scrubRead => exact execScrubRead_follows h
  | scrubRewrite => exact execScrubRewrite_follows h
  | mergeRetire _ => exact execMergeRetire_follows h
  | registerReadClear _ _ _ => exact execRegisterReadClear_follows h
  | registerWrite _ _ _ _ _ => exact execRegisterWrite_follows h
  | linkUp _ _ _ => exact execLinkUp_follows h
  | presenceTimeout _ => exact execPresenceTimeout_follows h
  | sbReqLowered => exact execSbReqLowered_follows h
  | errorPassive _ => exact execErrorPassive_follows h

theorem reset_follows : modeFollows State.reset := by
  refine ⟨fun hr => absurd hr (by decide), fun _ => ⟨rfl, rfl, rfl, .inl rfl⟩⟩

/-- Settles O8: reset meets R23, and every command keeps it, because the mode changes only where R23 is applied again. -/
theorem primaryModeFollowsTheConditions : Obligations.PrimaryModeFollowsTheConditions :=
  ⟨reset_follows, fun c _ _ h e => exec_follows c h _ e⟩

end Sys2Proof.Machine

namespace Sys2Proof.Machine

/-! ### Overvoltage, droop and HOLDUP: what suspended erases and the block's own work leave as it is -/

section
variable {s t u : State}

/-- The pins, conditions and times of HOLDUP and of the overvoltage stop are in `t` what they are in `s`. -/
structure PowerKept (s t : State) : Prop where
  now : t.now = s.now
  pwrFail : t.pins.pwrFail = s.pins.pwrFail
  holdupDone : t.pins.holdupDone = s.pins.holdupDone
  ovAlert : t.pins.ovAlert = s.pins.ovAlert
  ovHard : t.pins.ovHard = s.pins.ovHard
  holdup : t.modes.holdup = s.modes.holdup
  fenceOv : t.modes.fenceOv = s.modes.fenceOv
  ovStage : t.power.ovStage = s.power.ovStage
  ovSuspended : t.power.ovSuspended = s.power.ovSuspended
  holdupStart : t.power.holdupStart = s.power.holdupStart
  holdupTime : t.power.holdupTime = s.power.holdupTime
  rack : t.rack = s.rack
  hk : t.hk = s.hk

theorem PowerKept.refl (s : State) : PowerKept s s := ⟨rfl, rfl, rfl, rfl, rfl, rfl, rfl, rfl, rfl, rfl, rfl, rfl, rfl⟩

theorem PowerKept.trans (h : PowerKept s t) (k : PowerKept t u) : PowerKept s u where
  now := k.now.trans h.now
  pwrFail := k.pwrFail.trans h.pwrFail
  holdupDone := k.holdupDone.trans h.holdupDone
  ovAlert := k.ovAlert.trans h.ovAlert
  ovHard := k.ovHard.trans h.ovHard
  holdup := k.holdup.trans h.holdup
  fenceOv := k.fenceOv.trans h.fenceOv
  ovStage := k.ovStage.trans h.ovStage
  ovSuspended := k.ovSuspended.trans h.ovSuspended
  holdupStart := k.holdupStart.trans h.holdupStart
  holdupTime := k.holdupTime.trans h.holdupTime
  rack := k.rack.trans h.rack
  hk := k.hk.trans h.hk

theorem Quiet.powerKept (q : Quiet s t) : PowerKept s t := by
  have hpins {α : Type} (f : Pins → α) := congrArg f q.pins
  have hmodes {α : Type} (f : Modes → α) := congrArg f q.modes
  have hpower {α : Type} (f : Power → α) := congrArg f q.power
  exact ⟨q.now, hpins Pins.pwrFail, hpins Pins.holdupDone, hpins Pins.ovAlert, hpins Pins.ovHard, hmodes Modes.holdup,
    hmodes Modes.fenceOv, hpower Power.ovStage, hpower Power.ovSuspended, hpower Power.holdupStart, hpower Power.holdupTime,
    q.rack, q.hk⟩

/-- R23 applied moves MODE and what follows it, and nothing of these. -/
theorem applyMode_powerKept (s : State) : PowerKept s (applyMode s) := (applyMode_quiet (.refl s) ⟨rfl, rfl⟩).powerKept

theorem settle_powerKept (s : State) : PowerKept s (settle s) := (settle_quiet (.refl s)).powerKept

/-- Suspending the erases adds cycles to the jigs' buses and changes nothing else (R447). -/
theorem suspendCycles_eq (l : List Job) (s : State) :
    ∃ jigs, l.foldl (fun s j => modJig j.ch (fun g => { g with busQ := g.busQ ++ [suspendCycle j s] }) s) s
      = { s with jigs := jigs } := by
  induction l generalizing s with
  | nil => exact ⟨s.jigs, rfl⟩
  | cons j l ih =>
    obtain ⟨jigs, e⟩ := ih (modJig j.ch (fun g => { g with busQ := g.busQ ++ [suspendCycle j s] }) s)
    exact ⟨jigs, e⟩

theorem suspendErases_powerKept (s : State) : PowerKept s (suspendErases s) := by
  obtain ⟨jigs, e⟩ : ∃ jigs, suspendErases s = { s with jigs := jigs } := suspendCycles_eq _ s
  rw [e]
  exact ⟨rfl, rfl, rfl, rfl, rfl, rfl, rfl, rfl, rfl, rfl, rfl, rfl, rfl⟩

theorem flushBegins_powerKept (s : State) : PowerKept s (flushBegins s) := by
  unfold flushBegins
  extract_lets +onlyGivenNames s₁ s₂ s₃ s₄
  have hq : Quiet s s₃ := endWithdrawn_quiet (cutReleases_quiet (.foldl (fun _ _ h => abortEntry_quiet h) (.refl s)))
  have hr : Quiet (suspendErases s₃) (closeFilling (stopServices s₄)) :=
    closeFilling_quiet (stopServices_quiet (.frame (withdraw_quiet (.refl _)) rfl))
  exact hq.powerKept.trans ((suspendErases_powerKept s₃).trans hr.powerKept)

/-! ### O15 -/

/-- The state as the failing supply leaves it before the work stops (R450). -/
def holdupBegun (s : State) : State :=
  dropForecast (setConds (fun m => { m with holdup := true, stbyRequested := false }) { s with
    pins := { s.pins with pwrFail := true }
    power := { s.power with holdupStart := s.now, holdupTime := 0 } })

theorem powerFails_powerKept (hreset : s.pins.inReset = false) (hheld : s.modes.holdup = false) :
    PowerKept (holdupBegun s) (powerFails s) := by
  unfold powerFails
  rw [if_neg (by simp [hreset, hheld])]
  extract_lets +onlyGivenNames old pins power s₁ s₂
  have hstart : PowerKept (holdupBegun s) s₂ := (cabHoldup_quiet (.refl (holdupBegun s))).powerKept
  refine hstart.trans ?_
  clear_value s₂ old
  cases old with
  | boot | factory => exact (retireAll_quiet (.refl s₂)).powerKept
  | quarantine => exact .refl s₂
  | train => exact (stopServices_quiet (.refl s₂)).powerKept
  | _ => exact flushBegins_powerKept s₂

theorem holdupBegun_spec (s : State) : (holdupBegun s).modes.holdup = true ∧ (holdupBegun s).pins.pwrFail = true
    ∧ (holdupBegun s).power.holdupStart = s.now ∧ (holdupBegun s).rack.fcHeld = false := by
  have hk := applyMode_powerKept { s with
    pins := { s.pins with pwrFail := true }
    modes := { s.modes with holdup := true, stbyRequested := false }
    power := { s.power with holdupStart := s.now, holdupTime := 0 } }
  exact ⟨hk.holdup, hk.pwrFail, hk.holdupStart, rfl⟩

/-- pwr_fail_n asserted outside RESET (R46, R450). -/
theorem pwrFail_sets_holdup (hreset : s.pins.inReset = false) : ∃ t, exec .pwrFail s = .next t ∧ t.modes.holdup = true
    ∧ (s.modes.holdup = false → t.pins.pwrFail = true ∧ t.power.holdupStart = s.now ∧ t.rack.fcHeld = false) := by
  refine ⟨settle (powerFails s), rfl, ?_⟩
  have hsettle := settle_powerKept (powerFails s)
  cases hheld : s.modes.holdup with
  | true =>
    have hfails : powerFails s = s := by simp [powerFails, hheld]
    rw [hfails] at hsettle ⊢
    exact ⟨hsettle.holdup.trans hheld, fun h => absurd h (by decide)⟩
  | false =>
    have hk := (powerFails_powerKept hreset hheld).trans hsettle
    obtain ⟨hcond, hpin, hstart, hforecast⟩ := holdupBegun_spec s
    exact ⟨hk.holdup.trans hcond, fun _ => ⟨hk.pwrFail.trans hpin, hk.holdupStart.trans hstart, by rw [hk.rack, hforecast]⟩⟩

/-- holdup_done, once the flush is done (R450, R461). -/
theorem holdupDone_rises (hheld : s.modes.holdup = true) (hdone : s.pins.holdupDone = false) (hlatch : s.power.latchSeq = 0)
    (hflush : flushDone (settle s) = true) :
    ∃ t, exec .holdupDone s = .next t ∧ t.pins.holdupDone = true ∧ t.modes.holdup = true ∧ t.hk = s.hk
      ∧ t.power.holdupTime = satAdd (0 : BitVec 16) ((s.now - s.power.holdupStart) / 10) := by
  have hk := settle_powerKept s
  have hlatch' := (settle_quiet (.refl s)).latch hlatch
  have hallowed : doneAllowed (settle s) = true := by
    simp [doneAllowed, latchAllows, hk.holdup, hk.holdupDone, hheld, hdone, hlatch', hflush]
  have hdoneExec : exec .holdupDone s = .next (settle (raiseDone (settle s))) := congrArg Host.Outcome.next (if_pos hallowed)
  rw [← hk.now, ← hk.holdupStart]
  generalize settle s = v at hk hdoneExec ⊢
  have hk' := settle_powerKept (raiseDone v)
  exact ⟨_, hdoneExec, hk'.holdupDone, hk'.holdup.trans (hk.holdup.trans hheld), hk'.hk.trans hk.hk, hk'.holdupTime⟩

end

/-- Settles O15: what HOLDUP stops and what settling lets go on leave the pins, the conditions and the times alone. -/
theorem holdupBeginsAndEnds : Obligations.HoldupBeginsAndEnds := by
  refine ⟨fun s hreset => pwrFail_sets_holdup hreset, fun s hheld => ?_, fun s => holdupDone_rises⟩
  exact congrArg Host.Outcome.next (if_neg (by simp [doneAllowed, (settle_powerKept s).holdup, hheld]))

end Sys2Proof.Machine

namespace Sys2Proof.Machine

section
variable {s t u : State}

/-! ### The suspend commands of stage 2 (R447) -/

/-- A suspend command on each job's bus keeps what waits there. -/
theorem mem_busQ_suspendCycles (l : List Job) {n : Nat} {b : Bus} (h : b ∈ (jigAt n s).busQ) :
    b ∈ (jigAt n (l.foldl (fun s j => modJig j.ch (fun g => { g with busQ := g.busQ ++ [suspendCycle j s] }) s) s)).busQ := by
  induction l generalizing s with
  | nil => exact h
  | cons j l ih =>
    refine ih ?_
    by_cases hn : j.ch = n
    · subst hn
      by_cases hl : j.ch < s.jigs.length
      · rw [jigAt_modJig s j.ch _ hl]
        exact List.mem_append_left _ h
      · have hnone : (jigAt j.ch s).busQ = [] := by
          simp [jigAt, List.getD_eq_getElem?_getD, List.getElem?_eq_none (Nat.le_of_not_lt hl)]
        rw [hnone] at h
        cases h
    · rw [jigAt_modJig_ne s j.ch n _ hn]
      exact h

theorem suspendCycle_mem (l : List Job) {j : Job} (hj : j ∈ l) (hch : j.ch < s.jigs.length) :
    suspendCycle j s ∈ (jigAt j.ch
      (l.foldl (fun s j => modJig j.ch (fun g => { g with busQ := g.busQ ++ [suspendCycle j s] }) s) s)).busQ := by
  induction l generalizing s with
  | nil => cases hj
  | cons k l ih =>
    rcases List.mem_cons.mp hj with rfl | hj
    · refine mem_busQ_suspendCycles l ?_
      rw [jigAt_modJig s j.ch _ hch]
      exact List.mem_append_right _ (List.mem_singleton_self _)
    · refine ih hj ?_
      exact (List.length_modify ..).symm ▸ hch

/-- Every erase that may be suspended, and is neither cut off nor without clamps, gets its command. -/
theorem suspendCycle_mem_suspendErases {j : Job} (hj : j ∈ s.sched.jobs) (hsusp : suspended s j = true)
    (habort : j.abortReq = false) (hheld : 0 < heldFor j.ch j.lun s) (hch : j.ch < s.jigs.length) :
    suspendCycle j s ∈ (jigAt j.ch (suspendErases s)).busQ := by
  refine suspendCycle_mem _ (List.mem_filter.mpr ⟨hj, ?_⟩) hch
  simp only [hsusp, habort, Bool.not_false, Bool.true_and, bne_iff_ne]
  omega

/-! ### The two stages -/

/-- The state in which stage 2 suspends the erases (R446). -/
def stageTwoOpens (s : State) : State :=
  { s with power := { s.power with
    ovStage := 2, ovEventDone := false, ovSuspended := (s.sched.jobs.filter (suspended s)).map (·.lun) } }

theorem stageTwo_eq (hstage : s.power.ovStage ≠ 2) :
    stageTwo s = setConds (fun m => { m with fenceOv := true }) (suspendErases (stageTwoOpens s)) :=
  if_neg (by simpa using hstage)

/-- Stage 2 sets its fence with R23 applied to it. -/
theorem stageTwo_spec (hstage : s.power.ovStage ≠ 2) :
    (stageTwo s).power.ovStage = 2 ∧ (stageTwo s).modes.fenceOv = true
      ∧ (stageTwo s).modes.mode = (stageTwo s).modes.primary ∧ (stageTwo s).pins.ovHard = s.pins.ovHard
      ∧ (stageTwo s).power.ovSuspended = (s.sched.jobs.filter (suspended s)).map (·.lun) := by
  have hs := suspendErases_powerKept (stageTwoOpens s)
  rw [stageTwo_eq hstage]
  generalize suspendErases (stageTwoOpens s) = v at hs
  have hv := applyMode_powerKept { v with modes := { v.modes with fenceOv := true } }
  exact ⟨hv.ovStage.trans hs.ovStage, hv.fenceOv, applyMode_mode _, hv.ovHard.trans hs.ovHard, hv.ovSuspended.trans hs.ovSuspended⟩

theorem stageTwo_busQ (hstage : s.power.ovStage ≠ 2) {j : Job} (hj : j ∈ s.sched.jobs) (hsusp : suspended s j = true)
    (habort : j.abortReq = false) (hheld : 0 < heldFor j.ch j.lun s) (hch : j.ch < s.jigs.length) :
    suspendCycle j s ∈ (jigAt j.ch (stageTwo s)).busQ := by
  have hmem : suspendCycle j (stageTwoOpens s) ∈ (jigAt j.ch (suspendErases (stageTwoOpens s))).busQ :=
    suspendCycle_mem_suspendErases hj hsusp habort hheld hch
  rw [stageTwo_eq hstage]
  generalize suspendErases (stageTwoOpens s) = v at hmem
  have hv : Quiet { v with modes := { v.modes with fenceOv := true } } (setConds (fun m => { m with fenceOv := true }) v) :=
    applyMode_quiet (.refl _) ⟨rfl, rfl⟩
  have hbus := congrArg Jig.busQ (hv.jigs j.ch).core
  exact hbus.symm ▸ hmem

/-- The block's own work keeps MODE at the primary mode. -/
theorem Quiet.showsPrimary (q : Quiet s t) (hmode : s.modes.mode = s.modes.primary) : t.modes.mode = t.modes.primary := by
  rcases q.mode with hm | ⟨hm, hp⟩
  · exact hm
  · rw [hm, hp, hmode]

theorem settle_mode (hmode : s.modes.mode = s.modes.primary) : (settle s).modes.mode = (settle s).modes.primary :=
  (settle_quiet (.refl s)).showsPrimary hmode

/-- The end of the alert ends both stages and lifts the fence of stage 2 (R448). -/
theorem stagesEnd_spec (s : State) :
    (stagesEnd s).power.ovStage = 0 ∧ (stagesEnd s).pins.ovAlert = false ∧ (stagesEnd s).pins.ovHard = false
      ∧ (s.power.ovStage = 2 → (stagesEnd s).modes.fenceOv = false
        ∧ (stagesEnd s).modes.mode = (stagesEnd s).modes.primary)
      ∧ (s.power.ovStage ≠ 2 → (stagesEnd s).modes.fenceOv = s.modes.fenceOv) := by
  unfold stagesEnd
  extract_lets +onlyGivenNames two _ _ u
  have hu : u.modes.fenceOv = s.modes.fenceOv := rfl
  by_cases hstage : s.power.ovStage = 2
  · rw [if_pos (by simpa [two] using hstage)]
    have hclear := applyMode_powerKept { u with modes := { u.modes with fenceOv := false } }
    have hmode := applyMode_mode { u with modes := { u.modes with fenceOv := false } }
    have hconds : setConds (fun m => { m with fenceOv := false }) u
      = applyMode { u with modes := { u.modes with fenceOv := false } } := rfl
    rw [hconds]
    generalize applyMode { u with modes := { u.modes with fenceOv := false } } = v at hclear hmode
    have hevent : Quiet v (powerEvent 2 v) := powerEvent_quiet (.refl v)
    have hk := hclear.trans hevent.powerKept
    exact ⟨hk.ovStage, hk.ovAlert, hk.ovHard, fun _ => ⟨hk.fenceOv, hevent.showsPrimary hmode⟩, fun h => absurd hstage h⟩
  · rw [if_neg (by simpa [two] using hstage)]
    exact ⟨rfl, rfl, rfl, fun h => absurd h hstage, fun _ => rfl⟩

end

/-- Settles O14: the stages change the power's own state and the fence, and settling leaves both alone. -/
theorem droopAndOvervoltage : Obligations.DroopAndOvervoltage := by
  refine ⟨fun d s hd => ?_, fun s => ⟨_, rfl, rfl, rfl⟩, fun s hreset hstandby => ?_, fun s halert hstage => ?_,
    fun s hreset hstage => ?_, fun s hreset hstage => ?_⟩
  · exact ⟨_, if_pos (by simpa using hd), rfl, rfl, rfl, rfl⟩
  · have hexec : exec .ovAlert s = .next (stageOne { s with pins := { s.pins with ovAlert := true } }) := by
      have hwake : wake (stageOne { s with pins := { s.pins with ovAlert := true } })
          = stageOne { s with pins := { s.pins with ovAlert := true } } := by
        refine if_neg ?_
        unfold stageOne
        split <;> simpa using hstandby
      exact congrArg Host.Outcome.next ((if_neg (by simp [hreset])).trans hwake)
    refine ⟨_, hexec, ?_⟩
    by_cases hstage : s.power.ovStage = 0
    · have hopens : stageOne { s with pins := { s.pins with ovAlert := true } } = { s with
          pins := { s.pins with ovAlert := true }
          power := { s.power with ovStage := 1, ovAlerts := satAdd s.power.ovAlerts 1 } } := if_pos (by simpa using hstage)
      rw [hopens, if_pos hstage, if_pos hstage]
      exact ⟨rfl, rfl, rfl, rfl, rfl⟩
    · have hstays : stageOne { s with pins := { s.pins with ovAlert := true } }
          = { s with pins := { s.pins with ovAlert := true } } := if_neg (by simpa using hstage)
      rw [hstays, if_neg hstage, if_neg hstage]
      exact ⟨rfl, rfl, rfl, rfl, rfl⟩
  · have hne : s.power.ovStage ≠ 2 := by rw [hstage]; decide
    have hexec : exec .ovStage2 s = .next (settle (stageTwo s)) :=
      congrArg Host.Outcome.next (if_pos (by simp [halert, hstage]))
    obtain ⟨htwo, hfence, hmode, -, hsusp⟩ := stageTwo_spec hne
    have hk := settle_powerKept (stageTwo s)
    exact ⟨_, _, hexec, rfl, hk.ovStage.trans htwo, hk.fenceOv.trans hfence, settle_mode hmode, hk.ovSuspended.trans hsusp,
      fun j hj hsusp habort hheld hch => stageTwo_busQ hne hj hsusp habort hheld hch⟩
  · have hexec : exec .vm31Crossing s = .next (settle (stageTwo { s with pins := { s.pins with ovHard := true } })) :=
      congrArg Host.Outcome.next (if_neg (by simp [hreset]))
    obtain ⟨htwo, hfence, hmode, hhard, -⟩ := stageTwo_spec (s := { s with pins := { s.pins with ovHard := true } }) hstage
    have hk := settle_powerKept (stageTwo { s with pins := { s.pins with ovHard := true } })
    exact ⟨_, hexec, hk.ovHard.trans hhard, hk.ovStage.trans htwo, hk.fenceOv.trans hfence, settle_mode hmode⟩
  · have hexec : exec .ovClear s = .next (settle (stagesEnd s)) :=
      congrArg Host.Outcome.next (if_neg (by simpa [hreset] using hstage))
    obtain ⟨hzero, halert, hhard, htwo, hone⟩ := stagesEnd_spec s
    have hk := settle_powerKept (stagesEnd s)
    refine ⟨_, hexec, hk.ovStage.trans hzero, hk.ovAlert.trans halert, hk.ovHard.trans hhard, fun h => ?_, fun h => ?_⟩
    · exact ⟨hk.fenceOv.trans (htwo h).1, settle_mode (htwo h).2⟩
    · exact hk.fenceOv.trans (hone (by rw [h]; decide))

end Sys2Proof.Machine

namespace Sys2Proof.Machine

/-! ### Jigs: what moves the sequence of words (R132, R136) -/

section
variable {s₀ s t u : State} {ch : Nat}

/-- What of a jig its sequencer and its counters hold. -/
def Jig.seqPart (g : Jig) : BitVec 11 × List (BitVec 11) × Trap × BitVec 16 × BitVec 16 := (g.pc, g.stack, g.trap, g.cntA, g.cntB)

/-- No jig's sequencer or counter has moved. -/
structure SeqKept (s t : State) : Prop where
  jigCount : t.jigs.length = s.jigs.length
  seq : ∀ n, (jigAt n t).seqPart = (jigAt n s).seqPart

theorem SeqKept.refl (s : State) : SeqKept s s := ⟨rfl, fun _ => rfl⟩

theorem SeqKept.trans (h : SeqKept s t) (k : SeqKept t u) : SeqKept s u :=
  ⟨k.jigCount.trans h.jigCount, fun n => (k.seq n).trans (h.seq n)⟩

theorem Quiet.seqKept (q : Quiet s t) : SeqKept s t := by
  refine ⟨q.jigCount, fun n => ?_⟩
  have hcore {α : Type} (f : Jig → α) := congrArg f (q.jigs n).core
  have hpc := hcore Jig.pc
  have hstack := hcore Jig.stack
  have htrap := hcore Jig.trap
  have hcntA := hcore Jig.cntA
  have hcntB := hcore Jig.cntB
  exact Prod.ext hpc (Prod.ext hstack (Prod.ext htrap (Prod.ext hcntA hcntB)))

theorem SeqKept.after (q : Quiet t u) (h : SeqKept s t) : SeqKept s u := h.trans q.seqKept

/-- An update of anything but the jigs. -/
theorem SeqKept.other (h : SeqKept s₀ s) (e : t.jigs = s.jigs) : SeqKept s₀ t :=
  h.trans ⟨congrArg List.length e, fun n => by rw [jigAt, e]; rfl⟩

theorem SeqKept.ite {c : Prop} [Decidable c] (hs : SeqKept s₀ s) (ht : SeqKept s₀ t) : SeqKept s₀ (if c then s else t) := by
  split <;> assumption

/-- An update of one jig that leaves its sequencer and its counters alone. -/
theorem SeqKept.modJig {f : Jig → Jig} (hf : ∀ g, (f g).seqPart = g.seqPart) (h : SeqKept s₀ s) :
    SeqKept s₀ (modJig ch f s) := by
  refine h.trans ⟨List.length_modify .., fun n => ?_⟩
  simp only [jigAt, Machine.modJig, List.getD_eq_getElem?_getD, List.getElem?_modify]
  cases s.jigs[n]? with
  | none => rfl
  | some g =>
    by_cases hn : ch = n
    · simp [hn, hf]
    · simp [hn]

theorem SeqKept.pc (h : SeqKept s t) (n : Nat) : (jigAt n t).pc = (jigAt n s).pc := congrArg Prod.fst (h.seq n)

theorem SeqKept.stack (h : SeqKept s t) (n : Nat) : (jigAt n t).stack = (jigAt n s).stack :=
  congrArg (·.2.1) (h.seq n)

theorem SeqKept.trap (h : SeqKept s t) (n : Nat) : (jigAt n t).trap = (jigAt n s).trap :=
  congrArg (·.2.2.1) (h.seq n)

theorem SeqKept.cntA (h : SeqKept s t) (n : Nat) : (jigAt n t).cntA = (jigAt n s).cntA :=
  congrArg (·.2.2.2.1) (h.seq n)

theorem SeqKept.cntB (h : SeqKept s t) (n : Nat) : (jigAt n t).cntB = (jigAt n s).cntB :=
  congrArg (·.2.2.2.2) (h.seq n)

/-! ### The bus cycles -/

theorem modJob_seqKept {job : Nat} {f : Job → Job} (h : SeqKept s₀ s) : SeqKept s₀ (modJob job f s) := .other h rfl

theorem raise_seqKept {id : Nat} (h : SeqKept s₀ s) : SeqKept s₀ (raise id s) := .other h rfl

theorem finishBus_seqKept {b : Bus} {d : List Byte} (h : SeqKept s₀ s) : SeqKept s₀ (finishBus ch b d s) := by
  have htake {kind handle sensing job : Nat} : SeqKept s₀ (takeBurst kind handle sensing job d s) :=
    .after (takeBurst_quiet (.refl _)) h
  have hdraw {n m k : Nat} : SeqKept s₀ (drawQueue n m k s) := .after (drawQueue_quiet (.refl _)) h
  unfold finishBus
  extract_lets +onlyGivenNames s₁
  have hs₁ : SeqKept s₀ s₁ := by
    refine .ite (.ite (.ite htake h) (.ite ?_ h)) (.ite (.modJig (fun _ => rfl) h) (.ite hdraw h))
    exact modJob_seqKept (.modJig (fun _ => rfl) h)
  clear_value s₁
  exact .ite (.modJig (fun _ => rfl) (.after (closeSet_quiet (.refl _)) hs₁)) hs₁

theorem phyRun_seqKept {n : Nat} {d : List Byte} (h : SeqKept s₀ s) : SeqKept s₀ (phyRun ch n d s) := by
  induction n generalizing d s with
  | zero => exact h
  | succ n ih =>
    unfold phyRun
    split
    · exact h
    · exact .ite h (ih (finishBus_seqKept (.modJig (fun _ => rfl) h)))

/-! ### The fields of a word, but its transfer -/

theorem putClamp_seqKept {w : Nat} {x : Sel} (h : SeqKept s₀ s) : SeqKept s₀ (putClamp ch w x s) :=
  .ite (.modJig (fun _ => rfl) h) (.ite (.other h rfl) (.ite (.other h rfl) h))

theorem putPin_seqKept {w : Nat} (h : SeqKept s₀ s) : SeqKept s₀ (putPin ch w s) :=
  .modJig (fun g => by split <;> rfl) h

theorem putSample_seqKept {w : Nat} {g : Jig} {p : JigIn} (h : SeqKept s₀ s) : SeqKept s₀ (putSample ch w g p s) :=
  .ite (.after (driftMeasure_quiet (.refl _)) h) h

theorem startArray_seqKept {kind : Nat} {g : Jig} {x : Sel} (h : SeqKept s₀ s) : SeqKept s₀ (startArray ch kind g x s) := by
  unfold startArray
  extract_lets +onlyGivenNames lun s₁ s₂ s₃
  have hs₁ : SeqKept s₀ s₁ := .modJig (fun _ => rfl) h
  have hs₃ : SeqKept s₀ s₃ := .other hs₁ rfl
  clear_value s₃
  split
  · exact .ite hs₃ (.ite (.after (doseProgram_quiet (.refl _)) hs₃) (.ite (.after (doseErase_quiet (.refl _)) hs₃) hs₃))
  · exact hs₃

theorem askXm_seqKept (h : SeqKept s₀ s) : SeqKept s₀ (askXm ch s) := .ite h (.other h rfl)

theorem putBus_seqKept {w : Nat} {g : Jig} {x : Sel} (h : SeqKept s₀ s) : SeqKept s₀ (putBus ch w g x s) := by
  unfold putBus
  refine .ite h ?_
  extract_lets +onlyGivenNames s₁ b s₂ s₃ s₄
  have hs₁ : SeqKept s₀ s₁ := .ite (.after (applySets_quiet (.refl _)) h) h
  have hs₃ : SeqKept s₀ s₃ := .modJig (fun _ => rfl) (.modJig (fun _ => rfl) hs₁)
  have hs₄ : SeqKept s₀ s₄ := .ite (askXm_seqKept hs₃) hs₃
  split
  · exact startArray_seqKept hs₄
  · exact hs₄

theorem putCodec_seqKept {w : Nat} {g : Jig} (h : SeqKept s₀ s) : SeqKept s₀ (putCodec ch w g s) := by
  unfold putCodec
  extract_lets +onlyGivenNames s₁
  have hs₁ : SeqKept s₀ s₁ := .modJig (fun _ => rfl) h
  refine .ite (.after (startEncoding_quiet (.refl _)) hs₁) (.ite ?_ hs₁)
  split
  · exact .modJig (fun _ => rfl) hs₁
  · exact .modJig (fun _ => rfl) (.after (closeSet_quiet (.refl _)) hs₁)

theorem doPop_seqKept (h : SeqKept s₀ s) : SeqKept s₀ (doPop ch s) := by
  unfold doPop
  extract_lets +onlyGivenNames g i aged s₁ job data raw
  have hs₁ : SeqKept s₀ s₁ := .modJig (fun _ => rfl) h
  refine .ite (.modJig (fun _ => rfl) h) (.ite (.modJig (fun _ => rfl) (.other (s := s₁) hs₁ ?_)) hs₁)
  split <;> rfl

theorem putDrawer_seqKept {w : Nat} (h : SeqKept s₀ s) : SeqKept s₀ (putDrawer ch w s) := by
  unfold putDrawer
  split
  · exact doPop_seqKept h
  · exact .modJig (fun _ => rfl) h
  · exact .modJig (fun g => by split <;> rfl) h
  · exact h

theorem putStat_seqKept {w : Nat} {old : Jig} {x : Sel} (h : SeqKept s₀ s) : SeqKept s₀ (putStat ch w old x s) := by
  unfold putStat
  split
  · exact .modJig (fun _ => rfl) (.other h rfl)
  · exact .modJig (fun _ => rfl) (.other h rfl)
  · exact .modJig (fun _ => rfl) (.other h rfl)
  · exact .after (endJob_quiet (.refl _)) (.other h rfl)
  · exact h

theorem putEvent_seqKept {w : Nat} {old : Jig} (h : SeqKept s₀ s) : SeqKept s₀ (putEvent ch w old s) := by
  unfold putEvent
  extract_lets +onlyGivenNames s₁
  have hs₁ : SeqKept s₀ s₁ := .ite h (raise_seqKept (.modJig (fun _ => rfl) h))
  exact .ite hs₁ (.modJig (fun _ => rfl) hs₁)

end
end Sys2Proof.Machine

namespace Sys2Proof.Machine

section
variable {a b s t v : State} {ch w : Nat} {g : Jig} {x : Sel} {p : JigIn}

/-! ### The cycle as the word sees it: TIMER_DONE as it stood before (R132, R143) -/

theorem exec_jigMicroword (hch : ch < 16) : exec (.jigMicroword ch p) s = .next (settle (jigWord ch p s)) :=
  if_pos (by simpa using hch)

/-- `b` is `a` but for its jigs, of which jig `ch` shows TIMER_DONE `d`. -/
structure SeesDone (ch : Nat) (d : Bool) (a b : State) : Prop where
  rest : b = { a with jigs := b.jigs }
  jigCount : b.jigs.length = a.jigs.length
  jig : jigAt ch b = { jigAt ch a with timerDone := d }

theorem storeWord_congr {n : Nat} (h : (jigAt ch b).store = (jigAt ch a).store) : storeWord ch n b = storeWord ch n a := by
  unfold storeWord
  rw [h]

/-- An upset changes the stored word alone. -/
theorem upsetWord_jig {n : Nat} {mask : BitVec 160} (hch : ch < a.jigs.length) :
    ∃ words, jigAt ch (upsetWord ch n mask a) = { jigAt ch a with store := words } := by
  unfold upsetWord
  split
  · exact ⟨_, rfl⟩
  · exact ⟨_, jigAt_modJig a ch _ hch⟩

theorem SeesDone.upset {d : Bool} {n : Nat} {mask : BitVec 160} (h : SeesDone ch d a b) (hch : ch < a.jigs.length) :
    SeesDone ch d (upsetWord ch n mask a) (upsetWord ch n mask b) := by
  obtain ⟨hrest, hcount, hjig⟩ := h
  have hword : storeWord ch n b = storeWord ch n a := storeWord_congr (by rw [hjig])
  unfold upsetWord
  split
  · exact ⟨hrest, hcount, hjig⟩
  · rw [hword]
    refine ⟨?_, ?_, ?_⟩
    · conv_lhs => rw [hrest]
      rfl
    · simpa [modJig] using hcount
    · rw [jigAt_modJig b ch _ (hcount ▸ hch), jigAt_modJig a ch _ hch, hjig]

/-- The state after the timer has counted, of which `jigNow` keeps TIMER_DONE. -/
def ticked (ch : Nat) (s : State) : State := modJig ch (fun g => { timerTick g with cycles := g.cycles + 1 }) s

theorem ticked_seesDone (hch : ch < s.jigs.length) : SeesDone ch (jigAt ch s).timerDone (ticked ch s)
    (modJig ch (fun g => { timerTick g with cycles := g.cycles + 1, timerDone := g.timerDone }) s) := by
  refine ⟨rfl, by simp [ticked, modJig], ?_⟩
  rw [ticked, jigAt_modJig s ch _ hch, jigAt_modJig s ch _ hch]

/-- The timer's count leaves alone what lets a word begin. -/
theorem timerTick_seqPart (g : Jig) : ∃ timer run done, timerTick g = { g with timer := timer, timerRun := run, timerDone := done } := by
  unfold timerTick
  split
  · split <;> exact ⟨_, _, _, rfl⟩
  · exact ⟨_, _, _, rfl⟩

theorem jigNow_jig (hch : ch < s.jigs.length) : ∃ timer run cycles,
    jigAt ch (modJig ch (fun g => { timerTick g with cycles := g.cycles + 1, timerDone := g.timerDone }) s)
      = { jigAt ch s with timer := timer, timerRun := run, cycles := cycles } := by
  obtain ⟨timer, run, done, e⟩ := timerTick_seqPart (jigAt ch s)
  refine ⟨timer, run, (jigAt ch s).cycles + 1, ?_⟩
  rw [jigAt_modJig s ch _ hch, e]

/-- The clock is gated by the modes, the jobs and the drawer of the channel's jig (R19). -/
theorem chanGated_congr (hmodes : b.modes = a.modes) (hsched : b.sched = a.sched) (hdrawer : (jigAt ch b).drawer = (jigAt ch a).drawer) :
    chanGated ch b = chanGated ch a := by
  have hjobs : runningJobs ch b = runningJobs ch a := by simp [runningJobs, ownLun, hmodes, hsched]
  simp only [chanGated, hmodes, hdrawer, hjobs]

theorem upsetWord_rest {n : Nat} {mask : BitVec 160} : (upsetWord ch n mask a).modes = a.modes
    ∧ (upsetWord ch n mask a).sched = a.sched ∧ (upsetWord ch n mask a).jigs.length = a.jigs.length := by
  unfold upsetWord
  split
  · exact ⟨rfl, rfl, rfl⟩
  · exact ⟨rfl, rfl, List.length_modify ..⟩

theorem jigWord_idle (h : (jigAt ch (phyRun ch p.busDone p.dout s)).state ≠ .running
    ∨ chanGated ch (phyRun ch p.busDone p.dout s) = true) : jigWord ch p s = phyRun ch p.busDone p.dout s := by
  refine if_neg ?_
  rcases h with h | h
  · simp [h]
  · simp [h]

theorem jigWord_runs (hrun : (jigAt ch (phyRun ch p.busDone p.dout s)).state = .running)
    (hclock : chanGated ch (phyRun ch p.busDone p.dout s) = false) :
    jigWord ch p s = jigCycle ch p (phyRun ch p.busDone p.dout s) := if_pos (by simp [hrun, hclock])

theorem jigCycle_stop (hstop : (jigAt ch s).stopReq = true) (hwait : (jigAt ch s).waiting = false)
    (hclamp : (jigAt ch s).clampWait = false) (hstall : (jigAt ch s).stall = 0) :
    jigCycle ch p s = haltJig ch (jigAt ch s).pc.toNat (ticked ch s) := if_pos (by simp [hstop, hwait, hclamp, hstall])

/-- STOP halts the jig at the word that it has reached (R172). -/
theorem haltJig_jig {n : Nat} (hch : ch < s.jigs.length) : ∃ u, Quiet u (haltJig ch n s)
    ∧ jigAt ch u = { jigAt ch s with
        state := .halted, resumeAt := BitVec.ofNat 11 n, stack := [], waiting := false, stall := 0, stopReq := false } := by
  refine ⟨modJig ch (fun g => { g with
    state := .halted, resumeAt := BitVec.ofNat 11 n, stack := [], waiting := false, stall := 0, stopReq := false }) s,
    ?_, jigAt_modJig s ch _ hch⟩
  exact .ite (endJob_quiet (.refl _)) (.refl _)

/-- A machine check stops the jig and records the word (R151, R153). -/
theorem machineCheck_jig {addr quarters : Nat} (hch : ch < s.jigs.length) : ∃ u, Quiet u (machineCheck ch addr quarters s)
    ∧ (jigAt ch u).state = (if (jigAt ch s).state == .fenced then .fenced else .machineCheck) ∧ (jigAt ch u).stack = []
    ∧ (jigAt ch u).drawer = [] ∧ (jigAt ch u).mcClamps = true ∧ (jigAt ch u).mcCount = satAdd (jigAt ch s).mcCount 1
    ∧ (jigAt ch u).mc = { valid := true, addr := BitVec.ofNat 11 addr, quarters := BitVec.ofNat 4 quarters } := by
  unfold machineCheck
  extract_lets +onlyGivenNames jobs s₁ _ _ _ s₂ s₃ s₄ s₅
  have hjig : jigAt ch s₂ = jigAt ch s := rfl
  have hs₃ := jigAt_modJig s₂ ch (fun g => { g with
    state := if g.state == .fenced then .fenced else .machineCheck, stack := [], ce := none, busQ := []
    capture := 0, waiting := false, stall := 0
    clampWait := false, clampGrant := false, mcClamps := true, drawer := [], waitSince := [], lock := none
    curOpen := false, mcCount := satAdd g.mcCount 1, codecAck := false
    mc := { valid := true, addr := BitVec.ofNat 11 addr, quarters := BitVec.ofNat 4 quarters } }) hch
  rw [hjig] at hs₃
  refine ⟨s₃, raisePriv_quiet (by omega) (.foldl (fun _ _ h => abandonSearch_quiet h) (.foldl (fun _ _ h => endJobWith_quiet h)
    (.refl s₃))), ?_⟩
  have hs₃ : jigAt ch s₃ = _ := hs₃
  rw [hs₃]
  exact ⟨rfl, rfl, rfl, rfl, rfl, rfl⟩

/-! ### A word in its first cycle -/

theorem firstCycle_abort {d : Bool} (hg : g = { jigAt ch s with timerDone := d })
    (h : abortsWord ch w g (selOf w g) s = true) : firstCycle ch w d p s = transfer ch w g (.to abortPage g.stack) s := by
  subst hg
  exact if_pos h

theorem firstCycle_trap {d : Bool} {c : Nat} (hg : g = { jigAt ch s with timerDone := d })
    (habort : abortsWord ch w g (selOf w g) s = false) (htrap : earlyTrap ch w g (selOf w g) s = some c) :
    firstCycle ch w d p s = trapJig ch true c s := by
  subst hg
  unfold firstCycle
  dsimp only
  rw [habort, htrap]
  rfl

theorem askClamps_jig {lun n : Nat} (hch : ch < s.jigs.length) :
    jigAt ch (askClamps ch lun n s) = { jigAt ch s with clampWait := true } :=
  jigAt_modJig { s with rack := _ } ch _ hch

/-- A word that stalls: it counts its stall, and asks once for the clamps it waits for (R133, R147). -/
def stalled (ch w : Nat) (g : Jig) (s : State) : State :=
  let t := modJig ch (fun j => { j with stall := BitVec.ofNat 4 (stallOf ch w g (selOf w g) s) }) s
  if asksClamps w && !g.clampWait && !g.clampGrant then askClamps ch (selLun ch (selOf w g) t) (mwClamp w) t else t

theorem firstCycle_stall {d : Bool} (hg : g = { jigAt ch s with timerDone := d })
    (habort : abortsWord ch w g (selOf w g) s = false) (htrap : earlyTrap ch w g (selOf w g) s = none)
    (hstall : stallOf ch w g (selOf w g) s ≠ 0) : firstCycle ch w d p s = stalled ch w g s := by
  subst hg
  unfold firstCycle
  dsimp only
  rw [habort, htrap, if_neg (by decide)]
  exact if_pos (by simpa using hstall)

theorem stalled_jig (hch : ch < s.jigs.length) : ∃ wait, jigAt ch (stalled ch w g s)
    = { jigAt ch s with stall := BitVec.ofNat 4 (stallOf ch w g (selOf w g) s), clampWait := wait } := by
  unfold stalled
  extract_lets +onlyGivenNames t
  have ht : jigAt ch t = { jigAt ch s with stall := BitVec.ofNat 4 (stallOf ch w g (selOf w g) s) } := jigAt_modJig s ch _ hch
  have hlen : ch < t.jigs.length := (List.length_modify ..).symm ▸ hch
  split
  · exact ⟨true, by rw [askClamps_jig hlen, ht]⟩
  · exact ⟨_, ht⟩

/-- A trap ends the word at the trap page and raises the jig's source (R138, R469). -/
theorem trapJig_jig {hard : Bool} {cause : Nat} (hch : ch < s.jigs.length) :
    jigAt ch (trapJig ch hard cause s) = { jigAt ch s with
        trap := { valid := true, kind := hard, cause := BitVec.ofNat 8 cause, addr := (jigAt ch s).pc }
        trapCount := satAdd (jigAt ch s).trapCount 1, stack := [], pc := 0x004, waiting := false, stall := 0
        clampGrant := false }
      ∧ (trapJig ch hard cause s).irq = s.irq.cause (82 + ch) := ⟨jigAt_modJig s ch _ hch, rfl⟩

theorem firstCycle_goes {d : Bool} {n : Nat} {stack : List (BitVec 11)} (hg : g = { jigAt ch s with timerDone := d })
    (habort : abortsWord ch w g (selOf w g) s = false) (htrap : earlyTrap ch w g (selOf w g) s = none)
    (hstall : stallOf ch w g (selOf w g) s = 0)
    (hgo : seqGo w (condOf ch w g (selOf w g) p s) true (seenItem w g s.now) g = .to n stack) :
    firstCycle ch w d p s = transfer ch w g (.to n stack) (applyFields ch w g (selOf w g) p s) := by
  subst hg
  unfold firstCycle
  dsimp only
  rw [habort, htrap, hstall, hgo]
  rfl

theorem transfer_jig {n : Nat} {stack : List (BitVec 11)} (hch : ch < s.jigs.length) :
    jigAt ch (transfer ch w g (.to n stack) s) = { jigAt ch s with
      pc := BitVec.ofNat 11 n, stack := stack, waiting := false, stall := 0
      wp := (jigAt ch s).wp && !(custWord n && !g.inCust) } := jigAt_modJig s ch _ hch

/-- The fields of a word set the counters by the jig at the start of the cycle, and nothing after them moves these (R132). -/
theorem applyFields_counters (hch : ch < s.jigs.length) : (applyFields ch w g x p s).jigs.length = s.jigs.length
    ∧ (jigAt ch (applyFields ch w g x p s)).cntA = countOp (mwCntA w) w g g.cntA
    ∧ (jigAt ch (applyFields ch w g x p s)).cntB = countOp (mwCntB w) w g g.cntB := by
  unfold applyFields
  extract_lets +onlyGivenNames s₁ s₂ s₃ s₄
  have hs₁ : SeqKept s s₁ := .modJig (fun _ => rfl) (.refl s)
  have hs₃ : SeqKept s s₃ := putCodec_seqKept (putBus_seqKept (putSample_seqKept (putPin_seqKept (putClamp_seqKept hs₁))))
  have hdrawer : SeqKept s (putDrawer ch w s₃) := putDrawer_seqKept hs₃
  have hregs := jigAt_modJig (putDrawer ch w s₃) ch (regsAfter w g) (hdrawer.jigCount ▸ hch)
  have hlast : SeqKept s₄ (putEvent ch w g (putStat ch w g x s₄)) := putEvent_seqKept (putStat_seqKept (.refl _))
  have hcount : s₄.jigs.length = s.jigs.length := (List.length_modify ..).trans hdrawer.jigCount
  have hregs : jigAt ch s₄ = regsAfter w g (jigAt ch (putDrawer ch w s₃)) := hregs
  refine ⟨hlast.jigCount.trans hcount, (hlast.cntA ch).trans ?_, (hlast.cntB ch).trans ?_⟩
  · rw [hregs]; rfl
  · rw [hregs]; rfl

end
end Sys2Proof.Machine

namespace Sys2Proof.Machine

section
variable {s t u v : State} {ch w : Nat} {g : Jig} {x : Sel} {p : JigIn}

/-- The block's own work leaves alone what the core of a jig shows. -/
theorem Quiet.jig {α : Type} (q : Quiet s t) (n : Nat) (f : Jig → α) (hf : ∀ g, f g.core = f g := by intro; rfl) :
    f (jigAt n t) = f (jigAt n s) := by
  rw [← hf (jigAt n t), ← hf (jigAt n s), (q.jigs n).core]

/-! ### What a word is judged by does not read the jigs of the state (R132) -/

theorem SeesDone.abortsWord {d : Bool} (h : SeesDone ch d u v) : abortsWord ch w g x v = abortsWord ch w g x u := by
  rw [h.rest]; rfl

theorem SeesDone.earlyTrap {d : Bool} (h : SeesDone ch d u v) : earlyTrap ch w g x v = earlyTrap ch w g x u := by
  rw [h.rest]; rfl

theorem SeesDone.stallOf {d : Bool} (h : SeesDone ch d u v) : stallOf ch w g x v = stallOf ch w g x u := by
  rw [h.rest]; rfl

theorem SeesDone.condOf {d : Bool} (h : SeesDone ch d u v) : condOf ch w g x p v = condOf ch w g x p u := by
  rw [h.rest]; rfl

theorem SeesDone.now {d : Bool} (h : SeesDone ch d u v) : v.now = u.now := by
  rw [h.rest]

theorem SeesDone.irq {d : Bool} (h : SeesDone ch d u v) : v.irq = u.irq := by
  rw [h.rest]

/-- A jig that runs its word: the word it finds, and what it does with it (R132). -/
theorem jigWord_word (hch : ch < s.jigs.length)
    (hv : v = upsetWord ch (jigAt ch (jigNow ch p s)).pc.toNat p.upset (jigNow ch p s)) (hg : g = jigAt ch v)
    (hrun : g.state = .running) (hclock : chanGated ch v = false) (hstop : g.stopReq = false)
    (hw : w = (storeWord ch g.pc.toNat v).toNat) :
    ∃ d u, SeesDone ch d u v ∧ ch < u.jigs.length ∧ jigWord ch p s =
      (if badQuarters w != 0 then machineCheck ch g.pc.toNat (badQuarters w) u
        else if g.waiting then waitCycle ch w d p u else firstCycle ch w d p u) := by
  have hphy : SeqKept s (phyRun ch p.busDone p.dout s) := phyRun_seqKept (.refl s)
  have hlen : ch < (phyRun ch p.busDone p.dout s).jigs.length := hphy.jigCount ▸ hch
  have hruns := jigWord_runs (ch := ch) (p := p) (s := s)
  unfold jigNow at hv
  generalize phyRun ch p.busDone p.dout s = a at hlen hruns hv
  have hticked := ticked_seesDone hlen
  obtain ⟨timer, run, cycles, hnow⟩ := jigNow_jig hlen
  have hmodes : (modJig ch (fun g => { timerTick g with cycles := g.cycles + 1, timerDone := g.timerDone }) a).modes = a.modes := rfl
  have hsched : (modJig ch (fun g => { timerTick g with cycles := g.cycles + 1, timerDone := g.timerDone }) a).sched = a.sched := rfl
  have hcount : (ticked ch a).jigs.length = a.jigs.length := List.length_modify ..
  generalize modJig ch (fun g => { timerTick g with cycles := g.cycles + 1, timerDone := g.timerDone }) a = b
    at hv hticked hnow hmodes hsched
  have hpc : (jigAt ch b).pc = (jigAt ch a).pc := by rw [hnow]
  rw [hpc] at hv
  have hsees := hticked.upset (n := (jigAt ch a).pc.toNat) (mask := p.upset) (hcount.symm ▸ hlen)
  obtain ⟨words, hjig⟩ := upsetWord_jig (n := (jigAt ch a).pc.toNat) (mask := p.upset) (hticked.jigCount ▸ hcount.symm ▸ hlen : ch < b.jigs.length)
  obtain ⟨hmodes', hsched', -⟩ := upsetWord_rest (ch := ch) (a := b) (n := (jigAt ch a).pc.toNat) (mask := p.upset)
  rw [← hv] at hsees hjig hmodes' hsched'
  have hgjig : g = { jigAt ch a with timer := timer, timerRun := run, cycles := cycles, store := words } := by
    rw [hg, hjig, hnow]
  have hgated : chanGated ch v = chanGated ch a :=
    chanGated_congr (hmodes'.trans hmodes) (hsched'.trans hsched) (by rw [← hg, hgjig])
  have hcycle := hruns (by rw [← hrun, hgjig]) (by rw [← hgated, hclock])
  have hlen' : (upsetWord ch (jigAt ch a).pc.toNat p.upset (ticked ch a)).jigs.length = a.jigs.length :=
    upsetWord_rest.2.2.trans hcount
  refine ⟨_, _, hsees, hlen'.symm ▸ hlen, hcycle.trans ?_⟩
  have hgpc : g.pc = (jigAt ch a).pc := by rw [hgjig]
  have hgwait : g.waiting = (jigAt ch a).waiting := by rw [hgjig]
  have hgstop : (jigAt ch a).stopReq = false := by rw [← hstop, hgjig]
  have hword : storeWord ch (jigAt ch a).pc.toNat v
      = storeWord ch (jigAt ch a).pc.toNat (upsetWord ch (jigAt ch a).pc.toNat p.upset (ticked ch a)) :=
    storeWord_congr (by rw [hsees.jig])
  rw [hw, hgpc, hgwait, hword]
  exact if_neg (by simp [hgstop])

/-! ### O36 -/

theorem jigMicroword_idle (hch : ch < 16) (hv : v = phyRun ch p.busDone p.dout s)
    (hidle : (jigAt ch v).state ≠ .running ∨ chanGated ch v = true) :
    ∃ t, exec (.jigMicroword ch p) s = .next t ∧ t = settle v ∧ (jigAt ch t).pc = (jigAt ch s).pc
      ∧ (jigAt ch t).stack = (jigAt ch s).stack ∧ (jigAt ch t).trap = (jigAt ch s).trap
      ∧ (jigAt ch t).cntA = (jigAt ch s).cntA ∧ (jigAt ch t).cntB = (jigAt ch s).cntB := by
  subst hv
  have hword : jigWord ch p s = phyRun ch p.busDone p.dout s := jigWord_idle hidle
  have hkept : SeqKept s (settle (phyRun ch p.busDone p.dout s)) := .after (settle_quiet (.refl _)) (phyRun_seqKept (.refl s))
  exact ⟨_, exec_jigMicroword hch, congrArg settle hword,
    hword ▸ ⟨hkept.pc ch, hkept.stack ch, hkept.trap ch, hkept.cntA ch, hkept.cntB ch⟩⟩

theorem jigMicroword_stop (hch : ch < 16) (hlen : s.jigs.length = 16) (hv : v = jigNow ch p s)
    (hrun : (jigAt ch v).state = .running) (hclock : chanGated ch v = false) (hstop : (jigAt ch v).stopReq = true)
    (hwait : (jigAt ch v).waiting = false) (hclamp : (jigAt ch v).clampWait = false) (hstall : (jigAt ch v).stall = 0) :
    ∃ t, exec (.jigMicroword ch p) s = .next t ∧ (jigAt ch t).state = .halted ∧ (jigAt ch t).stack = []
      ∧ (jigAt ch t).resumeAt = (jigAt ch v).pc ∧ (jigAt ch t).stopReq = false := by
  have hphy : SeqKept s (phyRun ch p.busDone p.dout s) := phyRun_seqKept (.refl s)
  have hlen' : ch < (phyRun ch p.busDone p.dout s).jigs.length := by rw [hphy.jigCount, hlen]; exact hch
  have hruns := jigWord_runs (ch := ch) (p := p) (s := s)
  have hexec := exec_jigMicroword (p := p) (s := s) hch
  unfold jigNow at hv
  generalize phyRun ch p.busDone p.dout s = a at hlen' hruns hv
  obtain ⟨timer, run, cycles, hnow⟩ := jigNow_jig hlen'
  have hgated : chanGated ch v = chanGated ch a := by rw [hv]; exact chanGated_congr rfl rfl (by rw [hnow])
  rw [hv, hnow] at hrun hstop hwait hclamp hstall
  have hcycle := (hruns hrun (hgated ▸ hclock)).trans (jigCycle_stop hstop hwait hclamp hstall)
  have hcount : ch < (ticked ch a).jigs.length := (List.length_modify ..).symm ▸ hlen'
  obtain ⟨u, hq, hjig⟩ := haltJig_jig (n := (jigAt ch a).pc.toNat) hcount
  have hend : Quiet u (settle (jigWord ch p s)) := hcycle ▸ settle_quiet hq
  refine ⟨_, hexec, ?_, ?_, ?_, ?_⟩
  · rw [hend.jig ch Jig.state, hjig]
  · rw [hend.jig ch Jig.stack, hjig]
  · rw [hend.jig ch Jig.resumeAt, hjig, hv, hnow]
    simp
  · rw [hend.jig ch Jig.stopReq, hjig]

/-- What the word in force does to the jig, in the words of O36. -/
theorem jigMicroword_word (hch : ch < 16) (hlen : s.jigs.length = 16)
    (hv : v = upsetWord ch (jigAt ch (jigNow ch p s)).pc.toNat p.upset (jigNow ch p s)) (hg : g = jigAt ch v)
    (hrun : g.state = .running) (hclock : chanGated ch v = false) (hstop : g.stopReq = false)
    (hw : w = (storeWord ch g.pc.toNat v).toNat) :
    ∃ d u, SeesDone ch d u v ∧ g = { jigAt ch u with timerDone := d } ∧ ch < u.jigs.length
      ∧ exec (.jigMicroword ch p) s = .next (settle
        (if badQuarters w != 0 then machineCheck ch g.pc.toNat (badQuarters w) u
          else if g.waiting then waitCycle ch w d p u else firstCycle ch w d p u)) := by
  obtain ⟨d, u, hsees, hcount, hword⟩ := jigWord_word (by rw [hlen]; exact hch) hv hg hrun hclock hstop hw
  exact ⟨d, u, hsees, hg.trans hsees.jig, hcount, hword ▸ exec_jigMicroword hch⟩

end

/-- Settles O36: the sequencer and the counters move by the word alone; its other fields, the ends of jobs and what settling
lets go on leave them where they are. -/
theorem jigRunsOneWord : Obligations.JigRunsOneWord := by
  refine ⟨fun ch p v s hch hv hidle => jigMicroword_idle hch hv hidle,
    fun ch p v s hch hlen hv hrun hclock hstop hwait hclamp hstall =>
      jigMicroword_stop hch hlen hv hrun hclock hstop hwait hclamp hstall,
    fun ch w p v s g x hch hlen hv hg hrun hclock hstop hw hx => ?_⟩
  obtain ⟨d, u, hsees, hjig, hcount, hexec⟩ := jigMicroword_word hch hlen hv hg hrun hclock hstop hw
  subst hx
  have hfirst (hparity : badQuarters w = 0) (hwait : g.waiting = false) :
      exec (.jigMicroword ch p) s = .next (settle (firstCycle ch w d p u)) := by simpa [hparity, hwait] using hexec
  refine ⟨fun hparity => ?_, fun hparity hwait habort => ?_, fun c hparity hwait habort htrap => ?_,
    fun hparity hwait habort htrap hstall => ?_, fun a stack hparity hwait habort htrap hstall hgo => ?_⟩
  · rw [if_pos (by simpa using hparity)] at hexec
    obtain ⟨r, hq, hstate, hstack, hdrawer, hclamps, hcnt, hmc⟩ :=
      machineCheck_jig (addr := g.pc.toNat) (quarters := badQuarters w) hcount
    have hend := settle_quiet hq
    refine ⟨_, hexec, ?_, ?_, ?_, ?_, (hend.jigs ch).drawer hdrawer, ?_⟩
    · rw [hend.jig ch Jig.state, hstate, if_neg]
      rw [hjig] at hrun
      simp only at hrun
      simp [hrun]
    · rw [hend.jig ch Jig.mc, hmc]; simp
    · rw [hend.jig ch Jig.mcCount, hcnt, hjig]
    · rw [hend.jig ch Jig.mcClamps, hclamps]
    · rw [hend.jig ch Jig.stack, hstack]
  · have hdoes := firstCycle_abort (p := p) hjig (hsees.abortsWord ▸ habort)
    have hat := transfer_jig (g := g) (w := w) (n := abortPage) (stack := g.stack) hcount
    have hend := settle_quiet (.refl (transfer ch w g (.to abortPage g.stack) u))
    refine ⟨_, hdoes ▸ hfirst hparity hwait, ?_, ?_, ?_, ?_⟩
    · rw [hend.jig ch Jig.pc, hat]
    · rw [hend.jig ch Jig.stack, hat]
    · rw [hend.jig ch Jig.busQ, hat, hjig]
    · rw [hend.jig ch Jig.trap, hat, hjig]
  · have hdoes := firstCycle_trap (p := p) hjig (hsees.abortsWord ▸ habort) (hsees.earlyTrap ▸ htrap)
    obtain ⟨hat, hirq⟩ := trapJig_jig (hard := true) (cause := c) hcount
    have hend := settle_quiet (.refl (trapJig ch true c u))
    refine ⟨_, hdoes ▸ hfirst hparity hwait, ?_, ?_, ?_, ?_, ?_, ?_⟩
    · rw [hend.jig ch Jig.pc, hat]
    · rw [hend.jig ch Jig.stack, hat]
    · rw [hend.jig ch Jig.trap, hat, hjig]
    · rw [hend.jig ch Jig.trapCount, hat, hjig]
    · rw [hend.pend (82 + ch) ⟨by omega, by omega⟩, hirq, hsees.irq]
    · rw [hend.count (82 + ch) ⟨by omega, by omega⟩, hirq, hsees.irq]
  · have hdoes := firstCycle_stall (p := p) hjig (hsees.abortsWord ▸ habort) (hsees.earlyTrap ▸ htrap) (hsees.stallOf ▸ hstall)
    obtain ⟨wait, hat⟩ := stalled_jig (ch := ch) (w := w) (g := g) (s := u) hcount
    have hend := settle_quiet (.refl (stalled ch w g u))
    have hdoes : firstCycle ch w d p u = stalled ch w g u := hdoes
    refine ⟨_, hdoes ▸ hfirst hparity hwait, ?_, ?_, ?_, ?_, ?_, ?_⟩
    · rw [hend.jig ch Jig.pc, hat, hjig]
    · rw [hend.jig ch Jig.stall, hat, hsees.stallOf]
    · rw [hend.jig ch Jig.j, hat, hjig]
    · rw [hend.jig ch Jig.cntA, hat, hjig]
    · rw [hend.jig ch Jig.cntB, hat, hjig]
    · rw [hend.jig ch Jig.busQ, hat, hjig]
  · have hdoes := firstCycle_goes (p := p) hjig (hsees.abortsWord ▸ habort) (hsees.earlyTrap ▸ htrap) (hsees.stallOf ▸ hstall)
      (by rw [← hsees.condOf, ← hsees.now]; exact hgo)
    obtain ⟨hlen', hcntA, hcntB⟩ := applyFields_counters (w := w) (g := g) (x := selOf w g) (p := p) hcount
    have hat := transfer_jig (g := g) (w := w) (n := a) (stack := stack) (hlen'.symm ▸ hcount)
    have hend := settle_quiet (.refl (transfer ch w g (.to a stack) (applyFields ch w g (selOf w g) p u)))
    refine ⟨_, hdoes ▸ hfirst hparity hwait, ?_, ?_, ?_, ?_, ?_, ?_⟩
    · rw [hend.jig ch Jig.pc, hat]
    · rw [hend.jig ch Jig.stack, hat]
    · rw [hend.jig ch Jig.waiting, hat]
    · rw [hend.jig ch Jig.stall, hat]
    · rw [hend.jig ch Jig.cntA, hat, hcntA]
    · rw [hend.jig ch Jig.cntB, hat, hcntB]

end Sys2Proof.Machine

namespace Sys2Proof.Machine

/-! ### The host ports: a request that is made stays (R33, R35) -/

section
variable {s₀ s t u : State}

/-- Requests taken to the port keep what they ask. -/
theorem mem_admitReqs {n : Nat} {out wait : List HostReq} {r : HostReq} (h : r ∈ out ++ wait) :
    ∃ tag, { r with tag := tag } ∈ (admitReqs n out wait).1 ++ (admitReqs n out wait).2 := by
  induction n generalizing out wait r with
  | zero => exact ⟨r.tag, h⟩
  | succ n ih =>
    cases wait with
    | nil => exact ⟨r.tag, h⟩
    | cons w rest =>
      unfold admitReqs
      split
      · rcases List.mem_append.mp h with h | h
        · exact ih (List.mem_append_left _ (List.mem_append_left _ h))
        · rcases List.mem_cons.mp h with rfl | h
          · obtain ⟨tag, ht⟩ := ih (out := out ++ [{ r with tag := freeTag out }]) (wait := rest)
              (r := { r with tag := freeTag out }) (by simp)
            exact ⟨tag, ht⟩
          · exact ih (List.mem_append_right _ h)
      · exact ⟨r.tag, h⟩

theorem mem_settle_writes {p : HostPorts} {r : HostReq} (h : r ∈ p.writes ++ p.stalled) :
    ∃ tag, { r with tag := tag } ∈ p.settle.writes ++ p.settle.stalled := mem_admitReqs h

theorem mem_settle_reads {p : HostPorts} {r : HostReq} (h : r ∈ p.reads ++ p.rstalled) :
    ∃ tag, { r with tag := tag } ∈ p.settle.reads ++ p.settle.rstalled := mem_admitReqs h

/-- `t` asks for all the writes that `s` asks for. -/
def AsksKept (s t : State) : Prop := ∀ what addr bytes, asks s what addr bytes → asks t what addr bytes

theorem AsksKept.settle {p : HostPorts} (h : ∀ r ∈ s.host.writes ++ s.host.stalled, r ∈ p.writes ++ p.stalled) :
    AsksKept s { s with host := p.settle } := by
  rintro what addr bytes ⟨r, hr, hwhat, haddr, hbytes⟩
  obtain ⟨tag, ht⟩ := mem_settle_writes (h r hr)
  exact ⟨_, ht, hwhat, haddr, hbytes⟩

theorem hostWrite_asksKept {what : HostWhat} {addr : Nat} {bs : List Byte} : AsksKept s (hostWrite what addr bs s) := by
  refine AsksKept.settle fun r hr => ?_
  rw [← List.append_assoc]
  exact List.mem_append_left _ hr

theorem hostReadData_asksKept {what : HostWhat} {addr len : Nat} : AsksKept s (hostReadData what addr len s) :=
  AsksKept.settle fun _ hr => hr

/-- A write that is asked for is asked for. -/
theorem hostWrite_asks (what : HostWhat) (addr : Nat) (bs : List Byte) (s : State) :
    asks (hostWrite what addr bs s) what addr bs := by
  obtain ⟨tag, ht⟩ := mem_settle_writes (p := { s.host with
      issued := s.host.issued + 1
      stalled := s.host.stalled ++ [{ addr := BitVec.ofNat 64 addr, bytes := bs, len := bs.length, what := what }] })
    (r := { addr := BitVec.ofNat 64 addr, bytes := bs, len := bs.length, what := what }) (by simp)
  exact ⟨_, ht, rfl, rfl, rfl⟩

/-! ### Messages over Dovetail (R408, R409) -/

/-- A port but for what it has sent. -/
def Port.core (p : Port) : Port := { p with txSeq := 0, replay := [] }

/-- The Dovetail state but for what it has sent. -/
def Dv.core (d : Dv) : Dv := { d with out := [], discards := 0, recOut := false, east := d.east.core, west := d.west.core }

/-- What the ways to the other blocks are judged by (R409). -/
structure SameRing (s t : State) : Prop where
  modes : t.modes = s.modes
  dv : t.dv.core = s.dv.core

theorem SameRing.peers (h : SameRing s t) : t.dv.peers = s.dv.peers := by have e := congrArg Dv.peers h.dv; exact e

theorem SameRing.up (h : SameRing s t) (p : Side) : (portAt p t).up = (portAt p s).up := by
  cases p with
  | east => have e := congrArg (·.east.up) h.dv; exact e
  | west => have e := congrArg (·.west.up) h.dv; exact e

theorem SameRing.ringFrom (h : SameRing s t) (p : Side) : ringFrom p t = ringFrom p s := by
  simp only [Machine.ringFrom, ringBlocks, h.modes, h.peers]

theorem SameRing.wayUp (h : SameRing s t) (p : Side) (d : Nat) : wayUp p d t = wayUp p d s := by
  have hside (q : Side) (n : Nat) : sideUp q n t = sideUp q n s := by
    have hlinks : t.dv.links = s.dv.links := by have e := congrArg Dv.links h.dv; exact e
    simp only [sideUp, h.modes, hlinks, h.up]
  simp only [Machine.wayUp, hops, h.ringFrom, h.up, hside]

theorem SameRing.route (h : SameRing s t) (d : Nat) : route d t = route d s := by
  simp only [Machine.route, hops, h.ringFrom, h.wayUp] <;> rfl

theorem SameRing.waysOf (h : SameRing s t) (dst : Option (BitVec 3)) : waysOf dst t = waysOf dst s := by
  cases dst with
  | some d => simp only [Machine.waysOf, h.route]
  | none => simp only [Machine.waysOf, ringBlocks, h.modes, h.peers, h.up, h.route] <;> rfl

/-- The message that a block sends. -/
def sentMsg (type : Nat) (dst : Option (BitVec 3)) (payload : List Byte) (s : State) : DvMsg :=
  { type := BitVec.ofNat 8 type, dst := dst, payload := payload, src := s.modes.dieId, ways := waysOf dst s }

theorem sendFlits_fold (m : DvMsg) (l : List Side) (s : State) : ∃ east west,
    l.foldl (sendFlits m) s = { s with dv := { s.dv with east := east, west := west } }
      ∧ east.core = s.dv.east.core ∧ west.core = s.dv.west.core := by
  induction l generalizing s with
  | nil => exact ⟨_, _, rfl, rfl, rfl⟩
  | cons p l ih =>
    obtain ⟨east, west, e, heast, hwest⟩ := ih (sendFlits m s p)
    refine ⟨east, west, e.trans ?_, heast.trans ?_, hwest.trans ?_⟩ <;> cases p <;> rfl

/-- A message changes only what the block has sent: it goes out when a way leads to its destination. -/
theorem dvSend_eq (type : Nat) (dst : Option (BitVec 3)) (payload : List Byte) (s : State) :
    ∃ dv, dvSend type dst payload s = { s with dv := dv } ∧ dv.core = s.dv.core
      ∧ dv.out = (if waysOf dst s = [] then s.dv.out else s.dv.out ++ [sentMsg type dst payload s]) := by
  unfold dvSend
  split
  case h_1 hways => exact ⟨_, rfl, rfl, by rw [if_pos hways]⟩
  case h_2 ways hways =>
    extract_lets +onlyGivenNames m
    obtain ⟨east, west, e, heast, hwest⟩ := sendFlits_fold m (waysOf dst s) { s with dv := { s.dv with out := s.dv.out ++ [m] } }
    refine ⟨_, e, ?_, by rw [if_neg (by simpa using hways)]; rfl⟩
    simp only [Dv.core, heast, hwest]

end
end Sys2Proof.Machine

namespace Sys2Proof.Machine

section
variable {s₀ s t u : State}

/-! ### The media link: what answers to the heads leave as it is -/

/-- The media state but for what the heads hold, what waits and what has gone out to them. -/
def Media.core (m : Media) : Media := { m with heads := [], out := [], beats := [], inQ := [], running := none }

/-- Only the media link and Dovetail have moved, by what goes out over them. -/
structure Sends (s t : State) : Prop where
  rest : t = { s with media := t.media, dv := t.dv }
  media : t.media.core = s.media.core
  pass : ∀ n, (headAt n t).pass = (headAt n s).pass
  dv : t.dv.core = s.dv.core
  out : ∀ x ∈ s.dv.out, x ∈ t.dv.out

theorem Sends.refl (s : State) : Sends s s := ⟨rfl, rfl, fun _ => rfl, rfl, fun _ h => h⟩

theorem Sends.trans (h : Sends s t) (k : Sends t u) : Sends s u := by
  refine ⟨?_, k.media.trans h.media, fun n => (k.pass n).trans (h.pass n), k.dv.trans h.dv, fun x hx => k.out x (h.out x hx)⟩
  rw [k.rest, h.rest]

theorem Sends.ring (h : Sends s t) : SameRing s t := ⟨by rw [h.rest], h.dv⟩

theorem dvSend_sends {type : Nat} {dst : Option (BitVec 3)} {payload : List Byte} (h : Sends s₀ s) :
    Sends s₀ (dvSend type dst payload s) := by
  obtain ⟨dv, e, hcore, hout⟩ := dvSend_eq type dst payload s
  rw [e]
  refine h.trans ⟨rfl, rfl, fun _ => rfl, hcore, fun x hx => ?_⟩
  rw [show ({ s with dv := dv } : State).dv.out = dv.out from rfl, hout]
  split
  · exact hx
  · exact List.mem_append_left _ hx

/-- A head whose pass stays. -/
theorem modHead_pass {h n : Nat} {f : Head → Head} (hf : ∀ x, (f x).pass = x.pass) :
    (headAt n (modHead h f s)).pass = (headAt n s).pass := by
  simp only [headAt, modHead, List.getD_eq_getElem?_getD, List.getElem?_modify]
  cases s.media.heads[n]? with
  | none => rfl
  | some x =>
    by_cases hn : h = n
    · simp [hn, hf]
    · simp [hn]

theorem modHead_sends {n : Nat} {f : Head → Head} (hf : ∀ x, (f x).pass = x.pass) (h : Sends s₀ s) :
    Sends s₀ (modHead n f s) := h.trans ⟨rfl, rfl, fun _ => modHead_pass hf, rfl, fun _ hx => hx⟩

theorem mediaSend_sends {n : Nat} {m : BitVec 64} (h : Sends s₀ s) : Sends s₀ (mediaSend n m s) := by
  unfold mediaSend
  split
  · exact h.trans ⟨rfl, rfl, fun _ => rfl, rfl, fun _ hx => hx⟩
  · exact dvSend_sends h

theorem mediaBeats_sends {n : Nat} {l : List (List Byte)} (h : Sends s₀ s) : Sends s₀ (mediaBeats n l s) := by
  unfold mediaBeats
  split
  · exact h.trans ⟨rfl, rfl, fun _ => rfl, rfl, fun _ hx => hx⟩
  · split
    · exact h
    · exact dvSend_sends h

theorem sendAll_sends {n : Nat} {l : List (BitVec 64)} (h : Sends s₀ s) :
    Sends s₀ (l.foldl (fun s m => mediaSend n m s) s) := by
  induction l generalizing s with
  | nil => exact h
  | cons m l ih => exact ih (mediaSend_sends h)

theorem flushHead_sends {k n : Nat} (h : Sends s₀ s) : Sends s₀ (flushHead k n s) := by
  induction k generalizing s with
  | zero => exact h
  | succ k ih =>
    unfold flushHead
    split
    · split
      · exact ih (sendAll_sends (mediaBeats_sends (sendAll_sends (modHead_sends (fun _ => rfl) h))))
      · exact h
    · exact h

theorem flushAnswers_sends (h : Sends s₀ s) : Sends s₀ (flushAnswers s) := by
  unfold flushAnswers
  generalize List.range 16 = l
  induction l generalizing s with
  | nil => exact h
  | cons n l ih => exact ih (flushHead_sends h)

/-! ### The fragments close (R399) -/

/-- Passes have been cut: only the media link, its counts and Dovetail have moved. -/
structure Cuts (s t : State) : Prop where
  rest : t = { s with media := t.media, dv := t.dv }
  media : ({ t.media with report := s.media.report } : Media).core = s.media.core
  pass : ∀ n, (headAt n s).pass = none → (headAt n t).pass = none
  dv : t.dv.core = s.dv.core
  out : ∀ x ∈ s.dv.out, x ∈ t.dv.out

theorem Cuts.refl (s : State) : Cuts s s := ⟨rfl, rfl, fun _ h => h, rfl, fun _ h => h⟩

theorem Cuts.trans (h : Cuts s t) (k : Cuts t u) : Cuts s u := by
  refine ⟨?_, ?_, fun n hn => k.pass n (h.pass n hn), k.dv.trans h.dv, fun x hx => k.out x (h.out x hx)⟩
  · rw [k.rest, h.rest]
  · have hk := congrArg (fun m : Media => { m with report := s.media.report }) k.media
    exact hk.trans h.media

theorem Sends.cuts (h : Sends s t) : Cuts s t :=
  ⟨h.rest, congrArg (fun m : Media => { m with report := s.media.report }) h.media, fun n hn => (h.pass n).trans hn, h.dv, h.out⟩

theorem modHead_noPass {h n : Nat} {f : Head → Head} (hf : ∀ x, (f x).pass = none) (hn : n = h ∨ (headAt n s).pass = none) :
    (headAt n (modHead h f s)).pass = none := by
  simp only [headAt, modHead, List.getD_eq_getElem?_getD, List.getElem?_modify] at hn ⊢
  cases he : s.media.heads[n]? with
  | none => rfl
  | some x =>
    rw [he] at hn
    by_cases hh : h = n
    · simp [hh, hf]
    · rcases hn with hn | hn
      · exact absurd hn.symm hh
      · simpa [hh] using hn

/-- A pass that is cut is counted and answered, and gone (R399, R400). -/
theorem cutPass_cuts (h : Nat) (s : State) : Cuts s (cutPass h s) ∧ (headAt h (cutPass h s)).pass = none := by
  unfold cutPass
  split
  case h_2 hnone => exact ⟨.refl s, hnone⟩
  case h_1 f _ _ _ =>
    unfold passResult
    extract_lets +onlyGivenNames passes m
    have hgone {f : Head → Head} (hf : ∀ x, (f x).pass = none) : Cuts s (flushAnswers (modHead h f (bumpReport 4 s)))
        ∧ (headAt h (flushAnswers (modHead h f (bumpReport 4 s)))).pass = none := by
      have hsends : Sends (modHead h f (bumpReport 4 s)) (flushAnswers (modHead h f (bumpReport 4 s))) :=
        flushAnswers_sends (.refl _)
      have hcut : Cuts s (modHead h f (bumpReport 4 s)) :=
        ⟨rfl, rfl, fun n hn => modHead_noPass hf (.inr hn), rfl, fun _ hx => hx⟩
      exact ⟨hcut.trans hsends.cuts, (hsends.pass h).trans (modHead_noPass hf (.inl rfl))⟩
    exact hgone (fun _ => rfl)

theorem cutPasses_cuts (l : List Nat) (s : State) : Cuts s (l.foldl (fun s h => cutPass h s) s)
    ∧ ∀ h ∈ l, (headAt h (l.foldl (fun s h => cutPass h s) s)).pass = none := by
  induction l generalizing s with
  | nil => exact ⟨.refl s, fun _ hn => by cases hn⟩
  | cons n l ih =>
    obtain ⟨hcut, hnone⟩ := cutPass_cuts n s
    obtain ⟨hcuts, hall⟩ := ih (cutPass n s)
    refine ⟨hcut.trans hcuts, fun h hh => ?_⟩
    rcases List.mem_cons.mp hh with rfl | hh
    · exact hcuts.pass _ hnone
    · exact hall h hh

/-- Every pass is cut and every fragment closed. -/
theorem closeFrags_spec (s : State) : Cuts { s with media := { s.media with frags := [] } } (closeFrags s)
    ∧ (closeFrags s).media.frags = [] ∧ ∀ h < 16, (headAt h (closeFrags s)).pass = none := by
  obtain ⟨hcuts, hall⟩ := cutPasses_cuts (List.range 16) s
  unfold closeFrags
  generalize (List.range 16).foldl (fun s h => cutPass h s) s = t at hcuts hall
  refine ⟨⟨?_, ?_, hcuts.pass, hcuts.dv, hcuts.out⟩, rfl, fun h hh => hall h (List.mem_range.mpr hh)⟩
  · dsimp only
    conv_lhs => rw [hcuts.rest]
  · exact congrArg (fun m : Media => { m with frags := [] }) hcuts.media

end
end Sys2Proof.Machine

namespace Sys2Proof.Machine

section
variable {s₀ s t u : State}

/-! ### The media messages served while the accumulator is closed (R399) -/

/-- Messages have been served, none of which opened, passed, read or closed a fragment. -/
structure Served (s t : State) : Prop where
  rings : t.rings = s.rings
  modes : t.modes = s.modes
  media : t.media.core = s.media.core
  pass : ∀ n, (headAt n t).pass = (headAt n s).pass
  out : ∀ x ∈ s.dv.out, x ∈ t.dv.out
  asks : AsksKept s t

theorem Served.refl (s : State) : Served s s := ⟨rfl, rfl, rfl, fun _ => rfl, fun _ h => h, fun _ _ _ h => h⟩

theorem Served.trans (h : Served s t) (k : Served t u) : Served s u :=
  ⟨k.rings.trans h.rings, k.modes.trans h.modes, k.media.trans h.media, fun n => (k.pass n).trans (h.pass n),
    fun x hx => k.out x (h.out x hx), fun w a b hq => k.asks w a b (h.asks w a b hq)⟩

theorem AsksKept.of_host (e : t.host = s.host) : AsksKept s t := by
  intro what addr bytes h
  rw [Machine.asks, e]
  exact h

theorem Sends.served (h : Sends s t) : Served s t :=
  ⟨by rw [h.rest], by rw [h.rest], h.media, h.pass, h.out, .of_host (by rw [h.rest])⟩

/-- What `Served` says of the media state and of Dovetail. -/
def servedParts (m : Media) (d : Dv) : Media × List Head × List DvMsg := (m.core, m.heads, d.out)

/-- An update of what `Served` does not speak of. -/
theorem Served.frame {pending : List Instr} {freeCtr : Nat} {now : Nat} {pins : Pins} {sched : Sched} {regs : RegPort}
    {rack : Rack} {power : Power} {hk : Hk} {storeImage : List (Nat × BitVec 160)} {jigs : List Jig} {chans : List Chan}
    {codec : Codec} {recov : Recov} {luns : List (Nat × LunRec)} {stripe : Stripe} {bg : Bg} {media : Media} {dv : Dv}
    {irq : Irq} {evq : Evq} {dict : Dict} {cab : Cabinet} {sram : Sram} {stats : Stats}
    (h : Served s₀ s) (e : servedParts media dv = servedParts s.media s.dv) :
    Served s₀ { s with
      pending := pending, freeCtr := freeCtr, now := now, pins := pins, sched := sched, regs := regs, rack := rack
      power := power, hk := hk, storeImage := storeImage, jigs := jigs, chans := chans, codec := codec, recov := recov
      luns := luns, stripe := stripe, bg := bg, media := media, dv := dv, irq := irq, evq := evq, dict := dict, cab := cab
      sram := sram, stats := stats } := by
  simp only [servedParts, Prod.mk.injEq] at e
  obtain ⟨hmedia, hheads, hout⟩ := e
  refine h.trans ⟨rfl, rfl, hmedia, fun n => ?_, fun x hx => ?_, .of_host rfl⟩
  · simp only [headAt, hheads]
  · exact hout.symm ▸ hx

theorem Served.ite {c : Prop} [Decidable c] {a b : State} (ha : Served s₀ a) (hb : Served s₀ b) :
    Served s₀ (if c then a else b) := by split <;> assumption

theorem Served.foldl {α : Type _} {f : State → α → State} {l : List α} (hf : ∀ s a, Served s₀ s → Served s₀ (f s a))
    (h : Served s₀ s) : Served s₀ (l.foldl f s) := by
  induction l generalizing s with
  | nil => exact h
  | cons a l ih => exact ih (hf s a h)

/-- A message that may not be served now. -/
def ServedIf (s₀ : State) (o : Option State) : Prop := ∀ t, o = .some t → Served s₀ t

theorem ServedIf.some (h : Served s₀ s) : ServedIf s₀ (.some s) := by rintro _ ⟨⟩; exact h

theorem ServedIf.none : ServedIf s₀ .none := by intro _ e; cases e

theorem ServedIf.ite {c : Prop} [Decidable c] {a b : Option State} (ha : ServedIf s₀ a) (hb : ServedIf s₀ b) :
    ServedIf s₀ (if c then a else b) := by split <;> assumption

theorem hostWrite_served {what : HostWhat} {addr : Nat} {bs : List Byte} (h : Served s₀ s) :
    Served s₀ (hostWrite what addr bs s) :=
  h.trans ⟨rfl, rfl, rfl, fun _ => rfl, fun _ hx => hx, hostWrite_asksKept⟩

theorem hostReadData_served {what : HostWhat} {addr len : Nat} (h : Served s₀ s) :
    Served s₀ (hostReadData what addr len s) :=
  h.trans ⟨rfl, rfl, rfl, fun _ => rfl, fun _ hx => hx, hostReadData_asksKept⟩

theorem dvSend_served {type : Nat} {dst : Option (BitVec 3)} {payload : List Byte} (h : Served s₀ s) :
    Served s₀ (dvSend type dst payload s) := h.trans (dvSend_sends (.refl s)).served

theorem mediaSend_served {n : Nat} {m : BitVec 64} (h : Served s₀ s) : Served s₀ (mediaSend n m s) :=
  h.trans (mediaSend_sends (.refl s)).served

theorem flushAnswers_served (h : Served s₀ s) : Served s₀ (flushAnswers s) := h.trans (flushAnswers_sends (.refl s)).served

theorem modHead_served {n : Nat} {f : Head → Head} (hf : ∀ x, (f x).pass = x.pass) (h : Served s₀ s) :
    Served s₀ (modHead n f s) := h.trans (modHead_sends hf (.refl s)).served

end
end Sys2Proof.Machine

namespace Sys2Proof.Machine
variable {s₀ s : State}

/-! ### Machine/Sched.lean -/

theorem resolveFeats_served {j : Job} (h : Served s₀ s) : Served s₀ (resolveFeats j s).2 := by
  unfold resolveFeats
  extract_lets +onlyGivenNames _ _
  split
  · exact .frame h rfl
  · split
    · exact h
    · split <;> exact .frame h rfl

theorem sendJob_served {j : Job} (h : Served s₀ s) : Served s₀ (sendJob j s) := dvSend_served (resolveFeats_served (.frame h rfl))

theorem addJob_served {j : Job} (h : Served s₀ s) : Served s₀ (addJob j s).2 := by
  unfold addJob
  extract_lets +onlyGivenNames _ _ _ _
  split
  · exact .frame h rfl
  · exact sendJob_served (.frame h rfl)

/-! ### Machine/Stripe.lean -/

theorem winPut_served {p : Nat × List Byte} (h : Served s₀ s) : Served s₀ (winPut s p) :=
  .ite (.frame h rfl) (.ite (.frame (.frame h rfl) rfl) (hostWrite_served (.frame h rfl)))

theorem winPutAll_served {off : Nat} {bs : List Byte} (h : Served s₀ s) : Served s₀ (winPutAll off bs s) :=
  .foldl (fun _ _ ht => winPut_served ht) h

theorem winWrite_served {off : Nat} {bs : List Byte} (h : Served s₀ s) : Served s₀ (winWrite off bs s) :=
  .ite (winPutAll_served h) h

theorem writeDir_served {g : Nat} {f : DirEntry → DirEntry} (h : Served s₀ s) : Served s₀ (writeDir g f s) :=
  winWrite_served (.frame (.ite (dvSend_served h) h) rfl)

theorem addRec_served {r : BitVec 256} (h : Served s₀ s) : Served s₀ (addRec r s) :=
  .ite (dvSend_served (.frame h rfl)) (.frame h rfl)

/-! ### Machine/Thresholds.lean -/

theorem readDose_served {u b : Nat} (h : Served s₀ s) : Served s₀ (readDose u b s) := hostReadData_served h

theorem useDose_served {u b : Nat} (h : Served s₀ s) : Served s₀ (useDose u b s).2 := by
  unfold useDose
  split
  · exact h
  · split
    · exact .frame h rfl
    · split
      · exact h
      · exact readDose_served h

theorem addPageJob_served {owner : Owner} {p : Page} {mask slot prio step : Nat} {feats : List (Nat × Nat)} {items : List (BitVec 128)}
    (h : Served s₀ s) : Served s₀ (addPageJob owner p mask slot prio step feats items s).2 :=
  addJob_served (useDose_served h)

theorem addRead_served {owner : Owner} {p : Page} {mask slot prio step tag : Nat} {off : List ℤ} (h : Served s₀ s) :
    Served s₀ (addRead owner p mask slot prio step tag off s).2 :=
  addPageJob_served (.ite (.frame h rfl) h)

/-! ### Machine/Media.lean -/

theorem setBind_served {i : Nat} {b : BindEntry} (h : Served s₀ s) : Served s₀ (setBind i b s) :=
  addRec_served (winWrite_served (.frame (.frame h rfl) rfl))

theorem clearBind_served {i : Nat} (h : Served s₀ s) : Served s₀ (clearBind i s) := addRec_served (winWrite_served (.frame h rfl))

theorem trimBind_served {first n : Nat} {p : Nat × BindEntry} (h : Served s₀ s) : Served s₀ (trimBind first n s p) := by
  refine .ite (clearBind_served h) ?_
  refine .ite (setBind_served h) ?_
  refine .ite (setBind_served h) ?_
  split
  · exact setBind_served (setBind_served h)
  · exact h

theorem unbindRange_served {g first n : Nat} {job : Word} (h : Served s₀ s) : Served s₀ (unbindRange g first n job s).2 :=
  .ite (writeDir_served (.foldl (fun _ _ ht => trimBind_served ht) h)) (.foldl (fun _ _ ht => trimBind_served ht) h)

theorem answer_served {x1 : Nat} {x2 : Ans} (h : Served s₀ s) : Served s₀ (answer x1 x2 s) :=
  flushAnswers_served (modHead_served (fun _ => rfl) h)

theorem ack_served {m : BitVec 64} (h : Served s₀ s) : Served s₀ (ack m s) := answer_served h

theorem nak_served {m : BitVec 64} {reason : Nat} (h : Served s₀ s) : Served s₀ (nak m reason s) := answer_served h

theorem startUnit_served {x1 g : Nat} {u : Nat × Nat} (h : Served s₀ s) : ServedIf s₀ (startUnit x1 g u s) := by
  unfold startUnit
  dsimp only
  split
  · exact .none
  · exact .ite (.some (.frame h rfl)) (.some (.frame (addRead_served h) rfl))

theorem unitRead_served {x1 : Nat} {f : Feed} {u : Nat × Nat} {rest : List (Nat × Nat)} (h : Served s₀ s) :
    Served s₀ (unitRead x1 f u rest s) :=
  modHead_served (fun _ => rfl) h

theorem nextUnit_served {x1 : Nat} (h : Served s₀ s) : ServedIf s₀ (nextUnit x1 s) := by
  unfold nextUnit
  split
  · split
    · refine .ite .none ?_
      split
      case h_1 t e => exact .some (unitRead_served (startUnit_served h t e))
      case h_2 => exact .none
    · exact .none
  · exact .none

theorem pumpFeed_served {n hd : Nat} (h : Served s₀ s) : Served s₀ (pumpFeed n hd s) := by
  induction n generalizing s with
  | zero => exact h
  | succ n ih =>
    unfold pumpFeed
    split
    case h_1 t e => exact ih (nextUnit_served h t e)
    case h_2 => exact h

theorem pumpFeeds_served (h : Served s₀ s) : Served s₀ (pumpFeeds s) := .foldl (fun _ _ ht => pumpFeed_served ht) h

theorem feedDone_served {x1 : Nat} {f : Feed} (h : Served s₀ s) : Served s₀ (feedDone x1 f s) :=
  flushAnswers_served (modHead_served (fun _ => rfl) h)

theorem cutFeed_served {x1 : Nat} (h : Served s₀ s) : Served s₀ (cutFeed x1 s) := by
  unfold cutFeed
  dsimp only
  split
  · exact h
  · refine feedDone_served ?_
    refine .frame ?_ rfl
    split
    · exact .frame (.frame (mediaSend_served h) rfl) rfl
    · exact .frame h rfl

theorem serveAttach_served {m : BitVec 64} (h : Served s₀ s) : Served s₀ (serveAttach m s) :=
  .ite (nak_served h) (.ite (nak_served h) (ack_served (modHead_served (fun _ => rfl) h)))

theorem serveDetach_served {m : BitVec 64} (h : Served s₀ s) : Served s₀ (serveDetach m s) :=
  ack_served (modHead_served (fun _ => rfl) (cutFeed_served h))

theorem serveFeed_served {m : BitVec 64} (h : Served s₀ s) : Served s₀ (serveFeed m s) := by
  unfold serveFeed
  extract_lets +onlyGivenNames _ _ _ _ _
  split
  · exact mediaSend_served h
  · exact nak_served h
  · extract_lets +onlyGivenNames s₁
    have hs₁ : Served s₀ s₁ := answer_served (modHead_served (fun _ => rfl) h)
    exact .ite (feedDone_served hs₁) (pumpFeeds_served hs₁)

theorem serveVerifyGood_served {m : BitVec 64} (h : Served s₀ s) : Served s₀ (serveVerifyGood m s) := by
  unfold serveVerifyGood
  dsimp only
  split
  · exact nak_served h
  · exact .ite (nak_served h) (.ite (nak_served h) (answer_served
      (.frame (modHead_served (fun _ => rfl) (addRec_served (unbindRange_served h))) rfl)))

theorem serveVerifyBad_served {m : BitVec 64} (h : Served s₀ s) : Served s₀ (serveVerifyBad m s) := by
  unfold serveVerifyBad
  dsimp only
  split
  · exact nak_served h
  · exact ack_served (.frame (.frame (modHead_served (fun _ => rfl) h) rfl) rfl)


end Sys2Proof.Machine

namespace Sys2Proof.Machine

section
variable {s₀ s t : State} {e : Entry} {eid op : Nat}

/-! ### The queue of a closed accumulator (R399) -/

theorem Served.closed (h : Served s₀ s) (hclosed : s₀.media.accum ≠ 2) (n : Nat) : accOpenTo n s = false := by
  have haccum := congrArg Media.accum h.media
  have hne : s.media.accum ≠ 2 := fun hs => hclosed (haccum.symm.trans hs)
  rw [accOpenTo, beq_eq_false_iff_ne.mpr hne, Bool.false_and]

theorem serveMessage_served {m : BitVec 64} (hclosed : s₀.media.accum ≠ 2) (h : Served s₀ s) :
    Served s₀ (serveMessage m s) := by
  have hopen : serveFragOpen m s = nak m 6 s := if_pos (by simp [h.closed hclosed])
  have hpass : servePass m s = nak m 6 s := if_pos (by simp [h.closed hclosed])
  have hread : serveFragRead m s = nak m 6 s := if_pos (by simp [h.closed hclosed])
  have hclose : serveFragClose m s = nak m 6 s := if_pos (by simp [h.closed hclosed])
  unfold serveMessage
  rw [hopen, hpass, hread, hclose]
  refine .ite (nak_served h) ?_
  split
  · exact serveAttach_served h
  · exact serveDetach_served h
  · exact serveFeed_served h
  · exact serveVerifyGood_served h
  · exact serveVerifyBad_served h
  all_goals exact nak_served h

theorem serveQueue_served {n : Nat} (hclosed : s₀.media.accum ≠ 2) (h : Served s₀ s) : Served s₀ (serveQueue n s) := by
  induction n generalizing s with
  | zero => exact h
  | succ n ih =>
    unfold serveQueue
    split
    · exact h
    · exact .ite h (ih (serveMessage_served hclosed (.frame h rfl)))

/-! ### An entry whose turn has come (R114, R323) -/

theorem dispatch_turn {f : Entry → State → State} (h : turn s eid op e) : dispatch eid op s f = f e (looked e s) := by
  obtain ⟨hentry, hop, hmay, hready⟩ := h
  unfold dispatch
  rw [hentry]
  refine if_pos ?_
  rcases hready with hready | hready <;> simp [hop, hmay, hready]

/-- The directory entries used come into the cache; nothing else changes. -/
theorem looked_eq (e : Entry) (s : State) : ∃ cache lines,
    looked e s = { s with stripe := { s.stripe with cache := cache, lines := lines } } := by
  have hfold (l : List Nat) (s : State) : ∃ cache lines,
      l.foldl (fun s g => if g < s.stripe.dirEntries then cacheTouch g s else s) s
        = { s with stripe := { s.stripe with cache := cache, lines := lines } } := by
    induction l generalizing s with
    | nil => exact ⟨_, _, rfl⟩
    | cons g l ih =>
      by_cases hg : g < s.stripe.dirEntries
      · obtain ⟨cache, lines, e⟩ := ih (cacheTouch g s)
        exact ⟨cache, lines, by rw [List.foldl_cons, if_pos hg, e]; rfl⟩
      · obtain ⟨cache, lines, e⟩ := ih s
        exact ⟨cache, lines, by rw [List.foldl_cons, if_neg hg, e]⟩
  unfold looked dispatch.cacheAll
  split
  · exact hfold _ s
  · exact ⟨_, _, rfl⟩

theorem entryAt_congr (h : t.sched = s.sched) : entryAt eid t = entryAt eid s := by rw [entryAt, h, entryAt]

theorem entryAt_modEntry {f : Entry → Entry} (hf : ∀ x, (f x).eid = x.eid) (h : entryAt eid s = some e) :
    entryAt eid (modEntry eid f s) = some (f e) := by
  have heid : (e.eid == eid) = true := by simpa using List.find?_some h
  have hcomp : ((fun x : Entry => x.eid == eid) ∘ fun x => if x.eid == eid then f x else x) = fun x => x.eid == eid := by
    funext x
    simp only [Function.comp]
    split <;> simp [hf]
  unfold entryAt at h ⊢
  rw [modEntry, List.find?_map, hcomp, h, Option.map_some, if_pos heid]

end
end Sys2Proof.Machine

namespace Sys2Proof.Machine

section
variable {s t : State} {e : Entry} {eid : Nat}

/-! ### ACCUM_OPEN (R394, R420) -/

/-- The other blocks are told, and waited for, when there are any (R420). -/
theorem tellAccums_eq (handle : Nat) (body : List Byte) (s : State) : ∃ wait dv,
    tellAccums handle body s = { s with media := { s.media with accWait := wait }, dv := dv } ∧ dv.core = s.dv.core
      ∧ (otherBlocks s = 0 → wait = s.media.accWait ∧ dv = s.dv)
      ∧ (otherBlocks s ≠ 0 → wait = otherBlocks s
        ∧ (waysOf none s ≠ [] → ∃ x ∈ dv.out, x.type = 0x10 ∧ x.dst = none ∧ x.payload = le 2 handle ++ body)) := by
  unfold tellAccums
  by_cases hother : otherBlocks s = 0
  · rw [if_pos (by simpa using hother)]
    exact ⟨_, _, rfl, rfl, fun _ => ⟨rfl, rfl⟩, fun h => absurd hother h⟩
  · rw [if_neg (by simpa using hother)]
    obtain ⟨dv, hsend, hcore, hout⟩ :=
      dvSend_eq 0x10 none (le 2 handle ++ body) { s with media := { s.media with accWait := otherBlocks s } }
    refine ⟨_, dv, hsend, hcore, fun h => absurd h hother, fun _ => ⟨rfl, fun hways => ?_⟩⟩
    have hways' : waysOf none { s with media := { s.media with accWait := otherBlocks s } } ≠ [] :=
      (SameRing.waysOf ⟨rfl, rfl⟩ none).symm ▸ hways
    rw [if_neg hways'] at hout
    exact ⟨_, by rw [hout]; exact List.mem_append_right _ (List.mem_singleton_self _), rfl, rfl, rfl⟩

/-- The state in which the other blocks are told that the accumulator opens. -/
def accumOpening (eid : Nat) (e : Entry) (bs : List Byte) (s : State) : State :=
  let t := openAccum (BitVec.ofNat 16 (fld e.options.toNat 8 16)) bs
    (modEntry eid (fun e => { e with phase := .waiting }) (fetchHost (.list eid) [(e.addr.toNat, 128)] (looked e s)))
  { t with media := { t.media with accEid := some eid, reportAddr := e.addr } }

theorem fetchHost_eq (what : HostWhat) (ps : List (Nat × Nat)) (s : State) : ∃ issued answered,
    fetchHost what ps s = { s with host := { s.host with issued := issued, answered := answered } } := ⟨_, _, rfl⟩

theorem accumOpening_eq (eid : Nat) (e : Entry) (bs : List Byte) (s : State) : ∃ entries media cache lines issued answered,
    accumOpening eid e bs s = { s with
      sched := { s.sched with entries := entries }
      media := media
      stripe := { s.stripe with cache := cache, lines := lines }
      host := { s.host with issued := issued, answered := answered } } := by
  obtain ⟨cache, lines, hlooked⟩ := looked_eq e s
  obtain ⟨issued, answered, hfetch⟩ := fetchHost_eq (.list eid) [(e.addr.toNat, 128)] (looked e s)
  rw [accumOpening, hfetch, hlooked]
  exact ⟨_, _, _, _, _, _, rfl⟩

theorem exec_accumOpen {b bs : List Byte} (hturn : turn s eid 0x30 e) (haccum : s.media.accum = 0)
    (hlines : linesOf e.addr.toNat 128 (.ok b) = .ok bs) : exec (.accumOpen eid (.ok b)) s
      = .next (tellAccums accOpenJob (le 2 (fld e.options.toNat 8 16) ++ padTo 96 bs) (accumOpening eid e bs s)) := by
  refine congrArg Host.Outcome.next ((dispatch_turn hturn).trans ?_)
  obtain ⟨cache, lines, hlooked⟩ := looked_eq e s
  rw [accumOpening, hlooked, if_neg (by simp [haccum])]
  dsimp only
  rw [hlines]

theorem accumOpen_opens {b bs : List Byte} (hturn : turn s eid 0x30 e) (haccum : s.media.accum = 0)
    (hlines : linesOf e.addr.toNat 128 (.ok b) = .ok bs) :
    ∃ t, exec (.accumOpen eid (.ok b)) s = .next t ∧ entryAt eid t = some { e with phase := .waiting }
      ∧ t.media = { s.media with
          accum := 1, accWait := t.media.accWait, accEid := some eid
          headsMask := BitVec.ofNat 16 (fld e.options.toNat 8 16), ref := padTo 64 bs
          scoreMin := if leAt bs 64 2 = 0 then 32768 else leAt bs 64 2
          reportAddr := e.addr, frags := [], report := List.replicate 6 0 }
      ∧ (otherBlocks s = 0 → t.media.accWait = s.media.accWait ∧ t.dv = s.dv)
      ∧ (otherBlocks s ≠ 0 → t.media.accWait = otherBlocks s ∧ (waysOf none s ≠ [] → ∃ x ∈ t.dv.out, x.type = 0x10
          ∧ x.dst = none ∧ x.payload = le 2 0x1000 ++ le 2 (fld e.options.toNat 8 16) ++ padTo 96 bs))
      ∧ t = { s with
          sched := { s.sched with entries := t.sched.entries }
          media := t.media, dv := t.dv
          stripe := { s.stripe with cache := t.stripe.cache, lines := t.stripe.lines }
          host := { s.host with issued := t.host.issued, answered := t.host.answered } } := by
  obtain ⟨cache, lines, hlooked⟩ := looked_eq e s
  obtain ⟨wait, dv, htell, -, hnone, hsome⟩ :=
    tellAccums_eq accOpenJob (le 2 (fld e.options.toNat 8 16) ++ padTo 96 bs) (accumOpening eid e bs s)
  have hmodes : (accumOpening eid e bs s).modes = s.modes := by rw [accumOpening, hlooked]; rfl
  have hdv : (accumOpening eid e bs s).dv = s.dv := by rw [accumOpening, hlooked]; rfl
  have hwait : (accumOpening eid e bs s).media.accWait = s.media.accWait := by rw [accumOpening, hlooked]; rfl
  have hother : otherBlocks (accumOpening eid e bs s) = otherBlocks s := by rw [otherBlocks, hmodes, hdv]; rfl
  have hways : waysOf none (accumOpening eid e bs s) = waysOf none s := SameRing.waysOf ⟨hmodes, by rw [hdv]⟩ none
  rw [hother, hways] at hsome
  rw [hother, hwait, hdv] at hnone
  refine ⟨_, (exec_accumOpen hturn haccum hlines).trans (congrArg _ htell), ?_, ?_, hnone, fun h => ?_, ?_⟩
  · have hentry : entryAt eid (fetchHost (.list eid) [(e.addr.toNat, 128)] (looked e s)) = some e := by
      rw [hlooked]; exact hturn.1
    have hmod := entryAt_modEntry (f := fun x => { x with phase := .waiting }) (fun _ => rfl) hentry
    generalize hw : modEntry eid (fun x => { x with phase := .waiting })
      (fetchHost (.list eid) [(e.addr.toNat, 128)] (looked e s)) = w at hmod
    have hsched : (accumOpening eid e bs s).sched = w.sched := by rw [← hw]; rfl
    exact (entryAt_congr hsched).trans hmod
  · have hmin : (if leAt bs 64 2 = 0 then 32768 else leAt bs 64 2) = if leAt bs 64 2 == 0 then 32768 else leAt bs 64 2 := by
      simp only [beq_iff_eq]
    rw [hmin, accumOpening, hlooked]
    rfl
  · obtain ⟨hw, hx⟩ := hsome h
    exact ⟨hw, fun hne => by simpa [List.append_assoc, accOpenJob] using hx hne⟩
  · obtain ⟨entries, media, cache, lines, issued, answered, hopening⟩ := accumOpening_eq eid e bs s
    rw [hopening]

end
end Sys2Proof.Machine

namespace Sys2Proof.Machine

section
variable {s t : State} {e : Entry} {eid : Nat}

/-! ### The end of the drain (R21, R420) -/

theorem accumDrainEnd_waits (h : s.media.accum ≠ 1 ∨ accumUsed s = true) : exec .accumDrainEnd s = .next s := by
  refine congrArg Host.Outcome.next (if_neg fun hends => ?_)
  rw [Bool.and_eq_true, beq_iff_eq, Bool.not_eq_true'] at hends
  obtain ⟨haccum, hused⟩ := hends
  rcases h with h | h
  · exact h haccum
  · exact absurd (hused.symm.trans h) (by decide)

theorem exec_accumDrainEnd (haccum : s.media.accum = 1) (hused : accumUsed s = false) : exec .accumDrainEnd s = .next
    (if s.modes.follower then
      dvSend 0x11 (some s.modes.leadDie) (le 2 (accOpenJob + s.modes.dieId.toNat) ++ [0]) { s with media := { s.media
        with accum := 2 } }
    else openedAll { s with media := { s.media with accum := 2 } }) :=
  congrArg Host.Outcome.next (if_pos (by simp [haccum, hused]))

theorem openedAll_waits (hwait : s.media.accWait ≠ 0) : openedAll s = s := by
  unfold openedAll
  split
  · refine if_neg fun hends => hwait ?_
    rw [Bool.and_eq_true, beq_iff_eq, beq_iff_eq] at hends
    exact hends.2
  · rfl

theorem openedAll_done (haccum : s.media.accum = 2) (hwait : s.media.accWait = 0) (heid : s.media.accEid = some eid) :
    openedAll s = endEntry eid 0 0 0 { s with media := { s.media with accEid := none } } := by
  unfold openedAll
  rw [heid]
  exact if_pos (by simp [haccum, hwait])

/-- A follower answers with its own number. -/
theorem openedAnswer_die (d : BitVec 3) : leAt (le 2 (accOpenJob + d.toNat) ++ [0]) 0 2 = 0x1000 + d.toNat := by
  revert d
  decide

theorem accumDrainEnd_ends (haccum : s.media.accum = 1) (hused : accumUsed s = false) :
    (s.modes.follower = false → s.media.accWait ≠ 0 →
        exec .accumDrainEnd s = .next { s with media := { s.media with accum := 2 } })
    ∧ (∀ (eid : Nat) (e : Entry), s.modes.follower = false → s.media.accWait = 0 → s.media.accEid = some eid →
        entryAt eid s = some e →
      ∃ t, exec .accumDrainEnd s = .next t ∧ t.media = { s.media with accum := 2, accEid := none }
        ∧ entryAt eid t = some { e with status := 0, detail := 0, count := 0, phase := .ready }
        ∧ t = { s with sched := { s.sched with entries := t.sched.entries }, media := t.media })
    ∧ (s.modes.follower = true → route s.modes.leadDie.toNat s ≠ none →
      ∃ t x, exec .accumDrainEnd s = .next t ∧ t.media = { s.media with accum := 2 } ∧ t.dv.out = s.dv.out ++ [x]
        ∧ x.type = 0x11 ∧ x.dst = some s.modes.leadDie ∧ leAt x.payload 0 2 = 0x1000 + s.modes.dieId.toNat
        ∧ t = { s with media := t.media, dv := t.dv }) := by
  have hexec := exec_accumDrainEnd haccum hused
  refine ⟨fun hlead hwait => ?_, fun eid e hlead hwait heid hentry => ?_, fun hfollower hroute => ?_⟩
  · rw [hexec, if_neg (by simp [hlead])]
    exact congrArg Host.Outcome.next (openedAll_waits (s := { s with media := { s.media with accum := 2 } }) hwait)
  · have hdone := openedAll_done (s := { s with media := { s.media with accum := 2 } }) rfl hwait heid
    rw [hexec, if_neg (by simp [hlead]), hdone]
    have hend := entryAt_modEntry (s := { s with media := { s.media with accum := 2, accEid := none } })
      (f := fun e => { e with status := BitVec.ofNat 8 0, detail := BitVec.ofNat 8 0, count := 0, phase := .ready })
      (fun _ => rfl) hentry
    exact ⟨_, rfl, rfl, hend, rfl⟩
  · rw [hexec, if_pos hfollower]
    obtain ⟨dv, hsend, -, hout⟩ := dvSend_eq 0x11 (some s.modes.leadDie) (le 2 (accOpenJob + s.modes.dieId.toNat) ++ [0])
      { s with media := { s.media with accum := 2 } }
    have hways : waysOf (some s.modes.leadDie) { s with media := { s.media with accum := 2 } } ≠ [] := by
      have hsame := SameRing.waysOf (s := s) (t := { s with media := { s.media with accum := 2 } }) ⟨rfl, rfl⟩
      rw [hsame, waysOf]
      cases hr : route s.modes.leadDie.toNat s with
      | none => exact absurd hr hroute
      | some p => simp
    rw [if_neg hways] at hout
    rw [hsend]
    exact ⟨_, _, rfl, rfl, hout, rfl, rfl, openedAnswer_die _, rfl⟩

/-! ### ACCUM_RETURN (R399, R420) -/

/-- The accumulator as it returns, before the other blocks are told. -/
def accumClosing (eid : Nat) (e : Entry) (s : State) : State :=
  let t := closeFrags (looked e s)
  { t with media := { t.media with accum := 3, accEid := some eid } }

theorem exec_accumReturn (hturn : turn s eid 0x31 e) (haccum : s.media.accum = 2) : exec (.accumReturn eid) s
    = .next (serveQueue 16 (modEntry e.eid (fun e => { e with phase := .waiting })
        (returnedAll (tellAccums accCloseJob [1] (accumClosing eid e s))))) := by
  refine congrArg Host.Outcome.next ((dispatch_turn hturn).trans (if_neg ?_))
  obtain ⟨cache, lines, hlooked⟩ := looked_eq e s
  rw [hlooked]
  simp [haccum]

/-- What the accumulator is as it returns. -/
theorem accumClosing_spec (eid : Nat) (e : Entry) (s : State) :
    (accumClosing eid e s).media.accum = 3 ∧ (accumClosing eid e s).media.accEid = some eid
      ∧ (accumClosing eid e s).media.accWait = s.media.accWait ∧ (accumClosing eid e s).media.frags = []
      ∧ (accumClosing eid e s).media.reportAddr = s.media.reportAddr
      ∧ (∀ h < 16, (headAt h (accumClosing eid e s)).pass = none) ∧ SameRing s (accumClosing eid e s)
      ∧ (accumClosing eid e s).rings = s.rings ∧ (accumClosing eid e s).host = s.host := by
  obtain ⟨cache, lines, hlooked⟩ := looked_eq e s
  obtain ⟨hcuts, hfrags, hpass⟩ := closeFrags_spec (looked e s)
  rw [hlooked] at hcuts hfrags hpass
  unfold accumClosing
  rw [hlooked]
  generalize closeFrags _ = u at hcuts hfrags hpass ⊢
  have hwait : u.media.accWait = s.media.accWait := by have h := congrArg Media.accWait hcuts.media; exact h
  have haddr : u.media.reportAddr = s.media.reportAddr := by have h := congrArg Media.reportAddr hcuts.media; exact h
  have hmodes : u.modes = s.modes := by rw [hcuts.rest]
  have hrings : u.rings = s.rings := by rw [hcuts.rest]
  have hhost : u.host = s.host := by rw [hcuts.rest]
  exact ⟨rfl, rfl, hwait, hfrags, haddr, hpass, ⟨hmodes, hcuts.dv⟩, hrings, hhost⟩

theorem returnedAll_done (haccum : s.media.accum = 3) (hwait : s.media.accWait = 0) (heid : s.media.accEid = some eid)
    (hasks : ∀ r ∈ s.host.writes ++ s.host.stalled, r.what ≠ .accum eid) : returnedAll s =
      hostWrite (.accum eid) (s.media.reportAddr.toNat + 96) (padTo 32 (s.media.report.flatMap (le 4))) s := by
  unfold returnedAll
  rw [heid]
  refine if_pos ?_
  have hnone : (s.host.writes ++ s.host.stalled).any (fun q => q.what == .accum eid) = false := by
    rw [List.any_eq_false]
    exact fun q hq => by simpa using hasks q hq
  rw [haccum, hwait, hnone]
  rfl

/-- REPORT's request changes the host port alone. -/
theorem returnedAll_rest (s : State) : (returnedAll s).media = s.media ∧ (returnedAll s).dv = s.dv
    ∧ (returnedAll s).rings = s.rings ∧ (returnedAll s).modes = s.modes := by
  unfold returnedAll
  split
  · split <;> exact ⟨rfl, rfl, rfl, rfl⟩
  · exact ⟨rfl, rfl, rfl, rfl⟩

/-- What the messages served at the end leave of the accumulator. -/
theorem serveClosing_spec {r : State} {id : Nat} {f : Entry → Entry} (hthree : r.media.accum = 3) :
    (serveQueue 16 (modEntry id f r)).media.core = r.media.core
      ∧ (∀ n, (headAt n (serveQueue 16 (modEntry id f r))).pass = (headAt n r).pass)
      ∧ (serveQueue 16 (modEntry id f r)).rings = r.rings ∧ (serveQueue 16 (modEntry id f r)).modes = r.modes
      ∧ (∀ x ∈ r.dv.out, x ∈ (serveQueue 16 (modEntry id f r)).dv.out) ∧ AsksKept r (serveQueue 16 (modEntry id f r)) := by
  have hclosed : (modEntry id f r).media.accum ≠ 2 := by
    rw [modEntry_media, hthree]
    decide
  have hserved : Served (modEntry id f r) (serveQueue 16 (modEntry id f r)) := serveQueue_served hclosed (.refl _)
  exact ⟨hserved.media, hserved.pass, hserved.rings, hserved.modes, hserved.out,
    fun what addr bytes h => hserved.asks what addr bytes h⟩

theorem accumReturn_returns (hturn : turn s eid 0x31 e) (haccum : s.media.accum = 2) (hwait : s.media.accWait = 0)
    (hasks : ∀ r ∈ s.host.writes ++ s.host.stalled, r.what ≠ .accum eid) :
    ∃ t, exec (.accumReturn eid) s = .next t ∧ t.media.accum = 3 ∧ t.media.accEid = some eid ∧ t.media.frags = []
      ∧ (if otherBlocks s = 0 then
          asks t (.accum eid) (s.media.reportAddr.toNat + 96) (padTo 32 (t.media.report.flatMap (le 4)))
        else t.media.accWait = otherBlocks s ∧ (waysOf none s ≠ [] → ∃ x ∈ t.dv.out, x.type = 0x10 ∧ x.dst = none
          ∧ x.payload = le 2 0x2000 ++ [1]))
      ∧ (∀ h < 16, (headAt h t).pass = none) ∧ t.rings = s.rings ∧ t.modes = s.modes := by
  have hexec := exec_accumReturn hturn haccum
  obtain ⟨hthree, heid, hwait', hfrags, haddr, hpass, hring, hrings, hhost⟩ := accumClosing_spec eid e s
  generalize accumClosing eid e s = u at hexec hthree heid hwait' hfrags haddr hpass hring hrings hhost
  obtain ⟨wait, dv, htell, -, hnone, hsome⟩ := tellAccums_eq accCloseJob [1] u
  have hother : otherBlocks u = otherBlocks s := by
    have hview : u.dv.view = s.dv.view := by have h := congrArg Dv.view hring.dv; exact h
    rw [otherBlocks, hring.modes, hview, otherBlocks]
  rw [hother] at hnone
  rw [hother, hring.waysOf none] at hsome
  rw [htell] at hexec
  obtain ⟨hcore, hpass', hrings', hmodes', hout, hkept⟩ := serveClosing_spec (id := e.eid)
    (f := fun e => { e with phase := .waiting }) (r := returnedAll { u with media := { u.media with accWait := wait }, dv := dv })
    (by rw [(returnedAll_rest _).1]; exact hthree)
  obtain ⟨hmedia, hdv, hrest, hmodes⟩ := returnedAll_rest { u with media := { u.media with accWait := wait }, dv := dv }
  rw [hmedia] at hcore
  have hfields {α : Type} (f : Media → α) := congrArg f hcore
  have hthree' := hfields Media.accum
  have heid' := hfields Media.accEid
  have hfrags' := hfields Media.frags
  have hreport := hfields Media.report
  have hwaits := hfields Media.accWait
  refine ⟨_, hexec, hthree'.trans hthree, heid'.trans heid, hfrags'.trans hfrags, ?_, fun h hh => ?_,
    (hrings'.trans hrest).trans hrings, (hmodes'.trans hmodes).trans hring.modes⟩
  · split
    case isTrue hzero =>
      obtain ⟨hw, -⟩ := hnone hzero
      have hdone := returnedAll_done (s := { u with media := { u.media with accWait := wait }, dv := dv }) hthree
        (hw.trans (hwait'.trans hwait)) heid (by rw [← hhost] at hasks; exact hasks)
      refine hkept _ _ _ ?_
      have hreport : (serveQueue 16 _).media.report = u.media.report := hreport
      rw [hreport, hdone, ← haddr]
      exact hostWrite_asks ..
    case isFalse hsomeone =>
      obtain ⟨hw, hx⟩ := hsome hsomeone
      refine ⟨hwaits.trans hw, fun hways => ?_⟩
      obtain ⟨x, hmem, htype⟩ := hx hways
      exact ⟨x, hout x (by rw [hdv]; exact hmem), htype⟩
  · rw [hpass' h, headAt, hmedia]
    exact hpass h hh

end

/-- Settles O34: the accumulator opens and closes in its own part of the media state; what is told over Dovetail and what is
served meanwhile leave that part alone. -/
theorem accumulatorOpensAndReturns : Obligations.AccumulatorOpensAndReturns :=
  ⟨fun _ _ _ _ _ hturn haccum hlines => accumOpen_opens hturn haccum hlines, fun _ h => accumDrainEnd_waits h,
    fun _ haccum hused => accumDrainEnd_ends haccum hused,
    fun _ _ _ hturn haccum hwait hasks => accumReturn_returns hturn haccum hwait hasks⟩

end Sys2Proof.Machine

namespace Sys2Proof.Machine

section
variable {s₀ s t u : State}

/-! ### The work that leaves the journal's step, its fence and the saved objects as they are (R306, R364, R593) -/

/-- What `Filed` speaks of. -/
def State.filed (s : State) : List Ring × Modes × Stripe × List ((Nat × Nat) × List Byte) :=
  (s.rings, s.modes, s.stripe, s.dict.saved)

/-- Only the save area, and what an event of it is recorded in, has changed from `s` to `t`. -/
def Filed (s t : State) : Prop := t.filed = s.filed

theorem Filed.refl (s : State) : Filed s s := rfl

theorem Filed.frame {pending : List Instr} {freeCtr : Nat} {now : Nat} {pins : Pins} {sched : Sched} {host : HostPorts}
    {regs : RegPort} {rack : Rack} {power : Power} {hk : Hk} {storeImage : List (Nat × BitVec 160)} {jigs : List Jig}
    {chans : List Chan} {codec : Codec} {recov : Recov} {luns : List (Nat × LunRec)} {bg : Bg} {media : Media} {dv : Dv}
    {irq : Irq} {evq : Evq} {dict : Dict} {cab : Cabinet} {sram : Sram} {stats : Stats}
    (h : Filed s₀ s) (e : dict.saved = s.dict.saved) :
    Filed s₀ { s with
      pending := pending, freeCtr := freeCtr, now := now, pins := pins, sched := sched, host := host, regs := regs
      rack := rack, power := power, hk := hk, storeImage := storeImage, jigs := jigs, chans := chans, codec := codec
      recov := recov, luns := luns, bg := bg, media := media, dv := dv, irq := irq, evq := evq, dict := dict, cab := cab
      sram := sram, stats := stats } := by
  refine Eq.trans ?_ h
  simp only [State.filed, e]

theorem Filed.ite {c : Prop} [Decidable c] {a b : State} (ha : Filed s₀ a) (hb : Filed s₀ b) :
    Filed s₀ (if c then a else b) := by split <;> assumption

theorem Filed.foldl {α : Type _} {f : State → α → State} {l : List α} (hf : ∀ s a, Filed s₀ s → Filed s₀ (f s a))
    (h : Filed s₀ s) : Filed s₀ (l.foldl f s) := by
  induction l generalizing s with
  | nil => exact h
  | cons a l ih => exact ih (hf s a h)

end
end Sys2Proof.Machine

namespace Sys2Proof.Machine
variable {s₀ s : State}

/-! ### Events -/

theorem issueRecord_filed (h : Filed s₀ s) : Filed s₀ (issueRecord s) := by
  unfold issueRecord
  split
  · exact .frame h rfl
  · exact h

theorem queueCanEvent_filed {bs : List Byte} (h : Filed s₀ s) : Filed s₀ (queueCanEvent bs s) :=
  .ite (.frame h rfl) (.frame h rfl)

theorem raisePriv_filed {id : Nat} {soft : Bool} {detail : List Byte} (h : Filed s₀ s) :
    Filed s₀ (raisePriv id soft detail s) := by
  unfold raisePriv
  extract_lets +onlyGivenNames _ _ _ _ _ _ s₁
  have hs₁ : Filed s₀ s₁ := .ite (queueCanEvent_filed (.frame h rfl)) (.frame h rfl)
  exact .ite (.ite (issueRecord_filed (.frame hs₁ rfl)) (.frame hs₁ rfl)) (.frame hs₁ rfl)

/-! ### The cabinet -/

theorem cabFault_filed {cause sector status : Nat} (h : Filed s₀ s) : Filed s₀ (cabFault cause sector status s) :=
  raisePriv_filed (.frame h rfl)

theorem noteEndurance_filed {s' : Nat} (h : Filed s₀ s) : Filed s₀ (noteEndurance s' s) := .ite (cabFault_filed h) h

theorem eraseSector_filed {s' : Nat} (h : Filed s₀ s) : Filed s₀ (eraseSector s' s) :=
  .ite (.frame h rfl) (noteEndurance_filed (.frame h rfl))

/-! ### The save area -/

theorem eraseHalf_filed {x1 : Nat} (h : Filed s₀ s) : Filed s₀ (eraseHalf x1 s) :=
  .foldl (fun _ _ ht => .ite ht (eraseSector_filed ht)) h

theorem appendRecord_filed {idx sub : Nat} {v : List Byte} (h : Filed s₀ s) : Filed s₀ (appendRecord idx sub v s) :=
  .frame (.frame h rfl) rfl

theorem compactNow_filed (h : Filed s₀ s) : Filed s₀ (compactNow s) := by
  unfold compactNow
  extract_lets +onlyGivenNames _ _ _ _ _ _ _ _ s₁
  have hs₁ : Filed s₀ s₁ := .foldl (fun _ _ ht => appendRecord_filed ht) (.frame (eraseHalf_filed h) rfl)
  exact .frame (.ite (appendRecord_filed hs₁) hs₁) rfl

theorem ensureHalf_filed (h : Filed s₀ s) : Filed s₀ (ensureHalf s) := .ite (.frame (.frame (eraseHalf_filed h) rfl) rfl) h

theorem eraseAhead_filed (h : Filed s₀ s) : Filed s₀ (eraseAhead s) := by
  refine .ite ?_ h
  split
  · exact eraseSector_filed h
  · exact h

theorem saveRecord_filed {idx sub : Nat} {v : List Byte} (h : Filed s₀ s) : Filed s₀ (saveRecord idx sub v s) :=
  eraseAhead_filed (appendRecord_filed (.ite (compactNow_filed (ensureHalf_filed h)) (ensureHalf_filed h)))


end Sys2Proof.Machine

namespace Sys2Proof.Machine

section
variable {s₀ s t u : State}

/-- The journal's step, the records that are held, the saved objects and the host's rings stay, and the journal's fence, once
it is set, stays (R306, R307, R593). -/
structure Steady (s t : State) : Prop where
  rings : t.rings = s.rings
  saved : t.dict.saved = s.dict.saved
  recStep : t.stripe.jrnl.recStep = s.stripe.jrnl.recStep
  heldRec : t.stripe.jrnl.heldRec = s.stripe.jrnl.heldRec
  fence : s.modes.fenceJournal = true → t.modes.fenceJournal = true

theorem Steady.refl (s : State) : Steady s s := ⟨rfl, rfl, rfl, rfl, id⟩

theorem Steady.trans (h : Steady s t) (k : Steady t u) : Steady s u :=
  ⟨k.rings.trans h.rings, k.saved.trans h.saved, k.recStep.trans h.recStep, k.heldRec.trans h.heldRec, k.fence ∘ h.fence⟩

theorem Filed.steady (h : Filed s t) : Steady s t := by
  simp only [Filed, State.filed, Prod.mk.injEq] at h
  obtain ⟨hrings, hmodes, hstripe, hsaved⟩ := h
  exact ⟨hrings, hsaved, by rw [hstripe], by rw [hstripe], by rw [hmodes]; exact id⟩

/-- What `Steady` says of the modes, the journal and the dictionary. -/
def steadyParts (m : Modes) (p : Stripe) (d : Dict) : Bool × Nat × Nat × List ((Nat × Nat) × List Byte) :=
  (m.fenceJournal, p.jrnl.recStep, p.jrnl.heldRec, d.saved)

/-- An update of what `Steady` does not speak of. -/
theorem Steady.frame {pending : List Instr} {freeCtr : Nat} {now : Nat} {pins : Pins} {modes : Modes} {sched : Sched}
    {host : HostPorts} {regs : RegPort} {rack : Rack} {power : Power} {hk : Hk} {storeImage : List (Nat × BitVec 160)}
    {jigs : List Jig} {chans : List Chan} {codec : Codec} {recov : Recov} {luns : List (Nat × LunRec)} {stripe : Stripe}
    {bg : Bg} {media : Media} {dv : Dv} {irq : Irq} {evq : Evq} {dict : Dict} {cab : Cabinet} {sram : Sram} {stats : Stats}
    (h : Steady s₀ s) (e : steadyParts modes stripe dict = steadyParts s.modes s.stripe s.dict) :
    Steady s₀ { s with
      pending := pending, freeCtr := freeCtr, now := now, pins := pins, modes := modes, sched := sched, host := host
      regs := regs, rack := rack, power := power, hk := hk, storeImage := storeImage, jigs := jigs, chans := chans
      codec := codec, recov := recov, luns := luns, stripe := stripe, bg := bg, media := media, dv := dv, irq := irq
      evq := evq, dict := dict, cab := cab, sram := sram, stats := stats } := by
  simp only [steadyParts, Prod.mk.injEq] at e
  obtain ⟨hfence, hstep, hheld, hsaved⟩ := e
  exact h.trans ⟨rfl, hsaved, hstep, hheld, fun hf => hfence.trans hf⟩

theorem Steady.ite {c : Prop} [Decidable c] {a b : State} (ha : Steady s₀ a) (hb : Steady s₀ b) :
    Steady s₀ (if c then a else b) := by split <;> assumption

theorem Steady.foldl {α : Type _} {f : State → α → State} {l : List α} (hf : ∀ s a, Steady s₀ s → Steady s₀ (f s a))
    (h : Steady s₀ s) : Steady s₀ (l.foldl f s) := by
  induction l generalizing s with
  | nil => exact h
  | cons a l ih => exact ih (hf s a h)

theorem Steady.foldlSnd {α β : Type _} {f : β × State → α → β × State} {l : List α} {x : β × State}
    (hf : ∀ x a, Steady s₀ x.2 → Steady s₀ (f x a).2) (h : Steady s₀ x.2) : Steady s₀ (l.foldl f x).2 := by
  induction l generalizing x with
  | nil => exact h
  | cons a l ih => exact ih (hf x a h)

theorem raisePriv_steady {id : Nat} {soft : Bool} {detail : List Byte} (h : Steady s₀ s) :
    Steady s₀ (raisePriv id soft detail s) := h.trans (raisePriv_filed (.refl s)).steady

theorem eraseSector_steady {n : Nat} (h : Steady s₀ s) : Steady s₀ (eraseSector n s) :=
  h.trans (eraseSector_filed (.refl s)).steady

theorem dvSend_steady {type : Nat} {dst : Option (BitVec 3)} {payload : List Byte} (h : Steady s₀ s) :
    Steady s₀ (dvSend type dst payload s) := by
  obtain ⟨dv, e, -, -⟩ := dvSend_eq type dst payload s
  rw [e]
  exact .frame h rfl

/-- An update of the journal's state that moves neither its step nor the records held. -/
theorem Steady.jrnl {f : Jrnl → Jrnl} (hstep : ∀ j, (f j).recStep = j.recStep) (hheld : ∀ j, (f j).heldRec = j.heldRec)
    (h : Steady s₀ s) : Steady s₀ (modJrnl f s) := h.trans ⟨rfl, rfl, hstep _, hheld _, id⟩

theorem storeBytes_steady {sector w : Nat} {bs : List Byte} (h : Steady s₀ s) : Steady s₀ (storeBytes sector w bs s) :=
  .frame h rfl

theorem dropFeedCws_steady {p : Nat → Bool} (h : Steady s₀ s) : Steady s₀ (dropFeedCws p s) := .frame h rfl

theorem withdraw_steady {p : Job → Bool} (h : Steady s₀ s) : Steady s₀ (withdraw p s) := .frame h rfl

theorem mediaReadyFall_steady (h : Steady s₀ s) : Steady s₀ (mediaReadyFall s) :=
  withdraw_steady (dropFeedCws_steady (.frame h rfl))

theorem endCanSessions_steady (h : Steady s₀ s) : Steady s₀ (endCanSessions s) := .frame h rfl

theorem applyMode_steady (h : Steady s₀ s) : Steady s₀ (applyMode s) := by
  unfold applyMode
  extract_lets +onlyGivenNames mode _ s₁ s₂ s₃
  have hs₁ : Steady s₀ s₁ := .frame h rfl
  have hraised : Steady s₀ (raise 65 s₁) := .frame hs₁ rfl
  have hs₂ : Steady s₀ s₂ := .frame hraised rfl
  have hs₃ : Steady s₀ s₃ := .ite (mediaReadyFall_steady hs₂) hs₂
  exact .ite h (.frame (.ite hs₃ (endCanSessions_steady hs₃)) rfl)

theorem setConds_steady {f : Modes → Modes} (hf : s.modes.fenceJournal = true → (f s.modes).fenceJournal = true)
    (h : Steady s₀ s) : Steady s₀ (setConds f s) :=
  applyMode_steady (h.trans ⟨rfl, rfl, rfl, rfl, hf⟩)

end
end Sys2Proof.Machine

namespace Sys2Proof.Machine
variable {s₀ s : State}

/-! ### Jobs -/

theorem resolveFeats_steady {j : Job} (h : Steady s₀ s) : Steady s₀ (resolveFeats j s).2 := by
  unfold resolveFeats
  extract_lets +onlyGivenNames _ _
  split
  · exact .frame h rfl
  · split
    · exact h
    · split <;> exact .frame h rfl

theorem sendJob_steady {j : Job} (h : Steady s₀ s) : Steady s₀ (sendJob j s) := dvSend_steady (resolveFeats_steady (.frame h rfl))

theorem addJob_steady {j : Job} (h : Steady s₀ s) : Steady s₀ (addJob j s).2 := by
  unfold addJob
  extract_lets +onlyGivenNames _ _ _ _
  split
  · exact .frame h rfl
  · exact sendJob_steady (.frame h rfl)

theorem dropSearches_steady {u block : Nat} (h : Steady s₀ s) : Steady s₀ (dropSearches u block s) :=
  withdraw_steady (.frame h rfl)

theorem addErase_steady {owner : Owner} {u block prio : Nat} (h : Steady s₀ s) : Steady s₀ (addErase owner u block prio s).2 :=
  addJob_steady (dropSearches_steady h)

/-! ### The window, the directory and the ledger -/

theorem winPut_steady {p : Nat × List Byte} (h : Steady s₀ s) : Steady s₀ (winPut s p) :=
  .ite (.frame h rfl) (.ite (.frame (.frame h rfl) rfl) (.frame (.frame h rfl) rfl))

theorem winPutAll_steady {off : Nat} {bs : List Byte} (h : Steady s₀ s) : Steady s₀ (winPutAll off bs s) :=
  .foldl (fun _ _ ht => winPut_steady ht) h

theorem winWrite_steady {off : Nat} {bs : List Byte} (h : Steady s₀ s) : Steady s₀ (winWrite off bs s) :=
  .ite (winPutAll_steady h) h

theorem writeDir_steady {g : Nat} {f : DirEntry → DirEntry} (h : Steady s₀ s) : Steady s₀ (writeDir g f s) :=
  winWrite_steady (.frame (.ite (dvSend_steady h) h) rfl)

theorem addRec_steady {r : BitVec 256} (h : Steady s₀ s) : Steady s₀ (addRec r s) :=
  .ite (dvSend_steady (.frame h rfl)) (.frame h rfl)

theorem setLedger_steady {i : Nat} {e : LossEntry} (h : Steady s₀ s) : Steady s₀ (setLedger i e s) :=
  addRec_steady (winWrite_steady (.frame h rfl))

theorem lossEvent_steady {g m r mask cause : Nat} {full : Bool} {idx : Nat} (h : Steady s₀ s) :
    Steady s₀ (lossEvent g m r mask cause full idx s) :=
  raisePriv_steady h

theorem sendLoss_steady {g m r mask cause : Nat} (h : Steady s₀ s) : Steady s₀ (sendLoss g m r mask cause s) := addRec_steady h

theorem addLoss_steady {g m r mask cause : Nat} (h : Steady s₀ s) : Steady s₀ (addLoss g m r mask cause s) := by
  refine .ite (sendLoss_steady h) ?_
  extract_lets +onlyGivenNames _ _ _ _ _
  split
  · exact lossEvent_steady (setLedger_steady (.frame h rfl))
  · split
    · exact lossEvent_steady (setLedger_steady (.frame (.frame h rfl) rfl))
    · exact lossEvent_steady (.frame (.frame (.frame h rfl) rfl) rfl)

theorem listShort_steady {g r mask : Nat} (h : Steady s₀ s) : Steady s₀ (listShort g r mask s) :=
  .ite h (.ite (writeDir_steady h) (writeDir_steady (.frame h rfl)))

theorem programMember_steady {owner : Owner} {g m r prio handle : Nat} {stamp : Word} {sealW : BitVec 96} (h : Steady s₀ s) :
    Steady s₀ (programMember owner g m r prio handle stamp sealW s) :=
  addJob_steady h

/-! ### The journal -/

theorem eraseJournal_steady {u block : Nat} (h : Steady s₀ s) : Steady s₀ (eraseJournal u block s) :=
  addErase_steady (.frame h rfl)

theorem eraseRing_steady {idxs : List Nat} (h : Steady s₀ s) : Steady s₀ (eraseRing idxs s) :=
  .foldl (fun _ _ ht => eraseJournal_steady (eraseJournal_steady ht)) h

theorem startFold_steady (h : Steady s₀ s) : Steady s₀ (startFold s) := .frame (addRec_steady h) rfl

theorem cutFold_steady (h : Steady s₀ s) : Steady s₀ (cutFold s) :=
  h.jrnl (fun _ => by split <;> rfl) (fun _ => by split <;> rfl)

theorem putAnchor_steady {bs : List Byte} (h : Steady s₀ s) : Steady s₀ (putAnchor bs s) :=
  .frame (storeBytes_steady (.ite (eraseSector_steady h) h)) rfl

theorem writeAnchor_steady (h : Steady s₀ s) : Steady s₀ (writeAnchor s) :=
  .ite (dvSend_steady (putAnchor_steady h)) (putAnchor_steady h)

theorem journalEvent_steady {cause : Nat} (h : Steady s₀ s) : Steady s₀ (journalEvent cause s) := raisePriv_steady h

theorem liveRecords_steady (h : Steady s₀ s) : Steady s₀ (liveRecords s) :=
  .foldl (fun _ _ ht => addRec_steady ht) (.foldl (fun _ _ ht => .ite ht (addRec_steady ht)) h)

theorem takePair_steady {x1 b : Nat} (h : Steady s₀ s) : Steady s₀ (takePair x1 b s) :=
  winWrite_steady (eraseRing_steady (.frame h rfl))

theorem awaitPair_steady (h : Steady s₀ s) : Steady s₀ (awaitPair s) := .frame (cutFold_steady h) rfl

theorem movePair_steady (h : Steady s₀ s) : Steady s₀ (movePair s) := by
  unfold movePair
  extract_lets
  refine .ite (awaitPair_steady h) ?_
  split
  · exact startFold_steady (liveRecords_steady (takePair_steady h))
  · exact setConds_steady (fun _ => rfl) (awaitPair_steady h)

/-! ### The candidates -/

theorem candidateWritten_steady {sub n : Nat} (h : Steady s₀ s) : Steady s₀ (candidateWritten sub n s) :=
  .ite (movePair_steady (.frame h rfl)) h

/-! ### Thresholds -/

theorem useDose_steady {u b : Nat} (h : Steady s₀ s) : Steady s₀ (useDose u b s).2 := by
  unfold useDose
  split
  · exact h
  · split
    · exact .frame h rfl
    · split
      · exact h
      · exact .frame h rfl

theorem addPageJob_steady {owner : Owner} {p : Page} {mask slot prio step : Nat} {feats : List (Nat × Nat)} {items : List (BitVec 128)}
    (h : Steady s₀ s) : Steady s₀ (addPageJob owner p mask slot prio step feats items s).2 :=
  addJob_steady (useDose_steady h)

theorem addSense_steady {owner : Owner} {p : Page} {mask slot prio step tag i : Nat} {off : List ℤ} (h : Steady s₀ s) :
    Steady s₀ (addSense owner p mask slot prio step tag i off s).2 :=
  addPageJob_steady h

/-! ### Reads -/

theorem reread_steady {cs : List Cw} {step : Nat} {add : Nat → Nat → State → Nat × State} {f : Cw → Cw}
  (hf : ∀ {y1 y2 u}, Steady s₀ u → Steady s₀ (add y1 y2 u).2)
    (h : Steady s₀ s) : Steady s₀ (reread cs step add f s) :=
  .frame (.foldl (fun _ _ ht => .frame (hf ht) rfl) h) rfl

/-! ### The ladder and the searches -/

theorem senseSearch_steady {q : Search} (h : Steady s₀ s) : Steady s₀ (senseSearch q s) :=
  .foldl (fun _ _ ht => addSense_steady ht) (.frame h rfl)

theorem senseAll_steady {j : Job} {off : List ℤ} {step mask slot : Nat} (h : Steady s₀ s) :
    Steady s₀ (senseAll j off step mask slot s).2 := by
  refine .foldlSnd (fun acc x ht => ?_) h
  dsimp only
  split
  · exact addSense_steady ht
  · exact .frame (addSense_steady ht) rfl

theorem senseGranted_steady {job : Nat} (h : Steady s₀ s) : Steady s₀ (senseGranted s job) := by
  unfold senseGranted
  split
  · exact reread_steady (fun hu => senseAll_steady hu) h
  · exact h

theorem grantArea_steady {t' : AreaTurn} (h : Steady s₀ s) : Steady s₀ (grantArea s t') := by
  refine .ite ?_ h
  split
  · split
    · exact senseSearch_steady (.frame h rfl)
    · exact h
  · exact .frame h rfl
  · exact h

theorem pumpAreas_steady (h : Steady s₀ s) : Steady s₀ (pumpAreas s) :=
  .ite h (.foldl (fun _ _ ht => senseGranted_steady ht) (.foldl (fun _ _ ht => grantArea_steady ht) h))

theorem startSearch_steady {u b z wl slot profile prio : Nat} {climb sweep : Bool} (h : Steady s₀ s) :
    Steady s₀ (startSearch u b z wl slot profile prio climb sweep s) :=
  .ite h (pumpAreas_steady (.frame (.frame h rfl) rfl))

theorem backgroundSearch_steady {u b z : Nat} {sweep : Bool} (h : Steady s₀ s) : Steady s₀ (backgroundSearch u b z sweep s) := by
  unfold backgroundSearch
  split
  · exact .ite (startSearch_steady h) h
  · exact h

/-! ### Recovery -/

theorem writeWindow_steady (h : Steady s₀ s) : Steady s₀ (writeWindow s) := winPutAll_steady h

theorem repairMember_steady {g r mask w : Nat} {reads : List MemberRead} {m : Nat} (h : Steady s₀ s) :
    Steady s₀ (repairMember g r mask w reads s m) :=
  programMember_steady (.frame h rfl)

theorem programErased_steady {i : RecoveryIn} {g r passed w : Nat} (h : Steady s₀ s) :
    Steady s₀ (programErased i g r passed w s) :=
  .foldl (fun _ _ ht => repairMember_steady ht) h

theorem settleSeal_steady {g r w : Nat} (h : Steady s₀ s) : Steady s₀ (settleSeal g r w s) :=
  .frame (.ite (addRec_steady h) (listShort_steady (addRec_steady h))) rfl

theorem resolveRow_steady {i : RecoveryIn} {g r passed : Nat} (h : Steady s₀ s) : Steady s₀ (resolveRow i g r passed s) := by
  unfold resolveRow
  dsimp only
  split <;> exact settleSeal_steady (programErased_steady (.frame h rfl))

theorem orphanRebuild_steady (h : Steady s₀ s) : Steady s₀ (orphanRebuild s) := by
  refine .ite h ?_
  split
  · exact h
  · exact .frame (.frame h rfl) rfl

theorem orphanRefit_steady (h : Steady s₀ s) : Steady s₀ (orphanRefit s) := by
  unfold orphanRefit
  dsimp only
  split
  · exact h
  · split
    · exact .frame h rfl
    · split
      · split
        · exact .frame (.frame h rfl) rfl
        · exact .frame h rfl
      · exact .frame (.foldl (fun _ _ ht => .frame ht rfl) h) rfl

theorem resumeServices_steady (h : Steady s₀ s) : Steady s₀ (resumeServices s) :=
  .frame (orphanRefit_steady (orphanRebuild_steady h)) rfl

theorem scanMembers_steady {bs : List BlockSeen} {g w : Nat} {top : Option Nat} (h : Steady s₀ s) :
    Steady s₀ (scanMembers bs g w top s).2 := by
  refine .foldlSnd (fun _ _ ht => ?_) h
  split
  · exact ht
  · exact .frame ht rfl

theorem scanLosses_steady {i : RecoveryIn} {g r : Nat} (h : Steady s₀ s) : Steady s₀ (scanLosses i g r s) :=
  .foldl (fun _ _ ht => .ite (addLoss_steady ht) ht) h

theorem scanSources_steady (h : Steady s₀ s) : Steady s₀ (scanSources s) :=
  .ite (.foldl (fun _ _ ht => .ite ht (.frame (.frame ht rfl) rfl)) h) h

theorem initialTruing_steady (h : Steady s₀ s) : Steady s₀ (initialTruing s) := by
  refine .ite ?_ h
  refine .foldl (fun _ _ ht => ?_) (.frame h rfl)
  split
  · exact backgroundSearch_steady ht
  · exact ht


end Sys2Proof.Machine

namespace Sys2Proof.Machine

section
variable {s₀ s t : State}

/-! ### Recovery: the scan of the seals, and the replay of the journal (R306, R310, R364, R593) -/

theorem scanGroup_quiet {i : RecoveryIn} {bs : List BlockSeen} {g : Nat} (h : Quiet s₀ s) : Quiet s₀ (scanGroup i bs s g) := by
  unfold scanGroup
  split
  · exact h
  · refine .frame (.foldl (fun _ _ ht => ?_) (.frame (scanMembers_quiet h) rfl)) rfl
    split
    · exact .ite (.frame ht rfl) (listShort_quiet (.frame ht rfl))
    · exact .frame (resolveRow_quiet (scanLosses_quiet ht)) rfl

theorem scanGroup_steady {i : RecoveryIn} {bs : List BlockSeen} {g : Nat} (h : Steady s₀ s) :
    Steady s₀ (scanGroup i bs s g) := by
  unfold scanGroup
  split
  · exact h
  · refine .frame (.foldl (fun _ _ ht => ?_) (.frame (scanMembers_steady h) rfl)) rfl
    split
    · exact .ite (.frame ht rfl) (listShort_steady (.frame ht rfl))
    · exact .frame (resolveRow_steady (scanLosses_steady ht)) rfl

theorem setConds_fenceJournal (f : Modes → Modes) (s : State) :
    (setConds f s).modes.fenceJournal = (f s.modes).fenceJournal := by
  rcases applyMode_modes { s with modes := f s.modes } with ⟨e, -⟩ | e <;> rw [setConds, e]

/-- A new journal leaves the fence set. -/
theorem newJournal_fenceJournal (h : s.modes.fenceJournal = true) : (newJournal s).modes.fenceJournal = true := by
  unfold newJournal
  split
  case h_1 a b _ =>
    have hpair : Steady s (takePair a b s) := takePair_steady (.refl s)
    exact (startFold_steady (writeWindow_steady (.refl _))).fence (hpair.fence h)
  case h_2 => rw [setConds_fenceJournal]

/-- The seals have been scanned: the window stands and the journal's fence is set. -/
structure Scanned (s : State) : Prop where
  scanned : s.bg.scanned = true
  fence : s.modes.fenceJournal = true
  granted : s.stripe.granted = true

theorem sealScan_scanned (i : RecoveryIn) (s : State) : Scanned (sealScan i s) := by
  unfold sealScan
  extract_lets +onlyGivenNames bs s₁ _ _ _ _ s₂ s₃ _ _ s₄ s₅
  have hfence : s₁.modes.fenceJournal = true := setConds_fenceJournal _ s
  have hscan : s₂.bg.scanned = true := rfl
  clear_value s₁
  have q₃ : Quiet s₂ s₃ := scanSources_quiet (.foldl (fun _ _ ht => scanGroup_quiet ht) (.refl s₂))
  have k₃ : Steady s₂ s₃ := scanSources_steady (.foldl (fun _ _ ht => scanGroup_steady ht) (.refl s₂))
  have q₅ : Quiet s₄ s₅ := .ite (.refl s₄) (eraseSector_quiet (.refl s₄))
  have k₅ : Steady s₄ s₅ := .ite (.refl s₄) (eraseSector_steady (.refl s₄))
  have q : Quiet s₄ (journalEvent 4 (newJournal s₅)) := journalEvent_quiet (newJournal_quiet q₅)
  exact ⟨q.scanned.trans (q₃.scanned.trans hscan),
    (journalEvent_steady (.refl _)).fence (newJournal_fenceJournal (k₅.fence (k₃.fence hfence))), q.granted rfl⟩

/-- What was replayed stands: the window is granted, and services resume, unless the directory does not fit or the seals
were scanned. -/
structure Replayed (s : State) : Prop where
  step : s.stripe.jrnl.recStep = 4 ∨ s.stripe.jrnl.recStep = 5 ∨ s.bg.scanned = true
  granted : s.stripe.granted = true

theorem replayRun_replayed (i : RecoveryIn) (pages : List (List Byte)) (last : Nat) (s : State) :
    Replayed (replayRun i pages last s) := by
  unfold replayRun
  extract_lets +onlyGivenNames _ _ _ _ _ _ _ _ t _ t₁ t₂ _ t₃
  clear_value t t₂
  split
  · exact ⟨.inr (.inr (sealScan_scanned i s).scanned), (sealScan_scanned i s).granted⟩
  · split
    · exact ⟨.inr (.inl (journalEvent_steady (writeWindow_steady (.refl _))).recStep),
        (journalEvent_quiet (writeWindow_quiet (.refl _))).granted rfl⟩
    · exact ⟨.inl (resumeServices_steady (writeWindow_steady (.refl _))).recStep,
        (resumeServices_quiet (writeWindow_quiet (.refl _))).granted rfl⟩

theorem grantForecast_stripe (s : State) : (grantForecast s).stripe = s.stripe := by
  unfold grantForecast
  split <;> rfl

end
end Sys2Proof.Machine

namespace Sys2Proof.Machine

section
variable {s : State}

/-! ### Recovery, once its reads may start (R16, R306, R310, R364, R593) -/

theorem recoverJournal_of_not_waits (i : RecoveryIn) (h : ¬ (s.stripe.jrnl.state = 1 ∧ s.stripe.jrnl.recStep = 2)) :
    recoverJournal i s = s := by
  have hw : (s.stripe.jrnl.state == 1 && s.stripe.jrnl.recStep == 2) = false := by simpa using h
  simp only [recoverJournal, hw, Bool.false_and, Bool.false_eq_true, if_false]

theorem recoverJournal_of_not_granted (i : RecoveryIn) (hstate : s.stripe.jrnl.state = 1) (hstep : s.stripe.jrnl.recStep = 2)
    (hg : recoveryGranted (grantForecast s) = false) : recoverJournal i s = grantForecast s := by
  simp only [recoverJournal, hstate, hstep, hg, beq_self_eq_true, Bool.and_self, if_true, Bool.and_false, Bool.false_eq_true,
    if_false]

/-- What recovery has come to: the journal is replayed where it can be trusted, and the seals are scanned otherwise. -/
def Recovered (trusted : Prop) (u : State) : Prop := u.stripe.granted = true ∧ (trusted → Replayed u) ∧ (¬ trusted → Scanned u)

theorem Recovered.initialTruing {trusted : Prop} {u : State} (h : Recovered trusted u) : Recovered trusted (initialTruing u) := by
  obtain ⟨hgranted, hreplayed, hscanned⟩ := h
  have q : Quiet u (Machine.initialTruing u) := initialTruing_quiet (.refl u)
  have k : Steady u (Machine.initialTruing u) := initialTruing_steady (.refl u)
  refine ⟨q.granted hgranted, fun ht => ⟨?_, q.granted hgranted⟩, fun ht => ?_⟩
  · rw [k.recStep, q.scanned]
    exact (hreplayed ht).step
  · have hs := hscanned ht
    exact ⟨q.scanned.trans hs.scanned, k.fence hs.fence, q.granted hgranted⟩

/-- Whether recovery finds a journal it can trust. -/
def journalTrusted (i : RecoveryIn) (j : Jrnl) : Prop := j.anchorValid = true ∧ (journalRun i j).isSome = true

theorem recoverJournal_recovered (i : RecoveryIn) (hstate : s.stripe.jrnl.state = 1) (hstep : s.stripe.jrnl.recStep = 2)
    (hg : recoveryGranted (grantForecast s) = true) : Recovered (journalTrusted i s.stripe.jrnl) (recoverJournal i s) := by
  unfold recoverJournal
  simp only [hstate, hstep, beq_self_eq_true, Bool.and_self, if_true, hg]
  refine Recovered.initialTruing ?_
  generalize hd : modJrnl (fun j => { j with recDead := i.dead }) (grantForecast s) = d
  have hj : d.stripe.jrnl = { s.stripe.jrnl with recDead := i.dead } := by rw [← hd, modJrnl, grantForecast_stripe]
  have htrust : journalTrusted i s.stripe.jrnl ↔ journalTrusted i d.stripe.jrnl := by rw [hj]; rfl
  rw [htrust]
  have hs := sealScan_scanned i d
  split
  case isTrue hv =>
    have hno : ¬ journalTrusted i d.stripe.jrnl := fun ⟨ht, _⟩ => by simp [ht] at hv
    exact ⟨hs.granted, fun ht => absurd ht hno, fun _ => hs⟩
  case isFalse hv =>
    split
    case h_1 pages last hrun =>
      have hyes : journalTrusted i d.stripe.jrnl := ⟨by simpa using hv, by simp [hrun]⟩
      have hr := replayRun_replayed i pages last d
      exact ⟨hr.granted, fun _ => hr, fun hno => absurd hyes hno⟩
    case h_2 hrun =>
      have hno : ¬ journalTrusted i d.stripe.jrnl := fun ⟨_, ht⟩ => by simp [hrun] at ht
      exact ⟨hs.granted, fun ht => absurd ht hno, fun _ => hs⟩

/-- A recovery whose reads have their clamps comes to one of the two. -/
theorem execJournalRecovery_recovered (i : RecoveryIn) (hstate : s.stripe.jrnl.state = 1) (hstep : s.stripe.jrnl.recStep = 2)
    (hg : recoveryGranted (grantForecast s) = true) :
    ∃ t u, exec (.journalRecovery i) s = .next t ∧ t = settle u ∧ t.bg.scanned = u.bg.scanned
      ∧ t.stripe.granted = u.stripe.granted
      ∧ (if s.stripe.jrnl.anchorValid = true ∧ (journalRun i s.stripe.jrnl).isSome = true then
          u.stripe.jrnl.recStep = 4 ∨ u.stripe.jrnl.recStep = 5 ∨ u.bg.scanned = true
        else u.bg.scanned = true ∧ u.modes.fenceJournal = true ∧ u.stripe.granted = true) := by
  obtain ⟨hgranted, hreplayed, hscanned⟩ := recoverJournal_recovered i hstate hstep hg
  have q : Quiet (recoverJournal i s) (settle (recoverJournal i s)) := settle_quiet (.refl _)
  refine ⟨_, _, rfl, rfl, q.scanned, (q.granted hgranted).trans hgranted.symm, ?_⟩
  split
  case isTrue ht => exact (hreplayed ht).step
  case isFalse hno => exact ⟨(hscanned hno).scanned, (hscanned hno).fence, hgranted⟩

end
end Sys2Proof.Machine

namespace Sys2Proof.Machine

section
variable {s : State}

/-! ### A page whose copies have all passed (R307, R308, R311) -/

/-- The end of a fold puts no page in flight, and makes no record durable but those of the pages that have passed. -/
theorem endFold_quiet (hheld : s.stripe.jrnl.heldRec = s.stripe.jrnl.pageRecs) : Quiet s (endFold s) := by
  unfold endFold
  extract_lets +onlyGivenNames _ _ s₁ s₂ s₃
  have h₁ : Quiet s s₁ := .frame (.refl s) rfl
  have q : Quiet s₁ s₂ := writeAnchor_quiet (.refl s₁)
  have k : Steady s₁ s₂ := writeAnchor_steady (.refl s₁)
  have hheld₂ : s₂.stripe.jrnl.heldRec = s₂.stripe.jrnl.pageRecs := (k.heldRec.trans hheld).trans q.pageRecs.symm
  have h₂ : Quiet s s₂ := h₁.trans q
  have hdurable (e : s₂.stripe.jrnl.durableRec = s₂.stripe.jrnl.pageRecs) :
      max s₂.stripe.jrnl.durableRec s₂.stripe.jrnl.heldRec = s₂.stripe.jrnl.pageRecs := by rw [e, hheld₂, max_self]
  have h₃ : Quiet s s₃ := h₂.trans { Quiet.refl s₂ with durable := hdurable }
  exact .ite (journalEvent_quiet (setConds_quiet (fun _ => rfl) h₃)) h₂

/-- A page that has passed is no longer in flight, and its records are durable unless the journal is lost. -/
def pagePassed (p : JPage) (j : Jrnl) : Jrnl :=
  { j with
    inFlight := none
    durableJseq := if p.copies.contains 0 then p.jseq else j.durableJseq
    pages := if p.copies.contains 0 then p.jseq + 1 - j.foldJseq else j.pages
    heldRec := j.pageRecs
    durableRec := if j.lost then j.durableRec else j.pageRecs }

theorem pageDurable_quiet (p : JPage) : Quiet (modJrnl (pagePassed p) s) (pageDurable p s) :=
  foldIfDue_quiet (.ite (endFold_quiet rfl) (.refl _))

theorem execJournalPageDurable_passed {p : JPage} (hflight : s.stripe.jrnl.inFlight = some p)
    (hleft : s.stripe.jrnl.copiesLeft = []) (hlost : s.stripe.jrnl.lost = false) :
    ∃ t, exec .journalPageDurable s = .next t ∧ t.stripe.jrnl.inFlight = none
      ∧ t.stripe.jrnl.durableRec = s.stripe.jrnl.pageRecs := by
  let audit := p.recs.filter (fun r => recType r == 0x32 || recType r == 0x33)
  have e : exec .journalPageDurable s = .next (settle (audit.foldl (fun s r => logRecord (le 32 r.toNat) s) (pageDurable p s))) := by
    show execJournalPageDurable s = _
    simp only [execJournalPageDurable, hflight, hleft, List.isEmpty_nil, if_true] <;> rfl
  have q : Quiet (modJrnl (pagePassed p) s)
      (settle (audit.foldl (fun s r => logRecord (le 32 r.toNat) s) (pageDurable p s))) :=
    settle_quiet (.foldl (fun _ _ ht => logRecord_quiet ht) (pageDurable_quiet p))
  have hdurable : (modJrnl (pagePassed p) s).stripe.jrnl.durableRec = s.stripe.jrnl.pageRecs := by
    simp [modJrnl, pagePassed, hlost]
  exact ⟨_, e, q.inFlight rfl, (q.durable hdurable).trans q.pageRecs⟩

theorem execJournalPageDurable_waits (h : s.stripe.jrnl.inFlight = none ∨ s.stripe.jrnl.copiesLeft ≠ []) :
    exec .journalPageDurable s = .next s := by
  show execJournalPageDurable s = _
  unfold execJournalPageDurable
  split
  case h_1 p hp =>
    have hne : s.stripe.jrnl.copiesLeft ≠ [] := h.resolve_left (by simp [hp])
    rw [if_neg (by simpa using hne)]
  case h_2 => rfl

/-! ### A candidate of the journal's pair (R325, R364, R502) -/

theorem findObj_candidate {sub : Nat} (h1 : 1 ≤ sub) (h8 : sub ≤ 8) : (findObj 0x2801 sub).isSome = true := by
  interval_cases sub <;> decide

/-- What is put in the store is what is read from it: an object at its default needs no entry. -/
theorem stored_of_putValue {idx sub : Nat} {v : List Byte} {l : List ((Nat × Nat) × List Byte)}
    (hobj : (findObj idx sub).isSome = true) (h : s.dict.saved = putValue idx sub v l) : stored idx sub s = v := by
  obtain ⟨o, ho⟩ := Option.isSome_iff_exists.mp hobj
  have hnone : (dropKey (idx, sub) l).lookup (idx, sub) = none := by
    rw [List.lookup_eq_none_iff]
    intro p hp
    have hne : p.1 ≠ (idx, sub) := by simpa using (List.mem_filter.mp hp).2
    simpa using fun e => hne e.symm
  simp only [putValue, ho] at h
  split at h
  case isTrue hv => simpa [stored, h, hnone, ho] using (beq_iff_eq.mp hv).symm
  case isFalse => simp [stored, h]

/-- The candidate put in the dictionary's store (R502). -/
def keepCandidate (sub : Nat) (v : List Byte) (s : State) : State :=
  { s with dict := { s.dict with saved := putValue 0x2801 sub v s.dict.saved } }

/-- A pair that does not wait to be moved is not moved (R325). -/
theorem candidateWritten_of_stays {sub n : Nat} (h : s.stripe.jrnl.moving = false ∨ s.stripe.jrnl.pairWaits = false) :
    candidateWritten sub n s = s := by
  unfold candidateWritten
  rcases h with h | h <;> simp only [h, Bool.false_and, Bool.and_false, Bool.false_eq_true, if_false]

theorem execJournalCandidates_kept {sub : Nat} {lun : BitVec 16} (h1 : 1 ≤ sub) (h8 : sub ≤ 8) (hserves : dictServes s = true)
    (hholdup : s.modes.holdup = false) (hworks : saveWorks s = true) (hlun : lun.toNat < 4096 ∨ lun = 0xFFFF) :
    ∃ t, exec (.journalCandidates sub lun) s = .next t ∧ stored 0x2801 sub t = le 2 lun.toNat ∧ t.rings = s.rings
      ∧ (s.stripe.jrnl.moving = false ∨ s.stripe.jrnl.pairWaits = false ∨ s.modes.follower = true →
        t.stripe = s.stripe ∧ t.modes = s.modes) := by
  let kept := keepCandidate sub (le 2 lun.toNat) s
  let u := if s.modes.follower then kept else candidateWritten sub lun.toNat kept
  have hok : candidateOk lun.toNat = true := by
    rcases hlun with h | rfl
    · simp [candidateOk, h]
    · rfl
  have e : exec (.journalCandidates sub lun) s = .next (saveRecord 0x2801 sub (le 2 lun.toNat) u) := by
    show execJournalCandidates sub lun s = _
    simp only [execJournalCandidates, checked, h1, h8, hserves, hok, hholdup, hworks, decide_true, Bool.and_self,
      Bool.not_false, if_true] <;> rfl
  have hu : Steady kept u := .ite (.refl _) (candidateWritten_steady (.refl _))
  have ht : Filed u (saveRecord 0x2801 sub (le 2 lun.toNat) u) := saveRecord_filed (.refl u)
  have k : Steady kept (saveRecord 0x2801 sub (le 2 lun.toNat) u) := hu.trans ht.steady
  refine ⟨_, e, stored_of_putValue (findObj_candidate h1 h8) k.saved, k.rings, fun hstay => ?_⟩
  have hk : u = kept := by
    rcases hstay with h | h | h
    · exact (ite_eq_left_iff.mpr fun _ => candidateWritten_of_stays (.inl h))
    · exact (ite_eq_left_iff.mpr fun _ => candidateWritten_of_stays (.inr h))
    · exact if_pos h
  simp only [Filed, State.filed, Prod.mk.injEq] at ht
  obtain ⟨-, hmodes, hstripe, -⟩ := ht
  exact ⟨hstripe.trans (by rw [hk]; rfl), hmodes.trans (by rw [hk]; rfl)⟩

theorem execJournalCandidates_refused {sub : Nat} {lun : BitVec 16} (h1 : 1 ≤ sub) (h8 : sub ≤ 8)
    (h : dictServes s = false ∨ s.modes.holdup = true ∨ saveWorks s = false ∨ (4096 ≤ lun.toNat ∧ lun ≠ 0xFFFF)) :
    exec (.journalCandidates sub lun) s = .next s := by
  have hno : (dictServes s && candidateOk lun.toNat && !s.modes.holdup && saveWorks s) = false := by
    rcases h with h | h | h | ⟨hge, hne⟩
    · simp [h]
    · simp [h]
    · simp [h]
    · have hones : lun.toNat ≠ 65535 := fun e => hne (BitVec.eq_of_toNat_eq e)
      have hbad : candidateOk lun.toNat = false := by simp [candidateOk, hones]; omega
      simp [hbad]
  show execJournalCandidates sub lun s = _
  simp only [execJournalCandidates, checked, h1, h8, hno, decide_true, Bool.and_self, if_true, Bool.false_eq_true, if_false]

end
end Sys2Proof.Machine

namespace Sys2Proof.Machine

section
variable {s₀ s t : State}

/-! ### The jobs of a journal page (R307, R315, R366) -/

/-- The journal's state but for the blocks it waits to have erased. -/
def Jrnl.core (j : Jrnl) : Jrnl := { j with erases := [] }

/-- Jobs have been placed, and blocks of the journal noted for erasure. -/
structure Placed (s t : State) : Prop where
  rings : t.rings = s.rings
  modes : t.modes = s.modes
  dir : t.stripe.dir = s.stripe.dir
  jrnl : t.stripe.jrnl.core = s.stripe.jrnl.core

theorem Placed.refl (s : State) : Placed s s := ⟨rfl, rfl, rfl, rfl⟩

theorem Placed.trans (h : Placed s₀ s) (k : Placed s t) : Placed s₀ t :=
  ⟨k.rings.trans h.rings, k.modes.trans h.modes, k.dir.trans h.dir, k.jrnl.trans h.jrnl⟩

theorem Placed.ite {c : Prop} [Decidable c] {a b : State} (ha : Placed s₀ a) (hb : Placed s₀ b) :
    Placed s₀ (if c then a else b) := by split <;> assumption

theorem Placed.foldl {α : Type _} {f : State → α → State} {l : List α} (hf : ∀ s a, Placed s₀ s → Placed s₀ (f s a))
    (h : Placed s₀ s) : Placed s₀ (l.foldl f s) := by
  induction l generalizing s with
  | nil => exact h
  | cons a l ih => exact ih (hf s a h)

/-- An update of the scheduler, of the LUNs' records, of the jigs or of what recovers blocks. -/
theorem Placed.frame {sched : Sched} {jigs : List Jig} {recov : Recov} {luns : List (Nat × LunRec)} {dv : Dv}
    (h : Placed s₀ s) : Placed s₀ { s with sched := sched, jigs := jigs, recov := recov, luns := luns, dv := dv } :=
  h.trans ⟨rfl, rfl, rfl, rfl⟩

theorem dvSend_placed {type : Nat} {dst : Option (BitVec 3)} {payload : List Byte} (h : Placed s₀ s) :
    Placed s₀ (dvSend type dst payload s) := by
  obtain ⟨dv, e, -, -⟩ := dvSend_eq type dst payload s
  rw [e]
  exact h.frame

theorem resolveFeats_placed {j : Job} (h : Placed s₀ s) : Placed s₀ (resolveFeats j s).2 := by
  unfold resolveFeats
  extract_lets +onlyGivenNames _ _
  split
  · exact h.frame
  · split
    · exact h
    · split <;> exact h.frame

theorem addJob_placed {j : Job} (h : Placed s₀ s) : Placed s₀ (addJob j s).2 := by
  unfold addJob
  extract_lets +onlyGivenNames _ _ _ _
  split
  · exact h.frame
  · exact dvSend_placed (resolveFeats_placed h.frame)

theorem addErase_placed {owner : Owner} {u block prio : Nat} (h : Placed s₀ s) : Placed s₀ (addErase owner u block prio s).2 := by
  have hdrop : Placed s₀ (dropSearches u block s) := h.frame.frame
  exact addJob_placed hdrop

theorem eraseJournal_placed {u block : Nat} (h : Placed s₀ s) : Placed s₀ (eraseJournal u block s) :=
  addErase_placed (h.trans ⟨rfl, rfl, rfl, rfl⟩)

theorem eraseRing_placed {idxs : List Nat} (h : Placed s₀ s) : Placed s₀ (eraseRing idxs s) :=
  .foldl (fun _ _ ht => eraseJournal_placed (eraseJournal_placed ht)) h

theorem eraseOldRing_placed {j : Jrnl} (h : Placed s₀ s) : Placed s₀ (eraseOldRing j s) := .ite (eraseJournal_placed h) h

theorem programJournal_placed {copy u base pj idx : Nat} (h : Placed s₀ s) :
    Placed s₀ (programJournal copy u base pj idx s) := addJob_placed h

/-! ### A page goes out (R307, R308, R366) -/

/-- The journal once page `p`, with `recs` records, is in flight. -/
def launched (p : JPage) (recs : Nat) (j : Jrnl) : Jrnl :=
  let copies := pageCopies p.kind j
  { j with
    inFlight := some { p with copies := copies }, copiesLeft := copies, pageRecs := j.pageRecs + recs
    jseq := if copies.contains 0 then p.jseq else j.jseq
    page := if copies.contains 0 then ringNext j.page j.blocks j.pj else j.page
    oldJseq := if copies.contains 2 then j.oldJseq + 1 else j.oldJseq
    oldPage := if copies.contains 2 then ringNext j.oldPage j.oldBase.2 j.oldPj else j.oldPage }

theorem launchPage_placed (p : JPage) (recs : Nat) (s : State) :
    Placed (modJrnl (launched p recs) s) (launchPage p recs s) := by
  unfold launchPage
  extract_lets +onlyGivenNames j copies s₁ s₂ s₃
  have h₁ : Placed (modJrnl (launched p recs) s) s₁ := .refl _
  clear_value s₁
  have h₂ : Placed (modJrnl (launched p recs) s) s₂ := .ite (programJournal_placed (programJournal_placed h₁)) h₁
  have h₃ : Placed (modJrnl (launched p recs) s) s₃ := .ite (programJournal_placed h₂) h₂
  exact .ite h₃ (.ite (eraseRing_placed (.ite (eraseOldRing_placed h₃) h₃)) (.ite (eraseOldRing_placed h₃) h₃))

end
end Sys2Proof.Machine

namespace Sys2Proof.Machine

section
variable {s : State}

/-! ### The page that goes out next (R307, R308, R311) -/

/-- Whether a page of the snapshot goes out now (R311). -/
def snapGoes (s : State) : Bool :=
  (s.stripe.jrnl.queue.isEmpty || s.stripe.jrnl.snapTurn) && snapWhole s && s.stripe.jrnl.folding
    && 0 < s.stripe.jrnl.snapLeft && !s.modes.holdup

/-- The state once a page of the snapshot that is wanted has been asked for. -/
def askSnapshot (s : State) : State :=
  if (s.stripe.jrnl.queue.isEmpty || s.stripe.jrnl.snapTurn) && snapReady s && !(snapWhole s) then readSnapshot s else s

theorem execJournalPageStart_of_not_writes (h : jrnlWrites s = false) : exec .journalPageStart s = .next s := by
  show execJournalPageStart s = _
  simp only [execJournalPageStart, h, Bool.not_false, if_true]

theorem execJournalPageStart_of_snapGoes (hw : jrnlWrites s = true) (h : snapGoes s = true) :
    exec .journalPageStart s = .next (startSnapshot s) := by
  rw [snapGoes] at h
  show execJournalPageStart s = _
  simp only [execJournalPageStart, hw, h, Bool.not_true, Bool.false_eq_true, if_true, if_false]

theorem execJournalPageStart_of_not_snapGoes (hw : jrnlWrites s = true) (h : snapGoes s = false) :
    exec .journalPageStart s
      = .next (if s.stripe.jrnl.queue.isEmpty then askSnapshot s else startRecords (askSnapshot s)) := by
  rw [snapGoes] at h
  show execJournalPageStart s = _
  simp only [execJournalPageStart, hw, h, Bool.not_true, Bool.false_eq_true, if_false] <;> rfl

/-- Asking for the snapshot moves only the host port and what has been read of it. -/
theorem askSnapshot_eq (s : State) : ∃ host got,
    askSnapshot s = { s with host := host, stripe := { s.stripe with jrnl := { s.stripe.jrnl with snapGot := got } } } := by
  unfold askSnapshot readSnapshot
  split
  · split
    · exact ⟨_, _, rfl⟩
    · exact ⟨_, _, rfl⟩
  · exact ⟨_, _, rfl⟩

/-- The waiting records that fill a page have left the queue (R307). -/
def recordsTaken (first : Option (Nat × Nat)) (j : Jrnl) : Jrnl :=
  { j with queue := j.queue.drop 2047, foldFirst := first, snapTurn := true }

/-- The page of the records that have waited longest. -/
def recordsPage (j : Jrnl) : JPage :=
  { kind := 0, jseq := j.jseq + 1, page := j.page, recs := (j.queue.take 2047).map (stampFold (j.jseq + 1)) }

theorem startRecords_placed (s : State) : ∃ first,
    Placed (modJrnl (launched (recordsPage s.stripe.jrnl) (recordsPage s.stripe.jrnl).recs.length)
      (modJrnl (recordsTaken first) s)) (startRecords s) := ⟨_, launchPage_placed _ _ _⟩

theorem recordsPage_length (j : Jrnl) : (recordsPage j).recs.length = min 2047 j.queue.length := by
  simp [recordsPage]

theorem Placed.inFlight {s t : State} (h : Placed s t) : t.stripe.jrnl.inFlight = s.stripe.jrnl.inFlight := by
  have e := congrArg Jrnl.inFlight h.jrnl; exact e

theorem Placed.queue {s t : State} (h : Placed s t) : t.stripe.jrnl.queue = s.stripe.jrnl.queue := by
  have e := congrArg Jrnl.queue h.jrnl; exact e

theorem Placed.copiesLeft {s t : State} (h : Placed s t) : t.stripe.jrnl.copiesLeft = s.stripe.jrnl.copiesLeft := by
  have e := congrArg Jrnl.copiesLeft h.jrnl; exact e

theorem Placed.pageRecs {s t : State} (h : Placed s t) : t.stripe.jrnl.pageRecs = s.stripe.jrnl.pageRecs := by
  have e := congrArg Jrnl.pageRecs h.jrnl; exact e

theorem Placed.snapLeft {s t : State} (h : Placed s t) : t.stripe.jrnl.snapLeft = s.stripe.jrnl.snapLeft := by
  have e := congrArg Jrnl.snapLeft h.jrnl; exact e

theorem not_snapGoes (hq : s.stripe.jrnl.queue ≠ [])
    (h : s.stripe.jrnl.snapTurn = false ∨ snapWhole s = false ∨ s.stripe.jrnl.folding = false ∨ s.stripe.jrnl.snapLeft = 0
      ∨ s.modes.holdup = true) : snapGoes s = false := by
  have hempty : s.stripe.jrnl.queue.isEmpty = false := by simpa using hq
  rcases h with h | h | h | h | h <;> simp [snapGoes, hempty, h]

theorem execJournalPageStart_records (hw : jrnlWrites s = true) (hq : s.stripe.jrnl.queue ≠ [])
    (h : snapGoes s = false) :
    ∃ t p, exec .journalPageStart s = .next t ∧ t.stripe.jrnl.queue = s.stripe.jrnl.queue.drop 2047
      ∧ t.stripe.jrnl.inFlight = some p ∧ p.kind = 0 ∧ p.jseq = s.stripe.jrnl.jseq + 1 ∧ p.page = s.stripe.jrnl.page
      ∧ p.recs = (s.stripe.jrnl.queue.take 2047).map (stampFold (s.stripe.jrnl.jseq + 1))
      ∧ t.stripe.jrnl.copiesLeft = p.copies
      ∧ t.stripe.jrnl.pageRecs = s.stripe.jrnl.pageRecs + min 2047 s.stripe.jrnl.queue.length
      ∧ t.rings = s.rings ∧ t.modes = s.modes ∧ t.stripe.dir = s.stripe.dir := by
  have hempty : s.stripe.jrnl.queue.isEmpty = false := by simpa using hq
  have e : exec .journalPageStart s = .next (startRecords (askSnapshot s)) := by
    rw [execJournalPageStart_of_not_snapGoes hw h, hempty, if_neg Bool.false_ne_true]
  obtain ⟨host, got, hask⟩ := askSnapshot_eq s
  rw [hask] at e
  obtain ⟨first, hp⟩ := startRecords_placed
    { s with host := host, stripe := { s.stripe with jrnl := { s.stripe.jrnl with snapGot := got } } }
  refine ⟨_, _, e, hp.queue, hp.inFlight, rfl, rfl, rfl, rfl, hp.copiesLeft, hp.pageRecs.trans ?_, hp.rings, hp.modes, hp.dir⟩
  exact congrArg (s.stripe.jrnl.pageRecs + ·) (recordsPage_length s.stripe.jrnl)

/-! ### A page of the snapshot (R308, R311) -/

/-- A page of the snapshot is on its way. -/
def snapTaken (j : Jrnl) : Jrnl := { j with snapLeft := j.snapLeft - 1, snapTurn := false, snapGot := [] }

/-- The next page of the snapshot. -/
def snapPage (s : State) : JPage :=
  { kind := 1, jseq := s.stripe.jrnl.jseq + 1, page := s.stripe.jrnl.page, recs := [], snap := snapData s, woff := snapOffset s }

/-- A record leaves the page in flight, the snapshot, the rings and the modes alone. -/
theorem addRec_keeps (r : BitVec 256) (s : State) : (addRec r s).stripe.jrnl.inFlight = s.stripe.jrnl.inFlight
    ∧ (addRec r s).stripe.jrnl.snapLeft = s.stripe.jrnl.snapLeft ∧ (addRec r s).rings = s.rings
    ∧ (addRec r s).modes = s.modes := by
  unfold addRec
  split
  · obtain ⟨dv, e, -, -⟩ := dvSend_eq 0x20 (some s.modes.leadDie) (le 32 r.toNat) { s with dv := { s.dv with recOut := true } }
    rw [e]
    exact ⟨rfl, rfl, rfl, rfl⟩
  · exact ⟨rfl, rfl, rfl, rfl⟩

theorem length_padTo (n : Nat) (l : List Byte) : (padTo n l).length = n := by
  simp only [padTo, zeros, List.length_append, List.length_take, List.length_replicate]
  omega

/-- The journal state of a page of the snapshot that goes out. -/
structure SnapSent (s t : State) : Prop where
  inFlight : t.stripe.jrnl.inFlight = some { snapPage s with copies := pageCopies 1 (snapTaken s.stripe.jrnl) }
  snapLeft : t.stripe.jrnl.snapLeft = s.stripe.jrnl.snapLeft - 1
  rings : t.rings = s.rings
  modes : t.modes = s.modes

theorem startSnapshot_sent (s : State) : SnapSent s (startSnapshot s) := by
  unfold startSnapshot
  extract_lets +onlyGivenNames j _ _ s₁ s₂
  have hp : Placed (modJrnl (launched (snapPage s) 0) (modJrnl snapTaken s)) s₂ := launchPage_placed _ _ _
  have h : SnapSent s s₂ := ⟨hp.inFlight, hp.snapLeft, hp.rings, hp.modes⟩
  clear_value s₂
  split
  · obtain ⟨hflight, hleft, hrings, hmodes⟩ := addRec_keeps (mkRec 9 0 [(8, (j.foldFirst.getD (0, 0)).2)]) s₂
    exact ⟨hflight.trans h.inFlight, hleft.trans h.snapLeft, hrings.trans h.rings, hmodes.trans h.modes⟩
  · exact h

theorem execJournalPageStart_snapshot (hw : jrnlWrites s = true) (hwhole : snapWhole s = true)
    (hfold : s.stripe.jrnl.folding = true) (hleft : 0 < s.stripe.jrnl.snapLeft) (hholdup : s.modes.holdup = false)
    (hturn : s.stripe.jrnl.queue = [] ∨ s.stripe.jrnl.snapTurn = true) :
    ∃ t p, exec .journalPageStart s = .next t ∧ t.stripe.jrnl.inFlight = some p ∧ p.kind = 1
      ∧ p.woff = (snapPages s - s.stripe.jrnl.snapLeft) * 61440 ∧ p.snap = snapData s ∧ p.snap.length = 61440
      ∧ t.stripe.jrnl.snapLeft = s.stripe.jrnl.snapLeft - 1 ∧ t.rings = s.rings ∧ t.modes = s.modes := by
  have hgoes : snapGoes s = true := by
    have ht : (s.stripe.jrnl.queue.isEmpty || s.stripe.jrnl.snapTurn) = true := by simpa using hturn
    simp [snapGoes, ht, hwhole, hfold, hleft, hholdup]
  have h := startSnapshot_sent s
  exact ⟨_, _, execJournalPageStart_of_snapGoes hw hgoes, h.inFlight, rfl, rfl, rfl, length_padTo _ _, h.snapLeft, h.rings,
    h.modes⟩

/-! ### The reads of a page of the snapshot (R33, R308) -/

/-- The pieces of a range do not depend on the fuel, when it lasts. -/
theorem splitLens_fuel {n m addr len : Nat} (hn : len = 0 ∨ addr % 4096 + len ≤ 4096 * n)
    (hm : len = 0 ∨ addr % 4096 + len ≤ 4096 * m) : splitLens n addr len = splitLens m addr len := by
  induction n generalizing m addr len with
  | zero =>
    have hlen : len = 0 := by omega
    cases m <;> simp [splitLens, hlen]
  | succ n ih =>
    cases m with
    | zero =>
      have hlen : len = 0 := by omega
      simp [splitLens, hlen]
    | succ m =>
      simp only [splitLens]
      split
      · rfl
      · rw [ih (m := m)] <;> omega

theorem snapReads_eq (s : State) : snapReads s =
    splitLens (min 61440 (winBytes s - snapOffset s) / 32 + 2) (winBase s + snapOffset s)
      (min 61440 (winBytes s - snapOffset s)) :=
  splitLens_fuel (by omega) (by omega)

/-- A request that is made is at the port, or waits for it. -/
theorem settle_reads_asks {p : HostPorts} {what : HostWhat} {x : Nat × Nat}
    (h : { addr := BitVec.ofNat 64 x.1, len := x.2, what := what } ∈ p.reads ++ p.rstalled) :
    ∃ r ∈ p.settle.reads ++ p.settle.rstalled, r.what = what ∧ r.addr = BitVec.ofNat 64 x.1 ∧ r.len = x.2 := by
  obtain ⟨tag, ht⟩ := mem_settle_reads h
  exact ⟨_, ht, rfl, rfl, rfl⟩

theorem hostReadData_asks {what : HostWhat} {addr len : Nat} {x : Nat × Nat}
    (hx : x ∈ splitLens (len / 32 + 2) addr len) (s : State) :
    ∃ r ∈ (hostReadData what addr len s).host.reads ++ (hostReadData what addr len s).host.rstalled,
      r.what = what ∧ r.addr = BitVec.ofNat 64 x.1 ∧ r.len = x.2 :=
  settle_reads_asks (List.mem_append_right _ (List.mem_append_right _ (List.mem_map_of_mem hx)))

theorem readSnapshot_asks (h : snapReading s = false) : ∀ x ∈ snapReads s,
    ∃ r ∈ (readSnapshot s).host.reads ++ (readSnapshot s).host.rstalled, r.what = .snapRead
      ∧ r.addr = BitVec.ofNat 64 x.1 ∧ r.len = x.2 := by
  intro x hx
  rw [snapReads_eq] at hx
  rw [readSnapshot, h, if_neg Bool.false_ne_true]
  exact hostReadData_asks hx _

end

/-- Settles O44, clause by clause: a page of records, a page of the snapshot and its reads, a page that has passed,
recovery, and a candidate of the pair. -/
theorem journalPagesAndRecovery : Obligations.JournalPagesAndRecovery := by
  unfold Obligations.JournalPagesAndRecovery
  refine ⟨fun _ hw => execJournalPageStart_of_not_writes hw,
    fun _ hw hq h => execJournalPageStart_records hw hq (not_snapGoes hq h), fun s hw hready hwhole hq => ?_,
    fun _ => execJournalPageStart_snapshot, fun _ _ => execJournalPageDurable_passed,
    fun _ => execJournalPageDurable_waits,
    fun i _ h => congrArg (fun u => Host.Outcome.next (settle u)) (recoverJournal_of_not_waits i h),
    fun i _ hstate hstep hg =>
      congrArg (fun u => Host.Outcome.next (settle u)) (recoverJournal_of_not_granted i hstate hstep hg),
    fun i _ => execJournalRecovery_recovered i,
    fun _ _ _ h1 h8 => ⟨execJournalCandidates_refused h1 h8, execJournalCandidates_kept h1 h8⟩⟩
  have hgoes : snapGoes s = false := by simp [snapGoes, hwhole]
  have e : exec .journalPageStart s = .next (readSnapshot s) := by
    have hask : askSnapshot s = readSnapshot s := by simp [askSnapshot, hq, hready, hwhole]
    rw [execJournalPageStart_of_not_snapGoes hw hgoes, hask, hq]
    rfl
  refine ⟨fun hr => ?_, fun hr => ⟨_, e, readSnapshot_asks hr, ?_⟩⟩
  · rw [e, readSnapshot, if_pos hr]
  · rw [readSnapshot, hr, if_neg Bool.false_ne_true]
    rfl

end Sys2Proof.Machine

namespace Sys2Proof.Machine

/-! ### Every command goes on or names a unit that does not exist (R28, R29, R576) -/

/-- Each command has one next state, behind the check of its operands alone. -/
theorem exec_eq_checked (c : Instr) (s : State) : ∃ t, exec c s = checked (wellFormed c) t := by
  cases c <;> exact ⟨_, rfl⟩

/-- Settles O2: a command is its next state, behind the check of its operands. -/
theorem everyPresentableCommandGoesOn : Obligations.EveryPresentableCommandGoesOn := by
  unfold Obligations.EveryPresentableCommandGoesOn
  intro c s
  obtain ⟨t, ht⟩ := exec_eq_checked c s
  exact ⟨fun hw => ⟨t, by rw [ht, hw]; rfl⟩, fun hw => by rw [ht, hw]; rfl⟩

/-! ### The queue (R26) -/

/-- Every command keeps the queue, the counts of units and the canonical form of the memories. -/
theorem exec_held {p : List Instr} {s : State} (c : Instr) (h : Held p s) : HeldOut p (exec c s) := by
  cases c with
  | porNAssert => exact execPorNAssert_held _ h
  | rstNAssert => exact execRstNAssert_held _ h
  | resetDeassert _ => exact execResetDeassert_held _ _ h
  | trainEntry _ => exact execTrainEntry_held _ _ h
  | targetReadyTimeout _ _ => exact execTargetReadyTimeout_held _ _ _ h
  | softReset _ => exact execSoftReset_held _ _ h
  | enterStandby _ => exact execEnterStandby_held _ _ h
  | standbyEntry _ => exact execStandbyEntry_held _ _ h
  | stbyRefused => exact execStbyRefused_held _ h
  | watchdog => exact execWatchdog_held _ h
  | aonTimerExpiry => exact execAonTimerExpiry_held _ h
  | ringEnable _ => exact execRingEnable_held _ _ h
  | ringShutdown _ _ => exact execRingShutdown_held _ _ _ h
  | ringRestart _ => exact execRingRestart_held _ _ h
  | ringDoorbell n v => exact execRingDoorbell_held n v _ h
  | ringFetch _ _ _ => exact execRingFetch_held _ _ _ _ h
  | entryCompletion _ => exact execEntryCompletion_held _ _ h
  | writeRow _ _ => exact execWriteRow_held _ _ _ h
  | read _ _ => exact execRead_held _ _ _ h
  | releaseGroup _ => exact execReleaseGroup_held _ _ h
  | flush _ => exact execFlush_held _ _ h
  | bind _ => exact execBind_held _ _ h
  | bindReserve => exact execBindReserve_held _ h
  | bindWaitEvent _ => exact execBindWaitEvent_held _ _ h
  | unbindForce _ => exact execUnbindForce_held _ _ h
  | rawJig _ _ => exact execRawJig_held _ _ _ h
  | groupOpen _ => exact execGroupOpen_held _ _ h
  | groupClose _ => exact execGroupClose_held _ _ h
  | rebuildStart _ => exact execRebuildStart_held _ _ h
  | refitStart _ _ => exact execRefitStart_held _ _ _ h
  | patrolPause _ => exact execPatrolPause_held _ _ h
  | patrolResume _ => exact execPatrolResume_held _ _ h
  | patrolSetRate _ => exact execPatrolSetRate_held _ _ h
  | patrolNewLap _ => exact execPatrolNewLap_held _ _ h
  | accumOpen _ _ => exact execAccumOpen_held _ _ _ h
  | accumDrainEnd => exact execAccumDrainEnd_held _ h
  | accumReturn _ => exact execAccumReturn_held _ _ h
  | nop _ => exact execNop_held _ _ h
  | hostReadDone _ _ => exact execHostReadDone_held _ _ _ h
  | hostWriteAck _ _ => exact execHostWriteAck_held _ _ _ h
  | writeDataArrival _ _ _ _ => exact execWriteDataArrival_held _ _ _ _ _ h
  | slotAssign _ => exact execSlotAssign_held _ _ h
  | slotWaitEvent _ => exact execSlotWaitEvent_held _ _ h
  | drawerPlace _ => exact execDrawerPlace_held _ _ h
  | clampGrant => exact execClampGrant_held _ h
  | deferEvent _ => exact execDeferEvent_held _ _ h
  | xmChargeRelease _ => exact execXmChargeRelease_held _ _ h
  | jigMicroword _ _ => exact execJigMicroword_held _ _ _ h
  | mcClampRelease _ => exact execMcClampRelease_held _ _ h
  | jigReload _ _ => exact execJigReload_held _ _ _ h
  | jigTimerExpiry _ => exact execJigTimerExpiry_held _ _ h
  | statusCapture _ _ => exact execStatusCapture_held _ _ _ h
  | jigResume _ _ => exact execJigResume_held _ _ _ h
  | jigStop _ _ => exact execJigStop_held _ _ _ h
  | jsSel _ => exact execJsSel_held _ _ h
  | codewordEncode _ _ => exact execCodewordEncode_held _ _ _ h
  | hardDecode _ _ _ _ => exact execHardDecode_held _ _ _ _ _ h
  | softDecode _ _ _ _ => exact execSoftDecode_held _ _ _ _ _ h
  | fusionDecode _ _ _ _ => exact execFusionDecode_held _ _ _ _ _ h
  | predictedThresholds _ => exact execPredictedThresholds_held _ _ h
  | truedThresholds _ => exact execTruedThresholds_held _ _ h
  | retryTable _ => exact execRetryTable_held _ _ h
  | softRead _ => exact execSoftRead_held _ _ h
  | fusion _ => exact execFusion_held _ _ h
  | reconstruction _ _ _ => exact execReconstruction_held _ _ _ _ h
  | truingIteration _ => exact execTruingIteration_held _ _ h
  | truingAbandon _ => exact execTruingAbandon_held _ _ h
  | wakeSweep => exact execWakeSweep_held _ h
  | doseTick => exact execDoseTick_held _ h
  | doseSave => exact execDoseSave_held _ h
  | wallClock _ => exact execWallClock_held _ _ h
  | driftTrip _ _ => exact execDriftTrip_held _ _ _ h
  | retrainDue _ => exact execRetrainDue_held _ _ h
  | retrainSearchEnd _ _ _ => exact execRetrainSearchEnd_held _ _ _ _ h
  | searchRestart _ => exact execSearchRestart_held _ _ h
  | journalPageStart => exact execJournalPageStart_held _ h
  | journalPageDurable => exact execJournalPageDurable_held _ h
  | stripeWinGrant _ => exact execStripeWinGrant_held _ _ h
  | journalRecovery _ => exact execJournalRecovery_held _ _ h
  | windowWriteRetry => exact execWindowWriteRetry_held _ h
  | windowReadRetry => exact execWindowReadRetry_held _ h
  | dirCacheMiss _ _ => exact execDirCacheMiss_held _ _ _ h
  | journalCandidates _ _ => exact execJournalCandidates_held _ _ _ h
  | declareLunFailed _ => exact execDeclareLunFailed_held _ _ h
  | retireMember _ => exact execRetireMember_held _ _ h
  | ledgerClear _ => exact execLedgerClear_held _ _ h
  | rebuildRow _ => exact execRebuildRow_held _ _ h
  | patrolRow _ => exact execPatrolRow_held _ _ h
  | refitRow _ => exact execRefitRow_held _ _ h
  | refitAbort _ => exact execRefitAbort_held _ _ h
  | attach _ => exact execAttach_held _ _ h
  | detach _ => exact execDetach_held _ _ h
  | feed _ => exact execFeed_held _ _ h
  | feedRun _ _ => exact execFeedRun_held _ _ _ h
  | verifyGood _ => exact execVerifyGood_held _ _ h
  | verifyBad _ => exact execVerifyBad_held _ _ h
  | fragOpen _ => exact execFragOpen_held _ _ h
  | pass _ => exact execPass_held _ _ h
  | passJudge _ _ => exact execPassJudge_held _ _ _ h
  | fragRead _ => exact execFragRead_held _ _ h
  | fragClose _ => exact execFragClose_held _ _ h
  | mediaReservedMsg _ => exact execMediaReservedMsg_held _ _ h
  | forecast _ => exact execForecast_held _ _ h
  | revoke _ => exact execRevoke_held _ _ h
  | mediaAbort _ => exact execMediaAbort_held _ _ h
  | sidebandIgnored _ => exact execSidebandIgnored_held _ _ h
  | forecastExpiry => exact execForecastExpiry_held _ h
  | pwrFail => exact execPwrFail_held _ h
  | holdupDone => exact execHoldupDone_held _ h
  | ovAlert => exact execOvAlert_held _ h
  | ovStage2 => exact execOvStage2_held _ h
  | vm31Crossing => exact execVm31Crossing_held _ h
  | ovClear => exact execOvClear_held _ h
  | droopTrip _ => exact execDroopTrip_held _ _ h
  | droopRestore => exact execDroopRestore_held _ h
  | hkRoundEnd _ => exact execHkRoundEnd_held _ _ h
  | latchOpsTimeout => exact execLatchOpsTimeout_held _ h
  | linkDown _ => exact execLinkDown_held _ _ h
  | linkTrainRetry port => exact execLinkTrainRetry_held port _ h
  | flitRefused _ => exact execFlitRefused_held _ _ h
  | presence _ _ _ _ => exact execPresence_held _ _ _ _ _ h
  | presenceSend => exact execPresenceSend_held _ h
  | claim _ _ _ => exact execClaim_held _ _ _ _ h
  | grant _ _ => exact execGrant_held _ _ _ h
  | heartbeat _ _ _ view _ => exact execHeartbeat_held _ _ _ view _ _ h
  | heartbeatMiss => exact execHeartbeatMiss_held _ h
  | electionBackoff => exact execElectionBackoff_held _ h
  | electTimeout => exact execElectTimeout_held _ h
  | job _ => exact execJob_held _ _ h
  | jobEnd _ _ _ _ _ => exact execJobEnd_held _ _ _ _ _ _ h
  | parity _ _ _ _ => exact execParity_held _ _ _ _ _ h
  | codeword _ _ _ _ => exact execCodeword_held _ _ _ _ _ h
  | record _ => exact execRecord_held _ _ h
  | directory _ _ => exact execDirectory_held _ _ _ h
  | anchor _ => exact execAnchor_held _ _ h
  | media _ _ => exact execMedia_held _ _ _ h
  | wakeMsg _ => exact execWakeMsg_held _ _ h
  | dvReservedMsg type => exact execDvReservedMsg_held type _ h
  | sourceEvent _ _ => exact execSourceEvent_held _ _ _ h
  | groupFire _ _ => exact execGroupFire_held _ _ _ h
  | holdoffExpiry _ => exact execHoldoffExpiry_held _ _ h
  | irqPset _ _ _ => exact execIrqPset_held _ _ _ _ h
  | irqPendClear _ _ => exact execIrqPendClear_held _ _ _ h
  | signalledClear _ _ => exact execSignalledClear_held _ _ _ h
  | idleSet _ _ => exact execIdleSet_held _ _ _ h
  | privilegedRaise _ _ => exact execPrivilegedRaise_held _ _ _ h
  | evqEnable _ => exact execEvqEnable_held _ _ h
  | evqDisable _ => exact execEvqDisable_held _ _ h
  | evqCons _ => exact execEvqCons_held _ _ h
  | logRecordCopy => exact execLogRecordCopy_held _ h
  | program _ _ _ _ _ _ => exact execProgram_held _ _ _ _ _ _ _ h
  | erase _ _ => exact execErase_held _ _ _ h
  | suspend _ => exact execSuspend_held _ _ h
  | resume _ => exact execResume_held _ _ h
  | status _ => exact execStatus_held _ _ h
  | count _ _ => exact execCount_held _ _ _ h
  | markProgram _ _ _ _ => exact execMarkProgram_held _ _ _ _ _ h
  | markLock _ => exact execMarkLock_held _ _ h
  | cabinetOpEnd _ _ => exact execCabinetOpEnd_held _ _ _ h
  | dictRead _ => exact execDictRead_held _ _ h
  | dictWrite _ => exact execDictWrite_held _ _ h
  | dictDescribe _ => exact execDictDescribe_held _ _ h
  | canRead _ => exact execCanRead_held _ _ h
  | canWrite _ => exact execCanWrite_held _ _ h
  | canDescribe _ => exact execCanDescribe_held _ _ h
  | closeSession _ => exact execCloseSession_held _ _ h
  | canStatusFrame => exact execCanStatusFrame_held _ h
  | canEventFrame => exact execCanEventFrame_held _ h
  | canSessionTimeout _ => exact execCanSessionTimeout_held _ _ h
  | dictTransferTimeout _ => exact execDictTransferTimeout_held _ _ h
  | busOff => exact execBusOff_held _ h
  | busOffRecovery => exact execBusOffRecovery_held _ h
  | saveCompaction => exact execSaveCompaction_held _ h
  | authRequest _ _ => exact execAuthRequest_held _ _ _ h
  | authChallenge _ _ => exact execAuthChallenge_held _ _ _ h
  | authKey _ _ => exact execAuthKey_held _ _ _ h
  | authSignature _ _ => exact execAuthSignature_held _ _ _ h
  | authDrop _ _ => exact execAuthDrop_held _ _ _ h
  | imageTarget _ _ => exact execImageTarget_held _ _ _ h
  | imageLength _ _ => exact execImageLength_held _ _ _ h
  | imageData _ _ _ _ => exact execImageData_held _ _ _ _ _ h
  | imageCheck _ _ => exact execImageCheck_held _ _ _ h
  | restoreDefaults _ _ => exact execRestoreDefaults_held _ _ _ h
  | statisticsMark _ _ => exact execStatisticsMark_held _ _ _ h
  | factoryRequest _ _ => exact execFactoryRequest_held _ _ _ h
  | raiseVendorFloor _ _ => exact execRaiseVendorFloor_held _ _ _ h
  | raiseCustomerFloor _ _ => exact execRaiseCustomerFloor_held _ _ _ h
  | customerKeyProvision _ _ => exact execCustomerKeyProvision_held _ _ _ h
  | factoryPart _ _ => exact execFactoryPart_held _ _ _ h
  | customerSectorData _ _ => exact execCustomerSectorData_held _ _ _ h
  | codecInject _ _ => exact execCodecInject_held _ _ _ h
  | sramFlip _ _ => exact execSramFlip_held _ _ _ h
  | scrubRead => exact execScrubRead_held _ h
  | scrubRewrite => exact execScrubRewrite_held _ h
  | mergeRetire _ => exact execMergeRetire_held _ _ h
  | registerReadClear _ _ _ => exact execRegisterReadClear_held _ _ _ _ h
  | registerWrite _ _ _ _ _ => exact execRegisterWrite_held _ _ _ _ _ _ h
  | linkUp _ _ _ => exact execLinkUp_held _ _ _ _ h
  | presenceTimeout _ => exact execPresenceTimeout_held _ _ h
  | sbReqLowered => exact execSbReqLowered_held _ h
  | errorPassive _ => exact execErrorPassive_held _ _ h

/-- Settles O5: what every command keeps includes the queue. -/
theorem commandsLeaveTheQueueAlone : Obligations.CommandsLeaveTheQueueAlone := by
  unfold Obligations.CommandsLeaveTheQueueAlone
  exact fun c s t hs ht => (exec_held c ⟨rfl, hs⟩ t ht).queue

/-! ### The state after reset (R54, R60) -/

/-- The interrupt controller starts with a value for each source, target and group (R469, R470, R471). -/
theorem irq_wf_default : Irq.wf {} := by
  simp only [Irq.wf, defaultSense, List.length_append, List.length_replicate, List.length_cons, List.length_nil,
    Nat.reduceAdd, and_self]

/-- Power-on reset has every unit of the block, and every memory reads as unlisted. -/
theorem kept_reset : Kept State.reset where
  rings := List.length_replicate
  jigs := ⟨List.length_replicate, fun j hj => by rw [List.eq_of_mem_replicate hj]; exact nil_wf⟩
  chans := List.length_replicate
  heads := List.length_replicate
  slots := List.length_replicate.ge
  irq := irq_wf_default
  image := nil_wf
  luns := nil_wf (blank := fun _ => ({} : LunRec))
  cab := ⟨nil_wf, nil_wf, nil_wf⟩
  sram := ⟨nil_wf, Nat.zero_le 8⟩
  host := ⟨Nat.zero_le 256, Nat.zero_le 256⟩
  dict := Nat.zero_le 16

theorem ringAt_reset {n : Nat} (h : n < 64) : ringAt n State.reset = {} := List.getD_replicate _ h

theorem chanAt_reset {n : Nat} (h : n < 16) : chanAt n State.reset = {} := List.getD_replicate _ h

theorem sense_reset : ∀ n < 256, State.reset.irq.sense.getD n 0
    = (if n < 128 ∨ n = 130 then 3 else if n = 128 ∨ n = 129 then 1 else 0) := by
  decide +kernel

/-- Settles O3: the units of reset are the default ones, whose registers hold their reset values. -/
theorem resetHoldsTheResetValues : Obligations.ResetHoldsTheResetValues := by
  unfold Obligations.ResetHoldsTheResetValues
  refine ⟨kept_reset, rfl, rfl, rfl, rfl, rfl, rfl, fun n hn => ?_, fun n hn => ?_, rfl, rfl, rfl, rfl, rfl, sense_reset⟩
  · rw [ringAt_reset hn]
    exact ⟨rfl, rfl, rfl, rfl⟩
  · rw [chanAt_reset hn]
    exact ⟨rfl, rfl, rfl⟩

end Sys2Proof.Machine

namespace Sys2Proof.Machine

/-! ### The power sideband (R42 to R44, R442, R443) -/

/-- What judges a forecast: the time, the acknowledge, HOLDUP, the rack, the throttle, the counts and the configuration. -/
def State.rackView (s : State) :
    Nat × Bool × Bool × Rack × Hk × Stats × List ((Nat × Nat) × List Byte) × List ((Nat × Nat) × List Byte) :=
  (s.now, s.pins.sbAck, s.modes.holdup, s.rack, s.hk, s.stats, s.dict.saved, s.dict.force)

theorem rackView_ite {c : Prop} [Decidable c] {s a b : State} (ha : a.rackView = s.rackView) (hb : b.rackView = s.rackView) :
    (if c then a else b).rackView = s.rackView := by split <;> assumption

theorem mediaReadyFall_rackView (s : State) : (mediaReadyFall s).rackView = s.rackView := rfl

theorem endCanSessions_rackView (s : State) : (endCanSessions s).rackView = s.rackView := rfl

theorem rackView_setMediaReady (s : State) (b : Bool) :
    ({ s with pins := { s.pins with mediaReady := b } } : State).rackView = s.rackView := rfl

theorem applyMode_rackView (s : State) : (applyMode s).rackView = s.rackView := by
  unfold applyMode
  extract_lets +onlyGivenNames mode
  have hfall {t : State} (ht : t.rackView = s.rackView) (c : Bool) :
      (if c then mediaReadyFall t else t).rackView = s.rackView := rackView_ite ((mediaReadyFall_rackView t).trans ht) ht
  refine rackView_ite rfl ((rackView_setMediaReady _ _).trans (rackView_ite ?_ ((endCanSessions_rackView _).trans ?_)))
  · exact hfall (by rfl) _
  · exact hfall (by rfl) _

theorem dvSend_rackView (type : Nat) (dst : Option (BitVec 3)) (payload : List Byte) (s : State) :
    (dvSend type dst payload s).rackView = s.rackView := by
  obtain ⟨dv, e, -, -⟩ := dvSend_eq type dst payload s
  rw [e]
  rfl

theorem setConds_rackView {f : Modes → Modes} {s : State} (hf : (f s.modes).holdup = s.modes.holdup) :
    (setConds f s).rackView = s.rackView :=
  (applyMode_rackView _).trans (by simp only [State.rackView, hf])

/-- Loading EVT_TIME again changes nothing else. -/
theorem reloadTime_eq (s : State) : ∃ q, reloadTime s = { s with irq := q } := ⟨_, rfl⟩

theorem wake_rackView (s : State) : (wake s).rackView = s.rackView := by
  have htell {t : State} : (tellStandby false t).rackView = t.rackView := rackView_ite (dvSend_rackView _ _ _ _) rfl
  obtain ⟨q, e⟩ := reloadTime_eq s
  unfold wake
  split
  · rw [e]
    exact htell.trans (setConds_rackView rfl)
  · rfl

/-- A message that is taken raises sb_ack and counts; the rest of the rack stays (R42, R461). -/
theorem sbTake_rackView (s : State) : (sbTake s).rackView =
    (s.now, true, s.modes.holdup, { s.rack with sbMessages := satAdd s.rack.sbMessages 1 }, s.hk, s.stats, s.dict.saved,
      s.dict.force) := wake_rackView _

/-- A configuration value depends on the committed values and on those in force alone. -/
theorem cfg_congr {s t : State} (hsaved : t.dict.saved = s.dict.saved) (hforce : t.dict.force = s.dict.force)
    (idx sub : Nat) : cfg idx sub t = cfg idx sub s := by
  simp only [cfg, inForce, stored, hsaved, hforce]

theorem budget_congr {s t : State} (hholdup : t.modes.holdup = s.modes.holdup) (hhk : t.hk = s.hk)
    (hsaved : t.dict.saved = s.dict.saved) (hforce : t.dict.force = s.dict.force) : budget t = budget s := by
  simp only [budget, hholdup, hhk, cfg_congr hsaved hforce]

/-- A taken message leaves what a forecast is judged by, and what it is judged against, but for the count of messages. -/
theorem sbTake_spec (s : State) : (sbTake s).pins.sbAck = true ∧ (sbTake s).modes.holdup = s.modes.holdup
    ∧ (sbTake s).rack = { s.rack with sbMessages := satAdd s.rack.sbMessages 1 } ∧ (sbTake s).now = s.now
    ∧ (sbTake s).stats = s.stats ∧ budget (sbTake s) = budget s ∧ ∀ idx sub, cfg idx sub (sbTake s) = cfg idx sub s := by
  have h := sbTake_rackView s
  simp only [State.rackView, Prod.mk.injEq] at h
  obtain ⟨hnow, hack, hholdup, hrack, hhk, hstats, hsaved, hforce⟩ := h
  exact ⟨hack, hholdup, hrack, hnow, hstats, budget_congr hholdup hhk hsaved hforce, cfg_congr hsaved hforce⟩

/-- The forecast that is judged is granted exactly when it fits (R44). -/
theorem grantForecast_of_waiting {s : State} (hw : s.rack.fcWaiting = true) :
    grantForecast s = if s.rack.nandHeld + s.rack.fcClamps ≤ budget s then
      { s with
        rack := { s.rack with
          fcHeld := true, fcWaiting := false, fcDeferred := false, fcDeadline := s.now + 1000 * s.rack.fcDuration }
        stats := { s.stats with forecastsGranted := s.stats.forecastsGranted + 1 } }
    else s := by
  simp only [grantForecast, hw, Bool.true_and, decide_eq_true_eq]

theorem sbIgnored_forecast {m : Word} (hk : fld m.toNat 28 4 = 1) (he : fld m.toNat 26 2 ≠ 3) (hd : fld m.toNat 0 16 ≠ 0) :
    sbIgnored m = false := by
  simp [sbIgnored, sbKind, sbEvent, sbLow, hk, he, hd]

/-- A FORECAST is taken, and judged outside HOLDUP (R43, R44, R443). -/
theorem execForecast_taken {m : Word} {s : State} (hr : sbReady s = true) (hk : fld m.toNat 28 4 = 1)
    (he : fld m.toNat 26 2 ≠ 3) (hd : fld m.toNat 0 16 ≠ 0) : exec (.forecast m) s
      = .next (if s.modes.holdup then sbIgnore (sbTake s) else placeForecast m (sbTake s)) := by
  refine congrArg Host.Outcome.next (if_pos ?_)
  simp [hr, sbIgnored_forecast hk he hd, sbKind, hk]

/-- Settles O9: the message taken leaves what the forecast is judged by. -/
theorem forecastIsJudgedAtOnce : Obligations.ForecastIsJudgedAtOnce := by
  unfold Obligations.ForecastIsJudgedAtOnce
  intro m s hr hholdup hk he hd
  obtain ⟨hack, -, hrack, hnow, hstats, hbudget, hcfg⟩ := sbTake_spec s
  refine ⟨placeForecast m (sbTake s), by rw [execForecast_taken hr hk he hd, hholdup]; rfl, ?_⟩
  generalize sbTake s = u at *
  have hclamps : forecastClamps (sbClamps m) u = min ((fld m.toNat 16 10 * cfg 0x3800 3 s + 99) / 100) (budget s) := by
    rw [forecastClamps, hbudget, hcfg, sbClamps]
  have hnand : u.rack.nandHeld = s.rack.nandHeld := by rw [hrack]; rfl
  obtain ⟨hmessages, hignored, hheld, hxm, hwaiting⟩ : u.rack.sbMessages = satAdd s.rack.sbMessages 1
      ∧ u.rack.sbIgnored = s.rack.sbIgnored ∧ u.rack.held = s.rack.held ∧ u.rack.xm = s.rack.xm
      ∧ u.rack.waiting = s.rack.waiting := by
    rw [hrack]
    exact ⟨rfl, rfl, rfl, rfl, rfl⟩
  unfold placeForecast
  extract_lets _ v
  have hfits : v.rack.nandHeld + v.rack.fcClamps ≤ budget v
      ↔ s.rack.nandHeld + forecastClamps (sbClamps m) u ≤ budget s := by rw [← hnand, ← hbudget]; rfl
  rw [grantForecast_of_waiting rfl]
  split
  case isTrue hfit =>
    refine ⟨hack, hmessages, hignored, rfl, rfl, hclamps, hheld, hxm, hwaiting, ?_⟩
    rw [if_pos (hfits.mp hfit)]
    exact ⟨rfl, rfl, congrArg (· + 1000 * fld m.toNat 0 16) hnow, congrArg (·.forecastsGranted + 1) hstats⟩
  case isFalse hfit =>
    refine ⟨hack, hmessages, hignored, rfl, rfl, hclamps, hheld, hxm, hwaiting, ?_⟩
    rw [if_neg (hfit ∘ hfits.mpr)]
    exact ⟨rfl, rfl, congrArg Stats.forecastsGranted hstats⟩

/-! ### The other messages of the sideband -/

/-- A message that is ignored is acknowledged and counted twice, and leaves the forecast alone (R43, R443). -/
theorem sbIgnore_sbTake (s : State) : (sbIgnore (sbTake s)).pins.sbAck = true ∧ (sbIgnore (sbTake s)).rack
    = { s.rack with sbMessages := satAdd s.rack.sbMessages 1, sbIgnored := satAdd s.rack.sbIgnored 1 } := by
  obtain ⟨hack, -, hrack, -⟩ := sbTake_spec s
  refine ⟨hack, ?_⟩
  rw [sbIgnore, hrack]

/-- Settles O10, message by message; the last two clauses are the commands as they stand. -/
theorem sidebandMessagesAreAcknowledged : Obligations.SidebandMessagesAreAcknowledged := by
  unfold Obligations.SidebandMessagesAreAcknowledged
  refine ⟨fun m s hr hk => ?_, fun m s hr hig => ?_, fun m s hr hholdup hk he hd => ?_, fun s => rfl, fun s hf => ?_⟩
  · obtain ⟨hack, -, hrack, -⟩ := sbTake_spec s
    refine ⟨dropForecast (sbTake s), congrArg Host.Outcome.next (if_pos (by simp [hr, sbKind, hk])), hack, ?_⟩
    rw [dropForecast, hrack]
    exact ⟨rfl, rfl, rfl, rfl, rfl, rfl, rfl⟩
  · have hignored : sbIgnored m = true := by
      rcases hig with ⟨h1, h2, h3⟩ | ⟨h1, he⟩
      · simp [sbIgnored, sbKind, h1, h2, h3]
      · simpa [sbIgnored, sbKind, sbEvent, sbLow, h1] using he
    exact ⟨_, congrArg Host.Outcome.next (if_pos (by simp [hr, hignored])), sbIgnore_sbTake s⟩
  · exact ⟨_, by rw [execForecast_taken hr hk he hd, hholdup]; rfl, sbIgnore_sbTake s⟩
  · exact congrArg Host.Outcome.next (if_pos hf)

end Sys2Proof.Machine

namespace Sys2Proof.Machine

section
variable {s₀ s t u : State} {h k n : Nat}

/-! ### The heads, but for the answers that they owe (R376, R385) -/

/-- A head but for the answers that it owes. -/
def Head.core (x : Head) : Head := { x with answers := [] }

theorem Head.core_fields {x y : Head} (e : x.core = y.core) :
    x.job = y.job ∧ x.fed = y.fed ∧ x.feed = y.feed ∧ x.pass = y.pass ∧ x.aborts = y.aborts := by
  simp only [Head.core, Head.mk.injEq] at e
  obtain ⟨hjob, hfeed, hfed, hpass, -, -, haborts, -⟩ := e
  exact ⟨hjob, hfed, hfeed, hpass, haborts⟩

/-- Answers that may leave have left: the heads have not moved otherwise, and what had gone out stays. -/
structure Flushed (s t : State) : Prop where
  rest : t = { s with media := t.media, dv := t.dv }
  media : t.media = { s.media with heads := t.media.heads, out := t.media.out, beats := t.media.beats }
  heads : t.media.heads.map Head.core = s.media.heads.map Head.core
  out : ∀ x ∈ s.media.out, x ∈ t.media.out

theorem Flushed.refl (s : State) : Flushed s s := ⟨rfl, rfl, rfl, fun _ hx => hx⟩

theorem Flushed.trans (hs : Flushed s t) (ht : Flushed t u) : Flushed s u := by
  refine ⟨?_, ?_, ht.heads.trans hs.heads, fun x hx => ht.out x (hs.out x hx)⟩
  · rw [ht.rest, hs.rest]
  · rw [ht.media, hs.media]

theorem Flushed.count (hs : Flushed s t) : t.media.heads.length = s.media.heads.length := by
  have e := congrArg List.length hs.heads
  simpa only [List.length_map] using e

theorem headAt_core (n : Nat) (s : State) : (headAt n s).core = (s.media.heads.map Head.core).getD n {} :=
  (List.getD_map _ _ Head.core).symm

theorem Flushed.head (hs : Flushed s t) (n : Nat) : (headAt n t).core = (headAt n s).core := by
  rw [headAt_core, headAt_core, hs.heads]

theorem dvSend_flushed {type : Nat} {dst : Option (BitVec 3)} {payload : List Byte} (hs : Flushed s₀ s) :
    Flushed s₀ (dvSend type dst payload s) := by
  obtain ⟨dv, e, -, -⟩ := dvSend_eq type dst payload s
  rw [e]
  exact hs.trans ⟨rfl, rfl, rfl, fun _ hx => hx⟩

theorem mediaSend_flushed {m : BitVec 64} (hs : Flushed s₀ s) : Flushed s₀ (mediaSend n m s) := by
  unfold mediaSend
  split
  · exact hs.trans ⟨rfl, rfl, rfl, fun _ hx => List.mem_append_left _ hx⟩
  · exact dvSend_flushed hs

theorem mediaBeats_flushed {l : List (List Byte)} (hs : Flushed s₀ s) : Flushed s₀ (mediaBeats n l s) := by
  unfold mediaBeats
  split
  · exact hs.trans ⟨rfl, rfl, rfl, fun _ hx => hx⟩
  · split
    · exact hs
    · exact dvSend_flushed hs

theorem sendAll_flushed {l : List (BitVec 64)} (hs : Flushed s₀ s) :
    Flushed s₀ (l.foldl (fun s m => mediaSend n m s) s) := by
  induction l generalizing s with
  | nil => exact hs
  | cons m l ih => exact ih (mediaSend_flushed hs)

theorem map_core_modHead {f : Head → Head} (hf : ∀ x, (f x).core = x.core) (l : List Head) :
    (l.modify n f).map Head.core = l.map Head.core := by
  refine List.ext_getElem (by simp) fun i hi _ => ?_
  by_cases hn : n = i <;> simp [hn, hf]

theorem modHead_flushed {f : Head → Head} (hf : ∀ x, (f x).core = x.core) (hs : Flushed s₀ s) :
    Flushed s₀ (modHead n f s) := hs.trans ⟨rfl, rfl, map_core_modHead hf _, fun _ hx => hx⟩

theorem flushHead_flushed (hs : Flushed s₀ s) : Flushed s₀ (flushHead k n s) := by
  induction k generalizing s with
  | zero => exact hs
  | succ k ih =>
    unfold flushHead
    split
    · split
      · exact ih (sendAll_flushed (mediaBeats_flushed (sendAll_flushed (modHead_flushed (fun _ => rfl) hs))))
      · exact hs
    · exact hs

theorem flushHeads_flushed (l : List Nat) (hs : Flushed s₀ s) :
    Flushed s₀ (l.foldl (fun s h => flushHead (headAt h s).answers.length h s) s) := by
  induction l generalizing s with
  | nil => exact hs
  | cons n l ih => exact ih (flushHead_flushed hs)

theorem flushAnswers_flushed (hs : Flushed s₀ s) : Flushed s₀ (flushAnswers s) := flushHeads_flushed _ hs

/-! ### Work on one head (R385, R388, R400) -/

/-- Work on head `h`: no other head has moved but for the answers that it owes, and no message or count of aborts. -/
structure OnHead (h : Nat) (s t : State) : Prop where
  rest : t = { s with sched := t.sched, luns := t.luns, jigs := t.jigs, media := t.media, dv := t.dv }
  inQ : t.media.inQ = s.media.inQ
  aborts : t.media.aborts = s.media.aborts
  count : t.media.heads.length = s.media.heads.length
  others : ∀ n, n ≠ h → (headAt n t).core = (headAt n s).core

theorem OnHead.refl (h : Nat) (s : State) : OnHead h s s := ⟨rfl, rfl, rfl, rfl, fun _ _ => rfl⟩

theorem OnHead.trans (hs : OnHead h s t) (ht : OnHead h t u) : OnHead h s u := by
  refine ⟨?_, ht.inQ.trans hs.inQ, ht.aborts.trans hs.aborts, ht.count.trans hs.count,
    fun n hn => (ht.others n hn).trans (hs.others n hn)⟩
  rw [ht.rest, hs.rest]

theorem Flushed.onHead (hs : Flushed s t) : OnHead h s t := by
  refine ⟨?_, by rw [hs.media], by rw [hs.media], hs.count, fun n _ => hs.head n⟩
  conv_lhs => rw [hs.rest]
  rw [hs.rest]

theorem modHead_onHead {f : Head → Head} : OnHead h s (modHead h f s) :=
  ⟨rfl, rfl, rfl, List.length_modify _ _ _, fun n hn => by rw [headAt_modHead_ne s h n f (Ne.symm hn)]⟩

/-- One head changes, and answers leave. -/
theorem flushAnswers_modHead {f : Head → Head} (hh : h < s.media.heads.length) :
    OnHead h s (flushAnswers (modHead h f s)) ∧ (headAt h (flushAnswers (modHead h f s))).core = (f (headAt h s)).core := by
  have hf : Flushed (modHead h f s) (flushAnswers (modHead h f s)) := flushAnswers_flushed (.refl _)
  exact ⟨modHead_onHead.trans hf.onHead, by rw [hf.head, headAt_modHead s h f hh]⟩

/-- FEED_DONE ends the head's feed. -/
theorem feedDone_onHead (f : Feed) (hh : h < s.media.heads.length) : OnHead h s (feedDone h f s)
    ∧ (headAt h (feedDone h f s)).core = ({ headAt h s with feed := none } : Head).core := flushAnswers_modHead hh

/-- The reads of feeds leave the heads alone. -/
theorem withdrawn_onHead (p : Nat → Bool) (q : Job → Bool) (s : State) : OnHead h s (dropFeedCws p (withdraw q s)) :=
  ⟨rfl, rfl, rfl, rfl, fun _ _ => rfl⟩

theorem headAt_withdrawn (p : Nat → Bool) (q : Job → Bool) (s : State) : headAt h (dropFeedCws p (withdraw q s)) = headAt h s :=
  rfl

/-- The run in progress is not a head's. -/
theorem OnHead.running {r : Option Nat} (hs : OnHead h s₀ s) : OnHead h s₀ { s with media := { s.media with running := r } } :=
  hs.trans ⟨rfl, rfl, rfl, rfl, fun _ _ => rfl⟩

/-- A feed that is cut has ended, with its run (R385, R388). -/
theorem cutFeed_onHead (hh : h < s.media.heads.length) : OnHead h s (cutFeed h s)
    ∧ (headAt h (cutFeed h s)).core = ({ headAt h s with feed := none } : Head).core := by
  unfold cutFeed
  split
  case h_1 hnone => exact ⟨.refl h s, by rw [← hnone]⟩
  case h_2 f _ =>
    extract_lets u mine
    obtain ⟨hon, hcore⟩ : OnHead h s u ∧ (headAt h u).core = (headAt h s).core := by
      unfold u
      split
      · have hsent {m : BitVec 64} : Flushed s (mediaSend h m s) := mediaSend_flushed (.refl s)
        exact ⟨hsent.onHead.running, hsent.head h⟩
      · exact ⟨.refl h s, rfl⟩
    clear_value u
    obtain ⟨hdone, hend⟩ := feedDone_onHead f (s := dropFeedCws (· == h) (withdraw mine u)) (hon.count ▸ hh)
    refine ⟨hon.trans ((withdrawn_onHead _ _ u).trans hdone), ?_⟩
    rw [hend, headAt_withdrawn]
    exact congrArg (fun x : Head => { x with feed := none }) hcore

/-- A pass that has its result has ended; of its head only the counts of passes move besides (R397). -/
theorem passResult_onHead (frag result : Nat) (shift : Int) (score : Nat) (hh : h < s.media.heads.length) :
    OnHead h s (passResult h frag result shift score s) ∧ (headAt h (passResult h frag result shift score s)).pass = none
      ∧ (headAt h (passResult h frag result shift score s)).feed = (headAt h s).feed
      ∧ (headAt h (passResult h frag result shift score s)).aborts = (headAt h s).aborts := by
  have hended {f : Head → Head} (hf : ∀ x, (f x).pass = none ∧ (f x).feed = x.feed ∧ (f x).aborts = x.aborts) :
      OnHead h s (flushAnswers (modHead h f s)) ∧ (headAt h (flushAnswers (modHead h f s))).pass = none
        ∧ (headAt h (flushAnswers (modHead h f s))).feed = (headAt h s).feed
        ∧ (headAt h (flushAnswers (modHead h f s))).aborts = (headAt h s).aborts := by
    obtain ⟨hon, hcore⟩ := flushAnswers_modHead (f := f) hh
    obtain ⟨hpass, hfeed, haborts⟩ := hf (headAt h s)
    obtain ⟨-, -, hfeed', hpass', haborts'⟩ := Head.core_fields hcore
    exact ⟨hon, hpass'.trans hpass, hfeed'.trans hfeed, haborts'.trans haborts⟩
  unfold passResult
  extract_lets passes m
  exact hended fun _ => ⟨rfl, rfl, rfl⟩

/-- A pass that is cut has ended (R400). -/
theorem cutPass_onHead (hh : h < s.media.heads.length) : OnHead h s (cutPass h s) ∧ (headAt h (cutPass h s)).pass = none
    ∧ (headAt h (cutPass h s)).feed = (headAt h s).feed ∧ (headAt h (cutPass h s)).aborts = (headAt h s).aborts := by
  have hreport : OnHead h s (bumpReport 4 s) := ⟨rfl, rfl, rfl, rfl, fun _ _ => rfl⟩
  unfold cutPass
  split
  case h_1 f _ _ _ =>
    obtain ⟨hon, hended⟩ := passResult_onHead (s := bumpReport 4 s) f.toNat 5 0 0 hh
    exact ⟨hreport.trans hon, hended⟩
  case h_2 hnone => exact ⟨.refl h s, hnone, rfl, rfl⟩

/-! ### MEDIA_ABORT (R43, R400) -/

/-- What an abort does to its head. -/
theorem abortHead_onHead (hh : h < s.media.heads.length) : OnHead h s (abortHead s h)
    ∧ (headAt h (abortHead s h)).fed = [] ∧ (headAt h (abortHead s h)).feed = none ∧ (headAt h (abortHead s h)).pass = none
    ∧ (headAt h (abortHead s h)).aborts = (headAt h s).aborts + 1 := by
  obtain ⟨hfeedOn, hfeed⟩ := cutFeed_onHead hh
  have hh' : h < (cutFeed h s).media.heads.length := hfeedOn.count ▸ hh
  obtain ⟨hpassOn, hpass, hfeed', haborts⟩ := cutPass_onHead hh'
  obtain ⟨-, -, hnone, -, hkept⟩ := Head.core_fields hfeed
  have hon : OnHead h s (cutPass h (cutFeed h s)) := hfeedOn.trans hpassOn
  unfold abortHead
  refine ⟨hon.trans modHead_onHead, ?_⟩
  rw [headAt_modHead _ _ _ (hon.count ▸ hh)]
  exact ⟨rfl, hfeed'.trans hnone, hpass, congrArg (· + 1) (haborts.trans hkept)⟩

/-- The heads that are named, once each, are aborted, and no other. -/
theorem abortHeads_onHeads (l : List Nat) (hl : l.Nodup) (hh : ∀ h ∈ l, h < s.media.heads.length) :
    (l.foldl abortHead s).media.inQ = s.media.inQ ∧ (l.foldl abortHead s).media.aborts = s.media.aborts
    ∧ (∀ h ∈ l, (headAt h (l.foldl abortHead s)).fed = [] ∧ (headAt h (l.foldl abortHead s)).feed = none
        ∧ (headAt h (l.foldl abortHead s)).pass = none
        ∧ (headAt h (l.foldl abortHead s)).aborts = (headAt h s).aborts + 1)
    ∧ ∀ h, h ∉ l → (headAt h (l.foldl abortHead s)).core = (headAt h s).core := by
  induction l generalizing s with
  | nil => exact ⟨rfl, rfl, fun _ hn => absurd hn List.not_mem_nil, fun _ _ => rfl⟩
  | cons n l ih =>
    obtain ⟨hnl, hl⟩ := List.nodup_cons.mp hl
    obtain ⟨hon, hend⟩ := abortHead_onHead (hh n List.mem_cons_self)
    obtain ⟨hinQ, haborts, hnamed, hothers⟩ :=
      ih hl fun h hm => hon.count ▸ hh h (List.mem_cons_of_mem n hm)
    refine ⟨hinQ.trans hon.inQ, haborts.trans hon.aborts, fun h hm => ?_, fun h hm => ?_⟩
    · rcases List.mem_cons.mp hm with rfl | hm
      · obtain ⟨-, hfed, hfeed, hpass, hab⟩ := Head.core_fields (hothers h hnl)
        obtain ⟨hfed', hfeed', hpass', hab'⟩ := hend
        exact ⟨hfed.trans hfed', hfeed.trans hfeed', hpass.trans hpass', hab.trans hab'⟩
      · have hne : h ≠ n := fun e => hnl (e ▸ hm)
        obtain ⟨-, -, -, -, hab⟩ := Head.core_fields (hon.others h hne)
        obtain ⟨hfed', hfeed', hpass', hab'⟩ := hnamed h hm
        exact ⟨hfed', hfeed', hpass', hab'.trans (congrArg (· + 1) hab)⟩
    · obtain ⟨hne, hm⟩ := not_or.mp (List.mem_cons.not.mp hm)
      exact (hothers h hm).trans (hon.others h hne)

/-- The media state when media_ready falls (R401). -/
def Media.fallen (m : Media) : Media :=
  { m with
    inQ := [], frags := [], running := none
    heads := m.heads.map (fun h => { h with job := none, feed := none, fed := [], pass := none, answers := [] }) }

theorem mediaReadyFall_media (s : State) : (mediaReadyFall s).media = s.media.fallen := rfl

/-- When R23 is applied, media_ready may fall. -/
theorem applyMode_media (s : State) : (applyMode s).media = s.media ∨ (applyMode s).media = s.media.fallen := by
  have hfall {t : State} (c : Bool) (ht : t.media = s.media) : (if c then mediaReadyFall t else t).media = s.media
      ∨ (if c then mediaReadyFall t else t).media = s.media.fallen := by
    split
    · exact .inr (by rw [mediaReadyFall_media, ht])
    · exact .inl ht
  have hcan {t : State} (c : Bool) (ht : t.media = s.media ∨ t.media = s.media.fallen) :
      (if c then t else endCanSessions t).media = s.media ∨ (if c then t else endCanSessions t).media = s.media.fallen := by
    split <;> exact ht
  unfold applyMode
  extract_lets +onlyGivenNames mode
  split
  · exact .inl rfl
  · exact hcan _ (hfall _ rfl)

theorem tellStandby_media (b : Bool) (s : State) : (tellStandby b s).media = s.media := by
  unfold tellStandby
  split
  · obtain ⟨dv, e, -⟩ := dvSend_eq 0x31 none [BitVec.ofNat 8 (b2n b)] s
    rw [e]
  · rfl

theorem wake_media (s : State) : (wake s).media = s.media ∨ (wake s).media = s.media.fallen := by
  obtain ⟨q, e⟩ := reloadTime_eq s
  unfold wake
  split
  · rw [tellStandby_media, e]
    exact applyMode_media _
  · exact .inl rfl

/-- The end of STANDBY leaves the heads' counts of aborts; messages that wait are dropped at most. -/
theorem wake_heads (s : State) : (wake s).media.heads.length = s.media.heads.length
    ∧ (wake s).media.aborts = s.media.aborts ∧ (s.media.inQ = [] → (wake s).media.inQ = [])
    ∧ ∀ h, (headAt h (wake s)).aborts = (headAt h s).aborts := by
  have haborts (l : List Head) (f : Head → Head) (hf : ∀ x, (f x).aborts = x.aborts) (h : Nat) :
      ((l.map f).getD h {}).aborts = (l.getD h {}).aborts := by
    simp only [List.getD_eq_getElem?_getD, List.getElem?_map]
    cases l[h]? with
    | none => rfl
    | some x => exact hf x
  simp only [headAt]
  rcases wake_media s with e | e
  · rw [e]
    exact ⟨rfl, rfl, id, fun _ => rfl⟩
  · rw [e]
    exact ⟨List.length_map _, rfl, fun _ => rfl, haborts _ _ fun _ => rfl⟩

theorem addRec_media (r : BitVec 256) (s : State) : (addRec r s).media = s.media := by
  unfold addRec
  split
  · obtain ⟨dv, e, -⟩ := dvSend_eq 0x20 (some s.modes.leadDie) (le 32 r.toNat) { s with dv := { s.dv with recOut := true } }
    rw [e]
  · rfl

theorem serveQueue_nil (n : Nat) (h : s.media.inQ = []) : serveQueue n s = s := by
  cases n with
  | zero => rfl
  | succ n => rw [serveQueue, h]

/-- The heads that a MEDIA_ABORT names (R43). -/
theorem mem_named {mask h : Nat} : h ∈ (List.range 16).filter (bitAt mask) ↔ h < 16 ∧ bitAt mask h = true := by
  rw [List.mem_filter, List.mem_range]

/-- Settles O11: the heads that the mask names are cut, one after the other; the record and the queue are not the heads'. -/
theorem mediaAbortCutsTheHeadsNamed : Obligations.MediaAbortCutsTheHeadsNamed := by
  unfold Obligations.MediaAbortCutsTheHeadsNamed
  intro m s hr hk hlen hinQ
  obtain ⟨hack, -, hrack, -⟩ := sbTake_spec s
  obtain ⟨hcount, haborts, hempty, hkept⟩ : (sbTake s).media.heads.length = s.media.heads.length
      ∧ (sbTake s).media.aborts = s.media.aborts ∧ (s.media.inQ = [] → (sbTake s).media.inQ = [])
      ∧ ∀ h, (headAt h (sbTake s)).aborts = (headAt h s).aborts := wake_heads _
  have hexec : exec (.mediaAbort m) s = _ := congrArg Host.Outcome.next (if_pos (by simp [hr, sbKind, hk]))
  rw [hexec]
  generalize sbTake s = u at *
  extract_lets mask v w
  obtain ⟨hvQ, hvAborts, hnamed, hothers⟩ := abortHeads_onHeads (s := u) ((List.range 16).filter (bitAt mask))
    (List.nodup_range.filter _) fun h hm => by rw [hcount, hlen]; exact (mem_named.mp hm).1
  have hq : Quiet u w := addRec_quiet (.foldl (fun _ _ hs => abortHead_quiet hs) (.refl u))
  have hmedia : w.media = v.media := addRec_media _ _
  have hwQ : w.media.inQ = [] := by rw [hmedia]; exact hvQ.trans (hempty hinQ)
  rw [serveQueue_nil 16 (s := { w with media := { w.media with aborts := w.media.aborts + 1 } }) hwQ]
  have hhead (h : Nat) : headAt h { w with media := { w.media with aborts := w.media.aborts + 1 } } = headAt h v := by
    simp only [headAt, hmedia]
  refine ⟨_, rfl, ?_, ?_, ?_, ?_, ?_, fun h hh hb => ?_, fun h hh hb => ?_⟩
  · have e := congrArg Pins.sbAck hq.pins
    exact e.trans hack
  · exact congrArg (· + 1) ((congrArg Media.aborts hmedia).trans (hvAborts.trans haborts))
  · exact (congrArg Rack.fcHeld hq.rack).trans (by rw [hrack])
  · exact (congrArg Rack.fcWaiting hq.rack).trans (by rw [hrack])
  · exact (congrArg Rack.sbMessages hq.rack).trans (by rw [hrack])
  · obtain ⟨hfed, hfeed, hpass, hab⟩ := hnamed h (mem_named.mpr ⟨hh, hb⟩)
    rw [hhead]
    exact ⟨hfed, hfeed, hpass, hab.trans (congrArg (· + 1) (hkept h))⟩
  · have hcore := hothers h fun hm => absurd (mem_named.mp hm).2 (Bool.eq_false_iff.mp hb)
    obtain ⟨-, -, -, -, hab⟩ := Head.core_fields hcore
    rw [hhead]
    exact hab.trans (hkept h)

end
end Sys2Proof.Machine

namespace Sys2Proof.Machine

section
variable {s₀ s t u : State} {m : BitVec 64} {h k n : Nat}

/-! ### An answer that leaves at once (R376) -/

theorem mHead_lt (m : BitVec 64) : mHead m < 16 := Nat.mod_lt _ (by decide)

theorem mediaSend_heads (n : Nat) (m : BitVec 64) (s : State) : (mediaSend n m s).media.heads = s.media.heads := by
  unfold mediaSend
  split
  · rfl
  · obtain ⟨dv, e, -⟩ := dvSend_eq 0x30 (some ‹_›) (le 8 m.toNat) s
    rw [e]

theorem mediaBeats_heads (n : Nat) (l : List (List Byte)) (s : State) :
    (mediaBeats n l s).media.heads = s.media.heads := by
  unfold mediaBeats
  split
  · rfl
  · split
    · rfl
    · obtain ⟨dv, e, -⟩ := dvSend_eq 0x13 (some ‹_›) l.flatten s
      rw [e]

theorem sendAll_heads (n : Nat) (l : List (BitVec 64)) (s : State) :
    (l.foldl (fun s m => mediaSend n m s) s).media.heads = s.media.heads := by
  induction l generalizing s with
  | nil => rfl
  | cons m l ih => exact (ih _).trans (mediaSend_heads n m s)

/-- The answers of one head leave those of the others. -/
theorem headAt_flushHead_ne (hne : n ≠ h) : headAt h (flushHead k n s) = headAt h s := by
  induction k generalizing s with
  | zero => rfl
  | succ k ih =>
    unfold flushHead
    split
    · split
      · rw [ih]
        simp only [headAt, sendAll_heads, mediaBeats_heads]
        exact headAt_modHead_ne s n h _ hne
      · rfl
    · rfl

/-- The one answer that a head of this block's port owes leaves. -/
theorem flushHead_out {x : BitVec 64} (hh : h < s.media.heads.length) (ha : (headAt h s).answers = [{ msgs := [x] }])
    (hv : (headAt h s).via = none) : x ∈ (flushHead (headAt h s).answers.length h s).media.out := by
  have hvia : (headAt h (modHead h (fun y => { y with answers := [] }) s)).via = none := by
    rw [headAt_modHead s h _ hh]
    exact hv
  have hsent : x ∈ (mediaSend h x (modHead h (fun y => { y with answers := [] }) s)).media.out := by
    rw [mediaSend, hvia]
    exact List.mem_append_right _ (List.mem_singleton_self x)
  have hready : Ans.ready { msgs := [x] } s = true := rfl
  rw [ha]
  simp only [List.length_singleton, flushHead, ha, hready, if_true, List.foldl_cons, List.foldl_nil]
  exact (mediaBeats_flushed (.refl _)).out _ hsent

/-- Of all the heads' answers. -/
theorem flushHeads_out {x : BitVec 64} {l : List Nat} (hl : h ∈ l) (hh : h < s.media.heads.length)
    (ha : (headAt h s).answers = [{ msgs := [x] }]) (hv : (headAt h s).via = none) :
    x ∈ (l.foldl (fun s h => flushHead (headAt h s).answers.length h s) s).media.out := by
  induction l generalizing s with
  | nil => cases hl
  | cons n l ih =>
    by_cases hn : n = h
    · subst hn
      exact (flushHeads_flushed l (.refl _)).out _ (flushHead_out hh ha hv)
    · have hkept := headAt_flushHead_ne (k := (headAt n s).answers.length) (s := s) hn
      have hcount := (flushHead_flushed (k := (headAt n s).answers.length) (n := n) (.refl s)).count
      exact ih ((List.mem_cons.mp hl).resolve_left (Ne.symm hn)) (hcount ▸ hh) (hkept ▸ ha) (hkept ▸ hv)

/-- An answer to a head that owes none leaves, and changes nothing else of the heads. -/
theorem answer_out {x : BitVec 64} (h16 : h < 16) (hh : h < s.media.heads.length) (howes : owesNothing h s) :
    Flushed s (answer h { msgs := [x] } s) ∧ x ∈ (answer h { msgs := [x] } s).media.out := by
  obtain ⟨hnone, hvia⟩ := howes
  unfold answer
  refine ⟨flushAnswers_flushed (modHead_flushed (fun _ => rfl) (.refl s)), ?_⟩
  unfold flushAnswers
  refine flushHeads_out (List.mem_range.mpr h16) (by simpa [modHead] using hh) ?_ ?_
  · rw [headAt_modHead s h _ hh, hnone]
    rfl
  · rw [headAt_modHead s h _ hh]
    exact hvia

theorem onlyMedia_of_flushed {md : Media} (hs : Flushed { s with media := md } t) : onlyMedia s t := by
  have hstripe : t.stripe = s.stripe := by rw [hs.rest]
  rw [onlyMedia, hstripe]
  exact hs.rest

/-! ### A message that is served at once (R41, R373, R374) -/

/-- Each command of the media port takes messages of its own KIND (R374). -/
theorem exec_mediaCommand {p : (BitVec 64 → Instr) × Nat} (hp : p ∈ mediaCommands) (m : BitVec 64) (s : State) :
    exec (p.1 m) s = .next (ofKind p.2 m s) := by
  simp only [mediaCommands, List.mem_cons, List.not_mem_nil, or_false] at hp
  rcases hp with rfl | rfl | rfl | rfl | rfl | rfl | rfl | rfl | rfl <;> rfl

theorem ofKind_eq {k : Nat} (hk : mKind m = k) : ofKind k m s = takeMessage m s := if_pos (by simpa using hk)

theorem ofKind_ne {k : Nat} (hk : mKind m ≠ k) : ofKind k m s = s := if_neg (by simpa using hk)

theorem takeMessage_of_not_ready (h : inReady s = false) : takeMessage m s = s := if_pos (by simp [h])

/-- A follower forwards what is not for its accumulator (R420). -/
theorem takeMessage_forwards (hr : inReady s = true) (hf : s.modes.follower = true) (hk : toAccum m = false) :
    takeMessage m s = forward m s := by
  simp [takeMessage, hr, hf, hk]

theorem takeMessage_accepts (h : servesMedia m s) : takeMessage m s = acceptMessage m s := by
  obtain ⟨hready, hinQ, hf, -⟩ := h
  have hin : inReady s = true := by simp [inReady, hready, hinQ]
  rcases hf with hf | hf <;> simp [takeMessage, hin, hf]

/-- The one message that waits is served, when it waits for no bind entry and no pass (R373). -/
theorem serveQueue_one (hinQ : s.media.inQ = []) (hrows : looksUpRows m = false) (hpass : passWaits m s = false) :
    serveQueue (n + 1) { s with media := { s.media with inQ := [m] } } = serveQueue n (serveMessage m s) := by
  have hempty : ({ s with media := { s.media with inQ := [] } } : State) = s := by rw [← hinQ]
  have hwait : passWaits m { s with media := { s.media with inQ := [m] } } = false := hpass
  rw [serveQueue]
  dsimp only
  rw [if_neg (by simp [hwait, rowsWait, hrows]), hempty]

/-- A message that looks up no bind entry and waits for no pass is served at once. -/
theorem takeMessage_serves (hserves : servesMedia m s) (hrows : looksUpRows m = false) (hpass : passWaits m s = false)
    (hdone : (serveMessage m s).media.inQ = []) : takeMessage m s = serveMessage m s := by
  obtain ⟨hready, hinQ, -, -⟩ := id hserves
  have hin : inReady s = true := by simp [inReady, hready, hinQ]
  have haccept : acceptMessage m s = serveQueue 16 { s with media := { s.media with inQ := [m] } } := by
    simp only [acceptMessage, hin, hrows, hinQ, if_true, Bool.false_eq_true, if_false, List.nil_append]
  rw [takeMessage_accepts hserves, haccept, serveQueue_one hinQ hrows hpass, serveQueue_nil 15 hdone]

theorem Flushed.inQ (hs : Flushed s t) : t.media.inQ = s.media.inQ := by rw [hs.media]

/-- A head of this block's port that owes nothing gets its NAK. -/
theorem nak_out (reason : Nat) (hlen : s.media.heads.length = 16) (howes : owesNothing (mHead m) s) :
    Flushed s (nak m reason s) ∧ nakMsg m reason ∈ (nak m reason s).media.out := by
  unfold nak
  exact answer_out (mHead_lt m) (by rw [hlen]; exact mHead_lt m) howes

/-- A message that is refused. -/
theorem takeMessage_naks {reason : Nat} (hserves : servesMedia m s) (howes : owesNothing (mHead m) s)
    (hrows : looksUpRows m = false) (hpass : passWaits m s = false) (hserve : serveMessage m s = nak m reason s) :
    nakMsg m reason ∈ (takeMessage m s).media.out ∧ onlyMedia s (takeMessage m s)
      ∧ Flushed s (takeMessage m s) := by
  obtain ⟨-, hinQ, -, hlen⟩ := id hserves
  obtain ⟨hf, hout⟩ := nak_out reason hlen howes
  rw [takeMessage_serves hserves hrows hpass (by rw [hserve, hf.inQ, hinQ]), hserve]
  exact ⟨hout, onlyMedia_of_flushed hf, hf⟩

theorem looksUpRows_of_zeros (h : msgZeros m = false) : looksUpRows m = false := by
  by_contra hrows
  obtain ⟨h3, h5⟩ : 3 ≤ mKind m ∧ mKind m ≤ 5 := by simpa [looksUpRows] using hrows
  have hkind : mKind m = 3 ∨ mKind m = 4 ∨ mKind m = 5 := by omega
  rcases hkind with e | e | e <;> simp [msgZeros, e] at h

theorem serveMessage_of_zeros (h : msgZeros m = false) : serveMessage m s = nak m 1 s := if_pos (by simp [h])

/-- A reserved KIND has no fields that are as they must be (R376). -/
theorem msgZeros_of_unknown (h : knownKind (mKind m) = false) : msgZeros m = false := by
  unfold msgZeros
  split <;> simp_all [knownKind]

theorem unknown_not_pass (h : knownKind (mKind m) = false) : passWaits m s = false := by
  have hk : mKind m ≠ 9 := fun e => by simp [knownKind, e] at h
  simp [passWaits, hk]

end
end Sys2Proof.Machine

namespace Sys2Proof.Machine

section
variable {s₀ s t u : State} {m : BitVec 64} {h i k n : Nat}

/-! ### Bind entries that are looked up (R379, R593) -/

/-- Bind entries have been looked up: none comes into the cache by that, and a read that is outstanding stays. -/
structure LooksUp (s t : State) : Prop where
  rest : t = { s with host := t.host, stripe := { s.stripe with bindCache := t.stripe.bindCache } }
  cache : ∀ i ∈ t.stripe.bindCache, i ∈ s.stripe.bindCache
  reading : ∀ i, bindReading i s = true → bindReading i t = true

theorem LooksUp.refl (s : State) : LooksUp s s := ⟨rfl, fun _ hi => hi, fun _ hi => hi⟩

theorem LooksUp.trans (hs : LooksUp s t) (ht : LooksUp t u) : LooksUp s u := by
  refine ⟨?_, fun i hi => hs.cache i (ht.cache i hi), fun i hi => ht.reading i (hs.reading i hi)⟩
  rw [ht.rest, hs.rest]

theorem bindReading_iff : bindReading i s = true ↔
    (∃ r ∈ s.host.reads ++ s.host.rstalled, r.what = .bindRead i) ∨ ∃ x ∈ s.stripe.winReadHeld, x.1 = .bindRead i := by
  simp only [bindReading, Bool.or_eq_true, List.any_eq_true, beq_iff_eq]

theorem touchBinds_looksUp (hk : k ∈ s.stripe.bindCache) : LooksUp s (touchBinds [k] s) := by
  refine ⟨rfl, fun i hi => ?_, fun _ hr => hr⟩
  rcases List.mem_append.mp (List.mem_of_mem_take hi) with hi | hi
  · exact List.mem_singleton.mp hi ▸ hk
  · exact (List.mem_filter.mp hi).1

theorem hostReadData_looksUp {what : HostWhat} {addr len : Nat} : LooksUp s (hostReadData what addr len s) := by
  refine ⟨rfl, fun _ hi => hi, fun i hr => ?_⟩
  rw [bindReading_iff] at hr ⊢
  refine hr.imp_left fun ⟨r, hr, hwhat⟩ => ?_
  obtain ⟨tag, ht⟩ := mem_settle_reads (p := { s.host with
      issued := s.host.issued + (splitLens (len / 32 + 2) addr len).length
      rstalled := s.host.rstalled ++ (splitLens (len / 32 + 2) addr len).map
        (fun p => { addr := BitVec.ofNat 64 p.1, len := p.2, what := what }) })
    (r := r) (by rw [← List.append_assoc]; exact List.mem_append_left _ hr)
  exact ⟨_, ht, hwhat⟩

/-- One entry is looked up. -/
def lookUpBind (s : State) (i : Nat) : State :=
  if s.stripe.bindCache.contains i then touchBinds [i] s
  else if bindReading i s || !s.stripe.granted then s
  else hostReadData (.bindRead i) ((winBase s + bindOff i) / 32 * 32) 32 s

theorem lookUpBinds_eq (s : State) (x : Nat × Nat × Nat) :
    lookUpBinds s x = (bindsNear x.1 x.2.1 x.2.2 s).foldl lookUpBind s := rfl

theorem lookUpBind_looksUp : LooksUp s (lookUpBind s i) := by
  unfold lookUpBind
  split
  case isTrue hc => exact touchBinds_looksUp (by simpa using hc)
  case isFalse =>
    split
    · exact .refl s
    · exact hostReadData_looksUp

/-- An entry outside the cache is read from the granted window (R33). -/
theorem lookUpBind_reads (hg : s.stripe.granted = true) (hi : i ∉ s.stripe.bindCache) :
    bindReading i (lookUpBind s i) = true := by
  unfold lookUpBind
  rw [if_neg (by simpa using hi)]
  split
  case isTrue hr => simpa [hg] using hr
  case isFalse =>
    obtain ⟨x, hx⟩ : ∃ x, x ∈ splitLens (32 / 32 + 2) ((winBase s + bindOff i) / 32 * 32) 32 := ⟨_, List.mem_cons_self⟩
    obtain ⟨r, hr, hwhat, -⟩ := hostReadData_asks (what := .bindRead i) hx s
    exact bindReading_iff.mpr (.inl ⟨r, hr, hwhat⟩)

theorem lookUpAll_looksUp (l : List Nat) : LooksUp s (l.foldl lookUpBind s) := by
  induction l generalizing s with
  | nil => exact .refl s
  | cons i l ih => exact lookUpBind_looksUp.trans ih

theorem lookUpAll_reads {l : List Nat} (hg : s.stripe.granted = true) (hil : i ∈ l) (hi : i ∉ s.stripe.bindCache) :
    bindReading i (l.foldl lookUpBind s) = true := by
  induction l generalizing s with
  | nil => cases hil
  | cons k l ih =>
    rcases List.mem_cons.mp hil with rfl | hil
    · exact (lookUpAll_looksUp l).reading i (lookUpBind_reads hg hi)
    · have hk : LooksUp s (lookUpBind s k) := lookUpBind_looksUp
      exact ih (by rw [hk.rest]; exact hg) hil fun hc => hi (hk.cache i hc)

/-- A message whose bind entry has to be read waits in the inbound queue (R379). -/
theorem takeMessage_reads (hserves : servesMedia m s) (hrows : looksUpRows m = true) (hg : s.stripe.granted = true)
    (hnear : i ∈ bindsNear (mGroup m) (mRow m) (mRows m) s) (hi : i ∉ s.stripe.bindCache) :
    (takeMessage m s).media = { s.media with inQ := [m] } ∧ bindReading i (takeMessage m s) = true
      ∧ takeMessage m s = { s with
        media := (takeMessage m s).media, host := (takeMessage m s).host
        stripe := { s.stripe with bindCache := (takeMessage m s).stripe.bindCache } } := by
  obtain ⟨hready, hinQ, -, -⟩ := id hserves
  have hin : inReady s = true := by simp [inReady, hready, hinQ]
  have hl : LooksUp s (lookUpBinds s (mGroup m, mRow m, mRows m)) := by
    rw [lookUpBinds_eq]
    exact lookUpAll_looksUp _
  have hr : bindReading i (lookUpBinds s (mGroup m, mRow m, mRows m)) = true := by
    rw [lookUpBinds_eq]
    exact lookUpAll_reads hg hnear hi
  have haccept : takeMessage m s = serveQueue 16 { lookUpBinds s (mGroup m, mRow m, mRows m) with
      media := { s.media with inQ := [m] } } := by
    rw [takeMessage_accepts hserves, acceptMessage, if_pos hin]
    simp only [hrows, if_true]
    have hmedia : (lookUpBinds s (mGroup m, mRow m, mRows m)).media = s.media := by rw [hl.rest]
    rw [hmedia, hinQ, List.nil_append]
  generalize lookUpBinds s (mGroup m, mRow m, mRows m) = u at *
  have hwait : rowsWait m { u with media := { s.media with inQ := [m] } } = true := by
    have hnear' : i ∈ bindsNear (mGroup m) (mRow m) (mRows m) u := by rw [hl.rest]; exact hnear
    have hany : bindsWait (mGroup m) (mRow m) (mRows m) u = true := List.any_eq_true.mpr ⟨i, hnear', hr⟩
    have hany' : bindsWait (mGroup m) (mRow m) (mRows m) { u with media := { s.media with inQ := [m] } } = true := hany
    simp [rowsWait, hrows, hany']
  have htake : takeMessage m s = { u with media := { s.media with inQ := [m] } } := by
    rw [haccept, serveQueue]
    dsimp only
    rw [if_pos (by simp [hwait])]
  rw [htake]
  exact ⟨rfl, hr, by conv_lhs => rw [hl.rest]⟩

/-! ### ATTACH and DETACH (R385) -/

theorem serveMessage_attach (hk : mKind m = 1) (hz : msgZeros m = true) : serveMessage m s = serveAttach m s := by
  simp [serveMessage, hz, hk]

theorem serveMessage_detach (hk : mKind m = 2) (hz : msgZeros m = true) : serveMessage m s = serveDetach m s := by
  simp [serveMessage, hz, hk]

theorem noJob_iff : BitVec.ofNat 32 (fld m.toNat 0 32) = 0xFFFFFFFF ↔ fld m.toNat 0 32 = 0xFFFFFFFF := by
  have hlt : fld m.toNat 0 32 < 2 ^ 32 := Nat.mod_lt _ (by decide)
  rw [← BitVec.toNat_inj, BitVec.toNat_ofNat, Nat.mod_eq_of_lt hlt]
  rfl

/-- The head of a message, as an ATTACH that is accepted makes it (R385, R420). -/
def attached (m : BitVec 64) (s : State) : State :=
  modHead (mHead m) (fun x => { x with
    job := some (BitVec.ofNat 32 (fld m.toNat 0 32)), fed := [], via := headWire (mHead m) s }) s

theorem serveAttach_accepts (hjob : (headAt (mHead m) s).job = none) (hne : fld m.toNat 0 32 ≠ 0xFFFFFFFF) :
    serveAttach m s = ack m (attached m s) := by
  have hne' : BitVec.ofNat 32 (fld m.toNat 0 32) ≠ 0xFFFFFFFF := noJob_iff.not.mpr hne
  unfold serveAttach
  extract_lets h job
  rw [if_neg (by simpa [job] using hne'), if_neg (by simp [h, hjob])]
  rfl

theorem serveAttach_refuses (hbad : (headAt (mHead m) s).job ≠ none ∨ fld m.toNat 0 32 = 0xFFFFFFFF) :
    serveAttach m s = nak m (if fld m.toNat 0 32 = 0xFFFFFFFF then 1 else 0xA) s := by
  unfold serveAttach
  extract_lets h job
  by_cases hall : fld m.toNat 0 32 = 0xFFFFFFFF
  · rw [if_pos hall, if_pos (beq_iff_eq.mpr (noJob_iff.mpr hall))]
  · have hjob := hbad.resolve_right hall
    rw [if_neg hall, if_neg (mt (fun e => noJob_iff.mp (beq_iff_eq.mp e)) hall), if_pos (by simpa [h] using hjob)]

/-- A message of a KIND that looks up nothing and is no PASS. -/
theorem plainKind (hk : mKind m = 1 ∨ mKind m = 2) : looksUpRows m = false ∧ passWaits m s = false := by
  rcases hk with hk | hk <;> simp [looksUpRows, passWaits, hk]

/-- An ATTACH to a head that has no job (R385). -/
theorem attach_accepted (hserves : servesMedia m s) (howes : owesNothing (mHead m) s) (hk : mKind m = 1)
    (hz : msgZeros m = true) (hjob : (headAt (mHead m) s).job = none) (hne : fld m.toNat 0 32 ≠ 0xFFFFFFFF)
    (hwire : headWire (mHead m) s = none) :
    Flushed (attached m s) (takeMessage m s) ∧ ackMsg m ∈ (takeMessage m s).media.out := by
  obtain ⟨-, hinQ, -, hlen⟩ := id hserves
  have hh : mHead m < s.media.heads.length := by rw [hlen]; exact mHead_lt m
  have hserve : serveMessage m s = ack m (attached m s) :=
    (serveMessage_attach hk hz).trans (serveAttach_accepts hjob hne)
  have howes' : owesNothing (mHead m) (attached m s) := by
    rw [owesNothing, attached, headAt_modHead s _ _ hh]
    exact ⟨howes.1, hwire⟩
  obtain ⟨hf, hout⟩ : Flushed (attached m s) (ack m (attached m s)) ∧ ackMsg m ∈ (ack m (attached m s)).media.out := by
    unfold ack
    exact answer_out (mHead_lt m) (by simpa [attached, modHead] using hh) howes'
  have hdone : (serveMessage m s).media.inQ = [] := by rw [hserve, hf.inQ]; exact hinQ
  obtain ⟨hrows, hpass⟩ := plainKind (s := s) (.inl hk)
  rw [takeMessage_serves hserves hrows hpass hdone, hserve]
  exact ⟨hf, hout⟩

/-- The head of a message as a DETACH leaves it. -/
def detached (m : BitVec 64) (s : State) : State :=
  modHead (mHead m) (fun x => { x with job := none, fed := [] }) (cutFeed (mHead m) s)

/-- A DETACH ends the head's job and its feed (R385). -/
theorem detach_served (hserves : servesMedia m s) (hk : mKind m = 2) (hz : msgZeros m = true) :
    OnHead (mHead m) s (takeMessage m s) ∧ (headAt (mHead m) (takeMessage m s)).job = none
      ∧ (headAt (mHead m) (takeMessage m s)).fed = [] ∧ (headAt (mHead m) (takeMessage m s)).feed = none := by
  obtain ⟨-, hinQ, -, hlen⟩ := id hserves
  have hh : mHead m < s.media.heads.length := by rw [hlen]; exact mHead_lt m
  obtain ⟨hcut, hfeed⟩ := cutFeed_onHead hh
  have hf : Flushed (detached m s) (ack m (detached m s)) := by
    unfold ack answer
    exact flushAnswers_flushed (modHead_flushed (fun _ => rfl) (.refl _))
  have hon : OnHead (mHead m) s (ack m (detached m s)) := hcut.trans (modHead_onHead.trans hf.onHead)
  have hserve : serveMessage m s = ack m (detached m s) := serveMessage_detach hk hz
  obtain ⟨hrows, hpass⟩ := plainKind (s := s) (.inr hk)
  rw [takeMessage_serves hserves hrows hpass (by rw [hserve, hon.inQ, hinQ]), hserve]
  have hcore := hf.head (mHead m)
  rw [detached, headAt_modHead _ _ _ (hcut.count ▸ hh)] at hcore
  obtain ⟨hjob, hfed, hfeed', -⟩ := Head.core_fields hcore
  obtain ⟨-, -, hnone, -⟩ := Head.core_fields hfeed
  exact ⟨hon, hjob, hfed, hfeed'.trans hnone⟩

end

/-- Settles O48: a message is left, forwarded, kept waiting or served at once, by its KIND and its fields. -/
theorem mediaMessagesAreAnswered : Obligations.MediaMessagesAreAnswered := by
  unfold Obligations.MediaMessagesAreAnswered
  refine ⟨fun p m s hp => ⟨fun hk => ?_, fun hr => ?_, fun hr hf hk h8 => ?_, fun hserves hk howes hz hpass _ => ?_,
    fun i hserves hk hrows hg hnear hi => ?_⟩, fun m s hk => ?_, fun m s hserves howes hk => ?_,
    fun m s hserves howes hk hz hjob hne hwire => ?_, fun m s hserves howes hk hz hbad => ?_, fun m s hserves hk hz => ?_⟩
  · rw [exec_mediaCommand hp, ofKind_ne hk]
  · rw [exec_mediaCommand hp, ofKind, takeMessage_of_not_ready hr, ite_self]
  · have hacc : toAccum m = false := by simp [toAccum]; omega
    rw [exec_mediaCommand hp, ofKind_eq hk, takeMessage_forwards hr hf hacc, ← hk]
    rfl
  · rw [exec_mediaCommand hp, ofKind_eq hk]
    obtain ⟨hout, honly, -⟩ :=
      takeMessage_naks hserves howes (looksUpRows_of_zeros hz) hpass (serveMessage_of_zeros hz)
    exact ⟨_, rfl, hout, honly⟩
  · rw [exec_mediaCommand hp, ofKind_eq hk]
    exact ⟨_, rfl, takeMessage_reads hserves hrows hg hnear hi⟩
  · exact congrArg Host.Outcome.next (if_pos hk)
  · have hz := msgZeros_of_unknown hk
    obtain ⟨hout, honly, -⟩ :=
      takeMessage_naks hserves howes (looksUpRows_of_zeros hz) (unknown_not_pass hk) (serveMessage_of_zeros hz)
    exact ⟨_, congrArg Host.Outcome.next (if_neg (by simp [hk])), hout, honly⟩
  · obtain ⟨-, -, -, hlen⟩ := id hserves
    have hh : mHead m < s.media.heads.length := by rw [hlen]; exact mHead_lt m
    obtain ⟨hf, hout⟩ := attach_accepted hserves howes hk hz hjob hne hwire
    refine ⟨_, congrArg Host.Outcome.next (ofKind_eq hk), ?_⟩
    have hcore := hf.head (mHead m)
    rw [attached, headAt_modHead s _ _ hh] at hcore
    have hothers (n : Nat) (hn : n ≠ mHead m) : (headAt n (takeMessage m s)).core = (headAt n s).core := by
      rw [hf.head, attached, headAt_modHead_ne s _ _ _ (Ne.symm hn)]
    obtain ⟨hjob', hfed, -⟩ := Head.core_fields hcore
    refine ⟨hjob', hfed, hout, fun n hn => ?_, onlyMedia_of_flushed hf⟩
    obtain ⟨hjobN, hfedN, -⟩ := Head.core_fields (hothers n hn)
    exact ⟨hjobN, hfedN⟩
  · obtain ⟨hrows, hpass⟩ := plainKind (s := s) (.inl hk)
    obtain ⟨hout, honly, hf⟩ := takeMessage_naks hserves howes hrows hpass
      ((serveMessage_attach hk hz).trans (serveAttach_refuses hbad))
    obtain ⟨hjob, -⟩ := Head.core_fields (hf.head (mHead m))
    exact ⟨_, congrArg Host.Outcome.next (ofKind_eq hk), hjob, hout, honly⟩
  · obtain ⟨hon, hjob, hfed, hfeed⟩ := detach_served hserves hk hz
    refine ⟨_, congrArg Host.Outcome.next (ofKind_eq hk), hjob, hfed, hfeed, fun n hn => ?_, by rw [hon.rest],
      by rw [hon.rest], by rw [hon.rest]⟩
    obtain ⟨hjobN, -, hfeedN, -⟩ := Head.core_fields (hon.others n hn)
    exact ⟨hjobN, hfeedN⟩

end Sys2Proof.Machine
namespace Sys2Proof.Machine

/-! ### What start-up leaves of the straps, the latch and the count of starts (R47, R61, R522) -/

/-- The reset pin, what the end of reset samples and the latch, and the count of starts. -/
def startParts (pins : Pins) (modes : Modes) (stats : Stats) : Bool × Bool × Bool × BitVec 3 × Bool × Bool × Nat :=
  (pins.inReset, modes.quarHeld, modes.quarantine, modes.dieId, modes.leadOk, modes.porCold, stats.powerCycles)

/-- `t` has the reset pin, the samples, the latch and the count of starts of `s`. -/
def SameStart (s t : State) : Prop :=
  startParts t.pins t.modes t.stats = startParts s.pins s.modes s.stats

section
variable {s₀ s t : State}

theorem SameStart.refl (s : State) : SameStart s s := rfl

theorem SameStart.trans (h : SameStart s₀ s) (k : SameStart s t) : SameStart s₀ t := Eq.trans k h

/-- An update that keeps the parts of the pins, the modes and the counts that `SameStart` speaks of. -/
theorem SameStart.frame {pending : List Instr} {freeCtr now : Nat} {pins : Pins} {modes : Modes} {rings : List Ring}
    {sched : Sched} {host : HostPorts} {regs : RegPort} {rack : Rack} {power : Power} {hk : Hk}
    {storeImage : List (Nat × BitVec 160)} {jigs : List Jig} {chans : List Chan} {codec : Codec} {recov : Recov}
    {luns : List (Nat × LunRec)} {stripe : Stripe} {bg : Bg} {media : Media} {dv : Dv} {irq : Irq} {evq : Evq} {dict : Dict}
    {cab : Cabinet} {sram : Sram} {stats : Stats} (h : SameStart s₀ s)
    (e : startParts pins modes stats = startParts s.pins s.modes s.stats) :
    SameStart s₀ {
      pending := pending, freeCtr := freeCtr, now := now, pins := pins, modes := modes, rings := rings, sched := sched
      host := host, regs := regs, rack := rack, power := power, hk := hk, storeImage := storeImage, jigs := jigs
      chans := chans, codec := codec, recov := recov, luns := luns, stripe := stripe, bg := bg, media := media, dv := dv
      irq := irq, evq := evq, dict := dict, cab := cab, sram := sram, stats := stats } := Eq.trans e h

theorem SameStart.ite {c : Prop} [Decidable c] {a b : State} (ha : SameStart s₀ a) (hb : SameStart s₀ b) :
    SameStart s₀ (if c then a else b) := by split <;> assumption

theorem SameStart.foldl {α : Type _} {f : State → α → State} {l : List α}
    (hf : ∀ s a, SameStart s₀ s → SameStart s₀ (f s a)) (h : SameStart s₀ s) : SameStart s₀ (l.foldl f s) := by
  induction l generalizing s with
  | nil => exact h
  | cons a l ih => exact ih (hf s a h)

/-! ### Events and records -/

theorem raise_sameStart {n : Nat} (h : SameStart s₀ s) : SameStart s₀ (raise n s) := .frame h rfl

theorem logRecord_sameStart {bs : List Byte} (h : SameStart s₀ s) : SameStart s₀ (logRecord bs s) := .frame h rfl

theorem issueRecord_sameStart (h : SameStart s₀ s) : SameStart s₀ (issueRecord s) := by
  unfold issueRecord
  split
  · exact .frame h rfl
  · exact h

theorem queueCanEvent_sameStart {bs : List Byte} (h : SameStart s₀ s) : SameStart s₀ (queueCanEvent bs s) :=
  .ite (.frame h rfl) (.frame h rfl)

theorem raisePriv_sameStart {id : Nat} {soft : Bool} {detail : List Byte} (h : SameStart s₀ s) :
    SameStart s₀ (raisePriv id soft detail s) := by
  unfold raisePriv
  extract_lets +onlyGivenNames _ _ _ _ _ t u
  have ht : SameStart s₀ t := .frame h rfl
  have hu : SameStart s₀ u := .ite (queueCanEvent_sameStart ht) ht
  exact .ite (.ite (issueRecord_sameStart (.frame hu rfl)) (.frame hu rfl)) (.frame hu rfl)

theorem configEvent_sameStart {cause what sub rate : Nat} (h : SameStart s₀ s) :
    SameStart s₀ (configEvent cause what sub rate s) := raisePriv_sameStart h

theorem cabFault_sameStart {cause sector status : Nat} (h : SameStart s₀ s) :
    SameStart s₀ (cabFault cause sector status s) := raisePriv_sameStart (.frame h rfl)

theorem bootRefusal_sameStart {place reason : Nat} (h : SameStart s₀ s) : SameStart s₀ (bootRefusal place reason s) :=
  .ite (.frame h rfl) (.frame h rfl)

theorem dvSend_sameStart {type : Nat} {dst : Option (BitVec 3)} {payload : List Byte} (h : SameStart s₀ s) :
    SameStart s₀ (dvSend type dst payload s) := by
  obtain ⟨dv, e, -, -⟩ := dvSend_eq type dst payload s
  rw [e]
  exact .frame h rfl

/-! ### The SRAM -/

theorem sramNote_sameStart {a x : Nat} {q bad : Bool} (h : SameStart s₀ s) : SameStart s₀ (sramNote a x q bad s) := by
  cases bad
  · exact .frame h rfl
  · exact raisePriv_sameStart (.frame h rfl)

theorem readStored_sameStart {a : Nat} (h : SameStart s₀ s) : SameStart s₀ (readStored a s).2.2 := by
  unfold readStored
  extract_lets w
  split
  · exact h
  · exact (sramNote_sameStart h : SameStart s₀ (sramNote a (synd w) (qParity w) false s))
  · exact (sramNote_sameStart h : SameStart s₀ (sramNote a (synd w) (qParity w) true s))

theorem retire_sameStart {e : Merge} (h : SameStart s₀ s) : SameStart s₀ (retire e s) :=
  .ite (.frame h rfl)
    (.ite (.frame (readStored_sameStart (.frame h rfl)) rfl) (.frame (readStored_sameStart (.frame h rfl)) rfl))

theorem narrowWrite_sameStart {a off : Nat} {bs : List Byte} (h : SameStart s₀ s) :
    SameStart s₀ (narrowWrite a off bs s) := by
  unfold narrowWrite
  dsimp only
  split
  · exact .ite (retire_sameStart (.frame h rfl)) (.frame h rfl)
  · refine .frame (.ite h ?_) rfl
    split
    · exact retire_sameStart h
    · exact h

theorem sramWriteFuel_sameStart {n off : Nat} {bs : List Byte} (h : SameStart s₀ s) :
    SameStart s₀ (sramWriteFuel n off bs s) := by
  induction n generalizing off bs s with
  | zero => exact h
  | succ n ih => exact .ite h (.ite (ih (.frame h rfl)) (ih (narrowWrite_sameStart h)))

/-! ### The Cabinet and its images -/

theorem noteEndurance_sameStart {sec : Nat} (h : SameStart s₀ s) : SameStart s₀ (noteEndurance sec s) :=
  .ite (cabFault_sameStart h) h

theorem eraseSector_sameStart {sec : Nat} (h : SameStart s₀ s) : SameStart s₀ (eraseSector sec s) :=
  .ite (.frame h rfl) (noteEndurance_sameStart (.frame h rfl))

theorem eraseFails_sameStart {sec : Nat} (h : SameStart s₀ s) : SameStart s₀ (eraseFails sec s) :=
  cabFault_sameStart (.frame (.frame h rfl : SameStart s₀ (freeSector sec s)) rfl)

theorem redoErase_sameStart {ok : Bool} (h : SameStart s₀ s) : SameStart s₀ (redoErase ok s) := by
  have hmark : SameStart s₀ { s with modes := { s.modes with eraseRedone := true } } := .frame h rfl
  have hfree {u : State} (hu : SameStart s₀ u) : SameStart s₀ (takeFree u).2 := .frame hu rfl
  unfold redoErase
  dsimp only
  split
  · exact .ite (cabFault_sameStart (hfree (eraseSector_sameStart hmark))) (cabFault_sameStart (eraseFails_sameStart hmark))
  · exact h

theorem tryFirmware_sameStart {places : List Nat} (h : SameStart s₀ s) : SameStart s₀ (tryFirmware places s).2 := by
  induction places generalizing s with
  | nil => exact h
  | cons place places ih =>
    unfold tryFirmware
    split
    · exact sramWriteFuel_sameStart (.frame h rfl)
    · exact ih (bootRefusal_sameStart h)

theorem bootFirmware_sameStart (h : SameStart s₀ s) : SameStart s₀ (bootFirmware s).2 := by
  unfold bootFirmware
  split
  · exact bootRefusal_sameStart h
  · exact tryFirmware_sameStart h

theorem bootPatch_sameStart (h : SameStart s₀ s) : SameStart s₀ (bootPatch s) := by
  refine .ite h ?_
  split
  · exact .frame h rfl
  · exact configEvent_sameStart (bootRefusal_sameStart h)

theorem bootCustomer_sameStart (h : SameStart s₀ s) : SameStart s₀ (bootCustomer s) := by
  refine .ite h ?_
  split
  · exact .frame h rfl
  · exact configEvent_sameStart (bootRefusal_sameStart h)

/-! ### Save records -/

theorem eraseHalf_sameStart {half : Nat} (h : SameStart s₀ s) : SameStart s₀ (eraseHalf half s) :=
  .foldl (fun _ _ ht => .ite ht (eraseSector_sameStart ht)) h

theorem ensureHalf_sameStart (h : SameStart s₀ s) : SameStart s₀ (ensureHalf s) :=
  .ite (.frame (.frame (eraseHalf_sameStart h) rfl) rfl) h

theorem appendRecord_sameStart {idx sub : Nat} {v : List Byte} (h : SameStart s₀ s) :
    SameStart s₀ (appendRecord idx sub v s) := .frame h rfl

theorem compactNow_sameStart (h : SameStart s₀ s) : SameStart s₀ (compactNow s) := by
  unfold compactNow
  extract_lets +onlyGivenNames _ _ _ _ _ s₁
  have hs₁ : SameStart s₀ s₁ := eraseHalf_sameStart h
  extract_lets +onlyGivenNames _ s₂ s₃ s₄
  have hs₂ : SameStart s₀ s₂ := .frame hs₁ rfl
  have hs₃ : SameStart s₀ s₃ := .foldl (fun _ _ ht => appendRecord_sameStart ht) hs₂
  have hs₄ : SameStart s₀ s₄ := .ite (appendRecord_sameStart hs₃) hs₃
  exact .frame hs₄ rfl

theorem eraseAhead_sameStart (h : SameStart s₀ s) : SameStart s₀ (eraseAhead s) := by
  refine .ite ?_ h
  split
  · exact eraseSector_sameStart h
  · exact h

theorem saveRecord_sameStart {idx sub : Nat} {v : List Byte} (h : SameStart s₀ s) : SameStart s₀ (saveRecord idx sub v s) :=
  eraseAhead_sameStart (appendRecord_sameStart (.ite (compactNow_sameStart (ensureHalf_sameStart h)) (ensureHalf_sameStart h)))

/-! ### The loss of the lead and the fence of the identity (R411, R427) -/

theorem mediaReadyFall_sameStart (h : SameStart s₀ s) : SameStart s₀ (mediaReadyFall s) := .frame h rfl

theorem endCanSessions_sameStart (h : SameStart s₀ s) : SameStart s₀ (endCanSessions s) := .frame h rfl

theorem applyMode_sameStart (h : SameStart s₀ s) : SameStart s₀ (applyMode s) := by
  have hu : SameStart s₀ { s with modes := { s.modes with mode := s.modes.primary, prevMode := s.modes.mode } } := .frame h rfl
  have hl {bs} := logRecord_sameStart (bs := bs) (raise_sameStart (n := 65) hu)
  have hready {b : Bool} {u : State} (hu : SameStart s₀ u) : SameStart s₀ { u with pins := { u.pins with mediaReady := b } } :=
    .frame hu rfl
  exact .ite h (hready (.ite (.ite (mediaReadyFall_sameStart hl) hl)
    (endCanSessions_sameStart (.ite (mediaReadyFall_sameStart hl) hl))))

theorem dropAccum_sameStart (h : SameStart s₀ s) : SameStart s₀ (dropAccum s) :=
  .frame (.ite (.frame h rfl) (dvSend_sameStart (.frame h rfl)) :
    SameStart s₀ (tellAccums accCloseJob [1] { s with media := { s.media with accum := 0, accEid := none } })) rfl

theorem undoOpen_sameStart {e : Entry} (h : SameStart s₀ s) : SameStart s₀ (undoOpen e s) := .ite (.frame h rfl) h

theorem abortEntry_sameStart {st det : Nat} {e : Entry} (h : SameStart s₀ s) : SameStart s₀ (abortEntry st det s e) := by
  unfold abortEntry
  extract_lets +onlyGivenNames s₁
  have hs₁ : SameStart s₀ s₁ := undoOpen_sameStart (.frame h rfl)
  exact .frame (.ite (dropAccum_sameStart hs₁) hs₁) rfl

theorem cutWrite_sameStart {st det : Nat} {e : Entry} (h : SameStart s₀ s) : SameStart s₀ (cutWrite st det s e) :=
  .ite (.ite h (.foldl (fun _ _ ht => .frame ht rfl) (.frame h rfl))) h

theorem endRows_sameStart {p : RowRun → Bool} (h : SameStart s₀ s) : SameStart s₀ (endRows p s) :=
  .foldl (fun _ _ ht => .frame ht rfl) h

theorem loseLead_sameStart (h : SameStart s₀ s) : SameStart s₀ (loseLead s) := by
  refine .ite ?_ h
  have hfenced : SameStart s₀ (setConds (fun m => { m with
      lead := false, fenced := true, rebuild := false, refit := false, degraded := false, stbyRequested := false }) s) :=
    applyMode_sameStart (.frame h rfl)
  refine .foldl (fun _ _ ht => cutWrite_sameStart ht) (.frame (.foldl (fun _ _ ht => abortEntry_sameStart ht) ?_) rfl)
  exact raisePriv_sameStart (endRows_sameStart (.frame hfenced rfl))

theorem soloLeads_sameStart (h : SameStart s₀ s) : SameStart s₀ (soloLeads s) := .ite (.frame h rfl) h

theorem endTruing_sameStart (h : SameStart s₀ s) : SameStart s₀ (endTruing s) :=
  .ite (.foldl (fun _ _ ht => .frame ht rfl) (.frame h rfl)) h

theorem endTrain_sameStart (h : SameStart s₀ s) : SameStart s₀ (endTrain s) :=
  .ite (applyMode_sameStart (.frame (endTruing_sameStart (soloLeads_sameStart h)) rfl)) h

theorem fenceIdentity_sameStart {cause : Nat} (h : SameStart s₀ s) : SameStart s₀ (fenceIdentity cause s) :=
  .ite h (raisePriv_sameStart (endTrain_sameStart (applyMode_sameStart (.frame (loseLead_sameStart h) rfl))))

/-! ### The steps of BOOT (R64) -/

theorem bootLinks_sameStart {b : BootIn} (h : SameStart s₀ s) : SameStart s₀ (bootLinks b s) :=
  .ite (.frame h rfl) (.ite (fenceIdentity_sameStart (.frame h rfl))
    (.ite (fenceIdentity_sameStart (.frame h rfl)) (.frame h rfl)))

theorem bootTemp_sameStart {b : BootIn} (h : SameStart s₀ s) : SameStart s₀ (bootTemp b s) :=
  .ite (.frame (bootRefusal_sameStart (.frame h rfl)) rfl) (.frame h rfl)

theorem atStage_sameStart {n : Nat} (h : SameStart s₀ s) : SameStart s₀ (atStage n s) := .frame h rfl

theorem copyTrims_sameStart (h : SameStart s₀ s) : SameStart s₀ (copyTrims s) := .frame h rfl

theorem lockKeys_sameStart (h : SameStart s₀ s) : SameStart s₀ (lockKeys s) := .frame h rfl

theorem loadValues_sameStart (h : SameStart s₀ s) : SameStart s₀ (loadValues s) := .frame h rfl

theorem bootBegins_sameStart (b : BootIn) (s : State) : SameStart (resetEnds b s) (bootBegins b s) := rfl

theorem bootBegins_markBlank (b : BootIn) (s : State) : markBlank (bootBegins b s) = markBlank s := rfl

theorem bootBegins_factoryOk (b : BootIn) (s : State) : factoryOk (bootBegins b s) = factoryOk s := rfl

/-! ### The count of starts (R522) -/

/-- `t` has the reset pin, the samples and the latch of `s`, and its count of starts unless a por_n has been. -/
structure Counted (s t : State) : Prop where
  same : startParts t.pins t.modes s.stats = startParts s.pins s.modes s.stats
  warm : s.modes.porCold = false → t.stats.powerCycles = s.stats.powerCycles

theorem SameStart.counted (h : SameStart s t) : Counted s t := by
  simp only [SameStart, startParts, Prod.mk.injEq] at h
  obtain ⟨hreset, hheld, hquar, hdie, hlead, hcold, hcycles⟩ := h
  exact ⟨by simp [startParts, *], fun _ => hcycles⟩

theorem Counted.porCold (h : Counted s t) : t.modes.porCold = s.modes.porCold := by
  have hsame := h.same
  simp only [startParts, Prod.mk.injEq] at hsame
  exact hsame.2.2.2.2.2.1

theorem Counted.trans (h : Counted s₀ s) (k : Counted s t) : Counted s₀ t := by
  have hcold := h.porCold
  obtain ⟨hsame, hwarm⟩ := h
  obtain ⟨ksame, kwarm⟩ := k
  refine ⟨?_, fun hw => (kwarm (hcold.trans hw)).trans (hwarm hw)⟩
  simp only [startParts, Prod.mk.injEq] at hsame ksame ⊢
  simp_all

theorem applyRecord_counted (r : SaveRec) (s : State) : Counted s (applyRecord r s) := by
  unfold applyRecord
  split
  · exact SameStart.counted rfl
  split
  · split
    case isTrue hcold => exact ⟨rfl, fun hw => absurd (hcold.symm.trans hw) (by decide)⟩
    case isFalse => exact SameStart.counted rfl
  split
  · exact SameStart.counted rfl
  split
  · exact SameStart.counted rfl
  split
  · split <;> exact SameStart.counted rfl
  · exact SameStart.counted rfl

theorem applyRecords_counted (rs : List SaveRec) (h : Counted s₀ s) :
    Counted s₀ (rs.foldl (fun s r => applyRecord r s) s) := by
  induction rs generalizing s with
  | nil => exact h
  | cons r rs ih => exact ih (h.trans (applyRecord_counted r s))

theorem restoreBias_sameStart (h : SameStart s₀ s) : SameStart s₀ (restoreBias s) :=
  .foldl (fun _ _ ht => .ite (.frame ht rfl) ht) h

theorem savedInForce_counted (h : Counted s₀ s) :
    Counted s₀ (restoreBias { s with dict := { s.dict with force := s.dict.saved } }) := by
  have hforce : SameStart s { s with dict := { s.dict with force := s.dict.saved } } := rfl
  exact h.trans (restoreBias_sameStart hforce).counted

theorem restoreSaved_counted (s : State) : Counted s (restoreSaved s) := by
  unfold restoreSaved
  dsimp only
  split
  · exact SameStart.counted rfl
  · exact savedInForce_counted (applyRecords_counted _ (SameStart.counted rfl))

theorem countStart_counted (s : State) : Counted s (countStart s) := by
  unfold countStart
  split
  case isTrue hcold =>
    have hnext : Counted s { s with stats := { s.stats with powerCycles := s.stats.powerCycles + 1 } } :=
      ⟨rfl, fun hw => absurd (hcold.symm.trans hw) (by decide)⟩
    exact hnext.trans (SameStart.counted (.ite (saveRecord_sameStart (.refl _)) (.refl _)))
  case isFalse => exact SameStart.counted rfl

theorem SameStart.powerCycles (h : SameStart s t) : t.stats.powerCycles = s.stats.powerCycles := by
  simp only [SameStart, startParts, Prod.mk.injEq] at h
  exact h.2.2.2.2.2.2

/-- The start after a por_n is counted. -/
theorem countStart_pos (hcold : s.modes.porCold = true) : 1 ≤ (countStart s).stats.powerCycles := by
  have hkept : SameStart { s with stats := { s.stats with powerCycles := s.stats.powerCycles + 1 } } (countStart s) := by
    unfold countStart
    rw [if_pos hcold]
    exact .ite (saveRecord_sameStart (.refl _)) (.refl _)
  rw [hkept.powerCycles]
  exact Nat.le_add_left ..

/-! ### The end of BOOT (R70 to R72) -/

/-- Step 7 of BOOT: whether a firmware slot serves, and the state it leaves. -/
def bootSlot (b : BootIn) (s : State) : Bool × State := bootFirmware (atStage 6 (redoErase b.redoOk (copyTrims s)))

theorem bootSlot_sameStart (b : BootIn) (s : State) : SameStart s (bootSlot b s).2 :=
  bootFirmware_sameStart (atStage_sameStart (redoErase_sameStart (copyTrims_sameStart (.refl s))))

/-- Steps 8 and 9 of BOOT. -/
def bootStores (s : State) : State := countStart (restoreSaved (loadStores (bootCustomer (bootPatch s))))

theorem bootLoads_eq (b : BootIn) (s : State) :
    bootLoads b s = if (bootSlot b s).1 then bootTemp b (bootLinks b (loadValues (bootStores (bootSlot b s).2)))
      else lockKeys { (bootSlot b s).2 with modes := { (bootSlot b s).2.modes with bootFallback := true } } := by
  unfold bootLoads bootSlot bootStores
  generalize bootFirmware (atStage 6 (redoErase b.redoOk (copyTrims s))) = d
  rfl

theorem loadStores_sameStart (h : SameStart s₀ s) : SameStart s₀ (loadStores s) := .frame h rfl

theorem bootStores_restored (s : State) : Counted s (restoreSaved (loadStores (bootCustomer (bootPatch s)))) :=
  (loadStores_sameStart (bootCustomer_sameStart (bootPatch_sameStart (.refl s)))).counted.trans (restoreSaved_counted _)

theorem bootStores_counted (s : State) : Counted s (bootStores s) := (bootStores_restored s).trans (countStart_counted _)

theorem bootStores_pos (hcold : s.modes.porCold = true) : 1 ≤ (bootStores s).stats.powerCycles :=
  countStart_pos ((bootStores_restored s).porCold.trans hcold)

theorem bootEnds_sameStart (b : BootIn) (s : State) : SameStart s (bootTemp b (bootLinks b (loadValues s))) :=
  bootTemp_sameStart (bootLinks_sameStart (loadValues_sameStart (.refl s)))

theorem bootLoads_counted (b : BootIn) (s : State) : Counted s (bootLoads b s) := by
  rw [bootLoads_eq]
  split
  · exact ((SameStart.counted (bootSlot_sameStart b s)).trans (bootStores_counted _)).trans
      (SameStart.counted (bootEnds_sameStart b _))
  · have hfall {u : State} (h : SameStart s u) : SameStart s { u with modes := { u.modes with bootFallback := true } } :=
      .frame h rfl
    exact (lockKeys_sameStart (hfall (bootSlot_sameStart b s))).counted

/-- Either no firmware slot serves, or the start after a por_n is counted. -/
theorem bootLoads_pos (b : BootIn) (hcold : s.modes.porCold = true) :
    (bootLoads b s).modes.bootFallback = true ∨ 1 ≤ (bootLoads b s).stats.powerCycles := by
  rw [bootLoads_eq]
  split
  · right
    rw [(bootEnds_sameStart b _).powerCycles]
    exact bootStores_pos ((SameStart.counted (bootSlot_sameStart b s)).porCold.trans hcold)
  · exact .inl rfl

theorem bootRefusal_markLocked (place reason : Nat) (s : State) :
    (bootRefusal place reason s).cab.markLocked = s.cab.markLocked := by
  unfold bootRefusal
  dsimp only
  split <;> rfl

/-- BOOT step 11 locks the keys and judges the temperature. -/
theorem bootTemp_ends (b : BootIn) (s : State) :
    (bootTemp b s).cab.markLocked = true
      ∧ (if 440 ≤ b.tmax.toInt then (bootTemp b s).modes.stage = 0xA ∧ (bootTemp b s).modes.bootHot = true
          else (bootTemp b s).modes.stage = 0xB) := by
  unfold bootTemp
  split
  · exact ⟨bootRefusal_markLocked 5 0 (lockKeys s), rfl, rfl⟩
  · exact ⟨rfl, rfl⟩

theorem bootLoads_ends (b : BootIn) (s : State) :
    (bootLoads b s).cab.markLocked = true
      ∧ ((bootLoads b s).modes.bootFallback = true
        ∨ (if 440 ≤ b.tmax.toInt then (bootLoads b s).modes.stage = 0xA ∧ (bootLoads b s).modes.bootHot = true
            else (bootLoads b s).modes.stage = 0xB)) := by
  rw [bootLoads_eq]
  split
  · exact (bootTemp_ends b _).imp_right .inr
  · exact ⟨rfl, .inl rfl⟩

/-! ### RESET_DEASSERT goes where the latch and the mark row send it -/

/-- BOOT as the latch ends it at step 4. -/
def bootLatched (s : State) : State :=
  applyMode (lockKeys (atStage 4 { s with modes := { s.modes with boot := false }, power := { s.power with latchSeq := 3 } }))

/-- BOOT as a blank mark row or a factory request ends it at step 4. -/
def bootFactory (s : State) : State :=
  lockKeys (setConds (fun m => { m with factory := true, boot := false }) (atStage 4 s))

/-- Where BOOT goes from its step 3, a factory request waiting or not. -/
def bootGoes (b : BootIn) (want : Bool) (s : State) : State :=
  if s.modes.quarantine then bootLatched s
  else if markBlank s || (want && factoryOk s) then bootFactory (if want && factoryOk s then copyTrims s else s)
  else if factoryOk s then bootLoads b (atStage 4 s)
  else bootRefusal 0 1 s

theorem exec_resetDeassert_eq (b : BootIn) (hreset : s.pins.inReset = true) (hpower : s.pins.powered = true) :
    exec (.resetDeassert b) s = .next (bootGoes b s.modes.factoryReq (bootBegins b s)) := by
  have hstart : ¬ ((!s.pins.inReset || !s.pins.powered) = true) := by simp [hreset, hpower]
  change Host.Outcome.next _ = _
  rw [if_neg hstart]
  rfl

theorem bootLatched_sameStart (s : State) : SameStart s (bootLatched s) := applyMode_sameStart (.frame (.refl s) rfl)

theorem bootFactory_sameStart (h : SameStart s₀ s) : SameStart s₀ (bootFactory s) :=
  lockKeys_sameStart (applyMode_sameStart (s := { atStage 4 s with
    modes := { (atStage 4 s).modes with factory := true, boot := false } }) (.frame h rfl))

theorem bootGoes_counted (b : BootIn) (want : Bool) (s : State) : Counted s (bootGoes b want s) := by
  unfold bootGoes
  split
  · exact (bootLatched_sameStart s).counted
  split
  · exact (bootFactory_sameStart (.ite (copyTrims_sameStart (.refl s)) (.refl s))).counted
  split
  · exact (atStage_sameStart (.refl s)).counted.trans (bootLoads_counted b _)
  · exact (bootRefusal_sameStart (.refl s)).counted

/-- What R23 applied leaves of the modes: all but MODE and PREV_MODE, and MODE is the primary mode. -/
theorem applyMode_moves (s : State) :
    ∃ m, (applyMode s).modes = { s.modes with mode := s.modes.primary, prevMode := m } := by
  rcases applyMode_modes s with ⟨h, hm⟩ | h
  · exact ⟨s.modes.prevMode, by rw [h, ← hm]⟩
  · exact ⟨s.modes.mode, h⟩

theorem applyMode_cab (s : State) : (applyMode s).cab = s.cab := by
  unfold applyMode
  dsimp only
  split
  · rfl
  · split <;> split <;> rfl

theorem bootLatched_ends (hquar : s.modes.quarantine = true) :
    (bootLatched s).modes.mode = .quarantine ∧ (bootLatched s).modes.stage = 4 ∧ (bootLatched s).modes.boot = false
      ∧ (bootLatched s).cab.markLocked = true := by
  unfold bootLatched
  obtain ⟨m, e⟩ := applyMode_moves (lockKeys (atStage 4 { s with
    modes := { s.modes with boot := false }, power := { s.power with latchSeq := 3 } }))
  rw [e, applyMode_cab]
  exact ⟨if_pos hquar, rfl, rfl, rfl⟩

theorem bootFactory_ends (hquar : s.modes.quarantine = false) (hhold : s.modes.holdup = false) :
    (bootFactory s).modes.mode = .factory ∧ (bootFactory s).modes.stage = 4 ∧ (bootFactory s).modes.boot = false
      ∧ (bootFactory s).cab.markLocked = true := by
  obtain ⟨m, e⟩ := applyMode_moves { atStage 4 s with
    modes := { (atStage 4 s).modes with factory := true, boot := false } }
  have hm : (bootFactory s).modes = _ := e
  rw [hm]
  have hp : ({ (atStage 4 s).modes with factory := true, boot := false } : Modes).primary = .factory := by
    simp [Modes.primary, atStage, hquar, hhold]
  exact ⟨hp, rfl, rfl, rfl⟩

/-- A mark row that fails its check stops BOOT at step 3, with reason 1 unless an earlier one is recorded. -/
theorem bootRefusal_ends (s : State) :
    (bootRefusal 0 1 s).modes.stage = s.modes.stage ∧ (bootRefusal 0 1 s).modes.boot = s.modes.boot
      ∧ (bootRefusal 0 1 s).modes.bootError = if s.modes.bootError = 0 then 1 else s.modes.bootError := by
  unfold bootRefusal
  extract_lets code
  split
  case isTrue h => exact ⟨rfl, rfl, (if_pos (beq_iff_eq.mp h)).symm⟩
  case isFalse h => exact ⟨rfl, rfl, (if_neg (h ∘ beq_iff_eq.mpr)).symm⟩

/-! ### The five ways, from the state in reset -/

theorem bootGoes_latched (b : BootIn) (want : Bool) (hquar : s.modes.quarantine = true) :
    bootGoes b want s = bootLatched s := if_pos hquar

theorem bootGoes_blank (b : BootIn) (hquar : s.modes.quarantine = false) (hblank : markBlank s = true) (want : Bool) :
    bootGoes b want s = bootFactory (if want && factoryOk s then copyTrims s else s) := by
  simp [bootGoes, hquar, hblank]

theorem bootGoes_refused (b : BootIn) (hquar : s.modes.quarantine = false) (hblank : markBlank s = false)
    (hbad : factoryOk s = false) : bootGoes b false s = bootRefusal 0 1 s := by
  simp [bootGoes, hquar, hblank, hbad]

theorem bootGoes_loads (b : BootIn) (hquar : s.modes.quarantine = false) (hblank : markBlank s = false)
    (hgood : factoryOk s = true) : bootGoes b false s = bootLoads b (atStage 4 s) := by
  simp [bootGoes, hquar, hblank, hgood]

end

/-- Settles O21: reset ends in the samples, and the latch or the mark row chooses where BOOT goes from its step 3. -/
theorem bootBeginsAsTheMarkRowSays : Obligations.BootBeginsAsTheMarkRowSays := by
  unfold Obligations.BootBeginsAsTheMarkRowSays
  intro b s hreset hpower
  refine ⟨_, exec_resetDeassert_eq b hreset hpower, ?_⟩
  obtain ⟨hsame, hwarm⟩ := (bootBegins_sameStart b s).counted.trans (bootGoes_counted b s.modes.factoryReq _)
  simp only [startParts, Prod.mk.injEq] at hsame
  obtain ⟨hin, hheld, hlatch, hdie, hlead, -, -⟩ := hsame
  refine ⟨hin, hheld, hlatch, hdie, hlead, hwarm, fun hquar => ?_, fun hquar hhold hblank => ?_,
    fun hquar hblank hreq hbad => ?_, fun hquar hblank hgood hreq => ?_⟩
  · rw [bootGoes_latched b _ ((bootBegins_quarantine b s).trans hquar)]
    exact bootLatched_ends hquar
  · rw [bootGoes_blank b ((bootBegins_quarantine b s).trans hquar) ((bootBegins_markBlank b s).trans hblank)]
    split <;> exact bootFactory_ends hquar hhold
  · rw [hreq, bootGoes_refused b ((bootBegins_quarantine b s).trans hquar) ((bootBegins_markBlank b s).trans hblank)
      ((bootBegins_factoryOk b s).trans hbad)]
    exact bootRefusal_ends (bootBegins b s)
  · rw [hreq, bootGoes_loads b ((bootBegins_quarantine b s).trans hquar) ((bootBegins_markBlank b s).trans hblank)
      ((bootBegins_factoryOk b s).trans hgood)]
    obtain ⟨hlocked, hends⟩ := bootLoads_ends b (atStage 4 (bootBegins b s))
    refine ⟨hlocked, fun hslot hcold => ?_, hends⟩
    have hpos := bootLoads_pos (s := atStage 4 (bootBegins b s)) b hcold
    exact hpos.resolve_left (Bool.eq_false_iff.mp hslot)

end Sys2Proof.Machine
namespace Sys2Proof.Machine

/-! ### A fabric error on write data while the entries of a lost lead end (R38, R427) -/

/-- A WRITE_ROW that waits for its data: accepted, with none of its programs running. -/
def waitingWrite : Entry := { eid := 1, opcode := 0x01, parts := [{}], phase := .waiting, accepted := true }

/-- A block that has lost its lead and whose entries are to end, with that entry in flight and one read of its data
outstanding. -/
def drainedWrite : State := { State.reset with
  pins.inReset := false
  modes := { boot := false, fenced := true, mode := .fenced, stage := 0xF }
  sched := { entries := [waitingWrite], nextEid := 2 }
  host := { reads := [{ tag := 8, what := .data 1 0 }] }
  dv.draining := true }

/-- The status of entry 1 once the read of its data has met a fabric error. -/
def failedStatus (s : State) : Option Byte :=
  match exec (.hostReadDone 8 .err) s with
  | .next t => (entryAt 1 t).map (·.status)
  | _ => none

/-- The same command ends the entry ABORTED_LEAD_LOST, over the HOST_FABRIC_ERROR that it notes first. -/
theorem drainedWrite_failedStatus : failedStatus drainedWrite = some 0x11 := by decide +kernel

/-- Refutes O27: its clause on write data leaves out the block that has lost its lead, where the entry ends ABORTED_LEAD_LOST and
not HOST_FABRIC_ERROR. -/
theorem not_completionsAreWrittenInTwoSteps : ¬ Obligations.CompletionsAreWrittenInTwoSteps := by
  unfold Obligations.CompletionsAreWrittenInTwoSteps
  rintro ⟨-, -, -, -, -, -, -, hdata, -⟩
  obtain ⟨t, x, ht, hx, -, hstatus⟩ :=
    hdata 8 1 0 [] { tag := 8, what := .data 1 0 } waitingWrite drainedWrite rfl rfl rfl rfl rfl rfl
  have hlost := drainedWrite_failedStatus
  simp [failedStatus, ht, hx, hstatus] at hlost

end Sys2Proof.Machine
namespace Sys2Proof.Machine

/-! ### What an object reads as does not depend on the sessions (R495, R519) -/

/-- The state with other CAN sessions, lost clients and order of use. -/
def withSessions (can : List Session) (lost : List Nat) (order : Nat) (s : State) : State :=
  { s with dict := { s.dict with can := can, lostClients := lost, useOrder := order } }

section
variable {can : List Session} {lost : List Nat} {order : Nat} {s : State}

theorem stored_withSessions (idx sub : Nat) : stored idx sub (withSessions can lost order s) = stored idx sub s := rfl

theorem logSeq_withSessions (i : Nat) : logSeq i (withSessions can lost order s) = logSeq i s := rfl

theorem logSeqs_withSessions : logSeqs (withSessions can lost order s) = logSeqs s :=
  congrArg (List.filterMap · _) (funext logSeq_withSessions)

theorem logRead_withSessions (n : Nat) : logRead n (withSessions can lost order s) = logRead n s := by
  unfold logRead
  rw [show (fun i => logSeq i (withSessions can lost order s) == some n) = fun i => logSeq i s == some n from rfl]
  generalize List.find? _ _ = o
  cases o <;> rfl

theorem readCabinet_withSessions (sub : Nat) : readCabinet sub (withSessions can lost order s) = readCabinet sub s := by
  unfold readCabinet
  simp only [logSeqs_withSessions, logRead_withSessions, stored_withSessions]
  rfl

theorem readLow_withSessions (idx sub : Nat) : readLow idx sub (withSessions can lost order s) = readLow idx sub s := rfl

theorem readFlash_withSessions (idx sub : Nat) :
    readFlash idx sub (withSessions can lost order s) = readFlash idx sub s := rfl

theorem readLun_withSessions (u sub : Nat) : readLun u sub (withSessions can lost order s) = readLun u sub s := rfl

theorem readHigh_withSessions (idx sub : Nat) : readHigh idx sub (withSessions can lost order s) = readHigh idx sub s := by
  unfold readHigh
  rw [readCabinet_withSessions, readLun_withSessions]
  iterate 15 refine if_congr .rfl rfl ?_
  rfl

theorem readObject_withSessions (o : Obj) (idx sub : Nat) :
    readObject o idx sub (withSessions can lost order s) = readObject o idx sub s := by
  unfold readObject
  rw [readCabinet_withSessions, readLow_withSessions, readFlash_withSessions, readHigh_withSessions, readLun_withSessions,
    stored_withSessions]
  rfl

theorem valueCheck_withSessions (o : Obj) (idx sub : Nat) (v : List Byte) :
    valueCheck o idx sub v (withSessions can lost order s) = valueCheck o idx sub v s := rfl

end

end Sys2Proof.Machine
namespace Sys2Proof.Machine

/-! ### Byte strings and zero bytes after them -/

theorem byteAt_append_zeros (l : List Byte) (n i : Nat) : byteAt (l ++ zeros n) i = byteAt l i := by
  simp only [byteAt, zeros, List.getD_eq_getElem?_getD, List.getElem?_append, List.getElem?_replicate]
  split
  · rfl
  case isFalse h =>
    rw [List.getElem?_eq_none (Nat.le_of_not_lt h)]
    split <;> rfl

theorem leVal_append_zeros (l : List Byte) (n : Nat) : leVal (l ++ zeros n) = leVal l := by
  induction l with
  | nil =>
    induction n with
    | zero => rfl
    | succ n ih => simpa [zeros, List.replicate_succ, leVal] using ih
  | cons b l ih => simp [leVal, ih]

theorem slice_append_zeros (l : List Byte) (n off len : Nat) :
    slice (l ++ zeros n) off len = slice l off len ++ zeros (min (len - (l.length - off)) (n - (off - l.length))) := by
  simp [slice, zeros, List.drop_append, List.take_append, List.take_replicate, List.drop_replicate]

theorem leAt_append_zeros (l : List Byte) (n off len : Nat) : leAt (l ++ zeros n) off len = leAt l off len := by
  rw [leAt, slice_append_zeros, leVal_append_zeros, leAt]

/-- A field that lies within a string is the same with zero bytes after it. -/
theorem slice_append_zeros_of_le {l : List Byte} {off len : Nat} (n : Nat) (h : off + len ≤ l.length) :
    slice (l ++ zeros n) off len = slice l off len := by
  rw [slice_append_zeros, show len - (l.length - off) = 0 by omega]
  simp [zeros]

/-- A field read past the end of a string does not depend on how many zero bytes follow, if they reach its end. -/
theorem slice_append_zeros_eq {l : List Byte} {m n off len : Nat} (hm : off + len ≤ l.length + m)
    (hn : off + len ≤ l.length + n) : slice (l ++ zeros m) off len = slice (l ++ zeros n) off len := by
  rw [slice_append_zeros, slice_append_zeros]
  congr 2
  omega

theorem leVal_le (n v : Nat) : leVal (le n v) = v % 256 ^ n := by
  induction n generalizing v with
  | zero => simp [le, leVal, Nat.mod_one]
  | succ n ih =>
    rw [le, leVal, ih, Nat.pow_succ', Nat.mod_mul]
    simp

theorem length_le (n v : Nat) : (le n v).length = n := by
  induction n generalizing v with
  | zero => rfl
  | succ n ih => rw [le, List.length_cons, ih]

theorem length_slice {α : Type} (l : List α) (off len : Nat) : (slice l off len).length = min len (l.length - off) := by
  simp [slice]

/-! ### The frames of the CAN node (R505, R506) -/

/-- A REQUEST with the zero bytes that the node reads past its end. -/
def padded (f : List Byte) : List Byte := f ++ zeros (16 - f.length)

theorem le_length_padded (f : List Byte) : 16 ≤ (padded f).length := by
  simp only [padded, zeros, List.length_append, List.length_replicate]
  omega

theorem byteAt_padded (f : List Byte) (i : Nat) : byteAt (padded f) i = byteAt f i := byteAt_append_zeros ..

theorem leAt_padded (f : List Byte) (off len : Nat) : leAt (padded f) off len = leAt f off len := leAt_append_zeros ..

/-- The fields of a RESPONSE as they are put together. -/
theorem response_fields {b c data : List Byte} {cmd off x : Nat} (hb : b.length = 5) (hc : c.length = 1) (hcmd : cmd < 256)
    (hdata : data.length < 256) (hx : x < 2 ^ 32) :
    let r := le 1 cmd ++ b ++ le 1 data.length ++ c ++ le 4 off ++ le 4 x ++ data
    byteAt r 0 = cmd ∧ slice r 1 5 = b ∧ byteAt r 6 = data.length ∧ leAt r 12 4 = x ∧ slice r 16 data.length = data := by
  match b, hb, c, hc with
  | [_, _, _, _, _], _, [_], _ =>
    have hfour : leVal (le 4 x) = x := (leVal_le 4 x).trans (Nat.mod_eq_of_lt hx)
    refine ⟨?_, rfl, ?_, hfour, by simp [slice, le]⟩
    · simpa [byteAt, le] using hcmd
    · simpa [byteAt, le] using hdata

theorem le_canSize {n : Nat} (h : n ≤ 64) : n ≤ canSize n :=
  (by decide : ∀ n < 65, n ≤ canSize n) n (Nat.lt_succ_of_le h)

theorem padTo_canSize {l : List Byte} (h : l.length ≤ 64) :
    padTo (canSize l.length) l = l ++ zeros (canSize l.length - l.length) := by
  rw [padTo, List.take_of_length_le (le_canSize h)]

/-- The bytes of a RESPONSE to `f`, before the padding of its frame. -/
def response (f : List Byte) (code off total : Nat) (data : List Byte) : List Byte :=
  le 1 (if code = 0 then byteAt f 0 % 128 + 128 else 0xC0) ++ slice f 1 5 ++ le 1 data.length ++ slice f 7 1 ++ le 4 off
    ++ le 4 (if code = 0 then total else code) ++ data

theorem canRespond_eq (f : List Byte) (code off total : Nat) (data : List Byte) (s : State) :
    canRespond f code off total data s = canSend 0x480 (response f code off total data) s := by
  simp only [canRespond, response, beq_iff_eq]

section
variable {f data : List Byte} {code off total : Nat} {s u : State}

theorem length_response (hf : 16 ≤ f.length) : (response f code off total data).length = 16 + data.length := by
  simp only [response, List.length_append, length_le, length_slice]
  omega

/-- The node sends one RESPONSE, with the data or the abort code. -/
theorem canRespond_responds (hout : u.dict.canOut = s.dict.canOut) (hcode : code < 2 ^ 32) (htotal : total < 2 ^ 32)
    (hdata : data.length ≤ 48) :
    responds f (if code = 0 then byteAt f 0 % 128 + 128 else 0xC0) (if code = 0 then total else code) data s
      (canRespond (padded f) code off total data u) := by
  have hlong := le_length_padded f
  have hcmd : (if code = 0 then byteAt f 0 % 128 + 128 else 0xC0) < 256 := by split <;> omega
  have hx : (if code = 0 then total else code) < 2 ^ 32 := by split <;> assumption
  obtain ⟨h0, h1, h6, h12, h16⟩ := response_fields (off := off) (b := slice (padded f) 1 5) (c := slice (padded f) 7 1)
    (data := data) (by rw [length_slice]; omega) (by rw [length_slice]; omega) hcmd (by omega) hx
  have hlen := length_response (code := code) (off := off) (total := total) (data := data) hlong
  have hpad := padTo_canSize (l := response (padded f) code off total data) (by omega)
  rw [canRespond_eq]
  refine ⟨padTo (canSize (response (padded f) code off total data).length) (response (padded f) code off total data), ?_, ?_⟩
  · rw [← hout]
    rfl
  · rw [hpad, byteAt_append_zeros, byteAt_append_zeros, leAt_append_zeros,
      slice_append_zeros_of_le (off := 1) _ (by omega), slice_append_zeros_of_le (off := 16) _ (by omega), response,
      byteAt_padded]
    refine ⟨h0, h1.trans ?_, h6, h12, h16⟩
    exact slice_append_zeros_eq (by omega) (by omega)

/-- An abort is a RESPONSE with its code and no data. -/
theorem canRespond_aborts {f : List Byte} {code off : Nat} {s u : State} (hout : u.dict.canOut = s.dict.canOut)
    (hne : code ≠ 0) (hcode : code < 2 ^ 32) : responds f 0xC0 code [] s (canRespond (padded f) code off 0 [] u) := by
  have h := canRespond_responds (f := f) (off := off) (total := 0) (data := []) hout hcode (by decide) (by decide)
  rwa [if_neg hne, if_neg hne] at h

end

end Sys2Proof.Machine
namespace Sys2Proof.Machine

/-! ### A request changes only sessions before it is served (R508) -/

/-- Only the CAN sessions, the lost clients and the order of use have changed. -/
def OnlySessions (s t : State) : Prop := ∃ can lost order, t = withSessions can lost order s

section
variable {s t u : State} {client idx sub : Nat} {o : Obj}

theorem OnlySessions.refl (s : State) : OnlySessions s s := ⟨s.dict.can, s.dict.lostClients, s.dict.useOrder, rfl⟩

theorem OnlySessions.trans (h : OnlySessions s t) (k : OnlySessions t u) : OnlySessions s u := by
  obtain ⟨_, _, _, rfl⟩ := h
  obtain ⟨can, lost, order, rfl⟩ := k
  exact ⟨can, lost, order, rfl⟩

theorem OnlySessions.dict (h : OnlySessions s t) : t = { s with dict := t.dict } := by
  obtain ⟨_, _, _, rfl⟩ := h
  rfl

theorem OnlySessions.canOut (h : OnlySessions s t) : t.dict.canOut = s.dict.canOut := by
  obtain ⟨_, _, _, rfl⟩ := h
  rfl

theorem OnlySessions.saved (h : OnlySessions s t) : t.dict.saved = s.dict.saved := by
  obtain ⟨_, _, _, rfl⟩ := h
  rfl

theorem OnlySessions.readObject (h : OnlySessions s t) (o : Obj) (idx sub : Nat) :
    readObject o idx sub t = readObject o idx sub s := by
  obtain ⟨_, _, _, rfl⟩ := h
  exact readObject_withSessions o idx sub

theorem OnlySessions.valueCheck (h : OnlySessions s t) (o : Obj) (idx sub : Nat) (v : List Byte) :
    valueCheck o idx sub v t = valueCheck o idx sub v s := by
  obtain ⟨_, _, _, rfl⟩ := h
  exact valueCheck_withSessions o idx sub v

/-- The level of a session: what the checks of a request ask of it (R491). -/
def levelAt (client : Nat) (s : State) : BitVec 2 := (sessionAt client s).level

theorem OnlySessions.objCheck (h : OnlySessions s t) (hl : levelAt client t = levelAt client s) (op : DictOp) (idx sub : Nat) :
    objCheck client op idx sub t = objCheck client op idx sub s := by
  obtain ⟨_, _, _, rfl⟩ := h
  simp only [levelAt] at hl
  simp only [Machine.objCheck, hl]
  rfl

theorem modSession_only (hc : client ≠ 0) (f : Session → Session) (s : State) : OnlySessions s (modSession client f s) := by
  rw [modSession, if_neg (by simpa using hc)]
  exact ⟨_, _, _, rfl⟩

theorem useSession_only (hc : client ≠ 0) (s : State) : OnlySessions s (useSession client s) := by
  unfold useSession
  extract_lets d s₁ fresh
  have hs₁ : OnlySessions s s₁ := ⟨_, _, _, rfl⟩
  rw [if_neg (by simpa using hc)]
  split
  · exact hs₁.trans (modSession_only hc _ s₁)
  split
  · exact ⟨_, _, _, rfl⟩
  split
  · exact ⟨_, _, _, rfl⟩
  · exact hs₁

/-! ### The level of a session -/

/-- A session of the client, where one is open; its fresh one has level 0. -/
theorem levelAt_eq (hc : client ≠ 0) (s : State) :
    levelAt client s = ((s.dict.can.find? (fun x => x.client == client)).map (·.level)).getD 0 := by
  rw [levelAt, sessionAt, if_neg (by simpa using hc)]
  cases s.dict.can.find? (fun x => x.client == client) <;> rfl

theorem find?_map_session {f : Session → Session} (hf : ∀ x, (f x).client = x.client ∧ (f x).level = x.level)
    (l : List Session) : ((l.map (fun x => if x.client == client then f x else x)).find? (fun x => x.client == client)).map
      (·.level) = (l.find? (fun x => x.client == client)).map (·.level) := by
  induction l with
  | nil => rfl
  | cons x l ih =>
    by_cases hx : x.client = client
    · simp [hx, (hf x).1, (hf x).2]
    · simpa [hx] using ih

theorem levelAt_modSession (hc : client ≠ 0) {f : Session → Session}
    (hf : ∀ x, (f x).client = x.client ∧ (f x).level = x.level) (s : State) :
    levelAt client (modSession client f s) = levelAt client s := by
  rw [levelAt_eq hc, levelAt_eq hc, modSession, if_neg (by simpa using hc)]
  exact congrArg (Option.getD · 0) (find?_map_session hf s.dict.can)

/-- Sessions that end leave a client that had none at level 0, and its fresh session has that level too. -/
theorem levelAt_fresh {x : Session} (hx : x.client = client ∧ x.level = 0) {p : Session → Bool} {l : List Session}
    (hnone : l.any (fun x => x.client == client) = false) :
    (((l.filter p ++ [x]).find? (fun x => x.client == client)).map (·.level)).getD 0 = 0 := by
  have hfilter : (l.filter p).find? (fun x => x.client == client) = none := by
    rw [List.find?_eq_none]
    intro y hy
    simpa using (List.any_eq_false.mp hnone) y (List.mem_filter.mp hy).1
  simp [List.find?_append, hfilter, hx.1, hx.2]

theorem levelAt_useSession (hc : client ≠ 0) (s : State) : levelAt client (useSession client s) = levelAt client s := by
  unfold useSession
  extract_lets d s₁ fresh
  rw [if_neg (by simpa using hc)]
  split
  · exact levelAt_modSession hc (f := fun x => { x with lastUse := d.useOrder }) (fun _ => ⟨rfl, rfl⟩) s₁
  case isFalse hnew =>
    have hnone : s.dict.can.any (fun x => x.client == client) = false := Bool.eq_false_iff.mpr hnew
    have hbefore : levelAt client s = 0 := by
      rw [levelAt_eq hc, List.find?_eq_none.mpr (by simpa using hnone)]
      rfl
    rw [hbefore]
    split
    · rw [levelAt_eq hc]
      simpa using levelAt_fresh (client := client) (x := fresh) (p := fun _ => true) ⟨rfl, rfl⟩ hnone
    split
    · rw [levelAt_eq hc]
      exact levelAt_fresh (client := client) ⟨rfl, rfl⟩ hnone
    · exact hbefore

/-! ### A request that is served, and one whose session was lost -/

theorem answerLost_kept (hlost : client ∉ s.dict.lostClients) : answerLost client s = (false, useSession client s) := by
  simp [answerLost, hlost]

theorem answerLost_lost (hc : client ≠ 0) (hlost : client ∈ s.dict.lostClients) :
    ∃ t, answerLost client s = (true, t) ∧ OnlySessions s t ∧ client ∉ t.dict.lostClients := by
  refine ⟨{ useSession client s with dict := { (useSession client s).dict with
    lostClients := (useSession client s).dict.lostClients.filter (· != client) } }, ?_, ?_, ?_⟩
  · simp [answerLost, hlost, hc]
  · obtain ⟨can, lost, order, e⟩ := useSession_only hc s
    rw [e]
    exact ⟨_, _, _, rfl⟩
  · simp

end

end Sys2Proof.Machine
namespace Sys2Proof.Machine

section
variable {f : List Byte} {cmd : Nat} {s t u : State}

/-! ### Which REQUEST a command serves (R505, R506) -/

theorem exec_canCommand {p : (List Byte → Instr) × Nat} (hp : p ∈ canCommands) (f : List Byte) (s : State) :
    exec (p.1 f) s = .next (canCommand p.2 f s) := by
  simp only [canCommands, List.mem_cons, List.not_mem_nil, or_false] at hp
  rcases hp with rfl | rfl | rfl | rfl <;> rfl

theorem canCommand_off (hoff : canOn s = false) : canCommand cmd f s = s := by simp [canCommand, hoff]

theorem canCommand_other (h1 : 1 ≤ byteAt f 0) (h4 : byteAt f 0 ≤ 4) (hne : byteAt f 0 ≠ cmd) : canCommand cmd f s = s := by
  simp [canCommand, h1, h4, hne]

theorem canCommand_noClient (hon : canOn s = true) (hcmd : byteAt f 0 = cmd) (hc : byteAt f 2 = 0 ∨ 127 < byteAt f 2) :
    canCommand cmd f s = canRespond (padded f) abBadOp 0 0 [] s := by
  simp [canCommand, hon, hcmd, hc, padded]

theorem canCommand_serves (hon : canOn s = true) (hcmd : byteAt f 0 = cmd) (h1 : 1 ≤ byteAt f 2) (h127 : byteAt f 2 ≤ 127) :
    canCommand cmd f s = canServe f s := by
  simp [canCommand, hon, hcmd, Nat.not_lt.mpr h127, Nat.ne_of_gt h1]

theorem append_zeros_eq_padded (f : List Byte) : f ++ zeros (16 - f.length) = padded f := rfl

theorem canServe_lost (hlost : answerLost (byteAt f 2) s = (true, t)) :
    canServe f s = canRespond (padded f) abSessionLost 0 0 [] t := by
  unfold canServe
  simp only [append_zeros_eq_padded, byteAt_padded, hlost]
  rfl

theorem canServe_reserved (hkept : byteAt f 2 ∉ s.dict.lostClients) (hres : fld (byteAt f 7) 1 7 ≠ 0) :
    canServe f s = canRespond (padded f) abBadOp 0 0 [] (useSession (byteAt f 2) s) := by
  unfold canServe
  simp only [append_zeros_eq_padded, byteAt_padded, answerLost_kept hkept]
  simp [hres]

/-- A served REQUEST too short for its fields is refused after checks 2 to 6. -/
theorem canServe_read (h : servesFrame 1 f s) :
    canServe f s = (if f.length < 16 then
        canRespond (padded f) (shortCode (byteAt f 2) .read (leAt f 4 2) (byteAt f 3) (useSession (byteAt f 2) s)) (leAt f 8 4)
          0 [] (useSession (byteAt f 2) s)
      else
        let x := serveRead (byteAt f 2) (leAt f 4 2) (byteAt f 3) (leAt f 8 4) (byteAt f 6) 48 (useSession (byteAt f 2) s)
        canRespond (padded f) x.1.code (leAt f 8 4) x.1.total x.1.data x.2) := by
  obtain ⟨-, hcmd, -, -, hkept, hres⟩ := h
  unfold canServe
  simp only [append_zeros_eq_padded, byteAt_padded, leAt_padded, answerLost_kept hkept, hcmd, hres]
  simp

theorem canServe_write (h : servesFrame 2 f s) :
    canServe f s = (if f.length < 16 ∨ 48 < byteAt f 6 ∨ (padded f).length < 16 + byteAt f 6 then
        canRespond (padded f) (shortCode (byteAt f 2) .write (leAt f 4 2) (byteAt f 3) (useSession (byteAt f 2) s)) 0 0 []
          (useSession (byteAt f 2) s)
      else
        let x := serveWrite (byteAt f 2) (leAt f 4 2) (byteAt f 3) (leAt f 8 4) (leAt f 12 4) 48 (bitAt (byteAt f 7) 0)
          (slice (padded f) 16 (byteAt f 6)) (useSession (byteAt f 2) s)
        canRespond (padded f) x.1 x.2.1 0 [] x.2.2) := by
  obtain ⟨-, hcmd, -, -, hkept, hres⟩ := h
  unfold canServe
  simp only [append_zeros_eq_padded, byteAt_padded, leAt_padded, answerLost_kept hkept, hcmd, hres]
  simp [or_assoc]

theorem canServe_describe (h : servesFrame 3 f s) :
    canServe f s = (if f.length < 16 then
        canRespond (padded f) (shortCode (byteAt f 2) .describe (leAt f 4 2) (byteAt f 3) (useSession (byteAt f 2) s)) 0 0 []
          (useSession (byteAt f 2) s)
      else
        let r := serveDescribe (byteAt f 2) (leAt f 4 2) (byteAt f 3) (useSession (byteAt f 2) s)
        canRespond (padded f) r.code 0 0 r.data (useSession (byteAt f 2) s)) := by
  obtain ⟨-, hcmd, -, -, hkept, hres⟩ := h
  unfold canServe
  simp only [append_zeros_eq_padded, byteAt_padded, leAt_padded, answerLost_kept hkept, hcmd, hres]
  simp
  split <;> rfl

theorem canServe_close (h : servesFrame 4 f s) :
    canServe f s = (if f.length < 16 then canRespond (padded f) abLength 0 0 [] (useSession (byteAt f 2) s)
      else canRespond (padded f) 0 0 0 [] (endSession (byteAt f 2) (useSession (byteAt f 2) s))) := by
  obtain ⟨-, hcmd, -, -, hkept, hres⟩ := h
  unfold canServe
  simp only [append_zeros_eq_padded, byteAt_padded, answerLost_kept hkept, hcmd, hres]
  simp

/-! ### The checks of a request (R497, R500) -/

/-- A request is refused with an abort code, never with the zero of success. -/
theorem objCheck_code {client idx sub c : Nat} {op : DictOp} (h : objCheck client op idx sub s = .inl c) :
    c ≠ 0 ∧ c < 2 ^ 32 := by
  unfold objCheck at h
  split at h
  · cases h
    decide
  split at h
  · cases h
    decide
  · extract_lets at h
    split_ifs at h <;> (cases h; decide)

theorem objCheck_found {client idx sub : Nat} {op : DictOp} {o : Obj} (h : objCheck client op idx sub s = .inr o) :
    findObj idx sub = some o := by
  unfold objCheck at h
  split at h
  · cases h
  split at h
  · cases h
  case h_2 o' hfound =>
    extract_lets at h
    split_ifs at h
    cases h
    exact hfound

theorem objCheck_useSession {client : Nat} (hc : client ≠ 0) (op : DictOp) (idx sub : Nat) (s : State) :
    objCheck client op idx sub (useSession client s) = objCheck client op idx sub s :=
  (useSession_only hc s).objCheck (levelAt_useSession hc s) op idx sub

/-! ### One RESPONSE, and nothing outside the dictionary -/

theorem canRespond_dict {code off total : Nat} {data : List Byte} (hu : u = { s with dict := u.dict }) :
    canRespond f code off total data u = { s with dict := (canRespond f code off total data u).dict } := by
  generalize u.dict = d at hu
  subst hu
  rfl

/-- A command that answers with an abort code. -/
theorem exec_aborts {c : Instr} {code off : Nat} (he : exec c s = .next (canRespond (padded f) code off 0 [] u))
    (hu : OnlySessions s u) (hne : code ≠ 0) (hcode : code < 2 ^ 32) :
    ∃ t, exec c s = .next t ∧ responds f 0xC0 code [] s t ∧ t.dict.saved = s.dict.saved ∧ t = { s with dict := t.dict } :=
  ⟨_, he, canRespond_aborts hu.canOut hne hcode, hu.saved, canRespond_dict hu.dict⟩

/-- A command that answers with data, or with none. -/
theorem exec_answers {c : Instr} {off total : Nat} {data : List Byte}
    (he : exec c s = .next (canRespond (padded f) 0 off total data u)) (hu : u = { s with dict := u.dict })
    (hout : u.dict.canOut = s.dict.canOut) (htotal : total < 2 ^ 32) (hdata : data.length ≤ 48) :
    ∃ t, exec c s = .next t ∧ responds f (byteAt f 0 % 128 + 128) total data s t ∧ t.dict.saved = u.dict.saved
      ∧ t.dict.can = u.dict.can ∧ t = { s with dict := t.dict } :=
  ⟨_, he, canRespond_responds hout (by decide) htotal hdata, rfl, rfl, canRespond_dict hu⟩

/-- The frame of a REQUEST that a command serves names a CAN client. -/
theorem servesFrame.client_ne (h : servesFrame cmd f s) : byteAt f 2 ≠ 0 := Nat.ne_of_gt h.2.2.1

theorem exec_serves {p : (List Byte → Instr) × Nat} (hp : p ∈ canCommands) (h : servesFrame p.2 f s) :
    exec (p.1 f) s = .next (canServe f s) := by
  obtain ⟨hon, hcmd, h1, h127, -, -⟩ := h
  rw [exec_canCommand hp, canCommand_serves hon hcmd h1 h127]

/-- The operation of a command on an object. -/
def canOp (p : (List Byte → Instr) × Nat) (op : DictOp) : Prop :=
  p = (.canRead, 1) ∧ op = .read ∨ p = (.canWrite, 2) ∧ op = .write ∨ p = (.canDescribe, 3) ∧ op = .describe

theorem canOp.mem {p : (List Byte → Instr) × Nat} {op : DictOp} (h : canOp p op) : p ∈ canCommands := by
  rcases h with ⟨rfl, -⟩ | ⟨rfl, -⟩ | ⟨rfl, -⟩ <;> simp [canCommands]

/-- A REQUEST that a check refuses is answered with its code, short or not. -/
theorem canServe_refused {p : (List Byte → Instr) × Nat} {op : DictOp} {c : Nat} (hop : canOp p op) (h : servesFrame p.2 f s)
    (hcheck : objCheck (byteAt f 2) op (leAt f 4 2) (byteAt f 3) s = .inl c) :
    ∃ off, canServe f s = canRespond (padded f) c off 0 [] (useSession (byteAt f 2) s) := by
  rw [← objCheck_useSession h.client_ne] at hcheck
  rcases hop with ⟨rfl, rfl⟩ | ⟨rfl, rfl⟩ | ⟨rfl, rfl⟩
  · refine ⟨leAt f 8 4, ?_⟩
    rw [canServe_read h]
    split <;> simp [shortCode, serveRead, hcheck]
  · refine ⟨0, ?_⟩
    rw [canServe_write h]
    split <;> simp [shortCode, serveWrite, hcheck]
  · refine ⟨0, ?_⟩
    rw [canServe_describe h]
    split <;> simp [shortCode, serveDescribe, hcheck]

/-- A REQUEST that the checks pass but that is too short for its fields is answered with the length code. -/
theorem canServe_short {p : (List Byte → Instr) × Nat} {op : DictOp} {o : Obj} (hop : canOp p op) (h : servesFrame p.2 f s)
    (hlen : f.length < 16) (hcheck : objCheck (byteAt f 2) op (leAt f 4 2) (byteAt f 3) s = .inr o) :
    ∃ off, canServe f s = canRespond (padded f) abLength off 0 [] (useSession (byteAt f 2) s) := by
  rw [← objCheck_useSession h.client_ne] at hcheck
  rcases hop with ⟨rfl, rfl⟩ | ⟨rfl, rfl⟩ | ⟨rfl, rfl⟩
  · exact ⟨leAt f 8 4, by rw [canServe_read h, if_pos hlen]; simp [shortCode, hcheck]⟩
  · exact ⟨0, by rw [canServe_write h, if_pos (.inl hlen)]; simp [shortCode, hcheck]⟩
  · exact ⟨0, by rw [canServe_describe h, if_pos hlen]; simp [shortCode, hcheck]⟩

/-! ### Reads (R495) -/

theorem serveRead_long {client idx sub off len : Nat} {o : Obj} (hcheck : objCheck client .read idx sub s = .inr o)
    (hlen : 48 < len) : serveRead client idx sub off len 48 s = ({ code := abLength }, s) := by
  simp [serveRead, hcheck, hlen]

/-- The first segment of a read: the snapshot is taken, and its beginning answered. -/
theorem serveRead_first {client idx sub len : Nat} {o : Obj} (hcheck : objCheck client .read idx sub s = .inr o)
    (hidx : idx ≠ 0x1210) (hlen : len ≤ 48) :
    serveRead client idx sub 0 len 48 s
      = ({ total := (readObject o idx sub s).length, data := (readObject o idx sub s).take len },
        modSession client (fun x => { x with snap := some ((idx, sub), readObject o idx sub s), timedRead := none }) s) := by
  have hvalue : sessionValue client o idx sub s = (readObject o idx sub s, s) := by simp [sessionValue, hidx]
  simp [serveRead, hcheck, Nat.not_lt.mpr hlen, hvalue]

/-! ### Describe (R501) -/

theorem length_descriptor (o : Obj) : (descriptor o).length = 32 := by simp [descriptor, length_le]

/-! ### Writes (R496, R507) -/

/-- imageData takes its length from imageLength; no object that only keeps its value does. -/
theorem keepsOnly.not_imageData {client idx sub : Nat} {v : List Byte} {o : Obj} (h : keepsOnly client idx sub v o)
    (hfound : findObj idx sub = some o) : ¬ (idx = 0x1201 ∧ sub = 3) := by
  rintro ⟨rfl, rfl⟩
  obtain ⟨-, hflags, -⟩ := h
  have himage : (findObj 0x1201 3).map (fun o => o.flags / 4 % 2) = some 1 := by decide
  simp [hfound, hflags] at himage

theorem keepsOnly.applyObject {client idx sub : Nat} {v : List Byte} {o : Obj} (h : keepsOnly client idx sub v o) (s : State) :
    applyObject client o idx sub v s = (0, s) := by
  obtain ⟨-, -, hact⟩ := h
  unfold Machine.applyObject
  split
  · rfl
  · exact hact s

theorem commit_keepsOnly {client idx sub : Nat} {v : List Byte} {o : Obj} (hkeeps : keepsOnly client idx sub v o)
    (hvalue : valueCheck o idx sub v s = 0) (hlevel : valueLevel idx sub v ≤ (levelAt client s).toNat) :
    commit client o idx sub v s = (0, { s with dict := { s.dict with saved := putValue idx sub v s.dict.saved } }) := by
  have hacc : o.acc = .rw := hkeeps.1
  have hl : ¬ (sessionAt client s).level.toNat < valueLevel idx sub v := Nat.not_lt.mpr hlevel
  simp [commit, hvalue, hl, hacc, hkeeps.applyObject]

/-- The last segment of a write of an object that only keeps its value: the session's transfer ends, and the value is kept. -/
theorem takeSegment_last {client idx sub : Nat} {v : List Byte} {o : Obj} (hc : client ≠ 0)
    (hkeeps : keepsOnly client idx sub v o) (hvalue : valueCheck o idx sub v s = 0)
    (hlevel : valueLevel idx sub v ≤ (levelAt client s).toNat) :
    ∃ u t, OnlySessions s u ∧ takeSegment client o idx sub [] true v s = (0, v.length, t)
      ∧ OnlySessions { u with dict := { u.dict with saved := putValue idx sub v u.dict.saved } } t := by
  have hended : OnlySessions s (modSession client (fun x => { x with
      snap := none, timedWrite := none, finished := none, open_ := none }) s) := modSession_only hc _ s
  have hl := levelAt_modSession hc (f := fun x => { x with
      snap := none, timedWrite := none, finished := none, open_ := none }) (fun _ => ⟨rfl, rfl⟩) s
  have hcommit := commit_keepsOnly hkeeps ((hended.valueCheck o idx sub v).trans hvalue) (hl ▸ hlevel)
  refine ⟨_, _, hended, ?_, modSession_only hc (fun x => { x with finished := some ((idx, sub), v.length) }) _⟩
  simp only [takeSegment, List.nil_append, if_true, hcommit]
  rfl

/-- A whole value of an object that only keeps it: it is committed, and read back. -/
theorem serveWrite_whole {client idx sub : Nat} {v : List Byte} {o : Obj} (hc : client ≠ 0)
    (hcheck : objCheck client .write idx sub s = .inr o) (hlen : v.length = o.len) (hmax : v.length ≤ 48)
    (hkeeps : keepsOnly client idx sub v o) (hvalue : valueCheck o idx sub v s = 0)
    (hlevel : valueLevel idx sub v ≤ (levelAt client s).toNat) :
    ∃ t n, serveWrite client idx sub 0 o.len 48 true v s = (0, n, t) ∧ t = { s with dict := t.dict }
      ∧ t.dict.canOut = s.dict.canOut ∧ stored idx sub t = v := by
  have hfound := objCheck_found hcheck
  have hflags : o.flags / 4 % 2 = 0 := hkeeps.2.1
  have htotal : o.total s = o.len := by simp [Obj.total, hflags]
  have himage := hkeeps.not_imageData hfound
  obtain ⟨u, t, hu, htake, ht⟩ := takeSegment_last hc hkeeps hvalue hlevel
  refine ⟨t, v.length, ?_, ?_, ?_, ?_⟩
  · simp [serveWrite, hcheck, htotal, ← hlen, Nat.not_lt.mpr hmax, himage, htake]
  · obtain ⟨_, _, _, rfl⟩ := hu
    obtain ⟨_, _, _, rfl⟩ := ht
    rfl
  · exact ht.canOut.trans hu.canOut
  · exact stored_of_putValue (Option.isSome_iff_exists.mpr ⟨o, hfound⟩) ht.saved

/-! ### The clauses -/

/-- A REQUEST that names no client is answered with a bad operation (R506). -/
theorem exec_noClient {p : (List Byte → Instr) × Nat} (hp : p ∈ canCommands) (hon : canOn s = true) (hcmd : byteAt f 0 = p.2)
    (hc : byteAt f 2 = 0 ∨ 127 < byteAt f 2) :
    ∃ t, exec (p.1 f) s = .next t ∧ responds f 0xC0 abBadOp [] s t ∧ t = { s with dict := t.dict } := by
  have he := exec_canCommand hp f s
  rw [canCommand_noClient hon hcmd hc] at he
  obtain ⟨t, ht, hresp, -, honly⟩ := exec_aborts he (.refl s) (by decide) (by decide)
  exact ⟨t, ht, hresp, honly⟩

/-- The first answer to a client whose session was taken over tells it so (R508). -/
theorem exec_lostClient {p : (List Byte → Instr) × Nat} (hp : p ∈ canCommands) (hon : canOn s = true)
    (hcmd : byteAt f 0 = p.2) (h1 : 1 ≤ byteAt f 2) (h127 : byteAt f 2 ≤ 127) (hlost : byteAt f 2 ∈ s.dict.lostClients) :
    ∃ t, exec (p.1 f) s = .next t ∧ responds f 0xC0 abSessionLost [] s t ∧ byteAt f 2 ∉ t.dict.lostClients
      ∧ t = { s with dict := t.dict } := by
  obtain ⟨u, hanswer, hu, hgone⟩ := answerLost_lost (Nat.ne_of_gt h1) hlost
  have he := exec_canCommand hp f s
  rw [canCommand_serves hon hcmd h1 h127, canServe_lost hanswer] at he
  exact ⟨_, he, canRespond_aborts hu.canOut (by decide) (by decide), hgone, canRespond_dict hu.dict⟩

/-- A reserved bit that is set is answered with a bad operation (R506). -/
theorem exec_reserved {p : (List Byte → Instr) × Nat} (hp : p ∈ canCommands) (hon : canOn s = true)
    (hcmd : byteAt f 0 = p.2) (h1 : 1 ≤ byteAt f 2) (h127 : byteAt f 2 ≤ 127) (hkept : byteAt f 2 ∉ s.dict.lostClients)
    (hres : fld (byteAt f 7) 1 7 ≠ 0) :
    ∃ t, exec (p.1 f) s = .next t ∧ responds f 0xC0 abBadOp [] s t ∧ t = { s with dict := t.dict } := by
  have he := exec_canCommand hp f s
  rw [canCommand_serves hon hcmd h1 h127, canServe_reserved hkept hres] at he
  obtain ⟨t, ht, hresp, -, honly⟩ := exec_aborts he (useSession_only (Nat.ne_of_gt h1) s) (by decide) (by decide)
  exact ⟨t, ht, hresp, honly⟩

theorem exec_canRead {o : Obj} {idx sub : Nat} (h : servesFrame 1 f s) (hidx : idx = leAt f 4 2) (hsub : sub = byteAt f 3)
    (hcheck : objCheck (byteAt f 2) .read idx sub s = .inr o) (hauth : idx ≠ 0x1210) (hoff : leAt f 8 4 = 0)
    (hlong : 16 ≤ f.length) (hsize : (readObject o idx sub s).length < 2 ^ 32) (hlen : byteAt f 6 ≤ 48) :
    ∃ t, exec (.canRead f) s = .next t
      ∧ responds f 0x81 (readObject o idx sub s).length ((readObject o idx sub s).take (byteAt f 6)) s t
      ∧ t.dict.saved = s.dict.saved ∧ t = { s with dict := t.dict } := by
  subst hidx hsub
  have hu := useSession_only h.client_ne s
  rw [← objCheck_useSession h.client_ne] at hcheck
  have he : exec (.canRead f) s = .next (canServe f s) := exec_serves (p := (.canRead, 1)) (by simp [canCommands]) h
  rw [canServe_read h, if_neg (Nat.not_lt.mpr hlong), hoff, serveRead_first hcheck hauth hlen, hu.readObject] at he
  have hsnap := hu.trans (modSession_only h.client_ne (fun x => { x with
    snap := some ((leAt f 4 2, byteAt f 3), readObject o (leAt f 4 2) (byteAt f 3) s), timedRead := none }) _)
  obtain ⟨t, ht, hresp, hsaved, -, honly⟩ := exec_answers he hsnap.dict hsnap.canOut hsize
    (by rw [List.length_take]; omega)
  rw [h.2.1] at hresp
  exact ⟨t, ht, hresp, hsaved.trans hsnap.saved, honly⟩

theorem exec_canRead_long {o : Obj} {idx sub : Nat} (h : servesFrame 1 f s) (hidx : idx = leAt f 4 2) (hsub : sub = byteAt f 3)
    (hcheck : objCheck (byteAt f 2) .read idx sub s = .inr o) (hlong : 16 ≤ f.length) (hlen : 48 < byteAt f 6) :
    ∃ t, exec (.canRead f) s = .next t ∧ responds f 0xC0 abLength [] s t ∧ t = { s with dict := t.dict } := by
  subst hidx hsub
  rw [← objCheck_useSession h.client_ne] at hcheck
  have he : exec (.canRead f) s = .next (canServe f s) := exec_serves (p := (.canRead, 1)) (by simp [canCommands]) h
  rw [canServe_read h, if_neg (Nat.not_lt.mpr hlong), serveRead_long hcheck hlen] at he
  obtain ⟨t, ht, hresp, -, honly⟩ := exec_aborts (code := abLength) he (useSession_only h.client_ne s) (by decide) (by decide)
  exact ⟨t, ht, hresp, honly⟩

theorem exec_canWrite {o : Obj} {idx sub : Nat} (h : servesFrame 2 f s) (hidx : idx = leAt f 4 2) (hsub : sub = byteAt f 3)
    (hcheck : objCheck (byteAt f 2) .write idx sub s = .inr o) (hoff : leAt f 8 4 = 0) (hlast : byteAt f 7 = 1)
    (hlen : byteAt f 6 = o.len) (hmax : o.len ≤ 48) (htotal : leAt f 12 4 = o.len) (hlong : 16 + o.len ≤ f.length)
    (hkeeps : keepsOnly (byteAt f 2) idx sub (slice f 16 o.len) o) (hvalue : valueCheck o idx sub (slice f 16 o.len) s = 0)
    (hlevel : valueLevel idx sub (slice f 16 o.len) ≤ (sessionAt (byteAt f 2) s).level.toNat) :
    ∃ t, exec (.canWrite f) s = .next t ∧ responds f 0x82 0 [] s t ∧ stored idx sub t = slice f 16 o.len
      ∧ t = { s with dict := t.dict } := by
  subst hidx hsub
  have hc := h.client_ne
  have hu := useSession_only hc s
  rw [← objCheck_useSession hc] at hcheck
  have hv : (slice f 16 o.len).length = o.len := by rw [length_slice]; omega
  obtain ⟨t, n, hserve, htu, hout, hstored⟩ := serveWrite_whole hc hcheck hv (hv.trans_le hmax) hkeeps
    ((hu.valueCheck o _ _ _).trans hvalue) (levelAt_useSession hc s ▸ hlevel)
  have hbit : bitAt (byteAt f 7) 0 = true := by rw [hlast]; decide
  have hfits : ¬ (f.length < 16 ∨ 48 < o.len ∨ (padded f).length < 16 + o.len) := by
    simp only [padded, List.length_append]
    omega
  have hslice : slice (padded f) 16 o.len = slice f 16 o.len := slice_append_zeros_of_le _ hlong
  have he : exec (.canWrite f) s = .next (canServe f s) := exec_serves (p := (.canWrite, 2)) (by simp [canCommands]) h
  rw [canServe_write h, hlen, if_neg hfits, hoff, htotal, hbit, hslice, hserve] at he
  have hts : t = { s with dict := t.dict } := by
    obtain ⟨_, _, _, e⟩ := hu
    rw [htu, e]
    rfl
  obtain ⟨t', ht, hresp, hsaved, -, honly⟩ := exec_answers he hts (hout.trans hu.canOut) (by decide) (by decide)
  rw [h.2.1] at hresp
  exact ⟨t', ht, hresp, by simpa only [stored, hsaved] using hstored, honly⟩

theorem exec_canDescribe {o : Obj} (h : servesFrame 3 f s) (hlong : 16 ≤ f.length)
    (hcheck : objCheck (byteAt f 2) .describe (leAt f 4 2) (byteAt f 3) s = .inr o) :
    ∃ t, exec (.canDescribe f) s = .next t ∧ responds f 0x83 0 (descriptor o) s t ∧ t = { s with dict := t.dict } := by
  have hu := useSession_only h.client_ne s
  rw [← objCheck_useSession h.client_ne] at hcheck
  have hserve : serveDescribe (byteAt f 2) (leAt f 4 2) (byteAt f 3) (useSession (byteAt f 2) s) = { data := descriptor o } := by
    simp [serveDescribe, hcheck]
  have he : exec (.canDescribe f) s = .next (canServe f s) := exec_serves (p := (.canDescribe, 3)) (by simp [canCommands]) h
  rw [canServe_describe h, if_neg (Nat.not_lt.mpr hlong), hserve] at he
  obtain ⟨t, ht, hresp, -, -, honly⟩ := exec_answers he hu.dict hu.canOut (by decide) (by rw [length_descriptor]; decide)
  rw [h.2.1] at hresp
  exact ⟨t, ht, hresp, honly⟩

theorem endSession_only (client : Nat) (s : State) : OnlySessions s (endSession client s) := ⟨_, _, _, rfl⟩

theorem exec_closeSession (h : servesFrame 4 f s) (hlong : 16 ≤ f.length) :
    ∃ t, exec (.closeSession f) s = .next t ∧ responds f 0x84 0 [] s t ∧ (∀ x ∈ t.dict.can, x.client ≠ byteAt f 2)
      ∧ t = { s with dict := t.dict } := by
  have hu := (useSession_only h.client_ne s).trans (endSession_only (byteAt f 2) _)
  have he : exec (.closeSession f) s = .next (canServe f s) :=
    exec_serves (p := (.closeSession, 4)) (by simp [canCommands]) h
  rw [canServe_close h, if_neg (Nat.not_lt.mpr hlong)] at he
  obtain ⟨t, ht, hresp, -, hcan, honly⟩ := exec_answers he hu.dict hu.canOut (by decide) (by decide)
  rw [h.2.1] at hresp
  refine ⟨t, ht, hresp, fun x hx => ?_, honly⟩
  rw [hcan] at hx
  simpa using (List.mem_filter.mp hx).2

theorem exec_closeSession_short (h : servesFrame 4 f s) (hshort : f.length < 16) :
    ∃ t, exec (.closeSession f) s = .next t ∧ responds f 0xC0 abLength [] s t ∧ t = { s with dict := t.dict } := by
  have he : exec (.closeSession f) s = .next (canServe f s) :=
    exec_serves (p := (.closeSession, 4)) (by simp [canCommands]) h
  rw [canServe_close h, if_pos hshort] at he
  obtain ⟨t, ht, hresp, -, honly⟩ := exec_aborts he (useSession_only h.client_ne s) (by decide) (by decide)
  exact ⟨t, ht, hresp, honly⟩

/-! ### STATUS and EVENT frames, timeouts and the error state (R50, R508 to R511) -/

theorem length_statusFrame (s : State) : (statusFrame s).length = 8 := by simp [statusFrame, length_le]

theorem Mode.code_lt (m : Mode) : m.code < 256 := by cases m <;> decide

theorem exec_canStatusFrame (hon : canOn s = true) (hperiod : cfg 0x1300 5 s ≠ 0) :
    ∃ t r, exec .canStatusFrame s = .next t ∧ r.length = 8 ∧ byteAt r 0 = s.modes.mode.code
      ∧ byteAt r 7 = s.dict.frameCount.toNat
      ∧ t = { s with dict := { s.dict with
          frameCount := s.dict.frameCount + 1
          canOut := s.dict.canOut ++ [(BitVec.ofNat 11 (0x500 + canNode s), r)] } } := by
  have hpad : padTo (canSize (statusFrame s).length) (statusFrame s) = statusFrame s := by
    rw [length_statusFrame]
    simp [padTo, canSize, zeros, length_statusFrame]
  refine ⟨_, statusFrame s, ?_, length_statusFrame s, ?_, ?_, rfl⟩
  · have hsends : (canOn s && cfg 0x1300 5 s != 0) = true := by simp [hon, hperiod]
    change Host.Outcome.next (if _ then _ else _) = _
    rw [if_pos hsends, canSend, hpad]
    rfl
  · simpa [statusFrame, byteAt, le] using Mode.code_lt s.modes.mode
  · simp [statusFrame, byteAt, le]

theorem exec_canEventFrame {r : List Byte} {rest : List (List Byte)} (hon : canOn s = true)
    (hev : s.dict.events = r :: rest) :
    exec .canEventFrame s = .next { s with dict := { s.dict with
      events := rest
      canOut := s.dict.canOut ++ [(BitVec.ofNat 11 (0x080 + canNode s), padTo (canSize r.length) r)] } } := by
  simp only [exec, execCanEventFrame, hev, hon, if_true]
  rfl

theorem exec_dictTransferTimeout_port (s : State) :
    exec (.dictTransferTimeout 0) s = .next { s with dict := { s.dict with port := { s.dict.port with
      snap := none, open_ := none
      timedRead := (s.dict.port.snap.map (·.1)).or s.dict.port.timedRead
      timedWrite := (s.dict.port.open_.map (·.1)).or s.dict.port.timedWrite } } } := by
  have hport : idleSession s.dict.port = { s.dict.port with
      snap := none, open_ := none
      timedRead := (s.dict.port.snap.map (·.1)).or s.dict.port.timedRead
      timedWrite := (s.dict.port.open_.map (·.1)).or s.dict.port.timedWrite } := by
    unfold idleSession
    cases s.dict.port.snap <;> cases s.dict.port.open_ <;> rfl
  rw [← hport]
  rfl

theorem exec_dictTransferTimeout_can {c : Nat} (hc : c ≠ 0) (s : State) :
    ∃ t, exec (.dictTransferTimeout c) s = .next t
      ∧ (∀ x ∈ t.dict.can, x.client = c → x.snap = none ∧ x.open_ = none)
      ∧ t.dict.can.map (·.client) = s.dict.can.map (·.client) ∧ t = { s with dict := { s.dict with can := t.dict.can } } := by
  have hmod : modSession c idleSession s = { s with dict := { s.dict with
      can := s.dict.can.map (fun x => if x.client == c then idleSession x else x) } } := if_neg (by simpa using hc)
  refine ⟨_, rfl, ?_, ?_, ?_⟩
  · rw [hmod]
    intro x hx hclient
    obtain ⟨y, -, rfl⟩ := List.mem_map.mp hx
    by_cases hy : y.client = c
    · rw [if_pos (beq_iff_eq.mpr hy)]
      exact ⟨rfl, rfl⟩
    · rw [if_neg (hy ∘ beq_iff_eq.mp)] at hclient
      exact absurd hclient hy
  · rw [hmod]
    simp only [List.map_map]
    refine List.map_congr_left fun x _ => ?_
    simp only [Function.comp_apply]
    split <;> rfl
  · rw [hmod]

theorem exec_busOff_on (hon : canOn s = true) :
    exec .busOff s = .next { s with
      irq := s.irq.cause 125, dict := { s.dict with errState := 2, can := [], lostClients := [] } } := by
  simp only [exec, execBusOff, hon, if_true]
  rfl

end

/-- Settles O56: each REQUEST is answered by one RESPONSE, and the frames, the timeouts and the error state move as their rules
say. -/
theorem canNodeServesClients : Obligations.CanNodeServesClients := by
  unfold Obligations.CanNodeServesClients
  refine ⟨fun p f s hp => ⟨fun hoff => ?_, fun h1 h4 hne => ?_, exec_noClient hp, exec_lostClient hp, exec_reserved hp⟩,
    fun p op f c s hop h hcheck => ?_, fun f idx sub o s h hidx hsub hcheck hauth hoff hlong hsize =>
      ⟨exec_canRead h hidx hsub hcheck hauth hoff hlong hsize, exec_canRead_long h hidx hsub hcheck hlong⟩,
    fun f idx sub o s h hidx hsub hcheck hoff hlast hlen hmax htotal hlong hkeeps hvalue hlevel =>
      exec_canWrite h hidx hsub hcheck hoff hlast hlen hmax htotal hlong hkeeps hvalue hlevel,
    fun f o s h hlong hcheck => exec_canDescribe h hlong hcheck, fun f s h hlong => exec_closeSession h hlong,
    fun s hidle => ?_, fun s hon hperiod => exec_canStatusFrame hon hperiod, fun s hidle => ?_, fun r rest s hon hev => ?_,
    fun c s => rfl, fun s => ?_, fun p op f o s hop h hshort hcheck => ?_, fun f s h hshort => exec_closeSession_short h hshort,
    fun c s hc => ?_, fun s => ⟨fun hoff => ?_, fun hon => ?_⟩, fun s => ⟨fun hne => ?_, fun he => ?_⟩,
    fun s => ⟨fun hoff => ⟨?_, ?_⟩, fun hon h0 => ⟨?_, ?_⟩, fun hon h1 => ⟨?_, ?_⟩⟩⟩
  · rw [exec_canCommand hp, canCommand_off hoff]
  · rw [exec_canCommand hp, canCommand_other h1 h4 hne]
  · obtain ⟨off, hserve⟩ := canServe_refused hop h hcheck
    obtain ⟨hne, hlt⟩ := objCheck_code hcheck
    exact exec_aborts ((exec_serves (canOp.mem hop) h).trans (by rw [hserve])) (useSession_only h.client_ne s) hne hlt
  · rcases hidle with hoff | hzero
    · simp [exec, execCanStatusFrame, hoff]
    · simp [exec, execCanStatusFrame, hzero]
  · rcases hidle with hoff | hnone
    · simp only [exec, execCanEventFrame, hoff]
      split <;> rfl
    · simp [exec, execCanEventFrame, hnone]
  · exact exec_canEventFrame hon hev
  · exact exec_dictTransferTimeout_port s
  · obtain ⟨off, hserve⟩ := canServe_short hop h hshort hcheck
    obtain ⟨t, ht, hresp, -, honly⟩ := exec_aborts ((exec_serves (canOp.mem hop) h).trans (by rw [hserve]))
      (useSession_only h.client_ne s) (by decide) (by decide)
    exact ⟨t, ht, hresp, honly⟩
  · exact exec_dictTransferTimeout_can hc s
  · simp [exec, execBusOff, hoff]
  · exact exec_busOff_on hon
  · simp only [exec, execBusOffRecovery, beq_eq_false_iff_ne.mpr hne]
    rfl
  · simp only [exec, execBusOffRecovery, he]
    rfl
  · simp [exec, execErrorPassive, hoff]
  · simp [exec, execErrorPassive, hoff]
  · simp [exec, execErrorPassive, hon, h0]
  · simp only [exec, execErrorPassive, hon, h0]
    rfl
  · simp [exec, execErrorPassive, hon, h1]
  · simp only [exec, execErrorPassive, hon, h1]
    rfl

end Sys2Proof.Machine

namespace Sys2Proof.Machine

/-! ### The causes of a reset (R57 to R61) -/

theorem applyWords_frame (o : CabOp) (ws : List (Nat × BitVec 64)) (c : Cabinet) :
    (applyWords o ws c).prog = c.prog ∧ (applyWords o ws c).erase = c.erase := by
  unfold applyWords
  split <;> exact ⟨rfl, rfl⟩

theorem failedWord_frame (o : CabOp) (k new : Nat) (s : State) :
    (failedWord o k new s).cab.prog = s.cab.prog ∧ (failedWord o k new s).cab.erase = s.cab.erase :=
  applyWords_frame o _ s.cab

theorem undoHeader_frame (c : Cabinet) (sec : Nat) :
    (undoHeader c sec).prog = c.prog ∧ (undoHeader c sec).erase = c.erase := by
  unfold undoHeader
  split <;> exact ⟨rfl, rfl⟩

theorem freeSector_frame (sec : Nat) (s : State) :
    (freeSector sec s).cab.prog = s.cab.prog ∧ (freeSector sec s).cab.erase = s.cab.erase := by
  unfold freeSector
  exact ⟨rfl, rfl⟩

theorem cutErase_frame (e : CabOp) (s : State) :
    (cutErase e s).cab.prog = s.cab.prog ∧ (cutErase e s).cab.erase = none := by
  unfold cutErase
  dsimp only [takeFree]
  split
  · exact undoHeader_frame { s.cab with erase := none } e.sector
  · exact freeSector_frame e.sector _

/-- A reset leaves no operation of the Cabinet running (R526, R538). -/
theorem cutCabinet_idle (s : State) : (cutCabinet s).cab.prog = none ∧ (cutCabinet s).cab.erase = none := by
  unfold cutCabinet
  extract_lets +onlyGivenNames u
  have hprog : u.cab.prog = none := by
    cases hp : s.cab.prog with
    | none => simp only [u, hp]
    | some p =>
      simp only [u, hp, takeFree]
      split
      · exact (failedWord_frame _ _ _ _).1
      · rfl
  clear_value u
  split
  · rw [(cutErase_frame _ u).1]
    exact ⟨hprog, (cutErase_frame _ u).2⟩
  case h_2 hnone => exact ⟨hprog, hnone⟩

/-- With no operation running there is nothing to cut off. -/
theorem cutCabinet_of_idle {s : State} (hprog : s.cab.prog = none) (herase : s.cab.erase = none) : cutCabinet s = s := by
  simp [cutCabinet, hprog, herase]

theorem resetLogged_of_change {s : State} (h : s.pins.inReset = false ∨ s.pins.powered = false) :
    resetLogged s = s.evq.logged ++ [padTo 32 (resetRecord s)] := by
  rcases h with h | h <;> simp [resetLogged, h]

/-- A cold reset: R60 keeps the erased and programmed words of the Cabinet, the straps and the factory request. -/
theorem coldReset_clears (s : State) : ∃ t, exec .porNAssert s = .next t ∧ t.pins = State.reset.pins ∧ t.now = 0
    ∧ t.modes = { dieId := s.modes.dieId, leadOk := s.modes.leadOk, factoryReq := s.modes.factoryReq }
    ∧ t.stats = {}
    ∧ t.cab.ret = (0, 0, 0) ∧ t.cab.markLocked = false ∧ t.cab.prog = none ∧ t.cab.erase = none
    ∧ (s.cab.prog = none → s.cab.erase = none → t.cab.words = s.cab.words ∧ t.cab.mark = s.cab.mark)
    ∧ ((s.pins.inReset = false ∨ s.pins.powered = false) → t.evq.logged = s.evq.logged ++ [padTo 32 (resetRecord s)])
    ∧ t = { State.reset with
        pending := s.pending, now := 0, freeCtr := t.freeCtr, modes := t.modes, cab := t.cab, stats := t.stats
        bg := { spareNext := s.bg.spareNext }, evq := { logged := t.evq.logged }
        stripe := { unlisted := s.stripe.unlisted } } := by
  refine ⟨coldReset s, rfl, rfl, rfl, rfl, rfl, rfl, rfl, (cutCabinet_idle s).1, (cutCabinet_idle s).2,
    fun hprog herase => ?_, resetLogged_of_change, rfl⟩
  have hcut := cutCabinet_of_idle hprog herase
  exact ⟨congrArg (·.cab.words) hcut, congrArg (·.cab.mark) hcut⟩

/-- A cause of a warm reset, and the mark that it leaves in RESET_CAUSE (R61). -/
def warmCause (c : Instr) : Modes → Modes :=
  match c with
  | .rstNAssert => fun m => { m with causePin := true }
  | .watchdog => fun m => { m with causeWdog := true }
  | _ => fun m => { m with causeSoft := true }

/-- The commands that begin a warm reset outside RESET (R58, R62). -/
def beginsWarm (c : Instr) : Prop :=
  c = .rstNAssert ∨ c = .watchdog ∨ ∃ v, c = .softReset v ∧ fld v.toNat 16 16 = 0xD1AD ∧ fld v.toNat 0 4 = 1

variable {c : Instr} {s : State}

theorem warmReset_of_holdup (cause : Modes → Modes) (hheld : s.modes.holdup = true) : warmReset cause s = s := by
  simp [warmReset, hheld]

theorem exec_beginsWarm (hc : beginsWarm c) (s : State) : exec c s = .next (warmReset (warmCause c) s) := by
  rcases hc with rfl | rfl | ⟨v, rfl, hkey, hreq⟩
  · rfl
  · rfl
  · have hwrite : writeModeCtrl v s = warmReset (warmCause (.softReset v)) s := by
      cases hreset : s.pins.inReset with
      | true => simp [writeModeCtrl, warmReset, hreset]
      | false => simp [writeModeCtrl, hkey, hreq, hreset, warmCause]
    exact congrArg Host.Outcome.next ((if_pos (by simp [hreq])).trans hwrite)

theorem warmCause_causes (hc : beginsWarm c) (m : Modes) :
    ((warmCause c m).causePin = true ↔ m.causePin = true ∨ c = .rstNAssert)
    ∧ ((warmCause c m).causeWdog = true ↔ m.causeWdog = true ∨ c = .watchdog)
    ∧ ((warmCause c m).causeSoft = true ↔ m.causeSoft = true ∨ ∃ v, c = .softReset v) := by
  rcases hc with rfl | rfl | ⟨v, rfl, -, -⟩ <;> simp [warmCause]

/-- The mark of the cause is all that it changes. -/
theorem warmCause_eq (hc : beginsWarm c) (m : Modes) : warmCause c m = { m with
    causePin := (warmCause c m).causePin, causeWdog := (warmCause c m).causeWdog, causeSoft :=
        (warmCause c m).causeSoft } := by
  rcases hc with rfl | rfl | ⟨v, rfl, -, -⟩ <;> rfl

/-- What a warm reset clears, keeps and counts (R58, R60, R61). -/
theorem warmReset_clears (hc : beginsWarm c) (hheld : s.modes.holdup = false) (hreset : s.pins.inReset = false)
    (hpower : s.pins.powered = true) :
    ∃ t, exec c s = .next t ∧ t.pins = State.reset.pins ∧ t.rings = State.reset.rings
      ∧ t.sched = State.reset.sched ∧ t.stripe = { unlisted := s.stripe.unlisted } ∧ t.rack = State.reset.rack
      ∧ t.irq = { State.reset.irq with raises := s.irq.raises }
      ∧ t.evq = { logged := s.evq.logged ++ [padTo 32 (resetRecord s)] } ∧ t.host = State.reset.host
      ∧ t.modes.mode = .boot ∧ t.modes.prevMode = .reset ∧ t.modes.boot = true
      ∧ t.modes.quarantine = s.modes.quarantine ∧ t.modes.dieId = s.modes.dieId ∧ t.modes.leadOk = s.modes.leadOk
      ∧ t.modes.warmCount = satAdd s.modes.warmCount 1
      ∧ (t.modes.causePin = true ↔ s.modes.causePin = true ∨ c = .rstNAssert)
      ∧ (t.modes.causeWdog = true ↔ s.modes.causeWdog = true ∨ c = .watchdog)
      ∧ (t.modes.causeSoft = true ↔ s.modes.causeSoft = true ∨ ∃ v, c = .softReset v)
      ∧ t.modes.causePor = s.modes.causePor
      ∧ t.stats = s.stats ∧ t.now = s.now ∧ t.bg.spareNext = s.bg.spareNext := by
  refine ⟨_, exec_beginsWarm hc s, ?_⟩
  have hevq := resetLogged_of_change (s := s) (.inl hreset)
  unfold warmReset
  rw [if_neg (by simp [hheld, hreset, hpower])]
  extract_lets m
  obtain ⟨hpin, hwdog, hsoft⟩ := warmCause_causes hc
    { dieId := m.dieId, leadOk := m.leadOk, quarantine := m.quarantine, factoryReq := m.factoryReq, porCold := false
      warmCount := satAdd m.warmCount 1, causeWdog := m.causeWdog, causeSoft := m.causeSoft, causePin := m.causePin
      causePor := m.causePor }
  rw [warmCause_eq hc]
  exact ⟨rfl, rfl, rfl, rfl, rfl, rfl, congrArg (fun l =>
      ({ logged := l } : Evq)) hevq, rfl, rfl, rfl, rfl, rfl, rfl, rfl, rfl,
    hpin, hwdog, hsoft, rfl, rfl, rfl, rfl⟩

/-- Settles O18: por_n is a cold reset; the other causes are one warm reset, whose mark in RESET_CAUSE is the cause's own. -/
theorem resetCausesBeginAReset : Obligations.ResetCausesBeginAReset := by
  refine ⟨coldReset_clears, fun c s hc => ⟨fun hheld => ?_, warmReset_clears hc⟩⟩
  rw [exec_beginsWarm hc, warmReset_of_holdup _ hheld]

/-! ### MODE_CTRL (R55, R62, R77) -/

/-- A write without the KEY does nothing (R62). -/
theorem writeModeCtrl_noKey {v : Word} (hkey : fld v.toNat 16 16 ≠ 0xD1AD) (s : State) : writeModeCtrl v s = s := by
  simp [writeModeCtrl, hkey]

theorem writeModeCtrl_standby {v : Word} (hkey : fld v.toNat 16 16 = 0xD1AD) (hreq : fld v.toNat 0 4 = 2)
    (hreset : s.pins.inReset = false) : writeModeCtrl v s = requestStandby s := by
  simp [writeModeCtrl, hkey, hreq, hreset]

/-- The block leads, in a mode that STANDBY may follow (R77). -/
def mayStandby (s : State) : Prop :=
  s.modes.lead = true ∧ (s.modes.mode = .service ∨ s.modes.mode = .degraded ∨ s.modes.mode = .writeFenced)

theorem requestStandby_accepted (h : mayStandby s) :
    requestStandby s = { s with modes := { s.modes with stbyRequested := true } } := by
  obtain ⟨hlead, hmode⟩ := h
  simp [requestStandby, hlead, or_assoc, hmode]

theorem requestStandby_refused (h : ¬ mayStandby s) :
    requestStandby s = { s with modes := { s.modes with stbyRefused := true } } := by
  rw [mayStandby] at h
  simp [requestStandby, or_assoc, h]

/-- Settles O19: the KEY guards both requests, and a STANDBY request is judged by the lead and the mode alone. -/
theorem modeCtrlRequests : Obligations.ModeCtrlRequests := by
  refine ⟨fun v s hkey => ?_, fun v s hkey hreq hreset => ⟨requestStandby s, ?_, ?_⟩, fun s hreq => ?_⟩
  · simp only [exec, execSoftReset, execEnterStandby, writeModeCtrl_noKey hkey, ite_self, and_self]
  · simp only [exec, execEnterStandby, hreq, beq_self_eq_true, if_true, writeModeCtrl_standby hkey hreq hreset]
  · by_cases hmay : mayStandby s
    · rw [requestStandby_accepted hmay]
      exact ⟨rfl, (if_pos hmay).mpr ⟨rfl, rfl⟩⟩
    · rw [requestStandby_refused hmay]
      exact ⟨rfl, (if_neg hmay).mpr ⟨rfl, rfl⟩⟩
  · exact congrArg Host.Outcome.next (if_pos hreq)

end Sys2Proof.Machine

namespace Sys2Proof.Machine

/-! ### What por_n alone ends: HOLDUP, with holdup_done, and the thermal latch (R56, R59) -/

section
variable {s₀ s t : State}

/-- From `s` to `t` HOLDUP goes on where it holds, holdup_done stays high in it, and the thermal latch stays set. -/
structure Lasts (s t : State) : Prop where
  holdup : s.modes.holdup = true → t.modes.holdup = true
  done : s.modes.holdup = true → s.pins.holdupDone = true → t.pins.holdupDone = true
  latch : s.modes.quarantine = true → t.modes.quarantine = true

theorem Lasts.refl (s : State) : Lasts s s := ⟨id, fun _ => id, id⟩

theorem Lasts.trans (h : Lasts s₀ s) (k : Lasts s t) : Lasts s₀ t :=
  ⟨k.holdup ∘ h.holdup, fun hh => k.done (h.holdup hh) ∘ h.done hh, k.latch ∘ h.latch⟩

/-- The block's own work ends none of them. -/
theorem Lasts.after (q : Quiet s t) (h : Lasts s₀ s) : Lasts s₀ t := by
  have hholdup := congrArg Modes.holdup q.modes
  have hlatch := congrArg Modes.quarantine q.modes
  have hdone := congrArg Pins.holdupDone q.pins
  exact h.trans ⟨fun e => hholdup.trans e, fun _ e => hdone.trans e, fun e => hlatch.trans e⟩

/-- What `Lasts` says of the pins and the modes. -/
def lastingParts (p : Pins) (m : Modes) : Bool × Bool × Bool := (p.holdupDone, m.holdup, m.quarantine)

/-- An update of anything else. -/
theorem Lasts.frame {pending : List Instr} {freeCtr : Nat} {now : Nat} {pins : Pins} {modes : Modes} {rings : List Ring}
    {sched : Sched} {host : HostPorts} {regs : RegPort} {rack : Rack} {power : Power} {hk : Hk}
    {storeImage : List (Nat × BitVec 160)} {jigs : List Jig} {chans : List Chan} {codec : Codec} {recov : Recov}
    {luns : List (Nat × LunRec)} {stripe : Stripe} {bg : Bg} {media : Media} {dv : Dv} {irq : Irq} {evq : Evq} {dict : Dict}
    {cab : Cabinet} {sram : Sram} {stats : Stats}
    (h : Lasts s₀ s) (e : lastingParts pins modes = lastingParts s.pins s.modes) :
    Lasts s₀ { s with
      pending := pending, freeCtr := freeCtr, now := now, pins := pins, modes := modes, rings := rings, sched := sched
      host := host, regs := regs, rack := rack, power := power, hk := hk, storeImage := storeImage, jigs := jigs
      chans := chans, codec := codec, recov := recov, luns := luns, stripe := stripe, bg := bg, media := media, dv := dv
      irq := irq, evq := evq, dict := dict, cab := cab, sram := sram, stats := stats } := by
  simp only [lastingParts, Prod.mk.injEq] at e
  obtain ⟨hdone, hholdup, hlatch⟩ := e
  exact h.trans ⟨fun e => hholdup.trans e, fun _ e => hdone.trans e, fun e => hlatch.trans e⟩

theorem Lasts.ite {c : Prop} [Decidable c] (hs : Lasts s₀ s) (ht : Lasts s₀ t) : Lasts s₀ (if c then s else t) := by
  split <;> assumption

theorem Lasts.foldl {α : Type _} {f : State → α → State} {l : List α} (hf : ∀ s a, Lasts s₀ s → Lasts s₀ (f s a))
    (h : Lasts s₀ s) : Lasts s₀ (l.foldl f s) := by
  induction l generalizing s with
  | nil => exact h
  | cons a l ih => exact ih (hf s a h)

/-- Conditions that change without ending HOLDUP or the latch. -/
theorem setConds_lasts {f : Modes → Modes} (hh : ∀ m, m.holdup = true → (f m).holdup = true)
    (hl : ∀ m, m.quarantine = true → (f m).quarantine = true) (h : Lasts s₀ s) : Lasts s₀ (setConds f s) :=
  have hf : Lasts s₀ { s with modes := f s.modes } := h.trans ⟨hh _, fun _ => id, hl _⟩
  .after (applyMode_quiet (s := { s with modes := f s.modes }) (.refl _) ⟨rfl, rfl⟩) hf

/-- The outcome of a command ends neither. -/
def LastsOut (s₀ : State) (o : Out) : Prop := ∀ t, o = .next t → Lasts s₀ t

theorem LastsOut.next (h : Lasts s₀ s) : LastsOut s₀ (.next s) := by rintro _ ⟨⟩; exact h

theorem LastsOut.checked {ok : Bool} (h : Lasts s₀ s) : LastsOut s₀ (checked ok s) := by
  unfold Machine.checked
  split
  · exact .next h
  · intro _ e
    cases e

theorem raise_lasts {id : Nat} (h : Lasts s₀ s) : Lasts s₀ (raise id s) := .frame h rfl

theorem raisePriv_lasts {id : Nat} {soft : Bool} {detail : List Byte} (h : Lasts s₀ s) :
    Lasts s₀ (raisePriv id soft detail s) := by
  unfold raisePriv
  extract_lets +onlyGivenNames _ _ _ _ _ t u
  have hu : Lasts s₀ u := .ite (.after (queueCanEvent_quiet (.refl _)) (.frame h rfl)) (.frame h rfl)
  exact .ite (.ite (.after (issueRecord_quiet (.refl _)) (.frame hu rfl)) (.frame hu rfl)) (.frame hu rfl)

/-- A command that only the main core may give (R501). -/
theorem mainCoreOnly_lasts {who : Writer} {f : State → State} (hf : ∀ {u}, Lasts s₀ u → Lasts s₀ (f u)) (h : Lasts s₀ s) :
    Lasts s₀ (mainCoreOnly who f s) := by
  cases who with
  | mainCore => exact hf h
  | hostPort => exact .frame h rfl
  | hkCore => exact .frame h rfl

/-- A routine of the Cabinet returns, or faults outside BOOT. -/
theorem asRoutine_lasts {c : Caller} (h : Lasts s₀ s) (ht : Lasts s₀ t) : Lasts s₀ (asRoutine c s t) :=
  .ite ht (raisePriv_lasts (.frame h rfl))

end

end Sys2Proof.Machine

namespace Sys2Proof.Machine
variable {s₀ s t : State}

/-! ### Machine/Power.lean -/

theorem grantReq_lasts {r : RackReq} (h : Lasts s₀ s) : Lasts s₀ (grantReq r s) := by
  unfold grantReq
  split
  · exact h
  · exact .frame h rfl
  · exact .frame (.frame h rfl) rfl

theorem grantFrom_lasts {reqs : List RackReq} (h : Lasts s₀ s) : Lasts s₀ (grantFrom reqs s) := by
  induction reqs generalizing s with
  | nil => exact h
  | cons r rs ih => exact .ite (ih h) (.ite (ih (grantReq_lasts h)) h)

theorem grantForecast_lasts (h : Lasts s₀ s) : Lasts s₀ (grantForecast s) := .ite (.frame h rfl) h

theorem rackCycle_lasts (h : Lasts s₀ s) : Lasts s₀ (rackCycle s) :=
  .ite (grantForecast_lasts h) (grantFrom_lasts (grantForecast_lasts h))

theorem askClamps_lasts {ch lun n : Nat} (h : Lasts s₀ s) : Lasts s₀ (askClamps ch lun n s) := .frame (.frame h rfl) rfl

theorem askXm_lasts {ch : Nat} (h : Lasts s₀ s) : Lasts s₀ (askXm ch s) := .ite h (.frame h rfl)

theorem countDeferred_lasts (h : Lasts s₀ s) : Lasts s₀ (countDeferred s) :=
  .after (raise_quiet (by omega) (.refl _)) (.frame h rfl)

theorem execDeferEvent_lasts {who : Requester} (h : Lasts s₀ s) : LastsOut s₀ (execDeferEvent who s) := by
  refine .next ?_
  split <;> exact .ite (countDeferred_lasts (.frame h rfl)) h

theorem wake_lasts (h : Lasts s₀ s) : Lasts s₀ (wake s) :=
  .ite (.after (tellStandby_quiet (.refl _)) (setConds_lasts (fun _ => id) (fun _ => id) (.frame (.frame h rfl) rfl))) h

theorem sbTake_lasts (h : Lasts s₀ s) : Lasts s₀ (sbTake s) := wake_lasts (.frame h rfl)

theorem placeForecast_lasts {m : Word} (h : Lasts s₀ s) : Lasts s₀ (placeForecast m s) :=
  grantForecast_lasts (.frame h rfl)

/-! ### Machine/Sram.lean -/

theorem execScrubRewrite_lasts (h : Lasts s₀ s) : LastsOut s₀ (execScrubRewrite s) := by
  refine .next ?_
  split
  · exact .frame h rfl
  · exact h

/-! ### Machine/Cabinet.lean -/

theorem execProgram_lasts {caller : Caller} {sector word : Nat} {data : List (BitVec 64)} {clearOnly suspendOk : Bool}
    (h : Lasts s₀ s) : LastsOut s₀ (execProgram caller sector word data clearOnly suspendOk s) := by
  unfold execProgram
  refine .next (asRoutine_lasts h ?_)
  extract_lets +onlyGivenNames c eraseBars
  exact .ite (.frame h rfl) (.ite (.frame h rfl) (.ite (.frame h rfl) (.ite (.frame h rfl) (.ite (.frame h rfl)
    (.frame h rfl)))))

theorem execErase_lasts {caller : Caller} {sector : Nat} (h : Lasts s₀ s) :
    LastsOut s₀ (execErase caller sector s) := by
  unfold execErase
  refine .next (asRoutine_lasts h ?_)
  extract_lets +onlyGivenNames _ _ t
  have ht : Lasts s₀ t := .frame h rfl
  exact .ite (.frame h rfl) (.ite (.frame h rfl) (.ite (.frame h rfl) (.ite (.frame h rfl)
    (.ite ht (.after (noteEndurance_quiet (.refl _)) ht)))))

theorem execSuspend_lasts {caller : Caller} (h : Lasts s₀ s) : LastsOut s₀ (execSuspend caller s) := by
  refine .next (asRoutine_lasts h ?_)
  split
  · split <;> exact .frame h rfl
  · exact .frame h rfl

theorem execResume_lasts {caller : Caller} (h : Lasts s₀ s) : LastsOut s₀ (execResume caller s) := by
  refine .next (asRoutine_lasts h ?_)
  split
  · split <;> exact .frame h rfl
  · exact .frame h rfl

theorem execStatus_lasts {caller : Caller} (h : Lasts s₀ s) : LastsOut s₀ (execStatus caller s) := by
  refine .next (asRoutine_lasts h ?_)
  split
  · exact .frame h rfl
  · exact .frame h rfl

theorem execCount_lasts {caller : Caller} {sector : Nat} (h : Lasts s₀ s) :
    LastsOut s₀ (execCount caller sector s) := by
  refine .next (asRoutine_lasts h ?_)
  split <;> exact .frame h rfl

theorem execMarkProgram_lasts {caller : Caller} {word : Nat} {data : List (BitVec 64)} {clearOnly : Bool}
    (h : Lasts s₀ s) : LastsOut s₀ (execMarkProgram caller word data clearOnly s) := by
  refine .next (asRoutine_lasts h ?_)
  split_ifs <;> exact .frame h rfl

theorem execCabinetOpEnd_lasts {verified : Bool} {wordsDone : Nat} (h : Lasts s₀ s) :
    LastsOut s₀ (execCabinetOpEnd verified wordsDone s) := by
  refine .next ?_
  split
  · exact .after (endProgram_quiet (.refl _)) h
  · exact .ite h (.after (endErase_quiet (.refl _)) h)
  · exact h

theorem execLogRecordCopy_lasts (h : Lasts s₀ s) : LastsOut s₀ (execLogRecordCopy s) := by
  refine .next ?_
  refine .ite h ?_
  split
  · exact .after (writeLog_quiet (.refl _)) (.frame h rfl)
  · exact .after (writeLog_quiet (.refl _)) (.frame h rfl)
  · exact h

/-! ### Machine/Journal.lean -/

theorem launchPage_lasts {p : JPage} {recs : Nat} (h : Lasts s₀ s) : Lasts s₀ (launchPage p recs s) := by
  unfold launchPage
  extract_lets +onlyGivenNames _ _ _ s₁
  have hs₁ : Lasts s₀ s₁ := .ite (.after (programJournal_quiet (programJournal_quiet (.refl _))) (.frame h rfl))
      (.frame h rfl)
  extract_lets +onlyGivenNames s₂
  have hs₂ : Lasts s₀ s₂ := .ite (.after (programJournal_quiet (.refl _)) hs₁) hs₁
  refine .ite hs₂ ?_
  extract_lets +onlyGivenNames s₃
  have hs₃ : Lasts s₀ s₃ := .ite (.after (eraseOldRing_quiet (.refl _)) hs₂) hs₂
  exact .ite (.after (eraseRing_quiet (.refl _)) hs₃) hs₃

theorem startRecords_lasts (h : Lasts s₀ s) : Lasts s₀ (startRecords s) := launchPage_lasts (.frame h rfl)

theorem startSnapshot_lasts (h : Lasts s₀ s) : Lasts s₀ (startSnapshot s) :=
  .ite (.frame (.after (addRec_quiet (.refl _)) (launchPage_lasts (.frame h rfl))) rfl) (launchPage_lasts (.frame h rfl))

theorem execJournalPageStart_lasts (h : Lasts s₀ s) : LastsOut s₀ (execJournalPageStart s) := by
  refine .next ?_
  refine .ite h ?_
  refine .ite (startSnapshot_lasts h) ?_
  extract_lets +onlyGivenNames s₁
  have hs₁ : Lasts s₀ s₁ := .ite (.after (readSnapshot_quiet (.refl _)) h) h
  exact .ite hs₁ (startRecords_lasts hs₁)

theorem endFold_lasts (h : Lasts s₀ s) : Lasts s₀ (endFold s) := by
  unfold endFold
  extract_lets +onlyGivenNames _ _ _ s₁
  have hs₁ : Lasts s₀ s₁ := .after (writeAnchor_quiet (.refl _)) (.frame h rfl)
  exact .ite (.after (journalEvent_quiet (setConds_quiet (fun _ => rfl) (.refl _))) (.frame hs₁ rfl)) hs₁

theorem pageDurable_lasts {p : JPage} (h : Lasts s₀ s) : Lasts s₀ (pageDurable p s) :=
  .after (foldIfDue_quiet (.refl _)) (.ite (endFold_lasts (.frame h rfl)) (.frame h rfl))

/-! ### Machine/Background.lean -/

/-! ### Machine/Entries.lean -/

theorem execRingFetch_lasts {n : Nat} {unit0 rest : HostRead} (h : Lasts s₀ s) :
    LastsOut s₀ (execRingFetch n unit0 rest s) := by
  unfold execRingFetch
  refine .checked ?_
  split
  · split
    · extract_lets +onlyGivenNames unit0 rest s₁ s₂
      have hs₁ : Lasts s₀ s₁ := .after (grantFetch_quiet (.refl _)) h
      have hs₂ : Lasts s₀ s₂ := .frame hs₁ rfl
      clear_value s₂ unit0
      cases unit0 with
      | err => exact .after (stopRing_quiet (.refl _)) hs₂
      | ok u => exact .ite (.after (missIfNeeded_quiet (fetchOwned_quiet (.refl _))) hs₂) (.frame hs₂ rfl)
    · exact h
  · exact h

theorem partDone_lasts {e : Entry} (h : Lasts s₀ s) : Lasts s₀ (partDone e s) :=
  .ite (raise_lasts (.frame h rfl)) (.frame h rfl)

theorem entryGone_lasts {e : Entry} (h : Lasts s₀ s) : Lasts s₀ (entryGone e s) := by
  unfold entryGone
  extract_lets +onlyGivenNames s₁
  have hs₁ : Lasts s₀ s₁ := .ite (raise_lasts h) h
  extract_lets +onlyGivenNames _ s₂
  have hs₂ : Lasts s₀ s₂ := by
    unfold s₂
    split
    · exact .frame hs₁ rfl
    · exact hs₁
  extract_lets +onlyGivenNames s₃
  have hs₃ : Lasts s₀ s₃ := .frame (.frame hs₂ rfl) rfl
  exact .after (settleRing_quiet (.refl _)) (.frame hs₃ rfl)

theorem complAcked_lasts {eid part : Nat} {own : Bool} (h : Lasts s₀ s) : Lasts s₀ (complAcked eid part own s) := by
  unfold complAcked
  split
  · extract_lets +onlyGivenNames s₁
    have hs₁ : Lasts s₀ s₁ := .frame h rfl
    extract_lets +onlyGivenNames _ s₂
    have hs₂ : Lasts s₀ s₂ := .ite (partDone_lasts hs₁) hs₁
    exact .ite (entryGone_lasts hs₂) (.ite hs₂ (.after (nextWrite_quiet (.refl _)) hs₂))
  · exact h

/-! ### Machine/Reads.lean -/

theorem execPredictedThresholds_lasts {job : Nat} (h : Lasts s₀ s) : LastsOut s₀ (execPredictedThresholds job s) := by
  refine .next ?_
  split
  · split
    · exact .after (reread_quiet (fun hu => addRead_quiet hu) (noteStep_quiet (.refl _))) h
    · exact h
  · exact h

theorem execRetryTable_lasts {job : Nat} (h : Lasts s₀ s) : LastsOut s₀ (execRetryTable job s) := by
  refine .next ?_
  split
  · split
    · exact .after (reread_quiet (fun hu => addRetry_quiet hu) (noteStep_quiet (.refl _))) h
    · exact h
  · exact h

/-! ### Machine/Ladder.lean -/

theorem execCodewordEncode_lasts {engine : Nat} {fault : Option Bool} (h : Lasts s₀ s) :
    LastsOut s₀ (execCodewordEncode engine fault s) := by
  refine .checked ?_
  split
  · split
    · split
      · exact .ite (.after (encoderFault_quiet (.refl _)) h) h
      · exact .ite (.after (encodeNext_quiet (.refl _)) h) h
    · exact h
  · exact h

theorem execTruedThresholds_lasts {job : Nat} (h : Lasts s₀ s) : LastsOut s₀ (execTruedThresholds job s) := by
  refine .next ?_
  split
  · refine .ite h ?_
    extract_lets +onlyGivenNames _ _ s₁
    have hs₁ : Lasts s₀ s₁ := .after (noteStep_quiet (.refl _)) h
    split
    · exact .after (rereadAll_quiet (.refl _)) hs₁
    · exact .after (startSearch_quiet (.refl _)) (.foldl (fun _ _ ht₁ => .frame ht₁ rfl) hs₁)
  · exact h

theorem execHardDecode_lasts {engine job cw : Nat} {fault : Bool} (h : Lasts s₀ s) :
    LastsOut s₀ (execHardDecode engine job cw fault s) := by
  refine .checked ?_
  split
  · exact .after (endDecode_quiet (.refl _)) h
  · exact h

/-! ### Machine/Saves.lean -/

/-! ### Machine/Dose.lean -/

/-! ### Machine/Writes.lean -/

theorem execWriteRow_lasts {eid : Nat} {list : List HostRead} (h : Lasts s₀ s) : LastsOut s₀ (execWriteRow eid list s) := by
  refine .next ?_
  refine .after (s := s) ?_ h
  refine dispatch_quiet (fun hu => ?_) (.refl _)
  extract_lets +onlyGivenNames _
  split
  · exact stopAt_quiet (fetchList_quiet hu)
  · exact .frame (fetchList_quiet hu) rfl
  · exact .ite (.frame (.frame (fetchList_quiet hu) rfl) rfl)
      (.ite (stopAt_quiet (.frame (fetchList_quiet hu) rfl)) (tryWrite_quiet (.frame (fetchList_quiet hu) rfl)))

theorem execSlotAssign_lasts {eid : Nat} (h : Lasts s₀ s) : LastsOut s₀ (execSlotAssign eid s) := by
  refine .next ?_
  split
  · exact .ite (.ite (.after (tryWrite_quiet (.refl _)) h) (.frame h rfl)) h
  · exact h

theorem execSlotWaitEvent_lasts {eid : Nat} (h : Lasts s₀ s) : LastsOut s₀ (execSlotWaitEvent eid s) := by
  refine .next ?_
  split
  · exact .ite (.after (raise_quiet (by omega) (.refl _)) (.frame (.frame h rfl) rfl)) h
  · exact h

theorem execWriteDataArrival_lasts {eid member cw : Nat} {beats : List Byte} (h : Lasts s₀ s) :
    LastsOut s₀ (execWriteDataArrival eid member cw beats s) := by
  refine .next ?_
  split
  · split
    · exact .ite (.after (dataArrives_quiet (.refl _)) h) h
    · exact h
  · exact h

/-! ### Machine/Groups.lean -/

theorem execRead_lasts {eid : Nat} {list : List HostRead} (h : Lasts s₀ s) : LastsOut s₀ (execRead eid list s) := by
  refine .next ?_
  refine .after (s := s) ?_ h
  refine dispatch_quiet (fun hu => ?_) (.refl _)
  extract_lets +onlyGivenNames _
  split
  · exact stopAt_quiet (fetchList_quiet hu)
  · exact .frame (fetchList_quiet hu) rfl
  · refine .ite (.frame (fetchList_quiet hu) rfl) ?_
    refine .ite (stopAt_quiet (fetchList_quiet hu)) ?_
    extract_lets +onlyGivenNames _ _
    split
    · exact .frame (fetchList_quiet hu) rfl
    · extract_lets +onlyGivenNames s₂
      have hs₂ : Quiet s s₂ := pumpReads_quiet (.frame (fetchList_quiet hu) rfl)
      split
      · exact settleRead_quiet hs₂
      · exact hs₂

theorem execFlush_lasts {eid : Nat} (h : Lasts s₀ s) : LastsOut s₀ (execFlush eid s) := by
  refine .next ?_
  refine .after (s := s) ?_ h
  refine dispatch_quiet (fun hu => ?_) (.refl _)
  refine .ite (.frame hu rfl) ?_
  extract_lets +onlyGivenNames _ _
  split
  · exact settleFlush_quiet (.frame hu rfl)
  · exact .frame hu rfl

theorem execRawJig_lasts {eid : Nat} {data : HostRead} (h : Lasts s₀ s) : LastsOut s₀ (execRawJig eid data s) := by
  refine .next ?_
  refine .after (s := s) ?_ h
  refine dispatch_quiet (fun hu => ?_) (.refl _)
  refine .ite (.frame hu rfl) ?_
  refine .ite (.frame hu rfl) ?_
  refine .ite (.frame hu rfl) ?_
  extract_lets +onlyGivenNames s₂
  have hs₂ : Quiet s s₂ := .ite hu (.frame hu rfl)
  split
  · exact .frame hs₂ rfl
  · exact .frame (addJob_quiet hs₂) rfl

theorem execGroupOpen_lasts {eid : Nat} (h : Lasts s₀ s) : LastsOut s₀ (execGroupOpen eid s) := by
  refine .next ?_
  refine .after (s := s) ?_ h
  refine dispatch_quiet (fun hu => ?_) (.refl _)
  refine .ite (.frame hu rfl) ?_
  split
  · exact .frame hu rfl
  · exact .ite (.frame hu rfl) (.ite (.frame hu rfl) (.foldl (fun _ _ ht₁ => addErase_quiet ht₁) (.frame
        (.frame hu rfl) rfl)))

theorem execGroupClose_lasts {eid : Nat} (h : Lasts s₀ s) : LastsOut s₀ (execGroupClose eid s) := by
  refine .next (.after (dispatch_quiet (fun hu => ?_) (.refl _)) h)
  exact .ite (.frame hu rfl) (.ite (.frame hu rfl) (.frame (closeGroup_quiet hu) rfl))

theorem execRebuildStart_lasts {eid : Nat} (h : Lasts s₀ s) : LastsOut s₀ (execRebuildStart eid s) := by
  refine .next ?_
  refine .after (s := s) ?_ h
  refine dispatch_quiet (fun hu => ?_) (.refl _)
  refine .ite (.frame hu rfl) ?_
  refine .ite (.frame hu rfl) ?_
  split
  · exact .frame hu rfl
  · exact .ite (.frame hu rfl) (.ite (.frame hu rfl) (.frame (queueRebuild_quiet hu) rfl))

theorem execRefitStart_lasts {eid : Nat} {plan : HostRead} (h : Lasts s₀ s) : LastsOut s₀ (execRefitStart eid plan s) := by
  refine .next ?_
  refine .after (s := s) ?_ h
  refine dispatch_quiet (fun hu => ?_) (.refl _)
  extract_lets +onlyGivenNames _
  split
  · exact .frame (.frame hu rfl) rfl
  · split
    · exact stopAt_quiet (.frame hu rfl)
    · split
      · exact .frame (.frame hu rfl) rfl
      · exact .ite (.frame (.frame hu rfl) rfl) (.frame (beginRefit_quiet (.frame hu rfl)) rfl)

/-! ### Machine/Microword.lean -/

theorem upsetWord_lasts {ch x2 : Nat} {mask : BitVec 160} (h : Lasts s₀ s) : Lasts s₀ (upsetWord ch x2 mask s) :=
  .ite h (.frame h rfl)

/-! ### Machine/Services.lean -/

theorem execReconstruction_lasts {job cw : Nat} {w : HostRead} (h : Lasts s₀ s) :
    LastsOut s₀ (execReconstruction job cw w s) := by
  refine .next ?_
  split
  · exact .ite (.after (endStepSix_quiet (.refl _)) h) h
  · split
    · exact .ite (.ite (.after (beginStepSix_quiet (useEntry_quiet (.refl _))) h) (.after (useEntry_quiet (.refl _)) h)) h
    · exact h

theorem execRebuildRow_lasts {w : HostRead} (h : Lasts s₀ s) : LastsOut s₀ (execRebuildRow w s) := by
  refine .next ?_
  split
  · exact h
  · refine .ite h ?_
    split
    · exact .ite (.after (stepRebuild_quiet (.refl _)) h) h
    · exact .ite (.after (startMember_quiet (.refl _)) h) (.ite (.after (nextGroup_quiet (.refl _)) h)
        (.ite (.after (abandonMember_quiet (.refl _)) h) (.ite
        (.ite h (.ite (.after (beginRebuildRow_quiet (useEntry_quiet (.refl _))) h)
        (.after (useEntry_quiet (.refl _)) h))) (.after (reachEnd_quiet (.refl _)) h))))

theorem execPatrolRow_lasts {w : HostRead} (h : Lasts s₀ s) : LastsOut s₀ (execPatrolRow w s) := by
  refine .next ?_
  extract_lets +onlyGivenNames s₁
  have hs₁ : Lasts s₀ s₁ := .after (patrolUpdate_quiet (.refl _)) h
  split
  · exact .ite (.after (endPatrolRow_quiet (.refl _)) hs₁) hs₁
  · refine .ite hs₁ ?_
    split
    · exact .ite (.ite (.after (beginPatrolRow_quiet (useEntry_quiet (.refl _))) hs₁) (.after (useEntry_quiet
          (.refl _)) hs₁)) hs₁
    · exact .ite hs₁ (.after (newLap_quiet (.refl _)) hs₁)

theorem execRefitRow_lasts {w : HostRead} (h : Lasts s₀ s) : LastsOut s₀ (execRefitRow w s) := by
  refine .next ?_
  refine .ite h ?_
  split
  · exact .after (stepRefit_quiet (.refl _)) h
  · exact .ite (.ite (.after (beginRefitRow_quiet (useEntry_quiet (.refl _))) h) (.after (useEntry_quiet (.refl _)) h)) h

/-! ### Machine/Jigs.lean -/

theorem doPop_lasts {ch : Nat} (h : Lasts s₀ s) : Lasts s₀ (doPop ch s) :=
  .ite (.frame h rfl) (.ite (.frame (.frame (.ite (.frame (.frame h rfl) rfl) (.frame h rfl)) rfl) rfl) (.frame h rfl))

theorem trapJig_lasts {ch : Nat} {hard : Bool} {cause : Nat} (h : Lasts s₀ s) : Lasts s₀ (trapJig ch hard cause s) :=
  raise_lasts (.frame h rfl)

theorem haltJig_lasts {ch resume : Nat} (h : Lasts s₀ s) : Lasts s₀ (haltJig ch resume s) :=
  .ite (.after (endJob_quiet (.refl _)) (.frame h rfl)) (.frame h rfl)

theorem machineCheck_lasts {ch addr quarters : Nat} (h : Lasts s₀ s) : Lasts s₀ (machineCheck ch addr quarters s) :=
  .after (raisePriv_quiet (by omega) (.refl _)) (.foldl (fun _ _ ht => .after (abandonSearch_quiet (.refl _)) ht)
    (.foldl (fun _ _ ht => .after (endJobWith_quiet (.refl _)) ht) (.frame (.frame (.frame h rfl) rfl) rfl)))

theorem finishBus_lasts {ch : Nat} {b : Bus} {d : List Byte} (h : Lasts s₀ s) : Lasts s₀ (finishBus ch b d s) := by
  unfold finishBus
  extract_lets +onlyGivenNames s₁
  have hs₁ : Lasts s₀ s₁ := .ite (.ite (.ite (.after (takeBurst_quiet (.refl _)) h) h)
    (.ite (.frame (.frame h rfl) rfl) h)) (.ite (.frame h rfl) (.ite (.after (drawQueue_quiet (.refl _)) h) h))
  exact .ite (.frame (.after (closeSet_quiet (.refl _)) hs₁) rfl) hs₁

theorem phyRun_lasts {ch n : Nat} {d : List Byte} (h : Lasts s₀ s) : Lasts s₀ (phyRun ch n d s) := by
  induction n generalizing d s with
  | zero => exact h
  | succ n ih =>
    unfold phyRun
    split
    · exact h
    · exact .ite h (ih (finishBus_lasts (.frame h rfl)))

theorem startArray_lasts {ch kind : Nat} {g : Jig} {x : Sel} (h : Lasts s₀ s) : Lasts s₀ (startArray ch kind g x s) := by
  unfold startArray
  extract_lets +onlyGivenNames _ s₁
  have hs₁ : Lasts s₀ s₁ := .frame h rfl
  extract_lets +onlyGivenNames s₂
  have hs₂ : Lasts s₀ s₂ := .frame (.frame hs₁ rfl) rfl
  extract_lets +onlyGivenNames s₃
  have hs₃ : Lasts s₀ s₃ := .frame hs₂ rfl
  split
  · exact .ite hs₃ (.ite (.after (doseProgram_quiet (.refl _)) hs₃) (.ite (.after (doseErase_quiet (.refl _)) hs₃) hs₃))
  · exact hs₃

theorem putBus_lasts {ch w : Nat} {g : Jig} {x : Sel} (h : Lasts s₀ s) : Lasts s₀ (putBus ch w g x s) := by
  refine .ite h ?_
  extract_lets +onlyGivenNames _ _ _ s₁
  have hs₁ : Lasts s₀ s₁ := .frame (.frame (.ite (.after (applySets_quiet (.refl _)) h) h) rfl) rfl
  extract_lets +onlyGivenNames s₂
  have hs₂ : Lasts s₀ s₂ := .ite (askXm_lasts hs₁) hs₁
  split
  · exact startArray_lasts hs₂
  · exact hs₂

theorem putCodec_lasts {ch w : Nat} {g : Jig} (h : Lasts s₀ s) : Lasts s₀ (putCodec ch w g s) := by
  refine .ite (.after (startEncoding_quiet (.refl _)) (.frame h rfl)) ?_
  refine .ite ?_ (.frame h rfl)
  split
  · exact .frame (.frame h rfl) rfl
  · exact .frame (.after (closeSet_quiet (.refl _)) (.frame h rfl)) rfl

theorem putClamp_lasts {ch w : Nat} {x : Sel} (h : Lasts s₀ s) : Lasts s₀ (putClamp ch w x s) :=
  .ite (.frame h rfl) (.ite (.frame h rfl) (.ite (.frame h rfl) h))

theorem putDrawer_lasts {ch w : Nat} (h : Lasts s₀ s) : Lasts s₀ (putDrawer ch w s) := by
  unfold putDrawer
  split
  · exact doPop_lasts h
  · exact .frame h rfl
  · exact .frame h rfl
  · exact h

theorem report_lasts {ch kind : Nat} {old : Jig} {x : Sel} (h : Lasts s₀ s) : Lasts s₀ (report ch kind old x s) :=
  .frame (.frame h rfl) rfl

theorem putStat_lasts {ch w : Nat} {old : Jig} {x : Sel} (h : Lasts s₀ s) : Lasts s₀ (putStat ch w old x s) := by
  unfold putStat
  split
  · exact report_lasts h
  · exact report_lasts h
  · exact report_lasts h
  · exact .after (endJob_quiet (.refl _)) (.frame h rfl)
  · exact h

theorem putEvent_lasts {ch w : Nat} {old : Jig} (h : Lasts s₀ s) : Lasts s₀ (putEvent ch w old s) := by
  unfold putEvent
  extract_lets +onlyGivenNames s₁
  have hs₁ : Lasts s₀ s₁ := .ite h (raise_lasts (.frame h rfl))
  exact .ite hs₁ (.frame hs₁ rfl)

theorem applyFields_lasts {ch w : Nat} {g : Jig} {x : Sel} {p : JigIn} (h : Lasts s₀ s) :
    Lasts s₀ (applyFields ch w g x p s) :=
  putEvent_lasts (putStat_lasts (.frame (putDrawer_lasts
    (putCodec_lasts (putBus_lasts (.after (putSample_quiet (.refl _))
    (.frame (putClamp_lasts (.frame h rfl)) rfl))))) rfl))

theorem transfer_lasts {ch w : Nat} {g : Jig} {go : Go} (h : Lasts s₀ s) : Lasts s₀ (transfer ch w g go s) := by
  unfold transfer
  split
  · exact .frame h rfl
  · exact .frame h rfl
  · exact haltJig_lasts h
  · exact trapJig_lasts h

theorem firstCycle_lasts {ch w : Nat} {done : Bool} {p : JigIn} (h : Lasts s₀ s) :
    Lasts s₀ (firstCycle ch w done p s) := by
  refine .ite (transfer_lasts h) ?_
  split
  · exact trapJig_lasts h
  · refine .ite (.ite (askClamps_lasts (.frame h rfl)) (.frame h rfl)) ?_
    split
    · exact trapJig_lasts h
    · exact transfer_lasts (applyFields_lasts h)

theorem waitCycle_lasts {ch w : Nat} {done : Bool} {p : JigIn} (h : Lasts s₀ s) : Lasts s₀ (waitCycle ch w done p s) := by
  refine .ite (.frame h rfl) ?_
  split
  · exact trapJig_lasts h
  · exact transfer_lasts h

theorem jigCycle_lasts {ch : Nat} {p : JigIn} (h : Lasts s₀ s) : Lasts s₀ (jigCycle ch p s) :=
  .ite (haltJig_lasts (.frame h rfl)) (.ite (machineCheck_lasts (upsetWord_lasts (.frame h rfl)))
    (.ite (waitCycle_lasts (upsetWord_lasts (.frame h rfl))) (firstCycle_lasts (upsetWord_lasts (.frame h rfl)))))

theorem jigWord_lasts {ch : Nat} {p : JigIn} (h : Lasts s₀ s) : Lasts s₀ (jigWord ch p s) :=
  .ite (jigCycle_lasts (phyRun_lasts h)) (phyRun_lasts h)

/-! ### Machine/Drawers.lean -/

theorem placeJob_lasts {ch : Nat} {j : Job} (h : Lasts s₀ s) : Lasts s₀ (placeJob ch j s) :=
  .frame (.frame (.after (resolveFeats_quiet (.refl _)) h) rfl) rfl

theorem execDrawerPlace_lasts {ch : Nat} (h : Lasts s₀ s) : LastsOut s₀ (execDrawerPlace ch s) := by
  refine .checked ?_
  split
  · exact .ite h (.ite (placeJob_lasts (.frame h rfl)) (.frame h rfl))
  · exact h

theorem restartJig_lasts {ch : Nat} (h : Lasts s₀ s) : Lasts s₀ (restartJig ch s) :=
  .ite (.frame (.frame h rfl) rfl) (.frame (.frame h rfl) rfl)

theorem fenceChannel_lasts {ch : Nat} (h : Lasts s₀ s) : Lasts s₀ (fenceChannel ch s) :=
  .foldl (fun _ _ ht => .after (failHeld_quiet (.refl _)) ht)
    (.foldl (fun _ _ ht => .after (lunDown_quiet (.refl _)) ht) (.frame h rfl))

theorem execStatusCapture_lasts {ch : Nat} {b : Byte} (h : Lasts s₀ s) : LastsOut s₀ (execStatusCapture ch b s) := by
  refine .checked ?_
  split
  · exact .ite (.frame h rfl) h
  · exact h

theorem storeRead_lasts {v : Word} (h : Lasts s₀ s) : Lasts s₀ (storeRead v s) :=
  .ite (machineCheck_lasts (.frame h rfl)) (.frame h rfl)

/-! ### Machine/Media.lean -/

theorem execBind_lasts {eid : Nat} (h : Lasts s₀ s) : LastsOut s₀ (execBind eid s) := by
  refine .next ?_
  refine .after (s := s) ?_ h
  refine dispatch_quiet (fun hu => ?_) (.refl _)
  split
  · exact .frame hu rfl
  · exact reserveBind_quiet hu

theorem execBindReserve_lasts (h : Lasts s₀ s) : LastsOut s₀ (execBindReserve s) := by
  refine .next ?_
  split
  · exact .after (serveBind_quiet (.refl _)) h
  · exact h

theorem execBindWaitEvent_lasts {eid : Nat} (h : Lasts s₀ s) : LastsOut s₀ (execBindWaitEvent eid s) := by
  refine .next ?_
  split
  · exact .ite (.after (raise_quiet (by omega) (.refl _)) (.frame (.frame h rfl) rfl)) h
  · exact h

theorem execFeedRun_lasts {head beats : Nat} (h : Lasts s₀ s) : LastsOut s₀ (execFeedRun head beats s) := by
  refine .checked ?_
  split
  · split
    · refine .ite (.after (unitData_quiet (.refl _)) h) ?_
      extract_lets +onlyGivenNames _ _ _ s₁
      have hs₁ : Lasts s₀ s₁ := .after (mediaBeats_quiet (.refl _))
        (.ite (.after (mediaSend_quiet (unitData_quiet (.refl _))) h) (.after (unitData_quiet (.refl _)) h))
      exact .ite (.after (endRun_quiet (.refl _)) hs₁) (.frame (.frame hs₁ rfl) rfl)
    · exact h
  · exact h

theorem execPassJudge_lasts {head : Nat} {samples : List Byte} (h : Lasts s₀ s) :
    LastsOut s₀ (execPassJudge head samples s) := by
  refine .checked ?_
  split
  · exact h
  · exact .after (serveQueue_quiet (endPass_quiet (.refl _))) h

theorem execAccumOpen_lasts {eid : Nat} {param : HostRead} (h : Lasts s₀ s) : LastsOut s₀ (execAccumOpen eid param s) := by
  refine .next ?_
  refine .after (s := s) ?_ h
  refine dispatch_quiet (fun hu => ?_) (.refl _)
  refine .ite (.frame hu rfl) ?_
  split
  · exact .frame (.frame hu rfl) rfl
  · exact tellAccums_quiet (.frame (.frame (.frame (.frame hu rfl) rfl) rfl) rfl)

/-! ### Machine/Channels.lean -/

theorem execRetrainSearchEnd_lasts {ch : Nat} {r : SearchResult} {targets : List TargetIn} (h : Lasts s₀ s) :
    LastsOut s₀ (execRetrainSearchEnd ch r targets s) := by
  refine .checked ?_
  refine .ite h ?_
  extract_lets +onlyGivenNames s₁
  have hs₁ : Lasts s₀ s₁ := .after (withdraw_quiet (.refl _)) h
  exact .ite (.ite (.frame hs₁ rfl) (.after (trainJob_quiet (.refl _)) (.frame hs₁ rfl))) (.after (badSearch_quiet
      (.refl _)) hs₁)

/-! ### Machine/Recovery.lean -/

theorem scanGroup_lasts {i : RecoveryIn} {bs : List BlockSeen} {g : Nat} (h : Lasts s₀ s) :
    Lasts s₀ (scanGroup i bs s g) := by
  unfold scanGroup
  dsimp only
  split
  · exact h
  · refine .frame ?_ rfl
    refine .foldl (fun _ _ ht => ?_) (.frame (.after (scanMembers_quiet (.refl _)) h) rfl)
    split
    · exact .ite (.frame ht rfl) (.after (listShort_quiet (.refl _)) (.frame ht rfl))
    · exact .frame (.after (resolveRow_quiet (scanLosses_quiet (.refl _))) ht) rfl

theorem sealScan_lasts {i : RecoveryIn} (h : Lasts s₀ s) : Lasts s₀ (sealScan i s) := by
  unfold sealScan
  have hfenced : Lasts s₀ (setConds (fun m => { m with fenceJournal := true }) s) :=
    setConds_lasts (fun _ => id) (fun _ => id) h
  extract_lets +onlyGivenNames _ _ _ _ _ _ _ s₁
  have hs₁ : Lasts s₀ s₁ := .after (scanSources_quiet (.refl _)) (.foldl (fun _ _ ht => scanGroup_lasts ht)
      (.frame hfenced rfl))
  exact .after (journalEvent_quiet (newJournal_quiet (.refl _)))
    (.ite (.frame hs₁ rfl) (.after (eraseSector_quiet (.refl _)) (.frame hs₁ rfl)))

theorem nextBlock_lasts {last jseq : Nat} (h : Lasts s₀ s) : Lasts s₀ (nextBlock last jseq s) :=
  .after (eraseRing_quiet (.refl _)) (.frame h rfl)

theorem replayRun_lasts {i : RecoveryIn} {pages : List (List Byte)} {last : Nat} (h : Lasts s₀ s) :
    Lasts s₀ (replayRun i pages last s) := by
  unfold replayRun
  extract_lets +onlyGivenNames _ _ _ _ _ _ s₁
  have hs₁ : Lasts s₀ s₁ := .foldl (fun _ _ ht => .after (replayRec_quiet (.refl _)) ht) (.frame (.frame
      (.frame h rfl) rfl) rfl)
  exact .ite (sealScan_lasts h) (.ite (.after (journalEvent_quiet (writeWindow_quiet (.refl _)))
    (.frame (.frame (.frame hs₁ rfl) rfl) rfl)) (.after (resumeServices_quiet (writeWindow_quiet (.refl _)))
    (.frame (.frame (.after (resolveRows_quiet (.refl _)) (nextBlock_lasts (.frame hs₁ rfl))) rfl) rfl)))

theorem recoverJournal_lasts {i : RecoveryIn} (h : Lasts s₀ s) : Lasts s₀ (recoverJournal i s) := by
  unfold recoverJournal
  extract_lets +onlyGivenNames _ s₁
  have hs₁ : Lasts s₀ s₁ := .ite (grantForecast_lasts h) h
  refine .ite ?_ hs₁
  refine .after (initialTruing_quiet (.refl _)) ?_
  refine .ite (sealScan_lasts (.frame hs₁ rfl)) ?_
  split
  · exact replayRun_lasts (.frame hs₁ rfl)
  · exact sealScan_lasts (.frame hs₁ rfl)

/-! ### Machine/Flush.lean -/

theorem suspendErases_lasts (h : Lasts s₀ s) : Lasts s₀ (suspendErases s) := .foldl (fun _ _ ht => .frame ht rfl) h

theorem stageOne_lasts (h : Lasts s₀ s) : Lasts s₀ (stageOne s) := .ite (.frame h rfl) h

theorem stageTwo_lasts (h : Lasts s₀ s) : Lasts s₀ (stageTwo s) :=
  .ite h (setConds_lasts (fun _ => id) (fun _ => id) (suspendErases_lasts (.frame h rfl)))

theorem stagesEnd_lasts (h : Lasts s₀ s) : Lasts s₀ (stagesEnd s) :=
  .ite (.after (powerEvent_quiet (.refl _)) (setConds_lasts (fun _ => id) (fun _ => id) (.frame h rfl))) (.frame h rfl)

theorem flushBegins_lasts (h : Lasts s₀ s) : Lasts s₀ (flushBegins s) :=
  .after (closeFilling_quiet (stopServices_quiet (.refl _))) (.frame
    (.after (withdraw_quiet (.refl _)) (suspendErases_lasts
    (.after (endWithdrawn_quiet (cutReleases_quiet (.refl _)))
    (.foldl (fun _ _ ht => .after (abortEntry_quiet (.refl _)) ht) h)))) rfl)

theorem powerFails_lasts (h : Lasts s₀ s) : Lasts s₀ (powerFails s) := by
  unfold powerFails
  split
  · exact h
  · extract_lets +onlyGivenNames old pins power s₁ s₂
    have hs₁ : Lasts s₀ s₁ := .frame h rfl
    have hheld : Lasts s₀ (setConds (fun m => { m with holdup := true, stbyRequested := false }) s₁) :=
      setConds_lasts (fun _ _ => rfl) (fun _ => id) hs₁
    have hs₂ : Lasts s₀ s₂ := .after (cabHoldup_quiet (.refl _)) (.frame hheld rfl)
    clear_value old s₂
    split
    · exact .after (retireAll_quiet (.refl _)) hs₂
    · exact .after (retireAll_quiet (.refl _)) hs₂
    · exact hs₂
    · exact .after (stopServices_quiet (.refl _)) hs₂
    · exact flushBegins_lasts hs₂

theorem latchSets_lasts (h : Lasts s₀ s) : Lasts s₀ (latchSets s) := by
  unfold latchSets
  split
  · exact h
  · extract_lets +onlyGivenNames held s₁ s₂ power s₃ s₄ s₅ s₆ s₇ s₈
    have hs₁ : Lasts s₀ s₁ := .ite (.frame h rfl) h
    have hs₂ : Lasts s₀ s₂ := .after (thermalEvent_quiet (.refl _)) (setConds_lasts (fun _ => id) (fun _ _ => rfl) hs₁)
    have hs₃ : Lasts s₀ s₃ := .frame hs₂ rfl
    have hs₄ : Lasts s₀ s₄ := .after (.foldl (fun _ _ ht => abortEntry_quiet ht) (.refl _)) hs₃
    have hs₆ : Lasts s₀ s₆ := .after (endWithdrawn_quiet (cutErases_quiet (.refl _))) hs₄
    have hs₇ : Lasts s₀ s₇ := .frame (.after (withdraw_quiet (.refl _)) (suspendErases_lasts hs₆)) rfl
    have hs₈ : Lasts s₀ s₈ := .after (.foldl (fun _ _ ht => cutWrite_quiet ht) (.refl _)) hs₇
    exact .ite hs₃ (.after (stopServices_quiet (.foldl (fun _ _ ht => cutUnread_quiet ht) (.refl _))) hs₈)

theorem abandonOps_lasts (h : Lasts s₀ s) : Lasts s₀ (abandonOps s) :=
  .after (placePageAgain_quiet (.refl _)) (.frame (.frame (.frame
    (.foldl (fun _ _ ht => .frame (.frame (.after (abandonJob_quiet (.refl _)) ht) rfl) rfl) h) rfl) rfl) rfl)

theorem setFenced_lasts (h : Lasts s₀ s) : Lasts s₀ (setFenced s) := setConds_lasts (fun _ => id) (fun _ => id) (.frame h rfl)

theorem loseLead_lasts (h : Lasts s₀ s) : Lasts s₀ (loseLead s) := by
  refine .ite ?_ h
  extract_lets +onlyGivenNames s₁
  have hs₁ : Lasts s₀ s₁ := setConds_lasts (fun _ => id) (fun _ => id) h
  exact .after (.foldl (fun _ _ hq => cutWrite_quiet hq) (cutJobs_quiet (.foldl (fun _ _ hq => abortEntry_quiet hq)
    (cascadeEvent_quiet (endRows_quiet (.refl _)))))) (.frame hs₁ rfl)

/-! ### Machine/Settle.lean -/

theorem execJournalPageDurable_lasts (h : Lasts s₀ s) : LastsOut s₀ (execJournalPageDurable s) := by
  refine .next ?_
  split
  · exact .ite (.after (settle_quiet (.refl _)) (.foldl (fun _ _ ht => .after (logRecord_quiet (.refl _)) ht)
      (pageDurable_lasts h))) h
  · exact h

theorem execHostReadDone_lasts {tag : Nat} {x2 : HostRead} (h : Lasts s₀ s) : LastsOut s₀ (execHostReadDone tag x2 s) := by
  refine .next ?_
  extract_lets +onlyGivenNames _ _
  split
  · split
    · split
      · exact .after (settle_quiet (writeFetchFailed_quiet (.refl _))) (.frame h rfl)
      · exact .frame h rfl
    · exact .after (settle_quiet (remoteArrived_quiet (.refl _))) (.frame h rfl)
    · exact .after (settle_quiet (doseArrived_quiet (.refl _))) (.frame h rfl)
    · exact .frame (.frame h rfl) rfl
    · exact .after (settle_quiet (serveQueue_quiet (.refl _))) (.frame (.frame h rfl) rfl)
    · exact .after (snapArrived_quiet (.refl _)) (.frame h rfl)
    · exact .frame (.frame h rfl) rfl
    · exact .frame (.frame h rfl) rfl
    · exact .frame h rfl
  · exact h

theorem windowAcked_lasts {off : Nat} {bs : List Byte} {err : Bool} (h : Lasts s₀ s) :
    Lasts s₀ (windowAcked off bs err s) := by
  unfold windowAcked
  extract_lets +onlyGivenNames key
  split
  · extract_lets +onlyGivenNames held first _ s₁
    have hs₁ : Lasts s₀ s₁ := .after (pumpWindow_quiet (.refl _)) (.frame h rfl)
    exact .ite (.after (journalEvent_quiet (.refl _)) (setConds_lasts (fun _ => id) (fun _ => id) hs₁)) hs₁
  · extract_lets +onlyGivenNames _ s₁
    have hs₁ : Lasts s₀ s₁ := .after (pumpWindow_quiet (.refl _)) (.frame h rfl)
    exact .ite (.after (journalEvent_quiet (.refl _)) (setConds_lasts (fun _ => id) (fun _ => id) (.frame hs₁ rfl))) hs₁

theorem writeAcked_lasts {r : HostReq} {err : Bool} (h : Lasts s₀ s) : Lasts s₀ (writeAcked r err s) := by
  unfold writeAcked
  split
  · exact .after (dataAcked_quiet (.refl _)) (.ite (.frame h rfl) h)
  · exact .ite (.after (complFailed_quiet (.refl _)) h) (complAcked_lasts h)
  · exact .ite (.after (complFailed_quiet (.refl _)) h) (complAcked_lasts h)
  · exact .after (recordAcked_quiet (.refl _)) h
  · exact .ite (.frame h rfl) h
  · exact windowAcked_lasts h
  · exact .after (reportAcked_quiet (.refl _)) h
  · exact .ite (.frame h rfl) h
  · exact h
  · exact h
  · exact h
  · exact h
  · exact h
  · exact h

theorem execHostWriteAck_lasts {tag : Nat} {err : Bool} (h : Lasts s₀ s) : LastsOut s₀ (execHostWriteAck tag err s) := by
  refine .next ?_
  split
  · exact .after (settle_quiet (.refl _)) (writeAcked_lasts (.frame h rfl))
  · exact h

/-! ### Machine/Window.lean -/

theorem execDirCacheMiss_lasts {group : Nat} {r : HostRead} (h : Lasts s₀ s) : LastsOut s₀ (execDirCacheMiss group r s) := by
  refine .next ?_
  refine .ite ?_ h
  split
  · exact .frame (.frame (.frame h rfl) rfl) rfl
  · exact .frame (.after (takeDirEntry_quiet (.refl _)) (.frame (.frame h rfl) rfl)) rfl

/-! ### Machine/Cascade.lean -/

theorem execLinkDown_lasts {port : Side} (h : Lasts s₀ s) : LastsOut s₀ (execLinkDown port s) := by
  refine .next ?_
  refine .ite ?_ h
  extract_lets +onlyGivenNames s₁
  have hs₁ : Lasts s₀ s₁ := .after (modPort_quiet (.refl _)) h
  refine .after (cascadeFires_quiet (.refl _)) ?_
  split <;> exact .frame hs₁ rfl

theorem execFlitRefused_lasts {r : FlitRefusal} (h : Lasts s₀ s) : LastsOut s₀ (execFlitRefused r s) := by
  refine .next ?_
  split
  · exact h
  · exact .ite h (.after (modPort_quiet (.refl _)) (.frame h rfl))

theorem fenceIdentity_lasts {cause : Nat} (h : Lasts s₀ s) : Lasts s₀ (fenceIdentity cause s) :=
  .ite h (.after (cascadeEvent_quiet (endTrain_quiet (.refl _))) (setFenced_lasts (.frame (loseLead_lasts h) rfl)))

theorem electionStep_lasts (h : Lasts s₀ s) : Lasts s₀ (electionStep s) :=
  .ite (.frame h rfl) (.after (endTrain_quiet (.refl _)) (setFenced_lasts (.frame h rfl)))

theorem startElection_lasts (h : Lasts s₀ s) : Lasts s₀ (startElection s) :=
  .ite (electionStep_lasts (.after (cascadeFires_quiet (.refl _)) (.frame h rfl))) h

theorem takeOver_lasts (h : Lasts s₀ s) : Lasts s₀ (takeOver s) := .frame (.frame h rfl) rfl

theorem winElection_lasts (h : Lasts s₀ s) : Lasts s₀ (winElection s) := by
  unfold winElection
  extract_lets +onlyGivenNames _ _ _ _ _ s₁
  have hs₁ : Lasts s₀ s₁ := .after (cascadeEvent_quiet (cascadeFires_quiet (dvSend_quiet (.refl _))))
    (setConds_lasts (fun _ => id) (fun _ => id) (.frame h rfl))
  exact .ite (.after (pendingGrant_quiet (beginRecovery_quiet (.refl _))) hs₁)
    (takeOver_lasts (.after (dropRemotes_quiet (.refl _)) hs₁))

theorem checkElected_lasts (h : Lasts s₀ s) : Lasts s₀ (checkElected s) := .ite (winElection_lasts h) h

theorem execClaim_lasts {term : Word} {die : BitVec 3} {view : Byte} (h : Lasts s₀ s) :
    LastsOut s₀ (execClaim term die view s) := by
  refine .next ?_
  refine .ite h ?_
  extract_lets +onlyGivenNames _ s₁
  have hs₁ : Lasts s₀ s₁ := .after (raiseTerm_quiet (.refl _)) h
  refine .ite hs₁ ?_
  extract_lets +onlyGivenNames _ _ _ s₂
  have hs₂ : Lasts s₀ s₂ := .ite (.frame hs₁ rfl) hs₁
  exact .ite (.after (settle_quiet (dvSend_quiet (saveTerm_quiet (.refl _)))) (.frame (.ite
      (loseLead_lasts hs₂) hs₂) rfl)) hs₂

theorem execGrant_lasts {term : Word} {die : BitVec 3} (h : Lasts s₀ s) : LastsOut s₀ (execGrant term die s) := by
  refine .next ?_
  refine .ite h ?_
  extract_lets +onlyGivenNames s₁
  have hs₁ : Lasts s₀ s₁ := .after (raiseTerm_quiet (.refl _)) h
  exact .ite (.after (settle_quiet (.refl _)) (checkElected_lasts (.frame hs₁ rfl))) hs₁

theorem countRing_lasts {whole : Bool} (h : Lasts s₀ s) : Lasts s₀ (countRing whole s) := by
  unfold countRing
  extract_lets +onlyGivenNames n
  split
  · extract_lets +onlyGivenNames v _ _ s₁
    have hs₁ : Lasts s₀ s₁ := .after (saveRecord_quiet (.refl _)) (.frame h rfl)
    exact .ite (fenceIdentity_lasts hs₁) hs₁
  · exact h

theorem checkLead_lasts (h : Lasts s₀ s) : Lasts s₀ (checkLead s) := .ite (loseLead_lasts h) h

theorem execPresenceTimeout_lasts {die : BitVec 3} (h : Lasts s₀ s) : LastsOut s₀ (execPresenceTimeout die s) := by
  refine .next ?_
  refine .ite ?_ h
  extract_lets +onlyGivenNames _ _ s₁
  have hs₁ : Lasts s₀ s₁ := checkLead_lasts (.frame (.frame h rfl) rfl)
  exact .after (settle_quiet (pendingGrant_quiet (.refl _))) (checkElected_lasts
    (.after (accumLeft_quiet (.refl _)) (.ite (.after (endUnreachable_quiet (.refl _)) hs₁) (.ite (.frame hs₁ rfl) hs₁))))

theorem execPresenceSend_lasts (h : Lasts s₀ s) : LastsOut s₀ (execPresenceSend s) := by
  refine .next ?_
  refine .ite h ?_
  extract_lets +onlyGivenNames _ s₁
  have hs₁ : Lasts s₀ s₁ := .after (dvSend_quiet (.refl _)) h
  refine .ite ?_ hs₁
  extract_lets +onlyGivenNames _ _ s₂
  have hs₂ : Lasts s₀ s₂ := .after (countJoining_quiet (.refl _)) (.frame (.after (dvSend_quiet (.refl _)) hs₁) rfl)
  exact .after (settle_quiet (.refl _)) (.ite (takeOver_lasts hs₂) hs₂)

theorem becomeFollower_lasts (h : Lasts s₀ s) : Lasts s₀ (becomeFollower s) :=
  .after (endTrain_quiet (.refl _)) (setConds_lasts (fun _ => id) (fun _ => id) (.frame h rfl))

theorem noteHeartbeat_lasts {die : BitVec 3} {seq : Word} {inTime : Bool} (h : Lasts s₀ s) :
    Lasts s₀ (noteHeartbeat die seq inTime s) := by
  unfold noteHeartbeat
  extract_lets +onlyGivenNames _ _ s₁
  have hs₁ : Lasts s₀ s₁ := .ite (.after (leaveLeader_quiet (.refl _)) h) h
  exact .ite (.after (sendCopy_quiet (.refl _)) (.frame hs₁ rfl)) (.frame hs₁ rfl)

theorem execHeartbeat_lasts {term : Word} {die : BitVec 3} {seq : Word} {view : Byte} {inTime : Bool} (h : Lasts s₀ s) :
    LastsOut s₀ (execHeartbeat term die seq view inTime s) := by
  refine .next ?_
  refine .ite h ?_
  extract_lets +onlyGivenNames s₁
  have hs₁ : Lasts s₀ s₁ := .ite (loseLead_lasts (.after (raiseTerm_quiet (.refl _)) h)) h
  refine .ite (.after (settle_quiet (.refl _)) hs₁) ?_
  extract_lets +onlyGivenNames _ _ s₂
  have hs₂ : Lasts s₀ s₂ := .ite (.after (cascadeFires_quiet (.refl _)) (noteHeartbeat_lasts hs₁)) (noteHeartbeat_lasts hs₁)
  exact .after (settle_quiet (.refl _)) (.ite (.ite (becomeFollower_lasts hs₂) hs₂) (.ite hs₂ (becomeFollower_lasts hs₂)))

theorem loseLeader_lasts (h : Lasts s₀ s) : Lasts s₀ (loseLeader s) :=
  startElection_lasts (.frame (.after (leaveLeader_quiet (.refl _)) h) rfl)

theorem execJob_lasts {w : RemoteIn} (h : Lasts s₀ s) : LastsOut s₀ (execJob w s) := by
  refine .next ?_
  refine .ite h ?_
  split
  · exact .ite (.after (settle_quiet (accumJob_quiet (.refl _))) h) h
  · exact .ite (.ite (.after (settle_quiet (goRemote_quiet (.refl _))) h) h)
      (.ite (.after (settle_quiet (joinRemote_quiet (.refl _))) h) h)

theorem execCodeword_lasts {dest : CwTo} {job cw : Nat} {data : List Byte} (h : Lasts s₀ s) :
    LastsOut s₀ (execCodeword dest job cw data s) := by
  refine .next ?_
  refine .ite h ?_
  split
  · exact .ite h (.frame h rfl)
  · split
    · exact .ite (.after (settle_quiet (landCw_quiet (landLabel_quiet (.refl _)))) h) h
    · exact h
  · exact .after (settle_quiet (.refl _)) (.frame h rfl)

theorem execDirectory_lasts {grant : Option (BitVec 64 × Nat)} {entries : List (Nat × List Byte)} (h : Lasts s₀ s) :
    LastsOut s₀ (execDirectory grant entries s) := by
  refine .next ?_
  refine .ite ?_ h
  refine .foldl (fun _ _ ht => .ite ht (.frame ht rfl)) ?_
  split
  · exact .after (layWindow_quiet (takeWindow_quiet (.refl _))) (.frame h rfl)
  · exact h

/-! ### Machine/Images.lean -/

theorem bootRefusal_lasts {place reason : Nat} (h : Lasts s₀ s) : Lasts s₀ (bootRefusal place reason s) :=
  .ite (.frame h rfl) (.after (logRecord_quiet (.refl _)) h)

theorem tryFirmware_lasts {places : List Nat} (h : Lasts s₀ s) : Lasts s₀ (tryFirmware places s).2 := by
  induction places generalizing s with
  | nil => exact h
  | cons place places ih =>
    unfold tryFirmware
    split
    · exact .after (sramWrite_quiet (.refl _)) (.frame h rfl)
    · exact ih (bootRefusal_lasts h)

theorem bootFirmware_lasts (h : Lasts s₀ s) : Lasts s₀ (bootFirmware s).2 := by
  unfold bootFirmware
  split
  · exact bootRefusal_lasts h
  · exact tryFirmware_lasts h

theorem bootPatch_lasts (h : Lasts s₀ s) : Lasts s₀ (bootPatch s) := by
  refine .ite h ?_
  split
  · exact .frame h rfl
  · exact .after (configEvent_quiet (.refl _)) (bootRefusal_lasts h)

theorem bootCustomer_lasts (h : Lasts s₀ s) : Lasts s₀ (bootCustomer s) := by
  refine .ite h ?_
  split
  · exact .frame h rfl
  · exact .after (configEvent_quiet (.refl _)) (bootRefusal_lasts h)

/-! ### Machine/Dict.lean -/

theorem actOn_lasts {client idx sub : Nat} {v : List Byte} (h : Lasts s₀ s) : Lasts s₀ (actOn client idx sub v s).2 := by
  unfold actOn
  extract_lets +onlyGivenNames n
  split
  · exact .frame h rfl
  · exact .after (imgSelect_quiet (.refl s)) h
  · exact .after (imgErase_quiet (.refl s)) h
  · exact .after (imgCheck_quiet (.refl s)) h
  · exact .after (authAsk_quiet (.refl s)) h
  · exact .after (modSession_quiet (.refl s)) h
  · exact .after (authSign_quiet (.refl s)) h
  · exact .ite (.after (modSession_quiet (.refl s)) h) h
  · exact .frame h rfl
  · split
    · exact .after (saveDefaults_quiet (.refl s)) h
    · exact h
  · exact .frame h rfl
  · exact .frame h rfl
  · dsimp only
    exact .after (writeWall_quiet (.refl s)) h
  · exact .after (candidateWritten_quiet (.refl s)) h
  · exact .after (patrolUpdate_quiet (.refl s)) h
  · exact .after (lunDown_quiet (.refl s)) h
  · exact .after (retireMember_quiet (.refl s)) h
  · exact .after (clearLedger_quiet (.refl s)) h
  · exact .ite (.after (abandonRefit_quiet (.refl s)) h) h
  · exact .frame h rfl
  · exact .after (raiseFloor_quiet (.refl s)) h
  · exact .after (raiseFloor_quiet (.refl s)) h
  · exact .after (provisionKey_quiet (.refl s)) h
  · exact .after (programFactory_quiet (.refl s)) h
  · exact .after (writeCustomer_quiet (.refl s)) h
  · exact .frame h rfl
  · exact .frame h rfl
  · exact .after (writeFlip_quiet (.refl s)) h
  · exact .ite (.frame h rfl) h
  · split
    · exact .frame h rfl
    · split
      · exact .frame h rfl
      · exact h

theorem applyObject_lasts {client : Nat} {o : Obj} {idx sub : Nat} {v : List Byte} (h : Lasts s₀ s) :
    Lasts s₀ (applyObject client o idx sub v s).2 := by
  unfold applyObject
  split
  · exact h
  · exact actOn_lasts h

theorem commit_lasts {client : Nat} {o : Obj} {idx sub : Nat} {v : List Byte} (h : Lasts s₀ s) :
    Lasts s₀ (commit client o idx sub v s).2 := by
  have hkeep {u : State} (hu : Lasts s₀ u) {c : Prop} [Decidable c] :
      Lasts s₀ (if c then { u with dict := { u.dict with saved := putValue idx sub v u.dict.saved } } else u) :=
    .ite (.frame hu rfl) hu
  unfold commit
  extract_lets +onlyGivenNames c keep
  split
  · exact h
  · split
    · exact h
    · split
      · exact h
      · have hd : Lasts s₀ (applyObject client o idx sub v (if o.acc == .rws then keep s else s)).2 :=
          applyObject_lasts (hkeep h)
        generalize applyObject client o idx sub v (if o.acc == .rws then keep s else s) = d at hd ⊢
        obtain ⟨c, t⟩ := d
        dsimp only at hd ⊢
        split
        · exact .ite h hd
        · exact .ite (.after (saveRecord_quiet (.refl _)) (hkeep hd)) (hkeep hd)

theorem takeSegment_lasts {client : Nat} {o : Obj} {idx sub : Nat} {old : List Byte} {last : Bool} {data : List Byte}
    (h : Lasts s₀ s) : Lasts s₀ (takeSegment client o idx sub old last data s).2.2 := by
  unfold takeSegment
  split
  · exact .ite (.after (modSession_quiet (.refl _)) (commit_lasts (.after (modSession_quiet (.refl _)) h)))
      (commit_lasts (.after (modSession_quiet (.refl _)) h))
  · exact .after (modSession_quiet (.refl _)) h

theorem serveWrite_lasts {client idx sub off total cap : Nat} {last : Bool} {data : List Byte} (h : Lasts s₀ s) :
    Lasts s₀ (serveWrite client idx sub off total cap last data s).2.2 := by
  unfold serveWrite
  split
  · exact h
  · split
    · exact h
    · split
      · exact .after (modSession_quiet (.refl _)) h
      · split
        · exact .after (takeImage_quiet (.refl _)) h
        · split
          · exact takeSegment_lasts h
          · split
            · split
              · exact takeSegment_lasts h
              · split
                · exact .after (ackAgain_quiet (.refl _)) h
                · exact .after (outOfOrder_quiet (.refl _)) h
            · split
              · exact .after (ackAgain_quiet (.refl _)) h
              · exact .after (outOfOrder_quiet (.refl _)) h

theorem portRequest_lasts {v : Word} (h : Lasts s₀ s) : Lasts s₀ (portRequest v s) := by
  unfold portRequest
  extract_lets +onlyGivenNames _ _ _ _ s₁
  have hs₁ : Lasts s₀ s₁ := .after (useSession_quiet (.refl _)) (.frame h rfl)
  refine .ite (.after (portEnd_quiet (.refl _)) hs₁) ?_
  split
  · exact .after (portEnd_quiet (serveRead_quiet (.refl _))) hs₁
  · exact .ite (.after (portEnd_quiet (.refl _)) hs₁) (.after (portEnd_quiet (.refl _)) (serveWrite_lasts hs₁))
  · exact .after (portEnd_quiet (.refl _)) hs₁
  · exact .after (portEnd_quiet (.refl _)) hs₁

theorem portCommand_lasts {op : Nat} {v : Word} (h : Lasts s₀ s) : Lasts s₀ (portCommand op v s) :=
  .ite h (.ite (.frame h rfl) (portRequest_lasts h))

theorem canServe_lasts {f : List Byte} (h : Lasts s₀ s) : Lasts s₀ (canServe f s) := by
  refine .ite (.frame (.after (answerLost_quiet (.refl _)) h) rfl) ?_
  refine .ite (.frame (.after (answerLost_quiet (.refl _)) h) rfl) ?_
  split
  · exact .ite (.frame (.after (answerLost_quiet (.refl _)) h) rfl)
      (.frame (.after (serveRead_quiet (answerLost_quiet (.refl _))) h) rfl)
  · exact .ite (.frame (.after (answerLost_quiet (.refl _)) h) rfl)
      (.frame (serveWrite_lasts (.after (answerLost_quiet (.refl _)) h)) rfl)
  · exact .frame (.after (answerLost_quiet (.refl _)) h) rfl
  · exact .ite (.frame (.after (answerLost_quiet (.refl _)) h) rfl) (.frame (.frame (.after (answerLost_quiet
        (.refl _)) h) rfl) rfl)
  · exact .frame (.after (answerLost_quiet (.refl _)) h) rfl

theorem canCommand_lasts {cmd : Nat} {f : List Byte} (h : Lasts s₀ s) : Lasts s₀ (canCommand cmd f s) :=
  .ite h (.ite (.frame h rfl) (canServe_lasts h))

theorem execCanEventFrame_lasts (h : Lasts s₀ s) : LastsOut s₀ (execCanEventFrame s) := by
  refine .next ?_
  split
  · exact .ite (.frame (.frame h rfl) rfl) h
  · exact h

theorem objectWrite_lasts {client idx sub : Nat} {v : List Byte} (h : Lasts s₀ s) :
    Lasts s₀ (objectWrite client idx sub v s) :=
  .ite (.ite (.after (portEnd_quiet (.refl _)) (serveWrite_lasts (.after (useSession_quiet (.refl _)) h))) h)
    (.ite (.ite (.after (answerLost_quiet (.refl _)) h) (serveWrite_lasts (.after (answerLost_quiet (.refl _)) h))) h)

theorem execAuthChallenge_lasts {client : Nat} {random : List Byte} (h : Lasts s₀ s) :
    LastsOut s₀ (execAuthChallenge client random s) := by
  refine .next ?_
  refine .ite ?_ (.ite (.ite (.after (answerLost_quiet (.refl _)) h)
    (.after (modSession_quiet (drawChallenge_quiet (answerLost_quiet (.refl _)))) h)) h)
  refine .ite h ?_
  split
  · exact .after (portEnd_quiet (useSession_quiet (.refl _))) h
  · exact .after (portEnd_quiet (modSession_quiet (drawChallenge_quiet (useSession_quiet (.refl _))))) h

/-! ### Machine/Integrity.lean -/

theorem execMergeRetire_lasts {idx : Nat} (h : Lasts s₀ s) : LastsOut s₀ (execMergeRetire idx s) := by
  refine .checked ?_
  split
  · exact .after (settle_quiet (retire_quiet (.refl _))) h
  · exact h

/-! ### Machine/Interrupts.lean -/

theorem sourceLevel_lasts {id : Nat} {lvl : Bool} (h : Lasts s₀ s) : Lasts s₀ (sourceLevel id lvl s) :=
  .ite (.ite (.frame h rfl) (.frame (.frame h rfl) rfl)) (.after (evqLevels_quiet (.refl _)) h)

theorem softSetOne_lasts {who : Writer} {id : Nat} (h : Lasts s₀ s) : Lasts s₀ (softSetOne who id s) := by
  unfold softSetOne
  split
  · split
    · exact .after (raisePriv_quiet (by omega) (.refl _)) h
    · exact h
  · exact .frame h rfl

theorem writePset_lasts {who : Writer} {w : Nat} {v : Word} (h : Lasts s₀ s) : Lasts s₀ (writePset who w v s) :=
  .foldl (fun _ _ ht => softSetOne_lasts ht) h

theorem writePend_lasts {w : Nat} {v : Word} (h : Lasts s₀ s) : Lasts s₀ (writePend w v s) :=
  .foldl (fun _ _ ht => .frame ht rfl) h

theorem fireGroups_lasts {gs : List Nat} {t' : Nat} (h : Lasts s₀ s) : Lasts s₀ (fireGroups gs t' s) :=
  .after (notify_quiet (.refl _)) (.frame h rfl)

theorem tgtStatusBy_lasts {who : Writer} {t' : Nat} {v : Word} (h : Lasts s₀ s) : Lasts s₀ (tgtStatusBy who t' v s) :=
  .ite (mainCoreOnly_lasts (fun hu => .frame hu rfl) h) (.frame h rfl)

/-! ### Machine/Outage.lean -/

theorem execHoldupDone_lasts (h : Lasts s₀ s) : LastsOut s₀ (execHoldupDone s) := by
  have hsettle {u : State} (hu : Lasts s₀ u) : Lasts s₀ (settle u) := .after (settle_quiet (.refl _)) hu
  have hraise {u : State} (hu : Lasts s₀ u) : Lasts s₀ (raiseDone u) := hu.trans ⟨id, fun _ _ => rfl, id⟩
  exact .next (.ite (hsettle (hraise (hsettle h))) h)

theorem judgeWarn_lasts {t' : ℤ} (h : Lasts s₀ s) : Lasts s₀ (judgeWarn t' s) :=
  .ite (wake_lasts (.after (raise_quiet (by omega) (.refl _)) (.frame (.frame h rfl) rfl))) (.frame h rfl)

theorem judgeThrottle_lasts {t' : ℤ} (h : Lasts s₀ s) : Lasts s₀ (judgeThrottle t' s) :=
  .ite (.after (raise_quiet (by omega) (.refl _)) (.frame h rfl)) (.frame h rfl)

theorem judgeLatch_lasts {temp : Int} (h : Lasts s₀ s) : Lasts s₀ (judgeLatch temp s) :=
  .ite (.after (settle_quiet (.refl _)) (latchSets_lasts (.frame h rfl))) (.frame h rfl)

theorem judgeBoot_lasts {t' : ℤ} (h : Lasts s₀ s) : Lasts s₀ (judgeBoot t' s) := .ite (.frame h rfl) h

/-! ### Machine/Start.lean -/

/-- A warm reset does not touch HOLDUP, and keeps the latch (R59, R60). -/
theorem warmReset_lasts {cause : Modes → Modes} (hc : ∀ m, (cause m).quarantine = m.quarantine) (h : Lasts s₀ s) :
    Lasts s₀ (warmReset cause s) := by
  unfold warmReset
  split
  · exact h
  case isFalse hstart =>
    have hheld : s.modes.holdup ≠ true := by simp_all
    exact h.trans ⟨fun e => absurd e hheld, fun e => absurd e hheld, fun e => (hc _).trans e⟩

theorem requestStandby_lasts (h : Lasts s₀ s) : Lasts s₀ (requestStandby s) := by
  refine .frame h ?_
  dsimp only
  split <;> rfl

theorem writeModeCtrl_lasts {v : Word} (h : Lasts s₀ s) : Lasts s₀ (writeModeCtrl v s) :=
  .ite h (.ite (warmReset_lasts (fun _ => rfl) h) (.ite (requestStandby_lasts h) h))

theorem atStage_lasts {n : Nat} (h : Lasts s₀ s) : Lasts s₀ (atStage n s) := .frame h rfl

theorem redoErase_lasts {ok : Bool} (h : Lasts s₀ s) : Lasts s₀ (redoErase ok s) := by
  unfold redoErase
  dsimp only
  split
  · have hredone : Lasts s₀ { s with modes := { s.modes with eraseRedone := true } } := .frame h rfl
    exact .ite (.after (cabFault_quiet (.frame (eraseSector_quiet (.refl _)) rfl)) hredone)
      (.after (cabFault_quiet (eraseFails_quiet (.refl _))) hredone)
  · exact h

theorem bootLinks_lasts {b : BootIn} (h : Lasts s₀ s) : Lasts s₀ (bootLinks b s) :=
  .ite (.frame (.frame h rfl) rfl) (.ite (fenceIdentity_lasts (.frame (.frame h rfl) rfl))
    (.ite (fenceIdentity_lasts (.frame (.frame h rfl) rfl)) (.frame (.frame h rfl) rfl)))

theorem bootTemp_lasts {b : BootIn} (h : Lasts s₀ s) : Lasts s₀ (bootTemp b s) :=
  .ite (atStage_lasts (.frame (bootRefusal_lasts (.frame h rfl)) rfl)) (atStage_lasts (.frame h rfl))

theorem bootLoads_lasts {b : BootIn} (h : Lasts s₀ s) : Lasts s₀ (bootLoads b s) := by
  have hd : Lasts s₀ (bootFirmware (atStage 6 (redoErase b.redoOk (copyTrims s)))).2 :=
    bootFirmware_lasts (atStage_lasts (redoErase_lasts (.frame h rfl)))
  unfold bootLoads
  generalize bootFirmware (atStage 6 (redoErase b.redoOk (copyTrims s))) = d at hd ⊢
  obtain ⟨ok, u⟩ := d
  dsimp only at hd ⊢
  refine .ite ?_ (.frame (.frame hd rfl) rfl)
  have hrest : Lasts s₀ (loadStores (bootCustomer (bootPatch u))) := .frame (bootCustomer_lasts (bootPatch_lasts hd)) rfl
  have hcounted : Lasts s₀ (countStart (restoreSaved (loadStores (bootCustomer (bootPatch u))))) :=
    .after (countStart_quiet (restoreSaved_quiet (.refl _))) hrest
  have hvalues : Lasts s₀ (loadValues (countStart (restoreSaved (loadStores (bootCustomer (bootPatch u)))))) :=
    hcounted.trans ⟨id, fun _ => id, id⟩
  exact bootTemp_lasts (bootLinks_lasts hvalues)

theorem resumeLun_lasts {ch ce ty : Nat} {w : LunWait} (h : Lasts s₀ s) : Lasts s₀ (resumeLun ch ce ty s w) := by
  refine .ite h ?_
  extract_lets +onlyGivenNames _ _ s₁
  have hs₁ : Lasts s₀ s₁ := rackCycle_lasts (askClamps_lasts (.frame h rfl))
  extract_lets +onlyGivenNames _ _ s₂
  have hs₂ : Lasts s₀ s₂ := .frame (.frame (.frame hs₁ rfl) rfl) rfl
  exact .ite (.ite (.frame hs₂ rfl) (.frame (.frame hs₂ rfl) rfl)) (.after (suspectTarget_quiet (.refl _)) hs₂)

theorem findTarget_lasts {ch : Nat} {t' : TargetIn} (h : Lasts s₀ s) : Lasts s₀ (findTarget ch s t') :=
  .ite h (.frame (.frame (.after (resetTarget_quiet (.refl _)) (.foldl (fun _ _ ht => resumeLun_lasts ht)
      (.frame h rfl))) rfl) rfl)

theorem trainChan_lasts {ch : Nat} {ts : List TargetIn} (h : Lasts s₀ s) : Lasts s₀ (trainChan ch ts s) := by
  have hjig {g : Jig → Jig} {u : State} (hu : Lasts s₀ u) : Lasts s₀ (modJig ch g u) := .frame hu rfl
  unfold trainChan
  extract_lets +onlyGivenNames s₁ s₂ good types rates
  have hs₁ : Lasts s₀ s₁ := .frame (.after (dropMixed_quiet (.refl _)) h) rfl
  have hs₂ : Lasts s₀ s₂ := .foldl (fun _ _ ht => findTarget_lasts ht) hs₁
  generalize tryRates (channelMode ch s₂) s₂ rates 0 good = d
  obtain ⟨r, ok⟩ := d
  have htried : Lasts s₀ ((triedRates rates r).foldl (tryRate ch (good.map (·.ce))) s₂) :=
    .foldl (fun _ _ ht => .after (tryRate_quiet (.refl _)) ht) hs₂
  have hset {f : Chan → Chan} : Lasts s₀ (setTimings ch (ok.map (·.ce)) (setRate ch r (modChan ch f
      ((triedRates rates r).foldl (tryRate ch (good.map (·.ce))) s₂)))) :=
    .after (setTimings_quiet (.refl _)) (.frame (.frame htried rfl) rfl)
  exact .ite (.after (configEvent_quiet (.refl _)) (hjig hset)) (hjig hset)

theorem trainChannels_lasts {t' : List ChanTrainIn} (h : Lasts s₀ s) : Lasts s₀ (trainChannels t' s) :=
  .frame (.foldl (fun _ _ ht => .ite (trainChan_lasts ht) ht) (.after (checkTables_quiet (refuseTypes_quiet
      (.refl _))) h)) rfl

/-! ### Machine/Registers.lean -/

theorem clearReg_lasts {x1 : Nat} (h : Lasts s₀ s) : Lasts s₀ (clearReg x1 s) := by
  refine .ite (.frame h rfl) ?_
  refine .ite (.frame h rfl) ?_
  refine .ite ?_ (.ite (.frame h rfl) (.ite (.frame h rfl) (.ite (.frame h rfl)
    (.ite (.frame h rfl) (.ite (.frame h rfl) (.ite (.frame h rfl)
    (.ite (.frame h rfl) (.ite (.frame h rfl) (.ite (.frame h rfl)
    (.ite (.frame h rfl) (.ite (.frame h rfl) (.ite (.frame h rfl) (.ite (.frame h rfl) h)))))))))))))
  split
  · exact .frame h rfl
  · exact .frame h rfl
  · exact h

theorem execRegisterReadClear_lasts {who : Writer} {wide : Bool} {addr : Nat} (h : Lasts s₀ s) :
    LastsOut s₀ (execRegisterReadClear who wide addr s) := by
  have hsample {a : Nat} {u : State} (hu : Lasts s₀ u) : Lasts s₀ (sampleReg a u).2 :=
    .after (sampleReg_quiet (.refl _)) hu
  have hclear {a : Nat} {u : State} (hu : Lasts s₀ u) :
      Lasts s₀ (if wide then clearReg (a + 4) (clearReg a u) else clearReg a u) :=
    .ite (clearReg_lasts (clearReg_lasts hu)) (clearReg_lasts hu)
  refine .checked (.ite (.after (answerReg_quiet (.refl _)) (hclear ?_)) (.after (answerReg_quiet (.refl _)) h))
  cases wide with
  | true => exact hsample (hsample h)
  | false => exact hsample h

theorem writeGlobal_lasts {off : Nat} {v : Word} (h : Lasts s₀ s) : Lasts s₀ (writeGlobal off v s) := by
  unfold writeGlobal
  split
  · exact .frame h rfl
  · exact .frame h rfl
  · exact writeModeCtrl_lasts h
  · exact .frame h rfl
  · exact .frame h rfl
  · exact h

theorem writeDictReg_lasts {off : Nat} {v : Word} (h : Lasts s₀ s) : Lasts s₀ (writeDictReg off v s) := by
  refine .ite (.frame h rfl) ?_
  split
  · exact portRequest_lasts h
  · exact .frame h rfl
  · exact .frame h rfl
  · exact .frame h rfl
  · exact .frame h rfl
  · exact h
  · exact .frame h rfl

theorem writeRing_lasts {n off : Nat} {v : Word} {walk : List HostRead} (h : Lasts s₀ s) :
    Lasts s₀ (writeRing n off v walk s) := by
  unfold writeRing
  split
  · exact .ite (.frame h rfl) h
  · exact .ite (.frame h rfl) h
  · exact .ite (.frame h rfl) h
  · exact .after (writeRingCtrl_quiet (.refl _)) h
  · exact .after (doorbell_quiet (.refl _)) (wake_lasts h)
  · exact .ite (.frame h rfl) h
  · exact h

theorem writeIrqReg_lasts {who : Writer} {off : Nat} {v : Word} (h : Lasts s₀ s) : Lasts s₀ (writeIrqReg who off v s) :=
  .ite (.frame h rfl) (.ite (writePend_lasts h) (.ite (writePset_lasts h)
    (.ite (.frame h rfl) (.ite (.ite (.frame h rfl) (.frame h rfl)) h))))

theorem writeJigReg_lasts {who : Writer} {ch off : Nat} {v : Word} (h : Lasts s₀ s) :
    Lasts s₀ (writeJigReg who ch off v s) := by
  unfold writeJigReg
  extract_lets +onlyGivenNames _
  split
  · extract_lets +onlyGivenNames s₁
    have hs₁ : Lasts s₀ s₁ := .ite (.frame h rfl) h
    exact .ite (.frame hs₁ rfl) hs₁
  · exact .ite (.frame h rfl) h
  · exact .ite (.frame h rfl) h
  · exact h

theorem writeReg_lasts {who : Writer} {x2 : Nat} {v : Word} {walk : List HostRead} (h : Lasts s₀ s) :
    Lasts s₀ (writeReg who x2 v walk s) :=
  .ite (writeGlobal_lasts h) (.ite (writeDictReg_lasts h)
    (.ite (writeRing_lasts h) (.ite (writeIrqReg_lasts h)
    (.ite (.after (writeEvqReg_quiet (.refl _)) h) (.ite h (.ite (writeJigReg_lasts h)
    (.ite (.frame h rfl) (.ite (.frame h rfl) (.ite (.after (writeStripeReg_quiet (.refl _)) h)
    (.ite (.frame h rfl) (.ite (.after (writeFlip_quiet (.refl _)) h)
    (.ite (.frame h rfl) (.ite (storeRead_lasts h) h)))))))))))))

theorem writeRegs_lasts {who : Writer} {wide : Bool} {x3 : Nat} {v : BitVec 64} {walk : List HostRead} (h : Lasts s₀ s) :
    Lasts s₀ (writeRegs who wide x3 v walk s) :=
  .ite (writeReg_lasts h) (.ite (writeReg_lasts (writeReg_lasts h)) (writeReg_lasts (writeReg_lasts h)))

/-! ### The ends of housekeeping rounds, of reset and of BOOT -/

theorem bootBegins_lasts {b : BootIn} (h : Lasts s₀ s) : Lasts s₀ (bootBegins b s) := by
  obtain ⟨t, q, e⟩ := bootBegins_eq b s
  rw [e]
  exact atStage_lasts (.after q (.frame h rfl))

theorem execResetDeassert_lasts {b : BootIn} (h : Lasts s₀ s) : LastsOut s₀ (execResetDeassert b s) := by
  refine .next (.ite h ?_)
  extract_lets +onlyGivenNames want u
  have hu : Lasts s₀ u := bootBegins_lasts h
  refine .ite (.after (applyMode_quiet (.refl _) ⟨rfl, rfl⟩) (.frame hu rfl)) (.ite ?_
    (.ite (bootLoads_lasts (atStage_lasts hu)) (bootRefusal_lasts hu)))
  extract_lets +onlyGivenNames v
  have hv : Lasts s₀ v := .ite (.frame hu rfl) hu
  have hfactory : Lasts s₀ (setConds (fun m => { m with factory := true, boot := false }) (atStage 4 v)) :=
    setConds_lasts (fun _ => id) (fun _ => id) (.frame hv rfl)
  exact .frame hfactory rfl

theorem execTrainEntry_lasts {ins : List ChanTrainIn} (h : Lasts s₀ s) : LastsOut s₀ (execTrainEntry ins s) := by
  refine .next (.ite ?_ h)
  extract_lets +onlyGivenNames s₁ s₂
  have hs₂ : Lasts s₀ s₂ := trainChannels_lasts (atStage_lasts (setConds_lasts (fun _ => id) (fun _ => id) h))
  exact .after (settle_quiet (.refl _)) (.ite (.after (pendingGrant_quiet (beginRecovery_quiet (.refl _))) hs₂)
    (.ite (.after (endTrain_quiet (readAnchor_quiet (.refl _))) hs₂)
      (startElection_lasts (.after (readAnchor_quiet (.refl _)) hs₂))))



/-! ### Every command -/

/-- Every command but por_n. -/
theorem exec_lasts (c : Instr) (hc : c ≠ .porNAssert) (h : Lasts s₀ s) : LastsOut s₀ (exec c s) := by
  cases c with
  | porNAssert => exact absurd rfl hc
  | rstNAssert => exact .next (warmReset_lasts (fun _ => rfl) h)
  | resetDeassert _ => exact execResetDeassert_lasts h
  | trainEntry _ => exact execTrainEntry_lasts h
  | targetReadyTimeout _ _ => exact .checked (.ite (.after (suspectTarget_quiet (resetTarget_quiet (.refl _))) h) h)
  | softReset _ => exact .next (.ite (writeModeCtrl_lasts h) h)
  | enterStandby _ => exact .next (.ite (writeModeCtrl_lasts h) h)
  | standbyEntry _ => exact .next (.ite (.after (settle_quiet (patrolUpdate_quiet (tellStandby_quiet (.refl _))))
    (setConds_lasts (fun _ => id) (fun _ => id) (.after (saveClocks_quiet (.refl _)) (.frame h rfl)))) h)
  | stbyRefused => exact .next (.ite (.frame h rfl) h)
  | watchdog => exact .next (warmReset_lasts (fun _ => rfl) h)
  | aonTimerExpiry => exact .next (.ite h (wake_lasts (.after (raise_quiet (by omega) (.refl _)) h)))
  | ringEnable _ => exact .checked (.after (enableRing_quiet (.refl _)) h)
  | ringShutdown _ _ => exact .checked (.after (shutdownRing_quiet (.refl _)) h)
  | ringRestart _ => exact .checked (.after (restartRing_quiet (.refl _)) h)
  | ringDoorbell _ _ => exact .checked (.after (doorbell_quiet (.refl _)) (wake_lasts h))
  | ringFetch _ _ _ => exact execRingFetch_lasts h
  | entryCompletion _ => exact .next (.after (completeEntry_quiet (.refl _)) (.ite h (.after (settle_quiet (.refl _)) h)))
  | writeRow _ _ => exact execWriteRow_lasts h
  | read _ _ => exact execRead_lasts h
  | releaseGroup _ => exact .next (.after (dispatch_quiet (fun hu => .ite (.frame hu rfl)
    (.ite (.frame hu rfl) (.ite (.frame hu rfl) (.ite (.frame hu rfl)
    (.ite (.frame hu rfl) (.frame (addRec_quiet hu) rfl)))))) (.refl _)) h)
  | flush _ => exact execFlush_lasts h
  | bind _ => exact execBind_lasts h
  | bindReserve => exact execBindReserve_lasts h
  | bindWaitEvent _ => exact execBindWaitEvent_lasts h
  | unbindForce _ => exact .next (.after (dispatch_quiet (fun hu => .ite (.frame hu rfl) (.ite (.frame hu rfl)
        (reserveBind_quiet hu))) (.refl _)) h)
  | rawJig _ _ => exact execRawJig_lasts h
  | groupOpen _ => exact execGroupOpen_lasts h
  | groupClose _ => exact execGroupClose_lasts h
  | rebuildStart _ => exact execRebuildStart_lasts h
  | refitStart _ _ => exact execRefitStart_lasts h
  | patrolPause _ => exact .next (.after (patrolCtl_quiet (fun hu => .frame hu rfl) (.refl _)) h)
  | patrolResume _ => exact .next (.after (patrolCtl_quiet (fun hu => .frame hu rfl) (.refl _)) h)
  | patrolSetRate _ => exact .next (.after (patrolCtl_quiet (fun hu => .frame (.ite hu (saveRecord_quiet hu)) rfl)
        (.refl _)) h)
  | patrolNewLap _ => exact .next (.after (patrolCtl_quiet (fun hu => newLap_quiet hu) (.refl _)) h)
  | accumOpen _ _ => exact execAccumOpen_lasts h
  | accumDrainEnd => exact .next (.ite (.ite (.after (dvSend_quiet (.refl _)) (.frame h rfl)) (.after (openedAll_quiet
        (.refl _)) (.frame h rfl))) h)
  | accumReturn _ => exact .next (.after (dispatch_quiet (fun hu => .ite (.frame hu rfl)
    (serveQueue_quiet (.frame (returnedAll_quiet (tellAccums_quiet (.frame (closeFrags_quiet hu) rfl))) rfl))) (.refl _)) h)
  | nop _ => exact .next (.after (dispatch_quiet (fun hu => .frame hu rfl) (.refl _)) h)
  | hostReadDone _ _ => exact execHostReadDone_lasts h
  | hostWriteAck _ _ => exact execHostWriteAck_lasts h
  | writeDataArrival _ _ _ _ => exact execWriteDataArrival_lasts h
  | slotAssign _ => exact execSlotAssign_lasts h
  | slotWaitEvent _ => exact execSlotWaitEvent_lasts h
  | drawerPlace _ => exact execDrawerPlace_lasts h
  | clampGrant => exact .next (rackCycle_lasts h)
  | deferEvent _ => exact execDeferEvent_lasts h
  | xmChargeRelease _ => exact .checked (.ite h (.frame h rfl))
  | jigMicroword _ _ => exact .checked (.after (settle_quiet (.refl _)) (jigWord_lasts h))
  | mcClampRelease _ => exact .checked (.ite (.after (enterPadHold_quiet (.refl _)) (.frame (.frame
        (.frame h rfl) rfl) rfl)) h)
  | jigReload _ _ => exact .checked (.ite (.ite (restartJig_lasts h) (fenceChannel_lasts h)) h)
  | jigTimerExpiry _ => exact .checked (.frame h rfl)
  | statusCapture _ _ => exact execStatusCapture_lasts h
  | jigResume _ _ => exact .checked (mainCoreOnly_lasts (fun hu => .frame hu rfl) h)
  | jigStop _ _ => exact .checked (mainCoreOnly_lasts (fun hu => .frame hu rfl) h)
  | jsSel _ => exact .next (storeRead_lasts h)
  | codewordEncode _ _ => exact execCodewordEncode_lasts h
  | hardDecode _ _ _ _ => exact execHardDecode_lasts h
  | softDecode _ _ _ _ => exact .checked (.after (areaDecode_quiet (.refl _)) h)
  | fusionDecode _ _ _ _ => exact .checked (.after (areaDecode_quiet (.refl _)) h)
  | predictedThresholds _ => exact execPredictedThresholds_lasts h
  | truedThresholds _ => exact execTruedThresholds_lasts h
  | retryTable _ => exact execRetryTable_lasts h
  | softRead _ => exact .next (.after (senseStep_quiet (.refl _)) h)
  | fusion _ => exact .next (.after (senseStep_quiet (.refl _)) h)
  | reconstruction _ _ _ => exact execReconstruction_lasts h
  | truingIteration _ => exact .next (.after (settleRecovery_quiet (truingIteration_quiet (.refl _))) h)
  | truingAbandon _ => exact .next (.after (settleRecovery_quiet (truingAbandon_quiet (.refl _))) h)
  | wakeSweep => exact .next (.ite (.after (settleSweep_quiet (startSweep_quiet (.refl _))) h) h)
  | doseTick => exact .next (.ite (.foldl (fun _ _ ht => .after (tickChannel_quiet (.refl _)) ht) h) h)
  | doseSave => exact .next (.ite (.after (saveClocks_quiet (.refl _)) h) h)
  | wallClock _ => exact .next (.ite (.after (writeWall_quiet (.refl _)) h) h)
  | driftTrip _ _ => exact .checked (.after (driftMeasure_quiet (.refl _)) h)
  | retrainDue _ => exact .checked (.ite (.after (startRetrain_quiet (.refl _)) (.frame h rfl)) h)
  | retrainSearchEnd _ _ _ => exact execRetrainSearchEnd_lasts h
  | searchRestart _ => exact .checked (.ite (.after (startRetrain_quiet (.refl _)) (.frame h rfl)) h)
  | journalPageStart => exact execJournalPageStart_lasts h
  | journalPageDurable => exact execJournalPageDurable_lasts h
  | stripeWinGrant _ => exact .next (.after (writeGrant_quiet (.refl _)) h)
  | journalRecovery _ => exact .next (.after (settle_quiet (.refl _)) (recoverJournal_lasts h))
  | windowWriteRetry => exact .next (.foldl (fun _ _ ht => .ite ht (.frame ht rfl)) h)
  | windowReadRetry => exact .next (.foldl (fun _ _ ht => .frame ht rfl) (.foldl (fun _ _ ht => .frame ht rfl)
        (.frame h rfl)))
  | dirCacheMiss _ _ => exact execDirCacheMiss_lasts h
  | journalCandidates _ _ => exact .checked (.ite (.after (saveRecord_quiet (.refl _)) (.ite (.frame h rfl)
    (.after (candidateWritten_quiet (.refl _)) (.frame h rfl)))) h)
  | declareLunFailed _ => exact .next (.ite (.after (lunDown_quiet (.refl _)) h) h)
  | retireMember _ => exact .next (.ite (.after (retireMember_quiet (.refl _)) h) h)
  | ledgerClear _ => exact .next (.ite (.after (clearLedger_quiet (.refl _)) h) h)
  | rebuildRow _ => exact execRebuildRow_lasts h
  | patrolRow _ => exact execPatrolRow_lasts h
  | refitRow _ => exact execRefitRow_lasts h
  | refitAbort _ => exact .next (.ite (.after (abandonRefit_quiet (.refl _)) h) h)
  | attach _ => exact .next (.after (ofKind_quiet (.refl _)) h)
  | detach _ => exact .next (.after (ofKind_quiet (.refl _)) h)
  | feed _ => exact .next (.after (ofKind_quiet (.refl _)) h)
  | feedRun _ _ => exact execFeedRun_lasts h
  | verifyGood _ => exact .next (.after (ofKind_quiet (.refl _)) h)
  | verifyBad _ => exact .next (.after (ofKind_quiet (.refl _)) h)
  | fragOpen _ => exact .next (.after (ofKind_quiet (.refl _)) h)
  | pass _ => exact .next (.after (ofKind_quiet (.refl _)) h)
  | passJudge _ _ => exact execPassJudge_lasts h
  | fragRead _ => exact .next (.after (ofKind_quiet (.refl _)) h)
  | fragClose _ => exact .next (.after (ofKind_quiet (.refl _)) h)
  | mediaReservedMsg _ => exact .next (.ite h (.after (takeMessage_quiet (.refl _)) h))
  | forecast _ => exact .next (.ite (.ite (.frame (sbTake_lasts h) rfl) (placeForecast_lasts (sbTake_lasts h))) h)
  | revoke _ => exact .next (.ite (.frame (sbTake_lasts h) rfl) h)
  | mediaAbort _ => exact .next (.ite (.after (serveQueue_quiet (.refl _)) (.frame (.after (addRec_quiet (.refl _))
    (.foldl (fun _ _ ht => .after (abortHead_quiet (.refl _)) ht) (sbTake_lasts h))) rfl)) h)
  | sidebandIgnored _ => exact .next (.ite (.frame (sbTake_lasts h) rfl) h)
  | forecastExpiry => exact .next (.ite (.frame h rfl) h)
  | pwrFail => exact .next (.after (settle_quiet (.refl _)) (powerFails_lasts h))
  | holdupDone => exact execHoldupDone_lasts h
  | ovAlert => exact .next (.ite h (wake_lasts (stageOne_lasts (.frame h rfl))))
  | ovStage2 => exact .next (.ite (.after (settle_quiet (.refl _)) (stageTwo_lasts h)) h)
  | vm31Crossing => exact .next (.ite h (.after (settle_quiet (.refl _)) (stageTwo_lasts (.frame h rfl))))
  | ovClear => exact .next (.ite h (.after (settle_quiet (.refl _)) (stagesEnd_lasts h)))
  | droopTrip _ => exact .checked (.frame h rfl)
  | droopRestore => exact .next (.frame h rfl)
  | hkRoundEnd _ => exact .next (.ite h (.ite (judgeLatch_lasts (judgeThrottle_lasts (judgeWarn_lasts (judgeBoot_lasts
        (.frame h rfl)))))
    (.ite (.after (thermalEvent_quiet (.refl _)) (.frame h rfl)) (.frame h rfl))))
  | latchOpsTimeout => exact .next (.ite (.after (settle_quiet (.refl _)) (abandonOps_lasts h)) h)
  | linkDown _ => exact execLinkDown_lasts h
  | linkTrainRetry _ => exact .next h
  | flitRefused _ => exact execFlitRefused_lasts h
  | presence _ _ _ _ => exact .next (.ite h (.ite (.after (settle_quiet (.refl _)) (fenceIdentity_lasts h))
    (.after (settle_quiet (.refl _)) (checkLead_lasts (.frame
    (countRing_lasts (.frame (.after (raiseTerm_quiet (.refl _)) (.frame h rfl)) rfl)) rfl)))))
  | presenceSend => exact execPresenceSend_lasts h
  | claim _ _ _ => exact execClaim_lasts h
  | grant _ _ => exact execGrant_lasts h
  | heartbeat _ _ _ view _ => exact execHeartbeat_lasts (view := view) h
  | heartbeatMiss => exact .next (.ite (.ite (.after (settle_quiet (.refl _)) (loseLeader_lasts (.frame h rfl)))
        (.frame h rfl)) h)
  | electionBackoff => exact .next (.ite (.after (settle_quiet (.refl _)) (checkElected_lasts
    (.after (dvSend_quiet (saveTerm_quiet (.refl _))) (.frame h rfl)))) h)
  | electTimeout => exact .next (.ite (.after (settle_quiet (.refl _)) (electionStep_lasts h)) h)
  | job _ => exact execJob_lasts h
  | jobEnd _ _ _ _ _ => exact .next (.ite h (.ite (.after (settle_quiet (accumAnswered_quiet (.refl _))) h) (.after
        (settle_quiet (awayEnd_quiet (.refl _))) h)))
  | parity _ _ _ _ => exact .next (.ite h (.after (settle_quiet (.refl _)) (.ite (.after (dropPart_quiet (.refl _)) h)
        (.after (takePart_quiet (.refl _)) h))))
  | codeword _ _ _ _ => exact execCodeword_lasts h
  | record _ => exact .next (.ite h (.ite (.after (settle_quiet (.refl _)) (.frame
    (.foldl (fun _ _ ht => .after (takeRecord_quiet (.refl _)) ht) h) rfl))
    (.after (settle_quiet (.refl _)) (.frame h rfl))))
  | directory _ _ => exact execDirectory_lasts h
  | anchor _ => exact .next (.ite (.after (settle_quiet (pendingGrant_quiet (takeCopy_quiet (.refl _)))) (.frame h rfl)) h)
  | media _ _ => exact .next (.ite h (.ite (.ite (.after (settle_quiet (acceptMessage_quiet (.refl _))) (.frame h rfl)) h)
    (.ite (.after (flushAnswers_quiet (answerBack_quiet (.refl _))) h) h)))
  | wakeMsg _ => exact .next (.ite (.ite (setConds_lasts (fun _ => id) (fun _ => id) h) (wake_lasts h)) h)
  | dvReservedMsg _ => exact .next (.frame h rfl)
  | sourceEvent _ _ => exact .checked (sourceLevel_lasts h)
  | groupFire _ _ => exact .checked (.ite (.ite (fireGroups_lasts (.after (targetIdle_quiet (.refl _)) h)) (.after
        (targetIdle_quiet (.refl _)) h)) h)
  | holdoffExpiry _ => exact .checked (.frame h rfl)
  | irqPset _ _ _ => exact .checked (writePset_lasts h)
  | irqPendClear _ _ => exact .checked (writePend_lasts h)
  | signalledClear _ _ => exact .checked (tgtStatusBy_lasts h)
  | idleSet _ _ => exact .checked (tgtStatusBy_lasts h)
  | privilegedRaise _ _ => exact .checked (.ite (raisePriv_lasts h) h)
  | evqEnable _ => exact .next (.ite (.after (writeEvqCfg_quiet (.refl _)) h) h)
  | evqDisable _ => exact .next (.ite h (.after (writeEvqCfg_quiet (.refl _)) h))
  | evqCons _ => exact .next (.after (writeEvqCons_quiet (.refl _)) h)
  | logRecordCopy => exact execLogRecordCopy_lasts h
  | program _ _ _ _ _ _ => exact execProgram_lasts h
  | erase _ _ => exact execErase_lasts h
  | suspend _ => exact execSuspend_lasts h
  | resume _ => exact execResume_lasts h
  | status _ => exact execStatus_lasts h
  | count _ _ => exact execCount_lasts h
  | markProgram _ _ _ _ => exact execMarkProgram_lasts h
  | markLock _ => exact .next (asRoutine_lasts h (.frame h rfl))
  | cabinetOpEnd _ _ => exact execCabinetOpEnd_lasts h
  | dictRead _ => exact .next (portCommand_lasts h)
  | dictWrite _ => exact .next (portCommand_lasts h)
  | dictDescribe _ => exact .next (portCommand_lasts h)
  | canRead _ => exact .next (canCommand_lasts h)
  | canWrite _ => exact .next (canCommand_lasts h)
  | canDescribe _ => exact .next (canCommand_lasts h)
  | closeSession _ => exact .next (canCommand_lasts h)
  | canStatusFrame => exact .next (.ite (.frame (.frame h rfl) rfl) h)
  | canEventFrame => exact execCanEventFrame_lasts h
  | canSessionTimeout _ => exact .next (.frame h rfl)
  | dictTransferTimeout _ => exact .next (.after (modSession_quiet (.refl _)) h)
  | busOff => exact .next (.ite (.frame (.after (raise_quiet (by omega) (.refl _)) (.frame h rfl)) rfl) h)
  | busOffRecovery => exact .next (.ite (.after (raise_quiet (by omega) (.refl _)) (.frame h rfl)) h)
  | saveCompaction => exact .next (.ite (.after (compactNow_quiet (.refl _)) h) h)
  | authRequest _ _ => exact .next (objectWrite_lasts h)
  | authChallenge _ _ => exact execAuthChallenge_lasts h
  | authKey _ _ => exact .next (objectWrite_lasts h)
  | authSignature _ _ => exact .next (objectWrite_lasts h)
  | authDrop _ _ => exact .next (objectWrite_lasts h)
  | imageTarget _ _ => exact .next (objectWrite_lasts h)
  | imageLength _ _ => exact .next (objectWrite_lasts h)
  | imageData _ _ _ _ => exact .next (.ite (.ite (.after (portEnd_quiet (.refl _)) (serveWrite_lasts (.after
        (useSession_quiet (.refl _)) h))) h)
    (.ite (.ite (.after (answerLost_quiet (.refl _)) h) (serveWrite_lasts (.after (answerLost_quiet (.refl _)) h))) h))
  | imageCheck _ _ => exact .next (objectWrite_lasts h)
  | restoreDefaults _ _ => exact .next (objectWrite_lasts h)
  | statisticsMark _ _ => exact .next (objectWrite_lasts h)
  | factoryRequest _ _ => exact .next (objectWrite_lasts h)
  | raiseVendorFloor _ _ => exact .next (objectWrite_lasts h)
  | raiseCustomerFloor _ _ => exact .next (objectWrite_lasts h)
  | customerKeyProvision _ _ => exact .next (objectWrite_lasts h)
  | factoryPart _ _ => exact .next (objectWrite_lasts h)
  | customerSectorData _ _ => exact .next (objectWrite_lasts h)
  | codecInject _ _ => exact .next (mainCoreOnly_lasts (fun hu => .frame hu rfl) h)
  | sramFlip _ _ => exact .next (mainCoreOnly_lasts (fun hu => .after (writeFlip_quiet (.refl _)) hu) h)
  | scrubRead => exact .next (.ite (.after (settle_quiet (scrubOne_quiet (.refl _))) h) h)
  | scrubRewrite => exact execScrubRewrite_lasts h
  | mergeRetire _ => exact execMergeRetire_lasts h
  | registerReadClear _ _ _ => exact execRegisterReadClear_lasts h
  | registerWrite _ _ _ _ _ => exact .checked (.ite (.after (answerReg_quiet (.refl _)) h) (.ite (.after (answerReg_quiet
        (.refl _)) h)
    (.after (answerReg_quiet (.refl _)) (writeRegs_lasts h))))
  | linkUp _ _ _ => exact .next (.ite (.after (cascadeFires_quiet (modPort_quiet (.refl _))) h) h)
  | presenceTimeout _ => exact execPresenceTimeout_lasts h
  | sbReqLowered => exact .next (.frame h rfl)
  | errorPassive _ => exact .next (.ite h (.ite (.after (raise_quiet (by omega) (.refl _)) (.frame h rfl))
    (.ite (.after (raise_quiet (by omega) (.refl _)) (.frame h rfl)) h)))

/-- While HOLDUP holds, rst_n, the watchdog and a soft reset request do nothing (R59). -/
theorem exec_warmReset_of_holdup (hheld : s.modes.holdup = true) :
    exec .rstNAssert s = .next s ∧ exec .watchdog s = .next s ∧ ∀ v : Word, exec (.softReset v) s = .next s := by
  have hwrite (v : Word) (hreq : fld v.toNat 0 4 = 1) : writeModeCtrl v s = s := by
    simp [writeModeCtrl, hreq, warmReset_of_holdup, hheld]
  refine ⟨?_, ?_, fun v => ?_⟩
  · exact congrArg Host.Outcome.next (warmReset_of_holdup _ hheld)
  · exact congrArg Host.Outcome.next (warmReset_of_holdup _ hheld)
  · by_cases hreq : fld v.toNat 0 4 = 1
    · exact congrArg Host.Outcome.next ((if_pos (by simp [hreq])).trans (hwrite v hreq))
    · exact congrArg Host.Outcome.next (if_neg (by simp [hreq]))

/-- Settles O6: a warm reset begins only outside HOLDUP, and no other command but por_n clears the condition or its pin. -/
theorem onlyPorEndsHoldup : Obligations.OnlyPorEndsHoldup :=
  ⟨fun _ hheld => exec_warmReset_of_holdup hheld,
    fun c s t hheld hc e => (exec_lasts c hc (.refl s) t e).holdup hheld,
    fun s => ⟨coldReset s, rfl, rfl, rfl⟩,
    fun c s t hheld hdone hc e => (exec_lasts c hc (.refl s) t e).done hheld hdone⟩

/-- Settles O7: a warm reset keeps the latch, and no other command but por_n clears it. -/
theorem onlyPorEndsQuarantine : Obligations.OnlyPorEndsQuarantine :=
  fun c s t hlatch hc e => (exec_lasts c hc (.refl s) t e).latch hlatch

end Sys2Proof.Machine

namespace Sys2Proof.Machine

section
variable {s₀ s t : State}

/-! ### What reading a work area leaves as it is (R554, R556, R563) -/

/-- What the iteration of a search goes by, and what its reading of the work area must leave. -/
def State.searchBase (s : State) :
    List Ring × Modes × Recov × List Chan × List ((Nat × Nat) × List Byte) × List ((Nat × Nat) × List Byte) :=
  (s.rings, s.modes, s.recov, s.chans, s.dict.saved, s.dict.force)

/-- The rings, the modes, the searches and the configuration are those of `s`. -/
def Consulted (s t : State) : Prop := t.searchBase = s.searchBase

theorem Consulted.refl (s : State) : Consulted s s := rfl

theorem Consulted.frame {pending : List Instr} {freeCtr : Nat} {now : Nat} {pins : Pins} {sched : Sched} {host : HostPorts}
    {regs : RegPort} {rack : Rack} {power : Power} {hk : Hk} {storeImage : List (Nat × BitVec 160)} {jigs : List Jig}
    {codec : Codec} {luns : List (Nat × LunRec)} {stripe : Stripe} {bg : Bg} {media : Media} {dv : Dv}
    {irq : Irq} {evq : Evq} {dict : Dict} {cab : Cabinet} {sram : Sram} {stats : Stats}
    (h : Consulted s₀ s) (e : (dict.saved, dict.force) = (s.dict.saved, s.dict.force)) :
    Consulted s₀ { s with
      pending := pending, freeCtr := freeCtr, now := now, pins := pins, sched := sched, host := host, regs := regs
      rack := rack, power := power, hk := hk, storeImage := storeImage, jigs := jigs, codec := codec
      luns := luns, stripe := stripe, bg := bg, media := media, dv := dv, irq := irq, evq := evq, dict := dict, cab := cab
      sram := sram, stats := stats } := by
  refine Eq.trans ?_ h
  simp only [Prod.mk.injEq] at e
  simp only [State.searchBase, e]

theorem Consulted.ite {c : Prop} [Decidable c] {a b : State} (ha : Consulted s₀ a) (hb : Consulted s₀ b) :
    Consulted s₀ (if c then a else b) := by split <;> assumption

theorem issueRecord_consulted (h : Consulted s₀ s) : Consulted s₀ (issueRecord s) := by
  unfold issueRecord
  split
  · exact .frame h rfl
  · exact h

theorem queueCanEvent_consulted {bs : List Byte} (h : Consulted s₀ s) : Consulted s₀ (queueCanEvent bs s) :=
  .ite (.frame h rfl) (.frame h rfl)

theorem raisePriv_consulted {id : Nat} {soft : Bool} {detail : List Byte} (h : Consulted s₀ s) :
    Consulted s₀ (raisePriv id soft detail s) := by
  unfold raisePriv
  extract_lets +onlyGivenNames _ _ _ _ _ _ s₁
  have hs₁ : Consulted s₀ s₁ := .ite (queueCanEvent_consulted (.frame h rfl)) (.frame h rfl)
  exact .ite (.ite (issueRecord_consulted (.frame hs₁ rfl)) (.frame hs₁ rfl)) (.frame hs₁ rfl)

theorem sramNote_consulted {a n : Nat} {q bad : Bool} (h : Consulted s₀ s) : Consulted s₀ (sramNote a n q bad s) :=
  .ite (raisePriv_consulted (.frame h rfl)) (.frame (.frame h rfl) rfl)

theorem readStored_consulted {a : Nat} (h : Consulted s₀ s) : Consulted s₀ (readStored a s).2.2 := by
  unfold readStored
  extract_lets
  split
  · exact h
  · exact sramNote_consulted h
  · exact sramNote_consulted h

theorem readWord_consulted {a : Nat} (h : Consulted s₀ s) : Consulted s₀ (readWord a s).2.2 := by
  unfold readWord
  dsimp only
  split <;> exact readStored_consulted h

theorem readWords_consulted {n a : Nat} (h : Consulted s₀ s) : Consulted s₀ (readWords n a s).2.2 := by
  induction n generalizing a s with
  | zero => exact h
  | succ n ih => exact ih (readWord_consulted h)

theorem readArea_consulted (w : Option Nat) (len : Nat) (s : State) : Consulted s (readArea w len s).2 := by
  unfold readArea
  split
  · exact readWords_consulted (.refl s)
  · exact .refl s

/-! ### What the verdict of a search goes by (R269) -/

theorem Consulted.inForce_eq (h : Consulted s t) (idx sub : Nat) : inForce idx sub t = inForce idx sub s := by
  simp only [Consulted, State.searchBase, Prod.mk.injEq] at h
  obtain ⟨-, -, -, -, hsaved, hforce⟩ := h
  simp only [inForce, stored, hsaved, hforce]

theorem Consulted.cfg_eq (h : Consulted s t) (idx sub : Nat) : cfg idx sub t = cfg idx sub s := by rw [cfg, cfg, h.inForce_eq]

theorem Consulted.lunType_eq (h : Consulted s t) (u : Nat) : lunType u t = lunType u s := by
  simp only [Consulted, State.searchBase, Prod.mk.injEq] at h
  obtain ⟨-, hmodes, -, hchans, -, -⟩ := h
  have hown : ownLun u t = ownLun u s := by rw [ownLun, ownLun, hmodes]
  simp only [lunType, chanAt, hown, hchans]

theorem Consulted.stateCounts_eq (h : Consulted s t) (q : Search) (b : Nat) : stateCounts q b t = stateCounts q b s := by
  rw [stateCounts, stateCounts, table, table, h.lunType_eq, h.inForce_eq]

theorem Consulted.moveLevels_eq (h : Consulted s t) (q : Search) (b : Nat) (counts : List Nat) :
    moveLevels q b counts t = moveLevels q b counts s := by
  unfold moveLevels
  rw [h.cfg_eq, h.cfg_eq]

end
end Sys2Proof.Machine

namespace Sys2Proof.Machine

section
variable {s₀ s t u : State}

/-! ### The work about a search that decides nothing of it (R239, R268, R272, R273) -/

/-- The counts of the searches, the cache and the searches themselves. -/
def Recov.truing (r : Recov) : BitVec 32 × BitVec 32 × List TrueEntry × List Search :=
  (r.trueOk, r.trueAbandon, r.cache, r.searches)

/-- What placing jobs leaves as it is. -/
def State.truing (s : State) : List Ring × Modes × Irq × BitVec 32 × BitVec 32 × List TrueEntry × List Search :=
  (s.rings, s.modes, s.irq, s.recov.truing)

/-- From `s` to `t` jobs were placed. -/
def JobsPlaced (s t : State) : Prop := t.truing = s.truing

theorem JobsPlaced.refl (s : State) : JobsPlaced s s := rfl

theorem JobsPlaced.frame {pending : List Instr} {freeCtr : Nat} {now : Nat} {pins : Pins} {sched : Sched} {host : HostPorts}
    {regs : RegPort} {rack : Rack} {power : Power} {hk : Hk} {storeImage : List (Nat × BitVec 160)} {jigs : List Jig}
    {chans : List Chan} {codec : Codec} {recov : Recov} {luns : List (Nat × LunRec)} {stripe : Stripe} {bg : Bg}
    {media : Media} {dv : Dv} {evq : Evq} {dict : Dict} {cab : Cabinet} {sram : Sram} {stats : Stats}
    (h : JobsPlaced s₀ s) (e : recov.truing = s.recov.truing) :
    JobsPlaced s₀ { s with
      pending := pending, freeCtr := freeCtr, now := now, pins := pins, sched := sched, host := host, regs := regs
      rack := rack, power := power, hk := hk, storeImage := storeImage, jigs := jigs, chans := chans, codec := codec
      recov := recov, luns := luns, stripe := stripe, bg := bg, media := media, dv := dv, evq := evq, dict := dict
      cab := cab, sram := sram, stats := stats } := by
  refine Eq.trans ?_ h
  simp only [State.truing, e]

theorem JobsPlaced.foldl {α : Type _} {f : State → α → State} {l : List α} (hf : ∀ s a, JobsPlaced s₀ s → JobsPlaced s₀ (f s a))
    (h : JobsPlaced s₀ s) : JobsPlaced s₀ (l.foldl f s) := by
  induction l generalizing s with
  | nil => exact h
  | cons a l ih => exact ih (hf s a h)

/-- The rings, the modes, the interrupt sources and the counts of the searches stay, the cache loses nothing and no search
joins. -/
structure Sought (s t : State) : Prop where
  rings : t.rings = s.rings
  modes : t.modes = s.modes
  irq : t.irq = s.irq
  trueOk : t.recov.trueOk = s.recov.trueOk
  trueAbandon : t.recov.trueAbandon = s.recov.trueAbandon
  cache : ∀ e ∈ s.recov.cache, e ∈ t.recov.cache
  ids : ∀ x ∈ t.recov.searches, ∃ y ∈ s.recov.searches, y.id = x.id

theorem Sought.refl (s : State) : Sought s s := ⟨rfl, rfl, rfl, rfl, rfl, fun _ => id, fun x hx => ⟨x, hx, rfl⟩⟩

theorem Sought.trans (h : Sought s t) (k : Sought t u) : Sought s u where
  rings := k.rings.trans h.rings
  modes := k.modes.trans h.modes
  irq := k.irq.trans h.irq
  trueOk := k.trueOk.trans h.trueOk
  trueAbandon := k.trueAbandon.trans h.trueAbandon
  cache := fun e he => k.cache e (h.cache e he)
  ids := fun x hx => by
    obtain ⟨y, hy, hyx⟩ := k.ids x hx
    obtain ⟨z, hz, hzy⟩ := h.ids y hy
    exact ⟨z, hz, hzy.trans hyx⟩

theorem JobsPlaced.sought (h : JobsPlaced s t) : Sought s t := by
  simp only [JobsPlaced, State.truing, Recov.truing, Prod.mk.injEq] at h
  obtain ⟨hrings, hmodes, hirq, hok, habandon, hcache, hsearches⟩ := h
  exact ⟨hrings, hmodes, hirq, hok, habandon, hcache ▸ fun _ => id, hsearches ▸ fun x hx => ⟨x, hx, rfl⟩⟩

/-- An update of what `Sought` does not speak of. -/
theorem Sought.frame {sched : Sched} {codec : Codec} {recov : Recov} {luns : List (Nat × LunRec)} {jigs : List Jig}
    (h : Sought s₀ s) (e : recov.truing = s.recov.truing) :
    Sought s₀ { s with sched := sched, codec := codec, recov := recov, luns := luns, jigs := jigs } :=
  h.trans (JobsPlaced.sought (.frame (.refl s) e))

theorem Sought.ite {c : Prop} [Decidable c] {a b : State} (ha : Sought s₀ a) (hb : Sought s₀ b) :
    Sought s₀ (if c then a else b) := by split <;> assumption

theorem Sought.foldl {α : Type _} {f : State → α → State} {l : List α}
    (hf : ∀ s a, Sought s₀ s → Sought s₀ (f s a)) (h : Sought s₀ s) :
    Sought s₀ (l.foldl f s) := by
  induction l generalizing s with
  | nil => exact h
  | cons a l ih => exact ih (hf s a h)

theorem Sought.foldlSnd {α β : Type _} {f : β × State → α → β × State} {l : List α} {x : β × State}
    (hf : ∀ x a, Sought s₀ x.2 → Sought s₀ (f x a).2) (h : Sought s₀ x.2) :
    Sought s₀ (l.foldl f x).2 := by
  induction l generalizing x with
  | nil => exact h
  | cons a l ih => exact ih (hf x a h)

/-- A search changed keeps its name. -/
theorem modSearch_sought {id : Nat} {f : Search → Search} (hf : ∀ q, (f q).id = id ∨ (f q).id = q.id)
    (h : Sought s₀ s) : Sought s₀ (modSearch id f s) := by
  refine h.trans ⟨rfl, rfl, rfl, rfl, rfl, fun _ he => he, fun x hx => ?_⟩
  obtain ⟨y, hy, rfl⟩ := List.mem_map.1 hx
  refine ⟨y, hy, ?_⟩
  split
  · next hid =>
    rcases hf y with hn | hn
    · exact (eq_of_beq hid).trans hn.symm
    · exact hn.symm
  · rfl

/-! #### Jobs -/

theorem resolveFeats_jobsPlaced {j : Job} (h : JobsPlaced s₀ s) : JobsPlaced s₀ (resolveFeats j s).2 := by
  unfold resolveFeats
  extract_lets +onlyGivenNames _ _
  split
  · exact .frame h rfl
  · split
    · exact h
    · split <;> exact .frame h rfl

theorem sendJob_jobsPlaced {j : Job} (h : JobsPlaced s₀ s) : JobsPlaced s₀ (sendJob j s) := by
  unfold sendJob
  dsimp only
  obtain ⟨dv, e, -, -⟩ := dvSend_eq 0x10 (some (lunDie (resolveFeats j (modJob j.handle (fun x => { x with state := .popped }) s)).1.lun))
    (remoteBytes (remoteOf (resolveFeats j (modJob j.handle (fun x => { x with state := .popped }) s)).1
      (resolveFeats j (modJob j.handle (fun x => { x with state := .popped }) s)).2))
    (resolveFeats j (modJob j.handle (fun x => { x with state := .popped }) s)).2
  rw [e]
  exact .frame (resolveFeats_jobsPlaced (.frame h rfl)) rfl

theorem addJob_jobsPlaced {j : Job} (h : JobsPlaced s₀ s) : JobsPlaced s₀ (addJob j s).2 := by
  unfold addJob
  extract_lets +onlyGivenNames _ _ _ _
  split
  · exact .frame h rfl
  · exact sendJob_jobsPlaced (.frame h rfl)

theorem useDose_jobsPlaced {u b : Nat} (h : JobsPlaced s₀ s) : JobsPlaced s₀ (useDose u b s).2 := by
  unfold useDose
  split
  · exact h
  · split
    · exact .frame h rfl
    · split
      · exact h
      · exact .frame h rfl

theorem addPageJob_jobsPlaced {owner : Owner} {p : Page} {mask slot prio step : Nat} {feats : List (Nat × Nat)}
    {items : List (BitVec 128)} (h : JobsPlaced s₀ s) :
    JobsPlaced s₀ (addPageJob owner p mask slot prio step feats items s).2 :=
  addJob_jobsPlaced (useDose_jobsPlaced h)

theorem addSense_jobsPlaced {owner : Owner} {p : Page} {mask slot prio step tag i : Nat} {off : List ℤ} (h : JobsPlaced s₀ s) :
    JobsPlaced s₀ (addSense owner p mask slot prio step tag i off s).2 :=
  addPageJob_jobsPlaced h

theorem useTrued_sought {u b z : Nat} (h : Sought s₀ s) : Sought s₀ (useTrued u b z s) := by
  refine h.trans ⟨rfl, rfl, rfl, rfl, rfl, fun e he => ?_, fun x hx => ⟨x, hx, rfl⟩⟩
  simp only [useTrued, List.mem_append, List.mem_filter, he, true_and, Bool.not_eq_true']
  exact Bool.eq_false_or_eq_true _

theorem addRead_sought {owner : Owner} {p : Page} {mask slot prio step tag : Nat} {off : List ℤ} (h : Sought s₀ s) :
    Sought s₀ (addRead owner p mask slot prio step tag off s).2 := by
  unfold addRead
  extract_lets +onlyGivenNames s₁
  have hs₁ : Sought s₀ s₁ := .ite (useTrued_sought h) h
  exact hs₁.trans (addPageJob_jobsPlaced (.refl s₁)).sought

theorem addSense_sought {owner : Owner} {p : Page} {mask slot prio step tag i : Nat} {off : List ℤ} (h : Sought s₀ s) :
    Sought s₀ (addSense owner p mask slot prio step tag i off s).2 :=
  h.trans (addSense_jobsPlaced (.refl s)).sought

theorem reread_sought {cs : List Cw} {step : Nat} {add : Nat → Nat → State → Nat × State} {f : Cw → Cw}
    (hf : ∀ {m n u}, Sought s₀ u → Sought s₀ (add m n u).2) (h : Sought s₀ s) :
    Sought s₀ (reread cs step add f s) :=
  .frame (.foldl (fun _ _ ht => .frame (hf ht) rfl) h) rfl

/-! #### Codewords, work areas and searches -/

theorem endClimb_sought {c : Cw} (h : Sought s₀ s) : Sought s₀ (endClimb c s) := by
  unfold endClimb
  extract_lets +onlyGivenNames s₁
  have hs₁ : Sought s₀ s₁ := .frame h rfl
  split
  · exact .frame (.frame (.frame hs₁ rfl) rfl) rfl
  · exact .frame hs₁ rfl

theorem failCw_sought {c : Cw} {spent : Bool} (h : Sought s₀ s) : Sought s₀ (failCw c spent s) :=
  .ite (endClimb_sought (.frame h rfl)) (.frame h rfl)

theorem failTruing_sought {cs : List Cw} (h : Sought s₀ s) : Sought s₀ (failTruing cs s) :=
  .foldl (fun _ _ ht => failCw_sought ht) h

theorem senseSearch_sought {q : Search} (h : Sought s₀ s) : Sought s₀ (senseSearch q s) :=
  .foldl (fun _ _ ht => addSense_sought ht) (modSearch_sought (fun _ => .inr rfl) h)

theorem senseAll_sought {j : Job} {off : List ℤ} {step mask slot : Nat} (h : Sought s₀ s) :
    Sought s₀ (senseAll j off step mask slot s).2 := by
  refine .foldlSnd (fun acc x ht => ?_) h
  dsimp only
  split
  · exact addSense_sought ht
  · exact .frame (addSense_sought ht) rfl

theorem senseGranted_sought {job : Nat} (h : Sought s₀ s) : Sought s₀ (senseGranted s job) := by
  unfold senseGranted
  split
  · exact reread_sought (fun hu => senseAll_sought hu) h
  · exact h

theorem grantArea_sought {a : AreaTurn} (h : Sought s₀ s) : Sought s₀ (grantArea s a) := by
  refine .ite ?_ h
  split
  · split
    · next q hq =>
      have hid := List.find?_some hq
      exact senseSearch_sought (modSearch_sought (fun _ => .inl (eq_of_beq hid)) h)
    · exact h
  · exact .frame h rfl
  · exact h

theorem pumpAreas_sought (h : Sought s₀ s) : Sought s₀ (pumpAreas s) :=
  .ite h (.foldl (fun _ _ ht => senseGranted_sought ht) (.foldl (fun _ _ ht => grantArea_sought ht) h))

theorem trueRead_sought {job : Nat} {cs : List Cw} {off : List ℤ} (h : Sought s₀ s) :
    Sought s₀ (trueRead job cs off s) := by
  unfold trueRead
  split
  · exact reread_sought (fun hu => addRead_sought hu) h
  · exact h

theorem rereadAll_sought {cs : List Cw} {off : List ℤ} (h : Sought s₀ s) : Sought s₀ (rereadAll cs off s) :=
  .foldl (fun _ _ ht => trueRead_sought ht) h

theorem withdraw_sought {p : Job → Bool} (h : Sought s₀ s) : Sought s₀ (withdraw p s) := .frame h rfl

theorem dropSearch_sought {id : Nat} (h : Sought s₀ s) : Sought s₀ (dropSearch id s) :=
  (withdraw_sought h).trans ⟨rfl, rfl, rfl, rfl, rfl, fun _ he => he, fun x hx => ⟨x, (List.mem_filter.1 hx).1, rfl⟩⟩

/-- A search that was dropped is gone, and what serves the others does not bring it back. -/
theorem Sought.gone {id : Nat} (h : Sought (dropSearch id s) t) : ∀ x ∈ t.recov.searches, x.id ≠ id := by
  intro x hx
  obtain ⟨y, hy, hyx⟩ := h.ids x hx
  have hne : y.id ≠ id := bne_iff_ne.1 (List.mem_filter.1 hy).2
  exact hyx ▸ hne

end
end Sys2Proof.Machine

namespace Sys2Proof.Machine

section
variable {s₀ s t : State}

/-! ### How an iteration ends (R269, R271, R272) -/

/-- A search that moves on keeps its name and has had its first iteration (R269). -/
theorem moveLevels_some {q q' : Search} {b : Nat} {counts : List Nat} (h : moveLevels q b counts s = some q') :
    q'.id = q.id ∧ q'.first = false := by
  unfold moveLevels at h
  extract_lets at h
  split at h
  · cases h
  · simp only [Option.some.injEq] at h
    exact ⟨h ▸ rfl, h ▸ rfl⟩

/-- A search that stays has the offsets and the iterations that were put into it, sensed again or not (R269). -/
theorem senseSearch_holds {q : Search} {id : Nat} {off : List Int}
    (h : ∃ x ∈ s.recov.searches, x.id = id ∧ x.off = off ∧ x.first = false) :
    ∃ x ∈ (senseSearch q s).recov.searches, x.id = id ∧ x.off = off ∧ x.first = false := by
  obtain ⟨x, hx, hid, hoff, hfirst⟩ := h
  unfold senseSearch
  extract_lets +onlyGivenNames b s₁
  have hs₁ : ∃ x ∈ s₁.recov.searches, x.id = id ∧ x.off = off ∧ x.first = false := by
    refine ⟨_, List.mem_map_of_mem hx, ?_⟩
    split <;> exact ⟨hid, hoff, hfirst⟩
  have hjobs : ∀ n, JobsPlaced s₁ ((List.range n).foldl (fun s p =>
      (addSense (.truing q.id) { lun := q.lun, block := q.block, page := q.wl * b + p, profile := q.profile } (2 ^ q.slot)
        (q.work.getD 0) q.prio 8 8 p q.off s).2) s₁) :=
    fun n => .foldl (fun _ _ ht => addSense_jobsPlaced ht) (.refl s₁)
  have hb := hjobs b
  simp only [JobsPlaced, State.truing, Recov.truing, Prod.mk.injEq] at hb
  obtain ⟨-, -, -, -, -, -, hsearches⟩ := hb
  exact hsearches ▸ hs₁

theorem modSearch_holds {q : Search} {id : Nat} (hq : ∃ x ∈ s.recov.searches, x.id = id) (hid : q.id = id)
    (hfirst : q.first = false) :
    ∃ x ∈ (modSearch id (fun _ => q) s).recov.searches, x.id = id ∧ x.off = q.off ∧ x.first = false := by
  obtain ⟨x, hx, hxid⟩ := hq
  have hmem := List.mem_map_of_mem (f := fun p : Search => if p.id == id then q else p) hx
  rw [if_pos (beq_iff_eq.2 hxid)] at hmem
  exact ⟨q, hmem, hid, rfl, hfirst⟩

theorem updateBias_sought {q : Search} (h : Sought s₀ s) : Sought s₀ (updateBias q s) := .ite (.frame h rfl) h

/-- A search that converges leaves, counts and enters its offsets into the cache (R272). -/
theorem convergeSearch_spec (q : Search) (s : State) : (convergeSearch q s).rings = s.rings ∧ (convergeSearch q s).modes = s.modes
    ∧ (∀ x ∈ (convergeSearch q s).recov.searches, x.id ≠ q.id)
    ∧ (convergeSearch q s).recov.trueOk = s.recov.trueOk + 1
    ∧ ∃ e ∈ (convergeSearch q s).recov.cache, e.lun = q.lun ∧ e.block = q.block ∧ e.zone = q.zone ∧ e.off = q.off := by
  unfold convergeSearch
  extract_lets +onlyGivenNames cs s₁ _ _ _ s₂ s₃ s₄ s₅ s₆
  have hs₁ : Sought (dropSearch q.id s) s₁ := .refl _
  have hcache : ∃ e ∈ s₂.recov.cache, e.lun = q.lun ∧ e.block = q.block ∧ e.zone = q.zone ∧ e.off = q.off :=
    ⟨_, List.mem_cons_self, rfl, rfl, rfl, rfl⟩
  have hs₃ : Sought s₂ s₃ := updateBias_sought (.frame (.refl _) rfl)
  have hs₄ : Sought s₂ s₄ := .frame hs₃ rfl
  have hs₅ : Sought s₂ s₅ := hs₄.trans (addJob_jobsPlaced (.refl s₄)).sought
  have hs₆ : Sought s₂ s₆ := .frame hs₅ rfl
  have hend : Sought s₂ (if s₃.modes.train = true then pumpAreas s₃ else pumpAreas (rereadAll cs q.off s₆)) :=
    .ite (pumpAreas_sought hs₃) (pumpAreas_sought (rereadAll_sought hs₆))
  have hok : s₂.recov.trueOk = s.recov.trueOk + 1 := rfl
  obtain ⟨e, he, hkey⟩ := hcache
  refine ⟨hend.rings, hend.modes, fun x hx => ?_, hend.trueOk.trans hok, e, hend.cache e he, hkey⟩
  obtain ⟨y, hy, hyx⟩ := hend.ids x hx
  exact hyx ▸ hs₁.gone y hy

/-- The page types of the wordline have been sensed into a work area. -/
def sensedWhole (q : Search) (s : State) : Bool :=
  q.work.isSome && (List.range (max 1 (lunBits q.lun s))).all (fun p => q.sensings.any (fun x => x.1 == p))

/-- More than half of the cells are in the first state of the wordline, at the first iteration: it is not randomised (R269). -/
def notRandomised (q : Search) (s : State) : Bool :=
  q.first && 8 * cwLen q.profile < 2 * (stateCounts q (max 1 (lunBits q.lun s)) s).getD 0 0

/-- The levels after the iteration, none when it has converged (R269). -/
def movedLevels (q : Search) (s : State) : Option Search :=
  moveLevels q (max 1 (lunBits q.lun s)) (stateCounts q (max 1 (lunBits q.lun s)) s) s

section
variable {id : Nat} {q q' : Search} (hq : s.recov.searches.find? (fun x => x.id == id) = some q)
  (hsensed : sensedWhole q s = true)

include hq hsensed

theorem truingIteration_of_damaged (hbad : (readArea q.work (cwLen q.profile) s).1 = false) :
    truingIteration id s = (readArea q.work (cwLen q.profile) s).2 := by
  unfold sensedWhole at hsensed
  simp only [truingIteration, hq, hsensed, hbad, Bool.not_false, if_true]

theorem truingIteration_of_notRandomised (hsound : (readArea q.work (cwLen q.profile) s).1 = true)
    (hfew : notRandomised q s = true) :
    truingIteration id s = pumpAreas (failTruing (waitTruing q.lun q.block q.zone (readArea q.work (cwLen q.profile) s).2)
      (dropSearch id (readArea q.work (cwLen q.profile) s).2)) := by
  unfold sensedWhole at hsensed
  unfold notRandomised at hfew
  simp only [truingIteration, hq, hsensed, hsound, (readArea_consulted _ _ s).stateCounts_eq, hfew, Bool.not_true,
    Bool.false_eq_true, if_false, if_true]

theorem truingIteration_of_converged (hsound : (readArea q.work (cwLen q.profile) s).1 = true)
    (hfew : notRandomised q s = false) (hmove : movedLevels q s = none) :
    truingIteration id s = convergeSearch q (readArea q.work (cwLen q.profile) s).2 := by
  unfold sensedWhole at hsensed
  unfold notRandomised at hfew
  unfold movedLevels at hmove
  have hread := readArea_consulted q.work (cwLen q.profile) s
  simp only [truingIteration, hq, hsensed, hsound, hread.stateCounts_eq, hread.moveLevels_eq, hfew, hmove, Bool.not_true,
    Bool.false_eq_true, if_false, if_true]

theorem truingIteration_of_moved (hsound : (readArea q.work (cwLen q.profile) s).1 = true)
    (hfew : notRandomised q s = false) (hmove : movedLevels q s = some q') :
    truingIteration id s =
      if searchSpent { q' with sensings := [] }
          (modSearch id (fun _ => { q' with sensings := [] }) (readArea q.work (cwLen q.profile) s).2) then
        modSearch id (fun _ => { q' with sensings := [] }) (readArea q.work (cwLen q.profile) s).2
      else senseSearch { q' with sensings := [] }
        (modSearch id (fun _ => { q' with sensings := [] }) (readArea q.work (cwLen q.profile) s).2) := by
  unfold sensedWhole at hsensed
  unfold notRandomised at hfew
  unfold movedLevels at hmove
  have hread := readArea_consulted q.work (cwLen q.profile) s
  simp only [truingIteration, hq, hsensed, hsound, hread.stateCounts_eq, hread.moveLevels_eq, hfew, hmove, Bool.not_true,
    Bool.false_eq_true, if_false, if_true]

end

end
end Sys2Proof.Machine

namespace Sys2Proof.Machine

section
variable {s t : State}

/-- What each verdict leaves: the rings and the modes stay, and the search ends, converges or moves (R269, R271, R272). -/
theorem truingIteration_judged {id : Nat} {q : Search} (hq : s.recov.searches.find? (fun x => x.id == id) = some q)
    (hsensed : sensedWhole q s = true) (hsound : (readArea q.work (cwLen q.profile) s).1 = true) :
    (truingIteration id s).rings = s.rings ∧ (truingIteration id s).modes = s.modes
    ∧ (notRandomised q s = true → (∀ x ∈ (truingIteration id s).recov.searches, x.id ≠ id)
        ∧ (truingIteration id s).recov.trueOk = s.recov.trueOk)
    ∧ (notRandomised q s = false → movedLevels q s = none → (∀ x ∈ (truingIteration id s).recov.searches, x.id ≠ id)
        ∧ (truingIteration id s).recov.trueOk = s.recov.trueOk + 1
        ∧ (∃ e ∈ (truingIteration id s).recov.cache, e.lun = q.lun ∧ e.block = q.block ∧ e.zone = q.zone ∧ e.off = q.off))
    ∧ (∀ q', notRandomised q s = false → movedLevels q s = some q' →
        ∃ x ∈ (truingIteration id s).recov.searches, x.id = id ∧ x.off = q'.off ∧ x.first = false) := by
  have hid : q.id = id := eq_of_beq (List.find?_some (p := fun x : Search => x.id == id) hq)
  have hread := readArea_consulted q.work (cwLen q.profile) s
  simp only [Consulted, State.searchBase, Prod.mk.injEq] at hread
  obtain ⟨hrings, hmodes, hrecov, -, -, -⟩ := hread
  cases hfew : notRandomised q s with
  | true =>
    rw [truingIteration_of_notRandomised hq hsensed hsound hfew]
    generalize (readArea q.work (cwLen q.profile) s).2 = v at hrings hmodes hrecov ⊢
    have hend : Sought (dropSearch id v) (pumpAreas (failTruing (waitTruing q.lun q.block q.zone v) (dropSearch id v))) :=
      pumpAreas_sought (failTruing_sought (.refl _))
    have hall := (dropSearch_sought (.refl v)).trans hend
    exact ⟨hall.rings.trans hrings, hall.modes.trans hmodes,
      fun _ => ⟨hend.gone, hall.trueOk.trans (congrArg Recov.trueOk hrecov)⟩, nofun, nofun⟩
  | false =>
    cases hmove : movedLevels q s with
    | none =>
      rw [truingIteration_of_converged hq hsensed hsound hfew hmove]
      obtain ⟨hr, hm, hgone, hok, hcache⟩ := convergeSearch_spec q (readArea q.work (cwLen q.profile) s).2
      rw [hrecov] at hok
      exact ⟨hr.trans hrings, hm.trans hmodes, nofun, fun _ _ => ⟨hid ▸ hgone, hok, hcache⟩, nofun⟩
    | some q' =>
      rw [truingIteration_of_moved hq hsensed hsound hfew hmove]
      generalize (readArea q.work (cwLen q.profile) s).2 = v at hrings hmodes hrecov ⊢
      obtain ⟨hid', hfirst⟩ := moveLevels_some hmove
      have hmod : Sought v (modSearch id (fun _ => { q' with sensings := [] }) v) :=
        modSearch_sought (fun _ => .inl (hid'.trans hid)) (.refl v)
      have hholds := modSearch_holds (s := v) (q := { q' with sensings := [] })
        ⟨q, hrecov ▸ List.mem_of_find?_eq_some hq, hid⟩ (hid'.trans hid) hfirst
      refine ⟨?_, ?_, nofun, fun _ => nofun, fun _ _ e => Option.some.inj e ▸ ?_⟩ <;> split
      · exact hmod.rings.trans hrings
      · exact (hmod.trans (senseSearch_sought (.refl _))).rings.trans hrings
      · exact hmod.modes.trans hmodes
      · exact (hmod.trans (senseSearch_sought (.refl _))).modes.trans hmodes
      · exact hholds
      · exact senseSearch_holds hholds

/-- A search that has lasted 5 ms is abandoned (R271). -/
theorem truingAbandon_of_late {id : Nat} {q : Search} (hq : s.recov.searches.find? (fun x => x.id == id) = some q)
    (hwork : q.work ≠ none) (hlate : 5000 ≤ s.now - q.start) : truingAbandon id s = abandonSearch q s := by
  simp only [truingAbandon, hq, Option.isSome_iff_ne_none.2 hwork, hlate, decide_true, Bool.or_true, Bool.true_and, if_true]

/-- An abandoned search leaves, counts and is reported by source 114 (R271). -/
theorem abandonSearch_spec (q : Search) (s : State) : (∀ x ∈ (abandonSearch q s).recov.searches, x.id ≠ q.id)
    ∧ (abandonSearch q s).recov.trueAbandon = s.recov.trueAbandon + 1 ∧ (abandonSearch q s).irq = s.irq.cause 114
    ∧ (abandonSearch q s).rings = s.rings ∧ (abandonSearch q s).modes = s.modes := by
  unfold abandonSearch
  extract_lets +onlyGivenNames cs s₁ s₂ _ s₃
  have hs₁ : Sought (dropSearch q.id s) s₁ := .refl _
  have hend : Sought s₃ (pumpAreas (failTruing cs s₃)) := pumpAreas_sought (failTruing_sought (.refl _))
  have habandon : s₃.recov.trueAbandon = s.recov.trueAbandon + 1 := rfl
  have hirq : s₃.irq = s.irq.cause 114 := rfl
  refine ⟨fun x hx => ?_, hend.trueAbandon.trans habandon, hend.irq.trans hirq, hend.rings, hend.modes⟩
  obtain ⟨y, hy, hyx⟩ := hend.ids x hx
  exact hyx ▸ hs₁.gone y hy

/-- A search that is not there ends nothing. -/
theorem truing_of_gone {id : Nat} (hq : s.recov.searches.find? (fun x => x.id == id) = none) :
    truingIteration id s = s ∧ truingAbandon id s = s := by
  simp only [truingIteration, truingAbandon, hq, and_self]

end

/-- Settles O41: the work area that an iteration reads leaves the searches and the configuration (`readArea_consulted`), and
what serves the other searches leaves what the verdict has put down (`Sought`). -/
theorem truingSearches : Obligations.TruingSearches := by
  unfold Obligations.TruingSearches
  refine ⟨fun id q s hq hwork hsensed => ?_, fun id q s hq hwork hlate => ?_, fun id s hq => ?_⟩
  · have hwhole : sensedWhole q s = true := by
      simp only [sensedWhole, Bool.and_eq_true, Option.isSome_iff_ne_none, List.all_eq_true, List.mem_range, List.any_eq_true,
        beq_iff_eq]
      exact ⟨hwork, hsensed⟩
    refine ⟨fun hbad => congrArg (fun u => Host.Outcome.next (settleRecovery u)) (truingIteration_of_damaged hq hwhole hbad), fun hsound => ?_⟩
    obtain ⟨hrings, hmodes, hend, hconverge, hmoves⟩ := truingIteration_judged hq hwhole hsound
    refine ⟨truingIteration id s, rfl, hrings, hmodes, ?_⟩
    have hfew : notRandomised q s = true ↔
        q.first = true ∧ 8 * cwLen q.profile < 2 * (stateCounts q (max 1 (lunBits q.lun s)) s).getD 0 0 := by
      simp only [notRandomised, Bool.and_eq_true, decide_eq_true_eq]
    split
    · next h => exact hend (hfew.2 h)
    · next h =>
      have hmany : notRandomised q s = false := Bool.eq_false_iff.2 (mt hfew.1 h)
      split
      · next hmove => exact hconverge hmany hmove
      · next q' hmove => exact hmoves q' hmany hmove
  · have hid : q.id = id := eq_of_beq (List.find?_some (p := fun x : Search => x.id == id) hq)
    obtain ⟨hgone, hcount, hirq, hrings, hmodes⟩ := abandonSearch_spec q s
    refine ⟨truingAbandon id s, rfl, ?_⟩
    rw [truingAbandon_of_late hq hwork hlate]
    exact ⟨hid ▸ hgone, hcount, hirq, hrings, hmodes⟩
  · obtain ⟨hiteration, habandon⟩ := truing_of_gone hq
    exact ⟨congrArg (fun u => Host.Outcome.next (settleRecovery u)) hiteration, congrArg (fun u => Host.Outcome.next (settleRecovery u)) habandon⟩

end Sys2Proof.Machine

namespace Sys2Proof.Machine

/-! ### What the block's own work carries on: TRAIN's steps, the pads and the wires of the heads (R73, R420, R459) -/

section
variable {s₀ s t u : State}

/-- No message of the queue attaches a head. -/
def noAttach (s : State) : Prop := ∀ m ∈ s.media.inQ, mKind m ≠ 1

/-- The block each head's port is on. -/
def State.wires (s : State) : List (Option (BitVec 3)) := s.media.heads.map (·.via)

/-- From `s` to `t` a start-up that has come to TRAIN does not fall back, no channel returns to pad hold but by the latch
sequence, no head is wired elsewhere but by an ATTACH, and what goes out over Dovetail has not left. -/
structure Onward (s t : State) : Prop where
  stage : 0xD ≤ s.modes.stage → 0xD ≤ t.modes.stage
  latch : s.power.latchSeq = 0 → t.power.latchSeq = 0
  pads : s.power.latchSeq = 0 → ∀ n, (chanAt n s).padHold = false → (chanAt n t).padHold = false
  queue : noAttach s → noAttach t
  wires : noAttach s → t.wires = s.wires
  sent : ∀ x ∈ s.dv.out, x ∈ t.dv.out

theorem Onward.refl (s : State) : Onward s s := ⟨id, id, fun _ _ => id, id, fun _ => rfl, fun _ => id⟩

theorem Onward.trans (h : Onward s t) (k : Onward t u) : Onward s u :=
  ⟨k.stage ∘ h.stage, k.latch ∘ h.latch, fun hs n => k.pads (h.latch hs) n ∘ h.pads hs n, k.queue ∘ h.queue,
    fun hs => (k.wires (h.queue hs)).trans (h.wires hs), fun x hx => k.sent x (h.sent x hx)⟩

/-- What `Onward` speaks of. -/
def onwardParts (m : Modes) (p : Power) (cs : List Chan) (md : Media) (d : Dv) :
    BitVec 4 × BitVec 2 × List Chan × List (BitVec 64) × List Head × List DvMsg :=
  (m.stage, p.latchSeq, cs, md.inQ, md.heads, d.out)

/-- An update of what `Onward` does not speak of. -/
theorem Onward.frame {pending : List Instr} {freeCtr : Nat} {now : Nat} {pins : Pins} {modes : Modes} {rings : List Ring}
    {sched : Sched} {host : HostPorts} {regs : RegPort} {rack : Rack} {power : Power} {hk : Hk}
    {storeImage : List (Nat × BitVec 160)} {jigs : List Jig} {chans : List Chan} {codec : Codec} {recov : Recov}
    {luns : List (Nat × LunRec)} {stripe : Stripe} {bg : Bg} {media : Media} {dv : Dv} {irq : Irq} {evq : Evq} {dict : Dict}
    {cab : Cabinet} {sram : Sram} {stats : Stats} (h : Onward s₀ s)
    (e : onwardParts modes power chans media dv = onwardParts s.modes s.power s.chans s.media s.dv) :
    Onward s₀ { s with
      pending := pending, freeCtr := freeCtr, now := now, pins := pins, modes := modes, rings := rings, sched := sched
      host := host, regs := regs, rack := rack, power := power, hk := hk, storeImage := storeImage, jigs := jigs
      chans := chans, codec := codec, recov := recov, luns := luns, stripe := stripe, bg := bg, media := media, dv := dv
      irq := irq, evq := evq, dict := dict, cab := cab, sram := sram, stats := stats } := by
  simp only [onwardParts, Prod.mk.injEq] at e
  obtain ⟨hstage, hlatch, hchans, hqueue, hheads, hout⟩ := e
  refine h.trans ⟨fun hs => hstage ▸ hs, fun hs => hlatch.trans hs, fun _ n hn => ?_, fun hs => ?_, fun _ => ?_,
    fun x hx => hout ▸ hx⟩
  · simpa only [chanAt, hchans] using hn
  · simpa only [noAttach, hqueue] using hs
  · simp only [State.wires, hheads]

theorem Onward.ite {c : Prop} [Decidable c] {a b : State} (ha : Onward s₀ a) (hb : Onward s₀ b) :
    Onward s₀ (if c then a else b) := by split <;> assumption

theorem Onward.option {α : Type _} {o : Option α} {b : State} {f : α → State} (hb : Onward s₀ b) (hf : ∀ a, Onward s₀ (f a)) :
    Onward s₀ (o.casesOn b f) := by
  cases o with
  | none => exact hb
  | some a => exact hf a

theorem Onward.foldl {α : Type _} {f : State → α → State} {l : List α} (hf : ∀ s a, Onward s₀ s → Onward s₀ (f s a))
    (h : Onward s₀ s) : Onward s₀ (l.foldl f s) := by
  induction l generalizing s with
  | nil => exact h
  | cons a l ih => exact ih (hf s a h)

theorem Onward.foldlFst {α β : Type _} {f : State × β → α → State × β} {l : List α} {x : State × β}
    (hf : ∀ x a, Onward s₀ x.1 → Onward s₀ (f x a).1) (h : Onward s₀ x.1) : Onward s₀ (l.foldl f x).1 := by
  induction l generalizing x with
  | nil => exact h
  | cons a l ih => exact ih (hf x a h)

theorem Onward.foldlSnd {α β : Type _} {f : β × State → α → β × State} {l : List α} {x : β × State}
    (hf : ∀ x a, Onward s₀ x.2 → Onward s₀ (f x a).2) (h : Onward s₀ x.2) : Onward s₀ (l.foldl f x).2 := by
  induction l generalizing x with
  | nil => exact h
  | cons a l ih => exact ih (hf x a h)

theorem Onward.foldlThird {α β γ : Type _} {f : β × γ × State → α → β × γ × State} {l : List α} {x : β × γ × State}
    (hf : ∀ x a, Onward s₀ x.2.2 → Onward s₀ (f x a).2.2) (h : Onward s₀ x.2.2) : Onward s₀ (l.foldl f x).2.2 := by
  induction l generalizing x with
  | nil => exact h
  | cons a l ih => exact ih (hf x a h)

/-- An operation that may not act: its state, if any, is reached so. -/
def OnwardIf (s₀ : State) (o : Option State) : Prop := ∀ t, o = .some t → Onward s₀ t

theorem OnwardIf.some (h : Onward s₀ s) : OnwardIf s₀ (.some s) := by rintro _ ⟨⟩; exact h

theorem OnwardIf.none : OnwardIf s₀ .none := by intro _ e; cases e

theorem OnwardIf.ite {c : Prop} [Decidable c] {a b : Option State} (ha : OnwardIf s₀ a) (hb : OnwardIf s₀ b) :
    OnwardIf s₀ (if c then a else b) := by split <;> assumption

theorem OnwardIf.option {α : Type _} {o : Option α} {b : Option State} {f : α → Option State} (hb : OnwardIf s₀ b)
    (hf : ∀ a, OnwardIf s₀ (f a)) : OnwardIf s₀ (o.casesOn b f) := by
  cases o with
  | none => exact hb
  | some a => exact hf a

theorem Onward.elim {o : Option State} {b : State} {f : State → State} (ho : OnwardIf s₀ o) (hb : Onward s₀ b)
    (hf : ∀ t, Onward s₀ t → Onward s₀ (f t)) : Onward s₀ (o.casesOn b f) := by
  cases o with
  | none => exact hb
  | some t => exact hf t (ho t rfl)

end
end Sys2Proof.Machine

namespace Sys2Proof.Machine
variable {s₀ s t : State}

/-! ### The updates that Onward speaks of -/

/-- An update of the channels that takes none into pad hold. -/
theorem Onward.chans {cs : List Chan} (hcs : ∀ n, (chanAt n s).padHold = false → (cs.getD n {}).padHold = false)
    (h : Onward s₀ s) : Onward s₀ { s with chans := cs } :=
  h.trans { Onward.refl s with pads := fun _ => hcs }

theorem modChan_onward {ch : Nat} {f : Chan → Chan} (hf : ∀ c, c.padHold = false → (f c).padHold = false) (h : Onward s₀ s) :
    Onward s₀ (modChan ch f s) := by
  refine .chans (fun n hn => ?_) h
  simp only [chanAt, List.getD_eq_getElem?_getD, List.getElem?_modify] at hn ⊢
  cases hc : s.chans[n]? with
  | none => rwa [hc] at hn
  | some c =>
    rw [hc] at hn
    dsimp only [Option.getD_some, Functor.map, Option.map] at hn ⊢
    split
    · exact hf c hn
    · exact hn

/-- An update of every channel that takes none into pad hold. -/
theorem Onward.mapChans {f : Chan → Chan} (hf : ∀ c, c.padHold = false → (f c).padHold = false) (h : Onward s₀ s) :
    Onward s₀ { s with chans := s.chans.map f } := by
  refine .chans (fun n hn => ?_) h
  simp only [chanAt, List.getD_eq_getElem?_getD, List.getElem?_map] at hn ⊢
  cases hc : s.chans[n]? with
  | none => rwa [hc] at hn
  | some c => exact hf c (by rwa [hc] at hn)

/-- An update of the media link that wires no head elsewhere and takes no ATTACH into the queue. -/
theorem Onward.media {md : Media} (hq : ∀ m ∈ md.inQ, m ∈ s.media.inQ) (hw : md.heads.map (·.via) = s.wires) (h : Onward s₀ s) :
    Onward s₀ { s with media := md } :=
  h.trans { Onward.refl s with queue := fun hs m hm => hs m (hq m hm), wires := fun _ => hw }

theorem modHead_onward {n : Nat} {f : Head → Head} (hf : ∀ x, (f x).via = x.via) (h : Onward s₀ s) :
    Onward s₀ (modHead n f s) := by
  refine .media (fun _ => id) ?_ h
  apply List.ext_getElem?
  intro i
  simp only [State.wires, List.getElem?_map, List.getElem?_modify]
  cases s.media.heads[i]? with
  | none => rfl
  | some x => simp only [Functor.map, Option.map]; split <;> simp only [hf]

/-- An update of the conditions that does not bring a start-up back before TRAIN. -/
theorem Onward.modes {m : Modes} (hm : 0xD ≤ s.modes.stage → 0xD ≤ m.stage) (h : Onward s₀ s) :
    Onward s₀ { s with modes := m } :=
  h.trans { Onward.refl s with stage := hm }

/-- The latch sequence goes on, once it runs. -/
theorem Onward.power {p : Power} (hp : s.power.latchSeq ≠ 0) (h : Onward s₀ s) : Onward s₀ { s with power := p } :=
  h.trans { Onward.refl s with latch := fun e => absurd e hp }

theorem raise_onward {id : Nat} (h : Onward s₀ s) : Onward s₀ (raise id s) := .frame h rfl

theorem evqLevels_onward (h : Onward s₀ s) : Onward s₀ (evqLevels s) := .frame h rfl

theorem logRecord_onward {bs : List Byte} (h : Onward s₀ s) : Onward s₀ (logRecord bs s) := .frame h rfl

theorem issueRecord_onward (h : Onward s₀ s) : Onward s₀ (issueRecord s) := by
  unfold issueRecord
  split
  · exact .frame h rfl
  · exact h

theorem queueCanEvent_onward {bs : List Byte} (h : Onward s₀ s) : Onward s₀ (queueCanEvent bs s) :=
  .ite (.frame h rfl) (.frame h rfl)

theorem raisePriv_onward {id : Nat} {soft : Bool} {detail : List Byte} (h : Onward s₀ s) :
    Onward s₀ (raisePriv id soft detail s) := by
  unfold raisePriv
  extract_lets +onlyGivenNames _ _ _ _ _ t u
  have ht : Onward s₀ t := .frame h rfl
  have hu : Onward s₀ u := .ite (queueCanEvent_onward ht) ht
  exact .ite (.ite (issueRecord_onward (.frame hu rfl)) (.frame hu rfl)) (.frame hu rfl)

theorem withdraw_onward {p : Job → Bool} (h : Onward s₀ s) : Onward s₀ (withdraw p s) := .frame h rfl

theorem dropFeedCws_onward {p : Nat → Bool} (h : Onward s₀ s) : Onward s₀ (dropFeedCws p s) := .frame h rfl

theorem mediaReadyFall_onward (h : Onward s₀ s) : Onward s₀ (mediaReadyFall s) := by
  refine withdraw_onward (dropFeedCws_onward (.media (fun _ hm => absurd hm List.not_mem_nil) ?_ h))
  simp only [State.wires, List.map_map]
  rfl

/-- R23 applied. -/
theorem applyMode_onward (h : Onward s₀ s) : Onward s₀ (applyMode s) := by
  unfold applyMode
  extract_lets +onlyGivenNames mode _ s₁ s₂ s₃
  have hs₁ : Onward s₀ s₁ := .frame h rfl
  have hs₂ : Onward s₀ s₂ := .frame hs₁ rfl
  have hs₃ : Onward s₀ s₃ := .ite (mediaReadyFall_onward hs₂) hs₂
  exact .ite h (.frame (.ite hs₃ (.frame hs₃ rfl)) rfl)

theorem setConds_onward {f : Modes → Modes} (hf : ∀ m, (f m).stage = m.stage) (h : Onward s₀ s) : Onward s₀ (setConds f s) :=
  applyMode_onward (.modes (fun hs => (hf s.modes).symm ▸ hs) h)

end Sys2Proof.Machine


namespace Sys2Proof.Machine
variable {s₀ s t : State}

/-! ### What carries on: Machine/Ops.lean -/

theorem hostWriteData_onward {what : HostWhat} {addr : Nat} {bs : List Byte} (h : Onward s₀ s) :
    Onward s₀ (hostWriteData what addr bs s) :=
  .foldl (fun _ _ ht => .frame ht rfl) h

theorem modPort_onward {p : Side} {f : Port → Port} (h : Onward s₀ s) : Onward s₀ (modPort p f s) := by
  unfold modPort
  split <;> exact .frame h rfl

theorem dvSend_onward {type : Nat} {dst : Option (BitVec 3)} {payload : List Byte} (h : Onward s₀ s) :
    Onward s₀ (dvSend type dst payload s) := by
  obtain ⟨dv, e, -, hout⟩ := dvSend_eq type dst payload s
  rw [e]
  refine h.trans { Onward.refl s with sent := fun x hx => ?_ }
  rw [show ({ s with dv := dv } : State).dv.out = dv.out from rfl, hout]
  split
  · exact hx
  · exact List.mem_append_left _ hx

/-! ### What carries on: Machine/Sram.lean -/

theorem sramNote_onward {x1 s' : Nat} {q bad : Bool} (h : Onward s₀ s) : Onward s₀ (sramNote x1 s' q bad s) :=
  .ite (raisePriv_onward (.frame h rfl)) (raise_onward (.frame h rfl))

theorem readStored_onward {x1 : Nat} (h : Onward s₀ s) : Onward s₀ (readStored x1 s).2.2 := by
  unfold readStored
  extract_lets w
  split
  · exact h
  · exact (sramNote_onward h : Onward s₀ (sramNote x1 (synd w) (qParity w) false s))
  · exact (sramNote_onward h : Onward s₀ (sramNote x1 (synd w) (qParity w) true s))

theorem readWord_onward {x1 : Nat} (h : Onward s₀ s) : Onward s₀ (readWord x1 s).2.2 := by
  unfold readWord
  dsimp only
  split <;> exact readStored_onward h

theorem readWords_onward {n a : Nat} (h : Onward s₀ s) : Onward s₀ (readWords n a s).2.2 := by
  induction n generalizing a s with
  | zero => exact h
  | succ n ih => exact ih (readWord_onward h)

theorem retire_onward {e : Merge} (h : Onward s₀ s) : Onward s₀ (retire e s) :=
  .ite (.frame (.frame h rfl) rfl) (.ite (.frame (readStored_onward (.frame h rfl)) rfl) (.frame (readStored_onward (.frame h rfl)) rfl))

theorem narrowWrite_onward {x1 off : Nat} {bs : List Byte} (h : Onward s₀ s) : Onward s₀ (narrowWrite x1 off bs s) := by
  unfold narrowWrite
  dsimp only
  split
  · exact .ite (retire_onward (.frame h rfl)) (.frame h rfl)
  · refine .frame ?_ rfl
    refine .ite h ?_
    split
    · exact retire_onward h
    · exact h

theorem sramWriteFuel_onward {n off : Nat} {bs : List Byte} (h : Onward s₀ s) : Onward s₀ (sramWriteFuel n off bs s) := by
  induction n generalizing off bs s with
  | zero => exact h
  | succ n ih => exact .ite h (.ite (ih (.frame h rfl)) (ih (narrowWrite_onward h)))

theorem sramWrite_onward {off : Nat} {bs : List Byte} (h : Onward s₀ s) : Onward s₀ (sramWrite off bs s) := sramWriteFuel_onward h

theorem sramRead_onward {off len : Nat} (h : Onward s₀ s) : Onward s₀ (sramRead off len s).2.2 := readWords_onward h

/-! ### What carries on: Machine/Sched.lean -/

theorem resolveFeats_onward {j : Job} (h : Onward s₀ s) : Onward s₀ (resolveFeats j s).2 := by
  unfold resolveFeats
  extract_lets +onlyGivenNames _ _
  split
  · exact .frame h rfl
  · split
    · exact h
    · split <;> exact .frame h rfl

theorem sendJob_onward {j : Job} (h : Onward s₀ s) : Onward s₀ (sendJob j s) := dvSend_onward (resolveFeats_onward (.frame h rfl))

theorem addJob_onward {j : Job} (h : Onward s₀ s) : Onward s₀ (addJob j s).2 := by
  unfold addJob
  extract_lets +onlyGivenNames _ _ _ _
  split
  · exact .frame h rfl
  · exact sendJob_onward (.frame h rfl)

theorem addProgram_onward {owner : Owner} {u block page profile prio handle : Nat} (h : Onward s₀ s) :
    Onward s₀ (addProgram owner u block page profile prio handle s).2 :=
  addJob_onward h

theorem dropSearches_onward {u block : Nat} (h : Onward s₀ s) : Onward s₀ (dropSearches u block s) := withdraw_onward (.frame h rfl)

theorem addErase_onward {owner : Owner} {u block prio : Nat} (h : Onward s₀ s) : Onward s₀ (addErase owner u block prio s).2 :=
  addJob_onward (dropSearches_onward h)

/-! ### What carries on: Machine/Stripe.lean -/

theorem winPut_onward {p : Nat × List Byte} (h : Onward s₀ s) : Onward s₀ (winPut s p) :=
  .ite (.frame h rfl) (.ite (.frame (.frame h rfl) rfl) (.frame (.frame h rfl) rfl))

theorem winPutAll_onward {off : Nat} {bs : List Byte} (h : Onward s₀ s) : Onward s₀ (winPutAll off bs s) :=
  .foldl (fun _ _ ht => winPut_onward ht) h

theorem winWrite_onward {off : Nat} {bs : List Byte} (h : Onward s₀ s) : Onward s₀ (winWrite off bs s) := .ite (winPutAll_onward h) h

theorem lookUpBinds_onward {x : Nat × Nat × Nat} (h : Onward s₀ s) : Onward s₀ (lookUpBinds s x) :=
  .foldl (fun _ _ ht => .ite (.frame ht rfl) (.ite ht (.frame ht rfl))) h

theorem writeDir_onward {g : Nat} {f : DirEntry → DirEntry} (h : Onward s₀ s) : Onward s₀ (writeDir g f s) :=
  winWrite_onward (.frame (.ite (dvSend_onward h) h) rfl)

theorem freeDir_onward {g : Nat} (h : Onward s₀ s) : Onward s₀ (freeDir g s) := winWrite_onward (.frame h rfl)

theorem addRec_onward {r : BitVec 256} (h : Onward s₀ s) : Onward s₀ (addRec r s) :=
  .ite (dvSend_onward (.frame h rfl)) (.frame h rfl)

theorem setLedger_onward {i : Nat} {e : LossEntry} (h : Onward s₀ s) : Onward s₀ (setLedger i e s) :=
  addRec_onward (winWrite_onward (.frame h rfl))

theorem clearLedger_onward {i : Nat} (h : Onward s₀ s) : Onward s₀ (clearLedger i s) :=
  .ite (addRec_onward (winWrite_onward (.frame h rfl))) h

theorem clearLedgerGroup_onward {g : Nat} (h : Onward s₀ s) : Onward s₀ (clearLedgerGroup g s) :=
  .foldl (fun _ _ ht => clearLedger_onward ht) h

theorem lossEvent_onward {g m r mask cause : Nat} {full : Bool} {idx : Nat} (h : Onward s₀ s) :
    Onward s₀ (lossEvent g m r mask cause full idx s) :=
  raisePriv_onward h

theorem sendLoss_onward {g m r mask cause : Nat} (h : Onward s₀ s) : Onward s₀ (sendLoss g m r mask cause s) := addRec_onward h

theorem addLoss_onward {g m r mask cause : Nat} (h : Onward s₀ s) : Onward s₀ (addLoss g m r mask cause s) := by
  unfold addLoss
  extract_lets +onlyGivenNames _ _ _ s₁
  have hs₁ : Onward s₀ s₁ := .frame h (by dsimp only [quietParts])
  extract_lets
  refine .ite (sendLoss_onward h) ?_
  split
  · exact lossEvent_onward (setLedger_onward hs₁)
  · split
    · exact lossEvent_onward (setLedger_onward (.frame hs₁ rfl))
    · exact lossEvent_onward (logRecord_onward (.frame hs₁ rfl))

theorem slotBytes_onward {i half c : Nat} (h : Onward s₀ s) : Onward s₀ (slotBytes i half c s).2.2 := by
  unfold slotBytes
  split
  · exact sramRead_onward h
  · exact h

theorem slotWrite_onward {i half c : Nat} {bs : List Byte} (h : Onward s₀ s) : Onward s₀ (slotWrite i half c bs s) :=
  .ite (sramWrite_onward h) (.frame h rfl)

theorem listShort_onward {g r mask : Nat} (h : Onward s₀ s) : Onward s₀ (listShort g r mask s) :=
  .ite h (.ite (writeDir_onward h) (writeDir_onward (.frame h rfl)))

theorem programMember_onward {owner : Owner} {g m r prio handle : Nat} {stamp : Word} {sealW : BitVec 96} (h : Onward s₀ s) :
    Onward s₀ (programMember owner g m r prio handle stamp sealW s) :=
  addJob_onward h

theorem foldsAway_onward {i g m : Nat} (h : Onward s₀ s) : Onward s₀ (foldsAway i g m s) := .ite h (.frame h rfl)

theorem padMember_onward {i g m r : Nat} (h : Onward s₀ s) : Onward s₀ (padMember i g m r s) :=
  .ite (foldsAway_onward (programMember_onward h)) (.frame h rfl)

theorem noteParityFail_onward {g r m : Nat} (h : Onward s₀ s) : Onward s₀ (noteParityFail g r m s) := by
  unfold noteParityFail
  split
  · exact .frame h rfl
  · exact h

theorem placeParityOne_onward {i m half : Nat} (h : Onward s₀ s) : Onward s₀ (placeParityOne i m half s) :=
  .ite h (.ite (programMember_onward (.frame h rfl)) (noteParityFail_onward (.frame h rfl)))

theorem rowSealed_onward {i : Nat} (h : Onward s₀ s) : Onward s₀ (rowSealed i s) := .ite (.frame (addRec_onward h) rfl) h

theorem placeParity_onward {i : Nat} (h : Onward s₀ s) : Onward s₀ (placeParity i s) :=
  rowSealed_onward (placeParityOne_onward (placeParityOne_onward (.frame h rfl)))

theorem placeAll_onward {n : Nat} (h : Onward s₀ s) : Onward s₀ (placeAll n s) := by
  induction n generalizing s with
  | zero => exact h
  | succ n ih =>
    unfold placeAll
    split
    · exact ih (placeParity_onward h)
    · exact h

theorem slotAll_onward {i : Nat} (h : Onward s₀ s) : Onward s₀ (slotAll i s).2 := .foldlSnd (fun _ _ ht => slotBytes_onward ht) h

theorem sendPart_onward {die : BitVec 3} {i : Nat} {members : List Nat} (h : Onward s₀ s) : Onward s₀ (sendPart die i members s) :=
  dvSend_onward (slotAll_onward h)

theorem giveQ_onward {i : Nat} (h : Onward s₀ s) : Onward s₀ (giveQ i s) := .ite h (sendPart_onward h)

theorem sendParity_onward {i : Nat} (h : Onward s₀ s) : Onward s₀ (sendParity i s) :=
  .ite (giveQ_onward (.frame h rfl)) (sendPart_onward h)

theorem sealSlot_onward {i : Nat} (h : Onward s₀ s) : Onward s₀ (sealSlot i s) := by
  unfold sealSlot
  extract_lets k e mask full form w seq _ _ _ _ s₁ s₂
  have hs₂ : Onward s₀ s₂ := writeDir_onward (.frame (.frame h rfl) rfl)
  exact .ite (placeAll_onward (sendParity_onward (.ite hs₂ (listShort_onward hs₂)))) h

theorem closeShort_onward {g : Nat} (h : Onward s₀ s) : Onward s₀ (closeShort g s) := by
  refine .ite h ?_
  split
  · exact h
  · exact sealSlot_onward (writeDir_onward (.foldl (fun _ _ ht => padMember_onward ht) (.frame h rfl)))

theorem closeGroup_onward {g : Nat} (h : Onward s₀ s) : Onward s₀ (closeGroup g s) :=
  .ite (writeDir_onward (addRec_onward (closeShort_onward h))) h

/-! ### What carries on: Machine/Journal.lean -/

theorem programJournal_onward {copy u base pj idx : Nat} (h : Onward s₀ s) : Onward s₀ (programJournal copy u base pj idx s) :=
  addProgram_onward h

theorem eraseJournal_onward {u block : Nat} (h : Onward s₀ s) : Onward s₀ (eraseJournal u block s) := addErase_onward (.frame h rfl)

theorem eraseRing_onward {idxs : List Nat} (h : Onward s₀ s) : Onward s₀ (eraseRing idxs s) :=
  .foldl (fun _ _ ht => eraseJournal_onward (eraseJournal_onward ht)) h

theorem programCopy_onward {copy : Nat} (h : Onward s₀ s) : Onward s₀ (programCopy copy s) := by
  refine .ite (programJournal_onward h) ?_
  split
  · exact programJournal_onward h
  · exact h

theorem placePageAgain_onward (h : Onward s₀ s) : Onward s₀ (placePageAgain s) := .foldl (fun _ _ ht => programCopy_onward ht) h

theorem startFold_onward (h : Onward s₀ s) : Onward s₀ (startFold s) := .frame (addRec_onward h) rfl

theorem foldIfDue_onward (h : Onward s₀ s) : Onward s₀ (foldIfDue s) := .ite (startFold_onward h) h

theorem cutFold_onward (h : Onward s₀ s) : Onward s₀ (cutFold s) := .frame h rfl

theorem journalEvent_onward {cause : Nat} (h : Onward s₀ s) : Onward s₀ (journalEvent cause s) := raisePriv_onward h

theorem liveRecords_onward (h : Onward s₀ s) : Onward s₀ (liveRecords s) :=
  .foldl (fun _ _ ht => addRec_onward ht) (.foldl (fun _ _ ht => .ite ht (addRec_onward ht)) h)

theorem takePair_onward {x1 b : Nat} (h : Onward s₀ s) : Onward s₀ (takePair x1 b s) :=
  winWrite_onward (eraseRing_onward (.frame h rfl))

theorem awaitPair_onward (h : Onward s₀ s) : Onward s₀ (awaitPair s) := .frame (cutFold_onward h) rfl

theorem movePair_onward (h : Onward s₀ s) : Onward s₀ (movePair s) := by
  unfold movePair
  extract_lets
  refine .ite (awaitPair_onward h) ?_
  split
  · exact startFold_onward (liveRecords_onward (takePair_onward h))
  · exact setConds_onward (fun _ => rfl) (awaitPair_onward h)

theorem journalCopyFailed_onward {copy : Nat} (h : Onward s₀ s) : Onward s₀ (journalCopyFailed copy s) := by
  unfold journalCopyFailed
  extract_lets +onlyGivenNames _ _ s₁ s₂
  have hs₁ : Onward s₀ s₁ := .frame h rfl
  have hs₂ : Onward s₀ s₂ := .frame h rfl
  have hs₃ : Onward s₀ (disownCopies [0, 1] s) := .frame h rfl
  refine .ite h (.ite ?_ (.ite ?_ (movePair_onward (.frame hs₃ rfl))))
  · exact movePair_onward (journalEvent_onward (.frame (.frame hs₁ rfl) rfl))
  · exact journalEvent_onward (setConds_onward (fun _ => rfl) hs₂)

theorem journalLunFailed_onward {u : Nat} (h : Onward s₀ s) : Onward s₀ (journalLunFailed u s) :=
  .ite (journalCopyFailed_onward h) (.ite h (.ite (journalCopyFailed_onward h) (.ite (journalCopyFailed_onward h) h)))

/-! ### What carries on: Machine/Background.lean -/

theorem dropReads_onward {id : Nat} (h : Onward s₀ s) : Onward s₀ (dropReads id s) := .frame (withdraw_onward h) rfl

theorem endRow_onward {id : Nat} (h : Onward s₀ s) : Onward s₀ (endRow id s) := .frame (dropReads_onward h) rfl

theorem endRows_onward {p : RowRun → Bool} (h : Onward s₀ s) : Onward s₀ (endRows p s) := .foldl (fun _ _ ht => endRow_onward ht) h

theorem setDegraded_onward (h : Onward s₀ s) : Onward s₀ (setDegraded s) := by
  unfold setDegraded
  exact setConds_onward (fun _ => rfl) h

theorem patrolRec_onward (h : Onward s₀ s) : Onward s₀ (patrolRec s) := addRec_onward h

theorem patrolUpdate_onward (h : Onward s₀ s) : Onward s₀ (patrolUpdate s) := .frame (.ite (patrolRec_onward h) h) rfl

theorem checkpointRec_onward (h : Onward s₀ s) : Onward s₀ (checkpointRec s) := addRec_onward (.frame h rfl)

theorem pauseRefit_onward (h : Onward s₀ s) : Onward s₀ (pauseRefit s) := .ite (checkpointRec_onward (.frame h rfl)) h

theorem rebuildCond_onward (h : Onward s₀ s) : Onward s₀ (rebuildCond s) :=
  patrolUpdate_onward (setConds_onward (fun _ => rfl) (.frame (.ite (pauseRefit_onward h) (.ite (.frame h rfl) h)) rfl))

theorem queueRebuild_onward {g failed i : Nat} {given : Option Nat} (h : Onward s₀ s) :
    Onward s₀ (queueRebuild g failed i given s) :=
  rebuildCond_onward (.frame (addRec_onward h) rfl)

theorem autoRebuild_onward {u : Nat} (h : Onward s₀ s) : Onward s₀ (autoRebuild u s) := by
  refine .ite ?_ h
  split
  · exact .ite h (queueRebuild_onward h)
  · exact raise_onward h

theorem autoRebuilds_onward {ms : List (Nat × Nat)} (h : Onward s₀ s) : Onward s₀ (autoRebuilds ms s) :=
  .foldl (fun _ _ ht => autoRebuild_onward ht) h

theorem leaveMember_onward (h : Onward s₀ s) : Onward s₀ (leaveMember s) := .frame (endRows_onward h) rfl

theorem eraseBlocks_onward {ws : List Member} (h : Onward s₀ s) : Onward s₀ (eraseBlocks ws s) :=
  .ite h (.foldl (fun _ _ ht => addErase_onward ht) h)

theorem abandonRefit_onward {cause : Nat} (h : Onward s₀ s) : Onward s₀ (abandonRefit cause s) :=
  .ite h (patrolUpdate_onward (setConds_onward (fun _ => rfl) (raise_onward
    (setDegraded_onward (.frame (.foldl (fun _ _ ht => writeDir_onward ht)
    (eraseBlocks_onward (.foldl (fun _ _ ht => freeDir_onward ht)
    (.frame (endRows_onward (.frame (withdraw_onward (addRec_onward h)) rfl)) rfl)))) rfl)))))

theorem declareDown_onward {g m cause : Nat} (h : Onward s₀ s) : Onward s₀ (declareDown g m cause s) := by
  unfold declareDown
  extract_lets +onlyGivenNames _ _ _ _ s₁
  have hs₁ : Onward s₀ s₁ := raisePriv_onward (addRec_onward (writeDir_onward h))
  extract_lets +onlyGivenNames s₂
  have hs₂ : Onward s₀ s₂ := .ite (leaveMember_onward hs₁) hs₁
  extract_lets +onlyGivenNames s₃
  have hs₃ : Onward s₀ s₃ := .ite (abandonRefit_onward hs₂) hs₂
  exact patrolUpdate_onward (setDegraded_onward (.ite (closeGroup_onward hs₃) hs₃))

theorem memberDown_onward {g m cause : Nat} (h : Onward s₀ s) : Onward s₀ (memberDown g m cause s) := .ite h (declareDown_onward h)

theorem lunDown_onward {u cause : Nat} (h : Onward s₀ s) : Onward s₀ (lunDown u cause s) := by
  unfold lunDown
  extract_lets +onlyGivenNames _ s₁
  have hs₁ : Onward s₀ s₁ := .foldl (fun _ _ ht => memberDown_onward ht) h
  exact autoRebuilds_onward (journalLunFailed_onward (.ite (abandonRefit_onward (.frame hs₁ rfl)) (.frame hs₁ rfl)))

theorem memberRecs_onward {g n i : Nat} {ms : List Member} (h : Onward s₀ s) : Onward s₀ (memberRecs g n i ms s) := by
  induction n generalizing i ms s with
  | zero => exact h
  | succ n ih => exact .ite h (ih (addRec_onward h))

theorem openGroup_onward {e : DirEntry} (h : Onward s₀ s) : Onward s₀ (openGroup e s) := by
  unfold openGroup
  extract_lets +onlyGivenNames _ s₁
  have hs₁ : Onward s₀ s₁ := addRec_onward h
  extract_lets +onlyGivenNames s₂
  have hs₂ : Onward s₀ s₂ := memberRecs_onward hs₁
  exact writeDir_onward hs₂

theorem moveBinds_onward (h : Onward s₀ s) : Onward s₀ (moveBinds s) := by
  refine .foldl (fun _ _ ht => writeDir_onward ht) ?_
  refine .foldl (fun _ _ ht => ?_) (.foldl (fun _ _ ht => winWrite_onward ht) (.frame h rfl))
  split
  · exact winWrite_onward (.frame (.frame ht rfl) rfl)
  · exact ht

theorem commitRefit_onward (h : Onward s₀ s) : Onward s₀ (commitRefit s) := by
  unfold commitRefit
  extract_lets s₁ words s₂ s₃ s₄ _ s₅
  have hs₂ : Onward s₀ s₂ := .foldl (fun _ _ ht => writeDir_onward ht) (moveBinds_onward h)
  have hs₃ : Onward s₀ s₃ := .foldl (fun _ _ ht => freeDir_onward (clearLedgerGroup_onward ht)) hs₂
  have hs₅ : Onward s₀ s₅ := .frame (eraseBlocks_onward hs₃) rfl
  exact patrolUpdate_onward (setConds_onward (fun _ => rfl) (raise_onward (setDegraded_onward hs₅)))

/-! ### What carries on: Machine/Entries.lean -/

theorem pushEntry_onward {e : Entry} (h : Onward s₀ s) : Onward s₀ (pushEntry e s) := .frame (.frame h rfl) rfl

theorem stopRing_onward {n cause index : Nat} (h : Onward s₀ s) : Onward s₀ (stopRing n cause index s) :=
  raise_onward (.frame (.frame h rfl) rfl)

theorem latchStop_onward {n cause index : Nat} (h : Onward s₀ s) : Onward s₀ (latchStop n cause index s) := .frame (.frame h rfl) rfl

theorem settleStop_onward {n : Nat} (h : Onward s₀ s) : Onward s₀ (settleStop n s) := by
  unfold settleStop
  split
  · exact .ite h (.ite (latchStop_onward (.frame h rfl)) (stopRing_onward (.frame h rfl)))
  · exact h

theorem undoOpen_onward {e : Entry} (h : Onward s₀ s) : Onward s₀ (undoOpen e s) := .ite (.frame h rfl) h

theorem tellAccums_onward {handle : Nat} {body : List Byte} (h : Onward s₀ s) : Onward s₀ (tellAccums handle body s) :=
  .ite h (dvSend_onward (.frame h rfl))

theorem dropAccum_onward (h : Onward s₀ s) : Onward s₀ (dropAccum s) := by
  unfold dropAccum
  extract_lets +onlyGivenNames _ s₁ s₂
  have hs₁ : Onward s₀ s₁ := .frame h rfl
  have hs₂ : Onward s₀ s₂ := tellAccums_onward hs₁
  exact .frame hs₂ rfl

theorem abortEntry_onward {st det : Nat} {e : Entry} (h : Onward s₀ s) : Onward s₀ (abortEntry st det s e) := by
  unfold abortEntry
  extract_lets +onlyGivenNames s₁
  have hs₁ : Onward s₀ s₁ := undoOpen_onward (.frame (withdraw_onward h) rfl)
  exact .frame (.frame (.frame (.ite (dropAccum_onward hs₁) hs₁) rfl) rfl) rfl

theorem walkStops_onward {n cause units : Nat} {x4 : Head0} (h : Onward s₀ s) : Onward s₀ (walkStops n cause units x4 s) :=
  latchStop_onward (pushEntry_onward (.frame h rfl))

theorem walkTakes_onward {n : Nat} {x2 : Head0} {bs : List Byte} {more : List HostRead} (h : Onward s₀ s) :
    Onward s₀ (walkTakes n x2 bs more s) :=
  .frame (.frame (pushEntry_onward h) rfl) rfl

theorem walkStep_onward {n : Nat} (h : Onward s₀ s) : Onward s₀ (walkStep n s) := by
  unfold walkStep
  dsimp only
  split
  · exact .frame h rfl
  · split
    · exact .frame (latchStop_onward (.frame (.frame h rfl) rfl)) rfl
    · refine .ite (.frame (.frame (.frame h rfl) rfl) rfl) ?_
      refine .ite (walkStops_onward (.frame (.frame h rfl) rfl)) ?_
      refine .ite (walkStops_onward (.frame (.frame h rfl) rfl)) ?_
      split
      · exact .frame (.frame (.frame h rfl) rfl) rfl
      · exact .frame (latchStop_onward (.frame (.frame h rfl) rfl)) rfl
      · split
        · exact walkStops_onward (.frame (.frame h rfl) rfl)
        · exact walkTakes_onward (.frame (.frame h rfl) rfl)

theorem disableRing_onward {n : Nat} (h : Onward s₀ s) : Onward s₀ (disableRing n s) := raise_onward (.frame h rfl)

theorem settleShutdown_onward {n : Nat} (h : Onward s₀ s) : Onward s₀ (settleShutdown n s) :=
  .ite (.ite (disableRing_onward h) (.ite (.ite (disableRing_onward (walkStep_onward h)) (walkStep_onward h)) h)) h

theorem settleRestart_onward {n : Nat} (h : Onward s₀ s) : Onward s₀ (settleRestart n s) := .ite (.frame h rfl) h

theorem settleRing_onward {n : Nat} (h : Onward s₀ s) : Onward s₀ (settleRing n s) :=
  settleRestart_onward (settleShutdown_onward (settleStop_onward h))

theorem settleRings_onward (h : Onward s₀ s) : Onward s₀ (settleRings s) :=
  .ite (.foldl (fun _ _ ht => .ite (settleRing_onward ht) ht) h) h

/-! ### What carries on: Machine/Thresholds.lean -/

theorem useDose_onward {u b : Nat} (h : Onward s₀ s) : Onward s₀ (useDose u b s).2 := by
  unfold useDose
  split
  · exact h
  · split
    · exact .frame h rfl
    · split
      · exact h
      · exact .frame h rfl

theorem addPageJob_onward {owner : Owner} {p : Page} {mask slot prio step : Nat} {feats : List (Nat × Nat)} {items : List (BitVec 128)}
    (h : Onward s₀ s) : Onward s₀ (addPageJob owner p mask slot prio step feats items s).2 :=
  addJob_onward (useDose_onward h)

theorem addRead_onward {owner : Owner} {p : Page} {mask slot prio step tag : Nat} {off : List ℤ} (h : Onward s₀ s) :
    Onward s₀ (addRead owner p mask slot prio step tag off s).2 :=
  addPageJob_onward (.ite (.frame h rfl) h)

theorem addSense_onward {owner : Owner} {p : Page} {mask slot prio step tag i : Nat} {off : List ℤ} (h : Onward s₀ s) :
    Onward s₀ (addSense owner p mask slot prio step tag i off s).2 :=
  addPageJob_onward h

/-! ### What carries on: Machine/Reads.lean -/

theorem deliverAt_onward {eid pos slot : Nat} {bs : List Byte} (h : Onward s₀ s) : Onward s₀ (deliverAt eid pos slot bs s) := by
  unfold deliverAt
  dsimp only
  split
  · exact .frame (.foldlFst (fun _ _ ht => hostWriteData_onward ht) h) rfl
  · exact h

theorem loseCw_onward {eid det : Nat} (h : Onward s₀ s) : Onward s₀ (loseCw eid det s) := .frame (.frame h rfl) rfl

theorem noteLadder_onward {c : Cw} {step : Nat} {leaves : Bool} (h : Onward s₀ s) : Onward s₀ (noteLadder c step leaves s) := by
  unfold noteLadder
  split
  · exact .frame h rfl
  · exact h

theorem rereadCw_onward {c : Cw} {p : Page} {prio : Nat} {owner : Owner} (h : Onward s₀ s) : Onward s₀ (rereadCw c p prio owner s) :=
  .frame (addRead_onward h) rfl

theorem endClimb_onward {c : Cw} (h : Onward s₀ s) : Onward s₀ (endClimb c s) := by
  unfold endClimb
  dsimp only
  split
  · exact loseCw_onward (.frame (.frame h rfl) rfl)
  · exact .frame (.frame h rfl) rfl

theorem failCw_onward {c : Cw} {spent : Bool} (h : Onward s₀ s) : Onward s₀ (failCw c spent s) :=
  .ite (endClimb_onward (.frame h rfl)) (.frame h rfl)

theorem reread_onward {cs : List Cw} {step : Nat} {add : Nat → Nat → State → Nat × State} {f : Cw → Cw}
  (hf : ∀ {y1 y2 u}, Onward s₀ u → Onward s₀ (add y1 y2 u).2)
    (h : Onward s₀ s) : Onward s₀ (reread cs step add f s) :=
  .frame (.foldl (fun _ _ ht => .frame (hf ht) rfl) h) rfl

theorem startMemberRead_onward {e : Entry} {m : Nat} (h : Onward s₀ s) : OnwardIf s₀ (startMemberRead e m s) := by
  refine .ite (.some (.foldl (fun _ _ ht => deliverAt_onward ht) (.frame h rfl))) ?_
  refine .ite (.some (.foldl (fun _ _ ht => loseCw_onward ht) (.frame h rfl))) ?_
  split
  · exact .none
  · exact .ite (.some (.foldl (fun _ _ ht => .ite (endClimb_onward ht) ht)
      (.foldl (fun _ _ ht => noteLadder_onward ht) (.foldl (fun _ _ ht => loseCw_onward ht)
      (.frame (.frame h rfl) rfl))))) (.some (.foldl (fun _ _ ht => loseCw_onward ht)
      (.frame (addRead_onward (.frame h rfl)) rfl)))

theorem pumpReads_onward (h : Onward s₀ s) : Onward s₀ (pumpReads s) := by
  refine .foldl (fun t p ht => ?_) h
  split
  case h_1 u e => exact startMemberRead_onward ht u e
  case h_2 => exact ht

/-! ### What carries on: Machine/Ladder.lean -/

theorem assignEncoders_onward (h : Onward s₀ s) : Onward s₀ (assignEncoders s) := by
  refine .foldl (fun _ _ ht => ?_) h
  split
  · exact .frame ht rfl
  · exact ht

theorem remoteData_onward {r : Remote} {c : Nat} (h : Onward s₀ s) : Onward s₀ (remoteData r c s).2.2 := by
  unfold remoteData
  extract_lets +onlyGivenNames _
  split
  · exact sramRead_onward h
  · exact h
  · split
    · exact slotBytes_onward h
    · exact h

theorem pageData_onward {j : Job} {c : Nat} (h : Onward s₀ s) : Onward s₀ (pageData j c s).2.2 := by
  unfold pageData
  split
  · exact sramRead_onward h
  · split
    · exact h
    · exact slotBytes_onward h
  · split <;> exact h
  · exact h
  · exact h
  · exact h
  · split
    · exact remoteData_onward h
    · exact h
  · exact h

theorem badPage_onward {j : Job} {c : Nat} (h : Onward s₀ s) : Onward s₀ (badPage j c s) := by
  unfold badPage
  dsimp only
  split
  · split
    · exact .foldl (fun _ _ ht => .frame ht rfl) (.frame h rfl)
    · exact h
  · exact .frame h rfl
  · exact h

theorem takeInject_onward {raw : List Byte} (h : Onward s₀ s) : Onward s₀ (takeInject raw s).2 := by
  unfold takeInject
  split
  · exact h
  · exact .frame h rfl

theorem takeDecode_onward {kind engine : Nat} (h : Onward s₀ s) : Onward s₀ (takeDecode kind s engine) := by
  refine .ite h ?_
  refine .ite ?_ ?_
  · split
    · exact .frame (takeInject_onward h) rfl
    · exact h
  · split
    · exact .frame h rfl
    · exact h

theorem assignDecoders_onward (h : Onward s₀ s) : Onward s₀ (assignDecoders s) :=
  takeDecode_onward (.foldl (fun _ _ ht => takeDecode_onward ht) (.foldl (fun _ _ ht => takeDecode_onward ht) (.frame h rfl)))

theorem senseSearch_onward {q : Search} (h : Onward s₀ s) : Onward s₀ (senseSearch q s) :=
  .foldl (fun _ _ ht => addSense_onward ht) (.frame h rfl)

theorem senseAll_onward {j : Job} {off : List ℤ} {step mask slot : Nat} (h : Onward s₀ s) :
    Onward s₀ (senseAll j off step mask slot s).2 := by
  refine .foldlSnd (fun acc x ht => ?_) h
  dsimp only
  split
  · exact addSense_onward ht
  · exact .frame (addSense_onward ht) rfl

theorem senseGranted_onward {job : Nat} (h : Onward s₀ s) : Onward s₀ (senseGranted s job) := by
  unfold senseGranted
  split
  · exact reread_onward (fun hu => senseAll_onward hu) h
  · exact h

theorem grantArea_onward {t' : AreaTurn} (h : Onward s₀ s) : Onward s₀ (grantArea s t') := by
  refine .ite ?_ h
  split
  · split
    · exact senseSearch_onward (.frame h rfl)
    · exact h
  · exact .frame h rfl
  · exact h

theorem pumpAreas_onward (h : Onward s₀ s) : Onward s₀ (pumpAreas s) :=
  .ite h (.foldl (fun _ _ ht => senseGranted_onward ht) (.foldl (fun _ _ ht => grantArea_onward ht) h))

theorem failTruing_onward {cs : List Cw} (h : Onward s₀ s) : Onward s₀ (failTruing cs s) := .foldl (fun _ _ ht => failCw_onward ht) h

theorem settleTruing_onward (h : Onward s₀ s) : Onward s₀ (settleTruing s) := failTruing_onward h

theorem dropSearch_onward {id : Nat} (h : Onward s₀ s) : Onward s₀ (dropSearch id s) := .frame (withdraw_onward h) rfl

theorem abandonSearch_onward {q : Search} (h : Onward s₀ s) : Onward s₀ (abandonSearch q s) :=
  pumpAreas_onward (failTruing_onward (raise_onward (.frame (.frame (dropSearch_onward h) rfl) rfl)))

theorem settleRead_onward {e : Entry} (h : Onward s₀ s) : Onward s₀ (settleRead s e) := .ite (.frame h rfl) h

theorem fixRead_onward {i c m : Nat} (h : Onward s₀ s) : Onward s₀ (fixRead i c m s) := by
  unfold fixRead
  dsimp only
  split
  · exact h
  · exact .ite (.frame h rfl) (.frame (addRead_onward h) rfl)

theorem rewriteParity_onward {i c : Nat} {ds : List (Nat × List Byte)} (h : Onward s₀ s) : Onward s₀ (rewriteParity i c ds s) :=
  slotWrite_onward (slotWrite_onward h)

theorem fixData_onward {i c : Nat} (h : Onward s₀ s) : Onward s₀ (fixData i c s).2.2 := by
  refine .foldlThird (fun acc m ht => ?_) h
  split
  · rw [fixGot_state]
    exact sramRead_onward ht
  · split
    · rw [fixGot_state]
      exact sramRead_onward ht
    · exact ht

theorem fixEnd_onward {i c : Nat} (h : Onward s₀ s) : Onward s₀ (fixEnd i c s) := by
  have hdata : Onward s₀ (fixData i c s).2.2 := fixData_onward h
  unfold fixEnd
  generalize fixData i c s = d at hdata
  extract_lets k
  obtain ⟨ds, gone, t⟩ := d
  dsimp -zeta only at hdata ⊢
  extract_lets back _ s₁ s₂ s₃
  have hs₃ : Onward s₀ s₃ := .frame (.frame (.frame hdata rfl) rfl) rfl
  exact placeAll_onward (.ite (rewriteParity_onward hs₃) (.foldl (fun _ _ ht => addLoss_onward ht) (.frame hs₃ rfl)))

theorem pumpFix_onward {i : Nat} (h : Onward s₀ s) : Onward s₀ (pumpFix s i) := by
  unfold pumpFix
  extract_lets +onlyGivenNames _
  split
  · exact .ite (.ite (.foldl (fun _ _ ht => fixRead_onward ht) h) h) (.ite (fixEnd_onward h) h)
  · exact h

/-! ### What carries on: Machine/Dose.lean -/

theorem settleSweep_onward (h : Onward s₀ s) : Onward s₀ (settleSweep s) := .ite (.frame h rfl) h

/-! ### What carries on: Machine/Writes.lean -/

theorem fetchCw_onward {e : Entry} {set m c : Nat} (h : Onward s₀ s) : Onward s₀ (fetchCw e set m c s) :=
  .foldl (fun _ _ ht => .frame ht rfl) h

theorem takeStages_onward {e : Entry} (h : Onward s₀ s) : Onward s₀ (takeStages s e) :=
  .ite (.foldl (fun _ _ ht => .foldl (fun _ _ ht₁ => fetchCw_onward ht₁) ht) (.frame h rfl)) h

theorem pumpStages_onward (h : Onward s₀ s) : Onward s₀ (pumpStages s) := by
  unfold pumpStages
  split
  · exact takeStages_onward h
  · exact h

theorem pumpAllStages_onward {n : Nat} (h : Onward s₀ s) : Onward s₀ (pumpAllStages n s) := by
  induction n generalizing s with
  | zero => exact h
  | succ n ih => exact ih (pumpStages_onward h)

theorem settleWrite_onward {e : Entry} (h : Onward s₀ s) : Onward s₀ (settleWrite s e) :=
  .ite (.ite (.frame (.frame h rfl) rfl) (.frame h rfl)) h

/-! ### What carries on: Machine/Groups.lean -/

theorem releaseNow_onward {e : Entry} (h : Onward s₀ s) : Onward s₀ (releaseNow e s) :=
  setDegraded_onward (.foldl (fun _ _ ht => addErase_onward ht) (.frame (.frame (freeDir_onward (clearLedgerGroup_onward h)) rfl) rfl))

theorem settleRelease_onward {e : Entry} (h : Onward s₀ s) : Onward s₀ (settleRelease s e) := by
  refine .ite ?_ h
  split
  · exact .ite (releaseNow_onward h) h
  · exact .ite (.frame h rfl) h

theorem settleFlush_onward {e : Entry} (h : Onward s₀ s) : Onward s₀ (settleFlush s e) := by
  refine .ite ?_ h
  refine .ite h ?_
  split
  · exact .ite (.frame h rfl) h
  · exact .frame h rfl
  · exact .frame h rfl

theorem settleOpen_onward {e : Entry} (h : Onward s₀ s) : Onward s₀ (settleOpen s e) :=
  .ite (.ite (.frame (openGroup_onward h) rfl) (.frame (undoOpen_onward h) rfl)) h

theorem settleClose_onward {e : Entry} (h : Onward s₀ s) : Onward s₀ (settleClose s e) := .ite (.frame h rfl) h

/-! ### What carries on: Machine/Services.lean -/

theorem settleRuns_onward (h : Onward s₀ s) : Onward s₀ (settleRuns s) := endRows_onward h

/-! ### What carries on: Machine/Media.lean -/

theorem setBind_onward {i : Nat} {b : BindEntry} (h : Onward s₀ s) : Onward s₀ (setBind i b s) :=
  addRec_onward (winWrite_onward (.frame (.frame h rfl) rfl))

theorem clearBind_onward {i : Nat} (h : Onward s₀ s) : Onward s₀ (clearBind i s) := addRec_onward (winWrite_onward (.frame h rfl))

theorem trimBind_onward {first n : Nat} {p : Nat × BindEntry} (h : Onward s₀ s) : Onward s₀ (trimBind first n s p) := by
  refine .ite (clearBind_onward h) ?_
  refine .ite (setBind_onward h) ?_
  refine .ite (setBind_onward h) ?_
  split
  · exact setBind_onward (setBind_onward h)
  · exact h

theorem unbindRange_onward {g first n : Nat} {job : Word} (h : Onward s₀ s) : Onward s₀ (unbindRange g first n job s).2 :=
  .ite (writeDir_onward (.foldl (fun _ _ ht => trimBind_onward ht) h)) (.foldl (fun _ _ ht => trimBind_onward ht) h)

theorem settleBind_onward {e : Entry} (h : Onward s₀ s) : Onward s₀ (settleBind s e) := .ite (.frame h rfl) h

theorem mediaSend_onward {x1 : Nat} {m : BitVec 64} (h : Onward s₀ s) : Onward s₀ (mediaSend x1 m s) := by
  unfold mediaSend
  dsimp only
  split
  · exact .frame h rfl
  · exact dvSend_onward h

theorem mediaBeats_onward {x1 : Nat} {l : List (List Byte)} (h : Onward s₀ s) : Onward s₀ (mediaBeats x1 l s) := by
  unfold mediaBeats
  dsimp only
  split
  · exact .frame h rfl
  · exact .ite h (dvSend_onward h)

theorem flushHead_onward {n hd : Nat} (h : Onward s₀ s) : Onward s₀ (flushHead n hd s) := by
  induction n generalizing s with
  | zero => exact h
  | succ n ih =>
    unfold flushHead
    split
    case h_1 =>
      refine .ite (ih (.foldl (fun _ _ ht => mediaSend_onward ht) (mediaBeats_onward ?_))) h
      exact .foldl (fun _ _ ht => mediaSend_onward ht) (modHead_onward (fun _ => rfl) h)
    case h_2 => exact h

theorem flushAnswers_onward (h : Onward s₀ s) : Onward s₀ (flushAnswers s) := .foldl (fun _ _ ht => flushHead_onward ht) h

theorem answer_onward {x1 : Nat} {x2 : Ans} (h : Onward s₀ s) : Onward s₀ (answer x1 x2 s) :=
  flushAnswers_onward (modHead_onward (fun _ => rfl) h)

theorem ack_onward {m : BitVec 64} (h : Onward s₀ s) : Onward s₀ (ack m s) := answer_onward h

theorem nak_onward {m : BitVec 64} {reason : Nat} (h : Onward s₀ s) : Onward s₀ (nak m reason s) := answer_onward h

theorem startUnit_onward {x1 g : Nat} {u : Nat × Nat} (h : Onward s₀ s) : OnwardIf s₀ (startUnit x1 g u s) := by
  unfold startUnit
  dsimp only
  split
  · exact .none
  · exact .ite (.some (.frame h rfl)) (.some (.frame (addRead_onward h) rfl))

theorem nextUnit_onward {x1 : Nat} (h : Onward s₀ s) : OnwardIf s₀ (nextUnit x1 s) := by
  unfold nextUnit
  split
  · split
    · refine .ite .none ?_
      split
      case h_1 t e => exact .some (modHead_onward (fun _ => rfl) (startUnit_onward h t e))
      case h_2 => exact .none
    · exact .none
  · exact .none

theorem pumpFeed_onward {n hd : Nat} (h : Onward s₀ s) : Onward s₀ (pumpFeed n hd s) := by
  induction n generalizing s with
  | zero => exact h
  | succ n ih =>
    unfold pumpFeed
    split
    case h_1 t e => exact ih (nextUnit_onward h t e)
    case h_2 => exact h

theorem pumpFeeds_onward (h : Onward s₀ s) : Onward s₀ (pumpFeeds s) := .foldl (fun _ _ ht => pumpFeed_onward ht) h

theorem feedDone_onward {x1 : Nat} {f : Feed} (h : Onward s₀ s) : Onward s₀ (feedDone x1 f s) :=
  flushAnswers_onward (modHead_onward (fun _ => rfl) h)

theorem cutFeed_onward {x1 : Nat} (h : Onward s₀ s) : Onward s₀ (cutFeed x1 s) := by
  unfold cutFeed
  dsimp only
  split
  · exact h
  · refine feedDone_onward ?_
    refine .frame ?_ rfl
    refine withdraw_onward ?_
    split
    · exact .frame (mediaSend_onward h) rfl
    · exact h

/-- An ATTACH may wire its head elsewhere. -/
theorem serveAttach_onward {m : BitVec 64} (hm : ¬ noAttach s₀) (h : Onward s₀ s) : Onward s₀ (serveAttach m s) :=
  have hwired {f : Head → Head} : Onward s₀ (modHead (mHead m) f s) :=
    { h with queue := fun hs => absurd hs hm, wires := fun hs => absurd hs hm }
  .ite (nak_onward h) (.ite (nak_onward h) (ack_onward hwired))

theorem serveDetach_onward {m : BitVec 64} (h : Onward s₀ s) : Onward s₀ (serveDetach m s) :=
  ack_onward (modHead_onward (fun _ => rfl) (cutFeed_onward h))

theorem serveFeed_onward {m : BitVec 64} (h : Onward s₀ s) : Onward s₀ (serveFeed m s) := by
  unfold serveFeed
  extract_lets +onlyGivenNames _
  split
  · exact mediaSend_onward h
  · exact nak_onward h
  · exact .ite (feedDone_onward (answer_onward (modHead_onward (fun _ => rfl) h)))
      (pumpFeeds_onward (answer_onward (modHead_onward (fun _ => rfl) h)))

/-- A change of a head that the statistics count. -/
theorem countedHead_onward {n : Nat} {f : Head → Head} {st : Stats} (hf : ∀ x, (f x).via = x.via) (h : Onward s₀ s) :
    Onward s₀ { modHead n f s with stats := st } :=
  .frame (modHead_onward hf h) rfl

theorem serveVerifyGood_onward {m : BitVec 64} (h : Onward s₀ s) : Onward s₀ (serveVerifyGood m s) := by
  unfold serveVerifyGood
  dsimp only
  split
  · exact nak_onward h
  · exact .ite (nak_onward h) (.ite (nak_onward h) (answer_onward (countedHead_onward (fun _ => rfl)
      (addRec_onward (unbindRange_onward h)))))

theorem serveVerifyBad_onward {m : BitVec 64} (h : Onward s₀ s) : Onward s₀ (serveVerifyBad m s) := by
  unfold serveVerifyBad
  dsimp only
  split
  · exact nak_onward h
  · exact ack_onward (raise_onward (countedHead_onward (fun _ => rfl) h))

theorem serveFragOpen_onward {m : BitVec 64} (h : Onward s₀ s) : Onward s₀ (serveFragOpen m s) := by
  refine .ite (nak_onward h) ?_
  refine .ite (nak_onward h) ?_
  split
  · exact nak_onward h
  · exact ack_onward (.frame (.frame (.frame h rfl) rfl) rfl)

theorem servePass_onward {m : BitVec 64} (h : Onward s₀ s) : Onward s₀ (servePass m s) := by
  refine .ite (nak_onward h) ?_
  split
  · exact nak_onward h
  · exact .ite (nak_onward h) (answer_onward (modHead_onward (fun _ => rfl) h))

theorem serveFragRead_onward {m : BitVec 64} (h : Onward s₀ s) : Onward s₀ (serveFragRead m s) := by
  refine .ite (nak_onward h) ?_
  split
  · exact nak_onward h
  · exact answer_onward (sramRead_onward h)

theorem serveFragClose_onward {m : BitVec 64} (h : Onward s₀ s) : Onward s₀ (serveFragClose m s) := by
  refine .ite (nak_onward h) ?_
  split
  · exact nak_onward h
  · exact ack_onward (.frame h rfl)

theorem serveMessage_onward {m : BitVec 64} (hm : mKind m = 1 → ¬ noAttach s₀) (h : Onward s₀ s) :
    Onward s₀ (serveMessage m s) := by
  refine .ite (nak_onward h) ?_
  split
  · next hkind => exact serveAttach_onward (hm hkind) h
  · exact serveDetach_onward h
  · exact serveFeed_onward h
  · exact serveVerifyGood_onward h
  · exact serveVerifyBad_onward h
  · exact serveFragOpen_onward h
  · exact servePass_onward h
  · exact serveFragRead_onward h
  · exact serveFragClose_onward h
  · exact nak_onward h

theorem serveQueue_onward {n : Nat} (h : Onward s₀ s) : Onward s₀ (serveQueue n s) := by
  induction n generalizing s with
  | zero => exact h
  | succ n ih =>
    unfold serveQueue
    split
    case h_1 => exact h
    case h_2 m rest hqueue =>
      have hm : mKind m = 1 → ¬ noAttach s₀ := fun hkind hs => h.queue hs m (hqueue ▸ List.mem_cons_self) hkind
      exact .ite h (ih (serveMessage_onward hm (.media (fun x hx => hqueue ▸ List.mem_cons_of_mem m hx) rfl h)))

theorem cutLostFeeds_onward (h : Onward s₀ s) : Onward s₀ (cutLostFeeds s) := by
  refine .foldl (fun _ _ ht => ?_) h
  split
  · exact .ite ht (cutFeed_onward ht)
  · exact ht

/-! ### What carries on: Machine/Channels.lean -/

theorem configEvent_onward {cause what sub rate : Nat} (h : Onward s₀ s) : Onward s₀ (configEvent cause what sub rate s) :=
  raisePriv_onward h

theorem dropType_onward {t' : Nat} {chans : List Nat} (h : Onward s₀ s) : Onward s₀ (dropType t' chans s) :=
  .foldl (fun _ _ ht => modChan_onward (fun _ => id) ht) h

theorem recheckTypes_onward (h : Onward s₀ s) : Onward s₀ (recheckTypes s) := by
  refine .foldl (fun t n ht => ?_) h
  dsimp only
  split
  · exact dropType_onward (configEvent_onward ht)
  · exact ht

theorem runRoutine_onward {ch ce lun a : Nat} {regs : List (Nat × Nat)} (h : Onward s₀ s) :
    Onward s₀ (runRoutine ch ce lun a regs s) :=
  modChan_onward (fun _ => id) h

theorem trainTarget_onward {ch ce : Nat} (h : Onward s₀ s) : Onward s₀ (trainTarget ch s ce) := by
  unfold trainTarget
  extract_lets +onlyGivenNames _ _ s₁
  have hs₁ : Onward s₀ s₁ := .ite (runRoutine_onward h) h
  extract_lets +onlyGivenNames s₂
  have hs₂ : Onward s₀ s₂ := .ite (runRoutine_onward hs₁) (runRoutine_onward hs₁)
  exact .ite (runRoutine_onward (runRoutine_onward hs₂)) (runRoutine_onward hs₂)

theorem setFeature_onward {ch ce : Nat} {f : BitVec 40} (h : Onward s₀ s) : Onward s₀ (setFeature ch ce f s) :=
  runRoutine_onward (runRoutine_onward h)

theorem setRate_onward {ch rate : Nat} (h : Onward s₀ s) : Onward s₀ (setRate ch rate s) := modChan_onward (fun _ => id) h

theorem tryRate_onward {ch : Nat} {ces : List Nat} {rate : Nat} (h : Onward s₀ s) : Onward s₀ (tryRate ch ces s rate) :=
  .foldl (fun _ _ ht => trainTarget_onward ht)
    (.foldl (fun _ _ ht => runRoutine_onward (setFeature_onward (setFeature_onward ht))) h)

theorem setTimings_onward {ch : Nat} {ces : List Nat} (h : Onward s₀ s) : Onward s₀ (setTimings ch ces s) :=
  modChan_onward (fun _ => id) (.frame h rfl)

theorem dropTargets_onward {ch mask : Nat} (h : Onward s₀ s) : Onward s₀ (dropTargets ch mask s) :=
  .foldl (fun _ _ ht => .ite ht (lunDown_onward ht)) (modChan_onward (fun _ => id) h)

theorem fallBack_onward {ch : Nat} {targets : List TargetIn} (h : Onward s₀ s) : Onward s₀ (fallBack ch targets s) :=
  .ite (modChan_onward (fun _ => id) h) (configEvent_onward (modChan_onward (fun _ => id) (setTimings_onward
    (dropTargets_onward (setRate_onward (.foldl (fun _ _ ht => tryRate_onward ht) h))))))

theorem settleFall_onward {ch : Nat} (h : Onward s₀ s) : Onward s₀ (settleFall s ch) :=
  .ite (fallBack_onward (modChan_onward (fun _ => id) (.frame h rfl))) h

/-! ### What carries on: Machine/Recovery.lean -/

theorem beginRecovery_onward (h : Onward s₀ s) : Onward s₀ (beginRecovery s) := by
  unfold beginRecovery
  extract_lets +onlyGivenNames modes s₁
  have hstage : 0xD ≤ s.modes.stage → 0xD ≤ s₁.modes.stage := by
    intro hs
    show (0xD : BitVec 4) ≤ if s.modes.train = true then 0xE else s.modes.stage
    split
    · decide
    · exact hs
  have hs₁ : Onward s₀ s₁ := .frame (s := { s with modes := s₁.modes }) (.modes hstage h) rfl
  split
  · exact .frame hs₁ rfl
  · exact .ite hs₁ (setConds_onward (fun _ => rfl) hs₁)

theorem writeWindow_onward (h : Onward s₀ s) : Onward s₀ (writeWindow s) := winPutAll_onward h

theorem newJournal_onward (h : Onward s₀ s) : Onward s₀ (newJournal s) := by
  unfold newJournal
  split
  · exact startFold_onward (writeWindow_onward (.frame (takePair_onward h) rfl))
  · exact setConds_onward (fun _ => rfl) (writeWindow_onward (.frame h rfl))

theorem grantTo_onward {dst : Option (BitVec 3)} (h : Onward s₀ s) : Onward s₀ (grantTo dst s) := .ite (dvSend_onward h) h

theorem acceptGrant_onward (h : Onward s₀ s) : Onward s₀ (acceptGrant s) := by
  unfold acceptGrant
  extract_lets off recov stripe jrnl s₁ s₂
  have hs₁ : Onward s₀ s₁ := .frame h rfl
  have hs₂ : Onward s₀ s₂ := grantTo_onward hs₁
  exact .ite (newJournal_onward (.frame hs₂ rfl)) (.frame hs₂ rfl)

theorem tryGrant_onward (h : Onward s₀ s) : Onward s₀ (tryGrant s) :=
  .ite h (.ite (.frame h rfl) (.ite (.frame h rfl) (.ite (acceptGrant_onward h) (.frame h rfl))))

theorem pendingGrant_onward (h : Onward s₀ s) : Onward s₀ (pendingGrant s) := .ite (tryGrant_onward (.frame h rfl)) h

theorem absentDown_onward (h : Onward s₀ s) : Onward s₀ (absentDown s) := .foldl (fun _ _ ht => lunDown_onward ht) h

theorem soloLeads_onward (h : Onward s₀ s) : Onward s₀ (soloLeads s) :=
  .ite (.frame h rfl) h

theorem endTruing_onward (h : Onward s₀ s) : Onward s₀ (endTruing s) :=
  .ite (.foldl (fun _ _ ht => dropSearch_onward ht) (.frame h rfl)) h

theorem endTrain_onward (h : Onward s₀ s) : Onward s₀ (endTrain s) :=
  have hlast : (0xD : BitVec 4) ≤ 0xF := by decide
  .ite (applyMode_onward (.frame (s := { endTruing (soloLeads s) with
    modes := { (endTruing (soloLeads s)).modes with train := false, stage := 0xF } })
    (.modes (fun _ => hlast) (endTruing_onward (soloLeads_onward h))) rfl)) h

theorem endRecovery_onward (h : Onward s₀ s) : Onward s₀ (endRecovery s) := by
  unfold endRecovery
  extract_lets j noPair modes stripe s₁ s₂ s₃ s₄ s₅ s₆ dv s₇
  have hs₁ : Onward s₀ s₁ :=
    .frame h rfl
  have hs₃ : Onward s₀ s₃ := recheckTypes_onward (.ite (setConds_onward (fun _ => rfl) hs₁) hs₁)
  clear_value s₃
  have hs₄ : Onward s₀ s₄ := absentDown_onward (.foldl (fun _ _ ht => lunDown_onward ht) (soloLeads_onward hs₃))
  clear_value s₄
  have hs₆ : Onward s₀ s₆ :=
    endTrain_onward (setDegraded_onward (rebuildCond_onward (setConds_onward (fun _ => rfl) hs₄)))
  clear_value s₆
  exact patrolUpdate_onward (foldIfDue_onward (.ite (raise_onward (.frame hs₆ rfl)) hs₆))

theorem settleRecovery_onward (h : Onward s₀ s) : Onward s₀ (settleRecovery s) :=
  .ite h (.ite (endRecovery_onward h) (.ite (endRecovery_onward h) h))

/-! ### What carries on: Machine/Flush.lean -/

theorem settleFence_onward (h : Onward s₀ s) : Onward s₀ (settleFence s) := .ite (.foldl (fun _ _ ht => abortEntry_onward ht) h) h

theorem powerEvent_onward {cause : Nat} (h : Onward s₀ s) : Onward s₀ (powerEvent cause s) := raisePriv_onward h

theorem settleOv_onward (h : Onward s₀ s) : Onward s₀ (settleOv s) := by
  refine .ite (powerEvent_onward ?_) h
  exact .frame h rfl

/-- The latch sequence takes every channel into pad hold (R459). -/
theorem padAll_onward {q : BitVec 2} {l : List Nat} (hp : s.power.latchSeq ≠ 0) (h : Onward s₀ s) :
    Onward s₀ (l.foldl (fun s ch => enterPadHold ch s) { s with power := { s.power with latchSeq := q } }) := by
  have hpads {t : State} : Onward s₀ { s with power := { s.power with latchSeq := q }, jigs := t.jigs, chans := t.chans } :=
    h.trans ⟨id, fun e => absurd e hp, fun e => absurd e hp, id, fun _ => rfl, fun _ => id⟩
  have hall : ∀ t : State, l.foldl (fun s ch => enterPadHold ch s) t
      = { t with jigs := (l.foldl (fun s ch => enterPadHold ch s) t).jigs
                 chans := (l.foldl (fun s ch => enterPadHold ch s) t).chans } := by
    induction l with
    | nil => exact fun _ => rfl
    | cons ch l ih => exact fun t => (ih _).trans rfl
  rw [hall]
  exact hpads

theorem settleLatch_onward (h : Onward s₀ s) : Onward s₀ (settleLatch s) := by
  have hpower {t : State} {q : BitVec 2} (ht : Onward s₀ t) (hq : t.power.latchSeq ≠ 0) :
      Onward s₀ { t with power := { t.power with latchSeq := q } } := .power hq ht
  unfold settleLatch
  extract_lets +onlyGivenNames _ s₁
  have hs₁ : Onward s₀ s₁ := by
    unfold s₁
    split
    case isTrue c => exact placePageAgain_onward (hpower h (by simp_all))
    case isFalse => exact h
  clear_value s₁
  extract_lets
  split
  case isTrue c =>
    have hrun : s₁.power.latchSeq ≠ 0 := by simp_all
    exact padAll_onward hrun hs₁
  case isFalse => exact hs₁

theorem endLost_onward {e : Entry} (h : Onward s₀ s) : Onward s₀ (endLost s e) := by
  unfold endLost
  split
  · exact h
  · exact .frame h rfl
  · exact .ite h (.frame (abortEntry_onward h) rfl)

theorem settleLost_onward (h : Onward s₀ s) : Onward s₀ (settleLost s) := by
  refine .ite ?_ h
  extract_lets +onlyGivenNames s₁
  have hs₁ : Onward s₀ s₁ := .foldl (fun _ _ ht => endLost_onward ht) h
  exact .ite (.frame hs₁ rfl) hs₁

theorem takeWindow_onward (h : Onward s₀ s) : Onward s₀ (takeWindow s) := by
  unfold takeWindow
  split
  · exact .frame h rfl
  · exact h

theorem layWindow_onward (h : Onward s₀ s) : Onward s₀ (layWindow s) := .frame h rfl

theorem settleClosing_onward (h : Onward s₀ s) : Onward s₀ (settleClosing s) := .ite (.frame h rfl) h

theorem startTakeover_onward (h : Onward s₀ s) : Onward s₀ (startTakeover s) := by
  unfold startTakeover
  extract_lets +onlyGivenNames _ s₁
  have hs₁ : Onward s₀ s₁ := beginRecovery_onward (takeWindow_onward (.frame h rfl))
  refine .ite ?_ (.ite (tryGrant_onward hs₁) (pendingGrant_onward hs₁))
  extract_lets +onlyGivenNames _ s₂
  have hs₂ : Onward s₀ s₂ := setConds_onward (fun _ => rfl) (.frame (.frame hs₁ rfl) rfl)
  exact .ite (.frame (layWindow_onward hs₂) rfl) hs₂

theorem settleTakeover_onward (h : Onward s₀ s) : Onward s₀ (settleTakeover s) :=
  .ite (startTakeover_onward (settleClosing_onward h)) (settleClosing_onward h)

/-! ### What carries on: Machine/Remote.lean -/

theorem placeRemote_onward {w : RemoteIn} {buf : Nat} (h : Onward s₀ s) : Onward s₀ (placeRemote w buf s).2 :=
  .frame (addJob_onward h) rfl

theorem fillRemote_onward {r : Remote} {buf : Nat} (h : Onward s₀ s) : Onward s₀ (fillRemote r buf s) := by
  unfold fillRemote
  split
  · exact .frame h rfl
  · exact h

theorem beginRemote_onward {w : RemoteIn} (h : Onward s₀ s) : Onward s₀ (beginRemote w s) := by
  refine .ite ?_ ?_
  · split
    · exact .frame (placeRemote_onward h) rfl
    · exact h
  · split
    · exact .foldl (fun _ _ ht => .foldl (fun _ _ ht₁ => .frame ht₁ rfl) ht) (.frame h rfl)
    · exact h

theorem pumpRemotes_onward (h : Onward s₀ s) : Onward s₀ (pumpRemotes s) := .foldl (fun _ _ ht => beginRemote_onward ht) h

theorem sendEnd_onward {w : RemoteIn} {outcome : Byte} {delivered lost : List (Nat × Nat)} {hostErr : Bool} (h : Onward s₀ s) :
    Onward s₀ (sendEnd w outcome delivered lost hostErr s) :=
  dvSend_onward h

theorem tellFree_onward {k : Slot} (h : Onward s₀ s) : Onward s₀ (tellFree k s) := .ite (dvSend_onward h) h

theorem fillWaiting_onward {r : Remote} (h : Onward s₀ s) : Onward s₀ (fillWaiting s r) := .ite (fillRemote_onward h) h

theorem endRemote_onward {r : Remote} (h : Onward s₀ s) : Onward s₀ (endRemote s r) := by
  unfold endRemote
  dsimp only
  split
  · exact .ite (.frame (.frame (.frame (sendEnd_onward h) rfl) rfl) rfl) h
  · exact h

theorem reportRecords_onward (h : Onward s₀ s) : Onward s₀ (reportRecords s) := by
  unfold reportRecords
  dsimp only
  split
  · exact .ite (dvSend_onward (.frame h rfl)) h
  · exact h

theorem settleRemotes_onward (h : Onward s₀ s) : Onward s₀ (settleRemotes s) :=
  .ite (reportRecords_onward h) (pumpRemotes_onward (.foldl (fun _ _ ht => endRemote_onward ht)
    (.foldl (fun _ _ ht => fillWaiting_onward ht) (reportRecords_onward h))))

theorem sendPage_onward {j : Job} (h : Onward s₀ s) : Onward s₀ (sendPage s j) :=
  .foldl (fun _ _ ht => dvSend_onward (pageData_onward ht)) (.frame h rfl)

theorem sendPages_onward (h : Onward s₀ s) : Onward s₀ (sendPages s) := .foldl (fun _ _ ht => sendPage_onward ht) h

/-! ### What carries on: Machine/Settle.lean -/

theorem recoverSlot_onward {i c : Nat} (h : Onward s₀ s) : Onward s₀ (recoverSlot i c s) := .ite h (.frame h rfl)

theorem repeatCw_onward {c : Cw} (h : Onward s₀ s) : Onward s₀ (repeatCw s c) := by
  refine .ite ?_ ?_
  · split
    · exact .frame (.frame h rfl) rfl
    · exact .frame h rfl
  · refine .ite (.frame h rfl) ?_
    split
    · exact rereadCw_onward h
    · exact h

theorem repeatSearch_onward {q : Search} (h : Onward s₀ s) : Onward s₀ (repeatSearch s q) :=
  .ite (abandonSearch_onward h) (.frame (senseSearch_onward h) rfl)

theorem recoverLanding_onward {n : Nat} (h : Onward s₀ s) : Onward s₀ (recoverLanding n s) :=
  .foldl (fun _ _ ht => repeatSearch_onward ht) (.foldl (fun _ _ ht => repeatCw_onward ht) h)

theorem recoverStaging_onward {set c : Nat} (h : Onward s₀ s) : Onward s₀ (recoverStaging set c s) := by
  unfold recoverStaging
  dsimp only
  split
  · split
    · exact .ite (badPage_onward h) h
    · exact h
  · exact h

theorem recoverAccum_onward {n : Nat} (h : Onward s₀ s) : Onward s₀ (recoverAccum n s) := by
  unfold recoverAccum
  dsimp only
  split
  · exact .frame (.frame h rfl) rfl
  · exact h

theorem recoverWord_onward {x2 : Nat} (h : Onward s₀ s) : Onward s₀ (recoverWord s x2) := by
  unfold recoverWord
  split
  · exact recoverSlot_onward h
  · exact recoverLanding_onward h
  · exact recoverStaging_onward h
  · exact .ite (recoverLanding_onward h) (recoverAccum_onward h)
  · exact .frame h rfl
  · exact h

theorem recoverSram_onward (h : Onward s₀ s) : Onward s₀ (recoverSram s) :=
  .foldl (fun _ _ ht => recoverWord_onward ht) (.frame h rfl)

theorem freeSealed_onward {i : Nat} (h : Onward s₀ s) : Onward s₀ (freeSealed s i) := by
  unfold freeSealed
  extract_lets k
  split
  · exact .ite (.frame (.frame (tellFree_onward h) rfl) rfl) h
  · exact h

theorem settleEntry_onward {eid : Nat} (h : Onward s₀ s) : Onward s₀ (settleEntry s eid) := by
  unfold settleEntry
  extract_lets go
  have hgo {f : State → Entry → State} (hf : ∀ {t e}, Onward s₀ t → Onward s₀ (f t e)) {t : State} (ht : Onward s₀ t) :
      Onward s₀ (go f t) := by
    unfold go
    split
    · exact hf ht
    · exact ht
  clear_value go
  exact hgo settleBind_onward (hgo settleClose_onward (hgo settleOpen_onward (hgo settleFlush_onward (hgo settleRelease_onward
    (hgo settleRead_onward (hgo settleWrite_onward h))))))

theorem settleCommit_onward (h : Onward s₀ s) : Onward s₀ (settleCommit s) := by
  unfold settleCommit
  split
  · exact .ite (cutLostFeeds_onward (commitRefit_onward h)) h
  · exact h

theorem pumpAll_onward (h : Onward s₀ s) : Onward s₀ (pumpAll s) :=
  patrolUpdate_onward (settleSweep_onward (assignDecoders_onward
    (pumpAreas_onward (assignEncoders_onward (settleRuns_onward (settleTruing_onward
    (settleRemotes_onward (sendPages_onward (pumpFeeds_onward (pumpReads_onward
    (pumpAllStages_onward (placeAll_onward (.foldl (fun _ _ ht => pumpFix_onward ht)
    (.foldl (fun _ _ ht => settleFall_onward ht) h))))))))))))))

theorem settle_onward (h : Onward s₀ s) : Onward s₀ (settle s) := by
  unfold settle
  extract_lets s₁ s₂ s₃ s₄
  have hs₂ : Onward s₀ s₂ := settleRings_onward (.foldl (fun _ _ ht => freeSealed_onward ht) (recoverSram_onward h))
  clear_value s₂
  have hs₃ : Onward s₀ s₃ := .foldl (fun _ _ ht => settleEntry_onward ht) hs₂
  clear_value s₃
  have hs₄ : Onward s₀ s₄ := settleTakeover_onward (settleLost_onward (settleLatch_onward (settleOv_onward
    (settleFence_onward (settleRecovery_onward (settleCommit_onward hs₃))))))
  clear_value s₄
  exact flushAnswers_onward (pumpAll_onward (.frame hs₄ rfl))

/-! ### What carries on: Machine/Registers.lean -/
end Sys2Proof.Machine

namespace Sys2Proof.Machine

section
variable {s₀ s t u : State}

/-! ### TRAIN's steps on the channels (R73, R74, R190) -/

/-- The jig runs, from address 0 (R73). -/
def Jig.launched (g : Jig) : Prop := g.state = .running ∧ g.pc = 0

/-- From `s` to `t` steps of TRAIN ran on some channels. -/
structure Trains (s t : State) : Prop where
  modes : t.modes = s.modes
  power : t.power = s.power
  chanCount : t.chans.length = s.chans.length
  jigCount : t.jigs.length = s.jigs.length
  enabled : ∀ n, (chanAt n t).enabled = (chanAt n s).enabled
  pads : ∀ n, (chanAt n s).padHold = false → (chanAt n t).padHold = false
  jigs : ∀ n, (jigAt n s).launched → (jigAt n t).launched

theorem Trains.refl (s : State) : Trains s s := ⟨rfl, rfl, rfl, rfl, fun _ => rfl, fun _ => id, fun _ => id⟩

theorem Trains.trans (h : Trains s t) (k : Trains t u) : Trains s u where
  modes := k.modes.trans h.modes
  power := k.power.trans h.power
  chanCount := k.chanCount.trans h.chanCount
  jigCount := k.jigCount.trans h.jigCount
  enabled := fun n => (k.enabled n).trans (h.enabled n)
  pads := fun n => k.pads n ∘ h.pads n
  jigs := fun n => k.jigs n ∘ h.jigs n

/-- An update of what `Trains` does not speak of. -/
theorem Trains.frame {pending : List Instr} {freeCtr : Nat} {now : Nat} {pins : Pins} {rings : List Ring} {sched : Sched}
    {host : HostPorts} {regs : RegPort} {rack : Rack} {hk : Hk} {storeImage : List (Nat × BitVec 160)} {codec : Codec}
    {recov : Recov} {luns : List (Nat × LunRec)} {stripe : Stripe} {bg : Bg} {media : Media} {dv : Dv} {irq : Irq} {evq : Evq}
    {dict : Dict} {cab : Cabinet} {sram : Sram} {stats : Stats} (h : Trains s₀ s) :
    Trains s₀ { s with
      pending := pending, freeCtr := freeCtr, now := now, pins := pins, rings := rings, sched := sched, host := host
      regs := regs, rack := rack, hk := hk, storeImage := storeImage, codec := codec, recov := recov, luns := luns
      stripe := stripe, bg := bg, media := media, dv := dv, irq := irq, evq := evq, dict := dict, cab := cab, sram := sram
      stats := stats } :=
  h.trans ⟨rfl, rfl, rfl, rfl, fun _ => rfl, fun _ => id, fun _ => id⟩

theorem Trains.ite {c : Prop} [Decidable c] {a b : State} (ha : Trains s₀ a) (hb : Trains s₀ b) :
    Trains s₀ (if c then a else b) := by split <;> assumption

theorem Trains.foldl {α : Type _} {f : State → α → State} {l : List α} (hf : ∀ s a, Trains s₀ s → Trains s₀ (f s a))
    (h : Trains s₀ s) : Trains s₀ (l.foldl f s) := by
  induction l generalizing s with
  | nil => exact h
  | cons a l ih => exact ih (hf s a h)

/-- A channel modified is one that was, or the modified one. -/
theorem chanAt_modChan_cases (n k : Nat) (f : Chan → Chan) (s : State) :
    chanAt k (modChan n f s) = chanAt k s ∨ chanAt k (modChan n f s) = f (chanAt k s) := by
  by_cases hn : n = k
  · by_cases hlt : n < s.chans.length
    · exact .inr (hn ▸ chanAt_modChan s n f hlt)
    · have hnone : s.chans.length ≤ k := by omega
      left
      simp only [chanAt, modChan, List.getD_eq_getElem?_getD, List.getElem?_modify, List.getElem?_eq_none hnone]
      rfl
  · exact .inl (chanAt_modChan_ne s n k f hn)

theorem jigAt_modJig_cases (n k : Nat) (f : Jig → Jig) (s : State) :
    jigAt k (modJig n f s) = jigAt k s ∨ jigAt k (modJig n f s) = f (jigAt k s) := by
  by_cases hn : n = k
  · by_cases hlt : n < s.jigs.length
    · exact .inr (hn ▸ jigAt_modJig s n f hlt)
    · have hnone : s.jigs.length ≤ k := by omega
      left
      simp only [jigAt, modJig, List.getD_eq_getElem?_getD, List.getElem?_modify, List.getElem?_eq_none hnone]
      rfl
  · exact .inl (jigAt_modJig_ne s n k f hn)

theorem modChan_trains {ch : Nat} {f : Chan → Chan} (he : ∀ c, (f c).enabled = c.enabled)
    (hp : ∀ c, c.padHold = false → (f c).padHold = false) (h : Trains s₀ s) : Trains s₀ (modChan ch f s) := by
  refine h.trans ⟨rfl, rfl, List.length_modify .., rfl, fun n => ?_, fun n hn => ?_, fun _ => id⟩ <;>
    rcases chanAt_modChan_cases ch n f s with e | e <;> rw [e]
  · exact he _
  · exact hn
  · exact hp _ hn

theorem modJig_trains {ch : Nat} {f : Jig → Jig} (hf : ∀ g, g.launched → (f g).launched) (h : Trains s₀ s) :
    Trains s₀ (modJig ch f s) := by
  refine h.trans ⟨rfl, rfl, rfl, List.length_modify .., fun _ => rfl, fun _ => id, fun n hn => ?_⟩
  rcases jigAt_modJig_cases ch n f s with e | e <;> rw [e]
  · exact hn
  · exact hf _ hn

theorem raise_trains {id : Nat} (h : Trains s₀ s) : Trains s₀ (raise id s) := .frame h

theorem queueCanEvent_trains {bs : List Byte} (h : Trains s₀ s) : Trains s₀ (queueCanEvent bs s) := .ite (.frame h) (.frame h)

theorem raisePriv_trains {id : Nat} {soft : Bool} {detail : List Byte} (h : Trains s₀ s) :
    Trains s₀ (raisePriv id soft detail s) := by
  have hissue {t : State} (ht : Trains s₀ t) : Trains s₀ (issueRecord t) := by
    unfold issueRecord
    split
    · exact .frame ht
    · exact ht
  unfold raisePriv
  extract_lets +onlyGivenNames _ _ _ _ _ _ s₁
  have hs₁ : Trains s₀ s₁ := .ite (queueCanEvent_trains (.frame h)) (.frame h)
  exact .ite (.ite (hissue (.frame hs₁)) (.frame hs₁)) (.frame hs₁)

theorem configEvent_trains {cause what sub rate : Nat} (h : Trains s₀ s) : Trains s₀ (configEvent cause what sub rate s) :=
  raisePriv_trains h

theorem refuseTypes_trains (h : Trains s₀ s) : Trains s₀ (refuseTypes s) := by
  refine .foldl (fun t n ht => ?_) h
  dsimp only
  split
  · exact configEvent_trains ht
  · exact ht

theorem checkTables_trains (h : Trains s₀ s) : Trains s₀ (checkTables s) :=
  .foldl (fun _ _ ht => raise_trains ht) (.frame h)

theorem dropMixed_trains {ch : Nat} (h : Trains s₀ s) : Trains s₀ (dropMixed ch s) :=
  .foldl (fun _ _ ht => .ite (configEvent_trains ht) ht) h

theorem runRoutine_trains {ch ce lun a : Nat} {regs : List (Nat × Nat)} (h : Trains s₀ s) :
    Trains s₀ (runRoutine ch ce lun a regs s) :=
  modChan_trains (fun _ => rfl) (fun _ => id) h

theorem suspectTarget_trains {ch ce : Nat} (h : Trains s₀ s) : Trains s₀ (suspectTarget ch ce s) :=
  .foldl (fun _ _ ht => modChan_trains (fun _ => rfl) (fun _ => id) ht) h

theorem resetTarget_trains {ch ce ty : Nat} (h : Trains s₀ s) : Trains s₀ (resetTarget ch ce ty s) :=
  .ite (runRoutine_trains h) (.foldl (fun _ _ ht => runRoutine_trains ht) h)

/-! #### Clamps -/

theorem grantReq_trains {r : RackReq} (h : Trains s₀ s) : Trains s₀ (grantReq r s) := by
  unfold grantReq
  split
  · exact h
  · exact .frame h
  · exact modJig_trains (fun _ => id) (.frame h)

theorem grantFrom_trains {reqs : List RackReq} (h : Trains s₀ s) : Trains s₀ (grantFrom reqs s) := by
  induction reqs generalizing s with
  | nil => exact h
  | cons r rs ih => exact .ite (ih h) (.ite (ih (grantReq_trains h)) h)

theorem rackCycle_trains (h : Trains s₀ s) : Trains s₀ (rackCycle s) :=
  have hforecast : Trains s₀ (grantForecast s) := .ite (.frame h) h
  .ite hforecast (grantFrom_trains hforecast)

theorem askClamps_trains {ch lun n : Nat} (h : Trains s₀ s) : Trains s₀ (askClamps ch lun n s) :=
  modJig_trains (fun _ => id) (.frame h)

theorem resumeLun_trains {ch ce ty : Nat} {w : LunWait} (h : Trains s₀ s) : Trains s₀ (resumeLun ch ce ty s w) := by
  refine .ite h ?_
  extract_lets +onlyGivenNames _ s₁ s₂ _ _ s₃
  have hs₁ : Trains s₀ s₁ := modJig_trains (fun _ => id) h
  have hs₂ : Trains s₀ s₂ := rackCycle_trains (askClamps_trains hs₁)
  have hs₃ : Trains s₀ s₃ := .frame (modJig_trains (fun _ => id) (.frame hs₂))
  exact .ite (.ite (runRoutine_trains hs₃) (modChan_trains (fun _ => rfl) (fun _ => id) (runRoutine_trains hs₃)))
    (suspectTarget_trains hs₃)

/-! #### The channels -/

theorem findTarget_trains {ch : Nat} {x : TargetIn} (h : Trains s₀ s) : Trains s₀ (findTarget ch s x) :=
  .ite h (runRoutine_trains (runRoutine_trains (resetTarget_trains
    (.foldl (fun _ _ ht => resumeLun_trains ht) (runRoutine_trains h)))))

theorem trainTarget_trains {ch ce : Nat} (h : Trains s₀ s) : Trains s₀ (trainTarget ch s ce) := by
  unfold trainTarget
  extract_lets +onlyGivenNames _ _ s₁
  have hs₁ : Trains s₀ s₁ := .ite (runRoutine_trains h) h
  extract_lets +onlyGivenNames s₂
  have hs₂ : Trains s₀ s₂ := .ite (runRoutine_trains hs₁) (runRoutine_trains hs₁)
  exact .ite (runRoutine_trains (runRoutine_trains hs₂)) (runRoutine_trains hs₂)

theorem setFeature_trains {ch ce : Nat} {f : BitVec 40} (h : Trains s₀ s) : Trains s₀ (setFeature ch ce f s) :=
  runRoutine_trains (runRoutine_trains h)

theorem tryRate_trains {ch : Nat} {ces : List Nat} {rate : Nat} (h : Trains s₀ s) : Trains s₀ (tryRate ch ces s rate) :=
  .foldl (fun _ _ ht => trainTarget_trains ht)
    (.foldl (fun _ _ ht => runRoutine_trains (setFeature_trains (setFeature_trains ht))) h)

theorem setRate_trains {ch rate : Nat} (h : Trains s₀ s) : Trains s₀ (setRate ch rate s) :=
  modChan_trains (fun _ => rfl) (fun _ => id) h

theorem setTimings_trains {ch : Nat} {ces : List Nat} (h : Trains s₀ s) : Trains s₀ (setTimings ch ces s) :=
  modChan_trains (fun _ => rfl) (fun _ => id) (.frame h)

/-- The channel that is trained leaves pad hold, and its jig runs from address 0 (R73). -/
theorem trainChan_spec (ch : Nat) (ts : List TargetIn) (s : State) :
    Trains s (trainChan ch ts s) ∧ (ch < s.chans.length → (chanAt ch (trainChan ch ts s)).padHold = false)
      ∧ (ch < s.jigs.length → (jigAt ch (trainChan ch ts s)).launched) := by
  unfold trainChan
  extract_lets +onlyGivenNames s₁ s₂ good types rates
  have hs₁ : Trains s s₁ := modChan_trains (fun _ => rfl) (fun _ => id) (dropMixed_trains (.refl s))
  have hs₂ : Trains s s₂ := .foldl (fun _ _ ht => findTarget_trains ht) hs₁
  generalize tryRates (channelMode ch s₂) s₂ rates 0 good = d
  obtain ⟨r, ok⟩ := d
  dsimp -zeta only
  extract_lets +onlyGivenNames below s₃ s₄ s₅
  have htried : Trains s ((triedRates rates r).foldl (tryRate ch (good.map (·.ce))) s₂) :=
    .foldl (fun _ _ ht => tryRate_trains ht) hs₂
  have hs₃ : Trains s s₃ := setRate_trains (modChan_trains (fun _ => rfl) (fun _ _ => rfl) htried)
  have hpad₃ : ch < s.chans.length → (chanAt ch s₃).padHold = false := fun hlt => by
    have hch : ∀ {f : Chan → Chan} {c : State}, c.chans.length = s.chans.length → chanAt ch (modChan ch f c) = f (chanAt ch c) :=
      fun e => chanAt_modChan _ _ _ (e ▸ hlt)
    unfold s₃ setRate
    rw [hch ((List.length_modify ..).trans htried.chanCount), hch htried.chanCount]
  have hs₅ : Trains s₃ s₅ := modJig_trains (fun _ _ => ⟨rfl, rfl⟩) (setTimings_trains (.refl s₃))
  have hjig₅ : ch < s.jigs.length → (jigAt ch s₅).launched := fun hlt => by
    have hch : jigAt ch s₅ = { jigAt ch s₄ with state := .running, pc := 0 } := jigAt_modJig _ _ _ (by
      have : s₄.jigs.length = s.jigs.length := hs₃.jigCount
      omega)
    rw [hch]
    exact ⟨rfl, rfl⟩
  have hend : Trains s₅ (if below = true then configEvent 4 ch 0 r s₅ else s₅) := .ite (configEvent_trains (.refl s₅)) (.refl s₅)
  exact ⟨hs₃.trans (hs₅.trans hend), fun hlt => (hs₅.trans hend).pads ch (hpad₃ hlt), fun hlt => hend.jigs ch (hjig₅ hlt)⟩

end
end Sys2Proof.Machine

namespace Sys2Proof.Machine

section
variable {s t u : State}

/-- Every enabled channel is trained (R73). -/
theorem trainFold_spec (f : Nat → List TargetIn) (l : List Nat) (s : State) :
    Trains s (l.foldl (fun s n => if (chanAt n s).enabled then trainChan n (f n) s else s) s)
      ∧ ∀ n ∈ l, n < s.chans.length → n < s.jigs.length → (chanAt n s).enabled = true →
        (chanAt n (l.foldl (fun s n => if (chanAt n s).enabled then trainChan n (f n) s else s) s)).padHold = false
          ∧ (jigAt n (l.foldl (fun s n => if (chanAt n s).enabled then trainChan n (f n) s else s) s)).launched := by
  induction l generalizing s with
  | nil => exact ⟨.refl s, fun _ h => absurd h List.not_mem_nil⟩
  | cons m l ih =>
    obtain ⟨htrain, hpad, hjig⟩ := trainChan_spec m (f m) s
    have hstep : Trains s (if (chanAt m s).enabled then trainChan m (f m) s else s) := .ite htrain (.refl s)
    obtain ⟨hrest, hall⟩ := ih (if (chanAt m s).enabled then trainChan m (f m) s else s)
    refine ⟨hstep.trans hrest, fun n hn hchans hjigs he => ?_⟩
    rcases List.mem_cons.1 hn with rfl | hn
    · simp only [List.foldl_cons, he, if_true] at hrest ⊢
      exact ⟨hrest.pads n (hpad hchans), hrest.jigs n (hjig hjigs)⟩
    · exact hall n hn (hstep.chanCount ▸ hchans) (hstep.jigCount ▸ hjigs) ((hstep.enabled n).trans he)

theorem trainChannels_spec (ts : List ChanTrainIn) (s : State) :
    Trains s (trainChannels ts s)
      ∧ (s.chans.length = 16 → s.jigs.length = 16 → ∀ n < 16, (chanAt n s).enabled = true →
        (chanAt n (trainChannels ts s)).padHold = false ∧ (jigAt n (trainChannels ts s)).launched) := by
  unfold trainChannels
  extract_lets +onlyGivenNames s₁ s₂
  have hs₁ : Trains s s₁ := checkTables_trains (refuseTypes_trains (.refl s))
  obtain ⟨hs₂, hall⟩ : Trains s₁ s₂ ∧ ∀ n ∈ List.range 16, n < s₁.chans.length → n < s₁.jigs.length →
      (chanAt n s₁).enabled = true → (chanAt n s₂).padHold = false ∧ (jigAt n s₂).launched := trainFold_spec _ _ s₁
  clear_value s₂
  refine ⟨.frame (hs₁.trans hs₂), fun hchans hjigs n hn he => ?_⟩
  exact hall n (List.mem_range.2 hn) (by rw [hs₁.chanCount, hchans]; exact hn) (by rw [hs₁.jigCount, hjigs]; exact hn)
    ((hs₁.enabled n).trans he)

/-! ### From the trained channels on (R73, R421, R424) -/

/-- What TRAIN has begun goes on: no start-up falls back to BOOT, and the jigs that run from address 0 still do. -/
structure Underway (s t : State) : Prop where
  onward : Onward s t
  boot : t.modes.boot = s.modes.boot
  jigs : ∀ n, (jigAt n s).launched → (jigAt n t).launched

theorem Underway.refl (s : State) : Underway s s := ⟨.refl s, rfl, fun _ => id⟩

theorem Underway.trans (h : Underway s t) (k : Underway t u) : Underway s u :=
  ⟨h.onward.trans k.onward, k.boot.trans h.boot, fun n => k.jigs n ∘ h.jigs n⟩

theorem JigKept.launched {g g' : Jig} (h : JigKept g g') (hg : g.launched) : g'.launched := by
  obtain ⟨hstate, hpc⟩ := hg
  have estate : g'.core.state = g.core.state := congrArg Jig.state h.core
  have epc : g'.core.pc = g.core.pc := congrArg Jig.pc h.core
  exact ⟨estate.trans hstate, epc.trans hpc⟩

theorem Quiet.boot (h : Quiet s t) : t.modes.boot = s.modes.boot := by
  have e : t.modes.core.boot = s.modes.core.boot := congrArg Modes.boot h.modes
  exact e

theorem Quiet.underway (h : Quiet s t) (k : Onward s t) : Underway s t := ⟨k, h.boot, fun n => (h.jigs n).launched⟩

theorem applyMode_underway (s : State) : Underway s (applyMode s) :=
  (applyMode_quiet (.refl s) ⟨rfl, rfl⟩).underway (applyMode_onward (.refl s))

/-- Conditions that leave BOOT and the stage as they are. -/
theorem setConds_underway {f : Modes → Modes} (hboot : (f s.modes).boot = s.modes.boot)
    (hstage : (f s.modes).stage = s.modes.stage) : Underway s (setConds f s) :=
  (⟨.modes (fun hs => hstage.symm ▸ hs) (.refl s), hboot, fun _ => id⟩ : Underway s { s with modes := f s.modes }).trans
    (applyMode_underway _)

theorem recallItems_underway (s : State) : Underway s (recallItems s) := by
  refine ⟨.frame (.refl s) rfl, rfl, fun n hn => ?_⟩
  have hkept : JigKept (jigAt n s) (jigAt n (recallItems s)) := jigAt_map (fun g => ⟨rfl, fun e => by simp [e]⟩)
  exact hkept.launched hn

theorem startElection_underway (s : State) : Underway s (startElection s) := by
  unfold startElection
  split
  · unfold electionStep
    extract_lets +onlyGivenNames _ _ s₁
    have hs₁ : Underway s s₁ := ⟨.frame (.refl s) rfl, rfl, fun _ => id⟩
    split
    · exact hs₁
    · have hfenced : Underway s₁ (setFenced s₁) := (recallItems_underway s₁).trans (setConds_underway rfl rfl)
      exact hs₁.trans (hfenced.trans ((endTrain_quiet (.refl _)).underway (endTrain_onward (.refl _))))
  · exact .refl s

theorem readAnchor_underway (s : State) : Underway s (readAnchor s) := by
  refine (readAnchor_quiet (.refl s)).underway ?_
  unfold readAnchor
  split
  · exact .frame (.refl s) rfl
  · exact .refl s

theorem pendingGrant_underway (s : State) : Underway s (pendingGrant (beginRecovery s)) :=
  (pendingGrant_quiet (beginRecovery_quiet (.refl s))).underway (pendingGrant_onward (beginRecovery_onward (.refl s)))

theorem endTrain_underway (s : State) : Underway s (endTrain s) :=
  (endTrain_quiet (.refl s)).underway (endTrain_onward (.refl s))

theorem settle_underway (s : State) : Underway s (settle s) := (settle_quiet (.refl s)).underway (settle_onward (.refl s))

theorem applyMode_chans (s : State) : (applyMode s).chans = s.chans := by
  unfold applyMode mediaReadyFall withdraw dropFeedCws
  dsimp only
  split
  · rfl
  · split <;> split <;> rfl

/-- The firmware has taken over: BOOT ends and TRAIN begins with its first step (R64 step 12, R72, R73). -/
def trainBegun (s : State) : State := atStage 0xD (setConds (fun m => { m with boot := false, train := true }) s)

theorem trainBegun_chans (s : State) : (trainBegun s).chans = s.chans := applyMode_chans _

theorem trainBegun_quiet (s : State) :
    Quiet { s with modes := { s.modes with boot := false, train := true } } (trainBegun s) :=
  have hstage (u : State) : Quiet u (atStage 0xD u) := Moved.quiet ⟨rfl, rfl⟩ (.inr ⟨rfl, rfl⟩)
  (applyMode_quiet (.refl _) ⟨rfl, rfl⟩).trans (hstage _)

theorem trainBegun_jigCount (s : State) : (trainBegun s).jigs.length = s.jigs.length := (trainBegun_quiet s).jigCount

theorem trainBegun_boot (s : State) : (trainBegun s).modes.boot = false := (trainBegun_quiet s).boot

theorem trainBegun_latch (h : s.power.latchSeq = 0) : (trainBegun s).power.latchSeq = 0 := (trainBegun_quiet s).latch h

theorem trainBegun_stage (s : State) : (trainBegun s).modes.stage = 0xD := rfl

/-- The entry of TRAIN, once the firmware takes over (R64 step 12, R72). -/
theorem trainEntry_spec (ts : List ChanTrainIn) {s : State} (hboot : s.modes.boot = true) (hstage : s.modes.stage = 0xB)
    (hhot : s.modes.bootHot = false) (hreset : s.pins.inReset = false) (hholdup : s.modes.holdup = false)
    (hquar : s.modes.quarantine = false) :
    ∃ t, exec (.trainEntry ts) s = .next t
      ∧ Underway (trainChannels ts (trainBegun s)) t := by
  have hgo : (s.modes.boot && s.modes.stage == 0xB && !s.modes.bootHot && !s.pins.inReset && !s.modes.holdup
      && !s.modes.quarantine) = true := by
    simp only [hboot, hstage, hhot, hreset, hholdup, hquar, beq_self_eq_true, Bool.not_false, Bool.and_self]
  refine ⟨_, congrArg Host.Outcome.next (if_pos hgo), ?_⟩
  dsimp only
  refine Underway.trans ?_ (settle_underway _)
  split
  · exact pendingGrant_underway _
  · split
    · exact (readAnchor_underway _).trans (endTrain_underway _)
    · exact (readAnchor_underway _).trans (startElection_underway _)

/-! ### A target that stays busy (R74, R190) -/

/-- From `s` to `t` only what the firmware keeps of channel `ch` has changed. -/
structure OnChannel (ch : Nat) (s t : State) : Prop where
  rest : t = { s with chans := t.chans }
  count : t.chans.length = s.chans.length
  others : ∀ n, n ≠ ch → chanAt n t = chanAt n s

theorem OnChannel.refl (ch : Nat) (s : State) : OnChannel ch s s := ⟨rfl, rfl, fun _ _ => rfl⟩

theorem OnChannel.trans {ch : Nat} (h : OnChannel ch s t) (k : OnChannel ch t u) : OnChannel ch s u :=
  ⟨by rw [k.rest, h.rest], k.count.trans h.count, fun n hn => (k.others n hn).trans (h.others n hn)⟩

theorem modChan_onChannel (ch : Nat) (f : Chan → Chan) (s : State) : OnChannel ch s (modChan ch f s) :=
  ⟨rfl, List.length_modify .., fun n hn => chanAt_modChan_ne s ch n f (Ne.symm hn)⟩

theorem OnChannel.foldl {ch : Nat} {α : Type _} {f : State → α → State} (hf : ∀ s a, OnChannel ch s (f s a)) (l : List α)
    (s : State) : OnChannel ch s (l.foldl f s) := by
  induction l generalizing s with
  | nil => exact .refl ch s
  | cons a l ih => exact (hf s a).trans (ih _)

theorem resetTarget_onChannel (ch ce ty : Nat) (s : State) : OnChannel ch s (resetTarget ch ce ty s) := by
  unfold resetTarget
  split
  · exact modChan_onChannel ..
  · exact .foldl (fun _ _ => modChan_onChannel ..) _ s

theorem suspectTarget_onChannel (ch ce : Nat) (s : State) : OnChannel ch s (suspectTarget ch ce s) :=
  .foldl (fun _ _ => modChan_onChannel ..) _ s

/-- A suspect LUN is on its channel's list, and no LUN leaves it. -/
theorem suspect_suspects {ch u : Nat} (hch : ch < s.chans.length) {v : Nat} :
    v ∈ (chanAt ch (suspect ch u s)).suspects ↔ v = u ∨ v ∈ (chanAt ch s).suspects := by
  rw [suspect, chanAt_modChan _ _ _ hch]
  dsimp only
  split
  · next hmem =>
    have hu : u ∈ (chanAt ch s).suspects := by simpa using hmem
    exact ⟨.inr, fun h => h.elim (fun e => e ▸ hu) id⟩
  · rw [List.mem_append, List.mem_singleton, or_comm]

theorem globalLun_onChannel {ch n ce l : Nat} (h : OnChannel ch s t) : globalLun n ce l t = globalLun n ce l s := by
  rw [h.rest]
  rfl

theorem suspectTarget_suspects {ch ce : Nat} (hch : ch < s.chans.length) (l : Nat) (hl : l < 4) :
    globalLun ch ce l s ∈ (chanAt ch (suspectTarget ch ce s)).suspects := by
  have hfold : ∀ (ls : List Nat) (t : State), OnChannel ch s t →
      (l ∈ ls ∨ globalLun ch ce l s ∈ (chanAt ch t).suspects) →
      globalLun ch ce l s ∈ (chanAt ch (ls.foldl (fun s l => suspect ch (globalLun ch ce l s) s) t)).suspects := by
    intro ls
    induction ls with
    | nil => exact fun t _ h => h.resolve_left List.not_mem_nil
    | cons k ks ih =>
      intro t ht h
      have hlt : ch < t.chans.length := ht.count ▸ hch
      refine ih _ (ht.trans (modChan_onChannel ..)) ?_
      rcases h with h | h
      · rcases List.mem_cons.1 h with rfl | h
        · exact .inr ((suspect_suspects hlt).2 (.inl (globalLun_onChannel ht).symm))
        · exact .inl h
      · exact .inr ((suspect_suspects hlt).2 (.inr h))
  exact hfold (List.range 4) s (.refl ch s) (.inl (List.mem_range.2 hl))

end

/-- Settles O22: the channels' steps (`trainChannels_spec`) leave what they have begun, and recovery, an election and all that
settles carry it on (`Underway`). -/
theorem trainingStarts : Obligations.TrainingStarts := by
  unfold Obligations.TrainingStarts
  refine ⟨fun ts s hboot hstage hhot hreset hholdup hquar _ _ hchans hjigs => ?_, fun ts s hno => ?_,
    fun ch ce s hch hce hchans => ?_⟩
  · obtain ⟨t, ht, hway⟩ := trainEntry_spec ts hboot hstage hhot hreset hholdup hquar
    obtain ⟨htrain, htrained⟩ := trainChannels_spec ts (trainBegun s)
    have hcs := trainBegun_chans s
    have hcount : (trainBegun s).chans.length = 16 := by rw [hcs, hchans]
    refine ⟨t, ht, ?_, hway.onward.stage ?_, fun hlatch n hn he => ?_⟩
    · rw [hway.boot, htrain.modes, trainBegun_boot]
    · rw [htrain.modes, trainBegun_stage]
      decide
    · have hec : (chanAt n (trainBegun s)).enabled = true := by rw [chanAt, hcs]; exact he
      obtain ⟨hpad, hjig⟩ := htrained hcount ((trainBegun_jigCount s).trans hjigs) n hn hec
      obtain ⟨hstate, hpc⟩ := hway.jigs n hjig
      have hlatched : (trainChannels ts (trainBegun s)).power.latchSeq = 0 := by
        rw [htrain.power]
        exact trainBegun_latch hlatch
      exact ⟨hway.onward.pads hlatched n hpad, hstate, hpc⟩
  · have hno : ¬ (s.modes.boot && s.modes.stage == 0xB && !s.modes.bootHot && !s.pins.inReset && !s.modes.holdup
        && !s.modes.quarantine) = true := by
      simp only [Bool.and_eq_true, beq_iff_eq, Bool.not_eq_true']
      rintro ⟨⟨⟨⟨⟨hboot, hstage⟩, hhot⟩, -⟩, -⟩, -⟩
      rcases hno with h | h | h
      · exact absurd hboot (h ▸ Bool.false_ne_true)
      · exact h hstage
      · exact absurd h (hhot ▸ Bool.false_ne_true)
    exact congrArg Host.Outcome.next (if_neg hno)
  · have hin : (decide (ch < 16) && decide (ce < 8)) = true := by simp [hch, hce]
    have hreset := resetTarget_onChannel ch ce ((chanAt ch s).dieTypes.getD ce 0) s
    have hall := hreset.trans (suspectTarget_onChannel ch ce _)
    have hexec : exec (.targetReadyTimeout ch ce) s = .next (if s.modes.train then
        suspectTarget ch ce (resetTarget ch ce ((chanAt ch s).dieTypes.getD ce 0) s) else s) := by
      show execTargetReadyTimeout ch ce s = _
      simp only [execTargetReadyTimeout, checked, hch, hce, decide_true, Bool.and_self, if_true]
    cases htrain : s.modes.train with
    | false =>
      refine ⟨s, by rw [hexec, htrain]; rfl, rfl, fun _ => rfl, nofun, fun _ _ => rfl⟩
    | true =>
      refine ⟨_, by rw [hexec, htrain]; rfl, hall.rest, nofun, fun _ l hl => ?_, hall.others⟩
      rw [← globalLun_onChannel hreset]
      exact suspectTarget_suspects (hreset.count ▸ hchans ▸ hch) l hl

end Sys2Proof.Machine

namespace Sys2Proof.Machine

section
variable {s₀ s t u : State}

/-! ### What folding a row leaves as it is (R298, R416) -/

/-- A slot but for its bytes and the codewords of them that wait to be computed again. -/
def Slot.content (k : Slot) : Slot := { k with bad := [], acc := [] }

/-- Only glue-up slots, SRAM, what reports its errors and what goes out over Dovetail have moved. -/
structure Parted (s t : State) : Prop where
  rest : t = { s with
    host := t.host, dv := t.dv, irq := t.irq, evq := t.evq, dict := t.dict, sram := t.sram, stats := t.stats
    stripe := { s.stripe with slots := t.stripe.slots } }
  core : t.dv.core = s.dv.core
  out : ∀ x ∈ s.dv.out, x ∈ t.dv.out

theorem Parted.refl (s : State) : Parted s s := ⟨rfl, rfl, fun _ => id⟩

theorem Parted.trans (h : Parted s t) (k : Parted t u) : Parted s u := by
  refine ⟨?_, k.core.trans h.core, fun x hx => k.out x (h.out x hx)⟩
  rw [k.rest, h.rest]

/-- No slot has changed but for its bytes. -/
structure Folds (s t : State) : Prop where
  parted : Parted s t
  slots : t.stripe.slots.map Slot.content = s.stripe.slots.map Slot.content

theorem Folds.refl (s : State) : Folds s s := ⟨.refl s, rfl⟩

theorem Folds.trans (h : Folds s t) (k : Folds t u) : Folds s u := ⟨h.parted.trans k.parted, k.slots.trans h.slots⟩

/-- An update of SRAM and of what reports its errors. -/
theorem Folds.frame {host : HostPorts} {irq : Irq} {evq : Evq} {dict : Dict} {sram : Sram} {stats : Stats} (h : Folds s₀ s) :
    Folds s₀ { s with host := host, irq := irq, evq := evq, dict := dict, sram := sram, stats := stats } :=
  h.trans ⟨⟨rfl, rfl, fun _ => id⟩, rfl⟩

theorem Folds.ite {c : Prop} [Decidable c] {a b : State} (ha : Folds s₀ a) (hb : Folds s₀ b) :
    Folds s₀ (if c then a else b) := by split <;> assumption

theorem Folds.foldl {α : Type _} {f : State → α → State} {l : List α} (hf : ∀ s a, Folds s₀ s → Folds s₀ (f s a))
    (h : Folds s₀ s) : Folds s₀ (l.foldl f s) := by
  induction l generalizing s with
  | nil => exact h
  | cons a l ih => exact ih (hf s a h)

theorem Folds.foldlSnd {α β : Type _} {f : β × State → α → β × State} {l : List α} {x : β × State}
    (hf : ∀ x a, Folds s₀ x.2 → Folds s₀ (f x a).2) (h : Folds s₀ x.2) : Folds s₀ (l.foldl f x).2 := by
  induction l generalizing x with
  | nil => exact h
  | cons a l ih => exact ih (hf x a h)

/-- A slot's bytes changed, or the codewords of them that wait. -/
theorem modSlot_folds {i : Nat} {f : Slot → Slot} (hf : ∀ k, (f k).content = k.content) (h : Folds s₀ s) :
    Folds s₀ (modSlot i f s) := by
  refine h.trans ⟨⟨rfl, rfl, fun _ => id⟩, ?_⟩
  apply List.ext_getElem?
  intro n
  simp only [modSlot, List.getElem?_map, List.getElem?_modify]
  cases s.stripe.slots[n]? with
  | none => rfl
  | some k =>
    simp only [Functor.map, Option.map]
    split
    · rw [hf]
    · rfl

/-! #### SRAM -/

theorem issueRecord_folds (h : Folds s₀ s) : Folds s₀ (issueRecord s) := by
  unfold issueRecord
  split
  · exact h.frame
  · exact h

theorem queueCanEvent_folds {bs : List Byte} (h : Folds s₀ s) : Folds s₀ (queueCanEvent bs s) := .ite h.frame h.frame

theorem raisePriv_folds {id : Nat} {soft : Bool} {detail : List Byte} (h : Folds s₀ s) :
    Folds s₀ (raisePriv id soft detail s) := by
  unfold raisePriv
  extract_lets +onlyGivenNames _ _ _ _ _ _ s₁
  have hs₁ : Folds s₀ s₁ := .ite (queueCanEvent_folds h.frame) h.frame
  exact .ite (.ite (issueRecord_folds hs₁.frame) hs₁.frame) hs₁.frame

theorem sramNote_folds {a n : Nat} {q bad : Bool} (h : Folds s₀ s) : Folds s₀ (sramNote a n q bad s) :=
  .ite (raisePriv_folds h.frame) h.frame.frame

theorem readStored_folds {a : Nat} (h : Folds s₀ s) : Folds s₀ (readStored a s).2.2 := by
  unfold readStored
  extract_lets
  split <;> dsimp only
  · exact h
  · exact sramNote_folds h
  · exact sramNote_folds h

theorem readWord_folds {a : Nat} (h : Folds s₀ s) : Folds s₀ (readWord a s).2.2 := by
  unfold readWord
  dsimp only
  split <;> exact readStored_folds h

theorem readWords_folds {n a : Nat} (h : Folds s₀ s) : Folds s₀ (readWords n a s).2.2 := by
  induction n generalizing a s with
  | zero => exact h
  | succ n ih => exact ih (readWord_folds h)

theorem sramRead_folds {off len : Nat} (h : Folds s₀ s) : Folds s₀ (sramRead off len s).2.2 := readWords_folds h

theorem retire_folds {e : Merge} (h : Folds s₀ s) : Folds s₀ (retire e s) :=
  .ite h.frame.frame (.ite (readStored_folds h.frame).frame (readStored_folds h.frame).frame)

theorem narrowWrite_folds {a off : Nat} {bs : List Byte} (h : Folds s₀ s) : Folds s₀ (narrowWrite a off bs s) := by
  unfold narrowWrite
  dsimp only
  split
  · exact .ite (retire_folds h.frame) h.frame
  · refine Folds.frame (.ite h ?_)
    split
    · exact retire_folds h
    · exact h

theorem sramWriteFuel_folds {n off : Nat} {bs : List Byte} (h : Folds s₀ s) : Folds s₀ (sramWriteFuel n off bs s) := by
  induction n generalizing off bs s with
  | zero => exact h
  | succ n ih => exact .ite h (.ite (ih h.frame) (ih (narrowWrite_folds h)))

theorem sramWrite_folds {off : Nat} {bs : List Byte} (h : Folds s₀ s) : Folds s₀ (sramWrite off bs s) := sramWriteFuel_folds h

/-! #### P and Q of a slot -/

theorem slotBytes_folds {i half c : Nat} (h : Folds s₀ s) : Folds s₀ (slotBytes i half c s).2.2 := by
  unfold slotBytes
  split
  · exact sramRead_folds h
  · exact h

theorem slotWrite_folds {i half c : Nat} {bs : List Byte} (h : Folds s₀ s) : Folds s₀ (slotWrite i half c bs s) :=
  .ite (sramWrite_folds h) (modSlot_folds (fun _ => rfl) h)

theorem foldHalf_folds {i half c : Nat} {d : List Byte} (h : Folds s₀ s) : Folds s₀ (foldHalf i half c d s) :=
  slotWrite_folds (.ite (slotBytes_folds h) (modSlot_folds (fun _ => rfl) (slotBytes_folds h)))

theorem foldCw_folds {i m c : Nat} {d : List Byte} (h : Folds s₀ s) : Folds s₀ (foldCw i m c d s) :=
  foldHalf_folds (foldHalf_folds h)

theorem slotAll_folds {i : Nat} (h : Folds s₀ s) : Folds s₀ (slotAll i s).2 :=
  .foldlSnd (fun _ _ ht => slotBytes_folds ht) h

theorem dvSend_folds {type : Nat} {dst : Option (BitVec 3)} {payload : List Byte} (h : Folds s₀ s) :
    Folds s₀ (dvSend type dst payload s) := by
  obtain ⟨dv, e, hcore, hout⟩ := dvSend_eq type dst payload s
  rw [e]
  refine h.trans ⟨⟨rfl, hcore, fun x hx => ?_⟩, rfl⟩
  rw [show ({ s with dv := dv } : State).dv.out = dv.out from rfl, hout]
  split
  · exact hx
  · exact List.mem_append_left _ hx

theorem sendPart_folds {die : BitVec 3} {i : Nat} {members : List Nat} (h : Folds s₀ s) :
    Folds s₀ (sendPart die i members s) :=
  dvSend_folds (slotAll_folds h)

theorem giveQ_folds {i : Nat} (h : Folds s₀ s) : Folds s₀ (giveQ i s) := .ite h (sendPart_folds h)

/-! #### What a fold does to a slot -/

/-- A slot's content after folding is what it was. -/
theorem Folds.content (h : Folds s t) (i : Nat) : (slotAt i t).content = (slotAt i s).content := by
  have e := congrArg (fun l => l[i]?) h.slots
  simp only [List.getElem?_map] at e
  simp only [slotAt, List.getD_eq_getElem?_getD]
  cases hs : s.stripe.slots[i]? <;> cases ht : t.stripe.slots[i]? <;> simp only [hs, ht, Option.map] at e
  · rfl
  · cases e
  · cases e
  · exact Option.some.inj e

theorem Folds.folded (h : Folds s t) (i : Nat) : (slotAt i t).folded = (slotAt i s).folded := by
  have e : (slotAt i t).content.folded = (slotAt i s).content.folded := congrArg Slot.folded (h.content i)
  exact e

theorem Folds.slotCount (h : Folds s t) : t.stripe.slots.length = s.stripe.slots.length := by
  simpa only [List.length_map] using congrArg List.length h.slots

theorem slotAt_modSlot {i : Nat} {f : Slot → Slot} (hi : i < s.stripe.slots.length) :
    slotAt i (modSlot i f s) = f (slotAt i s) := by
  simp only [slotAt, modSlot, List.getD_eq_getElem?_getD, List.getElem?_modify_eq, List.getElem?_eq_getElem hi]
  rfl

theorem slotAt_modSlot_folded {i n : Nat} {f : Slot → Slot} (hf : ∀ k, (f k).folded = k.folded) :
    (slotAt n (modSlot i f s)).folded = (slotAt n s).folded := by
  simp only [slotAt, modSlot, List.getD_eq_getElem?_getD, List.getElem?_modify]
  cases s.stripe.slots[n]? with
  | none => rfl
  | some k =>
    simp only [Functor.map, Option.map, Option.getD_some]
    split
    · exact hf k
    · rfl

theorem modSlot_parted {i : Nat} {f : Slot → Slot} (h : Parted s₀ s) : Parted s₀ (modSlot i f s) :=
  h.trans ⟨rfl, rfl, fun _ => id⟩

theorem Parted.ite {c : Prop} [Decidable c] {a b : State} (ha : Parted s₀ a) (hb : Parted s₀ b) :
    Parted s₀ (if c then a else b) := by split <;> assumption

theorem findSlot_lt {g r i : Nat} (h : findSlot g r s = some i) : i < s.stripe.slots.length :=
  (List.findIdx?_eq_some_iff_getElem.1 h).1

/-! #### Members and parts -/

theorem wholeHome_parted {i : Nat} (h : Parted s₀ s) : Parted s₀ (wholeHome i s) :=
  .ite h ((modSlot_parted h).trans (giveQ_folds (.refl _)).parted)

theorem wholeHome_folded (i n : Nat) (s : State) : (slotAt n (wholeHome i s)).folded = (slotAt n s).folded := by
  unfold wholeHome
  extract_lets
  split
  · rfl
  · exact ((giveQ_folds (.refl _)).folded n).trans (slotAt_modSlot_folded (fun _ => rfl))

theorem ownPartDone_parted {i : Nat} (h : Parted s₀ s) : Parted s₀ (ownPartDone i s) :=
  .ite (wholeHome_parted h) (.ite ((modSlot_parted h).trans (sendPart_folds (.refl _)).parted) h)

theorem ownPartDone_folded (i n : Nat) (s : State) : (slotAt n (ownPartDone i s)).folded = (slotAt n s).folded := by
  unfold ownPartDone
  extract_lets
  split
  · exact wholeHome_folded i n s
  · split
    · exact ((sendPart_folds (.refl _)).folded n).trans (slotAt_modSlot_folded (fun _ => rfl))
    · rfl

theorem assignSlot_parted {i g r : Nat} (h : Parted s₀ s) : Parted s₀ (assignSlot i g r s) := by
  exact modSlot_parted (h.trans (.ite ⟨rfl, rfl, fun _ => id⟩ ⟨rfl, rfl, fun _ => id⟩))

theorem slotFor_parted {g r : Nat} (h : Parted s₀ s) : Parted s₀ (slotFor g r s).2 := by
  unfold slotFor
  split
  · exact h
  · exact assignSlot_parted h
  · exact h

theorem slotFor_of_found {g r i : Nat} (h : findSlot g r s = some i) : slotFor g r s = (some i, s) := by
  simp only [slotFor, h]

/-- The bytes that staging holds for a member, or none of a pad, folded into a slot. -/
def foldBytes (i m : Nat) (set : Option Nat) (s : State) : State :=
  match set with
  | some set => (List.range 16).foldl (fun s c =>
      let d := sramRead (stageOff (16 * set + c)) 4096 s
      foldCw i m c d.1 d.2.2) s
  | none => s

theorem foldBytes_folds (i m : Nat) (set : Option Nat) (s : State) : Folds s (foldBytes i m set s) := by
  cases set with
  | none => exact .refl s
  | some set => exact .foldl (fun _ _ ht => foldCw_folds (sramRead_folds ht)) (.refl s)

theorem foldMember_of_slot {g r m : Nat} {set : Option Nat} {i : Nat} (h : slotFor g r s = (some i, t)) :
    foldMember g r m set s =
      if (slotAt i t).folded.contains m then t else ownPartDone i (foldedWhole i m (foldBytes i m set t)) := by
  unfold foldMember
  rw [h]
  cases set <;> rfl

theorem foldMember_parted {g r m : Nat} {set : Option Nat} (h : Parted s₀ s) : Parted s₀ (foldMember g r m set s) := by
  have ht : Parted s₀ (slotFor g r s).2 := slotFor_parted h
  rcases hslot : slotFor g r s with ⟨_ | i, t⟩
  · rw [hslot] at ht
    unfold foldMember
    rw [hslot]
    exact ht
  · rw [hslot] at ht
    rw [foldMember_of_slot hslot]
    exact .ite ht (ownPartDone_parted (modSlot_parted (ht.trans (foldBytes_folds i m set t).parted)))

/-- A member accepted is folded in its row's slot (R298, R416). -/
theorem foldMember_folded {g r m : Nat} {set : Option Nat} {i : Nat} (h : findSlot g r s = some i) :
    m ∈ (slotAt i (foldMember g r m set s)).folded := by
  rw [foldMember_of_slot (slotFor_of_found h)]
  split
  · next hm => simpa using hm
  · have hlt : i < (foldBytes i m set s).stripe.slots.length := (foldBytes_folds i m set s).slotCount ▸ findSlot_lt h
    rw [ownPartDone_folded, foldedWhole, slotAt_modSlot hlt]
    exact List.mem_append_right _ List.mem_cons_self

end
end Sys2Proof.Machine


namespace Sys2Proof.Machine

section
variable {s₀ s t u : State}

/-! ### Jobs of other blocks (R415, R416) -/

theorem Parted.rings (h : Parted s t) : t.rings = s.rings := by rw [h.rest]

theorem Parted.modes (h : Parted s t) : t.modes = s.modes := by rw [h.rest]

theorem Parted.sched (h : Parted s t) : t.sched = s.sched := by rw [h.rest]

theorem Parted.remotes (h : Parted s t) : t.dv.remotes = s.dv.remotes := by
  have e : t.dv.core.remotes = s.dv.core.remotes := congrArg Dv.remotes h.core
  exact e

theorem headItems_length (prio handle n : Nat) (rd : Bool) (i : Nat) (l : List (BitVec 128)) :
    (headItems prio handle n rd i l).length = l.length := by
  induction l generalizing i with
  | nil => rfl
  | cons a l ih => simp only [headItems, List.length_cons, ih]

/-- A job for a LUN of this block joins the schedule, and nothing is sent (R161). -/
theorem addJob_own {j : Job} (h : ownLun j.lun s = true) :
    ∃ sched k, (addJob j s).2 = { s with sched := sched } ∧ (addJob j s).1 = k.handle ∧ k ∈ sched.jobs
      ∧ k.owner = j.owner ∧ k.lun = j.lun ∧ k.block = j.block ∧ k.page = j.page ∧ k.prio = j.prio
      ∧ k.items.length = j.items.length := by
  unfold addJob
  extract_lets n k _ s₁
  have hown : (ownLun k.lun s₁ || k.doseWait) = true := by
    have : ownLun k.lun s₁ = true := h
    rw [this, Bool.true_or]
  rw [if_pos hown]
  exact ⟨_, k, rfl, rfl, List.mem_append_right _ List.mem_cons_self, rfl, rfl, rfl, rfl, rfl, headItems_length ..⟩

/-- A program of the lead block for a LUN of this block gets its drawer job (R415). -/
theorem placeRemote_spec {w : RemoteIn} {buf : Nat} (hown : ownLun w.lun s = true) {r : Remote} (hr : r ∈ s.dv.remotes)
    (hw : r.work = w) :
    (placeRemote w buf s).2.rings = s.rings ∧ (placeRemote w buf s).2.modes = s.modes
      ∧ (∃ x ∈ (placeRemote w buf s).2.dv.remotes, x.work = w ∧ x.job ≠ none)
      ∧ ∃ j ∈ (placeRemote w buf s).2.sched.jobs, j.owner = .remote (remoteKey w) ∧ j.lun = w.lun ∧ j.block = w.block
        ∧ j.page = w.page ∧ j.prio = w.prio ∧ j.items.length = w.items.length := by
  obtain ⟨sched, k, e, -, hk, howner, hlun, hblock, hpage, hprio, hitems⟩ := addJob_own (j := remoteJob w buf) hown
  unfold placeRemote
  dsimp only
  rw [e]
  refine ⟨rfl, rfl, ?_, k, hk, howner, hlun, hblock, hpage, hprio, hitems.trans (List.length_map ..)⟩
  have hmem := List.mem_map_of_mem (f := fun r : Remote => if remoteKey r.work == remoteKey w then
    { r with job := some (addJob (remoteJob w buf) s).1 } else r) hr
  rw [if_pos (beq_iff_eq.2 (congrArg remoteKey hw))] at hmem
  exact ⟨_, hmem, hw, by simp⟩

theorem joinRemote_of_read {w : RemoteIn} (h : endsInRead w.items = true) :
    joinRemote w s = { s with dv := { s.dv with remotes := s.dv.remotes ++ [{ work := w }] } } := by
  simp only [joinRemote, h, if_true]

/-- A program joins the schedule at once (R415, R416). -/
theorem joinRemote_of_program {w : RemoteIn} (h : endsInRead w.items = false) (hown : ownLun w.lun s = true) :
    (∃ x ∈ (joinRemote w s).dv.remotes, x.work = w ∧ x.job ≠ none)
      ∧ (∃ j ∈ (joinRemote w s).sched.jobs, j.owner = .remote (remoteKey w) ∧ j.lun = w.lun ∧ j.block = w.block
        ∧ j.page = w.page ∧ j.prio = w.prio ∧ j.items.length = w.items.length)
      ∧ (joinRemote w s).rings = s.rings ∧ (joinRemote w s).modes = s.modes := by
  unfold joinRemote
  extract_lets +onlyGivenNames _ s₁ s₂
  rw [if_neg (by rw [h]; exact Bool.false_ne_true)]
  obtain ⟨hrings, hmodes, hremote, hjob⟩ : s₂.rings = s₁.rings ∧ s₂.modes = s₁.modes ∧ _ ∧ _ :=
    placeRemote_spec (s := s₁) (buf := if w.kind == 4 then padHandle else 0) hown
      (List.mem_append_right _ List.mem_cons_self) rfl
  have hend : Parted s₂ (if w.kind == 4 then foldMember w.group w.row w.member none s₂ else s₂) :=
    .ite (foldMember_parted (.refl s₂)) (.refl s₂)
  exact ⟨hend.remotes ▸ hremote, hend.sched ▸ hjob, hend.rings.trans hrings, hend.modes.trans hmodes⟩

theorem fillRemote_rest (r : Remote) (buf : Nat) (s : State) :
    (fillRemote r buf s).rings = s.rings ∧ (fillRemote r buf s).modes = s.modes ∧ (fillRemote r buf s).stripe = s.stripe := by
  unfold fillRemote
  split <;> exact ⟨rfl, rfl, rfl⟩

/-- The drawer job of the page waits for its data no longer (R415). -/
theorem fillRemote_dataWait {r : Remote} {buf h : Nat} (hr : r.job = some h) :
    ∀ j ∈ (fillRemote r buf s).sched.jobs, j.handle = h → j.dataWait = false := by
  intro j hj hh
  simp only [fillRemote, hr] at hj
  obtain ⟨k, -, hk⟩ := List.mem_map.1 hj
  split at hk
  · rw [← hk]
  · next hne =>
    rw [hk] at hne
    exact absurd (beq_iff_eq.2 hh) hne

theorem remoteAt_dropRemote (h : Nat) (s : State) : remoteAt h (dropRemote h s) = none := by
  simp [remoteAt, dropRemote]

section
variable {w : RemoteIn} {r : Remote} (hr : remoteAt (remoteKey w) s = some r)

include hr

theorem goRemote_of_data (hk : w.kind = 1) :
    goRemote w s = fillRemote r (16 * r.stage.getD 0) (foldMember r.work.group r.work.row r.work.member r.stage s) := by
  simp only [goRemote, hr, hk]

theorem goRemote_of_pad (hk : w.kind = 4) :
    goRemote w s = fillRemote r padHandle (foldMember r.work.group r.work.row r.work.member none
      (modRemote (remoteKey w) (fun r => { r with
        stage := none, fetched := true, hostErr := false, work := { r.work with kind := 4 } }) s)) := by
  simp only [goRemote, hr, hk]

theorem goRemote_of_nothing (h1 : w.kind ≠ 1) (h4 : w.kind ≠ 4) :
    goRemote w s = dropRemote (remoteKey w) (withdraw (serves (remoteKey w))
      (foldMember r.work.group r.work.row r.work.member r.stage s)) := by
  simp only [goRemote, hr]

/-- A job whose data has been fetched goes on as the lead block says (R38, R415, R416). -/
theorem goRemote_spec :
    (goRemote w s).rings = s.rings ∧ (goRemote w s).modes = s.modes
      ∧ ((w.kind = 1 ∨ w.kind = 4) → ∀ j ∈ (goRemote w s).sched.jobs, r.job = some j.handle → j.dataWait = false)
      ∧ (w.kind ≠ 1 → w.kind ≠ 4 → remoteAt (remoteKey w) (goRemote w s) = none)
      ∧ ∀ i, findSlot r.work.group r.work.row s = some i → r.work.member ∈ (slotAt i (goRemote w s)).folded := by
  have hfold {g x m : Nat} {set : Option Nat} {u : State} : Parted u (foldMember g x m set u) := foldMember_parted (.refl u)
  have hfill (buf : Nat) (u : State) : (fillRemote r buf u).rings = u.rings ∧ (fillRemote r buf u).modes = u.modes
      ∧ (fillRemote r buf u).stripe = u.stripe := fillRemote_rest r buf u
  by_cases h1 : w.kind = 1
  · rw [goRemote_of_data hr h1]
    obtain ⟨hrings, hmodes, hstripe⟩ := hfill (16 * r.stage.getD 0) (foldMember r.work.group r.work.row r.work.member r.stage s)
    refine ⟨hrings.trans hfold.rings, hmodes.trans hfold.modes, fun _ j hj hjob => fillRemote_dataWait hjob j hj rfl,
      fun h => absurd h1 h, fun i hi => ?_⟩
    rw [slotAt, hstripe]
    exact foldMember_folded hi
  · by_cases h4 : w.kind = 4
    · rw [goRemote_of_pad hr h4]
      set s₁ := modRemote (remoteKey w) (fun r => { r with
        stage := none, fetched := true, hostErr := false, work := { r.work with kind := 4 } }) s
      obtain ⟨hrings, hmodes, hstripe⟩ := hfill padHandle (foldMember r.work.group r.work.row r.work.member none s₁)
      refine ⟨hrings.trans hfold.rings, hmodes.trans hfold.modes, fun _ j hj hjob => fillRemote_dataWait hjob j hj rfl,
        fun _ h => absurd h4 h, fun i hi => ?_⟩
      rw [slotAt, hstripe]
      exact foldMember_folded (s := s₁) hi
    · rw [goRemote_of_nothing hr h1 h4]
      exact ⟨hfold.rings, hfold.modes, fun hk => absurd hk (not_or.2 ⟨h1, h4⟩), fun _ _ => remoteAt_dropRemote ..,
        fun i hi => foldMember_folded hi⟩

end

/-- A job is taken by the block it is for alone, and by none that may not start it (R415, R417, R428). -/
theorem execJob_of_refused {r : RemoteIn}
    (h : onLink s = false ∨ s.modes.quarantine = true ∨ s.modes.fenced = true
      ∨ s.modes.follower = false ∧ (r.go = true ∨ r.accum ≠ none ∨ endsInRead r.items = false)
      ∨ r.accum = none ∧ r.go = false ∧ (ownLun r.lun s = false ∨ remoteAt (remoteKey r) s ≠ none)) :
    exec (.job r) s = .next s := by
  show Host.Outcome.next _ = _
  congr 1
  by_cases hoff : (!(onLink s) || s.modes.quarantine || s.modes.fenced) = true
  · exact if_pos hoff
  · rw [if_neg hoff]
    simp only [Bool.or_eq_true, Bool.not_eq_true', not_or, Bool.not_eq_true, Bool.not_eq_false] at hoff
    obtain ⟨⟨hlink, hquar⟩, hfenced⟩ := hoff
    simp only [hlink, hquar, hfenced, Bool.true_eq_false, Bool.false_eq_true, false_or] at h
    rcases h with ⟨hfollower, h⟩ | ⟨haccum, hgo, h⟩
    · cases haccum : r.accum with
      | some a => simp only [hfollower, Bool.false_eq_true, if_false]
      | none =>
        simp only [haccum, ne_eq, not_true_eq_false, false_or] at h
        rcases h with hgo | hread
        · simp only [hgo, hfollower, Bool.false_eq_true, if_false, if_true]
        · simp only [hread, hfollower, Bool.or_self, Bool.and_false, Bool.false_eq_true, if_false, ite_self]
    · simp only [haccum, hgo, Bool.false_eq_true, if_false]
      rcases h with hown | hat
      · simp only [hown, Bool.and_false, Bool.false_and, Bool.false_eq_true, if_false]
      · simp only [Option.isSome_iff_ne_none.2 hat, Bool.not_true, Bool.false_and, Bool.false_eq_true, if_false]

section
variable {r : RemoteIn} (hlink : onLink s = true) (hquar : s.modes.quarantine = false) (hfenced : s.modes.fenced = false)

include hlink hquar hfenced

/-- A job for a LUN of this block joins its work (R415, R417). -/
theorem execJob_of_taken (haccum : r.accum = none) (hgo : r.go = false) (hown : ownLun r.lun s = true)
    (hat : remoteAt (remoteKey r) s = none) (htake : (s.modes.follower || endsInRead r.items) = true) :
    exec (.job r) s = .next (settle (joinRemote r s)) := by
  show Host.Outcome.next _ = _
  simp only [hlink, hquar, hfenced, haccum, hgo, hown, hat, htake, Bool.not_true, Bool.or_self, Bool.false_eq_true, if_false,
    Option.isSome_none, Bool.not_false, Bool.true_and, if_true]

/-- A job goes on (R415). -/
theorem execJob_of_go (hfollower : s.modes.follower = true) (haccum : r.accum = none) (hgo : r.go = true) :
    exec (.job r) s = .next (settle (goRemote r s)) := by
  show Host.Outcome.next _ = _
  simp only [hlink, hquar, hfenced, haccum, hgo, hfollower, Bool.not_true, Bool.or_self, Bool.false_eq_true, if_false, if_true]

/-- The lead block opens or closes its accumulators (R420). -/
theorem execJob_of_accum {a : AccumIn} (hfollower : s.modes.follower = true) (haccum : r.accum = some a) :
    exec (.job r) s = .next (settle (accumJob a s)) := by
  show Host.Outcome.next _ = _
  simp only [hlink, hquar, hfenced, haccum, hfollower, Bool.not_true, Bool.or_self, Bool.false_eq_true, if_false, if_true]

end

end
end Sys2Proof.Machine

namespace Sys2Proof.Machine

section
variable {s₀ s t u : State}

/-! ### Messages to a block that a way leads to (R408, R409) -/

/-- A message to a block that a way leads to is among those sent. -/
theorem dvSend_sent {type : Nat} {d : BitVec 3} {payload : List Byte} (h : SameRing s₀ s) (hroute : route d.toNat s₀ ≠ none) :
    ∃ x ∈ (dvSend type (some d) payload s).dv.out, x.type = BitVec.ofNat 8 type ∧ x.dst = some d ∧ x.payload = payload := by
  obtain ⟨dv, e, -, hout⟩ := dvSend_eq type (some d) payload s
  have hways : waysOf (some d) s ≠ [] := by
    rw [waysOf, h.route]
    simpa only [ne_eq, Option.toList_eq_nil_iff] using hroute
  rw [e]
  refine ⟨sentMsg type (some d) payload s, ?_, rfl, rfl, rfl⟩
  rw [show ({ s with dv := dv } : State).dv.out = dv.out from rfl, hout, if_neg hways]
  exact List.mem_append_right _ List.mem_cons_self

theorem dvSend_dv (type : Nat) (dst : Option (BitVec 3)) (payload : List Byte) (s : State) :
    ∃ dv, dvSend type dst payload s = { s with dv := dv } := by
  obtain ⟨dv, e, -, -⟩ := dvSend_eq type dst payload s
  exact ⟨dv, e⟩

/-! ### The accumulators of a follower (R420) -/

theorem cutPass_inQ (h : Nat) (s : State) : (cutPass h s).media.inQ = s.media.inQ := by
  unfold cutPass
  split
  · unfold passResult
    extract_lets +onlyGivenNames passes m
    exact (flushAnswers_flushed (.refl _)).inQ
  · rfl

theorem closeFrags_inQ (s : State) : (closeFrags s).media.inQ = s.media.inQ := by
  unfold closeFrags
  generalize List.range 16 = l
  dsimp only
  induction l generalizing s with
  | nil => rfl
  | cons n l ih => exact (ih (cutPass n s)).trans (cutPass_inQ n s)

/-- The numbers of the accumulators' returns: one to each die. -/
theorem leAt_closeHandle (die : BitVec 3) (l : List Byte) :
    leAt (le 2 (accCloseJob + die.toNat) ++ l) 0 2 = 0x2000 + die.toNat := by
  have hdie : die.toNat < 8 := die.isLt
  have htake : slice (le 2 (accCloseJob + die.toNat) ++ l) 0 2 = le 2 (accCloseJob + die.toNat) := by
    rw [slice, List.drop_zero, List.take_left' (length_le ..)]
  rw [leAt, htake, leVal_le, accCloseJob]
  omega

/-- The lead block's accumulators close: this block's are empty, and their sums go to it (R399, R420). -/
theorem accumJob_close (hin : s.media.inQ = []) :
    (accumJob .close s).media.accum = 0 ∧ (accumJob .close s).media.frags = []
      ∧ (∀ k < 16, (headAt k (accumJob .close s)).pass = none)
      ∧ (route s.modes.leadDie.toNat s ≠ none → ∃ x ∈ (accumJob .close s).dv.out, x.type = 0x11 ∧ x.dst = some s.modes.leadDie
          ∧ leAt x.payload 0 2 = 0x2000 + s.modes.dieId.toNat)
      ∧ accumJob .close s = { s with media := (accumJob .close s).media, dv := (accumJob .close s).dv } := by
  obtain ⟨hcuts, hfrags, hpass⟩ := closeFrags_spec s
  have hinQ := (closeFrags_inQ s).trans hin
  unfold accumJob
  dsimp only
  generalize closeFrags s = c at hcuts hfrags hpass hinQ
  have hmodes : c.modes = s.modes := by rw [hcuts.rest]
  have hring : SameRing s c := ⟨hmodes, hcuts.dv⟩
  obtain ⟨dv, e⟩ := dvSend_dv 0x11 (some c.modes.leadDie)
    (le 2 (accCloseJob + c.modes.dieId.toNat) ++ [0] ++ c.media.report.flatMap (le 4)) c
  have hsent (hroute : route s.modes.leadDie.toNat s ≠ none) := dvSend_sent (type := 0x11) (payload :=
    le 2 (accCloseJob + c.modes.dieId.toNat) ++ [0] ++ c.media.report.flatMap (le 4)) hring hroute
  rw [hmodes] at e hsent ⊢
  rw [e] at hsent ⊢
  rw [serveQueue_nil]
  case h => exact hinQ
  refine ⟨rfl, hfrags, hpass, fun hroute => ?_, ?_⟩
  · obtain ⟨x, hx, htype, hdst, hpayload⟩ := hsent hroute
    refine ⟨x, hx, htype, hdst, ?_⟩
    rw [hpayload, List.append_assoc]
    exact leAt_closeHandle ..
  · conv_lhs => rw [hcuts.rest]

/-- An accumulator opened or returned waits no longer (R420). -/
theorem bitAt_clear (w : BitVec 8) (h : Nat) : bitAt (w &&& ~~~(BitVec.ofNat 8 (2 ^ (h % 8)))).toNat (h % 8) = false := by
  have hlt : h % 8 < 8 := Nat.mod_lt _ (by omega)
  rw [bitAt_eq_testBit, BitVec.testBit_toNat, BitVec.getLsbD_and, BitVec.getLsbD_not, BitVec.getLsbD_ofNat, Nat.testBit_two_pow_self]
  simp [hlt]

/-- The answer of a block whose accumulators have opened for no entry. -/
theorem accumAnswered_idle {h : Nat} (hlow : 0x1000 ≤ h) (hhigh : h < 0x1008) (hacc : s.media.accEid = none) :
    accumAnswered h [] s
      = { s with media := { s.media with accWait := s.media.accWait &&& ~~~(BitVec.ofNat 8 (2 ^ (h % 8))) } } := by
  have hdiv : (h / 0x1000 == 1) = true := beq_iff_eq.2 (by omega)
  simp only [accumAnswered, hdiv, if_true, openedAll, hacc]

/-! ### What a block off its link ignores -/

theorem execJobEnd_offLink {h : Nat} {o : Byte} {d l : List (Nat × Nat)} {e : Bool} (hlink : onLink s = false) :
    exec (.jobEnd h o d l e) s = .next s := by
  show Host.Outcome.next _ = _
  simp only [hlink, Bool.not_false, if_true]

theorem execParity_offLink {g r : Nat} {p : PartIn} {pq : List Byte} (hlink : onLink s = false) :
    exec (.parity g r p pq) s = .next s := by
  show Host.Outcome.next _ = _
  simp only [hlink, Bool.not_false, if_true]

theorem execCodeword_offLink {d : CwTo} {job cw : Nat} {x : List Byte} (hlink : onLink s = false) :
    exec (.codeword d job cw x) s = .next s := by
  show Host.Outcome.next _ = _
  simp only [hlink, Bool.not_false, if_true]

theorem execRecord_offLink {rs : List (BitVec 256)} (hlink : onLink s = false) : exec (.record rs) s = .next s := by
  show Host.Outcome.next _ = _
  simp only [hlink, Bool.not_false, if_true]

theorem execParity_part {g r : Nat} {p : PartIn} {pq : List Byte} (hlink : onLink s = true) (hpq : pq ≠ []) :
    exec (.parity g r p pq) s = .next (settle (takePart g r p pq s)) := by
  have hbytes : pq.isEmpty = false := by simpa using hpq
  show Host.Outcome.next _ = _
  simp only [hlink, hbytes, Bool.not_true, Bool.false_eq_true, if_false]

theorem execParity_drop {g r : Nat} {p : PartIn} (hlink : onLink s = true) :
    exec (.parity g r p []) s = .next (settle (dropPart g r s)) := by
  show Host.Outcome.next _ = _
  simp only [hlink, Bool.not_true, Bool.false_eq_true, if_false, List.isEmpty_nil, if_true]

theorem execCodeword_headOff {h job cw : Nat} {x : List Byte} (hlink : onLink s = true) (hready : s.pins.mediaReady = false) :
    exec (.codeword (.head h) job cw x) s = .next s := by
  show Host.Outcome.next _ = _
  simp only [hlink, hready, Bool.not_true, Bool.not_false, Bool.false_eq_true, if_false, if_true]

theorem execCodeword_head {h job cw : Nat} {x : List Byte} (hlink : onLink s = true) (hready : s.pins.mediaReady = true) :
    exec (.codeword (.head h) job cw x) s = .next { s with
      media := { s.media with beats := s.media.beats ++ beatsOf ((x.length + 31) / 32) x } } := by
  show Host.Outcome.next _ = _
  simp only [hlink, hready, Bool.not_true, Bool.false_eq_true, if_false]

/-! ### A part of a row that is no longer needed (R416) -/

theorem dropPart_of_found {g r i : Nat} (hlead : s.modes.lead = false) (hslot : findSlot g r s = some i) :
    dropPart g r s = modSlot i (fun _ => {}) s := by
  simp only [dropPart, hslot, hlead, Bool.false_eq_true, if_false]

/-! ### A codeword of a page that this block programs (R415) -/

theorem remoteAt_modRemote {h : Nat} {r : Remote} {f : Remote → Remote} (hf : ∀ x, (f x).work = x.work)
    (hr : remoteAt h s = some r) : remoteAt h (modRemote h f s) = some (f r) := by
  have hkey : (remoteKey r.work == h) = true := by simpa using List.find?_some hr
  have hcomp : ((fun x : Remote => remoteKey x.work == h) ∘ fun x => if remoteKey x.work == h then f x else x)
      = fun x => remoteKey x.work == h := by
    funext x
    simp only [Function.comp]
    split <;> simp [hf]
  unfold remoteAt at hr ⊢
  rw [modRemote, List.find?_map, hcomp, hr, Option.map_some, if_pos hkey]

/-- The job keeps a codeword of its page. -/
def keepCw (cw : Nat) (x : List Byte) (r : Remote) : Remote :=
  if r.work.link && cw < 16 then { r with page := (cw, x) :: r.page.filter (fun p => p.1 != cw) } else r

theorem execCodeword_page {d : BitVec 3} {job cw : Nat} {x : List Byte} (hlink : onLink s = true) :
    exec (.codeword (.page d) job cw x) s = .next (settle (modRemote (d.toNat * 0x1000 + job) (keepCw cw x) s)) := by
  show Host.Outcome.next _ = _
  simp only [hlink, Bool.not_true, Bool.false_eq_true, if_false]
  rfl

theorem keepCw_work (cw : Nat) (x : List Byte) (r : Remote) : (keepCw cw x r).work = r.work := by
  unfold keepCw
  split <;> rfl

theorem keepCw_page {cw : Nat} {x : List Byte} {r : Remote} (hcw : cw < 16) (hwork : r.work.link = true) :
    (keepCw cw x r).page.lookup cw = some x := by
  simp [keepCw, hwork, hcw]

end
end Sys2Proof.Machine

namespace Sys2Proof.Machine

section
variable {s₀ s t u : State}

/-! ### Jobs and their ends -/

theorem jobAt_handle {h : Nat} {j : Job} (hj : jobAt h s = some j) : j.handle = h := by
  simpa using List.find?_some hj

/-- The job of a handle, changed but for its handle. -/
theorem find?_modJob {h : Nat} {f : Job → Job} {j : Job} (hf : ∀ x, (f x).handle = x.handle) (hj : jobAt h s = some j) :
    jobAt h (modJob h f s) = some (f j) := by
  have hkey : (j.handle == h) = true := by simpa using List.find?_some hj
  have hcomp : ((fun x : Job => x.handle == h) ∘ fun x => if x.handle == h then f x else x) = fun x => x.handle == h := by
    funext x
    simp only [Function.comp]
    split <;> simp [hf]
  unfold jobAt at hj ⊢
  rw [modJob, List.find?_map, hcomp, hj, Option.map_some, if_pos hkey]

theorem assignEncoders_codec (s : State) : ∃ codec, assignEncoders s = { s with codec := codec } := by
  unfold assignEncoders
  extract_lets want want'
  generalize want' = l
  clear want want'
  induction l generalizing s with
  | nil => exact ⟨_, rfl⟩
  | cons j l ih =>
    rw [List.foldl_cons]
    split
    · next i _ => exact ih { s with codec := { s.codec with engines := s.codec.engines ++ [(i, j.handle)] } }
    · exact ih s

/-- A job's page set is dropped: only its channel's write queue, the codec and its own mark change. -/
theorem discardSet_eq (j : Job) (s : State) : ∃ chans codec,
    discardSet j s = { modJob j.handle (fun j => { j with encoding := false }) s with chans := chans, codec := codec } := by
  unfold discardSet
  extract_lets n
  obtain ⟨codec, e⟩ := assignEncoders_codec (modJob j.handle (fun j => { j with encoding := false })
    (modChan j.ch (fun c => { c with wrq := c.wrq - n }) { s with codec := { s.codec with
      parity := s.codec.parity.filter (fun p => p.1 != j.handle)
      engines := s.codec.engines.filter (fun e => e.2 != j.handle) } }))
  exact ⟨_, codec, e⟩

theorem endsWell_lun (v : Nat) (s : State) : lunOutcome v 0 (countFail v 0 s) = s := rfl

/-- The end of a page set none of whose codewords is still being read. -/
theorem closeSet_of_read {h : Nat} {j : Job} {eid : Nat} (hj : jobAt h s = some j) (howner : j.owner = .read eid)
    (hitems : ∀ it ∈ j.items, itemType it ≠ 5) (hread : ∀ c ∈ cwsOf h s, c.state ≠ .reading) :
    ∃ jobs, closeSet h s = { s with sched := { s.sched with jobs := jobs } } := by
  have hh := jobAt_handle hj
  unfold closeSet
  simp only [hj]
  split
  · exact ⟨_, rfl⟩
  · have hsense : j.items.any (fun it => itemType it == 5) = false := by
      simpa only [List.any_eq_false, beq_iff_eq] using hitems
    have hmissing : missingCws j (modJob h (fun j => { j with closed := true }) s) = [] := by
      simp only [missingCws, hsense, Bool.false_eq_true, if_false]
      refine List.filter_eq_nil_iff.2 fun c hc => ?_
      have hc : c ∈ cwsOf h s := hh ▸ hc
      simp [hread c hc]
    simp only [howner, hmissing]
    exact ⟨_, rfl⟩

/-- A read ends well whose codewords have all been delivered or lost (R252). -/
theorem endJobWith_of_read {h v : Nat} {j : Job} {eid : Nat} (hj : jobAt h s = some j) (hstate : j.state = .popped)
    (howner : j.owner = .read eid) (hitems : ∀ it ∈ j.items, itemType it ≠ 5) (hread : ∀ c ∈ cwsOf h s, c.state ≠ .reading) :
    ∃ jobs chans codec, endJobWith h v 0 0 false s
      = { s with sched := { s.sched with jobs := jobs }, chans := chans, codec := codec } := by
  have hh := jobAt_handle hj
  unfold endJobWith
  simp only [hj, hstate, bne_self_eq_false, Bool.false_eq_true, if_false, Nat.not_lt_zero, endsWell_lun, ite_self]
  have hj₁ := find?_modJob (f := fun j => { j with state := .ended, outcome := BitVec.ofNat 8 0, result := BitVec.ofNat 32 0 })
    (fun _ => rfl) hj
  have hs₁ : ∃ jobs, modJob h (fun j => { j with state := .ended, outcome := BitVec.ofNat 8 0, result := BitVec.ofNat 32 0 }) s
    = { s with sched := { s.sched with jobs := jobs } } := ⟨_, rfl⟩
  generalize modJob h (fun j => { j with state := .ended, outcome := BitVec.ofNat 8 0, result := BitVec.ofNat 32 0 }) s = s₁
    at hj₁ hs₁ ⊢
  obtain ⟨jobs₁, hs₁⟩ := hs₁
  obtain ⟨chans, codec, e⟩ := discardSet_eq j s₁
  obtain ⟨j₂, hj₂, hsame⟩ : ∃ j₂, jobAt h (discardSet j s₁) = some j₂ ∧ j₂.owner = j.owner ∧ j₂.items = j.items := by
    rw [e, hh]
    exact ⟨_, find?_modJob (s := s₁) (f := fun j => { j with encoding := false }) (fun _ => rfl) hj₁, rfl, rfl⟩
  obtain ⟨jobs, hclose⟩ := closeSet_of_read hj₂ (hsame.1.trans howner) (hsame.2 ▸ hitems) (by rw [e, hs₁]; exact hread)
  have hend : ownerEnd j v 0 0 false (discardSet j s₁) = closeSet h (discardSet j s₁) := by
    simp only [ownerEnd, howner, readEnd, ← hh]
    rfl
  rw [hend, hclose, e, hs₁]
  exact ⟨_, _, _, rfl⟩

/-! ### What a job on another block came to (R252, R415) -/

/-- Of an entry's read, `done` codewords have been reported: `n` delivered and `k` lost. -/
structure Reported (h eid : Nat) (e : Entry) (done : List Nat) (n k : Nat) (s t : State) : Prop where
  rest : t = { s with sched := { s.sched with entries := t.sched.entries, cws := t.sched.cws } }
  cws : cwsOf h t = (cwsOf h s).filter (fun c => !(done.contains c.cw))
  entry : ∃ x, entryAt eid t = some x ∧ x.count = e.count + n ∧ x.lost = e.lost + k

/-- A codeword of the read that has been reported. -/
theorem cwsOf_dropCw {h : Nat} (n : Nat) (s : State) :
    cwsOf h (dropCw h n s) = (cwsOf h s).filter (fun c => !(c.cw == n)) := by
  simp only [cwsOf, dropCw, List.filter_filter]
  refine List.filter_congr fun c _ => ?_
  cases c.job == h <;> simp

theorem entryAt_noteStatus {eid st det : Nat} {x : Entry} (hx : entryAt eid s = some x) :
    ∃ y, entryAt eid (noteStatus eid st det s) = some y ∧ y.count = x.count ∧ y.lost = x.lost := by
  refine ⟨_, entryAt_modEntry (fun y => ?_) hx, ?_, ?_⟩ <;> dsimp only <;> split <;> try rfl
  all_goals split <;> try rfl
  all_goals split <;> rfl

section
variable {h eid n k : Nat} {e : Entry} {done : List Nat} {j : Job} (hall : ∀ c ∈ cwsOf h s, c.eid = some eid)
  {p : Nat × Nat} (hp : ∃ c ∈ cwsOf h s, c.cw = p.1 ∧ c.state = .reading) (hnew : p.1 ∉ done) (hr : Reported h eid e done n k s t)

include hall hp hnew hr

/-- The report's codeword is one that the entry still waits for. -/
theorem Reported.finds : ∃ c, (cwsOf h t).find? (fun c => c.cw == p.1 && c.state == .reading) = some c
    ∧ c.eid = some eid ∧ c.job = h ∧ c.cw = p.1 := by
  obtain ⟨c, hc, hcw, hstate⟩ := hp
  have hin : c ∈ cwsOf h t := by
    rw [hr.cws]
    exact List.mem_filter.2 ⟨hc, by simp [hcw, hnew]⟩
  obtain ⟨x, hx⟩ := Option.isSome_iff_exists.1 (List.find?_isSome.2
    (⟨c, hin, by simp [hcw, hstate]⟩ : ∃ c ∈ cwsOf h t, (c.cw == p.1 && c.state == .reading) = true))
  have hxt := List.mem_of_find?_eq_some hx
  have hprop := List.find?_some hx
  simp only [Bool.and_eq_true, beq_iff_eq] at hprop
  refine ⟨x, hx, ?_, ?_, hprop.1⟩
  · rw [hr.cws] at hxt
    exact hall x (List.mem_of_mem_filter hxt)
  · simpa using (List.mem_filter.1 hxt).2

omit hall hp hnew in
/-- The codeword is no longer among those that the entry waits for. -/
theorem Reported.drops : cwsOf h (dropCw h p.1 t) = (cwsOf h s).filter (fun c => !((p.1 :: done).contains c.cw)) := by
  rw [cwsOf_dropCw, hr.cws, List.filter_filter]
  refine List.filter_congr fun c _ => ?_
  rw [List.contains_cons, Bool.not_or]

variable (hj : j.handle = h)

include hj

theorem Reported.got : Reported h eid e (p.1 :: done) (n + 1) k s (awayGot j t p) := by
  obtain ⟨c, hfind, heid, hjob, hcw⟩ := hr.finds hall hp hnew
  obtain ⟨x, hx, hcount, hlost⟩ := hr.entry
  have hrest := hr.rest
  have hx₁ := entryAt_modEntry (s := dropCw h p.1 t) (eid := eid)
    (f := fun e => { e with count := e.count + 1, rebuilt := e.rebuilt || p.2 == 6 }) (fun _ => rfl) hx
  have hcws := hr.drops (p := p)
  simp only [awayGot, hj, hfind, heid, hjob, hcw]
  split
  · refine ⟨?_, hcws, _, hx₁, by dsimp only; omega, hlost⟩
    rw [hrest]
    rfl
  · simp only [noteLadder, heid]
    refine ⟨?_, hcws, _, entryAt_modEntry (fun _ => rfl) hx₁, by dsimp only; omega, hlost⟩
    rw [hrest]
    rfl

theorem Reported.gone : Reported h eid e (p.1 :: done) n (k + 1) s (awayLost j t p) := by
  obtain ⟨c, hfind, heid, hjob, hcw⟩ := hr.finds hall hp hnew
  obtain ⟨x, hx, hcount, hlost⟩ := hr.entry
  have hrest := hr.rest
  have hx₁ := entryAt_modEntry (s := dropCw h p.1 t) (eid := eid) (f := fun e => { e with lost := e.lost + 1 }) (fun _ => rfl) hx
  obtain ⟨y, hy, hycount, hylost⟩ := entryAt_noteStatus (st := 0x30) (det := p.2) hx₁
  have hcws := hr.drops (p := p)
  dsimp only at hycount hylost
  simp only [awayLost, hj, hfind, heid, hjob, hcw]
  split
  · refine ⟨?_, hcws, _, entryAt_modEntry (fun _ => rfl) hy, by dsimp only; omega, by dsimp only; omega⟩
    rw [hrest]
    rfl
  · refine ⟨?_, hcws, y, hy, by omega, by omega⟩
    rw [hrest]
    rfl

end

section
variable {h eid : Nat} {e : Entry} {j : Job} (hall : ∀ c ∈ cwsOf h s, c.eid = some eid) (hj : j.handle = h)

include hall hj

theorem Reported.gotAll {done : List Nat} {n k : Nat} {l : List (Nat × Nat)} (hr : Reported h eid e done n k s t)
    (hp : ∀ p ∈ l, ∃ c ∈ cwsOf h s, c.cw = p.1 ∧ c.state = .reading) (hnodup : (l.map (·.1)).Nodup)
    (hnew : ∀ p ∈ l, p.1 ∉ done) :
    ∃ done', Reported h eid e done' (n + l.length) k s (l.foldl (awayGot j) t) ∧ ∀ x, x ∈ done' ↔ x ∈ done ∨ ∃ p ∈ l, p.1 = x := by
  induction l generalizing done n t with
  | nil => exact ⟨done, hr, by simp⟩
  | cons p l ih =>
    rw [List.map_cons, List.nodup_cons] at hnodup
    have hnext := hr.got hall (hp p List.mem_cons_self) (hnew p List.mem_cons_self) hj
    obtain ⟨done', hall', hmem⟩ := ih hnext (fun q hq => hp q (List.mem_cons_of_mem _ hq)) hnodup.2 (fun q hq hin => by
      rcases List.mem_cons.1 hin with heq | hin
      · exact hnodup.1 (List.mem_map.2 ⟨q, hq, heq⟩)
      · exact hnew q (List.mem_cons_of_mem _ hq) hin)
    refine ⟨done', ?_, fun x => ?_⟩
    · rw [List.length_cons, ← Nat.add_assoc, Nat.add_right_comm]
      exact hall'
    · rw [hmem, List.mem_cons, List.exists_mem_cons_iff, eq_comm (a := x), or_comm (a := p.1 = x), or_assoc]

theorem Reported.goneAll {done : List Nat} {n k : Nat} {l : List (Nat × Nat)} (hr : Reported h eid e done n k s t)
    (hp : ∀ p ∈ l, ∃ c ∈ cwsOf h s, c.cw = p.1 ∧ c.state = .reading) (hnodup : (l.map (·.1)).Nodup)
    (hnew : ∀ p ∈ l, p.1 ∉ done) :
    ∃ done', Reported h eid e done' n (k + l.length) s (l.foldl (awayLost j) t) ∧ ∀ x, x ∈ done' ↔ x ∈ done ∨ ∃ p ∈ l, p.1 = x := by
  induction l generalizing done k t with
  | nil => exact ⟨done, hr, by simp⟩
  | cons p l ih =>
    rw [List.map_cons, List.nodup_cons] at hnodup
    have hnext := hr.gone hall (hp p List.mem_cons_self) (hnew p List.mem_cons_self) hj
    obtain ⟨done', hall', hmem⟩ := ih hnext (fun q hq => hp q (List.mem_cons_of_mem _ hq)) hnodup.2 (fun q hq hin => by
      rcases List.mem_cons.1 hin with heq | hin
      · exact hnodup.1 (List.mem_map.2 ⟨q, hq, heq⟩)
      · exact hnew q (List.mem_cons_of_mem _ hq) hin)
    refine ⟨done', ?_, fun x => ?_⟩
    · rw [List.length_cons, ← Nat.add_assoc, Nat.add_right_comm]
      exact hall'
    · rw [hmem, List.mem_cons, List.exists_mem_cons_iff, eq_comm (a := x), or_comm (a := p.1 = x), or_assoc]

end

theorem execJobEnd_of_low {h : Nat} {o : Byte} {d l : List (Nat × Nat)} {err : Bool} (hlink : onLink s = true)
    (hh : h < 0x1000) : exec (.jobEnd h o d l err) s = .next (settle (awayEnd h o.toNat d l err s)) := by
  have hlow : ¬ accOpenJob ≤ h := Nat.not_le.2 hh
  show Host.Outcome.next _ = _
  simp only [hlink, hlow, Bool.not_true, Bool.false_eq_true, if_false]

theorem execJobEnd_of_accum {h : Nat} {o : Byte} {d l : List (Nat × Nat)} {err : Bool} (hlink : onLink s = true)
    (hh : 0x1000 ≤ h) : exec (.jobEnd h o d l err) s = .next (settle (accumAnswered h d s)) := by
  have hlow : accOpenJob ≤ h := hh
  show Host.Outcome.next _ = _
  simp only [hlink, hlow, Bool.not_true, Bool.false_eq_true, if_false, if_true]

/-- A read that another block made for an entry of this one ends: each codeword counts as delivered or lost (R415). -/
theorem awayEnd_of_read {h eid : Nat} {d l : List (Nat × Nat)} {j : Job} {e : Entry} (hjob : jobAt h s = some j)
    (hstate : j.state = .popped) (hown : ownLun j.lun s = false) (howner : j.owner = .read eid) (he : entryAt eid s = some e)
    (hread : endsInRead j.items = true) (hitems : ∀ it ∈ j.items, itemType it ≠ 5) (hnodup : ((d ++ l).map (·.1)).Nodup)
    (hnames : ∀ p ∈ d ++ l, ∃ c ∈ cwsOf h s, c.cw = p.1 ∧ c.state = .reading) (hall : ∀ c ∈ cwsOf h s, c.eid = some eid)
    (hevery : ∀ c ∈ cwsOf h s, c.state = .reading → ∃ p ∈ d ++ l, p.1 = c.cw) :
    ∃ x, entryAt eid (awayEnd h 0 d l false s) = some x ∧ x.count = e.count + d.length ∧ x.lost = e.lost + l.length
      ∧ (awayEnd h 0 d l false s).rings = s.rings ∧ (awayEnd h 0 d l false s).modes = s.modes := by
  have hh := jobAt_handle hjob
  rw [List.map_append, List.nodup_append] at hnodup
  obtain ⟨hd, hl, hdl⟩ := hnodup
  have hstart : Reported h eid e [] 0 0 s s := ⟨rfl, by simp, e, he, rfl, rfl⟩
  obtain ⟨done₁, hr₁, hmem₁⟩ := hstart.gotAll (l := d) hall hh (fun p hp => hnames p (List.mem_append_left _ hp)) hd
    (fun p _ => List.not_mem_nil)
  obtain ⟨done, hr, hmem⟩ := hr₁.goneAll (l := l) hall hh (fun p hp => hnames p (List.mem_append_right _ hp)) hl
    (fun p hp hin => by
      obtain hin | ⟨q, hq, heq⟩ := (hmem₁ _).1 hin
      · exact List.not_mem_nil hin
      · exact hdl _ (List.mem_map_of_mem hq) _ (List.mem_map_of_mem hp) heq)
  have haway : awayRead j d l false s = l.foldl (awayLost j) (d.foldl (awayGot j) s) := by
    simp only [awayRead]
    split
    · next h => cases h
    · rfl
  obtain ⟨x, hx, hcount, hlost⟩ := hr.entry
  simp only [awayEnd, hjob, hstate, hown, hread, haway, bne_self_eq_false, Bool.or_self, Bool.false_eq_true, if_false, if_true]
  generalize l.foldl (awayLost j) _ = t at hr hx
  have hjob' : jobAt h t = some j := by rw [hr.rest]; exact hjob
  have hnone : ∀ c ∈ cwsOf h t, c.state ≠ .reading := by
    intro c hc hst
    rw [hr.cws] at hc
    obtain ⟨hc, hnot⟩ := List.mem_filter.1 hc
    obtain ⟨p, hp, heq⟩ := hevery c hc hst
    have hin : c.cw ∈ done := by
      rw [hmem, hmem₁]
      rcases List.mem_append.1 hp with hp | hp
      · exact .inl (.inr ⟨p, hp, heq⟩)
      · exact .inr ⟨p, hp, heq⟩
    simp [hin] at hnot
  obtain ⟨jobs, chans, codec, hend⟩ := endJobWith_of_read (v := j.lun) hjob' hstate howner hitems hnone
  rw [hend]
  refine ⟨x, hx, by omega, by omega, ?_, ?_⟩ <;> rw [hr.rest]

end
end Sys2Proof.Machine

namespace Sys2Proof.Machine

section
variable {s₀ s t u : State}

/-! ### A row is sealed, and its programs go on (R296, R299, R416) -/

/-- A slot that holds a row not yet FREE. -/
def Slot.busy (k : Slot) : Prop := k.state = .filling ∨ k.state = .sealing

/-- What tells an entry and the data that has arrived for it. -/
def Entry.data (e : Entry) : Nat × List (Nat × Nat) := (e.eid, e.arrived)

/-- Rows have been sealed and programs have gone on. -/
structure Seals (s t : State) : Prop where
  rings : t.rings = s.rings
  modes : t.modes = s.modes
  core : t.dv.core = s.dv.core
  out : ∀ x ∈ s.dv.out, x ∈ t.dv.out
  entries : t.sched.entries.map Entry.data = s.sched.entries.map Entry.data
  folded : ∀ i, (slotAt i t).folded = (slotAt i s).folded
  busy : ∀ i, (slotAt i s).busy → (slotAt i t).busy

theorem Seals.refl (s : State) : Seals s s := ⟨rfl, rfl, rfl, fun _ => id, rfl, fun _ => rfl, fun _ => id⟩

theorem Seals.trans (h : Seals s t) (k : Seals t u) : Seals s u :=
  ⟨k.rings.trans h.rings, k.modes.trans h.modes, k.core.trans h.core, fun x hx => k.out x (h.out x hx),
    k.entries.trans h.entries, fun i => (k.folded i).trans (h.folded i), fun i hi => k.busy i (h.busy i hi)⟩

theorem Seals.ring (h : Seals s t) : SameRing s t := ⟨h.modes, h.core⟩

/-- What `Seals` says of the schedule and of the slots. -/
def sealsParts (sched : Sched) (stripe : Stripe) : List (Nat × List (Nat × Nat)) × List Slot :=
  (sched.entries.map Entry.data, stripe.slots)

/-- An update of what `Seals` does not speak of. -/
theorem Seals.frame {host : HostPorts} {sched : Sched} {jigs : List Jig} {luns : List (Nat × LunRec)} {stripe : Stripe}
    {irq : Irq} {evq : Evq} {dict : Dict} {sram : Sram} {stats : Stats} (h : Seals s₀ s)
    (e : sealsParts sched stripe = sealsParts s.sched s.stripe) :
    Seals s₀ { s with host := host, sched := sched, jigs := jigs, luns := luns, stripe := stripe, irq := irq, evq := evq
                      dict := dict, sram := sram, stats := stats } := by
  simp only [sealsParts, Prod.mk.injEq] at e
  obtain ⟨hentries, hslots⟩ := e
  refine h.trans ⟨rfl, rfl, rfl, fun _ => id, hentries, fun i => ?_, fun i => ?_⟩ <;> simp only [slotAt, hslots]
  exact id

theorem Seals.ite {c : Prop} [Decidable c] {a b : State} (ha : Seals s₀ a) (hb : Seals s₀ b) :
    Seals s₀ (if c then a else b) := by split <;> assumption

theorem Seals.foldl {α : Type _} {f : State → α → State} {l : List α} (hf : ∀ s a, Seals s₀ s → Seals s₀ (f s a))
    (h : Seals s₀ s) : Seals s₀ (l.foldl f s) := by
  induction l generalizing s with
  | nil => exact h
  | cons a l ih => exact ih (hf s a h)

/-- A slot changed in what `Seals` does not speak of, or one that goes on to SEALING. -/
theorem modSlot_seals {i : Nat} {f : Slot → Slot} (hfolded : ∀ k, (f k).folded = k.folded) (hbusy : ∀ k, k.busy → (f k).busy)
    (h : Seals s₀ s) : Seals s₀ (modSlot i f s) := by
  refine h.trans ⟨rfl, rfl, rfl, fun _ => id, rfl, fun n => slotAt_modSlot_folded hfolded, fun n hn => ?_⟩
  simp only [slotAt, modSlot, List.getD_eq_getElem?_getD, List.getElem?_modify] at hn ⊢
  cases he : s.stripe.slots[n]? with
  | none =>
    rw [he] at hn
    exact hn
  | some k =>
    rw [he] at hn
    simp only [Functor.map, Option.map, Option.getD_some] at hn ⊢
    split
    · exact hbusy k hn
    · exact hn

theorem Folds.seals (h : Folds s t) : Seals s t := by
  refine ⟨h.parted.rings, h.parted.modes, h.parted.core, h.parted.out, by rw [h.parted.sched], h.folded, fun i hi => ?_⟩
  have e : (slotAt i t).state = (slotAt i s).state := by
    have := congrArg Slot.state (h.content i)
    exact this
  rwa [Slot.busy, e]

theorem modEntry_seals {eid : Nat} {f : Entry → Entry} (hf : ∀ e, (f e).data = e.data) (h : Seals s₀ s) :
    Seals s₀ (modEntry eid f s) := by
  refine .frame h ?_
  simp only [sealsParts, List.map_map, Prod.mk.injEq, and_true]
  refine List.map_congr_left fun e _ => ?_
  simp only [Function.comp]
  split
  · exact hf e
  · rfl

theorem dvSend_seals {type : Nat} {dst : Option (BitVec 3)} {payload : List Byte} (h : Seals s₀ s) :
    Seals s₀ (dvSend type dst payload s) := h.trans (dvSend_folds (.refl s)).seals

theorem noteStatus_seals {eid st det : Nat} (h : Seals s₀ s) : Seals s₀ (noteStatus eid st det s) := by
  refine modEntry_seals (fun e => ?_) h
  dsimp only
  split
  · rfl
  · split
    · rfl
    · split <;> rfl

theorem addRec_seals {r : BitVec 256} (h : Seals s₀ s) : Seals s₀ (addRec r s) := by
  unfold addRec
  split
  · exact dvSend_seals (h.trans ⟨rfl, rfl, rfl, fun _ => id, rfl, fun _ => rfl, fun _ => id⟩)
  · exact h.frame rfl

/-! #### Jobs -/

theorem resolveFeats_seals {j : Job} (h : Seals s₀ s) : Seals s₀ (resolveFeats j s).2 := by
  unfold resolveFeats
  extract_lets +onlyGivenNames _ _
  split
  · exact h.frame rfl
  · split
    · exact h
    · split <;> exact h.frame rfl

theorem addJob_seals {j : Job} (h : Seals s₀ s) : Seals s₀ (addJob j s).2 := by
  unfold addJob
  extract_lets +onlyGivenNames _ _ _ _
  split
  · exact h.frame rfl
  · exact dvSend_seals (resolveFeats_seals (.frame (.frame h rfl) rfl))

theorem programMember_seals {owner : Owner} {g m r prio handle : Nat} {stamp : Word} {w : BitVec 96} (h : Seals s₀ s) :
    Seals s₀ (programMember owner g m r prio handle stamp w s) := addJob_seals h

theorem sendGo_seals {j : Job} {kind : Nat} (h : Seals s₀ s) : Seals s₀ (sendGo j kind s) := dvSend_seals (.frame h rfl)

/-! #### The directory's window -/

theorem winPut_seals {p : Nat × List Byte} (h : Seals s₀ s) : Seals s₀ (winPut s p) :=
  .ite (.frame h rfl) (.ite (.frame (.frame h rfl) rfl) (.frame (.frame h rfl) rfl))

theorem winWrite_seals {off : Nat} {bs : List Byte} (h : Seals s₀ s) : Seals s₀ (winWrite off bs s) :=
  .ite (.foldl (fun _ _ ht => winPut_seals ht) h) h

theorem writeDir_seals {g : Nat} {f : DirEntry → DirEntry} (h : Seals s₀ s) : Seals s₀ (writeDir g f s) :=
  winWrite_seals (.frame (.ite (dvSend_seals h) h) rfl)

theorem listShort_seals {g r mask : Nat} (h : Seals s₀ s) : Seals s₀ (listShort g r mask s) :=
  .ite h (.ite (writeDir_seals h) (writeDir_seals (.frame h rfl)))

/-! #### P and Q of a sealed row -/

theorem noteParityFail_seals {g r m : Nat} (h : Seals s₀ s) : Seals s₀ (noteParityFail g r m s) := by
  unfold noteParityFail
  split
  · exact noteStatus_seals h
  · exact h

theorem placeParityOne_seals {i m half : Nat} (h : Seals s₀ s) : Seals s₀ (placeParityOne i m half s) :=
  .ite h (.ite (programMember_seals (modSlot_seals (fun _ => rfl) (fun _ => id) h))
    (noteParityFail_seals (modSlot_seals (fun _ => rfl) (fun _ => id) h)))

theorem rowSealed_seals {i : Nat} (h : Seals s₀ s) : Seals s₀ (rowSealed i s) :=
  .ite (modSlot_seals (fun _ => rfl) (fun _ => id) (addRec_seals h)) h

theorem placeParity_seals {i : Nat} (h : Seals s₀ s) : Seals s₀ (placeParity i s) :=
  rowSealed_seals (placeParityOne_seals (placeParityOne_seals (modSlot_seals (fun _ => rfl) (fun _ => id) h)))

theorem placeAll_seals {n : Nat} (h : Seals s₀ s) : Seals s₀ (placeAll n s) := by
  induction n generalizing s with
  | zero => exact h
  | succ n ih =>
    unfold placeAll
    split
    · exact ih (placeParity_seals h)
    · exact h

theorem giveQ_seals {i : Nat} (h : Seals s₀ s) : Seals s₀ (giveQ i s) := h.trans (giveQ_folds (.refl s)).seals

theorem sendPart_seals {die : BitVec 3} {i : Nat} {members : List Nat} (h : Seals s₀ s) :
    Seals s₀ (sendPart die i members s) := h.trans (sendPart_folds (.refl s)).seals

theorem sendParity_seals {i : Nat} (h : Seals s₀ s) : Seals s₀ (sendParity i s) :=
  .ite (giveQ_seals (modSlot_seals (fun _ => rfl) (fun _ => id) h)) (sendPart_seals h)

theorem sealSlot_seals {i : Nat} (h : Seals s₀ s) : Seals s₀ (sealSlot i s) := by
  unfold sealSlot
  extract_lets +onlyGivenNames _ _ _ _ _ _ _ _ _ _ s₁ s₂ s₃ s₄
  split
  · have hs₂ : Seals s₀ s₂ := modSlot_seals (fun _ => rfl) (fun _ _ => .inr rfl) (.frame h rfl)
    have hs₃ : Seals s₀ s₃ := writeDir_seals hs₂
    exact placeAll_seals (sendParity_seals (.ite hs₃ (listShort_seals hs₃)))
  · exact h

/-! #### Programs of a write go on -/

theorem foldsAway_seals {i g m : Nat} (h : Seals s₀ s) : Seals s₀ (foldsAway i g m s) :=
  .ite h (modSlot_seals (fun _ => rfl) (fun _ => id) h)

theorem memberNotProgrammed_seals {e : Entry} {m : Nat} (h : Seals s₀ s) : Seals s₀ (memberNotProgrammed e m s) := by
  unfold memberNotProgrammed
  extract_lets +onlyGivenNames s₁ s₂
  have hs₁ : Seals s₀ s₁ := noteStatus_seals (.frame h rfl)
  refine modEntry_seals (fun _ => rfl) ?_
  show Seals s₀ s₂
  simp only [s₂]
  split
  · exact modSlot_seals (fun _ => rfl) (fun _ => id) hs₁
  · exact hs₁

theorem startAway_seals {e : Entry} {m : Nat} {j : Job} (h : Seals s₀ s) : Seals s₀ (startAway e m j s) := by
  unfold startAway
  extract_lets +onlyGivenNames _ _ s₁ s₂
  have hs₁ : Seals s₀ s₁ := by
    simp only [s₁]
    split
    · exact foldsAway_seals h
    · exact h
  exact .ite (sendGo_seals hs₁) (.frame (memberNotProgrammed_seals (.frame (sendGo_seals hs₁) rfl)) rfl)

theorem startPrograms_seals {eid : Nat} (h : Seals s₀ s) : Seals s₀ (startPrograms eid s) := by
  unfold startPrograms
  split
  · refine .foldl (fun s m ht => ?_) h
    dsimp only
    split
    · exact .ite (startAway_seals ht) (.ite (.frame ht rfl) (memberNotProgrammed_seals ht))
    · exact memberNotProgrammed_seals ht
  · exact h

/-- The entry's data that has arrived is still told of it. -/
theorem Seals.entryAt {eid : Nat} {e : Entry} (h : Seals s t) (he : entryAt eid s = some e) :
    ∃ x, entryAt eid t = some x ∧ x.arrived = e.arrived := by
  have hfind (u : State) : (u.sched.entries.map Entry.data).find? (fun p => p.1 == eid) = (Machine.entryAt eid u).map Entry.data := by
    rw [List.find?_map]
    rfl
  have e₁ : (Machine.entryAt eid t).map Entry.data = some e.data := by
    rw [← hfind, h.entries, hfind, he, Option.map_some]
  obtain ⟨x, hx, hdata⟩ := Option.map_eq_some_iff.1 e₁
  exact ⟨x, hx, congrArg Prod.snd hdata⟩

/-! ### The data of a write has been fetched (R415) -/

/-- The data of a member on another block counts as arrived, and the row goes on once all of the entry's has (R299, R415). -/
theorem awayFetched_spec {eid m i : Nat} {e : Entry} (he : entryAt eid s = some e)
    (hslot : findSlot e.group.toNat e.row.toNat s = some i) :
    ∃ x, entryAt eid (awayFetched eid m s) = some x ∧ (∀ c ∈ List.range 16, (m, c) ∈ x.arrived)
      ∧ (awayFetched eid m s).rings = s.rings := by
  have he₁ := entryAt_modEntry (s := s) (eid := eid) (f := fun e => { e with
    arrived := e.arrived.filter (fun p => p.1 != m) ++ (List.range 16).map (fun c => (m, c)) }) (fun _ => rfl) he
  unfold awayFetched
  extract_lets +onlyGivenNames s₁
  have hslot₁ : findSlot e.group.toNat e.row.toNat s₁ = some i := hslot
  have he₁ : entryAt eid s₁ = _ := he₁
  have hmem : ∀ c ∈ List.range 16, (m, c) ∈ e.arrived.filter (fun p => p.1 != m) ++ (List.range 16).map (fun c => (m, c)) :=
    fun c hc => List.mem_append_right _ (List.mem_map_of_mem hc)
  have hgo (k : Nat) : ∃ x, entryAt eid (sealSlot k (startPrograms eid s₁)) = some x
      ∧ (∀ c ∈ List.range 16, (m, c) ∈ x.arrived) ∧ (sealSlot k (startPrograms eid s₁)).rings = s.rings := by
    have hseals : Seals s₁ (sealSlot k (startPrograms eid s₁)) := sealSlot_seals (startPrograms_seals (.refl s₁))
    obtain ⟨x, hx, harrived⟩ := hseals.entryAt he₁
    exact ⟨x, hx, harrived ▸ hmem, hseals.rings⟩
  simp only [he₁, hslot₁]
  split
  · exact hgo _
  · exact ⟨_, he₁, hmem, rfl⟩

theorem awayEnd_of_fetched {h o eid m : Nat} {d : List (Nat × Nat)} {j : Job} {e : Entry} (hjob : jobAt h s = some j)
    (hstate : j.state = .popped) (hown : ownLun j.lun s = false) (howner : j.owner = .write eid m) (hwait : j.dataWait = true)
    (hread : endsInRead j.items = false) (he : entryAt eid s = some e) (hd : d ≠ []) :
    awayEnd h o d [] false s = awayFetched eid m s := by
  have hsome : (!d.isEmpty) = true := by simpa using hd
  simp only [awayEnd, hjob, hstate, hown, hread, howner, hwait, he, hsome, bne_self_eq_false, Bool.or_self, Bool.or_true,
    Bool.false_eq_true, if_false, if_true]

/-! ### The home block folds another block's part (R298, R416) -/

theorem foldPart_folds (i : Nat) (pq : List Byte) :
    Folds s ((List.range 32).foldl (fun s k => foldHalf i (k / 16) (k % 16) (slice pq (4096 * k) 4096) s) s) :=
  .foldl (fun _ _ ht => foldHalf_folds ht) (.refl s)

/-- A part folded adds its members to the slot. -/
theorem foldPart_spec {i : Nat} {members : List Nat} {pq : List Byte} (hi : i < s.stripe.slots.length) :
    Parted s (foldPart i members pq s) ∧ (slotAt i (foldPart i members pq s)).folded = (slotAt i s).folded ++ members
      ∧ (slotAt i (foldPart i members pq s)).state = (slotAt i s).state := by
  have hfolds := foldPart_folds (s := s) i pq
  unfold foldPart
  extract_lets s₁
  have hfolds : Folds s s₁ := hfolds
  have hi₁ : i < s₁.stripe.slots.length := hfolds.slotCount ▸ hi
  refine ⟨modSlot_parted hfolds.parted, ?_, ?_⟩ <;> rw [slotAt_modSlot hi₁]
  · rw [← hfolds.folded i]
  · have e := congrArg Slot.state (hfolds.content i)
    exact e

/-- The lead block, as the home, folds the part, acknowledges it, and seals the row if it can (R299, R416). -/
theorem takePart_of_home {g r i : Nat} {p : PartIn} {pq : List Byte} (hslot : findSlot g r s = some i)
    (hlead : s.modes.lead = true) (hhome : homeHere g s = true) (hfilling : (slotAt i s).state = .filling)
    (hwhole : (slotAt i s).whole = false) (hnew : ∀ m ∈ p.members, m ∉ (slotAt i s).folded) :
    (slotAt i (takePart g r p pq s)).folded = (slotAt i s).folded ++ p.members ∧ (slotAt i (takePart g r p pq s)).busy
      ∧ (route p.die.toNat s ≠ none → ∃ x ∈ (takePart g r p pq s).dv.out, x.type = 0x12 ∧ x.dst = some p.die
          ∧ x.payload = le 3 g ++ le 4 r ++ le 4 0)
      ∧ (takePart g r p pq s).rings = s.rings := by
  have hok : ((slotAt i s).state == .filling && !(slotAt i s).whole
      && p.members.all (fun m => !((slotAt i s).folded.contains m))) = true := by
    have hall : p.members.all (fun m => !((slotAt i s).folded.contains m)) = true :=
      List.all_eq_true.2 fun m hm => by simpa using hnew m hm
    rw [hfilling, hwhole, hall]
    rfl
  obtain ⟨hparted, hfolded, hstate⟩ := foldPart_spec (members := p.members) (pq := pq) (findSlot_lt hslot)
  have hmodes : (foldPart i p.members pq s).modes.lead = true := by rw [hparted.modes, hlead]
  have heq : takePart g r p pq s
      = dvSend 0x12 (some p.die) (le 3 g ++ le 4 r ++ le 4 0) (sealSlot i (foldPart i p.members pq s)) := by
    simp only [takePart, hlead, hslot, hhome, hok, hmodes, if_true, Bool.not_true, Bool.false_eq_true, if_false]
  have hseals : Seals (foldPart i p.members pq s) (sealSlot i (foldPart i p.members pq s)) := sealSlot_seals (.refl _)
  have hring : SameRing s (sealSlot i (foldPart i p.members pq s)) :=
    ⟨hseals.modes.trans hparted.modes, hseals.core.trans hparted.core⟩
  have hsend : Seals (foldPart i p.members pq s) (takePart g r p pq s) := heq ▸ dvSend_seals hseals
  refine ⟨(hsend.folded i).trans hfolded, hsend.busy i (.inl (hstate.trans hfilling)), fun hroute => ?_,
    hsend.rings.trans hparted.rings⟩
  obtain ⟨x, hx, htype, hdst, hpayload⟩ := dvSend_sent (type := 0x12) (payload := le 3 g ++ le 4 r ++ le 4 0) hring hroute
  exact ⟨x, heq ▸ hx, htype, hdst, hpayload⟩

end
end Sys2Proof.Machine

namespace Sys2Proof.Machine

section
variable {s₀ s t u : State}

/-! ### A codeword that a job on another block read for this one (R417) -/

theorem cwOf_key {job cw : Nat} {c : Cw} (hc : cwOf job cw s = some c) : c.job = job ∧ c.cw = cw := by
  unfold cwOf at hc
  simpa using List.find?_some hc

theorem cwOf_modCw {job cw : Nat} {f : Cw → Cw} {c : Cw} (hf : ∀ x, (f x).job = x.job ∧ (f x).cw = x.cw)
    (hc : cwOf job cw s = some c) : cwOf job cw (modCw job cw f s) = some (f c) := by
  have hkey : (c.job == job && c.cw == cw) = true := by simpa using cwOf_key hc
  have hcomp : ((fun x : Cw => x.job == job && x.cw == cw) ∘ fun x => if x.job == job && x.cw == cw then f x else x)
      = fun x => x.job == job && x.cw == cw := by
    funext x
    simp only [Function.comp]
    split
    · simp only [(hf x).1, (hf x).2]
    · rfl
  unfold cwOf at hc ⊢
  rw [modCw, List.find?_map, hcomp, hc, Option.map_some, if_pos hkey]

/-- Only the host ports, and what goes out over Dovetail, take a codeword delivered for another block. -/
theorem hostWriteData_host (what : HostWhat) (addr : Nat) (bs : List Byte) (s : State) :
    ∃ host, hostWriteData what addr bs s = { s with host := host } := by
  unfold hostWriteData
  generalize splitPages (bs.length + 1) addr bs = l
  induction l generalizing s with
  | nil => exact ⟨_, rfl⟩
  | cons p l ih => exact ih (hostWrite what p.1 p.2 s)

theorem hostWrites_host {h c : Nat} (ps : List (BitVec 64 × Nat)) (s : State) (bs : List Byte) :
    ∃ host, (ps.foldl (fun (acc : State × List Byte) p =>
      (hostWriteData (.remote h c) p.1.toNat (acc.2.take p.2) acc.1, acc.2.drop p.2)) (s, bs)).1 = { s with host := host } := by
  induction ps generalizing s bs with
  | nil => exact ⟨_, rfl⟩
  | cons p ps ih =>
    obtain ⟨host₁, e₁⟩ := hostWriteData_host (.remote h c) p.1.toNat (bs.take p.2) s
    obtain ⟨host, e⟩ := ih { s with host := host₁ } (bs.drop p.2)
    rw [List.foldl_cons, e₁]
    exact ⟨host, e⟩

theorem deliverRemote_folds (c : Cw) (bs : List Byte) (s : State) : Folds s (deliverRemote c bs s) := by
  unfold deliverRemote
  split
  · split
    · split
      · exact .refl s
      · split
        · obtain ⟨host, e⟩ := hostWrites_host (h := ‹Nat›) (c := c.cw) ‹List (BitVec 64 × Nat)› s bs
          rw [e]
          exact (Folds.refl s).frame
        · exact dvSend_folds (by split; exacts [sramRead_folds (.refl s), .refl s])
    · exact .refl s
  · exact .refl s

theorem landCw_of_ok {c : Cw} {data : List Byte} {r : List Byte × Bool × State}
    (hr : sramRead (landOff c.slot) 4096 (sramWrite (landOff c.slot) data s) = r) (heid : c.eid = none) (hok : r.2.1 = true) :
    landCw c data s = deliverRemote c r.1
      (modCw c.job c.cw (fun c => { c with state := .decoded, work := none, sensings := [] }) r.2.2) := by
  simp only [landCw, landRead, hr, hok, heid, if_true]

/-- The codeword lands: it is decoded, in its slot. -/
theorem landCw_spec {job cw : Nat} {c : Cw} {data label : List Byte} (hc : cwOf job cw s = some c) (heid : c.eid = none)
    (hok : (sramRead (landOff c.slot) 4096 (sramWrite (landOff c.slot) data (landLabel c label s))).2.1 = true) :
    (∃ y, cwOf job cw (landCw c data (landLabel c label s)) = some y ∧ y.state = .decoded ∧ y.slot = c.slot)
      ∧ (landCw c data (landLabel c label s)).rings = s.rings ∧ (landCw c data (landLabel c label s)).modes = s.modes := by
  have hkey := cwOf_key hc
  have hfolds : Folds s (sramRead (landOff c.slot) 4096 (sramWrite (landOff c.slot) data (landLabel c label s))).2.2 :=
    sramRead_folds (sramWrite_folds (.ite (sramWrite_folds (.refl s)) (.refl s)))
  obtain ⟨r, hr⟩ : ∃ r, sramRead (landOff c.slot) 4096 (sramWrite (landOff c.slot) data (landLabel c label s)) = r := ⟨_, rfl⟩
  rw [hr] at hfolds hok
  rw [landCw_of_ok hr heid hok, hkey.1, hkey.2]
  have hc' : cwOf job cw r.2.2 = some c := by rw [cwOf, hfolds.parted.sched]; exact hc
  have hland := cwOf_modCw (f := fun c => { c with state := .decoded, work := none, sensings := [] }) (fun _ => ⟨rfl, rfl⟩) hc'
  have hend := deliverRemote_folds c r.1
    (modCw job cw (fun c => { c with state := .decoded, work := none, sensings := [] }) r.2.2)
  refine ⟨⟨{ c with state := .decoded, work := none, sensings := [] }, ?_, rfl, rfl⟩,
    hend.parted.rings.trans hfolds.parted.rings, hend.parted.modes.trans hfolds.parted.modes⟩
  rw [cwOf, hend.parted.sched]
  exact hland

theorem execCodeword_job {job cw : Nat} {x : List Byte} {j : Job} {c : Cw} (hlink : onLink s = true)
    (hjob : jobAt job s = some j) (hcw : cwOf job cw s = some c) (hown : ownLun j.lun s = false) (hstate : c.state = .reading)
    (heid : c.eid = none) :
    exec (.codeword .job job cw x) s = .next (settle (landCw c (padTo 4096 x) (landLabel c (x.drop 4096) s))) := by
  show Host.Outcome.next _ = _
  simp only [hlink, hjob, hcw, hown, hstate, heid, Bool.not_true, Bool.not_false, Bool.false_eq_true, if_false,
    Option.isNone_none, Bool.and_true, beq_self_eq_true, if_true]

/-! ### Records of a follower (R414, R417, R455) -/

theorem execRecord_follower {rs : List (BitVec 256)} (hlink : onLink s = true) (hlead : s.modes.lead = false) :
    exec (.record rs) s = .next (settle { s with dv := { s.dv with recOut := false } }) := by
  show Host.Outcome.next _ = _
  simp only [hlink, hlead, Bool.not_true, Bool.false_eq_true, if_false]

theorem execRecord_lead {rs : List (BitVec 256)} (hlink : onLink s = true) (hlead : s.modes.lead = true) :
    exec (.record rs) s = .next (settle { rs.foldl takeRecord s with
      dv := { (rs.foldl takeRecord s).dv with recWait := some (lastRec (rs.foldl takeRecord s)) } }) := by
  show Host.Outcome.next _ = _
  simp only [hlink, hlead, Bool.not_true, Bool.false_eq_true, if_false, if_true]

theorem settle_follower (s : State) : (settle s).modes.follower = s.modes.follower := by
  have hmodes := (settle_quiet (.refl s)).modes
  generalize settle s = t at hmodes
  have e := congrArg Modes.follower hmodes
  exact e

/-- Records have joined the journal's queue, and nothing else has moved but the dose records. -/
structure Joined (rs : List (BitVec 256)) (s t : State) : Prop where
  rest : t = { s with recov := t.recov, stripe := { s.stripe with jrnl := t.stripe.jrnl } }
  queue : t.stripe.jrnl.queue = s.stripe.jrnl.queue ++ rs
  recNo : t.stripe.jrnl.recNo = s.stripe.jrnl.recNo + rs.length

theorem addRec_joined {r : BitVec 256} (hfollower : s.modes.follower = false) : Joined [r] s (addRec r s) := by
  simp only [addRec, hfollower, Bool.false_eq_true, if_false]
  exact ⟨rfl, rfl, rfl⟩

/-- A record that is no loss joins the journal. -/
theorem takeRecord_joined {r : BitVec 256} (hfollower : s.modes.follower = false) (hr : recType r ≠ 0x18) :
    Joined [r] s (takeRecord s r) := by
  unfold takeRecord
  split
  · next h7 =>
    have hreplay : ∃ recov, replayRec s r = { s with recov := recov } := by
      simp only [replayRec, h7]
      exact ⟨_, rfl⟩
    obtain ⟨recov, e⟩ := hreplay
    rw [e]
    obtain ⟨hrest, hqueue, hrecNo⟩ := addRec_joined (s := { s with recov := recov }) (r := r) hfollower
    exact ⟨by rw [hrest], hqueue, hrecNo⟩
  · next h => exact absurd h hr
  · exact addRec_joined hfollower

theorem takeRecords_joined {rs : List (BitVec 256)} (hfollower : s.modes.follower = false) (hrs : ∀ r ∈ rs, recType r ≠ 0x18) :
    Joined rs s (rs.foldl takeRecord s) := by
  induction rs generalizing s with
  | nil => exact ⟨rfl, (List.append_nil _).symm, rfl⟩
  | cons r rs ih =>
    obtain ⟨hrest₁, hqueue₁, hrecNo₁⟩ := takeRecord_joined hfollower (hrs r List.mem_cons_self)
    obtain ⟨hrest, hqueue, hrecNo⟩ := ih (s := takeRecord s r) (by rw [hrest₁]; exact hfollower)
      (fun x hx => hrs x (List.mem_cons_of_mem _ hx))
    rw [List.foldl_cons]
    refine ⟨?_, ?_, ?_⟩
    · conv_lhs => rw [hrest]
      rw [hrest₁]
    · rw [hqueue, hqueue₁, List.append_assoc, List.singleton_append]
    · simp only [hrecNo, hrecNo₁, List.length_cons, List.length_nil]
      omega

/-! #### A loss (R338, R417) -/

theorem pair_mem_putAsc {β : Type} (k : Nat) (v : β) (l : List (Nat × β)) : (k, v) ∈ putAsc k v l := by
  induction l with
  | nil => exact List.mem_cons_self
  | cons p l ih =>
    unfold putAsc
    split
    · exact List.mem_cons_self
    · split
      · exact List.mem_cons_self
      · exact List.mem_cons_of_mem _ ih

/-- A write to the window waits there or at the host port. -/
theorem winPut_eq (s : State) (p : Nat × List Byte) : ∃ host held wait, winPut s p
    = { s with host := host, stripe := { s.stripe with held := held, winWait := wait } } := by
  unfold winPut
  dsimp only
  split
  · exact ⟨_, _, _, rfl⟩
  · split <;> exact ⟨_, _, _, rfl⟩

theorem winPuts_eq (l : List (Nat × List Byte)) (s : State) : ∃ host held wait, l.foldl winPut s
    = { s with host := host, stripe := { s.stripe with held := held, winWait := wait } } := by
  induction l generalizing s with
  | nil => exact ⟨_, _, _, rfl⟩
  | cons p l ih =>
    obtain ⟨host₁, held₁, wait₁, e₁⟩ := winPut_eq s p
    obtain ⟨host, held, wait, e⟩ := ih (winPut s p)
    rw [List.foldl_cons, e, e₁]
    exact ⟨_, _, _, rfl⟩

theorem winWrite_eq (off : Nat) (bs : List Byte) (s : State) : ∃ host held wait, winWrite off bs s
    = { s with host := host, stripe := { s.stripe with held := held, winWait := wait } } := by
  unfold winWrite
  split
  · exact winPuts_eq ..
  · exact ⟨_, _, _, rfl⟩

/-- A ledger entry is stored, in the window too, and its record joins the journal (R338, R340). -/
theorem setLedger_spec (i : Nat) (e : LossEntry) (hfollower : s.modes.follower = false) :
    (setLedger i e s).rings = s.rings ∧ (setLedger i e s).modes = s.modes ∧ (setLedger i e s).bg = s.bg
      ∧ (i, { e with lseq := s.stripe.lseq + 1 }) ∈ (setLedger i e s).stripe.ledger := by
  unfold setLedger
  extract_lets +onlyGivenNames e' _ s₁ s₂
  obtain ⟨host, held, wait, hwin⟩ : ∃ host held wait, s₂ = _ := winWrite_eq (0x1000 + 32 * i) e'.bytes s₁
  have hs₂ : s₂.modes.follower = false := by rw [hwin]; exact hfollower
  rw [(addRec_joined hs₂).rest, hwin]
  exact ⟨rfl, rfl, rfl, pair_mem_putAsc ..⟩

theorem lossEvent_folds (g m r mask cause : Nat) (full : Bool) (idx : Nat) (s : State) :
    Folds s (lossEvent g m r mask cause full idx s) := raisePriv_folds (.refl s)

/-- A loss stored in the ledger is reported. -/
theorem lossStored_spec (g m r mask cause : Nat) (full : Bool) (idx i : Nat) (e : LossEntry) (hfollower : s.modes.follower = false)
    (hlt : lossEvent g m r mask cause full idx (setLedger i e s) = t) :
    t.rings = s.rings ∧ t.modes = s.modes ∧ t.bg.lossCount = s.bg.lossCount
      ∧ (i, { e with lseq := s.stripe.lseq + 1 }) ∈ t.stripe.ledger := by
  obtain ⟨hrings, hmodes, hbg, hmem⟩ := setLedger_spec i e hfollower
  have hparted : Parted (setLedger i e s) t := hlt ▸ (lossEvent_folds g m r mask cause full idx (setLedger i e s)).parted
  refine ⟨hparted.rings.trans hrings, hparted.modes.trans hmodes, ?_, ?_⟩ <;> rw [hparted.rest]
  · exact congrArg Bg.lossCount hbg
  · exact hmem

/-- A loss enters the ledger: counted, and in the entry of its run or in one that is free (R338, R340, R342). -/
theorem addLoss_spec {g m r mask cause : Nat} (hfollower : s.modes.follower = false) (hfree : freeLedger s ≠ none)
    (hadd : addLoss g m r mask cause s = t) :
    t.rings = s.rings ∧ t.modes = s.modes ∧ t.bg.lossCount = s.bg.lossCount + BitVec.ofNat 32 (maskCount mask)
      ∧ ∃ p ∈ t.stripe.ledger, p.2.group = g ∧ p.2.member = m
          ∧ (p.2.mask = BitVec.ofNat 16 mask ∨ p.2.mask.toNat = mask)
          ∧ (p.2.cause = BitVec.ofNat 8 cause ∨ p.2.cause.toNat = cause) := by
  unfold addLoss at hadd
  rw [if_neg (by rw [hfollower]; exact Bool.false_ne_true)] at hadd
  extract_lets +onlyGivenNames gen _ _ s₁ fits at hadd
  split at hadd
  · next i e hfind =>
    have hfits := List.find?_some hfind
    simp only [fits, Bool.and_eq_true, beq_iff_eq] at hfits
    obtain ⟨⟨⟨⟨⟨hg, -⟩, hm⟩, hcause⟩, hmask⟩, -⟩ := hfits
    obtain ⟨hrings, hmodes, hcount, hmem⟩ := lossStored_spec (s := s₁) _ _ _ _ _ _ _ _ _ hfollower hadd
    exact ⟨hrings, hmodes, hcount, _, hmem, hg, hm, .inr hmask, .inr hcause⟩
  · split at hadd
    · extract_lets +onlyGivenNames full _ s₂ at hadd
      obtain ⟨hrings, hmodes, hcount, hmem⟩ := lossStored_spec (s := s₂) _ _ _ _ _ _ _ _ _ hfollower hadd
      exact ⟨hrings, hmodes, hcount, _, hmem, rfl, rfl, .inl rfl, .inl rfl⟩
    · next hnone =>
      unfold freeLedger at hfree hnone
      exact absurd hnone hfree

/-- A follower's loss that the ledger does not know is entered (R417). -/
theorem takeRecord_of_loss {r : BitVec 256} {e : LossEntry} (hr : recType r = 0x18) (he : e = parseLoss (le 24 (recFld r 8 24)) 0)
    (hnew : ∃ c < 16, bitAt e.mask.toNat c = true ∧ inLedger e.group e.member e.first c s = false) :
    takeRecord s r = addLoss e.group e.member e.first e.mask.toNat e.cause.toNat s := by
  have hall : (List.range 16).all (fun c => !(bitAt e.mask.toNat c) || inLedger e.group e.member e.first c s) = false := by
    obtain ⟨c, hc, hbit, hin⟩ := hnew
    exact List.all_eq_false.2 ⟨c, List.mem_range.2 hc, by simp [hbit, hin]⟩
  simp only [takeRecord, hr, ← he, hall, Bool.false_eq_true, if_false]

end
end Sys2Proof.Machine

namespace Sys2Proof.Machine

section
variable {s₀ s t u : State}

/-! ### The directory of a follower (R414, R432) -/

theorem execDirectory_refused {gr : Option (BitVec 64 × Nat)} {l : List (Nat × List Byte)}
    (h : onLink s = false ∨ s.modes.follower = false) : exec (.directory gr l) s = .next s := by
  show Host.Outcome.next _ = _
  rcases h with h | h <;> simp only [h, Bool.false_and, Bool.and_false, Bool.false_eq_true, if_false]

theorem find?_insertDir (e : DirEntry) (l : List DirEntry) :
    (insertDir e l).find? (fun x => x.group == e.group) = some e := by
  induction l with
  | nil => simp [insertDir]
  | cons x l ih =>
    unfold insertDir
    split
    · simp
    · split
      · simp
      · next hne =>
        have hx : (x.group == e.group) = false := beq_eq_false_iff_ne.2 fun h => hne (beq_iff_eq.2 h.symm)
        rw [List.find?_cons, hx]
        exact ih

/-- An entry written is the one found. -/
theorem dirAt_modDir {g : Nat} {f : DirEntry → DirEntry} (hf : (f (dirAt g s)).group = g) :
    dirAt g (modDir g f s) = f (dirAt g s) := by
  have h := find?_insertDir (f (dirAt g s)) s.stripe.dir
  rw [hf] at h
  simp only [dirAt, modDir] at h ⊢
  rw [h, Option.getD_some]

/-- A follower takes the window's grant and an entry (R414). -/
theorem execDirectory_takes {b : BitVec 64} {mib g : Nat} {x : List Byte} (hlink : onLink s = true)
    (hfollower : s.modes.follower = true) (hx : dirBytesBad x = false) :
    exec (.directory (some (b, mib)) [(g, x)]) s = .next (modDir g (fun _ => { parseDir x with group := g })
      (layWindow (takeWindow { s with dv := { s.dv with grantWin := some (b, mib) } }))) := by
  show Host.Outcome.next _ = _
  simp only [hlink, hfollower, hx, Bool.and_true, if_true, List.foldl_cons, List.foldl_nil, Bool.false_eq_true, if_false]

/-! ### Bytes stored in the Cabinet and read again (R526) -/

theorem leVal_lt (bs : List Byte) : leVal bs < 256 ^ bs.length := by
  induction bs with
  | nil => simp [leVal]
  | cons b bs ih =>
    have hb := b.isLt
    rw [leVal, List.length_cons, Nat.pow_succ]
    omega

theorem le_leVal (bs : List Byte) : le bs.length (leVal bs) = bs := by
  induction bs with
  | nil => rfl
  | cons b bs ih =>
    have hb := b.isLt
    have hdiv : (b.toNat + 256 * leVal bs) / 256 = leVal bs := by omega
    have hbyte : BitVec.ofNat 8 (b.toNat + 256 * leVal bs) = b := by
      apply BitVec.eq_of_toNat_eq
      rw [BitVec.toNat_ofNat]
      omega
    rw [leVal, List.length_cons, le, hdiv, hbyte, ih]

theorem bytesIn_succ (l : List (Nat × BitVec 64)) (k n : Nat) :
    bytesIn l k (n + 1) = le 8 (wordIn l k) ++ bytesIn l (k + 1) n := by
  simp only [bytesIn, List.range_succ_eq_map, List.map_cons, List.flatten_cons, List.map_map]
  congr 2
  refine List.map_congr_left fun i _ => ?_
  simp only [Function.comp, Nat.succ_eq_add_one]
  rw [Nat.add_right_comm, Nat.add_assoc]

theorem wordsOf_lt {n : Nat} {bs : List Byte} : ∀ v ∈ wordsOf n bs, v < 2 ^ 64 := by
  induction n generalizing bs with
  | zero => exact fun v hv => absurd hv List.not_mem_nil
  | succ n ih =>
    intro v hv
    rcases List.mem_cons.1 hv with rfl | hv
    · have h := leVal_lt (padTo 8 (bs.take 8))
      rw [length_padTo] at h
      exact h
    · exact ih v hv

theorem wordIn_putWords_before {vs : List Nat} {l : List (Nat × BitVec 64)} {k a : Nat} (hvs : ∀ v ∈ vs, v < 2 ^ 64)
    (ha : a < k) : wordIn (putWords l k vs) a = wordIn l a := by
  induction vs generalizing l k with
  | nil => rfl
  | cons v vs ih =>
    rw [putWords, ih (fun x hx => hvs x (List.mem_cons_of_mem _ hx)) (by omega), wordIn_putIn _ _ _ _ (hvs v List.mem_cons_self),
      if_neg (by omega)]

/-- Bytes stored are read again. -/
theorem bytesIn_putWords {n : Nat} {bs : List Byte} (l : List (Nat × BitVec 64)) (k : Nat) (h : bs.length = 8 * n) :
    bytesIn (putWords l k (wordsOf n bs)) k n = bs := by
  induction n generalizing bs l k with
  | zero => exact (List.length_eq_zero_iff.1 h).symm
  | succ n ih =>
    have hlen : (bs.take 8).length = 8 := by
      rw [List.length_take]
      omega
    have hpad : padTo 8 (bs.take 8) = bs.take 8 := by
      rw [padTo, List.take_of_length_le (by omega), hlen]
      exact List.append_nil _
    have hv : ∀ v ∈ wordsOf (n + 1) bs, v < 2 ^ 64 := wordsOf_lt
    rw [wordsOf, hpad] at hv ⊢
    have hword : le 8 (leVal (bs.take 8)) = bs.take 8 := by
      have e := le_leVal (bs.take 8)
      rwa [hlen] at e
    rw [bytesIn_succ, putWords, wordIn_putWords_before (fun v hx => hv v (List.mem_cons_of_mem _ hx)) (by omega),
      wordIn_putIn _ _ _ _ (hv _ List.mem_cons_self), if_pos rfl, hword, ih _ _ (by rw [List.length_drop]; omega),
      List.take_append_drop]

theorem cabBytes_storeBytes {sector w n : Nat} {bs : List Byte} (h : bs.length = 8 * n) :
    cabBytes sector w n (storeBytes sector w bs s) = bs := by
  rw [storeBytes, show (bs.length + 7) / 8 = n by omega]
  exact bytesIn_putWords _ _ h

/-! ### Copies of the anchor (R419) -/

theorem execAnchor_refused {a : AnchorMsg} (h : onLink s = false ∨ s.modes.holdup = true) : exec (.anchor a) s = .next s := by
  show Host.Outcome.next _ = _
  rcases h with h | h <;> simp only [h, Bool.false_and, Bool.and_false, Bool.not_true, Bool.false_eq_true, if_false]

theorem execAnchor_taken {a : AnchorMsg} (hlink : onLink s = true) (hholdup : s.modes.holdup = false) :
    exec (.anchor a) s = .next (settle (pendingGrant (takeCopy a.bytes
      { s with dv := { s.dv with copies := s.dv.copies ||| dieBit a.die } }))) := by
  show Host.Outcome.next _ = _
  simp only [hlink, hholdup, Bool.not_false, Bool.and_true, if_true]

theorem pendingGrant_of_none (h : s.stripe.grantPend = false) : pendingGrant s = s := if_neg (by simp [h])

/-- A copy that fails its check, or is not later than the anchor known, is not stored. -/
theorem takeCopy_of_old {bytes : List Byte} (h : anchorOk (padTo 64 bytes) = false
    ∨ s.stripe.jrnl.anchorValid = true ∧ leAt bytes 4 4 ≤ s.stripe.jrnl.aseq.toNat) : takeCopy bytes s = s := by
  refine if_neg ?_
  rcases h with h | ⟨hvalid, hold⟩
  · simp [h]
  · simp [hvalid, hold]

theorem takeCopy_of_new {bytes : List Byte} (hok : anchorOk (padTo 64 bytes) = true)
    (hnew : s.stripe.jrnl.anchorValid = true → s.stripe.jrnl.aseq.toNat < leAt bytes 4 4)
    (hlead : s.modes.lead = false ∨ s.stripe.jrnl.recStep = 1 ∨ s.dv.tkClose = true) :
    takeCopy bytes s = takeAnchor (anchorNext s).1 (anchorNext s).2 (putAnchor (padTo 64 bytes) s) := by
  refine if_pos ?_
  have hlater : (!s.stripe.jrnl.anchorValid || decide (s.stripe.jrnl.aseq.toNat < leAt bytes 4 4)) = true := by
    cases h : s.stripe.jrnl.anchorValid with
    | false => rfl
    | true => simp [hnew h]
  have htakes : (!s.modes.lead || s.stripe.jrnl.recStep == 1 || s.dv.tkClose) = true := by
    rcases hlead with h | h | h <;> simp [h]
  rw [hok, hlater, htakes]
  rfl

theorem leAt_padTo {n off len : Nat} (l : List Byte) (h : off + len ≤ n) : leAt (padTo n l) off len = leAt l off len := by
  rw [padTo, leAt_append_zeros, leAt, leAt, slice, slice, List.drop_take, List.take_take, Nat.min_eq_left (by omega)]

/-- What a sector's erase leaves as it is. -/
theorem eraseSector_dv (k : Nat) (s : State) : (eraseSector k s).dv.core = s.dv.core := by
  unfold eraseSector
  extract_lets +onlyGivenNames redo s₁
  split
  · rfl
  · unfold noteEndurance
    split
    · exact (raisePriv_folds (.refl _)).parted.core
    · rfl

/-- An anchor stored is the one known (R309). -/
theorem putAnchor_spec (bytes : List Byte) (s : State) : (putAnchor (padTo 64 bytes) s).rings = s.rings
    ∧ (putAnchor (padTo 64 bytes) s).modes = s.modes ∧ (putAnchor (padTo 64 bytes) s).dv.core = s.dv.core
    ∧ (putAnchor (padTo 64 bytes) s).stripe.grantPend = s.stripe.grantPend
    ∧ anchorBytes (anchorNext s).1 (anchorNext s).2 (putAnchor (padTo 64 bytes) s) = padTo 64 bytes := by
  unfold putAnchor
  generalize anchorNext s = p
  have hlen : (padTo 64 bytes).length = 8 * 8 := length_padTo 64 bytes
  have hstored (u : State) : cabBytes (0x700 + p.1) (8 * p.2) 8 (storeBytes (0x700 + p.1) (8 * p.2) (padTo 64 bytes) u)
      = padTo 64 bytes := cabBytes_storeBytes hlen
  have herased := eraseSector_filed (s' := nextSector 0x700 64 (0x700 + p.1) s) (.refl s)
  simp only [Filed, State.filed, Prod.mk.injEq] at herased
  obtain ⟨hrings, hmodes, hstripe, -⟩ := herased
  have hpend : (eraseSector (nextSector 0x700 64 (0x700 + p.1) s) s).stripe.grantPend = s.stripe.grantPend := by rw [hstripe]
  have hdv := eraseSector_dv (nextSector 0x700 64 (0x700 + p.1) s) s
  dsimp only
  split
  · exact ⟨hrings, hmodes, hdv, hpend, hstored _⟩
  · exact ⟨rfl, rfl, rfl, rfl, hstored _⟩

theorem execAnchor_old {a : AnchorMsg} (hlink : onLink s = true) (hholdup : s.modes.holdup = false)
    (hpend : s.stripe.grantPend = false) (hold : anchorOk (padTo 64 a.bytes) = false
      ∨ s.stripe.jrnl.anchorValid = true ∧ leAt a.bytes 4 4 ≤ s.stripe.jrnl.aseq.toNat) :
    exec (.anchor a) s = .next (settle { s with dv := { s.dv with copies := s.dv.copies ||| dieBit a.die } }) := by
  have hexec := execAnchor_taken (a := a) hlink hholdup
  rw [takeCopy_of_old (s := { s with dv := { s.dv with copies := s.dv.copies ||| dieBit a.die } }) hold,
    pendingGrant_of_none (s := { s with dv := { s.dv with copies := s.dv.copies ||| dieBit a.die } }) hpend] at hexec
  exact hexec

theorem execAnchor_later {a : AnchorMsg} (hlink : onLink s = true) (hholdup : s.modes.holdup = false)
    (hpend : s.stripe.grantPend = false) (hok : anchorOk (padTo 64 a.bytes) = true)
    (hnew : s.stripe.jrnl.anchorValid = true → s.stripe.jrnl.aseq.toNat < leAt a.bytes 4 4)
    (hlead : s.modes.lead = false ∨ s.stripe.jrnl.recStep = 1 ∨ s.dv.tkClose = true) :
    ∃ t u, exec (.anchor a) s = .next t ∧ t = settle u ∧ u.stripe.jrnl.anchorValid = true
      ∧ u.stripe.jrnl.anchorSector = (anchorNext s).1 ∧ u.stripe.jrnl.anchorRecord = (anchorNext s).2
      ∧ anchorBytes (anchorNext s).1 (anchorNext s).2 u = padTo 64 a.bytes
      ∧ u.stripe.jrnl.aseq.toNat = leAt a.bytes 4 4 ∧ u.dv.copies = s.dv.copies ||| dieBit a.die
      ∧ u.rings = s.rings ∧ u.modes = s.modes := by
  have hexec := execAnchor_taken (a := a) hlink hholdup
  rw [takeCopy_of_new (s := { s with dv := { s.dv with copies := s.dv.copies ||| dieBit a.die } }) hok hnew hlead] at hexec
  obtain ⟨hrings, hmodes, hcore, hgrant, hbytes⟩ :=
    putAnchor_spec a.bytes { s with dv := { s.dv with copies := s.dv.copies ||| dieBit a.die } }
  have hnext : anchorNext { s with dv := { s.dv with copies := s.dv.copies ||| dieBit a.die } } = anchorNext s := rfl
  rw [hnext] at hexec hbytes
  generalize putAnchor (padTo 64 a.bytes) { s with dv := { s.dv with copies := s.dv.copies ||| dieBit a.die } } = v
    at hexec hrings hmodes hcore hgrant hbytes
  generalize anchorNext s = p at hexec hbytes ⊢
  have htake : (takeAnchor p.1 p.2 v).stripe.grantPend = false := hgrant.trans hpend
  rw [pendingGrant_of_none htake] at hexec
  have hseq : (BitVec.ofNat 32 (leAt (anchorBytes p.1 p.2 v) 4 4)).toNat = leAt a.bytes 4 4 := by
    have hlt : leAt a.bytes 4 4 < 2 ^ 32 := by
      have h := leVal_lt (slice a.bytes 4 4)
      have hlen : (slice a.bytes 4 4).length ≤ 4 := by rw [length_slice]; omega
      exact h.trans_le (Nat.pow_le_pow_right (by decide) hlen)
    rw [hbytes, leAt_padTo _ (by decide), BitVec.toNat_ofNat, Nat.mod_eq_of_lt hlt]
  have hcopies : v.dv.copies = s.dv.copies ||| dieBit a.die := by
    have e := congrArg Dv.copies hcore
    exact e
  exact ⟨_, _, hexec, rfl, rfl, rfl, rfl, hbytes, hseq, hcopies, hrings, hmodes⟩

/-! ### Messages of heads over Dovetail (R402, R420) -/

section
variable {d : BitVec 3} {m : BitVec 64}

theorem execMedia_refused (h : onLink s = false ∨ s.pins.mediaReady = false ∨ s.modes.lead = true ∧ inReady s = false) :
    exec (.media d m) s = .next s := by
  show Host.Outcome.next _ = _
  rcases h with h | h | ⟨hlead, hready⟩
  · simp only [h, Bool.not_false, if_true]
  · simp only [inReady, h, Bool.false_and, Bool.false_eq_true, if_false, ite_self]
  · simp only [hlead, hready, Bool.false_eq_true, if_false, if_true, ite_self]

theorem execMedia_lead (hlink : onLink s = true) (hready : inReady s = true) (hlead : s.modes.lead = true) :
    exec (.media d m) s = .next (settle (acceptMessage m (modHead (mHead m) (fun h => { h with via := some d }) s))) := by
  show Host.Outcome.next _ = _
  simp only [hlink, hready, hlead, Bool.not_true, Bool.false_eq_true, if_false, if_true]

theorem execMedia_follower (hlink : onLink s = true) (hready : s.pins.mediaReady = true) (hlead : s.modes.lead = false) :
    exec (.media d m) s = .next (flushAnswers (answerBack m s)) := by
  show Host.Outcome.next _ = _
  simp only [hlink, hready, hlead, Bool.not_true, Bool.false_eq_true, if_false, if_true]

/-- Heads that owe no answer send none. -/
theorem flushHeads_idle {l : List Nat} (h : ∀ n ∈ l, (headAt n s).answers = []) :
    l.foldl (fun s h => flushHead (headAt h s).answers.length h s) s = s := by
  induction l with
  | nil => rfl
  | cons n l ih =>
    rw [List.foldl_cons, h n List.mem_cons_self]
    exact ih fun k hk => h k (List.mem_cons_of_mem _ hk)

/-- The port sends an answer of a head of its own. -/
def answered (h : Nat) (m : BitVec 64) (s : State) : State :=
  { modHead h (fun x => { x with answers := [] }) s with media := { (modHead h (fun x => { x with answers := [] }) s).media with
    out := s.media.out ++ [m], beats := s.media.beats ++ [] } }

theorem flushHead_answered {h : Nat} (hh : h < s.media.heads.length) (ha : (headAt h s).answers = [{ msgs := [m] }])
    (hv : (headAt h s).via = none) : flushHead (headAt h s).answers.length h s = answered h m s := by
  have hvia : (headAt h (modHead h (fun y => { y with answers := [] }) s)).via = none := by
    rw [headAt_modHead s h _ hh]
    exact hv
  have hready : Ans.ready { msgs := [m] } s = true := rfl
  have hsend : mediaSend h m (modHead h (fun y => { y with answers := [] }) s) = { modHead h (fun x => { x with answers := [] }) s with
      media := { (modHead h (fun x => { x with answers := [] }) s).media with out := s.media.out ++ [m] } } := by
    simp only [mediaSend, hvia]
    rfl
  have hvia' : (headAt h { modHead h (fun x => { x with answers := [] }) s with
      media := { (modHead h (fun x => { x with answers := [] }) s).media with out := s.media.out ++ [m] } }).via = none := hvia
  rw [ha]
  simp only [List.length_singleton, flushHead, ha, hready, if_true, List.foldl_cons, List.foldl_nil, hsend, mediaBeats, hvia']
  rfl

/-- The one head that owes an answer sends it. -/
theorem flushHeads_answered {h : Nat} {l : List Nat} (hl : h ∈ l) (hh : h < s.media.heads.length)
    (ha : (headAt h s).answers = [{ msgs := [m] }]) (hv : (headAt h s).via = none)
    (hidle : ∀ n ∈ l, n ≠ h → (headAt n s).answers = []) :
    l.foldl (fun s h => flushHead (headAt h s).answers.length h s) s = answered h m s := by
  induction l with
  | nil => cases hl
  | cons n l ih =>
    rw [List.foldl_cons]
    by_cases hn : n = h
    · subst hn
      rw [flushHead_answered hh ha hv]
      refine flushHeads_idle fun k hk => ?_
      by_cases hkn : k = n
      · subst hkn
        have e : headAt k (answered k m s) = headAt k (modHead k (fun x => { x with answers := [] }) s) := rfl
        rw [e, headAt_modHead s k _ hh]
      · have e : headAt k (answered n m s) = headAt k (modHead n (fun x => { x with answers := [] }) s) := rfl
        rw [e, headAt_modHead_ne s n k _ (Ne.symm hkn)]
        exact hidle k (List.mem_cons_of_mem _ hk) hkn
    · rw [hidle n List.mem_cons_self hn]
      exact ih ((List.mem_cons.1 hl).resolve_left (Ne.symm hn)) fun k hk => hidle k (List.mem_cons_of_mem _ hk)

/-- A message that answers nothing goes to its head. -/
theorem execMedia_passes (hlink : onLink s = true) (hready : s.pins.mediaReady = true) (hlead : s.modes.lead = false)
    (ha : (headAt (mHead m) s).answers = []) (hidle : ∀ x ∈ s.media.heads, x.answers = []) (h2 : mKind m ≠ 2) (h3 : mKind m ≠ 3)
    (h4 : mKind m ≠ 4) : exec (.media d m) s = .next { s with media := { s.media with out := s.media.out ++ [m] } } := by
  have hback : answerBack m s = { s with media := { s.media with out := s.media.out ++ [m] } } := by
    simp only [answerBack, ha, beq_eq_false_iff_ne.2 h2, beq_eq_false_iff_ne.2 h3, beq_eq_false_iff_ne.2 h4, Bool.false_and,
      Bool.or_self, Bool.false_eq_true, if_false, List.any_nil]
  rw [execMedia_follower hlink hready hlead, hback]
  refine congrArg Host.Outcome.next (flushHeads_idle fun n _ => ?_)
  have e : headAt n { s with media := { s.media with out := s.media.out ++ [m] } } = headAt n s := rfl
  rw [e]
  simp only [headAt, List.getD_eq_getElem?_getD]
  cases hn : s.media.heads[n]? with
  | none => rfl
  | some x => exact hidle x (List.mem_of_getElem? hn)

/-- The answer that a follower's head waits for goes to it (R402, R420). -/
theorem execMedia_answers {a : Ans} {k : Nat} (hlink : onLink s = true) (hready : s.pins.mediaReady = true)
    (hlead : s.modes.lead = false) (hlen : s.media.heads.length = 16)
    (hidle : ∀ h < 16, h ≠ mHead m → (headAt h s).answers = []) (ha : (headAt (mHead m) s).answers = [a]) (hfwd : a.fwd = some k)
    (hvia : (headAt (mHead m) s).via = none) (h3 : mKind m ≠ 3) (h4 : mKind m ≠ 4) (h2 : mKind m = 2 → fld m.toNat 0 8 ≠ 9) :
    ∃ t, exec (.media d m) s = .next t ∧ t.media.out = s.media.out ++ [m] ∧ (headAt (mHead m) t).answers = []
      ∧ t = { s with media := t.media } := by
  have hh : mHead m < s.media.heads.length := hlen ▸ mHead_lt m
  have hbusy : (mKind m == 2 && fld m.toNat 0 8 == 9) = false := by
    by_cases h : mKind m = 2
    · simp [h2 h]
    · simp [h]
  have hback : answerBack m s = modHead (mHead m) (fun x => { x with answers := x.answers.set 0 { msgs := [m] } }) s := by
    have hidx : [a].findIdx (fun a => a.fwd.isSome) = 0 := by simp [hfwd]
    simp only [answerBack, ha, hbusy, hidx, beq_eq_false_iff_ne.2 h3, beq_eq_false_iff_ne.2 h4, Bool.or_self, Bool.false_eq_true,
      if_false, List.any_cons, hfwd, Option.isSome_some, Bool.true_or, if_true]
  have hat := headAt_modHead s (mHead m) (fun x => { x with answers := x.answers.set 0 { msgs := [m] } }) hh
  set u := modHead (mHead m) (fun x => { x with answers := x.answers.set 0 { msgs := [m] } }) s with hu
  have hulen : mHead m < u.media.heads.length := by simpa [hu, modHead] using hh
  have hflush : flushAnswers u = answered (mHead m) m u := by
    refine flushHeads_answered (List.mem_range.2 (mHead_lt m)) hulen (by rw [hat, ha]; rfl) (by rw [hat]; exact hvia)
      fun n hn hne => ?_
    rw [hu, headAt_modHead_ne s (mHead m) n _ (Ne.symm hne)]
    exact hidle n (List.mem_range.1 hn) hne
  refine ⟨answered (mHead m) m u, ?_, rfl, ?_, rfl⟩
  · rw [execMedia_follower hlink hready hlead, hback, hflush]
  · have e : headAt (mHead m) (answered (mHead m) m u)
        = headAt (mHead m) (modHead (mHead m) (fun x => { x with answers := [] }) u) := rfl
    rw [e, headAt_modHead u (mHead m) _ hulen]

/-- An answer to a head of another block goes there (R420). -/
theorem flushHeads_sent {h : Nat} {l : List Nat} (hl : h ∈ l) (hh : h < s.media.heads.length)
    (ha : (headAt h s).answers = [{ msgs := [m] }]) (hv : (headAt h s).via = some d) (hring : SameRing s₀ s)
    (hroute : route d.toNat s₀ ≠ none) :
    ∃ x ∈ (l.foldl (fun s h => flushHead (headAt h s).answers.length h s) s).dv.out, x.type = 0x30 ∧ x.dst = some d
      ∧ x.payload = le 8 m.toNat := by
  have hrest {l : List Nat} {s : State} : Sends s (l.foldl (fun s h => flushHead (headAt h s).answers.length h s) s) := by
    induction l generalizing s with
    | nil => exact .refl s
    | cons n l ih => exact (flushHead_sends (.refl s)).trans ih
  induction l generalizing s with
  | nil => cases hl
  | cons n l ih =>
    rw [List.foldl_cons]
    by_cases hn : n = h
    · subst hn
      have hvia : (headAt n (modHead n (fun y => { y with answers := [] }) s)).via = some d := by
        rw [headAt_modHead s n _ hh]
        exact hv
      have hready : Ans.ready { msgs := [m] } s = true := rfl
      have hring₁ : SameRing s₀ (modHead n (fun y => { y with answers := [] }) s) := ⟨hring.modes, hring.dv⟩
      obtain ⟨x, hx, htype, hdst, hpayload⟩ := dvSend_sent (type := 0x30) (payload := le 8 m.toNat) hring₁ hroute
      have hflush : x ∈ (flushHead (headAt n s).answers.length n s).dv.out := by
        rw [ha]
        simp only [List.length_singleton, flushHead, ha, hready, if_true, List.foldl_cons, List.foldl_nil, mediaSend, hvia]
        exact (mediaBeats_sends (.refl _)).out x hx
      exact ⟨x, hrest.out x hflush, htype, hdst, hpayload⟩
    · have hkept := headAt_flushHead_ne (k := (headAt n s).answers.length) (s := s) hn
      have hcount := (flushHead_flushed (k := (headAt n s).answers.length) (n := n) (.refl s)).count
      have hsends := flushHead_sends (k := (headAt n s).answers.length) (n := n) (.refl s)
      exact ih ((List.mem_cons.1 hl).resolve_left (Ne.symm hn)) (hcount ▸ hh) (hkept ▸ ha) (hkept ▸ hv)
        ⟨hsends.ring.modes.trans hring.modes, hsends.ring.dv.trans hring.dv⟩

theorem headAt_via (n : Nat) (s : State) : (headAt n s).via = s.wires.getD n none :=
  (List.getD_map _ _ Head.via).symm

/-- A message accepted leaves its head wired to the block it came from (R420). -/
theorem acceptMessage_via (hkind : mKind m ≠ 1) (hin : s.media.inQ = []) (n : Nat) :
    (headAt n (settle (acceptMessage m s))).via = (headAt n s).via := by
  have hnone : noAttach s := fun x hx => absurd (hin ▸ hx) List.not_mem_nil
  suffices h : (settle (acceptMessage m s)).wires = s.wires by rw [headAt_via, headAt_via, h]
  unfold acceptMessage
  extract_lets +onlyGivenNames s₁
  split
  · have hs₁ : Onward s s₁ := .ite (lookUpBinds_onward (.refl s)) (.refl s)
    have hq : noAttach { s₁ with media := { s₁.media with inQ := s₁.media.inQ ++ [m] } } := fun x hx => by
      rcases List.mem_append.1 hx with hx | hx
      · exact hs₁.queue hnone x hx
      · rw [List.mem_singleton.1 hx]
        exact hkind
    have hgo : Onward { s₁ with media := { s₁.media with inQ := s₁.media.inQ ++ [m] } } _ :=
      settle_onward (serveQueue_onward (n := 16) (.refl _))
    exact (hgo.wires hq).trans (hs₁.wires hnone)
  · exact (settle_onward (.refl s)).wires hnone

/-- A close of a fragment that no accumulator of the head is open for is refused, over Dovetail (R399, R420). -/
theorem acceptClose_sent (hready : s.pins.mediaReady = true) (hin : s.media.inQ = []) (hlen : s.media.heads.length = 16)
    (ha : (headAt (mHead m) s).answers = []) (hvia : (headAt (mHead m) s).via = some d) (hkind : mKind m = 11)
    (hzeros : msgZeros m = true) (hopen : accOpenTo (mHead m) s = false) (hroute : route d.toNat s ≠ none) :
    ∃ x ∈ (settle (acceptMessage m s)).dv.out, x.type = 0x30 ∧ x.dst = some d ∧ x.payload = le 8 (nakMsg m 6).toNat := by
  have hrows : looksUpRows m = false := by simp [looksUpRows, hkind]
  have hpass : passWaits m s = false := by simp [passWaits, hkind]
  have hinReady : inReady s = true := by simp [inReady, hready, hin]
  have haccept : acceptMessage m s = serveQueue 15 (nak m 6 s) := by
    have hserve : serveMessage m s = nak m 6 s := by
      simp only [serveMessage, hzeros, hkind, serveFragClose, hopen, Bool.not_true, Bool.not_false, Bool.false_eq_true, if_false,
        if_true]
    have hq : acceptMessage m s = serveQueue 16 { s with media := { s.media with inQ := [m] } } := by
      simp only [acceptMessage, hinReady, hrows, hin, if_true, Bool.false_eq_true, if_false, List.nil_append]
    rw [hq, serveQueue_one hin hrows hpass, hserve]
  have hh : mHead m < s.media.heads.length := hlen ▸ mHead_lt m
  have hat := headAt_modHead s (mHead m) (fun x => { x with answers := x.answers ++ [{ msgs := [nakMsg m 6] }] }) hh
  obtain ⟨x, hx, htype, hdst, hpayload⟩ : ∃ x ∈ (nak m 6 s).dv.out, x.type = 0x30 ∧ x.dst = some d
      ∧ x.payload = le 8 (nakMsg m 6).toNat := by
    unfold nak answer flushAnswers
    exact flushHeads_sent (s₀ := s) (List.mem_range.2 (mHead_lt m)) (by simpa [modHead] using hh) (by rw [hat, ha]; rfl)
      (by rw [hat]; exact hvia) ⟨rfl, rfl⟩ hroute
  have hgo : Onward (nak m 6 s) (settle (acceptMessage m s)) := haccept ▸ settle_onward (serveQueue_onward (.refl _))
  exact ⟨x, hgo.sent x hx, htype, hdst, hpayload⟩

theorem acceptMessage_wired (hlen : s.media.heads.length = 16) (hkind : mKind m ≠ 1) (hin : s.media.inQ = []) :
    (headAt (mHead m) (settle (acceptMessage m (modHead (mHead m) (fun h => { h with via := some d }) s)))).via = some d := by
  have hh : mHead m < s.media.heads.length := hlen ▸ mHead_lt m
  have hvia := acceptMessage_via (s := modHead (mHead m) (fun h => { h with via := some d }) s) hkind hin (mHead m)
  rw [headAt_modHead s (mHead m) _ hh] at hvia
  exact hvia

theorem acceptClose_wired (hready : s.pins.mediaReady = true) (hin : s.media.inQ = []) (hlen : s.media.heads.length = 16)
    (ha : (headAt (mHead m) s).answers = []) (hkind : mKind m = 11) (hzeros : msgZeros m = true)
    (hopen : accOpenTo (mHead m) s = false) (hroute : route d.toNat s ≠ none) :
    ∃ x ∈ (settle (acceptMessage m (modHead (mHead m) (fun h => { h with via := some d }) s))).dv.out,
      x.type = 0x30 ∧ x.dst = some d ∧ x.payload = le 8 (nakMsg m 6).toNat := by
  have hh : mHead m < s.media.heads.length := hlen ▸ mHead_lt m
  have hat := headAt_modHead s (mHead m) (fun h => { h with via := some d }) hh
  exact acceptClose_sent (s := modHead (mHead m) (fun h => { h with via := some d }) s) hready hin
    (by simpa [modHead] using hlen) (by rw [hat]; exact ha) (by rw [hat]) hkind hzeros hopen hroute

end

/-! ### Sleep and wake of a follower (R77, R78) -/

theorem execWakeMsg_refused {b : Bool} (h : onLink s = false ∨ s.modes.follower = false) : exec (.wakeMsg b) s = .next s := by
  show Host.Outcome.next _ = _
  rcases h with h | h <;> simp only [h, Bool.false_and, Bool.and_false, Bool.false_eq_true, if_false]

theorem execWakeMsg_sleeps (hlink : onLink s = true) (hfollower : s.modes.follower = true) :
    exec (.wakeMsg true) s = .next (setConds (fun m => { m with standby := true }) s) := by
  show Host.Outcome.next _ = _
  simp only [hlink, hfollower, Bool.and_self, if_true]

theorem execWakeMsg_wakes (hlink : onLink s = true) (hfollower : s.modes.follower = true) :
    exec (.wakeMsg false) s = .next (wake s) := by
  show Host.Outcome.next _ = _
  simp only [hlink, hfollower, Bool.and_self, if_true, Bool.false_eq_true, if_false]

theorem setConds_standby (f : Modes → Modes) (s : State) : (setConds f s).modes.standby = (f s.modes).standby := by
  rcases applyMode_modes { s with modes := f s.modes } with ⟨e, -⟩ | e <;> rw [setConds, e]

theorem tellStandby_dv (b : Bool) (s : State) : ∃ dv, tellStandby b s = { s with dv := dv } := by
  unfold tellStandby
  split
  · exact dvSend_dv ..
  · exact ⟨_, rfl⟩

theorem wake_spec (h : s.modes.standby = true) :
    (wake s).modes.standby = false ∧ (wake s).rings = s.rings ∧ (wake s).modes.mode = (wake s).modes.primary := by
  unfold wake
  rw [if_pos h]
  obtain ⟨dv, e⟩ := tellStandby_dv false (setConds (fun m => { m with standby := false })
    { reloadTime s with chans := s.chans.map (fun c => { c with driftCheck := true }) })
  have hrings : Steady s (setConds (fun m => { m with standby := false })
    { reloadTime s with chans := s.chans.map (fun c => { c with driftCheck := true }) }) :=
    setConds_steady id (.frame (.frame (.refl s) rfl) rfl)
  rw [e]
  exact ⟨setConds_standby .., hrings.rings, applyMode_mode _⟩

theorem wake_of_awake (h : s.modes.standby = false) : wake s = s := if_neg (by simp [h])

end
end Sys2Proof.Machine

namespace Sys2Proof.Machine

/-- Settles O52, clause by clause: what a message is not for this block, its own operation otherwise, and what the operation
leaves as it is. -/
theorem cascadeWorkIsShared : Obligations.CascadeWorkIsShared := by
  unfold Obligations.CascadeWorkIsShared
  refine ⟨fun r s => execJob_of_refused, ?_, ?_, ?_, fun h o d l e s hlink => execJobEnd_offLink hlink, ?_, ?_, ?_,
    fun g r p pq s hlink => execParity_offLink hlink, ?_, ?_, ?_, ?_, ?_, ?_, fun rs s hlink => execRecord_offLink hlink, ?_,
    fun gr l s h => execDirectory_refused h, ?_, fun a s h => execAnchor_refused h, ?_, ?_, ?_,
    fun b s h => execWakeMsg_refused h, ?_⟩
  · intro r s hlink hquar hfenced haccum hgo hown hat
    refine ⟨fun hread => ?_, fun hread hfollower => ?_⟩
    · rw [execJob_of_taken hlink hquar hfenced haccum hgo hown hat (by rw [hread, Bool.or_true]), joinRemote_of_read hread]
    · obtain ⟨hremote, hjob, hrings, hmodes⟩ := joinRemote_of_program (w := r) hread hown
      exact ⟨_, _, execJob_of_taken hlink hquar hfenced haccum hgo hown hat (by rw [hfollower, Bool.true_or]), rfl, hremote, hjob,
        hrings, hmodes⟩
  · intro r x s hlink hquar hfollower hfenced haccum hgo hat
    obtain ⟨hrings, hmodes, hdata, hnothing, hfolded⟩ := goRemote_spec hat
    exact ⟨_, _, execJob_of_go hlink hquar hfenced hfollower haccum hgo, rfl, hrings, hmodes, hdata, hnothing,
      fun i hi _ => hfolded i hi⟩
  · intro r h p s hlink hquar hfollower hfenced
    refine ⟨fun haccum => ⟨_, _, execJob_of_accum hlink hquar hfenced hfollower haccum, rfl, ?_, rfl⟩, fun haccum hin => ?_⟩
    · simp only [accumJob, openAccum, beq_iff_eq]
    · obtain ⟨hacc, hfrags, hpass, hsent, hrest⟩ := accumJob_close hin
      exact ⟨_, _, execJob_of_accum hlink hquar hfenced hfollower haccum, rfl, hacc, hfrags, hpass, hsent, hrest⟩
  · intro h eid d l j e s hlink hh hjob hstate hown howner he hread hitems hnodup hnames hall hevery
    obtain ⟨x, hx, hcount, hlost, hrings, hmodes⟩ :=
      awayEnd_of_read hjob hstate hown howner he hread hitems hnodup hnames hall hevery
    exact ⟨_, _, x, execJobEnd_of_low hlink hh, rfl, hx, hcount, hlost, hrings, hmodes⟩
  · intro h eid m i o d j e s hlink hh hjob hstate hown howner hwait hread he hslot hd
    obtain ⟨x, hx, harrived, hrings⟩ := awayFetched_spec (m := m) he hslot
    have hend := awayEnd_of_fetched (o := o.toNat) hjob hstate hown howner hwait hread he hd
    exact ⟨_, _, x, execJobEnd_of_low hlink hh, rfl, hend ▸ hx, harrived, hend ▸ hrings⟩
  · intro h o s hlink hlow hhigh hacc
    have hexec := execJobEnd_of_accum (h := h) (o := o) (d := []) (l := []) (err := false) hlink hlow
    rw [accumAnswered_idle hlow hhigh hacc] at hexec
    exact ⟨_, _, hexec, rfl, bitAt_clear s.media.accWait h, rfl⟩
  · intro g r i p pq s hlink hslot hpq hlead hhome hfilling hwhole hnew
    obtain ⟨hfolded, hbusy, hsent, hrings⟩ := takePart_of_home (pq := pq) hslot hlead hhome hfilling hwhole hnew
    exact ⟨_, _, execParity_part hlink hpq, rfl, hfolded, hbusy, hsent, hrings⟩
  · intro g r i p s hlink hlead hslot
    have hexec := execParity_drop (g := g) (r := r) (p := p) hlink
    rw [dropPart_of_found hlead hslot] at hexec
    exact ⟨_, _, hexec, rfl, slotAt_modSlot (findSlot_lt hslot), rfl⟩
  · intro h job cw d x s
    exact ⟨execCodeword_offLink, execCodeword_headOff, execCodeword_head⟩
  · intro d job cw x k s hlink hcw hat hwork
    exact ⟨_, _, _, execCodeword_page hlink, rfl, remoteAt_modRemote (keepCw_work cw x) hat, keepCw_page hcw hwork, rfl⟩
  · intro job cw x j c s hlink hjob hcw hown hstate heid hok
    obtain ⟨⟨y, hy, hdecoded, hslot⟩, hrings, hmodes⟩ := landCw_spec hcw heid hok
    exact ⟨_, _, y, execCodeword_job hlink hjob hcw hown hstate heid, rfl, hy, hdecoded, hslot, hrings, hmodes⟩
  · intro rs s hlink
    refine ⟨fun hlead => ⟨_, execRecord_follower hlink hlead, rfl, settle_follower _⟩, fun hlead hfollower hrs => ?_⟩
    obtain ⟨hrest, hqueue, hrecNo⟩ := takeRecords_joined hfollower hrs
    exact ⟨_, _, execRecord_lead hlink hlead, rfl, hqueue, hrecNo, rfl, by rw [hrest], by rw [hrest]⟩
  · intro r e s hlink hlead hfollower hr he hnew hfree
    have hexec := execRecord_lead (rs := [r]) hlink hlead
    rw [List.foldl_cons, List.foldl_nil, takeRecord_of_loss hr he hnew] at hexec
    obtain ⟨hrings, hmodes, hcount, p, hp, hgroup, hmember, hmask, hcause⟩ := addLoss_spec
      (g := e.group) (m := e.member) (r := e.first) (mask := e.mask.toNat) (cause := e.cause.toNat) hfollower hfree rfl
    refine ⟨_, _, hexec, rfl, hcount, ⟨p, hp, hgroup, hmember, ?_, ?_⟩, hrings, hmodes⟩
    · exact hmask.elim (fun h => by simpa using h) BitVec.eq_of_toNat_eq
    · exact hcause.elim (fun h => by simpa using h) BitVec.eq_of_toNat_eq
  · intro b mib g x s hlink hfollower hx
    exact ⟨_, execDirectory_takes hlink hfollower hx, rfl, rfl, rfl, rfl, dirAt_modDir rfl, rfl, rfl, rfl⟩
  · intro a s hlink hholdup hpend hold
    exact execAnchor_old hlink hholdup hpend hold
  · intro a s hlink hholdup hpend hok hnew hlead
    exact execAnchor_later hlink hholdup hpend hok hnew hlead
  · intro d m s
    refine ⟨execMedia_refused, fun hlink hready hlead ha _ hidle h2 h3 h4 => execMedia_passes hlink hready hlead ha hidle h2 h3 h4,
      fun a k hlink hready hlead hlen hidle ha hfwd hvia h3 h4 h2 =>
        execMedia_answers hlink hready hlead hlen hidle ha hfwd hvia h3 h4 h2, fun hlink hready hlead hlen => ?_,
      fun hlink hready hin hlead hlen ha hkind hzeros hopen hroute => ?_⟩
    · exact ⟨_, execMedia_lead hlink hready hlead, rfl, fun hkind hin => acceptMessage_wired hlen hkind hin⟩
    · have hinReady : inReady s = true := by simp [inReady, hready, hin]
      exact ⟨_, execMedia_lead hlink hinReady hlead, acceptClose_wired hready hin hlen ha hkind hzeros hopen hroute⟩
  · intro s hlink hfollower
    refine ⟨⟨_, execWakeMsg_sleeps hlink hfollower, setConds_standby .., applyMode_mode _,
      (setConds_steady id (.refl s)).rings⟩, _, execWakeMsg_wakes hlink hfollower, ?_⟩
    cases hstandby : s.modes.standby with
    | true =>
      obtain ⟨hawake, hrings, hmode⟩ := wake_spec hstandby
      exact ⟨hawake, hrings, fun h => absurd h (by decide), fun _ => hmode⟩
    | false =>
      rw [wake_of_awake hstandby]
      exact ⟨hstandby, rfl, fun _ => rfl, fun h => absurd h (by decide)⟩

end Sys2Proof.Machine

namespace Sys2Proof.Machine

section
variable {s t u : State} {c idx sub : Nat} {v : List Byte} {o : Obj}

/-! ### A request of the dictionary port that is a whole value (R496, R497, R504) -/

/-- What a request of the port leaves of the dictionary: all but the port's own fields and the values kept. -/
def Dict.act (d : Dict) : Dict :=
  { d with saved := [], buf := [], length := 0, total := 0, abort := 0, aborted := false, done := false, busy := false
           port := { d.port with finished := none } }

/-- The request of the port, which has had the effect that leads to `u`, has ended in `t` with this code. -/
structure PortEnded (c : Nat) (u t : State) : Prop where
  done : portDone c t
  irq : t.irq = u.irq.cause 124
  rest : t = { u with dict := t.dict, irq := t.irq }
  act : t.dict.act = u.dict.act

/-- The request has changed nothing but the dictionary. -/
theorem PortEnded.only (h : PortEnded c u t) (hu : u = { s with dict := u.dict }) : portOnly c s t := by
  refine ⟨h.done, h.irq.trans (by rw [hu]), ?_⟩
  conv_lhs => rw [h.rest]
  rw [hu]

theorem PortEnded.level (h : PortEnded c u t) : t.dict.port.level = u.dict.port.level := by
  have e := congrArg (fun d : Dict => d.port.level) h.act
  exact e

theorem PortEnded.authLevel (h : PortEnded c u t) : t.dict.port.authLevel = u.dict.port.authLevel := by
  have e := congrArg (fun d : Dict => d.port.authLevel) h.act
  exact e

theorem PortEnded.key (h : PortEnded c u t) : t.dict.port.key = u.dict.port.key := by
  have e := congrArg (fun d : Dict => d.port.key) h.act
  exact e

theorem PortEnded.challenge (h : PortEnded c u t) : t.dict.port.challenge = u.dict.port.challenge := by
  have e := congrArg (fun d : Dict => d.port.challenge) h.act
  exact e

theorem PortEnded.imgState (h : PortEnded c u t) : t.dict.imgState = u.dict.imgState := by
  have e := congrArg Dict.imgState h.act
  exact e

theorem PortEnded.imgReason (h : PortEnded c u t) : t.dict.imgReason = u.dict.imgReason := by
  have e := congrArg Dict.imgReason h.act
  exact e

theorem PortEnded.imgBytes (h : PortEnded c u t) : t.dict.imgBytes = u.dict.imgBytes := by
  have e := congrArg Dict.imgBytes h.act
  exact e

theorem PortEnded.defaultsNext (h : PortEnded c u t) : t.dict.defaultsNext = u.dict.defaultsNext := by
  have e := congrArg Dict.defaultsNext h.act
  exact e

theorem PortEnded.rings (h : PortEnded c u t) : t.rings = u.rings := by rw [h.rest]

theorem PortEnded.modes (h : PortEnded c u t) : t.modes = u.modes := by rw [h.rest]

theorem PortEnded.cab (h : PortEnded c u t) : t.cab = u.cab := by rw [h.rest]

theorem PortEnded.stats (h : PortEnded c u t) : t.stats = u.stats := by rw [h.rest]

/-- The end of a request without an answer of its own (R504). -/
theorem portEnd_ended (c : Nat) (s : State) : PortEnded c s (portEnd { code := c } false s)
    ∧ (portEnd { code := c } false s).dict.saved = s.dict.saved := by
  refine ⟨⟨⟨rfl, rfl, rfl, rfl⟩, rfl, rfl, ?_⟩, rfl⟩
  simp [Dict.act, portEnd, raise]

/-- The port's session as a write of a whole value finds it. -/
def portWriting (s : State) : State :=
  { s with dict := { s.dict with
    useOrder := s.dict.useOrder + 1
    port := { s.dict.port with snap := none, timedWrite := none, finished := none, open_ := none } } }

theorem useSession_port (s : State) :
    useSession 0 s = { s with dict := { s.dict with useOrder := s.dict.useOrder + 1 } } := rfl

theorem objCheck_port (op : DictOp) (idx sub : Nat) (s : State) :
    objCheck 0 op idx sub (useSession 0 s) = objCheck 0 op idx sub s := rfl

theorem portOn_of_run (h : s.pins.inReset = false) : portOn s = true := by simp [portOn, h]

/-- A write that the checks 2 to 6 refuse. -/
theorem serveWrite_refused {off total cap : Nat} {last : Bool} (h : objCheck 0 .write idx sub s = .inl c) :
    serveWrite 0 idx sub off total cap last v (useSession 0 s) = (c, 0, useSession 0 s) := by
  simp only [serveWrite, objCheck_port, h]

theorem objectWrite_port (hrun : s.pins.inReset = false) : objectWrite 0 idx sub v s
    = portEnd { code := (serveWrite 0 idx sub 0 v.length v.length true v (useSession 0 s)).1 } false
        (serveWrite 0 idx sub 0 v.length v.length true v (useSession 0 s)).2.2 := by
  simp only [objectWrite, portOn_of_run hrun, if_true, beq_self_eq_true]

section
variable (hrun : s.pins.inReset = false) (ho : objCheck 0 .write idx sub s = .inr o)

include hrun ho

/-- A value of the wrong length. -/
theorem objectWrite_length (hflags : o.flags = 0) (hlen : v.length ≠ o.len) :
    PortEnded abLength (useSession 0 s) (objectWrite 0 idx sub v s) := by
  have hserve : serveWrite 0 idx sub 0 v.length v.length true v (useSession 0 s) = (abLength, 0, useSession 0 s) := by
    simp [serveWrite, objCheck_port, ho, Obj.total, hflags, hlen]
  rw [objectWrite_port hrun, hserve]
  exact (portEnd_ended abLength (useSession 0 s)).1

variable (hflags : o.flags = 0) (hlen : v.length = o.len)

include hflags hlen

omit hrun in
/-- A whole value is committed or refused. -/
theorem serveWrite_port_whole (himage : ¬ (idx = 0x1201 ∧ sub = 3)) :
    serveWrite 0 idx sub 0 v.length v.length true v (useSession 0 s)
      = ((commit 0 o idx sub v (portWriting s)).1, v.length,
          if (commit 0 o idx sub v (portWriting s)).1 == 0 then
            modSession 0 (fun x => { x with finished := some ((idx, sub), v.length) }) (commit 0 o idx sub v (portWriting s)).2
          else (commit 0 o idx sub v (portWriting s)).2) := by
  have himage' : (idx == 0x1201 && sub == 3) = false := by simpa using himage
  have hbegun : modSession 0 (fun x => { x with snap := none, timedWrite := none, finished := none, open_ := none })
      (useSession 0 s) = portWriting s := rfl
  simp [serveWrite, objCheck_port, ho, Obj.total, hflags, hlen, himage', takeSegment, hbegun]

variable (himage : ¬ (idx = 0x1201 ∧ sub = 3))

include himage

/-- A value that the checks refuse. -/
theorem objectWrite_value (hvalue : valueCheck o idx sub v (portWriting s) = c) (hc : c ≠ 0) :
    PortEnded c (portWriting s) (objectWrite 0 idx sub v s) := by
  have hcommit : commit 0 o idx sub v (portWriting s) = (c, portWriting s) := by simp [commit, hvalue, hc]
  rw [objectWrite_port hrun, serveWrite_port_whole ho hflags hlen himage, hcommit]
  dsimp only
  rw [if_neg (by simpa using hc)]
  exact (portEnd_ended c (portWriting s)).1

/-- A value that the object takes, or refuses itself. -/
theorem objectWrite_acts (hacc : o.acc ≠ .rws) (hvalue : valueCheck o idx sub v (portWriting s) = 0)
    (hlevel : valueLevel idx sub v ≤ s.dict.port.level.toNat) (hact : actOn 0 idx sub v (portWriting s) = (c, u)) :
    PortEnded c u (objectWrite 0 idx sub v s) ∧ (objectWrite 0 idx sub v s).dict.saved
      = if c = 0 ∧ o.acc = .rw then putValue idx sub v u.dict.saved else u.dict.saved := by
  have hlevel' : ¬ (sessionAt 0 (portWriting s)).level.toNat < valueLevel idx sub v := Nat.not_lt.2 hlevel
  have happly : applyObject 0 o idx sub v (portWriting s) = (c, u) := by simp [applyObject, hflags, hact]
  have hcommit : commit 0 o idx sub v (portWriting s) = (c, if c = 0 ∧ o.acc = .rw then
      { u with dict := { u.dict with saved := putValue idx sub v u.dict.saved } } else u) := by
    have hrws : (o.acc == Acc.rws) = false := beq_eq_false_iff_ne.2 hacc
    simp only [commit, hvalue, hrws, bne_self_eq_false, Bool.false_and, Bool.false_eq_true, if_false, hlevel', happly]
    by_cases hc : c = 0
    · subst hc
      by_cases hrw : o.acc = .rw <;> simp [hrw]
    · simp [hc]
  rw [objectWrite_port hrun, serveWrite_port_whole ho hflags hlen himage, hcommit]
  dsimp only
  generalize hw : (if c = 0 ∧ o.acc = .rw then { u with dict := { u.dict with saved := putValue idx sub v u.dict.saved } }
    else u) = w
  have hsaved : w.dict.saved = if c = 0 ∧ o.acc = .rw then putValue idx sub v u.dict.saved else u.dict.saved := by
    rw [← hw]
    split <;> rfl
  have hrest : w = { u with dict := w.dict } := by
    rw [← hw]
    split <;> rfl
  have hact : w.dict.act = u.dict.act := by
    rw [← hw]
    split <;> rfl
  generalize hx : (if (c == 0) = true then modSession 0 (fun x => { x with finished := some ((idx, sub), v.length) }) w else w) = x
  have hxrest : x = { u with dict := x.dict } := by
    rw [← hx]
    split
    · rw [hrest]
      rfl
    · exact hrest
  have hxact : x.dict.act = u.dict.act := by
    rw [← hx]
    split
    · exact hact
    · exact hact
  have hxsaved : x.dict.saved = w.dict.saved := by
    rw [← hx]
    split <;> rfl
  obtain ⟨⟨hdone, hirq, hend, hkept⟩, hsame⟩ := portEnd_ended c x
  refine ⟨⟨hdone, hirq.trans (by rw [hxrest]), ?_, hkept.trans hxact⟩, hsame.trans (hxsaved.trans hsaved)⟩
  conv_lhs => rw [hend]
  rw [hxrest]

end

end
end Sys2Proof.Machine

namespace Sys2Proof.Machine

section
variable {s t u : State} {c idx sub : Nat} {v : List Byte} {o : Obj}

/-! ### Which object a command writes (R489) -/

/-- The commands of objects write a whole value, but for the challenge that is read and the segments of an image. -/
theorem objectCommand_cases {i : Instr} (h : objectCommand i = some (c, idx, sub)) :
    (¬ (sub = 2 ∧ idx = 0x1210) ∧ ∃ v, ∀ s, exec i s = .next (objectWrite c idx sub v s))
      ∨ (∃ r, i = .authChallenge c r ∧ idx = 0x1210 ∧ sub = 2)
      ∨ ∃ off last d, i = .imageData c off last d ∧ idx = 0x1201 ∧ sub = 3 := by
  unfold objectCommand at h
  split at h <;> cases h
  case h_2 => exact .inr (.inl ⟨_, rfl, rfl, rfl⟩)
  case h_8 => exact .inr (.inr ⟨_, _, _, rfl, rfl, rfl⟩)
  all_goals exact .inl ⟨by decide, _, fun _ => rfl⟩

/-- Out of work, the port takes no request. -/
theorem exec_objectPort_off {i : Instr} (h : objectCommand i = some (0, idx, sub)) (hreset : s.pins.inReset = true) :
    exec i s = .next s := by
  have hoff : portOn s = false := by simp [portOn, hreset]
  obtain ⟨-, v, he⟩ | ⟨r, rfl, -⟩ | ⟨off, last, d, rfl, -⟩ := objectCommand_cases h
  · rw [he]
    simp [objectWrite, hoff]
  · show Host.Outcome.next _ = _
    simp [hoff]
  · show Host.Outcome.next _ = _
    simp [hoff]

/-- No request comes from a node off the bus, nor from a client that cannot be. -/
theorem exec_objectCan_off {i : Instr} (h : objectCommand i = some (c, idx, sub)) (hc : c ≠ 0)
    (hoff : canOn s = false ∨ 127 < c) : exec i s = .next s := by
  have hno : (canOn s && decide (c ≤ 127)) = false := by
    rcases hoff with hoff | hoff
    · rw [hoff, Bool.false_and]
    · rw [decide_eq_false (Nat.not_le.2 hoff), Bool.and_false]
  obtain ⟨-, v, he⟩ | ⟨r, rfl, -⟩ | ⟨off, last, d, rfl, -⟩ := objectCommand_cases h
  · rw [he]
    simp [objectWrite, hc, hno]
  · show Host.Outcome.next _ = _
    simp [hc, hno]
  · show Host.Outcome.next _ = _
    simp [hc, hno]

/-- A client whose session was taken over is told so, and nothing else happens (R508). -/
theorem exec_objectCan_lost {i : Instr} (h : objectCommand i = some (c, idx, sub)) (hon : canOn s = true) (h1 : 1 ≤ c)
    (h127 : c ≤ 127) (hlost : c ∈ s.dict.lostClients) :
    ∃ t, exec i s = .next t ∧ c ∉ t.dict.lostClients ∧ t = { s with dict := { s.dict with
      can := t.dict.can, useOrder := t.dict.useOrder, lostClients := t.dict.lostClients } } := by
  have hc : c ≠ 0 := Nat.ne_of_gt h1
  obtain ⟨u, hanswer, hu, hgone⟩ := answerLost_lost hc hlost
  have hkept : u = { s with dict := { s.dict with
      can := u.dict.can, useOrder := u.dict.useOrder, lostClients := u.dict.lostClients } } := by
    obtain ⟨can, lost, order, rfl⟩ := hu
    rfl
  refine ⟨u, ?_, hgone, hkept⟩
  obtain ⟨-, v, he⟩ | ⟨r, rfl, -⟩ | ⟨off, last, d, rfl, -⟩ := objectCommand_cases h
  · rw [he]
    simp [objectWrite, hc, hon, h127, hanswer]
  · show Host.Outcome.next _ = _
    simp [hc, hon, h127, hanswer]
  · show Host.Outcome.next _ = _
    simp [hc, hon, h127, hanswer]

/-- A request that a check refuses has only its abort code (R497, R504). -/
theorem exec_objectPort_refused {i : Instr} (h : objectCommand i = some (0, idx, sub)) (hrun : s.pins.inReset = false)
    (hcheck : objCheck 0 (if sub = 2 ∧ idx = 0x1210 then .read else .write) idx sub s = .inl c) :
    ∃ t, exec i s = .next t ∧ portOnly c s t ∧ t.dict.saved = s.dict.saved := by
  obtain ⟨hended, hsaved⟩ := portEnd_ended c (useSession 0 s)
  refine ⟨portEnd { code := c } false (useSession 0 s), ?_, hended.only rfl, hsaved⟩
  have hon := portOn_of_run hrun
  obtain ⟨hne, v, he⟩ | ⟨r, rfl, rfl, rfl⟩ | ⟨off, last, d, rfl, rfl, rfl⟩ := objectCommand_cases h
  · rw [if_neg hne] at hcheck
    rw [he, objectWrite_port hrun, serveWrite_refused hcheck]
  · rw [if_pos ⟨rfl, rfl⟩] at hcheck
    show Host.Outcome.next _ = _
    simp [hon, hcheck]
  · rw [if_neg (by decide)] at hcheck
    show Host.Outcome.next _ = _
    simp [hon, serveWrite_refused hcheck]

/-! ### The objects that act (R489, R519) -/

theorem objCheck_eq {op : DictOp} {o' : Obj} (ho : objCheck 0 op idx sub s = .inr o) (hf : findObj idx sub = some o') : o = o' :=
  Option.some.inj ((objCheck_found ho).symm.trans hf)

/-- A number that an object takes from `lo` to `hi`. -/
def numObj (idx sub : Nat) (ty : Ty) (len : Nat) (acc : Acc) (wr : Nat) (lo hi : Int) : Obj :=
  { idx := idx, last := idx, sub := sub, subLast := sub, ty := ty, len := len, acc := acc, wr := wr, dflt := 0, lo := lo
    hi := hi, flags := 0 }

/-- A string of bytes. -/
def octetsObj (idx sub len : Nat) (acc : Acc) (wr : Nat) : Obj := numObj idx sub .octets len acc wr 0 0

/-- A switch. -/
def boolObj (idx sub : Nat) (acc : Acc) (wr : Nat) : Obj := numObj idx sub .bool 1 acc wr 0 1

theorem leVal_singleton (b : Byte) : leVal [b] = b.toNat := by simp [leVal]

theorem valueCheck_bool {idx' sub' wr : Nat} {acc : Acc} {b : Byte} (h : b = 0 ∨ b = 1) :
    valueCheck (boolObj idx sub acc wr) idx' sub' [b] s = 0 := by
  rcases h with rfl | rfl <;> rfl

theorem valueCheck_octets {idx' sub' len wr : Nat} {acc : Acc} (h : badValue idx sub v s = false) :
    valueCheck (octetsObj idx' sub' len acc wr) idx sub v s = 0 := by
  simp [valueCheck, octetsObj, numObj, h]

theorem authRequest_found : findObj 0x1210 1 = some (numObj 0x1210 1 .u8 1 .wo 0 1 2) := rfl

section
variable (hrun : s.pins.inReset = false)

include hrun

/-- A switch written through the port. -/
theorem objectWrite_bool {acc : Acc} {wr : Nat} {b : Byte} (hb : b = 0 ∨ b = 1) (ho : objCheck 0 .write idx sub s = .inr o)
    (hf : findObj idx sub = some (boolObj idx sub acc wr)) (hacc : acc ≠ .rws) (himage : ¬ (idx = 0x1201 ∧ sub = 3))
    (hlevel : valueLevel idx sub [b] = 0) (hact : actOn 0 idx sub [b] (portWriting s) = (c, u)) :
    PortEnded c u (objectWrite 0 idx sub [b] s) := by
  have e := objCheck_eq ho hf
  subst e
  exact (objectWrite_acts hrun ho rfl rfl himage hacc (valueCheck_bool hb) (hlevel ▸ Nat.zero_le _) hact).1

/-- A string of bytes written through the port. -/
theorem objectWrite_octets {len wr : Nat} {acc : Acc} (ho : objCheck 0 .write idx sub s = .inr o)
    (hf : findObj idx sub = some (octetsObj idx sub len acc wr)) (hacc : acc ≠ .rws) (himage : ¬ (idx = 0x1201 ∧ sub = 3))
    (hbad : badValue idx sub v (portWriting s) = false) (hlevel : valueLevel idx sub v = 0) (hlen : v.length = len)
    (hact : actOn 0 idx sub v (portWriting s) = (c, u)) : PortEnded c u (objectWrite 0 idx sub v s) := by
  have e := objCheck_eq ho hf
  subst e
  exact (objectWrite_acts hrun ho rfl hlen himage hacc (valueCheck_octets hbad) (hlevel ▸ Nat.zero_le _) hact).1

/-! ### Authentication (R491 to R494) -/

theorem authRequest_ends {l : Byte} (ho : objCheck 0 .write 0x1210 1 s = .inr o) (hl : l = 1 ∨ l = 2) :
    PortEnded 0 (authAsk 0 l.toNat (portWriting s)).2 (objectWrite 0 0x1210 1 [l] s) := by
  have e := objCheck_eq ho authRequest_found
  subst e
  have hvalue : valueCheck (numObj 0x1210 1 .u8 1 .wo 0 1 2) 0x1210 1 [l] (portWriting s) = 0 := by
    rcases hl with rfl | rfl <;> rfl
  have hzero : (authAsk 0 l.toNat (portWriting s)).1 = 0 := by
    unfold authAsk
    split
    · next h => simp at h
    · split <;> rfl
  refine (objectWrite_acts hrun ho rfl rfl (by decide) (by decide) hvalue (Nat.zero_le _) ?_).1
  show authAsk 0 (leVal [l]) (portWriting s) = _
  rw [leVal_singleton]
  exact Prod.ext hzero rfl

theorem authRequest_refused {l : Byte} (ho : objCheck 0 .write 0x1210 1 s = .inr o)
    (hc : l = 0 ∧ c = abBelow ∨ 2 < l.toNat ∧ c = abAbove) : PortEnded c (portWriting s) (objectWrite 0 0x1210 1 [l] s) := by
  have e := objCheck_eq ho authRequest_found
  subst e
  refine objectWrite_value hrun ho rfl rfl (by decide) ?_ ?_
  · rcases hc with ⟨rfl, rfl⟩ | ⟨hl, rfl⟩
    · rfl
    · have hlo : ¬ ((l.toNat : Int) < 1) := by omega
      have hhi : (2 : Int) < (l.toNat : Int) := by omega
      simp [valueCheck, numObj, Obj.value, leVal, hlo, hhi]
  · rcases hc with ⟨-, rfl⟩ | ⟨-, rfl⟩ <;> decide

omit hrun in
/-- The level asked for: INTEGRATOR at once while no customer key exists, else once signed for (R492, R493). -/
theorem authAsk_spec {l : Byte} (hl : l = 1 ∨ l = 2) : (authAsk 0 l.toNat (portWriting s)).2 = { portWriting s with
      dict := (authAsk 0 l.toNat (portWriting s)).2.dict }
    ∧ if l = 1 ∧ slotInForce s = none then
        (authAsk 0 l.toNat (portWriting s)).2.dict.port.level = (if s.dict.port.level = 0 then 1 else s.dict.port.level)
          ∧ (authAsk 0 l.toNat (portWriting s)).2.dict.port.authLevel = s.dict.port.authLevel
      else (authAsk 0 l.toNat (portWriting s)).2.dict.port.level = s.dict.port.level
        ∧ (authAsk 0 l.toNat (portWriting s)).2.dict.port.authLevel = some (BitVec.ofNat 2 l.toNat) := by
  have hslot : slotInForce (portWriting s) = slotInForce s := rfl
  unfold authAsk
  rw [hslot]
  rcases hl with rfl | rfl
  · by_cases h : slotInForce s = none
    · rw [if_neg (by simp), if_pos (by simp [h]), if_pos ⟨rfl, h⟩]
      refine ⟨rfl, ?_, ?_⟩
      · simp [modSession, portWriting]
      · simp [modSession, portWriting]
    · rw [if_neg (by simp), if_neg (by simpa using h), if_neg (fun k => h k.2)]
      exact ⟨rfl, rfl, rfl⟩
  · rw [if_neg (by simp), if_neg (by simp), if_neg (fun k => absurd k.1 (by decide))]
    exact ⟨rfl, rfl, rfl⟩

theorem exec_authRequest {l : Byte} (ho : objCheck 0 .write 0x1210 1 s = .inr o) :
    ((l = 1 ∨ l = 2) → ∃ t, exec (.authRequest 0 l) s = .next t ∧ portOnly 0 s t
      ∧ (if l = 1 ∧ slotInForce s = none then
          t.dict.port.level = (if s.dict.port.level = 0 then 1 else s.dict.port.level)
            ∧ t.dict.port.authLevel = s.dict.port.authLevel
        else t.dict.port.level = s.dict.port.level ∧ t.dict.port.authLevel = some (BitVec.ofNat 2 l.toNat)))
    ∧ (l = 0 → ∃ t, exec (.authRequest 0 l) s = .next t ∧ portOnly abBelow s t ∧ t.dict.port.level = s.dict.port.level)
    ∧ (2 < l.toNat → ∃ t, exec (.authRequest 0 l) s = .next t ∧ portOnly abAbove s t
      ∧ t.dict.port.level = s.dict.port.level) := by
  refine ⟨fun hl => ?_, fun hl => ?_, fun hl => ?_⟩
  · have hended := authRequest_ends hrun ho hl
    obtain ⟨hdict, hlevels⟩ := authAsk_spec hl
    refine ⟨_, rfl, hended.only (by rw [hdict]; rfl), ?_⟩
    rw [hended.level, hended.authLevel]
    exact hlevels
  · have hended := authRequest_refused hrun ho (.inl ⟨hl, rfl⟩)
    exact ⟨_, rfl, hended.only rfl, hended.level⟩
  · have hended := authRequest_refused hrun ho (.inr ⟨hl, rfl⟩)
    exact ⟨_, rfl, hended.only rfl, hended.level⟩

omit hrun in
/-- The end of a request that has changed nothing but the dictionary (R504). -/
theorem portEnd_only (r : Reply) (withTotal : Bool) (hu : u = { s with dict := u.dict }) :
    portOnly r.code s (portEnd r withTotal u) := by
  refine ⟨⟨rfl, rfl, rfl, rfl⟩, ?_, ?_⟩ <;> rw [hu] <;> rfl

omit hrun in
/-- The port answers with what a request has read (R504). -/
theorem portEnd_data (data : List Byte) (total : Nat) (hdata : data ≠ []) (s : State) :
    (portEnd { total := total, data := data } true s).dict.total = BitVec.ofNat 32 total
      ∧ (portEnd { total := total, data := data } true s).dict.buf.take data.length = data := by
  have hsome : data.isEmpty = false := List.isEmpty_eq_false_iff.2 hdata
  refine ⟨rfl, ?_⟩
  simp only [portEnd, hsome, splice, List.take_zero, List.nil_append]
  exact List.take_left' rfl

/-- The session once it has drawn a challenge. -/
def drawn (data : List Byte) (s : State) : State :=
  { s with dict := { s.dict with
    useOrder := s.dict.useOrder + 1
    port := { s.dict.port with
      challenge := some data, drawnAt := s.now, snap := some ((0x1210, 2), data), timedRead := none } } }

/-- The port's session draws a challenge (R492). -/
theorem exec_authChallenge (r : List Byte) (ho : objCheck 0 .read 0x1210 2 s = .inr o) :
    ∃ t, exec (.authChallenge 0 r) s = .next t ∧ portOnly 0 s t ∧ t.dict.port.challenge = some (padTo 48 r)
      ∧ t.dict.port.drawnAt = s.now ∧ t.dict.total = 48 ∧ t.dict.buf.take 48 = padTo 48 r := by
  have hlen := length_padTo 48 r
  have hexec : exec (.authChallenge 0 r) s = .next (portEnd { total := 48, data := padTo 48 r } true (drawn (padTo 48 r) s)) := by
    have hdrawn : modSession 0 (fun x => { x with snap := some ((0x1210, 2), padTo 48 r), timedRead := none })
        (drawChallenge 0 (padTo 48 r) (useSession 0 s)) = drawn (padTo 48 r) s := rfl
    show Host.Outcome.next _ = _
    simp [portOn_of_run hrun, ho, hdrawn]
  have hdata : padTo 48 r ≠ [] := List.ne_nil_of_length_pos (by rw [hlen]; decide)
  obtain ⟨htotal, hbuf⟩ := portEnd_data (padTo 48 r) 48 hdata (drawn (padTo 48 r) s)
  rw [hlen] at hbuf
  exact ⟨_, hexec, portEnd_only _ _ rfl, rfl, rfl, htotal, hbuf⟩

theorem exec_authKey {k : List Byte} (ho : objCheck 0 .write 0x1210 3 s = .inr o) :
    (k.length = 97 → ∃ t, exec (.authKey 0 k) s = .next t ∧ portOnly 0 s t ∧ t.dict.port.key = some k
      ∧ t.dict.port.level = s.dict.port.level)
    ∧ (k.length ≠ 97 → ∃ t, exec (.authKey 0 k) s = .next t ∧ portOnly abLength s t
      ∧ t.dict.port.key = s.dict.port.key) := by
  have hf : findObj 0x1210 3 = some (octetsObj 0x1210 3 97 .wo 0) := rfl
  refine ⟨fun hlen => ?_, fun hlen => ?_⟩
  · have hended := objectWrite_octets (v := k) hrun ho hf (by decide) (by decide) rfl rfl hlen rfl
    exact ⟨_, rfl, hended.only rfl, hended.key, hended.level⟩
  · have e := objCheck_eq ho hf
    subst e
    have hended := objectWrite_length hrun ho rfl hlen
    exact ⟨_, rfl, hended.only rfl, hended.key⟩

theorem exec_authSignature {g : List Byte} (ho : objCheck 0 .write 0x1210 4 s = .inr o) (hlen : g.length = 96) :
    (challengeNow s.dict.port s = none → ∃ t, exec (.authSignature 0 g) s = .next t ∧ portOnly abNoChallenge s t
      ∧ t.dict.port.level = s.dict.port.level)
    ∧ (∀ c, challengeNow s.dict.port s = some c → ∃ t, exec (.authSignature 0 g) s = .next t ∧ t.dict.port.challenge = none
      ∧ (if signatureOk s.dict.port c g s = true then
          portOnly 0 s t ∧ t.dict.port.level = s.dict.port.authLevel.getD 0
        else portOnly abAuthFailed s t ∧ t.dict.port.level = s.dict.port.level)) := by
  have hf : findObj 0x1210 4 = some (octetsObj 0x1210 4 96 .wo 0) := rfl
  have hended {c : Nat} {u : State} (hact : authSign 0 g (portWriting s) = (c, u)) :
      PortEnded c u (objectWrite 0 0x1210 4 g s) :=
    objectWrite_octets hrun ho hf (by decide) (by decide) rfl rfl hlen hact
  have hnow : challengeNow (sessionAt 0 (portWriting s)) (portWriting s) = challengeNow s.dict.port s := rfl
  refine ⟨fun hnone => ?_, fun c hsome => ?_⟩
  · have hsign : authSign 0 g (portWriting s)
        = (abNoChallenge, modSession 0 (fun x => { x with challenge := none }) (portWriting s)) := by
      simp only [authSign, hnow, hnone]
    exact ⟨_, rfl, (hended hsign).only rfl, (hended hsign).level⟩
  · have hok : signatureOk (sessionAt 0 (portWriting s)) c g (portWriting s) = signatureOk s.dict.port c g s := rfl
    split
    · next hgood =>
      have hsign : authSign 0 g (portWriting s) = (0, modSession 0 (fun x => { x with level := x.authLevel.getD 0 })
          (modSession 0 (fun x => { x with challenge := none }) (portWriting s))) := by
        simp only [authSign, hnow, hsome, hok, hgood, if_true]
      exact ⟨_, rfl, (hended hsign).challenge, (hended hsign).only rfl, (hended hsign).level⟩
    · next hbad =>
      have hsign : authSign 0 g (portWriting s)
          = (abAuthFailed, modSession 0 (fun x => { x with challenge := none }) (portWriting s)) := by
        simp only [authSign, hnow, hsome, hok, hbad, Bool.false_eq_true, if_false]
      exact ⟨_, rfl, (hended hsign).challenge, (hended hsign).only rfl, (hended hsign).level⟩

theorem exec_authDrop (ho : objCheck 0 .write 0x1210 6 s = .inr o) :
    (∃ t, exec (.authDrop 0 1) s = .next t ∧ portOnly 0 s t ∧ t.dict.port.level = 0)
    ∧ (∃ t, exec (.authDrop 0 0) s = .next t ∧ portOnly 0 s t ∧ t.dict.port.level = s.dict.port.level) := by
  have hf : findObj 0x1210 6 = some (boolObj 0x1210 6 .wo 0) := rfl
  have hdrops : actOn 0 0x1210 6 [1] (portWriting s)
      = (0, modSession 0 (fun x => { x with level := 0 }) (portWriting s)) := rfl
  have hstays : actOn 0 0x1210 6 [0] (portWriting s) = (0, portWriting s) := rfl
  have hdrop := objectWrite_bool (b := 1) hrun (.inr rfl) ho hf (by decide) (by decide) rfl hdrops
  have hstay := objectWrite_bool (b := 0) hrun (.inl rfl) ho hf (by decide) (by decide) rfl hstays
  exact ⟨⟨_, rfl, hdrop.only rfl, hdrop.level⟩, _, rfl, hstay.only rfl, hstay.level⟩

end

end
end Sys2Proof.Machine

namespace Sys2Proof.Machine

section
variable {s t u : State} {c idx sub : Nat} {v : List Byte} {o : Obj}

/-! ### Numbers written through the port -/

/-- The types of numbers without a sign. -/
def unsignedTy (ty : Ty) : Prop := ty = .u8 ∨ ty = .u16 ∨ ty = .u32

theorem valueCheck_num {idx' sub' len wr : Nat} {acc : Acc} {ty : Ty} {lo hi : Int} (hty : unsignedTy ty)
    (hidx : idx ≠ 0x2801 ∧ idx ≠ 0x3401) (hlo : lo ≤ (leVal v : Int)) (hhi : (leVal v : Int) ≤ hi)
    (hbad : badValue idx sub v s = false) : valueCheck (numObj idx' sub' ty len acc wr lo hi) idx sub v s = 0 := by
  have hvalue : (numObj idx' sub' ty len acc wr lo hi).value v = (leVal v : Int) := by
    rcases hty with rfl | rfl | rfl <;> rfl
  have hbool : (ty == Ty.bool) = false := by rcases hty with rfl | rfl | rfl <;> rfl
  unfold valueCheck
  rw [hvalue]
  simp only [numObj, hbool, hbad, not_lt.2 hlo, not_lt.2 hhi, Bool.false_eq_true, if_false, Bool.and_false, decide_false]
  simp [hidx.1, hidx.2]

section
variable (hrun : s.pins.inReset = false)

include hrun

/-- A number written through the port. -/
theorem objectWrite_num {len wr : Nat} {acc : Acc} {ty : Ty} {lo hi : Int} (ho : objCheck 0 .write idx sub s = .inr o)
    (hf : findObj idx sub = some (numObj idx sub ty len acc wr lo hi)) (hty : unsignedTy ty)
    (hidx : idx ≠ 0x2801 ∧ idx ≠ 0x3401) (hacc : acc ≠ .rws) (himage : ¬ (idx = 0x1201 ∧ sub = 3)) (hlen : v.length = len)
    (hlo : lo ≤ (leVal v : Int)) (hhi : (leVal v : Int) ≤ hi) (hbad : badValue idx sub v (portWriting s) = false)
    (hlevel : valueLevel idx sub v ≤ s.dict.port.level.toNat) (hact : actOn 0 idx sub v (portWriting s) = (c, u)) :
    PortEnded c u (objectWrite 0 idx sub v s) ∧ (objectWrite 0 idx sub v s).dict.saved
      = if c = 0 ∧ acc = .rw then putValue idx sub v u.dict.saved else u.dict.saved := by
  have e := objCheck_eq ho hf
  subst e
  exact objectWrite_acts hrun ho rfl hlen himage hacc (valueCheck_num hty hidx hlo hhi hbad) hlevel hact

/-! ### Images (R516, R517) -/

omit hrun in
/-- The slot that runs. -/
theorem runsFrom_iff (v : Byte) (s : State) :
    (firmwareRuns s && ((v.toNat == 1 && !s.modes.fwSlot) || (v.toNat == 2 && s.modes.fwSlot))) = true
      ↔ firmwareRuns s = true ∧ (v = 1 ∧ s.modes.fwSlot = false ∨ v = 2 ∧ s.modes.fwSlot = true) := by
  have h1 : v.toNat = 1 ↔ v = 1 := ⟨fun h => BitVec.eq_of_toNat_eq h, fun h => by rw [h]; rfl⟩
  have h2 : v.toNat = 2 ↔ v = 2 := ⟨fun h => BitVec.eq_of_toNat_eq h, fun h => by rw [h]; rfl⟩
  simp only [Bool.and_eq_true, Bool.or_eq_true, beq_iff_eq, Bool.not_eq_true', h1, h2]

theorem exec_imageTarget {v : Byte} (ho : objCheck 0 .write 0x1201 1 s = .inr o) (hlo : 1 ≤ v.toNat) (hhi : v.toNat ≤ 4)
    (hvendor : v = 3 → s.dict.port.level.toNat = 2 ∨ s.dict.port.level.toNat = 3) :
    ∃ t, exec (.imageTarget 0 v) s = .next t
      ∧ (if firmwareRuns s = true ∧ (v = 1 ∧ s.modes.fwSlot = false ∨ v = 2 ∧ s.modes.fwSlot = true) then
          portOnly abRunningSlot s t ∧ t.dict.imgState = s.dict.imgState
        else portOnly 0 s t ∧ t.dict.imgState = 0 ∧ stored 0x1201 1 t = [v]) := by
  have hf : findObj 0x1201 1 = some (numObj 0x1201 1 .u8 1 .rw 1 1 4) := rfl
  have hval := leVal_singleton v
  have hlevel : valueLevel 0x1201 1 [v] ≤ s.dict.port.level.toNat := by
    by_cases h3 : v = 3
    · subst h3
      show 2 ≤ _
      rcases hvendor rfl with h | h <;> omega
    · have hne : v.toNat ≠ 3 := fun h => h3 (BitVec.eq_of_toNat_eq h)
      simp [valueLevel, hval, hne]
  have hended {c : Nat} {u : State} (hact : imgSelect v.toNat (portWriting s) = (c, u)) :=
    objectWrite_num (v := [v]) (c := c) (u := u) hrun ho hf (.inl rfl) (by decide) (by decide) (by decide) rfl
      (by rw [hval]; omega) (by rw [hval]; omega) rfl hlevel (by rw [← hact, ← hval]; rfl)
  refine ⟨_, rfl, ?_⟩
  split
  · next hruns =>
    have hact : imgSelect v.toNat (portWriting s) = (abRunningSlot, portWriting s) := if_pos ((runsFrom_iff v s).2 hruns)
    have h := (hended hact).1
    exact ⟨h.only rfl, h.imgState⟩
  · next hruns =>
    have hact : imgSelect v.toNat (portWriting s)
        = (0, { portWriting s with dict := { (portWriting s).dict with imgState := 0 } }) :=
      if_neg fun h => hruns ((runsFrom_iff v s).1 h)
    obtain ⟨h, hsaved⟩ := hended hact
    exact ⟨h.only rfl, h.imgState, stored_of_putValue (by rw [hf]; rfl) hsaved⟩

omit hrun in
theorem leVal_le_word (n : Word) : leVal (le 4 n.toNat) = n.toNat := by
  rw [leVal_le]
  exact Nat.mod_eq_of_lt n.isLt

/-! #### Erasing for an image -/

omit hrun in
theorem imgTarget_portWriting (s : State) : imgTarget (portWriting s) = imgTarget s := rfl

omit hrun in
/-- An erase leaves no word in its sector, and puts none in another. -/
theorem eraseSector_words (k : Nat) (s : State) :
    (eraseSector k s).cab.words = s.cab.words.filter (fun p => p.1 / 512 != k) := by
  have hstart (c : Cabinet) : (startHeader c k).words = c.words := by
    unfold startHeader
    split <;> rfl
  have hend (c : Cabinet) : (endHeader c k true).words = c.words := by
    unfold endHeader
    split <;> rfl
  have hnote (u : State) : (noteEndurance k u).cab = u.cab := by
    unfold noteEndurance
    split
    · have h := (raisePriv_folds (id := 251) (soft := false) (detail := [BitVec.ofNat 8 5, 0] ++ le 2 k
        ++ le 4 (faultStatus k 0 % 2 ^ 32)) (.refl { u with stats := { u.stats with
          cabinetFaults := u.stats.cabinetFaults + 1 } })).parted
      rw [cabFault, h.rest]
    · rfl
  have hclear : (endHeader (clearSector (startHeader s.cab k) k) k true).words
      = s.cab.words.filter (fun p => p.1 / 512 != k) := by
    rw [hend, clearSector, hstart]
  unfold eraseSector
  extract_lets +onlyGivenNames redo s₁
  split
  · exact hclear
  · rw [hnote]
    exact hclear

omit hrun in
theorem sectorErased_iff {k : Nat} : sectorErased k s = true ↔ ∀ p ∈ s.cab.words, p.1 / 512 ≠ k := by
  simp only [sectorErased, erasedIn, Bool.not_eq_true', List.any_eq_false, Bool.and_eq_true, decide_eq_true_eq]
  refine forall₂_congr fun p _ => ?_
  omega

omit hrun in
theorem sectorErased_eraseSector_self (k : Nat) (s : State) : sectorErased k (eraseSector k s) = true := by
  rw [sectorErased_iff, eraseSector_words]
  intro p hp
  simpa using (List.mem_filter.1 hp).2

omit hrun in
theorem sectorErased_eraseSector {k n : Nat} (h : sectorErased k s = true) : sectorErased k (eraseSector n s) = true := by
  rw [sectorErased_iff] at h ⊢
  rw [eraseSector_words]
  exact fun p hp => h p (List.mem_filter.1 hp).1

omit hrun in
theorem eraseSectors_spec (l : List Nat) (s : State) :
    Filed s (l.foldl (fun s i => eraseSector i s) s) ∧ (∀ i, sectorErased i s = true →
      sectorErased i (l.foldl (fun s i => eraseSector i s) s) = true)
      ∧ ∀ i ∈ l, sectorErased i (l.foldl (fun s i => eraseSector i s) s) = true := by
  induction l generalizing s with
  | nil => exact ⟨.refl s, fun _ h => h, fun i hi => absurd hi List.not_mem_nil⟩
  | cons k l ih =>
    obtain ⟨hfiled, hstay, hall⟩ := ih (eraseSector k s)
    refine ⟨hfiled.trans (eraseSector_filed (.refl s)), fun i hi => hstay i (sectorErased_eraseSector hi), fun i hi => ?_⟩
    rcases List.mem_cons.1 hi with rfl | hi
    · exact hstay i (sectorErased_eraseSector_self i s)
    · exact hall i hi

theorem exec_imageLength {n : Word} (ho : objCheck 0 .write 0x1201 2 s = .inr o) :
    ((imgTarget s = 0 ∨ n.toNat < 256 ∨ imageLengthOk (imgTarget s) (n.toNat - 256) = false) →
      ∃ t, exec (.imageLength 0 n) s = .next t ∧ portOnly abImageLength s t ∧ t.dict.imgState = s.dict.imgState)
    ∧ (imgTarget s ≠ 0 → 256 ≤ n.toNat → imageLengthOk (imgTarget s) (n.toNat - 256) = true → s.modes.holdup = false →
        (∀ i ∈ imgSectors n.toNat s, sectorFailed s.cab i = false) →
      ∃ t, exec (.imageLength 0 n) s = .next t ∧ portDone 0 t ∧ t.dict.imgState = 1 ∧ t.dict.imgBytes = 0
        ∧ (∀ i ∈ imgSectors n.toNat s, sectorErased i t = true) ∧ imgLength t = n.toNat ∧ t.rings = s.rings
            ∧ t.modes = s.modes) := by
  have hf : findObj 0x1201 2 = some (numObj 0x1201 2 .u32 4 .rw 1 0 4294967295) := rfl
  have hval := leVal_le_word n
  have hlt := n.isLt
  have hended {c : Nat} {u : State} (hact : imgErase n.toNat (portWriting s) = (c, u)) :=
    objectWrite_num (v := le 4 n.toNat) (c := c) (u := u) hrun ho hf (.inr (.inr rfl)) (by decide) (by decide) (by decide)
      (length_le 4 _) (by rw [hval]; omega) (by rw [hval]; omega) rfl (Nat.zero_le _)
      (by rw [← hact]; exact congrArg (imgErase · (portWriting s)) hval)
  refine ⟨fun hno => ?_, fun htarget hlong hok hholdup hsound => ?_⟩
  · have hact : imgErase n.toNat (portWriting s) = (abImageLength, portWriting s) := by
      refine if_pos ?_
      rw [imgTarget_portWriting]
      rcases hno with h | h | h <;> simp [h]
    have h := (hended hact).1
    exact ⟨_, rfl, h.only rfl, h.imgState⟩
  · obtain ⟨hfiled, -, herased⟩ := eraseSectors_spec (imgSectors n.toNat s) (portWriting s)
    have hact : imgErase n.toNat (portWriting s) = (0, { (imgSectors n.toNat s).foldl (fun s i => eraseSector i s) (portWriting s) with
        dict := { ((imgSectors n.toNat s).foldl (fun s i => eraseSector i s) (portWriting s)).dict with
          imgState := 1, imgBytes := 0, imgTail := [] } }) := by
      have hlimits : (imgTarget (portWriting s) == 0 || decide (n.toNat < 256)
          || !(imageLengthOk (imgTarget (portWriting s)) (n.toNat - 256))) = false := by
        rw [imgTarget_portWriting, hok]
        simp [htarget, hlong]
      have hworks : (!(cabServes (portWriting s))
          || (imgSectors n.toNat (portWriting s)).any (fun i => sectorFailed (portWriting s).cab i)) = false := by
        have hserves : cabServes (portWriting s) = true := by simp [cabServes, portWriting, hholdup]
        have hsectors : (imgSectors n.toNat (portWriting s)).any (fun i => sectorFailed (portWriting s).cab i) = false :=
          List.any_eq_false.2 fun i hi => by rw [show sectorFailed (portWriting s).cab i = false from hsound i hi]; decide
        rw [hserves, hsectors]
        rfl
      unfold imgErase
      rw [hlimits, hworks]
      rfl
    generalize (imgSectors n.toNat s).foldl (fun s i => eraseSector i s) (portWriting s) = w at hfiled herased hact
    simp only [Filed, State.filed, Prod.mk.injEq] at hfiled
    obtain ⟨hrings, hmodes, -, -⟩ := hfiled
    obtain ⟨h, hsaved⟩ := hended hact
    refine ⟨_, rfl, h.done, h.imgState, h.imgBytes, fun i hi => ?_, ?_, h.rings.trans hrings, h.modes.trans hmodes⟩
    · rw [sectorErased, h.cab]
      exact herased i hi
    · rw [imgLength, stored_of_putValue (by rw [hf]; rfl) hsaved, hval]

/-! #### Segments of an image -/

section
variable {off : Nat} {last : Bool} {d : List Byte} (ho : objCheck 0 .write 0x1201 3 s = .inr o) (hd : d.length ≤ 1024)
  (hoff : off + d.length ≤ imgLength s) (hlast : last = true → off + d.length = imgLength s)
  (htime : off = 0 ∨ s.dict.port.timedWrite ≠ some (0x1201, 3))

include ho hd hoff hlast htime

theorem exec_imageData_takes : exec (.imageData 0 off last d) s
    = .next (portEnd { code := (takeImage 0 off last d (useSession 0 s)).1 } false
        (takeImage 0 off last d (useSession 0 s)).2.2) := by
  have hf : findObj 0x1201 3 = some { octetsObj 0x1201 3 0 .wo 1 with flags := 4 } := rfl
  have e := objCheck_eq ho hf
  subst e
  have htotal : Obj.total { octetsObj 0x1201 3 0 .wo 1 with flags := 4 } (useSession 0 s) = imgLength s := rfl
  have hlength : imgLength s = imgLength (useSession 0 s) := rfl
  have hfits : (imgLength s != imgLength s || decide (1024 < d.length) || decide (imgLength s < off + d.length)
      || (last && off + d.length != imgLength s)) = false := by
    cases last with
    | false => simp [hd, hoff]
    | true => simp [hd, hlast rfl]
  have hintime : (off != 0 && (sessionAt 0 (useSession 0 s)).timedWrite == some (0x1201, 3)) = false := by
    have hsame : (sessionAt 0 (useSession 0 s)).timedWrite = s.dict.port.timedWrite := rfl
    rw [hsame]
    rcases htime with h | h
    · simp [h]
    · simp [h]
  have hserve : serveWrite 0 0x1201 3 off (imgLength s) 1024 last d (useSession 0 s) = takeImage 0 off last d (useSession 0 s) := by
    unfold serveWrite
    rw [objCheck_port, ho]
    dsimp only
    rw [htotal, hfits, hintime]
    rfl
  show Host.Outcome.next _ = _
  simp only [portOn_of_run hrun, beq_self_eq_true, if_true, hserve]

theorem exec_imageData_refused (hstate : s.dict.imgState ≠ 1) :
    ∃ t, exec (.imageData 0 off last d) s = .next t ∧ portOnly abImageState s t := by
  have htake : takeImage 0 off last d (useSession 0 s) = (abImageState, s.dict.imgBytes, useSession 0 s) :=
    if_pos (by simpa [useSession_port] using hstate)
  have hexec := exec_imageData_takes hrun ho hd hoff hlast htime
  rw [htake] at hexec
  exact ⟨_, hexec, portEnd_only _ _ rfl⟩

end

end

end
end Sys2Proof.Machine

namespace Sys2Proof.Machine

section
variable {s t u : State} {c idx sub : Nat} {v : List Byte} {o : Obj}

/-! ### A segment of an image that is taken (R516) -/

theorem fitsErased_congr (h : t.cab = s.cab) (k : Nat) (vs : List Nat) : fitsErased k vs t = fitsErased k vs s := by
  induction vs generalizing k with
  | nil => rfl
  | cons v vs ih => simp only [fitsErased, h, ih]

/-- The port's session changed: what an image's segment does depends on nothing of it. -/
def withPort (order : Nat) (port : Session) (s : State) : State :=
  { s with dict := { s.dict with useOrder := order, port := port } }

/-- A segment that fits is programmed, whatever the session. -/
theorem imgSegment_withPort {off : Nat} {last : Bool} {d : List Byte} (order : Nat) (port : Session)
    (hok : (imgSegment off last d s).1 = 0) (hu : imgSegment off last d (withPort order port s) = (c, u)) :
    c = 0 ∧ u.cab = (imgSegment off last d s).2.cab ∧ u.rings = s.rings ∧ u.modes = s.modes
      ∧ u.dict.imgBytes = off + d.length ∧ u.dict.imgState = if last = true then 2 else s.dict.imgState := by
  have hfits (k : Nat) (vs : List Nat) : fitsErased k vs (withPort order port s) = fitsErased k vs s :=
    fitsErased_congr (s := s) (t := withPort order port s) rfl k vs
  unfold imgSegment at hok hu ⊢
  extract_lets tail bs n w ws base s₁ at hok
  extract_lets tail' bs' n' w' ws' base' s₂ at hu
  have hno : ¬ (!(cabServes s) || !(fitsErased base ws s)) = true := fun h => by
    rw [if_pos h] at hok
    have hne : abSave ≠ 0 := by decide
    exact hne hok
  have hno' : ¬ (!(cabServes (withPort order port s)) || !(fitsErased base' ws' (withPort order port s))) = true := by
    rw [hfits]
    exact hno
  rw [if_neg hno'] at hu
  cases hu
  rw [if_neg hno]
  exact ⟨rfl, rfl, rfl, rfl, rfl, rfl⟩

section
variable (hrun : s.pins.inReset = false)

include hrun

theorem exec_imageData_programs {off : Nat} {last : Bool} {d : List Byte} (ho : objCheck 0 .write 0x1201 3 s = .inr o)
    (hd : d.length ≤ 1024) (hoff : off + d.length ≤ imgLength s) (hlast : last = true → off + d.length = imgLength s)
    (htime : off = 0 ∨ s.dict.port.timedWrite ≠ some (0x1201, 3)) (hstate : s.dict.imgState = 1)
    (horder : off = 0 ∨ received 0 0x1201 3 s ≠ none ∧ off = s.dict.imgBytes) (hok : (imgSegment off last d s).1 = 0) :
    ∃ t, exec (.imageData 0 off last d) s = .next t ∧ portDone 0 t ∧ t.dict.imgBytes = off + d.length
      ∧ t.dict.imgState = (if last = true then 2 else 1) ∧ t.cab = (imgSegment off last d s).2.cab ∧ t.rings = s.rings
      ∧ t.modes = s.modes := by
  have hexec := exec_imageData_takes hrun ho hd hoff hlast htime
  obtain ⟨c, u, hu⟩ : ∃ c u, imgSegment off last d (withPort (s.dict.useOrder + 1) { s.dict.port with
      snap := none, timedWrite := none, finished := none, open_ := if last then none else some ((0x1201, 3), []) } s) = (c, u) :=
    ⟨_, _, rfl⟩
  obtain ⟨hc, hcab, hrings, hmodes, hbytes, himg⟩ := imgSegment_withPort _ _ hok hu
  have htake : takeImage 0 off last d (useSession 0 s) = (c, u.dict.imgBytes, u) := by
    have hmine : (off == 0 || ((received 0 0x1201 3 (useSession 0 s)).isSome && off == (useSession 0 s).dict.imgBytes)) = true := by
      have hsame : received 0 0x1201 3 (useSession 0 s) = received 0 0x1201 3 s := rfl
      rw [hsame]
      rcases horder with h | ⟨h, hbytes⟩
      · simp [h]
      · have hsome : (received 0 0x1201 3 s).isSome = true := Option.isSome_iff_ne_none.2 h
        rw [hsome, hbytes]
        simp [useSession_port]
    have hone : ((useSession 0 s).dict.imgState != 1) = false := by simp [useSession_port, hstate]
    have hmod : modSession 0 (fun x => { x with
        snap := none, timedWrite := none, finished := none, open_ := if last then none else some ((0x1201, 3), []) })
        (useSession 0 s) = withPort (s.dict.useOrder + 1) { s.dict.port with
          snap := none, timedWrite := none, finished := none, open_ := if last then none else some ((0x1201, 3), []) } s := rfl
    unfold takeImage
    rw [hone, if_neg Bool.false_ne_true, hmod, hu]
    exact if_pos hmine
  rw [htake, hc] at hexec
  obtain ⟨hended, -⟩ := portEnd_ended 0 u
  exact ⟨_, hexec, hended.done, hended.imgBytes.trans hbytes, hended.imgState.trans (himg.trans (by rw [hstate])),
    hended.cab.trans hcab, hended.rings.trans hrings, hended.modes.trans hmodes⟩

/-! ### The check of an image, and switches that act (R83, R515, R516, R522) -/

theorem exec_imageCheck (ho : objCheck 0 .write 0x1201 5 s = .inr o) :
    (s.dict.imgState ≠ 2 → ∃ t, exec (.imageCheck 0 1) s = .next t ∧ portOnly abImageState s t)
    ∧ (s.dict.imgState ≠ 2 → ∃ t, exec (.imageCheck 0 0) s = .next t ∧ portOnly abImageState s t)
    ∧ (s.dict.imgState = 2 → ∃ t, exec (.imageCheck 0 0) s = .next t ∧ portOnly 0 s t ∧ t.dict.imgState = 2)
    ∧ (s.dict.imgState = 2 → ∃ t, exec (.imageCheck 0 1) s = .next t ∧ portOnly 0 s t
      ∧ (∀ r, imageRefused (imgTarget s) s = some r → t.dict.imgState = 4 ∧ t.dict.imgReason = BitVec.ofNat 8 r)
      ∧ (imageRefused (imgTarget s) s = none → t.dict.imgState = 3 ∧ t.dict.imgReason = 0)) := by
  have hf : findObj 0x1201 5 = some (boolObj 0x1201 5 .wo 1) := rfl
  have hended {b : Byte} {c : Nat} {u : State} (hb : b = 0 ∨ b = 1)
      (hact : imgCheck (leVal [b] == 1) (portWriting s) = (c, u)) : PortEnded c u (objectWrite 0 0x1201 5 [b] s) :=
    objectWrite_bool hrun hb ho hf (by decide) (by decide) rfl hact
  have hnot {run : Bool} (hstate : s.dict.imgState ≠ 2) : imgCheck run (portWriting s) = (abImageState, portWriting s) :=
    if_pos (by simpa [portWriting] using hstate)
  have hstays (hstate : s.dict.imgState = 2) (run : Bool) : ((portWriting s).dict.imgState != 2) = false := by
    simp [portWriting, hstate]
  refine ⟨fun hstate => ?_, fun hstate => ?_, fun hstate => ?_, fun hstate => ?_⟩
  · exact ⟨_, rfl, (hended (.inr rfl) (hnot hstate)).only rfl⟩
  · exact ⟨_, rfl, (hended (.inl rfl) (hnot hstate)).only rfl⟩
  · have hact : imgCheck (leVal [(0 : Byte)] == 1) (portWriting s) = (0, portWriting s) := by
      unfold imgCheck
      rw [hstays hstate false]
      rfl
    have h := hended (.inl rfl) hact
    exact ⟨_, rfl, h.only rfl, h.imgState.trans hstate⟩
  · have hrefused : imageRefused (imgTarget (portWriting s)) (portWriting s) = imageRefused (imgTarget s) s := rfl
    have hact : imgCheck (leVal [(1 : Byte)] == 1) (portWriting s) = (0, { portWriting s with dict := { (portWriting s).dict with
        imgState := if (imageRefused (imgTarget s) s).isSome then 4 else 3
        imgReason := BitVec.ofNat 8 ((imageRefused (imgTarget s) s).getD 0) } }) := by
      have hone : (!(leVal [(1 : Byte)] == 1)) = false := rfl
      unfold imgCheck
      rw [hstays hstate true, hone, if_neg Bool.false_ne_true, if_neg Bool.false_ne_true, hrefused]
      cases imageRefused (imgTarget s) s <;> rfl
    have h := hended (.inr rfl) hact
    refine ⟨_, rfl, h.only rfl, fun r hr => ?_, fun hr => ?_⟩
    · rw [h.imgState, h.imgReason, hr]
      exact ⟨rfl, rfl⟩
    · rw [h.imgState, h.imgReason, hr]
      exact ⟨rfl, rfl⟩

theorem exec_restoreDefaults (ho : objCheck 0 .write 0x1300 0x0A s = .inr o) :
    ((s.modes.holdup = true ∨ saveWorks s = false) →
      ∃ t, exec (.restoreDefaults 0 1) s = .next t ∧ portOnly abSave s t ∧ t.dict.defaultsNext = s.dict.defaultsNext)
    ∧ (s.modes.holdup = false → saveWorks s = true → ∃ t, exec (.restoreDefaults 0 1) s = .next t ∧ portDone 0 t
      ∧ t.dict.defaultsNext = true ∧ t.rings = s.rings ∧ t.modes = s.modes ∧ t.dict.saved = s.dict.saved) := by
  have hf : findObj 0x1300 0x0A = some (boolObj 0x1300 0x0A .wo 1) := rfl
  have e := objCheck_eq ho hf
  subst e
  have hended {c : Nat} {u : State} (hact : saveDefaults (portWriting s) = (c, u)) :=
    objectWrite_acts (v := [1]) (c := c) (u := u) hrun ho rfl rfl (by decide) (by decide) (valueCheck_bool (.inr rfl))
      (Nat.zero_le _) hact
  have hworks : saveWorks (portWriting s) = saveWorks s := rfl
  have hserves : cabServes (portWriting s) = !s.modes.holdup := rfl
  refine ⟨fun hno => ?_, fun hholdup hsave => ?_⟩
  · have hact : saveDefaults (portWriting s) = (abSave, portWriting s) := by
      refine if_pos ?_
      rw [hworks, hserves]
      rcases hno with h | h <;> simp [h]
    obtain ⟨h, -⟩ := hended hact
    exact ⟨_, rfl, h.only rfl, h.defaultsNext⟩
  · have hact : saveDefaults (portWriting s) = (0, { saveRecord 0xFFFF 0 [] (portWriting s) with
        dict := { (portWriting s).dict with defaultsNext := true } }) := by
      refine if_neg ?_
      rw [hworks, hserves, hholdup, hsave]
      decide
    have hfiled : Filed (portWriting s) (saveRecord 0xFFFF 0 [] (portWriting s)) := saveRecord_filed (.refl _)
    simp only [Filed, State.filed, Prod.mk.injEq] at hfiled
    obtain ⟨hrings, hmodes, -, -⟩ := hfiled
    generalize saveRecord 0xFFFF 0 [] (portWriting s) = w at hrings hmodes hact
    obtain ⟨h, hsaved⟩ := hended hact
    refine ⟨_, rfl, h.done, h.defaultsNext, h.rings.trans hrings, h.modes.trans hmodes, hsaved.trans ?_⟩
    rw [if_neg (by decide)]
    rfl

theorem exec_statisticsMark (ho : objCheck 0 .write 0x6000 6 s = .inr o) :
    ∃ t, exec (.statisticsMark 0 1) s = .next t ∧ portDone 0 t
      ∧ t.stats.mark = (s.stats.bytesWritten, s.stats.bytesRead, s.stats.entriesCompleted)
      ∧ t = { s with dict := t.dict, irq := t.irq, stats := { s.stats with mark := t.stats.mark } } := by
  have hf : findObj 0x6000 6 = some (boolObj 0x6000 6 .rw 1) := by decide +kernel
  have hact : actOn 0 0x6000 6 [1] (portWriting s) = (0, markStats (portWriting s)) := rfl
  have h := objectWrite_bool (b := 1) hrun (.inr rfl) ho hf (by decide) (by decide) rfl hact
  refine ⟨_, rfl, h.done, congrArg Stats.mark h.stats, ?_⟩
  have hstats := h.stats
  have hrest := h.rest
  generalize objectWrite 0 0x6000 6 [1] s = t at hrest hstats
  rw [hstats]
  exact hrest

theorem exec_factoryRequest (ho : objCheck 0 .write 0x1100 5 s = .inr o) :
    ∃ t, exec (.factoryRequest 0 1) s = .next t ∧ portDone 0 t ∧ t.modes = { s.modes with factoryReq := true }
      ∧ t = { s with dict := t.dict, irq := t.irq, modes := t.modes } := by
  have hf : findObj 0x1100 5 = some (boolObj 0x1100 5 .wo 1) := rfl
  have hact : actOn 0 0x1100 5 [1] (portWriting s)
      = (0, { portWriting s with modes := { s.modes with factoryReq := s.modes.factoryReq || true } }) := rfl
  rw [Bool.or_true] at hact
  have h := objectWrite_bool (b := 1) hrun (.inr rfl) ho hf (by decide) (by decide) rfl hact
  refine ⟨_, rfl, h.done, h.modes, ?_⟩
  have hmodes := h.modes
  have hrest := h.rest
  generalize objectWrite 0 0x1100 5 [1] s = t at hrest hmodes
  rw [hmodes]
  exact hrest

end

end
end Sys2Proof.Machine

namespace Sys2Proof.Machine

section
variable {s t u : State} {c idx sub : Nat} {v : List Byte} {o : Obj}

/-! ### The maker's mark row: what is stored is read again (R539, R540) -/

theorem length_bytesIn (l : List (Nat × BitVec 64)) (k n : Nat) : (bytesIn l k n).length = 8 * n := by
  induction n generalizing k with
  | zero => rfl
  | succ n ih =>
    rw [bytesIn_succ, List.length_append, length_le, ih]
    omega

theorem bytesIn_add (l : List (Nat × BitVec 64)) (k m n : Nat) : bytesIn l k (m + n) = bytesIn l k m ++ bytesIn l (k + m) n := by
  induction m generalizing k with
  | zero => simp [bytesIn]
  | succ m ih =>
    rw [Nat.add_right_comm, bytesIn_succ, bytesIn_succ, ih, List.append_assoc, Nat.add_assoc, Nat.add_comm 1 m]

/-- Words of a row of words. -/
theorem slice_bytesIn {l : List (Nat × BitVec 64)} {k n m : Nat} (h : k + n ≤ m) :
    slice (bytesIn l 0 m) (8 * k) (8 * n) = bytesIn l k n := by
  obtain ⟨r, rfl⟩ := Nat.exists_eq_add_of_le h
  rw [bytesIn_add, bytesIn_add, Nat.zero_add, Nat.zero_add, slice, List.append_assoc, List.drop_left' (length_bytesIn ..),
    List.take_left' (length_bytesIn ..)]

theorem slice_slice {l : List Byte} {a m b n : Nat} (h : b + n ≤ m) : slice (slice l a m) b n = slice l (a + b) n := by
  simp only [slice, List.drop_take, List.take_take, List.drop_drop, Nat.min_eq_left (Nat.le_sub_of_add_le' h)]

/-- Bytes of the mark row within what has been stored there. -/
theorem markBytes_storeMark {k n a len : Nat} {bs : List Byte} (hbs : bs.length = 8 * n) (hk : k + n ≤ 128)
    (hlen : a + len ≤ 8 * n) : markBytes (8 * k + a) len (storeMark k bs s) = slice bs a len := by
  have hwords : bytesIn (storeMark k bs s).cab.mark k n = bs := by
    rw [storeMark, show (bs.length + 7) / 8 = n by omega]
    exact bytesIn_putWords _ _ hbs
  rw [markBytes, ← slice_slice hlen, slice_bytesIn hk, hwords]

theorem slice_append_left {a b : List Byte} {n : Nat} (h : a.length = n) : slice (a ++ b) 0 n = a := by
  rw [slice, List.drop_zero, List.take_left' h]

theorem slice_append_right {a b d : List Byte} {m n : Nat} (ha : a.length = m) (hb : b.length = n) :
    slice (a ++ b ++ d) m n = b := by
  rw [slice, List.append_assoc, List.drop_left' ha, List.take_left' hb]

/-! #### Checks (R541) -/

theorem crcBit_lt {x : Nat} (h : x < 2 ^ 32) : crcBit x < 2 ^ 32 := by
  unfold crcBit
  split
  · exact Nat.xor_lt_two_pow (by omega) (by decide)
  · omega

theorem crcByte_lt {x : Nat} {b : Byte} (h : x < 2 ^ 32) : crcByte x b < 2 ^ 32 := by
  have hb : b.toNat < 2 ^ 32 := Nat.lt_trans b.isLt (by decide)
  unfold crcByte
  iterate 8 apply crcBit_lt
  exact Nat.xor_lt_two_pow h hb

theorem crc32c_lt (l : List Byte) : crc32c l < 2 ^ 32 := by
  have hfold {l : List Byte} {x : Nat} (h : x < 2 ^ 32) : l.foldl crcByte x < 2 ^ 32 := by
    induction l generalizing x with
    | nil => exact h
    | cons b l ih => exact ih (crcByte_lt h)
  exact Nat.xor_lt_two_pow (hfold (by decide)) (by decide)

theorem leAt_crc (l : List Byte) : leAt (le 4 (crc32c l)) 0 4 = crc32c l := by
  have hall : slice (le 4 (crc32c l)) 0 4 = le 4 (crc32c l) := List.take_of_length_le (by rw [List.drop_zero, length_le])
  rw [leAt, hall, leVal_le]
  exact Nat.mod_eq_of_lt (crc32c_lt l)

/-! #### Floors (R542) -/

theorem le_leadZeros {l : List Bool} {n : Nat} (h : ∀ i < n, l[i]? = some false) : n ≤ leadZeros l := by
  induction l generalizing n with
  | nil =>
    cases n with
    | zero => exact Nat.le_refl 0
    | succ n => exact absurd (h 0 (Nat.succ_pos n)) (by simp)
  | cons b l ih =>
    cases n with
    | zero => exact Nat.zero_le _
    | succ n =>
      have hb : b = false := by simpa using h 0 (Nat.succ_pos n)
      subst hb
      exact Nat.succ_le_succ (ih fun i hi => by simpa using h (i + 1) (Nat.succ_lt_succ hi))

/-- The bits of a number's bytes, lowest first. -/
theorem bits_le (n x : Nat) : ((le n x).map (fun b => (List.range 8).map (fun i => bitAt b.toNat i))).flatten
    = (List.range (8 * n)).map (fun i => bitAt x i) := by
  induction n generalizing x with
  | zero => rfl
  | succ n ih =>
    have hlow : (List.range 8).map (fun i => bitAt (BitVec.ofNat 8 x).toNat i) = (List.range 8).map (fun i => bitAt x i) := by
      refine List.map_congr_left fun i hi => ?_
      have hi := List.mem_range.1 hi
      rw [bitAt_eq_testBit, bitAt_eq_testBit, BitVec.toNat_ofNat, Nat.testBit_mod_two_pow]
      simp [hi]
    have hhigh : (List.range (8 * n)).map (fun i => bitAt (x / 256) i) = (List.range (8 * n)).map (fun i => bitAt x (8 + i)) := by
      refine List.map_congr_left fun i _ => ?_
      rw [bitAt_eq_testBit, bitAt_eq_testBit, Nat.add_comm, ← Nat.testBit_div_two_pow]
    rw [le, List.map_cons, List.flatten_cons, ih, hlow, hhigh, Nat.mul_succ, Nat.add_comm, List.range_add, List.map_append,
      List.map_map]
    rfl

theorem floor_raised {n v : Nat} (x : Nat) (h : v ≤ 8 * n) :
    v ≤ leadZeros (((le n (x / 2 ^ v * 2 ^ v)).map (fun b => (List.range 8).map (fun i => bitAt b.toNat i))).flatten) := by
  rw [bits_le]
  refine le_leadZeros fun i hi => ?_
  rw [List.getElem?_map, List.getElem?_range (by omega), Option.map_some, bitAt_eq_testBit, Nat.testBit_mul_two_pow]
  simp [Nat.not_le.2 hi]

/-- A floor once raised is as high as it has been raised. -/
theorem floorAt_raised {k n : Nat} (old : Nat) (hk : k + 4 ≤ 128) (hn : n ≤ 256) :
    n ≤ floorAt (8 * k) (storeMark k (le 32 (old / 2 ^ n * 2 ^ n)) s) := by
  have hlen := length_le 32 (old / 2 ^ n * 2 ^ n)
  have hbytes := markBytes_storeMark (s := s) (a := 0) (len := 32) (n := 4) hlen hk (by decide)
  have hall : slice (le 32 (old / 2 ^ n * 2 ^ n)) 0 32 = le 32 (old / 2 ^ n * 2 ^ n) :=
    List.take_of_length_le (by rw [List.drop_zero, hlen])
  rw [hall] at hbytes
  rw [floorAt, show (8 * k : Nat) = 8 * k + 0 from rfl, hbytes]
  exact floor_raised old hn

end
end Sys2Proof.Machine

namespace Sys2Proof.Machine

section
variable {s t u : State} {c idx sub : Nat} {v : List Byte} {o : Obj}

/-! ### Floors, keys, the factory row and the customer sectors (R541 to R547) -/

/-- A request that has changed nothing but words of the maker's mark row. -/
theorem PortEnded.rest_mark (h : PortEnded c u t) (hu : u = { s with dict := u.dict, cab := { s.cab with mark := u.cab.mark } }) :
    t = { s with dict := t.dict, irq := t.irq, cab := { s.cab with mark := t.cab.mark } } := by
  have hcab := h.cab
  have hrest := h.rest
  rw [hcab]
  rw [hu] at hrest
  exact hrest

theorem floorAt_congr (h : t.cab = s.cab) (off : Nat) : floorAt off t = floorAt off s := by
  rw [floorAt, floorAt, markBytes, markBytes, h]

theorem markBytes_congr (h : t.cab = s.cab) (off len : Nat) : markBytes off len t = markBytes off len s := by
  rw [markBytes, markBytes, h]

section
variable (hrun : s.pins.inReset = false)

include hrun

omit hrun in
theorem raiseFloor_port {k : Nat} {x : BitVec 16} (hk : k + 4 ≤ 128) (hx : x.toNat ≤ 256)
    (hended : ∀ {c u}, raiseFloor (8 * k) x.toNat (portWriting s) = (c, u) → PortEnded c u t) :
    (x.toNat < floorAt (8 * k) s → portOnly abBelow s t)
    ∧ (x.toNat = floorAt (8 * k) s → portOnly 0 s t)
    ∧ (floorAt (8 * k) s < x.toNat → s.modes.holdup = true → portOnly abSave s t)
    ∧ (floorAt (8 * k) s < x.toNat → s.modes.holdup = false → portDone 0 t ∧ x.toNat ≤ floorAt (8 * k) t
      ∧ t = { s with dict := t.dict, irq := t.irq, cab := { s.cab with mark := t.cab.mark } }) := by
  have hfloor : floorAt (8 * k) (portWriting s) = floorAt (8 * k) s := rfl
  unfold raiseFloor at hended
  rw [hfloor] at hended
  refine ⟨fun hlt => ?_, fun heq => ?_, fun hlt hholdup => ?_, fun hlt hholdup => ?_⟩
  · exact (hended (if_pos hlt)).only rfl
  · exact (hended ((if_neg (Nat.not_lt.2 heq.ge)).trans (if_pos (by simpa using heq)))).only rfl
  · have hserves : (!cabServes (portWriting s)) = true := by simp [cabServes, portWriting, hholdup]
    exact (hended ((if_neg (Nat.not_lt.2 hlt.le)).trans ((if_neg (by simpa using hlt.ne')).trans (if_pos hserves)))).only rfl
  · have hserves : ¬ (!cabServes (portWriting s)) = true := by simp [cabServes, portWriting, hholdup]
    have h := hended ((if_neg (Nat.not_lt.2 hlt.le)).trans ((if_neg (by simpa using hlt.ne')).trans (if_neg hserves)))
    refine ⟨h.done, ?_, h.rest_mark rfl⟩
    rw [floorAt_congr h.cab, Nat.mul_div_cancel_left k (by decide)]
    exact floorAt_raised _ hk hx

theorem exec_raiseFloor {x : BitVec 16} {off : Nat} {i : Instr}
    (hi : i = .raiseVendorFloor 0 x ∧ sub = 7 ∧ off = 0x380 ∨ i = .raiseCustomerFloor 0 x ∧ sub = 8 ∧ off = 0x3A0)
    (ho : objCheck 0 .write 0x3C00 sub s = .inr o) (hx : x.toNat ≤ 256) :
    (x.toNat < floorAt off s → ∃ t, exec i s = .next t ∧ portOnly abBelow s t)
    ∧ (x.toNat = floorAt off s → ∃ t, exec i s = .next t ∧ portOnly 0 s t)
    ∧ (floorAt off s < x.toNat → s.modes.holdup = true → ∃ t, exec i s = .next t ∧ portOnly abSave s t)
    ∧ (floorAt off s < x.toNat → s.modes.holdup = false → ∃ t, exec i s = .next t ∧ portDone 0 t ∧ x.toNat ≤ floorAt off t
      ∧ t = { s with dict := t.dict, irq := t.irq, cab := { s.cab with mark := t.cab.mark } }) := by
  have hval : leVal (le 2 x.toNat) = x.toNat := by
    rw [leVal_le]
    exact Nat.mod_eq_of_lt x.isLt
  have hlo : (0 : Int) ≤ (leVal (le 2 x.toNat) : Int) := Int.natCast_nonneg _
  have hhi : (leVal (le 2 x.toNat) : Int) ≤ 256 := by rw [hval]; omega
  have hwrite : ∃ k, off = 8 * k ∧ k + 4 ≤ 128 ∧ exec i s = .next (objectWrite 0 0x3C00 sub (le 2 x.toNat) s)
      ∧ ∀ {c u}, raiseFloor (8 * k) x.toNat (portWriting s) = (c, u) →
          PortEnded c u (objectWrite 0 0x3C00 sub (le 2 x.toNat) s) := by
    obtain ⟨rfl, rfl, rfl⟩ | ⟨rfl, rfl, rfl⟩ := hi
    · have hf : findObj 0x3C00 7 = some (numObj 0x3C00 7 .u16 2 .wo 2 0 256) := by decide +kernel
      have hact : actOn 0 0x3C00 7 (le 2 x.toNat) (portWriting s) = raiseFloor 0x380 (leVal (le 2 x.toNat)) (portWriting s) := rfl
      rw [hval] at hact
      refine ⟨112, rfl, by decide, rfl, fun hraise => ?_⟩
      exact (objectWrite_num hrun ho hf (.inr (.inl rfl)) (by decide) (by decide) (by decide) (length_le ..) hlo hhi rfl
        (Nat.zero_le _) (hact.trans hraise)).1
    · have hf : findObj 0x3C00 8 = some (numObj 0x3C00 8 .u16 2 .wo 1 0 256) := by decide +kernel
      have hact : actOn 0 0x3C00 8 (le 2 x.toNat) (portWriting s) = raiseFloor 0x3A0 (leVal (le 2 x.toNat)) (portWriting s) := rfl
      rw [hval] at hact
      refine ⟨116, rfl, by decide, rfl, fun hraise => ?_⟩
      exact (objectWrite_num hrun ho hf (.inr (.inl rfl)) (by decide) (by decide) (by decide) (length_le ..) hlo hhi rfl
        (Nat.zero_le _) (hact.trans hraise)).1
  obtain ⟨k, rfl, hk, hexec, hended⟩ := hwrite
  obtain ⟨hbelow, hsame, hsave, hraise⟩ := raiseFloor_port hk hx hended
  exact ⟨fun h => ⟨_, hexec, hbelow h⟩, fun h => ⟨_, hexec, hsame h⟩, fun h h' => ⟨_, hexec, hsave h h'⟩,
    fun h h' => ⟨_, hexec, hraise h h'⟩⟩

/-- A slot takes a key: its bytes, their padding and their check. -/
theorem exec_customerKeyProvision {d : List Byte} (ho : objCheck 0 .write 0x3C00 9 s = .inr o) (hlen : d.length = 80) :
    ((nextSlot s = none ∨ factoryOk s = false) →
      ∃ t, exec (.customerKeyProvision 0 d) s = .next t ∧ portOnly abBadValue s t)
    ∧ (∀ k, nextSlot s = some k → factoryOk s = true → s.modes.holdup = false →
      ∃ t, exec (.customerKeyProvision 0 d) s = .next t ∧ portDone 0 t ∧ markBytes (0x200 + 96 * k) 80 t = d
        ∧ slotValid k t = true ∧ t = { s with dict := t.dict, irq := t.irq, cab := { s.cab with mark := t.cab.mark } }) := by
  have hf : findObj 0x3C00 9 = some (octetsObj 0x3C00 9 80 .wo 1) := rfl
  have hended {c : Nat} {u : State} (hact : provisionKey d (portWriting s) = (c, u)) :
      PortEnded c u (objectWrite 0 0x3C00 9 d s) :=
    objectWrite_octets hrun ho hf (by decide) (by decide) rfl rfl hlen hact
  have hslot : nextSlot (portWriting s) = nextSlot s := rfl
  have hfactory : factoryOk (portWriting s) = factoryOk s := rfl
  refine ⟨fun hno => ⟨_, rfl, (hended (c := abBadValue) (u := portWriting s) ?_).only rfl⟩, fun k hk hok hholdup => ?_⟩
  · unfold provisionKey
    rw [hslot, hfactory]
    rcases hno with h | h
    · rw [h]
    · rw [h]
      cases nextSlot s <;> rfl
  · have hk4 : k < 4 := List.mem_range.1 (List.mem_of_find?_eq_some hk)
    have hserves : cabServes (portWriting s) = true := by simp [cabServes, portWriting, hholdup]
    have hact : provisionKey d (portWriting s)
        = (0, storeMark (64 + 12 * k) (d ++ zeros 12 ++ le 4 (crc32c (d ++ zeros 12))) (portWriting s)) := by
      unfold provisionKey
      rw [hslot, hfactory, hk, hok, hserves]
      rfl
    have h := hended hact
    have hpad : (d ++ zeros 12).length = 92 := by simp [zeros, hlen]
    have hall : (d ++ zeros 12 ++ le 4 (crc32c (d ++ zeros 12))).length = 8 * 12 := by
      rw [List.length_append, hpad, length_le]
    have hread {a len : Nat} (hin : a + len ≤ 96) : markBytes (0x200 + 96 * k + a) len (objectWrite 0 0x3C00 9 d s)
        = slice (d ++ zeros 12 ++ le 4 (crc32c (d ++ zeros 12))) a len := by
      rw [markBytes_congr h.cab, show 0x200 + 96 * k + a = 8 * (64 + 12 * k) + a by omega]
      exact markBytes_storeMark hall (by omega) hin
    refine ⟨_, rfl, h.done, ?_, ?_, h.rest_mark rfl⟩
    · refine (hread (a := 0) (by decide)).trans ?_
      rw [List.append_assoc]
      exact slice_append_left hlen
    · have hbody := hread (a := 0) (len := 92) (by decide)
      rw [Nat.add_zero, slice_append_left hpad] at hbody
      have hcheck := hread (a := 92) (len := 4) (by decide)
      rw [← List.append_nil (d ++ zeros 12 ++ _), slice_append_right hpad (length_le ..)] at hcheck
      rw [slotValid, hcheck, hbody, leAt_crc]
      exact beq_self_eq_true _

/-- The factory part is written once, with its check. -/
theorem exec_factoryPart {d : List Byte} (ho : objCheck 0 .write 0x3C00 0x0A s = .inr o) (hlen : d.length = 504) :
    (erasedIn s.cab.mark 0 64 = false → ∃ t, exec (.factoryPart 0 d) s = .next t ∧ portOnly abBadValue s t)
    ∧ (erasedIn s.cab.mark 0 64 = true → s.modes.holdup = false → ∃ t, exec (.factoryPart 0 d) s = .next t ∧ portDone 0 t
      ∧ markBytes 0 504 t = d ∧ factoryOk t = true
      ∧ t = { s with dict := t.dict, irq := t.irq, cab := { s.cab with mark := t.cab.mark } }) := by
  have hf : findObj 0x3C00 0x0A = some (octetsObj 0x3C00 0x0A 504 .wo 2) := rfl
  have hended {c : Nat} {u : State} (hact : programFactory d (portWriting s) = (c, u)) :
      PortEnded c u (objectWrite 0 0x3C00 0x0A d s) :=
    objectWrite_octets hrun ho hf (by decide) (by decide) rfl rfl hlen hact
  have herased : erasedIn (portWriting s).cab.mark 0 64 = erasedIn s.cab.mark 0 64 := rfl
  unfold programFactory at hended
  rw [herased] at hended
  refine ⟨fun hno => ⟨_, rfl, (hended (if_pos (by rw [hno]; rfl))).only rfl⟩, fun hyes hholdup => ?_⟩
  have hserves : ¬ (!cabServes (portWriting s)) = true := by simp [cabServes, portWriting, hholdup]
  have h := hended ((if_neg (by rw [hyes]; decide)).trans (if_neg hserves))
  have hcrc := length_le 4 (crc32c d)
  have hall : (d ++ le 4 (crc32c d) ++ zeros 4).length = 8 * 64 := by simp [zeros, hlen, hcrc]
  have hread {a len : Nat} (hin : a + len ≤ 512) : markBytes a len (objectWrite 0 0x3C00 0x0A d s)
      = slice (d ++ le 4 (crc32c d) ++ zeros 4) a len := by
    rw [markBytes_congr h.cab, show a = 8 * 0 + a from (Nat.zero_add a).symm]
    exact (markBytes_storeMark hall (by decide) hin).trans (by rw [Nat.mul_zero, Nat.zero_add])
  have hbody : markBytes 0 504 (objectWrite 0 0x3C00 0x0A d s) = d := by
    rw [hread (by decide), List.append_assoc]
    exact slice_append_left hlen
  have hcheck : markBytes 504 4 (objectWrite 0 0x3C00 0x0A d s) = le 4 (crc32c d) := by
    rw [hread (by decide)]
    exact slice_append_right hlen hcrc
  refine ⟨_, rfl, h.done, hbody, ?_, h.rest_mark rfl⟩
  rw [factoryOk, hcheck, hbody, leAt_crc]
  exact beq_self_eq_true _

theorem exec_customerSectorData {d : List Byte} {k : Nat} (ho : objCheck 0 .write 0x3C00 0x10 s = .inr o)
    (hlen : d.length = 4096) (hk : k = 0x740 + leVal (stored 0x3C00 0x0F s)) :
    ((s.modes.holdup = true ∨ sectorFailed s.cab k = true) →
      ∃ t, exec (.customerSectorData 0 d) s = .next t ∧ portOnly abSave s t ∧ t.cab = s.cab)
    ∧ (s.modes.holdup = false → sectorFailed s.cab k = false → ∃ t, exec (.customerSectorData 0 d) s = .next t ∧ portDone 0 t
      ∧ cabBytes k 0 512 t = d ∧ t.rings = s.rings ∧ t.modes = s.modes) := by
  have hf : findObj 0x3C00 0x10 = some (octetsObj 0x3C00 0x10 4096 .rw 1) := rfl
  have hended {c : Nat} {u : State} (hact : writeCustomer d (portWriting s) = (c, u)) :
      PortEnded c u (objectWrite 0 0x3C00 0x10 d s) :=
    objectWrite_octets hrun ho hf (by decide) (by decide) rfl rfl hlen hact
  have hsector : 0x740 + leVal (stored 0x3C00 0x0F (portWriting s)) = k := hk.symm
  have hworks : (!cabServes (portWriting s) || sectorFailed (portWriting s).cab k) = (s.modes.holdup || sectorFailed s.cab k) := by
    simp [cabServes, portWriting]
  unfold writeCustomer at hended
  extract_lets +onlyGivenNames sec at hended
  rw [show sec = k from hsector, hworks] at hended
  refine ⟨fun hno => ?_, fun hholdup hsound => ?_⟩
  · have h := hended (if_pos (by simpa using hno))
    exact ⟨_, rfl, h.only rfl, h.cab⟩
  · have h := hended (if_neg (by simp [hholdup, hsound]))
    have hfiled : Filed (portWriting s) (eraseSector k (portWriting s)) := eraseSector_filed (.refl _)
    simp only [Filed, State.filed, Prod.mk.injEq] at hfiled
    obtain ⟨hrings, hmodes, -, -⟩ := hfiled
    refine ⟨_, rfl, h.done, ?_, h.rings.trans hrings, h.modes.trans hmodes⟩
    rw [cabBytes, h.cab]
    exact cabBytes_storeBytes (s := eraseSector k (portWriting s)) hlen

end

end
end Sys2Proof.Machine

namespace Sys2Proof.Machine

/-- Settles O57, clause by clause: a request of the port is a whole value, so the object's own effect is all it does
(`objectWrite_acts`). -/
theorem objectsThatAct : Obligations.ObjectsThatAct := by
  unfold Obligations.ObjectsThatAct
  refine ⟨fun i c idx sub s h => ⟨?_, exec_objectCan_off h, exec_objectCan_lost h, ?_⟩,
    fun _ _ _ hrun => exec_authRequest hrun,
    fun r _ _ hrun => exec_authChallenge hrun r,
    fun _ _ _ hrun => exec_authKey hrun,
    fun _ _ _ hrun => exec_authSignature hrun,
    fun _ _ hrun => exec_authDrop hrun,
    fun _ _ _ hrun => exec_imageTarget hrun,
    fun _ _ _ hrun => exec_imageLength hrun, ?_, ?_,
    fun _ _ hrun => exec_restoreDefaults hrun,
    fun _ _ hrun => exec_statisticsMark hrun,
    fun _ _ hrun => exec_factoryRequest hrun,
    fun _ _ _ _ _ _ hi hrun => exec_raiseFloor hrun hi,
    fun _ _ _ hrun => exec_customerKeyProvision hrun,
    fun _ _ _ hrun => exec_factoryPart hrun,
    fun _ _ _ _ hrun => exec_customerSectorData hrun⟩
  · rintro rfl
    exact exec_objectPort_off h
  · rintro code rfl
    exact exec_objectPort_refused h
  · intro off last d o s hrun ho hd hoff hlast htime
    exact ⟨exec_imageData_refused hrun ho hd hoff hlast htime, exec_imageData_programs hrun ho hd hoff hlast htime⟩
  · intro o s hrun ho
    obtain ⟨hrun1, hrun0, hstays, hchecks⟩ := exec_imageCheck hrun ho
    refine ⟨hrun1, hrun0, hstays, fun hstate => ?_⟩
    obtain ⟨t, hexec, honly, hrefused, hfound⟩ := hchecks hstate
    refine ⟨t, hexec, honly, ?_⟩
    split
    · next r hr => exact hrefused r hr
    · next hr => exact hfound hr

end Sys2Proof.Machine
